-- ==== Sys2Proof/Word.lean ====
section
/-! DEFINITION. The word types: the bit vectors the spec treats as bits. -/

-- The package as one text is elaborated in order, within the memory of one thread.
set_option Elab.async false

namespace Sys2Proof

/-- A byte of memory or of a frame. -/
abbrev Byte := BitVec 8
/-- A register word (Scope: registers are 32 bits wide). -/
abbrev Word := BitVec 32
/-- A 64-bit value: a T64 time (R8), an E-code cell, a _LO/_HI pair. -/
abbrev Quad := BitVec 64

end Sys2Proof
end

