-- ==== Sys2Proof/Machine/Types/Program.lean ====
section
/-! DEFINITION. Programs and their runs: cell types, modules and descriptors as loaded, task descriptors, the run of a
task on a core, and what Collie holds (chapters 3 and 5). -/

namespace Sys2Proof

/-- R72: the seven cell types, in the order of their codes. -/
inductive EType where
  | b | i32 | u32 | i64 | f32 | f64 | t64
deriving DecidableEq, Repr

namespace Machine

/-- A sparse table: (key, value) pairs, keys strictly rising, no entry equal to the table's default. -/
abbrev Tbl (α : Type) := List (Nat × α)

/-- R98, R99: a variable descriptor. -/
structure VarDesc where
  kind : Nat
  ty : EType
  elems : Nat
  loc : Nat
  aux : Nat
deriving DecidableEq, Repr

/-- R97: an entry of the function table. -/
structure FuncDesc where
  offset : Nat
  args : Nat
  results : Nat
  locals : Nat
  kind : Nat
  maxStack : Nat
  retain : Nat
deriving DecidableEq, Repr

/-- R100: a publish-table entry. -/
structure PubEntry where
  var : Nat
  subindex : Nat
  index : Nat
  writeRoles : Nat
  flags : Nat
deriving DecidableEq, Repr

/-- R101: a record-table entry. -/
structure RecEntry where
  var : Nat
  cls : Nat
  signal : Nat
  mode : Nat
deriving DecidableEq, Repr

/-- A module as loaded: its header, sections and place (R82, R95 to R101). The uid tells a changed module of an online
change from the old one with the same MODULE_ID (R133). -/
structure Module where
  uid : Nat
  slot : Nat
  home : Nat
  id : Nat
  crc : Nat
  legacy : Bool
  consts : List Quad
  funcs : List FuncDesc
  vars : List VarDesc
  pubs : List PubEntry
  recs : List RecEntry
  globalSize : Nat
  code : List Byte
  /-- R82: the module image as it lies in the bank of the home plot. -/
  bytes : List Byte
  /-- R95: the offsets of the code section, the descriptors, and the publish and record tables in it. -/
  codeOff : Nat
  varOff : Nat
  pubOff : Nat
  recOff : Nat
deriving DecidableEq, Repr

/-- R156, R157: a task descriptor as the configuration image gives it, with the task's enable and policy (R151). -/
structure TaskDesc where
  kind : Nat
  prio : Nat
  spill : Bool
  home : Nat
  slot : Nat
  cls : Nat
  link : Nat
  func : Nat
  modSlot : Nat
  retainOff : Nat
  replyWp : Nat
  depth : Nat
  enable : Bool
  policy : Nat
  saveSize : Nat
deriving DecidableEq, Repr

/-- R156: the descriptor of no task. -/
def TaskDesc.unused : TaskDesc := ⟨0, 0, false, 0, 15, 0, 0xFFFF, 0, 0, 0, 0xFFFF, 0, false, 0, 0⟩

/-- R193: a flow's configuration. -/
structure FlowCfg where
  handler : Nat
  window : Nat
  valid : Bool
deriving DecidableEq, Repr

/-- R81: a retained image: copies A and B as cells, the selector, and whether the image of an online change has been
built yet (R134). -/
structure Retained where
  a : Tbl Quad
  b : Tbl Quad
  selB : Bool
  built : Bool
deriving DecidableEq, Repr

/-- A retained image of zeros. -/
def Retained.zero : Retained := ⟨[], [], false, true⟩

/-- R119: a journal entry. -/
structure JEntry where
  point : Nat
  ty : EType
  value : Quad
deriving DecidableEq, Repr

/-- R166: a staged action; a DELAY carries its second entry's dt here. -/
structure Action where
  code : Nat
  ty : EType
  kind : Nat
  handle : Nat
  target : Nat
  value : Quad
  dt : Quad
deriving DecidableEq, Repr

/-- R80: a frame: its function, the byte offset of its next instruction in the code section, its locals, and its part
of the task's operand stack (R79), top first. -/
structure Frame where
  func : Nat
  pc : Nat
  locals : Tbl Quad
  stack : List Quad
deriving DecidableEq, Repr

/-- R254: a channel's closed accumulator record; flags is its ACC_c_WIN_STATUS. -/
structure AccRec where
  n : Nat
  inv : Nat
  sum : Int
  sumsq : Nat
  min : Int
  minOfs : Nat
  max : Int
  maxOfs : Nat
  start : Quad
  flags : Nat
  shift : Nat
  scale : Quad
  gain : Nat
deriving DecidableEq, Repr

/-- An empty record. -/
def AccRec.empty : AccRec := ⟨0, 0, 0, 0, 0, 0, 0, 0, 0, 0, 0, 0, 0⟩

/-- R25: a snapshot: the base index and actual time of its headland, the classes due there, and the values cut. -/
structure Snapshot where
  index : Nat
  v : Quad
  classes : Nat
  /-- The input image, one byte a cell (R117 gives the addresses). -/
  vals : Tbl Byte
  /-- The age of an input source, in base periods or as its chapter counts it. -/
  ages : Tbl Nat
  /-- The quality bits of an input source (R90): bit 0 VALID, bit 1 SUBSTITUTE. -/
  quals : Tbl Nat
  /-- Input bytes under a force, as bit masks. -/
  forced : Tbl Byte
  /-- Pulse-catch latches: key class × 192 + pin. -/
  pulses : Tbl Nat
  /-- Closed accumulator records by channel. -/
  accs : Tbl AccRec
  /-- Status words, positions and velocities of the axes. -/
  axStat : Tbl Word
  axPos : Tbl Quad
  axVel : Tbl Quad
  /-- The class intervals at that headland (R52). -/
  intervals : Tbl Quad
deriving DecidableEq, Repr

/-- Before the first headland nothing has been cut. -/
def Snapshot.empty : Snapshot := ⟨0, 0, 0, [], [], [], [], [], [], [], [], [], []⟩

/-- R159, R168: a ready entry. -/
structure ReadyEntry where
  desc : Nat
  arg : Quad
  readyV : Quad
  replyTo : Nat
  /-- The flow item's sequence number, for a HANDLER item. -/
  seq : Option Nat
  /-- The base index of the class headland that made a cyclic task ready, or of the C0 snapshot at first dispatch. -/
  snapIndex : Option Nat
  /-- The raw grain at which the entry became ready. -/
  since : Quad
  /-- R180: the run is a repeat. -/
  again : Bool
  /-- R169: the task resumes after a WAIT from its save area. -/
  resume : Bool
  /-- R176: a cancel met the run that is repeated. -/
  cancelled : Bool
  /-- R139: the entry's dispatch was delayed for a capture, and the delay is counted. -/
  delayed : Bool
  /-- R133: the entry is of the old image of an online change. -/
  old : Bool
deriving DecidableEq, Repr

/-- How far a run has come. -/
inductive Phase where
  /-- Executing instructions. -/
  | executing
  /-- END, or RET from the entry, or a stop of the task without completion is behind it. -/
  | ended
  /-- WAIT on a waitpoint ended the segment (R169). -/
  | waiting (w : Nat)
  /-- Waits at completion step 3 for release-area space (R165). -/
  | stalled
deriving DecidableEq, Repr

/-- The run of a task on a core (R78 to R81). -/
structure Run where
  entry : ReadyEntry
  mod : Module
  func : Nat
  /-- The run is one of the old image of an online change (R133). -/
  old : Bool
  frames : List Frame
  work : Tbl Quad
  journal : List JEntry
  actions : List Action
  snap : Snapshot
  cls : Nat
  now : Quad
  interval : Quad
  /-- The system points that are true in this run (R118), as a mask. -/
  sys : Nat
  phase : Phase
  /-- R104: a fault of this run was recorded and posted. -/
  faulted : Bool
  /-- R176: the run was cancelled. -/
  cancelled : Bool
  /-- The waitpoint the segment of a stalled run waits on next. -/
  stallWait : Option Nat
  /-- The raw grain of dispatch. -/
  since : Quad
deriving DecidableEq, Repr

/-- R161: a core: its run, whether a TAKE waits at heel, and the busy core cycles not yet counted in units of 1,024. -/
structure Core where
  run : Option Run
  heel : Bool
  rem : Nat
deriving DecidableEq, Repr

/-- A core with no task that has not executed TAKE yet. -/
def Core.idle : Core := ⟨none, false, 0⟩

/-- R168: a pending post. -/
structure PostRec where
  arg : Quad
  readyV : Quad
  replyTo : Nat
deriving DecidableEq, Repr

/-- What Collie holds for a descriptor beyond its register (R168, R169). -/
structure TaskState where
  /-- R192: 0 IDLE, 1 READY, 2 RUNNING, 3 WAITING, 4 COMPLETE_HELD. -/
  st : Nat
  core : Option Nat
  again : Bool
  queue : List PostRec
  /-- The saved frames of a task that waits, and its waitpoint (R169). -/
  save : Option (Nat × List Frame)
  /-- System points that hold in the next first run, as a mask (R118). -/
  sysNext : Nat
  /-- R125: the base index and the raw grain of the class headland whose run has not completed yet. -/
  due : Option (Nat × Quad)
deriving DecidableEq, Repr

/-- A descriptor with nothing pending. -/
def TaskState.idle : TaskState := ⟨0, none, false, [], none, 0, none⟩

/-- R172: a delay entry. -/
structure DelayEntry where
  due : Quad
  expiry : Quad
  desc : Nat
  arg : Quad
  replyTo : Nat
deriving DecidableEq, Repr

/-- How far a flow item has come (R169, R174, R175); waiting: its segment ended in a WAIT. -/
inductive ItemState where
  | queued | ready | running | waiting | held | empty
deriving DecidableEq, Repr

/-- R173: an item of an ordered flow. -/
structure FlowItem where
  seq : Nat
  arg : Quad
  readyV : Quad
  replyTo : Nat
  st : ItemState
  /-- R169: the saved frames of an item that waits, and its waitpoint. -/
  save : Option (Nat × List Frame)
deriving DecidableEq, Repr

/-- R173, R174: a flow: the sequence number of its oldest unreleased item, and its items from there on. -/
structure Flow where
  head : Nat
  items : List FlowItem
deriving DecidableEq, Repr

/-- A flow with no items. -/
def Flow.idle : Flow := ⟨0, []⟩

/-- R164, R165: what a completed task left in the release area of its slice. -/
structure Release where
  desc : Nat
  core : Nat
  cls : Nat
  cyclic : Bool
  flow : Option (Nat × Nat)
  /-- R169: the segment ended in a WAIT, so that its flow item goes on. -/
  segment : Bool
  replyTo : Nat
  replyWp : Nat
  now : Quad
  journal : List JEntry
  actions : List Action
  folded : Bool
  released : Bool
deriving DecidableEq, Repr

/-- R171: a post of a block outside the cores on its way to a slice. -/
structure HwPost where
  desc : Nat
  arg : Quad
  /-- The raw grain, and its V, whose distance to READY_V the ARG carries in bits 63:48 (R259, R405). -/
  since : Option (Quad × Quad)
deriving DecidableEq, Repr

/-- Collie and the cores (chapter 5). -/
structure Collie where
  cores : Tbl Core
  tasks : Tbl TaskState
  /-- R133: the states of old-image tasks that run on past the change headland. -/
  oldTasks : Tbl TaskState
  /-- Ready lists: key plot × 16 + level; level 8 is served before all others (repeats, R180). -/
  ready : Tbl (List ReadyEntry)
  delays : Tbl (List DelayEntry)
  flows : Tbl Flow
  releases : Tbl (List Release)
  retained : Tbl Retained
  /-- Retained images of the old image while a change is in progress (R134, R136). -/
  oldRetained : Tbl Retained
  globals : Tbl (Tbl Quad)
  poolUsed : Nat
  hwPosts : List HwPost
  snaps : List Snapshot
  /-- R157: READY_V and ARG as Collie filled them last, by descriptor. -/
  last : Tbl (Quad × Quad)
  /-- R177: the Collie cycle of the last cancel, and the descriptors cancelled in it. -/
  cancels : Nat × List Nat
  /-- R82: the words of the module images in the plot banks that differ from the modules as loaded, by uid and word. -/
  codeMem : Tbl (Tbl (Option Quad))
  /-- R134: the valid copies, as they were at H_c, of the tasks that an online change keeps and its mapping names. -/
  mapFrom : Tbl (Option (Tbl Quad))
deriving DecidableEq, Repr

/-- Collie with nothing loaded (R185). -/
def Collie.empty : Collie := ⟨[], [], [], [], [], [], [], [], [], [], 0, [], [], [], (0, []), [], []⟩

end Machine
end Sys2Proof
end

