-- ==== Sys2Proof/Machine/Types/Analog.lean ====
section
/-! DEFINITION. The state of the converter units, reference buffers and channels (chapter 7). -/

namespace Sys2Proof.Machine

/-- How far an injected request or a calibration has come. -/
inductive Stage where
  | none | waiting | running
deriving DecidableEq, Repr

/-- R240 to R252: a converter unit. -/
structure AUnit where
  running : Bool
  /-- R241: the slot boundary at which a cleared RUN takes effect, and the one at which a set RUN does. -/
  stopAt : Option Quad
  startAt : Option Quad
  /-- The next regular entry, and the boundary of the unit's next slot. -/
  next : Nat
  slot : Quad
  inj : Stage
  injAt : Quad
  injNext : Nat
  /-- The end of the slot of the injected sequence's last entry, once that is converted. -/
  injEnd : Option Quad
  cal : Stage
  /-- The raw grain of the request, and of slot 0. -/
  calReq : Quad
  calAt : Quad
  /-- REF_SETTLED has stayed 1 throughout (R251). -/
  calOk : Bool
  /-- R252: the regular sequence stays stopped: until the restarted calibration ends, or the held injected sequence does. -/
  suspended : Bool
  /-- The last conversion word (R238) and its sampling instant. -/
  word : Word
  sampled : Quad
deriving DecidableEq, Repr

/-- A stopped unit. -/
def AUnit.stopped : AUnit := ⟨false, Option.none, Option.none, 0, 0, .none, 0, 0, Option.none, .none, 0, 0, false, false, 0, 0⟩

/-- R253, R254: an open window. -/
structure AccWin where
  m : Nat
  phase : Nat
  shift : Nat
  startV : Quad
  startRaw : Quad
  n : Nat
  inv : Nat
  sum : Int
  sumsq : Nat
  /-- The least and the greatest valid value, each with its raw offset from the start. -/
  min : Option (Int × Nat)
  max : Option (Int × Nat)
  gap : Bool
  nSat : Bool
  clip : Bool
  staged : Bool
deriving DecidableEq, Repr

/-- R244: a staged setting that is due: from a window close it takes effect at the channel's next conversion, from a slot boundary
at that boundary. -/
structure Staged where
  since : Quad
  cfg : Nat
  bySlot : Bool
deriving DecidableEq, Repr

/-- A channel: its filter (R245), its setting in force (R244), its window, its closed record and the registers' view of
it. -/
structure Chan where
  /-- GAIN, FILTER and FPARAM in force, in the layout of R274. -/
  cfg : Nat
  /-- R244: the staged setting that has come due. -/
  armed : Option Staged
  restart : Bool
  hist : List Int
  fill : Nat
  y : Int
  gainLeft : Nat
  /-- The reason and the validity of the last output (R248). -/
  reason : Nat
  valid : Bool
  win : Option AccWin
  closed : AccRec
  /-- The tracker has seen a valid value since it was cleared (R257). -/
  tracked : Bool
deriving DecidableEq, Repr

/-- A channel after power-on. -/
def Chan.fresh : Chan := ⟨0, none, false, [], 0, 0, 0, 0, false, none, AccRec.empty, false⟩

/-- R250: the sums of the 496 codes averaged in the offset and in the gain phase of a calibration, at the four gains. -/
structure CalSums where
  offs : Nat × Nat × Nat × Nat
  gains : Nat × Nat × Nat × Nat
deriving DecidableEq, Repr

/-- The analog part of the device. -/
structure Analog where
  units : Tbl AUnit
  chans : Tbl Chan
  /-- The raw grain at which a reference buffer is settled, by plot. -/
  settleAt : Tbl (Option Quad)
  /-- R242: requests on their way: the unit and the raw grain at which they reach it. -/
  reqs : List (Nat × Quad)
deriving DecidableEq, Repr

/-- Nothing runs. -/
def Analog.off : Analog := ⟨[], [], [], []⟩

end Sys2Proof.Machine
end

