-- ==== Sys2Proof/Machine/Types/Capture.lean ====
section
/-! DEFINITION. The state of capture and of the gleaner (chapter 8). -/

namespace Sys2Proof

/-- R314: the end of a copy to the spool. -/
inductive SpoolEnd where
  | copied
  /-- A DDR4 error; the sequence numbers of the spooled blocks that DDR4 cannot return. -/
  | fault (lost : List Nat)
deriving DecidableEq, Repr

namespace Machine

/-- R287 to R296: a capture channel. -/
structure CaptChan where
  /-- R291: 0 IDLE, 1 ARMED, 2 POST, 3 REARM, 4 WAIT_SLOT. -/
  st : Nat
  /-- ARM was written; the channel enters ARMED at its first sample from this raw grain on. -/
  armAt : Option Quad
  /-- The slot in use or to be taken next. -/
  slot : Nat
  /-- Segments ended since the ARM. -/
  taken : Nat
  /-- The pre-trigger ring: records written and the next place. -/
  preValid : Nat
  preNext : Nat
  post : Nat
  /-- The segment: FIRST, the raw grain and V of its trigger sample, TRIG_MAP, INVALID, DEAD_TIME, missed events. -/
  first : Bool
  trigRaw : Quad
  trigV : Quad
  trigMap : Nat
  invalid : Bool
  deadTime : Nat
  segMissed : Nat
  segMissedV : Quad
  /-- The segment has no sample yet. -/
  fresh : Bool
  /-- Events missed since the last trigger sample, and the first one's time. -/
  missed : Nat
  missedV : Quad
  /-- The raw grain of the last sample, and of the last record of the segment before. -/
  last : Option Quad
  segLast : Option Quad
  /-- The record that the last one replaced in the pre-trigger ring, and the trigger map of the last sample. -/
  pushed : Option Quad
  lastMap : Nat
  /-- R287: the flags of the four conditions, as masks, and the sample before. -/
  rise : Nat
  fall : Nat
  prev : Option Quad
  /-- R289: triggers not attributed yet: source code and raw grain. -/
  trigs : List (Nat × Quad)
deriving DecidableEq, Repr

/-- A channel after power-on. -/
def CaptChan.idle : CaptChan := ⟨0, none, 0, 0, 0, 0, 0, false, 0, 0, 0, false, 0, 0, 0, true, 0, 0, none, none, none, 0, 0, 0, none, []⟩

/-- Capture: the channels, the READY descriptors in the order in which they became so, and the one in copying. -/
structure Capture where
  chans : Tbl CaptChan
  ready : List Nat
  copying : Option Nat
deriving DecidableEq, Repr

/-- R301: the settings of a gleaner signal. -/
structure SigCfg where
  kind : Nat
  /-- R301: a point reference, a module slot × 2^24 + descriptor, an AIN number or an entry location. -/
  source : Nat
  ty : EType
  cls : Nat
  edge : Bool
  div : Nat
  deadband : Quad
  heartbeat : Nat
  minInt : Nat
deriving DecidableEq, Repr

/-- A signal that is not used. -/
def SigCfg.unused : SigCfg := ⟨0, 0, .b, 0, false, 1, 0, 0, 0⟩

/-- R304 to R306: what the gleaner knows of a signal. -/
structure SigState where
  /-- The last recorded value with its quality. -/
  last : Option (Quad × Nat)
  /-- The tag and the base index of the last record. -/
  tag : Quad
  index : Nat
  /-- The loss epoch of its class in which the last record was written. -/
  epoch : Nat
  /-- R306: held edges, and the latest one's value and tag. -/
  held : Nat
  heldEdge : Option (Quad × Quad)
deriving DecidableEq, Repr

/-- A signal that has no record yet. -/
def SigState.none_ : SigState := ⟨none, 0, 0, 0, 0, none⟩

/-- R308, R311: a block; its records as bytes, and its place in the recorder bank or, once it is copied, in the spool ring. -/
structure Block where
  seq : Nat
  baseV : Quad
  cls : Nat
  timeClose : Bool
  recovered : Bool
  count : Nat
  bytes : List Byte
  firstTag : Quad
  lastTag : Quad
  place : Nat
deriving DecidableEq, Repr

/-- R310, R312: a loss of a class. -/
structure Loss where
  records : Nat
  blocks : Nat
  fromV : Quad
  toV : Quad
  /-- The loss goes on. -/
  open_ : Bool
  /-- A gap record is due; V of the last one. -/
  due : Bool
  lastGap : Quad
deriving DecidableEq, Repr

/-- No loss. -/
def Loss.none_ : Loss := ⟨0, 0, 0, 0, false, false, 0⟩

/-- The gleaner. -/
structure Gleaner where
  sigs : Tbl SigCfg
  /-- R301: settings written through the window, in force from the next base headland. -/
  staged : Tbl (Option SigCfg)
  states : Tbl SigState
  /-- Loss epochs by class, counted from 1 once the gleaner is enabled. -/
  epochs : Tbl Nat
  blocks : Tbl (Option Block)
  /-- Closed blocks that wait in the recorder bank, and blocks in the spool, in BLOCK_SEQ order. -/
  waiting : List Block
  spool : List Block
  recovered : List Block
  losses : Tbl Loss
  /-- R453: the session that holds the stream, its window, the next block to send, and when the acknowledgement last moved. -/
  stream : Option Nat
  window : Nat
  nextSend : Nat
  sentAt : Quad
  /-- The BLOCK_SEQ after the last one ever sent. -/
  sent : Nat
  /-- The next place of the spool ring. -/
  spoolNext : Nat
deriving DecidableEq, Repr

/-- The gleaner after power-on. -/
def Gleaner.off : Gleaner := ⟨[], [], [], [], [], [], [], [], [], none, 0, 0, 0, 0, 0⟩

end Machine
end Sys2Proof
end

