-- ==== Sys2Proof/Machine/Types/Code.lean ====
section
/-! DEFINITION. Operand forms of E-code instructions (R83, R84). -/

namespace Sys2Proof

/-- R83: a variable-descriptor operand: 16 bits, or 24 bits behind the prefix WIDE. -/
inductive VarIdx where
  | d16 (d : BitVec 16)
  | d24 (d : BitVec 24)
deriving DecidableEq, Repr

/-- The index that the operand names. -/
def VarIdx.idx : VarIdx → Nat
  | .d16 d => d.toNat
  | .d24 d => d.toNat

/-- The bytes that WIDE and the wider operand add to the instruction. -/
def VarIdx.extra : VarIdx → Nat
  | .d16 _ => 0
  | .d24 _ => 2

/-- R84: a branch offset of 8, 16 or 24 bits. -/
inductive BrOff where
  | s8 (d : BitVec 8)
  | s16 (d : BitVec 16)
  | s24 (d : BitVec 24)
deriving DecidableEq, Repr

/-- The signed number of bytes. -/
def BrOff.val : BrOff → Int
  | .s8 d => d.toInt
  | .s16 d => d.toInt
  | .s24 d => d.toInt

/-- The size of the branch instruction in bytes. -/
def BrOff.size : BrOff → Nat
  | .s8 _ => 2
  | .s16 _ => 3
  | .s24 _ => 4

end Sys2Proof
end

