-- ==== Sys2Proof/Machine/Types/Granary.lean ====
section
/-! DEFINITION. The state of the granary, the memory tests and the repair store (chapter 14). -/

namespace Sys2Proof

/-- R542: how the write of a line ends: verified at once, verified at the second attempt, written in a spare block, or failed
for want of a spare. -/
inductive LineEnd where
  | verified | retried | remapped | noSpare
deriving DecidableEq, Repr

/-- R533, R534: what the harrow finds in a word. -/
inductive WordEnd where
  | clean
  /-- Correctable, at a bit. -/
  | correctable (bit : Fin 72)
  | uncorrectable
deriving DecidableEq, Repr

namespace Machine

/-- R540: what a waiting write of the granary carries. -/
inductive GranWork where
  /-- The cut being written. -/
  | cut
  /-- The PERSIST record of an entry, and the region place of one. -/
  | persist (key : Nat)
  | region (key : Nat)
  | secure | safety | repair | config
deriving DecidableEq, Repr

/-- R540: a waiting write: the lines still to be written, and the raw grain from which its next line waits. -/
structure GranJob where
  work : GranWork
  lines : Nat
  failed : Bool
  since : Quad
deriving DecidableEq, Repr

/-- R423, R539: a persisted entry: its TYPE (R419), its value in cells, its update sequence, and what its region place
holds: sequence and raw grain of the last rewrite; the place of its newest PERSIST record in the ring; and what the granary holds of it,
record or region place, whichever is newer: sequence (0 none), TYPE and cells. -/
structure PersistVal where
  ty : Nat
  cells : List Quad
  seq : Nat
  regSeq : Nat
  regAt : Quad
  off : Nat
  kept : Nat × Nat × List Quad
deriving DecidableEq, Repr

/-- R549: a repair record. -/
structure RepairRec where
  kind : Nat
  source : Nat
  state : Nat
  unit : Nat
  sub : Nat
  row : Nat
  bit : Nat
  spare : Nat
  count : Nat
  time : Nat
deriving DecidableEq, Repr

/-- R529, R531: what a write does with its bytes: it stores them, or sets or clears the bits they have as 1. -/
inductive BankOp where
  | store
  | setBits
  | clearBits
deriving DecidableEq, Repr

/-- R529: a write that waits for the end of a drain: its bank, its address, and what it does there. -/
structure HeldWrite where
  bank : Nat
  addr : Nat
  op : BankOp
  bytes : List Byte
deriving DecidableEq, Repr

/-- The granary and the memory tests. -/
structure Granary where
  jobs : List GranJob
  /-- R536: the write point of the ring, and the sequence number of its segment. -/
  head : Nat
  segSeq : Nat
  /-- The places of the stored cuts, by SEQ: offset and bytes. -/
  places : Tbl (Nat × Nat)
  persist : Tbl (Option PersistVal)
  /-- R315: the blocks saved at a power failure. -/
  saved : List Block
  /-- R534: the next word of each bank, and the consecutive passes in which a word was correctable. -/
  harrow : Tbl Nat
  weak : Tbl Nat
  /-- R546: the next window of each bank. -/
  fallow : Tbl Nat
  /-- R533: poisoned words, by address. -/
  poison : List Nat
  repairs : List RepairRec
  /-- R529: the writes that wait for a drain, by bank: address and bytes. -/
  held : List HeldWrite
  /-- R529: the old owner of a draining bank and the grain of the hand-over. -/
  drains : Tbl (Nat × Nat)
  /-- R541: the wear table: writes of each 4 KiB block of the ring, by its number in the granary. -/
  wear : Tbl Nat
deriving DecidableEq, Repr

/-- A granary never written. DEDUCED (assumption 69). DESIGN CHOICE (assumption 213). -/
def Granary.fresh : Granary := ⟨[], 0, 0, [], [], [], [], [], [], [], [], [], [], []⟩

end Machine
end Sys2Proof
end

