-- ==== Sys2Proof/Machine/Types/Farm.lean ====
section
/-! DEFINITION. Farms and twins (chapter 16): what the configuration image declares, the contents of Drustra messages, and the
state that no register holds. -/

namespace Sys2Proof

/-- R588, R589: the farm table: the devices, the links as (device, port, device, port), and the period and class words. -/
structure FarmTable where
  devs : List Nat
  links : List (Nat × Nat × Nat × Nat)
  period : Nat
  classes : List Nat
deriving DecidableEq, Repr

/-- R588: what the far end tells at link-up: its FARM_ID and port, its farm table, the period and class words in force, and the
links of the table that it knows to be open. -/
structure FarmHello where
  dev : Nat
  port : Nat
  table : Option FarmTable
  period : Nat
  classes : List Nat
  open_ : List Nat
deriving DecidableEq, Repr

/-- A link: an own port, or a link between other devices by its place in the farm table. -/
inductive FarmLink where
  | own (p : Fin 3)
  | remote (i : Nat)
deriving DecidableEq, Repr

/-- R602: a mirrored transaction with STATION participants: its handle, its ports, whether it is decided to commit, and its
commit headland with its actual time. -/
structure TwinTxn where
  handle : Nat
  ports : List Nat
  commit : Bool
  at_ : Nat
  v : Quad
deriving DecidableEq, Repr

/-- R602: what a primary mirrors at a base headland: its index; input bytes by image address with ages and qualities by source;
station states as (port, station, state); the CYCLE of each port with the index of its field headland; host writes to
variables (index × 256 + sub-index, cell, value); force edits (entry, POINT, CTRL, value); the transactions; and whether the mirror of
the headland is complete. -/
structure TwinMirror where
  index : Nat
  inputs : List (Nat × BitVec 8)
  ages : List (Nat × Nat)
  quals : List (Nat × Nat)
  stations : List (Nat × Nat × Nat)
  cycles : List (Nat × Nat × Nat)
  writes : List (Nat × Nat × Quad)
  forces : List (Nat × BitVec 32 × BitVec 32 × Quad)
  txns : List TwinTxn
  complete : Bool
deriving DecidableEq, Repr

namespace Machine

/-- R595: a FARM input point of the image: its reference and type, and its substitute (0 ZERO, 1 HOLD, 2 FIXED). -/
structure FarmPoint where
  ref : Nat
  ty : EType
  subst : Nat
  fixed : Quad
deriving DecidableEq, Repr

/-- R602, R603: a twin beyond its registers. -/
structure Twin where
  /-- The index of the newest headland whose mirror is complete. -/
  mirrorAt : Nat
  /-- The index of the newest heartbeat, and whether a primary's frame was seen since the previous headland. -/
  beat : Option Nat
  frameSeen : Bool
  /-- Mirrored CYCLEs by port: the CYCLE and the index of its field headland. -/
  cycles : List (Nat × Nat × Nat)
  txns : List TwinTxn
  /-- A takeover, or a return to step, at the next headland. -/
  takeover : Bool
  rejoin : Bool
deriving DecidableEq, Repr

/-- A farm member beyond its registers. -/
structure Farm where
  /-- Links of the farm table known to be open, by place. -/
  up : List Nat
  /-- Base headlands since a device became unreachable. -/
  lostAge : Tbl Nat
  /-- R591: F, the last θ and the raw grain of its t2, consecutive samples, first lock waiting for the host, seated. -/
  f : Int
  prev : Option (Int × Quad)
  run : Nat
  waitSeat : Bool
  tracking : Bool
  /-- R593: out of step since a holdover began. -/
  outOfStep : Bool
  /-- R592: a headland message was missed. -/
  missed : Bool
  /-- R593: devices whose last FARM values told that they are out of step. -/
  unlocked : List Nat
  /-- R595, R592, R603: the FARM values sent last with their base index, and the indices of the headland message and of the
  heartbeat sent last. -/
  sent : List (Nat × Quad)
  sentAt : Nat
  headMsg : Nat
  beatSent : Nat
  twin : Twin
deriving DecidableEq, Repr

/-- No farm. -/
def Farm.alone : Farm :=
  ⟨[], [], 0, none, 0, false, false, false, false, [], [], 0, 0, 0, ⟨0, none, false, [], [], false, false⟩⟩

end Machine
end Sys2Proof
end

