-- ==== Sys2Proof/Machine/Types/Txn.lean ====
section
/-! DEFINITION. Step transactions (chapter 6) and the controller's own state (chapter 4). -/

namespace Sys2Proof

/-- R597, R598: what a peer tells its coordinator after the decision. -/
inductive PeerAnswer where
  /-- The receipt of the decision. -/
  | received
  /-- A commit learned in doubt and applied L base periods late. -/
  | late (l : Nat)
  /-- The peer discarded its record at its limit. -/
  | expired
deriving DecidableEq, Repr

/-- R598: who asks for a decision: this device as a peer in doubt asks the other, which answers (none: it no longer holds the record); or
the other, in doubt, asks this one. -/
inductive DoubtAsk where
  | asks (answer : Option Bool)
  | asked
deriving DecidableEq, Repr

end Sys2Proof

namespace Sys2Proof.Machine

/-- R199: a participant. -/
structure Part where
  kind : Nat
  id : Nat
  /-- R235: 0 pending, 1 YES, 2 NO, 3 none at the decision. -/
  vote : Nat
  reason : Nat
  outcome : Nat
  /-- A peer is in doubt, or a station was lost in doubt or is unconfirmed (TXN_s_DOUBT). -/
  doubt : Bool
  late : Bool
deriving DecidableEq, Repr

/-- R201: an action of a transaction. -/
structure TxAction where
  part : Nat
  /-- The kind of the target (R99): 3 OUTPUT, 5 AXIS, 10 ENTRY. -/
  kind : Nat
  target : Nat
  ty : EType
  axisCmd : Nat
  value : Quad
  /-- R419: the wire type of an entry's value; that of the cell type where the target is not an entry of a peer. -/
  wire : Nat
deriving DecidableEq, Repr

/-- R203, R204: a transaction slot. -/
structure Txn where
  gen : Nat
  /-- R234: 1 task, 2 JOA session, 3 host. -/
  ownerKind : Nat
  ownerId : Nat
  /-- R92: the handle is reserved by a run that has not released its TXOPEN. -/
  reserved : Bool
  state : Nat
  cause : Nat
  actions : List TxAction
  count : Nat
  parts : List Part
  badAction : Bool
  full : Bool
  tooMany : Bool
  /-- B_H, the base index of the commit headland. -/
  at_ : Nat
  /-- B_n, the first headland at least 1,024 grains after the seal (R208). -/
  bn : Nat
  /-- The actual time of H from the decision. -/
  commitV : Quad
  /-- The base index at which the transaction opened, and at which it reached its final state. -/
  openIndex : Nat
  finalIndex : Nat
  /-- The raw grain of the seal (R209), and whether local staging has ended. -/
  sealRaw : Quad
  localDone : Bool
  /-- Stage records have entered output frames (R215). -/
  staged : Bool
  decided : Bool
  commit : Bool
  applied : Bool
  forced : Bool
  lateMax : Nat
  dropped : Bool
deriving DecidableEq, Repr

/-- A free slot. -/
def Txn.free : Txn := ⟨0, 0, 0, false, 0, 0, [], 0, [], false, false, false, 0, 0, 0, 0, 0, 0, false, false, false, false,
  false, false, 0, false⟩

/-- R215: a decision that is broadcast at H − P/8: its transaction may be over by then. -/
structure Decided where
  at_ : Nat
  handle : Nat
  commit : Bool
  commitV : Quad
  ports : List Nat
  peers : List Nat
  /-- The peers that voted YES. -/
  yes : List Nat
deriving DecidableEq, Repr

/-- R210, R215, R218: what a field port's frames repeat of a transaction: the port, the slot, the decision and how many
field cycles are left; with no decision, stage records from a field headland on. -/
structure DecRepeat where
  port : Nat
  slot : Nat
  handle : Nat
  commit : Bool
  index : Nat
  commitV : Quad
  left : Nat
deriving DecidableEq, Repr

/-- R212, R598: a transaction held for a remote coordinator, with a vote of YES. -/
structure PeerTxn where
  coord : Nat
  handle : Nat
  at_ : Nat
  actions : List (Nat × EType × Quad)
  /-- The decision, once known. -/
  decision : Option Bool
  applied : Bool
  doubtSince : Option Nat
deriving DecidableEq, Repr

/-- R217: a write to an entry that waits for the principal task's run to end. -/
structure DeferredWrite where
  desc : Nat
  cell : Nat
  value : Quad
  old : Bool
deriving DecidableEq, Repr

/-- The TXN engine (chapter 6). -/
structure TxnEngine where
  slots : Tbl Txn
  gens : Tbl Nat
  repeats : List DecRepeat
  peers : List PeerTxn
  deferred : List DeferredWrite
  /-- Decision frames handed to the ports and messages sent to peers, newest last: (destination, handle, commit); ports
  are 0 to 3, peers 16 + device. -/
  sent : List (Nat × Nat × Bool)
  /-- R215: the decisions taken and not broadcast yet. -/
  casts : List Decided
  /-- R212: the actions that the last seal sent to peers: device, handle, B_H and actions. -/
  sentActions : List (Nat × Nat × Nat × List TxAction)
  /-- R212, R235: the vote that the device last returned as a peer: coordinator, handle, YES, and the reason of a NO. -/
  peerVote : Option (Nat × Nat × Bool × Nat)
  /-- R598: the decision records kept for peers in doubt: device, handle and decision; and the last answer given to one that asked. -/
  doubts : List (Nat × Nat × Bool)
  doubtAnswer : Option (Nat × Nat × Option Bool)
  /-- R217: the persisted entries that are saved when a write that waits for a run has taken effect. -/
  saveDue : List Nat
deriving DecidableEq, Repr

def TxnEngine.empty : TxnEngine := ⟨[], [], [], [], [], [], [], [], none, [], none, []⟩

/-- R137: a checkpoint cut. -/
structure Cut where
  seq : Nat
  /-- R537: the kind. -/
  kind : Nat
  index : Nat
  v : Quad
  config : Nat
  state : Nat
  cause : Nat
  retained : Tbl (Tbl Quad)
  oldRetained : Tbl (Tbl Quad)
  enables : Tbl Nat
  /-- The selectors at the cut, 1 for copy A and 2 for copy B (R139). -/
  sels : Tbl Nat
  /-- R537: OLC_STATE at the cut, and the bytes of each task's retained image; of an old image's under task + 4,096. -/
  olc : Nat
  sizes : Tbl Nat
deriving DecidableEq, Repr

/-- What a configuration image is refused for. -/
inductive LoadRefusal where
  /-- R102: a module slot, the code of the first failed check, and the offsets of the failing items. -/
  | module (slot code : Nat) (offs : List Nat)
  /-- R158, R169: the first failing descriptor. -/
  | descriptor (t : Nat)
  /-- R302: the first failing signal. -/
  | signal (n : Nat)
  /-- R379, R390: a station table, or a pair of ports. -/
  | stations
  /-- Another rule of an image as a whole. -/
  | image
deriving DecidableEq, Repr

/-- The controller (chapter 4). -/
structure Exec where
  /-- R124: a pending START, RESUME or ABORT with its headland's base index. -/
  pendCmd : Option (Nat × Nat)
  /-- R537: the kind of a cut asked for at the next base headland: 2 by CHECKPOINT (R123), 3 after an online change (R136); 0 none. -/
  cutAsked : Nat
  /-- R138: the cuts in the two staging buffers: those in capture, oldest first, the one being written, the one waiting. -/
  capture : List Cut
  writing : Option Cut
  waiting : Option Cut
  /-- Cuts in the granary whose commit record verifies, newest last. -/
  stored : List Cut
  cutSeq : Nat
  /-- R132 to R136: the change headland and whether the change is past it; the classes that had a headland since. -/
  olcAt : Nat
  olcSeen : Nat
  /-- R140: tasks halted for a power failure; the raw grain of the assertion. -/
  pfail : Option Quad
  /-- R141: the raw grain W of the bridge, whether the bridge cut is taken, whether images are restored, and the headlands
  bridged. -/
  bridgeW : Option Quad
  bridgeCut : Bool
  restored : Option Nat
  bridgeCount : Nat
  rejoinAt : Nat
  /-- R153: CLEAR_ALL waits for the next headland. -/
  clearAll : Bool
  /-- R102, R158, R302: what the last image refused was refused for. -/
  refusal : Option LoadRefusal
  /-- R130: the input forces in force during a bridge: those of its start. -/
  bridgeForces : List (Nat × EType × Quad)
  /-- R136, R327: the word that the new image of an online change sets GLEAN_CTRL to when it becomes active. -/
  newGlean : Option Word
deriving DecidableEq, Repr

def Exec.off : Exec := ⟨none, 0, [], none, none, [], 0, 0, 0, none, none, false, none, 0, 0, false, none, [], none⟩

/-- The output images (R28 to R30): for each class the shadow image and the bits folded into it since its last headland;
the image under stages 1 and 2; and the live image. -/
structure Images where
  shadow : Tbl (Tbl Byte)
  fresh : Tbl (Tbl Byte)
  base : Tbl Byte
  live : Tbl Byte
  /-- The image sealed last: what frames and pins carry. -/
  sealed : Tbl Byte
  /-- The levels of the local digital outputs at the balls (R53). -/
  balls : Tbl Byte
  /-- R30: the actions of stage 2 at the last headland, and the output forces of stage 3 last in force. -/
  acts : List TxAction
  forces : List (Nat × EType × Quad)
deriving DecidableEq, Repr

def Images.zero : Images := ⟨[], [], [], [], [], [], [], []⟩

end Sys2Proof.Machine
end

