-- ==== Sys2Proof/Machine/Types/Field.lean ====
section
/-! DEFINITION. The field network (chapter 10): what the configuration image declares of stations, nodes, slaves and pins,
and the state of ports, stations, nodes, slaves and GPIO that no register holds. -/

namespace Sys2Proof

/-- R382: an ident record. -/
structure Ident where
  outLen : Nat
  inLen : Nat
  vendor : Nat
  product : Nat
  revision : Nat
  serial : Nat
deriving DecidableEq, Repr

/-- R382: the records of a reply. -/
inductive ReplyRecord where
  /-- R211: VOTE, TXID and REASON. -/
  | vote (yes : Bool) (txid : Nat) (reason : Nat)
  /-- R218: RESULT, TXID and CYCLE. -/
  | ack (result : Nat) (txid : Nat) (cycle : Nat)
  | ident (r : Ident)
deriving DecidableEq, Repr

/-- R382: a reply as received: the fields of its header, its inputs and records, and the checks that only the wire can
show: the frame check, that Ethertype and destination fit, and that VERSION, KIND and the records are well formed. -/
structure Reply where
  fcs : Bool
  addressed : Bool
  formed : Bool
  src : Nat
  station : Nat
  status : Nat
  cycle : Nat
  diag : Word
  inputs : List Byte
  records : List ReplyRecord
deriving DecidableEq, Repr

/-- The frames a CAN node sends (R393 to R397). -/
inductive CanMsg where
  | bootUp
  | heartbeat (state : Nat)
  | emcy (bytes : List Byte)
  /-- A synchronous TPDO by its number. -/
  | tpdo (i : Nat) (bytes : List Byte)
  /-- An extended identifier, or one that no configured node uses. -/
  | other
deriving DecidableEq, Repr

/-- How an SDO ends: success with the bytes of an upload, an abort code, or a timeout. -/
inductive SdoEnd where
  | success (bytes : List Byte)
  | abort (code : Nat)
  | timeout
deriving DecidableEq, Repr

/-- R402: how a Modbus entry ends. -/
inductive ModbusEnd where
  /-- The data of a read. -/
  | good (data : List Byte)
  | crc
  | malformed
  | exception (code : Nat)
deriving DecidableEq, Repr

namespace Machine

/-- R384: an entry of a station table. -/
structure StationCfg where
  num : Nat
  mac : Nat
  outLen : Nat
  inLen : Nat
  start : Nat
  len : Nat
  wd : Nat
  vendor : Nat
  product : Nat
  revision : Nat
  /-- 0 ZERO, 1 HOLD, 2 FIXED. -/
  subst : Nat
  fixed : List Byte
deriving DecidableEq, Repr

/-- R393, R395: a CANopen node of the image. -/
structure NodeCfg where
  node : Nat
  resetComm : Bool
  vendor : Nat
  product : Nat
  revision : Nat
  /-- The bytes of each TPDO and RPDO, in order. -/
  tpdos : List Nat
  rpdos : List Nat
  /-- R394: the COB-IDs of the RPDOs, in order; 0, or none given, the default of CiA 301. -/
  cobs : List Nat
  /-- The SDO list: index, sub-index, bytes. -/
  sdos : List (Nat × Nat × List Byte)
  hbMs : Nat
  bootMs : Nat
  retryMs : Nat
  subst : Nat
  fixed : List Byte
deriving DecidableEq, Repr

/-- R400: a poll-list entry; wstart and wqty are the write half of function 0x17. -/
structure PollEntry where
  slave : Nat
  func : Nat
  start : Nat
  qty : Nat
  elem : Nat
  wstart : Nat
  wqty : Nat
  welem : Nat
deriving DecidableEq, Repr

/-- A Modbus slave of the image: its substitute and BOOT_MS. -/
structure SlaveCfg where
  slave : Nat
  subst : Nat
  fixed : List Byte
  bootMs : Nat
deriving DecidableEq, Repr

/-- R384: what a station last sent. -/
structure StationSt where
  /-- The good reply to the current output frame: its inputs and STATUS. -/
  good : Option (List Byte × Nat)
  /-- Good replies on the even and odd path to the current frame (R390). -/
  pathA : Bool
  pathB : Bool
  /-- The base index of the field headland whose frame the newest good reply answered (R388). -/
  lastGood : Option Nat
  /-- A JOIN_REQ with its ident record, waiting for the next field headland (R386). -/
  join : Option Ident
  /-- The good reply without JOIN_REQ to a frame with ADMIT 1 came (R386, step 4). -/
  admitted : Bool
  /-- A JOIN_REQ from an OPERATIONAL or STALE station. -/
  dropped : Bool
  inputs : List Byte
deriving DecidableEq, Repr

/-- A station not heard yet. -/
def StationSt.fresh : StationSt := ⟨none, false, false, none, none, false, false, []⟩

/-- A field port beyond its registers. -/
structure FieldPort where
  /-- Frames are sent; the base index of the current frame's field headland and the frames sent since EN. -/
  running : Bool
  headland : Nat
  frames : Nat
  /-- The raw grain of the current frame's origin O. -/
  origin : Quad
  /-- R380: the last output frame and decision frame as bytes, without preamble and frame check. -/
  lastOut : List Byte
  lastDec : List Byte
  /-- R390: consecutive cycles in which no station gave a good reply on the path. -/
  silent : Nat
deriving DecidableEq, Repr

def FieldPort.idle : FieldPort := ⟨false, 0, 0, 0, [], [], 0⟩

/-- The step a booting node has reached (R395). -/
inductive BootStep where
  | wait | ident (i : Nat) | sdo (i : Nat) | start | idle | retry
deriving DecidableEq, Repr

/-- R395, R396: a node beyond its registers. -/
structure NodeSt where
  boot : BootStep
  /-- TPDOs received since the last CAN cycle headland, as a mask, and the cycles without one. -/
  got : Nat
  idents : List Nat
deriving DecidableEq, Repr

def NodeSt.fresh : NodeSt := ⟨.idle, 0, []⟩

/-- R397: an SDO on a CAN port: 0 host, 1 boot of the node, 2 proxy; with node, index, sub-index and direction. -/
structure SdoRun where
  source : Nat
  node : Nat
  index : Nat
  sub : Nat
  download : Bool
  bytes : List Byte
deriving DecidableEq, Repr

/-- R391: a CAN port beyond its registers; queued frames are (COB-ID, bytes), oldest first, of the last cycle. -/
structure CanPort where
  sdo : Option SdoRun
  queue : List (Nat × List Byte)
deriving DecidableEq, Repr

def CanPort.idle : CanPort := ⟨none, []⟩

/-- R401, R402: a serial port beyond its registers: the scan and the request in progress. -/
structure SerPort where
  scanning : Bool
  entry : Nat
  tries : Nat
  /-- The port waits TURN_MS after a broadcast. -/
  turn : Bool
  /-- Slaves with an OK entry, and with any entry, in this scan. -/
  okSlaves : List Nat
  /-- A further scan starts when this one ends. -/
  again : Bool
  startRaw : Quad
  /-- The last request sent: slave, function, and its data bytes. -/
  request : List Byte
  image : Tbl Byte
deriving DecidableEq, Repr

def SerPort.idle : SerPort := ⟨false, 0, 0, false, [], false, 0, [], []⟩

/-- R402: a slave beyond its registers. -/
structure SlaveSt where
  failed : Nat
  everOk : Bool
deriving DecidableEq, Repr

def SlaveSt.fresh : SlaveSt := ⟨0, false⟩

/-- The field network. -/
structure Field where
  ports : Tbl FieldPort
  /-- Stations, key port × 256 + station. -/
  stations : Tbl StationSt
  can : Tbl CanPort
  /-- Nodes, key port × 128 + node. -/
  nodes : Tbl NodeSt
  ser : Tbl SerPort
  /-- Slaves, key port × 256 + slave. -/
  slaves : Tbl SlaveSt
  /-- Filtered levels of the GPIO pins (R404), as bits. -/
  filt : Nat
deriving DecidableEq, Repr

def Field.empty : Field := ⟨[], [], [], [], [], [], 0⟩

end Machine
end Sys2Proof
end

