-- ==== Sys2Proof/Machine/Types/Image.lean ====
section
/-! DEFINITION. The configuration image as loaded: what the chapters say the image gives. -/

namespace Sys2Proof.Machine

/-- R127: an output point: its reference and type, its safe mode (0 OFF, 1 HOLD, 2 FIXED) and value, and its seed. -/
structure OutPoint where
  ref : Nat
  ty : EType
  safeMode : Nat
  safeVal : Quad
  seed : Quad
deriving DecidableEq, Repr

/-- R135: an entry of the mapping table of an online change. -/
structure MapEntry where
  oldModule : Nat
  oldVar : Nat
  conv : Nat
  newModule : Nat
  newVar : Nat
deriving DecidableEq, Repr

/-- R422: the metadata record of a published entry: MIN, MAX and DEFAULT in wire form, the unit and the name. -/
structure MetaRec where
  min : Quad
  max : Quad
  dflt : Quad
  unit : List Byte
  name : List Byte
deriving DecidableEq, Repr

/-- A configuration image. -/
structure Image where
  id : Nat
  modules : List Module
  tasks : Tbl TaskDesc
  flows : Tbl FlowCfg
  outs : List OutPoint
  ins : List (Nat × EType)
  maps : List MapEntry
  releaseBytes : Tbl Nat
  /-- Metadata by index × 256 + sub-index. -/
  metas : Tbl (Option MetaRec)
  /-- R384: the station tables by port. -/
  stations : Tbl (List StationCfg)
  /-- R393: the nodes of the CAN ports. -/
  nodes : Tbl (List NodeCfg)
  /-- R400: the poll lists and slaves of the serial ports. -/
  polls : Tbl (List PollEntry)
  slaves : Tbl (List SlaveCfg)
  /-- R403: the pins' GPIO_i_CFG words, and R408's port addresses. -/
  pins : Tbl Word
  macs : Tbl Nat
  /-- R588: the farm table; the FARM inputs, and the FARM outputs that other devices read; DRUS_TWIN_CFG. -/
  farm : Option FarmTable
  farmIns : List FarmPoint
  farmOuts : List (Nat × EType)
  twin : Word
deriving DecidableEq, Repr

/-- No image. -/
def Image.none_ : Image :=
  { id := 0, modules := [], tasks := [], flows := [], outs := [], ins := [], maps := [], releaseBytes := [], metas := [], stations := []
    nodes := [], polls := [], slaves := [], pins := [], macs := [], farm := none, farmIns := [], farmOuts := [], twin := 0 }

end Sys2Proof.Machine
end

