-- ==== Sys2Proof/Machine/Types/Config.lean ====
section
/-! DEFINITION. Image slots: firmware and configuration images as stored (R564), and the body of a configuration image. -/

namespace Sys2Proof

namespace Machine

/-- R114, R115: an E-code 3 module of a configuration image, whose format and instructions the JT3 series defines, as decoded.
DEDUCED (assumption 70). -/
structure Code3 where
  m : Module
  /-- R102: the first of checks 2 to 11 that fails by that format or its instructions, and the offset; 0 none. -/
  code : Nat
  off : Nat
  /-- R115: the converter units that its instructions read, each with the instruction's offset. -/
  reads : List (Nat × Nat)
  /-- R115: the offsets of the instructions that address JT3 hardware with no JX5 counterpart. -/
  unsupported : List Nat
deriving DecidableEq, Repr

/-- A module of a configuration image: E-code 5 as its bytes, or E-code 3 as decoded. -/
inductive ModSrc where
  | code5 (slot home : Nat) (bytes : List Byte)
  | code3 (x : Code3)
deriving DecidableEq, Repr

/-- The body of a configuration image: its tables, its modules, the register settings it makes, the gleaner's signals, the
class of its start flag (R618), and its safety parameter set (R497) as bytes. DEDUCED (assumption 71). -/
structure ConfigBody where
  img : Image
  mods : List ModSrc
  regs : List (Nat × Word)
  sigs : Tbl SigCfg
  start : Bool
  safety : List Byte
deriving DecidableEq, Repr

/-- R564: an image in a slot: its header, the results of the checks that only its bytes can give, and for a configuration image
its body. DESIGN CHOICE (assumption 114). -/
structure ImageFile where
  /-- MAGIC, KIND for the slot, FORMAT, FLAGS, zero fields, L and types. -/
  formed : Bool
  fits : Bool
  id : Nat
  version : Nat
  rollback : Nat
  eSlot : Nat
  lSlot : Nat
  lifecycles : Nat
  bind : Quad
  /-- SHA-384 of the two keys. -/
  eHash : List Byte
  lHash : List Byte
  bodyHash : List Byte
  bodyOk : Bool
  ecdsaOk : Bool
  hssOk : Bool
  body : Option ConfigBody
deriving DecidableEq, Repr

end Machine
end Sys2Proof
end

