-- ==== Sys2Proof/Machine/Types/Island.lean ====
section
/-! DEFINITION. The safety island (chapter 13): its two sides, its sets, and the mirror frames that it sends. -/

namespace Sys2Proof.Machine

/-- The levels at the island's balls at a tick: the channels A and B that read closed (bit i), SRESET_L low, and the SFBn that
read high (bit n). -/
structure IslandPins where
  a : Nat
  b : Nat
  sreset : Bool
  sfb : Nat
deriving DecidableEq, Repr

/-- One technology of the island: the safety core or Mastiff (R495). -/
structure SafeSide where
  /-- R500: the latest samples of the channels, closed as 1. -/
  a : Nat
  b : Nat
  sfb : Nat
  /-- R502, R504: consecutive differing samples of an input. -/
  count : Tbl Nat
  /-- R505: latches of an input: bit 0 DISCREPANCY, bit 1 TEST_A, bit 2 TEST_B. -/
  inLatch : Tbl Nat
  /-- R505: the clearing sequence of an input: 0 none, 1 both read open, 2 one has closed, 3 complete; and the ticks since the
  first closed. -/
  clear : Tbl (Nat × Nat)
  /-- R506: the state of an output: 0 OFF, 1 READY, 2 ON, 3 LATCHED. -/
  out : Tbl Nat
  /-- R507, R508: the latch of an output: 1 FEEDBACK, 2 DARK_HS, 3 DARK_LS. -/
  outLatch : Tbl Nat
  /-- The outputs whose switch signal is commanded on, and those permitted, as masks. -/
  cmd : Nat
  permit : Nat
  /-- R506: outputs that had no valid reset since the island start. -/
  fresh : Nat
  /-- R507: the outputs whose readback must be high, and the ticks since that changed. -/
  expect : Nat
  since : Tbl Nat
  /-- R510: consecutive ticks in which the other side's switch is on while this side's permission is absent. -/
  cross : Tbl Nat
  /-- R511: samples of the press, and whether the last sample was low. -/
  press : Nat
  low : Bool
  /-- R512: the press is held. -/
  stuck : Bool
  /-- The first sample after an island start has been taken. -/
  begun : Bool
  tick : Nat
deriving DecidableEq, Repr

/-- A side after its reset (R514). -/
def SafeSide.reset : SafeSide := ⟨0, 0, 0, [], [], [], [], [], 0, 0, 0xFF, 0, [], [], 0, false, false, false, 0⟩

/-- R515: a mirror frame: the tick count, the mirror bits, and what the SAFEMIR registers show beside them. -/
structure MirrorFrame where
  tick : Nat
  bits : Nat
  island : Nat
  ins : List Nat
  outs : List Nat
  log : Nat
  resets : Nat
  refused : Nat
  presses : Nat
  setId : Nat
  setCrc : Nat
deriving DecidableEq, Repr

/-- The island and the main side's view of it. -/
structure Island where
  /-- 0 no VDDSAFE yet, 1 STARTING, 2 WAIT_SET, 3 RUNNING, 4 FAULT. -/
  st : Nat
  core : SafeSide
  mastiff : SafeSide
  /-- R500: the test pulse that is low. -/
  pulse : Option Nat
  /-- R508: dark tests passed by output, both sides. -/
  dark : Tbl Nat
  /-- R497: the active set that runs, and the sets in the safety region, as bytes. -/
  running : List Byte
  active : List Byte
  pending : Option (List Byte)
  /-- R497: the safety firmware in the region and the one that runs, by the IMAGE_ID of their firmware image. -/
  fwRegion : Option Nat
  fwRun : Option Nat
  log : Nat
  /-- R505, R511, R512: valid resets, refused presses with ineffective resets, and refused or held presses alone, since the main side's
  last power-on or cold reset. -/
  resets : Nat
  refused : Nat
  presses : Nat
  /-- Mirror frames on their way, and the frame received last with the raw grain of its arrival. -/
  frames : List MirrorFrame
  seen : Option MirrorFrame
  seenAt : Quad
deriving DecidableEq, Repr

/-- The island without supply, its region empty. -/
def Island.off : Island := ⟨0, SafeSide.reset, SafeSide.reset, none, [], [], [], none, none, none, 0, 0, 0, 0, [], none, 0⟩

end Sys2Proof.Machine
end

