-- ==== Sys2Proof/Machine/Types/Joa.lean ====
section
/-! DEFINITION. The JOA engine (chapter 11): sessions, requests, subscriptions, transfers and proxy requests; and the establishment
of a session (chapter 15). -/

namespace Sys2Proof

/-- R435: the host of a session: its carrier (0 UDP over IPv4, 1 UDP over IPv6, 2 raw Ethernet), address and UDP port. -/
structure HostAddr where
  carrier : Fin 3
  addr : Nat
  port : Nat
deriving DecidableEq, Repr

/-- R441: an item of a WRITE or WRITE_GROUP request. -/
structure WriteItem where
  addr : BitVec 32
  ty : Byte
  data : List Byte
deriving DecidableEq, Repr

/-- R430: how a proxy access ends: a value or nothing, a refusal with the remote code, or no answer. -/
inductive ProxyEnd where
  | done (data : List Byte)
  | remote (code : BitVec 32)
  | timeout
deriving DecidableEq, Repr

/-- R429, R449: what the answer of another farm device is for: an item of a request of a session, or of a subscription. -/
inductive ForwardFor where
  | request (session : Fin 32) (req : BitVec 16) (item : Nat)
  | subscription (id : Nat) (item : Nat)
deriving DecidableEq, Repr

namespace Machine

/-- What an item of a request waits for. -/
inductive JoaWait where
  | none
  /-- The next base headland (R441). -/
  | headland
  /-- The end of a task's run (R217). -/
  | run (t : Nat)
  | proxy
  | farm
  /-- An earlier request of the session for the same entry (R439). -/
  | after
  /-- The program of the boot flash (R651). -/
  | flash
  /-- The granary's write of a segment (R447, R540). -/
  | granary
deriving DecidableEq, Repr

/-- An item of a request: its address, OFFSET and MAXLEN (R440), the value to write or read with its TYPE, its STATUS and DETAIL once
it has them. -/
structure JoaItem where
  addr : Nat
  off : Nat
  most : Nat
  ty : Nat
  data : List Byte
  total : Nat
  more : Bool
  status : Option (Nat × Nat)
  wait : JoaWait
deriving DecidableEq, Repr

/-- R439: a request in progress: REQ_ID, its place in the order of acceptance, opcode, its items, V when it began or last had effect,
and the transaction slot and first bad item of a WRITE_GROUP (the MODE and PERIOD of a SUBSCRIBE, the transfer of a SEG_DATA). -/
structure JoaPend where
  req : Nat
  ord : Nat
  op : Nat
  items : List JoaItem
  v : Quad
  slot : Nat
  bad : Nat
deriving DecidableEq, Repr

/-- A message that waits in a session's transmit queue: a response or stream block, or the EVENT of a subscription (R451). -/
inductive JoaOut where
  | body (b : List Byte)
  | event (sub : Nat)
deriving DecidableEq, Repr

/-- R577: what establishment keeps: nonces, ephemeral keys, the hashes TH1's inputs and signatures. -/
structure Handshake where
  hostNonce : List Byte
  hostEph : List Byte
  devNonce : List Byte
  devEph : List Byte
  ecdsaSig : List Byte
  hssSig : List Byte
deriving DecidableEq, Repr

/-- A JOA session (R432 to R439). DESIGN CHOICE (assumption 119). DEDUCED (assumption 189). -/
structure JoaSession where
  /-- 0 FREE, 1 ESTABLISHING, 2 OPEN. -/
  st : Nat
  role : Nat
  host : HostAddr
  uplink : Nat
  maxPayload : Nat
  /-- Bits 31:5 of SESSION. -/
  token : Nat
  keySlot : Nat
  /-- R434: the highest SEQ accepted, and those accepted within 64 of it. -/
  high : Nat
  seen : List Nat
  /-- The SEQ of the last message sent, and that message's body. -/
  own : Nat
  sent : List Byte
  pend : List JoaPend
  /-- R439: the last 16 responses, with their REQ_IDs, oldest first. -/
  kept : List (Nat × List Byte)
  queue : List JoaOut
  /-- The raw grain of the last accepted message, or of HELLO. -/
  last : Quad
  /-- R572: the attestation nonce, and the report made for it. -/
  nonce : Option (List Byte)
  report : List Byte
  shake : Option Handshake
  /-- R577: the keys and salts, 72 bytes. -/
  keys : List Byte
  /-- The last close reason (R460). -/
  reason : Nat
  /-- R484: the address that the last message sent went to first: the host, or the gateway. -/
  hop : Nat
deriving DecidableEq, Repr

/-- A free session. -/
def JoaSession.free : JoaSession :=
  ⟨0, 0, ⟨0, 0, 0⟩, 0, 0, 0, 0, 0, [], 0, [], [], [], [], 0, none, [], none, [], 0, 0⟩

/-- R448 to R451: a subscription: its items with their positions, the bytes sent last, and the EVENT queued. -/
structure JoaSub where
  id : Nat
  session : Nat
  mode : Nat
  period : Nat
  items : List (Nat × Nat)
  last : List (Nat × Nat × List Byte)
  evSeq : Nat
  skipped : Nat
  /-- The items gathered since the last EVENT was sent. -/
  gathered : List (Nat × Nat × List Byte)
  b : Nat
  v : Quad
  queued : Bool
  /-- R452: the number of the next log entry to send. -/
  logNext : Nat
  /-- The base index of the last sample. -/
  sampled : Option Nat
  /-- R449: values of other farm devices' items, as forwarded last. -/
  remote : List (Nat × Nat × List Byte)
deriving DecidableEq, Repr

/-- R446, R447: a transfer. -/
structure JoaXfer where
  num : Nat
  session : Nat
  /-- The image slot: 0 firmware A, 1 firmware B, 2 configuration A, 3 configuration B. -/
  slot : Nat
  total : Nat
  crc : Nat
  bytes : List Byte
  last : Quad
deriving DecidableEq, Repr

/-- R430: a proxy request that waits or runs: its session, request and item, the port (0 to 3 CAN, 4 to 7 serial), the node or
slave, the remote item, whether it writes, and whether it runs. -/
structure ProxyReq where
  session : Nat
  req : Nat
  item : Nat
  port : Nat
  node : Nat
  index : Nat
  sub : Nat
  write : Bool
  data : List Byte
  started : Bool
deriving DecidableEq, Repr

/-- The JOA engine. DESIGN CHOICE (assumption 118). -/
structure Joa where
  sessions : Tbl JoaSession
  /-- The place of the next request in the order of acceptance (R439). -/
  nextOrd : Nat
  subs : List JoaSub
  nextSub : Nat
  xfers : List JoaXfer
  nextXfer : Nat
  /-- The bytes held in an image slot; none while it is empty or invalid (R447). -/
  stores : Tbl (Option (List Byte))
  proxies : List ProxyReq
  /-- R577: failed proofs by host with their raw grains, and the hosts that are locked out with the grain of their lockout. -/
  failures : List (HostAddr × Quad)
  lockouts : List (HostAddr × Quad)
  /-- R576: the last body answered in clear, with the host it went to. -/
  clear : Option (HostAddr × List Byte)
deriving DecidableEq, Repr

/-- JOA without sessions. -/
def Joa.off : Joa := ⟨[], 0, [], 0, [], 0, [], [], [], [], none⟩

end Machine
end Sys2Proof
end

