-- ==== Sys2Proof/Machine/Types/Link.lean ====
section
/-! DEFINITION. The state of the link test generators and checkers that no register holds (chapter 18). -/

namespace Sys2Proof.Machine

/-- R653: a lane's PRBS checker, and what it has checked while locked since it was last counted: its bits, and its errors. -/
structure PrbsSpan where
  lane : Fin 8
  bits : Nat
  errs : Nat
deriving DecidableEq, Repr

/-- R654: a frame generator and checker. -/
structure FrameGen where
  /-- The generator is sending. -/
  running : Bool
  /-- Frames still to send; none is continuous. -/
  left : Option Nat
  /-- The sequence number of the next frame. -/
  seq : Nat
  /-- The raw grain at which the next frame is due. -/
  dueAt : Quad
  /-- The sequence number the checker expects next, once it has seen a frame. -/
  expect : Option Nat
deriving DecidableEq, Repr

/-- A generator off, as after power-on (R656). -/
def FrameGen.off : FrameGen := ⟨false, none, 0, 0, none⟩

end Sys2Proof.Machine
end

