-- ==== Sys2Proof/Machine/Types/Motion.lean ====
section
/-! DEFINITION. The state of axis engines, encoders and choppers that no register holds (chapter 9). -/

namespace Sys2Proof

/-- The registers whose writes CHOP_CFG_WRITE carries (R369 to R371). -/
inductive ChopReg where
  | timing | current | mstep | sine (i : Fin 1024)
deriving DecidableEq, Repr

/-- The registers whose writes AXIS_LIMIT_WRITE carries (R342). -/
inductive LimitReg where
  | vmax | accel | decel | jerk | vcreep
deriving DecidableEq, Repr

namespace Machine

/-- R334: where a command comes from. -/
inductive CmdSource where
  | task | txn | host
deriving DecidableEq, Repr

/-- R334: a command that waits for its tick boundary. -/
structure AxisCmd where
  src : CmdSource
  /-- R93. -/
  cmd : Nat
  arg : Quad
  due : Quad
deriving DecidableEq, Repr

/-- R92: an AXCMD released by a task that waits for its class's headland. -/
structure AxisWait where
  cls : Nat
  axis : Nat
  cmd : Nat
  arg : Quad
deriving DecidableEq, Repr

/-- R337, R342: the limits in force. -/
structure AxisLimits where
  vmax : Int
  accel : Nat
  decel : Nat
  jerk : Nat
  vcreep : Nat
deriving DecidableEq, Repr

/-- R339, R341: what an engine is doing. -/
inductive Goal where
  | none_
  | travel
  | approach
  /-- Braking before a reversal (R341). -/
  | reverse
  | velocity (w : Int)
  /-- STOPPING; the fault cause it ends in, or 0 (R343, R350). -/
  | stop (cause : Nat)
  /-- The pulses stand still until the next boundary (R344). -/
  | halt
  /-- The target stop happened (R340). -/
  | reached
deriving DecidableEq, Repr

/-- R349: the phases of HOME. -/
inductive HomePhase where
  | search | brake | back | index | seat
deriving DecidableEq, Repr

/-- R349: a HOME in progress: its method and direction, its phase, the latched position, and where SEARCH or BACK began. -/
structure Homing where
  method : Nat
  neg : Bool
  phase : HomePhase
  latch : Int
  start : Int
deriving DecidableEq, Repr

/-- An axis engine beyond its registers. -/
structure Axis where
  /-- The phase f (R331). -/
  f : Nat
  /-- The number of MOTION edges the drill has made its addition at. -/
  edges : Nat
  queue : List AxisCmd
  goal : Goal
  /-- A, the acceleration state, and rem (R338). -/
  acc : Int
  rem : Int
  /-- R342: the limits in force, once they differ from the registers, and the ones held, as a mask in the order of LimitReg. -/
  lim : Option AxisLimits
  held : Nat
  homing : Option Homing
  /-- R348: the move goes to a soft limit. -/
  soft : Bool
  /-- R352: POS_ref and ENC_ref. -/
  ref : Option (Int × Int)
  /-- R352: the confirmation has been made since POS_LOST was set or the count changed. -/
  checked : Bool
  /-- R333, R354: the MOTION edge of the last step; the last direction of motion, and the tick boundary at which it changed. -/
  lastStep : Quad
  dirNeg : Bool
  dirAt : Quad
deriving DecidableEq, Repr

/-- R331: an engine at rest with f at 2^39. -/
def Axis.idle : Axis := ⟨2 ^ 39, 0, [], .none_, 0, 0, none, 0, none, false, none, false, 0, false, 0⟩

/-- R355, R357: a chopper phase: the raw grain at which its state began, and early trips in a row. -/
structure ChopPhase where
  since : Quad
  /-- OFF_TICKS, BLANK_M1 and FAST_16 in force. -/
  off : Nat
  blank : Nat
  fast : Nat
  early : Nat
  /-- R356: the raw grains at which the legs P and N last changed from one switch to the other. -/
  legP : Option Quad
  legN : Option Quad
deriving DecidableEq, Repr

def ChopPhase.start : ChopPhase := ⟨0, 8, 1, 4, 0, none, none⟩

/-- R354: a chopper: its two phases, the scale while it differs from I_MOVE, and a latched SHORT. -/
structure Chopper where
  a : ChopPhase
  b : ChopPhase
  scale : Option Nat
  shorted : Bool
  /-- R354: the raw grain of the last unit of the ramp towards I_REST. -/
  ramped : Option Quad
  /-- R371: CHOP_c_CURRENT as it stays in force until a tick boundary after a write. -/
  cur : Option (Quad × Word)
  /-- R356: the chopper has been enabled since the reset. -/
  used : Bool
deriving DecidableEq, Repr

def Chopper.start : Chopper := ⟨ChopPhase.start, ChopPhase.start, none, false, none, none, false⟩

/-- The axes, encoders and choppers. -/
structure Motion where
  axes : Tbl Axis
  choppers : Tbl Chopper
  waits : List AxisWait
  /-- The raw grain at which an encoder's count last changed. -/
  encLast : Tbl Quad
deriving DecidableEq, Repr

def Motion.empty : Motion := ⟨[], [], [], []⟩

end Machine
end Sys2Proof
end

