-- ==== Sys2Proof/Machine/Types/Ptp.lean ====
section
/-! DEFINITION. The state of the PTP engine and the uplinks, and the contents of PTP messages (chapter 12). -/

namespace Sys2Proof

/-- R470: a PTP time: seconds, nanoseconds and the fraction in 2^-16 ns. -/
structure PtpTime where
  sec : Nat
  ns : Nat
  frac : Nat
deriving DecidableEq, Repr

/-- R467, R475: a PTP message as received: the marks that decide a discard (domainNumber; the transport, as TRANSPORT codes
it; versionPTP 2; no Signaling or Management), its source, sequenceId, twoStepFlag, correctionField in 2^-16 ns, and its
timestamp. -/
structure PtpMsg where
  domain : Nat
  transport : Nat
  version2 : Bool
  supported : Bool
  clock : Quad
  port : Nat
  seq : Nat
  twoStep : Bool
  corr : Int
  time : PtpTime
deriving DecidableEq, Repr

/-- R474: the dataset of an Announce message, and the logarithm of its interval in seconds. -/
structure Announce where
  prio1 : Nat
  cls : Nat
  accuracy : Nat
  variance : Nat
  prio2 : Nat
  gm : Quad
  steps : Nat
  source : Nat
  logInterval : Int
deriving DecidableEq, Repr

namespace Machine

/-- R474: a time source that an uplink hears, and the raw grain of its last Announce. -/
structure PtpSource where
  uplink : Nat
  clock : Quad
  port : Nat
  data : Announce
  last : Quad
deriving DecidableEq, Repr

/-- R471: a Sync with its ingress: t1 once it is known, X and raw grain of t2, and the correctionFields so far. -/
structure SyncRec where
  seq : Nat
  t1 : Option Int
  t2 : Int
  t2raw : Quad
  corr : Int
deriving DecidableEq, Repr

/-- R475: a peer-delay exchange: the sequenceId, p1, and once the response has come p2 with the correctionFields and p4. -/
structure PeerDelay where
  seq : Nat
  p1 : Int
  resp : Option (Int × Int × Int)
deriving DecidableEq, Repr

/-- An uplink's measurements: the newest Sync, the Delay_Req sent (sequenceId and t3), the answered exchange (t3, t4 and
correction), the peer-delay exchange, twice the newest D of P2P, and the sequenceId sent last. -/
structure UplinkMeas where
  sync : Option SyncRec
  req : Option (Nat × Int)
  resp : Option (Int × Int × Int)
  pd : Option PeerDelay
  d2 : Option Int
  seq : Nat
deriving DecidableEq, Repr

/-- Nothing measured. -/
def UplinkMeas.none_ : UplinkMeas := ⟨none, none, none, none, none, 0⟩

/-- R471, R482: a message that a port sent last: its port, its message type (IEEE 1588), sequenceId, time, correctionField in
2^-16 ns, and for an Announce its dataset and the flags timeTraceable and frequencyTraceable. -/
structure PtpOut where
  port : Nat
  kind : Nat
  seq : Nat
  time : PtpTime
  corr : Int
  data : Option Announce
  traceable : Bool
deriving DecidableEq, Repr

/-- R469: parameters of V that were in force before a change of OFFSET or RATE_ADJ (R37). -/
structure ClockSeg where
  ref : Quad
  offset : Quad
  rate : Word
deriving DecidableEq, Repr

/-- R37: V at a raw count under parameters. -/
def ClockSeg.vOf (c : ClockSeg) (raw : Quad) : Int :=
  (raw.toNat : Int) + c.offset.toInt + ((raw - c.ref).toInt * c.rate.toInt) / 2 ^ 40

/-- The PTP engine beyond its registers. -/
structure Ptp where
  sources : List PtpSource
  parent : Option PtpSource
  meas : Tbl UplinkMeas
  /-- θ of the last accepted sample and the raw grain of its t2. -/
  prev : Option (Int × Quad)
  /-- Consecutive samples towards first lock or LOCKED. -/
  run : Nat
  /-- R478: twice the last eight accepted values of D; values held aside; values gathered in a hold. -/
  ds : List Int
  aside : List Int
  gather : List Int
  holdEnd : Quad
  /-- R479: θ_b until the first accepted sample after the hold. -/
  thetaB : Option Int
  /-- R477: first lock is reached and the host must seat the clock. -/
  waitSeat : Bool
  /-- The messages that the ports sent last, and the sequenceIds of the field ports. -/
  out : List PtpOut
  seqs : Tbl Nat
  /-- R469: the last 64 sets of parameters of V before the one in force, newest first. DEDUCED (assumption 80). -/
  past : List ClockSeg
deriving DecidableEq, Repr

/-- The engine off. -/
def Ptp.off : Ptp := ⟨[], none, [], none, 0, [], [], [], 0, none, false, [], [], []⟩

end Machine
end Sys2Proof
end

