-- ==== Sys2Proof/Machine/Types/Reg.lean ====
section
/-! DEFINITION. What a register, a register field and a row of the register map are. -/

namespace Sys2Proof

/-- R15: a bus master: an Ehrette core, a DMA engine, or a JOA session. -/
inductive Master where
  | core (k : Nat)
  | dma (n : Nat)
  | joa (session : Nat)
deriving DecidableEq, Repr

namespace Machine

/-- A register: its byte offset from 0x00_2000_0000 and its reset value. -/
structure Reg where
  addr : Nat
  reset : Word
deriving DecidableEq, Repr

/-- A register field: its lowest bit and its width. -/
structure Fld where
  lo : Nat
  width : Nat
deriving DecidableEq, Repr

/-- A row of the register map: the place of a register or register array and its access masks (R13), and its reset value. Register
(i, j) lies at base + i·s1 + j·s2, for i from f1 to f1 + n1 − 1 and j from f2 to f2 + n2 − 1. half is 1 for the low and 2 for the
high word of a 64-bit value (R15). -/
structure RegDesc where
  base : Nat
  n1 : Nat
  s1 : Nat
  f1 : Nat
  n2 : Nat
  s2 : Nat
  f2 : Nat
  rw : Nat
  w1c : Nat
  rc : Nat
  wo : Nat
  reset : Nat
  half : Nat
deriving DecidableEq, Repr

end Machine
end Sys2Proof
end

