-- ==== Sys2Proof/Machine/Types/Reset.lean ====
section
/-! DEFINITION. Resets, the watchdog, firmware trials and the shutdown (chapter 17): what no register holds. -/

namespace Sys2Proof.Machine

/-- R612: a warm reset on its way: its source, its grain W, and the configuration slot of a CFG_RESTART. -/
structure WarmReq where
  source : Nat
  w : Quad
  slot : Option Nat
deriving DecidableEq, Repr

/-- What no register holds of resets and the shutdown. -/
structure Resets where
  warm : List WarmReq
  /-- R612: a cold reset on its way: its source and grain. -/
  cold : Option (Nat × Quad)
  /-- PORST_L is low; a start is due; the kind of the reset that it follows, and its release. -/
  porst : Bool
  await : Bool
  cause : Nat × Nat
  release : Quad
  /-- R618: the first headland after the start is still to come. -/
  first : Bool
  /-- R621: the raw grains of the last kick and of the last toggle of HEALTHY, and HEALTHY. -/
  kick : Quad
  toggle : Option Quad
  healthy : Bool
  /-- R620: the boot record: the confirmed slot and the trial slot; the W from which a trial runs. -/
  confirmed : Nat
  trial : Option Nat
  trialW : Option Quad
  /-- R568: no firmware slot is VALID. -/
  recovery : Bool
  /-- R623: the raw grain of the shutdown command, of the start of the present step, and the base index of its stop. -/
  shutAt : Quad
  stepAt : Quad
  stopAt : Nat
  /-- R623, step 2: cycles done in it: frames by field port, 4 + port: CAN cycles, 8 + port: serial scans. -/
  portDone : Tbl Nat
  /-- R544: the power-fail cut is taken; and the supply failed before every power-fail write was made. -/
  pfDone : Bool
  pfShort : Bool
  /-- Ticks from the release to the PLL's lock. -/
  lockTicks : Nat
  /-- R573: a configuration image is active. -/
  loaded : Bool
deriving DecidableEq, Repr

/-- Right after the release of a power-on reset: a start is due. -/
def Resets.off : Resets := ⟨[], none, false, true, (0, 0), 0, false, 0, none, false, 0, none, none, false, 0, 0, 0, [], false, false, 0, false⟩

end Sys2Proof.Machine
end

