-- ==== Sys2Proof/Syntax.lean ====
section
/-! DEFINITION. The commands: one constructor for each row of the opcode table, in the table's order, with the row's operands. What an
operand stands for is said at the meaning of the command (Sys2Proof.Machine.exec<Name>). -/

namespace Sys2Proof

open Sys2Proof.Machine

/-- A command of the block. DEDUCED (assumption 7). -/
inductive Instr where
  /-- REGISTER_WRITE (R13): A bus master writes a register that has no row of its own; the access code (RW, W1C, W1S and the like)
  decides the effect. -/
  | registerWrite (m : Master) (a : BitVec 40) (v : Word) (portB : Bool)
  /-- READ_CLEAR (R13): A read of an RC register returns its field and then clears it. -/
  | readClear (m : Master) (a : BitVec 40)
  /-- READ_LO_LATCH (R15): A read of a _LO word, or of a group's latching word, fills the reading master's latch with the upper
  half sampled at the same grain. -/
  | readLoLatch (m : Master) (a : BitVec 40)
  /-- WRITE_LO_STAGE (R16): A write of a _LO word places the low half in the writing master's staging for that pair. -/
  | writeLoStage (m : Master) (a : BitVec 40) (v : Word)
  /-- WRITE_HI_COMMIT (R16): A write of a _HI word makes the whole 64-bit value take effect with the staged low half, or with the
  low half unchanged when nothing is staged. -/
  | writeHiCommit (m : Master) (a : BitVec 40) (v : Word)
  /-- ALIAS_SET_WRITE (R531): A write through the bit-set alias sets the written 1 bits of a bank word in one indivisible
  read-modify-write. -/
  | aliasSetWrite (m : Master) (a : BitVec 40) (n : Fin 9) (v : Quad) (portB : Bool)
  /-- ALIAS_CLEAR_WRITE (R531): A write through the bit-clear alias clears the written 1 bits of a bank word in one indivisible
  read-modify-write. -/
  | aliasClearWrite (m : Master) (a : BitVec 40) (n : Fin 9) (v : Quad) (portB : Bool)
  /-- UNMAPPED_ACCESS (R455): An access to a register address that holds no register reads 0, ignores the write and is recorded. -/
  | unmappedAccess (m : Master) (a : BitVec 40) (w : Option Word)
  /-- HEADLAND (R32): V reaches the actual time of the next base headland; the snapshot is cut, accumulator windows close, and the
  live image is formed. -/
  | headland
  /-- LIVE_IMAGE_SEAL (R32): At H + 64 the live image is sealed, the output frames are handed to the field ports, and the FARM
  values are sent. -/
  | liveImageSeal
  /-- TASKS_READY (R160): From H + 96 each slice makes the cyclic tasks of the classes due ready, one per Collie cycle. -/
  | tasksReady
  /-- OUTPUT_SWITCH (R53): Local digital outputs whose value changed switch at the balls at H + 128. -/
  | outputSwitch
  /-- RATE_ADJ_WRITE (R38): A write of TIME_RATE_ADJ folds the accumulated rate term into OFFSET, moves RAW_REF, and sets the
  clamped new rate. -/
  | rateAdjWrite (v : Word)
  /-- OFFSET_WRITE (R40): A write of TIME_OFFSET_HI sets OFFSET when the clock is unseated and the controller is stopped, and is
  refused otherwise. -/
  | offsetWrite (m : Master) (hi : Word)
  /-- SEAT (R41): A write of TIME_CTRL.SEAT seats the clock, or is refused when it is already seated. -/
  | seat
  /-- VNOW_READ (R43): A read of TIME_VNOW_LO samples V and RAW at the same grain into the reading master's latch. -/
  | vnowRead (m : Master)
  /-- HEAD_PERIOD_WRITE (R44): A write of HEAD_PERIOD is accepted only while RUN is 0 and the value is in range. -/
  | headPeriodWrite (v : Word)
  /-- RUN_SET (R46): Setting HEAD_CTRL.RUN starts the headland generator at the first qualifying base index. -/
  | runSet (v : Word)
  /-- RUN_CLEAR (R46): Clearing HEAD_CTRL.RUN stops the generator; it is accepted only while the controller is stopped. -/
  | runClear (v : Word)
  /-- SYNC_ENABLE (R59): A write that sets SYNC_EN arms HEADSYNC tracking. -/
  | syncEnable (v : Word)
  /-- SYNC_DISABLE (R59): A write that clears SYNC_EN sets SYNC_STATE to OFF and T to S_next. -/
  | syncDisable (v : Word)
  /-- SYNC_REARM (R59): A write of 1 to SYNC_REARM with SYNC_EN at 1 re-arms the tracking. -/
  | syncRearm (v : Word)
  /-- CLASS_CFG_WRITE (R51): A write of HEAD_n_CLASS_CFG is accepted only while RUN is 0 and the phase is below k. -/
  | classCfgWrite (n : Fin 4) (v : Word)
  /-- HEAD_SYNC_CFG_WRITE (R69): A write of HEAD_SYNC_CFG is refused when SYNC_PHASE is not below DIV. -/
  | headSyncCfgWrite (v : Word)
  /-- HEAD_SYNC_COMP_WRITE (R666): A write of HEAD_SYNC_COMP is clamped and applies to every edge qualified afterwards. -/
  | headSyncCompWrite (v : Word)
  /-- HEADSYNC_EDGE (R54): A qualified HEADSYNC edge is timestamped, compensated and judged against its acceptance window. -/
  | headsyncEdge (t : Quad) (falling : Bool)
  /-- HEADSYNC_WINDOW_CLOSE (R55): An acceptance window is judged closed, and a window without an edge counts as a miss. -/
  | headsyncWindowClose
  /-- NOP (R85): Does nothing. -/
  | nop (k : Fin 36)
  /-- DUP (R85): Duplicates the top cell of the stack. -/
  | dup (k : Fin 36)
  /-- DROP (R85): Discards the top cell of the stack. -/
  | drop (k : Fin 36)
  /-- SWAP (R85): Exchanges the two top cells of the stack. -/
  | swap (k : Fin 36)
  /-- OVER (R85): Pushes a copy of the second cell of the stack. -/
  | over (k : Fin 36)
  /-- ROT (R85): Rotates the three top cells of the stack. -/
  | rot (k : Fin 36)
  /-- PICK (R85): Pushes a copy of the cell u8 below the top. -/
  | pick (k : Fin 36) (u : BitVec 8)
  /-- PUSH0 (R85): Pushes 0. -/
  | push0 (k : Fin 36)
  /-- PUSH1 (R85): Pushes 1. -/
  | push1 (k : Fin 36)
  /-- PUSHI8 (R85): Pushes a sign-extended 8-bit immediate. -/
  | pushi8 (k : Fin 36) (v : BitVec 8)
  /-- PUSHI16 (R85): Pushes a sign-extended 16-bit immediate. -/
  | pushi16 (k : Fin 36) (v : BitVec 16)
  /-- PUSHI32 (R85): Pushes a sign-extended 32-bit immediate. -/
  | pushi32 (k : Fin 36) (v : BitVec 32)
  /-- PUSHI64 (R85): Pushes a 64-bit immediate. -/
  | pushi64 (k : Fin 36) (v : Quad)
  /-- PUSHK (R97): Pushes a cell of the constant pool. -/
  | pushk (k : Fin 36) (n : BitVec 16)
  /-- PUSHF32 (R85): Pushes an F32 immediate. -/
  | pushf32 (k : Fin 36) (v : BitVec 32)
  /-- LDL (R85): Pushes a local. -/
  | ldl (k : Fin 36) (i : BitVec 8)
  /-- STL (R73): Stores the top cell unchanged into a local. -/
  | stl (k : Fin 36) (i : BitVec 8)
  /-- LDV (R99): Pushes a RETAIN or GLOBAL variable. -/
  | ldv (k : Fin 36) (d : VarIdx)
  /-- STV (R73): Stores a cell into a variable in the variable's declared type. -/
  | stv (k : Fin 36) (d : VarIdx)
  /-- LDX (R87): Pushes element i of an array variable, or 0 with INDEX_RANGE when i is out of range. -/
  | ldx (k : Fin 36) (d : VarIdx)
  /-- STX (R87): Stores a cell into element i of an array variable; an index out of range writes nothing. -/
  | stx (k : Fin 36) (d : VarIdx)
  /-- INCL (R85): Adds a signed immediate to a local, modulo 2^64. -/
  | incl (k : Fin 36) (i : BitVec 8) (d : BitVec 8)
  /-- ADD (R74): Adds two cells of type t with wrapping, or under IEEE 754 for floats. -/
  | add (k : Fin 36) (t : EType)
  /-- SUB (R74): Subtracts two cells of type t. -/
  | sub (k : Fin 36) (t : EType)
  /-- MUL (R74): Multiplies two cells of type t. -/
  | mul (k : Fin 36) (t : EType)
  /-- DIV (R75): Divides two cells of type t, truncating for integers. -/
  | div (k : Fin 36) (t : EType)
  /-- REM (R75): Gives the remainder, with the sign of the dividend. -/
  | rem (k : Fin 36) (t : EType)
  /-- ADDS (R74): Adds with saturation. -/
  | adds (k : Fin 36) (t : EType)
  /-- SUBS (R74): Subtracts with saturation. -/
  | subs (k : Fin 36) (t : EType)
  /-- MULS (R74): Multiplies with saturation. -/
  | muls (k : Fin 36) (t : EType)
  /-- NEG (R85): Negates a cell, wrapping. -/
  | neg (k : Fin 36) (t : EType)
  /-- ABS (R85): Gives the absolute value, saturated. -/
  | abs (k : Fin 36) (t : EType)
  /-- EQ (R87): Compares two cells for equality. -/
  | eq (k : Fin 36) (t : EType)
  /-- NE (R87): Compares two cells for inequality; a NaN operand gives true. -/
  | ne (k : Fin 36) (t : EType)
  /-- LT (R87): Gives a < b. -/
  | lt (k : Fin 36) (t : EType)
  /-- LE (R87): Gives a ≤ b. -/
  | le (k : Fin 36) (t : EType)
  /-- GT (R87): Gives a > b. -/
  | gt (k : Fin 36) (t : EType)
  /-- GE (R87): Gives a ≥ b. -/
  | ge (k : Fin 36) (t : EType)
  /-- AND (R85): Gives the bitwise AND of two 64-bit cells. -/
  | and (k : Fin 36)
  /-- OR (R85): Gives the bitwise OR of two 64-bit cells. -/
  | or (k : Fin 36)
  /-- XOR (R85): Gives the bitwise XOR of two 64-bit cells. -/
  | xor (k : Fin 36)
  /-- NOT (R85): Gives the bitwise complement as type t. -/
  | not (k : Fin 36) (t : EType)
  /-- LNOT (R85): Gives the logical negation of a B cell. -/
  | lnot (k : Fin 36)
  /-- SHL (R87): Shifts left by n. -/
  | shl (k : Fin 36) (t : EType)
  /-- SHR (R87): Shifts right by n with zero fill. -/
  | shr (k : Fin 36) (t : EType)
  /-- SAR (R87): Shifts right by n with sign fill. -/
  | sar (k : Fin 36) (t : EType)
  /-- BITGET (R87): Gives bit n of a cell. -/
  | bitget (k : Fin 36) (t : EType)
  /-- BITSET (R87): Sets bit n of a cell. -/
  | bitset (k : Fin 36) (t : EType)
  /-- BITCLR (R87): Clears bit n of a cell. -/
  | bitclr (k : Fin 36) (t : EType)
  /-- CONV (R77): Converts a cell from a source type to a destination type. -/
  | conv (k : Fin 36) (c : BitVec 8)
  /-- LIMIT (R87): Gives max(lo, min(x, hi)). -/
  | limit (k : Fin 36) (t : EType)
  /-- SEL (R85): Gives x if b is true, else y. -/
  | sel (k : Fin 36)
  /-- MIN (R87): Gives the smaller of two cells. -/
  | min (k : Fin 36) (t : EType)
  /-- MAX (R87): Gives the larger of two cells. -/
  | max (k : Fin 36) (t : EType)
  /-- JMP (R84): Branches by a signed byte offset. -/
  | jmp (k : Fin 36) (o : BrOff)
  /-- JT (R84): Branches when the popped cell is true. -/
  | jt (k : Fin 36) (o : BrOff)
  /-- JF (R84): Branches when the popped cell is false. -/
  | jf (k : Fin 36) (o : BrOff)
  /-- CALL (R80): Calls a function, zeroing its locals and moving its arguments into them. -/
  | call (k : Fin 36) (f : BitVec 16)
  /-- RET (R80): Returns the result, if any, to the caller and discards the frame. -/
  | ret (k : Fin 36)
  /-- END (R80): Completes the task at any call depth. -/
  | endRun (k : Fin 36)
  /-- LDI (R90): Pushes an input value from the snapshot of the task's class. -/
  | ldi (k : Fin 36) (d : VarIdx)
  /-- STO (R90): Writes a value for an output point into the task's output journal. -/
  | sto (k : Fin 36) (d : VarIdx)
  /-- LDO (R90): Pushes the task's last STO to a point, or the point's shadow value. -/
  | ldo (k : Fin 36) (d : VarIdx)
  /-- PCATCH (R90): Pushes the pulse-catch latch of a point from the snapshot. -/
  | pcatch (k : Fin 36) (d : VarIdx)
  /-- LDAGE (R90): Pushes the age of an input. -/
  | ldage (k : Fin 36) (d : VarIdx)
  /-- LDQ (R90): Pushes the quality bits of a point. -/
  | ldq (k : Fin 36) (d : VarIdx)
  /-- NOW (R89): Pushes the headland time or READY_V of the run. -/
  | now (k : Fin 36)
  /-- ELAPSED (R89): Pushes NOW − t. -/
  | elapsed (k : Fin 36)
  /-- INTERVAL (R89): Pushes the measured class interval, or 0 in an event task. -/
  | interval (k : Fin 36)
  /-- CLOCK (R89): Pushes the live virtual time read from the TIME block. -/
  | clock (k : Fin 36)
  /-- FB (R105): Runs a library function block on its instance in the retained image. -/
  | fb (k : Fin 36) (d : VarIdx)
  /-- POST (R92): Stages a post to an event descriptor or waitpoint for release at completion. -/
  | post (k : Fin 36) (d : VarIdx)
  /-- WAIT (R169): Ends an event task's segment as a completion and saves its frames until a post to the waitpoint. -/
  | wait (k : Fin 36) (d : VarIdx)
  /-- SEND (R92): Stages an item for an ordered flow. -/
  | send (k : Fin 36) (d : VarIdx)
  /-- REPLY (R92): Stages a reply to the REPLY_TO waitpoint. -/
  | reply (k : Fin 36)
  /-- CANCEL (R92): Stages a cancel of a descriptor. -/
  | cancel (k : Fin 36) (d : VarIdx)
  /-- DELAY (R92): Stages a delayed post with its due time. -/
  | delay (k : Fin 36) (d : VarIdx)
  /-- TXOPEN (R92): Reserves a transaction handle at once and stages the open. -/
  | txopen (k : Fin 36)
  /-- TXADD (R92): Stages an action for a transaction. -/
  | txadd (k : Fin 36) (d : VarIdx)
  /-- TXSEAL (R92): Stages the seal of a transaction for its commit headland. -/
  | txseal (k : Fin 36)
  /-- TXSTAT (R224): Pushes the status word of a transaction. -/
  | txstat (k : Fin 36)
  /-- TXDROP (R92): Stages the drop of a transaction. -/
  | txdrop (k : Fin 36)
  /-- ACC_MEAN (R91): Pushes the scaled mean of the channel's closed window. -/
  | accMean (k : Fin 36) (d : VarIdx)
  /-- ACC_RMS (R91): Pushes the scaled RMS of the channel's closed window. -/
  | accRms (k : Fin 36) (d : VarIdx)
  /-- ACC_MIN (R91): Pushes the scaled minimum of the window. -/
  | accMin (k : Fin 36) (d : VarIdx)
  /-- ACC_MAX (R91): Pushes the scaled maximum of the window. -/
  | accMax (k : Fin 36) (d : VarIdx)
  /-- ACC_N (R91): Pushes the count of valid values in the window. -/
  | accN (k : Fin 36) (d : VarIdx)
  /-- ACC_INV (R91): Pushes the count of invalid values in the window. -/
  | accInv (k : Fin 36) (d : VarIdx)
  /-- ACC_MINT (R91): Pushes the time of the window's minimum. -/
  | accMint (k : Fin 36) (d : VarIdx)
  /-- ACC_MAXT (R91): Pushes the time of the window's maximum. -/
  | accMaxt (k : Fin 36) (d : VarIdx)
  /-- AXCMD (R93): Stages an axis command with its arguments for release at completion. -/
  | axcmd (k : Fin 36) (d : VarIdx) (c : BitVec 8)
  /-- AXSTAT (R85): Pushes the status word of an axis. -/
  | axstat (k : Fin 36) (d : VarIdx)
  /-- AXPOS (R85): Pushes the position of an axis. -/
  | axpos (k : Fin 36) (d : VarIdx)
  /-- MARK (R307): Stages a gleaner record of a MARK signal with the tag NOW. -/
  | mark (k : Fin 36) (d : VarIdx)
  /-- TAKE (R161): A core with no task takes one or waits at heel. -/
  | take (k : Fin 36)
  /-- DISPATCH (R161): A ready task is handed to a core at heel, which copies in the task's retained image. -/
  | dispatch (p : Fin 4)
  /-- SPILL (R163): A SPILL task that has waited 64 core cycles is sent by the arbiter to a core at heel in another plot. -/
  | spill (p : Fin 4)
  /-- TASK_COMPLETE (R164): A task completes: its writes finish, its retained image is written back, its journal and actions are
  copied, and its selector flips. -/
  | taskComplete (k : Fin 36)
  /-- RELEASE_STALL_END (R165): A core waiting at completion step 3 continues when release-area space frees. -/
  | releaseStallEnd (k : Fin 36)
  /-- JOURNAL_FOLD (R120): A completed task's journal is folded into its class's shadow image, after the flow's order allows for an
  event task. -/
  | journalFold (p : Fin 4)
  /-- RELEASE_ACTIONS (R167): The staged actions of a completed task are released in order, one per Collie cycle. -/
  | releaseActions (p : Fin 4)
  /-- DELAY_EXPIRY (R172): The delay entries due at a tick boundary are posted in due-time order. -/
  | delayExpiry
  /-- HOST_POST (R171): A host write of COLLIE_CMD with OP POST posts to a descriptor with COLLIE_CMD_ARG. -/
  | hostPost (t : Fin 4096)
  /-- HOST_CANCEL (R176): A host write of COLLIE_CMD with OP CANCEL cancels a descriptor. -/
  | hostCancel (t : Fin 4096)
  /-- CANCEL_ITEM (R178): The host cancels one flow item by its sequence number. -/
  | cancelItem (f : Fin 512)
  /-- HARDWARE_POST (R171): A block outside the cores posts to a descriptor when its post reaches the target's slice. -/
  | hardwarePost
  /-- CORE_FENCED (R179): A core is fenced on lockstep, ECC or microcode error, and its task is repeated and its slot reassigned. -/
  | coreFenced (k : Fin 36) (cause : Nat)
  /-- FENCE (R179): A write of PLOT_k_CORE_CTRL.FENCE fences a core with cause HOST. -/
  | fence (k : Fin 36)
  /-- RETEST (R183): A write of PLOT_k_CORE_CTRL.RETEST starts a single-core reset and self-test of a core fenced once. -/
  | retest (k : Fin 36)
  /-- RETEST_DONE (R183): The core self-test ends, and the core becomes active or reserve, or stays fenced. -/
  | retestDone (k : Fin 36) (pass : Bool)
  /-- DESC_ERROR (R184): An uncorrectable error in Collie's state discards the entry and reloads the descriptor. -/
  | descError (d : Fin 4096) (what : Fin 5)
  /-- START (R123): EXEC_CMD START is accepted and waits for its headland, after the retained images are zeroed. -/
  | start
  /-- STOP (R123): EXEC_CMD STOP makes a controller stop with cause HOST. -/
  | stop
  /-- RESUME (R123): EXEC_CMD RESUME is accepted and waits for its headland with the retained images kept. -/
  | resume
  /-- ABORT (R123): EXEC_CMD ABORT is accepted and waits for its headland with the retained images kept. -/
  | abort
  /-- CHECKPOINT (R123): EXEC_CMD CHECKPOINT asks for a cut at the next base headland. -/
  | checkpoint
  /-- OLC_ARM (R132): EXEC_CMD OLC_ARM checks and arms an online change for EXEC_OLC_AT. -/
  | olcArm
  /-- OLC_CANCEL (R132): EXEC_CMD OLC_CANCEL cancels an armed change before H_c. -/
  | olcCancel
  /-- COMMAND_TAKES_EFFECT (R124): A pending START, RESUME or ABORT takes effect at its headland, and the controller runs. -/
  | commandTakesEffect
  /-- OVERRUN (R125): At a class deadline a task that the class made ready has not completed, and the class cycle overruns. -/
  | overrun (n : Fin 4)
  /-- TASK_CTRL_WRITE (R151): A write of EXEC_t_TASK_CTRL enables or disables a task, sets its policy and clears DISABLED_BY_FAULT.
  -/
  | taskCtrlWrite (t : Fin 4096) (v : Word)
  /-- FORCE_ENTRY_WRITE (R129): A write of FORCE_e_CTRL or FORCE_e_POINT enables or edits a force entry, or is refused as
  BAD_POINT. -/
  | forceEntryWrite (e : Fin 1024) (ctrl : Bool) (v : Word)
  /-- CLEAR_ALL (R153): A write of FORCE_CTRL.CLEAR_ALL disables every force entry at the next headland. -/
  | clearAll (v : Word)
  /-- FORCE_CTRL_WRITE (R130): A write of FORCE_CTRL.ENABLE or RELEASE_ON_STOP suspends or restores the force entries. -/
  | forceCtrlWrite (v : Word)
  /-- OLC_CHANGE_HEADLAND (R133): At H_c the headlands begin to make new-image tasks ready, and forces are checked against the new
  image. -/
  | olcChangeHeadland
  /-- OLC_COMPLETE (R136): Once every old task has completed, the old image is released and the new slot becomes active. -/
  | olcComplete
  /-- CHECKPOINT_CAPTURE (R138): The capture engines finish copying a cut into the staging area. -/
  | checkpointCapture (good : Bool)
  /-- CHECKPOINT_WRITE (R538): A captured cut is written to the granary in two phases and becomes valid when its commit record
  verifies. -/
  | checkpointWrite
  /-- PFAIL_ASSERT (R616): PFAIL_L is qualified; dispatching stops, and the power-fail cut and the gleaner blocks are written past
  the limiter. -/
  | pfailAssert
  /-- POWER_FAIL_CUT (R140): The running tasks are halted, a power-fail cut is taken, and the controller enters BRIDGING. -/
  | powerFailCut (lines : Fin 8192)
  /-- PFAIL_RELEASE (R617): PFAIL_L stays high for 10 ms, and the power-fail bridge ends without a core reset. -/
  | pfailRelease
  /-- WARM_RESET (R141): A warm reset restarts the cores while the live image, frames and axes continue in BRIDGING. -/
  | warmReset
  /-- BRIDGE_RESTORE (R141): The cores have restarted, the modules are checked, and the retained images are restored from the
  newest valid cut. -/
  | bridgeRestore (bad : Nat)
  /-- REJOIN (R141): The controller rejoins at a base headland, with the shadow images equal to the live image. -/
  | rejoin
  /-- BRIDGE_LIMIT_EXPIRY (R142): The bridge limit runs out before rejoin, and a controller stop follows with cause BRIDGE_LIMIT. -/
  | bridgeLimitExpiry
  /-- TXN_OPEN (R229): TXN_CMD OPEN opens a host-owned transaction and returns its handle. -/
  | txnOpen
  /-- TXN_ADD (R201): TXN_CMD ADD adds an action to an open host-owned transaction, or marks it refused. -/
  | txnAdd
  /-- TXN_SEAL (R208): TXN_CMD SEAL seals a transaction for B_H after the seal checks. -/
  | txnSeal
  /-- TXN_DROP (R205): TXN_CMD DROP aborts an open transaction or frees a finished slot. -/
  | txnDrop
  /-- LOCAL_STAGING_DONE (R209): Local staging ends, and the local participants and axes vote. -/
  | localStagingDone (i : Fin 64)
  /-- PEER_VOTE (R212): A peer's vote arrives over Drustra. -/
  | peerVote (dev : Fin 8) (handle : BitVec 16) (yes : Bool) (reason : Fin 16)
  /-- TXN_DECISION (R214): At H − P/4 a transaction is decided as commit or abort. -/
  | txnDecision
  /-- TXN_BROADCAST (R215): At H − P/8 decision frames go to the ports and decision messages to the peers. -/
  | txnBroadcast
  /-- DEFERRED_OD_WRITE (R217): A LOCAL_OD or PEER write that waited for a running principal task is applied when that run ends. -/
  | deferredOdWrite
  /-- TXN_HOLD_EXPIRY (R205): A transaction in a final state for HOLD base periods is freed. -/
  | txnHoldExpiry
  /-- OPEN_TIMEOUT (R206): A transaction open longer than OPEN_LIMIT base periods aborts. -/
  | openTimeout
  /-- CONVERSION (R236): A converter unit completes the conversion of a slot and delivers the word to the filter, accumulator,
  trackers, comparator and capture. -/
  | conversion (u : Fin 16) (code : BitVec 18)
  /-- AU_CTRL_WRITE (R241): A write of AU_n_CTRL sets RUN at the next slot boundary, or changes the mode and length while RUN is 0.
  -/
  | auCtrlWrite (u : Fin 16) (v : Word)
  /-- INJ_SW_TRIG (R242): A write of AU_n_INJ_CTRL.SW_TRIG requests the injected sequence. -/
  | injSwTrig (u : Fin 16) (v : Word)
  /-- INJECTED_REQUEST (R242): A TRIGIN or headland request for the injected sequence reaches the unit and is held or dropped. -/
  | injectedRequest (u : Fin 16)
  /-- INJECTED_START (R242): The injected sequence starts at a slot boundary and pre-empts or abandons calibration. -/
  | injectedStart (u : Fin 16)
  /-- REF_ENABLE (R243): A write of ADC_p_REF_CTRL.EN starts or stops the settling of a reference buffer. -/
  | refEnable (p : Fin 4) (v : Word)
  /-- REF_SETTLED (R243): 5.0 ms after enabling, the reference buffer is settled. -/
  | refSettled (p : Fin 4)
  /-- REF_FAULT (R243): The reference monitor is out of range for 4 slots, clearing REF_SETTLED. -/
  | refFault (p : Fin 4)
  /-- CH_CFG_WRITE (R244): A write of AU_n_i_CH_CFG stages a gain and filter for the next window. -/
  | chCfgWrite (u : Fin 16) (i : Fin 16) (v : Word)
  /-- CAL_START (R249): A write of AU_n_CAL_CTRL.START requests a self-calibration, or is refused. -/
  | calStart (u : Fin 16) (v : Word)
  /-- CAL_BEGIN (R249): A requested calibration begins at a slot boundary once no injected request remains. -/
  | calBegin (u : Fin 16)
  /-- CAL_END (R251): At slot 4,096 the coefficients are accepted or rejected, and the regular sequence resumes. -/
  | calEnd (u : Fin 16) (c : CalSums)
  /-- ACC_CFG_WRITE (R253): A write of ACC_c_CFG sets a channel's window from the next close. -/
  | accCfgWrite (c : Fin 256) (v : Word)
  /-- ACC_N_READ (R256): A read of ACC_c_N latches the channel's whole closed record for that master. -/
  | accNRead (m : Master) (c : Fin 256)
  /-- TRK_MIN_READ (R257): A read of ACC_c_TRK_MIN latches the channel's six tracker words. -/
  | trkMinRead (m : Master) (c : Fin 256)
  /-- ACC_TRK_CLR (R257): A write of ACC_TRK_CLR clears the trackers of one channel or of all. -/
  | accTrkClr (v : Word)
  /-- WCMP_CFG_WRITE (R258): A write of a comparator's LOW, HIGH or CFG sets it to UNKNOWN. -/
  | wcmpCfgWrite (c : Fin 256) (which : Fin 3) (v : Word)
  /-- DAC_LOAD (R262): At H + 128 a DAC whose live code changed loads the new code. -/
  | dacLoad
  /-- ARM (R291): A write of CAPT_n_CTRL.ARM arms an idle capture channel at slot 0. -/
  | arm (n : Fin 16) (v : Word)
  /-- DISARM (R295): A write of CAPT_n_CTRL.DISARM ends or discards the segment and idles the channel. -/
  | disarm (n : Fin 16) (v : Word)
  /-- CAPT_SW_TRIG (R289): A write of CAPT_SW_TRIG or CAPT_n_CTRL.SW_TRIG triggers the channels named. -/
  | captSwTrig (v : Word)
  /-- CAPTURE_SAMPLE (R287): A channel writes one record for one sample of its source and decides its trigger event. -/
  | captureSample (n : Fin 16)
  /-- REARM (R291): The channel takes the next FREE slot and re-enters ARMED, or waits for a slot. -/
  | rearm (n : Fin 16)
  /-- TRIGIN_EDGE (R288): A TRIGIN transition is qualified and timestamped, and reaches capture and the converters 64 grains later.
  -/
  | triginEdge (m : Fin 4) (t : Quad) (rising : Bool)
  /-- CAPT_RELEASE (R286): A write of CAPT_RELEASE makes a READY descriptor FREE, after any READ of it ends. -/
  | captRelease (d : Fin 4096)
  /-- OVF_TAIL_WRITE (R300): A write of CAPT_OVF_TAIL frees ring space, or is refused beyond the head. -/
  | ovfTailWrite (v : Word)
  /-- OVF_COPY (R298): The copy of a READY segment into the DDR4 overflow ring completes or fails. -/
  | ovfCopy (good : Bool)
  /-- GLEAN_SAMPLE (R303): At H + 64 the gleaner reads the due headland-sampled signals and records those that changed. -/
  | gleanSample
  /-- GLEAN_EDGE (R305): An edge-mode signal's filtered level changes, and it is recorded or held back. -/
  | gleanEdge (n : Fin 16384) (level : Bool) (tag : Quad)
  /-- GLEAN_HOLD_END (R306): An edge signal's minimum interval ends, and the latest held edge is recorded. -/
  | gleanHoldEnd (n : Fin 16384)
  /-- BLOCK_TIME_CLOSE (R308): An open gleaner block reaches 15 ms after BASE_V and closes. -/
  | blockTimeClose (k : Fin 4)
  /-- GAP_RECORD (R310): A gap record is written when a loss ends, and every 1,024 ms while it goes on. -/
  | gapRecord (k : Fin 4)
  /-- SPOOL_COPY (R311): A closed block's copy to the DDR4 spool completes, or fails as a spool fault. -/
  | spoolCopy (e : SpoolEnd)
  /-- GLEAN_SIG_WRITE (R301): A write to the signal window sets a signal's deadband, heartbeat or minimum interval from the next
  base headland. -/
  | gleanSigWrite (which : Fin 3) (v : Quad)
  /-- MOVE_ABS (R336): An axis command to move to an absolute target takes effect at a tick boundary. -/
  | moveAbs (n : Fin 64)
  /-- MOVE_REL (R336): An axis command to move by a distance from TARGET takes effect. -/
  | moveRel (n : Fin 64)
  /-- MOVE_VEL (R336): An axis command to move at a velocity takes effect. -/
  | moveVel (n : Fin 64)
  /-- STOP_DECEL (R343): An axis command to brake to a stop at DECEL takes effect. -/
  | stopDecel (n : Fin 64)
  /-- STOP_NOW (R344): An axis command stops the pulses at once. -/
  | stopNow (n : Fin 64)
  /-- HOME (R349): An axis command starts homing. -/
  | home (n : Fin 64)
  /-- SET_POS (R336): An axis command sets POS to a value. -/
  | setPos (n : Fin 64)
  /-- PROFILE_TICK (R337): At a tick boundary the planner computes VEL, and phases, limits, encoder checks and state changes are
  judged. -/
  | profileTick (n : Fin 64) (t : Quad)
  /-- DRILL_STEP (R332): POS changes by one at a MOTION edge, and a step pulse is issued. -/
  | drillStep (n : Fin 64) (t : Quad)
  /-- HARD_LIMIT (R347): A hard-limit switch in the direction of motion becomes active, and the axis stops with LIMIT_HW. -/
  | hardLimit (n : Fin 64) (positive : Bool)
  /-- HOME_INPUT (R349): A home switch or index change latches a position and ends a homing phase. -/
  | homeInput (n : Fin 64) (index : Bool)
  /-- ENCODER_TRANSITION (R351): An encoder's filtered pins change and the count moves, or a quadrature error is raised. -/
  | encoderTransition (m : Fin 64)
  /-- AXIS_CTRL_WRITE (R361): A write of AXIS_n_CTRL enables or disables the axis or changes its mode. -/
  | axisCtrlWrite (n : Fin 64) (v : Word)
  /-- FAULT_CLR (R344): A write of AXIS_n_CTRL.FAULT_CLR takes an axis out of FAULT. -/
  | faultClr (n : Fin 64) (v : Word)
  /-- AXIS_LIMIT_WRITE (R342): A write of VMAX, ACCEL, DECEL, JERK or VCREEP takes effect at the next boundary or is held. -/
  | axisLimitWrite (n : Fin 64) (r : LimitReg) (v : Quad)
  /-- AXIS_PINS_WRITE (R403): A write of AXIS_n_PINS is refused when it names an output pin or a pin of another axis. -/
  | axisPinsWrite (n : Fin 64) (v : Word)
  /-- CHOP_TRIP (R355): The chopper comparator trips in ON, and the phase leaves DRIVE for decay. -/
  | chopTrip (c : Fin 24) (b : Bool) (first : Bool)
  /-- CHOP_BLANK_END (R355): The blanking time of ON_BLANK ends, and the phase enters ON. -/
  | chopBlankEnd (c : Fin 24) (b : Bool)
  /-- CHOP_FAST_END (R355): The fast-decay time ends, and the phase enters SLOW. -/
  | chopFastEnd (c : Fin 24) (b : Bool)
  /-- CHOP_SLOW_END (R355): The off time ends, and the phase enters ON_BLANK. -/
  | chopSlowEnd (c : Fin 24) (b : Bool)
  /-- OPEN (R357): An ON phase lasts OPEN_TICKS without a trip, and an open bridge is reported. -/
  | open (c : Fin 24) (b : Bool)
  /-- REST_RAMP (R354): The standstill delay or a ramp interval ends, and the chopper scale moves towards I_REST. -/
  | restRamp (c : Fin 24)
  /-- CHOP_CTRL_WRITE (R357): A write of CHOP_c_CTRL.EN energises the bridge, or puts it in OFF_ALL and stops a moving axis. -/
  | chopCtrlWrite (c : Fin 24) (v : Word)
  /-- CHOP_CFG_WRITE (R370): A write of CHOP_c_TIMING, CURRENT, MSTEP or the sine table takes effect, or is refused. -/
  | chopCfgWrite (c : Fin 24) (r : ChopReg) (v : Word)
  /-- FIELD_CTRL_WRITE (R379): A write of FIELD_p_CTRL sets EN after the station-table checks, or changes the port mode. -/
  | fieldCtrlWrite (p : Fin 4) (v : Word)
  /-- TREAVO_REPLY (R383): A Treavo reply is received and judged good, bad or unknown, with its vote, acknowledgement and ident
  records. -/
  | treavoReply (p : Fin 4) (t : Quad) (r : Reply)
  /-- FOREIGN_MASTER (R376): An output or decision frame from another master arrives at a field port and is discarded. -/
  | foreignMaster (p : Fin 4) (other : Bool)
  /-- STATION_SERVICE_WRITE (R386): A write of FIELD_p_s_CTRL.SERVICE puts a station into SERVICE or WAITING at the next field
  headland. -/
  | stationServiceWrite (p : Fin 4) (n : Fin 256) (v : Word)
  /-- MDIO_GO (R375): A write of FIELD_p_MDIO.GO runs one Clause 22 access to the PHY. -/
  | mdioGo (p : Fin 4) (v : Word) (answer : BitVec 16)
  /-- PHY_POLL (R375): Once per millisecond the port reads PHY register 1 and updates LINK. -/
  | phyPoll (p : Fin 4) (link : Bool)
  /-- CAN_CYCLE (R394): At a CAN cycle headland the port queues SYNC and the RPDOs from the live image. -/
  | canCycle (p : Fin 4)
  /-- CAN_FRAME_RX (R391): A CAN frame is received: TPDO, boot-up, heartbeat, EMCY or SDO response. -/
  | canFrameRx (p : Fin 4) (n : Fin 128) (m : CanMsg)
  /-- NODE_BOOT_TIMEOUT (R395): BOOT_MS passes without boot-up, and booting restarts after RETRY_MS. -/
  | nodeBootTimeout (p : Fin 4) (n : Fin 128)
  /-- NODE_RETRY (R395): RETRY_MS passes, and the manager boots a node again. -/
  | nodeRetry (p : Fin 4) (n : Fin 128)
  /-- HEARTBEAT_TIMEOUT (R396): No heartbeat arrives within HB_MS, and the node becomes LOST. -/
  | heartbeatTimeout (p : Fin 4) (n : Fin 128)
  /-- BUS_OFF (R396): A CAN port goes bus-off and recovers after 128 × 11 recessive bits. -/
  | busOff (p : Fin 4)
  /-- SDO_UPLOAD (R397): A write of CAN_p_SDO_CMD with bit 8 at 0 starts a host SDO upload. -/
  | sdoUpload (p : Fin 4) (n : Fin 128)
  /-- SDO_DOWNLOAD (R397): A write of CAN_p_SDO_CMD with bit 8 at 1 starts a host SDO download. -/
  | sdoDownload (p : Fin 4) (n : Fin 128)
  /-- SDO_COMPLETE (R397): An SDO finishes with success, an abort code or a timeout. -/
  | sdoComplete (p : Fin 4) (node : Option (Fin 128)) (e : SdoEnd)
  /-- SERIAL_SCAN (R401): At a serial cycle headland the Modbus scan starts, or counts an overrun. -/
  | serialScan (p : Fin 4)
  /-- MODBUS_RESPONSE (R402): A Modbus response completes and the entry ends OK, CRC, MALFORMED or EXCEPTION. -/
  | modbusResponse (p : Fin 4) (r : ModbusEnd)
  /-- MODBUS_TIMEOUT (R401): No response begins within RESP_MS, and the request is retried or ends TIMEOUT. -/
  | modbusTimeout (p : Fin 4)
  /-- GPIO_FILTERED_CHANGE (R404): A synchronised level has held for FILT edges, and the filtered level changes, feeding latches,
  edge channels and limits. -/
  | gpioFilteredChange (i : Fin 192) (lv : Bool) (t : Quad)
  /-- JOA_MESSAGE (R433): A JOA datagram arrives and is checked for format, session, tag and SEQ, or discarded. -/
  | joaMessage (h : HostAddr) (up : Fin 2) (clear : Bool) (formed : Bool) (word : Word) (q : Quad) (tagOk : Bool) (op : Byte) (req : BitVec 16)
  /-- PING (R437): A PING request is answered with an empty body and keeps the session alive. -/
  | ping (k : Fin 32) (req : BitVec 16)
  /-- CLOSE (R436): A CLOSE request is answered, and the session then ends. -/
  | close (k : Fin 32) (req : BitVec 16)
  /-- READ (R440): A READ request returns part of an entry's value. -/
  | read (k : Fin 32) (req : BitVec 16) (addr : Word) (off : Word) (most : BitVec 16)
  /-- WRITE (R441): A WRITE request writes up to 64 items, each whole and independent. -/
  | write (k : Fin 32) (req : BitVec 16) (items : List WriteItem)
  /-- READ_MULTI (R442): A READ_MULTI request reads up to 256 entries one after another. -/
  | readMulti (k : Fin 32) (req : BitVec 16) (addrs : List Word)
  /-- WRITE_GROUP (R444): A WRITE_GROUP request writes its items as one step transaction and is answered at the decision. -/
  | writeGroup (k : Fin 32) (req : BitVec 16) (at_ : Quad) (items : List WriteItem)
  /-- INFO (R443): An INFO request returns an entry's metadata and the next address. -/
  | info (k : Fin 32) (req : BitVec 16) (addr : Word)
  /-- SEG_START (R447): SEG_START opens a segmented transfer and makes the target invalid. -/
  | segStart (k : Fin 32) (req : BitVec 16) (addr : Word) (total : Quad) (crc : Word)
  /-- SEG_DATA (R447): SEG_DATA stores a segment at NEXT, or answers OUT_OF_ORDER. -/
  | segData (k : Fin 32) (req : BitVec 16) (n : BitVec 16) (off : Quad) (data : List Byte)
  /-- SEG_END (R447): SEG_END checks the length and CRC and validates the target. -/
  | segEnd (k : Fin 32) (req : BitVec 16) (n : BitVec 16)
  /-- SEG_ABORT (R447): SEG_ABORT ends a transfer and leaves the target invalid. -/
  | segAbort (k : Fin 32) (req : BitVec 16) (n : BitVec 16)
  /-- XFER_TIMEOUT (R447): 10 s without SEG_DATA ends a transfer as an abort. -/
  | xferTimeout (n : BitVec 16)
  /-- SUBSCRIBE (R448): SUBSCRIBE creates a CHANGE, CYCLIC or EVENT_LOG subscription. -/
  | subscribe (k : Fin 32) (req : BitVec 16) (mode : Byte) (period : BitVec 16) (addrs : List Word)
  /-- UNSUBSCRIBE (R448): UNSUBSCRIBE removes a subscription. -/
  | unsubscribe (k : Fin 32) (req : BitVec 16) (id : BitVec 16)
  /-- SUBSCRIPTION_SAMPLE (R449): At H + 64 of a due headland the subscribed items are sampled and an EVENT is queued or merged. -/
  | subscriptionSample
  /-- STREAM_OPEN (R453): STREAM_OPEN gives the session the gleaner stream from the oldest unacknowledged block. -/
  | streamOpen (k : Fin 32) (req : BitVec 16) (window : Byte)
  /-- STREAM_BLOCK (R453): The JX5 sends the next gleaner block while fewer than WINDOW blocks are unacknowledged. -/
  | streamBlock
  /-- STREAM_ACK (R453): STREAM_ACK acknowledges a block and every earlier one, and frees them. -/
  | streamAck (k : Fin 32) (req : BitVec 16) (q : Word)
  /-- STREAM_CLOSE (R453): STREAM_CLOSE releases the stream. -/
  | streamClose (k : Fin 32) (req : BitVec 16)
  /-- STREAM_RESEND (R453): RESEND_MS passes without an acknowledgement advancing, and blocks are sent again. -/
  | streamResend
  /-- SESSION_IDLE (R436): JOA_IDLE_S seconds pass without an accepted message, and the session ends. -/
  | sessionIdle (k : Fin 32)
  /-- SESSION_CLOSE_WRITE (R436): A write of JOA_s_CTRL.CLOSE ends a session. -/
  | sessionCloseWrite (k : Fin 32)
  /-- PROXY_COMPLETE (R430): A proxy SDO or Modbus access completes, times out or is refused, and the request is answered. -/
  | proxyComplete (port : Fin 8) (e : ProxyEnd)
  /-- FARM_FORWARD_RESPONSE (R429): The answer to an object-dictionary access forwarded to another farm device arrives. -/
  | farmForwardResponse (f : ForwardFor) (status : Byte) (ty : Byte) (total : Word) (detail : Word) (more : Bool) (data : List Byte)
  /-- HELLO (R577): HELLO takes a session in ESTABLISHING and returns the device's signed ephemeral key. -/
  | hello (h : HostAddr) (up : Fin 2) (role : Byte) (slot : Byte) (most : BitVec 16) (nonce : List Byte) (eph : List Byte) (req : BitVec 16)
  /-- PROOF (R577): PROOF is checked, the session keys are derived, and the session opens. -/
  | proof (k : Fin 32) (req : BitVec 16) (good : Bool)
  /-- PROOF_TIMEOUT (R577): No PROOF arrives within 5 s, and the session is freed. -/
  | proofTimeout (k : Fin 32)
  /-- IDENTITY (R576): IDENTITY returns the serial number and the identity public keys. -/
  | identity (h : HostAddr) (up : Fin 2) (req : BitVec 16)
  /-- SIG_PART (R576): SIG_PART returns a part of the HELLO's HSS signature. -/
  | sigPart (k : Fin 32) (off : Word) (req : BitVec 16)
  /-- SYS_RESET_WARM (R463): SYS_RESET with KIND 1 requests a warm reset. -/
  | sysResetWarm
  /-- SYS_RESET_COLD (R463): SYS_RESET with KIND 2 requests a cold reset. -/
  | sysResetCold
  /-- SYNC (R471): A Sync is received on an uplink and supplies t1 and t2 for a sample. -/
  | sync (u : Fin 2) (t : Quad) (f : Fin 16) (m : PtpMsg)
  /-- FOLLOW_UP (R471): A Follow_Up supplies the precise origin time of its Sync. -/
  | followUp (u : Fin 2) (m : PtpMsg)
  /-- DELAY_REQ (R482): A Delay_Req received on a field port is answered with Delay_Resp. -/
  | delayReq (p : Fin 4) (t : Quad) (f : Fin 16) (m : PtpMsg)
  /-- DELAY_RESP (R475): A Delay_Resp completes an E2E sample. -/
  | delayResp (u : Fin 2) (mine : Bool) (m : PtpMsg)
  /-- PDELAY_REQ (R471): A Pdelay_Req is answered with a one-step or two-step Pdelay_Resp. -/
  | pdelayReq (q : Fin 6) (t : Quad) (f : Fin 16) (te : Quad) (fe : Fin 16) (m : PtpMsg)
  /-- PDELAY_RESP (R475): A Pdelay_Resp is received for a peer-delay exchange. -/
  | pdelayResp (u : Fin 2) (t : Quad) (f : Fin 16) (m : PtpMsg)
  /-- PDELAY_RESP_FOLLOW_UP (R475): A Pdelay_Resp_Follow_Up completes a peer-delay exchange. -/
  | pdelayRespFollowUp (u : Fin 2) (m : PtpMsg)
  /-- ANNOUNCE (R474): An Announce is received and parent selection is run. -/
  | announce (u : Fin 2) (m : PtpMsg) (a : Announce)
  /-- ANNOUNCE_TIMEOUT (R474): A source sends no Announce for ANN_TIMEOUT intervals and is lost. -/
  | announceTimeout (u : Fin 2) (clock : Quad) (port : Fin 65536)
  /-- HOLD_END (R479): The servo's hold time ends, and it returns to TRACKING with D̄ formed afresh. -/
  | holdEnd
  /-- DELAY_REQ_SEND (R475): An uplink sends Delay_Req or Pdelay_Req once per 2^−LOG_SYNC s. -/
  | delayReqSend (u : Fin 2) (t : Quad) (f : Fin 16)
  /-- SYNC_SEND (R482): A field port sends Sync and Follow_Up once per 2^−LOG_SYNC s. -/
  | syncSend (p : Fin 4) (t : Quad) (f : Fin 16)
  /-- ANNOUNCE_SEND (R482): A field port sends Announce once per 2^LOG_ANNOUNCE s. -/
  | announceSend (p : Fin 4) (t : Quad)
  /-- FRAME_SENT (R472): A sent or received timestamped frame ends, and its descriptor is written back. -/
  | frameSent (q : Fin 6) (ofs : Fin 2097129) (ts : Option (Quad × Fin 16)) (sent : Bool) (err : Fin 4)
  /-- PTP_ASYM_WRITE (R480): A write of PTP_ASYM takes effect from the next sample. -/
  | ptpAsymWrite (v : Word)
  /-- ARP_REQUEST (R484): An ARP request for the uplink's IPv4 address is answered. -/
  | arpRequest (u : Fin 2) (addressed : Bool) (target : Word)
  /-- NEIGHBOUR_SOLICITATION (R484): An IPv6 neighbour solicitation for the uplink's address is answered. -/
  | neighbourSolicitation (u : Fin 2) (addressed : Bool) (target : List Word)
  /-- ECHO_REQUEST (R484): An ICMP or ICMPv6 echo request is answered. -/
  | echoRequest (u : Fin 2) (addressed : Bool)
  /-- SAFETY_CORE_TICK (R500): At a safety-core tick the inputs are sampled, discrepancy counted, permissions judged, switch HS
  driven, and a mirror frame sent. -/
  | safetyCoreTick (p : IslandPins)
  /-- MASTIFF_TICK (R504): At a Mastiff tick the inputs are sampled, Mastiff's discrepancy counted and switch LS driven. -/
  | mastiffTick (p : IslandPins) (rose : Option (Fin 4))
  /-- TEST_PULSE (R500): Once per TP_MS a test pulse is driven low for one tick and its channels are read. -/
  | testPulse (m : Fin 4) (p : IslandPins)
  /-- DARK_TEST (R508): Once per DARK_MS a side turns its switch off until SFBn reads low, or latches a dark fault after 300 µs. -/
  | darkTest (mastiff : Bool) (n : Fin 8) (pass : Bool)
  /-- SAFETY_RESET_RELEASE (R511): SRESET_L is released after a press, and a valid reset clears latches and turns READY outputs ON.
  -/
  | safetyResetRelease
  /-- ISLAND_FAULT (R513): An island fault is detected, and both sides turn their switch signals off. -/
  | islandFault (cause : Nat) (side : Fin 2) (n : Fin 8)
  /-- ISLAND_START (R514): VDDSAFE rises, and the island resets, loads its firmware and set, and runs. -/
  | islandStart (port : Bool)
  /-- RESTART (R514): SAFEMIR_CMD RESTART starts the island anew while every output is off. -/
  | restart
  /-- ACTIVATE (R514): SAFEMIR_CMD ACTIVATE starts the island with the pending set made active. -/
  | activate
  /-- MIRROR_FRAME (R515): A mirror frame arrives at SAFEMIR and is timestamped as the mirror time. -/
  | mirrorFrame
  /-- MIRROR_LOST (R516): No mirror frame arrives for 1,048,576 grains, and the mirror is invalid. -/
  | mirrorLost
  /-- SAFEMIR_REQ_WRITE (R517): A write of SAFEMIR_REQ changes the request bits sent to both sides. -/
  | safemirReqWrite (v : Word)
  /-- HARROW_READ (R534): The harrow reads the next word of a bank and corrects and counts its errors. -/
  | harrowRead (k : Fin 10) (e : WordEnd)
  /-- FALLOW_WINDOW (R546): A fallow window is saved, redirected, tested with March C− and restored. -/
  | fallowWindow (k : Fin 9) (bits : List (Fin 72))
  /-- OWNER_WRITE (R529): A write of MEM_k_OWNER hands a bank to a new owner and starts the drain. -/
  | ownerWrite (k : Fin 9) (v : Word)
  /-- DRAIN_END (R529): The old owner's writes have completed, and the new owner's writes proceed. -/
  | drainEnd (k : Fin 9)
  /-- CREDIT_REFILL (R540): Every 100 ms the granary controller adds GRAN_RATE_BYTES to its credit. -/
  | creditRefill
  /-- GRANARY_LINE_WRITE (R542): The granary controller writes and verifies one line, retrying or remapping on failure. -/
  | granaryLineWrite (e : LineEnd)
  /-- PERSIST_REWRITE (R539): A persisted entry's region place is rewritten after GRAN_PERSIST_MIN or before the ring overwrites
  its record. -/
  | persistRewrite (key : Fin 16777216)
  /-- BIST_SLICE (R548): A shutdown self-test slice tests one unit destructively and advances the pointer. -/
  | bistSlice (bits : List (Fin 1024 × Fin 72))
  /-- BIST_RESTART (R558): A write of BIST_CTRL.RESTART sets the self-test pointer to unit 0. -/
  | bistRestart (v : Word)
  /-- PROVISION (R574): SEC_CMD PROVISION generates the identity keys in BLANK and causes a cold reset. -/
  | provision
  /-- OPERATE (R574): SEC_CMD OPERATE moves to OPERATIONAL. -/
  | operate
  /-- SERVICE (R574): SEC_CMD SERVICE moves from OPERATIONAL to SERVICE. -/
  | service
  /-- RETIRE (R574): SEC_CMD RETIRE wipes the secrets and images, blows the RETIRED fuse and causes a cold reset. -/
  | retire
  /-- DEPROVISION (R574): SEC_CMD DEPROVISION wipes the granary secure region and causes a cold reset into BLANK. -/
  | deprovision
  /-- REVOKE (R565): SEC_CMD REVOKE blows the revoke fuse of a root slot. -/
  | revoke (lms : Bool) (n : Fin 4)
  /-- ROLLBACK_ADVANCE (R566): SEC_CMD ROLLBACK_ADVANCE raises the anti-rollback counter in two phases. -/
  | rollbackAdvance
  /-- FW_ACTIVATE (R569): A write of FW_ACTIVATE marks the inactive slot for trial and starts a warm restart. -/
  | fwActivate (n : Byte)
  /-- IMAGE_VERIFY (R567): An image is verified in order, and its result is recorded. -/
  | imageVerify (k : Fin 4) (f : Option ImageFile)
  /-- DEBUG_UNLOCK (R578): A signed response to the TAP challenge unlocks debug access. -/
  | debugUnlock (n : Fin 4) (good : Bool)
  /-- TAMPER_DETECT (R580): A tamper source is detected; the secure bank and windows are cleared and the secure region is wiped. -/
  | tamperDetect (sources : BitVec 5)
  /-- TAMPER_WIPE_DONE (R580): The tamper wipe completes, and a cold reset into BLANK follows. -/
  | tamperWipeDone
  /-- LINK_UP (R588): A Drustra link trains, the two ends exchange identity and tables, and the link opens or is refused. -/
  | linkUp (l : FarmLink) (h : FarmHello) (oneLane : Bool)
  /-- LINK_DOWN (R587): A Drustra link goes down, and routes are recomputed. -/
  | linkDown (l : FarmLink)
  /-- FARM_TIME_EXCHANGE (R591): Every 65,536 grains a link performs a timestamp exchange, and a follower updates its rate and
  lock. -/
  | farmTimeExchange (p : Fin 3) (t1 : Int) (t2 : Quad) (f2 : Fin 16) (t3 : Quad) (f3 : Fin 16) (t4 : Int)
  /-- HEADLAND_MESSAGE (R592): A follower receives the lead's headland message and takes its δ. -/
  | headlandMessage (b : Nat) (shift : Int) (delta : Int) (running : Bool)
  /-- HEADLAND_MESSAGE_MISSED (R592): No headland message arrives in time, and the follower uses δ = 0. -/
  | headlandMessageMissed
  /-- FARM_WINDOW_ACCESS (R594): A remote read or write through a farm window reaches the target device. -/
  | farmWindowAccess (d : Fin 8) (a : BitVec 35) (w : Option Word)
  /-- FARM_VALUE_DELIVERY (R595): FARM output values from another device arrive for the next snapshot. -/
  | farmValueDelivery (d : Fin 8) (b : Nat) (inStep : Bool) (vals : List (Nat × Quad))
  /-- FARM_EVENT_FORWARD (R596): A forwarded event arrives and posts DRUS_EVT_DESC. -/
  | farmEventForward (d : Fin 8) (block : Fin 256) (bit : Fin 32) (code : Fin 256) (v : Word) (attn : Bool)
  /-- PEER_ACTIONS (R212): A peer receives a coordinator's transaction actions, stages them and votes. -/
  | peerActions (c : Fin 8) (h : BitVec 16) (b : Nat) (role : Fin 4) (l : List (Fin 16777216 × EType × Quad))
  /-- PEER_DECISION (R597): A peer receives the decision message and returns a receipt. -/
  | peerDecision (c : Fin 8) (h : BitVec 16) (commit : Bool)
  /-- DOUBT_QUERY (R598): A peer in doubt asks the coordinator for the decision at a base headland. -/
  | doubtQuery (d : Fin 8) (h : BitVec 16) (x : DoubtAsk)
  /-- DOUBT_LIMIT_EXPIRY (R598): DRUS_DOUBT_LIMIT base periods pass, and the peer discards its record. -/
  | doubtLimitExpiry
  /-- TWIN_MIRROR (R602): A standby receives the primary's mirrored snapshot, writes and transaction records. -/
  | twinMirror (m : TwinMirror)
  /-- TWIN_MIRROR_INCOMPLETE (R602): The mirror is incomplete at H + 8,192, and the standby skips the cycle and resynchronises. -/
  | twinMirrorIncomplete
  /-- TWIN_HEARTBEAT (R603): A twin's heartbeat arrives, and a device that sees a higher EPOCH becomes standby. -/
  | twinHeartbeat (primary : Bool) (epoch : Fin 65536) (index : Nat) (ready : Bool)
  /-- TWIN_TAKEOVER (R603): At H + P/4 a READY standby finds the primary silent and becomes primary at the next headland. -/
  | twinTakeover
  /-- POWER_ON (R611): The supplies rise or PORST_L is released, and the device is rebuilt from its images. -/
  | powerOn (supply : Bool) (farm : Fin 8) (ext : Bool)
  /-- PORST_ASSERT (R612): PORST_L goes low, and a power-on reset holds while it stays low. -/
  | porstAssert
  /-- COLD_START (R618): A cold start runs from the release to the first headland: PLL lock, OTP, recovery, firmware and
  configuration. -/
  | coldStart (lock : BitVec 16) (svcLow : Bool) (mode : Fin 3) (size : Byte) (id : BitVec 24)
  /-- SVCRST_PRESS (R615): SVCRST_L has been low for 20 ms in ARMED, and one warm reset follows. -/
  | svcrstPress
  /-- SVCRST_RELEASE (R615): SVCRST_L has been high for 100 ms, and the service reset re-arms. -/
  | svcrstRelease
  /-- SVCRST_STUCK (R615): SVCRST_L has been held low for 5 s, and it is STUCK. -/
  | svcrstStuck
  /-- SHUTDOWN (R622): CLK_CMD SHUTDOWN starts the orderly shutdown. -/
  | shutdown
  /-- SHUT_CANCEL (R622): CLK_CMD SHUT_CANCEL ends a shutdown before step 5. -/
  | shutCancel
  /-- SHUTDOWN_STEP_DONE (R623): A shutdown step ends, and the next step begins. -/
  | shutdownStepDone
  /-- CFG_RESTART (R614): CLK_CMD CFG_RESTART makes a warm reset that activates a named configuration slot. -/
  | cfgRestart (slot : Fin 2)
  /-- FW_CONFIRM (R620): CLK_CMD FW_CONFIRM confirms the trial firmware slot. -/
  | fwConfirm
  /-- FW_TRIAL_EXPIRY (R620): The trial time runs out without a confirmation, and a warm reset falls back. -/
  | fwTrialExpiry
  /-- WDOG_KICK (R621): A keyed write of CLK_WDOG_KICK restarts the watchdog count and may toggle HEALTHY. -/
  | wdogKick (v : Word)
  /-- WDOG_EXPIRY (R621): TIMEOUT_MS passes without a kick, and a warm reset follows. -/
  | wdogExpiry
  /-- DDR_TRAIN (R650): Setting DDR_CTRL.EN or RETRAIN starts DDR4 training. -/
  | ddrTrain (v : Word)
  /-- DDR_TRAIN_DONE (R650): DDR4 training ends ready or failed. -/
  | ddrTrainDone (good : Bool) (ms : Nat)
  /-- DDR_TEST_START (R655): DDR_TEST_CTRL.START starts the destructive pattern test, or is refused. -/
  | ddrTestStart (v : Word)
  /-- DDR_TEST_DONE (R662): The DDR4 pattern test ends, and its failing words are counted. -/
  | ddrTestDone (failing : Nat) (first : Nat) (corrected : Nat)
  /-- LINKTEST_CTRL_WRITE (R652): A write of LINKTEST_l_CTRL sets a lane's loopback and pattern, injects an error bit or clears the
  counters. -/
  | linktestCtrlWrite (l : Fin 8) (v : Word)
  /-- PRBS_LOCK_LOST (R653): The PRBS checker sees 32 errors in 256 bits and loses lock. -/
  | prbsLockLost (l : Fin 8) (bits : Nat) (errs : Nat)
  /-- GENERATOR_START (R659): LINKTEST_f_FCTRL.START starts a frame generator on an idle port. -/
  | generatorStart (f : Fin 8) (v : Word)
  /-- GENERATOR_STOP (R659): LINKTEST_f_FCTRL.STOP stops a frame generator. -/
  | generatorStop (f : Fin 8) (v : Word)
  /-- TEST_FRAME_RX (R654): A test frame is received and counted as good, bad or after lost frames. -/
  | testFrameRx (f : Fin 8) (seq : Nat) (good : Bool)
  /-- UPLINK_LINK_DOWN (R486): An uplink loses its link or block lock and sets UPLINK_EVENTS.LINK_DOWN. -/
  | uplinkLinkDown (u : Fin 2)
  /-- UPLINK_LINK_UP (R488): An uplink gains block lock or synchronisation, and completes auto-negotiation where it is enabled, so
  LINK comes up. -/
  | uplinkLinkUp (u : Fin 2) (fault : Bool)
  /-- LANE_FAILURE (R586): One lane of a Drustra port fails, and the port runs on the other lane at half rate with ONE_LANE set. -/
  | laneFailure (p : Fin 3)
  /-- FLIT_REPLAY (R587): A flit fails its CRC or its sequence number is missing, and the sender replays from the retry buffer,
  counting retries and CRC failures. -/
  | flitReplay (p : Fin 3) (crc : Bool)
  /-- REF_IN_RANGE (R243): After a fault, the reference monitor is back in range and the full 5.0 ms settling restarts. -/
  | refInRange (p : Fin 4)
  /-- DACREF_READY (R262): The internal DAC reference becomes ready, DAC_STATUS.DACREF_READY reads 1, and the DAC outputs leave 0
  V. -/
  | dacrefReady
  /-- PEER_RECEIPT (R597): A peer's receipt of a decision, or its late acknowledgement, reaches the coordinator, which records the
  peer as applied on time or late. -/
  | peerReceipt (dev : Fin 8) (handle : BitVec 16) (a : PeerAnswer)
  /-- BROADCAST_TURNAROUND (R401): TURN_MS passes after a Modbus broadcast write, and the scan sends its next request. -/
  | broadcastTurnaround (p : Fin 4)
  /-- BUS_OFF_RECOVERED (R396): A bus-off CAN port has seen 128 occurrences of 11 recessive bits and returns to error-active. -/
  | busOffRecovered (p : Fin 4)
  /-- BOOT_MS_MISSING (R395): BOOT_MS after a CAN or serial port starts, each node or slave that is not operational is declared
  missing and MISSING is set. -/
  | bootMsMissing (serial : Bool) (p : Fin 4)
  /-- LIFECYCLE_TRANSITION_END (R574): Identity-key generation, or the wipe of a DEPROVISION or RETIRE, ends and the cold reset
  follows. -/
  | lifecycleTransitionEnd
  /-- DEBUG_HALT (R578): An unlocked debugger halts a core, and a core halted while the controller runs is fenced with cause HOST.
  -/
  | debugHalt (k : Fin 36)
  /-- XSPI_PROGRAM_DONE (R651): An erase or program of the boot flash ends, either succeeding or failing a second time with
  PROG_FAIL. -/
  | xspiProgramDone (good : Bool)
  /-- PRBS_LOCK (R653): The PRBS checker receives 256 error-free bits and locks, and starts counting BITS and ERR. -/
  | prbsLock (x : PrbsSpan)
  /-- TEST_FRAME_SEND (R659): A running frame generator sends its next test frame GAP ticks after the last, and stops after FCOUNT
  frames. -/
  | testFrameSend (f : Fin 8)
  /-- TWIN_CUT_COPIED (R602): A STANDBY_SYNCING twin finishes copying the primary's checkpoint cut over Drustra and rejoins at the
  following headland. -/
  | twinCutCopied (l : List (Nat × List Quad))
  /-- TWIN_FRAME_SEEN (R603): A twin's Treavo output frame arrives at the other twin's field port and counts as a sign that the
  primary lives, with its EPOCH compared. -/
  | twinFrameSeen (epoch : Fin 65536)
  /-- HELLO_LOCKOUT_END (R577): 60 s after 8 failed proofs, a host address may again open sessions with HELLO. -/
  | helloLockoutEnd (h : HostAddr)
deriving DecidableEq, Repr

end Sys2Proof
end

