-- ==== Sys2Proof/Decode.lean ====
section
/-! DEFINITION. The command a word spells. The opcode table gives no row any bits, so no word spells one. -/

namespace Sys2Proof

/-- The command that the nbits bits of w spell: none, since no row of the table gives bits. DESIGN CHOICE (assumption 6). -/
def decodeTableWord (_nbits _w : Nat) : Option Instr := none

end Sys2Proof
end

