-- ==== Sys2Proof/Config.lean ====
section
/-! DEFINITION. The free values: what the spec leaves open, as constants without a body. Each is applied to the
counter State.free, which the step that uses it advances, so that nothing relates two of them. -/

namespace Sys2Proof

/-- A 64-bit value the spec leaves open; State.free gives the argument (assumption 3). -/
opaque Config.freeQuad : Nat → Quad

/-- Byte i of a string whose content the spec leaves open: keys, nonces, signatures (assumption 3). State.free gives the first
argument, i the second. DESIGN CHOICE (assumption 3). -/
opaque Config.freeByte : Nat → Nat → Byte

/-- A metadata value of a dictionary entry that the spec does not state (R420); the entry and the field give the argument.
DESIGN CHOICE (assumption 179). -/
opaque Config.entryQuad : Nat → Quad

/-- Byte i of the content of an entry that the spec leaves open; the entry gives the first argument. DESIGN CHOICE (assumption 179). -/
opaque Config.entryByte : Nat → Nat → Byte

/-- R82: the place of a module image in the bank of its home plot, in units of 64 bytes, by module slot; the spec does not give it.
DESIGN CHOICE (assumption 237). -/
opaque Config.moduleAt : Nat → Nat

/-- R82: the place of a module's global area in the same bank, in units of 8 bytes, by module slot. DESIGN CHOICE (assumption 237). -/
opaque Config.globalAt : Nat → Nat

/-- R657: SIGNAL and CDR_LOCK of a SerDes lane at a raw grain, where its checker has no lock. DESIGN CHOICE (assumption 257). -/
opaque Config.laneSignal : Nat → Quad → BitVec 2

end Sys2Proof
end

