-- ==== Sys2Proof/Machine/Regs.lean ====
section
/-! DEFINITION. The registers of the spec's register tables: one constant per register (or register
array), with its byte offset from 0x00_2000_0000 and its reset value; and the fields of each. An index that
an array does not have names an offset of its block at which no register lies. A reset
value that the spec leaves to the image, the OTP, the granary or the straps is 0 here and is set when
COLD_START loads them (assumption 8). -/

namespace Sys2Proof.Machine

/-- R369: the first quarter of the sine table, round(255 × sin(2π i / 1,024)) for i = 0 to 256. -/
def sineQuarter : List Nat :=
  [0, 2, 3, 5, 6, 8, 9, 11, 13, 14, 16, 17, 19, 20, 22, 23, 25, 27, 28, 30, 31, 33, 34, 36, 37, 39, 41, 42, 44, 45, 47, 48] ++
  [50, 51, 53, 54, 56, 57, 59, 60, 62, 63, 65, 67, 68, 70, 71, 73, 74, 76, 77, 79, 80, 81, 83, 84, 86, 87, 89, 90, 92, 93, 95, 96] ++
  [98, 99, 100, 102, 103, 105, 106, 108, 109, 110, 112, 113, 115, 116, 117, 119, 120, 122, 123, 124, 126, 127, 128, 130, 131, 132, 134, 135, 136, 138, 139, 140] ++
  [142, 143, 144, 146, 147, 148, 149, 151, 152, 153, 154, 156, 157, 158, 159, 161, 162, 163, 164, 165, 167, 168, 169, 170, 171, 172, 174, 175, 176, 177, 178, 179] ++
  [180, 181, 183, 184, 185, 186, 187, 188, 189, 190, 191, 192, 193, 194, 195, 196, 197, 198, 199, 200, 201, 202, 203, 204, 205, 206, 207, 208, 208, 209, 210, 211] ++
  [212, 213, 214, 215, 215, 216, 217, 218, 219, 220, 220, 221, 222, 223, 223, 224, 225, 226, 226, 227, 228, 228, 229, 230, 231, 231, 232, 232, 233, 234, 234, 235] ++
  [236, 236, 237, 237, 238, 238, 239, 240, 240, 241, 241, 242, 242, 243, 243, 244, 244, 244, 245, 245, 246, 246, 247, 247, 247, 248, 248, 248, 249, 249, 249, 250] ++
  [250, 250, 251, 251, 251, 252, 252, 252, 252, 252, 253, 253, 253, 253, 253, 254, 254, 254, 254, 254, 254, 254, 255, 255, 255, 255, 255, 255, 255, 255, 255, 255] ++
  [255]

/-- R369: the reset value of sine entry i, by the symmetry of the sine. -/
def sineReset (i : Nat) : Word :=
  let i := i % 1024
  let at_ (k : Nat) : Nat := sineQuarter.getD k 0
  if i ≤ 256 then BitVec.ofNat 32 (at_ i)
  else if i ≤ 512 then BitVec.ofNat 32 (at_ (512 - i))
  else if i ≤ 768 then BitVec.ofInt 32 (-(at_ (i - 512) : Int))
  else BitVec.ofInt 32 (-(at_ (1024 - i) : Int))

/-- R62: TIME_CTRL, WO, reset 0x0000_0000. -/
def R.TIME_CTRL : Reg := ⟨0x20000, 0x0⟩

/-- R62: TIME_STATUS, RO, W1C, reset 0x0000_0000. -/
def R.TIME_STATUS : Reg := ⟨0x20004, 0x0⟩

/-- R62: TIME_RAW_LO, RO, reset 0x0000_0000. -/
def R.TIME_RAW_LO : Reg := ⟨0x20010, 0x0⟩

/-- R62: TIME_RAW_HI, RO, reset 0x0000_0000. -/
def R.TIME_RAW_HI : Reg := ⟨0x20014, 0x0⟩

/-- R62: TIME_VNOW_LO, RO, reset 0x0000_0000. -/
def R.TIME_VNOW_LO : Reg := ⟨0x20018, 0x0⟩

/-- R62: TIME_VNOW_HI, RO, reset 0x0000_0000. -/
def R.TIME_VNOW_HI : Reg := ⟨0x2001C, 0x0⟩

/-- R62: TIME_VRAW_LO, RO, reset 0x0000_0000. -/
def R.TIME_VRAW_LO : Reg := ⟨0x20020, 0x0⟩

/-- R62: TIME_VRAW_HI, RO, reset 0x0000_0000. -/
def R.TIME_VRAW_HI : Reg := ⟨0x20024, 0x0⟩

/-- R62: TIME_OFFSET_LO, RW, reset 0x0000_0000. -/
def R.TIME_OFFSET_LO : Reg := ⟨0x20030, 0x0⟩

/-- R62: TIME_OFFSET_HI, RW, reset 0x0000_0000. -/
def R.TIME_OFFSET_HI : Reg := ⟨0x20034, 0x0⟩

/-- R62: TIME_RAW_REF_LO, RO, reset 0x0000_0000. -/
def R.TIME_RAW_REF_LO : Reg := ⟨0x20038, 0x0⟩

/-- R62: TIME_RAW_REF_HI, RO, reset 0x0000_0000. -/
def R.TIME_RAW_REF_HI : Reg := ⟨0x2003C, 0x0⟩

/-- R62: TIME_RATE_ADJ, RW, reset 0x0000_0000. -/
def R.TIME_RATE_ADJ : Reg := ⟨0x20040, 0x0⟩

/-- R62: TIME_RATE_CLAMP_CNT, RC, reset 0x0000_0000. -/
def R.TIME_RATE_CLAMP_CNT : Reg := ⟨0x20044, 0x0⟩

/-- R62: TIME_SEAT_V_LO, RO, reset 0x0000_0000. -/
def R.TIME_SEAT_V_LO : Reg := ⟨0x20050, 0x0⟩

/-- R62: TIME_SEAT_V_HI, RO, reset 0x0000_0000. -/
def R.TIME_SEAT_V_HI : Reg := ⟨0x20054, 0x0⟩

/-- R66: HEAD_CTRL, RW, WO, reset 0x0000_0000. -/
def R.HEAD_CTRL : Reg := ⟨0x30000, 0x0⟩

/-- R66: HEAD_STATUS, RO, W1C, reset 0x0000_0000. -/
def R.HEAD_STATUS : Reg := ⟨0x30004, 0x0⟩

/-- R66: HEAD_PERIOD, RW, reset 0x0000_0400. -/
def R.HEAD_PERIOD : Reg := ⟨0x30008, 0x400⟩

/-- R66: HEAD_INDEX_LO, RO, reset 0x0000_0000. -/
def R.HEAD_INDEX_LO : Reg := ⟨0x30010, 0x0⟩

/-- R66: HEAD_INDEX_HI, RO, reset 0x0000_0000. -/
def R.HEAD_INDEX_HI : Reg := ⟨0x30014, 0x0⟩

/-- R66: HEAD_LAST_V_LO, RO, reset 0x0000_0000. -/
def R.HEAD_LAST_V_LO : Reg := ⟨0x30018, 0x0⟩

/-- R66: HEAD_LAST_V_HI, RO, reset 0x0000_0000. -/
def R.HEAD_LAST_V_HI : Reg := ⟨0x3001C, 0x0⟩

/-- R66: HEAD_LAST_RAW_LO, RO, reset 0x0000_0000. -/
def R.HEAD_LAST_RAW_LO : Reg := ⟨0x30020, 0x0⟩

/-- R66: HEAD_LAST_RAW_HI, RO, reset 0x0000_0000. -/
def R.HEAD_LAST_RAW_HI : Reg := ⟨0x30024, 0x0⟩

/-- R66: HEAD_SHIFT, RO, reset 0x0000_0000. -/
def R.HEAD_SHIFT : Reg := ⟨0x30028, 0x0⟩

/-- R66: HEAD_TARGET, RO, reset 0x0000_0000. -/
def R.HEAD_TARGET : Reg := ⟨0x3002C, 0x0⟩

/-- R66: HEAD_SYNC_CFG, RW, reset 0x0000_0000. -/
def R.HEAD_SYNC_CFG : Reg := ⟨0x30030, 0x0⟩

/-- R66: HEAD_SYNC_COMP, RW, reset 0x0000_0000. -/
def R.HEAD_SYNC_COMP : Reg := ⟨0x30034, 0x0⟩

/-- R66: HEAD_SYNC_DEADBAND, RW, reset 0x0000_0040. -/
def R.HEAD_SYNC_DEADBAND : Reg := ⟨0x30038, 0x40⟩

/-- R66: HEAD_SYNC_ERR, RO, reset 0x0000_0000. -/
def R.HEAD_SYNC_ERR : Reg := ⟨0x3003C, 0x0⟩

/-- R66: HEAD_SYNC_MISS, RW, RO, reset 0x0000_0004. -/
def R.HEAD_SYNC_MISS : Reg := ⟨0x30040, 0x4⟩

/-- R66: HEAD_SYNC_STRAY, RC, reset 0x0000_0000. -/
def R.HEAD_SYNC_STRAY : Reg := ⟨0x30044, 0x0⟩

/-- R66: HEAD_SYNC_LOST_CNT, RC, reset 0x0000_0000. -/
def R.HEAD_SYNC_LOST_CNT : Reg := ⟨0x30048, 0x0⟩

/-- R66: HEAD_n_CLASS_CFG, RW, reset see R71. -/
def R.HEAD_n_CLASS_CFG (i : Nat) : Reg := ⟨if i < 4 then 0x30100 + 0x20 * i else 0x3FFFE, if i = 0 then 0x80000000 else 0⟩

/-- R66: HEAD_n_LAST_V_LO, RO, reset 0x0000_0000. -/
def R.HEAD_n_LAST_V_LO (i : Nat) : Reg := ⟨if i < 4 then 0x30104 + 0x20 * i else 0x3FFFE, 0x0⟩

/-- R66: HEAD_n_LAST_V_HI, RO, reset 0x0000_0000. -/
def R.HEAD_n_LAST_V_HI (i : Nat) : Reg := ⟨if i < 4 then 0x30108 + 0x20 * i else 0x3FFFE, 0x0⟩

/-- R66: HEAD_n_INTERVAL_LO, RO, reset 0x0000_0000. -/
def R.HEAD_n_INTERVAL_LO (i : Nat) : Reg := ⟨if i < 4 then 0x3010C + 0x20 * i else 0x3FFFE, 0x0⟩

/-- R66: HEAD_n_INTERVAL_HI, RO, reset 0x0000_0000. -/
def R.HEAD_n_INTERVAL_HI (i : Nat) : Reg := ⟨if i < 4 then 0x30110 + 0x20 * i else 0x3FFFE, 0x0⟩

/-- R66: HEAD_n_COUNT, RO, reset 0x0000_0000. -/
def R.HEAD_n_COUNT (i : Nat) : Reg := ⟨if i < 4 then 0x30114 + 0x20 * i else 0x3FFFE, 0x0⟩

/-- R145: EXEC_CMD, WO, reset 0x0000_0000. -/
def R.EXEC_CMD : Reg := ⟨0x60000, 0x0⟩

/-- R145: EXEC_STATUS, RO, reset 0x0000_0000. -/
def R.EXEC_STATUS : Reg := ⟨0x60004, 0x0⟩

/-- R145: EXEC_EVENTS, W1C, reset 0x0000_0000. -/
def R.EXEC_EVENTS : Reg := ⟨0x60008, 0x0⟩

/-- R145: EXEC_ATTN_MASK, RW, reset 0x0000_03FF. -/
def R.EXEC_ATTN_MASK : Reg := ⟨0x6000C, 0x3FF⟩

/-- R145: EXEC_n_BUDGET, RW, reset 0x0000_0050. -/
def R.EXEC_n_BUDGET (i : Nat) : Reg := ⟨if i < 4 then 0x60010 + 0x4 * i else 0x6FFFE, 0x50⟩

/-- R145: EXEC_OVR_TASK, RO, reset 0x0000_0000. -/
def R.EXEC_OVR_TASK : Reg := ⟨0x60020, 0x0⟩

/-- R145: EXEC_OVR_INDEX_LO, RO, reset 0x0000_0000. -/
def R.EXEC_OVR_INDEX_LO : Reg := ⟨0x60024, 0x0⟩

/-- R145: EXEC_OVR_INDEX_HI, RO, reset 0x0000_0000. -/
def R.EXEC_OVR_INDEX_HI : Reg := ⟨0x60028, 0x0⟩

/-- R145: EXEC_OVR_CNT, RC, reset 0x0000_0000. -/
def R.EXEC_OVR_CNT : Reg := ⟨0x6002C, 0x0⟩

/-- R145: EXEC_FAULT_TASK, RO, reset 0x0000_0000. -/
def R.EXEC_FAULT_TASK : Reg := ⟨0x60030, 0x0⟩

/-- R145: EXEC_FAULT_REC, RO, reset 0x0000_0000. -/
def R.EXEC_FAULT_REC : Reg := ⟨0x60034, 0x0⟩

/-- R145: EXEC_FAULT_OFFSET, RO, reset 0x0000_0000. -/
def R.EXEC_FAULT_OFFSET : Reg := ⟨0x60038, 0x0⟩

/-- R145: EXEC_FAULT_CNT, RC, reset 0x0000_0000. -/
def R.EXEC_FAULT_CNT : Reg := ⟨0x6003C, 0x0⟩

/-- R145: EXEC_BRIDGE_LIMIT, RW, reset 0x0000_03E8. -/
def R.EXEC_BRIDGE_LIMIT : Reg := ⟨0x60050, 0x3E8⟩

/-- R145: EXEC_BRIDGE_LAST, RO, reset 0x0000_0000. -/
def R.EXEC_BRIDGE_LAST : Reg := ⟨0x60054, 0x0⟩

/-- R145: EXEC_BRIDGE_AGE, RO, reset 0x0000_0000. -/
def R.EXEC_BRIDGE_AGE : Reg := ⟨0x60058, 0x0⟩

/-- R145: EXEC_CKPT_PERIOD, RW, reset 0x0000_0064. -/
def R.EXEC_CKPT_PERIOD : Reg := ⟨0x60060, 0x64⟩

/-- R145: EXEC_CKPT_SEQ, RO, reset 0x0000_0000. -/
def R.EXEC_CKPT_SEQ : Reg := ⟨0x60064, 0x0⟩

/-- R145: EXEC_CKPT_INDEX_LO, RO, reset 0x0000_0000. -/
def R.EXEC_CKPT_INDEX_LO : Reg := ⟨0x60068, 0x0⟩

/-- R145: EXEC_CKPT_INDEX_HI, RO, reset 0x0000_0000. -/
def R.EXEC_CKPT_INDEX_HI : Reg := ⟨0x6006C, 0x0⟩

/-- R145: EXEC_CKPT_STALL, RC, reset 0x0000_0000. -/
def R.EXEC_CKPT_STALL : Reg := ⟨0x60070, 0x0⟩

/-- R145: EXEC_CKPT_COALESCED, RC, reset 0x0000_0000. -/
def R.EXEC_CKPT_COALESCED : Reg := ⟨0x60074, 0x0⟩

/-- R145: EXEC_OLC_AT_LO, RW, reset 0x0000_0000. -/
def R.EXEC_OLC_AT_LO : Reg := ⟨0x60080, 0x0⟩

/-- R145: EXEC_OLC_AT_HI, RW, reset 0x0000_0000. -/
def R.EXEC_OLC_AT_HI : Reg := ⟨0x60084, 0x0⟩

/-- R145: EXEC_OLC_DONE_LO, RO, reset 0x0000_0000. -/
def R.EXEC_OLC_DONE_LO : Reg := ⟨0x60088, 0x0⟩

/-- R145: EXEC_OLC_DONE_HI, RO, reset 0x0000_0000. -/
def R.EXEC_OLC_DONE_HI : Reg := ⟨0x6008C, 0x0⟩

/-- R145: EXEC_OLC_STATUS, RO, reset 0x0000_0000. -/
def R.EXEC_OLC_STATUS : Reg := ⟨0x60090, 0x0⟩

/-- R145: EXEC_STOP_FLUSHED, RC, reset 0x0000_0000. -/
def R.EXEC_STOP_FLUSHED : Reg := ⟨0x60098, 0x0⟩

/-- R145: EXEC_START_CFG, RW, reset 0x0000_0001. -/
def R.EXEC_START_CFG : Reg := ⟨0x6009C, 0x1⟩

/-- R145: EXEC_t_TASK_CTRL, RW, RO, W1C, reset from configuration image. -/
def R.EXEC_t_TASK_CTRL (i : Nat) : Reg := ⟨if i < 4096 then 0x68000 + 0x8 * i else 0x6FFFE, 0x0⟩

/-- R145: EXEC_t_FAULT_CNT, RC, reset 0x0000_0000. -/
def R.EXEC_t_FAULT_CNT (i : Nat) : Reg := ⟨if i < 4096 then 0x68004 + 0x8 * i else 0x6FFFE, 0x0⟩

/-- R152: FORCE_CTRL, RW, WO, reset 0x0000_0001. -/
def R.FORCE_CTRL : Reg := ⟨0x70000, 0x1⟩

/-- R152: FORCE_STATUS, RO, reset 0x0000_0000. -/
def R.FORCE_STATUS : Reg := ⟨0x70004, 0x0⟩

/-- R152: FORCE_EVENTS, W1C, reset 0x0000_0000. -/
def R.FORCE_EVENTS : Reg := ⟨0x70008, 0x0⟩

/-- R152: FORCE_REMOVED_POINT, RO, reset 0x0000_0000. -/
def R.FORCE_REMOVED_POINT : Reg := ⟨0x7000C, 0x0⟩

/-- R152: FORCE_e_POINT, RW, reset 0x0000_0000. -/
def R.FORCE_e_POINT (i : Nat) : Reg := ⟨if i < 1024 then 0x71000 + 0x10 * i else 0x7FFFE, 0x0⟩

/-- R152: FORCE_e_CTRL, RW, RO, reset 0x0000_0000. -/
def R.FORCE_e_CTRL (i : Nat) : Reg := ⟨if i < 1024 then 0x71004 + 0x10 * i else 0x7FFFE, 0x0⟩

/-- R152: FORCE_e_VALUE_LO, RW, reset 0x0000_0000. -/
def R.FORCE_e_VALUE_LO (i : Nat) : Reg := ⟨if i < 1024 then 0x71008 + 0x10 * i else 0x7FFFE, 0x0⟩

/-- R152: FORCE_e_VALUE_HI, RW, reset 0x0000_0000. -/
def R.FORCE_e_VALUE_HI (i : Nat) : Reg := ⟨if i < 1024 then 0x7100C + 0x10 * i else 0x7FFFE, 0x0⟩

/-- R186: COLLIE_CTRL, RW, reset 0x0000_0001. -/
def R.COLLIE_CTRL : Reg := ⟨0x40000, 0x1⟩

/-- R186: COLLIE_STATUS, RO, reset 0x0000_0000. -/
def R.COLLIE_STATUS : Reg := ⟨0x40004, 0x0⟩

/-- R186: COLLIE_EVENTS, W1C, reset 0x0000_0000. -/
def R.COLLIE_EVENTS : Reg := ⟨0x40008, 0x0⟩

/-- R186: COLLIE_ATTN_MASK, RW, reset 0x0000_0043. -/
def R.COLLIE_ATTN_MASK : Reg := ⟨0x4000C, 0x43⟩

/-- R186: COLLIE_POOL_FREE, RO, reset 0x0000_2000. -/
def R.COLLIE_POOL_FREE : Reg := ⟨0x40010, 0x2000⟩

/-- R186: COLLIE_CANCEL_RACE, RC, reset 0x0000_0000. -/
def R.COLLIE_CANCEL_RACE : Reg := ⟨0x40014, 0x0⟩

/-- R186: COLLIE_POST_DROP_CNT, RC, reset 0x0000_0000. -/
def R.COLLIE_POST_DROP_CNT : Reg := ⟨0x40018, 0x0⟩

/-- R186: COLLIE_DELAY_FULL_CNT, RC, reset 0x0000_0000. -/
def R.COLLIE_DELAY_FULL_CNT : Reg := ⟨0x4001C, 0x0⟩

/-- R186: COLLIE_REPLY_DROP_CNT, RC, reset 0x0000_0000. -/
def R.COLLIE_REPLY_DROP_CNT : Reg := ⟨0x40020, 0x0⟩

/-- R186: COLLIE_EMPTY_RELEASE_CNT, RC, reset 0x0000_0000. -/
def R.COLLIE_EMPTY_RELEASE_CNT : Reg := ⟨0x40024, 0x0⟩

/-- R186: COLLIE_RELEASE_STALL, RC, reset 0x0000_0000. -/
def R.COLLIE_RELEASE_STALL : Reg := ⟨0x40028, 0x0⟩

/-- R186: COLLIE_BRIDGE_FLUSHED, RC, reset 0x0000_0000. -/
def R.COLLIE_BRIDGE_FLUSHED : Reg := ⟨0x4002C, 0x0⟩

/-- R186: COLLIE_FENCE_LOG, RO, reset 0x0000_0000. -/
def R.COLLIE_FENCE_LOG : Reg := ⟨0x40030, 0x0⟩

/-- R186: COLLIE_FENCE_TASK, RO, reset 0x0000_0000. -/
def R.COLLIE_FENCE_TASK : Reg := ⟨0x40034, 0x0⟩

/-- R186: COLLIE_FENCE_CNT, RC, reset 0x0000_0000. -/
def R.COLLIE_FENCE_CNT : Reg := ⟨0x40038, 0x0⟩

/-- R186: COLLIE_CMD, WO, reset 0x0000_0000. -/
def R.COLLIE_CMD : Reg := ⟨0x40040, 0x0⟩

/-- R186: COLLIE_CMD_SEQ, RW, reset 0x0000_0000. -/
def R.COLLIE_CMD_SEQ : Reg := ⟨0x40044, 0x0⟩

/-- R186: COLLIE_CMD_ARG_LO, RW, reset 0x0000_0000. -/
def R.COLLIE_CMD_ARG_LO : Reg := ⟨0x40048, 0x0⟩

/-- R186: COLLIE_CMD_ARG_HI, RW, reset 0x0000_0000. -/
def R.COLLIE_CMD_ARG_HI : Reg := ⟨0x4004C, 0x0⟩

/-- R186: COLLIE_DESC_SEL, RW, reset 0x0000_0000. -/
def R.COLLIE_DESC_SEL : Reg := ⟨0x40050, 0x0⟩

/-- R186: COLLIE_DESC_w, RO, reset 0x0000_0000. -/
def R.COLLIE_DESC_w (i : Nat) : Reg := ⟨if i < 8 then 0x40060 + 0x4 * i else 0x4FFFE, 0x0⟩

/-- R186: COLLIE_n_DELAY_STAT, RO, reset 0x0000_0000. -/
def R.COLLIE_n_DELAY_STAT (i : Nat) : Reg := ⟨if i < 16 then 0x40100 + 0x4 * i else 0x4FFFE, 0x0⟩

/-- R186: COLLIE_t_STATE, RO, W1C, reset 0x003F_0000. -/
def R.COLLIE_t_STATE (i : Nat) : Reg := ⟨if i < 4096 then 0x44000 + 0x4 * i else 0x4FFFE, 0x3F0000⟩

/-- R186: COLLIE_f_FLOW_CFG, RO, reset from image. -/
def R.COLLIE_f_FLOW_CFG (i : Nat) : Reg := ⟨if i < 512 then 0x48000 + 0x10 * i else 0x4FFFE, 0x0⟩

/-- R186: COLLIE_f_FLOW_STAT, RO, reset 0x0000_0000. -/
def R.COLLIE_f_FLOW_STAT (i : Nat) : Reg := ⟨if i < 512 then 0x48004 + 0x10 * i else 0x4FFFE, 0x0⟩

/-- R186: COLLIE_f_FLOW_HEAD, RO, reset 0x0000_0000. -/
def R.COLLIE_f_FLOW_HEAD (i : Nat) : Reg := ⟨if i < 512 then 0x48008 + 0x10 * i else 0x4FFFE, 0x0⟩

/-- R186: COLLIE_f_FLOW_EMPTY, RC, reset 0x0000_0000. -/
def R.COLLIE_f_FLOW_EMPTY (i : Nat) : Reg := ⟨if i < 512 then 0x4800C + 0x10 * i else 0x4FFFE, 0x0⟩

/-- R195: PLOT_k_CORE_STATUS, RO, reset see R196. -/
def R.PLOT_k_CORE_STATUS (i : Nat) : Reg := ⟨if i < 36 then 0x50000 + 0x10 * i else 0x5FFFE, if i % 9 = 8 then 1 else BitVec.ofNat 32 (16 * (i % 9))⟩

/-- R195: PLOT_k_CORE_TASK, RO, reset 0x0000_0000. -/
def R.PLOT_k_CORE_TASK (i : Nat) : Reg := ⟨if i < 36 then 0x50004 + 0x10 * i else 0x5FFFE, 0x0⟩

/-- R195: PLOT_k_CORE_CTRL, WO, reset 0x0000_0000. -/
def R.PLOT_k_CORE_CTRL (i : Nat) : Reg := ⟨if i < 36 then 0x50008 + 0x10 * i else 0x5FFFE, 0x0⟩

/-- R195: PLOT_k_CORE_BUSY, RC, reset 0x0000_0000. -/
def R.PLOT_k_CORE_BUSY (i : Nat) : Reg := ⟨if i < 36 then 0x5000C + 0x10 * i else 0x5FFFE, 0x0⟩

/-- R195: PLOT_p_STATUS, RO, reset 0x0000_0018. -/
def R.PLOT_p_STATUS (i : Nat) : Reg := ⟨if i < 4 then 0x50400 + 0x20 * i else 0x5FFFE, 0x18⟩

/-- R195: PLOT_p_READY, RO, reset 0x0000_0000. -/
def R.PLOT_p_READY (i : Nat) : Reg := ⟨if i < 4 then 0x50404 + 0x20 * i else 0x5FFFE, 0x0⟩

/-- R195: PLOT_p_SPILL_OUT, RC, reset 0x0000_0000. -/
def R.PLOT_p_SPILL_OUT (i : Nat) : Reg := ⟨if i < 4 then 0x50408 + 0x20 * i else 0x5FFFE, 0x0⟩

/-- R195: PLOT_p_SPILL_IN, RC, reset 0x0000_0000. -/
def R.PLOT_p_SPILL_IN (i : Nat) : Reg := ⟨if i < 4 then 0x5040C + 0x20 * i else 0x5FFFE, 0x0⟩

/-- R195: PLOT_p_DISPATCH_MAX, RC, reset 0x0000_0000. -/
def R.PLOT_p_DISPATCH_MAX (i : Nat) : Reg := ⟨if i < 4 then 0x50410 + 0x20 * i else 0x5FFFE, 0x0⟩

/-- R195: PLOT_p_SLOT_MAP, RO, reset 0x7654_3210. -/
def R.PLOT_p_SLOT_MAP (i : Nat) : Reg := ⟨if i < 4 then 0x50414 + 0x20 * i else 0x5FFFE, 0x76543210⟩

/-- R228: TXN_CMD, WO, reset 0x0000_0000. -/
def R.TXN_CMD : Reg := ⟨0x80000, 0x0⟩

/-- R228: TXN_STATUS, RO, reset 0x0000_0000. -/
def R.TXN_STATUS : Reg := ⟨0x80004, 0x0⟩

/-- R228: TXN_EVENTS, W1C, reset 0x0000_0000. -/
def R.TXN_EVENTS : Reg := ⟨0x80008, 0x0⟩

/-- R228: TXN_ATTN_MASK, RW, reset 0x0000_000C. -/
def R.TXN_ATTN_MASK : Reg := ⟨0x8000C, 0xC⟩

/-- R228: TXN_CFG, RW, reset 0x1040_03E8. -/
def R.TXN_CFG : Reg := ⟨0x80010, 0x104003E8⟩

/-- R228: TXN_CMD_HANDLE, RW, reset 0x0000_0000. -/
def R.TXN_CMD_HANDLE : Reg := ⟨0x80014, 0x0⟩

/-- R228: TXN_CMD_TARGET, RW, reset 0x0000_0000. -/
def R.TXN_CMD_TARGET : Reg := ⟨0x80018, 0x0⟩

/-- R228: TXN_CMD_KIND, RW, reset 0x0000_0000. -/
def R.TXN_CMD_KIND : Reg := ⟨0x8001C, 0x0⟩

/-- R228: TXN_CMD_VALUE_LO, RW, reset 0x0000_0000. -/
def R.TXN_CMD_VALUE_LO : Reg := ⟨0x80020, 0x0⟩

/-- R228: TXN_CMD_VALUE_HI, RW, reset 0x0000_0000. -/
def R.TXN_CMD_VALUE_HI : Reg := ⟨0x80024, 0x0⟩

/-- R228: TXN_CMD_AT_LO, RW, reset 0x0000_0000. -/
def R.TXN_CMD_AT_LO : Reg := ⟨0x80028, 0x0⟩

/-- R228: TXN_CMD_AT_HI, RW, reset 0x0000_0000. -/
def R.TXN_CMD_AT_HI : Reg := ⟨0x8002C, 0x0⟩

/-- R228: TXN_CMD_RESULT, RO, reset 0x0000_0000. -/
def R.TXN_CMD_RESULT : Reg := ⟨0x80030, 0x0⟩

/-- R228: TXN_COMMIT_CNT, RC, reset 0x0000_0000. -/
def R.TXN_COMMIT_CNT : Reg := ⟨0x80040, 0x0⟩

/-- R228: TXN_ABORT_CNT, RC, reset 0x0000_0000. -/
def R.TXN_ABORT_CNT : Reg := ⟨0x80044, 0x0⟩

/-- R228: TXN_LATE_CNT, RC, reset 0x0000_0000. -/
def R.TXN_LATE_CNT : Reg := ⟨0x80048, 0x0⟩

/-- R228: TXN_LOST_DOUBT_CNT, RC, reset 0x0000_0000. -/
def R.TXN_LOST_DOUBT_CNT : Reg := ⟨0x8004C, 0x0⟩

/-- R228: TXN_PART_SEL, RW, reset 0x0000_0000. -/
def R.TXN_PART_SEL : Reg := ⟨0x80050, 0x0⟩

/-- R228: TXN_PART_INFO, RO, reset 0x0000_0000. -/
def R.TXN_PART_INFO : Reg := ⟨0x80054, 0x0⟩

/-- R228: TXN_s_STATE, RO, reset 0x0000_0000. -/
def R.TXN_s_STATE (i : Nat) : Reg := ⟨if i < 64 then 0x81000 + 0x40 * i else 0x8FFFE, 0x0⟩

/-- R228: TXN_s_HANDLE, RO, reset 0x0000_0000. -/
def R.TXN_s_HANDLE (i : Nat) : Reg := ⟨if i < 64 then 0x81004 + 0x40 * i else 0x8FFFE, 0x0⟩

/-- R228: TXN_s_OWNER, RO, reset 0x0000_0000. -/
def R.TXN_s_OWNER (i : Nat) : Reg := ⟨if i < 64 then 0x81008 + 0x40 * i else 0x8FFFE, 0x0⟩

/-- R228: TXN_s_COUNTS, RO, reset 0x0000_0000. -/
def R.TXN_s_COUNTS (i : Nat) : Reg := ⟨if i < 64 then 0x8100C + 0x40 * i else 0x8FFFE, 0x0⟩

/-- R228: TXN_s_AT_LO, RO, reset 0x0000_0000. -/
def R.TXN_s_AT_LO (i : Nat) : Reg := ⟨if i < 64 then 0x81010 + 0x40 * i else 0x8FFFE, 0x0⟩

/-- R228: TXN_s_AT_HI, RO, reset 0x0000_0000. -/
def R.TXN_s_AT_HI (i : Nat) : Reg := ⟨if i < 64 then 0x81014 + 0x40 * i else 0x8FFFE, 0x0⟩

/-- R228: TXN_s_COMMIT_V_LO, RO, reset 0x0000_0000. -/
def R.TXN_s_COMMIT_V_LO (i : Nat) : Reg := ⟨if i < 64 then 0x81018 + 0x40 * i else 0x8FFFE, 0x0⟩

/-- R228: TXN_s_COMMIT_V_HI, RO, reset 0x0000_0000. -/
def R.TXN_s_COMMIT_V_HI (i : Nat) : Reg := ⟨if i < 64 then 0x8101C + 0x40 * i else 0x8FFFE, 0x0⟩

/-- R228: TXN_s_FAIL_LO, RO, reset 0x0000_0000. -/
def R.TXN_s_FAIL_LO (i : Nat) : Reg := ⟨if i < 64 then 0x81020 + 0x40 * i else 0x8FFFE, 0x0⟩

/-- R228: TXN_s_FAIL_HI, RO, reset 0x0000_0000. -/
def R.TXN_s_FAIL_HI (i : Nat) : Reg := ⟨if i < 64 then 0x81024 + 0x40 * i else 0x8FFFE, 0x0⟩

/-- R228: TXN_s_DOUBT_LO, RO, reset 0x0000_0000. -/
def R.TXN_s_DOUBT_LO (i : Nat) : Reg := ⟨if i < 64 then 0x81028 + 0x40 * i else 0x8FFFE, 0x0⟩

/-- R228: TXN_s_DOUBT_HI, RO, reset 0x0000_0000. -/
def R.TXN_s_DOUBT_HI (i : Nat) : Reg := ⟨if i < 64 then 0x8102C + 0x40 * i else 0x8FFFE, 0x0⟩

/-- R228: TXN_s_LATE_LO, RO, reset 0x0000_0000. -/
def R.TXN_s_LATE_LO (i : Nat) : Reg := ⟨if i < 64 then 0x81030 + 0x40 * i else 0x8FFFE, 0x0⟩

/-- R228: TXN_s_LATE_HI, RO, reset 0x0000_0000. -/
def R.TXN_s_LATE_HI (i : Nat) : Reg := ⟨if i < 64 then 0x81034 + 0x40 * i else 0x8FFFE, 0x0⟩

/-- R264: ADC_EVENTS, W1C, reset 0x0000_0000. -/
def R.ADC_EVENTS : Reg := ⟨0x90000, 0x0⟩

/-- R264: ADC_ATTN_MASK, RW, reset 0x0000_000F. -/
def R.ADC_ATTN_MASK : Reg := ⟨0x90004, 0xF⟩

/-- R264: ADC_p_REF_CTRL, RW, reset 0x0000_0000. -/
def R.ADC_p_REF_CTRL (i : Nat) : Reg := ⟨if i < 4 then 0x90100 + 0x10 * i else 0x9FFFE, 0x0⟩

/-- R264: ADC_p_REF_STATUS, RO, reset 0x0000_0000. -/
def R.ADC_p_REF_STATUS (i : Nat) : Reg := ⟨if i < 4 then 0x90104 + 0x10 * i else 0x9FFFE, 0x0⟩

/-- R264: ADC_p_REF_SETTLED_V_LO, RO, reset 0x0000_0000. -/
def R.ADC_p_REF_SETTLED_V_LO (i : Nat) : Reg := ⟨if i < 4 then 0x90108 + 0x10 * i else 0x9FFFE, 0x0⟩

/-- R264: ADC_p_REF_SETTLED_V_HI, RO, reset 0x0000_0000. -/
def R.ADC_p_REF_SETTLED_V_HI (i : Nat) : Reg := ⟨if i < 4 then 0x9010C + 0x10 * i else 0x9FFFE, 0x0⟩

/-- R267: AU_n_CTRL, RW, reset 0x0000_0000. -/
def R.AU_n_CTRL (i : Nat) : Reg := ⟨if i < 16 then 0x200000 + 0x10000 * i else 0x20FFFE, 0x0⟩

/-- R267: AU_n_STATUS, RO, reset 0x0000_0000. -/
def R.AU_n_STATUS (i : Nat) : Reg := ⟨if i < 16 then 0x200004 + 0x10000 * i else 0x20FFFE, 0x0⟩

/-- R267: AU_n_EVENTS, W1C, reset 0x0000_0000. -/
def R.AU_n_EVENTS (i : Nat) : Reg := ⟨if i < 16 then 0x200008 + 0x10000 * i else 0x20FFFE, 0x0⟩

/-- R267: AU_n_ATTN_MASK, RW, reset 0x0000_0098. -/
def R.AU_n_ATTN_MASK (i : Nat) : Reg := ⟨if i < 16 then 0x20000C + 0x10000 * i else 0x20FFFE, 0x98⟩

/-- R267: AU_n_INJ_CTRL, RW, WO, reset 0x0000_0000. -/
def R.AU_n_INJ_CTRL (i : Nat) : Reg := ⟨if i < 16 then 0x200010 + 0x10000 * i else 0x20FFFE, 0x0⟩

/-- R267: AU_n_CAL_CTRL, RW, WO, RO, reset 0x0000_0000. -/
def R.AU_n_CAL_CTRL (i : Nat) : Reg := ⟨if i < 16 then 0x200014 + 0x10000 * i else 0x20FFFE, 0x0⟩

/-- R267: AU_n_LEG_CFG, RW, reset 0x0000_0000. -/
def R.AU_n_LEG_CFG (i : Nat) : Reg := ⟨if i < 16 then 0x200018 + 0x10000 * i else 0x20FFFE, 0x0⟩

/-- R267: AU_n_CAL_LAST_V_LO, RO, reset 0x0000_0000. -/
def R.AU_n_CAL_LAST_V_LO (i : Nat) : Reg := ⟨if i < 16 then 0x200020 + 0x10000 * i else 0x20FFFE, 0x0⟩

/-- R267: AU_n_CAL_LAST_V_HI, RO, reset 0x0000_0000. -/
def R.AU_n_CAL_LAST_V_HI (i : Nat) : Reg := ⟨if i < 16 then 0x200024 + 0x10000 * i else 0x20FFFE, 0x0⟩

/-- R267: AU_n_CAL_ABORT_CNT, RC, reset 0x0000_0000. -/
def R.AU_n_CAL_ABORT_CNT (i : Nat) : Reg := ⟨if i < 16 then 0x200028 + 0x10000 * i else 0x20FFFE, 0x0⟩

/-- R267: AU_n_INJ_DROP_CNT, RC, reset 0x0000_0000. -/
def R.AU_n_INJ_DROP_CNT (i : Nat) : Reg := ⟨if i < 16 then 0x20002C + 0x10000 * i else 0x20FFFE, 0x0⟩

/-- R267: AU_n_INJ_HOLD_MAX, RC, reset 0x0000_0000. -/
def R.AU_n_INJ_HOLD_MAX (i : Nat) : Reg := ⟨if i < 16 then 0x200030 + 0x10000 * i else 0x20FFFE, 0x0⟩

/-- R267: AU_n_PASS_CNT, RO, reset 0x0000_0000. -/
def R.AU_n_PASS_CNT (i : Nat) : Reg := ⟨if i < 16 then 0x200034 + 0x10000 * i else 0x20FFFE, 0x0⟩

/-- R267: AU_n_CAL_OFS_g, RO, reset from OTP. -/
def R.AU_n_CAL_OFS_g (i : Nat) (j : Nat) : Reg := ⟨if i < 16 ∧ j < 4 then 0x200040 + 0x10000 * i + 0x4 * j else 0x20FFFE, 0x0⟩

/-- R267: AU_n_CAL_GAIN_g, RO, reset from OTP. -/
def R.AU_n_CAL_GAIN_g (i : Nat) (j : Nat) : Reg := ⟨if i < 16 ∧ j < 4 then 0x200050 + 0x10000 * i + 0x4 * j else 0x20FFFE, 0x0⟩

/-- R267: AU_n_SEQ_e, RW, reset 0x0000_0000. -/
def R.AU_n_SEQ_e (i : Nat) (j : Nat) : Reg := ⟨if i < 16 ∧ j < 32 then 0x200100 + 0x10000 * i + 0x4 * j else 0x20FFFE, 0x0⟩

/-- R267: AU_n_INJ_e, RW, reset 0x0000_0000. -/
def R.AU_n_INJ_e (i : Nat) (j : Nat) : Reg := ⟨if i < 16 ∧ j < 4 then 0x200180 + 0x10000 * i + 0x4 * j else 0x20FFFE, 0x0⟩

/-- R267: AU_n_LEG_RES_e, RO, RC, reset 0x0000_0000. -/
def R.AU_n_LEG_RES_e (i : Nat) (j : Nat) : Reg := ⟨if i < 16 ∧ j < 16 then 0x200200 + 0x10000 * i + 0x4 * j else 0x20FFFE, 0x0⟩

/-- R267: AU_n_i_CH_CFG, RW, reset 0x0000_0000. -/
def R.AU_n_i_CH_CFG (i : Nat) (j : Nat) : Reg := ⟨if i < 16 ∧ j < 16 then 0x200300 + 0x10000 * i + 0x10 * j else 0x20FFFE, 0x0⟩

/-- R267: AU_n_i_CH_STATUS, RO, reset 0x0000_0000. -/
def R.AU_n_i_CH_STATUS (i : Nat) (j : Nat) : Reg := ⟨if i < 16 ∧ j < 16 then 0x200304 + 0x10000 * i + 0x10 * j else 0x20FFFE, 0x0⟩

/-- R267: AU_n_i_SCALE_LO, RW, reset 0x0000_0000. -/
def R.AU_n_i_SCALE_LO (i : Nat) (j : Nat) : Reg := ⟨if i < 16 ∧ j < 16 then 0x200308 + 0x10000 * i + 0x10 * j else 0x20FFFE, 0x0⟩

/-- R267: AU_n_i_SCALE_HI, RW, reset 0x0000_0000. -/
def R.AU_n_i_SCALE_HI (i : Nat) (j : Nat) : Reg := ⟨if i < 16 ∧ j < 16 then 0x20030C + 0x10000 * i + 0x10 * j else 0x20FFFE, 0x0⟩

/-- R275: ACC_EVENTS, W1C, reset 0x0000_0000. -/
def R.ACC_EVENTS : Reg := ⟨0xA0000, 0x0⟩

/-- R275: ACC_ATTN_MASK, RW, reset 0x0000_0006. -/
def R.ACC_ATTN_MASK : Reg := ⟨0xA0004, 0x6⟩

/-- R275: ACC_TRK_CLR, WO, reset 0x0000_0000. -/
def R.ACC_TRK_CLR : Reg := ⟨0xA0008, 0x0⟩

/-- R275: ACC_c_CFG, RW, RO, reset 0x0000_0000. -/
def R.ACC_c_CFG (i : Nat) : Reg := ⟨if i < 256 then 0xA1000 + 0x40 * i else 0xAFFFE, 0x0⟩

/-- R275: ACC_c_WIN_STATUS, RO, reset 0x0000_0000. -/
def R.ACC_c_WIN_STATUS (i : Nat) : Reg := ⟨if i < 256 then 0xA1004 + 0x40 * i else 0xAFFFE, 0x0⟩

/-- R275: ACC_c_N, RO, reset 0x0000_0000. -/
def R.ACC_c_N (i : Nat) : Reg := ⟨if i < 256 then 0xA1008 + 0x40 * i else 0xAFFFE, 0x0⟩

/-- R275: ACC_c_SUM_LO, RO, reset 0x0000_0000. -/
def R.ACC_c_SUM_LO (i : Nat) : Reg := ⟨if i < 256 then 0xA100C + 0x40 * i else 0xAFFFE, 0x0⟩

/-- R275: ACC_c_SUM_HI, RO, reset 0x0000_0000. -/
def R.ACC_c_SUM_HI (i : Nat) : Reg := ⟨if i < 256 then 0xA1010 + 0x40 * i else 0xAFFFE, 0x0⟩

/-- R275: ACC_c_SUMSQ_LO, RO, reset 0x0000_0000. -/
def R.ACC_c_SUMSQ_LO (i : Nat) : Reg := ⟨if i < 256 then 0xA1014 + 0x40 * i else 0xAFFFE, 0x0⟩

/-- R275: ACC_c_SUMSQ_HI, RO, reset 0x0000_0000. -/
def R.ACC_c_SUMSQ_HI (i : Nat) : Reg := ⟨if i < 256 then 0xA1018 + 0x40 * i else 0xAFFFE, 0x0⟩

/-- R275: ACC_c_MIN, RO, reset 0x0000_0000. -/
def R.ACC_c_MIN (i : Nat) : Reg := ⟨if i < 256 then 0xA101C + 0x40 * i else 0xAFFFE, 0x0⟩

/-- R275: ACC_c_MIN_OFS, RO, reset 0x0000_0000. -/
def R.ACC_c_MIN_OFS (i : Nat) : Reg := ⟨if i < 256 then 0xA1020 + 0x40 * i else 0xAFFFE, 0x0⟩

/-- R275: ACC_c_MAX, RO, reset 0x0000_0000. -/
def R.ACC_c_MAX (i : Nat) : Reg := ⟨if i < 256 then 0xA1024 + 0x40 * i else 0xAFFFE, 0x0⟩

/-- R275: ACC_c_MAX_OFS, RO, reset 0x0000_0000. -/
def R.ACC_c_MAX_OFS (i : Nat) : Reg := ⟨if i < 256 then 0xA1028 + 0x40 * i else 0xAFFFE, 0x0⟩

/-- R275: ACC_c_START_LO, RO, reset 0x0000_0000. -/
def R.ACC_c_START_LO (i : Nat) : Reg := ⟨if i < 256 then 0xA102C + 0x40 * i else 0xAFFFE, 0x0⟩

/-- R275: ACC_c_START_HI, RO, reset 0x0000_0000. -/
def R.ACC_c_START_HI (i : Nat) : Reg := ⟨if i < 256 then 0xA1030 + 0x40 * i else 0xAFFFE, 0x0⟩

/-- R275: ACC_c_WCMP_LOW, RW, reset 0x0000_0000. -/
def R.ACC_c_WCMP_LOW (i : Nat) : Reg := ⟨if i < 256 then 0xA1034 + 0x40 * i else 0xAFFFE, 0x0⟩

/-- R275: ACC_c_WCMP_HIGH, RW, reset 0x0000_0000. -/
def R.ACC_c_WCMP_HIGH (i : Nat) : Reg := ⟨if i < 256 then 0xA1038 + 0x40 * i else 0xAFFFE, 0x0⟩

/-- R275: ACC_c_WCMP_CFG, RW, RO, reset 0x0000_0000. -/
def R.ACC_c_WCMP_CFG (i : Nat) : Reg := ⟨if i < 256 then 0xA103C + 0x40 * i else 0xAFFFE, 0x0⟩

/-- R275: ACC_c_TRK_MIN, RO, reset 0x0007_FFFF. -/
def R.ACC_c_TRK_MIN (i : Nat) : Reg := ⟨if i < 256 then 0xA6000 + 0x20 * i else 0xAFFFE, 0x7FFFF⟩

/-- R275: ACC_c_TRK_MIN_T_LO, RO, reset 0x0000_0000. -/
def R.ACC_c_TRK_MIN_T_LO (i : Nat) : Reg := ⟨if i < 256 then 0xA6004 + 0x20 * i else 0xAFFFE, 0x0⟩

/-- R275: ACC_c_TRK_MIN_T_HI, RO, reset 0x0000_0000. -/
def R.ACC_c_TRK_MIN_T_HI (i : Nat) : Reg := ⟨if i < 256 then 0xA6008 + 0x20 * i else 0xAFFFE, 0x0⟩

/-- R275: ACC_c_TRK_MAX, RO, reset 0xFFF8_0000. -/
def R.ACC_c_TRK_MAX (i : Nat) : Reg := ⟨if i < 256 then 0xA600C + 0x20 * i else 0xAFFFE, 0xFFF80000⟩

/-- R275: ACC_c_TRK_MAX_T_LO, RO, reset 0x0000_0000. -/
def R.ACC_c_TRK_MAX_T_LO (i : Nat) : Reg := ⟨if i < 256 then 0xA6010 + 0x20 * i else 0xAFFFE, 0x0⟩

/-- R275: ACC_c_TRK_MAX_T_HI, RO, reset 0x0000_0000. -/
def R.ACC_c_TRK_MAX_T_HI (i : Nat) : Reg := ⟨if i < 256 then 0xA6014 + 0x20 * i else 0xAFFFE, 0x0⟩

/-- R279: DAC_STATUS, RO, reset 0x0000_0000. -/
def R.DAC_STATUS : Reg := ⟨0xB0000, 0x0⟩

/-- R279: DAC_EVENTS, W1C, reset 0x0000_0000. -/
def R.DAC_EVENTS : Reg := ⟨0xB0004, 0x0⟩

/-- R279: DAC_CLAMP_CNT, RC, reset 0x0000_0000. -/
def R.DAC_CLAMP_CNT : Reg := ⟨0xB0008, 0x0⟩

/-- R279: DAC_n_CODE, RO, reset 0x0000_0000. -/
def R.DAC_n_CODE (i : Nat) : Reg := ⟨if i < 32 then 0xB0100 + 0x10 * i else 0xBFFFE, 0x0⟩

/-- R279: DAC_n_SEED, RO, reset from image. -/
def R.DAC_n_SEED (i : Nat) : Reg := ⟨if i < 32 then 0xB0104 + 0x10 * i else 0xBFFFE, 0x0⟩

/-- R279: DAC_n_SAFE, RO, reset from image. -/
def R.DAC_n_SAFE (i : Nat) : Reg := ⟨if i < 32 then 0xB0108 + 0x10 * i else 0xBFFFE, 0x0⟩

/-- R279: DAC_n_CFG, RO, reset from image. -/
def R.DAC_n_CFG (i : Nat) : Reg := ⟨if i < 32 then 0xB010C + 0x10 * i else 0xBFFFE, 0x0⟩

/-- R318: CAPT_CTRL, RW, reset 0x0000_0000. -/
def R.CAPT_CTRL : Reg := ⟨0xC0000, 0x0⟩

/-- R318: CAPT_STATUS, RO, reset 0x0000_0000. -/
def R.CAPT_STATUS : Reg := ⟨0xC0004, 0x0⟩

/-- R318: CAPT_EVENTS, W1C, reset 0x0000_0000. -/
def R.CAPT_EVENTS : Reg := ⟨0xC0008, 0x0⟩

/-- R318: CAPT_ATTN_MASK, RW, reset 0x0000_003C. -/
def R.CAPT_ATTN_MASK : Reg := ⟨0xC000C, 0x3C⟩

/-- R318: CAPT_SW_TRIG, WO, reset 0x0000_0000. -/
def R.CAPT_SW_TRIG : Reg := ⟨0xC0010, 0x0⟩

/-- R318: CAPT_RELEASE, WO, reset 0x0000_0000. -/
def R.CAPT_RELEASE : Reg := ⟨0xC0014, 0x0⟩

/-- R318: CAPT_TRIGIN_CFG, RW, reset 0x0000_0000. -/
def R.CAPT_TRIGIN_CFG : Reg := ⟨0xC0018, 0x0⟩

/-- R318: CAPT_TRIGIN_m_V_LO, RO, reset 0x0000_0000. -/
def R.CAPT_TRIGIN_m_V_LO (i : Nat) : Reg := ⟨if i < 4 then 0xC0020 + 0x8 * i else 0xCFFFE, 0x0⟩

/-- R318: CAPT_TRIGIN_m_V_HI, RO, reset 0x0000_0000. -/
def R.CAPT_TRIGIN_m_V_HI (i : Nat) : Reg := ⟨if i < 4 then 0xC0024 + 0x8 * i else 0xCFFFE, 0x0⟩

/-- R318: CAPT_OVF_BASE_LO, RW, reset 0x0000_0000. -/
def R.CAPT_OVF_BASE_LO : Reg := ⟨0xC0040, 0x0⟩

/-- R318: CAPT_OVF_BASE_HI, RW, reset 0x0000_0000. -/
def R.CAPT_OVF_BASE_HI : Reg := ⟨0xC0044, 0x0⟩

/-- R318: CAPT_OVF_SIZE, RW, reset 0x0000_0000. -/
def R.CAPT_OVF_SIZE : Reg := ⟨0xC0048, 0x0⟩

/-- R318: CAPT_OVF_HEAD, RO, reset 0x0000_0000. -/
def R.CAPT_OVF_HEAD : Reg := ⟨0xC004C, 0x0⟩

/-- R318: CAPT_OVF_TAIL, RW, reset 0x0000_0000. -/
def R.CAPT_OVF_TAIL : Reg := ⟨0xC0050, 0x0⟩

/-- R318: CAPT_OVF_FAIL_CNT, RC, reset 0x0000_0000. -/
def R.CAPT_OVF_FAIL_CNT : Reg := ⟨0xC0054, 0x0⟩

/-- R318: CAPT_n_CTRL, RW, WO, reset 0x0001_0008. -/
def R.CAPT_n_CTRL (i : Nat) : Reg := ⟨if i < 16 then 0xC1000 + 0x40 * i else 0xCFFFE, 0x10008⟩

/-- R318: CAPT_n_STATUS, RO, reset 0x0000_0000. -/
def R.CAPT_n_STATUS (i : Nat) : Reg := ⟨if i < 16 then 0xC1004 + 0x40 * i else 0xCFFFE, 0x0⟩

/-- R318: CAPT_n_SRC, RW, reset 0x0000_0000. -/
def R.CAPT_n_SRC (i : Nat) : Reg := ⟨if i < 16 then 0xC1008 + 0x40 * i else 0xCFFFE, 0x0⟩

/-- R318: CAPT_n_SEG_CFG, RW, reset 0x0000_0000. -/
def R.CAPT_n_SEG_CFG (i : Nat) : Reg := ⟨if i < 16 then 0xC100C + 0x40 * i else 0xCFFFE, 0x0⟩

/-- R318: CAPT_n_BASE, RW, reset 0x0000_0000. -/
def R.CAPT_n_BASE (i : Nat) : Reg := ⟨if i < 16 then 0xC1010 + 0x40 * i else 0xCFFFE, 0x0⟩

/-- R318: CAPT_n_PRE, RW, reset 0x0000_0000. -/
def R.CAPT_n_PRE (i : Nat) : Reg := ⟨if i < 16 then 0xC1014 + 0x40 * i else 0xCFFFE, 0x0⟩

/-- R318: CAPT_n_POST, RW, reset 0x0000_0001. -/
def R.CAPT_n_POST (i : Nat) : Reg := ⟨if i < 16 then 0xC1018 + 0x40 * i else 0xCFFFE, 0x1⟩

/-- R318: CAPT_n_XTRIG, RW, reset 0x0000_0000. -/
def R.CAPT_n_XTRIG (i : Nat) : Reg := ⟨if i < 16 then 0xC101C + 0x40 * i else 0xCFFFE, 0x0⟩

/-- R318: CAPT_n_EVT, RW, reset 0x0000_0000. -/
def R.CAPT_n_EVT (i : Nat) : Reg := ⟨if i < 16 then 0xC1020 + 0x40 * i else 0xCFFFE, 0x0⟩

/-- R318: CAPT_n_SEQ, RO, reset 0x0000_0000. -/
def R.CAPT_n_SEQ (i : Nat) : Reg := ⟨if i < 16 then 0xC1024 + 0x40 * i else 0xCFFFE, 0x0⟩

/-- R318: CAPT_n_MISSED, RC, reset 0x0000_0000. -/
def R.CAPT_n_MISSED (i : Nat) : Reg := ⟨if i < 16 then 0xC1028 + 0x40 * i else 0xCFFFE, 0x0⟩

/-- R318: CAPT_n_EARLY, RC, reset 0x0000_0000. -/
def R.CAPT_n_EARLY (i : Nat) : Reg := ⟨if i < 16 then 0xC102C + 0x40 * i else 0xCFFFE, 0x0⟩

/-- R318: CAPT_n_k_COND_CFG, RW, reset 0x0000_0000. -/
def R.CAPT_n_k_COND_CFG (i : Nat) (j : Nat) : Reg := ⟨if i < 16 ∧ j < 4 then 0xC2000 + 0x40 * i + 0x10 * j else 0xCFFFE, 0x0⟩

/-- R318: CAPT_n_k_LEVEL_LO, RW, reset 0x0000_0000. -/
def R.CAPT_n_k_LEVEL_LO (i : Nat) (j : Nat) : Reg := ⟨if i < 16 ∧ j < 4 then 0xC2004 + 0x40 * i + 0x10 * j else 0xCFFFE, 0x0⟩

/-- R318: CAPT_n_k_LEVEL_HI, RW, reset 0x0000_0000. -/
def R.CAPT_n_k_LEVEL_HI (i : Nat) (j : Nat) : Reg := ⟨if i < 16 ∧ j < 4 then 0xC2008 + 0x40 * i + 0x10 * j else 0xCFFFE, 0x0⟩

/-- R318: CAPT_n_k_HYST, RW, reset 0x0000_0000. -/
def R.CAPT_n_k_HYST (i : Nat) (j : Nat) : Reg := ⟨if i < 16 ∧ j < 4 then 0xC200C + 0x40 * i + 0x10 * j else 0xCFFFE, 0x0⟩

/-- R318: CAPT_d_SEG, RO, reset 0x0000_0000. -/
def R.CAPT_d_SEG (i : Nat) : Reg := ⟨if i < 4096 then 0xC8000 + 0x8 * i else 0xCFFFE, 0x0⟩

/-- R318: CAPT_d_SEG_SEQ, RO, reset 0x0000_0000. -/
def R.CAPT_d_SEG_SEQ (i : Nat) : Reg := ⟨if i < 4096 then 0xC8004 + 0x8 * i else 0xCFFFE, 0x0⟩

/-- R326: GLEAN_CTRL, RW, reset 0x0000_1000. -/
def R.GLEAN_CTRL : Reg := ⟨0xD0000, 0x1000⟩

/-- R326: GLEAN_STATUS, RO, reset 0x0000_0000. -/
def R.GLEAN_STATUS : Reg := ⟨0xD0004, 0x0⟩

/-- R326: GLEAN_EVENTS, W1C, reset 0x0000_0000. -/
def R.GLEAN_EVENTS : Reg := ⟨0xD0008, 0x0⟩

/-- R326: GLEAN_ATTN_MASK, RW, reset 0x0000_000E. -/
def R.GLEAN_ATTN_MASK : Reg := ⟨0xD000C, 0xE⟩

/-- R326: GLEAN_SPOOL_BASE_LO, RW, reset 0x0000_0000. -/
def R.GLEAN_SPOOL_BASE_LO : Reg := ⟨0xD0010, 0x0⟩

/-- R326: GLEAN_SPOOL_BASE_HI, RW, reset 0x0000_0000. -/
def R.GLEAN_SPOOL_BASE_HI : Reg := ⟨0xD0014, 0x0⟩

/-- R326: GLEAN_SPOOL_SIZE, RW, reset 0x0000_0000. -/
def R.GLEAN_SPOOL_SIZE : Reg := ⟨0xD0018, 0x0⟩

/-- R326: GLEAN_C0_RESERVE, RW, reset 0x0000_0100. -/
def R.GLEAN_C0_RESERVE : Reg := ⟨0xD001C, 0x100⟩

/-- R326: GLEAN_NEXT_SEQ, RO, reset 0x0000_0000. -/
def R.GLEAN_NEXT_SEQ : Reg := ⟨0xD0020, 0x0⟩

/-- R326: GLEAN_ACK_SEQ, RO, reset 0x0000_0000. -/
def R.GLEAN_ACK_SEQ : Reg := ⟨0xD0024, 0x0⟩

/-- R326: GLEAN_FILL_BLOCKS, RO, reset 0x0000_0000. -/
def R.GLEAN_FILL_BLOCKS : Reg := ⟨0xD0028, 0x0⟩

/-- R326: GLEAN_k_REC_CNT, RC, reset 0x0000_0000. -/
def R.GLEAN_k_REC_CNT (i : Nat) : Reg := ⟨if i < 4 then 0xD0030 + 0x4 * i else 0xDFFFE, 0x0⟩

/-- R326: GLEAN_k_LOST_CNT, RC, reset 0x0000_0000. -/
def R.GLEAN_k_LOST_CNT (i : Nat) : Reg := ⟨if i < 4 then 0xD0040 + 0x4 * i else 0xDFFFE, 0x0⟩

/-- R326: GLEAN_SIG_SEL, RW, reset 0x0000_0000. -/
def R.GLEAN_SIG_SEL : Reg := ⟨0xD0050, 0x0⟩

/-- R326: GLEAN_SIG_CFG, RO, reset from image. -/
def R.GLEAN_SIG_CFG : Reg := ⟨0xD0054, 0x0⟩

/-- R326: GLEAN_SIG_SOURCE, RO, reset from image. -/
def R.GLEAN_SIG_SOURCE : Reg := ⟨0xD0058, 0x0⟩

/-- R326: GLEAN_SIG_DEADBAND_LO, RW, reset from image. -/
def R.GLEAN_SIG_DEADBAND_LO : Reg := ⟨0xD005C, 0x0⟩

/-- R326: GLEAN_SIG_DEADBAND_HI, RW, reset from image. -/
def R.GLEAN_SIG_DEADBAND_HI : Reg := ⟨0xD0060, 0x0⟩

/-- R326: GLEAN_SIG_HEARTBEAT, RW, reset from image. -/
def R.GLEAN_SIG_HEARTBEAT : Reg := ⟨0xD0064, 0x0⟩

/-- R326: GLEAN_SIG_MIN_INT, RW, reset from image. -/
def R.GLEAN_SIG_MIN_INT : Reg := ⟨0xD0068, 0x0⟩

/-- R326: GLEAN_HALT_V_LO, RO, reset 0x0000_0000. -/
def R.GLEAN_HALT_V_LO : Reg := ⟨0xD0070, 0x0⟩

/-- R326: GLEAN_HALT_V_HI, RO, reset 0x0000_0000. -/
def R.GLEAN_HALT_V_HI : Reg := ⟨0xD0074, 0x0⟩

/-- R359: AXIS_PEND_LO, RO, reset 0x0000_0000. -/
def R.AXIS_PEND_LO : Reg := ⟨0xE0000, 0x0⟩

/-- R359: AXIS_PEND_HI, RO, reset 0x0000_0000. -/
def R.AXIS_PEND_HI : Reg := ⟨0xE0004, 0x0⟩

/-- R359: AXIS_FAULT_LO, RO, reset 0x0000_0000. -/
def R.AXIS_FAULT_LO : Reg := ⟨0xE0008, 0x0⟩

/-- R359: AXIS_FAULT_HI, RO, reset 0x0000_0000. -/
def R.AXIS_FAULT_HI : Reg := ⟨0xE000C, 0x0⟩

/-- R359: AXIS_MOVING_LO, RO, reset 0x0000_0000. -/
def R.AXIS_MOVING_LO : Reg := ⟨0xE0010, 0x0⟩

/-- R359: AXIS_MOVING_HI, RO, reset 0x0000_0000. -/
def R.AXIS_MOVING_HI : Reg := ⟨0xE0014, 0x0⟩

/-- R359: AXIS_ATTN_MASK, RW, reset 0x0000_090C. -/
def R.AXIS_ATTN_MASK : Reg := ⟨0xE0018, 0x90C⟩

/-- R359: AXIS_n_CMD, WO, reset 0x0000_0000. -/
def R.AXIS_n_CMD (i : Nat) : Reg := ⟨if i < 64 then 0xE1000 + 0x100 * i else 0xEFFFE, 0x0⟩

/-- R359: AXIS_n_CTRL, RW, WO, reset 0x0000_0000. -/
def R.AXIS_n_CTRL (i : Nat) : Reg := ⟨if i < 64 then 0xE1004 + 0x100 * i else 0xEFFFE, 0x0⟩

/-- R359: AXIS_n_STATUS, RO, reset 0x0000_0040. -/
def R.AXIS_n_STATUS (i : Nat) : Reg := ⟨if i < 64 then 0xE1008 + 0x100 * i else 0xEFFFE, 0x40⟩

/-- R359: AXIS_n_EVENTS, W1C, reset 0x0000_0000. -/
def R.AXIS_n_EVENTS (i : Nat) : Reg := ⟨if i < 64 then 0xE100C + 0x100 * i else 0xEFFFE, 0x0⟩

/-- R359: AXIS_n_ARG_LO, RW, reset 0x0000_0000. -/
def R.AXIS_n_ARG_LO (i : Nat) : Reg := ⟨if i < 64 then 0xE1010 + 0x100 * i else 0xEFFFE, 0x0⟩

/-- R359: AXIS_n_ARG_HI, RW, reset 0x0000_0000. -/
def R.AXIS_n_ARG_HI (i : Nat) : Reg := ⟨if i < 64 then 0xE1014 + 0x100 * i else 0xEFFFE, 0x0⟩

/-- R359: AXIS_n_POS_LO, RO, reset 0x0000_0000. -/
def R.AXIS_n_POS_LO (i : Nat) : Reg := ⟨if i < 64 then 0xE1018 + 0x100 * i else 0xEFFFE, 0x0⟩

/-- R359: AXIS_n_POS_HI, RO, reset 0x0000_0000. -/
def R.AXIS_n_POS_HI (i : Nat) : Reg := ⟨if i < 64 then 0xE101C + 0x100 * i else 0xEFFFE, 0x0⟩

/-- R359: AXIS_n_TARGET_LO, RO, reset 0x0000_0000. -/
def R.AXIS_n_TARGET_LO (i : Nat) : Reg := ⟨if i < 64 then 0xE1020 + 0x100 * i else 0xEFFFE, 0x0⟩

/-- R359: AXIS_n_TARGET_HI, RO, reset 0x0000_0000. -/
def R.AXIS_n_TARGET_HI (i : Nat) : Reg := ⟨if i < 64 then 0xE1024 + 0x100 * i else 0xEFFFE, 0x0⟩

/-- R359: AXIS_n_VEL_LO, RO, reset 0x0000_0000. -/
def R.AXIS_n_VEL_LO (i : Nat) : Reg := ⟨if i < 64 then 0xE1028 + 0x100 * i else 0xEFFFE, 0x0⟩

/-- R359: AXIS_n_VEL_HI, RO, reset 0x0000_0000. -/
def R.AXIS_n_VEL_HI (i : Nat) : Reg := ⟨if i < 64 then 0xE102C + 0x100 * i else 0xEFFFE, 0x0⟩

/-- R359: AXIS_n_VMAX_LO, RW, reset 0x8000_0000. -/
def R.AXIS_n_VMAX_LO (i : Nat) : Reg := ⟨if i < 64 then 0xE1030 + 0x100 * i else 0xEFFFE, 0x80000000⟩

/-- R359: AXIS_n_VMAX_HI, RW, reset 0x0000_0000. -/
def R.AXIS_n_VMAX_HI (i : Nat) : Reg := ⟨if i < 64 then 0xE1034 + 0x100 * i else 0xEFFFE, 0x0⟩

/-- R359: AXIS_n_ACCEL, RW, reset 0x0010_0000. -/
def R.AXIS_n_ACCEL (i : Nat) : Reg := ⟨if i < 64 then 0xE1038 + 0x100 * i else 0xEFFFE, 0x100000⟩

/-- R359: AXIS_n_DECEL, RW, reset 0x0010_0000. -/
def R.AXIS_n_DECEL (i : Nat) : Reg := ⟨if i < 64 then 0xE103C + 0x100 * i else 0xEFFFE, 0x100000⟩

/-- R359: AXIS_n_JERK, RW, reset 0x0000_0000. -/
def R.AXIS_n_JERK (i : Nat) : Reg := ⟨if i < 64 then 0xE1040 + 0x100 * i else 0xEFFFE, 0x0⟩

/-- R359: AXIS_n_VCREEP, RW, reset 0x0080_0000. -/
def R.AXIS_n_VCREEP (i : Nat) : Reg := ⟨if i < 64 then 0xE1044 + 0x100 * i else 0xEFFFE, 0x800000⟩

/-- R359: AXIS_n_SOFT_MIN_LO, RW, reset 0x0000_0001. -/
def R.AXIS_n_SOFT_MIN_LO (i : Nat) : Reg := ⟨if i < 64 then 0xE1048 + 0x100 * i else 0xEFFFE, 0x1⟩

/-- R359: AXIS_n_SOFT_MIN_HI, RW, reset 0xFFFF_8000. -/
def R.AXIS_n_SOFT_MIN_HI (i : Nat) : Reg := ⟨if i < 64 then 0xE104C + 0x100 * i else 0xEFFFE, 0xFFFF8000⟩

/-- R359: AXIS_n_SOFT_MAX_LO, RW, reset 0xFFFF_FFFF. -/
def R.AXIS_n_SOFT_MAX_LO (i : Nat) : Reg := ⟨if i < 64 then 0xE1050 + 0x100 * i else 0xEFFFE, 0xFFFFFFFF⟩

/-- R359: AXIS_n_SOFT_MAX_HI, RW, reset 0x0000_7FFF. -/
def R.AXIS_n_SOFT_MAX_HI (i : Nat) : Reg := ⟨if i < 64 then 0xE1054 + 0x100 * i else 0xEFFFE, 0x7FFF⟩

/-- R359: AXIS_n_PINS, RW, reset 0x00FF_FFFF. -/
def R.AXIS_n_PINS (i : Nat) : Reg := ⟨if i < 64 then 0xE1058 + 0x100 * i else 0xEFFFE, 0xFFFFFF⟩

/-- R359: AXIS_n_STEP_CFG, RW, reset 0x0000_1007. -/
def R.AXIS_n_STEP_CFG (i : Nat) : Reg := ⟨if i < 64 then 0xE105C + 0x100 * i else 0xEFFFE, 0x1007⟩

/-- R359: AXIS_n_LIMIT_CFG, RW, reset 0x00FF_FFFF. -/
def R.AXIS_n_LIMIT_CFG (i : Nat) : Reg := ⟨if i < 64 then 0xE1060 + 0x100 * i else 0xEFFFE, 0xFFFFFF⟩

/-- R359: AXIS_n_HOME_VEL, RW, reset 0x0100_0000. -/
def R.AXIS_n_HOME_VEL (i : Nat) : Reg := ⟨if i < 64 then 0xE1064 + 0x100 * i else 0xEFFFE, 0x1000000⟩

/-- R359: AXIS_n_HOME_OFS_LO, RW, reset 0x0000_0000. -/
def R.AXIS_n_HOME_OFS_LO (i : Nat) : Reg := ⟨if i < 64 then 0xE1068 + 0x100 * i else 0xEFFFE, 0x0⟩

/-- R359: AXIS_n_HOME_OFS_HI, RW, reset 0x0000_0000. -/
def R.AXIS_n_HOME_OFS_HI (i : Nat) : Reg := ⟨if i < 64 then 0xE106C + 0x100 * i else 0xEFFFE, 0x0⟩

/-- R359: AXIS_n_HOME_RANGE_LO, RW, reset 0x0001_0000. -/
def R.AXIS_n_HOME_RANGE_LO (i : Nat) : Reg := ⟨if i < 64 then 0xE1070 + 0x100 * i else 0xEFFFE, 0x10000⟩

/-- R359: AXIS_n_HOME_RANGE_HI, RW, reset 0x0000_0000. -/
def R.AXIS_n_HOME_RANGE_HI (i : Nat) : Reg := ⟨if i < 64 then 0xE1074 + 0x100 * i else 0xEFFFE, 0x0⟩

/-- R359: AXIS_n_ENC_CFG, RW, reset 0x0000_0000. -/
def R.AXIS_n_ENC_CFG (i : Nat) : Reg := ⟨if i < 64 then 0xE1078 + 0x100 * i else 0xEFFFE, 0x0⟩

/-- R359: AXIS_n_ENC_RATIO, RW, reset 0x0001_0000. -/
def R.AXIS_n_ENC_RATIO (i : Nat) : Reg := ⟨if i < 64 then 0xE107C + 0x100 * i else 0xEFFFE, 0x10000⟩

/-- R359: AXIS_n_ENC_TOL, RW, reset 0x0000_0004. -/
def R.AXIS_n_ENC_TOL (i : Nat) : Reg := ⟨if i < 64 then 0xE1080 + 0x100 * i else 0xEFFFE, 0x4⟩

/-- R359: AXIS_n_STOP_POS_LO, RO, reset 0x0000_0000. -/
def R.AXIS_n_STOP_POS_LO (i : Nat) : Reg := ⟨if i < 64 then 0xE1084 + 0x100 * i else 0xEFFFE, 0x0⟩

/-- R359: AXIS_n_STOP_POS_HI, RO, reset 0x0000_0000. -/
def R.AXIS_n_STOP_POS_HI (i : Nat) : Reg := ⟨if i < 64 then 0xE1088 + 0x100 * i else 0xEFFFE, 0x0⟩

/-- R359: AXIS_n_REFUSED_CNT, RC, reset 0x0000_0000. -/
def R.AXIS_n_REFUSED_CNT (i : Nat) : Reg := ⟨if i < 64 then 0xE108C + 0x100 * i else 0xEFFFE, 0x0⟩

/-- R359: AXIS_n_CMD_V_LO, RO, reset 0x0000_0000. -/
def R.AXIS_n_CMD_V_LO (i : Nat) : Reg := ⟨if i < 64 then 0xE1090 + 0x100 * i else 0xEFFFE, 0x0⟩

/-- R359: AXIS_n_CMD_V_HI, RO, reset 0x0000_0000. -/
def R.AXIS_n_CMD_V_HI (i : Nat) : Reg := ⟨if i < 64 then 0xE1094 + 0x100 * i else 0xEFFFE, 0x0⟩

/-- R359: ENC_m_CFG, RW, reset 0x00FF_FFFF. -/
def R.ENC_m_CFG (i : Nat) : Reg := ⟨if i < 64 then 0xE6000 + 0x20 * i else 0xEFFFE, 0xFFFFFF⟩

/-- R359: ENC_m_STATUS, RO, W1C, reset 0x0000_0000. -/
def R.ENC_m_STATUS (i : Nat) : Reg := ⟨if i < 64 then 0xE6004 + 0x20 * i else 0xEFFFE, 0x0⟩

/-- R359: ENC_m_COUNT_LO, RO, reset 0x0000_0000. -/
def R.ENC_m_COUNT_LO (i : Nat) : Reg := ⟨if i < 64 then 0xE6008 + 0x20 * i else 0xEFFFE, 0x0⟩

/-- R359: ENC_m_COUNT_HI, RO, reset 0x0000_0000. -/
def R.ENC_m_COUNT_HI (i : Nat) : Reg := ⟨if i < 64 then 0xE600C + 0x20 * i else 0xEFFFE, 0x0⟩

/-- R359: ENC_m_INDEX_LO, RO, reset 0x0000_0000. -/
def R.ENC_m_INDEX_LO (i : Nat) : Reg := ⟨if i < 64 then 0xE6010 + 0x20 * i else 0xEFFFE, 0x0⟩

/-- R359: ENC_m_INDEX_HI, RO, reset 0x0000_0000. -/
def R.ENC_m_INDEX_HI (i : Nat) : Reg := ⟨if i < 64 then 0xE6014 + 0x20 * i else 0xEFFFE, 0x0⟩

/-- R359: ENC_m_ERR_CNT, RC, reset 0x0000_0000. -/
def R.ENC_m_ERR_CNT (i : Nat) : Reg := ⟨if i < 64 then 0xE6018 + 0x20 * i else 0xEFFFE, 0x0⟩

/-- R369: CHOP_PEND, RO, reset 0x0000_0000. -/
def R.CHOP_PEND : Reg := ⟨0xF0000, 0x0⟩

/-- R369: CHOP_ATTN_MASK, RW, reset 0x0000_0003. -/
def R.CHOP_ATTN_MASK : Reg := ⟨0xF0004, 0x3⟩

/-- R369: CHOP_GEVENTS, W1C, reset 0x0000_0000. -/
def R.CHOP_GEVENTS : Reg := ⟨0xF0008, 0x0⟩

/-- R369: CHOP_c_CTRL, RW, reset 0x0000_0000. -/
def R.CHOP_c_CTRL (i : Nat) : Reg := ⟨if i < 24 then 0xF0100 + 0x40 * i else 0xFFFFE, 0x0⟩

/-- R369: CHOP_c_TIMING, RW, reset 0x0104_0108. -/
def R.CHOP_c_TIMING (i : Nat) : Reg := ⟨if i < 24 then 0xF0104 + 0x40 * i else 0xFFFFE, 0x1040108⟩

/-- R369: CHOP_c_CURRENT, RW, reset 0x0119_4080. -/
def R.CHOP_c_CURRENT (i : Nat) : Reg := ⟨if i < 24 then 0xF0108 + 0x40 * i else 0xFFFFE, 0x1194080⟩

/-- R369: CHOP_c_MSTEP, RW, reset 0x0000_0008. -/
def R.CHOP_c_MSTEP (i : Nat) : Reg := ⟨if i < 24 then 0xF010C + 0x40 * i else 0xFFFFE, 0x8⟩

/-- R369: CHOP_c_STATUS, RO, reset 0x0000_0000. -/
def R.CHOP_c_STATUS (i : Nat) : Reg := ⟨if i < 24 then 0xF0110 + 0x40 * i else 0xFFFFE, 0x0⟩

/-- R369: CHOP_c_EVENTS, W1C, reset 0x0000_0000. -/
def R.CHOP_c_EVENTS (i : Nat) : Reg := ⟨if i < 24 then 0xF0114 + 0x40 * i else 0xFFFFE, 0x0⟩

/-- R369: CHOP_c_OPEN_CFG, RW, reset 0x0000_0000. -/
def R.CHOP_c_OPEN_CFG (i : Nat) : Reg := ⟨if i < 24 then 0xF0118 + 0x40 * i else 0xFFFFE, 0x0⟩

/-- R369: CHOP_c_SHORT_CNT, RC, reset 0x0000_0000. -/
def R.CHOP_c_SHORT_CNT (i : Nat) : Reg := ⟨if i < 24 then 0xF011C + 0x40 * i else 0xFFFFE, 0x0⟩

/-- R369: CHOP_c_CODES, RO, reset 0x0000_0000. -/
def R.CHOP_c_CODES (i : Nat) : Reg := ⟨if i < 24 then 0xF0120 + 0x40 * i else 0xFFFFE, 0x0⟩

/-- R369: CHOP_SINE_i, RW, reset round(255 × sin(2π i / 1,024)). -/
def R.CHOP_SINE_i (i : Nat) : Reg := ⟨if i < 1024 then 0xF1000 + 0x4 * i else 0xFFFFE, sineReset i⟩

/-- R408: FIELD_ETYPE, RW, reset 0x0000_88B5. -/
def R.FIELD_ETYPE : Reg := ⟨0x110000, 0x88B5⟩

/-- R408: FIELD_EVENTS, W1C, reset 0x0000_0000. -/
def R.FIELD_EVENTS : Reg := ⟨0x110004, 0x0⟩

/-- R408: FIELD_ATTN_MASK, RW, reset 0x0000_007D. -/
def R.FIELD_ATTN_MASK : Reg := ⟨0x110008, 0x7D⟩

/-- R408: FIELD_EVT_DESC, RW, reset 0x0000_0000. -/
def R.FIELD_EVT_DESC : Reg := ⟨0x11000C, 0x0⟩

/-- R408: FIELD_p_CTRL, RW, reset 0x0000_0000. -/
def R.FIELD_p_CTRL (i : Nat) : Reg := ⟨if i < 4 then 0x110100 + 0x80 * i else 0x11FFFE, 0x0⟩

/-- R408: FIELD_p_STATUS, RO, reset 0x0000_0000. -/
def R.FIELD_p_STATUS (i : Nat) : Reg := ⟨if i < 4 then 0x110104 + 0x80 * i else 0x11FFFE, 0x0⟩

/-- R408: FIELD_p_CYCLE, RW, reset 0x0000_0000. -/
def R.FIELD_p_CYCLE (i : Nat) : Reg := ⟨if i < 4 then 0x110108 + 0x80 * i else 0x11FFFE, 0x0⟩

/-- R408: FIELD_p_LIMITS, RW, reset 0x0200_0003. -/
def R.FIELD_p_LIMITS (i : Nat) : Reg := ⟨if i < 4 then 0x11010C + 0x80 * i else 0x11FFFE, 0x2000003⟩

/-- R408: FIELD_p_MAC_LO, RO, reset from image. -/
def R.FIELD_p_MAC_LO (i : Nat) : Reg := ⟨if i < 4 then 0x110110 + 0x80 * i else 0x11FFFE, 0x0⟩

/-- R408: FIELD_p_MAC_HI, RO, reset from image. -/
def R.FIELD_p_MAC_HI (i : Nat) : Reg := ⟨if i < 4 then 0x110114 + 0x80 * i else 0x11FFFE, 0x0⟩

/-- R408: FIELD_p_DEST_LO, RW, reset 0xFFFF_FFFF. -/
def R.FIELD_p_DEST_LO (i : Nat) : Reg := ⟨if i < 4 then 0x110118 + 0x80 * i else 0x11FFFE, 0xFFFFFFFF⟩

/-- R408: FIELD_p_DEST_HI, RW, reset 0x0000_FFFF. -/
def R.FIELD_p_DEST_HI (i : Nat) : Reg := ⟨if i < 4 then 0x11011C + 0x80 * i else 0x11FFFE, 0xFFFF⟩

/-- R408: FIELD_p_CYCLE_NUM, RO, reset 0x0000_0000. -/
def R.FIELD_p_CYCLE_NUM (i : Nat) : Reg := ⟨if i < 4 then 0x110120 + 0x80 * i else 0x11FFFE, 0x0⟩

/-- R408: FIELD_p_MDIO, RW, WO, RO, reset 0x0000_0000. -/
def R.FIELD_p_MDIO (i : Nat) : Reg := ⟨if i < 4 then 0x110124 + 0x80 * i else 0x11FFFE, 0x0⟩

/-- R408: FIELD_p_BAD_CNT, RC, reset 0x0000_0000. -/
def R.FIELD_p_BAD_CNT (i : Nat) : Reg := ⟨if i < 4 then 0x110128 + 0x80 * i else 0x11FFFE, 0x0⟩

/-- R408: FIELD_p_UNKNOWN_CNT, RC, reset 0x0000_0000. -/
def R.FIELD_p_UNKNOWN_CNT (i : Nat) : Reg := ⟨if i < 4 then 0x11012C + 0x80 * i else 0x11FFFE, 0x0⟩

/-- R408: FIELD_p_UNKNOWN_MAC_LO, RO, reset 0x0000_0000. -/
def R.FIELD_p_UNKNOWN_MAC_LO (i : Nat) : Reg := ⟨if i < 4 then 0x110130 + 0x80 * i else 0x11FFFE, 0x0⟩

/-- R408: FIELD_p_UNKNOWN_MAC_HI, RO, reset 0x0000_0000. -/
def R.FIELD_p_UNKNOWN_MAC_HI (i : Nat) : Reg := ⟨if i < 4 then 0x110134 + 0x80 * i else 0x11FFFE, 0x0⟩

/-- R408: FIELD_p_OTHER_CNT, RC, reset 0x0000_0000. -/
def R.FIELD_p_OTHER_CNT (i : Nat) : Reg := ⟨if i < 4 then 0x110138 + 0x80 * i else 0x11FFFE, 0x0⟩

/-- R408: FIELD_p_DUP_CNT, RC, reset 0x0000_0000. -/
def R.FIELD_p_DUP_CNT (i : Nat) : Reg := ⟨if i < 4 then 0x11013C + 0x80 * i else 0x11FFFE, 0x0⟩

/-- R408: FIELD_p_REC_OVF_CNT, RC, reset 0x0000_0000. -/
def R.FIELD_p_REC_OVF_CNT (i : Nat) : Reg := ⟨if i < 4 then 0x110140 + 0x80 * i else 0x11FFFE, 0x0⟩

/-- R408: FIELD_p_FOREIGN_CNT, RC, reset 0x0000_0000. -/
def R.FIELD_p_FOREIGN_CNT (i : Nat) : Reg := ⟨if i < 4 then 0x110144 + 0x80 * i else 0x11FFFE, 0x0⟩

/-- R408: FIELD_p_MISSING_w, RO, reset 0x0000_0000. -/
def R.FIELD_p_MISSING_w (i : Nat) (j : Nat) : Reg := ⟨if i < 4 ∧ j < 8 then 0x110160 + 0x80 * i + 0x4 * j else 0x11FFFE, 0x0⟩

/-- R408: FIELD_p_s_STATUS, RO, reset 0x0000_0001. -/
def R.FIELD_p_s_STATUS (i : Nat) (j : Nat) : Reg := ⟨if i < 4 ∧ j < 256 then 0x111000 + 0x1000 * i + 0x10 * j else 0x11FFFE, 0x1⟩

/-- R408: FIELD_p_s_CTRL, RW, reset 0x0000_0000. -/
def R.FIELD_p_s_CTRL (i : Nat) (j : Nat) : Reg := ⟨if i < 4 ∧ j < 256 then 0x111004 + 0x1000 * i + 0x10 * j else 0x11FFFE, 0x0⟩

/-- R408: FIELD_p_s_ARRIVAL, RO, reset 0x0000_0000. -/
def R.FIELD_p_s_ARRIVAL (i : Nat) (j : Nat) : Reg := ⟨if i < 4 ∧ j < 256 then 0x111008 + 0x1000 * i + 0x10 * j else 0x11FFFE, 0x0⟩

/-- R408: FIELD_p_s_COUNTS, RC, reset 0x0000_0000. -/
def R.FIELD_p_s_COUNTS (i : Nat) (j : Nat) : Reg := ⟨if i < 4 ∧ j < 256 then 0x11100C + 0x1000 * i + 0x10 * j else 0x11FFFE, 0x0⟩

/-- R413: CAN_EVENTS, W1C, reset 0x0000_0000. -/
def R.CAN_EVENTS : Reg := ⟨0x120000, 0x0⟩

/-- R413: CAN_ATTN_MASK, RW, reset 0x0000_000F. -/
def R.CAN_ATTN_MASK : Reg := ⟨0x120004, 0xF⟩

/-- R413: CAN_EVT_DESC, RW, reset 0x0000_0000. -/
def R.CAN_EVT_DESC : Reg := ⟨0x120008, 0x0⟩

/-- R413: CAN_p_CTRL, RW, reset 0x0000_0000. -/
def R.CAN_p_CTRL (i : Nat) : Reg := ⟨if i < 4 then 0x120100 + 0x40 * i else 0x12FFFE, 0x0⟩

/-- R413: CAN_p_STATUS, RO, reset 0x0000_0000. -/
def R.CAN_p_STATUS (i : Nat) : Reg := ⟨if i < 4 then 0x120104 + 0x40 * i else 0x12FFFE, 0x0⟩

/-- R413: CAN_p_NBIT, RW, reset 0x0000_0000. -/
def R.CAN_p_NBIT (i : Nat) : Reg := ⟨if i < 4 then 0x120108 + 0x40 * i else 0x12FFFE, 0x0⟩

/-- R413: CAN_p_DBIT, RW, reset 0x0000_0000. -/
def R.CAN_p_DBIT (i : Nat) : Reg := ⟨if i < 4 then 0x12010C + 0x40 * i else 0x12FFFE, 0x0⟩

/-- R413: CAN_p_CYCLE, RW, reset 0x0000_0000. -/
def R.CAN_p_CYCLE (i : Nat) : Reg := ⟨if i < 4 then 0x120110 + 0x40 * i else 0x12FFFE, 0x0⟩

/-- R413: CAN_p_SDO_CMD, WO, reset 0x0000_0000. -/
def R.CAN_p_SDO_CMD (i : Nat) : Reg := ⟨if i < 4 then 0x120114 + 0x40 * i else 0x12FFFE, 0x0⟩

/-- R413: CAN_p_SDO_ADDR, RW, reset 0x0000_0000. -/
def R.CAN_p_SDO_ADDR (i : Nat) : Reg := ⟨if i < 4 then 0x120118 + 0x40 * i else 0x12FFFE, 0x0⟩

/-- R413: CAN_p_SDO_LEN, RW, reset 0x0000_0000. -/
def R.CAN_p_SDO_LEN (i : Nat) : Reg := ⟨if i < 4 then 0x12011C + 0x40 * i else 0x12FFFE, 0x0⟩

/-- R413: CAN_p_SDO_RESULT, RO, reset 0x0000_0000. -/
def R.CAN_p_SDO_RESULT (i : Nat) : Reg := ⟨if i < 4 then 0x120120 + 0x40 * i else 0x12FFFE, 0x0⟩

/-- R413: CAN_p_SDO_BUSY, RO, reset 0x0000_0000. -/
def R.CAN_p_SDO_BUSY (i : Nat) : Reg := ⟨if i < 4 then 0x120124 + 0x40 * i else 0x12FFFE, 0x0⟩

/-- R413: CAN_p_BUSOFF_CNT, RC, reset 0x0000_0000. -/
def R.CAN_p_BUSOFF_CNT (i : Nat) : Reg := ⟨if i < 4 then 0x120128 + 0x40 * i else 0x12FFFE, 0x0⟩

/-- R413: CAN_p_RX_DROP_CNT, RC, reset 0x0000_0000. -/
def R.CAN_p_RX_DROP_CNT (i : Nat) : Reg := ⟨if i < 4 then 0x12012C + 0x40 * i else 0x12FFFE, 0x0⟩

/-- R413: CAN_p_n_STATUS, RO, reset 0x0000_0000. -/
def R.CAN_p_n_STATUS (i : Nat) (j : Nat) : Reg := ⟨if i < 4 ∧ j < 128 then 0x121000 + 0x800 * i + 0x10 * j else 0x12FFFE, 0x0⟩

/-- R413: CAN_p_n_EMCY_LO, RO, reset 0x0000_0000. -/
def R.CAN_p_n_EMCY_LO (i : Nat) (j : Nat) : Reg := ⟨if i < 4 ∧ j < 128 then 0x121004 + 0x800 * i + 0x10 * j else 0x12FFFE, 0x0⟩

/-- R413: CAN_p_n_EMCY_HI, RO, reset 0x0000_0000. -/
def R.CAN_p_n_EMCY_HI (i : Nat) (j : Nat) : Reg := ⟨if i < 4 ∧ j < 128 then 0x121008 + 0x800 * i + 0x10 * j else 0x12FFFE, 0x0⟩

/-- R413: CAN_p_n_COUNTS, RC, reset 0x0000_0000. -/
def R.CAN_p_n_COUNTS (i : Nat) (j : Nat) : Reg := ⟨if i < 4 ∧ j < 128 then 0x12100C + 0x800 * i + 0x10 * j else 0x12FFFE, 0x0⟩

/-- R413: CAN_p_SDO_BUF_w, RW, reset 0x0000_0000. -/
def R.CAN_p_SDO_BUF_w (i : Nat) (j : Nat) : Reg := ⟨if i < 4 ∧ j < 256 then 0x124000 + 0x400 * i + 0x4 * j else 0x12FFFE, 0x0⟩

/-- R414: SER_EVENTS, W1C, reset 0x0000_0000. -/
def R.SER_EVENTS : Reg := ⟨0x130000, 0x0⟩

/-- R414: SER_ATTN_MASK, RW, reset 0x0000_0003. -/
def R.SER_ATTN_MASK : Reg := ⟨0x130004, 0x3⟩

/-- R414: SER_EVT_DESC, RW, reset 0x0000_0000. -/
def R.SER_EVT_DESC : Reg := ⟨0x130008, 0x0⟩

/-- R414: SER_p_CTRL, RW, reset 0x0000_0000. -/
def R.SER_p_CTRL (i : Nat) : Reg := ⟨if i < 4 then 0x130100 + 0x40 * i else 0x13FFFE, 0x0⟩

/-- R414: SER_p_BAUD, RW, reset 0x0006_AAAB. -/
def R.SER_p_BAUD (i : Nat) : Reg := ⟨if i < 4 then 0x130104 + 0x40 * i else 0x13FFFE, 0x6AAAB⟩

/-- R414: SER_p_CYCLE, RW, reset 0x0000_0000. -/
def R.SER_p_CYCLE (i : Nat) : Reg := ⟨if i < 4 then 0x130108 + 0x40 * i else 0x13FFFE, 0x0⟩

/-- R414: SER_p_TIMING, RW, reset 0x0A31_0064. -/
def R.SER_p_TIMING (i : Nat) : Reg := ⟨if i < 4 then 0x13010C + 0x40 * i else 0x13FFFE, 0xA310064⟩

/-- R414: SER_p_STATUS, RO, reset 0x0000_0000. -/
def R.SER_p_STATUS (i : Nat) : Reg := ⟨if i < 4 then 0x130110 + 0x40 * i else 0x13FFFE, 0x0⟩

/-- R414: SER_p_SCAN_OVR, RC, reset 0x0000_0000. -/
def R.SER_p_SCAN_OVR (i : Nat) : Reg := ⟨if i < 4 then 0x130114 + 0x40 * i else 0x13FFFE, 0x0⟩

/-- R414: SER_p_SCAN_TIME, RO, reset 0x0000_0000. -/
def R.SER_p_SCAN_TIME (i : Nat) : Reg := ⟨if i < 4 then 0x130118 + 0x40 * i else 0x13FFFE, 0x0⟩

/-- R414: SER_p_s_STATUS, RO, reset 0x0000_0000. -/
def R.SER_p_s_STATUS (i : Nat) (j : Nat) : Reg := ⟨if i < 4 ∧ j < 248 then 0x131000 + 0x1000 * i + 0x10 * j else 0x13FFFE, 0x0⟩

/-- R414: SER_p_s_COUNTS, RC, reset 0x0000_0000. -/
def R.SER_p_s_COUNTS (i : Nat) (j : Nat) : Reg := ⟨if i < 4 ∧ j < 248 then 0x131004 + 0x1000 * i + 0x10 * j else 0x13FFFE, 0x0⟩

/-- R415: GPIO_EVENTS, W1C, reset 0x0000_0000. -/
def R.GPIO_EVENTS : Reg := ⟨0x100000, 0x0⟩

/-- R415: GPIO_ATTN_MASK, RW, reset 0x0000_0001. -/
def R.GPIO_ATTN_MASK : Reg := ⟨0x100004, 0x1⟩

/-- R415: GPIO_IN_w, RO, reset 0x0000_0000. -/
def R.GPIO_IN_w (i : Nat) : Reg := ⟨if i < 6 then 0x100010 + 0x4 * i else 0x10FFFE, 0x0⟩

/-- R415: GPIO_SYNC_w, RO, reset 0x0000_0000. -/
def R.GPIO_SYNC_w (i : Nat) : Reg := ⟨if i < 6 then 0x100030 + 0x4 * i else 0x10FFFE, 0x0⟩

/-- R415: GPIO_DRIVE_w, RO, reset 0x0000_0000. -/
def R.GPIO_DRIVE_w (i : Nat) : Reg := ⟨if i < 6 then 0x100050 + 0x4 * i else 0x10FFFE, 0x0⟩

/-- R415: GPIO_e_EVT, RW, reset 0x0000_00FF. -/
def R.GPIO_e_EVT (i : Nat) : Reg := ⟨if i < 16 then 0x100100 + 0x4 * i else 0x10FFFE, 0xFF⟩

/-- R415: GPIO_i_CFG, RW, RO, reset from image. -/
def R.GPIO_i_CFG (i : Nat) : Reg := ⟨if i < 192 then 0x101000 + 0x4 * i else 0x10FFFE, 0x0⟩

/-- R457: JOA_CTRL, RW, reset 0x0000_0007. -/
def R.JOA_CTRL : Reg := ⟨0x160000, 0x7⟩

/-- R457: JOA_STATUS, RO, reset 0x0000_3F00. -/
def R.JOA_STATUS : Reg := ⟨0x160004, 0x3F00⟩

/-- R457: JOA_EVENTS, W1C, reset 0x0000_0000. -/
def R.JOA_EVENTS : Reg := ⟨0x160008, 0x0⟩

/-- R457: JOA_ATTN_MASK, RW, reset 0x0000_0004. -/
def R.JOA_ATTN_MASK : Reg := ⟨0x16000C, 0x4⟩

/-- R457: JOA_UDP_PORT, RW, reset 0x0000_C558. -/
def R.JOA_UDP_PORT : Reg := ⟨0x160010, 0xC558⟩

/-- R457: JOA_ETYPE, RW, reset 0x0000_88B6. -/
def R.JOA_ETYPE : Reg := ⟨0x160014, 0x88B6⟩

/-- R457: JOA_IDLE_S, RW, reset 0x0000_001E. -/
def R.JOA_IDLE_S : Reg := ⟨0x160018, 0x1E⟩

/-- R457: JOA_STREAM_CFG, RW, reset 0x0000_01F4. -/
def R.JOA_STREAM_CFG : Reg := ⟨0x16001C, 0x1F4⟩

/-- R457: JOA_AUTH_FAIL_CNT, RC, reset 0x0000_0000. -/
def R.JOA_AUTH_FAIL_CNT : Reg := ⟨0x160020, 0x0⟩

/-- R457: JOA_REPLAY_CNT, RC, reset 0x0000_0000. -/
def R.JOA_REPLAY_CNT : Reg := ⟨0x160024, 0x0⟩

/-- R457: JOA_MALFORMED_CNT, RC, reset 0x0000_0000. -/
def R.JOA_MALFORMED_CNT : Reg := ⟨0x160028, 0x0⟩

/-- R457: JOA_s_STATUS, RO, reset 0x0000_0000. -/
def R.JOA_s_STATUS (i : Nat) : Reg := ⟨if i < 32 then 0x160100 + 0x10 * i else 0x16FFFE, 0x0⟩

/-- R457: JOA_s_INFO, RO, reset 0x0000_0000. -/
def R.JOA_s_INFO (i : Nat) : Reg := ⟨if i < 32 then 0x160104 + 0x10 * i else 0x16FFFE, 0x0⟩

/-- R457: JOA_s_RX_CNT, RC, reset 0x0000_0000. -/
def R.JOA_s_RX_CNT (i : Nat) : Reg := ⟨if i < 32 then 0x160108 + 0x10 * i else 0x16FFFE, 0x0⟩

/-- R457: JOA_s_CTRL, WO, reset 0x0000_0000. -/
def R.JOA_s_CTRL (i : Nat) : Reg := ⟨if i < 32 then 0x16010C + 0x10 * i else 0x16FFFE, 0x0⟩

/-- R457: JOA_w_PROXY_CFG, RO, reset from image. -/
def R.JOA_w_PROXY_CFG (i : Nat) : Reg := ⟨if i < 48 then 0x160400 + 0x4 * i else 0x16FFFE, 0x0⟩

/-- R462: SYS_ID, RO, reset 0x0549_3600. -/
def R.SYS_ID : Reg := ⟨0x0, 0x5493600⟩

/-- R462: SYS_STEPPING, RO, reset 0x0000_3043. -/
def R.SYS_STEPPING : Reg := ⟨0x4, 0x3043⟩

/-- R462: SYS_FARM, RO, reset from straps. -/
def R.SYS_FARM : Reg := ⟨0x8, 0x0⟩

/-- R462: SYS_RESET, WO, reset 0x0000_0000. -/
def R.SYS_RESET : Reg := ⟨0xC, 0x0⟩

/-- R462: SYS_RESET_CAUSE, RO, reset 0x0000_0000. -/
def R.SYS_RESET_CAUSE : Reg := ⟨0x10, 0x0⟩

/-- R462: SYS_EVENTS, W1C, reset 0x0000_0000. -/
def R.SYS_EVENTS : Reg := ⟨0x14, 0x0⟩

/-- R462: SYS_ATTN_MASK, RW, reset 0x0000_0004. -/
def R.SYS_ATTN_MASK : Reg := ⟨0x18, 0x4⟩

/-- R462: SYS_ATTN_LO, RO, reset 0x0000_0000. -/
def R.SYS_ATTN_LO : Reg := ⟨0x1C, 0x0⟩

/-- R462: SYS_ATTN_HI, RO, reset 0x0000_0000. -/
def R.SYS_ATTN_HI : Reg := ⟨0x20, 0x0⟩

/-- R462: SYS_UNMAPPED_ADDR_LO, RO, reset 0x0000_0000. -/
def R.SYS_UNMAPPED_ADDR_LO : Reg := ⟨0x28, 0x0⟩

/-- R462: SYS_UNMAPPED_ADDR_HI, RO, reset 0x0000_0000. -/
def R.SYS_UNMAPPED_ADDR_HI : Reg := ⟨0x2C, 0x0⟩

/-- R462: SYS_UNMAPPED_CNT, RC, reset 0x0000_0000. -/
def R.SYS_UNMAPPED_CNT : Reg := ⟨0x30, 0x0⟩

/-- R462: SYS_EVLOG_HEAD, RO, reset 0x0000_0000. -/
def R.SYS_EVLOG_HEAD : Reg := ⟨0x34, 0x0⟩

/-- R462: SYS_EVLOG_SEL, RW, reset 0x0000_0000. -/
def R.SYS_EVLOG_SEL : Reg := ⟨0x38, 0x0⟩

/-- R462: SYS_EVLOG_LOST, RC, reset 0x0000_0000. -/
def R.SYS_EVLOG_LOST : Reg := ⟨0x3C, 0x0⟩

/-- R462: SYS_EVLOG_w, RO, reset 0x0000_0000. -/
def R.SYS_EVLOG_w (i : Nat) : Reg := ⟨if i < 6 then 0x40 + 0x4 * i else 0xFFFE, 0x0⟩

/-- R486: UPLINK_EVENTS, W1C, reset 0x0000_0000. -/
def R.UPLINK_EVENTS : Reg := ⟨0x140000, 0x0⟩

/-- R486: UPLINK_ATTN_MASK, RW, reset 0x0000_0003. -/
def R.UPLINK_ATTN_MASK : Reg := ⟨0x140004, 0x3⟩

/-- R486: UPLINK_p_CTRL, RW, reset 0x0000_0000. -/
def R.UPLINK_p_CTRL (i : Nat) : Reg := ⟨if i < 2 then 0x140100 + 0x80 * i else 0x14FFFE, 0x0⟩

/-- R486: UPLINK_p_STATUS, RO, reset 0x0000_0000. -/
def R.UPLINK_p_STATUS (i : Nat) : Reg := ⟨if i < 2 then 0x140104 + 0x80 * i else 0x14FFFE, 0x0⟩

/-- R486: UPLINK_p_MAC_LO, RO, reset from OTP. -/
def R.UPLINK_p_MAC_LO (i : Nat) : Reg := ⟨if i < 2 then 0x140108 + 0x80 * i else 0x14FFFE, 0x0⟩

/-- R486: UPLINK_p_MAC_HI, RO, reset from OTP. -/
def R.UPLINK_p_MAC_HI (i : Nat) : Reg := ⟨if i < 2 then 0x14010C + 0x80 * i else 0x14FFFE, 0x0⟩

/-- R486: UPLINK_p_IP4_ADDR, RW, reset from image. -/
def R.UPLINK_p_IP4_ADDR (i : Nat) : Reg := ⟨if i < 2 then 0x140110 + 0x80 * i else 0x14FFFE, 0x0⟩

/-- R486: UPLINK_p_IP4_MASK, RW, reset from image. -/
def R.UPLINK_p_IP4_MASK (i : Nat) : Reg := ⟨if i < 2 then 0x140114 + 0x80 * i else 0x14FFFE, 0x0⟩

/-- R486: UPLINK_p_IP4_GW, RW, reset from image. -/
def R.UPLINK_p_IP4_GW (i : Nat) : Reg := ⟨if i < 2 then 0x140118 + 0x80 * i else 0x14FFFE, 0x0⟩

/-- R486: UPLINK_p_IP6_ADDR_w, RW, reset from image. -/
def R.UPLINK_p_IP6_ADDR_w (i : Nat) (j : Nat) : Reg := ⟨if i < 2 ∧ j < 4 then 0x140120 + 0x80 * i + 0x4 * j else 0x14FFFE, 0x0⟩

/-- R486: UPLINK_p_IP6_PREFIX, RW, reset from image. -/
def R.UPLINK_p_IP6_PREFIX (i : Nat) : Reg := ⟨if i < 2 then 0x140130 + 0x80 * i else 0x14FFFE, 0x0⟩

/-- R486: UPLINK_p_RX_CNT, RC, reset 0x0000_0000. -/
def R.UPLINK_p_RX_CNT (i : Nat) : Reg := ⟨if i < 2 then 0x140140 + 0x80 * i else 0x14FFFE, 0x0⟩

/-- R486: UPLINK_p_RX_ERR_CNT, RC, reset 0x0000_0000. -/
def R.UPLINK_p_RX_ERR_CNT (i : Nat) : Reg := ⟨if i < 2 then 0x140144 + 0x80 * i else 0x14FFFE, 0x0⟩

/-- R486: UPLINK_p_TX_CNT, RC, reset 0x0000_0000. -/
def R.UPLINK_p_TX_CNT (i : Nat) : Reg := ⟨if i < 2 then 0x140148 + 0x80 * i else 0x14FFFE, 0x0⟩

/-- R486: UPLINK_p_DISCARD_CNT, RC, reset 0x0000_0000. -/
def R.UPLINK_p_DISCARD_CNT (i : Nat) : Reg := ⟨if i < 2 then 0x14014C + 0x80 * i else 0x14FFFE, 0x0⟩

/-- R489: PTP_CTRL, RW, reset 0x0003_0002. -/
def R.PTP_CTRL : Reg := ⟨0x150000, 0x30002⟩

/-- R489: PTP_STATUS, RO, reset 0x0000_0000. -/
def R.PTP_STATUS : Reg := ⟨0x150004, 0x0⟩

/-- R489: PTP_EVENTS, W1C, reset 0x0000_0000. -/
def R.PTP_EVENTS : Reg := ⟨0x150008, 0x0⟩

/-- R489: PTP_ATTN_MASK, RW, reset 0x0000_00B8. -/
def R.PTP_ATTN_MASK : Reg := ⟨0x15000C, 0xB8⟩

/-- R489: PTP_SERVO_CFG, RW, reset 0x0064_0063. -/
def R.PTP_SERVO_CFG : Reg := ⟨0x150010, 0x640063⟩

/-- R489: PTP_LOCK_CFG, RW, reset 0x0008_0640. -/
def R.PTP_LOCK_CFG : Reg := ⟨0x150014, 0x80640⟩

/-- R489: PTP_PATH_CFG, RW, reset 0x0010_0032. -/
def R.PTP_PATH_CFG : Reg := ⟨0x150018, 0x100032⟩

/-- R489: PTP_SEAT_MAX, RW, reset 0x0000_03E8. -/
def R.PTP_SEAT_MAX : Reg := ⟨0x15001C, 0x3E8⟩

/-- R489: PTP_OFFSET_LO, RO, reset 0x0000_0000. -/
def R.PTP_OFFSET_LO : Reg := ⟨0x150020, 0x0⟩

/-- R489: PTP_OFFSET_HI, RO, reset 0x0000_0000. -/
def R.PTP_OFFSET_HI : Reg := ⟨0x150024, 0x0⟩

/-- R489: PTP_MPD, RO, reset 0x0000_0000. -/
def R.PTP_MPD : Reg := ⟨0x150028, 0x0⟩

/-- R489: PTP_FREQ, RO, reset 0x0000_0000. -/
def R.PTP_FREQ : Reg := ⟨0x15002C, 0x0⟩

/-- R489: PTP_ASYM, RW, reset 0x0000_0000. -/
def R.PTP_ASYM : Reg := ⟨0x150030, 0x0⟩

/-- R489: PTP_ASYM_EST, RO, reset 0x0000_0000. -/
def R.PTP_ASYM_EST : Reg := ⟨0x150034, 0x0⟩

/-- R489: PTP_STANDING_LO, RO, reset 0x0000_0000. -/
def R.PTP_STANDING_LO : Reg := ⟨0x150038, 0x0⟩

/-- R489: PTP_STANDING_HI, RO, reset 0x0000_0000. -/
def R.PTP_STANDING_HI : Reg := ⟨0x15003C, 0x0⟩

/-- R489: PTP_CLOCK_ID_LO, RO, reset from OTP. -/
def R.PTP_CLOCK_ID_LO : Reg := ⟨0x150040, 0x0⟩

/-- R489: PTP_CLOCK_ID_HI, RO, reset from OTP. -/
def R.PTP_CLOCK_ID_HI : Reg := ⟨0x150044, 0x0⟩

/-- R489: PTP_PARENT_ID_LO, RO, reset 0x0000_0000. -/
def R.PTP_PARENT_ID_LO : Reg := ⟨0x150048, 0x0⟩

/-- R489: PTP_PARENT_ID_HI, RO, reset 0x0000_0000. -/
def R.PTP_PARENT_ID_HI : Reg := ⟨0x15004C, 0x0⟩

/-- R489: PTP_PARENT_PORT, RO, reset 0x0000_0000. -/
def R.PTP_PARENT_PORT : Reg := ⟨0x150050, 0x0⟩

/-- R489: PTP_DISCARD_CNT, RC, reset 0x0000_0000. -/
def R.PTP_DISCARD_CNT : Reg := ⟨0x150054, 0x0⟩

/-- R489: PTP_SAMPLE_DROP_CNT, RC, reset 0x0000_0000. -/
def R.PTP_SAMPLE_DROP_CNT : Reg := ⟨0x150058, 0x0⟩

/-- R489: PTP_PATH_CHANGE_CNT, RC, reset 0x0000_0000. -/
def R.PTP_PATH_CHANGE_CNT : Reg := ⟨0x15005C, 0x0⟩

/-- R489: PTP_q_COMP, RW, reset 0x0000_0000. -/
def R.PTP_q_COMP (i : Nat) : Reg := ⟨if i < 6 then 0x150100 + 0x10 * i else 0x15FFFE, 0x0⟩

/-- R489: PTP_q_CFG, RW, reset 0x00F8_0140. -/
def R.PTP_q_CFG (i : Nat) : Reg := ⟨if i < 6 then 0x150104 + 0x10 * i else 0x15FFFE, 0xF80140⟩

/-- R489: PTP_q_RX_CNT, RC, reset 0x0000_0000. -/
def R.PTP_q_RX_CNT (i : Nat) : Reg := ⟨if i < 6 then 0x150108 + 0x10 * i else 0x15FFFE, 0x0⟩

/-- R489: PTP_q_TX_CNT, RC, reset 0x0000_0000. -/
def R.PTP_q_TX_CNT (i : Nat) : Reg := ⟨if i < 6 then 0x15010C + 0x10 * i else 0x15FFFE, 0x0⟩

/-- R519: SAFEMIR_STATUS, RO, reset 0x0000_0000. -/
def R.SAFEMIR_STATUS : Reg := ⟨0x170000, 0x0⟩

/-- R519: SAFEMIR_EVENTS, W1C, reset 0x0000_0000. -/
def R.SAFEMIR_EVENTS : Reg := ⟨0x170004, 0x0⟩

/-- R519: SAFEMIR_ATTN_MASK, RW, reset 0x0000_001E. -/
def R.SAFEMIR_ATTN_MASK : Reg := ⟨0x170008, 0x1E⟩

/-- R519: SAFEMIR_REQ, RW, reset 0x0000_0000. -/
def R.SAFEMIR_REQ : Reg := ⟨0x17000C, 0x0⟩

/-- R519: SAFEMIR_CMD, WO, reset 0x0000_0000. -/
def R.SAFEMIR_CMD : Reg := ⟨0x170010, 0x0⟩

/-- R519: SAFEMIR_SET_ID, RO, reset 0x0000_0000. -/
def R.SAFEMIR_SET_ID : Reg := ⟨0x170014, 0x0⟩

/-- R519: SAFEMIR_SET_CRC, RO, reset 0x0000_0000. -/
def R.SAFEMIR_SET_CRC : Reg := ⟨0x170018, 0x0⟩

/-- R519: SAFEMIR_PEND_CRC, RO, reset 0x0000_0000. -/
def R.SAFEMIR_PEND_CRC : Reg := ⟨0x17001C, 0x0⟩

/-- R519: SAFEMIR_TICK, RO, reset 0x0000_0000. -/
def R.SAFEMIR_TICK : Reg := ⟨0x170020, 0x0⟩

/-- R519: SAFEMIR_FRAME_V_LO, RO, reset 0x0000_0000. -/
def R.SAFEMIR_FRAME_V_LO : Reg := ⟨0x170024, 0x0⟩

/-- R519: SAFEMIR_FRAME_V_HI, RO, reset 0x0000_0000. -/
def R.SAFEMIR_FRAME_V_HI : Reg := ⟨0x170028, 0x0⟩

/-- R519: SAFEMIR_FAULT_LOG, RO, reset 0x0000_0000. -/
def R.SAFEMIR_FAULT_LOG : Reg := ⟨0x17002C, 0x0⟩

/-- R519: SAFEMIR_RESET_CNT, RC, reset 0x0000_0000. -/
def R.SAFEMIR_RESET_CNT : Reg := ⟨0x170030, 0x0⟩

/-- R519: SAFEMIR_RESET_REF_CNT, RC, reset 0x0000_0000. -/
def R.SAFEMIR_RESET_REF_CNT : Reg := ⟨0x170034, 0x0⟩

/-- R519: SAFEMIR_BITS_w, RO, reset 0x0000_0000. -/
def R.SAFEMIR_BITS_w (i : Nat) : Reg := ⟨if i < 4 then 0x170040 + 0x4 * i else 0x17FFFE, 0x0⟩

/-- R519: SAFEMIR_i_IN, RO, reset 0x0000_0000. -/
def R.SAFEMIR_i_IN (i : Nat) : Reg := ⟨if i < 16 then 0x170100 + 0x4 * i else 0x17FFFE, 0x0⟩

/-- R519: SAFEMIR_n_OUT, RO, reset 0x0000_0000. -/
def R.SAFEMIR_n_OUT (i : Nat) : Reg := ⟨if i < 8 then 0x170180 + 0x4 * i else 0x17FFFE, 0x0⟩

/-- R552: MEM_EVENTS, W1C, reset 0x0000_0000. -/
def R.MEM_EVENTS : Reg := ⟨0x180000, 0x0⟩

/-- R552: MEM_ATTN_MASK, RW, reset 0x0000_008A. -/
def R.MEM_ATTN_MASK : Reg := ⟨0x180004, 0x8A⟩

/-- R552: MEM_CE_CNT, RC, reset 0x0000_0000. -/
def R.MEM_CE_CNT : Reg := ⟨0x180008, 0x0⟩

/-- R552: MEM_INT_CE_CNT, RC, reset 0x0000_0000. -/
def R.MEM_INT_CE_CNT : Reg := ⟨0x18000C, 0x0⟩

/-- R552: MEM_UE_CNT, RC, reset 0x0000_0000. -/
def R.MEM_UE_CNT : Reg := ⟨0x180010, 0x0⟩

/-- R552: MEM_UE_ADDR_LO, RO, reset 0x0000_0000. -/
def R.MEM_UE_ADDR_LO : Reg := ⟨0x180014, 0x0⟩

/-- R552: MEM_UE_ADDR_HI, RO, reset 0x0000_0000. -/
def R.MEM_UE_ADDR_HI : Reg := ⟨0x180018, 0x0⟩

/-- R552: MEM_COLLIDE_CNT, RC, reset 0x0000_0000. -/
def R.MEM_COLLIDE_CNT : Reg := ⟨0x18001C, 0x0⟩

/-- R552: MEM_VIOL_CNT, RC, reset 0x0000_0000. -/
def R.MEM_VIOL_CNT : Reg := ⟨0x180020, 0x0⟩

/-- R552: MEM_VIOL_ADDR_LO, RO, reset 0x0000_0000. -/
def R.MEM_VIOL_ADDR_LO : Reg := ⟨0x180024, 0x0⟩

/-- R552: MEM_VIOL_ADDR_HI, RO, reset 0x0000_0000. -/
def R.MEM_VIOL_ADDR_HI : Reg := ⟨0x180028, 0x0⟩

/-- R552: MEM_HARROW_CFG, RW, reset 0x0100_0001. -/
def R.MEM_HARROW_CFG : Reg := ⟨0x180030, 0x1000001⟩

/-- R552: MEM_HARROW_PASS, RO, reset 0x0000_0000. -/
def R.MEM_HARROW_PASS : Reg := ⟨0x180034, 0x0⟩

/-- R552: MEM_FALLOW_CFG, RW, reset 0x0100_0001. -/
def R.MEM_FALLOW_CFG : Reg := ⟨0x180038, 0x1000001⟩

/-- R552: MEM_FALLOW_FAIL_CNT, RC, reset 0x0000_0000. -/
def R.MEM_FALLOW_FAIL_CNT : Reg := ⟨0x18003C, 0x0⟩

/-- R552: MEM_k_CFG, RO, reset from image. -/
def R.MEM_k_CFG (i : Nat) : Reg := ⟨if i < 9 then 0x180100 + 0x10 * i else 0x18FFFE, if i < 4 then 0x10010 else if i = 4 then 16 else if i = 5 then 0x10010 else if i = 6 then 32 else if i = 8 then 128 else 0⟩

/-- R552: MEM_k_OWNER, RW, RO, WO, reset see R556. -/
def R.MEM_k_OWNER (i : Nat) : Reg := ⟨if i < 9 then 0x180104 + 0x10 * i else 0x18FFFE, if i < 4 then BitVec.ofNat 32 (1 + i) else if i = 5 then 5 else 0⟩

/-- R552: MEM_k_CE_CNT, RC, reset 0x0000_0000. -/
def R.MEM_k_CE_CNT (i : Nat) : Reg := ⟨if i < 9 then 0x180108 + 0x10 * i else 0x18FFFE, 0x0⟩

/-- R552: MEM_k_MAX_WAIT, RC, reset 0x0000_0000. -/
def R.MEM_k_MAX_WAIT (i : Nat) : Reg := ⟨if i < 9 then 0x18010C + 0x10 * i else 0x18FFFE, 0x0⟩

/-- R557: BIST_CTRL, RW, WO, reset 0x05DC_0001. -/
def R.BIST_CTRL : Reg := ⟨0x190000, 0x5DC0001⟩

/-- R557: BIST_STATUS, RO, reset 0x0000_0000. -/
def R.BIST_STATUS : Reg := ⟨0x190004, 0x0⟩

/-- R557: BIST_EVENTS, W1C, reset 0x0000_0000. -/
def R.BIST_EVENTS : Reg := ⟨0x190008, 0x0⟩

/-- R557: BIST_ATTN_MASK, RW, reset 0x0000_000C. -/
def R.BIST_ATTN_MASK : Reg := ⟨0x19000C, 0xC⟩

/-- R557: BIST_PTR, RO, reset from repair store. -/
def R.BIST_PTR : Reg := ⟨0x190010, 0x0⟩

/-- R557: BIST_PASS_CNT, RO, reset from repair store. -/
def R.BIST_PASS_CNT : Reg := ⟨0x190014, 0x0⟩

/-- R557: BIST_FAIL_CNT, RC, reset 0x0000_0000. -/
def R.BIST_FAIL_CNT : Reg := ⟨0x190018, 0x0⟩

/-- R557: BIST_LAST_MS, RO, reset 0x0000_0000. -/
def R.BIST_LAST_MS : Reg := ⟨0x19001C, 0x0⟩

/-- R557: BIST_SPARE_FREE, RO, reset after R550. -/
def R.BIST_SPARE_FREE : Reg := ⟨0x190020, 0x0⟩

/-- R557: BIST_REPAIR_COUNT, RO, reset from repair store. -/
def R.BIST_REPAIR_COUNT : Reg := ⟨0x190024, 0x0⟩

/-- R557: BIST_REPAIR_SEL, RW, reset 0x0000_0000. -/
def R.BIST_REPAIR_SEL : Reg := ⟨0x190028, 0x0⟩

/-- R557: BIST_REPAIR_w, RO, reset 0x0000_0000. -/
def R.BIST_REPAIR_w (i : Nat) : Reg := ⟨if i < 4 then 0x190030 + 0x4 * i else 0x19FFFE, 0x0⟩

/-- R561: GRAN_STATUS, RO, reset 0x0000_0000. -/
def R.GRAN_STATUS : Reg := ⟨0x1A0000, 0x0⟩

/-- R561: GRAN_EVENTS, W1C, reset 0x0000_0000. -/
def R.GRAN_EVENTS : Reg := ⟨0x1A0004, 0x0⟩

/-- R561: GRAN_ATTN_MASK, RW, reset 0x0000_0018. -/
def R.GRAN_ATTN_MASK : Reg := ⟨0x1A0008, 0x18⟩

/-- R561: GRAN_RATE_BYTES, RW, reset 0x0001_0000. -/
def R.GRAN_RATE_BYTES : Reg := ⟨0x1A000C, 0x10000⟩

/-- R561: GRAN_RATE_BURST, RW, reset 0x0004_0000. -/
def R.GRAN_RATE_BURST : Reg := ⟨0x1A0010, 0x40000⟩

/-- R561: GRAN_CREDIT, RO, reset 0x0000_0000. -/
def R.GRAN_CREDIT : Reg := ⟨0x1A0014, 0x0⟩

/-- R561: GRAN_PERSIST_MIN, RW, reset 0x0000_3E80. -/
def R.GRAN_PERSIST_MIN : Reg := ⟨0x1A0018, 0x3E80⟩

/-- R561: GRAN_WRAP_CNT, RO, reset from granary. -/
def R.GRAN_WRAP_CNT : Reg := ⟨0x1A001C, 0x0⟩

/-- R561: GRAN_WEAR_MAX, RO, reset from granary. -/
def R.GRAN_WEAR_MAX : Reg := ⟨0x1A0020, 0x0⟩

/-- R561: GRAN_SPARES_FREE, RO, reset from granary. -/
def R.GRAN_SPARES_FREE : Reg := ⟨0x1A0024, 0x6C⟩

/-- R561: GRAN_REMAP_CNT, RC, reset 0x0000_0000. -/
def R.GRAN_REMAP_CNT : Reg := ⟨0x1A0028, 0x0⟩

/-- R561: GRAN_VERIFY_FAIL_CNT, RC, reset 0x0000_0000. -/
def R.GRAN_VERIFY_FAIL_CNT : Reg := ⟨0x1A002C, 0x0⟩

/-- R561: GRAN_WAIT_MAX, RC, reset 0x0000_0000. -/
def R.GRAN_WAIT_MAX : Reg := ⟨0x1A0030, 0x0⟩

/-- R561: GRAN_PF_BYTES, RO, reset 0x0000_0000. -/
def R.GRAN_PF_BYTES : Reg := ⟨0x1A0034, 0x0⟩

/-- R561: GRAN_RECOVERY, RO, reset 0x0000_0000. -/
def R.GRAN_RECOVERY : Reg := ⟨0x1A0038, 0x0⟩

/-- R561: GRAN_JOURNAL_HEAD, RO, reset 0x0000_0000. -/
def R.GRAN_JOURNAL_HEAD : Reg := ⟨0x1A003C, 0x0⟩

/-- R582: SEC_STATUS, RO, reset from granary. -/
def R.SEC_STATUS : Reg := ⟨0x1B0000, 0x0⟩

/-- R582: SEC_EVENTS, W1C, reset 0x0000_0000. -/
def R.SEC_EVENTS : Reg := ⟨0x1B0004, 0x0⟩

/-- R582: SEC_ATTN_MASK, RW, reset 0x0000_003B. -/
def R.SEC_ATTN_MASK : Reg := ⟨0x1B0008, 0x3B⟩

/-- R582: SEC_CMD, WO, reset 0x0000_0000. -/
def R.SEC_CMD : Reg := ⟨0x1B000C, 0x0⟩

/-- R582: SEC_CMD_RESULT, RO, reset 0x0000_0000. -/
def R.SEC_CMD_RESULT : Reg := ⟨0x1B0010, 0x0⟩

/-- R582: SEC_ROLLBACK, RO, reset from OTP. -/
def R.SEC_ROLLBACK : Reg := ⟨0x1B0014, 0x0⟩

/-- R582: SEC_ROOT_SLOTS, RO, reset from OTP. -/
def R.SEC_ROOT_SLOTS : Reg := ⟨0x1B0018, 0x0⟩

/-- R582: SEC_HOSTKEYS, RO, reset from granary. -/
def R.SEC_HOSTKEYS : Reg := ⟨0x1B001C, 0x0⟩

/-- R582: SEC_IMAGE_STATUS, RO, reset 0x0000_0000. -/
def R.SEC_IMAGE_STATUS : Reg := ⟨0x1B0020, 0x0⟩

/-- R582: SEC_LMS_INDEX_LO, RO, reset from granary. -/
def R.SEC_LMS_INDEX_LO : Reg := ⟨0x1B0024, 0x0⟩

/-- R582: SEC_LMS_INDEX_HI, RO, reset from granary. -/
def R.SEC_LMS_INDEX_HI : Reg := ⟨0x1B0028, 0x0⟩

/-- R582: SEC_LMS_RESERVED_LO, RO, reset from granary. -/
def R.SEC_LMS_RESERVED_LO : Reg := ⟨0x1B002C, 0x0⟩

/-- R582: SEC_LMS_RESERVED_HI, RO, reset from granary. -/
def R.SEC_LMS_RESERVED_HI : Reg := ⟨0x1B0030, 0x0⟩

/-- R582: SEC_LMS_LOST, RO, reset from granary. -/
def R.SEC_LMS_LOST : Reg := ⟨0x1B0034, 0x0⟩

/-- R582: SEC_TAMPER_CFG, RW, reset 0x0000_001F. -/
def R.SEC_TAMPER_CFG : Reg := ⟨0x1B0038, 0x1F⟩

/-- R582: SEC_TAMPER_LIVE, RO, reset 0x0000_0000. -/
def R.SEC_TAMPER_LIVE : Reg := ⟨0x1B003C, 0x0⟩

/-- R582: SEC_TAMPER_LOG, RO, reset from granary. -/
def R.SEC_TAMPER_LOG : Reg := ⟨0x1B0040, 0x0⟩

/-- R582: SEC_TAMPER_V_LO, RO, reset from granary. -/
def R.SEC_TAMPER_V_LO : Reg := ⟨0x1B0044, 0x0⟩

/-- R582: SEC_TAMPER_V_HI, RO, reset from granary. -/
def R.SEC_TAMPER_V_HI : Reg := ⟨0x1B0048, 0x0⟩

/-- R605: DRUS_CTRL, RW, reset 0x0000_0001. -/
def R.DRUS_CTRL : Reg := ⟨0x1C0000, 0x1⟩

/-- R605: DRUS_STATUS, RO, reset 0x0000_0000. -/
def R.DRUS_STATUS : Reg := ⟨0x1C0004, 0x0⟩

/-- R605: DRUS_EVENTS, W1C, reset 0x0000_0000. -/
def R.DRUS_EVENTS : Reg := ⟨0x1C0008, 0x0⟩

/-- R605: DRUS_ATTN_MASK, RW, reset 0x0000_07A6. -/
def R.DRUS_ATTN_MASK : Reg := ⟨0x1C000C, 0x7A6⟩

/-- R605: DRUS_REACH, RO, reset 0x0000_0000. -/
def R.DRUS_REACH : Reg := ⟨0x1C0010, 0x0⟩

/-- R605: DRUS_OFFSET, RO, reset 0x0000_0000. -/
def R.DRUS_OFFSET : Reg := ⟨0x1C0014, 0x0⟩

/-- R605: DRUS_EVT_FWD, RW, reset 0x0000_0000. -/
def R.DRUS_EVT_FWD : Reg := ⟨0x1C0018, 0x0⟩

/-- R605: DRUS_EVT_DESC, RW, reset 0x0000_0000. -/
def R.DRUS_EVT_DESC : Reg := ⟨0x1C001C, 0x0⟩

/-- R605: DRUS_ATTN_DEV, RO, reset 0x0000_0000. -/
def R.DRUS_ATTN_DEV : Reg := ⟨0x1C0020, 0x0⟩

/-- R605: DRUS_DOUBT_LIMIT, RW, reset 0x0000_03E8. -/
def R.DRUS_DOUBT_LIMIT : Reg := ⟨0x1C0024, 0x3E8⟩

/-- R605: DRUS_FARM_LOST_LIMIT, RW, reset 0x0000_0003. -/
def R.DRUS_FARM_LOST_LIMIT : Reg := ⟨0x1C0028, 0x3⟩

/-- R605: DRUS_TWIN_CFG, RO, reset from image. -/
def R.DRUS_TWIN_CFG : Reg := ⟨0x1C002C, 0x0⟩

/-- R605: DRUS_TWIN_STATUS, RO, reset 0x0000_0000. -/
def R.DRUS_TWIN_STATUS : Reg := ⟨0x1C0030, 0x0⟩

/-- R605: DRUS_LOST_CNT, RC, reset 0x0000_0000. -/
def R.DRUS_LOST_CNT : Reg := ⟨0x1C0034, 0x0⟩

/-- R605: DRUS_REMOTE_REFUSED_CNT, RC, reset 0x0000_0000. -/
def R.DRUS_REMOTE_REFUSED_CNT : Reg := ⟨0x1C0038, 0x0⟩

/-- R605: DRUS_p_CTRL, RW, reset 0x0000_0001. -/
def R.DRUS_p_CTRL (i : Nat) : Reg := ⟨if i < 3 then 0x1C0100 + 0x20 * i else 0x1CFFFE, 0x1⟩

/-- R605: DRUS_p_STATUS, RO, reset 0x0000_0000. -/
def R.DRUS_p_STATUS (i : Nat) : Reg := ⟨if i < 3 then 0x1C0104 + 0x20 * i else 0x1CFFFE, 0x0⟩

/-- R605: DRUS_p_COMP, RW, reset 0x0000_0000. -/
def R.DRUS_p_COMP (i : Nat) : Reg := ⟨if i < 3 then 0x1C0108 + 0x20 * i else 0x1CFFFE, 0x0⟩

/-- R605: DRUS_p_DELAY, RO, reset 0x0000_0000. -/
def R.DRUS_p_DELAY (i : Nat) : Reg := ⟨if i < 3 then 0x1C010C + 0x20 * i else 0x1CFFFE, 0x0⟩

/-- R605: DRUS_p_RETRY_CNT, RC, reset 0x0000_0000. -/
def R.DRUS_p_RETRY_CNT (i : Nat) : Reg := ⟨if i < 3 then 0x1C0110 + 0x20 * i else 0x1CFFFE, 0x0⟩

/-- R605: DRUS_p_CRC_CNT, RC, reset 0x0000_0000. -/
def R.DRUS_p_CRC_CNT (i : Nat) : Reg := ⟨if i < 3 then 0x1C0114 + 0x20 * i else 0x1CFFFE, 0x0⟩

/-- R627: CLK_STATUS, RO, reset 0x0000_0001. -/
def R.CLK_STATUS : Reg := ⟨0x10000, 0x1⟩

/-- R627: CLK_EVENTS, W1C, reset 0x0000_0000. -/
def R.CLK_EVENTS : Reg := ⟨0x10004, 0x0⟩

/-- R627: CLK_ATTN_MASK, RW, reset 0x0000_0032. -/
def R.CLK_ATTN_MASK : Reg := ⟨0x10008, 0x32⟩

/-- R627: CLK_WDOG_CFG, RW, reset 0x0000_03E8. -/
def R.CLK_WDOG_CFG : Reg := ⟨0x1000C, 0x3E8⟩

/-- R627: CLK_WDOG_KICK, WO, reset 0x0000_0000. -/
def R.CLK_WDOG_KICK : Reg := ⟨0x10010, 0x0⟩

/-- R627: CLK_WDOG_CNT, RC, reset 0x0000_0000. -/
def R.CLK_WDOG_CNT : Reg := ⟨0x10014, 0x0⟩

/-- R627: CLK_SVC_CNT, RC, reset 0x0000_0000. -/
def R.CLK_SVC_CNT : Reg := ⟨0x10018, 0x0⟩

/-- R627: CLK_WARM_CNT, RC, reset 0x0000_0000. -/
def R.CLK_WARM_CNT : Reg := ⟨0x1001C, 0x0⟩

/-- R627: CLK_PF_CNT, RC, reset 0x0000_0000. -/
def R.CLK_PF_CNT : Reg := ⟨0x10020, 0x0⟩

/-- R627: CLK_CMD, WO, reset 0x0000_0000. -/
def R.CLK_CMD : Reg := ⟨0x10024, 0x0⟩

/-- R627: CLK_SHUT_STATUS, RO, reset 0x0000_0000. -/
def R.CLK_SHUT_STATUS : Reg := ⟨0x10028, 0x0⟩

/-- R627: CLK_SHUT_CFG, RW, reset 0x0002_1388. -/
def R.CLK_SHUT_CFG : Reg := ⟨0x1002C, 0x21388⟩

/-- R627: CLK_FW_TRIAL_MS, RW, reset 0x0000_1388. -/
def R.CLK_FW_TRIAL_MS : Reg := ⟨0x10030, 0x1388⟩

/-- R627: CLK_START_TIME, RO, reset 0x0000_0000. -/
def R.CLK_START_TIME : Reg := ⟨0x10034, 0x0⟩

/-- R657: LINKTEST_EVENTS, W1C, reset 0x0000_0000. -/
def R.LINKTEST_EVENTS : Reg := ⟨0x1F0000, 0x0⟩

/-- R657: LINKTEST_ATTN_MASK, RW, reset 0x0000_0000. -/
def R.LINKTEST_ATTN_MASK : Reg := ⟨0x1F0004, 0x0⟩

/-- R657: LINKTEST_l_CTRL, RW, WO, RO, reset 0x0000_0000. -/
def R.LINKTEST_l_CTRL (i : Nat) : Reg := ⟨if i < 8 then 0x1F0100 + 0x20 * i else 0x1FFFFE, 0x0⟩

/-- R657: LINKTEST_l_STATUS, RO, reset 0x0000_0000. -/
def R.LINKTEST_l_STATUS (i : Nat) : Reg := ⟨if i < 8 then 0x1F0104 + 0x20 * i else 0x1FFFFE, 0x0⟩

/-- R657: LINKTEST_l_BITS_LO, RO, reset 0x0000_0000. -/
def R.LINKTEST_l_BITS_LO (i : Nat) : Reg := ⟨if i < 8 then 0x1F0108 + 0x20 * i else 0x1FFFFE, 0x0⟩

/-- R657: LINKTEST_l_BITS_HI, RO, reset 0x0000_0000. -/
def R.LINKTEST_l_BITS_HI (i : Nat) : Reg := ⟨if i < 8 then 0x1F010C + 0x20 * i else 0x1FFFFE, 0x0⟩

/-- R657: LINKTEST_l_ERR_LO, RO, reset 0x0000_0000. -/
def R.LINKTEST_l_ERR_LO (i : Nat) : Reg := ⟨if i < 8 then 0x1F0110 + 0x20 * i else 0x1FFFFE, 0x0⟩

/-- R657: LINKTEST_l_ERR_HI, RO, reset 0x0000_0000. -/
def R.LINKTEST_l_ERR_HI (i : Nat) : Reg := ⟨if i < 8 then 0x1F0114 + 0x20 * i else 0x1FFFFE, 0x0⟩

/-- R657: LINKTEST_l_LOCK_CNT, RC, reset 0x0000_0000. -/
def R.LINKTEST_l_LOCK_CNT (i : Nat) : Reg := ⟨if i < 8 then 0x1F0118 + 0x20 * i else 0x1FFFFE, 0x0⟩

/-- R657: LINKTEST_f_FCTRL, RW, WO, reset 0x0000_0000. -/
def R.LINKTEST_f_FCTRL (i : Nat) : Reg := ⟨if i < 8 then 0x1F0200 + 0x20 * i else 0x1FFFFE, 0x0⟩

/-- R657: LINKTEST_f_FCOUNT, RW, reset 0x0000_0000. -/
def R.LINKTEST_f_FCOUNT (i : Nat) : Reg := ⟨if i < 8 then 0x1F0204 + 0x20 * i else 0x1FFFFE, 0x0⟩

/-- R657: LINKTEST_f_SENT, RO, reset 0x0000_0000. -/
def R.LINKTEST_f_SENT (i : Nat) : Reg := ⟨if i < 8 then 0x1F0208 + 0x20 * i else 0x1FFFFE, 0x0⟩

/-- R657: LINKTEST_f_GOOD, RO, reset 0x0000_0000. -/
def R.LINKTEST_f_GOOD (i : Nat) : Reg := ⟨if i < 8 then 0x1F020C + 0x20 * i else 0x1FFFFE, 0x0⟩

/-- R657: LINKTEST_f_BAD, RO, reset 0x0000_0000. -/
def R.LINKTEST_f_BAD (i : Nat) : Reg := ⟨if i < 8 then 0x1F0210 + 0x20 * i else 0x1FFFFE, 0x0⟩

/-- R657: LINKTEST_f_LOST, RO, reset 0x0000_0000. -/
def R.LINKTEST_f_LOST (i : Nat) : Reg := ⟨if i < 8 then 0x1F0214 + 0x20 * i else 0x1FFFFE, 0x0⟩

/-- R660: DDR_CTRL, RW, WO, reset 0x0000_0000. -/
def R.DDR_CTRL : Reg := ⟨0x1D0000, 0x0⟩

/-- R660: DDR_STATUS, RO, reset 0x0000_0000. -/
def R.DDR_STATUS : Reg := ⟨0x1D0004, 0x0⟩

/-- R660: DDR_EVENTS, W1C, reset 0x0000_0000. -/
def R.DDR_EVENTS : Reg := ⟨0x1D0008, 0x0⟩

/-- R660: DDR_ATTN_MASK, RW, reset 0x0000_0006. -/
def R.DDR_ATTN_MASK : Reg := ⟨0x1D000C, 0x6⟩

/-- R660: DDR_SIZE, RO, reset 0x0000_0000. -/
def R.DDR_SIZE : Reg := ⟨0x1D0010, 0x0⟩

/-- R660: DDR_CE_CNT, RC, reset 0x0000_0000. -/
def R.DDR_CE_CNT : Reg := ⟨0x1D0014, 0x0⟩

/-- R660: DDR_UE_CNT, RC, reset 0x0000_0000. -/
def R.DDR_UE_CNT : Reg := ⟨0x1D0018, 0x0⟩

/-- R660: DDR_UE_ADDR_LO, RO, reset 0x0000_0000. -/
def R.DDR_UE_ADDR_LO : Reg := ⟨0x1D001C, 0x0⟩

/-- R660: DDR_UE_ADDR_HI, RO, reset 0x0000_0000. -/
def R.DDR_UE_ADDR_HI : Reg := ⟨0x1D0020, 0x0⟩

/-- R660: DDR_TEST_CTRL, RW, WO, reset 0x0000_0000. -/
def R.DDR_TEST_CTRL : Reg := ⟨0x1D0024, 0x0⟩

/-- R660: DDR_TEST_BASE, RW, reset 0x0000_0000. -/
def R.DDR_TEST_BASE : Reg := ⟨0x1D0028, 0x0⟩

/-- R660: DDR_TEST_SIZE, RW, reset 0x0000_0000. -/
def R.DDR_TEST_SIZE : Reg := ⟨0x1D002C, 0x0⟩

/-- R660: DDR_TEST_ERR, RO, reset 0x0000_0000. -/
def R.DDR_TEST_ERR : Reg := ⟨0x1D0030, 0x0⟩

/-- R660: DDR_TEST_FIRST, RO, reset 0x0000_0000. -/
def R.DDR_TEST_FIRST : Reg := ⟨0x1D0034, 0x0⟩

/-- R660: DDR_TRAIN_TIME, RO, reset 0x0000_0000. -/
def R.DDR_TRAIN_TIME : Reg := ⟨0x1D0038, 0x0⟩

/-- R663: XSPI_STATUS, RO, reset 0x0000_0000. -/
def R.XSPI_STATUS : Reg := ⟨0x1E0000, 0x0⟩

/-- R663: XSPI_EVENTS, W1C, reset 0x0000_0000. -/
def R.XSPI_EVENTS : Reg := ⟨0x1E0004, 0x0⟩

/-- R663: XSPI_ATTN_MASK, RW, reset 0x0000_0005. -/
def R.XSPI_ATTN_MASK : Reg := ⟨0x1E0008, 0x5⟩

/-- R663: XSPI_SIZE, RO, reset 0x0000_0000. -/
def R.XSPI_SIZE : Reg := ⟨0x1E000C, 0x0⟩

/-- R663: XSPI_ID, RO, reset 0x0000_0000. -/
def R.XSPI_ID : Reg := ⟨0x1E0010, 0x0⟩

/-- R663: XSPI_ERR_CNT, RC, reset 0x0000_0000. -/
def R.XSPI_ERR_CNT : Reg := ⟨0x1E0014, 0x0⟩

/-! Fields: lowest bit and width. -/

def F.TIME_CTRL.SEAT : Fld := ⟨0, 1⟩
def F.TIME_STATUS.PLL_LOCKED : Fld := ⟨0, 1⟩
def F.TIME_STATUS.SEATED : Fld := ⟨1, 1⟩
def F.TIME_STATUS.SEAT_RATE_ONLY : Fld := ⟨2, 1⟩
def F.TIME_STATUS.OFFSET_REFUSED : Fld := ⟨3, 1⟩
def F.TIME_STATUS.RATE_CLAMPED : Fld := ⟨4, 1⟩
def F.TIME_STATUS.SEAT_REFUSED : Fld := ⟨5, 1⟩
def F.HEAD_CTRL.RUN : Fld := ⟨0, 1⟩
def F.HEAD_CTRL.SYNC_EN : Fld := ⟨1, 1⟩
def F.HEAD_CTRL.SYNC_REARM : Fld := ⟨2, 1⟩
def F.HEAD_STATUS.RUNNING : Fld := ⟨0, 1⟩
def F.HEAD_STATUS.SYNC_STATE : Fld := ⟨1, 2⟩
def F.HEAD_STATUS.SYNC_LOST : Fld := ⟨3, 1⟩
def F.HEAD_STATUS.LOST_REASON : Fld := ⟨4, 2⟩
def F.HEAD_STATUS.CFG_REFUSED : Fld := ⟨6, 1⟩
def F.HEAD_STATUS.REALIGNED : Fld := ⟨7, 1⟩
def F.HEAD_SYNC_CFG.DIV_M1 : Fld := ⟨0, 10⟩
def F.HEAD_SYNC_CFG.SYNC_PHASE : Fld := ⟨16, 10⟩
def F.HEAD_SYNC_CFG.FALLING : Fld := ⟨28, 1⟩
def F.HEAD_SYNC_COMP.COMP : Fld := ⟨0, 32⟩
def F.HEAD_SYNC_MISS.MISS_LIMIT : Fld := ⟨0, 4⟩
def F.HEAD_SYNC_MISS.MISS_COUNT : Fld := ⟨16, 4⟩
def F.HEAD_n_CLASS_CFG.K_M1 : Fld := ⟨0, 10⟩
def F.HEAD_n_CLASS_CFG.PHASE : Fld := ⟨16, 10⟩
def F.HEAD_n_CLASS_CFG.ENABLE : Fld := ⟨31, 1⟩
def F.EXEC_CMD.CMD : Fld := ⟨0, 4⟩
def F.EXEC_CMD.KEY : Fld := ⟨16, 16⟩
def F.EXEC_STATUS.STATE : Fld := ⟨0, 3⟩
def F.EXEC_STATUS.STOP_CAUSE : Fld := ⟨4, 4⟩
def F.EXEC_STATUS.OVR_CLASS : Fld := ⟨8, 2⟩
def F.EXEC_STATUS.CMD_PENDING : Fld := ⟨10, 1⟩
def F.EXEC_STATUS.CKPT_BUSY : Fld := ⟨11, 1⟩
def F.EXEC_STATUS.OLC_STATE : Fld := ⟨12, 2⟩
def F.EXEC_STATUS.SAFE_OUT : Fld := ⟨14, 1⟩
def F.EXEC_EVENTS.OVERRUN : Fld := ⟨0, 1⟩
def F.EXEC_EVENTS.TASK_FAULT : Fld := ⟨1, 1⟩
def F.EXEC_EVENTS.CTRL_STOP : Fld := ⟨2, 1⟩
def F.EXEC_EVENTS.BRIDGED : Fld := ⟨3, 1⟩
def F.EXEC_EVENTS.BRIDGE_EXPIRED : Fld := ⟨4, 1⟩
def F.EXEC_EVENTS.OLC_DONE : Fld := ⟨5, 1⟩
def F.EXEC_EVENTS.OLC_REFUSED : Fld := ⟨6, 1⟩
def F.EXEC_EVENTS.CMD_REFUSED : Fld := ⟨7, 1⟩
def F.EXEC_EVENTS.CKPT_FAILED : Fld := ⟨8, 1⟩
def F.EXEC_EVENTS.OLD_CKPT_USED : Fld := ⟨9, 1⟩
def F.EXEC_OVR_TASK.TASK : Fld := ⟨0, 12⟩
def F.EXEC_OVR_TASK.CLASS : Fld := ⟨12, 2⟩
def F.EXEC_OVR_TASK.NOT_DISPATCHED : Fld := ⟨15, 1⟩
def F.EXEC_FAULT_REC.CODE : Fld := ⟨0, 8⟩
def F.EXEC_FAULT_REC.FUNCTION : Fld := ⟨8, 16⟩
def F.EXEC_START_CFG.RESTORE : Fld := ⟨0, 1⟩
def F.EXEC_t_TASK_CTRL.ENABLE : Fld := ⟨0, 1⟩
def F.EXEC_t_TASK_CTRL.POLICY : Fld := ⟨1, 2⟩
def F.EXEC_t_TASK_CTRL.DISABLED_BY_FAULT : Fld := ⟨3, 1⟩
def F.EXEC_t_TASK_CTRL.FAULTED : Fld := ⟨4, 1⟩
def F.FORCE_CTRL.ENABLE : Fld := ⟨0, 1⟩
def F.FORCE_CTRL.RELEASE_ON_STOP : Fld := ⟨1, 1⟩
def F.FORCE_CTRL.CLEAR_ALL : Fld := ⟨2, 1⟩
def F.FORCE_EVENTS.UNWRITTEN : Fld := ⟨0, 1⟩
def F.FORCE_EVENTS.REMOVED : Fld := ⟨1, 1⟩
def F.FORCE_EVENTS.BAD_POINT : Fld := ⟨2, 1⟩
def F.FORCE_e_CTRL.EN : Fld := ⟨0, 1⟩
def F.FORCE_e_CTRL.INPUT : Fld := ⟨1, 1⟩
def F.FORCE_e_CTRL.UNWRITTEN : Fld := ⟨2, 1⟩
def F.FORCE_e_CTRL.TYPE : Fld := ⟨4, 3⟩
def F.COLLIE_CTRL.SPILL_EN : Fld := ⟨0, 1⟩
def F.COLLIE_STATUS.READY : Fld := ⟨0, 13⟩
def F.COLLIE_STATUS.RUNNING : Fld := ⟨16, 6⟩
def F.COLLIE_STATUS.AT_HEEL : Fld := ⟨24, 6⟩
def F.COLLIE_EVENTS.CORE_FENCED : Fld := ⟨0, 1⟩
def F.COLLIE_EVENTS.NO_RESERVE : Fld := ⟨1, 1⟩
def F.COLLIE_EVENTS.POOL_EMPTY : Fld := ⟨2, 1⟩
def F.COLLIE_EVENTS.POST_DROP : Fld := ⟨3, 1⟩
def F.COLLIE_EVENTS.DELAY_FULL : Fld := ⟨4, 1⟩
def F.COLLIE_EVENTS.REPLY_DROP : Fld := ⟨5, 1⟩
def F.COLLIE_EVENTS.DESC_ERROR : Fld := ⟨6, 1⟩
def F.COLLIE_EVENTS.NEW_SNAPSHOT : Fld := ⟨7, 1⟩
def F.COLLIE_EVENTS.RELEASE_STALL : Fld := ⟨8, 1⟩
def F.COLLIE_EVENTS.CMD_NO_EFFECT : Fld := ⟨9, 1⟩
def F.COLLIE_FENCE_LOG.CORE : Fld := ⟨0, 6⟩
def F.COLLIE_FENCE_LOG.REPEAT : Fld := ⟨6, 1⟩
def F.COLLIE_FENCE_LOG.NEW_SNAPSHOT : Fld := ⟨7, 1⟩
def F.COLLIE_FENCE_LOG.PLOT_RESERVES : Fld := ⟨8, 2⟩
def F.COLLIE_FENCE_LOG.CAUSE : Fld := ⟨12, 4⟩
def F.COLLIE_FENCE_LOG.PLOT : Fld := ⟨16, 2⟩
def F.COLLIE_FENCE_LOG.DEVICE_RESERVES : Fld := ⟨20, 3⟩
def F.COLLIE_FENCE_TASK.DESC : Fld := ⟨0, 12⟩
def F.COLLIE_FENCE_TASK.DESC_ERROR : Fld := ⟨14, 1⟩
def F.COLLIE_FENCE_TASK.VALID : Fld := ⟨15, 1⟩
def F.COLLIE_FENCE_TASK.SEQ : Fld := ⟨16, 16⟩
def F.COLLIE_CMD.TARGET : Fld := ⟨0, 12⟩
def F.COLLIE_CMD.OP : Fld := ⟨12, 2⟩
def F.COLLIE_CMD.KEY : Fld := ⟨16, 16⟩
def F.COLLIE_t_STATE.STATE : Fld := ⟨0, 3⟩
def F.COLLIE_t_STATE.PENDING : Fld := ⟨4, 7⟩
def F.COLLIE_t_STATE.OVERFLOW : Fld := ⟨12, 1⟩
def F.COLLIE_t_STATE.REPEATED : Fld := ⟨13, 1⟩
def F.COLLIE_t_STATE.CORE : Fld := ⟨16, 6⟩
def F.COLLIE_f_FLOW_CFG.HANDLER : Fld := ⟨0, 12⟩
def F.COLLIE_f_FLOW_CFG.WINDOW : Fld := ⟨16, 7⟩
def F.COLLIE_f_FLOW_CFG.VALID : Fld := ⟨31, 1⟩
def F.COLLIE_f_FLOW_STAT.IN_WINDOW : Fld := ⟨0, 7⟩
def F.COLLIE_f_FLOW_STAT.QUEUED : Fld := ⟨16, 14⟩
def F.PLOT_k_CORE_STATUS.ROLE : Fld := ⟨0, 2⟩
def F.PLOT_k_CORE_STATUS.AT_HEEL : Fld := ⟨2, 1⟩
def F.PLOT_k_CORE_STATUS.SLOT : Fld := ⟨4, 3⟩
def F.PLOT_k_CORE_STATUS.FENCE_CAUSE : Fld := ⟨8, 4⟩
def F.PLOT_k_CORE_STATUS.FENCE_COUNT : Fld := ⟨12, 4⟩
def F.PLOT_k_CORE_STATUS.TEST_FAILED : Fld := ⟨16, 1⟩
def F.PLOT_k_CORE_TASK.VALID : Fld := ⟨15, 1⟩
def F.PLOT_k_CORE_CTRL.FENCE : Fld := ⟨0, 1⟩
def F.PLOT_k_CORE_CTRL.RETEST : Fld := ⟨1, 1⟩
def F.PLOT_k_CORE_CTRL.KEY : Fld := ⟨16, 16⟩
def F.PLOT_p_STATUS.ACTIVE : Fld := ⟨0, 4⟩
def F.PLOT_p_STATUS.RESERVE : Fld := ⟨4, 1⟩
def F.PLOT_p_STATUS.REDUCED : Fld := ⟨5, 1⟩
def F.TXN_CMD.OP : Fld := ⟨0, 4⟩
def F.TXN_CMD.KEY : Fld := ⟨16, 16⟩
def F.TXN_STATUS.SEALED : Fld := ⟨8, 7⟩
def F.TXN_STATUS.COMMITTED : Fld := ⟨16, 7⟩
def F.TXN_EVENTS.ABORTED : Fld := ⟨0, 1⟩
def F.TXN_EVENTS.LATE : Fld := ⟨1, 1⟩
def F.TXN_EVENTS.LOST_IN_DOUBT : Fld := ⟨2, 1⟩
def F.TXN_EVENTS.UNCONFIRMED : Fld := ⟨3, 1⟩
def F.TXN_EVENTS.CMD_REFUSED : Fld := ⟨4, 1⟩
def F.TXN_CFG.OPEN_LIMIT : Fld := ⟨0, 16⟩
def F.TXN_CFG.HOLD : Fld := ⟨16, 8⟩
def F.TXN_CFG.DEC_REPEAT : Fld := ⟨24, 8⟩
def F.TXN_CMD_KIND.TARGET_KIND : Fld := ⟨0, 4⟩
def F.TXN_CMD_KIND.TYPE : Fld := ⟨4, 3⟩
def F.TXN_CMD_KIND.AXIS_CMD : Fld := ⟨8, 3⟩
def F.TXN_CMD_RESULT.HANDLE : Fld := ⟨0, 16⟩
def F.TXN_CMD_RESULT.CODE : Fld := ⟨16, 8⟩
def F.TXN_PART_INFO.KIND : Fld := ⟨0, 3⟩
def F.TXN_PART_INFO.ID : Fld := ⟨4, 12⟩
def F.TXN_PART_INFO.VOTE : Fld := ⟨16, 2⟩
def F.TXN_PART_INFO.REASON : Fld := ⟨20, 4⟩
def F.TXN_PART_INFO.OUTCOME : Fld := ⟨24, 4⟩
def F.TXN_s_OWNER.KIND : Fld := ⟨0, 2⟩
def F.TXN_s_OWNER.ID : Fld := ⟨4, 12⟩
def F.ADC_EVENTS.REF_FAULT : Fld := ⟨0, 4⟩
def F.ADC_EVENTS.REF_SETTLED : Fld := ⟨4, 4⟩
def F.ADC_p_REF_CTRL.EN : Fld := ⟨0, 1⟩
def F.ADC_p_REF_STATUS.SETTLED : Fld := ⟨0, 1⟩
def F.ADC_p_REF_STATUS.FAULT : Fld := ⟨1, 1⟩
def F.ADC_p_REF_STATUS.SETTLING : Fld := ⟨2, 1⟩
def F.AU_n_CTRL.RUN : Fld := ⟨0, 1⟩
def F.AU_n_CTRL.LEGACY : Fld := ⟨1, 1⟩
def F.AU_n_CTRL.SEQ_LEN_M1 : Fld := ⟨4, 5⟩
def F.AU_n_STATUS.STATE : Fld := ⟨0, 2⟩
def F.AU_n_STATUS.NEXT_ENTRY : Fld := ⟨4, 5⟩
def F.AU_n_STATUS.INJ_PENDING : Fld := ⟨9, 1⟩
def F.AU_n_STATUS.INJ_HELD : Fld := ⟨10, 1⟩
def F.AU_n_STATUS.CAL_PENDING : Fld := ⟨11, 1⟩
def F.AU_n_STATUS.REF_OK : Fld := ⟨12, 1⟩
def F.AU_n_STATUS.CAL_SLOT : Fld := ⟨16, 12⟩
def F.AU_n_EVENTS.EOS : Fld := ⟨0, 1⟩
def F.AU_n_EVENTS.CAL_DONE : Fld := ⟨1, 1⟩
def F.AU_n_EVENTS.CAL_ABORTED : Fld := ⟨2, 1⟩
def F.AU_n_EVENTS.CAL_FAILED : Fld := ⟨3, 1⟩
def F.AU_n_EVENTS.CAL_REFUSED : Fld := ⟨4, 1⟩
def F.AU_n_EVENTS.CAL_FORCED : Fld := ⟨5, 1⟩
def F.AU_n_EVENTS.INJ_DROPPED : Fld := ⟨6, 1⟩
def F.AU_n_EVENTS.CFG_REFUSED : Fld := ⟨7, 1⟩
def F.AU_n_INJ_CTRL.INJ_LEN_M1 : Fld := ⟨0, 2⟩
def F.AU_n_INJ_CTRL.TRIG_SRC : Fld := ⟨4, 3⟩
def F.AU_n_INJ_CTRL.CLASS : Fld := ⟨8, 2⟩
def F.AU_n_INJ_CTRL.SW_TRIG : Fld := ⟨10, 1⟩
def F.AU_n_INJ_CTRL.HL_OFS : Fld := ⟨16, 12⟩
def F.AU_n_CAL_CTRL.START : Fld := ⟨0, 1⟩
def F.AU_n_CAL_CTRL.INJ_PREEMPT_CAL : Fld := ⟨1, 1⟩
def F.AU_n_CAL_CTRL.CAL_RESULT : Fld := ⟨4, 2⟩
def F.AU_n_CAL_CTRL.ABORTS : Fld := ⟨8, 4⟩
def F.AU_n_LEG_CFG.DESC : Fld := ⟨0, 12⟩
def F.AU_n_LEG_CFG.POST_EN : Fld := ⟨12, 1⟩
def F.AU_n_LEG_RES_e.RESULT : Fld := ⟨0, 18⟩
def F.AU_n_LEG_RES_e.CLIP : Fld := ⟨29, 1⟩
def F.AU_n_LEG_RES_e.VALID : Fld := ⟨30, 1⟩
def F.AU_n_LEG_RES_e.NEW : Fld := ⟨31, 1⟩
def F.AU_n_i_CH_CFG.GAIN : Fld := ⟨0, 2⟩
def F.AU_n_i_CH_CFG.FILTER : Fld := ⟨2, 2⟩
def F.AU_n_i_CH_CFG.FPARAM : Fld := ⟨4, 3⟩
def F.AU_n_i_CH_CFG.PENDING : Fld := ⟨8, 1⟩
def F.ACC_EVENTS.WCMP : Fld := ⟨0, 1⟩
def F.ACC_EVENTS.N_SAT : Fld := ⟨1, 1⟩
def F.ACC_EVENTS.CFG_REFUSED : Fld := ⟨2, 1⟩
def F.ACC_TRK_CLR.ALL : Fld := ⟨8, 1⟩
def F.ACC_c_CFG.WIN_M_M1 : Fld := ⟨0, 8⟩
def F.ACC_c_CFG.WIN_PHASE : Fld := ⟨8, 8⟩
def F.ACC_c_CFG.OFS_SHIFT : Fld := ⟨16, 4⟩
def F.ACC_c_WIN_STATUS.GAP : Fld := ⟨0, 1⟩
def F.ACC_c_WIN_STATUS.N_SAT : Fld := ⟨1, 1⟩
def F.ACC_c_WIN_STATUS.CLIP : Fld := ⟨2, 1⟩
def F.ACC_c_WIN_STATUS.STAGED : Fld := ⟨3, 1⟩
def F.ACC_c_WIN_STATUS.CLOSE_SEQ : Fld := ⟨16, 16⟩
def F.ACC_c_N.INV : Fld := ⟨16, 8⟩
def F.ACC_c_SUMSQ_HI.SUMSQ : Fld := ⟨0, 24⟩
def F.ACC_c_MIN_OFS.MIN_OFS : Fld := ⟨0, 24⟩
def F.ACC_c_MAX_OFS.MAX_OFS : Fld := ⟨0, 24⟩
def F.ACC_c_WCMP_CFG.HYST : Fld := ⟨0, 16⟩
def F.ACC_c_WCMP_CFG.EN : Fld := ⟨16, 1⟩
def F.ACC_c_WCMP_CFG.REENTRY : Fld := ⟨17, 1⟩
def F.ACC_c_WCMP_CFG.STATE : Fld := ⟨18, 2⟩
def F.ACC_c_WCMP_CFG.DESC : Fld := ⟨20, 12⟩
def F.DAC_STATUS.DACREF_READY : Fld := ⟨0, 1⟩
def F.DAC_EVENTS.CLAMPED : Fld := ⟨0, 1⟩
def F.DAC_n_CFG.SAFE_MODE : Fld := ⟨0, 2⟩
def F.DAC_n_CFG.WRITER : Fld := ⟨4, 3⟩
def F.CAPT_CTRL.OVF_EN : Fld := ⟨0, 1⟩
def F.CAPT_STATUS.READY : Fld := ⟨0, 13⟩
def F.CAPT_STATUS.OVF_ACTIVE : Fld := ⟨16, 1⟩
def F.CAPT_STATUS.OVF_SUSPENDED : Fld := ⟨17, 1⟩
def F.CAPT_EVENTS.SEG_READY : Fld := ⟨0, 1⟩
def F.CAPT_EVENTS.MISSED : Fld := ⟨1, 1⟩
def F.CAPT_EVENTS.WAIT_SLOT : Fld := ⟨2, 1⟩
def F.CAPT_EVENTS.OVF_FAULT : Fld := ⟨3, 1⟩
def F.CAPT_EVENTS.OVF_FULL : Fld := ⟨4, 1⟩
def F.CAPT_EVENTS.CFG_REFUSED : Fld := ⟨5, 1⟩
def F.CAPT_EVENTS.EARLY : Fld := ⟨6, 1⟩
def F.CAPT_n_CTRL.ARM : Fld := ⟨0, 1⟩
def F.CAPT_n_CTRL.DISARM : Fld := ⟨1, 1⟩
def F.CAPT_n_CTRL.SW_TRIG : Fld := ⟨2, 1⟩
def F.CAPT_n_CTRL.CONTINUOUS : Fld := ⟨3, 1⟩
def F.CAPT_n_CTRL.REQUIRE_FULL_PRE : Fld := ⟨4, 1⟩
def F.CAPT_n_CTRL.OVF : Fld := ⟨5, 1⟩
def F.CAPT_n_CTRL.COUNT : Fld := ⟨16, 13⟩
def F.CAPT_n_STATUS.STATE : Fld := ⟨0, 3⟩
def F.CAPT_n_STATUS.PRE_FILL : Fld := ⟨12, 20⟩
def F.CAPT_n_SRC.KIND : Fld := ⟨0, 2⟩
def F.CAPT_n_SRC.INDEX : Fld := ⟨4, 6⟩
def F.CAPT_n_SEG_CFG.DESC_BASE : Fld := ⟨0, 12⟩
def F.CAPT_n_SEG_CFG.DESC_COUNT : Fld := ⟨16, 13⟩
def F.CAPT_n_PRE.PRE : Fld := ⟨0, 20⟩
def F.CAPT_n_POST.POST : Fld := ⟨0, 20⟩
def F.CAPT_n_XTRIG.XMASK : Fld := ⟨0, 16⟩
def F.CAPT_n_XTRIG.TMASK : Fld := ⟨16, 4⟩
def F.CAPT_n_EVT.DESC : Fld := ⟨0, 12⟩
def F.CAPT_n_EVT.POST_TRIG : Fld := ⟨12, 1⟩
def F.CAPT_n_EVT.POST_SEG : Fld := ⟨13, 1⟩
def F.CAPT_n_k_COND_CFG.SENSE : Fld := ⟨0, 2⟩
def F.CAPT_n_k_COND_CFG.INPUT : Fld := ⟨4, 4⟩
def F.CAPT_n_k_COND_CFG.BIT : Fld := ⟨8, 5⟩
def F.CAPT_d_SEG.SLOT : Fld := ⟨0, 16⟩
def F.CAPT_d_SEG.STATE : Fld := ⟨16, 3⟩
def F.CAPT_d_SEG.CHANNEL : Fld := ⟨20, 4⟩
def F.CAPT_d_SEG.VALID : Fld := ⟨24, 1⟩
def F.GLEAN_CTRL.EN : Fld := ⟨0, 1⟩
def F.GLEAN_CTRL.SPOOL_EN : Fld := ⟨1, 1⟩
def F.GLEAN_CTRL.PF_BLOCKS : Fld := ⟨8, 7⟩
def F.GLEAN_STATUS.FILL : Fld := ⟨0, 7⟩
def F.GLEAN_STATUS.DROP3 : Fld := ⟨8, 1⟩
def F.GLEAN_STATUS.DROP2 : Fld := ⟨9, 1⟩
def F.GLEAN_STATUS.DROP1 : Fld := ⟨10, 1⟩
def F.GLEAN_STATUS.HALTED : Fld := ⟨11, 1⟩
def F.GLEAN_STATUS.SPOOL_ACTIVE : Fld := ⟨12, 1⟩
def F.GLEAN_STATUS.SPOOL_FAULT : Fld := ⟨13, 1⟩
def F.GLEAN_STATUS.STREAM_OPEN : Fld := ⟨14, 1⟩
def F.GLEAN_EVENTS.DROP : Fld := ⟨0, 1⟩
def F.GLEAN_EVENTS.HALT : Fld := ⟨1, 1⟩
def F.GLEAN_EVENTS.SPOOL_FAULT : Fld := ⟨2, 1⟩
def F.GLEAN_EVENTS.CFG_REFUSED : Fld := ⟨3, 1⟩
def F.GLEAN_EVENTS.ACK_INVALID : Fld := ⟨4, 1⟩
def F.GLEAN_EVENTS.RECOVERED : Fld := ⟨5, 1⟩
def F.GLEAN_SIG_CFG.KIND : Fld := ⟨0, 3⟩
def F.GLEAN_SIG_CFG.TYPE : Fld := ⟨3, 3⟩
def F.GLEAN_SIG_CFG.CLASS : Fld := ⟨6, 2⟩
def F.GLEAN_SIG_CFG.EDGE : Fld := ⟨8, 1⟩
def F.GLEAN_SIG_CFG.DIV_M1 : Fld := ⟨16, 10⟩
def F.GLEAN_SIG_MIN_INT.MIN_INTERVAL : Fld := ⟨0, 16⟩
def F.AXIS_n_CMD.CMD : Fld := ⟨0, 3⟩
def F.AXIS_n_CMD.KEY : Fld := ⟨16, 16⟩
def F.AXIS_n_CTRL.EN : Fld := ⟨0, 1⟩
def F.AXIS_n_CTRL.MODE : Fld := ⟨1, 2⟩
def F.AXIS_n_CTRL.APPLY_NOW : Fld := ⟨3, 1⟩
def F.AXIS_n_CTRL.FAULT_CLR : Fld := ⟨4, 1⟩
def F.AXIS_n_STATUS.MOVING : Fld := ⟨0, 1⟩
def F.AXIS_n_STATUS.DONE : Fld := ⟨1, 1⟩
def F.AXIS_n_STATUS.DIR_NEG : Fld := ⟨2, 1⟩
def F.AXIS_n_STATUS.REVERSAL : Fld := ⟨3, 1⟩
def F.AXIS_n_STATUS.OVERSHOOT : Fld := ⟨4, 1⟩
def F.AXIS_n_STATUS.LIMIT_HELD : Fld := ⟨5, 1⟩
def F.AXIS_n_STATUS.POS_LOST : Fld := ⟨6, 1⟩
def F.AXIS_n_STATUS.HOMED : Fld := ⟨7, 1⟩
def F.AXIS_n_STATUS.LIM_POS : Fld := ⟨8, 1⟩
def F.AXIS_n_STATUS.LIM_NEG : Fld := ⟨9, 1⟩
def F.AXIS_n_STATUS.SOFT_LIMIT : Fld := ⟨10, 1⟩
def F.AXIS_n_STATUS.ENC_MISMATCH : Fld := ⟨11, 1⟩
def F.AXIS_n_STATUS.RESTING : Fld := ⟨12, 1⟩
def F.AXIS_n_STATUS.STOP_HOLD : Fld := ⟨13, 1⟩
def F.AXIS_n_STATUS.APPROACH : Fld := ⟨14, 1⟩
def F.AXIS_n_STATUS.TXN_PENDING : Fld := ⟨15, 1⟩
def F.AXIS_n_STATUS.STATE : Fld := ⟨16, 3⟩
def F.AXIS_n_STATUS.FAULT_CAUSE : Fld := ⟨20, 4⟩
def F.AXIS_n_STATUS.LAST_REFUSAL : Fld := ⟨24, 4⟩
def F.AXIS_n_EVENTS.DONE : Fld := ⟨0, 1⟩
def F.AXIS_n_EVENTS.REFUSED : Fld := ⟨1, 1⟩
def F.AXIS_n_EVENTS.FAULT : Fld := ⟨2, 1⟩
def F.AXIS_n_EVENTS.POS_LOST : Fld := ⟨3, 1⟩
def F.AXIS_n_EVENTS.REVERSAL : Fld := ⟨4, 1⟩
def F.AXIS_n_EVENTS.OVERSHOOT : Fld := ⟨5, 1⟩
def F.AXIS_n_EVENTS.LIMIT_HELD : Fld := ⟨6, 1⟩
def F.AXIS_n_EVENTS.CLAMPED : Fld := ⟨7, 1⟩
def F.AXIS_n_EVENTS.TXN_SUPERSEDED : Fld := ⟨8, 1⟩
def F.AXIS_n_EVENTS.CONFIRMED : Fld := ⟨9, 1⟩
def F.AXIS_n_EVENTS.ADOPTED : Fld := ⟨10, 1⟩
def F.AXIS_n_EVENTS.ENC_MISMATCH : Fld := ⟨11, 1⟩
def F.AXIS_n_EVENTS.HOMED : Fld := ⟨12, 1⟩
def F.AXIS_n_PINS.STEP_PIN : Fld := ⟨0, 8⟩
def F.AXIS_n_PINS.DIR_PIN : Fld := ⟨8, 8⟩
def F.AXIS_n_PINS.EN_PIN : Fld := ⟨16, 8⟩
def F.AXIS_n_STEP_CFG.STEP_W_M1 : Fld := ⟨0, 6⟩
def F.AXIS_n_STEP_CFG.DIR_SETUP : Fld := ⟨8, 8⟩
def F.AXIS_n_STEP_CFG.STEP_POL : Fld := ⟨16, 1⟩
def F.AXIS_n_STEP_CFG.DIR_POL : Fld := ⟨17, 1⟩
def F.AXIS_n_STEP_CFG.EN_POL : Fld := ⟨18, 1⟩
def F.AXIS_n_LIMIT_CFG.LIM_POS_PIN : Fld := ⟨0, 8⟩
def F.AXIS_n_LIMIT_CFG.LIM_NEG_PIN : Fld := ⟨8, 8⟩
def F.AXIS_n_LIMIT_CFG.HOME_PIN : Fld := ⟨16, 8⟩
def F.AXIS_n_LIMIT_CFG.LIM_POL : Fld := ⟨24, 1⟩
def F.AXIS_n_LIMIT_CFG.HOME_POL : Fld := ⟨25, 1⟩
def F.AXIS_n_LIMIT_CFG.SOFT_EN : Fld := ⟨26, 1⟩
def F.AXIS_n_ENC_CFG.ENC : Fld := ⟨0, 6⟩
def F.AXIS_n_ENC_CFG.CHECK : Fld := ⟨6, 1⟩
def F.AXIS_n_ENC_CFG.ADOPT : Fld := ⟨7, 1⟩
def F.AXIS_n_ENC_TOL.TOL : Fld := ⟨0, 16⟩
def F.AXIS_n_ENC_TOL.FOLLOW_TOL : Fld := ⟨16, 16⟩
def F.ENC_m_CFG.PIN_A : Fld := ⟨0, 8⟩
def F.ENC_m_CFG.PIN_B : Fld := ⟨8, 8⟩
def F.ENC_m_CFG.PIN_I : Fld := ⟨16, 8⟩
def F.ENC_m_CFG.EN : Fld := ⟨24, 1⟩
def F.ENC_m_CFG.INVERT : Fld := ⟨25, 1⟩
def F.ENC_m_CFG.IDX_POL : Fld := ⟨26, 1⟩
def F.ENC_m_STATUS.QUAD_ERR : Fld := ⟨0, 1⟩
def F.ENC_m_STATUS.LEVEL_A : Fld := ⟨1, 1⟩
def F.ENC_m_STATUS.LEVEL_B : Fld := ⟨2, 1⟩
def F.ENC_m_STATUS.LEVEL_INDEX : Fld := ⟨3, 1⟩
def F.CHOP_GEVENTS.SINE_REFUSED : Fld := ⟨0, 1⟩
def F.CHOP_c_CTRL.EN : Fld := ⟨0, 1⟩
def F.CHOP_c_CTRL.GATE_POL : Fld := ⟨1, 1⟩
def F.CHOP_c_TIMING.OFF_TICKS : Fld := ⟨0, 6⟩
def F.CHOP_c_TIMING.BLANK_M1 : Fld := ⟨8, 4⟩
def F.CHOP_c_TIMING.FAST_16 : Fld := ⟨16, 5⟩
def F.CHOP_c_TIMING.DEAD_M : Fld := ⟨24, 4⟩
def F.CHOP_c_CURRENT.I_MOVE : Fld := ⟨0, 8⟩
def F.CHOP_c_CURRENT.I_REST : Fld := ⟨8, 8⟩
def F.CHOP_c_CURRENT.REST_DELAY : Fld := ⟨16, 8⟩
def F.CHOP_c_CURRENT.REST_RAMP : Fld := ⟨24, 8⟩
def F.CHOP_c_MSTEP.USTEP : Fld := ⟨0, 4⟩
def F.CHOP_c_MSTEP.PHASE_OFS : Fld := ⟨16, 10⟩
def F.CHOP_c_STATUS.STATE_A : Fld := ⟨0, 3⟩
def F.CHOP_c_STATUS.STATE_B : Fld := ⟨4, 3⟩
def F.CHOP_c_STATUS.RESTING : Fld := ⟨7, 1⟩
def F.CHOP_c_STATUS.IDX : Fld := ⟨8, 10⟩
def F.CHOP_c_STATUS.NEG_A : Fld := ⟨18, 1⟩
def F.CHOP_c_STATUS.NEG_B : Fld := ⟨19, 1⟩
def F.CHOP_c_EVENTS.SHORT_A : Fld := ⟨0, 1⟩
def F.CHOP_c_EVENTS.SHORT_B : Fld := ⟨1, 1⟩
def F.CHOP_c_EVENTS.OPEN_A : Fld := ⟨2, 1⟩
def F.CHOP_c_EVENTS.OPEN_B : Fld := ⟨3, 1⟩
def F.CHOP_c_EVENTS.CFG_REFUSED : Fld := ⟨4, 1⟩
def F.CHOP_c_OPEN_CFG.OPEN_TICKS : Fld := ⟨0, 8⟩
def F.FIELD_EVENTS.STATION_LOST : Fld := ⟨0, 1⟩
def F.FIELD_EVENTS.STATION_JOINED : Fld := ⟨1, 1⟩
def F.FIELD_EVENTS.REFUSED : Fld := ⟨2, 1⟩
def F.FIELD_EVENTS.MISSING : Fld := ⟨3, 1⟩
def F.FIELD_EVENTS.LINK_DOWN : Fld := ⟨4, 1⟩
def F.FIELD_EVENTS.PATH_DOWN : Fld := ⟨5, 1⟩
def F.FIELD_EVENTS.FOREIGN_MASTER : Fld := ⟨6, 1⟩
def F.FIELD_EVENTS.CFG_REFUSED : Fld := ⟨7, 1⟩
def F.FIELD_EVENTS.REC_OVERFLOW : Fld := ⟨8, 1⟩
def F.FIELD_EVT_DESC.EN : Fld := ⟨12, 1⟩
def F.FIELD_p_CTRL.EN : Fld := ⟨0, 1⟩
def F.FIELD_p_CTRL.MODE : Fld := ⟨1, 2⟩
def F.FIELD_p_CTRL.SPEED : Fld := ⟨3, 2⟩
def F.FIELD_p_CTRL.JUMBO : Fld := ⟨5, 1⟩
def F.FIELD_p_CTRL.PAIR : Fld := ⟨6, 1⟩
def F.FIELD_p_CTRL.POLL : Fld := ⟨7, 1⟩
def F.FIELD_p_STATUS.RUNNING : Fld := ⟨0, 1⟩
def F.FIELD_p_STATUS.LINK : Fld := ⟨1, 1⟩
def F.FIELD_p_STATUS.PATH_DOWN : Fld := ⟨2, 1⟩
def F.FIELD_p_STATUS.OPERATIONAL : Fld := ⟨8, 9⟩
def F.FIELD_p_STATUS.MISSING : Fld := ⟨18, 9⟩
def F.FIELD_p_CYCLE.FC_K : Fld := ⟨0, 10⟩
def F.FIELD_p_CYCLE.FC_PHASE : Fld := ⟨16, 10⟩
def F.FIELD_p_LIMITS.LOST_LIMIT : Fld := ⟨0, 4⟩
def F.FIELD_p_LIMITS.JOIN_LIMIT : Fld := ⟨4, 12⟩
def F.FIELD_p_LIMITS.REC_RESERVE : Fld := ⟨16, 13⟩
def F.FIELD_p_MDIO.DATA : Fld := ⟨0, 16⟩
def F.FIELD_p_MDIO.REG : Fld := ⟨16, 5⟩
def F.FIELD_p_MDIO.PHYAD : Fld := ⟨21, 5⟩
def F.FIELD_p_MDIO.WRITE : Fld := ⟨26, 1⟩
def F.FIELD_p_MDIO.GO : Fld := ⟨27, 1⟩
def F.FIELD_p_MDIO.BUSY : Fld := ⟨28, 1⟩
def F.FIELD_p_s_STATUS.STATE : Fld := ⟨0, 3⟩
def F.FIELD_p_s_STATUS.MISS : Fld := ⟨4, 4⟩
def F.FIELD_p_s_STATUS.IN_DOUBT : Fld := ⟨8, 1⟩
def F.FIELD_p_s_STATUS.OUT_CONFIRMED : Fld := ⟨9, 1⟩
def F.FIELD_p_s_STATUS.STN_SAFE : Fld := ⟨10, 1⟩
def F.FIELD_p_s_STATUS.WD_TRIPPED : Fld := ⟨11, 1⟩
def F.FIELD_p_s_STATUS.REFUSE : Fld := ⟨12, 3⟩
def F.FIELD_p_s_STATUS.PATH_A_OK : Fld := ⟨16, 1⟩
def F.FIELD_p_s_STATUS.PATH_B_OK : Fld := ⟨17, 1⟩
def F.FIELD_p_s_CTRL.SERVICE : Fld := ⟨0, 1⟩
def F.FIELD_p_s_COUNTS.SLOT_ERR : Fld := ⟨16, 16⟩
def F.CAN_EVENTS.NODE_LOST : Fld := ⟨0, 1⟩
def F.CAN_EVENTS.REFUSED : Fld := ⟨1, 1⟩
def F.CAN_EVENTS.MISSING : Fld := ⟨2, 1⟩
def F.CAN_EVENTS.BUS_OFF : Fld := ⟨3, 1⟩
def F.CAN_EVENTS.EMCY : Fld := ⟨4, 1⟩
def F.CAN_EVENTS.CFG_REFUSED : Fld := ⟨5, 1⟩
def F.CAN_EVT_DESC.EN : Fld := ⟨12, 1⟩
def F.CAN_p_CTRL.EN : Fld := ⟨0, 1⟩
def F.CAN_p_CTRL.FD : Fld := ⟨1, 1⟩
def F.CAN_p_CTRL.BRS : Fld := ⟨2, 1⟩
def F.CAN_p_CTRL.LOST_LIMIT : Fld := ⟨16, 4⟩
def F.CAN_p_STATUS.TEC : Fld := ⟨8, 8⟩
def F.CAN_p_STATUS.REC : Fld := ⟨16, 8⟩
def F.CAN_p_NBIT.BITLEN : Fld := ⟨0, 20⟩
def F.CAN_p_NBIT.SP : Fld := ⟨20, 8⟩
def F.CAN_p_NBIT.SJW : Fld := ⟨28, 4⟩
def F.CAN_p_CYCLE.CC_K : Fld := ⟨0, 10⟩
def F.CAN_p_CYCLE.CC_PHASE : Fld := ⟨16, 10⟩
def F.CAN_p_SDO_CMD.KEY : Fld := ⟨16, 16⟩
def F.CAN_p_n_COUNTS.EMCY : Fld := ⟨0, 16⟩
def F.SER_EVENTS.SLAVE_LOST : Fld := ⟨0, 1⟩
def F.SER_EVENTS.MISSING : Fld := ⟨1, 1⟩
def F.SER_EVENTS.SCAN_OVR : Fld := ⟨2, 1⟩
def F.SER_EVENTS.CFG_REFUSED : Fld := ⟨3, 1⟩
def F.SER_EVT_DESC.EN : Fld := ⟨12, 1⟩
def F.SER_p_CTRL.EN : Fld := ⟨0, 1⟩
def F.SER_p_BAUD.BITLEN : Fld := ⟨0, 24⟩
def F.SER_p_CYCLE.SC_K : Fld := ⟨0, 10⟩
def F.SER_p_CYCLE.SC_PHASE : Fld := ⟨16, 10⟩
def F.SER_p_TIMING.RESP_MS : Fld := ⟨0, 16⟩
def F.SER_p_TIMING.RETRIES : Fld := ⟨16, 4⟩
def F.SER_p_TIMING.LOST_LIMIT : Fld := ⟨20, 4⟩
def F.SER_p_TIMING.TURN_MS : Fld := ⟨24, 8⟩
def F.SER_p_STATUS.SCANNING : Fld := ⟨0, 1⟩
def F.GPIO_EVENTS.PIN_CONFLICT : Fld := ⟨0, 1⟩
def F.GPIO_EVENTS.CFG_REFUSED : Fld := ⟨1, 1⟩
def F.GPIO_e_EVT.PIN : Fld := ⟨0, 8⟩
def F.GPIO_e_EVT.EDGE : Fld := ⟨8, 2⟩
def F.GPIO_e_EVT.DESC : Fld := ⟨10, 12⟩
def F.GPIO_i_CFG.MODE : Fld := ⟨0, 2⟩
def F.GPIO_i_CFG.AXIS : Fld := ⟨2, 1⟩
def F.GPIO_i_CFG.PULL : Fld := ⟨4, 2⟩
def F.GPIO_i_CFG.FILT : Fld := ⟨16, 16⟩
def F.JOA_CTRL.UDP4_EN : Fld := ⟨0, 1⟩
def F.JOA_CTRL.UDP6_EN : Fld := ⟨1, 1⟩
def F.JOA_CTRL.RAW_EN : Fld := ⟨2, 1⟩
def F.JOA_EVENTS.SESSION_OPENED : Fld := ⟨0, 1⟩
def F.JOA_EVENTS.SESSION_CLOSED : Fld := ⟨1, 1⟩
def F.JOA_EVENTS.AUTH_FAIL : Fld := ⟨2, 1⟩
def F.JOA_EVENTS.REPLAY : Fld := ⟨3, 1⟩
def F.JOA_EVENTS.STREAM_RESEND : Fld := ⟨4, 1⟩
def F.JOA_EVENTS.SUB_SKIPPED : Fld := ⟨5, 1⟩
def F.JOA_EVENTS.CFG_REFUSED : Fld := ⟨6, 1⟩
def F.JOA_EVENTS.XFER_ABORTED : Fld := ⟨7, 1⟩
def F.JOA_UDP_PORT.UDP : Fld := ⟨0, 16⟩
def F.JOA_STREAM_CFG.RESEND_MS : Fld := ⟨0, 16⟩
def F.JOA_s_STATUS.STATE : Fld := ⟨0, 2⟩
def F.JOA_s_STATUS.ROLE : Fld := ⟨2, 3⟩
def F.JOA_s_STATUS.TRANSPORT : Fld := ⟨5, 2⟩
def F.JOA_s_STATUS.UPLINK : Fld := ⟨7, 1⟩
def F.JOA_s_STATUS.IN_PROGRESS : Fld := ⟨8, 5⟩
def F.JOA_s_STATUS.STREAM : Fld := ⟨13, 1⟩
def F.JOA_s_STATUS.MAX_PAYLOAD : Fld := ⟨16, 14⟩
def F.JOA_s_CTRL.CLOSE : Fld := ⟨0, 1⟩
def F.JOA_s_CTRL.KEY : Fld := ⟨16, 16⟩
def F.JOA_w_PROXY_CFG.KIND : Fld := ⟨0, 2⟩
def F.JOA_w_PROXY_CFG.PORT : Fld := ⟨2, 2⟩
def F.JOA_w_PROXY_CFG.NODE : Fld := ⟨8, 8⟩
def F.JOA_w_PROXY_CFG.REMOTE_BASE : Fld := ⟨16, 16⟩
def F.SYS_FARM.FARM_ID : Fld := ⟨0, 3⟩
def F.SYS_RESET.KIND : Fld := ⟨0, 2⟩
def F.SYS_RESET.KEY : Fld := ⟨16, 16⟩
def F.SYS_RESET_CAUSE.KIND : Fld := ⟨0, 2⟩
def F.SYS_RESET_CAUSE.SOURCE : Fld := ⟨4, 4⟩
def F.SYS_EVENTS.UNMAPPED : Fld := ⟨0, 1⟩
def F.SYS_EVENTS.EVLOG_OVF : Fld := ⟨1, 1⟩
def F.SYS_EVENTS.PERSIST_MISMATCH : Fld := ⟨2, 1⟩
def F.UPLINK_EVENTS.LINK_DOWN : Fld := ⟨0, 2⟩
def F.UPLINK_EVENTS.CFG_REFUSED : Fld := ⟨2, 1⟩
def F.UPLINK_p_CTRL.EN : Fld := ⟨0, 1⟩
def F.UPLINK_p_CTRL.MODE : Fld := ⟨1, 1⟩
def F.UPLINK_p_CTRL.AN : Fld := ⟨2, 1⟩
def F.UPLINK_p_CTRL.JUMBO : Fld := ⟨3, 1⟩
def F.UPLINK_p_STATUS.LINK : Fld := ⟨0, 1⟩
def F.UPLINK_p_STATUS.LOCK : Fld := ⟨1, 1⟩
def F.UPLINK_p_STATUS.AN_DONE : Fld := ⟨2, 1⟩
def F.UPLINK_p_STATUS.REMOTE_FAULT : Fld := ⟨3, 1⟩
def F.PTP_CTRL.EN : Fld := ⟨0, 1⟩
def F.PTP_CTRL.AUTO_SEAT : Fld := ⟨1, 1⟩
def F.PTP_CTRL.TRANSPORT : Fld := ⟨2, 2⟩
def F.PTP_CTRL.P2P : Fld := ⟨4, 1⟩
def F.PTP_CTRL.ONE_STEP : Fld := ⟨5, 1⟩
def F.PTP_CTRL.DOMAIN : Fld := ⟨8, 8⟩
def F.PTP_CTRL.ANN_TIMEOUT : Fld := ⟨16, 4⟩
def F.PTP_STATUS.SERVO : Fld := ⟨0, 3⟩
def F.PTP_STATUS.SYNT_ONLY : Fld := ⟨4, 1⟩
def F.PTP_STATUS.ASYM_SUSPECT : Fld := ⟨5, 1⟩
def F.PTP_STATUS.PARENT_VALID : Fld := ⟨6, 1⟩
def F.PTP_STATUS.PARENT_UPLINK : Fld := ⟨7, 1⟩
def F.PTP_STATUS.FOLLOWER : Fld := ⟨8, 1⟩
def F.PTP_EVENTS.FIRST_LOCK : Fld := ⟨0, 1⟩
def F.PTP_EVENTS.SEATED_STEP : Fld := ⟨1, 1⟩
def F.PTP_EVENTS.SEATED_RATE : Fld := ⟨2, 1⟩
def F.PTP_EVENTS.SYNT_ONLY : Fld := ⟨3, 1⟩
def F.PTP_EVENTS.PATH_CHANGE : Fld := ⟨4, 1⟩
def F.PTP_EVENTS.ASYM_SUSPECT : Fld := ⟨5, 1⟩
def F.PTP_EVENTS.SOURCE_CHANGE : Fld := ⟨6, 1⟩
def F.PTP_EVENTS.SOURCE_LOST : Fld := ⟨7, 1⟩
def F.PTP_EVENTS.LOCK_LOST : Fld := ⟨8, 1⟩
def F.PTP_EVENTS.CFG_REFUSED : Fld := ⟨9, 1⟩
def F.PTP_SERVO_CFG.KP_SHIFT : Fld := ⟨0, 4⟩
def F.PTP_SERVO_CFG.KI_SHIFT : Fld := ⟨4, 4⟩
def F.PTP_SERVO_CFG.SLEW_PPM : Fld := ⟨16, 9⟩
def F.PTP_LOCK_CFG.LOCK_THR : Fld := ⟨0, 16⟩
def F.PTP_LOCK_CFG.LOCK_COUNT : Fld := ⟨16, 8⟩
def F.PTP_PATH_CFG.PATH_JUMP_THR : Fld := ⟨0, 16⟩
def F.PTP_PATH_CFG.HOLD_S : Fld := ⟨16, 8⟩
def F.PTP_SEAT_MAX.SEAT_MAX : Fld := ⟨0, 16⟩
def F.PTP_q_COMP.INGRESS : Fld := ⟨0, 16⟩
def F.PTP_q_COMP.EGRESS : Fld := ⟨16, 16⟩
def F.PTP_q_CFG.EN : Fld := ⟨0, 1⟩
def F.PTP_q_CFG.LOG_SYNC : Fld := ⟨4, 4⟩
def F.PTP_q_CFG.LOG_ANNOUNCE : Fld := ⟨8, 4⟩
def F.PTP_q_CFG.P2P : Fld := ⟨12, 1⟩
def F.PTP_q_CFG.CLASS : Fld := ⟨16, 8⟩
def F.SAFEMIR_STATUS.ISLAND : Fld := ⟨0, 3⟩
def F.SAFEMIR_STATUS.MIRROR_VALID : Fld := ⟨3, 1⟩
def F.SAFEMIR_STATUS.SET_PENDING : Fld := ⟨4, 1⟩
def F.SAFEMIR_STATUS.SRESET_STUCK : Fld := ⟨5, 1⟩
def F.SAFEMIR_STATUS.OUT_ON : Fld := ⟨8, 8⟩
def F.SAFEMIR_STATUS.OUT_READY : Fld := ⟨16, 8⟩
def F.SAFEMIR_EVENTS.DEMAND : Fld := ⟨0, 1⟩
def F.SAFEMIR_EVENTS.IN_LATCH : Fld := ⟨1, 1⟩
def F.SAFEMIR_EVENTS.OUT_LATCH : Fld := ⟨2, 1⟩
def F.SAFEMIR_EVENTS.ISLAND_FAULT : Fld := ⟨3, 1⟩
def F.SAFEMIR_EVENTS.MIRROR_LOST : Fld := ⟨4, 1⟩
def F.SAFEMIR_EVENTS.RESET_REFUSED : Fld := ⟨5, 1⟩
def F.SAFEMIR_EVENTS.CMD_REFUSED : Fld := ⟨6, 1⟩
def F.SAFEMIR_EVENTS.SET_PENDING : Fld := ⟨7, 1⟩
def F.SAFEMIR_EVENTS.SET_REFUSED : Fld := ⟨8, 1⟩
def F.SAFEMIR_REQ.REQ : Fld := ⟨0, 8⟩
def F.SAFEMIR_REQ.DROP_ON_STOP : Fld := ⟨8, 1⟩
def F.SAFEMIR_CMD.OP : Fld := ⟨0, 2⟩
def F.SAFEMIR_CMD.KEY : Fld := ⟨16, 16⟩
def F.SAFEMIR_FAULT_LOG.CAUSE : Fld := ⟨0, 4⟩
def F.SAFEMIR_FAULT_LOG.OUTPUT : Fld := ⟨4, 3⟩
def F.SAFEMIR_FAULT_LOG.SIDE : Fld := ⟨7, 1⟩
def F.SAFEMIR_FAULT_LOG.TICK : Fld := ⟨16, 16⟩
def F.SAFEMIR_i_IN.CH_A : Fld := ⟨0, 1⟩
def F.SAFEMIR_i_IN.CH_B : Fld := ⟨1, 1⟩
def F.SAFEMIR_i_IN.IN_OK : Fld := ⟨2, 1⟩
def F.SAFEMIR_i_IN.DEMAND : Fld := ⟨3, 1⟩
def F.SAFEMIR_i_IN.LATCH : Fld := ⟨4, 3⟩
def F.SAFEMIR_i_IN.LATCH_MASTIFF : Fld := ⟨7, 1⟩
def F.SAFEMIR_i_IN.CLEAR_ARMED : Fld := ⟨8, 1⟩
def F.SAFEMIR_i_IN.DISC_COUNT : Fld := ⟨16, 14⟩
def F.SAFEMIR_n_OUT.HS_CMD : Fld := ⟨0, 1⟩
def F.SAFEMIR_n_OUT.LS_CMD : Fld := ⟨1, 1⟩
def F.SAFEMIR_n_OUT.SFB : Fld := ⟨2, 1⟩
def F.SAFEMIR_n_OUT.STATE : Fld := ⟨3, 3⟩
def F.SAFEMIR_n_OUT.LATCH : Fld := ⟨8, 2⟩
def F.SAFEMIR_n_OUT.PERMIT_CORE : Fld := ⟨10, 1⟩
def F.SAFEMIR_n_OUT.PERMIT_MASTIFF : Fld := ⟨11, 1⟩
def F.SAFEMIR_n_OUT.DARK_CNT : Fld := ⟨16, 16⟩
def F.MEM_EVENTS.CE : Fld := ⟨0, 1⟩
def F.MEM_EVENTS.UE : Fld := ⟨1, 1⟩
def F.MEM_EVENTS.COLLIDED : Fld := ⟨2, 1⟩
def F.MEM_EVENTS.VIOLATION : Fld := ⟨3, 1⟩
def F.MEM_EVENTS.WEAK : Fld := ⟨4, 1⟩
def F.MEM_EVENTS.FALLOW_FAIL : Fld := ⟨5, 1⟩
def F.MEM_EVENTS.SOFT_REPAIR : Fld := ⟨6, 1⟩
def F.MEM_EVENTS.NO_SPARE : Fld := ⟨7, 1⟩
def F.MEM_HARROW_CFG.EN : Fld := ⟨0, 1⟩
def F.MEM_HARROW_CFG.DIV : Fld := ⟨16, 16⟩
def F.MEM_FALLOW_CFG.EN : Fld := ⟨0, 1⟩
def F.MEM_FALLOW_CFG.GAP : Fld := ⟨16, 16⟩
def F.MEM_k_CFG.SECWIN : Fld := ⟨0, 12⟩
def F.MEM_k_CFG.OWNED : Fld := ⟨16, 1⟩
def F.MEM_k_OWNER.OWNER : Fld := ⟨0, 3⟩
def F.MEM_k_OWNER.DRAINING : Fld := ⟨3, 1⟩
def F.MEM_k_OWNER.KEY : Fld := ⟨16, 16⟩
def F.BIST_CTRL.EN : Fld := ⟨0, 1⟩
def F.BIST_CTRL.RESTART : Fld := ⟨1, 1⟩
def F.BIST_CTRL.BUDGET_MS : Fld := ⟨16, 16⟩
def F.BIST_STATUS.STATE : Fld := ⟨0, 2⟩
def F.BIST_STATUS.UNIT : Fld := ⟨8, 8⟩
def F.BIST_STATUS.PENDING : Fld := ⟨16, 1⟩
def F.BIST_EVENTS.PASS_DONE : Fld := ⟨0, 1⟩
def F.BIST_EVENTS.FAIL : Fld := ⟨1, 1⟩
def F.BIST_EVENTS.NO_SPARE : Fld := ⟨2, 1⟩
def F.BIST_EVENTS.STORE_FULL : Fld := ⟨3, 1⟩
def F.GRAN_STATUS.READY : Fld := ⟨0, 1⟩
def F.GRAN_STATUS.LIMITED : Fld := ⟨1, 1⟩
def F.GRAN_STATUS.PF_ACTIVE : Fld := ⟨2, 1⟩
def F.GRAN_STATUS.NO_SPARE : Fld := ⟨3, 1⟩
def F.GRAN_STATUS.SEGMENT : Fld := ⟨8, 8⟩
def F.GRAN_EVENTS.RECOVERED : Fld := ⟨0, 1⟩
def F.GRAN_EVENTS.CKPT_NONE : Fld := ⟨1, 1⟩
def F.GRAN_EVENTS.REMAP : Fld := ⟨2, 1⟩
def F.GRAN_EVENTS.NO_SPARE : Fld := ⟨3, 1⟩
def F.GRAN_EVENTS.PF_SHORT : Fld := ⟨4, 1⟩
def F.GRAN_EVENTS.WEAR_SWAP : Fld := ⟨5, 1⟩
def F.SEC_STATUS.LIFECYCLE : Fld := ⟨0, 3⟩
def F.SEC_STATUS.KEYS : Fld := ⟨3, 1⟩
def F.SEC_STATUS.DEBUG_UNLOCKED : Fld := ⟨4, 1⟩
def F.SEC_STATUS.LMS_EXHAUSTED : Fld := ⟨5, 1⟩
def F.SEC_STATUS.WIPE_PENDING : Fld := ⟨6, 1⟩
def F.SEC_STATUS.BUSY : Fld := ⟨7, 1⟩
def F.SEC_EVENTS.TAMPER : Fld := ⟨0, 1⟩
def F.SEC_EVENTS.IMAGE_REFUSED : Fld := ⟨1, 1⟩
def F.SEC_EVENTS.LIFECYCLE : Fld := ⟨2, 1⟩
def F.SEC_EVENTS.LMS_LOW : Fld := ⟨3, 1⟩
def F.SEC_EVENTS.CMD_REFUSED : Fld := ⟨4, 1⟩
def F.SEC_EVENTS.DEBUG_UNLOCK : Fld := ⟨5, 1⟩
def F.SEC_EVENTS.ROLLBACK_ADVANCED : Fld := ⟨6, 1⟩
def F.SEC_CMD.OP : Fld := ⟨0, 4⟩
def F.SEC_CMD.SLOT : Fld := ⟨4, 2⟩
def F.SEC_CMD.SCHEME : Fld := ⟨6, 1⟩
def F.SEC_CMD.KEY : Fld := ⟨16, 16⟩
def F.SEC_CMD_RESULT.OP : Fld := ⟨0, 4⟩
def F.SEC_CMD_RESULT.CODE : Fld := ⟨8, 8⟩
def F.SEC_ROOT_SLOTS.ECDSA : Fld := ⟨0, 4⟩
def F.SEC_ROOT_SLOTS.LMS : Fld := ⟨8, 4⟩
def F.SEC_TAMPER_LOG.COUNT : Fld := ⟨16, 16⟩
def F.DRUS_CTRL.EN : Fld := ⟨0, 1⟩
def F.DRUS_CTRL.REMOTE_WR : Fld := ⟨1, 1⟩
def F.DRUS_STATUS.FARM_ID : Fld := ⟨0, 3⟩
def F.DRUS_STATUS.LEAD : Fld := ⟨3, 1⟩
def F.DRUS_STATUS.FARM_LOCKED : Fld := ⟨4, 1⟩
def F.DRUS_STATUS.HOLDOVER : Fld := ⟨5, 1⟩
def F.DRUS_EVENTS.LINK_DOWN : Fld := ⟨0, 1⟩
def F.DRUS_EVENTS.DEVICE_LOST : Fld := ⟨1, 1⟩
def F.DRUS_EVENTS.DEVICE_JOINED : Fld := ⟨2, 1⟩
def F.DRUS_EVENTS.LOCK_LOST : Fld := ⟨3, 1⟩
def F.DRUS_EVENTS.CFG_REFUSED : Fld := ⟨4, 1⟩
def F.DRUS_EVENTS.PATH_LONG : Fld := ⟨5, 1⟩
def F.DRUS_EVENTS.REMOTE_REFUSED : Fld := ⟨6, 1⟩
def F.DRUS_EVENTS.PEER_DOUBT_EXPIRED : Fld := ⟨7, 1⟩
def F.DRUS_EVENTS.TWIN_TAKEOVER : Fld := ⟨8, 1⟩
def F.DRUS_EVENTS.TWIN_DEGRADED : Fld := ⟨9, 1⟩
def F.DRUS_EVENTS.TWIN_FAILED : Fld := ⟨10, 1⟩
def F.DRUS_EVT_DESC.EN : Fld := ⟨12, 1⟩
def F.DRUS_TWIN_CFG.PARTNER : Fld := ⟨0, 3⟩
def F.DRUS_TWIN_CFG.STANDBY : Fld := ⟨4, 1⟩
def F.DRUS_TWIN_CFG.EN : Fld := ⟨8, 1⟩
def F.DRUS_TWIN_STATUS.TWIN_STATE : Fld := ⟨0, 3⟩
def F.DRUS_TWIN_STATUS.EPOCH : Fld := ⟨16, 16⟩
def F.DRUS_p_CTRL.EN : Fld := ⟨0, 1⟩
def F.DRUS_p_STATUS.UP : Fld := ⟨0, 1⟩
def F.DRUS_p_STATUS.ONE_LANE : Fld := ⟨1, 1⟩
def F.DRUS_p_STATUS.PEER : Fld := ⟨4, 3⟩
def F.DRUS_p_STATUS.REFUSE : Fld := ⟨8, 3⟩
def F.DRUS_p_COMP.INGRESS : Fld := ⟨0, 16⟩
def F.DRUS_p_COMP.EGRESS : Fld := ⟨16, 16⟩
def F.CLK_STATUS.PLL_LOCKED : Fld := ⟨0, 1⟩
def F.CLK_STATUS.XIN_EXT : Fld := ⟨1, 1⟩
def F.CLK_STATUS.SVC_STATE : Fld := ⟨2, 2⟩
def F.CLK_STATUS.SVCRST_STUCK : Fld := ⟨4, 1⟩
def F.CLK_STATUS.PFAIL : Fld := ⟨5, 1⟩
def F.CLK_STATUS.FW_SLOT : Fld := ⟨6, 1⟩
def F.CLK_STATUS.FW_TRIAL : Fld := ⟨7, 1⟩
def F.CLK_EVENTS.WDOG_RESET : Fld := ⟨0, 1⟩
def F.CLK_EVENTS.SVCRST_STUCK : Fld := ⟨1, 1⟩
def F.CLK_EVENTS.SVC_LOW_AT_START : Fld := ⟨2, 1⟩
def F.CLK_EVENTS.PFAIL : Fld := ⟨3, 1⟩
def F.CLK_EVENTS.PF_RELEASED : Fld := ⟨4, 1⟩
def F.CLK_EVENTS.FW_FALLBACK : Fld := ⟨5, 1⟩
def F.CLK_EVENTS.FW_CONFIRMED : Fld := ⟨6, 1⟩
def F.CLK_EVENTS.SHUT_DONE : Fld := ⟨7, 1⟩
def F.CLK_EVENTS.CMD_REFUSED : Fld := ⟨8, 1⟩
def F.CLK_WDOG_CFG.TIMEOUT_MS : Fld := ⟨0, 14⟩
def F.CLK_WDOG_KICK.KEY : Fld := ⟨16, 16⟩
def F.CLK_CMD.OP : Fld := ⟨0, 3⟩
def F.CLK_CMD.SLOT : Fld := ⟨3, 1⟩
def F.CLK_CMD.KEY : Fld := ⟨16, 16⟩
def F.CLK_SHUT_STATUS.STEP : Fld := ⟨0, 3⟩
def F.CLK_SHUT_STATUS.RESULT : Fld := ⟨4, 2⟩
def F.CLK_SHUT_STATUS.FLUSH_TIMEOUT : Fld := ⟨6, 1⟩
def F.CLK_SHUT_STATUS.ELAPSED_MS : Fld := ⟨16, 16⟩
def F.CLK_SHUT_CFG.FLUSH_MS : Fld := ⟨0, 16⟩
def F.CLK_SHUT_CFG.SAFE_CYCLES : Fld := ⟨16, 4⟩
def F.LINKTEST_EVENTS.LOCK_LOST : Fld := ⟨0, 1⟩
def F.LINKTEST_EVENTS.FRAME_BAD : Fld := ⟨1, 1⟩
def F.LINKTEST_EVENTS.CFG_REFUSED : Fld := ⟨2, 1⟩
def F.LINKTEST_l_CTRL.LOOP : Fld := ⟨0, 2⟩
def F.LINKTEST_l_CTRL.PRBS : Fld := ⟨2, 1⟩
def F.LINKTEST_l_CTRL.PATTERN : Fld := ⟨4, 3⟩
def F.LINKTEST_l_CTRL.INVERT : Fld := ⟨7, 1⟩
def F.LINKTEST_l_CTRL.INJECT : Fld := ⟨8, 1⟩
def F.LINKTEST_l_CTRL.CLR : Fld := ⟨9, 1⟩
def F.LINKTEST_l_STATUS.LOCK : Fld := ⟨0, 1⟩
def F.LINKTEST_l_STATUS.SIGNAL : Fld := ⟨1, 1⟩
def F.LINKTEST_l_STATUS.CDR_LOCK : Fld := ⟨2, 1⟩
def F.LINKTEST_f_FCTRL.START : Fld := ⟨0, 1⟩
def F.LINKTEST_f_FCTRL.STOP : Fld := ⟨1, 1⟩
def F.LINKTEST_f_FCTRL.CLR : Fld := ⟨2, 1⟩
def F.LINKTEST_f_FCTRL.CHECK : Fld := ⟨3, 1⟩
def F.LINKTEST_f_FCTRL.PAYLOAD : Fld := ⟨4, 2⟩
def F.LINKTEST_f_FCTRL.INT_LOOP : Fld := ⟨6, 1⟩
def F.LINKTEST_f_FCTRL.LEN : Fld := ⟨8, 12⟩
def F.LINKTEST_f_FCTRL.GAP : Fld := ⟨20, 12⟩
def F.DDR_CTRL.EN : Fld := ⟨0, 1⟩
def F.DDR_CTRL.RANKS : Fld := ⟨1, 1⟩
def F.DDR_CTRL.DENSITY : Fld := ⟨2, 2⟩
def F.DDR_CTRL.RETRAIN : Fld := ⟨4, 1⟩
def F.DDR_STATUS.READY : Fld := ⟨0, 1⟩
def F.DDR_STATUS.TRAINING : Fld := ⟨1, 1⟩
def F.DDR_STATUS.TRAIN_FAILED : Fld := ⟨2, 1⟩
def F.DDR_STATUS.TESTING : Fld := ⟨3, 1⟩
def F.DDR_EVENTS.CE : Fld := ⟨0, 1⟩
def F.DDR_EVENTS.UE : Fld := ⟨1, 1⟩
def F.DDR_EVENTS.TRAIN_FAILED : Fld := ⟨2, 1⟩
def F.DDR_EVENTS.TEST_FAIL : Fld := ⟨3, 1⟩
def F.DDR_EVENTS.CFG_REFUSED : Fld := ⟨4, 1⟩
def F.DDR_TEST_CTRL.START : Fld := ⟨0, 1⟩
def F.DDR_TEST_CTRL.PATTERN : Fld := ⟨1, 2⟩
def F.XSPI_STATUS.MODE : Fld := ⟨0, 2⟩
def F.XSPI_STATUS.BUSY : Fld := ⟨2, 1⟩
def F.XSPI_STATUS.SFDP_OK : Fld := ⟨3, 1⟩
def F.XSPI_EVENTS.PROG_FAIL : Fld := ⟨0, 1⟩
def F.XSPI_EVENTS.SLOW_MODE : Fld := ⟨1, 1⟩
def F.XSPI_EVENTS.SFDP_BAD : Fld := ⟨2, 1⟩

end Sys2Proof.Machine
end

