-- ==== Sys2Proof/Machine/RegMap.lean ====
section
/-! DEFINITION. The register map the bus sees: for each register its place (base, and up to two array
strides with their counts and first indices), the masks of its writable, write-1-to-clear, read-to-clear and
write-only bits (R13, R14), its reset value, and whether it is a half of a pair (R15). Reserved bits are in no mask. -/

namespace Sys2Proof.Machine

/-- Block SYS (b = 0x00). -/
def regMapSYS : List RegDesc :=
  [⟨0x0, 1, 0x0, 0, 1, 0x0, 0, 0x0, 0x0, 0x0, 0x0, 0x5493600, 0⟩,
   ⟨0x4, 1, 0x0, 0, 1, 0x0, 0, 0x0, 0x0, 0x0, 0x0, 0x3043, 0⟩,
   ⟨0x8, 1, 0x0, 0, 1, 0x0, 0, 0x0, 0x0, 0x0, 0x0, 0x0, 0⟩,
   ⟨0xC, 1, 0x0, 0, 1, 0x0, 0, 0x0, 0x0, 0x0, 0xFFFF0003, 0x0, 0⟩,
   ⟨0x10, 1, 0x0, 0, 1, 0x0, 0, 0x0, 0x0, 0x0, 0x0, 0x0, 0⟩,
   ⟨0x14, 1, 0x0, 0, 1, 0x0, 0, 0x0, 0x7, 0x0, 0x0, 0x0, 0⟩,
   ⟨0x18, 1, 0x0, 0, 1, 0x0, 0, 0x7, 0x0, 0x0, 0x0, 0x4, 0⟩,
   ⟨0x1C, 1, 0x0, 0, 1, 0x0, 0, 0x0, 0x0, 0x0, 0x0, 0x0, 1⟩,
   ⟨0x20, 1, 0x0, 0, 1, 0x0, 0, 0x0, 0x0, 0x0, 0x0, 0x0, 2⟩,
   ⟨0x28, 1, 0x0, 0, 1, 0x0, 0, 0x0, 0x0, 0x0, 0x0, 0x0, 1⟩,
   ⟨0x2C, 1, 0x0, 0, 1, 0x0, 0, 0x0, 0x0, 0x0, 0x0, 0x0, 2⟩,
   ⟨0x30, 1, 0x0, 0, 1, 0x0, 0, 0x0, 0x0, 0xFFFFFFFF, 0x0, 0x0, 0⟩,
   ⟨0x34, 1, 0x0, 0, 1, 0x0, 0, 0x0, 0x0, 0x0, 0x0, 0x0, 0⟩,
   ⟨0x38, 1, 0x0, 0, 1, 0x0, 0, 0xFFFFFFFF, 0x0, 0x0, 0x0, 0x0, 0⟩,
   ⟨0x3C, 1, 0x0, 0, 1, 0x0, 0, 0x0, 0x0, 0xFFFFFFFF, 0x0, 0x0, 0⟩,
   ⟨0x40, 6, 0x4, 0, 1, 0x0, 0, 0x0, 0x0, 0x0, 0x0, 0x0, 0⟩]

/-- Block CLK (b = 0x01). -/
def regMapCLK : List RegDesc :=
  [⟨0x10000, 1, 0x0, 0, 1, 0x0, 0, 0x0, 0x0, 0x0, 0x0, 0x1, 0⟩,
   ⟨0x10004, 1, 0x0, 0, 1, 0x0, 0, 0x0, 0x1FF, 0x0, 0x0, 0x0, 0⟩,
   ⟨0x10008, 1, 0x0, 0, 1, 0x0, 0, 0x1FF, 0x0, 0x0, 0x0, 0x32, 0⟩,
   ⟨0x1000C, 1, 0x0, 0, 1, 0x0, 0, 0x3FFF, 0x0, 0x0, 0x0, 0x3E8, 0⟩,
   ⟨0x10010, 1, 0x0, 0, 1, 0x0, 0, 0x0, 0x0, 0x0, 0xFFFF0000, 0x0, 0⟩,
   ⟨0x10014, 1, 0x0, 0, 1, 0x0, 0, 0x0, 0x0, 0xFFFFFFFF, 0x0, 0x0, 0⟩,
   ⟨0x10018, 1, 0x0, 0, 1, 0x0, 0, 0x0, 0x0, 0xFFFFFFFF, 0x0, 0x0, 0⟩,
   ⟨0x1001C, 1, 0x0, 0, 1, 0x0, 0, 0x0, 0x0, 0xFFFFFFFF, 0x0, 0x0, 0⟩,
   ⟨0x10020, 1, 0x0, 0, 1, 0x0, 0, 0x0, 0x0, 0xFFFFFFFF, 0x0, 0x0, 0⟩,
   ⟨0x10024, 1, 0x0, 0, 1, 0x0, 0, 0x0, 0x0, 0x0, 0xFFFF000F, 0x0, 0⟩,
   ⟨0x10028, 1, 0x0, 0, 1, 0x0, 0, 0x0, 0x0, 0x0, 0x0, 0x0, 0⟩,
   ⟨0x1002C, 1, 0x0, 0, 1, 0x0, 0, 0xFFFFF, 0x0, 0x0, 0x0, 0x21388, 0⟩,
   ⟨0x10030, 1, 0x0, 0, 1, 0x0, 0, 0xFFFF, 0x0, 0x0, 0x0, 0x1388, 0⟩,
   ⟨0x10034, 1, 0x0, 0, 1, 0x0, 0, 0x0, 0x0, 0x0, 0x0, 0x0, 0⟩]

/-- Block TIME (b = 0x02). -/
def regMapTIME : List RegDesc :=
  [⟨0x20000, 1, 0x0, 0, 1, 0x0, 0, 0x0, 0x0, 0x0, 0x1, 0x0, 0⟩,
   ⟨0x20004, 1, 0x0, 0, 1, 0x0, 0, 0x0, 0x38, 0x0, 0x0, 0x0, 0⟩,
   ⟨0x20010, 1, 0x0, 0, 1, 0x0, 0, 0x0, 0x0, 0x0, 0x0, 0x0, 1⟩,
   ⟨0x20014, 1, 0x0, 0, 1, 0x0, 0, 0x0, 0x0, 0x0, 0x0, 0x0, 2⟩,
   ⟨0x20018, 1, 0x0, 0, 1, 0x0, 0, 0x0, 0x0, 0x0, 0x0, 0x0, 1⟩,
   ⟨0x2001C, 1, 0x0, 0, 1, 0x0, 0, 0x0, 0x0, 0x0, 0x0, 0x0, 2⟩,
   ⟨0x20020, 1, 0x0, 0, 1, 0x0, 0, 0x0, 0x0, 0x0, 0x0, 0x0, 1⟩,
   ⟨0x20024, 1, 0x0, 0, 1, 0x0, 0, 0x0, 0x0, 0x0, 0x0, 0x0, 2⟩,
   ⟨0x20030, 1, 0x0, 0, 1, 0x0, 0, 0xFFFFFFFF, 0x0, 0x0, 0x0, 0x0, 1⟩,
   ⟨0x20034, 1, 0x0, 0, 1, 0x0, 0, 0xFFFFFFFF, 0x0, 0x0, 0x0, 0x0, 2⟩,
   ⟨0x20038, 1, 0x0, 0, 1, 0x0, 0, 0x0, 0x0, 0x0, 0x0, 0x0, 1⟩,
   ⟨0x2003C, 1, 0x0, 0, 1, 0x0, 0, 0x0, 0x0, 0x0, 0x0, 0x0, 2⟩,
   ⟨0x20040, 1, 0x0, 0, 1, 0x0, 0, 0xFFFFFFFF, 0x0, 0x0, 0x0, 0x0, 0⟩,
   ⟨0x20044, 1, 0x0, 0, 1, 0x0, 0, 0x0, 0x0, 0xFFFFFFFF, 0x0, 0x0, 0⟩,
   ⟨0x20050, 1, 0x0, 0, 1, 0x0, 0, 0x0, 0x0, 0x0, 0x0, 0x0, 1⟩,
   ⟨0x20054, 1, 0x0, 0, 1, 0x0, 0, 0x0, 0x0, 0x0, 0x0, 0x0, 2⟩]

/-- Block HEAD (b = 0x03). -/
def regMapHEAD : List RegDesc :=
  [⟨0x30000, 1, 0x0, 0, 1, 0x0, 0, 0x3, 0x0, 0x0, 0x4, 0x0, 0⟩,
   ⟨0x30004, 1, 0x0, 0, 1, 0x0, 0, 0x0, 0xC8, 0x0, 0x0, 0x0, 0⟩,
   ⟨0x30008, 1, 0x0, 0, 1, 0x0, 0, 0xFFFFFFFF, 0x0, 0x0, 0x0, 0x400, 0⟩,
   ⟨0x30010, 1, 0x0, 0, 1, 0x0, 0, 0x0, 0x0, 0x0, 0x0, 0x0, 1⟩,
   ⟨0x30014, 1, 0x0, 0, 1, 0x0, 0, 0x0, 0x0, 0x0, 0x0, 0x0, 2⟩,
   ⟨0x30018, 1, 0x0, 0, 1, 0x0, 0, 0x0, 0x0, 0x0, 0x0, 0x0, 1⟩,
   ⟨0x3001C, 1, 0x0, 0, 1, 0x0, 0, 0x0, 0x0, 0x0, 0x0, 0x0, 2⟩,
   ⟨0x30020, 1, 0x0, 0, 1, 0x0, 0, 0x0, 0x0, 0x0, 0x0, 0x0, 1⟩,
   ⟨0x30024, 1, 0x0, 0, 1, 0x0, 0, 0x0, 0x0, 0x0, 0x0, 0x0, 2⟩,
   ⟨0x30028, 1, 0x0, 0, 1, 0x0, 0, 0x0, 0x0, 0x0, 0x0, 0x0, 0⟩,
   ⟨0x3002C, 1, 0x0, 0, 1, 0x0, 0, 0x0, 0x0, 0x0, 0x0, 0x0, 0⟩,
   ⟨0x30030, 1, 0x0, 0, 1, 0x0, 0, 0x13FF03FF, 0x0, 0x0, 0x0, 0x0, 0⟩,
   ⟨0x30034, 1, 0x0, 0, 1, 0x0, 0, 0xFFFFFFFF, 0x0, 0x0, 0x0, 0x0, 0⟩,
   ⟨0x30038, 1, 0x0, 0, 1, 0x0, 0, 0xFFFF, 0x0, 0x0, 0x0, 0x40, 0⟩,
   ⟨0x3003C, 1, 0x0, 0, 1, 0x0, 0, 0x0, 0x0, 0x0, 0x0, 0x0, 0⟩,
   ⟨0x30040, 1, 0x0, 0, 1, 0x0, 0, 0xF, 0x0, 0x0, 0x0, 0x4, 0⟩,
   ⟨0x30044, 1, 0x0, 0, 1, 0x0, 0, 0x0, 0x0, 0xFFFFFFFF, 0x0, 0x0, 0⟩,
   ⟨0x30048, 1, 0x0, 0, 1, 0x0, 0, 0x0, 0x0, 0xFFFFFFFF, 0x0, 0x0, 0⟩,
   ⟨0x30100, 4, 0x20, 0, 1, 0x0, 0, 0x83FF03FF, 0x0, 0x0, 0x0, 0x0, 0⟩,
   ⟨0x30104, 4, 0x20, 0, 1, 0x0, 0, 0x0, 0x0, 0x0, 0x0, 0x0, 1⟩] ++
  [⟨0x30108, 4, 0x20, 0, 1, 0x0, 0, 0x0, 0x0, 0x0, 0x0, 0x0, 2⟩,
   ⟨0x3010C, 4, 0x20, 0, 1, 0x0, 0, 0x0, 0x0, 0x0, 0x0, 0x0, 1⟩,
   ⟨0x30110, 4, 0x20, 0, 1, 0x0, 0, 0x0, 0x0, 0x0, 0x0, 0x0, 2⟩,
   ⟨0x30114, 4, 0x20, 0, 1, 0x0, 0, 0x0, 0x0, 0x0, 0x0, 0x0, 0⟩]

/-- Block COLLIE (b = 0x04). -/
def regMapCOLLIE : List RegDesc :=
  [⟨0x40000, 1, 0x0, 0, 1, 0x0, 0, 0x1, 0x0, 0x0, 0x0, 0x1, 0⟩,
   ⟨0x40004, 1, 0x0, 0, 1, 0x0, 0, 0x0, 0x0, 0x0, 0x0, 0x0, 0⟩,
   ⟨0x40008, 1, 0x0, 0, 1, 0x0, 0, 0x0, 0x3FF, 0x0, 0x0, 0x0, 0⟩,
   ⟨0x4000C, 1, 0x0, 0, 1, 0x0, 0, 0x3FF, 0x0, 0x0, 0x0, 0x43, 0⟩,
   ⟨0x40010, 1, 0x0, 0, 1, 0x0, 0, 0x0, 0x0, 0x0, 0x0, 0x2000, 0⟩,
   ⟨0x40014, 1, 0x0, 0, 1, 0x0, 0, 0x0, 0x0, 0xFFFFFFFF, 0x0, 0x0, 0⟩,
   ⟨0x40018, 1, 0x0, 0, 1, 0x0, 0, 0x0, 0x0, 0xFFFFFFFF, 0x0, 0x0, 0⟩,
   ⟨0x4001C, 1, 0x0, 0, 1, 0x0, 0, 0x0, 0x0, 0xFFFFFFFF, 0x0, 0x0, 0⟩,
   ⟨0x40020, 1, 0x0, 0, 1, 0x0, 0, 0x0, 0x0, 0xFFFFFFFF, 0x0, 0x0, 0⟩,
   ⟨0x40024, 1, 0x0, 0, 1, 0x0, 0, 0x0, 0x0, 0xFFFFFFFF, 0x0, 0x0, 0⟩,
   ⟨0x40028, 1, 0x0, 0, 1, 0x0, 0, 0x0, 0x0, 0xFFFFFFFF, 0x0, 0x0, 0⟩,
   ⟨0x4002C, 1, 0x0, 0, 1, 0x0, 0, 0x0, 0x0, 0xFFFFFFFF, 0x0, 0x0, 0⟩,
   ⟨0x40030, 1, 0x0, 0, 1, 0x0, 0, 0x0, 0x0, 0x0, 0x0, 0x0, 0⟩,
   ⟨0x40034, 1, 0x0, 0, 1, 0x0, 0, 0x0, 0x0, 0x0, 0x0, 0x0, 0⟩,
   ⟨0x40038, 1, 0x0, 0, 1, 0x0, 0, 0x0, 0x0, 0xFFFFFFFF, 0x0, 0x0, 0⟩,
   ⟨0x40040, 1, 0x0, 0, 1, 0x0, 0, 0x0, 0x0, 0x0, 0xFFFF3FFF, 0x0, 0⟩,
   ⟨0x40044, 1, 0x0, 0, 1, 0x0, 0, 0xFFFFFFFF, 0x0, 0x0, 0x0, 0x0, 0⟩,
   ⟨0x40048, 1, 0x0, 0, 1, 0x0, 0, 0xFFFFFFFF, 0x0, 0x0, 0x0, 0x0, 1⟩,
   ⟨0x4004C, 1, 0x0, 0, 1, 0x0, 0, 0xFFFFFFFF, 0x0, 0x0, 0x0, 0x0, 2⟩,
   ⟨0x40050, 1, 0x0, 0, 1, 0x0, 0, 0xFFF, 0x0, 0x0, 0x0, 0x0, 0⟩] ++
  [⟨0x40060, 8, 0x4, 0, 1, 0x0, 0, 0x0, 0x0, 0x0, 0x0, 0x0, 0⟩,
   ⟨0x40100, 16, 0x4, 0, 1, 0x0, 0, 0x0, 0x0, 0x0, 0x0, 0x0, 0⟩,
   ⟨0x44000, 4096, 0x4, 0, 1, 0x0, 0, 0x0, 0x1000, 0x0, 0x0, 0x3F0000, 0⟩,
   ⟨0x48000, 512, 0x10, 0, 1, 0x0, 0, 0x0, 0x0, 0x0, 0x0, 0x0, 0⟩,
   ⟨0x48004, 512, 0x10, 0, 1, 0x0, 0, 0x0, 0x0, 0x0, 0x0, 0x0, 0⟩,
   ⟨0x48008, 512, 0x10, 0, 1, 0x0, 0, 0x0, 0x0, 0x0, 0x0, 0x0, 0⟩,
   ⟨0x4800C, 512, 0x10, 0, 1, 0x0, 0, 0x0, 0x0, 0xFFFFFFFF, 0x0, 0x0, 0⟩]

/-- Block PLOT (b = 0x05). -/
def regMapPLOT : List RegDesc :=
  [⟨0x50000, 36, 0x10, 0, 1, 0x0, 0, 0x0, 0x0, 0x0, 0x0, 0x0, 0⟩,
   ⟨0x50004, 36, 0x10, 0, 1, 0x0, 0, 0x0, 0x0, 0x0, 0x0, 0x0, 0⟩,
   ⟨0x50008, 36, 0x10, 0, 1, 0x0, 0, 0x0, 0x0, 0x0, 0xFFFF0003, 0x0, 0⟩,
   ⟨0x5000C, 36, 0x10, 0, 1, 0x0, 0, 0x0, 0x0, 0xFFFFFFFF, 0x0, 0x0, 0⟩,
   ⟨0x50400, 4, 0x20, 0, 1, 0x0, 0, 0x0, 0x0, 0x0, 0x0, 0x18, 0⟩,
   ⟨0x50404, 4, 0x20, 0, 1, 0x0, 0, 0x0, 0x0, 0x0, 0x0, 0x0, 0⟩,
   ⟨0x50408, 4, 0x20, 0, 1, 0x0, 0, 0x0, 0x0, 0xFFFFFFFF, 0x0, 0x0, 0⟩,
   ⟨0x5040C, 4, 0x20, 0, 1, 0x0, 0, 0x0, 0x0, 0xFFFFFFFF, 0x0, 0x0, 0⟩,
   ⟨0x50410, 4, 0x20, 0, 1, 0x0, 0, 0x0, 0x0, 0xFF, 0x0, 0x0, 0⟩,
   ⟨0x50414, 4, 0x20, 0, 1, 0x0, 0, 0x0, 0x0, 0x0, 0x0, 0x76543210, 0⟩]

/-- Block EXEC (b = 0x06). -/
def regMapEXEC : List RegDesc :=
  [⟨0x60000, 1, 0x0, 0, 1, 0x0, 0, 0x0, 0x0, 0x0, 0xFFFF000F, 0x0, 0⟩,
   ⟨0x60004, 1, 0x0, 0, 1, 0x0, 0, 0x0, 0x0, 0x0, 0x0, 0x0, 0⟩,
   ⟨0x60008, 1, 0x0, 0, 1, 0x0, 0, 0x0, 0x3FF, 0x0, 0x0, 0x0, 0⟩,
   ⟨0x6000C, 1, 0x0, 0, 1, 0x0, 0, 0x3FF, 0x0, 0x0, 0x0, 0x3FF, 0⟩,
   ⟨0x60010, 4, 0x4, 0, 1, 0x0, 0, 0x7F, 0x0, 0x0, 0x0, 0x50, 0⟩,
   ⟨0x60020, 1, 0x0, 0, 1, 0x0, 0, 0x0, 0x0, 0x0, 0x0, 0x0, 0⟩,
   ⟨0x60024, 1, 0x0, 0, 1, 0x0, 0, 0x0, 0x0, 0x0, 0x0, 0x0, 1⟩,
   ⟨0x60028, 1, 0x0, 0, 1, 0x0, 0, 0x0, 0x0, 0x0, 0x0, 0x0, 2⟩,
   ⟨0x6002C, 1, 0x0, 0, 1, 0x0, 0, 0x0, 0x0, 0xFFFFFFFF, 0x0, 0x0, 0⟩,
   ⟨0x60030, 1, 0x0, 0, 1, 0x0, 0, 0x0, 0x0, 0x0, 0x0, 0x0, 0⟩,
   ⟨0x60034, 1, 0x0, 0, 1, 0x0, 0, 0x0, 0x0, 0x0, 0x0, 0x0, 0⟩,
   ⟨0x60038, 1, 0x0, 0, 1, 0x0, 0, 0x0, 0x0, 0x0, 0x0, 0x0, 0⟩,
   ⟨0x6003C, 1, 0x0, 0, 1, 0x0, 0, 0x0, 0x0, 0xFFFFFFFF, 0x0, 0x0, 0⟩,
   ⟨0x60050, 1, 0x0, 0, 1, 0x0, 0, 0x3FFF, 0x0, 0x0, 0x0, 0x3E8, 0⟩,
   ⟨0x60054, 1, 0x0, 0, 1, 0x0, 0, 0x0, 0x0, 0x0, 0x0, 0x0, 0⟩,
   ⟨0x60058, 1, 0x0, 0, 1, 0x0, 0, 0x0, 0x0, 0x0, 0x0, 0x0, 0⟩,
   ⟨0x60060, 1, 0x0, 0, 1, 0x0, 0, 0xFFFF, 0x0, 0x0, 0x0, 0x64, 0⟩,
   ⟨0x60064, 1, 0x0, 0, 1, 0x0, 0, 0x0, 0x0, 0x0, 0x0, 0x0, 0⟩,
   ⟨0x60068, 1, 0x0, 0, 1, 0x0, 0, 0x0, 0x0, 0x0, 0x0, 0x0, 1⟩,
   ⟨0x6006C, 1, 0x0, 0, 1, 0x0, 0, 0x0, 0x0, 0x0, 0x0, 0x0, 2⟩] ++
  [⟨0x60070, 1, 0x0, 0, 1, 0x0, 0, 0x0, 0x0, 0xFFFFFFFF, 0x0, 0x0, 0⟩,
   ⟨0x60074, 1, 0x0, 0, 1, 0x0, 0, 0x0, 0x0, 0xFFFFFFFF, 0x0, 0x0, 0⟩,
   ⟨0x60080, 1, 0x0, 0, 1, 0x0, 0, 0xFFFFFFFF, 0x0, 0x0, 0x0, 0x0, 1⟩,
   ⟨0x60084, 1, 0x0, 0, 1, 0x0, 0, 0xFFFFFFFF, 0x0, 0x0, 0x0, 0x0, 2⟩,
   ⟨0x60088, 1, 0x0, 0, 1, 0x0, 0, 0x0, 0x0, 0x0, 0x0, 0x0, 1⟩,
   ⟨0x6008C, 1, 0x0, 0, 1, 0x0, 0, 0x0, 0x0, 0x0, 0x0, 0x0, 2⟩,
   ⟨0x60090, 1, 0x0, 0, 1, 0x0, 0, 0x0, 0x0, 0x0, 0x0, 0x0, 0⟩,
   ⟨0x60098, 1, 0x0, 0, 1, 0x0, 0, 0x0, 0x0, 0xFFFFFFFF, 0x0, 0x0, 0⟩,
   ⟨0x6009C, 1, 0x0, 0, 1, 0x0, 0, 0x1, 0x0, 0x0, 0x0, 0x1, 0⟩,
   ⟨0x68000, 4096, 0x8, 0, 1, 0x0, 0, 0x7, 0x10, 0x0, 0x0, 0x0, 0⟩,
   ⟨0x68004, 4096, 0x8, 0, 1, 0x0, 0, 0x0, 0x0, 0xFFFFFFFF, 0x0, 0x0, 0⟩]

/-- Block FORCE (b = 0x07). -/
def regMapFORCE : List RegDesc :=
  [⟨0x70000, 1, 0x0, 0, 1, 0x0, 0, 0x3, 0x0, 0x0, 0x4, 0x1, 0⟩,
   ⟨0x70004, 1, 0x0, 0, 1, 0x0, 0, 0x0, 0x0, 0x0, 0x0, 0x0, 0⟩,
   ⟨0x70008, 1, 0x0, 0, 1, 0x0, 0, 0x0, 0x7, 0x0, 0x0, 0x0, 0⟩,
   ⟨0x7000C, 1, 0x0, 0, 1, 0x0, 0, 0x0, 0x0, 0x0, 0x0, 0x0, 0⟩,
   ⟨0x71000, 1024, 0x10, 0, 1, 0x0, 0, 0xFFFFFFFF, 0x0, 0x0, 0x0, 0x0, 0⟩,
   ⟨0x71004, 1024, 0x10, 0, 1, 0x0, 0, 0x73, 0x0, 0x0, 0x0, 0x0, 0⟩,
   ⟨0x71008, 1024, 0x10, 0, 1, 0x0, 0, 0xFFFFFFFF, 0x0, 0x0, 0x0, 0x0, 1⟩,
   ⟨0x7100C, 1024, 0x10, 0, 1, 0x0, 0, 0xFFFFFFFF, 0x0, 0x0, 0x0, 0x0, 2⟩]

/-- Block TXN (b = 0x08). -/
def regMapTXN : List RegDesc :=
  [⟨0x80000, 1, 0x0, 0, 1, 0x0, 0, 0x0, 0x0, 0x0, 0xFFFF000F, 0x0, 0⟩,
   ⟨0x80004, 1, 0x0, 0, 1, 0x0, 0, 0x0, 0x0, 0x0, 0x0, 0x0, 0⟩,
   ⟨0x80008, 1, 0x0, 0, 1, 0x0, 0, 0x0, 0x1F, 0x0, 0x0, 0x0, 0⟩,
   ⟨0x8000C, 1, 0x0, 0, 1, 0x0, 0, 0x1F, 0x0, 0x0, 0x0, 0xC, 0⟩,
   ⟨0x80010, 1, 0x0, 0, 1, 0x0, 0, 0xFFFFFFFF, 0x0, 0x0, 0x0, 0x104003E8, 0⟩,
   ⟨0x80014, 1, 0x0, 0, 1, 0x0, 0, 0xFFFF, 0x0, 0x0, 0x0, 0x0, 0⟩,
   ⟨0x80018, 1, 0x0, 0, 1, 0x0, 0, 0xFFFFFFFF, 0x0, 0x0, 0x0, 0x0, 0⟩,
   ⟨0x8001C, 1, 0x0, 0, 1, 0x0, 0, 0x77F, 0x0, 0x0, 0x0, 0x0, 0⟩,
   ⟨0x80020, 1, 0x0, 0, 1, 0x0, 0, 0xFFFFFFFF, 0x0, 0x0, 0x0, 0x0, 1⟩,
   ⟨0x80024, 1, 0x0, 0, 1, 0x0, 0, 0xFFFFFFFF, 0x0, 0x0, 0x0, 0x0, 2⟩,
   ⟨0x80028, 1, 0x0, 0, 1, 0x0, 0, 0xFFFFFFFF, 0x0, 0x0, 0x0, 0x0, 1⟩,
   ⟨0x8002C, 1, 0x0, 0, 1, 0x0, 0, 0xFFFFFFFF, 0x0, 0x0, 0x0, 0x0, 2⟩,
   ⟨0x80030, 1, 0x0, 0, 1, 0x0, 0, 0x0, 0x0, 0x0, 0x0, 0x0, 0⟩,
   ⟨0x80040, 1, 0x0, 0, 1, 0x0, 0, 0x0, 0x0, 0xFFFFFFFF, 0x0, 0x0, 0⟩,
   ⟨0x80044, 1, 0x0, 0, 1, 0x0, 0, 0x0, 0x0, 0xFFFFFFFF, 0x0, 0x0, 0⟩,
   ⟨0x80048, 1, 0x0, 0, 1, 0x0, 0, 0x0, 0x0, 0xFFFFFFFF, 0x0, 0x0, 0⟩,
   ⟨0x8004C, 1, 0x0, 0, 1, 0x0, 0, 0x0, 0x0, 0xFFFFFFFF, 0x0, 0x0, 0⟩,
   ⟨0x80050, 1, 0x0, 0, 1, 0x0, 0, 0x3F3F, 0x0, 0x0, 0x0, 0x0, 0⟩,
   ⟨0x80054, 1, 0x0, 0, 1, 0x0, 0, 0x0, 0x0, 0x0, 0x0, 0x0, 0⟩,
   ⟨0x81000, 64, 0x40, 0, 1, 0x0, 0, 0x0, 0x0, 0x0, 0x0, 0x0, 0⟩] ++
  [⟨0x81004, 64, 0x40, 0, 1, 0x0, 0, 0x0, 0x0, 0x0, 0x0, 0x0, 0⟩,
   ⟨0x81008, 64, 0x40, 0, 1, 0x0, 0, 0x0, 0x0, 0x0, 0x0, 0x0, 0⟩,
   ⟨0x8100C, 64, 0x40, 0, 1, 0x0, 0, 0x0, 0x0, 0x0, 0x0, 0x0, 0⟩,
   ⟨0x81010, 64, 0x40, 0, 1, 0x0, 0, 0x0, 0x0, 0x0, 0x0, 0x0, 1⟩,
   ⟨0x81014, 64, 0x40, 0, 1, 0x0, 0, 0x0, 0x0, 0x0, 0x0, 0x0, 2⟩,
   ⟨0x81018, 64, 0x40, 0, 1, 0x0, 0, 0x0, 0x0, 0x0, 0x0, 0x0, 1⟩,
   ⟨0x8101C, 64, 0x40, 0, 1, 0x0, 0, 0x0, 0x0, 0x0, 0x0, 0x0, 2⟩,
   ⟨0x81020, 64, 0x40, 0, 1, 0x0, 0, 0x0, 0x0, 0x0, 0x0, 0x0, 1⟩,
   ⟨0x81024, 64, 0x40, 0, 1, 0x0, 0, 0x0, 0x0, 0x0, 0x0, 0x0, 2⟩,
   ⟨0x81028, 64, 0x40, 0, 1, 0x0, 0, 0x0, 0x0, 0x0, 0x0, 0x0, 1⟩,
   ⟨0x8102C, 64, 0x40, 0, 1, 0x0, 0, 0x0, 0x0, 0x0, 0x0, 0x0, 2⟩,
   ⟨0x81030, 64, 0x40, 0, 1, 0x0, 0, 0x0, 0x0, 0x0, 0x0, 0x0, 1⟩,
   ⟨0x81034, 64, 0x40, 0, 1, 0x0, 0, 0x0, 0x0, 0x0, 0x0, 0x0, 2⟩]

/-- Block ADC (b = 0x09). -/
def regMapADC : List RegDesc :=
  [⟨0x90000, 1, 0x0, 0, 1, 0x0, 0, 0x0, 0xFF, 0x0, 0x0, 0x0, 0⟩,
   ⟨0x90004, 1, 0x0, 0, 1, 0x0, 0, 0xFF, 0x0, 0x0, 0x0, 0xF, 0⟩,
   ⟨0x90100, 4, 0x10, 0, 1, 0x0, 0, 0x1, 0x0, 0x0, 0x0, 0x0, 0⟩,
   ⟨0x90104, 4, 0x10, 0, 1, 0x0, 0, 0x0, 0x0, 0x0, 0x0, 0x0, 0⟩,
   ⟨0x90108, 4, 0x10, 0, 1, 0x0, 0, 0x0, 0x0, 0x0, 0x0, 0x0, 1⟩,
   ⟨0x9010C, 4, 0x10, 0, 1, 0x0, 0, 0x0, 0x0, 0x0, 0x0, 0x0, 2⟩]

/-- Block ACC (b = 0x0A). -/
def regMapACC : List RegDesc :=
  [⟨0xA0000, 1, 0x0, 0, 1, 0x0, 0, 0x0, 0x7, 0x0, 0x0, 0x0, 0⟩,
   ⟨0xA0004, 1, 0x0, 0, 1, 0x0, 0, 0x7, 0x0, 0x0, 0x0, 0x6, 0⟩,
   ⟨0xA0008, 1, 0x0, 0, 1, 0x0, 0, 0x0, 0x0, 0x0, 0x1FF, 0x0, 0⟩,
   ⟨0xA1000, 256, 0x40, 0, 1, 0x0, 0, 0xFFFF, 0x0, 0x0, 0x0, 0x0, 0⟩,
   ⟨0xA1004, 256, 0x40, 0, 1, 0x0, 0, 0x0, 0x0, 0x0, 0x0, 0x0, 0⟩,
   ⟨0xA1008, 256, 0x40, 0, 1, 0x0, 0, 0x0, 0x0, 0x0, 0x0, 0x0, 0⟩,
   ⟨0xA100C, 256, 0x40, 0, 1, 0x0, 0, 0x0, 0x0, 0x0, 0x0, 0x0, 1⟩,
   ⟨0xA1010, 256, 0x40, 0, 1, 0x0, 0, 0x0, 0x0, 0x0, 0x0, 0x0, 2⟩,
   ⟨0xA1014, 256, 0x40, 0, 1, 0x0, 0, 0x0, 0x0, 0x0, 0x0, 0x0, 1⟩,
   ⟨0xA1018, 256, 0x40, 0, 1, 0x0, 0, 0x0, 0x0, 0x0, 0x0, 0x0, 2⟩,
   ⟨0xA101C, 256, 0x40, 0, 1, 0x0, 0, 0x0, 0x0, 0x0, 0x0, 0x0, 0⟩,
   ⟨0xA1020, 256, 0x40, 0, 1, 0x0, 0, 0x0, 0x0, 0x0, 0x0, 0x0, 0⟩,
   ⟨0xA1024, 256, 0x40, 0, 1, 0x0, 0, 0x0, 0x0, 0x0, 0x0, 0x0, 0⟩,
   ⟨0xA1028, 256, 0x40, 0, 1, 0x0, 0, 0x0, 0x0, 0x0, 0x0, 0x0, 0⟩,
   ⟨0xA102C, 256, 0x40, 0, 1, 0x0, 0, 0x0, 0x0, 0x0, 0x0, 0x0, 1⟩,
   ⟨0xA1030, 256, 0x40, 0, 1, 0x0, 0, 0x0, 0x0, 0x0, 0x0, 0x0, 2⟩,
   ⟨0xA1034, 256, 0x40, 0, 1, 0x0, 0, 0xFFFFFFFF, 0x0, 0x0, 0x0, 0x0, 0⟩,
   ⟨0xA1038, 256, 0x40, 0, 1, 0x0, 0, 0xFFFFFFFF, 0x0, 0x0, 0x0, 0x0, 0⟩,
   ⟨0xA103C, 256, 0x40, 0, 1, 0x0, 0, 0xFFF3FFFF, 0x0, 0x0, 0x0, 0x0, 0⟩,
   ⟨0xA6000, 256, 0x20, 0, 1, 0x0, 0, 0x0, 0x0, 0x0, 0x0, 0x7FFFF, 0⟩] ++
  [⟨0xA6004, 256, 0x20, 0, 1, 0x0, 0, 0x0, 0x0, 0x0, 0x0, 0x0, 1⟩,
   ⟨0xA6008, 256, 0x20, 0, 1, 0x0, 0, 0x0, 0x0, 0x0, 0x0, 0x0, 2⟩,
   ⟨0xA600C, 256, 0x20, 0, 1, 0x0, 0, 0x0, 0x0, 0x0, 0x0, 0xFFF80000, 0⟩,
   ⟨0xA6010, 256, 0x20, 0, 1, 0x0, 0, 0x0, 0x0, 0x0, 0x0, 0x0, 1⟩,
   ⟨0xA6014, 256, 0x20, 0, 1, 0x0, 0, 0x0, 0x0, 0x0, 0x0, 0x0, 2⟩]

/-- Block DAC (b = 0x0B). -/
def regMapDAC : List RegDesc :=
  [⟨0xB0000, 1, 0x0, 0, 1, 0x0, 0, 0x0, 0x0, 0x0, 0x0, 0x0, 0⟩,
   ⟨0xB0004, 1, 0x0, 0, 1, 0x0, 0, 0x0, 0x1, 0x0, 0x0, 0x0, 0⟩,
   ⟨0xB0008, 1, 0x0, 0, 1, 0x0, 0, 0x0, 0x0, 0xFFFFFFFF, 0x0, 0x0, 0⟩,
   ⟨0xB0100, 32, 0x10, 0, 1, 0x0, 0, 0x0, 0x0, 0x0, 0x0, 0x0, 0⟩,
   ⟨0xB0104, 32, 0x10, 0, 1, 0x0, 0, 0x0, 0x0, 0x0, 0x0, 0x0, 0⟩,
   ⟨0xB0108, 32, 0x10, 0, 1, 0x0, 0, 0x0, 0x0, 0x0, 0x0, 0x0, 0⟩,
   ⟨0xB010C, 32, 0x10, 0, 1, 0x0, 0, 0x0, 0x0, 0x0, 0x0, 0x0, 0⟩]

/-- Block CAPT (b = 0x0C). -/
def regMapCAPT : List RegDesc :=
  [⟨0xC0000, 1, 0x0, 0, 1, 0x0, 0, 0x1, 0x0, 0x0, 0x0, 0x0, 0⟩,
   ⟨0xC0004, 1, 0x0, 0, 1, 0x0, 0, 0x0, 0x0, 0x0, 0x0, 0x0, 0⟩,
   ⟨0xC0008, 1, 0x0, 0, 1, 0x0, 0, 0x0, 0x7F, 0x0, 0x0, 0x0, 0⟩,
   ⟨0xC000C, 1, 0x0, 0, 1, 0x0, 0, 0x7F, 0x0, 0x0, 0x0, 0x3C, 0⟩,
   ⟨0xC0010, 1, 0x0, 0, 1, 0x0, 0, 0x0, 0x0, 0x0, 0xFFFF, 0x0, 0⟩,
   ⟨0xC0014, 1, 0x0, 0, 1, 0x0, 0, 0x0, 0x0, 0x0, 0xFFF, 0x0, 0⟩,
   ⟨0xC0018, 1, 0x0, 0, 1, 0x0, 0, 0xFF, 0x0, 0x0, 0x0, 0x0, 0⟩,
   ⟨0xC0020, 4, 0x8, 0, 1, 0x0, 0, 0x0, 0x0, 0x0, 0x0, 0x0, 1⟩,
   ⟨0xC0024, 4, 0x8, 0, 1, 0x0, 0, 0x0, 0x0, 0x0, 0x0, 0x0, 2⟩,
   ⟨0xC0040, 1, 0x0, 0, 1, 0x0, 0, 0xFFFFFFFF, 0x0, 0x0, 0x0, 0x0, 1⟩,
   ⟨0xC0044, 1, 0x0, 0, 1, 0x0, 0, 0xFF, 0x0, 0x0, 0x0, 0x0, 2⟩,
   ⟨0xC0048, 1, 0x0, 0, 1, 0x0, 0, 0x1FFFF, 0x0, 0x0, 0x0, 0x0, 0⟩,
   ⟨0xC004C, 1, 0x0, 0, 1, 0x0, 0, 0x0, 0x0, 0x0, 0x0, 0x0, 0⟩,
   ⟨0xC0050, 1, 0x0, 0, 1, 0x0, 0, 0xFFFFFFFF, 0x0, 0x0, 0x0, 0x0, 0⟩,
   ⟨0xC0054, 1, 0x0, 0, 1, 0x0, 0, 0x0, 0x0, 0xFFFFFFFF, 0x0, 0x0, 0⟩,
   ⟨0xC1000, 16, 0x40, 0, 1, 0x0, 0, 0x1FFF0038, 0x0, 0x0, 0x7, 0x10008, 0⟩,
   ⟨0xC1004, 16, 0x40, 0, 1, 0x0, 0, 0x0, 0x0, 0x0, 0x0, 0x0, 0⟩,
   ⟨0xC1008, 16, 0x40, 0, 1, 0x0, 0, 0x3F3, 0x0, 0x0, 0x0, 0x0, 0⟩,
   ⟨0xC100C, 16, 0x40, 0, 1, 0x0, 0, 0x1FFF0FFF, 0x0, 0x0, 0x0, 0x0, 0⟩,
   ⟨0xC1010, 16, 0x40, 0, 1, 0x0, 0, 0xFFFF, 0x0, 0x0, 0x0, 0x0, 0⟩] ++
  [⟨0xC1014, 16, 0x40, 0, 1, 0x0, 0, 0xFFFFF, 0x0, 0x0, 0x0, 0x0, 0⟩,
   ⟨0xC1018, 16, 0x40, 0, 1, 0x0, 0, 0xFFFFF, 0x0, 0x0, 0x0, 0x1, 0⟩,
   ⟨0xC101C, 16, 0x40, 0, 1, 0x0, 0, 0xFFFFF, 0x0, 0x0, 0x0, 0x0, 0⟩,
   ⟨0xC1020, 16, 0x40, 0, 1, 0x0, 0, 0x3FFF, 0x0, 0x0, 0x0, 0x0, 0⟩,
   ⟨0xC1024, 16, 0x40, 0, 1, 0x0, 0, 0x0, 0x0, 0x0, 0x0, 0x0, 0⟩,
   ⟨0xC1028, 16, 0x40, 0, 1, 0x0, 0, 0x0, 0x0, 0xFFFFFFFF, 0x0, 0x0, 0⟩,
   ⟨0xC102C, 16, 0x40, 0, 1, 0x0, 0, 0x0, 0x0, 0xFFFFFFFF, 0x0, 0x0, 0⟩,
   ⟨0xC2000, 16, 0x40, 0, 4, 0x10, 0, 0x1FF3, 0x0, 0x0, 0x0, 0x0, 0⟩,
   ⟨0xC2004, 16, 0x40, 0, 4, 0x10, 0, 0xFFFFFFFF, 0x0, 0x0, 0x0, 0x0, 1⟩,
   ⟨0xC2008, 16, 0x40, 0, 4, 0x10, 0, 0xFFFFFFFF, 0x0, 0x0, 0x0, 0x0, 2⟩,
   ⟨0xC200C, 16, 0x40, 0, 4, 0x10, 0, 0xFFFFFFFF, 0x0, 0x0, 0x0, 0x0, 0⟩,
   ⟨0xC8000, 4096, 0x8, 0, 1, 0x0, 0, 0x0, 0x0, 0x0, 0x0, 0x0, 0⟩,
   ⟨0xC8004, 4096, 0x8, 0, 1, 0x0, 0, 0x0, 0x0, 0x0, 0x0, 0x0, 0⟩]

/-- Block GLEAN (b = 0x0D). -/
def regMapGLEAN : List RegDesc :=
  [⟨0xD0000, 1, 0x0, 0, 1, 0x0, 0, 0x7F03, 0x0, 0x0, 0x0, 0x1000, 0⟩,
   ⟨0xD0004, 1, 0x0, 0, 1, 0x0, 0, 0x0, 0x0, 0x0, 0x0, 0x0, 0⟩,
   ⟨0xD0008, 1, 0x0, 0, 1, 0x0, 0, 0x0, 0x3F, 0x0, 0x0, 0x0, 0⟩,
   ⟨0xD000C, 1, 0x0, 0, 1, 0x0, 0, 0x3F, 0x0, 0x0, 0x0, 0xE, 0⟩,
   ⟨0xD0010, 1, 0x0, 0, 1, 0x0, 0, 0xFFFFFFFF, 0x0, 0x0, 0x0, 0x0, 1⟩,
   ⟨0xD0014, 1, 0x0, 0, 1, 0x0, 0, 0xFF, 0x0, 0x0, 0x0, 0x0, 2⟩,
   ⟨0xD0018, 1, 0x0, 0, 1, 0x0, 0, 0x1FFFFF, 0x0, 0x0, 0x0, 0x0, 0⟩,
   ⟨0xD001C, 1, 0x0, 0, 1, 0x0, 0, 0x7FF, 0x0, 0x0, 0x0, 0x100, 0⟩,
   ⟨0xD0020, 1, 0x0, 0, 1, 0x0, 0, 0x0, 0x0, 0x0, 0x0, 0x0, 0⟩,
   ⟨0xD0024, 1, 0x0, 0, 1, 0x0, 0, 0x0, 0x0, 0x0, 0x0, 0x0, 0⟩,
   ⟨0xD0028, 1, 0x0, 0, 1, 0x0, 0, 0x0, 0x0, 0x0, 0x0, 0x0, 0⟩,
   ⟨0xD0030, 4, 0x4, 0, 1, 0x0, 0, 0x0, 0x0, 0xFFFFFFFF, 0x0, 0x0, 0⟩,
   ⟨0xD0040, 4, 0x4, 0, 1, 0x0, 0, 0x0, 0x0, 0xFFFFFFFF, 0x0, 0x0, 0⟩,
   ⟨0xD0050, 1, 0x0, 0, 1, 0x0, 0, 0x3FFF, 0x0, 0x0, 0x0, 0x0, 0⟩,
   ⟨0xD0054, 1, 0x0, 0, 1, 0x0, 0, 0x0, 0x0, 0x0, 0x0, 0x0, 0⟩,
   ⟨0xD0058, 1, 0x0, 0, 1, 0x0, 0, 0x0, 0x0, 0x0, 0x0, 0x0, 0⟩,
   ⟨0xD005C, 1, 0x0, 0, 1, 0x0, 0, 0xFFFFFFFF, 0x0, 0x0, 0x0, 0x0, 1⟩,
   ⟨0xD0060, 1, 0x0, 0, 1, 0x0, 0, 0xFFFFFFFF, 0x0, 0x0, 0x0, 0x0, 2⟩,
   ⟨0xD0064, 1, 0x0, 0, 1, 0x0, 0, 0xFFFFFFFF, 0x0, 0x0, 0x0, 0x0, 0⟩,
   ⟨0xD0068, 1, 0x0, 0, 1, 0x0, 0, 0xFFFF, 0x0, 0x0, 0x0, 0x0, 0⟩] ++
  [⟨0xD0070, 1, 0x0, 0, 1, 0x0, 0, 0x0, 0x0, 0x0, 0x0, 0x0, 1⟩,
   ⟨0xD0074, 1, 0x0, 0, 1, 0x0, 0, 0x0, 0x0, 0x0, 0x0, 0x0, 2⟩]

/-- Block AXIS (b = 0x0E). -/
def regMapAXIS : List RegDesc :=
  [⟨0xE0000, 1, 0x0, 0, 1, 0x0, 0, 0x0, 0x0, 0x0, 0x0, 0x0, 1⟩,
   ⟨0xE0004, 1, 0x0, 0, 1, 0x0, 0, 0x0, 0x0, 0x0, 0x0, 0x0, 2⟩,
   ⟨0xE0008, 1, 0x0, 0, 1, 0x0, 0, 0x0, 0x0, 0x0, 0x0, 0x0, 1⟩,
   ⟨0xE000C, 1, 0x0, 0, 1, 0x0, 0, 0x0, 0x0, 0x0, 0x0, 0x0, 2⟩,
   ⟨0xE0010, 1, 0x0, 0, 1, 0x0, 0, 0x0, 0x0, 0x0, 0x0, 0x0, 1⟩,
   ⟨0xE0014, 1, 0x0, 0, 1, 0x0, 0, 0x0, 0x0, 0x0, 0x0, 0x0, 2⟩,
   ⟨0xE0018, 1, 0x0, 0, 1, 0x0, 0, 0x1FFF, 0x0, 0x0, 0x0, 0x90C, 0⟩,
   ⟨0xE1000, 64, 0x100, 0, 1, 0x0, 0, 0x0, 0x0, 0x0, 0xFFFF0007, 0x0, 0⟩,
   ⟨0xE1004, 64, 0x100, 0, 1, 0x0, 0, 0xF, 0x0, 0x0, 0x10, 0x0, 0⟩,
   ⟨0xE1008, 64, 0x100, 0, 1, 0x0, 0, 0x0, 0x0, 0x0, 0x0, 0x40, 0⟩,
   ⟨0xE100C, 64, 0x100, 0, 1, 0x0, 0, 0x0, 0x1FFF, 0x0, 0x0, 0x0, 0⟩,
   ⟨0xE1010, 64, 0x100, 0, 1, 0x0, 0, 0xFFFFFFFF, 0x0, 0x0, 0x0, 0x0, 1⟩,
   ⟨0xE1014, 64, 0x100, 0, 1, 0x0, 0, 0xFFFFFFFF, 0x0, 0x0, 0x0, 0x0, 2⟩,
   ⟨0xE1018, 64, 0x100, 0, 1, 0x0, 0, 0x0, 0x0, 0x0, 0x0, 0x0, 1⟩,
   ⟨0xE101C, 64, 0x100, 0, 1, 0x0, 0, 0x0, 0x0, 0x0, 0x0, 0x0, 2⟩,
   ⟨0xE1020, 64, 0x100, 0, 1, 0x0, 0, 0x0, 0x0, 0x0, 0x0, 0x0, 1⟩,
   ⟨0xE1024, 64, 0x100, 0, 1, 0x0, 0, 0x0, 0x0, 0x0, 0x0, 0x0, 2⟩,
   ⟨0xE1028, 64, 0x100, 0, 1, 0x0, 0, 0x0, 0x0, 0x0, 0x0, 0x0, 1⟩,
   ⟨0xE102C, 64, 0x100, 0, 1, 0x0, 0, 0x0, 0x0, 0x0, 0x0, 0x0, 2⟩,
   ⟨0xE1030, 64, 0x100, 0, 1, 0x0, 0, 0xFFFFFFFF, 0x0, 0x0, 0x0, 0x80000000, 1⟩] ++
  [⟨0xE1034, 64, 0x100, 0, 1, 0x0, 0, 0xFFFFFFFF, 0x0, 0x0, 0x0, 0x0, 2⟩,
   ⟨0xE1038, 64, 0x100, 0, 1, 0x0, 0, 0xFFFFFFFF, 0x0, 0x0, 0x0, 0x100000, 0⟩,
   ⟨0xE103C, 64, 0x100, 0, 1, 0x0, 0, 0xFFFFFFFF, 0x0, 0x0, 0x0, 0x100000, 0⟩,
   ⟨0xE1040, 64, 0x100, 0, 1, 0x0, 0, 0xFFFFFFFF, 0x0, 0x0, 0x0, 0x0, 0⟩,
   ⟨0xE1044, 64, 0x100, 0, 1, 0x0, 0, 0xFFFFFFFF, 0x0, 0x0, 0x0, 0x800000, 0⟩,
   ⟨0xE1048, 64, 0x100, 0, 1, 0x0, 0, 0xFFFFFFFF, 0x0, 0x0, 0x0, 0x1, 1⟩,
   ⟨0xE104C, 64, 0x100, 0, 1, 0x0, 0, 0xFFFFFFFF, 0x0, 0x0, 0x0, 0xFFFF8000, 2⟩,
   ⟨0xE1050, 64, 0x100, 0, 1, 0x0, 0, 0xFFFFFFFF, 0x0, 0x0, 0x0, 0xFFFFFFFF, 1⟩,
   ⟨0xE1054, 64, 0x100, 0, 1, 0x0, 0, 0xFFFFFFFF, 0x0, 0x0, 0x0, 0x7FFF, 2⟩,
   ⟨0xE1058, 64, 0x100, 0, 1, 0x0, 0, 0xFFFFFF, 0x0, 0x0, 0x0, 0xFFFFFF, 0⟩,
   ⟨0xE105C, 64, 0x100, 0, 1, 0x0, 0, 0x7FF3F, 0x0, 0x0, 0x0, 0x1007, 0⟩,
   ⟨0xE1060, 64, 0x100, 0, 1, 0x0, 0, 0x7FFFFFF, 0x0, 0x0, 0x0, 0xFFFFFF, 0⟩,
   ⟨0xE1064, 64, 0x100, 0, 1, 0x0, 0, 0xFFFFFFFF, 0x0, 0x0, 0x0, 0x1000000, 0⟩,
   ⟨0xE1068, 64, 0x100, 0, 1, 0x0, 0, 0xFFFFFFFF, 0x0, 0x0, 0x0, 0x0, 1⟩,
   ⟨0xE106C, 64, 0x100, 0, 1, 0x0, 0, 0xFFFFFFFF, 0x0, 0x0, 0x0, 0x0, 2⟩,
   ⟨0xE1070, 64, 0x100, 0, 1, 0x0, 0, 0xFFFFFFFF, 0x0, 0x0, 0x0, 0x10000, 1⟩,
   ⟨0xE1074, 64, 0x100, 0, 1, 0x0, 0, 0xFFFFFFFF, 0x0, 0x0, 0x0, 0x0, 2⟩,
   ⟨0xE1078, 64, 0x100, 0, 1, 0x0, 0, 0xFF, 0x0, 0x0, 0x0, 0x0, 0⟩,
   ⟨0xE107C, 64, 0x100, 0, 1, 0x0, 0, 0xFFFFFFFF, 0x0, 0x0, 0x0, 0x10000, 0⟩,
   ⟨0xE1080, 64, 0x100, 0, 1, 0x0, 0, 0xFFFFFFFF, 0x0, 0x0, 0x0, 0x4, 0⟩] ++
  [⟨0xE1084, 64, 0x100, 0, 1, 0x0, 0, 0x0, 0x0, 0x0, 0x0, 0x0, 1⟩,
   ⟨0xE1088, 64, 0x100, 0, 1, 0x0, 0, 0x0, 0x0, 0x0, 0x0, 0x0, 2⟩,
   ⟨0xE108C, 64, 0x100, 0, 1, 0x0, 0, 0x0, 0x0, 0xFFFFFFFF, 0x0, 0x0, 0⟩,
   ⟨0xE1090, 64, 0x100, 0, 1, 0x0, 0, 0x0, 0x0, 0x0, 0x0, 0x0, 1⟩,
   ⟨0xE1094, 64, 0x100, 0, 1, 0x0, 0, 0x0, 0x0, 0x0, 0x0, 0x0, 2⟩,
   ⟨0xE6000, 64, 0x20, 0, 1, 0x0, 0, 0x7FFFFFF, 0x0, 0x0, 0x0, 0xFFFFFF, 0⟩,
   ⟨0xE6004, 64, 0x20, 0, 1, 0x0, 0, 0x0, 0x1, 0x0, 0x0, 0x0, 0⟩,
   ⟨0xE6008, 64, 0x20, 0, 1, 0x0, 0, 0x0, 0x0, 0x0, 0x0, 0x0, 1⟩,
   ⟨0xE600C, 64, 0x20, 0, 1, 0x0, 0, 0x0, 0x0, 0x0, 0x0, 0x0, 2⟩,
   ⟨0xE6010, 64, 0x20, 0, 1, 0x0, 0, 0x0, 0x0, 0x0, 0x0, 0x0, 1⟩,
   ⟨0xE6014, 64, 0x20, 0, 1, 0x0, 0, 0x0, 0x0, 0x0, 0x0, 0x0, 2⟩,
   ⟨0xE6018, 64, 0x20, 0, 1, 0x0, 0, 0x0, 0x0, 0xFFFFFFFF, 0x0, 0x0, 0⟩]

/-- Block CHOP (b = 0x0F). -/
def regMapCHOP : List RegDesc :=
  [⟨0xF0000, 1, 0x0, 0, 1, 0x0, 0, 0x0, 0x0, 0x0, 0x0, 0x0, 0⟩,
   ⟨0xF0004, 1, 0x0, 0, 1, 0x0, 0, 0x1F, 0x0, 0x0, 0x0, 0x3, 0⟩,
   ⟨0xF0008, 1, 0x0, 0, 1, 0x0, 0, 0x0, 0x1, 0x0, 0x0, 0x0, 0⟩,
   ⟨0xF0100, 24, 0x40, 0, 1, 0x0, 0, 0x3, 0x0, 0x0, 0x0, 0x0, 0⟩,
   ⟨0xF0104, 24, 0x40, 0, 1, 0x0, 0, 0xF1F0F3F, 0x0, 0x0, 0x0, 0x1040108, 0⟩,
   ⟨0xF0108, 24, 0x40, 0, 1, 0x0, 0, 0xFFFFFFFF, 0x0, 0x0, 0x0, 0x1194080, 0⟩,
   ⟨0xF010C, 24, 0x40, 0, 1, 0x0, 0, 0x3FF000F, 0x0, 0x0, 0x0, 0x8, 0⟩,
   ⟨0xF0110, 24, 0x40, 0, 1, 0x0, 0, 0x0, 0x0, 0x0, 0x0, 0x0, 0⟩,
   ⟨0xF0114, 24, 0x40, 0, 1, 0x0, 0, 0x0, 0x1F, 0x0, 0x0, 0x0, 0⟩,
   ⟨0xF0118, 24, 0x40, 0, 1, 0x0, 0, 0xFF, 0x0, 0x0, 0x0, 0x0, 0⟩,
   ⟨0xF011C, 24, 0x40, 0, 1, 0x0, 0, 0x0, 0x0, 0xFFFFFFFF, 0x0, 0x0, 0⟩,
   ⟨0xF0120, 24, 0x40, 0, 1, 0x0, 0, 0x0, 0x0, 0x0, 0x0, 0x0, 0⟩,
   ⟨0xF1000, 1024, 0x4, 0, 1, 0x0, 0, 0x1FF, 0x0, 0x0, 0x0, 0x0, 0⟩]

/-- Block GPIO (b = 0x10). -/
def regMapGPIO : List RegDesc :=
  [⟨0x100000, 1, 0x0, 0, 1, 0x0, 0, 0x0, 0x3, 0x0, 0x0, 0x0, 0⟩,
   ⟨0x100004, 1, 0x0, 0, 1, 0x0, 0, 0x3, 0x0, 0x0, 0x0, 0x1, 0⟩,
   ⟨0x100010, 6, 0x4, 0, 1, 0x0, 0, 0x0, 0x0, 0x0, 0x0, 0x0, 0⟩,
   ⟨0x100030, 6, 0x4, 0, 1, 0x0, 0, 0x0, 0x0, 0x0, 0x0, 0x0, 0⟩,
   ⟨0x100050, 6, 0x4, 0, 1, 0x0, 0, 0x0, 0x0, 0x0, 0x0, 0x0, 0⟩,
   ⟨0x100100, 16, 0x4, 0, 1, 0x0, 0, 0x3FFFFF, 0x0, 0x0, 0x0, 0xFF, 0⟩,
   ⟨0x101000, 192, 0x4, 0, 1, 0x0, 0, 0xFFFF0000, 0x0, 0x0, 0x0, 0x0, 0⟩]

/-- Block FIELD (b = 0x11). -/
def regMapFIELD : List RegDesc :=
  [⟨0x110000, 1, 0x0, 0, 1, 0x0, 0, 0xFFFF, 0x0, 0x0, 0x0, 0x88B5, 0⟩,
   ⟨0x110004, 1, 0x0, 0, 1, 0x0, 0, 0x0, 0x1FF, 0x0, 0x0, 0x0, 0⟩,
   ⟨0x110008, 1, 0x0, 0, 1, 0x0, 0, 0x1FF, 0x0, 0x0, 0x0, 0x7D, 0⟩,
   ⟨0x11000C, 1, 0x0, 0, 1, 0x0, 0, 0x1FFF, 0x0, 0x0, 0x0, 0x0, 0⟩,
   ⟨0x110100, 4, 0x80, 0, 1, 0x0, 0, 0xFF, 0x0, 0x0, 0x0, 0x0, 0⟩,
   ⟨0x110104, 4, 0x80, 0, 1, 0x0, 0, 0x0, 0x0, 0x0, 0x0, 0x0, 0⟩,
   ⟨0x110108, 4, 0x80, 0, 1, 0x0, 0, 0x3FF03FF, 0x0, 0x0, 0x0, 0x0, 0⟩,
   ⟨0x11010C, 4, 0x80, 0, 1, 0x0, 0, 0x1FFFFFFF, 0x0, 0x0, 0x0, 0x2000003, 0⟩,
   ⟨0x110110, 4, 0x80, 0, 1, 0x0, 0, 0x0, 0x0, 0x0, 0x0, 0x0, 1⟩,
   ⟨0x110114, 4, 0x80, 0, 1, 0x0, 0, 0x0, 0x0, 0x0, 0x0, 0x0, 2⟩,
   ⟨0x110118, 4, 0x80, 0, 1, 0x0, 0, 0xFFFFFFFF, 0x0, 0x0, 0x0, 0xFFFFFFFF, 1⟩,
   ⟨0x11011C, 4, 0x80, 0, 1, 0x0, 0, 0xFFFF, 0x0, 0x0, 0x0, 0xFFFF, 2⟩,
   ⟨0x110120, 4, 0x80, 0, 1, 0x0, 0, 0x0, 0x0, 0x0, 0x0, 0x0, 0⟩,
   ⟨0x110124, 4, 0x80, 0, 1, 0x0, 0, 0x7FFFFFF, 0x0, 0x0, 0x8000000, 0x0, 0⟩,
   ⟨0x110128, 4, 0x80, 0, 1, 0x0, 0, 0x0, 0x0, 0xFFFFFFFF, 0x0, 0x0, 0⟩,
   ⟨0x11012C, 4, 0x80, 0, 1, 0x0, 0, 0x0, 0x0, 0xFFFFFFFF, 0x0, 0x0, 0⟩,
   ⟨0x110130, 4, 0x80, 0, 1, 0x0, 0, 0x0, 0x0, 0x0, 0x0, 0x0, 1⟩,
   ⟨0x110134, 4, 0x80, 0, 1, 0x0, 0, 0x0, 0x0, 0x0, 0x0, 0x0, 2⟩,
   ⟨0x110138, 4, 0x80, 0, 1, 0x0, 0, 0x0, 0x0, 0xFFFFFFFF, 0x0, 0x0, 0⟩,
   ⟨0x11013C, 4, 0x80, 0, 1, 0x0, 0, 0x0, 0x0, 0xFFFFFFFF, 0x0, 0x0, 0⟩] ++
  [⟨0x110140, 4, 0x80, 0, 1, 0x0, 0, 0x0, 0x0, 0xFFFFFFFF, 0x0, 0x0, 0⟩,
   ⟨0x110144, 4, 0x80, 0, 1, 0x0, 0, 0x0, 0x0, 0xFFFFFFFF, 0x0, 0x0, 0⟩,
   ⟨0x110160, 4, 0x80, 0, 8, 0x4, 0, 0x0, 0x0, 0x0, 0x0, 0x0, 0⟩,
   ⟨0x111000, 4, 0x1000, 0, 256, 0x10, 0, 0x0, 0x0, 0x0, 0x0, 0x1, 0⟩,
   ⟨0x111004, 4, 0x1000, 0, 256, 0x10, 0, 0x1, 0x0, 0x0, 0x0, 0x0, 0⟩,
   ⟨0x111008, 4, 0x1000, 0, 256, 0x10, 0, 0x0, 0x0, 0x0, 0x0, 0x0, 0⟩,
   ⟨0x11100C, 4, 0x1000, 0, 256, 0x10, 0, 0x0, 0x0, 0xFFFFFFFF, 0x0, 0x0, 0⟩]

/-- Block CAN (b = 0x12). -/
def regMapCAN : List RegDesc :=
  [⟨0x120000, 1, 0x0, 0, 1, 0x0, 0, 0x0, 0x3F, 0x0, 0x0, 0x0, 0⟩,
   ⟨0x120004, 1, 0x0, 0, 1, 0x0, 0, 0x3F, 0x0, 0x0, 0x0, 0xF, 0⟩,
   ⟨0x120008, 1, 0x0, 0, 1, 0x0, 0, 0x1FFF, 0x0, 0x0, 0x0, 0x0, 0⟩,
   ⟨0x120100, 4, 0x40, 0, 1, 0x0, 0, 0xF0007, 0x0, 0x0, 0x0, 0x0, 0⟩,
   ⟨0x120104, 4, 0x40, 0, 1, 0x0, 0, 0x0, 0x0, 0x0, 0x0, 0x0, 0⟩,
   ⟨0x120108, 4, 0x40, 0, 1, 0x0, 0, 0xFFFFFFFF, 0x0, 0x0, 0x0, 0x0, 0⟩,
   ⟨0x12010C, 4, 0x40, 0, 1, 0x0, 0, 0xFFFFFFFF, 0x0, 0x0, 0x0, 0x0, 0⟩,
   ⟨0x120110, 4, 0x40, 0, 1, 0x0, 0, 0x3FF03FF, 0x0, 0x0, 0x0, 0x0, 0⟩,
   ⟨0x120114, 4, 0x40, 0, 1, 0x0, 0, 0x0, 0x0, 0x0, 0xFFFF017F, 0x0, 0⟩,
   ⟨0x120118, 4, 0x40, 0, 1, 0x0, 0, 0xFFFFFF, 0x0, 0x0, 0x0, 0x0, 0⟩,
   ⟨0x12011C, 4, 0x40, 0, 1, 0x0, 0, 0x7FF, 0x0, 0x0, 0x0, 0x0, 0⟩,
   ⟨0x120120, 4, 0x40, 0, 1, 0x0, 0, 0x0, 0x0, 0x0, 0x0, 0x0, 0⟩,
   ⟨0x120124, 4, 0x40, 0, 1, 0x0, 0, 0x0, 0x0, 0x0, 0x0, 0x0, 0⟩,
   ⟨0x120128, 4, 0x40, 0, 1, 0x0, 0, 0x0, 0x0, 0xFFFFFFFF, 0x0, 0x0, 0⟩,
   ⟨0x12012C, 4, 0x40, 0, 1, 0x0, 0, 0x0, 0x0, 0xFFFFFFFF, 0x0, 0x0, 0⟩,
   ⟨0x121000, 4, 0x800, 0, 127, 0x10, 1, 0x0, 0x0, 0x0, 0x0, 0x0, 0⟩,
   ⟨0x121004, 4, 0x800, 0, 127, 0x10, 1, 0x0, 0x0, 0x0, 0x0, 0x0, 1⟩,
   ⟨0x121008, 4, 0x800, 0, 127, 0x10, 1, 0x0, 0x0, 0x0, 0x0, 0x0, 2⟩,
   ⟨0x12100C, 4, 0x800, 0, 127, 0x10, 1, 0x0, 0x0, 0xFFFFFFFF, 0x0, 0x0, 0⟩,
   ⟨0x124000, 4, 0x400, 0, 256, 0x4, 0, 0xFFFFFFFF, 0x0, 0x0, 0x0, 0x0, 0⟩]

/-- Block SER (b = 0x13). -/
def regMapSER : List RegDesc :=
  [⟨0x130000, 1, 0x0, 0, 1, 0x0, 0, 0x0, 0xF, 0x0, 0x0, 0x0, 0⟩,
   ⟨0x130004, 1, 0x0, 0, 1, 0x0, 0, 0xF, 0x0, 0x0, 0x0, 0x3, 0⟩,
   ⟨0x130008, 1, 0x0, 0, 1, 0x0, 0, 0x1FFF, 0x0, 0x0, 0x0, 0x0, 0⟩,
   ⟨0x130100, 4, 0x40, 0, 1, 0x0, 0, 0xF, 0x0, 0x0, 0x0, 0x0, 0⟩,
   ⟨0x130104, 4, 0x40, 0, 1, 0x0, 0, 0xFFFFFF, 0x0, 0x0, 0x0, 0x6AAAB, 0⟩,
   ⟨0x130108, 4, 0x40, 0, 1, 0x0, 0, 0x3FF03FF, 0x0, 0x0, 0x0, 0x0, 0⟩,
   ⟨0x13010C, 4, 0x40, 0, 1, 0x0, 0, 0xFFFFFFFF, 0x0, 0x0, 0x0, 0xA310064, 0⟩,
   ⟨0x130110, 4, 0x40, 0, 1, 0x0, 0, 0x0, 0x0, 0x0, 0x0, 0x0, 0⟩,
   ⟨0x130114, 4, 0x40, 0, 1, 0x0, 0, 0x0, 0x0, 0xFFFFFFFF, 0x0, 0x0, 0⟩,
   ⟨0x130118, 4, 0x40, 0, 1, 0x0, 0, 0x0, 0x0, 0x0, 0x0, 0x0, 0⟩,
   ⟨0x131000, 4, 0x1000, 0, 247, 0x10, 1, 0x0, 0x0, 0x0, 0x0, 0x0, 0⟩,
   ⟨0x131004, 4, 0x1000, 0, 247, 0x10, 1, 0x0, 0x0, 0xFFFFFFFF, 0x0, 0x0, 0⟩]

/-- Block UPLINK (b = 0x14). -/
def regMapUPLINK : List RegDesc :=
  [⟨0x140000, 1, 0x0, 0, 1, 0x0, 0, 0x0, 0x7, 0x0, 0x0, 0x0, 0⟩,
   ⟨0x140004, 1, 0x0, 0, 1, 0x0, 0, 0x7, 0x0, 0x0, 0x0, 0x3, 0⟩,
   ⟨0x140100, 2, 0x80, 0, 1, 0x0, 0, 0xF, 0x0, 0x0, 0x0, 0x0, 0⟩,
   ⟨0x140104, 2, 0x80, 0, 1, 0x0, 0, 0x0, 0x0, 0x0, 0x0, 0x0, 0⟩,
   ⟨0x140108, 2, 0x80, 0, 1, 0x0, 0, 0x0, 0x0, 0x0, 0x0, 0x0, 1⟩,
   ⟨0x14010C, 2, 0x80, 0, 1, 0x0, 0, 0x0, 0x0, 0x0, 0x0, 0x0, 2⟩,
   ⟨0x140110, 2, 0x80, 0, 1, 0x0, 0, 0xFFFFFFFF, 0x0, 0x0, 0x0, 0x0, 0⟩,
   ⟨0x140114, 2, 0x80, 0, 1, 0x0, 0, 0xFFFFFFFF, 0x0, 0x0, 0x0, 0x0, 0⟩,
   ⟨0x140118, 2, 0x80, 0, 1, 0x0, 0, 0xFFFFFFFF, 0x0, 0x0, 0x0, 0x0, 0⟩,
   ⟨0x140120, 2, 0x80, 0, 4, 0x4, 0, 0xFFFFFFFF, 0x0, 0x0, 0x0, 0x0, 0⟩,
   ⟨0x140130, 2, 0x80, 0, 1, 0x0, 0, 0xFF, 0x0, 0x0, 0x0, 0x0, 0⟩,
   ⟨0x140140, 2, 0x80, 0, 1, 0x0, 0, 0x0, 0x0, 0xFFFFFFFF, 0x0, 0x0, 0⟩,
   ⟨0x140144, 2, 0x80, 0, 1, 0x0, 0, 0x0, 0x0, 0xFFFFFFFF, 0x0, 0x0, 0⟩,
   ⟨0x140148, 2, 0x80, 0, 1, 0x0, 0, 0x0, 0x0, 0xFFFFFFFF, 0x0, 0x0, 0⟩,
   ⟨0x14014C, 2, 0x80, 0, 1, 0x0, 0, 0x0, 0x0, 0xFFFFFFFF, 0x0, 0x0, 0⟩]

/-- Block PTP (b = 0x15). -/
def regMapPTP : List RegDesc :=
  [⟨0x150000, 1, 0x0, 0, 1, 0x0, 0, 0xFFF3F, 0x0, 0x0, 0x0, 0x30002, 0⟩,
   ⟨0x150004, 1, 0x0, 0, 1, 0x0, 0, 0x0, 0x0, 0x0, 0x0, 0x0, 0⟩,
   ⟨0x150008, 1, 0x0, 0, 1, 0x0, 0, 0x0, 0x3FF, 0x0, 0x0, 0x0, 0⟩,
   ⟨0x15000C, 1, 0x0, 0, 1, 0x0, 0, 0x3FF, 0x0, 0x0, 0x0, 0xB8, 0⟩,
   ⟨0x150010, 1, 0x0, 0, 1, 0x0, 0, 0x1FF00FF, 0x0, 0x0, 0x0, 0x640063, 0⟩,
   ⟨0x150014, 1, 0x0, 0, 1, 0x0, 0, 0xFFFFFF, 0x0, 0x0, 0x0, 0x80640, 0⟩,
   ⟨0x150018, 1, 0x0, 0, 1, 0x0, 0, 0xFFFFFF, 0x0, 0x0, 0x0, 0x100032, 0⟩,
   ⟨0x15001C, 1, 0x0, 0, 1, 0x0, 0, 0xFFFF, 0x0, 0x0, 0x0, 0x3E8, 0⟩,
   ⟨0x150020, 1, 0x0, 0, 1, 0x0, 0, 0x0, 0x0, 0x0, 0x0, 0x0, 1⟩,
   ⟨0x150024, 1, 0x0, 0, 1, 0x0, 0, 0x0, 0x0, 0x0, 0x0, 0x0, 2⟩,
   ⟨0x150028, 1, 0x0, 0, 1, 0x0, 0, 0x0, 0x0, 0x0, 0x0, 0x0, 0⟩,
   ⟨0x15002C, 1, 0x0, 0, 1, 0x0, 0, 0x0, 0x0, 0x0, 0x0, 0x0, 0⟩,
   ⟨0x150030, 1, 0x0, 0, 1, 0x0, 0, 0xFFFFFFFF, 0x0, 0x0, 0x0, 0x0, 0⟩,
   ⟨0x150034, 1, 0x0, 0, 1, 0x0, 0, 0x0, 0x0, 0x0, 0x0, 0x0, 0⟩,
   ⟨0x150038, 1, 0x0, 0, 1, 0x0, 0, 0x0, 0x0, 0x0, 0x0, 0x0, 1⟩,
   ⟨0x15003C, 1, 0x0, 0, 1, 0x0, 0, 0x0, 0x0, 0x0, 0x0, 0x0, 2⟩,
   ⟨0x150040, 1, 0x0, 0, 1, 0x0, 0, 0x0, 0x0, 0x0, 0x0, 0x0, 1⟩,
   ⟨0x150044, 1, 0x0, 0, 1, 0x0, 0, 0x0, 0x0, 0x0, 0x0, 0x0, 2⟩,
   ⟨0x150048, 1, 0x0, 0, 1, 0x0, 0, 0x0, 0x0, 0x0, 0x0, 0x0, 1⟩,
   ⟨0x15004C, 1, 0x0, 0, 1, 0x0, 0, 0x0, 0x0, 0x0, 0x0, 0x0, 2⟩] ++
  [⟨0x150050, 1, 0x0, 0, 1, 0x0, 0, 0x0, 0x0, 0x0, 0x0, 0x0, 0⟩,
   ⟨0x150054, 1, 0x0, 0, 1, 0x0, 0, 0x0, 0x0, 0xFFFFFFFF, 0x0, 0x0, 0⟩,
   ⟨0x150058, 1, 0x0, 0, 1, 0x0, 0, 0x0, 0x0, 0xFFFFFFFF, 0x0, 0x0, 0⟩,
   ⟨0x15005C, 1, 0x0, 0, 1, 0x0, 0, 0x0, 0x0, 0xFFFFFFFF, 0x0, 0x0, 0⟩,
   ⟨0x150100, 6, 0x10, 0, 1, 0x0, 0, 0xFFFFFFFF, 0x0, 0x0, 0x0, 0x0, 0⟩,
   ⟨0x150104, 6, 0x10, 0, 1, 0x0, 0, 0xFF1FF1, 0x0, 0x0, 0x0, 0xF80140, 0⟩,
   ⟨0x150108, 6, 0x10, 0, 1, 0x0, 0, 0x0, 0x0, 0xFFFFFFFF, 0x0, 0x0, 0⟩,
   ⟨0x15010C, 6, 0x10, 0, 1, 0x0, 0, 0x0, 0x0, 0xFFFFFFFF, 0x0, 0x0, 0⟩]

/-- Block JOA (b = 0x16). -/
def regMapJOA : List RegDesc :=
  [⟨0x160000, 1, 0x0, 0, 1, 0x0, 0, 0x7, 0x0, 0x0, 0x0, 0x7, 0⟩,
   ⟨0x160004, 1, 0x0, 0, 1, 0x0, 0, 0x0, 0x0, 0x0, 0x0, 0x3F00, 0⟩,
   ⟨0x160008, 1, 0x0, 0, 1, 0x0, 0, 0x0, 0xFF, 0x0, 0x0, 0x0, 0⟩,
   ⟨0x16000C, 1, 0x0, 0, 1, 0x0, 0, 0xFF, 0x0, 0x0, 0x0, 0x4, 0⟩,
   ⟨0x160010, 1, 0x0, 0, 1, 0x0, 0, 0xFFFF, 0x0, 0x0, 0x0, 0xC558, 0⟩,
   ⟨0x160014, 1, 0x0, 0, 1, 0x0, 0, 0xFFFF, 0x0, 0x0, 0x0, 0x88B6, 0⟩,
   ⟨0x160018, 1, 0x0, 0, 1, 0x0, 0, 0xFFF, 0x0, 0x0, 0x0, 0x1E, 0⟩,
   ⟨0x16001C, 1, 0x0, 0, 1, 0x0, 0, 0xFFFF, 0x0, 0x0, 0x0, 0x1F4, 0⟩,
   ⟨0x160020, 1, 0x0, 0, 1, 0x0, 0, 0x0, 0x0, 0xFFFFFFFF, 0x0, 0x0, 0⟩,
   ⟨0x160024, 1, 0x0, 0, 1, 0x0, 0, 0x0, 0x0, 0xFFFFFFFF, 0x0, 0x0, 0⟩,
   ⟨0x160028, 1, 0x0, 0, 1, 0x0, 0, 0x0, 0x0, 0xFFFFFFFF, 0x0, 0x0, 0⟩,
   ⟨0x160100, 32, 0x10, 0, 1, 0x0, 0, 0x0, 0x0, 0x0, 0x0, 0x0, 0⟩,
   ⟨0x160104, 32, 0x10, 0, 1, 0x0, 0, 0x0, 0x0, 0x0, 0x0, 0x0, 0⟩,
   ⟨0x160108, 32, 0x10, 0, 1, 0x0, 0, 0x0, 0x0, 0xFFFFFFFF, 0x0, 0x0, 0⟩,
   ⟨0x16010C, 32, 0x10, 0, 1, 0x0, 0, 0x0, 0x0, 0x0, 0xFFFF0001, 0x0, 0⟩,
   ⟨0x160400, 48, 0x4, 0, 1, 0x0, 0, 0x0, 0x0, 0x0, 0x0, 0x0, 0⟩]

/-- Block SAFEMIR (b = 0x17). -/
def regMapSAFEMIR : List RegDesc :=
  [⟨0x170000, 1, 0x0, 0, 1, 0x0, 0, 0x0, 0x0, 0x0, 0x0, 0x0, 0⟩,
   ⟨0x170004, 1, 0x0, 0, 1, 0x0, 0, 0x0, 0x1FF, 0x0, 0x0, 0x0, 0⟩,
   ⟨0x170008, 1, 0x0, 0, 1, 0x0, 0, 0x1FF, 0x0, 0x0, 0x0, 0x1E, 0⟩,
   ⟨0x17000C, 1, 0x0, 0, 1, 0x0, 0, 0x1FF, 0x0, 0x0, 0x0, 0x0, 0⟩,
   ⟨0x170010, 1, 0x0, 0, 1, 0x0, 0, 0x0, 0x0, 0x0, 0xFFFF0003, 0x0, 0⟩,
   ⟨0x170014, 1, 0x0, 0, 1, 0x0, 0, 0x0, 0x0, 0x0, 0x0, 0x0, 0⟩,
   ⟨0x170018, 1, 0x0, 0, 1, 0x0, 0, 0x0, 0x0, 0x0, 0x0, 0x0, 0⟩,
   ⟨0x17001C, 1, 0x0, 0, 1, 0x0, 0, 0x0, 0x0, 0x0, 0x0, 0x0, 0⟩,
   ⟨0x170020, 1, 0x0, 0, 1, 0x0, 0, 0x0, 0x0, 0x0, 0x0, 0x0, 0⟩,
   ⟨0x170024, 1, 0x0, 0, 1, 0x0, 0, 0x0, 0x0, 0x0, 0x0, 0x0, 1⟩,
   ⟨0x170028, 1, 0x0, 0, 1, 0x0, 0, 0x0, 0x0, 0x0, 0x0, 0x0, 2⟩,
   ⟨0x17002C, 1, 0x0, 0, 1, 0x0, 0, 0x0, 0x0, 0x0, 0x0, 0x0, 0⟩,
   ⟨0x170030, 1, 0x0, 0, 1, 0x0, 0, 0x0, 0x0, 0xFFFFFFFF, 0x0, 0x0, 0⟩,
   ⟨0x170034, 1, 0x0, 0, 1, 0x0, 0, 0x0, 0x0, 0xFFFFFFFF, 0x0, 0x0, 0⟩,
   ⟨0x170040, 4, 0x4, 0, 1, 0x0, 0, 0x0, 0x0, 0x0, 0x0, 0x0, 0⟩,
   ⟨0x170100, 16, 0x4, 0, 1, 0x0, 0, 0x0, 0x0, 0x0, 0x0, 0x0, 0⟩,
   ⟨0x170180, 8, 0x4, 0, 1, 0x0, 0, 0x0, 0x0, 0x0, 0x0, 0x0, 0⟩]

/-- Block MEM (b = 0x18). -/
def regMapMEM : List RegDesc :=
  [⟨0x180000, 1, 0x0, 0, 1, 0x0, 0, 0x0, 0xFF, 0x0, 0x0, 0x0, 0⟩,
   ⟨0x180004, 1, 0x0, 0, 1, 0x0, 0, 0xFF, 0x0, 0x0, 0x0, 0x8A, 0⟩,
   ⟨0x180008, 1, 0x0, 0, 1, 0x0, 0, 0x0, 0x0, 0xFFFFFFFF, 0x0, 0x0, 0⟩,
   ⟨0x18000C, 1, 0x0, 0, 1, 0x0, 0, 0x0, 0x0, 0xFFFFFFFF, 0x0, 0x0, 0⟩,
   ⟨0x180010, 1, 0x0, 0, 1, 0x0, 0, 0x0, 0x0, 0xFFFFFFFF, 0x0, 0x0, 0⟩,
   ⟨0x180014, 1, 0x0, 0, 1, 0x0, 0, 0x0, 0x0, 0x0, 0x0, 0x0, 1⟩,
   ⟨0x180018, 1, 0x0, 0, 1, 0x0, 0, 0x0, 0x0, 0x0, 0x0, 0x0, 2⟩,
   ⟨0x18001C, 1, 0x0, 0, 1, 0x0, 0, 0x0, 0x0, 0xFFFFFFFF, 0x0, 0x0, 0⟩,
   ⟨0x180020, 1, 0x0, 0, 1, 0x0, 0, 0x0, 0x0, 0xFFFFFFFF, 0x0, 0x0, 0⟩,
   ⟨0x180024, 1, 0x0, 0, 1, 0x0, 0, 0x0, 0x0, 0x0, 0x0, 0x0, 1⟩,
   ⟨0x180028, 1, 0x0, 0, 1, 0x0, 0, 0x0, 0x0, 0x0, 0x0, 0x0, 2⟩,
   ⟨0x180030, 1, 0x0, 0, 1, 0x0, 0, 0xFFFF0001, 0x0, 0x0, 0x0, 0x1000001, 0⟩,
   ⟨0x180034, 1, 0x0, 0, 1, 0x0, 0, 0x0, 0x0, 0x0, 0x0, 0x0, 0⟩,
   ⟨0x180038, 1, 0x0, 0, 1, 0x0, 0, 0xFFFF0001, 0x0, 0x0, 0x0, 0x1000001, 0⟩,
   ⟨0x18003C, 1, 0x0, 0, 1, 0x0, 0, 0x0, 0x0, 0xFFFFFFFF, 0x0, 0x0, 0⟩,
   ⟨0x180100, 9, 0x10, 0, 1, 0x0, 0, 0x0, 0x0, 0x0, 0x0, 0x0, 0⟩,
   ⟨0x180104, 9, 0x10, 0, 1, 0x0, 0, 0x7, 0x0, 0x0, 0xFFFF0000, 0x0, 0⟩,
   ⟨0x180108, 9, 0x10, 0, 1, 0x0, 0, 0x0, 0x0, 0xFFFFFFFF, 0x0, 0x0, 0⟩,
   ⟨0x18010C, 9, 0x10, 0, 1, 0x0, 0, 0x0, 0x0, 0xFF00FF, 0x0, 0x0, 0⟩]

/-- Block BIST (b = 0x19). -/
def regMapBIST : List RegDesc :=
  [⟨0x190000, 1, 0x0, 0, 1, 0x0, 0, 0xFFFF0001, 0x0, 0x0, 0x2, 0x5DC0001, 0⟩,
   ⟨0x190004, 1, 0x0, 0, 1, 0x0, 0, 0x0, 0x0, 0x0, 0x0, 0x0, 0⟩,
   ⟨0x190008, 1, 0x0, 0, 1, 0x0, 0, 0x0, 0xF, 0x0, 0x0, 0x0, 0⟩,
   ⟨0x19000C, 1, 0x0, 0, 1, 0x0, 0, 0xF, 0x0, 0x0, 0x0, 0xC, 0⟩,
   ⟨0x190010, 1, 0x0, 0, 1, 0x0, 0, 0x0, 0x0, 0x0, 0x0, 0x0, 0⟩,
   ⟨0x190014, 1, 0x0, 0, 1, 0x0, 0, 0x0, 0x0, 0x0, 0x0, 0x0, 0⟩,
   ⟨0x190018, 1, 0x0, 0, 1, 0x0, 0, 0x0, 0x0, 0xFFFFFFFF, 0x0, 0x0, 0⟩,
   ⟨0x19001C, 1, 0x0, 0, 1, 0x0, 0, 0x0, 0x0, 0x0, 0x0, 0x0, 0⟩,
   ⟨0x190020, 1, 0x0, 0, 1, 0x0, 0, 0x0, 0x0, 0x0, 0x0, 0x0, 0⟩,
   ⟨0x190024, 1, 0x0, 0, 1, 0x0, 0, 0x0, 0x0, 0x0, 0x0, 0x0, 0⟩,
   ⟨0x190028, 1, 0x0, 0, 1, 0x0, 0, 0x7FF, 0x0, 0x0, 0x0, 0x0, 0⟩,
   ⟨0x190030, 4, 0x4, 0, 1, 0x0, 0, 0x0, 0x0, 0x0, 0x0, 0x0, 0⟩]

/-- Block GRAN (b = 0x1A). -/
def regMapGRAN : List RegDesc :=
  [⟨0x1A0000, 1, 0x0, 0, 1, 0x0, 0, 0x0, 0x0, 0x0, 0x0, 0x0, 0⟩,
   ⟨0x1A0004, 1, 0x0, 0, 1, 0x0, 0, 0x0, 0x3F, 0x0, 0x0, 0x0, 0⟩,
   ⟨0x1A0008, 1, 0x0, 0, 1, 0x0, 0, 0x3F, 0x0, 0x0, 0x0, 0x18, 0⟩,
   ⟨0x1A000C, 1, 0x0, 0, 1, 0x0, 0, 0x1FFFF, 0x0, 0x0, 0x0, 0x10000, 0⟩,
   ⟨0x1A0010, 1, 0x0, 0, 1, 0x0, 0, 0x1FFFFF, 0x0, 0x0, 0x0, 0x40000, 0⟩,
   ⟨0x1A0014, 1, 0x0, 0, 1, 0x0, 0, 0x0, 0x0, 0x0, 0x0, 0x0, 0⟩,
   ⟨0x1A0018, 1, 0x0, 0, 1, 0x0, 0, 0xFFFF, 0x0, 0x0, 0x0, 0x3E80, 0⟩,
   ⟨0x1A001C, 1, 0x0, 0, 1, 0x0, 0, 0x0, 0x0, 0x0, 0x0, 0x0, 0⟩,
   ⟨0x1A0020, 1, 0x0, 0, 1, 0x0, 0, 0x0, 0x0, 0x0, 0x0, 0x0, 0⟩,
   ⟨0x1A0024, 1, 0x0, 0, 1, 0x0, 0, 0x0, 0x0, 0x0, 0x0, 0x6C, 0⟩,
   ⟨0x1A0028, 1, 0x0, 0, 1, 0x0, 0, 0x0, 0x0, 0xFFFFFFFF, 0x0, 0x0, 0⟩,
   ⟨0x1A002C, 1, 0x0, 0, 1, 0x0, 0, 0x0, 0x0, 0xFFFFFFFF, 0x0, 0x0, 0⟩,
   ⟨0x1A0030, 1, 0x0, 0, 1, 0x0, 0, 0x0, 0x0, 0xFFFFFFFF, 0x0, 0x0, 0⟩,
   ⟨0x1A0034, 1, 0x0, 0, 1, 0x0, 0, 0x0, 0x0, 0x0, 0x0, 0x0, 0⟩,
   ⟨0x1A0038, 1, 0x0, 0, 1, 0x0, 0, 0x0, 0x0, 0x0, 0x0, 0x0, 0⟩,
   ⟨0x1A003C, 1, 0x0, 0, 1, 0x0, 0, 0x0, 0x0, 0x0, 0x0, 0x0, 0⟩]

/-- Block SEC (b = 0x1B). -/
def regMapSEC : List RegDesc :=
  [⟨0x1B0000, 1, 0x0, 0, 1, 0x0, 0, 0x0, 0x0, 0x0, 0x0, 0x0, 0⟩,
   ⟨0x1B0004, 1, 0x0, 0, 1, 0x0, 0, 0x0, 0x7F, 0x0, 0x0, 0x0, 0⟩,
   ⟨0x1B0008, 1, 0x0, 0, 1, 0x0, 0, 0x7F, 0x0, 0x0, 0x0, 0x3B, 0⟩,
   ⟨0x1B000C, 1, 0x0, 0, 1, 0x0, 0, 0x0, 0x0, 0x0, 0xFFFF007F, 0x0, 0⟩,
   ⟨0x1B0010, 1, 0x0, 0, 1, 0x0, 0, 0x0, 0x0, 0x0, 0x0, 0x0, 0⟩,
   ⟨0x1B0014, 1, 0x0, 0, 1, 0x0, 0, 0x0, 0x0, 0x0, 0x0, 0x0, 0⟩,
   ⟨0x1B0018, 1, 0x0, 0, 1, 0x0, 0, 0x0, 0x0, 0x0, 0x0, 0x0, 0⟩,
   ⟨0x1B001C, 1, 0x0, 0, 1, 0x0, 0, 0x0, 0x0, 0x0, 0x0, 0x0, 0⟩,
   ⟨0x1B0020, 1, 0x0, 0, 1, 0x0, 0, 0x0, 0x0, 0x0, 0x0, 0x0, 0⟩,
   ⟨0x1B0024, 1, 0x0, 0, 1, 0x0, 0, 0x0, 0x0, 0x0, 0x0, 0x0, 1⟩,
   ⟨0x1B0028, 1, 0x0, 0, 1, 0x0, 0, 0x0, 0x0, 0x0, 0x0, 0x0, 2⟩,
   ⟨0x1B002C, 1, 0x0, 0, 1, 0x0, 0, 0x0, 0x0, 0x0, 0x0, 0x0, 1⟩,
   ⟨0x1B0030, 1, 0x0, 0, 1, 0x0, 0, 0x0, 0x0, 0x0, 0x0, 0x0, 2⟩,
   ⟨0x1B0034, 1, 0x0, 0, 1, 0x0, 0, 0x0, 0x0, 0x0, 0x0, 0x0, 0⟩,
   ⟨0x1B0038, 1, 0x0, 0, 1, 0x0, 0, 0x1F, 0x0, 0x0, 0x0, 0x1F, 0⟩,
   ⟨0x1B003C, 1, 0x0, 0, 1, 0x0, 0, 0x0, 0x0, 0x0, 0x0, 0x0, 0⟩,
   ⟨0x1B0040, 1, 0x0, 0, 1, 0x0, 0, 0x0, 0x0, 0x0, 0x0, 0x0, 0⟩,
   ⟨0x1B0044, 1, 0x0, 0, 1, 0x0, 0, 0x0, 0x0, 0x0, 0x0, 0x0, 1⟩,
   ⟨0x1B0048, 1, 0x0, 0, 1, 0x0, 0, 0x0, 0x0, 0x0, 0x0, 0x0, 2⟩]

/-- Block DRUS (b = 0x1C). -/
def regMapDRUS : List RegDesc :=
  [⟨0x1C0000, 1, 0x0, 0, 1, 0x0, 0, 0x3, 0x0, 0x0, 0x0, 0x1, 0⟩,
   ⟨0x1C0004, 1, 0x0, 0, 1, 0x0, 0, 0x0, 0x0, 0x0, 0x0, 0x0, 0⟩,
   ⟨0x1C0008, 1, 0x0, 0, 1, 0x0, 0, 0x0, 0x7FF, 0x0, 0x0, 0x0, 0⟩,
   ⟨0x1C000C, 1, 0x0, 0, 1, 0x0, 0, 0x7FF, 0x0, 0x0, 0x0, 0x7A6, 0⟩,
   ⟨0x1C0010, 1, 0x0, 0, 1, 0x0, 0, 0x0, 0x0, 0x0, 0x0, 0x0, 0⟩,
   ⟨0x1C0014, 1, 0x0, 0, 1, 0x0, 0, 0x0, 0x0, 0x0, 0x0, 0x0, 0⟩,
   ⟨0x1C0018, 1, 0x0, 0, 1, 0x0, 0, 0xFF, 0x0, 0x0, 0x0, 0x0, 0⟩,
   ⟨0x1C001C, 1, 0x0, 0, 1, 0x0, 0, 0x1FFF, 0x0, 0x0, 0x0, 0x0, 0⟩,
   ⟨0x1C0020, 1, 0x0, 0, 1, 0x0, 0, 0x0, 0x0, 0x0, 0x0, 0x0, 0⟩,
   ⟨0x1C0024, 1, 0x0, 0, 1, 0x0, 0, 0xFFFF, 0x0, 0x0, 0x0, 0x3E8, 0⟩,
   ⟨0x1C0028, 1, 0x0, 0, 1, 0x0, 0, 0xF, 0x0, 0x0, 0x0, 0x3, 0⟩,
   ⟨0x1C002C, 1, 0x0, 0, 1, 0x0, 0, 0x0, 0x0, 0x0, 0x0, 0x0, 0⟩,
   ⟨0x1C0030, 1, 0x0, 0, 1, 0x0, 0, 0x0, 0x0, 0x0, 0x0, 0x0, 0⟩,
   ⟨0x1C0034, 1, 0x0, 0, 1, 0x0, 0, 0x0, 0x0, 0xFFFFFFFF, 0x0, 0x0, 0⟩,
   ⟨0x1C0038, 1, 0x0, 0, 1, 0x0, 0, 0x0, 0x0, 0xFFFFFFFF, 0x0, 0x0, 0⟩,
   ⟨0x1C0100, 3, 0x20, 0, 1, 0x0, 0, 0xF, 0x0, 0x0, 0x0, 0x1, 0⟩,
   ⟨0x1C0104, 3, 0x20, 0, 1, 0x0, 0, 0x0, 0x0, 0x0, 0x0, 0x0, 0⟩,
   ⟨0x1C0108, 3, 0x20, 0, 1, 0x0, 0, 0xFFFFFFFF, 0x0, 0x0, 0x0, 0x0, 0⟩,
   ⟨0x1C010C, 3, 0x20, 0, 1, 0x0, 0, 0x0, 0x0, 0x0, 0x0, 0x0, 0⟩,
   ⟨0x1C0110, 3, 0x20, 0, 1, 0x0, 0, 0x0, 0x0, 0xFFFFFFFF, 0x0, 0x0, 0⟩] ++
  [⟨0x1C0114, 3, 0x20, 0, 1, 0x0, 0, 0x0, 0x0, 0xFFFFFFFF, 0x0, 0x0, 0⟩]

/-- Block DDR (b = 0x1D). -/
def regMapDDR : List RegDesc :=
  [⟨0x1D0000, 1, 0x0, 0, 1, 0x0, 0, 0xF, 0x0, 0x0, 0x10, 0x0, 0⟩,
   ⟨0x1D0004, 1, 0x0, 0, 1, 0x0, 0, 0x0, 0x0, 0x0, 0x0, 0x0, 0⟩,
   ⟨0x1D0008, 1, 0x0, 0, 1, 0x0, 0, 0x0, 0x1F, 0x0, 0x0, 0x0, 0⟩,
   ⟨0x1D000C, 1, 0x0, 0, 1, 0x0, 0, 0x1F, 0x0, 0x0, 0x0, 0x6, 0⟩,
   ⟨0x1D0010, 1, 0x0, 0, 1, 0x0, 0, 0x0, 0x0, 0x0, 0x0, 0x0, 0⟩,
   ⟨0x1D0014, 1, 0x0, 0, 1, 0x0, 0, 0x0, 0x0, 0xFFFFFFFF, 0x0, 0x0, 0⟩,
   ⟨0x1D0018, 1, 0x0, 0, 1, 0x0, 0, 0x0, 0x0, 0xFFFFFFFF, 0x0, 0x0, 0⟩,
   ⟨0x1D001C, 1, 0x0, 0, 1, 0x0, 0, 0x0, 0x0, 0x0, 0x0, 0x0, 1⟩,
   ⟨0x1D0020, 1, 0x0, 0, 1, 0x0, 0, 0x0, 0x0, 0x0, 0x0, 0x0, 2⟩,
   ⟨0x1D0024, 1, 0x0, 0, 1, 0x0, 0, 0x6, 0x0, 0x0, 0x1, 0x0, 0⟩,
   ⟨0x1D0028, 1, 0x0, 0, 1, 0x0, 0, 0x1FFF, 0x0, 0x0, 0x0, 0x0, 0⟩,
   ⟨0x1D002C, 1, 0x0, 0, 1, 0x0, 0, 0x3FFF, 0x0, 0x0, 0x0, 0x0, 0⟩,
   ⟨0x1D0030, 1, 0x0, 0, 1, 0x0, 0, 0x0, 0x0, 0x0, 0x0, 0x0, 0⟩,
   ⟨0x1D0034, 1, 0x0, 0, 1, 0x0, 0, 0x0, 0x0, 0x0, 0x0, 0x0, 0⟩,
   ⟨0x1D0038, 1, 0x0, 0, 1, 0x0, 0, 0x0, 0x0, 0x0, 0x0, 0x0, 0⟩]

/-- Block XSPI (b = 0x1E). -/
def regMapXSPI : List RegDesc :=
  [⟨0x1E0000, 1, 0x0, 0, 1, 0x0, 0, 0x0, 0x0, 0x0, 0x0, 0x0, 0⟩,
   ⟨0x1E0004, 1, 0x0, 0, 1, 0x0, 0, 0x0, 0x7, 0x0, 0x0, 0x0, 0⟩,
   ⟨0x1E0008, 1, 0x0, 0, 1, 0x0, 0, 0x7, 0x0, 0x0, 0x0, 0x5, 0⟩,
   ⟨0x1E000C, 1, 0x0, 0, 1, 0x0, 0, 0x0, 0x0, 0x0, 0x0, 0x0, 0⟩,
   ⟨0x1E0010, 1, 0x0, 0, 1, 0x0, 0, 0x0, 0x0, 0x0, 0x0, 0x0, 0⟩,
   ⟨0x1E0014, 1, 0x0, 0, 1, 0x0, 0, 0x0, 0x0, 0xFFFFFFFF, 0x0, 0x0, 0⟩]

/-- Block LINKTEST (b = 0x1F). -/
def regMapLINKTEST : List RegDesc :=
  [⟨0x1F0000, 1, 0x0, 0, 1, 0x0, 0, 0x0, 0x7, 0x0, 0x0, 0x0, 0⟩,
   ⟨0x1F0004, 1, 0x0, 0, 1, 0x0, 0, 0x7, 0x0, 0x0, 0x0, 0x0, 0⟩,
   ⟨0x1F0100, 8, 0x20, 0, 1, 0x0, 0, 0xF7, 0x0, 0x0, 0x300, 0x0, 0⟩,
   ⟨0x1F0104, 8, 0x20, 0, 1, 0x0, 0, 0x0, 0x0, 0x0, 0x0, 0x0, 0⟩,
   ⟨0x1F0108, 8, 0x20, 0, 1, 0x0, 0, 0x0, 0x0, 0x0, 0x0, 0x0, 1⟩,
   ⟨0x1F010C, 8, 0x20, 0, 1, 0x0, 0, 0x0, 0x0, 0x0, 0x0, 0x0, 2⟩,
   ⟨0x1F0110, 8, 0x20, 0, 1, 0x0, 0, 0x0, 0x0, 0x0, 0x0, 0x0, 1⟩,
   ⟨0x1F0114, 8, 0x20, 0, 1, 0x0, 0, 0x0, 0x0, 0x0, 0x0, 0x0, 2⟩,
   ⟨0x1F0118, 8, 0x20, 0, 1, 0x0, 0, 0x0, 0x0, 0xFFFFFFFF, 0x0, 0x0, 0⟩,
   ⟨0x1F0200, 8, 0x20, 0, 1, 0x0, 0, 0xFFFFFF78, 0x0, 0x0, 0x7, 0x0, 0⟩,
   ⟨0x1F0204, 8, 0x20, 0, 1, 0x0, 0, 0xFFFFFFFF, 0x0, 0x0, 0x0, 0x0, 0⟩,
   ⟨0x1F0208, 8, 0x20, 0, 1, 0x0, 0, 0x0, 0x0, 0x0, 0x0, 0x0, 0⟩,
   ⟨0x1F020C, 8, 0x20, 0, 1, 0x0, 0, 0x0, 0x0, 0x0, 0x0, 0x0, 0⟩,
   ⟨0x1F0210, 8, 0x20, 0, 1, 0x0, 0, 0x0, 0x0, 0x0, 0x0, 0x0, 0⟩,
   ⟨0x1F0214, 8, 0x20, 0, 1, 0x0, 0, 0x0, 0x0, 0x0, 0x0, 0x0, 0⟩]

/-- Block AUn (b = 0x20). -/
def regMapAUn : List RegDesc :=
  [⟨0x200000, 16, 0x10000, 0, 1, 0x0, 0, 0x1F3, 0x0, 0x0, 0x0, 0x0, 0⟩,
   ⟨0x200004, 16, 0x10000, 0, 1, 0x0, 0, 0x0, 0x0, 0x0, 0x0, 0x0, 0⟩,
   ⟨0x200008, 16, 0x10000, 0, 1, 0x0, 0, 0x0, 0xFF, 0x0, 0x0, 0x0, 0⟩,
   ⟨0x20000C, 16, 0x10000, 0, 1, 0x0, 0, 0xFF, 0x0, 0x0, 0x0, 0x98, 0⟩,
   ⟨0x200010, 16, 0x10000, 0, 1, 0x0, 0, 0xFFF0373, 0x0, 0x0, 0x400, 0x0, 0⟩,
   ⟨0x200014, 16, 0x10000, 0, 1, 0x0, 0, 0x2, 0x0, 0x0, 0x1, 0x0, 0⟩,
   ⟨0x200018, 16, 0x10000, 0, 1, 0x0, 0, 0x1FFF, 0x0, 0x0, 0x0, 0x0, 0⟩,
   ⟨0x200020, 16, 0x10000, 0, 1, 0x0, 0, 0x0, 0x0, 0x0, 0x0, 0x0, 1⟩,
   ⟨0x200024, 16, 0x10000, 0, 1, 0x0, 0, 0x0, 0x0, 0x0, 0x0, 0x0, 2⟩,
   ⟨0x200028, 16, 0x10000, 0, 1, 0x0, 0, 0x0, 0x0, 0xFFFFFFFF, 0x0, 0x0, 0⟩,
   ⟨0x20002C, 16, 0x10000, 0, 1, 0x0, 0, 0x0, 0x0, 0xFFFFFFFF, 0x0, 0x0, 0⟩,
   ⟨0x200030, 16, 0x10000, 0, 1, 0x0, 0, 0x0, 0x0, 0x1FFF, 0x0, 0x0, 0⟩,
   ⟨0x200034, 16, 0x10000, 0, 1, 0x0, 0, 0x0, 0x0, 0x0, 0x0, 0x0, 0⟩,
   ⟨0x200040, 16, 0x10000, 0, 4, 0x4, 0, 0x0, 0x0, 0x0, 0x0, 0x0, 0⟩,
   ⟨0x200050, 16, 0x10000, 0, 4, 0x4, 0, 0x0, 0x0, 0x0, 0x0, 0x0, 0⟩,
   ⟨0x200100, 16, 0x10000, 0, 32, 0x4, 0, 0x7F, 0x0, 0x0, 0x0, 0x0, 0⟩,
   ⟨0x200180, 16, 0x10000, 0, 4, 0x4, 0, 0x7F, 0x0, 0x0, 0x0, 0x0, 0⟩,
   ⟨0x200200, 16, 0x10000, 0, 16, 0x4, 0, 0x0, 0x0, 0x80000000, 0x0, 0x0, 0⟩,
   ⟨0x200300, 16, 0x10000, 0, 16, 0x10, 0, 0x7F, 0x0, 0x0, 0x0, 0x0, 0⟩,
   ⟨0x200304, 16, 0x10000, 0, 16, 0x10, 0, 0x0, 0x0, 0x0, 0x0, 0x0, 0⟩] ++
  [⟨0x200308, 16, 0x10000, 0, 16, 0x10, 0, 0xFFFFFFFF, 0x0, 0x0, 0x0, 0x0, 1⟩,
   ⟨0x20030C, 16, 0x10000, 0, 16, 0x10, 0, 0xFFFFFFFF, 0x0, 0x0, 0x0, 0x0, 2⟩]

/-- R454: the registers of block b; the converter units AU0 to AU15 are the blocks 0x20 to 0x2F and share one
description, whose first stride is the block. DESIGN CHOICE (assumptions 8, 213, 215). DEDUCED (assumption 214). -/
def regMap (b : Nat) : List RegDesc :=
  match b with
  | 0x0 => regMapSYS
  | 0x1 => regMapCLK
  | 0x2 => regMapTIME
  | 0x3 => regMapHEAD
  | 0x4 => regMapCOLLIE
  | 0x5 => regMapPLOT
  | 0x6 => regMapEXEC
  | 0x7 => regMapFORCE
  | 0x8 => regMapTXN
  | 0x9 => regMapADC
  | 0xA => regMapACC
  | 0xB => regMapDAC
  | 0xC => regMapCAPT
  | 0xD => regMapGLEAN
  | 0xE => regMapAXIS
  | 0xF => regMapCHOP
  | 0x10 => regMapGPIO
  | 0x11 => regMapFIELD
  | 0x12 => regMapCAN
  | 0x13 => regMapSER
  | 0x14 => regMapUPLINK
  | 0x15 => regMapPTP
  | 0x16 => regMapJOA
  | 0x17 => regMapSAFEMIR
  | 0x18 => regMapMEM
  | 0x19 => regMapBIST
  | 0x1A => regMapGRAN
  | 0x1B => regMapSEC
  | 0x1C => regMapDRUS
  | 0x1D => regMapDDR
  | 0x1E => regMapXSPI
  | 0x1F => regMapLINKTEST
  | b => if 0x20 ≤ b ∧ b < 0x30 then regMapAUn else []

end Sys2Proof.Machine
end

