-- ==== Sys2Proof/Machine/Types/Security.lean ====
section
/-! DEFINITION. The security block (chapter 15): roots and fuses, identity and host keys, the one-time state, lifecycle and tamper. -/

namespace Sys2Proof.Machine

/-- R565: a root slot: the hash of its key once it is programmed, and its revoke fuse. -/
structure RootSlot where
  hash : Option (List Byte)
  revoked : Bool
deriving DecidableEq, Repr

/-- A slot as manufactured. -/
def RootSlot.empty : RootSlot := ⟨none, false⟩

/-- R575: a host key: the P-384 key, and ROLES. -/
structure HostKey where
  key : List Byte
  roles : Nat
deriving DecidableEq, Repr

/-- What the OTP holds of the factory: OFS_g and GAIN_g of the converter units as their registers show them, key unit × 4 + g (R250); the
MAC addresses of the uplinks; the clockIdentity. -/
structure Otp where
  cal : Tbl (Word × Word)
  macs : Tbl Quad
  clockId : Quad
deriving DecidableEq, Repr

/-- No offset, and a gain of 1. -/
def Otp.cal0 : Word × Word := (0, 0x100000)

/-- An OTP with nominal coefficients. DESIGN CHOICE (assumption 211). -/
def Otp.nominal : Otp := ⟨[], [], 0⟩

/-- The security block. -/
structure Security where
  /-- OTP: the serial number, the root slots of each scheme, the RETIRED fuse, and C_otp. -/
  serial : Quad
  rootE : Tbl RootSlot
  rootL : Tbl RootSlot
  retired : Bool
  cOtp : Nat
  /-- Granary secure region: C_mir, the lifecycle state, the identity public keys, the host keys, and the one-time state. -/
  cMir : Nat
  life : Nat
  keys : Option (List Byte)
  hosts : Tbl (Option HostKey)
  lmsN : Nat
  lmsR : Nat
  lmsLost : Nat
  /-- R580: a tamper wipe is in progress; the sources of the last event, COUNT, and V. -/
  wiping : Bool
  tamperSrc : Nat
  tamperCnt : Nat
  tamperV : Quad
  /-- R574: the command whose transition runs. -/
  running : Option Nat
  /-- R578: debug is unlocked; it has been since the last cold reset. -/
  unlocked : Bool
  everUnlocked : Bool
  /-- R620: the safety of a pending firmware activation (R447): the slot. -/
  activating : Option Nat
  otp : Otp
deriving DecidableEq, Repr

/-- A blank device. DESIGN CHOICE (assumption 211). -/
def Security.blank : Security := ⟨0, [], [], false, 0, 0, 0, none, [], 0, 0, 0, false, 0, 0, 0, none, false, false, none, Otp.nominal⟩

end Sys2Proof.Machine
end

