-- ==== Sys2Proof/Machine/Types/Time.lean ====
section
/-! DEFINITION. The state of the time base, the headland generator and HEADSYNC that no register holds (chapter 2),
and the event log's entries (R452). OFFSET, RAW_REF, RATE_ADJ, S, T and the flags are registers and live in
the register table. -/

namespace Sys2Proof.Machine

/-- R55: an expected headland H_m whose acceptance window is not judged yet. -/
structure SyncWindow where
  /-- The base index of H_m. -/
  index : Nat
  /-- The actual virtual time of H_m. -/
  actual : Int
  /-- S_m, the shift of H_m. -/
  shift : Int
  /-- An edge of this window was used. -/
  used : Bool
deriving DecidableEq, Repr

/-- R45 to R58: the headland generator between two headlands. -/
structure Headland where
  /-- RUN was set and the generator has a next headland (R46). -/
  armed : Bool
  /-- The base index of the next headland. -/
  nextB : Nat
  /-- The actual virtual time of the next headland, B × Pg + S_B. -/
  nextActual : Int
  /-- S_next, the shift of the headland that closes the interval in progress (R57). -/
  nextShift : Int
  /-- The target shift in force for the intervals that open (R57). -/
  target : Int
  /-- Target shifts that edges decided, each with the base index of the first opening headland it acts from, in
  the order decided (R57, R665). -/
  pendTargets : List (Int × Nat)
  /-- The next used edge counts as a first edge (R56, R59). -/
  firstEdge : Bool
  /-- Windows not judged yet, oldest first (R55). -/
  windows : List SyncWindow
  /-- R55: edge times that wait until the interval that the next headland opens fixes their window. -/
  early : List Int
  /-- The classes (bit n for Cn) that have had a headland since RUN was set (R52). -/
  classSeen : Nat
  /-- The classes whose headland fell at the last headland (bit n for Cn). -/
  classDue : Nat
  /-- The events of R32 of the last headland still to come: H + 64, H + 96 and H + 128 for outputs and DACs. -/
  sealDue : Bool
  tasksDue : Bool
  switchDue : Bool
  dacDue : Bool
  gleanDue : Bool
  /-- R592: a follower waits for the lead's δ of the interval in progress. -/
  awaitLead : Bool
  /-- R592: what the last headland message said of the lead: that it runs, and its S. -/
  leadRunning : Bool
  leadShift : Int
  /-- R126: the grain D of a controller stop whose seal at D + 64, switch of the outputs at D + 128 and load of the DACs are still to come. -/
  safeSeal : Option Quad
  safeSwitch : Option Quad
  safeDac : Option Quad
deriving DecidableEq, Repr

/-- The generator stopped, as after power-on (R61). -/
def Headland.stopped : Headland :=
  ⟨false, 0, 0, 0, 0, [], true, [], [], 0, 0, false, false, false, false, false, false, false, 0, none, none, none⟩

/-- R452: an entry of the event log. -/
structure EvEntry where
  v : Quad
  code : Nat
  block : Nat
  bit : Nat
  reg : Nat
  rep : Nat
  arg : Quad
deriving DecidableEq, Repr

end Sys2Proof.Machine
end

