-- ==== Sys2Proof/Machine/State.lean ====
section
/-! DEFINITION. The state of the machine, its faults and refusals, and the state after reset. -/

namespace Sys2Proof.Machine

/-- The state of the block: everything the spec gives it, and the queue of commands. -/
structure State where
  /-- The commands that wait, first in, first out. -/
  pending : List Instr
  /-- Every register of the register space (R454) whose value is stored, as its difference from the reset value, by offset from
  0x00_2000_0000. -/
  regs : Tbl Word
  /-- R36: RAW, in grains. -/
  raw : Quad
  /-- R45 to R61: the headland generator and HEADSYNC. -/
  head : Headland
  /-- R452: the event log, oldest entry first. -/
  evlog : List EvEntry
  /-- The number of free values taken so far: the model's own (assumption 3). -/
  free : Nat
  /-- The word that the last register or memory read returned. -/
  readData : Word
  /-- R15: the latched high word of each master and pair. -/
  latch : Tbl (Option Word)
  /-- R43, R256, R257: the group latches of each master. -/
  group : Tbl (Option Word)
  /-- R16: the staged low word of each master and pair. -/
  stage : Tbl (Option Word)
  /-- R654: the test-frame generators. -/
  gens : Tbl FrameGen
  /-- R653: the bit errors injected into each lane. -/
  injected : Tbl Nat
  /-- The active configuration image. -/
  image : Image
  /-- R136: the old image during an online change. -/
  oldImage : Option Image
  /-- R133: the image that an online change brings. -/
  newImage : Option ConfigBody
  /-- Chapter 5: Collie, the cores and the task state. -/
  collie : Collie
  /-- Chapter 6: the TXN engine. -/
  txn : TxnEngine
  /-- Chapter 4: the controller, cuts and the bridge. -/
  exec : Exec
  /-- R30 to R32: the live and sealed images and the balls. -/
  img : Images
  /-- R25: the bytes received for the input image. -/
  inputs : Tbl Byte
  /-- R90: the quality of the input sources. -/
  quals : Tbl Nat
  /-- R90: the headland at which each input source was last received, plus one. -/
  ages : Tbl Nat
  /-- R121: the pulse-catch latches. -/
  pulses : Tbl Nat
  /-- Chapter 10: stations, nodes, slaves and pins. -/
  field : Field
  /-- Chapter 9: axes and choppers. -/
  motion : Motion
  /-- Chapter 7: converter units, accumulators and DACs. -/
  analog : Analog
  /-- R527, R535: the bytes of the banks, the granary window and DDR4, by physical address; an unlisted byte is 0 (assumption 68). -/
  mem : Tbl Byte
  /-- Chapter 8: the capture channels. -/
  capture : Capture
  /-- Chapter 8: the gleaner. -/
  glean : Gleaner
  /-- Chapter 14: the granary, repairs and self-test. -/
  gran : Granary
  /-- R564: the images in the slots: 0, 1 firmware A and B, 2, 3 configuration A and B. -/
  slots : Tbl (Option ImageFile)
  /-- Chapter 12: network time and the uplinks. -/
  ptp : Ptp
  /-- Chapter 16: the farm and the twin. -/
  farm : Farm
  /-- Chapter 13: the safety island. -/
  island : Island
  /-- Chapter 17: resets, start and shutdown. -/
  resets : Resets
  /-- Chapter 11: the JOA engine. -/
  joa : Joa
  /-- Chapter 15: the security block. -/
  sec : Security
deriving DecidableEq, Repr

/-- The spec gives the block no fault that stops it: errors are events and counters of State. No command raises one. -/
inductive Fault where
deriving DecidableEq, Repr

/-- Why the model declines a command. -/
inductive Refusal where
  /-- A command that the model gives no meaning yet, by its mnemonic; no command raises it. Safe: the model stops where the hardware
  goes on. -/
  | notModelled (mnemonic : String)
deriving DecidableEq, Repr

/-- R452: the numbers of the log entries that EVENT_LOG subscriptions send next. -/
def State.evUnsent (s : State) : List Nat := (s.joa.subs.filter fun x => x.mode = 2).map (·.logNext)

/-- R611 to R626: the block right after the release of its first power-on reset: nothing stored, every register at its reset value (the
table lists differences from it), and a start due (COLD_START). DESIGN CHOICE (assumptions 8, 209, 210, 215). DEDUCED (assumption 131). -/
def State.reset : State :=
  { pending := [], regs := [], raw := 0, head := Headland.stopped, evlog := [], free := 0, readData := 0
    latch := [], group := [], stage := [], gens := [], injected := []
    image := Image.none_, oldImage := none, newImage := none
    collie := Collie.empty, txn := TxnEngine.empty, exec := Exec.off, img := Images.zero
    inputs := [], quals := [], ages := [], pulses := []
    field := Field.empty, motion := Motion.empty, analog := Analog.off, mem := []
    capture := ⟨[], [], none⟩, glean := Gleaner.off, gran := Granary.fresh, slots := []
    ptp := Ptp.off, farm := Farm.alone, island := Island.off, resets := Resets.off, joa := Joa.off, sec := Security.blank }

end Sys2Proof.Machine
end

