-- ==== Sys2Proof/Machine/Ops.lean ====
section
/-! DEFINITION. The named operations every meaning is made of: tables, registers and their fields, counters,
event bits with the event log (R452), time (R36, R37), posts in flight, and bit-field helpers. -/

namespace Sys2Proof.Machine

/-! ### Tables: lists of (key, value) with keys strictly rising and no entry equal to the default. -/

/-- The value at key i, d where none is listed. -/
def tget {α : Type} (d : α) : Tbl α → Nat → α
  | [], _ => d
  | (k, v) :: t, i => if i = k then v else tget d t i

/-- The table with an entry (i, v): in place of the one at i, or before the first greater key. -/
def tput {α : Type} : Tbl α → Nat → α → Tbl α
  | [], i, v => [(i, v)]
  | (k, w) :: t, i, v => if i = k then (i, v) :: t else if i < k then (i, v) :: (k, w) :: t else (k, w) :: tput t i v

/-- The table with v at key i; writing the default removes the entry. -/
def tset {α : Type} [DecidableEq α] (d : α) (t : Tbl α) (i : Nat) (v : α) : Tbl α :=
  if v = d then t.filter (fun e => e.1 ≠ i) else tput t i v

/-- The canonical form of a table above a bound: keys strictly rising and no entry equal to the default. -/
def twfFrom {α : Type} [DecidableEq α] (d : α) : Nat → Tbl α → Bool
  | _, [] => true
  | lo, (k, v) :: t => decide (lo ≤ k) && decide (v ≠ d) && twfFrom d (k + 1) t

/-- The canonical form of a table. -/
def twf {α : Type} [DecidableEq α] (d : α) (t : Tbl α) : Bool := twfFrom d 0 t

/-! ### Bit fields -/

/-- The value of a field of a word. -/
def fldOf (f : Fld) (w : Word) : Nat := w.toNat / 2 ^ f.lo % 2 ^ f.width

/-- The mask of a field. -/
def Fld.mask (f : Fld) : Word := BitVec.ofNat 32 ((2 ^ f.width - 1) * 2 ^ f.lo)

/-- The word with a field set to v, reduced to the field's width. -/
def setFldOf (f : Fld) (v : Nat) (w : Word) : Word :=
  (w &&& ~~~f.mask) ||| BitVec.ofNat 32 (v % 2 ^ f.width * 2 ^ f.lo)

/-- The low half of a 64-bit value. -/
def lo32 (q : Quad) : Word := q.extractLsb' 0 32
/-- The high half of a 64-bit value. -/
def hi32 (q : Quad) : Word := q.extractLsb' 32 32
/-- The 64-bit value of two halves. -/
def pair (lo hi : Word) : Quad := hi ++ lo

/-- x held between lo and hi. -/
def clampInt (lo hi x : Int) : Int := if x < lo then lo else if hi < x then hi else x
/-- x held between lo and hi. -/
def clampNat (lo hi x : Nat) : Nat := if x < lo then lo else if hi < x then hi else x

/-- Bit i of a natural number. -/
def natBit (n i : Nat) : Bool := n / 2 ^ i % 2 = 1

/-- n with bit i set. -/
def natSetBit (n i : Nat) : Nat := if natBit n i then n else n + 2 ^ i

/-- n with bit i cleared. -/
def natClrBit (n i : Nat) : Nat := if natBit n i then n - 2 ^ i else n

/-- 1 for true. -/
def b2n (b : Bool) : Nat := if b then 1 else 0

/-- The indices below n that hold the predicate, rising. -/
def whereBelow (n : Nat) (p : Nat → Bool) : List Nat := (List.range n).filter p

/-! ### Registers -/

/-- The value of a register; the table holds it as its difference (exclusive or) from the reset value. -/
def State.reg (s : State) (r : Reg) : Word := tget 0 s.regs r.addr ^^^ r.reset

/-- The register set to a value. -/
def State.setReg (s : State) (r : Reg) (v : Word) : State :=
  { s with regs := tset 0 s.regs r.addr (v ^^^ r.reset) }

/-- The value of a field of a register. -/
def State.get (s : State) (r : Reg) (f : Fld) : Nat := fldOf f (s.reg r)

/-- Whether a field of a register is not 0. -/
def State.flag (s : State) (r : Reg) (f : Fld) : Bool := s.get r f ≠ 0

/-- A field of a register set to a value. -/
def State.put (s : State) (r : Reg) (f : Fld) (v : Nat) : State := s.setReg r (setFldOf f v (s.reg r))

/-- A one-bit field set to a truth value. -/
def State.putFlag (s : State) (r : Reg) (f : Fld) (b : Bool) : State := s.put r f (b2n b)

/-- The 64-bit value of a pair of registers. -/
def State.reg64 (s : State) (lo hi : Reg) : Quad := pair (s.reg lo) (s.reg hi)

/-- A pair of registers set to a 64-bit value. -/
def State.setReg64 (s : State) (lo hi : Reg) (v : Quad) : State :=
  (s.setReg lo (lo32 v)).setReg hi (hi32 v)

/-- A counter that saturates at a full register: one more. -/
def State.incSat (s : State) (r : Reg) : State :=
  if s.reg r = BitVec.allOnes 32 then s else s.setReg r (s.reg r + 1)

/-- A saturating counter raised by n. -/
def State.addSat (s : State) (r : Reg) (n : Nat) : State :=
  s.setReg r (BitVec.ofNat 32 (min (2 ^ 32 - 1) ((s.reg r).toNat + n)))

/-- A counter that wraps: one more. -/
def State.incWrap (s : State) (r : Reg) : State := s.setReg r (s.reg r + 1)

/-- A counter in a field that saturates: n more. -/
def State.addFldSat (s : State) (r : Reg) (f : Fld) (n : Nat) : State :=
  s.put r f (min (2 ^ f.width - 1) (s.get r f + n))

/-- A mask of the indices below n that hold a predicate. -/
def maskOf (n : Nat) (p : Nat → Bool) : Nat := (whereBelow n p).foldl (fun m i => m + 2 ^ i) 0

/-- A register raised to at least v (the greatest value seen). -/
def State.maxFld (s : State) (r : Reg) (f : Fld) (v : Nat) : State :=
  if s.get r f < v then s.put r f v else s

/-! ### Time -/

/-- The floor term of R37 at a raw count: floor((RAW − RAW_REF) × RATE_ADJ / 2^40). -/
def State.rateTerm (s : State) (raw : Quad) : Int :=
  ((raw - s.reg64 R.TIME_RAW_REF_LO R.TIME_RAW_REF_HI).toInt * (s.reg R.TIME_RATE_ADJ).toInt) / 2 ^ 40

/-- R37: virtual time at a raw count, as an integer. -/
def State.vAt (s : State) (raw : Quad) : Int :=
  (raw.toNat : Int) + (s.reg64 R.TIME_OFFSET_LO R.TIME_OFFSET_HI).toInt + s.rateTerm raw

/-- R37: virtual time now, as an integer. -/
def State.vNow (s : State) : Int := s.vAt s.raw

/-- Virtual time now as a T64 value (R8). -/
def State.vT64 (s : State) : Quad := BitVec.ofInt 64 s.vNow

/-- The search of firstRawAt between n and n + 2^k raw grains from now: the least count in it at which V ≥ v. -/
def State.findRaw (s : State) (v : Int) : Nat → Nat → Nat
  | 0, n => if v ≤ s.vAt (s.raw + BitVec.ofNat 64 n) then n else n + 1
  | k + 1, n =>
    if v ≤ s.vAt (s.raw + BitVec.ofNat 64 (n + 2 ^ k)) then s.findRaw v k n else s.findRaw v k (n + 2 ^ k)

/-- The first raw grain, from now on, at which V ≥ v (R45, R49). V advances by 0 to 2 grains in a raw grain and by
at least 1 in two (R42), so that it lies within twice the distance. -/
def State.firstRawAt (s : State) (v : Int) : Quad :=
  if v ≤ s.vNow then s.raw
  else s.raw + BitVec.ofNat 64 (s.findRaw v (Nat.log2 (2 * (v - s.vNow).toNat + 2) + 1) 0)

/-- Time moved forward to a raw grain; never back. DESIGN CHOICE (assumption 4). -/
def State.advanceTo (s : State) (g : Quad) : State :=
  if s.raw.toNat < g.toNat then { s with raw := g } else s

/-- Time moved forward to the first raw grain at which V ≥ v. DESIGN CHOICE (assumption 4). -/
def State.advanceToV (s : State) (v : Int) : State := s.advanceTo (s.firstRawAt v)

/-- Pg: the base period in grains, 1,024 × P. -/
def State.pg (s : State) : Nat := 1024 * (s.reg R.HEAD_PERIOD).toNat

/-- A number of milliseconds in grains (R7). -/
def msGrains (n : Nat) : Nat := n * 2 ^ 20

/-- HEAD_INDEX: the base index of the last headland. -/
def State.headIndex (s : State) : Nat := (s.reg64 R.HEAD_INDEX_LO R.HEAD_INDEX_HI).toNat

/-- HEAD_LAST_V: the actual time of the last headland. -/
def State.headV (s : State) : Quad := s.reg64 R.HEAD_LAST_V_LO R.HEAD_LAST_V_HI

/-- HEAD_LAST_RAW: the raw grain of the last headland. -/
def State.headRaw (s : State) : Quad := s.reg64 R.HEAD_LAST_RAW_LO R.HEAD_LAST_RAW_HI

/-- R665: the base index of the first base headland at least n grains after virtual time v. -/
def State.firstIndexAfter (s : State) (v : Int) (n : Nat) : Nat :=
  if v + n ≤ s.head.nextActual then s.head.nextB else s.head.nextB + 1

/-! ### Events -/

/-- R452: an entry appended to the event log, which keeps the last 1,024; an entry overwritten before every
EVENT_LOG subscription has sent it counts in SYS_EVLOG_LOST. -/
def State.evAppend (s : State) (e : EvEntry) : State :=
  let n := (s.reg R.SYS_EVLOG_HEAD).toNat
  let s1 := (({ s with evlog := (s.evlog ++ [e]).drop (s.evlog.length - 1023) }).incWrap R.SYS_EVLOG_HEAD)
  if 1024 ≤ s.evlog.length ∧ s.evUnsent.any (· ≤ n - 1024) then s1.incSat R.SYS_EVLOG_LOST else s1

/-- Whether an entry for the bit is in the list. -/
def evHas (block bit reg : Nat) (l : List EvEntry) : Bool :=
  l.any fun e => e.block = block ∧ e.bit = bit ∧ e.reg = reg

/-- R452: the bit's last entry takes the repeat when it is unnamed and lies within 1,048,576 grains. -/
def evMerge (v : Quad) (block bit reg : Nat) : List EvEntry → Option (List EvEntry)
  | [] => none
  | e :: t =>
    if evHas block bit reg t then (evMerge v block bit reg t).map (e :: ·)
    else if e.block = block ∧ e.bit = bit ∧ e.reg = reg ∧ e.code = 0 ∧ (v - e.v).toNat ≤ 1048576 then
      some ({ e with rep := min 65535 (e.rep + 1) } :: t)
    else none

/-- The log with one more setting of an unnamed bit: merged or appended (R452). -/
def State.evNote (s : State) (r : Reg) (bit : Nat) : State :=
  let block := r.addr / 65536
  let off := r.addr % 65536 / 4
  let s1 :=
    match evMerge s.vT64 block bit off s.evlog with
    | some l => { s with evlog := l }
    | none => s.evAppend ⟨s.vT64, 0, block, bit, off, 0, 0⟩
  if s1.reg R.SYS_EVLOG_LOST = s.reg R.SYS_EVLOG_LOST then s1
  else
    (s1.put R.SYS_EVENTS F.SYS_EVENTS.EVLOG_OVF 1).evAppend
      ⟨s.vT64, 0, 0, F.SYS_EVENTS.EVLOG_OVF.lo, (R.SYS_EVENTS).addr / 4, 0, 0⟩

/-- A hardware source sets an event bit (a W1C bit): the bit is set and the log notes it (R452). -/
def State.raise (s : State) (r : Reg) (f : Fld) : State := (s.put r f 1).evNote r f.lo

/-- A named event: its bit is set and an entry of its own is appended, never merged (R452). -/
def State.raiseNamed (s : State) (r : Reg) (f : Fld) (code : Nat) (arg : Quad) : State :=
  let s1 := s.put r f 1
  let s2 := s1.evAppend ⟨s.vT64, code, r.addr / 65536, f.lo, r.addr % 65536 / 4, 0, arg⟩
  if s2.reg R.SYS_EVLOG_LOST = s1.reg R.SYS_EVLOG_LOST then s2 else s2.put R.SYS_EVENTS F.SYS_EVENTS.EVLOG_OVF 1

/-- Raises the bit when the condition holds. -/
def State.raiseIf (s : State) (b : Bool) (r : Reg) (f : Fld) : State := if b then s.raise r f else s

/-! ### The outcome of a command -/

/-- What a meaning answers. -/
abbrev Out := Host.Outcome State Fault Refusal

/-- The command has its effect. -/
def ok (s : State) : Out := .next s

/-- s changed by f when the condition holds. -/
def State.when (s : State) (b : Bool) (f : State → State) : State := if b then f s else s

/-- Folds an operation over a list of items. -/
def State.forAll {α : Type} (s : State) (l : List α) (f : α → State → State) : State := l.foldl (fun t a => f a t) s

end Sys2Proof.Machine
end

