-- ==== Sys2Proof/Machine/TimeBase.lean ====
section
/-! DEFINITION. Chapter 2: virtual time, the headland generator, the cycle classes and HEADSYNC. -/

namespace Sys2Proof.Machine

/-! ### Masters, latches and staging (R15, R16) -/

/-- A number of its own for each bus master. DESIGN CHOICE (assumption 164). -/
def masterId : Master → Nat
  | .core k => 3 * k
  | .dma n => 3 * n + 1
  | .joa n => 3 * n + 2

/-- The key of a master's latch or staging for a register. -/
def masterKey (m : Master) (a : Nat) : Nat := masterId m * 2 ^ 32 + a

/-- R16: the low half staged by a master for a pair, and the state with that staging empty. -/
def State.takeStage (s : State) (m : Master) (lo : Reg) : Option Word × State :=
  (tget none s.stage (masterKey m lo.addr), { s with stage := tset none s.stage (masterKey m lo.addr) none })

/-- R16: the 64-bit value that a write of the high word puts in force: the staged low half, or the low half as it
is. -/
def State.stagedValue (s : State) (m : Master) (lo : Reg) (hi : Word) : Quad :=
  pair ((s.takeStage m lo).1.getD (s.reg lo)) hi

/-! ### Conditions -/

/-- R122: the controller is stopped (STOPPED or SAFE). -/
def State.ctrlStopped (s : State) : Bool :=
  s.get R.EXEC_STATUS F.EXEC_STATUS.STATE = 0 ∨ s.get R.EXEC_STATUS F.EXEC_STATUS.STATE = 2

/-- R122: the controller is running. -/
def State.ctrlRunning (s : State) : Bool := s.get R.EXEC_STATUS F.EXEC_STATUS.STATE = 1

/-- R122: the controller is bridging. -/
def State.ctrlBridging (s : State) : Bool := s.get R.EXEC_STATUS F.EXEC_STATUS.STATE = 3

/-- R623, R625: the step of the shutdown in progress or done; 0 none, or one that a power failure ended. -/
def State.shutStep (s : State) : Nat :=
  if s.get R.CLK_SHUT_STATUS F.CLK_SHUT_STATUS.RESULT = 3 then 0 else s.get R.CLK_SHUT_STATUS F.CLK_SHUT_STATUS.STEP

/-- R623, step 2: a port does a cycle: a field frame, 4 + port: a CAN cycle, 8 + port: a serial scan. -/
def portDone (k : Nat) (s : State) : State :=
  if s.shutStep = 2 then
    { s with resets := { s.resets with portDone := tset 0 s.resets.portDone k (tget 0 s.resets.portDone k + 1) } }
  else s
/-- R623: from step 5 on the field, CAN and serial ports do not send. -/
def State.portsSilent (s : State) : Bool := decide (5 ≤ s.shutStep)

/-- R36, R618: the PLL is locked: it relocks in the start that follows a power-on or cold reset. DEDUCED (assumption 217). -/
def State.pllLocked (s : State) : Bool := s.flag R.CLK_STATUS F.CLK_STATUS.PLL_LOCKED && !s.resets.await

/-- A farm follower: every device of a farm but device 0 (chapter 16). -/
def State.isFollower (s : State) : Bool := (s.reg R.SYS_FARM).toNat % 8 ≠ 0

/-- HEAD_CTRL.RUN. -/
def State.headRun (s : State) : Bool := s.flag R.HEAD_CTRL F.HEAD_CTRL.RUN

/-- A write refused by the HEAD block (R68). -/
def State.headRefused (s : State) : State := s.raise R.HEAD_STATUS F.HEAD_STATUS.CFG_REFUSED

/-! ### The clock (R38 to R43) -/

/-- R39: the limit of RATE_ADJ. -/
def rateLimit : Int := 549755813

/-- R469: the parameters of V are kept for timestamps taken before they change. -/
def keepClock (s : State) : State :=
  let c : ClockSeg := ⟨s.reg64 R.TIME_RAW_REF_LO R.TIME_RAW_REF_HI, s.reg64 R.TIME_OFFSET_LO R.TIME_OFFSET_HI, s.reg R.TIME_RATE_ADJ⟩
  { s with ptp := { s.ptp with past := (c :: s.ptp.past).take 64 } }

/-- R38, R39: a write of TIME_RATE_ADJ. -/
def rateAdjWrite (v : Word) (s0 : State) : State :=
  let s := keepClock s0
  let off := s.reg64 R.TIME_OFFSET_LO R.TIME_OFFSET_HI
  let s1 := s.setReg64 R.TIME_OFFSET_LO R.TIME_OFFSET_HI (BitVec.ofInt 64 (off.toInt + s.rateTerm s.raw))
  let s2 := s1.setReg64 R.TIME_RAW_REF_LO R.TIME_RAW_REF_HI s.raw
  let c := clampInt (-rateLimit) rateLimit v.toInt
  let s3 := s2.setReg R.TIME_RATE_ADJ (BitVec.ofInt 32 c)
  if c = v.toInt then s3
  else (s3.raise R.TIME_STATUS F.TIME_STATUS.RATE_CLAMPED).incSat R.TIME_RATE_CLAMP_CNT

/-- R55: DIV. -/
def State.syncDiv (s : State) : Nat := s.get R.HEAD_SYNC_CFG F.HEAD_SYNC_CFG.DIV_M1 + 1

/-- R55: base index b expects a HEADSYNC edge. -/
def State.syncExpected (s : State) (b : Nat) : Bool :=
  ((b : Int) - s.get R.HEAD_SYNC_CFG F.HEAD_SYNC_CFG.SYNC_PHASE) % s.syncDiv = 0

/-- R55: the acceptance window of headland b at an actual time with a shift, where an edge is expected for b. -/
def State.windowFor (s : State) (b : Nat) (actual sh : Int) : List SyncWindow :=
  if s.syncExpected b then [⟨b, actual, sh, false⟩] else []

/-- R48: S: the shift of the last headland since RUN was set, or the one that the first headland is to have. -/
def State.shiftNow (s : State) : Int :=
  if s.flag R.HEAD_STATUS F.HEAD_STATUS.RUNNING then (s.reg R.HEAD_SHIFT).toInt else s.head.nextShift

/-- R48, R55: the generator re-aligned after an OFFSET write, with S kept, and the acceptance window of the next headland opened; windows of
the headlands before are dropped without a miss. DESIGN CHOICE (assumption 218). -/
def headRealign (s : State) : State :=
  let sh := s.shiftNow
  let b := ((s.vNow + s.pg - sh + (s.pg - 1)) / s.pg).toNat
  let s1 := { s with head := { s.head with
    nextB := b, nextActual := b * s.pg + sh, nextShift := sh, windows := s.windowFor b (b * s.pg + sh) sh, early := [] } }
  s1.raise R.HEAD_STATUS F.HEAD_STATUS.REALIGNED

/-- R40: OFFSET set to a value, RAW_REF to RAW. -/
def offsetSet (v : Quad) (s0 : State) : State :=
  let s := keepClock s0
  let s1 := s.setReg64 R.TIME_OFFSET_LO R.TIME_OFFSET_HI v
  s1.setReg64 R.TIME_RAW_REF_LO R.TIME_RAW_REF_HI s.raw

/-- R40: a write of TIME_OFFSET_HI by a master, with its staged low half (R16). -/
def offsetWrite (m : Master) (hi : Word) (s : State) : State :=
  let v := s.stagedValue m R.TIME_OFFSET_LO hi
  let s1 := (s.takeStage m R.TIME_OFFSET_LO).2
  if ¬ s.flag R.TIME_STATUS F.TIME_STATUS.SEATED ∧ s.ctrlStopped then
    let s2 := offsetSet v s1
    if s.headRun then headRealign s2 else s2
  else s1.raise R.TIME_STATUS F.TIME_STATUS.OFFSET_REFUSED

/-- R41: a write of TIME_CTRL.SEAT. A servo that waits for it enters TRACKING (R477). -/
def seatClock (s : State) : State :=
  if s.flag R.TIME_STATUS F.TIME_STATUS.SEATED then s.raise R.TIME_STATUS F.TIME_STATUS.SEAT_REFUSED
  else
    let s1 := s.put R.TIME_STATUS F.TIME_STATUS.SEATED 1
    let s2 := s1.setReg64 R.TIME_SEAT_V_LO R.TIME_SEAT_V_HI s.vT64
    let s3 := s2.when s.ctrlRunning fun t => t.put R.TIME_STATUS F.TIME_STATUS.SEAT_RATE_ONLY 1
    if s.ptp.waitSeat then
      let s4 := { s3 with ptp := { s3.ptp with waitSeat := false } }
      s4.when (s4.get R.PTP_STATUS F.PTP_STATUS.SERVO = 2) fun t => t.put R.PTP_STATUS F.PTP_STATUS.SERVO 3
    else s3

/-- R43: a read of TIME_VNOW_LO samples V and RAW into the master's latch. DEDUCED (assumption 177). -/
def vnowRead (m : Master) (s : State) : State :=
  { s with
    readData := lo32 s.vT64
    latch := tset none s.latch (masterKey m (R.TIME_VNOW_LO).addr) (some (hi32 s.vT64))
    group := tset none (tset none s.group (masterKey m (R.TIME_VRAW_LO).addr) (some (lo32 s.raw)))
      (masterKey m (R.TIME_VRAW_HI).addr) (some (hi32 s.raw)) }

/-! ### The generator (R44 to R51) -/

/-- P/32 in grains: 32 × P. -/
def State.pSlew (s : State) : Int := 32 * (s.reg R.HEAD_PERIOD).toNat

/-- R57: the target shift in force for an interval opened by base index b, and the targets still to come. -/
def targetAt (b : Nat) (t : Int) : List (Int × Nat) → Int × List (Int × Nat)
  | [] => (t, [])
  | (v, i) :: l => if i ≤ b then targetAt b v l else (t, (v, i) :: l)

/-- R57: the interval opened by headland b at an actual time with shift sh: δ is fixed, and with it the next
headland; its acceptance window is expected when R55 says so. A follower takes δ from the lead (R592). Windows opened before under another
HEAD_SYNC_CFG stay as they are. DESIGN CHOICE (assumption 219). -/
def openInterval (b : Nat) (actual sh : Int) (s : State) : State :=
  let (t, rest) := targetAt b s.head.target s.head.pendTargets
  let d := if s.isFollower ∧ s.flag R.DRUS_STATUS F.DRUS_STATUS.FARM_LOCKED then 0 else clampInt (-s.pSlew) s.pSlew (t - sh)
  let next := actual + s.pg + d
  { s with head := { s.head with
      target := t, pendTargets := rest, nextB := b + 1, nextActual := next, nextShift := sh + d,
      windows := s.head.windows ++ s.windowFor (b + 1) next (sh + d),
      awaitLead := s.isFollower && s.flag R.DRUS_STATUS F.DRUS_STATUS.FARM_LOCKED } }

/-- T set to a value at once, and from the next interval on (R46, R58, R59). -/
def setTarget (t : Int) (s : State) : State :=
  { s with head := { s.head with target := t, pendTargets := [] } }.setReg R.HEAD_TARGET (BitVec.ofInt 32 t)

/-- R46: RUN set while it was 0: the generator starts. A follower starts under the lead's S (R592). -/
def runStart (s : State) : State :=
  let sh : Int := if s.isFollower then s.head.leadShift else 0
  let b := ((s.vNow + s.pg - sh + (s.pg - 1)) / s.pg).toNat
  let s1 := { s with head := { s.head with
    armed := true, nextB := b, nextActual := b * s.pg + sh, nextShift := sh, windows := s.windowFor b (b * s.pg + sh) sh,
    early := [], classSeen := 0 } }
  let s2 := s1.forAll (List.range 4) fun n t => t.setReg (R.HEAD_n_COUNT n) 0
  (setTarget sh s2).put R.HEAD_CTRL F.HEAD_CTRL.RUN 1

/-- R592: a follower accepts a change of RUN only while it is locked to a running lead. -/
def State.leadFollowed (s : State) : Bool :=
  !s.isFollower || (s.flag R.DRUS_STATUS F.DRUS_STATUS.FARM_LOCKED && s.head.leadRunning)

/-- R46, R592: whether a write that leaves RUN at a value is accepted. -/
def State.runAccepted (s : State) (run : Bool) : Bool :=
  run == s.headRun || (s.leadFollowed && (run || s.ctrlStopped))

/-- R46: an accepted write that sets RUN. -/
def runSet (s : State) : State := if s.headRun then s else runStart s

/-- R253: the open accumulator windows are discarded. -/
def dropWindows (l : Tbl Chan) : Tbl Chan :=
  (l.map fun x => (x.1, { x.2 with win := none })).filter fun x => x.2 ≠ Chan.fresh

/-- R46: an accepted write that clears RUN. Acceptance windows that are not judged yet are dropped without a miss.
DESIGN CHOICE (assumption 218). -/
def runClear (s : State) : State :=
  if ¬ s.headRun then s
  else
    (({ s with head := { s.head with armed := false, windows := [], early := [] }
               analog := { s.analog with chans := dropWindows s.analog.chans } }).put R.HEAD_CTRL F.HEAD_CTRL.RUN 0).put
      R.HEAD_STATUS F.HEAD_STATUS.RUNNING 0

/-- SYNC_STATE set to a value, except on a follower, where it stays IGNORED (R59, R60). -/
def setSyncState (v : Nat) (s : State) : State :=
  if s.isFollower then s else s.put R.HEAD_STATUS F.HEAD_STATUS.SYNC_STATE v

/-- R59: the tracking re-armed. -/
def syncArm (s : State) : State :=
  let s1 := (setSyncState 1 s).put R.HEAD_SYNC_MISS F.HEAD_SYNC_MISS.MISS_COUNT 0
  let s2 := setTarget s.head.nextShift s1
  { s2 with head := { s2.head with firstEdge := true } }

/-- R59: a write of HEAD_CTRL as far as HEADSYNC goes, with the written SYNC_EN and SYNC_REARM. -/
def syncCtrl (en rearm : Bool) (s : State) : State :=
  let was := s.flag R.HEAD_CTRL F.HEAD_CTRL.SYNC_EN
  let s1 := s.putFlag R.HEAD_CTRL F.HEAD_CTRL.SYNC_EN en
  if en ∧ (¬ was ∨ rearm) then syncArm s1
  else if ¬ en ∧ was then setTarget s1.head.nextShift (setSyncState 0 s1)
  else s1

/-- R46, R59, R67, R573, R592: a write of HEAD_CTRL, refused whole when its RUN is; without an active configuration image RUN stays 0.
DEDUCED (assumption 144). -/
def headCtrlWrite (v : Word) (s : State) : State :=
  let run : Bool := fldOf F.HEAD_CTRL.RUN v = 1
  if !s.runAccepted run then s.headRefused
  else
    let s1 := if !run then runClear s else if s.resets.loaded then runSet s else s
    syncCtrl (fldOf F.HEAD_CTRL.SYNC_EN v = 1) (fldOf F.HEAD_CTRL.SYNC_REARM v = 1) s1

/-- R588: a Drustra port is open. -/
def State.farmOpen (s : State) : Bool := (List.range 3).any fun p => s.flag (R.DRUS_p_STATUS p) F.DRUS_p_STATUS.UP

/-- R588: while a port is open the farm table holds HEAD_PERIOD fast. -/
def farmPeriodOk (v : Word) (s : State) : Bool :=
  !s.farmOpen || (match s.image.farm with | some t => decide (t.period = v.toNat) | none => true)

/-- R588: while a port is open the farm table holds the class words fast. -/
def farmClassOk (n : Nat) (v : Word) (s : State) : Bool :=
  !s.farmOpen || (match s.image.farm with | some t => decide (t.classes.getD n 0 = (v &&& 0x83FF03FF).toNat) | none => true)

/-- R44, R588: a write of HEAD_PERIOD. -/
def headPeriodWrite (v : Word) (s : State) : State :=
  if farmPeriodOk v s ∧ ¬ s.headRun ∧ 64 ≤ v.toNat ∧ v.toNat ≤ 16384 then s.setReg R.HEAD_PERIOD v else s.headRefused

/-- R51, R71, R588: a write of HEAD_n_CLASS_CFG; C0's is ignored. -/
def classCfgWrite (n : Nat) (v : Word) (s : State) : State :=
  if n = 0 then s
  else if ¬ farmClassOk n v s ∨ s.headRun ∨ fldOf F.HEAD_n_CLASS_CFG.K_M1 v < fldOf F.HEAD_n_CLASS_CFG.PHASE v then s.headRefused
  else s.setReg (R.HEAD_n_CLASS_CFG n) (v &&& 0x83FF03FF)

/-- R69: a write of HEAD_SYNC_CFG. -/
def headSyncCfgWrite (v : Word) (s : State) : State :=
  if fldOf F.HEAD_SYNC_CFG.DIV_M1 v < fldOf F.HEAD_SYNC_CFG.SYNC_PHASE v then s.headRefused
  else s.setReg R.HEAD_SYNC_CFG (v &&& 0x13FF03FF)

/-- R666: a write of HEAD_SYNC_COMP, held at the nearer limit. -/
def headSyncCompWrite (v : Word) (s : State) : State :=
  s.setReg R.HEAD_SYNC_COMP (BitVec.ofInt 32 (clampInt (-65536) 65535 v.toInt))

/-- R70: a write of HEAD_SYNC_MISS; a MISS_LIMIT of 0 is stored as 1. -/
def headSyncMissWrite (v : Word) (s : State) : State :=
  s.put R.HEAD_SYNC_MISS F.HEAD_SYNC_MISS.MISS_LIMIT (max 1 (fldOf F.HEAD_SYNC_MISS.MISS_LIMIT v))

/-! ### HEADSYNC (R54 to R58) -/

/-- R58: sync is lost for a reason at H_m with a target T′. -/
def syncLost (reason : Nat) (m : Nat) (t' : Int) (s : State) : State :=
  let s1 := setTarget s.head.nextShift ((setSyncState 2 s).put R.HEAD_STATUS F.HEAD_STATUS.LOST_REASON reason)
  let s2 := s1.incSat R.HEAD_SYNC_LOST_CNT
  s2.raiseNamed R.HEAD_STATUS F.HEAD_STATUS.SYNC_LOST 1 (pair (BitVec.ofNat 32 m) (BitVec.ofInt 32 t'))

/-- R55: of the windows that hold an edge time, the one whose headland is nearest, the earlier on a tie. -/
def windowOf (pg : Nat) (te : Int) (ws : List SyncWindow) : Option SyncWindow :=
  (ws.filter fun w => w.actual - (pg / 2 : Nat) ≤ te ∧ te < w.actual + (pg / 2 : Nat)).foldl
    (fun best w => match best with
      | none => some w
      | some b => if (te - w.actual).natAbs < (te - b.actual).natAbs then some w else some b) none

/-- R56: the checks of a used edge, in order. -/
def edgeUsed (w : SyncWindow) (te : Int) (s : State) : State :=
  let e := te - w.actual
  let t' := w.shift + e
  let t := (s.reg R.HEAD_TARGET).toInt
  let first := s.head.firstEdge
  let ws := s.head.windows.map fun x => if x.index = w.index then { x with used := true } else x
  let s1 := { s with head := { s.head with windows := ws, firstEdge := false } }
  let s2 := (s1.put R.HEAD_SYNC_MISS F.HEAD_SYNC_MISS.MISS_COUNT 0).setReg R.HEAD_SYNC_ERR (BitVec.ofInt 32 e)
  if 256 * (s.reg R.HEAD_PERIOD).toNat < t'.natAbs then syncLost 1 w.index t' s2
  else if ¬ first ∧ s.syncDiv * s.pSlew < ((t' - t).natAbs : Int) then syncLost 2 w.index t' s2
  else if (t' - t).natAbs ≤ (s.reg R.HEAD_SYNC_DEADBAND).toNat then s2
  else
    let i := s2.firstIndexAfter te 1024
    { s2 with head := { s2.head with pendTargets := s2.head.pendTargets ++ [(t', i)] } }.setReg R.HEAD_TARGET
      (BitVec.ofInt 32 t')

/-- R55: an edge time judged against the windows that are open. -/
def edgeJudge (te : Int) (s : State) : State :=
  if s.get R.HEAD_STATUS F.HEAD_STATUS.SYNC_STATE ≠ 1 then s
  else
    match windowOf s.pg te s.head.windows with
    | none => s.incSat R.HEAD_SYNC_STRAY
    | some w => if w.used then s.incSat R.HEAD_SYNC_STRAY else edgeUsed w te s

/-- R55: an edge time that may belong to a window after that of the next headland. -/
def State.edgeEarly (s : State) (te : Int) : Bool :=
  s.headRun && decide (s.head.nextActual + (s.pg / 2 : Nat) - s.pSlew ≤ te)

/-- R54, R55: an edge of the polarity given, whose first transition lies at a raw grain and whose level then held for
64 grains. Where HEAD_SYNC_COMP puts t_e beyond the window of the next headland, the edge is judged when the interval that the next headland
opens fixes the window after it. DEDUCED (assumptions 9, 220). -/
def headsyncEdge (t : Quad) (falling : Bool) (s : State) : State :=
  let s := s.advanceTo (t + 64)
  if falling ≠ s.flag R.HEAD_SYNC_CFG F.HEAD_SYNC_CFG.FALLING then s
  else if s.get R.HEAD_STATUS F.HEAD_STATUS.SYNC_STATE ≠ 1 then s
  else
    let te := s.vAt (t + (s.reg R.HEAD_SYNC_COMP).signExtend 64)
    if s.edgeEarly te then { s with head := { s.head with early := s.head.early ++ [te] } } else edgeJudge te s

/-- R55: the edges that waited for a window, once the interval that opens has fixed it. -/
def earlyEdges (s : State) : State :=
  let l := s.head.early
  { s with head := { s.head with early := [] } }.forAll l fun te u =>
    if u.edgeEarly te then { u with head := { u.head with early := u.head.early ++ [te] } } else edgeJudge te u

/-- R55, R58: a window judged closed without an edge while tracking is a miss, and enough misses lose sync. -/
def windowMissed (m : Nat) (s : State) : State :=
  let s1 := s.addFldSat R.HEAD_SYNC_MISS F.HEAD_SYNC_MISS.MISS_COUNT 1
  if s1.get R.HEAD_SYNC_MISS F.HEAD_SYNC_MISS.MISS_LIMIT ≤ s1.get R.HEAD_SYNC_MISS F.HEAD_SYNC_MISS.MISS_COUNT then
    syncLost 3 m 0 s1
  else s1

/-- R55: the virtual time at which a window is judged closed. -/
def State.windowJudged (s : State) (w : SyncWindow) : Int :=
  w.actual + (s.pg / 2 : Nat) + 1024 + max (0 : Int) (-(s.reg R.HEAD_SYNC_COMP).toInt)

/-- R55, R58: the oldest window is judged closed. DEDUCED (assumption 9). -/
def headsyncWindowClose (s : State) : State :=
  match s.head.windows with
  | [] => s
  | w :: ws =>
    let s1 := s.advanceToV (s.windowJudged w)
    let s2 := { s1 with head := { s1.head with windows := ws } }
    if w.used ∨ s.get R.HEAD_STATUS F.HEAD_STATUS.SYNC_STATE ≠ 1 then s2 else windowMissed w.index s2

/-! ### A headland occurs (R45, R47, R50, R52) -/

/-- R50: class n has a headland at base index b. -/
def State.classAt (s : State) (n b : Nat) : Bool :=
  let c := s.reg (R.HEAD_n_CLASS_CFG n)
  fldOf F.HEAD_n_CLASS_CFG.ENABLE c = 1 ∧
    ((b : Int) - fldOf F.HEAD_n_CLASS_CFG.PHASE c) % (fldOf F.HEAD_n_CLASS_CFG.K_M1 c + 1 : Nat) = 0

/-- k_n, the class period in base periods. -/
def State.classK (s : State) (n : Nat) : Nat := s.get (R.HEAD_n_CLASS_CFG n) F.HEAD_n_CLASS_CFG.K_M1 + 1

/-- R52: the record of a class headland. -/
def classHeadland (n : Nat) (actual : Int) (s : State) : State :=
  let prev := s.reg64 (R.HEAD_n_LAST_V_LO n) (R.HEAD_n_LAST_V_HI n)
  let ivl : Quad :=
    if natBit s.head.classSeen n then BitVec.ofInt 64 actual - prev else BitVec.ofNat 64 (s.classK n * s.pg)
  let s1 := s.setReg64 (R.HEAD_n_LAST_V_LO n) (R.HEAD_n_LAST_V_HI n) (BitVec.ofInt 64 actual)
  let s2 := (s1.setReg64 (R.HEAD_n_INTERVAL_LO n) (R.HEAD_n_INTERVAL_HI n) ivl).incWrap (R.HEAD_n_COUNT n)
  { s2 with head := { s2.head with classSeen := natSetBit s2.head.classSeen n } }

/-- R45, R52, R57: the next base headland occurs at the first raw grain at which V reaches its actual time: its
records, its class records, and the interval it opens. -/
def headlandOccurs (s : State) : State :=
  let b := s.head.nextB
  let a := s.head.nextActual
  let sh := s.head.nextShift
  let s := s.advanceToV a
  let s := s.setReg64 R.HEAD_INDEX_LO R.HEAD_INDEX_HI (BitVec.ofNat 64 b)
  let s := s.setReg64 R.HEAD_LAST_V_LO R.HEAD_LAST_V_HI (BitVec.ofInt 64 a)
  let s := s.setReg64 R.HEAD_LAST_RAW_LO R.HEAD_LAST_RAW_HI s.raw
  let s := (s.setReg R.HEAD_SHIFT (BitVec.ofInt 32 sh)).put R.HEAD_STATUS F.HEAD_STATUS.RUNNING 1
  let due := whereBelow 4 fun n => s.classAt n b
  let s := s.forAll due fun n t => classHeadland n a t
  let s := { s with head := { s.head with
    classDue := due.foldl natSetBit 0, sealDue := true, tasksDue := true, switchDue := true, dacDue := true,
    gleanDue := true } }
  earlyEdges (openInterval b a sh s)

/-! ### The commands -/

/-- RATE_ADJ_WRITE (R38, R39). -/
def execRateAdjWrite (v : Word) (s : State) : Out := ok (rateAdjWrite v s)
/-- OFFSET_WRITE (R40, R48): the write of TIME_OFFSET_HI by a master. -/
def execOffsetWrite (m : Master) (hi : Word) (s : State) : Out := ok (offsetWrite m hi s)
/-- SEAT (R41). -/
def execSeat (s : State) : Out := ok (seatClock s)
/-- VNOW_READ (R43). -/
def execVnowRead (m : Master) (s : State) : Out := ok (vnowRead m s)
/-- HEAD_PERIOD_WRITE (R44). -/
def execHeadPeriodWrite (v : Word) (s : State) : Out := ok (headPeriodWrite v s)
/-- RUN_SET (R46, R67): a write of HEAD_CTRL whose RUN is 1. -/
def execRunSet (v : Word) (s : State) : Out := ok (headCtrlWrite (setFldOf F.HEAD_CTRL.RUN 1 v) s)
/-- RUN_CLEAR (R46, R67): a write of HEAD_CTRL whose RUN is 0. -/
def execRunClear (v : Word) (s : State) : Out := ok (headCtrlWrite (setFldOf F.HEAD_CTRL.RUN 0 v) s)
/-- SYNC_ENABLE (R59): a write of HEAD_CTRL whose SYNC_EN is 1. -/
def execSyncEnable (v : Word) (s : State) : Out := ok (headCtrlWrite (setFldOf F.HEAD_CTRL.SYNC_EN 1 v) s)
/-- SYNC_DISABLE (R59): a write of HEAD_CTRL whose SYNC_EN is 0. -/
def execSyncDisable (v : Word) (s : State) : Out := ok (headCtrlWrite (setFldOf F.HEAD_CTRL.SYNC_EN 0 v) s)
/-- SYNC_REARM (R59): a write of HEAD_CTRL whose SYNC_REARM is 1. -/
def execSyncRearm (v : Word) (s : State) : Out := ok (headCtrlWrite (setFldOf F.HEAD_CTRL.SYNC_REARM 1 v) s)
/-- CLASS_CFG_WRITE (R51, R71). -/
def execClassCfgWrite (n : Fin 4) (v : Word) (s : State) : Out := ok (classCfgWrite n v s)
/-- HEAD_SYNC_CFG_WRITE (R69). -/
def execHeadSyncCfgWrite (v : Word) (s : State) : Out := ok (headSyncCfgWrite v s)
/-- HEAD_SYNC_COMP_WRITE (R666). -/
def execHeadSyncCompWrite (v : Word) (s : State) : Out := ok (headSyncCompWrite v s)
/-- HEADSYNC_EDGE (R54 to R56, R58). -/
def execHeadsyncEdge (t : Quad) (falling : Bool) (s : State) : Out := ok (headsyncEdge t falling s)
/-- HEADSYNC_WINDOW_CLOSE (R55, R58). -/
def execHeadsyncWindowClose (s : State) : Out := ok (headsyncWindowClose s)

end Sys2Proof.Machine
end

