-- ==== Sys2Proof/Machine/LinkTest.lean ====
section
/-! DEFINITION. Chapter 18: the DDR4 controller's training and test, the SerDes lane tests and the frame generators. -/

namespace Sys2Proof.Machine

/-! ### DDR4 (R650, R655, R661, R662) -/

/-- R655: neither user of DDR4 is active and the controller is ready. -/
def State.ddrIdle (s : State) : Bool :=
  ¬ s.flag R.GLEAN_STATUS F.GLEAN_STATUS.SPOOL_ACTIVE ∧ ¬ s.flag R.CAPT_STATUS F.CAPT_STATUS.OVF_ACTIVE ∧
    s.flag R.DDR_STATUS F.DDR_STATUS.READY

/-- A write refused by the DDR block. -/
def State.ddrRefused (s : State) : State := s.raise R.DDR_EVENTS F.DDR_EVENTS.CFG_REFUSED

/-- R650: training starts. -/
def ddrTrainStart (s : State) : State :=
  (s.put R.DDR_STATUS F.DDR_STATUS.READY 0).put R.DDR_STATUS F.DDR_STATUS.TRAINING 1

/-- R649: the capacity in MiB of the ranks and density set. -/
def State.ddrCapacity (s : State) : Nat :=
  2048 * (s.get R.DDR_CTRL F.DDR_CTRL.RANKS + 1) * 2 ^ s.get R.DDR_CTRL F.DDR_CTRL.DENSITY

/-- R661: a DDR_CTRL word names a legal organisation, and leaves it as it is while EN is 1. -/
def State.ddrCfgOk (s : State) (v : Word) : Bool :=
  let r := fldOf F.DDR_CTRL.RANKS v
  let d := fldOf F.DDR_CTRL.DENSITY v
  d ≠ 3 ∧ ¬ (r = 1 ∧ d = 2) ∧
    (¬ s.flag R.DDR_CTRL F.DDR_CTRL.EN ∨ (r = s.get R.DDR_CTRL F.DDR_CTRL.RANKS ∧ d = s.get R.DDR_CTRL F.DDR_CTRL.DENSITY))

/-- R650, R661: a write of DDR_CTRL. DEDUCED (assumptions 10, 13). -/
def ddrCtrlWrite (v : Word) (s : State) : State :=
  if ¬ s.ddrCfgOk v then s.ddrRefused
  else if fldOf F.DDR_CTRL.RETRAIN v = 1 ∧ ¬ s.ddrIdle ∧ s.flag R.DDR_CTRL F.DDR_CTRL.EN then s.ddrRefused
  else
    let s1 := s.setReg R.DDR_CTRL (v &&& 0xF)
    if fldOf F.DDR_CTRL.EN v = 0 then s1.setReg R.DDR_STATUS 0
    else if ¬ s.flag R.DDR_CTRL F.DDR_CTRL.EN ∨ fldOf F.DDR_CTRL.RETRAIN v = 1 then ddrTrainStart s1
    else s1

/-- R650: training ends, ready or failed, after a time in ms. DEDUCED (assumption 143). -/
def ddrTrainDone (good : Bool) (ms : Nat) (s : State) : State :=
  if ¬ s.flag R.DDR_STATUS F.DDR_STATUS.TRAINING then s
  else
    let s1 := (s.put R.DDR_STATUS F.DDR_STATUS.TRAINING 0).setReg R.DDR_TRAIN_TIME (BitVec.ofNat 32 (min ms 65535))
    if good then
      ((s1.put R.DDR_STATUS F.DDR_STATUS.READY 1).put R.DDR_STATUS F.DDR_STATUS.TRAIN_FAILED 0).setReg R.DDR_SIZE
        (BitVec.ofNat 32 s1.ddrCapacity)
    else
      ((s1.put R.DDR_STATUS F.DDR_STATUS.READY 0).put R.DDR_STATUS F.DDR_STATUS.TRAIN_FAILED 1).raise R.DDR_EVENTS
        F.DDR_EVENTS.TRAIN_FAILED

/-- R655: the test region lies in the memory there is. -/
def State.ddrRegionOk (s : State) : Bool :=
  (s.reg R.DDR_TEST_BASE).toNat + (s.reg R.DDR_TEST_SIZE).toNat ≤ (s.reg R.DDR_SIZE).toNat

/-- R655: the content of the test region is destroyed: it reads as memory that nothing has written. DESIGN CHOICE (assumption 256). -/
def ddrDestroyed (s : State) : State :=
  let a := 0x100000000 + (s.reg R.DDR_TEST_BASE).toNat * 2 ^ 20
  let b := a + (s.reg R.DDR_TEST_SIZE).toNat * 2 ^ 20
  { s with mem := s.mem.filter fun x => ¬ (a ≤ x.1 ∧ x.1 < b) }

/-- R655, R662: a write of DDR_TEST_CTRL; a PATTERN of 3 is stored as 0. -/
def ddrTestCtrlWrite (v : Word) (s : State) : State :=
  let p := fldOf F.DDR_TEST_CTRL.PATTERN v
  let start := fldOf F.DDR_TEST_CTRL.START v = 1
  if start ∧ ¬ (s.ddrIdle ∧ s.ddrRegionOk) then s.ddrRefused
  else
    let s1 := s.put R.DDR_TEST_CTRL F.DDR_TEST_CTRL.PATTERN (if p = 3 then 0 else p)
    if start then ddrDestroyed (s1.put R.DDR_STATUS F.DDR_STATUS.TESTING 1) else s1

/-- R650: n correctable DDR4 errors are corrected and counted. -/
def ddrCorrected (n : Nat) (s : State) : State :=
  if n = 0 then s else (s.addSat R.DDR_CE_CNT n).raise R.DDR_EVENTS F.DDR_EVENTS.CE

/-- R655, R662: the pattern test ends with a count of failing words and the first one's place; it met a number of correctable
errors. DEDUCED (assumption 176). -/
def ddrTestDone (failing first corrected : Nat) (s0 : State) : State :=
  if ¬ s0.flag R.DDR_STATUS F.DDR_STATUS.TESTING then s0
  else
    let s := ddrCorrected corrected s0
    let s1 := s.put R.DDR_STATUS F.DDR_STATUS.TESTING 0
    let s2 := s1.setReg R.DDR_TEST_ERR (BitVec.ofNat 32 (min failing (2 ^ 32 - 1)))
    if failing = 0 then s2.setReg R.DDR_TEST_FIRST 0
    else (s2.setReg R.DDR_TEST_FIRST (BitVec.ofNat 32 first)).raise R.DDR_EVENTS F.DDR_EVENTS.TEST_FAIL

/-- R650: an uncorrectable DDR4 read at an address. -/
def ddrUncorrectable (addr : Nat) (s : State) : State :=
  let s1 := (s.incSat R.DDR_UE_CNT).raise R.DDR_EVENTS F.DDR_EVENTS.UE
  s1.setReg64 R.DDR_UE_ADDR_LO R.DDR_UE_ADDR_HI (BitVec.ofNat 64 addr)

/-! ### SerDes lanes (R652, R653, R658) -/

/-- A write refused by the LINKTEST block (R652). -/
def State.linkRefused (s : State) : State := s.raise R.LINKTEST_EVENTS F.LINKTEST_EVENTS.CFG_REFUSED

/-- R657: CLR of a lane clears BITS and ERR. -/
def laneClear (l : Nat) (s : State) : State :=
  (s.setReg64 (R.LINKTEST_l_BITS_LO l) (R.LINKTEST_l_BITS_HI l) 0).setReg64 (R.LINKTEST_l_ERR_LO l)
    (R.LINKTEST_l_ERR_HI l) 0

/-- R652: the LOOP and PRBS bits a write leaves in a lane's register: an uplink lane takes the written ones, a LOOP of
3 as 0; a Drustra lane keeps its own, which DRUS_p_CTRL sets. -/
def laneMode (l : Nat) (v old : Word) : Word :=
  if l < 2 then
    let loop := fldOf F.LINKTEST_l_CTRL.LOOP v
    setFldOf F.LINKTEST_l_CTRL.PRBS (fldOf F.LINKTEST_l_CTRL.PRBS v)
      (setFldOf F.LINKTEST_l_CTRL.LOOP (if loop = 3 then 0 else loop) old)
  else old

/-- R652, R658: a write of LINKTEST_l_CTRL. -/
def linktestCtrlWrite (l : Nat) (v : Word) (s : State) : State :=
  if l < 2 ∧ s.flag (R.UPLINK_p_CTRL l) F.UPLINK_p_CTRL.EN then s.linkRefused
  else
    let pat := min 4 (fldOf F.LINKTEST_l_CTRL.PATTERN v)
    let w := setFldOf F.LINKTEST_l_CTRL.INVERT (fldOf F.LINKTEST_l_CTRL.INVERT v)
      (setFldOf F.LINKTEST_l_CTRL.PATTERN pat (laneMode l v (s.reg (R.LINKTEST_l_CTRL l))))
    let s1 := s.setReg (R.LINKTEST_l_CTRL l) w
    let s2 := if fldOf F.LINKTEST_l_CTRL.INJECT v = 1 then
        { s1 with injected := tset 0 s1.injected l (tget 0 s1.injected l + 1) } else s1
    if fldOf F.LINKTEST_l_CTRL.CLR v = 1 then laneClear l s2 else s2

/-- R653: checked and errored bits added to a lane's counts. -/
def laneCount (l bits errs : Nat) (s : State) : State :=
  let b := s.reg64 (R.LINKTEST_l_BITS_LO l) (R.LINKTEST_l_BITS_HI l)
  let e := s.reg64 (R.LINKTEST_l_ERR_LO l) (R.LINKTEST_l_ERR_HI l)
  (s.setReg64 (R.LINKTEST_l_BITS_LO l) (R.LINKTEST_l_BITS_HI l) (b + BitVec.ofNat 64 bits)).setReg64
    (R.LINKTEST_l_ERR_LO l) (R.LINKTEST_l_ERR_HI l) (e + BitVec.ofNat 64 errs)

/-- R653: the checker locks after 256 error-free bits, or goes on locked, and has checked some bits by now, some of them errored; PRBS
must be in use. DEDUCED (assumption 12). -/
def prbsLock (l bits errs : Nat) (s : State) : State :=
  if s.flag (R.LINKTEST_l_CTRL l) F.LINKTEST_l_CTRL.PRBS then
    laneCount l bits errs (s.put (R.LINKTEST_l_STATUS l) F.LINKTEST_l_STATUS.LOCK 1)
  else s

/-- R653: 32 errors within 256 bits: lock is lost, with the bits and errors checked since they were last counted.
DEDUCED (assumption 12). -/
def prbsLockLost (l bits errs : Nat) (s : State) : State :=
  if s.flag (R.LINKTEST_l_STATUS l) F.LINKTEST_l_STATUS.LOCK then
    let s1 := (laneCount l bits errs s).put (R.LINKTEST_l_STATUS l) F.LINKTEST_l_STATUS.LOCK 0
    (s1.incSat (R.LINKTEST_l_LOCK_CNT l)).raise R.LINKTEST_EVENTS F.LINKTEST_EVENTS.LOCK_LOST
  else s

/-! ### Frame generators (R654, R659) -/

/-- The generator f. -/
def State.gen (s : State) (f : Nat) : FrameGen := tget FrameGen.off s.gens f
/-- The generator f set. -/
def State.setGen (s : State) (f : Nat) (g : FrameGen) : State := { s with gens := tset FrameGen.off s.gens f g }

/-- EN of the port of generator f: FP0–FP3, then CAN0–CAN3. -/
def State.genPortEn (s : State) (f : Nat) : Bool :=
  if f < 4 then s.flag (R.FIELD_p_CTRL f) F.FIELD_p_CTRL.EN else (s.reg (R.CAN_p_CTRL (f - 4))).toNat % 2 = 1

/-- R654: LEN is one the port's frames may have. -/
def State.genLenOk (s : State) (f len : Nat) : Bool :=
  if f < 4 then 46 ≤ len ∧ len ≤ (if s.flag (R.FIELD_p_CTRL f) F.FIELD_p_CTRL.JUMBO then 9000 else 1500)
  else 1 ≤ len ∧ len ≤ (if natBit (s.reg (R.CAN_p_CTRL (f - 4))).toNat 1 then 64 else 8)

/-- R657: CLR of a generator clears SENT, GOOD, BAD and LOST. -/
def genClear (f : Nat) (s : State) : State :=
  (((s.setReg (R.LINKTEST_f_SENT f) 0).setReg (R.LINKTEST_f_GOOD f) 0).setReg (R.LINKTEST_f_BAD f) 0).setReg
    (R.LINKTEST_f_LOST f) 0

/-- R654: a generator stopped. -/
def genStop (f : Nat) (s : State) : State := s.setGen f { s.gen f with running := false }

/-- R654: setting EN of the port stops its generator. -/
def genPortSet (f : Nat) (s : State) : State := if s.genPortEn f then genStop f s else s

/-- R654: a generator started; FCOUNT 0 is continuous. -/
def genStart (f : Nat) (s : State) : State :=
  let n := (s.reg (R.LINKTEST_f_FCOUNT f)).toNat
  s.setGen f ⟨true, if n = 0 then none else some n, 0, s.raw, none⟩

/-- R659: a write of LINKTEST_f_FCTRL. -/
def genCtrlWrite (f : Nat) (v : Word) (s : State) : State :=
  let start := fldOf F.LINKTEST_f_FCTRL.START v = 1
  if start ∧ (s.genPortEn f ∨ ¬ s.genLenOk f (fldOf F.LINKTEST_f_FCTRL.LEN v)) then s.linkRefused
  else
    let p := fldOf F.LINKTEST_f_FCTRL.PAYLOAD v
    let w := setFldOf F.LINKTEST_f_FCTRL.PAYLOAD (if p = 3 then 0 else p) (v &&& 0xFFFFFF78)
    let w := if f < 4 then setFldOf F.LINKTEST_f_FCTRL.INT_LOOP 0 w else w
    let s1 := s.setReg (R.LINKTEST_f_FCTRL f) w
    let s2 := if fldOf F.LINKTEST_f_FCTRL.CLR v = 1 then genClear f s1 else s1
    let s3 := if start then genStart f s2 else s2
    if fldOf F.LINKTEST_f_FCTRL.STOP v = 1 then genStop f s3 else s3

/-- R659: a running generator sends its next frame, GAP ticks after the last. -/
def testFrameSend (f : Nat) (s : State) : State :=
  let g := s.gen f
  if ¬ g.running ∨ s.genPortEn f then s
  else
    let s1 := (s.advanceTo g.dueAt).incWrap (R.LINKTEST_f_SENT f)
    let due := s1.raw + BitVec.ofNat 64 (1024 * s.get (R.LINKTEST_f_FCTRL f) F.LINKTEST_f_FCTRL.GAP)
    s1.setGen f { g with
      running := g.left ≠ some 1, left := g.left.map (· - 1), seq := (g.seq + 1) % 2 ^ 32, dueAt := due }

/-- R654: how many frames a gap from the expected to the received sequence number misses; a CAN frame carries its low
byte only. -/
def seqGap (f : Nat) (expect : Option Nat) (seq : Nat) : Nat :=
  match expect with
  | none => 0
  | some e => let m := if f < 4 then 2 ^ 32 else 256
              (seq + m - e % m) % m

/-- R654: a test frame received by the checker: its sequence number, and whether its check and payload are good. DEDUCED (assumption 11). -/
def testFrameRx (f seq : Nat) (good : Bool) (s : State) : State :=
  if ¬ s.flag (R.LINKTEST_f_FCTRL f) F.LINKTEST_f_FCTRL.CHECK then s
  else
    let g := s.gen f
    if good then
      let lost := seqGap f g.expect seq
      let s1 := (s.setGen f { g with expect := some ((seq + 1) % 2 ^ 32) }).incSat (R.LINKTEST_f_GOOD f)
      if lost = 0 then s1
      else (s1.addSat (R.LINKTEST_f_LOST f) lost).raise R.LINKTEST_EVENTS F.LINKTEST_EVENTS.FRAME_BAD
    else
      let s1 := s.setGen f { g with expect := g.expect.map fun e => (e + 1) % 2 ^ 32 }
      (s1.incSat (R.LINKTEST_f_BAD f)).raise R.LINKTEST_EVENTS F.LINKTEST_EVENTS.FRAME_BAD

/-! ### Boot flash (R651, R663) -/

/-- R651: an erase or program of the boot flash failed twice: counted, with PROG_FAIL. DEDUCED (assumption 193). -/
def xspiProgFail (s : State) : State := (s.incSat R.XSPI_ERR_CNT).raise R.XSPI_EVENTS ⟨0, 1⟩

/-! ### The commands -/

/-- DDR_TRAIN (R650, R661): a write of DDR_CTRL that sets EN or RETRAIN. -/
def execDdrTrain (v : Word) (s : State) : Out := ok (ddrCtrlWrite v s)
/-- DDR_TRAIN_DONE (R650). -/
def execDdrTrainDone (good : Bool) (ms : Nat) (s : State) : Out := ok (ddrTrainDone good ms s)
/-- DDR_TEST_START (R655, R662): a write of DDR_TEST_CTRL with START. -/
def execDdrTestStart (v : Word) (s : State) : Out :=
  ok (ddrTestCtrlWrite (setFldOf F.DDR_TEST_CTRL.START 1 v) s)
/-- DDR_TEST_DONE (R662). -/
def execDdrTestDone (failing first corrected : Nat) (s : State) : Out := ok (ddrTestDone failing first corrected s)
/-- LINKTEST_CTRL_WRITE (R652, R658). -/
def execLinktestCtrlWrite (l : Fin 8) (v : Word) (s : State) : Out := ok (linktestCtrlWrite l v s)
/-- PRBS_LOCK (R653). -/
def execPrbsLock (x : PrbsSpan) (s : State) : Out := ok (prbsLock x.lane x.bits x.errs s)
/-- PRBS_LOCK_LOST (R653). -/
def execPrbsLockLost (l : Fin 8) (bits errs : Nat) (s : State) : Out := ok (prbsLockLost l bits errs s)
/-- GENERATOR_START (R659): a write of LINKTEST_f_FCTRL with START. -/
def execGeneratorStart (f : Fin 8) (v : Word) (s : State) : Out :=
  ok (genCtrlWrite f (setFldOf F.LINKTEST_f_FCTRL.START 1 v) s)
/-- GENERATOR_STOP (R659): a write of LINKTEST_f_FCTRL with STOP. -/
def execGeneratorStop (f : Fin 8) (v : Word) (s : State) : Out :=
  ok (genCtrlWrite f (setFldOf F.LINKTEST_f_FCTRL.STOP 1 v) s)
/-- TEST_FRAME_RX (R654). -/
def execTestFrameRx (f : Fin 8) (seq : Nat) (good : Bool) (s : State) : Out := ok (testFrameRx f seq good s)
/-- TEST_FRAME_SEND (R659). -/
def execTestFrameSend (f : Fin 8) (s : State) : Out := ok (testFrameSend f s)

end Sys2Proof.Machine
end

