-- ==== Sys2Proof/Machine/Flags.lean ====
section
/-! DEFINITION. Binary floating point by exact integer arithmetic (R76): the formats, rounding to nearest even, the
arithmetic, the conversions, and the comparisons with their NaN and signed-zero rules (R87). -/

namespace Sys2Proof.Machine

/-- A binary interchange format: the width of its fraction and of its exponent. -/
structure FFmt where
  frac : Nat
  exp : Nat
deriving DecidableEq, Repr

/-- IEEE 754 binary32. -/
def fmt32 : FFmt := ⟨23, 8⟩
/-- IEEE 754 binary64. -/
def fmt64 : FFmt := ⟨52, 11⟩

/-- The exponent bias. -/
def FFmt.bias (f : FFmt) : Nat := 2 ^ (f.exp - 1) - 1
/-- The bit pattern of infinity, without sign. -/
def FFmt.infBits (f : FFmt) : Nat := (2 ^ f.exp - 1) * 2 ^ f.frac
/-- R76: the canonical quiet NaN. -/
def FFmt.nanBits (f : FFmt) : Nat := f.infBits + 2 ^ (f.frac - 1)
/-- The weight of the sign bit. -/
def FFmt.signBit (f : FFmt) : Nat := 2 ^ (f.frac + f.exp)

/-- What a bit pattern stands for: a NaN, an infinity, or (−1)^neg × m × 2^e. -/
inductive FVal where
  | nan
  | inf (neg : Bool)
  | fin (neg : Bool) (m : Nat) (e : Int)
deriving DecidableEq, Repr

/-- The value of a bit pattern of the format. -/
def fdecode (f : FFmt) (n : Nat) : FVal :=
  let neg := f.signBit ≤ n % (2 * f.signBit)
  let mag := n % f.signBit
  let e := mag / 2 ^ f.frac
  let m := mag % 2 ^ f.frac
  if e = 2 ^ f.exp - 1 then (if m = 0 then .inf neg else .nan)
  else if e = 0 then .fin neg m (1 - (f.bias : Int) - f.frac)
  else .fin neg (m + 2 ^ f.frac) ((e : Int) - f.bias - f.frac)

/-- The sign bit set when negative. -/
def fsign (f : FFmt) (neg : Bool) (mag : Nat) : Nat := if neg then mag + f.signBit else mag

/-- R76: the exact value m × 2^e (a little more when sticky) rounded to nearest even; overflow gives infinity. -/
def fround (f : FFmt) (neg : Bool) (m : Nat) (e : Int) (sticky : Bool) : Nat :=
  if m = 0 then fsign f neg 0
  else
    let lsbMin : Int := 1 - (f.bias : Int) - f.frac
    let e' := max (e + (Nat.log2 m + 1 : Nat) - (f.frac + 1 : Nat)) lsbMin
    let sh := e' - e
    let q :=
      if sh ≤ 0 then m * 2 ^ (-sh).toNat
      else
        let d := 2 ^ sh.toNat
        let r := m % d
        let half := d / 2
        if half < r ∨ (r = half ∧ (sticky ∨ m / d % 2 = 1)) then m / d + 1 else m / d
    let biased := (e' + f.frac + f.bias).toNat
    fsign f neg (min f.infBits ((biased - 1) * 2 ^ f.frac + q))

/-- The bit pattern of a value that is exact or infinite. -/
def fencode (f : FFmt) : FVal → Nat
  | .nan => f.nanBits
  | .inf neg => fsign f neg f.infBits
  | .fin neg m e => fround f neg m e false

/-- A signed exact integer at a scale, as a value; a zero takes the sign given. -/
def fofInt (x : Int) (e : Int) (zneg : Bool) : FVal :=
  if x = 0 then .fin zneg 0 e else .fin (x < 0) x.natAbs e

/-- The signed significand of a finite value. -/
def fsigned (neg : Bool) (m : Nat) : Int := if neg then -(m : Int) else m

/-- The sum as an exact value; the sign of an exact zero is that of rounding to nearest. -/
def faddV : FVal → FVal → FVal
  | .nan, _ => .nan
  | _, .nan => .nan
  | .inf a, .inf b => if a = b then .inf a else .nan
  | .inf a, .fin _ _ _ => .inf a
  | .fin _ _ _, .inf b => .inf b
  | .fin a m e, .fin b n g =>
    let l := min e g
    fofInt (fsigned a m * 2 ^ (e - l).toNat + fsigned b n * 2 ^ (g - l).toNat) l (a && b)

/-- The negative of a value. -/
def fnegV : FVal → FVal
  | .nan => .nan
  | .inf a => .inf (!a)
  | .fin a m e => .fin (!a) m e

/-- The product as an exact value. -/
def fmulV : FVal → FVal → FVal
  | .nan, _ => .nan
  | _, .nan => .nan
  | .inf a, .inf b => .inf (a != b)
  | .inf a, .fin b m _ => if m = 0 then .nan else .inf (a != b)
  | .fin a m _, .inf b => if m = 0 then .nan else .inf (a != b)
  | .fin a m e, .fin b n g => .fin (a != b) (m * n) (e + g)

/-- The quotient, rounded: a finite quotient is formed to enough bits, with the remainder as the sticky bit. -/
def fdivBits (f : FFmt) : FVal → FVal → Nat
  | .nan, _ => f.nanBits
  | _, .nan => f.nanBits
  | .inf _, .inf _ => f.nanBits
  | .inf a, .fin b _ _ => fsign f (a != b) f.infBits
  | .fin a _ _, .inf b => fsign f (a != b) 0
  | .fin a m e, .fin b n g =>
    if n = 0 then (if m = 0 then f.nanBits else fsign f (a != b) f.infBits)
    else
      let k := f.frac + 4 + (Nat.log2 n + 1)
      fround f (a != b) (m * 2 ^ k / n) (e - g - k) (m * 2 ^ k % n ≠ 0)

/-- The integer square root of n below 2^(2k), bit by bit. -/
def isqrtAux (n : Nat) : Nat → Nat → Nat
  | 0, r => r
  | k + 1, r => if (r + 2 ^ k) * (r + 2 ^ k) ≤ n then isqrtAux n k (r + 2 ^ k) else isqrtAux n k r

/-- The integer square root. -/
def isqrt (n : Nat) : Nat := isqrtAux n (Nat.log2 n / 2 + 1) 0

/-- The square root, rounded. -/
def fsqrtBits (f : FFmt) : FVal → Nat
  | .nan => f.nanBits
  | .inf a => if a then f.nanBits else f.infBits
  | .fin a m e =>
    if m = 0 then fsign f a 0
    else if a then f.nanBits
    else
      let k := 2 * (f.frac + 4) + (e % 2).toNat
      let x := m * 2 ^ k
      let r := isqrt x
      fround f false r ((e - k) / 2) (r * r ≠ x)

/-- A value as an integer at the scale of the smallest subnormal of either format, for comparisons: exact. -/
def fkey (f : FFmt) (n : Nat) : Int :=
  let mag := n % f.signBit
  if f.signBit ≤ n % (2 * f.signBit) then -(mag : Int) else mag

/-- Whether the pattern is a NaN. -/
def fisNan (f : FFmt) (n : Nat) : Bool := f.infBits < n % f.signBit

/-- R87: a < b; false with a NaN. -/
def flt (f : FFmt) (a b : Nat) : Bool := !fisNan f a && !fisNan f b && decide (fkey f a < fkey f b)
/-- R87: a ≤ b; false with a NaN. -/
def fle (f : FFmt) (a b : Nat) : Bool := !fisNan f a && !fisNan f b && decide (fkey f a ≤ fkey f b)
/-- R87: a = b; false with a NaN. -/
def feq (f : FFmt) (a b : Nat) : Bool := !fisNan f a && !fisNan f b && decide (fkey f a = fkey f b)

/-- The addition of two patterns. -/
def fadd (f : FFmt) (a b : Nat) : Nat := fencode f (faddV (fdecode f a) (fdecode f b))
/-- The subtraction of two patterns. -/
def fsub (f : FFmt) (a b : Nat) : Nat := fencode f (faddV (fdecode f a) (fnegV (fdecode f b)))
/-- The multiplication of two patterns. -/
def fmul (f : FFmt) (a b : Nat) : Nat := fencode f (fmulV (fdecode f a) (fdecode f b))
/-- The division of two patterns. -/
def fdiv (f : FFmt) (a b : Nat) : Nat := fdivBits f (fdecode f a) (fdecode f b)
/-- The square root of a pattern. -/
def fsqrt (f : FFmt) (a : Nat) : Nat := fsqrtBits f (fdecode f a)
/-- The negative of a pattern; a NaN gives the canonical one (R76). -/
def fneg (f : FFmt) (a : Nat) : Nat := fencode f (fnegV (fdecode f a))
/-- The absolute value of a pattern; a NaN gives the canonical one (R76). -/
def fabs (f : FFmt) (a : Nat) : Nat := if fisNan f a then f.nanBits else a % f.signBit

/-- R87: the smaller; a NaN operand gives the canonical NaN, and −0.0 is smaller than +0.0. -/
def fminE (f : FFmt) (a b : Nat) : Nat :=
  if fisNan f a ∨ fisNan f b then f.nanBits
  else if fkey f a < fkey f b then a
  else if fkey f b < fkey f a then b
  else if f.signBit ≤ a % (2 * f.signBit) then a else b

/-- R87: the greater; a NaN operand gives the canonical NaN, and +0.0 is greater than −0.0. -/
def fmaxE (f : FFmt) (a b : Nat) : Nat :=
  if fisNan f a ∨ fisNan f b then f.nanBits
  else if fkey f a < fkey f b then b
  else if fkey f b < fkey f a then a
  else if f.signBit ≤ a % (2 * f.signBit) then b else a

/-- R106: the library's min: one NaN operand gives the other operand; of zeros with two signs -0.0. DESIGN CHOICE (assumption 235). -/
def fminL (f : FFmt) (a b : Nat) : Nat :=
  if fisNan f a then (if fisNan f b then f.nanBits else b) else if fisNan f b then a else fminE f a b

/-- R106: the library's max: one NaN operand gives the other operand; of zeros with two signs +0.0. DESIGN CHOICE (assumption 235). -/
def fmaxL (f : FFmt) (a b : Nat) : Nat :=
  if fisNan f a then (if fisNan f b then f.nanBits else b) else if fisNan f b then a else fmaxE f a b

/-- R77: an integer rounded to the format. -/
def fofI (f : FFmt) (x : Int) : Nat := fround f (x < 0) x.natAbs 0 false

/-- R77: a pattern truncated towards zero; none for a NaN or an infinity, with the sign of the infinity. -/
def ftoI (f : FFmt) (n : Nat) : Option Int :=
  match fdecode f n with
  | .fin neg m e =>
    some (fsigned neg (if 0 ≤ e then m * 2 ^ e.toNat else m / 2 ^ (-e).toNat))
  | _ => none

/-- R77: a pattern of one format rounded to another. -/
def fconv (f g : FFmt) (n : Nat) : Nat := fencode g (fdecode f n)

end Sys2Proof.Machine
end

