-- ==== Sys2Proof/Machine/Operands.lean ====
section
/-! DEFINITION. The operand cells of E-code (R72, R73): how an instruction of a type reads a cell and writes its result,
the integer forms (R74, R75), the typed arithmetic and comparisons (R76, R87), shifts and bits (R87) and CONV (R77). -/

namespace Sys2Proof.Machine

/-- The type of a code; code 7 is reserved (R72). -/
def etypeOf : Nat → Option EType
  | 0 => some .b | 1 => some .i32 | 2 => some .u32 | 3 => some .i64 | 4 => some .f32 | 5 => some .f64 | 6 => some .t64
  | _ => none

/-- The code of a type. -/
def etypeCode : EType → Nat
  | .b => 0 | .i32 => 1 | .u32 => 2 | .i64 => 3 | .f32 => 4 | .f64 => 5 | .t64 => 6

/-- Whether the type is a floating-point type. -/
def isFlt : EType → Bool
  | .f32 => true | .f64 => true | _ => false

/-- The bytes a value of the type takes in an image. -/
def typeBytes : EType → Nat
  | .b => 1 | .i32 => 4 | .u32 => 4 | .f32 => 4 | .i64 => 8 | .f64 => 8 | .t64 => 8

/-- The format of a floating-point type. -/
def fmtOf : EType → FFmt
  | .f32 => fmt32 | _ => fmt64

/-- R73: a cell read as an integer of the type; a B is 0 or 1. -/
def rdInt (t : EType) (c : Quad) : Int :=
  match t with
  | .b => if c = 0 then 0 else 1
  | .i32 => (c.truncate 32).toInt
  | .u32 => ((c.truncate 32).toNat : Int)
  | .f32 => ((c.truncate 32).toNat : Int)
  | .i64 => c.toInt
  | .f64 => c.toInt
  | .t64 => c.toInt

/-- R72, R74: an integer written in the type's form, modulo its width. -/
def wrInt (t : EType) (x : Int) : Quad :=
  match t with
  | .b => if x = 0 then 0 else 1
  | .i32 => (BitVec.ofInt 32 x).signExtend 64
  | .u32 => (BitVec.ofInt 32 x).zeroExtend 64
  | .f32 => (BitVec.ofInt 32 x).zeroExtend 64
  | .i64 => BitVec.ofInt 64 x
  | .f64 => BitVec.ofInt 64 x
  | .t64 => BitVec.ofInt 64 x

/-- R73: a cell read as the type and written in its form, as a store to a typed destination does. -/
def normCell (t : EType) (c : Quad) : Quad :=
  match t with
  | .b => if c = 0 then 0 else 1
  | .i32 => (c.truncate 32).signExtend 64
  | .u32 => (c.truncate 32).zeroExtend 64
  | .f32 => (c.truncate 32).zeroExtend 64
  | .i64 => c
  | .f64 => c
  | .t64 => c

/-- R73: the pattern of a floating-point cell. -/
def rdFlt (t : EType) (c : Quad) : Nat :=
  match t with
  | .f32 => c.toNat % 2 ^ 32
  | _ => c.toNat

/-- A pattern as a cell. -/
def wrFlt (n : Nat) : Quad := BitVec.ofNat 64 n

/-- A truth value as a cell. -/
def wrBool (b : Bool) : Quad := if b then 1 else 0

/-- The least value of an integer type. -/
def tyMin : EType → Int
  | .i32 => -2 ^ 31 | .i64 => -2 ^ 63 | .t64 => -2 ^ 63 | _ => 0

/-- The greatest value of an integer type. -/
def tyMax : EType → Int
  | .b => 1 | .i32 => 2 ^ 31 - 1 | .u32 => 2 ^ 32 - 1 | .i64 => 2 ^ 63 - 1 | .t64 => 2 ^ 63 - 1 | _ => 0

/-- R74: the exact result held to the type's range. -/
def satInt (t : EType) (x : Int) : Quad :=
  wrInt t (if x < tyMin t then tyMin t else if tyMax t < x then tyMax t else x)

/-- R74, R76: ADD.t. -/
def cellAdd (t : EType) (a b : Quad) : Quad :=
  if isFlt t then wrFlt (fadd (fmtOf t) (rdFlt t a) (rdFlt t b)) else wrInt t (rdInt t a + rdInt t b)
/-- R74, R76: SUB.t. -/
def cellSub (t : EType) (a b : Quad) : Quad :=
  if isFlt t then wrFlt (fsub (fmtOf t) (rdFlt t a) (rdFlt t b)) else wrInt t (rdInt t a - rdInt t b)
/-- R74, R76: MUL.t. -/
def cellMul (t : EType) (a b : Quad) : Quad :=
  if isFlt t then wrFlt (fmul (fmtOf t) (rdFlt t a) (rdFlt t b)) else wrInt t (rdInt t a * rdInt t b)
/-- R75, R76: DIV.t; an integer divisor of 0 gives 0 (and a fault, R103). -/
def cellDiv (t : EType) (a b : Quad) : Quad :=
  if isFlt t then wrFlt (fdiv (fmtOf t) (rdFlt t a) (rdFlt t b))
  else if rdInt t b = 0 then 0 else wrInt t (Int.tdiv (rdInt t a) (rdInt t b))
/-- R75: REM.t; an integer divisor of 0 gives 0 (and a fault, R103). -/
def cellRem (t : EType) (a b : Quad) : Quad :=
  if rdInt t b = 0 then 0 else wrInt t (Int.tmod (rdInt t a) (rdInt t b))
/-- R74: ADDS.t. -/
def cellAdds (t : EType) (a b : Quad) : Quad := satInt t (rdInt t a + rdInt t b)
/-- R74: SUBS.t. -/
def cellSubs (t : EType) (a b : Quad) : Quad := satInt t (rdInt t a - rdInt t b)
/-- R74: MULS.t. -/
def cellMuls (t : EType) (a b : Quad) : Quad := satInt t (rdInt t a * rdInt t b)
/-- R85: NEG.t, wrapping. -/
def cellNeg (t : EType) (a : Quad) : Quad :=
  if isFlt t then wrFlt (fneg (fmtOf t) (rdFlt t a)) else wrInt t (-rdInt t a)
/-- R85: ABS.t, saturated. -/
def cellAbs (t : EType) (a : Quad) : Quad :=
  if isFlt t then wrFlt (fabs (fmtOf t) (rdFlt t a)) else satInt t (if rdInt t a < 0 then -rdInt t a else rdInt t a)

/-- R87: EQ.t. -/
def cellEq (t : EType) (a b : Quad) : Bool :=
  if isFlt t then feq (fmtOf t) (rdFlt t a) (rdFlt t b) else rdInt t a = rdInt t b
/-- R87: LT.t. -/
def cellLt (t : EType) (a b : Quad) : Bool :=
  if isFlt t then flt (fmtOf t) (rdFlt t a) (rdFlt t b) else rdInt t a < rdInt t b
/-- R87: LE.t. -/
def cellLe (t : EType) (a b : Quad) : Bool :=
  if isFlt t then fle (fmtOf t) (rdFlt t a) (rdFlt t b) else rdInt t a ≤ rdInt t b

/-- R87: MIN. -/
def cellMin (t : EType) (a b : Quad) : Quad :=
  if isFlt t then wrFlt (fminE (fmtOf t) (rdFlt t a) (rdFlt t b))
  else wrInt t (if rdInt t a ≤ rdInt t b then rdInt t a else rdInt t b)
/-- R87: MAX. -/
def cellMax (t : EType) (a b : Quad) : Quad :=
  if isFlt t then wrFlt (fmaxE (fmtOf t) (rdFlt t a) (rdFlt t b))
  else wrInt t (if rdInt t a ≤ rdInt t b then rdInt t b else rdInt t a)
/-- R87: LIMIT is MAX(lo, MIN(x, hi)). -/
def cellLimit (t : EType) (lo x hi : Quad) : Quad := cellMax t lo (cellMin t x hi)

/-- R87: the width of the types of shifts and bit instructions. -/
def bitWidth (t : EType) : Nat :=
  match t with
  | .i64 => 64 | _ => 32

/-- R87: a bit or shift count, unsigned in its type. -/
def rdCount (t : EType) (n : Quad) : Nat := n.toNat % 2 ^ bitWidth t

/-- The pattern of a cell in the type's width. -/
def rdPat (t : EType) (a : Quad) : Nat := a.toNat % 2 ^ bitWidth t

/-- R85: NOT t. -/
def cellNot (t : EType) (a : Quad) : Quad := wrInt t ((2 ^ bitWidth t - 1 - rdPat t a : Nat) : Int)
/-- R87: SHL t. -/
def cellShl (t : EType) (a n : Quad) : Quad :=
  if rdCount t n < bitWidth t then wrInt t ((rdPat t a * 2 ^ rdCount t n : Nat) : Int) else 0
/-- R87: SHR t. -/
def cellShr (t : EType) (a n : Quad) : Quad :=
  if rdCount t n < bitWidth t then wrInt t ((rdPat t a / 2 ^ rdCount t n : Nat) : Int) else 0
/-- The pattern of a cell in the type's width, with its top bit as the sign (R87: SAR fills with it). -/
def rdSigned (t : EType) (a : Quad) : Int :=
  if rdPat t a < 2 ^ (bitWidth t - 1) then (rdPat t a : Int) else (rdPat t a : Int) - 2 ^ bitWidth t
/-- R87: SAR t: the fill is the top bit of the pattern. -/
def cellSar (t : EType) (a n : Quad) : Quad :=
  wrInt t (rdSigned t a / 2 ^ (min (rdCount t n) (bitWidth t)))
/-- R87: BITGET t. -/
def cellBitGet (t : EType) (a n : Quad) : Quad :=
  if rdCount t n < bitWidth t then wrBool (rdPat t a / 2 ^ rdCount t n % 2 = 1) else 0
/-- R87: BITSET t. -/
def cellBitSet (t : EType) (a n : Quad) : Quad :=
  if rdCount t n < bitWidth t then
    if rdPat t a / 2 ^ rdCount t n % 2 = 0 then wrInt t ((rdPat t a + 2 ^ rdCount t n : Nat) : Int) else normCell t a
  else normCell t a
/-- R87: BITCLR t. -/
def cellBitClr (t : EType) (a n : Quad) : Quad :=
  if rdCount t n < bitWidth t then
    if rdPat t a / 2 ^ rdCount t n % 2 = 1 then wrInt t ((rdPat t a - 2 ^ rdCount t n : Nat) : Int) else normCell t a
  else normCell t a

/-- R77: a float cell to an integer type: the result, and whether CONV_RANGE is raised. -/
def convFltInt (src dst : EType) (sat : Bool) (c : Quad) : Quad × Bool :=
  match ftoI (fmtOf src) (rdFlt src c) with
  | some x =>
    if tyMin dst ≤ x ∧ x ≤ tyMax dst then (wrInt dst x, false)
    else if sat then (satInt dst x, false) else (0, true)
  | none =>
    if sat then
      (if fisNan (fmtOf src) (rdFlt src c) then 0
        else wrInt dst (if fkey (fmtOf src) (rdFlt src c) < 0 then tyMin dst else tyMax dst), false)
    else (0, true)

/-- R77: CONV: the result, and whether CONV_RANGE is raised. -/
def cellConv (src dst : EType) (sat : Bool) (c : Quad) : Quad × Bool :=
  if dst = .b then
    (wrBool (if isFlt src then !feq (fmtOf src) (rdFlt src c) 0 else decide (rdInt src c ≠ 0)), false)
  else if isFlt src then
    if isFlt dst then (wrFlt (fconv (fmtOf src) (fmtOf dst) (rdFlt src c)), false)
    else convFltInt src dst sat c
  else if isFlt dst then (wrFlt (fofI (fmtOf dst) (rdInt src c)), false)
  else (if sat then satInt dst (rdInt src c) else wrInt dst (rdInt src c), false)

end Sys2Proof.Machine
end

