-- ==== Sys2Proof/Machine/Points.lean ====
section
/-! DEFINITION. Points and images (R117 to R119): point references, the places of their bytes in the images, and
reading, writing and overlap of typed values there. -/

namespace Sys2Proof.Machine

/-- The kind of a point reference (R117). -/
def refKind (r : Nat) : Nat := r / 2 ^ 28 % 16

/-- The bit of a B point in its byte. -/
def refBit (r : Nat) : Nat :=
  match refKind r with
  | 2 => r / 2 ^ 18 % 8
  | 3 => r / 2 ^ 18 % 8
  | 4 => r / 2 ^ 20 % 16 % 8
  | _ => 0

/-- The image address of a point's first byte. A GPIO pin, a mirror bit and a system point take a byte each, a DAC four,
an encoder and a farm point eight; a station, node or slave has its slot, and a slave's element two bytes. -/
def refAddr (r : Nat) : Nat :=
  refKind r * 2 ^ 32 +
  match refKind r with
  | 0 => r % 256
  | 1 => r % 32 * 4
  | 2 => (r / 2 ^ 16 % 4 * 256 + r / 2 ^ 8 % 256) * 256 + r % 256
  | 3 => (r / 2 ^ 16 % 4 * 128 + r / 2 ^ 8 % 128) * 256 + r % 256
  | 4 => (r / 2 ^ 18 % 4 * 256 + r / 2 ^ 10 % 256) * 2048 + r % 1024 * 2 + r / 2 ^ 20 % 16 / 8
  | 5 => (r / 2 ^ 16 % 8 * 65536 + r % 65536) * 8
  | 6 => r % 64 * 8
  | 7 => r % 256
  | 8 => r % 256
  | _ => 0

/-- The source of an input point, whose age and quality its values share: a pin, a station, a node, a slave, a farm
point, an encoder, a mirror bit. -/
def refSource (r : Nat) : Nat :=
  refKind r * 2 ^ 32 +
  match refKind r with
  | 2 => r / 2 ^ 16 % 4 * 256 + r / 2 ^ 8 % 256
  | 3 => r / 2 ^ 16 % 4 * 128 + r / 2 ^ 8 % 128
  | 4 => r / 2 ^ 18 % 4 * 256 + r / 2 ^ 10 % 256
  | 5 => r % 2 ^ 19
  | _ => r % 256

/-- R117: the bits of a reference that its kind uses, within their limits; the others must be 0. -/
def refFieldsOk (r : Nat) : Bool :=
  match refKind r with
  | 0 => r % 2 ^ 28 < 192
  | 1 => r % 2 ^ 28 < 32
  | 2 => r % 2 ^ 28 < 2 ^ 21
  | 3 => r % 2 ^ 28 < 2 ^ 21 ∧ r / 2 ^ 15 % 2 = 0 ∧ 1 ≤ r / 2 ^ 8 % 128
  | 4 => r % 2 ^ 28 < 2 ^ 24 ∧ 1 ≤ r / 2 ^ 10 % 256 ∧ r / 2 ^ 10 % 256 ≤ 247
  | 5 => r % 2 ^ 28 < 2 ^ 19
  | 6 => r % 2 ^ 28 < 64
  | 7 => r % 2 ^ 28 < 99
  | 8 => r % 2 ^ 28 < 6
  | _ => false

/-- R400: the elements of a slave's mapped image that a poll entry covers: the end of its read or write, and of the write half of
function 0x17; coils and discrete inputs are packed 16 to an element. -/
def PollEntry.elems (e : PollEntry) : Nat :=
  let n (q : Nat) : Nat := if e.func = 1 ∨ e.func = 2 ∨ e.func = 5 ∨ e.func = 15 then (q + 15) / 16 else q
  max (e.elem + n e.qty) (if e.func = 0x17 then e.welem + e.wqty else 0)

/-- R117, R384, R393, R400: the bytes of the slot, of a node's mapped process data or of a slave's mapped image that a reference of
kind TREAVO, CANOPEN or MODBUS lies in, as an input or an output; 0 for a station, node or slave that the image does not have. -/
def slotBytes (im : Image) (r : Nat) (input : Bool) : Nat :=
  match refKind r with
  | 2 => (((tget [] im.stations (r / 2 ^ 16 % 4)).find? fun c => c.num = r / 2 ^ 8 % 256).map fun c =>
      if input then c.inLen else c.outLen).getD 0
  | 3 => (((tget [] im.nodes (r / 2 ^ 16 % 4)).find? fun c => c.node = r / 2 ^ 8 % 128).map fun c =>
      (if input then c.tpdos else c.rpdos).sum).getD 0
  | 4 => 2 * (((tget [] im.polls (r / 2 ^ 18 % 4)).filter fun e => e.slave = r / 2 ^ 10 % 256).map PollEntry.elems).foldl max 0
  | _ => 0

/-- R117: a type that the point's kind allows: its bytes lie within the slot. A bit number stands only beside the type B. -/
def refTypeOk (im : Image) (r : Nat) (t : EType) (input : Bool) : Bool :=
  match refKind r with
  | 0 => t = .b
  | 1 => t = .u32
  | 2 => (t = .b ∨ refBit r = 0) ∧ r % 256 + typeBytes t ≤ slotBytes im r input
  | 3 => (t = .b ∨ refBit r = 0) ∧ r % 256 + typeBytes t ≤ slotBytes im r input
  | 4 => (t = .b ∨ r / 2 ^ 20 % 16 = 0) ∧ r % 1024 * 2 + r / 2 ^ 20 % 16 / 8 + typeBytes t ≤ slotBytes im r input
  | 5 => true
  | 6 => t = .i64
  | 7 => t = .b
  | 8 => t = .b
  | _ => false

/-- R117: the kind may be an input (true) or an output (false); own is the device's own farm number. -/
def refDirOk (r own : Nat) (input : Bool) : Bool :=
  match refKind r with
  | 1 => !input
  | 5 => (r / 2 ^ 16 % 8 = own) != input
  | 6 => input
  | 7 => input
  | 8 => input
  | _ => true

/-- The bytes of an image from an address, least significant first, as a number. -/
def imgNat (m : Tbl Byte) (a : Nat) : Nat → Nat
  | 0 => 0
  | n + 1 => (tget 0 m a).toNat + 256 * imgNat m (a + 1) n

/-- The image with bytes from an address set to a number's, least significant first. -/
def imgSet (m : Tbl Byte) (a v : Nat) : Nat → Tbl Byte
  | 0 => m
  | n + 1 => imgSet (tset 0 m a (BitVec.ofNat 8 v)) (a + 1) (v / 256) n

/-- A byte with one bit set to a truth value. -/
def byteBit (x : Byte) (i : Nat) (b : Bool) : Byte :=
  if b then x ||| BitVec.ofNat 8 (2 ^ i) else x &&& ~~~ BitVec.ofNat 8 (2 ^ i)

/-- The typed value of a point in an image, in the form of R72. -/
def imgRead (m : Tbl Byte) (r : Nat) (t : EType) : Quad :=
  match t with
  | .b => wrBool (natBit (tget 0 m (refAddr r)).toNat (refBit r))
  | t => normCell t (BitVec.ofNat 64 (imgNat m (refAddr r) (typeBytes t)))

/-- The image with a typed value written at a point. -/
def imgWrite (m : Tbl Byte) (r : Nat) (t : EType) (v : Quad) : Tbl Byte :=
  match t with
  | .b => tset 0 m (refAddr r) (byteBit (tget 0 m (refAddr r)) (refBit r) (v ≠ 0))
  | t => imgSet m (refAddr r) v.toNat (typeBytes t)

/-- The image with every bit of a point set: a mask of the bits a write touches. -/
def imgTouch (m : Tbl Byte) (r : Nat) (t : EType) : Tbl Byte :=
  match t with
  | .b => tset 0 m (refAddr r) (byteBit (tget 0 m (refAddr r)) (refBit r) true)
  | t => imgSet m (refAddr r) (2 ^ (8 * typeBytes t) - 1) (typeBytes t)

/-- Whether any bit of a point is set in a mask. -/
def imgTouched (m : Tbl Byte) (r : Nat) (t : EType) : Bool :=
  match t with
  | .b => natBit (tget 0 m (refAddr r)).toNat (refBit r)
  | t => imgNat m (refAddr r) (typeBytes t) ≠ 0

/-- R30: an image overlaid by another under a mask: every masked bit is taken from the other. -/
def imgOverlay (m : Tbl Byte) (src : Tbl Byte) : Tbl Byte → Tbl Byte
  | [] => m
  | (a, k) :: t => imgOverlay (tset 0 m a ((tget 0 m a &&& ~~~k) ||| (tget 0 src a &&& k))) src t

/-- R118: two references overlap: their bytes do; for B the byte that holds the bit. -/
def refOverlap (r : Nat) (t : EType) (q : Nat) (u : EType) : Bool :=
  refAddr r < refAddr q + typeBytes u ∧ refAddr q < refAddr r + typeBytes t

end Sys2Proof.Machine
end

