-- ==== Sys2Proof/Machine/Collie.lean ====
section
/-! DEFINITION. Chapter 5: Collie, the hardware task scheduler: readiness, dispatch, completion, posts, delays, flows,
cancellation and core fencing. -/

namespace Sys2Proof.Machine

/-! ### Access -/

/-- The descriptor of a task. -/
def State.desc (s : State) (t : Nat) : TaskDesc := tget TaskDesc.unused s.image.tasks t
/-- The descriptor of a task in the old image of an online change. -/
def State.oldDesc (s : State) (t : Nat) : TaskDesc :=
  match s.oldImage with
  | none => s.desc t
  | some im => tget TaskDesc.unused im.tasks t
/-- What Collie holds for a descriptor. -/
def State.task (s : State) (t : Nat) : TaskState := tget TaskState.idle s.collie.tasks t
/-- What Collie holds for a descriptor, set. -/
def State.setTask (s : State) (t : Nat) (x : TaskState) : State :=
  { s with collie := { s.collie with tasks := tset TaskState.idle s.collie.tasks t x } }
/-- The state of an old-image task that still runs. -/
def State.oldTask (s : State) (t : Nat) : TaskState := tget TaskState.idle s.collie.oldTasks t
/-- The state of an old-image task, set. -/
def State.setOldTask (s : State) (t : Nat) (x : TaskState) : State :=
  { s with collie := { s.collie with oldTasks := tset TaskState.idle s.collie.oldTasks t x } }
/-- A core. -/
def State.core (s : State) (k : Nat) : Core := tget Core.idle s.collie.cores k
/-- A core, set. -/
def State.setCore (s : State) (k : Nat) (c : Core) : State :=
  { s with collie := { s.collie with cores := tset Core.idle s.collie.cores k c } }
/-- The run on a core. -/
def State.run (s : State) (k : Nat) : Option Run := (s.core k).run
/-- The run on a core, set. -/
def State.setRun (s : State) (k : Nat) (r : Option Run) : State := s.setCore k { s.core k with run := r }
/-- A flow. -/
def State.flow (s : State) (f : Nat) : Flow := tget Flow.idle s.collie.flows f
/-- A flow, set. -/
def State.setFlow (s : State) (f : Nat) (x : Flow) : State :=
  { s with collie := { s.collie with flows := tset Flow.idle s.collie.flows f x } }
/-- A flow's configuration (R193). -/
def State.flowCfg (s : State) (f : Nat) : FlowCfg := tget ⟨0, 0, false⟩ s.image.flows f
/-- A ready list: plot and level; level 8 holds repeats and is served first. -/
def State.readyList (s : State) (p l : Nat) : List ReadyEntry := tget [] s.collie.ready (p * 16 + l)
/-- A ready list, set. -/
def State.setReady (s : State) (p l : Nat) (x : List ReadyEntry) : State :=
  { s with collie := { s.collie with ready := tset [] s.collie.ready (p * 16 + l) x } }
/-- A slice's release area. -/
def State.releases (s : State) (p : Nat) : List Release := tget [] s.collie.releases p
/-- A slice's release area, set. -/
def State.setReleases (s : State) (p : Nat) (x : List Release) : State :=
  { s with collie := { s.collie with releases := tset [] s.collie.releases p x } }
/-- A task's retained image. -/
def State.retained (s : State) (t : Nat) : Retained := tget Retained.zero s.collie.retained t
/-- A task's retained image, set. -/
def State.setRetained (s : State) (t : Nat) (x : Retained) : State :=
  { s with collie := { s.collie with retained := tset Retained.zero s.collie.retained t x } }
/-- An old task's retained image. -/
def State.oldRetained (s : State) (t : Nat) : Retained := tget Retained.zero s.collie.oldRetained t
/-- The descriptor of a task in the old or the new image of an online change. -/
def State.descOf (s : State) (old : Bool) (t : Nat) : TaskDesc := if old then s.oldDesc t else s.desc t
/-- What Collie holds for the old or the new form of a task. -/
def State.taskOf (s : State) (old : Bool) (t : Nat) : TaskState := if old then s.oldTask t else s.task t
/-- What Collie holds for the old or the new form of a task, set. -/
def State.setTaskOf (s : State) (old : Bool) (t : Nat) (x : TaskState) : State :=
  if old then s.setOldTask t x else s.setTask t x
/-- An old task's retained image, set. -/
def State.setOldRetained (s : State) (t : Nat) (x : Retained) : State :=
  { s with collie := { s.collie with oldRetained := tset Retained.zero s.collie.oldRetained t x } }
/-- R81: the copy that the selector names. -/
def Retained.valid (r : Retained) : Tbl Quad := if r.selB then r.b else r.a
/-- R81: the other copy written and the selector flipped. -/
def Retained.flip (r : Retained) (w : Tbl Quad) : Retained :=
  if r.selB then { r with a := w, selB := false, built := true } else { r with b := w, selB := true, built := true }
/-- R217: a cell of the valid copy written in place. -/
def Retained.poke (r : Retained) (c : Nat) (v : Quad) : Retained :=
  if r.selB then { r with b := tset 0 r.b c v } else { r with a := tset 0 r.a c v }

/-- The plot of a core (R6). -/
def plotOf (k : Nat) : Nat := k / 9

/-- R151: a task is enabled. -/
def State.taskEnabled (s : State) (t : Nat) : Bool := s.flag (R.EXEC_t_TASK_CTRL t) F.EXEC_t_TASK_CTRL.ENABLE

/-- R151: the enable of what a descriptor stands for: a waitpoint has its owner's. -/
def State.descEnabled (s : State) (d : Nat) : Bool :=
  if (s.desc d).kind = 4 then s.taskEnabled (s.desc d).link else s.taskEnabled d

/-- ROLE of a core: 0 ACTIVE, 1 RESERVE, 2 FENCED, 3 TESTING. -/
def State.role (s : State) (k : Nat) : Nat := s.get (R.PLOT_k_CORE_STATUS k) F.PLOT_k_CORE_STATUS.ROLE

/-- The slot a core serves. -/
def State.coreSlot (s : State) (k : Nat) : Nat := s.get (R.PLOT_k_CORE_STATUS k) F.PLOT_k_CORE_STATUS.SLOT

/-- The cores of a plot. -/
def coresOf (p : Nat) : List Nat := (List.range 9).map (p * 9 + ·)

/-- The active core of a plot that serves a slot. -/
def State.slotCore (s : State) (p sl : Nat) : Option Nat :=
  (coresOf p).find? fun k => s.role k = 0 ∧ s.coreSlot k = sl

/-! ### Message pool and posts (R167 to R171) -/

/-- Records taken from the pool. -/
def poolTake (n : Nat) (s : State) : State := { s with collie := { s.collie with poolUsed := s.collie.poolUsed + n } }
/-- Records returned to the pool. -/
def poolGive (n : Nat) (s : State) : State := { s with collie := { s.collie with poolUsed := s.collie.poolUsed - n } }

/-- R168: a post or send is discarded. -/
def postDrop (s : State) : State :=
  (s.incSat R.COLLIE_POST_DROP_CNT).raise R.COLLIE_EVENTS F.COLLIE_EVENTS.POST_DROP

/-- The Collie cycle of a raw grain: 4 grains. -/
def collieCycle (g : Quad) : Nat := g.toNat / 4

/-- R177: the descriptor was cancelled in the Collie cycle of a raw grain. -/
def State.cancelledIn (s : State) (d : Nat) (g : Quad) : Bool :=
  decide (s.collie.cancels.1 = collieCycle g) && s.collie.cancels.2.contains d

/-- R177: a cancel of a descriptor noted in its Collie cycle. -/
def noteCancel (d : Nat) (s : State) : State :=
  let n := collieCycle s.raw
  { s with collie := { s.collie with cancels := (n, if s.collie.cancels.1 = n then s.collie.cancels.2 ++ [d] else [d]) } }

/-- A ready entry placed at the end of its list; Collie fills READY_V and ARG of the descriptor (R157). -/
def pushReady (e : ReadyEntry) (s : State) : State :=
  let d := s.descOf e.old e.desc
  let s0 := s.setReady d.home d.prio (s.readyList d.home d.prio ++ [e])
  let s1 := { s0 with collie := { s0.collie with last := tset (0, 0) s0.collie.last e.desc (e.readyV, e.arg) } }
  s1.setTaskOf e.old e.desc { s1.taskOf e.old e.desc with st := 1 }

/-- R177: a descriptor is made ready with n records of the pool more in use, unless a cancel of it in the same Collie cycle wins. -/
def makeReady (n : Nat) (e : ReadyEntry) (s : State) : State :=
  if s.cancelledIn e.desc e.since then s.incSat R.COLLIE_CANCEL_RACE else poolTake n (pushReady e s)

/-- R168, R177: a post that holds its record makes a descriptor ready; the record returns to the pool when a cancel wins. -/
def queuedReady (e : ReadyEntry) (s : State) : State := makeReady 1 e (poolGive 1 s)

/-- R168, R169: a post's ready entry for a task. -/
def postEntry (s : State) (d : Nat) (arg readyV : Quad) (replyTo : Nat) (resume : Bool) : ReadyEntry :=
  ⟨d, arg, readyV, replyTo, none, none, s.raw, false, resume, false, false, false⟩

/-- R168: a post joins the queue of its descriptor. -/
def postQueue (d : Nat) (arg readyV : Quad) (replyTo : Nat) (s : State) : State :=
  if (s.task d).queue.length < (s.desc d).depth then
    poolTake 1 (s.setTask d { s.task d with queue := (s.task d).queue ++ [⟨arg, readyV, replyTo⟩] })
  else postDrop (s.raise (R.COLLIE_t_STATE d) F.COLLIE_t_STATE.OVERFLOW)

/-- R133: the old form of a task that waits on a waitpoint. -/
def oldWaiter (s : State) (w : Nat) : Option Nat :=
  (s.collie.oldTasks.find? fun x => x.2.st = 3 ∧ (x.2.save.map (·.1)) = some w).map (·.1)

/-- The state of the item of a flow with a sequence number set; an item whose slot is released empty stays so (R175). -/
def flowSetItem (f seq : Nat) (st : ItemState) (s : State) : State :=
  s.setFlow f { s.flow f with items := (s.flow f).items.map fun it =>
    if it.seq = seq ∧ it.st ≠ .empty then { it with st := st } else it }

/-- R133: the old form of a task is still running, ready or waiting. -/
def oldRunning (s : State) (t : Nat) : Bool := (s.oldTask t).st ≠ 0

/-- R169: the oldest item of a flow that waits on a waitpoint. -/
def waitingItem (s : State) (f w : Nat) : Option FlowItem :=
  (s.flow f).items.find? fun it => it.st = .waiting ∧ (it.save.map (·.1)) = some w

/-- R169: a post reaches the task or the flow item that waits on a waitpoint, or the waitpoint's queue. -/
def postWaitpoint (d : Nat) (arg readyV : Quad) (replyTo : Nat) (s : State) : State :=
  let o := (s.desc d).link
  match waitingItem s (s.desc o).link d with
  | some it =>
    if (s.desc o).kind = 3 then
      makeReady 1 { postEntry s o arg readyV replyTo true with seq := some it.seq, old := oldRunning s o }
        (flowSetItem (s.desc o).link it.seq .ready s)
    else postQueue d arg readyV replyTo s
  | none =>
    match (s.task o).save with
    | some (w, _) =>
      if (s.task o).st = 3 ∧ w = d then makeReady 1 (postEntry s o arg readyV replyTo true) s
      else postQueue d arg readyV replyTo s
    | none => postQueue d arg readyV replyTo s

/-- R168, R169: an accepted post takes effect: an idle event task becomes ready, a task or flow item that waits on the waitpoint
becomes ready again, and any other post joins a queue. DEDUCED (assumption 101). -/
def postDeliver (d : Nat) (arg readyV : Quad) (replyTo : Nat) (s : State) : State :=
  match oldWaiter s d with
  | some o => makeReady 1 { postEntry s o arg readyV replyTo true with old := true } s
  | none =>
    if (s.desc d).kind = 2 then
      if (s.task d).st = 0 then makeReady 1 (postEntry s d arg readyV replyTo false) s
      else postQueue d arg readyV replyTo s
    else postWaitpoint d arg readyV replyTo s

/-- R151, R168: the enable that a post to a descriptor depends on. -/
def postEnabled (s : State) (d : Nat) : Bool :=
  match oldWaiter s d with
  | some o => s.taskEnabled o
  | none => s.descEnabled d

/-- R168: a post to a descriptor from any source, with the V of its READY_V. -/
def postAt (d : Nat) (arg readyV : Quad) (replyTo : Nat) (s : State) : State :=
  if ¬ ((s.desc d).kind = 2 ∨ (s.desc d).kind = 4 ∨ (oldWaiter s d).isSome) then postDrop s
  else if s.ctrlStopped then (postDrop s).incSat R.EXEC_STOP_FLUSHED
  else if !postEnabled s d then postDrop s
  else if 8192 ≤ s.collie.poolUsed then postDrop (s.raise R.COLLIE_EVENTS F.COLLIE_EVENTS.POOL_EMPTY)
  else postDeliver d arg readyV replyTo s

/-- R168: a post at the present Collie cycle. -/
def postTo (d : Nat) (arg : Quad) (replyTo : Nat) (s : State) : State := postAt d arg s.vT64 replyTo s

/-- R171: a block outside the cores sends a post on its way to the target's slice. -/
def hwPost (d : Nat) (arg : Quad) (s : State) : State :=
  { s with collie := { s.collie with hwPosts := s.collie.hwPosts ++ [⟨d, arg, none⟩] } }

/-- R171: a hardware post sent when an enable bit (bit 12) stands beside the descriptor in a register. -/
def hwPostCfg (w : Word) (arg : Quad) (s : State) : State :=
  if natBit w.toNat 12 then hwPost (w.toNat % 4096) arg s else s

/-- R168, R170: a released REPLY of a task with a REPLY_WP. -/
def replyTo (w : Nat) (arg : Quad) (replyWp : Nat) (s : State) : State :=
  if w = 0xFFFF then (s.incSat R.COLLIE_REPLY_DROP_CNT).raise R.COLLIE_EVENTS F.COLLIE_EVENTS.REPLY_DROP
  else postTo w arg replyWp s

/-! ### Ordered flows (R173 to R175) -/

/-- R174: items not ready yet become ready while fewer than W are in the window. -/
def flowFillItems (w : Nat) : List FlowItem → Nat → List FlowItem × List FlowItem
  | [], _ => ([], [])
  | it :: t, i =>
    let (rest, made) := flowFillItems w t (i + 1)
    if i < w ∧ it.st = .queued then ({ it with st := .ready } :: rest, it :: made) else (it :: rest, made)

/-- R175: the oldest items that are released empty leave the flow, each counted. -/
def flowDropEmpty (f : Nat) : Nat → State → State
  | 0, s => s
  | n + 1, s =>
    match (s.flow f).items with
    | it :: t =>
      if it.st = .empty then
        let s1 := s.setFlow f ⟨(it.seq + 1) % 2 ^ 32, t⟩
        flowDropEmpty f n ((s1.incSat (R.COLLIE_f_FLOW_EMPTY f)).incSat R.COLLIE_EMPTY_RELEASE_CNT)
      else s
    | [] => s

/-- R174: the items of a flow that enter its window are made ready at the handler's priority; those that a cancel of the handler in the
same Collie cycle meets are released empty (R177). -/
def flowFill (f : Nat) (s : State) : State :=
  let (items, made) := flowFillItems (s.flowCfg f).window (s.flow f).items 0
  let h := (s.flowCfg f).handler
  if s.cancelledIn h s.raw then
    let n := made.length
    let gone := items.map fun it => if it.st = .ready ∧ made.any (fun x => x.seq = it.seq) then { it with st := .empty } else it
    flowDropEmpty f n ((poolGive n (s.setFlow f { s.flow f with items := gone })).addSat R.COLLIE_CANCEL_RACE n)
  else
    (s.setFlow f { s.flow f with items := items }).forAll made fun it t =>
      pushReady ⟨h, it.arg, t.vT64, it.replyTo, some it.seq, none, t.raw, false, false, false, false, false⟩ t

/-- R173: an item is appended to a flow. -/
def flowSend (f : Nat) (arg : Quad) (replyWp : Nat) (s : State) : State :=
  let h := (s.flowCfg f).handler
  if ¬ (s.flowCfg f).valid ∨ ¬ s.taskEnabled h ∨ s.ctrlStopped then postDrop s
  else if 8192 ≤ s.collie.poolUsed then postDrop (s.raise R.COLLIE_EVENTS F.COLLIE_EVENTS.POOL_EMPTY)
  else
    let fl := s.flow f
    let seq := (fl.head + fl.items.length) % 2 ^ 32
    flowFill f (poolTake 1 (s.setFlow f { fl with items := fl.items ++ [⟨seq, arg, s.vT64, replyWp, .queued, none⟩] }))

/-- The flow after a change of its items: empty ones at its head leave, and others enter the window. -/
def flowAdvance (f : Nat) (s : State) : State := flowFill f (flowDropEmpty f (s.flow f).items.length s)

/-- R159: the keys of the ready lists: four slices of nine levels. -/
def readyKeys : List Nat := (List.range 64).filter fun i => i % 16 < 9

/-- The ready entries of every list that hold a predicate. -/
def State.readyOf (s : State) (p : ReadyEntry → Bool) : List ReadyEntry := readyKeys.flatMap fun i => (tget [] s.collie.ready i).filter p

/-- The entry's Collie cycle has come (R160). -/
def ReadyEntry.here (e : ReadyEntry) (s : State) : Bool := decide (collieCycle e.since ≤ collieCycle s.raw)

/-- Ready entries are removed, and the records of posts that have not run return to the pool. -/
def discardReady (p : ReadyEntry → Bool) (s : State) : State :=
  let gone := s.readyOf p
  let kept := readyKeys.foldl (fun t i => tset [] t i ((tget [] t i).filter fun e => !p e)) s.collie.ready
  poolGive (gone.filter fun e => (s.descOf e.old e.desc).kind ≠ 1 ∧ ¬ e.again).length { s with collie := { s.collie with ready := kept } }

/-- R176, R177: a cancel removes ready entries; one that became ready in the same Collie cycle is a race that the cancel wins. -/
def takeReady (p : ReadyEntry → Bool) (s : State) : State :=
  (discardReady p s).when ((s.readyOf p).any fun e => collieCycle e.since = collieCycle s.raw) fun t => t.incSat R.COLLIE_CANCEL_RACE

/-- R92, R180: the handles that a run reserved and has not released are freed unused. -/
def freeReserved (l : List Action) (s : State) : State :=
  let mine (i : Nat) (x : Txn) : Bool := x.reserved && l.any fun a => decide (a.code = 7 ∧ a.handle = i + 64 * x.gen)
  { s with txn := { s.txn with slots := s.txn.slots.filter fun (i, x) => !mine i x } }

/-- R175: the releases of an item whose slot is released empty are dropped, with the handles that they would have opened. -/
def dropReleases (f seq : Nat) (s : State) : State :=
  s.forAll (List.range 4) fun p t =>
    let gone := (t.releases p).filter fun r => r.flow = some (f, seq)
    freeReserved ((gone.filter fun r => !r.released).flatMap (·.actions))
      (t.setReleases p ((t.releases p).filter fun r => r.flow ≠ some (f, seq)))

/-- R175, R176: an item is cancelled: its slot is released empty when its turn comes; a queued or ready item returns its
record, and a running one is marked so that its effects are discarded. -/
def itemCancel (f seq : Nat) (s : State) : State :=
  match (s.flow f).items.find? fun it => it.seq = seq with
  | none => s
  | some it =>
    if it.st = .empty then s
    else
      let h := (s.flowCfg f).handler
      let s1 := flowSetItem f seq .empty (takeReady (fun e => decide (e.desc = h ∧ e.seq = some seq)) s)
      let s2 := dropReleases f seq (if it.st = .queued then poolGive 1 s1 else s1)
      (List.range 36).foldl (fun t k =>
        match t.run k with
        | some r => if r.entry.desc = h ∧ r.entry.seq = some seq then t.setRun k (some { r with cancelled := true }) else t
        | none => t) s2

/-- R176: every item of a flow is cancelled. -/
def flowCancelAll (f : Nat) (s : State) : State :=
  flowAdvance f (s.forAll ((s.flow f).items.map (·.seq)) fun q t => itemCancel f q t)

/-- R175: the items of a flow after one are cancelled. -/
def flowCancelAfter (f seq : Nat) (s : State) : State :=
  let later := ((s.flow f).items.dropWhile fun it => it.seq ≠ seq).drop 1
  s.forAll (later.map (·.seq)) fun q t => itemCancel f q t

/-! ### Cancellation (R176 to R178) -/

/-- R176: the delay entries of a descriptor are discarded. -/
def dropDelays (d : Nat) (s : State) : State :=
  { s with collie := { s.collie with delays := (List.range 16).foldl (fun t n =>
      tset [] t n ((tget [] t n).filter fun e => e.desc ≠ d)) s.collie.delays } }

/-- The runs of a descriptor marked as cancelled. -/
def markRuns (d : Nat) (s : State) : State :=
  (List.range 36).foldl (fun t k =>
    match t.run k with
    | some r => if r.entry.desc = d then t.setRun k (some { r with cancelled := true }) else t
    | none => t) s

/-- R176, R177: the ready entries of a descriptor are removed, except one whose Collie cycle is still to come. -/
def dropReady (d : Nat) (s : State) : State := takeReady (fun e => decide (e.desc = d) && e.here s) s

/-- R125, R176: a descriptor that was ready or waiting is idle, and its cycle counts as completed. -/
def TaskState.cancel (x : TaskState) : TaskState :=
  if x.st = 1 ∨ x.st = 3 then { x with st := 0, save := none, due := none } else { x with due := none }

/-- R176: pending posts of a descriptor are discarded. -/
def dropQueue (d : Nat) (s : State) : State :=
  poolGive (s.task d).queue.length (s.setTask d { s.task d with queue := [] })

/-- R176, R177: a cancel of a descriptor. A cyclic task whose Collie cycle is still to come is not ready yet. -/
def cancelDesc (d : Nat) (s : State) : State :=
  let k := (s.desc d).kind
  if k = 3 then flowCancelAll (s.desc d).link (noteCancel d (dropDelays d s))
  else if k = 4 then dropQueue d (dropDelays d s)
  else if k = 1 ∨ k = 2 then
    let s0 := noteCancel d (markRuns d (dropReady d (dropQueue d (dropDelays d s))))
    let s1 := s0.setOldTask d (s0.oldTask d).cancel
    if (s1.readyOf fun e => decide (e.desc = d)) = [] then s1.setTask d (s1.task d).cancel else s1
  else s

/-- R178: a cancel of one flow item by its sequence number. -/
def cancelItem (f seq : Nat) (s : State) : State :=
  if (s.flow f).items.any fun it => it.seq = seq then flowAdvance f (itemCancel f seq s)
  else s.raise R.COLLIE_EVENTS F.COLLIE_EVENTS.CMD_NO_EFFECT

/-! ### Delay lists (R172) -/

/-- The list of a plot with the fewest entries, the lowest-numbered on a tie. -/
def shortestList (s : State) (p : Nat) : Nat :=
  (List.range 4).foldl (fun best i =>
    if (tget [] s.collie.delays (4 * p + i)).length < (tget [] s.collie.delays best).length then 4 * p + i else best) (4 * p)

/-- An entry inserted in order of its due time, after equal ones. -/
def insertDelay (e : DelayEntry) : List DelayEntry → List DelayEntry
  | [] => [e]
  | x :: t => if e.due.toInt < x.due.toInt then e :: x :: t else x :: insertDelay e t

/-- R172: the first tick boundary at or after the due time and strictly later than the present virtual time. -/
def delayExpiry (due now : Quad) : Quad :=
  let d := (due.toNat + 1023) / 1024
  let n := now.toNat / 1024 + 1
  BitVec.ofNat 64 (1024 * if now.toInt < due.toInt then max d n else n)

/-- R172: a released DELAY is placed in a delay list, or discarded when all four of the plot are full. -/
def delayTo (d : Nat) (arg due : Quad) (replyWp : Nat) (s : State) : State :=
  let n := shortestList s (s.desc d).home
  let l := tget [] s.collie.delays n
  if l.length < 256 then
    let l' := insertDelay ⟨due, delayExpiry due s.vT64, d, arg, replyWp⟩ l
    let s1 := { s with collie := { s.collie with delays := tset [] s.collie.delays n l' } }
    s1.maxFld (R.COLLIE_n_DELAY_STAT n) ⟨16, 9⟩ l'.length
  else (s.incSat R.COLLIE_DELAY_FULL_CNT).raise R.COLLIE_EVENTS F.COLLIE_EVENTS.DELAY_FULL

/-- Every delay entry of the device. -/
def allDelays (s : State) : List DelayEntry := (List.range 16).flatMap fun n => tget [] s.collie.delays n

/-- R172: the earliest expiry of any entry. -/
def nextExpiry (s : State) : Option Quad :=
  (allDelays s).foldl (fun m e => match m with
    | none => some e.expiry
    | some x => if e.expiry.toNat < x.toNat then some e.expiry else some x) none

/-- R172: the entries due at the next tick boundary are posted in due-time order, with that tick as READY_V. -/
def delayExpiryStep (s : State) : State :=
  match nextExpiry s with
  | none => s
  | some t =>
    let s1 := s.advanceToV t.toNat
    let due := ((allDelays s1).filter fun e => e.expiry = t).foldl (fun l e => insertDelay e l) []
    let s2 := { s1 with collie := { s1.collie with delays := (List.range 16).foldl (fun d n =>
      tset [] d n ((tget [] d n).filter fun e => e.expiry ≠ t)) s1.collie.delays } }
    s2.forAll due fun e u => postAt e.desc e.arg t e.replyTo u

/-! ### Readiness and dispatch (R159 to R163) -/

/-- R160: the enabled cyclic tasks of a class and plot, in ascending descriptor number. -/
def cyclicTasks (s : State) (c p : Nat) : List Nat :=
  s.image.tasks.filterMap fun (t, d) =>
    if d.kind = 1 ∧ d.cls = c ∧ d.home = p ∧ s.taskEnabled t then some t else none

/-- R160: a cyclic task made ready for the headland just past, in the i-th Collie cycle of its slice. -/
def makeCyclicReady (i t : Nat) (s : State) : State :=
  let since := s.headRaw + BitVec.ofNat 64 (96 + 4 * i)
  if (s.task t).st ≠ 0 then s
  else if s.cancelledIn t since then s.incSat R.COLLIE_CANCEL_RACE
  else
    let s1 := pushReady ⟨t, 0, s.headV, 0xFFFF, none, some s.headIndex, since, false, false, false, false, false⟩ s
    s1.setTask t { s1.task t with due := some (s.headIndex, s.headRaw) }

/-- R160: a slice makes the tasks of the classes due ready, in the order C0 to C3. -/
def sliceReady (p : Nat) (s : State) : State :=
  let ts := ((List.range 4).filter fun c => natBit s.head.classDue c).flatMap fun c => cyclicTasks s c p
  s.forAll ts.zipIdx fun (t, i) u => makeCyclicReady i t u

/-- R602: the device is a standby twin: its tasks wait for the mirror, and its outputs are suppressed. -/
def State.standby (s : State) : Bool :=
  decide (s.get R.DRUS_TWIN_STATUS F.DRUS_TWIN_STATUS.TWIN_STATE = 2) ||
    decide (s.get R.DRUS_TWIN_STATUS F.DRUS_TWIN_STATUS.TWIN_STATE = 3)

/-- R32, R160: from H + 96 the cyclic tasks of the classes due become ready; only in RUNNING (R122), and not on a standby
(R602). -/
def tasksReady (s : State) : State :=
  if ¬ s.head.tasksDue ∨ s.head.sealDue then s
  else
    let s1 := s.advanceTo (s.headRaw + 96)
    let s2 := { s1 with head := { s1.head with tasksDue := false } }
    if s2.ctrlRunning && !s2.standby then s2.forAll (List.range 4) sliceReady else s2

/-- R161: a core with no task executes TAKE and waits at heel. -/
def takeOp (k : Nat) (s : State) : State :=
  if (s.run k).isNone ∧ (s.role k = 0 ∨ s.role k = 1) then
    (s.setCore k { s.core k with heel := true }).put (R.PLOT_k_CORE_STATUS k) F.PLOT_k_CORE_STATUS.AT_HEEL 1
  else s

/-- R162: an active core at heel may run an entry: it serves the task's slot, or any core of the home plot may. -/
def mayRun (s : State) (e : ReadyEntry) (k : Nat) : Bool :=
  let d := s.descOf e.old e.desc
  plotOf k = d.home ∧ s.role k = 0 ∧ (s.core k).heel ∧ (s.run k).isNone ∧
    (d.slot = 15 ∨ s.coreSlot k = d.slot ∨ (s.slotCore d.home d.slot).isNone)

/-- R139: the task's next completion would overwrite a copy that a cut in capture still names. -/
def captureBlocks (s : State) (old : Bool) (t : Nat) : Bool :=
  s.exec.capture.any fun c =>
    let named := tget 0 c.sels (t + if old then 4096 else 0)
    named ≠ 0 ∧ (named = 2) != (if old then s.oldRetained t else s.retained t).selB

/-- An entry whose Collie cycle has come and that may be dispatched as far as captures and online changes go. -/
def dispatchable (s : State) (e : ReadyEntry) : Bool :=
  e.here s && !captureBlocks s e.old e.desc && (e.old || !oldRunning s e.desc)

/-- The module of a descriptor. -/
def moduleOf (im : Image) (d : TaskDesc) : Option Module := im.modules.find? fun m => m.slot = d.modSlot

/-- The C0 snapshots of a list. -/
def c0Snaps (l : List Snapshot) : List Snapshot := l.filter fun x => natBit x.classes 0

/-- R32: the current C0 snapshot: that of a headland is readable from H + 96. -/
def State.newestSnap (s : State) : Snapshot :=
  ((c0Snaps s.collie.snaps).filter fun x => ¬ (x.index = s.headIndex ∧ s.raw.toNat < s.headRaw.toNat + 96)).getLastD Snapshot.empty

/-- R181: the snapshot of a headland that a repeat still finds: a cyclic task's, kept until the class's next headland; a C0 snapshot,
kept until the second C0 headland after it. -/
def State.heldSnap (s : State) (cyc : Bool) (b : Nat) : Option Snapshot :=
  let c := c0Snaps s.collie.snaps
  (if cyc then s.collie.snaps else c.drop (c.length - 2)).find? fun x => x.index = b

/-- R181: the snapshot a run reads: the one of its headland, or the current C0 snapshot when none is kept. -/
def snapshotFor (s : State) (cyc : Bool) (i : Option Nat) : Snapshot := (i.bind (s.heldSnap cyc)).getD s.newestSnap

/-- R134: the valid copy of a task of the old image, as it was at H_c. -/
def oldCopy (s : State) (t : Nat) : Tbl Quad :=
  if s.collie.oldRetained.any fun x => x.1 = t then (s.oldRetained t).valid
  else (tget none s.collie.mapFrom t).getD (s.retained t).valid

/-- R134, R135: the cells of an old image copied for one mapping entry into a new task's first image. -/
def mapCells (s : State) (m : Module) (f : Nat) (e : MapEntry) (img : Tbl Quad) : Tbl Quad :=
  match s.oldImage with
  | none => img
  | some oi =>
    match oi.modules.find? fun x => x.id = e.oldModule, m.vars[e.newVar]? with
    | some om, some nv =>
      match om.vars[e.oldVar]? with
      | some ov =>
        let nOwner := if nv.kind = 6 then nv.aux / 256 else nv.aux
        let oOwner := if ov.kind = 6 then ov.aux / 256 else ov.aux
        if m.id = e.newModule ∧ nOwner = f then
          let ot := (oi.tasks.find? fun (_, d) => d.modSlot = om.slot ∧ d.func = oOwner ∧ d.kind ≠ 0 ∧ d.kind ≠ 4)
          match ot with
          | none => img
          | some (t, _) =>
            let src := oldCopy s t
            (List.range (min ov.elems nv.elems)).foldl (fun w i =>
              let c := tget 0 src (ov.loc / 8 + i)
              let c' := if e.conv = 0x80 then c else
                match etypeOf (e.conv / 8 % 8), etypeOf (e.conv % 8) with
                | some st, some dt => (cellConv st dt (natBit e.conv 6) c).1
                | _, _ => c
              tset 0 w (nv.loc / 8 + i) c') img
        else img
      | none => img
    | _, _ => img

/-- R81, R134: the working copy a task starts from: its valid copy, or the image built from the mapping. -/
def workFor (s : State) (t : Nat) (m : Module) (f : Nat) : Tbl Quad :=
  if (s.retained t).built then (s.retained t).valid
  else s.image.maps.foldl (fun w e => mapCells s m f e w) []

/-- R169: the save area that an entry resumes from: its flow item's or its task's. -/
def saveOf (s : State) (e : ReadyEntry) : Option (Nat × List Frame) :=
  match e.seq with
  | some q => ((s.flow (s.descOf e.old e.desc).link).items.find? fun it => it.seq = q).bind (·.save)
  | none => (s.taskOf e.old e.desc).save

/-- R80, R169: the frames a run starts with: the entry's, or the saved ones with ARG pushed. -/
def framesFor (s : State) (e : ReadyEntry) (m : Module) (f : Nat) : List Frame :=
  match saveOf s e with
  | some (_, fr :: rest) =>
    if e.resume then { fr with stack := e.arg :: fr.stack } :: rest
    else [⟨f, ((m.funcs[f]?).map (·.offset)).getD 0, [], []⟩]
  | _ => [⟨f, ((m.funcs[f]?).map (·.offset)).getD 0, [], []⟩]

/-- R89, R160 to R162: the run of an entry. -/
def runOf (s : State) (e : ReadyEntry) (m : Module) : Run :=
  let d := s.descOf e.old e.desc
  let sn := snapshotFor s (decide (d.kind = 1)) e.snapIndex
  { entry := { e with snapIndex := some sn.index }
    mod := m, func := d.func, old := e.old
    frames := framesFor s e m d.func
    work := if e.old then (s.oldRetained e.desc).valid else workFor s e.desc m d.func
    journal := [], actions := [], snap := sn
    cls := if d.kind = 1 then d.cls else 0
    now := e.readyV
    interval := if d.kind = 1 then tget 0 sn.intervals d.cls else 0
    sys := (s.taskOf e.old e.desc).sysNext
    phase := .executing, faulted := false, cancelled := e.cancelled, stallWait := none, since := s.raw }

/-- R174, R180, R181: what a dispatch marks beyond the run: the item runs, a post's record returns to the pool, and a
repeat that reads a newer snapshot is reported. -/
def dispatchMarks (e : ReadyEntry) (s : State) : State :=
  let d := s.descOf e.old e.desc
  let s1 := match e.seq with
    | some q => flowSetItem d.link q .running s
    | none => s
  let s2 := if d.kind ≠ 1 ∧ ¬ e.again then poolGive 1 s1 else s1
  let newer : Bool := e.again && (match e.snapIndex with
    | some b => (s.heldSnap (decide (d.kind = 1)) b).isNone
    | none => false)
  if newer then
    (s2.put R.COLLIE_FENCE_LOG F.COLLIE_FENCE_LOG.NEW_SNAPSHOT 1).raise R.COLLIE_EVENTS F.COLLIE_EVENTS.NEW_SNAPSHOT
  else s2

/-- R217: the writes that wait for a task's run to end are put into its valid copy. -/
def applyDeferred (d : Nat) (old : Bool) (s : State) : State :=
  let mine := s.txn.deferred.filter fun w => w.desc = d ∧ w.old = old
  let s1 := { s with txn := { s.txn with deferred := s.txn.deferred.filter fun w => ¬ (w.desc = d ∧ w.old = old) } }
  s1.forAll mine fun w t =>
    if old then t.setOldRetained d ((t.oldRetained d).poke w.cell w.value)
    else t.setRetained d ((t.retained d).poke w.cell w.value)

/-- R161: an entry is handed to a core at heel; the latency counts in core cycles. -/
def dispatchOn (e : ReadyEntry) (k : Nat) (s0 : State) : State :=
  let s := applyDeferred e.desc e.old s0
  match moduleOf (if e.old then s.oldImage.getD s.image else s.image) (s.descOf e.old e.desc) with
  | none => s
  | some m =>
    let r := runOf s e m
    let s1 := dispatchMarks e s
    let s2 := s1.setCore k { s1.core k with run := some r, heel := false }
    let s3 := (s2.put (R.PLOT_k_CORE_STATUS k) F.PLOT_k_CORE_STATUS.AT_HEEL 0)
    let s4 := s3.setTaskOf e.old e.desc { s3.taskOf e.old e.desc with st := 2, core := some k, again := e.again }
    s4.maxFld (R.PLOT_p_DISPATCH_MAX (plotOf k)) ⟨0, 8⟩ (min 255 ((s.raw.toNat - e.since.toNat) / 2))

/-- An entry removed from a ready list by its position. -/
def removeReady (p l i : Nat) (s : State) : State := s.setReady p l ((s.readyList p l).eraseIdx i)

/-- The levels in the order a slice serves them: repeats, then 0 to 7. -/
def levels : List Nat := [8, 0, 1, 2, 3, 4, 5, 6, 7]

/-- Every ready entry of a slice in the order of service, with its level and place. -/
def readyInOrder (s : State) (p : Nat) : List (Nat × Nat × ReadyEntry) :=
  levels.flatMap fun l => (s.readyList p l).zipIdx.map fun (e, i) => (l, i, e)

/-- R139: the entries of a slice that a capture blocks for the first time are counted. -/
def countStalls (p : Nat) (s : State) : State :=
  s.forAll levels fun l t =>
    let n := ((t.readyList p l).filter fun e => e.here t ∧ captureBlocks t e.old e.desc ∧ ¬ e.delayed).length
    let t1 := t.setReady p l ((t.readyList p l).map fun e =>
      if e.here t ∧ captureBlocks t e.old e.desc then { e with delayed := true } else e)
    if n = 0 then t1 else t1.addSat R.EXEC_CKPT_STALL n

/-- R159, R161, R162: a slice hands the first entry for which a core waits at heel to the lowest-numbered such core. -/
def dispatchSlice (p : Nat) (s : State) : State :=
  if ¬ s.ctrlRunning ∨ s.exec.pfail.isSome then s
  else
    let s := countStalls p s
    match (readyInOrder s p).findSome? fun (l, i, e) =>
        if dispatchable s e then ((coresOf p).find? (mayRun s e)).map fun k => (l, i, e, k) else none with
    | none => s
    | some (l, i, e, k) => dispatchOn e k (removeReady p l i s)

/-- R163: an entry may spill: it is marked, has waited 64 core cycles, and no core at heel may run it at home. -/
def maySpill (s : State) (p : Nat) (e : ReadyEntry) : Bool :=
  (s.descOf e.old e.desc).spill ∧ e.since.toNat + 128 ≤ s.raw.toNat ∧ dispatchable s e ∧ ¬ (coresOf p).any (mayRun s e)

/-- R163: an active core at heel in another plot, in the plot with the lowest number. -/
def spillCore (s : State) (p : Nat) : Option Nat :=
  (List.range 36).find? fun k => plotOf k ≠ p ∧ s.role k = 0 ∧ (s.core k).heel ∧ (s.run k).isNone

/-- R163: the arbiter sends a waiting SPILL task of a plot to a core at heel in another plot. -/
def spillFrom (p : Nat) (s : State) : State :=
  if ¬ s.ctrlRunning ∨ s.exec.pfail.isSome ∨ ¬ s.flag R.COLLIE_CTRL F.COLLIE_CTRL.SPILL_EN then s
  else
    match (readyInOrder s p).find? fun (_, _, e) => maySpill s p e, spillCore s p with
    | some (l, i, e), some k =>
      ((dispatchOn e k (removeReady p l i s)).incSat (R.PLOT_p_SPILL_OUT p)).incSat (R.PLOT_p_SPILL_IN (plotOf k))
    | _, _ => s

/-! ### Completion (R164, R165, R169) -/

/-- The busy time of a core counted, in units of 1,024 core cycles (R195). -/
def coreBusy (k : Nat) (r : Run) (s : State) : State :=
  let c := (s.core k).rem + (s.raw - r.since).toNat / 2
  (s.setCore k { s.core k with rem := c % 1024 }).addSat (R.PLOT_k_CORE_BUSY k) (c / 1024)

/-- A core gives up its run and waits at heel (R164, step 6). -/
def coreFree (k : Nat) (s : State) : State := takeOp k (s.setRun k none)

/-- R166: the entries that staged actions take; a DELAY takes two. -/
def actionSize (l : List Action) : Nat := (l.map fun a => if a.code = 5 then 2 else 1).sum

/-- R165: the bytes a release takes. -/
def Release.bytes (r : Release) : Nat := 16 * (r.journal.length + actionSize r.actions)

/-- R165: the release area of a slice can hold more bytes. -/
def releaseFits (s : State) (p n : Nat) : Bool :=
  ((s.releases p).map Release.bytes).sum + n ≤ tget 262144 s.image.releaseBytes p

/-- The release of a run; w is the waitpoint that its segment ended on. -/
def releaseOf (s : State) (k : Nat) (r : Run) (w : Option Nat) : Release :=
  let d := s.descOf r.old r.entry.desc
  let cyc := d.kind = 1
  { desc := r.entry.desc, core := k, cls := r.cls, cyclic := cyc
    flow := r.entry.seq.map fun q => (d.link, q), segment := w.isSome && !r.cancelled
    replyTo := r.entry.replyTo, replyWp := d.replyWp, now := r.now
    journal := if r.cancelled ∧ ¬ cyc then [] else r.journal
    actions := if r.cancelled then [] else r.actions
    folded := false, released := false }

/-- R527, R529 to R531, R535: a violation with its reason at an address. DEDUCED (assumptions 166, 170). -/
def violation (reason a : Nat) (s : State) : State :=
  (((s.incSat R.MEM_VIOL_CNT).setReg R.MEM_VIOL_ADDR_LO (BitVec.ofNat 32 a)).setReg R.MEM_VIOL_ADDR_HI
    (BitVec.ofNat 32 (a / 2 ^ 32 % 256 + 256 * reason))).raise R.MEM_EVENTS F.MEM_EVENTS.VIOLATION

/-- R529: the master of a plot's tasks owns the plot's bank. -/
def plotOwned (s : State) (p : Nat) : Bool := decide (s.get (R.MEM_k_OWNER p) F.MEM_k_OWNER.OWNER = p + 1)

/-- R81, R174, R529: the working copy becomes the valid copy; a handler item's is discarded, and one that the plot's bank turns away is not
written. -/
def flipRetained (r : Run) (s : State) : State :=
  let d := s.descOf r.old r.entry.desc
  if r.entry.seq.isSome then s
  else if ((r.mod.funcs[d.func]?).map (·.retain)).getD 0 ≠ 0 ∧ !plotOwned s d.home then
    violation 1 (0x10000000 + 0x400000 * d.home + d.retainOff) s
  else if r.old then s.setOldRetained r.entry.desc ((s.oldRetained r.entry.desc).flip r.work)
  else s.setRetained r.entry.desc ((s.retained r.entry.desc).flip r.work)

/-- R168, R169: what follows a run of an event task: its next pending post makes it ready. -/
def nextPost (t : Nat) (s : State) : State :=
  match (s.task t).queue with
  | [] => s
  | q :: rest => queuedReady (postEntry s t q.arg s.vT64 q.replyTo false) (s.setTask t { s.task t with queue := rest })

/-- R169: a segment ended by WAIT saves its frames; a post already queued at the waitpoint makes the task ready at
once, with the READY_V of the post. DESIGN CHOICE (assumption 227). -/
def beginWait (old : Bool) (t w : Nat) (frames : List Frame) (s : State) : State :=
  let s1 := s.setTaskOf old t { s.taskOf old t with st := 3, save := some (w, frames), core := none }
  match (s1.task w).queue with
  | [] => s1
  | q :: rest =>
    queuedReady { postEntry s1 t q.arg q.readyV q.replyTo true with old := old } (s1.setTask w { s1.task w with queue := rest })

/-- R169: a segment of a flow item ended by WAIT: the item keeps its frames and its place in the flow. DESIGN CHOICE (assumption 228). -/
def beginWaitItem (old : Bool) (t f q w : Nat) (frames : List Frame) (s : State) : State :=
  let s1 := s.setFlow f { s.flow f with items := (s.flow f).items.map fun it =>
    if it.seq = q ∧ it.st ≠ .empty then { it with st := .waiting, save := some (w, frames) } else it }
  match (s1.task w).queue with
  | [] => s1
  | p :: rest =>
    queuedReady { postEntry s1 t p.arg p.readyV p.replyTo true with seq := some q, old := old }
      (flowSetItem f q .ready (s1.setTask w { s1.task w with queue := rest }))

/-- R164, step 4 and after: the task is no longer running; its next work follows. The system points hold in a task's first segment only.
DESIGN CHOICE (assumption 229). -/
def endRun (r : Run) (w : Option Nat) (s : State) : State :=
  let t := r.entry.desc
  let s1 := s.setTaskOf r.old t { s.taskOf r.old t with st := 0, core := none, sysNext := 0, due := none, save := none }
  let after := if r.old then s1.setOldTask t TaskState.idle else nextPost t s1
  match w with
  | some wp => if r.cancelled ∨ r.entry.seq.isSome then after else beginWait r.old t wp r.frames s1
  | none => after

/-- R174, R175: an item of a flow that has completed is held until its turn, unless its slot is already empty; one whose segment ended in a
WAIT waits. -/
def holdItem (r : Run) (w : Option Nat) (s : State) : State :=
  match r.entry.seq with
  | none => s
  | some q =>
    let f := (s.descOf r.old r.entry.desc).link
    if r.cancelled then flowAdvance f (flowSetItem f q .empty s)
    else match w with
      | some wp => beginWaitItem r.old r.entry.desc f q wp r.frames s
      | none => flowSetItem f q .held s

/-- R192: what a handler does, seen over its items: 2 some run, 1 some are ready, 3 some wait, 4 some are complete and held.
DESIGN CHOICE (assumption 230). -/
def handlerSt (s : State) (old : Bool) (t : Nat) : Nat :=
  let items := (s.flow (s.descOf old t).link).items
  if (List.range 36).any fun k => (s.run k).any fun r => decide (r.entry.desc = t) && r.old == old then 2
  else if (s.readyOf fun e => decide (e.desc = t) && e.old == old) ≠ [] then 1
  else if (old == oldRunning s t) && items.any fun it => it.st = .waiting then 3
  else if items.any fun it => it.st = .held then 4
  else 0

/-- R192: the lowest-numbered core that runs an item of a handler. -/
def handlerCore (s : State) (old : Bool) (t : Nat) : Option Nat :=
  (List.range 36).find? fun k => (s.run k).any fun r => decide (r.entry.desc = t) && r.old == old

/-- R192: the state of a handler after the run of an item has ended. -/
def settleHandler (r : Run) (s : State) : State :=
  if r.entry.seq.isNone then s
  else
    let t := r.entry.desc
    if r.old ∧ (handlerSt s true t = 0 ∨ handlerSt s true t = 4) then s.setOldTask t TaskState.idle
    else s.setTaskOf r.old t { s.taskOf r.old t with st := handlerSt s r.old t, core := handlerCore s r.old t }

/-- R164: steps 2 to 6 of a completion. -/
def completeRun (k : Nat) (r : Run) (w : Option Nat) (s : State) : State :=
  let rel := releaseOf s k r w
  let p := plotOf k
  let s1 := if r.cancelled then freeReserved r.actions (flipRetained r s) else flipRetained r s
  let keep := ¬ (r.entry.seq.isSome ∧ r.cancelled) ∧ ¬ (rel.journal = [] ∧ rel.actions = [] ∧ (r.entry.seq.isNone ∨ rel.segment))
  let s2 := if keep then s1.setReleases p (s1.releases p ++ [rel]) else s1
  settleHandler r (coreFree k (coreBusy k r (holdItem r w (endRun r w s2))))

/-- The waitpoint a run's segment ended on, when it ended on one. -/
def Phase.wait : Phase → Option Nat
  | .waiting w => some w
  | _ => none

/-- R164, R165: a task whose code has ended completes, or waits at step 3 for release-area space. DESIGN CHOICE (assumption 5). -/
def taskComplete (k : Nat) (s : State) : State :=
  match s.run k with
  | none => s
  | some r =>
    if r.phase = .executing ∨ r.phase = .stalled then s
    else if releaseFits s (plotOf k) (releaseOf s k r r.phase.wait).bytes then completeRun k r r.phase.wait s
    else
      ((s.setRun k (some { r with phase := .stalled, stallWait := r.phase.wait })).incSat R.COLLIE_RELEASE_STALL).raise
        R.COLLIE_EVENTS F.COLLIE_EVENTS.RELEASE_STALL

/-- R165: a core that waits at step 3 goes on when the area can hold its entries. -/
def releaseStallEnd (k : Nat) (s : State) : State :=
  match s.run k with
  | none => s
  | some r =>
    if r.phase = .stalled ∧ releaseFits s (plotOf k) (releaseOf s k r r.stallWait).bytes then completeRun k r r.stallWait s else s

/-- R120, R169, R175: a release whose turn has come: no flow, or the flow's oldest unreleased item, its segments first. -/
def releaseDue (s : State) (r : Release) : Bool :=
  match r.flow with
  | none => true
  | some (f, q) => decide ((s.flow f).head = q) &&
      (r.segment || !((List.range 4).any fun p => (s.releases p).any fun x => x.segment && decide (x.flow = some (f, q))))

/-- The first release of a slice that holds a predicate and whose turn has come, with its place. -/
def firstRelease (s : State) (p : Nat) (sel : Release → Bool) : Option (Nat × Release) :=
  ((s.releases p).zipIdx.find? fun (r, _) => sel r && releaseDue s r).map fun (r, i) => (i, r)

/-- A release updated; one that is folded and released leaves the area, and its flow goes on. -/
def updateRelease (p i : Nat) (r : Release) (s : State) : State :=
  if r.folded ∧ r.released then
    let s1 := s.setReleases p ((s.releases p).eraseIdx i)
    match r.flow with
    | none => s1
    | some (f, q) =>
      if r.segment then s1
      else flowAdvance f (s1.setFlow f ⟨(q + 1) % 2 ^ 32, (s1.flow f).items.filter fun it => it.seq ≠ q⟩)
  else s.setReleases p ((s.releases p).set i r)

/-- R120: a journal folded into a class's shadow image, in entry order. -/
def foldJournal (c : Nat) (j : List JEntry) (s : State) : State :=
  let sh := j.foldl (fun m e => imgWrite m e.point e.ty e.value) (tget [] s.img.shadow c)
  let fr := j.foldl (fun m e => imgTouch m e.point e.ty) (tget [] s.img.fresh c)
  { s with img := { s.img with shadow := tset [] s.img.shadow c sh, fresh := tset [] s.img.fresh c fr } }

/-- R120: the next journal of a slice whose turn has come is folded into the shadow image of its class; an event task
folds into C0's. -/
def journalFold (p : Nat) (s : State) : State :=
  match firstRelease s p (fun r => !r.folded) with
  | none => s
  | some (i, r) =>
    updateRelease p i { r with folded := true } (foldJournal (if r.cyclic then r.cls else 0) r.journal s)

/-! ### Stops of a task, fencing, errors (R104, R175, R179 to R184) -/

/-- R104: the run on a core ends at once without completing, under the stop task policy: the task is disabled, and its
end counts as completion. -/
def stopTask (k : Nat) (s : State) : State :=
  match s.run k with
  | none => s
  | some r =>
    let t := r.entry.desc
    let s1 := (s.put (R.EXEC_t_TASK_CTRL t) F.EXEC_t_TASK_CTRL.ENABLE 0).put (R.EXEC_t_TASK_CTRL t)
      F.EXEC_t_TASK_CTRL.DISABLED_BY_FAULT 1
    let s2 := freeReserved r.actions s1
    let s3 := if r.old then s2.setOldTask t TaskState.idle
      else s2.setTask t { s2.task t with st := 0, core := none, sysNext := 0, due := none, save := none }
    let s4 := match r.entry.seq with
      | none => s3
      | some q =>
        let f := (s3.descOf r.old t).link
        flowAdvance f (flowCancelAfter f q (flowSetItem f q .empty s3))
    settleHandler r (coreFree k (coreBusy k r (dropQueue t s4)))

/-- R162, R182, R196: the number of active cores of a plot, and whether it has a reserve and an unserved slot. -/
def plotStatus (p : Nat) (s : State) : State :=
  let act := (coresOf p).filter fun k => s.role k = 0
  let s1 := s.put (R.PLOT_p_STATUS p) F.PLOT_p_STATUS.ACTIVE act.length
  let s2 := s1.putFlag (R.PLOT_p_STATUS p) F.PLOT_p_STATUS.RESERVE ((coresOf p).any fun k => s.role k = 1)
  let s3 := s2.putFlag (R.PLOT_p_STATUS p) F.PLOT_p_STATUS.REDUCED
    ((List.range 8).any fun sl => (s.slotCore p sl).isNone)
  s3.setReg (R.PLOT_p_SLOT_MAP p) (BitVec.ofNat 32
    (((List.range 8).map fun sl => (match s.slotCore p sl with | some k => k % 9 | none => 15) * 16 ^ sl).sum))

/-- R182: the reserve of a plot takes a slot, when it is at heel; otherwise no core serves the slot. A reserve that is not at heel counts as
none. DESIGN CHOICE (assumption 231). -/
def replaceCore (p sl : Nat) (s : State) : State :=
  match (coresOf p).find? fun k => s.role k = 1 ∧ (s.core k).heel with
  | some k =>
    plotStatus p ((s.put (R.PLOT_k_CORE_STATUS k) F.PLOT_k_CORE_STATUS.ROLE 0).put (R.PLOT_k_CORE_STATUS k)
      F.PLOT_k_CORE_STATUS.SLOT sl)
  | none => (plotStatus p s).raise R.COLLIE_EVENTS F.COLLIE_EVENTS.NO_RESERVE

/-- R180: the task of a lost run is placed ahead of every ready entry of its plot, to be repeated. -/
def repeatRun (k : Nat) (r : Run) (s : State) : State :=
  let t := r.entry.desc
  let s1 := freeReserved r.actions ((coreBusy k r s).setRun k none)
  let e := { r.entry with again := true, cancelled := r.cancelled, since := s.raw }
  let home := (s1.descOf r.old t).home
  let s2 := s1.setReady home 8 (e :: s1.readyList home 8)
  let s3 := s2.setTaskOf r.old t { s2.taskOf r.old t with st := 1, core := none }
  match r.entry.seq with
  | some q => settleHandler r (flowSetItem (s3.descOf r.old t).link q .ready s3)
  | none => s3

/-- The reserves of the device. -/
def reserves (s : State) (l : List Nat) : Nat := (l.filter fun k => s.role k = 1).length

/-- R180, R189, R190: the report of a fence. -/
def fenceReport (k cause : Nat) (r : Option Run) (s : State) : State :=
  let log := k + (if r.isSome then 64 else 0) + 256 * reserves s (coresOf (plotOf k)) + 4096 * cause +
    65536 * plotOf k + 2 ^ 20 * reserves s (List.range 36)
  let s1 := (s.setReg R.COLLIE_FENCE_LOG (BitVec.ofNat 32 log)).incSat R.COLLIE_FENCE_CNT
  let task := match r with
    | some x => x.entry.desc + 2 ^ 15 + (x.entry.seq.getD 0) % 65536 * 65536
    | none => 0
  (s1.setReg R.COLLIE_FENCE_TASK (BitVec.ofNat 32 task)).raiseNamed R.COLLIE_EVENTS F.COLLIE_EVENTS.CORE_FENCED 6
    (BitVec.ofNat 64 log)

/-- R179 to R182: a core is fenced with a cause; a fenced core stays as it is. -/
def fenceCore (k cause : Nat) (s : State) : State :=
  if s.role k = 2 then s
  else
    let was := s.role k
    let slot := s.coreSlot k
    let r := s.run k
    let s1 := ((s.put (R.PLOT_k_CORE_STATUS k) F.PLOT_k_CORE_STATUS.ROLE 2).put (R.PLOT_k_CORE_STATUS k)
      F.PLOT_k_CORE_STATUS.FENCE_CAUSE cause).addFldSat (R.PLOT_k_CORE_STATUS k) F.PLOT_k_CORE_STATUS.FENCE_COUNT 1
    let s2 := (s1.setCore k { s1.core k with heel := false }).put (R.PLOT_k_CORE_STATUS k)
      F.PLOT_k_CORE_STATUS.AT_HEEL 0
    let s3 := match r with
      | some x => repeatRun k x s2
      | none => s2
    let s4 := if was = 0 then replaceCore (plotOf k) slot s3 else plotStatus (plotOf k) s3
    fenceReport k cause r s4

/-- R61: the latches or stagings of every master but one. -/
def keepOthers (m : Master) (t : Tbl (Option Word)) : Tbl (Option Word) :=
  t.filter fun x => x.1 / 2 ^ 32 ≠ masterId m

/-- R183, R61: a retest of a core fenced once since power-on starts its single-core reset and self-test. -/
def retestCore (k : Nat) (s : State) : State :=
  if s.role k = 2 ∧ s.get (R.PLOT_k_CORE_STATUS k) F.PLOT_k_CORE_STATUS.FENCE_COUNT = 1 then
    let s1 := s.put (R.PLOT_k_CORE_STATUS k) F.PLOT_k_CORE_STATUS.ROLE 3
    { s1 with
      latch := keepOthers (.core k) s1.latch, group := keepOthers (.core k) s1.group,
      stage := keepOthers (.core k) s1.stage }
  else s.raise R.COLLIE_EVENTS F.COLLIE_EVENTS.CMD_NO_EFFECT

/-- R183: the core self-test ends. -/
def retestDone (k : Nat) (pass : Bool) (s : State) : State :=
  if s.role k ≠ 3 then s
  else if pass then
    let s1 := match (List.range 8).find? fun sl => (s.slotCore (plotOf k) sl).isNone with
      | some sl => (s.put (R.PLOT_k_CORE_STATUS k) F.PLOT_k_CORE_STATUS.ROLE 0).put (R.PLOT_k_CORE_STATUS k)
          F.PLOT_k_CORE_STATUS.SLOT sl
      | none => s.put (R.PLOT_k_CORE_STATUS k) F.PLOT_k_CORE_STATUS.ROLE 1
    takeOp k (plotStatus (plotOf k) (s1.put (R.PLOT_k_CORE_STATUS k) F.PLOT_k_CORE_STATUS.TEST_FAILED 0))
  else
    (s.put (R.PLOT_k_CORE_STATUS k) F.PLOT_k_CORE_STATUS.ROLE 2).put (R.PLOT_k_CORE_STATUS k)
      F.PLOT_k_CORE_STATUS.TEST_FAILED 1

/-- R184: the items of a handler's flow that have not run are lost: their slots are released empty. -/
def flowLost (f : Nat) (p : FlowItem → Bool) (s : State) : State :=
  flowAdvance f (s.forAll (((s.flow f).items.filter p).map (·.seq)) fun q t => itemCancel f q t)

/-- A descriptor without a ready entry is not ready; posts that wait go on. -/
def notReady (d : Nat) (s : State) : State :=
  if (s.task d).st = 1 ∧ (s.readyOf fun e => decide (e.desc = d ∧ ¬ e.old)) = [] then
    let s1 := s.setTask d { s.task d with st := 0, save := none }
    if (s.desc d).kind = 2 then nextPost d s1 else s1
  else s

/-- R184: the readiness, pending posts and delay entries of a descriptor are lost. -/
def loseDesc (d : Nat) (s : State) : State :=
  let s0 := dropQueue d (dropDelays d s)
  if (s.desc d).kind = 3 then flowLost (s.desc d).link (fun it => it.st = .queued || it.st = .ready) s0
  else notReady d (discardReady (fun e => decide (e.desc = d ∧ ¬ e.old)) s0)

/-- R184: the ready entry of a descriptor is lost, the first of a handler's items. DESIGN CHOICE (assumption 232). -/
def loseReady (d : Nat) (s : State) : State :=
  match s.readyOf fun e => decide (e.desc = d ∧ ¬ e.old) with
  | [] => s
  | e :: _ =>
    match e.seq with
    | some q => flowLost (s.desc d).link (fun it => it.seq = q) s
    | none => notReady d (discardReady (fun x => decide (x = e)) s)

/-- R184: a pool record of a descriptor is lost, its oldest: a pending post, or an item that waits in the pool. -/
def loseRecord (d : Nat) (s : State) : State :=
  if (s.desc d).kind = 3 then
    match (s.flow (s.desc d).link).items.find? fun it => it.st = .queued with
    | some it => flowLost (s.desc d).link (fun x => x.seq = it.seq) s
    | none => s
  else
    match (s.task d).queue with
    | [] => s
    | _ :: rest => poolGive 1 (s.setTask d { s.task d with queue := rest })

/-- R184: a delay entry of a descriptor is lost, the one that expires first. -/
def loseDelay (d : Nat) (s : State) : State :=
  match ((allDelays s).filter fun e => e.desc = d).foldl (fun l e => insertDelay e l) [] with
  | [] => s
  | e :: _ =>
    match (List.range 16).find? fun n => e ∈ tget [] s.collie.delays n with
    | none => s
    | some n => { s with collie := { s.collie with delays := tset [] s.collie.delays n ((tget [] s.collie.delays n).erase e) } }

/-- R184: an error in Collie's state concerning a descriptor: uncorrectable in the descriptor itself (0), a ready entry
(1), a pool record (2) or a delay entry (3); or a single-bit error anywhere (4), which is corrected and counted (R533).
DEDUCED (assumption 176). -/
def descError (d what : Nat) (s : State) : State :=
  if what = 4 then s.incSat R.MEM_INT_CE_CNT else
  let s1 := if what = 0 then loseDesc d s else if what = 1 then loseReady d s else if what = 2 then loseRecord d s else loseDelay d s
  (s1.setReg R.COLLIE_FENCE_TASK (BitVec.ofNat 32 (d % 4096 + 2 ^ 14 + 2 ^ 15))).raise R.COLLIE_EVENTS
    F.COLLIE_EVENTS.DESC_ERROR

/-! ### A controller stop or warm reset empties Collie (R128, R185) -/

/-- R128: the ready and delayed entries that Collie holds, the posts that wait, and the flow items that wait in the pool.
DEDUCED (assumption 156). -/
def collieEntries (s : State) : Nat :=
  (s.readyOf fun e => e.here s).length + (allDelays s).length + (s.collie.tasks.map fun x => x.2.queue.length).sum +
    (s.collie.flows.map fun x => (x.2.items.filter fun it => it.st = .queued).length).sum

/-- R128: what is left of a descriptor's state: whether it runs. -/
def flushTask (x : TaskState) : TaskState :=
  { x with queue := [], save := none, st := if x.st = 2 then 2 else 0, due := none }

/-- The tasks of a table emptied. -/
def flushTasks (l : Tbl TaskState) : Tbl TaskState :=
  (l.map fun x => (x.1, flushTask x.2)).filter fun x => x.2 ≠ TaskState.idle

/-- R128, R185: Collie emptied of entries, posts and waiting tasks. -/
def collieEmpty (s : State) : State :=
  { s with collie := { s.collie with
    ready := [], delays := [], poolUsed := 0, tasks := flushTasks s.collie.tasks, oldTasks := flushTasks s.collie.oldTasks } }

/-- R128, R175: Collie emptied, and every flow item released empty; what tasks that have completed released otherwise stands. -/
def collieFlush (s : State) : State :=
  let s1 := (collieEmpty s).forAll (List.range 4) fun p t => t.setReleases p ((t.releases p).filter fun r => r.flow = none)
  s1.forAll (s.collie.flows.map (·.1)) fun f t => flowAdvance f
    (t.setFlow f { t.flow f with items := (t.flow f).items.map fun it => { it with st := .empty } })

/-- The run on a core is lost; the slot of a flow item is released empty. -/
def haltRun (k : Nat) (r : Run) (s : State) : State :=
  let t := r.entry.desc
  let s1 := freeReserved r.actions ((coreBusy k r s).setRun k none)
  let s2 := if r.old then s1.setOldTask t TaskState.idle else s1.setTask t { s1.task t with st := 0, core := none, due := none }
  match r.entry.seq with
  | some q => flowSetItem (s2.descOf r.old t).link q .empty s2
  | none => s2

/-- Every flow after a change of its items. -/
def flowsAdvance (s : State) : State := s.forAll (s.collie.flows.map (·.1)) flowAdvance

/-- The runs of every core are lost, and the cores take again. -/
def haltRuns (s : State) : State :=
  (List.range 36).foldl (fun t k =>
    match t.run k with
    | none => t
    | some r => takeOp k (haltRun k r t)) s

/-! ### Registers and commands -/

/-- R191: a write of COLLIE_CMD; a wrong KEY or OP 0 is ignored. -/
def collieCmdWrite (v : Word) (s : State) : State :=
  let t := fldOf F.COLLIE_CMD.TARGET v
  if fldOf F.COLLIE_CMD.KEY v ≠ 0x4A58 then s
  else
    match fldOf F.COLLIE_CMD.OP v with
    | 1 =>
      let s1 := postTo t (s.reg64 R.COLLIE_CMD_ARG_LO R.COLLIE_CMD_ARG_HI) 0xFFFF s
      if (s.desc t).kind = 2 ∨ (s.desc t).kind = 4 then s1
      else s1.raise R.COLLIE_EVENTS F.COLLIE_EVENTS.CMD_NO_EFFECT
    | 2 => cancelDesc t s
    | 3 => cancelItem (t % 512) (s.reg R.COLLIE_CMD_SEQ).toNat s
    | _ => s

/-- R197: a write of PLOT_k_CORE_CTRL. -/
def coreCtrlWrite (k : Nat) (v : Word) (s : State) : State :=
  let fe := fldOf F.PLOT_k_CORE_CTRL.FENCE v
  let re := fldOf F.PLOT_k_CORE_CTRL.RETEST v
  if fldOf F.PLOT_k_CORE_CTRL.KEY v ≠ 0x4A58 ∨ (fe = 1 ∧ re = 1) then s
  else if fe = 1 then fenceCore k 4 s
  else if re = 1 then retestCore k s
  else s

/-- R259, R405: the V at which a post with a bound reaches its slice: at most 1,024 grains after its cause. DESIGN CHOICE
(assumption 241). -/
def HwPost.reachV (p : HwPost) (s : State) : Quad :=
  match p.since with
  | some (g, _) => if g.toNat + 1024 < s.raw.toNat then BitVec.ofInt 64 (s.vAt (g + 1024)) else s.vT64
  | none => s.vT64

/-- R259, R405: the ARG of a post, with the grains from its cause to READY_V. -/
def HwPost.argAt (p : HwPost) (v : Quad) : Quad :=
  match p.since with
  | some (_, v0) => p.arg ||| BitVec.ofNat 64 ((v - v0).toNat % 65536 * 2 ^ 48)
  | none => p.arg

/-- R171: the oldest hardware post in flight reaches its slice. -/
def hardwarePost (s : State) : State :=
  match s.collie.hwPosts with
  | [] => s
  | p :: rest =>
    postAt p.desc (p.argAt (p.reachV s)) (p.reachV s) 0xFFFF { s with collie := { s.collie with hwPosts := rest } }

/-- A key word of a WO command register: KEY 0x4A58 in bits 31:16. -/
def keyed (v : Nat) : Word := BitVec.ofNat 32 (v % 65536 + 0x4A58 * 65536)

/-- TASKS_READY (R160). -/
def execTasksReady (s : State) : Out := ok (tasksReady s)
/-- TAKE (R161). -/
def execTake (k : Fin 36) (s : State) : Out := ok (takeOp k s)
/-- DISPATCH (R161, R162): the slice of a plot dispatches its first entry. -/
def execDispatch (p : Fin 4) (s : State) : Out := ok (dispatchSlice p s)
/-- SPILL (R163): the arbiter takes from a plot. -/
def execSpill (p : Fin 4) (s : State) : Out := ok (spillFrom p s)
/-- JOURNAL_FOLD (R120). -/
def execJournalFold (p : Fin 4) (s : State) : Out := ok (journalFold p s)
/-- DELAY_EXPIRY (R172). -/
def execDelayExpiry (s : State) : Out := ok (delayExpiryStep s)
/-- HOST_POST (R171, R191): COLLIE_CMD with OP POST and a target. -/
def execHostPost (t : Fin 4096) (s : State) : Out := ok (collieCmdWrite (keyed (t + 4096)) s)
/-- HOST_CANCEL (R176, R191): COLLIE_CMD with OP CANCEL and a target. -/
def execHostCancel (t : Fin 4096) (s : State) : Out := ok (collieCmdWrite (keyed (t + 8192)) s)
/-- CANCEL_ITEM (R178, R191): COLLIE_CMD with OP CANCEL_ITEM and a flow. -/
def execCancelItem (f : Fin 512) (s : State) : Out := ok (collieCmdWrite (keyed (f + 12288)) s)
/-- HARDWARE_POST (R171). -/
def execHardwarePost (s : State) : Out := ok (hardwarePost s)
/-- CORE_FENCED (R179): the causes 1 to 3, found by the core itself. -/
def execCoreFenced (k : Fin 36) (cause : Nat) (s : State) : Out := ok (fenceCore k cause s)
/-- FENCE (R179, R197). -/
def execFence (k : Fin 36) (s : State) : Out := ok (coreCtrlWrite k (keyed 1) s)
/-- RETEST (R183, R197). -/
def execRetest (k : Fin 36) (s : State) : Out := ok (coreCtrlWrite k (keyed 2) s)
/-- RETEST_DONE (R183). -/
def execRetestDone (k : Fin 36) (pass : Bool) (s : State) : Out := ok (retestDone k pass s)
/-- DESC_ERROR (R184). -/
def execDescError (d : Fin 4096) (what : Fin 5) (s : State) : Out := ok (descError d what s)

end Sys2Proof.Machine
end

