-- ==== Sys2Proof/Machine/Vars.lean ====
section
/-! DEFINITION. Variables seen from outside their tasks: published entries (R100, R422), principal tasks (R99), and
reads and writes of their cells (R99, R217). -/

namespace Sys2Proof.Machine

/-- The device's own farm number; 0 outside a farm (R418). -/
def State.ownDev (s : State) : Nat := (s.reg R.SYS_FARM).toNat % 8

/-- R100: the publication of an index and sub-index, with its module and variable. -/
def findPub (im : Image) (idx sub : Nat) : Option (Module × PubEntry × VarDesc) :=
  im.modules.findSome? fun m =>
    (m.pubs.find? fun p => p.index = idx ∧ p.subindex = sub).bind fun p => (m.vars[p.var]?).map fun v => (m, p, v)

/-- The function index that owns a RETAIN or FB variable (R99). -/
def VarDesc.owner (v : VarDesc) : Nat := if v.kind = 6 then v.aux / 256 else v.aux

/-- R99: the principal task of an entry: the lowest-numbered task descriptor bound to it. -/
def principal (im : Image) (m : Module) (f : Nat) : Option Nat :=
  (im.tasks.find? fun (_, d) => (d.kind = 1 ∨ d.kind = 2 ∨ d.kind = 3) ∧ d.modSlot = m.slot ∧ d.func = f).map (·.1)

/-- Cell i of a variable in the copies of its principal task, or in the global area. -/
def State.varCell (s : State) (m : Module) (v : VarDesc) (i : Nat) : Quad :=
  if v.kind = 1 then tget 0 (tget [] s.collie.globals m.uid) (v.loc / 8 + i)
  else
    match principal s.image m v.owner with
    | some t => tget 0 (s.retained t).valid (v.loc / 8 + i)
    | none => 0

/-- A global cell written. -/
def State.setGlobal (s : State) (uid c : Nat) (x : Quad) : State :=
  { s with collie := { s.collie with globals := tset [] s.collie.globals uid (tset 0 (tget [] s.collie.globals uid) c x) } }

/-- A task runs on some core, not as an old form. -/
def State.taskRuns (s : State) (t : Nat) : Bool :=
  (List.range 36).any fun k => match s.run k with
    | some r => r.entry.desc = t ∧ ¬ r.old
    | none => false

/-- R134: the first retained image of a new task, built. -/
def buildRetained (t : Nat) (s : State) : State :=
  if (s.retained t).built then s
  else
    match moduleOf s.image (s.desc t) with
    | none => s
    | some m => s.setRetained t ⟨workFor s t m (s.desc t).func, [], false, true⟩

/-- R217: a cell of a variable written from outside: a global at once; a retained cell in the principal task's valid copy, after
its run when it is running. -/
def State.varPoke (s : State) (m : Module) (v : VarDesc) (i : Nat) (x : Quad) : State :=
  if v.kind = 1 then s.setGlobal m.uid (v.loc / 8 + i) x
  else
    match principal s.image m v.owner with
    | none => s
    | some t =>
      if s.taskRuns t then
        { s with txn := { s.txn with deferred := s.txn.deferred ++ [⟨t, v.loc / 8 + i, x, false⟩] } }
      else
        let s1 := buildRetained t s
        s1.setRetained t ((s1.retained t).poke (v.loc / 8 + i) x)

/-- R419, R422: the least and greatest value of a published scalar, as cells, from its metadata or its type. -/
def metaRange (im : Image) (idx sub : Nat) (t : EType) : Quad × Quad :=
  match tget none im.metas (idx * 256 + sub) with
  | some r => (normCell t r.min, normCell t r.max)
  | none =>
    match t with
    | .f32 => (0xFF7FFFFF, 0x7F7FFFFF)
    | .f64 => (0xFFEFFFFFFFFFFFFF, 0x7FEFFFFFFFFFFFFF)
    | t => (wrInt t (tyMin t), wrInt t (tyMax t))

/-- Whether a value lies within MIN and MAX; a NaN does not, unless no record bounds it. -/
def inRange (im : Image) (idx sub : Nat) (t : EType) (x : Quad) : Bool :=
  match tget none im.metas (idx * 256 + sub) with
  | none => true
  | some _ =>
    let (lo, hi) := metaRange im idx sub t
    cellLe t lo x && cellLe t x hi

/-- The entry of a published scalar: its module, publication, variable and type. -/
def pubScalar (im : Image) (idx sub : Nat) : Option (Module × PubEntry × VarDesc) :=
  (findPub im idx sub).filter fun (_, _, v) => (v.kind = 0 ∨ v.kind = 1) ∧ v.elems = 1

/-- R419: the entry type code of a cell type. -/
def wireType : EType → Nat
  | .b => 1 | .u32 => 4 | .i32 => 8 | .i64 => 9 | .f32 => 10 | .f64 => 11 | .t64 => 12

/-- R422: the entry type of a published variable: that of its cells, or ARRAY. -/
def entryType (v : VarDesc) : Nat := if v.elems = 1 ∧ v.kind ≠ 6 then wireType v.ty else 15

/-- R419, R422: the bytes of a cell on the wire. -/
def cellBytes (v : VarDesc) : Nat := if v.kind = 6 then 8 else if v.ty = .b then 1 else typeBytes v.ty

/-- R423: the stored values of persisted entries, by index × 256 + sub-index. -/
def State.persisted (s : State) : List (Nat × PersistVal) := s.gran.persist.filterMap fun (k, x) => x.map fun v => (k, v)

/-- R423: a stored value discarded. -/
def dropPersisted (key : Nat) (s : State) : State :=
  { s with gran := { s.gran with persist := tset none s.gran.persist key none } }

end Sys2Proof.Machine
end

