-- ==== Sys2Proof/Machine/TxnBase.lean ====
section
/-! DEFINITION. Chapter 6: the TXN engine: slots, handles, actions, sealing, votes, decisions and final states. -/

namespace Sys2Proof.Machine

/-! ### Slots and handles (R203) -/

/-- A slot. -/
def State.tx (s : State) (i : Nat) : Txn := tget Txn.free s.txn.slots i
/-- A slot, set. -/
def State.setTx (s : State) (i : Nat) (x : Txn) : State :=
  { s with txn := { s.txn with slots := tset Txn.free s.txn.slots i x } }
/-- A slot, changed. -/
def State.modTx (s : State) (i : Nat) (f : Txn → Txn) : State := s.setTx i (f (s.tx i))

/-- The handle of a slot and generation. -/
def handleOf (slot gen : Nat) : Nat := slot + 64 * gen

/-- The current handle of a slot; 0 when free. -/
def State.txHandle (s : State) (i : Nat) : Nat := if (s.tx i).gen = 0 then 0 else handleOf i (s.tx i).gen

/-- The slot that a handle names, while its generation matches. -/
def State.txSlot (s : State) (h : Nat) : Option Nat :=
  if h ≠ 0 ∧ h < 65536 ∧ s.txHandle (h % 64) = h then some (h % 64) else none

/-- The lowest-numbered free slot. DESIGN CHOICE (assumption 14). -/
def State.txFreeSlot (s : State) : Option Nat := (List.range 64).find? fun i => (s.tx i).gen = 0

/-- R203: a free slot taken with the next generation; the handle, and the state. 0 when none is free. -/
def txTake (ownerKind ownerId : Nat) (reserved : Bool) (s : State) : Nat × State :=
  match s.txFreeSlot with
  | none => (0, s)
  | some i =>
    let g := tget 0 s.txn.gens i % 1023 + 1
    let x := { Txn.free with
      gen := g, ownerKind := ownerKind, ownerId := ownerId, reserved := reserved
      state := if reserved then 0 else 1, openIndex := s.headIndex }
    (handleOf i g, ({ s with txn := { s.txn with gens := tset 0 s.txn.gens i g } }).setTx i x)

/-- R204: a reserved handle whose TXOPEN is released becomes OPEN. -/
def txOpenReserved (h : Nat) (s : State) : State :=
  match s.txSlot h with
  | none => s
  | some i => s.modTx i fun x => { x with reserved := false, state := 1, openIndex := s.headIndex }

/-- A slot freed. -/
def txFree (i : Nat) (s : State) : State := s.setTx i Txn.free

/-! ### Actions (R200, R201) -/

/-- R199, R200: the participant that takes an action, kind and ID, or none for a target that no transaction may address or
a value of the wrong type; role is the bit of the owner's role. DEDUCED (assumption 15). -/
def txTarget (s : State) (kind target : Nat) (ty : EType) (wire axisCmd role : Nat) : Option (Nat × Nat) :=
  if kind = 3 then
    if refFieldsOk target ∧ refTypeOk s.image target ty false ∧ refDirOk target s.ownDev false then
      match refKind target with
      | 0 => some (0, 0)
      | 5 => some (0, 0)
      | 1 => some (1, 0)
      | 2 => some (4, target / 2 ^ 16 % 4 * 256 + target / 2 ^ 8 % 256)
      | _ => none
    else none
  else if kind = 5 then
    if target < 64 ∧ (axisCmd = 3 ∨ (ty = .i64 ∧ (axisCmd ≤ 2 ∨ axisCmd = 6))) then some (2, target) else none
  else if kind = 10 then
    let dev := target / 2 ^ 24
    let idx := target / 256 % 65536
    if (0x7000 ≤ idx ∧ idx < 0x8000) ∨ (0xC000 ≤ idx ∧ idx < 0xCC00) ∨ 0xD000 ≤ idx then none
    else if dev = s.ownDev then
      match pubScalar s.image idx (target % 256) with
      | some (_, p, v) => if v.ty = ty ∧ wireType ty = wire ∧ natBit p.writeRoles role then some (3, 0) else none
      | none => none
    else if dev < 8 then some (5, dev) else none
  else none

/-- R118: the bits that the OUTPUT actions of a list write, as a mask. -/
def txMask (l : List TxAction) : Tbl Byte :=
  l.foldl (fun m a => if a.kind = 3 then imgTouch m a.target a.ty else m) []

/-- R201: an action writes some byte or bit that the earlier ones do not, or a new axis or entry. -/
def txIsNew (l : List TxAction) (a : TxAction) : Bool :=
  if a.kind = 3 then (imgTouch [] a.target a.ty).any fun (k, m) => m &&& ~~~(tget 0 (txMask l) k) ≠ 0
  else ¬ l.any fun b => b.kind = a.kind ∧ b.target = a.target

/-- R201: the list with an action added; one of the same target is replaced. -/
def txAppend (l : List TxAction) (a : TxAction) : List TxAction :=
  (l.filter fun b => ¬ (b.kind = a.kind ∧ b.target = a.target ∧ (a.kind ≠ 3 ∨ b.ty = a.ty))) ++ [a]

/-- R202: the number of the participant that takes an action, added when it is new. -/
def txPart (ps : List Part) (k id : Nat) : Nat × List Part :=
  match ps.findIdx? fun p => p.kind = k ∧ p.id = id with
  | some i => (i, ps)
  | none => (ps.length, ps ++ [⟨k, id, 0, 0, 0, false, false⟩])

/-- R201, R202, R208: an ADD to an open slot of a value with a wire type; a refused ADD marks the transaction. -/
def txAddWire (wire i kind target : Nat) (ty : EType) (axisCmd : Nat) (value : Quad) (role : Nat) (s : State) : State :=
  let x := s.tx i
  match txTarget s kind target ty wire axisCmd role with
  | none => s.setTx i { x with badAction := true }
  | some (pk, pid) =>
    let (n, ps) := txPart x.parts pk pid
    let a : TxAction := ⟨n, kind, target, ty, axisCmd, normCell ty value, wire⟩
    let c := if txIsNew x.actions a then x.count + 1 else x.count
    if 4096 < c then s.setTx i { x with full := true }
    else if 64 < ps.length then s.setTx i { x with tooMany := true }
    else s.setTx i { x with actions := txAppend x.actions a, count := c, parts := ps }

/-- R201: an ADD of a cell's value. -/
def txAdd (i kind target : Nat) (ty : EType) (axisCmd : Nat) (value : Quad) (role : Nat) (s : State) : State :=
  txAddWire (wireType ty) i kind target ty axisCmd value role s

/-! ### Field headlands of a port (R377) -/

/-- R377: the field cycle of a port in base periods. -/
def State.fcK (s : State) (p : Nat) : Nat := (s.reg (R.FIELD_p_CYCLE p)).toNat % 1024 + 1
/-- R377: the phase of a port's field cycle. -/
def State.fcPhase (s : State) (p : Nat) : Nat := (s.reg (R.FIELD_p_CYCLE p)).toNat / 2 ^ 16 % 1024
/-- R377: base index b is a field headland of the port. -/
def State.isFieldHeadland (s : State) (p b : Nat) : Bool := ((b : Int) - s.fcPhase p) % (s.fcK p : Int) = 0
/-- R377: the port's first field headland at or after base index b. -/
def State.fieldFrom (s : State) (p b : Nat) : Nat :=
  b + (((s.fcPhase p : Int) - b) % (s.fcK p : Int)).toNat

/-- R384: a station of the table of a port. -/
def State.station? (s : State) (p n : Nat) : Option StationCfg := (tget [] s.image.stations p).find? fun c => c.num = n

/-! ### Aborts and final states (R205, R220 to R223) -/

/-- R222, R223: a participant failed: it voted NO, withdrew, was lost, or did not vote. -/
def Part.failed (p : Part) : Bool := p.vote = 2 || p.vote = 3

/-- The ports of the STATION participants of a transaction. -/
def txPorts (x : Txn) : List Nat :=
  (List.range 4).filter fun p => x.parts.any fun q => q.kind = 4 ∧ q.id / 256 = p

/-- R215: the decision records that the frames of a transaction's ports repeat from a base index on. -/
def txRepeat (i : Nat) (commit : Bool) (b : Nat) (v : Quad) (s : State) : State :=
  let x := s.tx i
  let add := (txPorts x).map fun p =>
    (⟨p, i, s.txHandle i, commit, s.fieldFrom p b, v, s.get R.TXN_CFG F.TXN_CFG.DEC_REPEAT⟩ : DecRepeat)
  { s with txn := { s.txn with
    repeats := (s.txn.repeats.filter fun r => r.handle ≠ s.txHandle i) ++ add } }

/-- R598: the coordinator keeps the decision for a peer in doubt, in a table of 64 entries; a further one finds no place.
DESIGN CHOICE (assumption 254). -/
def noteDoubt (h : Nat) (commit : Bool) (d : Nat) (s : State) : State :=
  if (d, h, commit) ∈ s.txn.doubts ∨ 64 ≤ s.txn.doubts.length then s
  else { s with txn := { s.txn with doubts := s.txn.doubts ++ [(d, h, commit)] } }

/-- R598: the peers that voted YES and that no path reaches as the decision message is sent are in doubt. -/
def noteUnreached (h : Nat) (commit : Bool) (yes : List Nat) (s : State) : State :=
  s.forAll (yes.filter fun d => !natBit (s.reg R.DRUS_REACH).toNat d) (noteDoubt h commit)

/-- The peers of a transaction that voted YES. -/
def txYesPeers (x : Txn) : List Nat := (x.parts.filter fun p => p.kind = 5 ∧ p.vote = 1).map (·.id)

/-- R212, R215: a decision message to each PEER participant. -/
def txTellPeers (i : Nat) (commit : Bool) (s : State) : State :=
  let msgs := ((s.tx i).parts.filter fun p => p.kind = 5).map fun p => (16 + p.id, s.txHandle i, commit)
  noteUnreached (s.txHandle i) commit (txYesPeers (s.tx i)) { s with txn := { s.txn with sent := s.txn.sent ++ msgs } }

/-- R205: a slot in a final state that was dropped is freed. -/
def txFreeIfDropped (i : Nat) (s : State) : State := if (s.tx i).dropped then txFree i s else s

/-- R45, R218: the actual virtual time of a headland to come, as far as it is settled: of the next headland, and of later ones when
nothing moves the shift any more. -/
def State.actualOf (s : State) (b : Nat) : Option Quad :=
  if b = s.head.nextB then some (BitVec.ofInt 64 s.head.nextActual)
  else if s.head.target = s.head.nextShift ∧ s.head.pendTargets = [] ∧ ¬ s.flag R.HEAD_CTRL F.HEAD_CTRL.SYNC_EN ∧ ¬ s.isFollower then
    some (BitVec.ofInt 64 (b * s.pg + s.head.nextShift))
  else none

/-- R218: COMMIT_V of a transaction that aborts before its decision: a free value when the time of H is not settled yet. DESIGN CHOICE
(assumption 239). -/
def abortRecords (i : Nat) (s : State) : State :=
  let b := (s.tx i).at_
  match s.actualOf b with
  | some v => txRepeat i false s.head.nextB v s
  | none => txRepeat i false s.head.nextB (Config.freeQuad s.free) { s with free := s.free + 1 }

/-- R222, R223: a transaction aborts with a cause. Local participants discard; before the decision time its stage records
leave the frames at the next field headland, and its peers are told at once (R215). DEDUCED (assumption 16). -/
def txAbort (i cause : Nat) (atDecision : Bool) (s : State) : State :=
  let x := s.tx i
  let s1 := s.setTx i { x with
    state := 7, cause := cause, finalIndex := s.headIndex, decided := x.decided || atDecision, reserved := false
    parts := x.parts.map fun p => if p.kind = 4 ∨ p.kind = 5 then p else { p with outcome := 5 } }
  let s2 := (s1.incSat R.TXN_ABORT_CNT).raise R.TXN_EVENTS F.TXN_EVENTS.ABORTED
  let s3 :=
    if atDecision ∨ x.state ≠ 2 then s2
    else
      let s4 := txTellPeers i false s2
      if x.staged then abortRecords i s4 else s4
  if atDecision then s3 else txFreeIfDropped i s3

/-- R220: a participant still to be settled before the final state. -/
def Part.open_ (p : Part) : Bool := (p.kind = 4 || p.kind = 5) && p.outcome = 0

/-- R220, R221: a committed and applied transaction with every participant settled reaches its final state. -/
def txFinish (i : Nat) (s : State) : State :=
  let x := s.tx i
  if x.state = 3 ∧ x.applied ∧ ¬ x.parts.any Part.open_ then
    let st := if x.parts.any (fun p => p.outcome = 3 ∨ p.outcome = 4) then 6
      else if x.parts.any (·.late) then 5 else 4
    txFreeIfDropped i ((s.setTx i { x with state := st, finalIndex := s.headIndex }).incSat R.TXN_COMMIT_CNT)
  else s

/-- A participant of a slot changed. -/
def modPart (i n : Nat) (f : Part → Part) (s : State) : State :=
  s.modTx i fun x => { x with parts := x.parts.modify n f }

/-- R220: a participant applied late by L base periods. -/
def partLate (i n l : Nat) (s : State) : State :=
  let s1 := modPart i n (fun p => { p with late := true, outcome := 2, doubt := false }) s
  let s2 := s1.modTx i fun x => { x with lateMax := max x.lateMax (min 63 l) }
  (s2.incSat R.TXN_LATE_CNT).raise R.TXN_EVENTS F.TXN_EVENTS.LATE

/-- R221: a participant lost in doubt (3) or unconfirmed (4). -/
def partUnsettled (i n outcome : Nat) (s : State) : State :=
  let s1 := modPart i n (fun p => { p with outcome := outcome, doubt := true }) s
  (s1.incSat R.TXN_LOST_DOUBT_CNT).raise R.TXN_EVENTS
    (if outcome = 3 then F.TXN_EVENTS.LOST_IN_DOUBT else F.TXN_EVENTS.UNCONFIRMED)

/-! ### Votes (R209 to R213) -/

/-- The participant number of a kind and ID in a slot. -/
def State.partOf (s : State) (i k id : Nat) : Option Nat := (s.tx i).parts.findIdx? fun p => p.kind = k ∧ p.id = id

/-- R211, R213: a vote reaches a sealed transaction before its decision; a NO after a YES is a withdrawal. -/
def txVote (i n : Nat) (yes : Bool) (reason : Nat) (s : State) : State :=
  let x := s.tx i
  if x.state ≠ 2 ∨ x.decided then s
  else modPart i n (fun p =>
    if p.vote = 2 then p
    else if yes then { p with vote := 1, reason := 0 }
    else { p with vote := 2, reason := if p.vote = 1 then 4 else reason }) s

/-- R213: a participant is lost before the decision. -/
def txLose (i n : Nat) (s : State) : State :=
  let x := s.tx i
  if x.state ≠ 2 ∨ x.decided then s else modPart i n (fun p => { p with vote := 2, reason := 5 }) s

/-- R213, R387, R599: a station or peer is lost: before the decision it counts as NO with reason LOST; after a commit a
station in doubt is lost in doubt, and a peer waits for R598. -/
def txLost (k id : Nat) (s : State) : State :=
  s.forAll (List.range 64) fun i t =>
    match t.partOf i k id with
    | none => t
    | some n =>
      if (t.tx i).state = 2 then txLose i n t
      else if (t.tx i).state = 3 ∧ k = 4 then
        (if ((t.tx i).parts[n]?).any fun p => p.outcome = 0 then txFinish i (partUnsettled i n 3 t) else t)
      else t

/-- R213: the axis withdraws its vote on a fault. -/
def txAxisFault (axis : Nat) (s : State) : State :=
  s.forAll (List.range 64) fun i t =>
    match t.partOf i 2 axis with
    | none => t
    | some n => txVote i n false 2 t

/-! ### Sealing (R207, R208) -/

/-- R208, check 5: every station's reply slot of a port ends early enough. -/
def sealPortOk (s : State) (x : Txn) (bn bh p : Nat) : Bool :=
  let f := s.fieldFrom p bn
  let e := (x.parts.filter fun q => q.kind = 4 ∧ q.id / 256 = p).foldl (fun m q =>
    match s.station? p (q.id % 256) with
    | some c => max m (c.start + c.len)
    | none => m) 0
  decide (f + 1 ≤ bh) && decide (s.pg / 4 + (bh - f) * s.pg / 32 + e ≤ (bh - f) * s.pg)

/-- R208, check 6: two transactions touch a same target. -/
def txTouch (x y : Txn) : Bool :=
  let m := txMask y.actions
  ((txMask x.actions).any fun (k, b) => b &&& tget 0 m k ≠ 0) ||
    x.actions.any fun a => decide (a.kind ≠ 3) && y.actions.any fun b => decide (b.kind = a.kind ∧ b.target = a.target)

/-- R208: the cause of the first failing check, or 0. -/
def sealCause (s : State) (i bh : Nat) : Nat :=
  let x := s.tx i
  let bn := s.firstIndexAfter s.vNow 1024
  if x.badAction then 7
  else if x.full then 5
  else if x.tooMany then 6
  else if ¬ s.headRun ∨ bh < bn + 1 then 3
  else if ¬ (txPorts x).all (sealPortOk s x bn bh) then 3
  else if (List.range 64).any fun j =>
      j ≠ i ∧ ((s.tx j).state = 2 ∨ (s.tx j).state = 3) ∧ (s.tx j).at_ = bh ∧ txTouch x (s.tx j) then 4
  else 0

/-- R213, R387, R599: a participant that is lost when the transaction is sealed: a station in state LOST, or a peer without a path. -/
def lostNow (s : State) (p : Part) : Bool :=
  (decide (p.kind = 4) && decide (s.get (R.FIELD_p_s_STATUS (p.id / 256) (p.id % 256)) F.FIELD_p_s_STATUS.STATE = 5)) ||
    (decide (p.kind = 5) && !natBit (s.reg R.DRUS_REACH).toNat p.id)

/-- R212: at the seal each peer is sent its actions. -/
def sealSends (i : Nat) (s : State) : State :=
  let x := s.tx i
  { s with txn := { s.txn with sentActions := (x.parts.zipIdx.filter fun (p, _) => p.kind = 5).map fun (p, n) =>
      (p.id, s.txHandle i, x.at_, x.actions.filter fun a => a.part = n) } }

/-- R208, R226: a seal for the commit headland B_H; the result is the abort cause, 0 when it is accepted. -/
def txSeal (i bh : Nat) (s : State) : State :=
  let c := sealCause s i bh
  if c = 0 then sealSends i (s.modTx i fun x => { x with
    state := 2, at_ := bh, bn := s.firstIndexAfter s.vNow 1024, sealRaw := s.raw
    parts := x.parts.map fun p => if lostNow s p then { p with vote := 2, reason := 5 } else p })
  else txAbort i c false (s.modTx i fun x => { x with at_ := bh })

/-- R207: the base index that a virtual time names. -/
def State.sealIndex (s : State) (th : Quad) : Nat := ((th.toInt + (s.pg / 2 : Nat)) / s.pg).toNat

/-! ### Drop and timeouts (R205, R206) -/

/-- R205: a drop of the slot. -/
def txDrop (i : Nat) (s : State) : State :=
  let x := s.tx i
  if x.state = 1 then txFree i (txAbort i 8 false s)
  else if x.state = 2 ∨ x.state = 3 then s.setTx i { x with dropped := true }
  else if 4 ≤ x.state then txFree i s
  else s

/-- R205: transactions in a final state for HOLD base periods are freed. -/
def txHoldExpiry (s : State) : State :=
  let hold := s.get R.TXN_CFG F.TXN_CFG.HOLD
  if hold = 0 then s
  else s.forAll (List.range 64) fun i t =>
    if 4 ≤ (t.tx i).state ∧ (t.tx i).finalIndex + hold ≤ t.headIndex then txFree i t else t

/-- R206: transactions open for more than OPEN_LIMIT base periods abort. -/
def txOpenTimeout (s : State) : State :=
  let lim := s.get R.TXN_CFG F.TXN_CFG.OPEN_LIMIT
  if lim = 0 then s
  else s.forAll (List.range 64) fun i t =>
    if (t.tx i).state = 1 ∧ (t.tx i).openIndex + lim < t.headIndex then txAbort i 13 false t else t

/-- R128, R142: a controller stop or warm reset acts on the engine: a stop aborts each transaction before its decision with
STOPPED and frees unsealed handles of tasks; a warm reset aborts the OPEN ones with RESET and frees their slots. -/
def txStop (s : State) : State :=
  s.forAll (List.range 64) fun i t =>
    let x := t.tx i
    if x.reserved then txFree i t
    else if x.state = 1 then
      let t1 := txAbort i 9 false t
      if x.ownerKind = 1 then txFree i t1 else t1
    else if x.state = 2 then txAbort i 9 false t
    else t

/-- R227: a warm reset. -/
def txWarm (s : State) : State :=
  s.forAll (List.range 64) fun i t =>
    let x := t.tx i
    if x.reserved then txFree i t else if x.state = 1 then txFree i (txAbort i 12 false t) else t

/-! ### Status (R224, R228, R235) -/

/-- TXN_s_FAIL: the participants that failed. -/
def txFail (x : Txn) : Nat := (x.parts.zipIdx.filter fun (p, _) => p.failed).foldl (fun m (_, i) => natSetBit m i) 0
/-- R219, R221, R598: a participant in doubt: a station that voted YES and has not learned the decision yet, one that was lost in doubt or
is unconfirmed, or a peer in doubt. -/
def Part.inDoubt (p : Part) : Bool := p.doubt || decide (p.kind = 4 ∧ p.vote = 1 ∧ p.outcome = 0)

/-- TXN_s_DOUBT. -/
def txDoubt (x : Txn) : Nat := (x.parts.zipIdx.filter fun (p, _) => p.inDoubt).foldl (fun m (_, i) => natSetBit m i) 0
/-- TXN_s_LATE. -/
def txLate (x : Txn) : Nat := (x.parts.zipIdx.filter fun (p, _) => p.late).foldl (fun m (_, i) => natSetBit m i) 0

/-- R224: the status word. -/
def txStatus (x : Txn) : Nat :=
  x.state + 256 * x.cause + 65536 * ((x.parts.findIdx? Part.failed).getD 0) + 2 ^ 22 * b2n (x.parts.any Part.failed) +
    2 ^ 23 * b2n x.forced + 2 ^ 24 * x.lateMax

end Sys2Proof.Machine
end

