-- ==== Sys2Proof/Machine/Field.lean ====
section
/-! DEFINITION. Chapter 10: the Treavo field ports and stations. -/

namespace Sys2Proof.Machine

/-! ### Bytes -/

/-- n bytes of a number, least significant first. -/
def leBytes : Nat → Nat → List Byte
  | 0, _ => []
  | n + 1, v => BitVec.ofNat 8 v :: leBytes n (v / 256)

/-- The number that bytes spell, least significant first. -/
def leNat : List Byte → Nat
  | [] => 0
  | b :: t => b.toNat + 256 * leNat t

/-- n rounded up to a multiple of 4. -/
def up4 (n : Nat) : Nat := (n + 3) / 4 * 4

/-- Bytes padded with zeros to a length. -/
def padTo (n : Nat) (l : List Byte) : List Byte := l ++ List.replicate (n - l.length) 0

/-- Bytes padded with zeros to a multiple of 4. -/
def pad4 (l : List Byte) : List Byte := padTo (up4 l.length) l

/-- n bytes of an image from an address. -/
def imgBytes (m : Tbl Byte) (a n : Nat) : List Byte := (List.range n).map fun i => tget 0 m (a + i)

/-- An image with bytes written from an address. -/
def imgPut (m : Tbl Byte) (a : Nat) : List Byte → Tbl Byte
  | [] => m
  | b :: t => imgPut (tset 0 m a b) (a + 1) t

/-! ### Access -/

/-- A field port. -/
def State.fport (s : State) (p : Nat) : FieldPort := tget FieldPort.idle s.field.ports p
/-- A field port, set. -/
def State.setFport (s : State) (p : Nat) (x : FieldPort) : State :=
  { s with field := { s.field with ports := tset FieldPort.idle s.field.ports p x } }
/-- A station. -/
def State.stn (s : State) (p n : Nat) : StationSt := tget StationSt.fresh s.field.stations (p * 256 + n)
/-- A station, set. -/
def State.setStn (s : State) (p n : Nat) (x : StationSt) : State :=
  { s with field := { s.field with stations := tset StationSt.fresh s.field.stations (p * 256 + n) x } }
/-- The station table of a port. -/
def State.stationTable (s : State) (p : Nat) : List StationCfg := tget [] s.image.stations p

/-- R390: the ports p and p + 1 work as a pair. -/
def State.paired (s : State) (p : Nat) : Bool := p % 2 = 0 && s.flag (R.FIELD_p_CTRL p) F.FIELD_p_CTRL.PAIR

/-- R390: the port whose station table a port serves. -/
def State.tablePort (s : State) (p : Nat) : Nat := if p % 2 = 1 && s.paired (p - 1) then p - 1 else p

/-- R385: a station's state. -/
def State.stnState (s : State) (p n : Nat) : Nat := s.get (R.FIELD_p_s_STATUS p n) F.FIELD_p_s_STATUS.STATE

/-- The image address of the first byte of a station's slot, in or out. -/
def stnAddr (p n : Nat) : Nat := 2 * 2 ^ 32 + (p * 256 + n) * 256

/-- The source of a station's inputs, for age and quality. -/
def stnSource (p n : Nat) : Nat := 2 * 2 ^ 32 + (p * 256 + n)

/-- R388: the quality bits of an input source set. -/
def State.setQual (s : State) (src q : Nat) : State := { s with quals := tset 0 s.quals src q }

/-- R388: the base index that an input source's newest value belongs to; none before the first, which the table holds as 0. -/
def State.setAge (s : State) (src b : Nat) : State := { s with ages := tset 0 s.ages src (b + 1) }

/-- Bytes written to the live inputs. -/
def State.putInputs (s : State) (a : Nat) (l : List Byte) : State := { s with inputs := imgPut s.inputs a l }

/-- R384: an input source's substitute: zeros, the last good values, or fixed ones. -/
def substitute (s : State) (a n mode : Nat) (fixed : List Byte) : State :=
  match mode with
  | 1 => s
  | 2 => s.putInputs a (padTo n (fixed.take n))
  | _ => s.putInputs a (List.replicate n 0)

/-! ### The table checks (R379) -/

/-- R379: the byte time of a speed, in millionths of a grain. -/
def byteTime (speed : Nat) : Nat := match speed with | 0 => 838860800 | 1 => 83886080 | _ => 8388608

/-- The grains that n bytes take, rounded up. -/
def byteGrains (speed n : Nat) : Nat := (n * byteTime speed + 999999) / 1000000

/-- R379: two slots overlap. -/
def slotsOverlap (l : List StationCfg) : Bool :=
  l.any fun a => l.any fun b => a.num ≠ b.num ∧ a.start < b.start + b.len ∧ b.start < a.start + a.len

/-- R380, R379: the length of an output frame with a full REC_RESERVE, with header and frame check. -/
def frameLen (l : List StationCfg) (reserve : Nat) : Nat :=
  max 64 (24 + reserve + (l.map fun c => 4 + up4 c.outLen).sum + 18)

/-- R376: FRAME_MAX for a control word. -/
def frameMax (ctrl : Word) : Nat :=
  if fldOf F.FIELD_p_CTRL.JUMBO ctrl = 1 ∧ fldOf F.FIELD_p_CTRL.MODE ctrl = 2 ∧ fldOf F.FIELD_p_CTRL.SPEED ctrl = 2 then 9018
  else 1518

/-- R379: a station table passes under a control word of its port. DEDUCED (assumption 18). -/
def tableOk (s : State) (p : Nat) (ctrl : Word) : Bool :=
  let l := s.stationTable p
  let sp := fldOf F.FIELD_p_CTRL.SPEED ctrl
  let n := frameLen l (s.get (R.FIELD_p_LIMITS p) F.FIELD_p_LIMITS.REC_RESERVE)
  ¬ slotsOverlap l ∧ (l.all fun c => byteGrains sp (16 + up4 c.inLen + 64 + 38) ≤ c.len) ∧
    (l.all fun c => c.start + c.len + 2048 ≤ s.fcK p * s.pg) ∧ n ≤ frameMax ctrl ∧
    128 + byteGrains sp (8 + n) ≤ 7 * s.pg / 8 - 1024

/-- The two ports of a port's pair, the even one first. -/
def pairOf (p : Nat) : Nat × Nat := (p - p % 2, p - p % 2 + 1)

/-- R390: a pair's ports have the same settings, and the odd port's table is empty; the control and cycle words of a port are given. -/
def pairOk (s : State) (p : Nat) (ctrl cycle : Word) : Bool :=
  let c := fun q => if q = p then ctrl else s.reg (R.FIELD_p_CTRL q)
  let y := fun q => if q = p then cycle else s.reg (R.FIELD_p_CYCLE q)
  let (e, o) := pairOf p
  let same := fun (f : Fld) => decide (fldOf f (c e) = fldOf f (c o))
  decide (fldOf F.FIELD_p_CTRL.PAIR (c e) = 0) ||
    (same F.FIELD_p_CTRL.MODE && same F.FIELD_p_CTRL.SPEED && same F.FIELD_p_CTRL.JUMBO && decide (y e = y o) &&
      decide (s.stationTable o = []))

/-- R390: the other port of a pair sends. -/
def pairOn (s : State) (p : Nat) : Bool := s.flag (R.FIELD_p_CTRL (if p % 2 = 0 then p + 1 else p - 1)) F.FIELD_p_CTRL.EN

/-- A write refused by the FIELD block. DEDUCED (assumption 171). -/
def fieldRefused (s : State) : State := s.raise R.FIELD_EVENTS F.FIELD_EVENTS.CFG_REFUSED

/-- R379, R390, R410, R654: a write of FIELD_p_CTRL. -/
def fieldCtrlWrite (p : Nat) (v : Word) (s : State) : State :=
  let was := s.reg (R.FIELD_p_CTRL p)
  let w := (if p % 2 = 1 then setFldOf F.FIELD_p_CTRL.PAIR 0 v else v) &&& 0xFF
  let en := fldOf F.FIELD_p_CTRL.EN w = 1
  let wasEn := fldOf F.FIELD_p_CTRL.EN was = 1
  if fldOf F.FIELD_p_CTRL.MODE w = 3 ∨ fldOf F.FIELD_p_CTRL.SPEED w = 3 then fieldRefused s
  else if wasEn ∧ (w &&& 0x7E) ≠ (was &&& 0x7E) then fieldRefused s
  else if en ∧ ¬ wasEn ∧ ¬ tableOk s (s.tablePort p) w then fieldRefused s
  else if (en ∨ pairOn s p) ∧ ¬ pairOk s p w (s.reg (R.FIELD_p_CYCLE p)) then fieldRefused s
  else
    let s1 := s.setReg (R.FIELD_p_CTRL p) w
    if en ∧ ¬ wasEn then genPortSet p (s1.setFport p { s1.fport p with running := false, frames := 0 })
    else if ¬ en then
      (s1.setFport p { s1.fport p with running := false }).put (R.FIELD_p_STATUS p) F.FIELD_p_STATUS.RUNNING 0
    else s1

/-- R390, R408: a write of FIELD_p_CYCLE. -/
def fieldCycleWrite (p : Nat) (v : Word) (s : State) : State :=
  let w := v &&& 0x3FF03FF
  if s.flag (R.FIELD_p_CTRL p) F.FIELD_p_CTRL.EN ∨ (pairOn s p ∧ ¬ pairOk s p (s.reg (R.FIELD_p_CTRL p)) w) then fieldRefused s
  else s.setReg (R.FIELD_p_CYCLE p) w

/-! ### Stations (R385 to R388) -/

/-- R406: a change of a station's state is posted when FIELD_EVT_DESC is enabled. -/
def stnPost (p n st : Nat) (s : State) : State :=
  hwPostCfg (s.reg R.FIELD_EVT_DESC)
    (BitVec.ofNat 64 (p + 256 * n + 65536 * st + 2 ^ 32 * (s.reg (R.FIELD_p_CYCLE_NUM p)).toNat)) s

/-- A station put into a state: its quality, its substitute values, and the post. -/
def setStnState (p : Nat) (c : StationCfg) (st : Nat) (s : State) : State :=
  if s.stnState p c.num = st then s
  else
    let s1 := s.put (R.FIELD_p_s_STATUS p c.num) F.FIELD_p_s_STATUS.STATE st
    let s2 := stnPost p c.num st s1
    if st = 3 ∨ st = 4 then s2.setQual (stnSource p c.num) 1
    else substitute (s2.setQual (stnSource p c.num) 2) (stnAddr p c.num) c.inLen c.subst c.fixed

/-- R386: the first field of an ident record that differs from the table, as REFUSE codes it; 0 none. -/
def identCheck (c : StationCfg) (r : Ident) : Nat :=
  if r.outLen ≠ c.outLen then 1
  else if r.inLen ≠ c.inLen then 2
  else if r.vendor ≠ c.vendor then 3
  else if r.product ≠ c.product then 4
  else if r.revision < c.revision then 5
  else 0

/-- R386: a waiting JOIN_REQ is judged. -/
def stnJoin (p : Nat) (c : StationCfg) (s : State) : State :=
  match (s.stn p c.num).join with
  | none => s
  | some r =>
    let k := identCheck c r
    let s1 := s.setStn p c.num { s.stn p c.num with join := none, admitted := false, dropped := false }
    let s2 := s1.put (R.FIELD_p_s_STATUS p c.num) F.FIELD_p_s_STATUS.REFUSE k
    if k = 0 then setStnState p c 2 s2
    else (setStnState p c 6 s2).raise R.FIELD_EVENTS F.FIELD_EVENTS.REFUSED

/-- R387: a station becomes LOST. -/
def stnLost (p : Nat) (c : StationCfg) (s : State) : State :=
  let s1 := setStnState p c 5 s
  txLost 4 (p * 256 + c.num) (s1.raise R.FIELD_EVENTS F.FIELD_EVENTS.STATION_LOST)

/-- R387: a miss of an OPERATIONAL or STALE station. -/
def stnMiss (p : Nat) (c : StationCfg) (s : State) : State :=
  let n := s.get (R.FIELD_p_s_STATUS p c.num) F.FIELD_p_s_STATUS.MISS + 1
  let s1 := (s.put (R.FIELD_p_s_STATUS p c.num) F.FIELD_p_s_STATUS.MISS n).addFldSat (R.FIELD_p_s_COUNTS p c.num) ⟨0, 16⟩ 1
  if s.get (R.FIELD_p_LIMITS p) F.FIELD_p_LIMITS.LOST_LIMIT ≤ n then stnLost p c s1 else setStnState p c 4 s1

/-- R386: a JOINING station that answered a frame with ADMIT becomes OPERATIONAL, with the inputs of that reply. -/
def stnAdmit (p : Nat) (c : StationCfg) (s : State) : State :=
  let x := s.stn p c.num
  let s1 := (s.setStn p c.num { x with admitted := false }).put (R.FIELD_p_s_STATUS p c.num) F.FIELD_p_s_STATUS.MISS 0
  let s2 := (setStnState p c 3 s1).putInputs (stnAddr p c.num) x.inputs
  s2.raise R.FIELD_EVENTS F.FIELD_EVENTS.STATION_JOINED

/-- R386, R387: one station judged at a field headland. DESIGN CHOICE (assumption 17). -/
def stnJudge (p : Nat) (c : StationCfg) (s : State) : State :=
  let st := s.stnState p c.num
  let x := s.stn p c.num
  let svc := s.flag (R.FIELD_p_s_CTRL p c.num) F.FIELD_p_s_CTRL.SERVICE
  let s0 := (s.putFlag (R.FIELD_p_s_STATUS p c.num) F.FIELD_p_s_STATUS.PATH_A_OK x.pathA).putFlag
    (R.FIELD_p_s_STATUS p c.num) F.FIELD_p_s_STATUS.PATH_B_OK x.pathB
  if svc then setStnState p c 0 (s0.setStn p c.num { x with join := none, admitted := false, dropped := false })
  else if st = 0 then setStnState p c 1 s0
  else if st = 3 ∨ st = 4 then
    if x.dropped then stnJoin p c (stnLost p c s0)
    else if x.good.isSome then (setStnState p c 3 s0).put (R.FIELD_p_s_STATUS p c.num) F.FIELD_p_s_STATUS.MISS 0
    else stnMiss p c s0
  else if st = 2 then (if x.admitted then stnAdmit p c s0 else s0)
  else stnJoin p c s0

/-- R385: a station is missing. -/
def State.stnMissing (s : State) (p n : Nat) : Bool :=
  s.stnState p n ≠ 3 ∧ s.stnState p n ≠ 4 ∧ s.stnState p n ≠ 0

/-- R385: the missing bit of a station set or cleared; a new one is an event. DEDUCED (assumption 24). -/
def stnMissingBit (p n : Nat) (late : Bool) (s : State) : State :=
  let r := R.FIELD_p_MISSING_w p (n / 32)
  let b : Fld := ⟨n % 32, 1⟩
  let miss := s.stnMissing p n && late
  if miss = s.flag r b then s
  else if miss then (s.putFlag r b true).raise R.FIELD_EVENTS F.FIELD_EVENTS.MISSING
  else s.putFlag r b false

/-- R411: the counts of FIELD_p_STATUS. -/
def fieldCounts (p : Nat) (s : State) : State :=
  let l := s.stationTable p
  (s.put (R.FIELD_p_STATUS p) F.FIELD_p_STATUS.OPERATIONAL (l.filter fun c => s.stnState p c.num = 3).length).put
    (R.FIELD_p_STATUS p) F.FIELD_p_STATUS.MISSING (l.filter fun c => s.stnMissing p c.num).length

/-- R390: a path of a pair fails or works again. DEDUCED (assumption 25). -/
def pathJudge (p tp : Nat) (s : State) : State :=
  let any := (s.stationTable tp).any fun c => if p = tp then (s.stn tp c.num).pathA else (s.stn tp c.num).pathB
  let n := if any then 0 else (s.fport p).silent + 1
  let s1 := s.setFport p { s.fport p with silent := n }
  let bad := s.get (R.FIELD_p_LIMITS tp) F.FIELD_p_LIMITS.LOST_LIMIT ≤ n ||
    (s.flag (R.FIELD_p_CTRL p) F.FIELD_p_CTRL.POLL && ! s.flag (R.FIELD_p_STATUS p) F.FIELD_p_STATUS.LINK)
  if bad = s.flag (R.FIELD_p_STATUS p) F.FIELD_p_STATUS.PATH_DOWN then s1
  else
    (s1.putFlag (R.FIELD_p_STATUS p) F.FIELD_p_STATUS.PATH_DOWN bad).raiseIf bad R.FIELD_EVENTS F.FIELD_EVENTS.PATH_DOWN

/-- R221: the stations of a port whose decision record has been repeated to its end without an acknowledgement. -/
def repeatsEnd (p : Nat) (s : State) : State :=
  let done := s.txn.repeats.filter fun r => r.port = p ∧ r.left = 0
  let s1 := { s with txn := { s.txn with repeats := s.txn.repeats.filter fun r => ¬ (r.port = p ∧ r.left = 0) } }
  s1.forAll done fun r t =>
    if ¬ r.commit ∨ t.txHandle r.slot ≠ r.handle then t
    else
      let open_ := (t.tx r.slot).parts.zipIdx.filter fun (q, _) => q.kind = 4 ∧ q.id / 256 = p ∧ q.outcome = 0
      txFinish r.slot (t.forAll open_ fun (_, n) u => partUnsettled r.slot n 4 u)

/-- R385 to R387: the stations of a port judged at a field headland, before the snapshot cut. -/
def fieldJudge (p : Nat) (s : State) : State :=
  if (s.fport p).running ∧ s.tablePort p = p then
    let l := s.stationTable p
    let s1 := if s.paired p then pathJudge (p + 1) p (pathJudge p p s) else s
    let s2 := s1.forAll l fun c t => stnJudge p c t
    let lim := 16 * s.get (R.FIELD_p_LIMITS p) F.FIELD_p_LIMITS.JOIN_LIMIT
    let late : Bool := lim ≤ (s.fport p).frames
    let s3 := s2.forAll l fun c t => stnMissingBit p c.num late t
    fieldCounts p (repeatsEnd p s3)
  else s

/-! ### Frames (R377 to R381, R210, R215, R218) -/

/-- R210: the stage record of a transaction for a station. -/
def stageRecord (s : State) (i p n : Nat) : List Byte :=
  let x := s.tx i
  let mine := x.actions.filter fun a => a.kind = 3 ∧ refKind a.target = 2 ∧ stnSource p n = refSource a.target
  let mask := txMask mine
  let vals := mine.foldl (fun m a => imgWrite m a.target a.ty a.value) s.img.sealed
  let a0 := stnAddr p n
  let len := ((List.range 256).filter fun j => tget 0 mask (a0 + j) ≠ 0).foldl (fun _ j => j + 1) 0
  let bits := (List.range 256).foldl (fun m j => if tget 0 mask (a0 + j) ≠ 0 then natSetBit m j else m) 0
  let data := (List.range len).map fun j => if tget 0 mask (a0 + j) ≠ 0 then tget 0 vals (a0 + j) else 0
  pad4 ([1, BitVec.ofNat 8 n] ++ leBytes 2 (s.txHandle i) ++ leBytes 8 x.at_ ++ leBytes 2 len ++ [0, 0] ++
    leBytes 32 bits ++ data)

/-- R218: a decision record. -/
def decisionRecord (handle : Nat) (commit : Bool) (v : Quad) : List Byte :=
  [2, if commit then 1 else 2] ++ leBytes 2 handle ++ leBytes 4 0 ++ leBytes 8 v.toNat

/-- R210: the stations of a port for which sealed transactions have stage records at base index b, in the order of the
seals: slot and station. -/
def stagesAt (s : State) (p b : Nat) : List (Nat × Nat) :=
  let live := (List.range 64).filter fun i => (s.tx i).state = 2 ∧ s.fieldFrom p (s.tx i).bn ≤ b
  let order := live.foldl (fun l i => (l.takeWhile fun j => (s.tx j).sealRaw.toNat ≤ (s.tx i).sealRaw.toNat) ++ [i] ++
    (l.dropWhile fun j => (s.tx j).sealRaw.toNat ≤ (s.tx i).sealRaw.toNat)) []
  order.flatMap fun i => ((s.tx i).parts.filter fun q => q.kind = 4 ∧ q.id / 256 = p ∧ q.reason ≠ 5).map fun q => (i, q.id % 256)

/-- R381: the records placed within REC_RESERVE bytes: what was placed, and how many wait. -/
def placeRecords (room : Nat) : List (List Byte) → List (List Byte) × Nat
  | [] => ([], 0)
  | r :: t =>
    if r.length ≤ room then
      let (l, n) := placeRecords (room - r.length) t
      (r :: l, n)
    else
      let (l, n) := placeRecords room t
      (l, n + 1)

/-- R380: FLAGS of a frame. -/
def frameFlags (s : State) (p : Nat) : Nat :=
  b2n (s.get R.EXEC_STATUS F.EXEC_STATUS.STATE = 2) + 2 * b2n s.ctrlBridging + 4 * b2n (s.tablePort p ≠ p) +
    8 * b2n (s.flag R.TIME_STATUS F.TIME_STATUS.SEATED)

/-- R380: a frame's payload header. -/
def frameHeader (s : State) (p kind cycle : Nat) (v : Quad) (slots recLen : Nat) : List Byte :=
  [1, BitVec.ofNat 8 kind] ++ leBytes 2 (frameFlags s p) ++ leBytes 4 cycle ++ leBytes 8 v.toNat ++
    leBytes 4 (s.fcK p * (s.reg R.HEAD_PERIOD).toNat) ++ leBytes 2 slots ++ leBytes 2 recLen

/-- R380: the Ethernet header of a frame: destination, source and Ethertype. -/
def frameHead (s : State) (p : Nat) : List Byte :=
  let ety := (s.reg R.FIELD_ETYPE).toNat
  leBytes 4 (s.reg (R.FIELD_p_DEST_LO p)).toNat ++ leBytes 2 (s.reg (R.FIELD_p_DEST_HI p)).toNat ++
    leBytes 4 (s.reg (R.FIELD_p_MAC_LO p)).toNat ++ leBytes 2 (s.reg (R.FIELD_p_MAC_HI p)).toNat ++
    [BitVec.ofNat 8 (ety / 256), BitVec.ofNat 8 ety]

/-- R380: a station's slot entry. -/
def slotEntry (s : State) (p : Nat) (c : StationCfg) : List Byte :=
  let st := s.stnState p c.num
  let fl := b2n (st = 2 ∨ st = 3 ∨ st = 4) + 2 * b2n (st = 0) + 16 * c.wd
  [BitVec.ofNat 8 c.num, BitVec.ofNat 8 fl] ++ leBytes 2 c.outLen ++ pad4 (imgBytes s.img.sealed (stnAddr p c.num) c.outLen)

/-- The station table in ascending station number. -/
def sortedTable (l : List StationCfg) : List StationCfg :=
  (List.range 256).filterMap fun n => l.find? fun c => c.num = n

/-- R215, R221: the repeats of a port from the frame of base index b on, one field cycle further. -/
def repeatsSent (p b : Nat) (s : State) : State :=
  { s with txn := { s.txn with repeats := s.txn.repeats.map fun r =>
      if r.port = p ∧ r.index ≤ b then { r with left := r.left - 1 } else r } }

/-- R377, R378, R380: the output frame of a port at a field headland. -/
def sendFrame (p : Nat) (s : State) : State :=
  let b := s.headIndex
  let cyc := if (s.fport p).frames = 0 then 0 else
    (if (s.reg (R.FIELD_p_CYCLE_NUM p)).toNat = 0xFFFFFFFE then 0 else (s.reg (R.FIELD_p_CYCLE_NUM p)).toNat + 1)
  let mine := s.txn.repeats.filter fun r => r.port = p ∧ r.index ≤ b ∧ 0 < r.left
  let decs := (List.range 64).flatMap fun i => (mine.filter fun r => r.slot = i).map fun r =>
    decisionRecord r.handle r.commit r.commitV
  let stg := stagesAt s p b
  let recs := decs ++ stg.map fun (i, n) => stageRecord s i p n
  let (l, wait) := placeRecords (s.get (R.FIELD_p_LIMITS p) F.FIELD_p_LIMITS.REC_RESERVE) recs
  let body := l.flatten
  let tab := sortedTable (s.stationTable p)
  let bytes := fun q => frameHead s q ++ padTo 46 (frameHeader s q 1 cyc s.headV tab.length body.length ++ body ++ tab.flatMap (slotEntry s p))
  let s1 := repeatsSent p b s
  let s2 := s1.forAll (stg.map (·.1)) fun i t => t.modTx i fun x => { x with staged := true }
  let s3 := s2.forAll tab fun c t =>
    (t.setStn p c.num { t.stn p c.num with good := none, pathA := false, pathB := false }).put (R.FIELD_p_s_STATUS p c.num)
      F.FIELD_p_s_STATUS.OUT_CONFIRMED 0
  let s4 := s3.addSat (R.FIELD_p_REC_OVF_CNT p) wait
  let s5 := s4.raiseIf (wait ≠ 0) R.FIELD_EVENTS F.FIELD_EVENTS.REC_OVERFLOW
  let go := fun q (t : State) =>
    ((t.setFport q { t.fport q with
      running := true, headland := b, frames := (t.fport q).frames + 1, origin := t.headRaw + 64
      lastOut := bytes q }).setReg (R.FIELD_p_CYCLE_NUM q) (BitVec.ofNat 32 cyc)).put (R.FIELD_p_STATUS q)
      F.FIELD_p_STATUS.RUNNING 1
  if s.paired p && pairOn s p then go (p + 1) (go p s5) else go p s5

/-- R377: the ports whose field headland is the last one send their frames. -/
def fieldSend (s : State) : State :=
  s.forAll (List.range 4) fun p t =>
    if t.flag (R.FIELD_p_CTRL p) F.FIELD_p_CTRL.EN ∧ t.headRun ∧ t.isFieldHeadland p t.headIndex ∧ t.tablePort p = p then
      portDone p (sendFrame p t)
    else t

/-- R215, R380: a decision frame of the transactions that a predicate selects, handed to a port. -/
def sendDecision (p : Nat) (v : Quad) (recs : List (List Byte)) (s : State) : State :=
  let body := recs.flatten
  let go := fun q (t : State) => t.setFport q { t.fport q with
    lastDec := frameHead t q ++ padTo 46 (frameHeader t q 2 0xFFFFFFFF v 0 body.length ++ body) }
  if s.paired p && pairOn s p then go (p + 1) (go p s) else go p s

/-! ### Replies (R382, R383, R211, R218 to R220) -/

/-- R220: the base index of the field headland whose frame had a cycle number, for the port's latest frame. -/
def cycleIndex (s : State) (p cycle : Nat) : Int :=
  (s.fport p).headland - (((s.reg (R.FIELD_p_CYCLE_NUM p)).toNat : Int) - cycle) % (2 ^ 32 - 1 : Int) * s.fcK p

/-- R215: the decision record of a transaction leaves a port's frames once every station of it there has acknowledged. -/
def repeatsAcked (p i : Nat) (s : State) : State :=
  if (s.tx i).parts.any fun q => q.kind = 4 ∧ q.id / 256 = p ∧ (q.outcome = 0 ∨ q.outcome = 3) then s
  else { s with txn := { s.txn with repeats := s.txn.repeats.filter fun r => ¬ (r.port = p ∧ r.slot = i) } }

/-- R218, R220, R221: an acknowledgement record. -/
def ackRecord (p n result txid cycle : Nat) (s : State) : State :=
  match s.txSlot txid with
  | none => s
  | some i =>
    match s.partOf i 4 (p * 256 + n) with
    | none => s
    | some k =>
      if ((s.tx i).parts[k]?).any fun q => q.outcome ≠ 0 then s
      else if (s.tx i).state = 3 ∧ ((s.tx i).applied ∨ result = 3) then
        let s1 :=
          if result = 1 then modPart i k (fun q => { q with outcome := 1, doubt := false }) s
          else if result = 2 then
            partLate i k (if cycle = 0xFFFFFFFF then 1 else (cycleIndex s p cycle - (s.tx i).at_ + 1).toNat) s
          else partUnsettled i k 4 s
        txFinish i (repeatsAcked p i s1)
      else if (s.tx i).state = 7 then repeatsAcked p i (modPart i k (fun q => { q with outcome := 5 }) s)
      else s

/-- R211, R218: a record of a good reply. -/
def replyRecord (p n : Nat) (r : ReplyRecord) (s : State) : State :=
  match r with
  | .vote yes txid _ =>
    match s.txSlot txid with
    | none => s
    | some i =>
      match s.partOf i 4 (p * 256 + n) with
      | none => s
      | some k => txVote i k yes 7 s
  | .ack result txid cycle => ackRecord p n result txid cycle s
  | .ident _ => s

/-- The ident record of a reply. -/
def replyIdent (l : List ReplyRecord) : Option Ident :=
  l.findSome? fun r => match r with
    | .ident i => some i
    | _ => none

/-- R386, R387, R388: the effect of a good reply on its station. -/
def goodReply (p : Nat) (c : StationCfg) (r : Reply) (s : State) : State :=
  let st := s.stnState p c.num
  let x := s.stn p c.num
  let s1 := ((s.putFlag (R.FIELD_p_s_STATUS p c.num) F.FIELD_p_s_STATUS.STN_SAFE (natBit r.status 3)).putFlag
    (R.FIELD_p_s_STATUS p c.num) F.FIELD_p_s_STATUS.WD_TRIPPED (natBit r.status 1)).put (R.FIELD_p_s_STATUS p c.num)
    F.FIELD_p_s_STATUS.OUT_CONFIRMED 1
  let s2 := s1.setStn p c.num { x with good := some (r.inputs, r.status), lastGood := some (s.fport p).headland }
  let s3 := s2.setAge (stnSource p c.num) (s.fport p).headland
  if natBit r.status 0 then
    if st = 2 then s3
    else s3.setStn p c.num { s3.stn p c.num with
      join := (replyIdent r.records).or x.join, dropped := x.dropped || decide (st = 3 ∨ st = 4) }
  else if st = 3 ∨ st = 4 then s3.putInputs (stnAddr p c.num) r.inputs
  else if st = 2 then s3.setStn p c.num { s3.stn p c.num with admitted := true, inputs := r.inputs }
  else s3

/-- R379: the arrival of a good reply: its offset from O, and whether it lies in its slot. -/
def replyArrival (p q : Nat) (c : StationCfg) (t : Quad) (s : State) : State :=
  let off := (t - (s.fport q).origin).toNat
  let s1 := s.setReg (R.FIELD_p_s_ARRIVAL p c.num) (BitVec.ofNat 32 (off % 2 ^ 24))
  if c.start ≤ off ∧ off < c.start + c.len then s1
  else s1.addFldSat (R.FIELD_p_s_COUNTS p c.num) F.FIELD_p_s_COUNTS.SLOT_ERR 1

/-- R383: a bad reply is counted. DEDUCED (assumption 182). -/
def badReply (q : Nat) (s : State) : State := s.incSat (R.FIELD_p_BAD_CNT q)

/-- R383, R389: a port's next field headland has come since its current output frame. -/
def frameOver (s : State) (p : Nat) : Bool := decide ((s.fport p).headland < s.headIndex) && s.isFieldHeadland p s.headIndex

/-- R383: a reply of a station known by the table and its address. -/
def knownReply (p q : Nat) (c : StationCfg) (t : Quad) (r : Reply) (s : State) : State :=
  if r.cycle ≠ (s.reg (R.FIELD_p_CYCLE_NUM q)).toNat ∨ ¬ (s.fport q).running ∨ frameOver s q = true ∨
      ¬ (r.inputs.length = c.inLen ∨ (natBit r.status 0 ∧ r.inputs.length = 0)) then badReply q s
  else
    let x := s.stn p c.num
    let s1 := s.setStn p c.num (if p = q then { x with pathA := true } else { x with pathB := true })
    if x.good.isSome then s1.incSat (R.FIELD_p_DUP_CNT q)
    else
      let s2 := goodReply p c r (replyArrival p q c t s1)
      s2.forAll r.records fun y u => replyRecord p c.num y u

/-- R383: a Treavo reply received at port q, its start-of-frame delimiter at raw grain t. -/
def treavoReply (q : Nat) (t : Quad) (r : Reply) (s0 : State) : State :=
  let s := s0.advanceTo t
  let p := s.tablePort q
  if ¬ r.fcs ∨ ¬ r.addressed ∨ ¬ r.formed then badReply q s
  else
    match s.station? p r.station with
    | none => ((s.incSat (R.FIELD_p_UNKNOWN_CNT q)).setReg (R.FIELD_p_UNKNOWN_MAC_LO q) (BitVec.ofNat 32 r.src)).setReg
        (R.FIELD_p_UNKNOWN_MAC_HI q) (BitVec.ofNat 32 (r.src / 2 ^ 32 % 65536))
    | some c =>
      if s.stnState p r.station = 0 ∨ (c.mac ≠ 0 ∧ c.mac ≠ r.src) then
        ((s.incSat (R.FIELD_p_UNKNOWN_CNT q)).setReg (R.FIELD_p_UNKNOWN_MAC_LO q) (BitVec.ofNat 32 r.src)).setReg
          (R.FIELD_p_UNKNOWN_MAC_HI q) (BitVec.ofNat 32 (r.src / 2 ^ 32 % 65536))
      else knownReply p q c t r s

/-- R376: an output or decision frame of another master arrives, or a frame of no kind that the port accepts (other).
DEDUCED (assumption 176). -/
def foreignMaster (p : Nat) (other : Bool) (s : State) : State :=
  if other then s.incSat (R.FIELD_p_OTHER_CNT p) else (s.incSat (R.FIELD_p_FOREIGN_CNT p)).raise R.FIELD_EVENTS F.FIELD_EVENTS.FOREIGN_MASTER

/-- R386: a write of FIELD_p_s_CTRL. -/
def stationServiceWrite (p n : Nat) (v : Word) (s : State) : State :=
  s.put (R.FIELD_p_s_CTRL p n) F.FIELD_p_s_CTRL.SERVICE (fldOf F.FIELD_p_s_CTRL.SERVICE v)

/-- R375: a write of FIELD_p_MDIO; with GO set it runs one access, whose read answers a value of the PHY.
DESIGN CHOICE (assumptions 19, 172). -/
def mdioWrite (p : Nat) (v : Word) (answer : BitVec 16) (s : State) : State :=
  let s1 := s.setReg (R.FIELD_p_MDIO p) (v &&& 0x07FFFFFF)
  if fldOf F.FIELD_p_MDIO.GO v = 1 ∧ fldOf F.FIELD_p_MDIO.WRITE v = 0 then
    s1.put (R.FIELD_p_MDIO p) F.FIELD_p_MDIO.DATA answer.toNat
  else s1

/-- R375: PHY register 1 read by a poll, with its bit 2. -/
def phyPoll (p : Nat) (link : Bool) (s : State) : State :=
  if s.flag (R.FIELD_p_CTRL p) F.FIELD_p_CTRL.POLL then
    let was := s.flag (R.FIELD_p_STATUS p) F.FIELD_p_STATUS.LINK
    (s.putFlag (R.FIELD_p_STATUS p) F.FIELD_p_STATUS.LINK link).raiseIf (was && !link) R.FIELD_EVENTS
      F.FIELD_EVENTS.LINK_DOWN
  else s

/-! ### The commands -/

/-- FIELD_CTRL_WRITE (R379, R410). -/
def execFieldCtrlWrite (p : Fin 4) (v : Word) (s : State) : Out := ok (fieldCtrlWrite p v s)
/-- TREAVO_REPLY (R383). -/
def execTreavoReply (p : Fin 4) (t : Quad) (r : Reply) (s : State) : Out := ok (treavoReply p t r s)
/-- FOREIGN_MASTER (R376). -/
def execForeignMaster (p : Fin 4) (other : Bool) (s : State) : Out := ok (foreignMaster p other s)
/-- STATION_SERVICE_WRITE (R386). -/
def execStationServiceWrite (p : Fin 4) (n : Fin 256) (v : Word) (s : State) : Out := ok (stationServiceWrite p n v s)
/-- MDIO_GO (R375). -/
def execMdioGo (p : Fin 4) (v : Word) (answer : BitVec 16) (s : State) : Out :=
  ok (mdioWrite p (setFldOf F.FIELD_p_MDIO.GO 1 v) answer s)
/-- PHY_POLL (R375). -/
def execPhyPoll (p : Fin 4) (link : Bool) (s : State) : Out := ok (phyPoll p link s)

end Sys2Proof.Machine
end

