-- ==== Sys2Proof/Machine/JoaBase.lean ====
section
/-! DEFINITION. Chapter 11: JOA sessions: responses, the end of a session, and the answer to a group write. -/

namespace Sys2Proof.Machine

/-! ### Access -/

/-- A session. -/
def State.session (s : State) (k : Nat) : JoaSession := tget JoaSession.free s.joa.sessions k
/-- A session, set. -/
def State.setSession (s : State) (k : Nat) (x : JoaSession) : State :=
  { s with joa := { s.joa with sessions := tset JoaSession.free s.joa.sessions k x } }
/-- A session, changed. -/
def State.modSession (s : State) (k : Nat) (f : JoaSession → JoaSession) : State := s.setSession k (f (s.session k))

/-- R438: status codes. -/
def stNoEntry : Nat := 1
/-- The device field names no reachable device. -/
def stNoDevice : Nat := 2
/-- The role may not do this. -/
def stAccess : Nat := 3
/-- The entry cannot be read. -/
def stNotReadable : Nat := 4
/-- The entry cannot be written this way. -/
def stNotWritable : Nat := 5
/-- The value's type differs. -/
def stType : Nat := 6
/-- The value is outside MIN to MAX. -/
def stRange : Nat := 7
/-- Wrong length. -/
def stLength : Nat := 8
/-- The answer does not fit MAX_PAYLOAD. -/
def stTooBig : Nat := 9
/-- A queue or limit is full. -/
def stBusy : Nat := 10
/-- Not allowed in the present state. -/
def stState : Nat := 11
/-- A remote device did not answer. -/
def stTimeout : Nat := 12
/-- A remote device refused. -/
def stRemote : Nat := 13
/-- Malformed body. -/
def stBadRequest : Nat := 14
/-- Transfer check failed. -/
def stCrc : Nat := 16
/-- Segment not at the expected offset. -/
def stOutOfOrder : Nat := 17
/-- The group write aborted. -/
def stTxn : Nat := 18
/-- No free subscription, transfer or item. -/
def stNoResource : Nat := 19
/-- The entry cannot be subscribed to. -/
def stNotSub : Nat := 20

/-- R437: the header of a response body. -/
def joaHead (op status req : Nat) : List Byte := leBytes 1 op ++ leBytes 1 status ++ leBytes 2 req

/-- R439: a response is kept and waits to be sent; its request is no longer in progress. DEDUCED (assumption 200). -/
def joaRespond (k req : Nat) (body : List Byte) (s : State) : State :=
  s.modSession k fun x =>
    let kept := x.kept ++ [(req, body)]
    { x with
      pend := x.pend.filter fun p => p.req ≠ req
      kept := kept.drop (kept.length - 16)
      queue := x.queue ++ [.body body] }

/-- R437: a response of a status alone, with what follows the header. -/
def joaAnswer (k op status req : Nat) (rest : List Byte) (s : State) : State := joaRespond k req (joaHead op status req ++ rest) s

/-- R439: a request of an open session, unless it is repeated or too many are in progress. DEDUCED (assumptions 178, 199). -/
def joaRequest (k op req : Nat) (f : State → State) (s : State) : State :=
  let x := s.session k
  if x.st ≠ 2 ∨ (x.pend.any fun p => p.req = req) then s
  else
    match x.kept.find? fun r => r.1 = req with
    | some (_, body) => s.setSession k { x with queue := x.queue ++ [.body body] }
    | none =>
      if 16 ≤ x.pend.length then s.setSession k { x with queue := x.queue ++ [.body (joaHead op stBusy req)] }
      else f s

/-- A request in progress added. -/
def joaPend (k : Nat) (p : JoaPend) (s : State) : State := s.modSession k fun x => { x with pend := x.pend ++ [p] }

/-! ### Group writes (R226, R444) -/

/-- R444: the response of a group write whose transaction is decided. -/
def groupBody (s : State) (p : JoaPend) : List Byte :=
  let x := s.tx p.slot
  let good : Bool := x.commit
  joaHead 0x13 (if good then 0 else stTxn) p.req ++ leBytes 2 (s.txHandle p.slot) ++ leBytes 2 p.bad ++ leBytes 4 (txStatus x) ++
    leBytes 8 (txFail x) ++ leBytes 8 x.at_ ++ leBytes 8 (if good then x.commitV.toNat else 0)

/-- R226: the group writes whose transactions are decided or aborted are answered. -/
def joaGroups (s : State) : State :=
  s.forAll (List.range 32) fun k t =>
    t.forAll ((t.session k).pend.filter fun p => p.op = 0x13 ∧ 3 ≤ (t.tx p.slot).state) fun p u => joaRespond k p.req (groupBody u p) u

/-! ### Transfers (R447) -/

/-- R447, R567: the result of an image slot. -/
def setImageResult (k r : Nat) (s : State) : State :=
  let w := (s.reg R.SEC_IMAGE_STATUS).toNat
  s.setReg R.SEC_IMAGE_STATUS (BitVec.ofNat 32 (w - w / 16 ^ k % 16 * 16 ^ k + r % 16 * 16 ^ k))

/-- R447: a transfer ends as an abort; its target stays invalid. -/
def xferAbort (n : Nat) (s : State) : State :=
  if s.joa.xfers.any fun x => x.num = n then
    ({ s with joa := { s.joa with xfers := s.joa.xfers.filter fun x => x.num ≠ n } }).raise R.JOA_EVENTS F.JOA_EVENTS.XFER_ABORTED
  else s

/-! ### The end of a session (R205, R436) -/

/-- R436: a session ends with a reason. DEDUCED (assumption 203). -/
def endSession (k reason : Nat) (s : State) : State :=
  if (s.session k).st = 0 then s
  else
    let was := (s.session k).st
    let slot := (s.session k).keySlot
    let mine := (List.range 64).filter fun i => (s.tx i).gen ≠ 0 ∧ (s.tx i).ownerKind = 2 ∧ (s.tx i).ownerId = k
    let s1 := s.setSession k { JoaSession.free with reason := reason, keySlot := slot }
    let s2 := s1.forAll (s1.joa.xfers.filter fun x => x.session = k) fun x t => xferAbort x.num t
    let s3 := s2.forAll mine fun i t => txDrop i t
    let key := 3 * k + 2
    let keep := fun (t : Tbl (Option Word)) => t.filter fun x => x.1 / 2 ^ 32 ≠ key
    let s4 : State := { s3 with
      joa := { s3.joa with
        subs := s3.joa.subs.filter fun x => x.session ≠ k
        proxies := s3.joa.proxies.filter fun x => x.session ≠ k }
      glean := if s3.glean.stream = some k then { s3.glean with stream := none } else s3.glean
      latch := keep s3.latch, group := keep s3.group, stage := keep s3.stage }
    let s5 := s4.setReg (R.JOA_s_INFO k) (BitVec.ofNat 32 (reason + 16 * (slot % 16)))
    if was = 2 then s5.raise R.JOA_EVENTS F.JOA_EVENTS.SESSION_CLOSED else s5

/-- R436, R574, R580: every session ends with a reason. -/
def endSessions (reason : Nat) (s : State) : State := s.forAll (List.range 32) fun k t => endSession k reason t

/-- R457: a write of JOA_s_CTRL. -/
def joaCtrlWrite (k : Nat) (v : Word) (s : State) : State :=
  if v.toNat / 65536 = 0x4A58 ∧ v.toNat % 2 = 1 then endSession k 3 s else s

end Sys2Proof.Machine
end

