-- ==== Sys2Proof/Machine/Legacy.lean ====
section
/-! DEFINITION. Chapter 10: the CANopen manager, the Modbus RTU master and GPIO. -/

namespace Sys2Proof.Machine

/-! ### CAN nodes (R393 to R398) -/

/-- A CAN port. -/
def State.can (s : State) (p : Nat) : CanPort := tget CanPort.idle s.field.can p
/-- A CAN port, set. -/
def State.setCan (s : State) (p : Nat) (x : CanPort) : State :=
  { s with field := { s.field with can := tset CanPort.idle s.field.can p x } }
/-- A node. -/
def State.node (s : State) (p n : Nat) : NodeSt := tget NodeSt.fresh s.field.nodes (p * 128 + n)
/-- A node, set. -/
def State.setNode (s : State) (p n : Nat) (x : NodeSt) : State :=
  { s with field := { s.field with nodes := tset NodeSt.fresh s.field.nodes (p * 128 + n) x } }
/-- The nodes of a port. -/
def State.nodeTable (s : State) (p : Nat) : List NodeCfg := tget [] s.image.nodes p
/-- A node's configuration. -/
def State.node? (s : State) (p n : Nat) : Option NodeCfg := (s.nodeTable p).find? fun c => c.node = n
/-- R413: a node's state. -/
def State.nodeState (s : State) (p n : Nat) : Nat := s.get (R.CAN_p_n_STATUS p n) ⟨0, 3⟩
/-- The image address of a node's first byte. -/
def nodeAddr (p n : Nat) : Nat := 3 * 2 ^ 32 + (p * 128 + n) * 256
/-- The source of a node's inputs. -/
def nodeSource (p n : Nat) : Nat := 3 * 2 ^ 32 + (p * 256 + n)

/-- A frame queued on a port. -/
def canQueue (p : Nat) (id : Nat) (bytes : List Byte) (s : State) : State :=
  s.setCan p { s.can p with queue := (s.can p).queue ++ [(id, bytes)] }

/-- R406: a change of a node's or slave's state is posted when its block's descriptor is enabled. -/
def statePost (d : Reg) (p n st : Nat) (s : State) : State :=
  hwPostCfg (s.reg d) (BitVec.ofNat 64 (p + 256 * n + 65536 * st)) s

/-- A node put into a state: its quality, its substitute values, and the post. -/
def setNodeState (p : Nat) (c : NodeCfg) (st : Nat) (s : State) : State :=
  if s.nodeState p c.node = st then s
  else
    let s1 := statePost R.CAN_EVT_DESC p c.node st (s.put (R.CAN_p_n_STATUS p c.node) ⟨0, 3⟩ st)
    if st = 2 ∨ st = 3 then s1.setQual (nodeSource p c.node) 1
    else substitute (s1.setQual (nodeSource p c.node) 2) (nodeAddr p c.node) c.tpdos.sum c.subst c.fixed

/-- R395: booting starts at step 1. -/
def nodeBoot (p : Nat) (c : NodeCfg) (s : State) : State :=
  let s1 := setNodeState p c 1 s
  let s2 := s1.setNode p c.node { s1.node p c.node with boot := .wait, idents := [], got := 0 }
  if c.resetComm then canQueue p 0 [0x82, BitVec.ofNat 8 c.node] s2 else s2

/-- R396: a node becomes LOST. -/
def nodeLost (p : Nat) (c : NodeCfg) (s : State) : State :=
  let s1 := setNodeState p c 4 (s.setNode p c.node { s.node p c.node with boot := .retry, got := 0 })
  s1.raise R.CAN_EVENTS F.CAN_EVENTS.NODE_LOST

/-- R395: a node becomes REFUSED, with a refusal code. -/
def nodeRefused (p : Nat) (c : NodeCfg) (code : Nat) (s : State) : State :=
  let s1 := setNodeState p c 5 (s.setNode p c.node { s.node p c.node with boot := .retry })
  (s1.put (R.CAN_p_n_STATUS p c.node) ⟨8, 3⟩ code).raise R.CAN_EVENTS F.CAN_EVENTS.REFUSED

/-- R394: base index b is a CAN cycle headland of the port. -/
def State.isCanHeadland (s : State) (p b : Nat) : Bool :=
  ((b : Int) - s.get (R.CAN_p_CYCLE p) F.CAN_p_CYCLE.CC_PHASE) % (s.get (R.CAN_p_CYCLE p) F.CAN_p_CYCLE.CC_K + 1 : Nat) = 0

/-- R396: one node judged at a CAN cycle headland: a synchronous TPDO that is absent counts as a miss. DEDUCED (assumption 20). -/
def nodeJudge (p : Nat) (c : NodeCfg) (s : State) : State :=
  let x := s.node p c.node
  let st := s.nodeState p c.node
  let s1 := s.setNode p c.node { x with got := 0 }
  if st ≠ 2 ∧ st ≠ 3 then s1
  else if (List.range c.tpdos.length).all (natBit x.got) then
    setNodeState p c 2 (s1.put (R.CAN_p_n_STATUS p c.node) ⟨4, 4⟩ 0)
  else
    let n := min 15 (s.get (R.CAN_p_n_STATUS p c.node) ⟨4, 4⟩ + 1)
    let s2 := (s1.put (R.CAN_p_n_STATUS p c.node) ⟨4, 4⟩ n).addFldSat (R.CAN_p_n_COUNTS p c.node) ⟨16, 16⟩ 1
    if max 1 (s.get (R.CAN_p_CTRL p) F.CAN_p_CTRL.LOST_LIMIT) ≤ n then nodeLost p c s2 else setNodeState p c 3 s2

/-- R396: the nodes of a port judged at a CAN cycle headland, before the snapshot cut. -/
def canJudge (p : Nat) (s : State) : State :=
  if s.flag (R.CAN_p_CTRL p) F.CAN_p_CTRL.EN then s.forAll (s.nodeTable p) fun c t => nodeJudge p c t else s

/-- R394: the COB-ID of an RPDO: of the image, or the default of CiA 301. -/
def rpdoId (c : NodeCfg) (i : Nat) : Nat :=
  match c.cobs[i]? with
  | some (k + 1) => k + 1
  | _ => 0x200 + 0x100 * i + c.node

/-- R394: the RPDOs of a node, from the sealed image. -/
def nodeRpdos (s : State) (p : Nat) (c : NodeCfg) : List (Nat × List Byte) :=
  (c.rpdos.foldl (fun (acc : List (Nat × List Byte) × Nat × Nat) n =>
    (acc.1 ++ [(rpdoId c acc.2.1, imgBytes s.img.sealed (nodeAddr p c.node + acc.2.2) n)],
      acc.2.1 + 1, acc.2.2 + n)) ([], 0, 0)).1

/-- R394: at H + 64 of a CAN cycle headland a port queues SYNC and the RPDOs of every OPERATIONAL node. -/
def canCycle (p : Nat) (s : State) : State :=
  if s.flag (R.CAN_p_CTRL p) F.CAN_p_CTRL.EN ∧ s.headRun ∧ s.isCanHeadland p s.headIndex ∧ ¬ s.portsSilent then
    let s1 := s.advanceTo (s.headRaw + 64)
    let nodes := (List.range 128).filterMap fun n => (s.node? p n).filter fun _ => s.nodeState p n = 2
    portDone (4 + p) (s1.setCan p { s1.can p with queue := (0x080, []) :: nodes.flatMap (nodeRpdos s1 p) })
  else s

/-- R395: the SDO that a booting node runs next: 0x1018 sub-indices 1 to 3, then the SDO list, then NMT start. -/
def nodeBootNext (p : Nat) (c : NodeCfg) (b : BootStep) (s : State) : State :=
  match b with
  | .sdo i =>
    if i < c.sdos.length then s.setNode p c.node { s.node p c.node with boot := .sdo i }
    else canQueue p 0 [1, BitVec.ofNat 8 c.node] (s.setNode p c.node { s.node p c.node with boot := .start })
  | b => s.setNode p c.node { s.node p c.node with boot := b }

/-- R395: the identity of a booting node against the image, as REFUSE codes it. -/
def nodeIdent (c : NodeCfg) (l : List Nat) : Nat :=
  match l with
  | [v, pr, r] => if v ≠ c.vendor then 3 else if pr ≠ c.product then 4 else if r < c.revision then 5 else 0
  | _ => 3

/-- R395: an SDO of the boot of a node ends. DEDUCED (assumption 26). -/
def bootSdoEnd (p : Nat) (c : NodeCfg) (e : SdoEnd) (s : State) : State :=
  let x := s.node p c.node
  match x.boot, e with
  | .ident i, .success b =>
    let l := x.idents ++ [leNat (b.take 4)]
    let s1 := s.setNode p c.node { x with idents := l }
    if i < 3 then nodeBootNext p c (.ident (i + 1)) s1
    else if nodeIdent c l = 0 then nodeBootNext p c (.sdo 0) s1
    else nodeRefused p c (nodeIdent c l) s1
  | .sdo i, .success _ => nodeBootNext p c (.sdo (i + 1)) s
  | .ident _, .abort code => nodeRefused p c 0 (s.setReg (R.CAN_p_SDO_RESULT p) (BitVec.ofNat 32 code))
  | .sdo _, .abort code => nodeRefused p c 0 (s.setReg (R.CAN_p_SDO_RESULT p) (BitVec.ofNat 32 code))
  | .ident _, .timeout => s.setNode p c.node { x with boot := .retry }
  | .sdo _, .timeout => s.setNode p c.node { x with boot := .retry }
  | _, _ => s

/-- R391, R395 to R398: a CAN frame of a node is received. DEDUCED (assumption 21). -/
def canFrameRx (p n : Nat) (m : CanMsg) (s : State) : State :=
  match s.node? p n, m with
  | none, _ => s.incSat (R.CAN_p_RX_DROP_CNT p)
  | _, .other => s.incSat (R.CAN_p_RX_DROP_CNT p)
  | some c, .bootUp =>
    if s.nodeState p n = 1 ∧ (s.node p n).boot = .wait then nodeBootNext p c (.ident 1) s
    else if s.nodeState p n = 2 ∨ s.nodeState p n = 3 then nodeLost p c s
    else s
  | some c, .heartbeat st =>
    if (s.nodeState p n = 2 ∨ s.nodeState p n = 3) ∧ st ≠ 5 then nodeLost p c s else s
  | some _, .emcy b =>
    let s1 := (s.setReg (R.CAN_p_n_EMCY_LO p n) (BitVec.ofNat 32 (leNat (b.take 4)))).setReg (R.CAN_p_n_EMCY_HI p n)
      (BitVec.ofNat 32 (leNat ((b.drop 4).take 4)))
    (s1.addFldSat (R.CAN_p_n_COUNTS p n) F.CAN_p_n_COUNTS.EMCY 1).raise R.CAN_EVENTS F.CAN_EVENTS.EMCY
  | some c, .tpdo i b =>
    if c.tpdos.length ≤ i then s.incSat (R.CAN_p_RX_DROP_CNT p)
    else
      let x := s.node p n
      let a := nodeAddr p n + (c.tpdos.take i).sum
      let s1 := (s.setNode p n { x with got := natSetBit x.got i }).setAge (nodeSource p n) s.headIndex
      let k := (c.tpdos[i]?).getD 0
      let put := fun (t : State) => t.putInputs a (padTo k (b.take k))
      if s.nodeState p n = 2 ∨ s.nodeState p n = 3 then put s1
      else if s.nodeState p n = 1 ∧ x.boot = .start then
        put (setNodeState p c 2 (s1.setNode p n { s1.node p n with boot := .idle }))
      else s1

/-- R395: BOOT_MS passes without the boot-up message. -/
def nodeBootTimeout (p n : Nat) (s : State) : State :=
  if s.nodeState p n = 1 ∧ (s.node p n).boot = .wait then s.setNode p n { s.node p n with boot := .retry } else s

/-- R395, R396: RETRY_MS passes, and the manager boots a node again. -/
def nodeRetry (p n : Nat) (s : State) : State :=
  match s.node? p n with
  | none => s
  | some c => if (s.node p n).boot = .retry then nodeBoot p c s else s

/-- R396: no heartbeat within HB_MS. -/
def heartbeatTimeout (p n : Nat) (s : State) : State :=
  match s.node? p n with
  | none => s
  | some c => if c.hbMs ≠ 0 ∧ (s.nodeState p n = 2 ∨ s.nodeState p n = 3) then nodeLost p c s else s

/-- R396: a port goes bus-off. -/
def busOff (p : Nat) (s : State) : State :=
  ((s.put (R.CAN_p_STATUS p) ⟨0, 2⟩ 2).incSat (R.CAN_p_BUSOFF_CNT p)).raise R.CAN_EVENTS F.CAN_EVENTS.BUS_OFF

/-- R396: a bus-off port is error-active again, with its error counters at 0. -/
def busOffRecovered (p : Nat) (s : State) : State :=
  if s.get (R.CAN_p_STATUS p) ⟨0, 2⟩ = 2 then s.setReg (R.CAN_p_STATUS p) 0 else s

/-- The bytes of a port's SDO buffer. DEDUCED (assumption 206). -/
def sdoBuf (s : State) (p n : Nat) : List Byte :=
  ((List.range 256).flatMap fun w => leBytes 4 (s.reg (R.CAN_p_SDO_BUF_w p w)).toNat).take n

/-- Bytes written into a port's SDO buffer. -/
def setSdoBuf (p : Nat) (b : List Byte) (s : State) : State :=
  s.forAll (List.range ((b.length + 3) / 4)) fun w t =>
    t.setReg (R.CAN_p_SDO_BUF_w p w) (BitVec.ofNat 32 (leNat ((b.drop (4 * w)).take 4)))

/-- R397: a write of CAN_p_SDO_CMD. -/
def sdoCmdWrite (p : Nat) (v : Word) (s : State) : State :=
  if fldOf F.CAN_p_SDO_CMD.KEY v ≠ 0x4A58 then s
  else if (s.can p).sdo.isSome then s.raise R.CAN_EVENTS F.CAN_EVENTS.CFG_REFUSED
  else
    let a := (s.reg (R.CAN_p_SDO_ADDR p)).toNat
    let down : Bool := natBit v.toNat 8
    let n := (s.reg (R.CAN_p_SDO_LEN p)).toNat % 2048
    let run : SdoRun := ⟨0, v.toNat % 128, a % 65536, a / 65536 % 256, down, if down then sdoBuf s p n else []⟩
    (s.setCan p { s.can p with sdo := some run }).setReg (R.CAN_p_SDO_BUSY p) 1

/-- R397: the host's SDO of a port ends; a proxy's ends by PROXY_COMPLETE. -/
def sdoEnd (p : Nat) (e : SdoEnd) (s : State) : State :=
  match (s.can p).sdo with
  | none => s
  | some r =>
    let s1 := (s.setCan p { s.can p with sdo := none }).setReg (R.CAN_p_SDO_BUSY p) 0
    if r.source ≠ 0 then s
    else
      match e with
      | .success b =>
        let s2 := s1.setReg (R.CAN_p_SDO_RESULT p) 0
        if r.download then s2 else (setSdoBuf p b s2).setReg (R.CAN_p_SDO_LEN p) (BitVec.ofNat 32 (min 1024 b.length))
      | .abort c => s1.setReg (R.CAN_p_SDO_RESULT p) (BitVec.ofNat 32 c)
      | .timeout => s1.setReg (R.CAN_p_SDO_RESULT p) 0xFFFFFFFF

/-- R395, R397: an SDO ends: the boot of a node's, or the host's. -/
def sdoComplete (p : Nat) (node : Option (Fin 128)) (e : SdoEnd) (s : State) : State :=
  match node with
  | none => sdoEnd p e s
  | some n =>
    match s.node? p n with
    | none => s
    | some c => bootSdoEnd p c e s

/-- R413: a write of CAN_p_CTRL; other fields than EN change only while EN is 0. Setting EN starts the port and stops its generator
(R654). DEDUCED (assumptions 175, 216). -/
def canCtrlWrite (p : Nat) (v : Word) (s : State) : State :=
  let was := s.flag (R.CAN_p_CTRL p) F.CAN_p_CTRL.EN
  let en := fldOf F.CAN_p_CTRL.EN v = 1
  let v1 := (if fldOf F.CAN_p_CTRL.LOST_LIMIT v = 0 then setFldOf F.CAN_p_CTRL.LOST_LIMIT 1 v else v) &&& 0xF0007
  if was ∧ (v1 &&& 0xF0006) ≠ (s.reg (R.CAN_p_CTRL p) &&& 0xF0006) then s.raise R.CAN_EVENTS F.CAN_EVENTS.CFG_REFUSED
  else
    let s1 := s.setReg (R.CAN_p_CTRL p) v1
    if en ∧ ¬ was then
      genPortSet (4 + p) (s1.forAll (s1.nodeTable p) fun c t => nodeBoot p c t)
    else s1

/-! ### Modbus (R399 to R402) -/

/-- A serial port. -/
def State.ser (s : State) (p : Nat) : SerPort := tget SerPort.idle s.field.ser p
/-- A serial port, set. -/
def State.setSer (s : State) (p : Nat) (x : SerPort) : State :=
  { s with field := { s.field with ser := tset SerPort.idle s.field.ser p x } }
/-- A slave. -/
def State.slave (s : State) (p n : Nat) : SlaveSt := tget SlaveSt.fresh s.field.slaves (p * 256 + n)
/-- A slave, set. -/
def State.setSlave (s : State) (p n : Nat) (x : SlaveSt) : State :=
  { s with field := { s.field with slaves := tset SlaveSt.fresh s.field.slaves (p * 256 + n) x } }
/-- The poll list of a port. -/
def State.polls (s : State) (p : Nat) : List PollEntry := tget [] s.image.polls p
/-- A slave's configuration. -/
def State.slave? (s : State) (p n : Nat) : Option SlaveCfg := (tget [] s.image.slaves p).find? fun c => c.slave = n
/-- R414: a slave's state, 2 OPERATIONAL, 3 STALE, 4 LOST. -/
def State.slaveState (s : State) (p n : Nat) : Nat := s.get (R.SER_p_s_STATUS p n) ⟨0, 3⟩
/-- The image address of a slave's element. -/
def slaveAddr (p n e : Nat) : Nat := 4 * 2 ^ 32 + (p * 256 + n) * 2048 + 2 * e
/-- The source of a slave's inputs. -/
def slaveSource (p n : Nat) : Nat := 4 * 2 ^ 32 + (p * 256 + n)

/-- The size of a slave's mapped input image in bytes, from its poll entries that read. -/
def slaveBytes (s : State) (p n : Nat) : Nat :=
  (s.polls p).foldl (fun m e => if e.slave = n ∧ e.func ≠ 5 ∧ e.func ≠ 6 ∧ e.func ≠ 15 ∧ e.func ≠ 16 then
    max m (2 * (e.elem + (if e.func ≤ 2 then (e.qty + 15) / 16 else e.qty))) else m) 0

/-- A slave put into a state: its quality, its substitute values, and the post. -/
def setSlaveState (p n st : Nat) (s : State) : State :=
  if s.slaveState p n = st then s
  else
    let s1 := statePost R.SER_EVT_DESC p n st (s.put (R.SER_p_s_STATUS p n) ⟨0, 3⟩ st)
    if st = 4 then
      let s2 := s1.setQual (slaveSource p n) 2
      match s.slave? p n with
      | some c => substitute s2 (slaveAddr p n 0) (slaveBytes s p n) c.subst c.fixed
      | none => s2
    else s1.setQual (slaveSource p n) 1

/-- n bytes of a number, most significant first. -/
def beBytes (n v : Nat) : List Byte := (leBytes n v).reverse

/-- Elements of an image as Modbus registers, most significant byte first. -/
def regsOut (m : Tbl Byte) (a n : Nat) : List Byte :=
  (List.range n).flatMap fun i => [tget 0 m (a + 2 * i + 1), tget 0 m (a + 2 * i)]

/-- Modbus registers as bytes of elements. -/
def regsIn : List Byte → List Byte
  | h :: l :: t => l :: h :: regsIn t
  | _ => []

/-- R399, R400: the request of a poll entry, without its CRC. -/
def pollRequest (m : Tbl Byte) (p : Nat) (e : PollEntry) : List Byte :=
  let a := slaveAddr p e.slave e.elem
  [BitVec.ofNat 8 e.slave, BitVec.ofNat 8 e.func] ++ beBytes 2 e.start ++
    match e.func with
    | 5 => if natBit (tget 0 m a).toNat 0 then [0xFF, 0] else [0, 0]
    | 6 => regsOut m a 1
    | 15 => beBytes 2 e.qty ++ [BitVec.ofNat 8 ((e.qty + 7) / 8)] ++ imgBytes m a ((e.qty + 7) / 8)
    | 16 => beBytes 2 e.qty ++ [BitVec.ofNat 8 (2 * e.qty)] ++ regsOut m a e.qty
    | 23 => beBytes 2 e.qty ++ beBytes 2 e.wstart ++ beBytes 2 e.wqty ++ [BitVec.ofNat 8 (2 * e.wqty)] ++
        regsOut m (slaveAddr p e.slave e.welem) e.wqty
    | _ => beBytes 2 e.qty

/-- R401: the request of the current entry is sent, for the first time or again. -/
def serSend (p i tries : Nat) (s : State) : State :=
  match (s.polls p)[i]? with
  | none => s
  | some e =>
    let s1 := s.setSer p { s.ser p with
      entry := i, tries := tries, turn := e.slave = 0, request := pollRequest (s.ser p).image p e }
    s1.put (R.SER_p_STATUS p) ⟨8, 8⟩ i

/-- R401: a scan starts. -/
def scanStart (p : Nat) (s : State) : State :=
  if s.polls p = [] then s
  else
    let s1 := s.setSer p { SerPort.idle with scanning := true, startRaw := s.raw, image := s.img.sealed }
    serSend p 0 0 (s1.put (R.SER_p_STATUS p) F.SER_p_STATUS.SCANNING 1)

/-- The slaves of a port's poll list. -/
def State.polled (s : State) (p : Nat) : List Nat := (List.range 248).filter fun n => n ≠ 0 ∧ (s.polls p).any fun e => e.slave = n

/-- R402: one slave judged at the end of a scan: all of its entries failed, or one was OK. -/
def slaveJudge (p n : Nat) (s : State) : State :=
  if (s.ser p).okSlaves.contains n then s.setSlave p n { s.slave p n with failed := 0 }
  else
    let f := (s.slave p n).failed + 1
    let s1 := s.setSlave p n { s.slave p n with failed := f }
    if s.slaveState p n ≠ 4 ∧ max 1 (s.get (R.SER_p_TIMING p) F.SER_p_TIMING.LOST_LIMIT) ≤ f then
      (setSlaveState p n 4 s1).raise R.SER_EVENTS F.SER_EVENTS.SLAVE_LOST
    else if s.slaveState p n = 4 then s1
    else setSlaveState p n 3 s1

/-- R401, R402: a scan ends; an overrun one is followed at once. DEDUCED (assumption 175). -/
def scanEnd (p : Nat) (s : State) : State :=
  let s1 := s.forAll (s.polled p) fun n t => slaveJudge p n t
  let s2 := s1.setReg (R.SER_p_SCAN_TIME p) (BitVec.ofNat 32 ((s.raw - (s.ser p).startRaw).toNat / 1024))
  let s3 := portDone (8 + p) ((s2.setSer p { s2.ser p with scanning := false, again := false }).put (R.SER_p_STATUS p)
    F.SER_p_STATUS.SCANNING 0)
  if (s.ser p).again then scanStart p s3 else s3

/-- R401: the scan goes on with the next entry, or ends. -/
def serNext (p : Nat) (s : State) : State :=
  let i := (s.ser p).entry + 1
  if i < (s.polls p).length then serSend p i 0 s else scanEnd p s

/-- R401: base index b is a serial cycle headland of the port. -/
def State.isSerHeadland (s : State) (p b : Nat) : Bool :=
  ((b : Int) - s.get (R.SER_p_CYCLE p) F.SER_p_CYCLE.SC_PHASE) % (s.get (R.SER_p_CYCLE p) F.SER_p_CYCLE.SC_K + 1 : Nat) = 0

/-- R401: at H + 64 of a serial cycle headland a scan starts, or an overrun is counted. -/
def serialScan (p : Nat) (s : State) : State :=
  if s.flag (R.SER_p_CTRL p) F.SER_p_CTRL.EN ∧ s.headRun ∧ s.isSerHeadland p s.headIndex ∧ ¬ s.portsSilent then
    let s1 := s.advanceTo (s.headRaw + 64)
    if (s.ser p).scanning then
      ((s1.setSer p { s1.ser p with again := true }).incSat (R.SER_p_SCAN_OVR p)).raise R.SER_EVENTS F.SER_EVENTS.SCAN_OVR
    else scanStart p s1
  else s

/-- R402: a read's data enters the slave's image. -/
def pollData (p : Nat) (e : PollEntry) (d : List Byte) (s : State) : State :=
  let a := slaveAddr p e.slave e.elem
  match e.func with
  | 1 => s.putInputs a (padTo (2 * ((e.qty + 15) / 16)) (d.take ((e.qty + 7) / 8)))
  | 2 => s.putInputs a (padTo (2 * ((e.qty + 15) / 16)) (d.take ((e.qty + 7) / 8)))
  | 3 => s.putInputs a (regsIn (d.take (2 * e.qty)))
  | 4 => s.putInputs a (regsIn (d.take (2 * e.qty)))
  | 23 => s.putInputs a (regsIn (d.take (2 * e.qty)))
  | _ => s

/-- R402: the current entry ends OK. -/
def entryOk (p : Nat) (e : PollEntry) (d : List Byte) (s : State) : State :=
  let x := s.ser p
  let s1 := s.setSer p { x with okSlaves := e.slave :: x.okSlaves }
  let s2 := (s1.put (R.SER_p_s_STATUS p e.slave) ⟨4, 3⟩ 0).setSlave p e.slave
    { s1.slave p e.slave with everOk := true, failed := 0 }
  let s3 := pollData p e d (setSlaveState p e.slave 2 s2)
  serNext p (if e.func = 5 ∨ e.func = 6 ∨ e.func = 15 ∨ e.func = 16 then s3
    else s3.setAge (slaveSource p e.slave) s3.headIndex)

/-- R402: the current entry ends with a failure: 1 TIMEOUT, 2 CRC, 3 MALFORMED, 4 EXCEPTION. -/
def entryFail (p : Nat) (e : PollEntry) (k : Nat) (s : State) : State :=
  let s1 := (s.put (R.SER_p_s_STATUS p e.slave) ⟨4, 3⟩ k).addFldSat (R.SER_p_s_COUNTS p e.slave) ⟨0, 16⟩ 1
  serNext p s1

/-- R401: a failed request is retried RETRIES times. -/
def requestFail (p : Nat) (e : PollEntry) (k : Nat) (s : State) : State :=
  if (s.ser p).tries < s.get (R.SER_p_TIMING p) F.SER_p_TIMING.RETRIES then serSend p (s.ser p).entry ((s.ser p).tries + 1) s
  else entryFail p e k s

/-- R402: a Modbus response completes. DEDUCED (assumption 22). -/
def modbusResponse (p : Nat) (r : ModbusEnd) (s : State) : State :=
  match (s.polls p)[(s.ser p).entry]? with
  | none => s
  | some e =>
    if ¬ (s.ser p).scanning ∨ (s.ser p).turn then s
    else
      match r with
      | .good d => entryOk p e d s
      | .crc => requestFail p e 2 s
      | .malformed => requestFail p e 3 s
      | .exception c =>
        requestFail p e 4 ((s.put (R.SER_p_s_STATUS p e.slave) ⟨8, 8⟩ c).addFldSat (R.SER_p_s_COUNTS p e.slave) ⟨16, 16⟩ 1)

/-- R401: no response begins within RESP_MS. -/
def modbusTimeout (p : Nat) (s : State) : State :=
  match (s.polls p)[(s.ser p).entry]? with
  | none => s
  | some e => if ¬ (s.ser p).scanning ∨ (s.ser p).turn then s else requestFail p e 1 s

/-- R401: TURN_MS passes after a broadcast write. -/
def broadcastTurnaround (p : Nat) (s : State) : State :=
  if (s.ser p).scanning ∧ (s.ser p).turn then serNext p (s.setSer p { s.ser p with turn := false }) else s

/-- R414: a write of SER_p_CTRL; clearing EN ends the scan. DEDUCED (assumption 175). -/
def serCtrlWrite (p : Nat) (v : Word) (s : State) : State :=
  let was := s.flag (R.SER_p_CTRL p) F.SER_p_CTRL.EN
  let s1 := s.setReg (R.SER_p_CTRL p) (v &&& 0xF)
  if was ∧ fldOf F.SER_p_CTRL.EN v = 0 then (s1.setSer p SerPort.idle).put (R.SER_p_STATUS p) F.SER_p_STATUS.SCANNING 0 else s1

/-- R395, R402: BOOT_MS after a port starts, nodes or slaves that are not operational are missing. -/
def bootMsMissing (serial : Bool) (p : Nat) (s : State) : State :=
  if serial then
    s.raiseIf ((tget [] s.image.slaves p).any fun c => !(s.slave p c.slave).everOk) R.SER_EVENTS F.SER_EVENTS.MISSING
  else
    s.raiseIf ((s.nodeTable p).any fun c => s.nodeState p c.node ≠ 2 ∧ s.nodeState p c.node ≠ 3) R.CAN_EVENTS
      F.CAN_EVENTS.MISSING

/-! ### The network of an image (R379, R390, R393, R394, R399, R400, R407) -/

/-- R391: the payload length of an FD frame that carries n bytes. -/
def fdLen (n : Nat) : Nat := if n ≤ 8 then n else ([12, 16, 20, 24, 32, 48, 64].find? fun k => n ≤ k).getD 64

/-- R394: the longest time a frame of n bytes takes on a port, in eighths of a grain, with its stuff bits and the intermission.
PRESUMED (assumption 246). -/
def canFrameTime (s : State) (p n : Nat) (sync : Bool) : Nat :=
  let nb := s.get (R.CAN_p_NBIT p) F.CAN_p_NBIT.BITLEN
  let c := s.reg (R.CAN_p_CTRL p)
  if sync ∨ fldOf F.CAN_p_CTRL.FD c = 0 then (47 + 8 * n + (33 + 8 * n) / 4) * nb
  else
    let k := fdLen n
    let db := if fldOf F.CAN_p_CTRL.BRS c = 1 then s.get (R.CAN_p_DBIT p) F.CAN_p_NBIT.BITLEN else nb
    34 * nb + (5 + 8 * k + (5 + 8 * k) / 4 + 4 + (if k ≤ 16 then 23 else 28)) * db

/-- R393, R394: the nodes of a port are within the manager's subset, and their frames of one cycle within 80% of the CAN cycle. -/
def nodesOk (s : State) (p : Nat) : Bool :=
  let l := s.nodeTable p
  let most := if s.flag (R.CAN_p_CTRL p) F.CAN_p_CTRL.FD then 64 else 8
  let sizes := l.flatMap fun c => c.tpdos ++ c.rpdos
  let load := canFrameTime s p 0 true + (sizes.map fun n => canFrameTime s p n false).sum
  l.isEmpty || (sizes.all (fun n => n ≤ most) && decide (10 * load ≤ 64 * ((s.get (R.CAN_p_CYCLE p) F.CAN_p_CYCLE.CC_K + 1) * s.pg)) &&
    l.all fun c => decide (1 ≤ c.node ∧ c.node ≤ 127 ∧ c.tpdos.length ≤ 4 ∧ c.rpdos.length ≤ 4 ∧ c.tpdos.sum ≤ 256 ∧ c.rpdos.sum ≤ 256))

/-- R399, R400: the poll list of a port holds at most 256 entries of the functions and slaves that the master has. -/
def pollsOk (s : State) (p : Nat) : Bool :=
  decide ((s.polls p).length ≤ 256) && (s.polls p).all fun e => [1, 2, 3, 4, 5, 6, 15, 16, 23].contains e.func && decide (e.slave ≤ 247) &&
    (decide (e.slave ≠ 0) || [5, 6, 15, 16].contains e.func)

/-- R379, R390: the station tables pass under the settings in force, and the pairs are equal. -/
def stationTablesOk (s : State) : Bool :=
  (List.range 4).all fun p => (decide (s.stationTable p = []) || tableOk s p (s.reg (R.FIELD_p_CTRL p))) &&
    pairOk s p (s.reg (R.FIELD_p_CTRL p)) (s.reg (R.FIELD_p_CYCLE p))

/-- R385, R395, R407: the stations, nodes and slaves of an image that becomes active: WAITING, BOOTING and STALE, with their inputs. -/
def networkStart (s : State) : State :=
  s.forAll (List.range 4) fun p t =>
    let t1 := t.forAll (t.stationTable p) fun c u =>
      substitute (u.setQual (stnSource p c.num) 2) (stnAddr p c.num) c.inLen c.subst c.fixed
    let t2 := t1.forAll (t1.nodeTable p) fun c u =>
      substitute ((u.put (R.CAN_p_n_STATUS p c.node) ⟨0, 3⟩ 1).setQual (nodeSource p c.node) 2) (nodeAddr p c.node) c.tpdos.sum c.subst c.fixed
    t2.forAll (t2.polled p) fun n u => (u.put (R.SER_p_s_STATUS p n) ⟨0, 3⟩ 3).setQual (slaveSource p n) 1

/-! ### GPIO (R403 to R405) -/

/-- R404: the filtered level of a pin. -/
def State.level (s : State) (i : Nat) : Bool := natBit s.field.filt i

/-- R405: an edge channel posts a change of its pin. -/
def edgeChannel (i : Nat) (lv : Bool) (e : Nat) (s : State) : State :=
  let w := s.reg (R.GPIO_e_EVT e)
  let k := fldOf F.GPIO_e_EVT.EDGE w
  if fldOf F.GPIO_e_EVT.PIN w = i ∧ (k = 3 ∨ (k = 1 ∧ lv) ∨ (k = 2 ∧ ¬ lv)) then
    { s with collie := { s.collie with hwPosts := s.collie.hwPosts ++
      [⟨fldOf F.GPIO_e_EVT.DESC w, BitVec.ofNat 64 (i + 256 * b2n lv), some (s.raw, s.vT64)⟩] } }
  else s

/-- R23: the first PERIPH edge at or after a raw grain. -/
def periphFrom (g : Quad) : Quad := BitVec.ofNat 64 ((g.toNat + 31) / 32 * 32)

/-- R404, R121: a pin's filtered level changes at a PERIPH edge: the input, the latch of each class, the edge channels.
DESIGN CHOICE (assumption 23). -/
def gpioChange (i : Nat) (lv : Bool) (t : Quad) (s0 : State) : State :=
  let s := s0.advanceTo (periphFrom (if t.toNat < s0.raw.toNat then s0.raw else t))
  if s.level i = lv then s
  else
    let f := if lv then natSetBit s.field.filt i else natClrBit s.field.filt i
    let s1 := { s with field := { s.field with filt := f }
                       inputs := tset 0 s.inputs i (if lv then 1 else 0) }
    let s2 := s1.forAll (List.range 4) fun n u =>
      { u with pulses := tset 0 u.pulses (n * 192 + i) (natSetBit (tget 0 u.pulses (n * 192 + i)) (if lv then 0 else 1)) }
    s2.forAll (List.range 16) fun e u => edgeChannel i lv e u

/-- R416: a write of GPIO_e_EVT. -/
def gpioEvtWrite (e : Nat) (v : Word) (s : State) : State :=
  if 191 < fldOf F.GPIO_e_EVT.PIN v ∧ fldOf F.GPIO_e_EVT.PIN v ≠ 255 then s.raise R.GPIO_EVENTS F.GPIO_EVENTS.CFG_REFUSED
  else s.setReg (R.GPIO_e_EVT e) (v &&& 0x3FFFFF)

/-! ### The commands -/

/-- CAN_CYCLE (R394). -/
def execCanCycle (p : Fin 4) (s : State) : Out := ok (canCycle p s)
/-- CAN_FRAME_RX (R391, R395 to R398). -/
def execCanFrameRx (p : Fin 4) (n : Fin 128) (m : CanMsg) (s : State) : Out := ok (canFrameRx p n m s)
/-- NODE_BOOT_TIMEOUT (R395). -/
def execNodeBootTimeout (p : Fin 4) (n : Fin 128) (s : State) : Out := ok (nodeBootTimeout p n s)
/-- NODE_RETRY (R395, R396). -/
def execNodeRetry (p : Fin 4) (n : Fin 128) (s : State) : Out := ok (nodeRetry p n s)
/-- HEARTBEAT_TIMEOUT (R396). -/
def execHeartbeatTimeout (p : Fin 4) (n : Fin 128) (s : State) : Out := ok (heartbeatTimeout p n s)
/-- BUS_OFF (R396). -/
def execBusOff (p : Fin 4) (s : State) : Out := ok (busOff p s)
/-- BUS_OFF_RECOVERED (R396). -/
def execBusOffRecovered (p : Fin 4) (s : State) : Out := ok (busOffRecovered p s)
/-- SDO_UPLOAD (R397): a write of CAN_p_SDO_CMD for a node with bit 8 at 0. -/
def execSdoUpload (p : Fin 4) (n : Fin 128) (s : State) : Out := ok (sdoCmdWrite p (keyed n) s)
/-- SDO_DOWNLOAD (R397): a write of CAN_p_SDO_CMD for a node with bit 8 at 1. -/
def execSdoDownload (p : Fin 4) (n : Fin 128) (s : State) : Out := ok (sdoCmdWrite p (keyed (n + 256)) s)
/-- SDO_COMPLETE (R395, R397). -/
def execSdoComplete (p : Fin 4) (node : Option (Fin 128)) (e : SdoEnd) (s : State) : Out := ok (sdoComplete p node e s)
/-- SERIAL_SCAN (R401). -/
def execSerialScan (p : Fin 4) (s : State) : Out := ok (serialScan p s)
/-- MODBUS_RESPONSE (R402). -/
def execModbusResponse (p : Fin 4) (r : ModbusEnd) (s : State) : Out := ok (modbusResponse p r s)
/-- MODBUS_TIMEOUT (R401). -/
def execModbusTimeout (p : Fin 4) (s : State) : Out := ok (modbusTimeout p s)
/-- BROADCAST_TURNAROUND (R401). -/
def execBroadcastTurnaround (p : Fin 4) (s : State) : Out := ok (broadcastTurnaround p s)
/-- BOOT_MS_MISSING (R395, R402). -/
def execBootMsMissing (serial : Bool) (p : Fin 4) (s : State) : Out := ok (bootMsMissing serial p s)
/-- GPIO_FILTERED_CHANGE (R404, R405, R121). -/
def execGpioFilteredChange (i : Fin 192) (lv : Bool) (t : Quad) (s : State) : Out := ok (gpioChange i lv t s)

end Sys2Proof.Machine
end

