-- ==== Sys2Proof/Machine/Motion.lean ====
section
/-! DEFINITION. Chapter 9: axis engines, the drill, the planner, homing, encoders and choppers. -/

namespace Sys2Proof.Machine

/-! ### Access -/

/-- An axis engine. -/
def State.axis (s : State) (n : Nat) : Axis := tget Axis.idle s.motion.axes n
/-- An axis engine, set. -/
def State.setAxis (s : State) (n : Nat) (a : Axis) : State :=
  { s with motion := { s.motion with axes := tset Axis.idle s.motion.axes n a } }
/-- R362: the state of an engine: 0 DISABLED, 1 IDLE, 2 MOVING, 3 STOPPING, 4 HOMING, 5 FAULT. -/
def State.axState (s : State) (n : Nat) : Nat := s.get (R.AXIS_n_STATUS n) F.AXIS_n_STATUS.STATE
/-- The state set, with MOVING. -/
def setAxState (n st : Nat) (s : State) : State :=
  (s.put (R.AXIS_n_STATUS n) F.AXIS_n_STATUS.STATE st).putFlag (R.AXIS_n_STATUS n) F.AXIS_n_STATUS.MOVING
    (decide (2 ≤ st ∧ st ≤ 4))
/-- POS. -/
def State.pos (s : State) (n : Nat) : Int := (s.reg64 (R.AXIS_n_POS_LO n) (R.AXIS_n_POS_HI n)).toInt
/-- The greatest position. -/
def posMax : Int := 2 ^ 47 - 1
/-- R331: a position outside its range is none that the spec states: a free one within it. DESIGN CHOICE (assumption 243). -/
def posWithin (free : Nat) (x : Int) : Int :=
  if x ≤ posMax ∧ -posMax ≤ x then x else max (-posMax) ((Config.freeQuad free).truncate 48).toInt
/-- POS, set. -/
def State.setPos (s : State) (n : Nat) (x : Int) : State :=
  ({ s with free := if x ≤ posMax ∧ -posMax ≤ x then s.free else s.free + 1 }).setReg64 (R.AXIS_n_POS_LO n) (R.AXIS_n_POS_HI n)
    (BitVec.ofInt 64 (posWithin s.free x))
/-- TARGET (R336). -/
def State.target (s : State) (n : Nat) : Int := (s.reg64 (R.AXIS_n_TARGET_LO n) (R.AXIS_n_TARGET_HI n)).toInt
/-- TARGET, set. -/
def State.setTarget (s : State) (n : Nat) (x : Int) : State :=
  s.setReg64 (R.AXIS_n_TARGET_LO n) (R.AXIS_n_TARGET_HI n) (BitVec.ofInt 64 x)
/-- VEL. -/
def State.vel (s : State) (n : Nat) : Int := (s.reg64 (R.AXIS_n_VEL_LO n) (R.AXIS_n_VEL_HI n)).toInt
/-- VEL, set, with DIR_NEG. -/
def State.setVel (s : State) (n : Nat) (x : Int) : State :=
  (s.setReg64 (R.AXIS_n_VEL_LO n) (R.AXIS_n_VEL_HI n) (BitVec.ofInt 64 x)).putFlag (R.AXIS_n_STATUS n)
    F.AXIS_n_STATUS.DIR_NEG (decide (x < 0))
/-- A status bit of an axis. -/
def State.axFlag (s : State) (n : Nat) (f : Fld) : Bool := s.flag (R.AXIS_n_STATUS n) f
/-- A status bit of an axis, set to a truth value. -/
def State.putAx (s : State) (n : Nat) (f : Fld) (b : Bool) : State := s.putFlag (R.AXIS_n_STATUS n) f b
/-- An event of an axis. -/
def State.axEvent (s : State) (n : Nat) (f : Fld) : State := s.raise (R.AXIS_n_EVENTS n) f

/-- R337, R342: the limits as the registers give them. -/
def State.regLimits (s : State) (n : Nat) : AxisLimits :=
  ⟨(s.reg64 (R.AXIS_n_VMAX_LO n) (R.AXIS_n_VMAX_HI n)).toNat, (s.reg (R.AXIS_n_ACCEL n)).toNat,
    (s.reg (R.AXIS_n_DECEL n)).toNat, (s.reg (R.AXIS_n_JERK n)).toNat, (s.reg (R.AXIS_n_VCREEP n)).toNat⟩

/-- R342: the limits in force since the last tick boundary. -/
def State.limits (s : State) (n : Nat) : AxisLimits := (s.axis n).lim.getD (s.regLimits n)

/-- R342: limits of which some are held. -/
def mergeLimits (held : Nat) (old new : AxisLimits) : AxisLimits :=
  ⟨if natBit held 0 then old.vmax else new.vmax, if natBit held 1 then old.accel else new.accel,
    if natBit held 2 then old.decel else new.decel, if natBit held 3 then old.jerk else new.jerk,
    if natBit held 4 then old.vcreep else new.vcreep⟩

/-- R348: the soft limits. -/
def State.softMin (s : State) (n : Nat) : Int :=
  if s.flag (R.AXIS_n_LIMIT_CFG n) F.AXIS_n_LIMIT_CFG.SOFT_EN then
    (s.reg64 (R.AXIS_n_SOFT_MIN_LO n) (R.AXIS_n_SOFT_MIN_HI n)).toInt
  else -posMax
/-- R348: the soft limits. -/
def State.softMax (s : State) (n : Nat) : Int :=
  if s.flag (R.AXIS_n_LIMIT_CFG n) F.AXIS_n_LIMIT_CFG.SOFT_EN then
    (s.reg64 (R.AXIS_n_SOFT_MAX_LO n) (R.AXIS_n_SOFT_MAX_HI n)).toInt
  else posMax

/-- A named pin's filtered level, active under a polarity; pin 255 is never active. -/
def State.pinActive (s : State) (pin : Nat) (low : Bool) : Bool := decide (pin < 192) && (s.level pin != low)

/-- R347: a hard limit is active. -/
def State.limitActive (s : State) (n : Nat) (positive : Bool) : Bool :=
  let c := s.reg (R.AXIS_n_LIMIT_CFG n)
  s.pinActive (fldOf (if positive then F.AXIS_n_LIMIT_CFG.LIM_POS_PIN else F.AXIS_n_LIMIT_CFG.LIM_NEG_PIN) c)
    (fldOf F.AXIS_n_LIMIT_CFG.LIM_POL c = 1)

/-- R349: the home switch is active. -/
def State.homeActive (s : State) (n : Nat) : Bool :=
  let c := s.reg (R.AXIS_n_LIMIT_CFG n)
  s.pinActive (fldOf F.AXIS_n_LIMIT_CFG.HOME_PIN c) (fldOf F.AXIS_n_LIMIT_CFG.HOME_POL c = 1)

/-! ### The drill (R331, R332, R340) -/

/-- R331: POS × 2^40 + f. -/
def State.xRaw (s : State) (n : Nat) : Int := s.pos n * 2 ^ 40 + (s.axis n).f

/-- R331: the exact position x in units of 2^-40 microstep. -/
def State.xPos (s : State) (n : Nat) : Int := s.xRaw n - 2 ^ 39

/-- R340: the target stop is armed. -/
def State.armed (s : State) (n : Nat) : Bool :=
  let d := s.target n * 2 ^ 40 - s.xPos n
  decide ((s.axis n).goal = .approach) && decide ((s.vel n).natAbs ≤ (s.limits n).vcreep) &&
    decide (s.vel n ≠ 0) && decide ((s.vel n).sign = d.sign)

/-- R342: at a tick boundary the registers come into force, but for the limits held. -/
def refreshLimits (n : Nat) (s : State) : State :=
  s.setAxis n { s.axis n with lim := some (mergeLimits (s.axis n).held (s.limits n) (s.regLimits n)) }

/-- R332: of k additions of v to x, the one at which the position came to be p. -/
def stepEdge (x v p : Int) : Nat :=
  if 0 < v then ((p * 2 ^ 40 - x + v - 1) / v).toNat else ((x - (p + 1) * 2 ^ 40) / -v + 1).toNat

/-- POS and f set from a value of POS × 2^40 + f, with the MOTION edge of the last step; the chopper scale returns to I_MOVE with a
step (R354). DESIGN CHOICE (assumption 32). -/
def setRaw (n : Nat) (x : Int) (edge : Nat) (s : State) : State :=
  let p := x / 2 ^ 40
  let s1 := s.setAxis n { s.axis n with f := (x % 2 ^ 40).toNat }
  if p = s.pos n then s1
  else
    let s2 := (s1.setPos n p).setAxis n { s1.axis n with lastStep := BitVec.ofNat 64 (8 * edge) }
    if n % 16 < 6 then
      let c := n / 16 * 6 + n % 16
      let ch := tget Chopper.start s2.motion.choppers c
      { s2 with motion := { s2.motion with choppers := tset Chopper.start s2.motion.choppers c { ch with scale := none, ramped := none } } }
    else s2

/-- R340: the engine stands exactly at TARGET until the next boundary. -/
def targetStop (n edge : Nat) (s : State) : State :=
  let s1 := setRaw n (s.target n * 2 ^ 40 + 2 ^ 39) edge s
  (s1.setVel n 0).setAxis n { s1.axis n with goal := .reached, acc := 0, rem := 0 }

/-- R332: the drill has made its addition at every MOTION edge below a number of them. -/
def drillTo (n e : Nat) (s : State) : State :=
  let a := s.axis n
  if e ≤ a.edges then s
  else
    let k := e - a.edges
    let x := s.xRaw n + s.vel n * k
    let p := x / 2 ^ 40
    let hit : Bool := s.armed n &&
      ((decide (0 < s.vel n) && decide (s.target n ≤ p)) || (decide (s.vel n < 0) && decide (p ≤ s.target n)))
    let s1 := s.setAxis n { a with edges := e }
    let at_ (q : Int) : Nat := a.edges + stepEdge (s.xRaw n) (s.vel n) q - 1
    if hit then targetStop n (at_ (s.target n)) s1 else setRaw n x (at_ p) s1

/-- The drill up to and with the present MOTION edge. -/
def drillNow (n : Nat) (s : State) : State := drillTo n (s.raw.toNat / 8 + 1) s

/-! ### Stops and faults (R343 to R345) -/

/-- R344, R350: the pulses stop; a STOP_NOW in a HOME leaves POS_LOST as it was. DEDUCED (assumption 244). -/
def pulseStop (n : Nat) (keep : Bool) (s0 : State) : State :=
  let s := drillNow n s0
  let lost := s.vel n ≠ 0 ∧ keep = false
  let s1 := (s.setVel n 0).setAxis n { s.axis n with acc := 0, rem := 0, homing := none, soft := false }
  let s2 := (s1.setTarget n (s1.pos n)).setReg64 (R.AXIS_n_STOP_POS_LO n) (R.AXIS_n_STOP_POS_HI n)
    (BitVec.ofInt 64 (s1.pos n))
  let s3 := (s2.putAx n F.AXIS_n_STATUS.APPROACH false)
  if lost then
    ((s3.putAx n F.AXIS_n_STATUS.POS_LOST true).axEvent n F.AXIS_n_EVENTS.POS_LOST).setAxis n
      { s3.axis n with checked := false }
  else s3

/-- R344: STOP_NOW: a vote is withdrawn (R346), the pulses of a moving engine stop, and it is IDLE at the next boundary. -/
def stopNow (n : Nat) (s0 : State) : State :=
  let s := txAxisFault n s0
  if s.axState n = 2 ∨ s.axState n = 3 ∨ s.axState n = 4 then
    let s1 := pulseStop n (decide (s.axState n = 4)) s
    s1.setAxis n { s1.axis n with goal := .halt }
  else s

/-- R344: a fault: the pulses stop, and the engine is in FAULT with a cause. -/
def axisFault (n cause : Nat) (s : State) : State :=
  let s1 := pulseStop n false (txAxisFault n s)
  let s2 := s1.setAxis n { s1.axis n with goal := .none_, held := 0 }
  ((setAxState n 5 s2).put (R.AXIS_n_STATUS n) F.AXIS_n_STATUS.FAULT_CAUSE cause).axEvent n F.AXIS_n_EVENTS.FAULT

/-- R339, R348: a move or stop ends: IDLE, with DONE, and with SOFT_LIMIT at a soft limit. -/
def axisDone (n : Nat) (s : State) : State :=
  let s1 := s.setAxis n { s.axis n with goal := .none_, acc := 0, rem := 0, held := 0, soft := false }
  let s2 := if (s.axis n).soft then s1.putAx n F.AXIS_n_STATUS.SOFT_LIMIT true else s1
  (((setAxState n 1 s2).putAx n F.AXIS_n_STATUS.DONE true).putAx n F.AXIS_n_STATUS.APPROACH false).axEvent n
    F.AXIS_n_EVENTS.DONE

/-- R345: a controller stop at its grain D: STOP_NOW to every axis, and STOP_HOLD on every enabled one. -/
def axesStop (s : State) : State :=
  s.forAll (List.range 64) fun n t =>
    let t1 := stopNow n t
    if t1.axState n = 0 then t1 else t1.putAx n F.AXIS_n_STATUS.STOP_HOLD true

/-- R345: STOP_HOLD clears on every axis. -/
def axesRelease (s : State) : State := s.forAll (List.range 64) fun n t => t.putAx n F.AXIS_n_STATUS.STOP_HOLD false

/-! ### Braking distance (R339) -/

/-- A natural number divided by a power of two, in F64. -/
def f64Scaled (x : Int) (p : Nat) : Nat := fdiv fmt64 (fofI fmt64 x) (fofI fmt64 (2 ^ p))

/-- R339: 3v/1024, evaluated from left to right. -/
def margin (v : Nat) : Nat := fdiv fmt64 (fmul fmt64 (fofI fmt64 3) v) (fofI fmt64 1024)

/-- R339: the braking distance b as an F64. -/
def brakeDist (s : State) (n : Nat) : Nat :=
  let l := s.limits n
  let add := fadd fmt64
  let sub := fsub fmt64
  let mul := fmul fmt64
  let div := fdiv fmt64
  let two := fofI fmt64 2
  let v := f64Scaled (s.vel n).natAbs 23
  let a := f64Scaled ((s.axis n).acc * (s.vel n).sign) 29
  let d := f64Scaled l.decel 13
  let j := f64Scaled l.jerk 19
  if l.jerk = 0 then add (div (mul v v) (mul two d)) (margin v)
  else
    let pos := flt fmt64 0 a
    let t0 := div a j
    let v1 := if pos then add v (div (mul a a) (mul two j)) else v
    let s0 := if pos then
        sub (add (mul v t0) (div (mul (mul a t0) t0) two)) (div (mul (mul (mul j t0) t0) t0) (fofI fmt64 6))
      else 0
    let s1 := if fle fmt64 (div (mul d d) j) v1 then div (mul v1 (add (div v1 d) (div d j))) two
      else mul v1 (fsqrt fmt64 (div v1 j))
    add (add s0 s1) (margin v)

/-- A length in units of 2^-40 microstep is at most an F64 number of microsteps. -/
def distLe (d : Int) (b : Nat) : Bool :=
  if fisNan fmt64 b then false
  else
    match ftoI fmt64 (fmul fmt64 b (fofI fmt64 (2 ^ 40))) with
    | some x => decide (d ≤ x)
    | none => true

/-- A length in units of 2^-40 microstep is less than an F64 number of microsteps. -/
def distLt (d : Int) (b : Nat) : Bool :=
  let m := fmul fmt64 b (fofI fmt64 (2 ^ 40))
  if fisNan fmt64 b then false else flt fmt64 (fofI fmt64 d) m

/-! ### Commands (R334 to R336) -/

/-- R335: a refused command. -/
def axisRefuse (n reason : Nat) (s : State) : State :=
  ((s.put (R.AXIS_n_STATUS n) F.AXIS_n_STATUS.LAST_REFUSAL reason).axEvent n F.AXIS_n_EVENTS.REFUSED).incSat
    (R.AXIS_n_REFUSED_CNT n)

/-- R346: a transaction with a YES vote of the axis that has not reached T_H: whether it carries SET_POS. -/
def State.txnPending (s : State) (n : Nat) : Option Bool :=
  let slots := (List.range 64).filter fun i =>
    ((s.tx i).state = 2 ∨ ((s.tx i).state = 3 ∧ ¬ (s.tx i).applied)) ∧
      (s.tx i).parts.any fun p => p.kind = 2 ∧ p.id = n ∧ p.vote = 1
  let waits := (s.axis n).queue.filter fun c => c.src = .txn
  if slots = [] ∧ waits = [] then none
  else some ((slots.any fun i => (s.tx i).actions.any fun a => a.kind = 5 ∧ a.target = n ∧ a.axisCmd = 6) ||
    waits.any fun c => decide (c.cmd = 6))

/-- R336, R346: the reason to refuse a position target, or 0. -/
def targetCheck (s : State) (n : Nat) (t : Int) : Nat :=
  if posMax < t ∨ t < -posMax then 5 else if t < s.softMin n ∨ s.softMax n < t then 4 else 0

/-- R347: a motion in a direction begins towards an active limit. -/
def towardsLimit (s : State) (n : Nat) (d : Int) : Bool :=
  (decide (0 < d) && s.limitActive n true) || (decide (d < 0) && s.limitActive n false)

/-- R342, R362: what a new motion command clears; limits held come into force. -/
def clearMove (n : Nat) (s : State) : State :=
  let s1 := s.setReg (R.AXIS_n_STATUS n) (s.reg (R.AXIS_n_STATUS n) &&& 0xFFFFFBC5)
  (s1.setAxis n { s1.axis n with held := 0, lim := some (s1.regLimits n), soft := false }).putAx n F.AXIS_n_STATUS.APPROACH false

/-- R339, R340: a position move from standstill. -/
def moveFromRest (n : Nat) (s : State) : State :=
  if s.pos n = s.target n then axisDone n (s.setAxis n { s.axis n with f := 2 ^ 39 })
  else setAxState n 2 (s.setAxis n { s.axis n with goal := .travel, acc := 0, rem := 0 })

/-- R341: a position target taken while v ≠ 0: a reversal, or a move on. -/
def moveOn (n : Nat) (s : State) : State :=
  let d := s.target n * 2 ^ 40 - s.xPos n
  let b := brakeDist s n
  let v := f64Scaled (s.vel n).natAbs 23
  let rev : Bool := decide (d.sign ≠ (s.vel n).sign) || distLt d.natAbs (fsub fmt64 b (margin v))
  setAxState n 2 (s.setAxis n { s.axis n with goal := if rev then .reverse else .travel })

/-- R336: a move to a checked target takes effect. -/
def moveTo (n : Nat) (t : Int) (s : State) : State :=
  let s1 := (clearMove n s).setTarget n t
  if s1.vel n = 0 then moveFromRest n s1 else moveOn n s1

/-- R339: STOPPING. -/
def brakeTo (n cause : Nat) (s : State) : State :=
  setAxState n 3 (s.setAxis n { s.axis n with goal := .stop cause, homing := none, soft := false })

/-- R343: STOP_DECEL by the engine's state. -/
def cmdStopDecel (n : Nat) (s : State) : State :=
  if s.axState n = 2 ∨ s.axState n = 4 then brakeTo n 0 s else s

/-- R336: the velocity word of a MOVE_VEL, within VMAX. -/
def velArg (s : State) (n : Nat) (w : Int) : Int := clampInt (-(s.limits n).vmax) (s.limits n).vmax w

/-- R336: MOVE_VEL; a velocity of 0 stops as STOP_DECEL does. -/
def cmdVel (n : Nat) (w : Int) (s : State) : State :=
  let wc := velArg s n w
  let s1 := if wc = w then s else s.axEvent n F.AXIS_n_EVENTS.CLAMPED
  if wc = 0 then cmdStopDecel n s1
  else
    let s2 := clearMove n s1
    setAxState n 2 (s2.setAxis n { s2.axis n with goal := .velocity wc })

/-- R336: SET_POS. -/
def cmdSetPos (n : Nat) (p : Int) (s : State) : State :=
  let s1 := ((s.setPos n p).setTarget n p).setAxis n { s.axis n with f := 2 ^ 39 }
  let e := s.reg (R.AXIS_n_ENC_CFG n)
  if ¬ s.axFlag n F.AXIS_n_STATUS.POS_LOST ∧ fldOf F.AXIS_n_ENC_CFG.CHECK e = 1 then
    let m := fldOf F.AXIS_n_ENC_CFG.ENC e
    s1.setAxis n { s1.axis n with ref := some (p, (s.reg64 (R.ENC_m_COUNT_LO m) (R.ENC_m_COUNT_HI m)).toInt) }
  else s1

/-- R349: a completed HOME, with POS as it then is. -/
def homeDone (n : Nat) (p : Int) (s : State) : State :=
  let e := s.reg (R.AXIS_n_ENC_CFG n)
  let m := fldOf F.AXIS_n_ENC_CFG.ENC e
  let cnt := (s.reg64 (R.ENC_m_COUNT_LO m) (R.ENC_m_COUNT_HI m)).toInt
  let s0 := s.setPos n p
  let s1 := s0.setTarget n (s0.pos n)
  let s2 := s1.setAxis n { s1.axis n with
    homing := none, ref := if fldOf F.AXIS_n_ENC_CFG.CHECK e = 1 then some (s0.pos n, cnt) else (s1.axis n).ref }
  let s3 := (s2.putAx n F.AXIS_n_STATUS.HOMED true).putAx n F.AXIS_n_STATUS.POS_LOST false
  axisDone n (s3.axEvent n F.AXIS_n_EVENTS.HOMED)

/-- HOME_OFS. -/
def State.homeOfs (s : State) (n : Nat) : Int := (s.reg64 (R.AXIS_n_HOME_OFS_LO n) (R.AXIS_n_HOME_OFS_HI n)).toInt

/-- R336, R349: HOME. -/
def cmdHome (n mode : Nat) (s : State) : State :=
  let s1 := (clearMove n s).putAx n F.AXIS_n_STATUS.HOMED false
  if mode % 4 = 3 then homeDone n (s.homeOfs n) (s1.setAxis n { s1.axis n with f := 2 ^ 39 })
  else
    setAxState n 4 (s1.setAxis n { s1.axis n with
      goal := .none_, acc := 0, rem := 0, homing := some ⟨mode % 4, natBit mode 2, .search, 0, s.pos n⟩ })

/-- R335: the refusal that the engine's state gives a command, or 0. DEDUCED (assumption 181). -/
def stateRefusal (st cmd : Nat) : Nat :=
  if cmd = 3 ∨ cmd = 4 then 0
  else if st = 0 then 1
  else if st = 5 then 2
  else if cmd ≤ 2 then (if st = 4 then 3 else 0)
  else if st = 1 then 0 else 3

/-- R346: what a pending transaction refuses: HOME and SET_POS, and motion when it carries SET_POS. -/
def txnRefuses (s : State) (n cmd : Nat) : Bool :=
  match s.txnPending n with
  | none => false
  | some sp => decide (cmd = 5 ∨ cmd = 6) || (sp && decide (cmd ≤ 2))

/-- R336, R347: the refusal that its argument and the limits give a command, or 0. -/
def argRefusal (s : State) (n cmd : Nat) (arg : Quad) : Nat :=
  let move (t : Int) : Nat :=
    if targetCheck s n t ≠ 0 then targetCheck s n t else if towardsLimit s n (t * 2 ^ 40 - s.xPos n) then 6 else 0
  let mode := arg.toNat % 2 ^ 32
  match cmd with
  | 0 => move arg.toInt
  | 1 => move (s.target n + arg.toInt)
  | 2 => if towardsLimit s n (velArg s n arg.toInt) then 6 else 0
  | 5 => if 8 ≤ mode then 5 else if mode % 4 ≠ 3 ∧ towardsLimit s n (if natBit mode 2 then -1 else 1) then 6 else 0
  | 6 => if posMax < arg.toInt ∨ arg.toInt < -posMax then 5 else 0
  | _ => 0

/-- The effect of an accepted command. -/
def cmdEffect (n cmd : Nat) (arg : Quad) (s : State) : State :=
  match cmd with
  | 0 => moveTo n arg.toInt s
  | 1 => moveTo n (s.target n + arg.toInt) s
  | 2 => cmdVel n arg.toInt s
  | 3 => cmdStopDecel n s
  | 4 => stopNow n s
  | 5 => cmdHome n (arg.toNat % 2 ^ 32) s
  | 6 => cmdSetPos n arg.toInt s
  | _ => s

/-- What becomes of a command at its boundary. -/
inductive CmdFate where
  | takes | refused (reason : Nat) | superseded
deriving DecidableEq, Repr

/-- R335, R345, R346: a command takes effect, is refused or is superseded. DESIGN CHOICE (assumption 28). -/
def cmdFate (s : State) (n : Nat) (c : AxisCmd) : CmdFate :=
  let st := s.axState n
  let hold := s.axFlag n F.AXIS_n_STATUS.STOP_HOLD
  let checked : CmdFate := if argRefusal s n c.cmd c.arg ≠ 0 then .refused (argRefusal s n c.cmd c.arg) else .takes
  if c.src = .txn ∧ c.cmd = 6 then checked
  else if c.src = .txn ∧ (hold ∨ st = 5) then .superseded
  else if c.src = .task ∧ hold then .refused 8
  else if stateRefusal st c.cmd ≠ 0 then .refused (stateRefusal st c.cmd)
  else if c.src ≠ .txn ∧ txnRefuses s n c.cmd then .refused 7
  else checked

/-- R334: AXIS_n_CMD_V takes the virtual time of the boundary of a command that takes effect. -/
def cmdNote (n : Nat) (c : AxisCmd) (s : State) : State :=
  s.setReg64 (R.AXIS_n_CMD_V_LO n) (R.AXIS_n_CMD_V_HI n) (BitVec.ofInt 64 (s.vAt c.due))

/-- A command at its boundary. -/
def cmdApply (n : Nat) (c : AxisCmd) (s : State) : State :=
  match cmdFate s n c with
  | .takes => cmdEffect n c.cmd c.arg (cmdNote n c s)
  | .refused r => axisRefuse n r s
  | .superseded => s.axEvent n F.AXIS_n_EVENTS.TXN_SUPERSEDED

/-- R334: the oldest command of an axis takes effect at its tick boundary when it is the one named. DESIGN CHOICE (assumption 27). -/
def cmdTake (n cmd : Nat) (s : State) : State :=
  match (s.axis n).queue with
  | [] => s
  | c :: rest =>
    if c.cmd ≠ cmd then s
    else
      let s1 := s.advanceTo c.due
      cmdApply n c (refreshLimits n (drillTo n (s1.raw.toNat / 8) (s1.setAxis n { s1.axis n with queue := rest })))

/-- R334, R344: a STOP_NOW acts as it arrives; the commands of the same boundary that arrived before it act no more.
DESIGN CHOICE (assumption 27). -/
def stopNowTake (n : Nat) (s : State) : State :=
  let q := (s.axis n).queue
  match q.dropWhile fun c => c.cmd ≠ 4 with
  | [] => s
  | c :: rest =>
    cmdApply n c (s.setAxis n { s.axis n with
      queue := ((q.takeWhile fun x => x.cmd ≠ 4).filter fun x => x.due ≠ c.due) ++ rest })

/-- The first tick boundary at or after a raw grain. -/
def tickFrom (g : Quad) : Quad := BitVec.ofNat 64 ((g.toNat + 1023) / 1024 * 1024)

/-- R334: the boundary of a command that reaches its engine at a grain and acts at the first boundary from another on; a STOP_NOW has
its state at the next one. -/
def cmdDue (cmd : Nat) (arrives acts : Quad) : Quad := if cmd = 4 then tickFrom (arrives + 1) else tickFrom acts

/-- R334: a command joins an axis's queue, in the order of the boundaries and, at one boundary, of the arrivals. -/
def axisQueue (n : Nat) (c : AxisCmd) (s : State) : State :=
  let before := fun (x : AxisCmd) => decide (x.due.toNat ≤ c.due.toNat)
  s.setAxis n { s.axis n with queue := (s.axis n).queue.takeWhile before ++ c :: (s.axis n).queue.dropWhile before }

/-- R360: a write of AXIS_n_CMD. -/
def axisCmdWrite (n : Nat) (v : Word) (s : State) : State :=
  let cmd := fldOf F.AXIS_n_CMD.CMD v
  if fldOf F.AXIS_n_CMD.KEY v ≠ 0x4A58 ∨ cmd = 7 then s
  else axisQueue n ⟨.host, cmd, s.reg64 (R.AXIS_n_ARG_LO n) (R.AXIS_n_ARG_HI n), cmdDue cmd s.raw (s.raw + 64)⟩ s

/-- R92, R334: at a headland the AXCMDs of the classes due reach their engines. -/
def axisHeadland (s : State) : State :=
  let due := s.motion.waits.filter fun w => natBit s.head.classDue w.cls
  let s1 := { s with motion := { s.motion with waits := s.motion.waits.filter fun w => ¬ natBit s.head.classDue w.cls } }
  s1.forAll due fun w t => axisQueue w.axis ⟨.task, w.cmd, w.arg, cmdDue w.cmd t.headRaw (t.headRaw + 128)⟩ t

/-- R209, R346: the vote of an axis on a command of a transaction. -/
def axisVote (s : State) (n cmd : Nat) (arg : Quad) : Bool :=
  let st := s.axState n
  s.flag (R.AXIS_n_CTRL n) F.AXIS_n_CTRL.EN && ! s.axFlag n F.AXIS_n_STATUS.STOP_HOLD &&
    decide (st = 1 ∨ ((st = 2 ∨ st = 3) ∧ cmd ≠ 6)) &&
    decide (cmd ≠ 0 ∨ targetCheck s n arg.toInt = 0) && decide (cmd ≠ 1 ∨ targetCheck s n (s.target n + arg.toInt) = 0)

/-! ### The planner (R337 to R341, R348 to R350) -/

/-- R338: one update of VEL towards vg. -/
def planVel (n : Nat) (vg : Int) (s : State) : State :=
  let l := s.limits n
  let v := s.vel n
  let up := (v = 0 ∨ vg.sign = v.sign) ∧ v.natAbs < vg.natAbs
  let lim : Int := if up then l.accel else l.decel
  let clampV := clampInt (-l.vmax) l.vmax
  if l.jerk = 0 then
    (s.setVel n (clampV (v + clampInt (-lim) lim (vg - v)))).setAxis n { s.axis n with acc := 0, rem := 0 }
  else
    let a := (s.axis n).acc
    let taper := a.sign = (vg - v).sign ∧ (vg - v).natAbs * 131072 * l.jerk ≤ a.natAbs * a.natAbs
    let ag : Int := if taper then 0 else (vg - v).sign * lim * 65536
    let a' := a + clampInt (-l.jerk) l.jerk (ag - a)
    let q := a' + (s.axis n).rem
    let v' := v + q / 65536
    let passed := (v < vg ∧ vg ≤ v') ∨ (vg < v ∧ v' ≤ vg) ∨ (v = vg ∧ v' ≠ vg)
    if passed then (s.setVel n (clampV vg)).setAxis n { s.axis n with acc := 0, rem := 0 }
    else (s.setVel n (clampV v')).setAxis n { s.axis n with acc := a', rem := q % 65536 }

/-- v and A are both 0. -/
def State.atRest (s : State) (n : Nat) : Bool := decide (s.vel n = 0) && decide ((s.axis n).acc = 0)

/-- R348: the velocity of a motion leads to a soft limit that is near enough to turn into a position move to it. -/
def softNear (s : State) (n : Nat) (w : Int) : Bool :=
  let lim := if 0 < w then s.softMax n else s.softMin n
  decide (w ≠ 0) && distLe ((lim * 2 ^ 40 - s.xPos n) * w.sign) (brakeDist s n)

/-- R341, R348: a motion in a direction turns into a position move to the soft limit ahead of it. DEDUCED (assumption 30). -/
def softTurn (n : Nat) (w : Int) (s : State) : State :=
  let s1 := s.setTarget n (if 0 < w then s.softMax n else s.softMin n)
  let s2 := s1.setAxis n { s1.axis n with homing := none, soft := true }
  if s2.vel n = 0 then moveFromRest n s2 else moveOn n s2

/-- R339: the goal of the approach. -/
def planApproach (n : Nat) (s : State) : State :=
  let d := s.target n * 2 ^ 40 - s.xPos n
  let l := s.limits n
  planVel n (d.sign * min (l.vcreep : Int) l.vmax) s

/-- R339 to R341: the planner of a position move. DEDUCED (assumption 29). -/
def planMove (n : Nat) (s : State) : State :=
  let d := s.target n * 2 ^ 40 - s.xPos n
  match (s.axis n).goal with
  | .travel =>
    if distLe d.natAbs (brakeDist s n) then
      planApproach n ((s.setAxis n { s.axis n with goal := .approach }).putAx n F.AXIS_n_STATUS.APPROACH true)
    else planVel n (d.sign * (s.limits n).vmax) s
  | .approach =>
    if s.vel n ≠ 0 ∧ d.sign = -(s.vel n).sign then
      let s1 := (s.putAx n F.AXIS_n_STATUS.OVERSHOOT true).axEvent n F.AXIS_n_EVENTS.OVERSHOOT
      planVel n 0 ((s1.setAxis n { s1.axis n with goal := .reverse }).putAx n F.AXIS_n_STATUS.APPROACH false)
    else planApproach n s
  | .reverse =>
    let s1 := planVel n 0 s
    if s1.atRest n then
      moveFromRest n ((s1.putAx n F.AXIS_n_STATUS.REVERSAL true).axEvent n F.AXIS_n_EVENTS.REVERSAL)
    else s1
  | _ => s

/-- R349: the phase of a HOME ends with a latched position. -/
def homeLatch (n : Nat) (h : Homing) (p : Int) (s : State) : State :=
  let next : HomePhase := match h.phase with
    | .search => .brake
    | .back => if h.method = 0 then .seat else .index
    | _ => .seat
  let lat := if h.phase = .back ∧ h.method = 1 then h.latch else p
  s.setAxis n { s.axis n with homing := some { h with phase := next, latch := lat } }

/-- R349: the velocity that a phase of HOME seeks. -/
def homeGoal (s : State) (n : Nat) (h : Homing) : Int :=
  let dir : Int := if h.neg then -1 else 1
  match h.phase with
  | .search => dir * min ((s.reg (R.AXIS_n_HOME_VEL n)).toNat : Int) (s.limits n).vmax
  | .back => -dir * min ((s.limits n).vcreep : Int) (s.limits n).vmax
  | .index => -dir * min ((s.limits n).vcreep : Int) (s.limits n).vmax
  | _ => 0

/-- R349: the engine stands at the end of BRAKE or SEAT. -/
def homeRest (n : Nat) (h : Homing) (s : State) : State :=
  if h.phase = .brake ∧ h.method ≠ 2 then
    s.setAxis n { s.axis n with homing := some { h with phase := .back, start := s.pos n } }
  else homeDone n (s.pos n - h.latch + s.homeOfs n) s

/-- R349: the home switch stands as the phase awaits it. -/
def homeSwitch (s : State) (n : Nat) (h : Homing) : Bool :=
  (decide (h.phase = .search ∧ h.method ≠ 2) && s.homeActive n) || (decide (h.phase = .back) && !s.homeActive n)

/-- R350: HOME_RANGE is used up. -/
def homeOver (s : State) (n : Nat) (h : Homing) : Bool :=
  decide (h.phase = .search ∨ h.phase = .back ∨ h.phase = .index) &&
    decide ((s.reg64 (R.AXIS_n_HOME_RANGE_LO n) (R.AXIS_n_HOME_RANGE_HI n)).toNat < (s.pos n - h.start).natAbs)

/-- R349, R350: the planner of a HOME. -/
def planHome (n : Nat) (h : Homing) (s0 : State) : State :=
  let s := if homeSwitch s0 n h then homeLatch n h (s0.pos n) s0 else s0
  match (s.axis n).homing with
  | none => s
  | some h =>
    if homeOver s n h then planVel n 0 (brakeTo n 4 s)
    else
      if h.phase = .search ∧ softNear s n (homeGoal s n h) then planMove n (softTurn n (homeGoal s n h) s)
      else
        let s1 := planVel n (homeGoal s n h) s
        if (h.phase = .brake ∨ h.phase = .seat) ∧ s1.atRest n then homeRest n h s1 else s1

/-- R339, R343, R350: the end of a stop. -/
def stopEnd (n cause : Nat) (s : State) : State :=
  let s1 := s.setTarget n (s.pos n)
  if cause = 0 then axisDone n s1 else axisFault n cause s1

/-- R337: the planner of an engine at a tick boundary. -/
def plan (n : Nat) (s : State) : State :=
  match (s.axis n).homing with
  | some h => planHome n h s
  | none =>
    match (s.axis n).goal with
    | .none_ => s
    | .halt => axisDone n s
    | .reached => axisDone n s
    | .stop c =>
      let s1 := planVel n 0 s
      if s1.atRest n then stopEnd n c s1 else s1
    | .velocity w => if softNear s n w then planMove n (softTurn n w s) else (planVel n w s).setTarget n (s.pos n)
    | _ => planMove n s

/-! ### Encoders (R351, R352) -/

/-- A quotient rounded half away from zero. -/
def roundDiv (a : Int) (b : Nat) : Int := a.sign * ((2 * a.natAbs + b) / (2 * b) : Nat)

/-- R352: the expected position. -/
def State.expected (s : State) (n : Nat) (r : Int × Int) : Int :=
  let m := s.get (R.AXIS_n_ENC_CFG n) F.AXIS_n_ENC_CFG.ENC
  r.1 + roundDiv (((s.reg64 (R.ENC_m_COUNT_LO m) (R.ENC_m_COUNT_HI m)).toInt - r.2) * (s.reg (R.AXIS_n_ENC_RATIO n)).toInt) 65536

/-- R352: confirmation. DEDUCED (assumption 34). -/
def confirm (n : Nat) (pe : Int) (s : State) : State :=
  let s1 := s.setAxis n { s.axis n with checked := true }
  if (pe - s.pos n).natAbs ≤ s.get (R.AXIS_n_ENC_TOL n) F.AXIS_n_ENC_TOL.TOL then
    (s1.putAx n F.AXIS_n_STATUS.POS_LOST false).axEvent n F.AXIS_n_EVENTS.CONFIRMED
  else if s.flag (R.AXIS_n_ENC_CFG n) F.AXIS_n_ENC_CFG.ADOPT then
    let s2 := (s1.setPos n pe).setAxis n { s1.axis n with f := 2 ^ 39 }
    ((s2.setTarget n (s2.pos n)).putAx n F.AXIS_n_STATUS.POS_LOST false).axEvent n F.AXIS_n_EVENTS.ADOPTED
  else (s1.putAx n F.AXIS_n_STATUS.ENC_MISMATCH true).axEvent n F.AXIS_n_EVENTS.ENC_MISMATCH

/-- R352: the encoder checks of an axis at a tick boundary. -/
def encoderCheck (n : Nat) (s : State) : State :=
  match (s.axis n).ref with
  | none => s
  | some r =>
    if ¬ s.flag (R.AXIS_n_ENC_CFG n) F.AXIS_n_ENC_CFG.CHECK then s
    else
      let pe := s.expected n r
      let m := s.get (R.AXIS_n_ENC_CFG n) F.AXIS_n_ENC_CFG.ENC
      let tol := s.get (R.AXIS_n_ENC_TOL n) F.AXIS_n_ENC_TOL.FOLLOW_TOL
      if s.axFlag n F.AXIS_n_STATUS.POS_LOST then
        if s.axState n = 1 ∧ ¬ (s.axis n).checked ∧ 1048576 ≤ (s.raw - tget 0 s.motion.encLast m).toNat then confirm n pe s else s
      else if tol ≠ 0 ∧ tol < (pe - s.pos n).natAbs ∧ s.axState n ≠ 0 ∧ s.axState n ≠ 5 then axisFault n 3 s
      else s

/-- R333: the direction of motion changes at a tick boundary; it stays while the engine stands. DESIGN CHOICE (assumption 258). -/
def dirFollow (n : Nat) (s : State) : State :=
  if s.vel n ≠ 0 ∧ decide (s.vel n < 0) ≠ (s.axis n).dirNeg then
    s.setAxis n { s.axis n with dirNeg := decide (s.vel n < 0), dirAt := s.raw }
  else s

/-- R337: a tick boundary of an axis at a raw grain. -/
def profileTick (n : Nat) (t : Quad) (s0 : State) : State :=
  let s := refreshLimits n (drillTo n ((tickFrom t).toNat / 8) (s0.advanceTo (tickFrom t)))
  encoderCheck n (dirFollow n (plan n s))

/-- R332: the drill up to and with the MOTION edge at a raw grain. -/
def drillStep (n : Nat) (t : Quad) (s : State) : State := drillNow n (s.advanceTo t)

/-- R347: a hard limit in the direction of motion is active. -/
def hardLimit (n : Nat) (positive : Bool) (s0 : State) : State :=
  let s := drillNow n s0
  if s.limitActive n positive ∧ ((positive ∧ 0 < s.vel n) ∨ (¬ positive ∧ s.vel n < 0)) then axisFault n 1 s else s

/-- R349: the home switch changes, or an index comes, while a HOME awaits it. -/
def homeInput (n : Nat) (index : Bool) (s0 : State) : State :=
  let s := drillNow n s0
  match (s.axis n).homing with
  | none => s
  | some h =>
    if index then
      (if (h.phase = .search ∧ h.method = 2) ∨ h.phase = .index then homeLatch n h (s.pos n) s else s)
    else if homeSwitch s n h then homeLatch n h (s.pos n) s
    else s

/-- The axes that bind an encoder with CHECK. -/
def boundAxes (s : State) (m : Nat) : List Nat :=
  (List.range 64).filter fun n => s.flag (R.AXIS_n_ENC_CFG n) F.AXIS_n_ENC_CFG.CHECK ∧
    s.get (R.AXIS_n_ENC_CFG n) F.AXIS_n_ENC_CFG.ENC = m

/-- The count of an encoder moved. -/
def encMove (m : Nat) (d : Int) (s : State) : State :=
  let c := (s.reg64 (R.ENC_m_COUNT_LO m) (R.ENC_m_COUNT_HI m)).toInt
  let s1 := s.setReg64 (R.ENC_m_COUNT_LO m) (R.ENC_m_COUNT_HI m) (BitVec.ofInt 64 (c + d))
  let s2 := { s1 with motion := { s1.motion with encLast := tset 0 s1.motion.encLast m s1.raw } }
  s2.forAll (boundAxes s2 m) fun n t => t.setAxis n { t.axis n with checked := false }

/-- R351: an encoder takes the filtered levels of its pins at a PERIPH edge. -/
def encoderTransition (m : Nat) (s : State) : State :=
  let cfg := s.reg (R.ENC_m_CFG m)
  let lv := fun (f : Fld) => decide (fldOf f cfg < 192) && s.level (fldOf f cfg)
  let st := R.ENC_m_STATUS m
  let a := s.flag st F.ENC_m_STATUS.LEVEL_A
  let b := s.flag st F.ENC_m_STATUS.LEVEL_B
  let i := s.flag st F.ENC_m_STATUS.LEVEL_INDEX
  let a' := lv F.ENC_m_CFG.PIN_A
  let b' := lv F.ENC_m_CFG.PIN_B
  let i' := lv F.ENC_m_CFG.PIN_I
  let s1 := ((s.putFlag st F.ENC_m_STATUS.LEVEL_A a').putFlag st F.ENC_m_STATUS.LEVEL_B b').putFlag st
    F.ENC_m_STATUS.LEVEL_INDEX i'
  if fldOf F.ENC_m_CFG.EN cfg = 0 then s1
  else
    let inv : Int := if fldOf F.ENC_m_CFG.INVERT cfg = 1 then -1 else 1
    let s2 :=
      if a ≠ a' ∧ b ≠ b' then
        let t := (s1.raise st F.ENC_m_STATUS.QUAD_ERR).incSat (R.ENC_m_ERR_CNT m)
        t.forAll (boundAxes t m) fun n u => axisFault n 5 u
      else if a ≠ a' then encMove m (if a' ≠ b then inv else -inv) s1
      else if b ≠ b' then encMove m (if a = b' then inv else -inv) s1
      else s1
    let edge := if fldOf F.ENC_m_CFG.IDX_POL cfg = 1 then i && !i' else !i && i'
    if edge then
      s2.setReg64 (R.ENC_m_INDEX_LO m) (R.ENC_m_INDEX_HI m) (s2.reg64 (R.ENC_m_COUNT_LO m) (R.ENC_m_COUNT_HI m))
    else s2

/-! ### Register writes (R332, R342, R361, R364) -/

/-- R332: the bound of VMAX. -/
def vmaxBound (s : State) (n : Nat) : Nat :=
  min (2 ^ 35) (2 ^ 39 / (s.get (R.AXIS_n_STEP_CFG n) F.AXIS_n_STEP_CFG.STEP_W_M1 + 1))

/-- R332, R365: VMAX held within its bounds. -/
def clampVmax (n : Nat) (s : State) : State :=
  let v := (s.reg64 (R.AXIS_n_VMAX_LO n) (R.AXIS_n_VMAX_HI n)).toNat
  if vmaxBound s n < v then
    (s.setReg64 (R.AXIS_n_VMAX_LO n) (R.AXIS_n_VMAX_HI n) (BitVec.ofNat 64 (vmaxBound s n))).axEvent n
      F.AXIS_n_EVENTS.CLAMPED
  else s

/-- The place of a limit register in the mask of held ones. -/
def limitBit : LimitReg → Nat
  | .vmax => 0
  | .accel => 1
  | .decel => 2
  | .jerk => 3
  | .vcreep => 4

/-- R342: a limit register takes a value, in force from the next tick boundary; during the approach and a reversal the engine holds
it back unless APPLY_NOW is 1. -/
def limitWrite (n : Nat) (r : LimitReg) (v : Quad) (s0 : State) : State :=
  let s := drillNow n s0
  let hold : Bool := decide ((s.axis n).goal = .approach ∨ (s.axis n).goal = .reverse) &&
    ! s.flag (R.AXIS_n_CTRL n) F.AXIS_n_CTRL.APPLY_NOW
  let mask := (if hold then natSetBit else natClrBit) (s.axis n).held (limitBit r)
  let s1 := s.setAxis n { s.axis n with lim := some (s.limits n), held := mask }
  let s2 := if hold then (s1.putAx n F.AXIS_n_STATUS.LIMIT_HELD true).axEvent n F.AXIS_n_EVENTS.LIMIT_HELD else s1
  match r with
  | .vmax => clampVmax n (s2.setReg64 (R.AXIS_n_VMAX_LO n) (R.AXIS_n_VMAX_HI n) v)
  | .accel => s2.setReg (R.AXIS_n_ACCEL n) (lo32 v)
  | .decel => s2.setReg (R.AXIS_n_DECEL n) (lo32 v)
  | .jerk => s2.setReg (R.AXIS_n_JERK n) (lo32 v)
  | .vcreep => s2.setReg (R.AXIS_n_VCREEP n) (if (lo32 v).toNat < 65536 then 65536 else lo32 v)

/-- R365: a write of AXIS_n_STEP_CFG. -/
def stepCfgWrite (n : Nat) (v : Word) (s : State) : State := clampVmax n (s.setReg (R.AXIS_n_STEP_CFG n) (v &&& 0x7FF3F))

/-- The chopper of an axis, if it has one (R353). -/
def chopperOf (n : Nat) : Option Nat := if n % 16 < 6 then some (n / 16 * 6 + n % 16) else none

/-- A chopper. -/
def State.chop (s : State) (c : Nat) : Chopper := tget Chopper.start s.motion.choppers c
/-- A chopper, set. -/
def State.setChop (s : State) (c : Nat) (x : Chopper) : State :=
  { s with motion := { s.motion with choppers := tset Chopper.start s.motion.choppers c x } }
/-- The axis of a chopper. -/
def axisOf (c : Nat) : Nat := c / 6 * 16 + c % 6

/-- R353: the table index of a chopper. -/
def State.chopIdx (s : State) (c : Nat) : Nat :=
  let m := s.reg (R.CHOP_c_MSTEP c)
  let u := fldOf F.CHOP_c_MSTEP.USTEP m
  ((s.pos (axisOf c) * (2 ^ (8 - u) : Nat) + fldOf F.CHOP_c_MSTEP.PHASE_OFS m) % 1024).toNat

/-- R353: the sine entry of a phase: A, or B a quarter cycle on. -/
def State.chopSine (s : State) (c : Nat) (b : Bool) : Int :=
  let i := if b then (s.chopIdx c + 256) % 1024 else s.chopIdx c
  ((s.reg (R.CHOP_SINE_i i)).extractLsb' 0 9).toInt

/-- R371: CHOP_c_CURRENT in force: a write takes effect at the next tick boundary. -/
def State.chopCurrent (s : State) (c : Nat) : Word :=
  match (s.chop c).cur with
  | some (b, w) => if s.raw.toNat < b.toNat then w else s.reg (R.CHOP_c_CURRENT c)
  | none => s.reg (R.CHOP_c_CURRENT c)

/-- R354: the scale in force. -/
def State.chopScale (s : State) (c : Nat) : Nat := (s.chop c).scale.getD (fldOf F.CHOP_c_CURRENT.I_MOVE (s.chopCurrent c))

/-- R354: the threshold code of a phase. -/
def State.chopCode (s : State) (c : Nat) (b : Bool) : Nat := ((s.chopSine c b).natAbs * s.chopScale c + 127) / 255

/-- The state of a phase: 0 OFF_ALL, 1 ON_BLANK, 2 ON, 3 FAST, 4 SLOW. -/
def State.phase (s : State) (c : Nat) (b : Bool) : Nat :=
  s.get (R.CHOP_c_STATUS c) (if b then F.CHOP_c_STATUS.STATE_B else F.CHOP_c_STATUS.STATE_A)

/-- A phase of a chopper. -/
def Chopper.ph (x : Chopper) (b : Bool) : ChopPhase := if b then x.b else x.a
/-- A phase of a chopper, set. -/
def Chopper.setPh (x : Chopper) (b : Bool) (y : ChopPhase) : Chopper := if b then { x with b := y } else { x with a := y }

/-- R356: the switches of the legs P and N of a phase in a state, for a polarity: 0 none, 1 the high one, 2 the low one. -/
def legsOf (st : Nat) (neg : Bool) : Nat × Nat :=
  let l : Nat × Nat := match st with
    | 0 => (0, 0)
    | 3 => (2, 1)
    | 4 => (2, 2)
    | _ => (1, 2)
  if neg then (l.2, l.1) else l

/-- The polarity of a phase. -/
def State.chopNeg (s : State) (c : Nat) (b : Bool) : Bool :=
  s.flag (R.CHOP_c_STATUS c) (if b then F.CHOP_c_STATUS.NEG_B else F.CHOP_c_STATUS.NEG_A)

/-- R356: a leg after a change of its switch. -/
def legMove (old new : Nat) (g : Quad) (was : Option Quad) : Option Quad := if old ≠ 0 ∧ new ≠ 0 ∧ old ≠ new then some g else was

/-- R356: the gates of a phase, P_H, P_L, N_H and N_L: none of a leg is on within the dead time after a change of its switch. -/
def State.gates (s : State) (c : Nat) (b : Bool) : Bool × Bool × Bool × Bool :=
  let x := (s.chop c).ph b
  let dead := 64 * (s.get (R.CHOP_c_TIMING c) F.CHOP_c_TIMING.DEAD_M + 1)
  let open_ (g : Option Quad) : Bool := match g with
    | some g => decide (s.raw.toNat < g.toNat + dead)
    | none => false
  let l := legsOf (s.phase c b) (s.chopNeg c b)
  (decide (l.1 = 1) && !open_ x.legP, decide (l.1 = 2) && !open_ x.legP, decide (l.2 = 1) && !open_ x.legN,
    decide (l.2 = 2) && !open_ x.legN)

/-- R356, R357, R369: the levels at the gate balls of a phase; they are low until the chopper is first enabled. -/
def State.gateBalls (s : State) (c : Nat) (b : Bool) : List Bool :=
  let g := s.gates c b
  let low := s.flag (R.CHOP_c_CTRL c) F.CHOP_c_CTRL.GATE_POL && (s.chop c).used
  [g.1, g.2.1, g.2.2.1, g.2.2.2].map fun x => x != low

/-- R355: a phase enters a state; a new ON_BLANK takes the polarity of its sine (R353). -/
def setPhase (c : Nat) (b : Bool) (st : Nat) (s : State) : State :=
  let s1 := s.put (R.CHOP_c_STATUS c) (if b then F.CHOP_c_STATUS.STATE_B else F.CHOP_c_STATUS.STATE_A) st
  let neg := if st = 1 then decide (s.chopSine c b < 0) else s.chopNeg c b
  let o := legsOf (s.phase c b) (s.chopNeg c b)
  let l := legsOf st neg
  let x := (s1.chop c).ph b
  let s2 := s1.setChop c ((s1.chop c).setPh b { x with
    since := s1.raw, legP := legMove o.1 l.1 s1.raw x.legP, legN := legMove o.2 l.2 s1.raw x.legN })
  if st = 1 then
    s2.putFlag (R.CHOP_c_STATUS c) (if b then F.CHOP_c_STATUS.NEG_B else F.CHOP_c_STATUS.NEG_A) (decide (s2.chopSine c b < 0))
  else s2

/-- R355, R357: both phases in OFF_ALL. -/
def chopOff (c : Nat) (s : State) : State := setPhase c true 0 (setPhase c false 0 s)
/-- R355: both phases start at ON_BLANK. -/
def chopOn (c : Nat) (s : State) : State := setPhase c true 1 (setPhase c false 1 (s.setChop c { s.chop c with used := true }))

/-- R355: the off time of a phase begins with the settings in the registers. -/
def offBegin (c : Nat) (b : Bool) (s : State) : State :=
  let t := s.reg (R.CHOP_c_TIMING c)
  let fast := fldOf F.CHOP_c_TIMING.FAST_16 t
  let s1 := s.setChop c ((s.chop c).setPh b { (s.chop c).ph b with
    off := fldOf F.CHOP_c_TIMING.OFF_TICKS t, blank := fldOf F.CHOP_c_TIMING.BLANK_M1 t, fast := fast })
  setPhase c b (if fast = 0 then 4 else 3) s1

/-- R357: SHORT on a phase. -/
def chopShort (c : Nat) (b : Bool) (s : State) : State :=
  let s1 := chopOff c (s.setChop c { s.chop c with shorted := true })
  let s2 := s1.raise (R.CHOP_c_EVENTS c) (if b then F.CHOP_c_EVENTS.SHORT_B else F.CHOP_c_EVENTS.SHORT_A)
  axisFault (axisOf c) 2 (s2.incSat (R.CHOP_c_SHORT_CNT c))

/-- R355, R357: the comparator is active in ON; first says that it is so at the first clock after blanking. -/
def chopTrip (c : Nat) (b : Bool) (first : Bool) (s : State) : State :=
  if s.phase c b ≠ 2 then s
  else
    let k := if first ∧ 64 ≤ s.chopCode c b then ((s.chop c).ph b).early + 1 else 0
    let s1 := s.setChop c ((s.chop c).setPh b { (s.chop c).ph b with early := k })
    if 4 ≤ k then chopShort c b s1 else offBegin c b s1

/-- R355: the blanking time ends. -/
def chopBlankEnd (c : Nat) (b : Bool) (s : State) : State :=
  if s.phase c b ≠ 1 then s
  else
    let x := (s.chop c).ph b
    setPhase c b 2 (s.advanceTo (x.since + BitVec.ofNat 64 (8 * 32 * (x.blank + 1))))

/-- R355: the fast decay ends. -/
def chopFastEnd (c : Nat) (b : Bool) (s : State) : State :=
  if s.phase c b ≠ 3 then s
  else
    let x := (s.chop c).ph b
    let s1 := setPhase c b 4 (s.advanceTo (x.since + BitVec.ofNat 64 (8 * 8 * x.off * x.fast)))
    s1.setChop c ((s1.chop c).setPh b { (s1.chop c).ph b with since := x.since })

/-- R354, R355: the off time ends; a phase whose code is 0 stays in SLOW. -/
def chopSlowEnd (c : Nat) (b : Bool) (s : State) : State :=
  if s.phase c b ≠ 4 then s
  else
    let x := (s.chop c).ph b
    let s1 := s.advanceTo (x.since + BitVec.ofNat 64 (8 * 128 * x.off))
    if s1.chopCode c b = 0 then s1 else setPhase c b 1 s1

/-- R357: an ON phase lasts OPEN_TICKS without a trip. -/
def chopOpen (c : Nat) (b : Bool) (s : State) : State :=
  if s.phase c b = 2 ∧ 16 ≤ s.chopCode c b ∧ s.get (R.CHOP_c_OPEN_CFG c) F.CHOP_c_OPEN_CFG.OPEN_TICKS ≠ 0 then
    s.raise (R.CHOP_c_EVENTS c) (if b then F.CHOP_c_EVENTS.OPEN_B else F.CHOP_c_EVENTS.OPEN_A)
  else s

/-- A number one nearer to a goal. -/
def nearer (x g : Nat) : Nat := if x < g then x + 1 else if g < x then x - 1 else x

/-- R354: the standstill delay ends, counted from the last step, or an interval of the ramp. -/
def restRamp (c : Nat) (s0 : State) : State :=
  let w0 := s0.chopCurrent c
  if fldOf F.CHOP_c_CURRENT.REST_DELAY w0 = 0 then s0
  else
    let due := match (s0.chop c).ramped with
      | none => (s0.axis (axisOf c)).lastStep + BitVec.ofNat 64 (msGrains (4 * fldOf F.CHOP_c_CURRENT.REST_DELAY w0))
      | some g => g + BitVec.ofNat 64 (msGrains (fldOf F.CHOP_c_CURRENT.REST_RAMP w0))
    let s := s0.advanceTo due
    let w := s.chopCurrent c
    let mv := fldOf F.CHOP_c_CURRENT.I_MOVE w
    let g := fldOf F.CHOP_c_CURRENT.I_REST w
    let i := if fldOf F.CHOP_c_CURRENT.REST_RAMP w = 0 then g else nearer (s.chopScale c) g
    s.setChop c { s.chop c with scale := if i = mv ∧ i = g then none else some i, ramped := some s.raw }

/-- R371: a write of CHOP_c_CURRENT, in force from the next tick boundary. -/
def chopCurrentWrite (c : Nat) (v : Word) (s : State) : State :=
  (s.setChop c { s.chop c with cur := some (tickFrom (s.raw + 1), s.chopCurrent c) }).setReg (R.CHOP_c_CURRENT c) v

/-- R357: a write of CHOP_c_CTRL. -/
def chopCtrlWrite (c : Nat) (v : Word) (s : State) : State :=
  let was := s.flag (R.CHOP_c_CTRL c) F.CHOP_c_CTRL.EN
  let en := fldOf F.CHOP_c_CTRL.EN v = 1
  let s1 := s.setReg (R.CHOP_c_CTRL c) (v &&& 3)
  if en ∧ ¬ was then (if (s.chop c).shorted then s1 else chopOn c s1)
  else if ¬ en ∧ was then
    let st := s1.axState (axisOf c)
    chopOff c (if 2 ≤ st ∧ st ≤ 4 then stopNow (axisOf c) s1 else s1)
  else s1

/-- A write refused by a chopper. -/
def chopRefused (c : Nat) (s : State) : State := s.raise (R.CHOP_c_EVENTS c) F.CHOP_c_EVENTS.CFG_REFUSED

/-- R370: a write of CHOP_c_TIMING. -/
def chopTimingWrite (c : Nat) (v : Word) (s : State) : State :=
  let dead := fldOf F.CHOP_c_TIMING.DEAD_M v
  if fldOf F.CHOP_c_TIMING.OFF_TICKS v = 0 ∨ 12 < dead ∨
      (s.flag (R.CHOP_c_CTRL c) F.CHOP_c_CTRL.EN ∧ dead ≠ s.get (R.CHOP_c_TIMING c) F.CHOP_c_TIMING.DEAD_M) then
    chopRefused c s
  else
    let v1 := if 16 < fldOf F.CHOP_c_TIMING.FAST_16 v then setFldOf F.CHOP_c_TIMING.FAST_16 16 v else v
    s.setReg (R.CHOP_c_TIMING c) (v1 &&& 0x0F1F0F3F)

/-- R369: a write of CHOP_c_MSTEP. -/
def chopMstepWrite (c : Nat) (v : Word) (s : State) : State :=
  let u := fldOf F.CHOP_c_MSTEP.USTEP v
  if 8 < u ∨ (s.axState (axisOf c) = 2 ∧ u ≠ s.get (R.CHOP_c_MSTEP c) F.CHOP_c_MSTEP.USTEP) then chopRefused c s
  else s.setReg (R.CHOP_c_MSTEP c) (v &&& 0x03FF000F)

/-- R369: a write of the sine table, sign-extended; refused while any chopper is energised. -/
def chopSineWrite (i : Nat) (v : Word) (s : State) : State :=
  if (List.range 24).any fun c => s.flag (R.CHOP_c_CTRL c) F.CHOP_c_CTRL.EN then
    s.raise R.CHOP_GEVENTS F.CHOP_GEVENTS.SINE_REFUSED
  else s.setReg (R.CHOP_SINE_i i) ((v.extractLsb' 0 9).signExtend 32)

/-- R369 to R371: a write of a chopper's settings. -/
def chopCfgWrite (c : Nat) (r : ChopReg) (v : Word) (s : State) : State :=
  match r with
  | .timing => chopTimingWrite c v s
  | .current => chopCurrentWrite c v s
  | .mstep => chopMstepWrite c v s
  | .sine i => chopSineWrite i v s

/-- R344, R357: FAULT_CLR in FAULT; a chopper held by SHORT starts again. DEDUCED (assumption 31). -/
def faultClear (n : Nat) (s : State) : State :=
  if s.axState n ≠ 5 then s
  else
    let s1 := (setAxState n 1 s).put (R.AXIS_n_STATUS n) F.AXIS_n_STATUS.FAULT_CAUSE 0
    match chopperOf n with
    | none => s1
    | some c =>
      if (s.chop c).shorted then
        let s2 := s1.setChop c { s1.chop c with shorted := false }
        if s2.flag (R.CHOP_c_CTRL c) F.CHOP_c_CTRL.EN then chopOn c s2 else s2
      else s1

/-- R353, R361: a MODE is accepted: it exists, the axis has the chopper it needs, and the axis is DISABLED or IDLE. -/
def modeOk (s : State) (n m : Nat) : Bool :=
  decide (m ≠ 3) && decide (m = 0 ∨ n % 16 < 6) && decide (s.axState n ≤ 1)

/-- R361: a write of AXIS_n_CTRL. -/
def axisCtrlWrite (n : Nat) (v : Word) (s : State) : State :=
  let m := fldOf F.AXIS_n_CTRL.MODE v
  let cur := s.get (R.AXIS_n_CTRL n) F.AXIS_n_CTRL.MODE
  let w := (if m = cur ∨ modeOk s n m then v else setFldOf F.AXIS_n_CTRL.MODE cur v) &&& 0xF
  let s1 := s.setReg (R.AXIS_n_CTRL n) w
  let s2 := if fldOf F.AXIS_n_CTRL.FAULT_CLR v = 1 then faultClear n s1 else s1
  if fldOf F.AXIS_n_CTRL.EN v = 1 then (if s2.axState n = 0 then setAxState n 1 s2 else s2)
  else if s2.axState n = 0 then s2
  else
    let s3 := pulseStop n (decide (s2.axState n = 4)) (txAxisFault n s2)
    setAxState n 0 (s3.setAxis n { s3.axis n with goal := .none_, held := 0 })

/-- R403: a pin that AXIS_n_PINS may not name: an output pin, or a pin of another axis. -/
def pinTaken (s : State) (n pin : Nat) : Bool :=
  decide (s.get (R.GPIO_i_CFG pin) F.GPIO_i_CFG.MODE ≠ 0) ||
    (List.range 64).any fun k => decide (k ≠ n) &&
      ([F.AXIS_n_PINS.STEP_PIN, F.AXIS_n_PINS.DIR_PIN, F.AXIS_n_PINS.EN_PIN].any fun f => decide (s.get (R.AXIS_n_PINS k) f = pin))

/-- R364, R403: a write of AXIS_n_PINS. DEDUCED (assumption 33). -/
def axisPinsWrite (n : Nat) (v : Word) (s : State) : State :=
  let fs := [F.AXIS_n_PINS.STEP_PIN, F.AXIS_n_PINS.DIR_PIN, F.AXIS_n_PINS.EN_PIN]
  let pins := (fs.map fun f => fldOf f v).filter fun p => p ≠ 255
  if pins.any fun p => 191 < p then s
  else if pins.any fun p => pinTaken s n p then s.raise R.GPIO_EVENTS F.GPIO_EVENTS.PIN_CONFLICT
  else
    let old := (fs.map fun f => s.get (R.AXIS_n_PINS n) f).filter fun p => p < 192
    let s1 := s.forAll old fun p t => t.put (R.GPIO_i_CFG p) F.GPIO_i_CFG.AXIS 0
    let s2 := s1.forAll pins fun p t => t.put (R.GPIO_i_CFG p) F.GPIO_i_CFG.AXIS 1
    s2.setReg (R.AXIS_n_PINS n) (v &&& 0xFFFFFF)

/-- R362: the status word as AXSTAT and a read give it. -/
def State.axStatus (s : State) (n : Nat) : Word :=
  let w := s.reg (R.AXIS_n_STATUS n)
  let w1 := setFldOf F.AXIS_n_STATUS.LIM_POS (b2n (s.limitActive n true)) w
  let w2 := setFldOf F.AXIS_n_STATUS.LIM_NEG (b2n (s.limitActive n false)) w1
  let w3 := setFldOf F.AXIS_n_STATUS.TXN_PENDING (b2n (s.txnPending n).isSome) w2
  match chopperOf n with
  | none => w3
  | some c => setFldOf F.AXIS_n_STATUS.RESTING
      (b2n (s.chopScale c ≠ fldOf F.CHOP_c_CURRENT.I_MOVE (s.chopCurrent c))) w3

/-! ### The commands -/

/-- MOVE_ABS (R336). -/
def execMoveAbs (n : Fin 64) (s : State) : Out := ok (cmdTake n 0 s)
/-- MOVE_REL (R336). -/
def execMoveRel (n : Fin 64) (s : State) : Out := ok (cmdTake n 1 s)
/-- MOVE_VEL (R336). -/
def execMoveVel (n : Fin 64) (s : State) : Out := ok (cmdTake n 2 s)
/-- STOP_DECEL (R343). -/
def execStopDecel (n : Fin 64) (s : State) : Out := ok (cmdTake n 3 s)
/-- STOP_NOW (R344). -/
def execStopNow (n : Fin 64) (s : State) : Out := ok (stopNowTake n s)
/-- HOME (R349). -/
def execHome (n : Fin 64) (s : State) : Out := ok (cmdTake n 5 s)
/-- SET_POS (R336). -/
def execSetPos (n : Fin 64) (s : State) : Out := ok (cmdTake n 6 s)
/-- PROFILE_TICK (R337). -/
def execProfileTick (n : Fin 64) (t : Quad) (s : State) : Out := ok (profileTick n t s)
/-- DRILL_STEP (R332). -/
def execDrillStep (n : Fin 64) (t : Quad) (s : State) : Out := ok (drillStep n t s)
/-- HARD_LIMIT (R347). -/
def execHardLimit (n : Fin 64) (positive : Bool) (s : State) : Out := ok (hardLimit n positive s)
/-- HOME_INPUT (R349). -/
def execHomeInput (n : Fin 64) (index : Bool) (s : State) : Out := ok (homeInput n index s)
/-- ENCODER_TRANSITION (R351). -/
def execEncoderTransition (m : Fin 64) (s : State) : Out := ok (encoderTransition m s)
/-- AXIS_CTRL_WRITE (R361). -/
def execAxisCtrlWrite (n : Fin 64) (v : Word) (s : State) : Out := ok (axisCtrlWrite n v s)
/-- FAULT_CLR (R344): a write of AXIS_n_CTRL whose FAULT_CLR is 1. -/
def execFaultClr (n : Fin 64) (v : Word) (s : State) : Out := ok (axisCtrlWrite n (setFldOf F.AXIS_n_CTRL.FAULT_CLR 1 v) s)
/-- AXIS_LIMIT_WRITE (R332, R342). -/
def execAxisLimitWrite (n : Fin 64) (r : LimitReg) (v : Quad) (s : State) : Out := ok (limitWrite n r v s)
/-- AXIS_PINS_WRITE (R403). -/
def execAxisPinsWrite (n : Fin 64) (v : Word) (s : State) : Out := ok (axisPinsWrite n v s)
/-- CHOP_TRIP (R355, R357). -/
def execChopTrip (c : Fin 24) (b : Bool) (first : Bool) (s : State) : Out := ok (chopTrip c b first s)
/-- CHOP_BLANK_END (R355). -/
def execChopBlankEnd (c : Fin 24) (b : Bool) (s : State) : Out := ok (chopBlankEnd c b s)
/-- CHOP_FAST_END (R355). -/
def execChopFastEnd (c : Fin 24) (b : Bool) (s : State) : Out := ok (chopFastEnd c b s)
/-- CHOP_SLOW_END (R355). -/
def execChopSlowEnd (c : Fin 24) (b : Bool) (s : State) : Out := ok (chopSlowEnd c b s)
/-- OPEN (R357). -/
def execOpen (c : Fin 24) (b : Bool) (s : State) : Out := ok (chopOpen c b s)
/-- REST_RAMP (R354). -/
def execRestRamp (c : Fin 24) (s : State) : Out := ok (restRamp c s)
/-- CHOP_CTRL_WRITE (R357). -/
def execChopCtrlWrite (c : Fin 24) (v : Word) (s : State) : Out := ok (chopCtrlWrite c v s)
/-- CHOP_CFG_WRITE (R369 to R371). -/
def execChopCfgWrite (c : Fin 24) (r : ChopReg) (v : Word) (s : State) : Out := ok (chopCfgWrite c r v s)

end Sys2Proof.Machine
end

