-- ==== Sys2Proof/Machine/Txn.lean ====
section
/-! DEFINITION. Chapter 6: the host's commands, local staging, the decision, its broadcast and its application. -/

namespace Sys2Proof.Machine

/-! ### The host's commands (R229) -/

/-- R233: the result of a host command. -/
def txResult (code : Nat) (s : State) : State :=
  (s.put R.TXN_CMD_RESULT F.TXN_CMD_RESULT.CODE code).raiseIf (code ≠ 0) R.TXN_EVENTS F.TXN_EVENTS.CMD_REFUSED

/-- R229: OPEN. -/
def txHostOpen (s : State) : State :=
  let (h, s1) := txTake 3 0 false s
  txResult (if h = 0 then 14 else 0) (s1.put R.TXN_CMD_RESULT F.TXN_CMD_RESULT.HANDLE h)

/-- R203: the slot of TXN_CMD_HANDLE when the host owns it. -/
def State.hostSlot (s : State) : Option Nat :=
  (s.txSlot ((s.reg R.TXN_CMD_HANDLE).toNat % 65536)).filter fun i => (s.tx i).ownerKind = 3

/-- R208: the code that an ADD's mark stands for, when this ADD set it. -/
def addCode (x y : Txn) : Nat :=
  if y.badAction ∧ ¬ x.badAction then 7 else if y.full ∧ ¬ x.full then 5 else if y.tooMany ∧ ¬ x.tooMany then 6 else 0

/-- R201, R229: ADD, with the role ENGINEER. -/
def txHostAdd (s : State) : State :=
  match s.hostSlot with
  | none => txResult 15 s
  | some i =>
    if (s.tx i).state ≠ 1 then txResult 15 s
    else
      let k := s.reg R.TXN_CMD_KIND
      let v := s.reg64 R.TXN_CMD_VALUE_LO R.TXN_CMD_VALUE_HI
      let tgt := (s.reg R.TXN_CMD_TARGET).toNat
      let x := { s.tx i with badAction := false, full := false, tooMany := false }
      let s0 := s.setTx i x
      let s1 := match etypeOf (fldOf F.TXN_CMD_KIND.TYPE k) with
        | some t => txAdd i (fldOf F.TXN_CMD_KIND.TARGET_KIND k) tgt t (fldOf F.TXN_CMD_KIND.AXIS_CMD k) v 2 s0
        | none => s0.setTx i { x with badAction := true }
      let y := s1.tx i
      let z := { y with
        badAction := y.badAction || (s.tx i).badAction, full := y.full || (s.tx i).full
        tooMany := y.tooMany || (s.tx i).tooMany }
      txResult (addCode x y) (s1.setTx i z)

/-- R208, R229: SEAL at the base index of TXN_CMD_AT. -/
def txHostSeal (s : State) : State :=
  match s.hostSlot with
  | none => txResult 15 s
  | some i =>
    if (s.tx i).state ≠ 1 then txResult 15 s
    else
      let b := (s.reg64 R.TXN_CMD_AT_LO R.TXN_CMD_AT_HI).toNat
      txResult (sealCause s i b) (txSeal i b s)

/-- R205, R229: DROP. -/
def txHostDrop (s : State) : State :=
  match s.hostSlot with
  | none => txResult 15 s
  | some i => txResult 0 (txDrop i s)

/-- R229: a write of TXN_CMD. -/
def txnCmdWrite (v : Word) (s : State) : State :=
  if fldOf F.TXN_CMD.KEY v ≠ 0x4A58 then s
  else
    match fldOf F.TXN_CMD.OP v with
    | 1 => txHostOpen s
    | 2 => txHostAdd s
    | 3 => txHostSeal s
    | 4 => txHostDrop s
    | _ => s

/-! ### Local votes (R209) -/

/-- R209: the value of an entry action lies within the entry's MIN and MAX. -/
def entryRange (s : State) (a : TxAction) : Bool := inRange s.image (a.target / 256 % 65536) (a.target % 256) a.ty a.value

/-- R209: the vote of a local participant: YES, or NO with a reason. -/
def localVote (s : State) (x : Txn) (p : Part) : Bool × Nat :=
  if p.kind = 2 then
    match x.actions.find? fun a => a.kind = 5 ∧ a.target = p.id with
    | some a => (axisVote s p.id a.axisCmd a.value, 2)
    | none => (false, 2)
  else if p.kind = 3 then
    ((x.actions.filter fun a => a.kind = 10 ∧ a.target / 2 ^ 24 = s.ownDev).all (entryRange s), 1)
  else (true, 0)

/-- R209: local staging ends, and the local participants vote. -/
def localStagingDone (i : Nat) (s : State) : State :=
  let x := s.tx i
  if x.state ≠ 2 ∨ x.localDone then s
  else
    let loc := x.parts.zipIdx.filter fun (p, _) => p.kind ≤ 3
    let n := (x.actions.filter fun a => ((x.parts[a.part]?).map fun p => decide (p.kind ≤ 3)).getD false).length
    let s1 := (s.advanceTo (x.sealRaw + BitVec.ofNat 64 (16 + 4 * n))).setTx i { x with localDone := true }
    s1.forAll loc fun (p, k) t => txVote i k (localVote t x p).1 (localVote t x p).2 t

/-- R212: a peer's vote arrives. -/
def peerVote (dev handle : Nat) (yes : Bool) (reason : Nat) (s : State) : State :=
  match s.txSlot handle with
  | none => s
  | some i =>
    match s.partOf i 5 dev with
    | none => s
    | some n => txVote i n yes reason s

/-! ### Decision and broadcast (R214, R215, R222) -/

/-- R222: the abort cause that a participant gives at the decision; 0 none. -/
def partCause (p : Part) : Nat :=
  if p.vote = 2 then (if p.reason = 5 then (if p.kind = 5 then 10 else if p.kind = 4 then 11 else 1) else 1)
  else if p.vote = 1 then 0
  else 2

/-- R222: the lowest cause at the decision; 0 is a commit. -/
def decisionCause (x : Txn) : Nat :=
  (x.parts.map partCause).foldl (fun m c => if c ≠ 0 ∧ (m = 0 ∨ c < m) then c else m) 0

/-- R205, R214: a sealed transaction is decided for the next headland, whose actual time is v; its decision waits to be broadcast, and an
aborted one that was dropped is over. -/
def decide1 (i : Nat) (v : Quad) (s0 : State) : State :=
  let x := s0.tx i
  let c := decisionCause x
  let cast : Decided := ⟨x.at_, s0.txHandle i, decide (c = 0), v, txPorts x, (x.parts.filter fun p => p.kind = 5).map (·.id), txYesPeers x⟩
  let s : State := { s0 with txn := { s0.txn with casts := s0.txn.casts ++ [cast] } }
  if c = 0 then
    let y := { x with
      state := 3, decided := true, commit := true, commitV := v }
    txRepeat i true x.at_ v (s.setTx i y)
  else
    let y := { x with
      decided := true, commitV := v
      parts := x.parts.map fun p => if p.vote = 0 then { p with vote := 3, reason := 6 } else p }
    txFreeIfDropped i (txRepeat i false x.at_ v (txAbort i c true (s.setTx i y)))

/-- R214: at H − P/4 every transaction sealed for the next headland is decided; a follower out of step has lost its peers
(R593). -/
def txDecision (s : State) : State :=
  let mine := (List.range 64).filter fun i => (s.tx i).state = 2 ∧ (s.tx i).at_ = s.head.nextB
  if ¬ s.head.armed ∨ mine = [] then s
  else
    let s0 := s.advanceToV (s.head.nextActual - (s.pg / 4 : Nat))
    let s1 := if s0.farm.outOfStep then s0.forAll (List.range 8) fun d t => txLost 5 d t else s0
    joaGroups (s1.forAll mine fun i t => decide1 i (BitVec.ofInt 64 s.head.nextActual) t)

/-- R215: at H − P/8 the decisions for the next headland are broadcast. -/
def txBroadcast (s : State) : State :=
  let mine := s.txn.casts.filter fun c => c.at_ = s.head.nextB
  if ¬ s.head.armed ∨ mine = [] then s
  else
    let s1 := s.advanceToV (s.head.nextActual - (s.pg / 8 : Nat))
    let toPeers := mine.flatMap fun c => c.peers.map fun d => (16 + d, c.handle, c.commit)
    let toPorts := (List.range 4).flatMap fun p => (mine.filter fun c => c.ports.contains p).map fun c => (p, c.handle, c.commit)
    let s2 := { s1 with txn := { s1.txn with
      sent := toPorts ++ toPeers, casts := s1.txn.casts.filter fun c => c.at_ ≠ s.head.nextB } }
    let s3 := s2.forAll mine fun c t => noteUnreached c.handle c.commit c.yes t
    s3.forAll (List.range 4) fun p t =>
      let recs := (mine.filter fun c => c.ports.contains p).map fun c => decisionRecord c.handle c.commit c.commitV
      if recs = [] then t else sendDecision p (BitVec.ofInt 64 s.head.nextActual) recs t

/-! ### Application (R216, R217) -/

/-- R216: the transactions committed for base index b. -/
def txCommitted (s : State) (b : Nat) : List Nat :=
  (List.range 64).filter fun i => (s.tx i).state = 3 ∧ (s.tx i).at_ = b ∧ ¬ (s.tx i).applied

/-- R30, stage 2: the output actions of the transactions committed for base index b, in slot and ADD order. -/
def txOutputs (s : State) (b : Nat) : List TxAction :=
  (txCommitted s b).flatMap fun i => (s.tx i).actions.filter fun a => a.kind = 3

/-- R216, R217: an axis or entry action applied at headland H. -/
def txActionApply (a : TxAction) (s : State) : State :=
  if a.kind = 5 then axisQueue a.target ⟨.txn, a.axisCmd, a.value, cmdDue a.axisCmd s.headRaw (s.headRaw + 128)⟩ s
  else if a.kind = 10 ∧ a.target / 2 ^ 24 = s.ownDev then
    match pubScalar s.image (a.target / 256 % 65536) (a.target % 256) with
    | some (m, _, v) => s.varPoke m v 0 a.value
    | none => s
  else s

/-- R216, R220: a committed transaction applied at its headland; the forced points among its actions are reported, and a peer
without a receipt is in doubt. -/
def txApply1 (i : Nat) (forced : TxAction → Bool) (s : State) : State :=
  let x := s.tx i
  let late := (x.parts.filter fun p => p.kind = 5 ∧ p.outcome = 0).map (·.id)
  let s1 := (s.forAll x.actions txActionApply).forAll late (noteDoubt (s.txHandle i) true)
  let s2 := s1.modTx i fun y => { y with
    applied := true, forced := y.actions.any fun a => decide (a.kind = 3) && forced a
    parts := y.parts.map fun p =>
      if p.kind ≤ 3 then { p with outcome := 1 } else if p.kind = 5 ∧ p.outcome = 0 then { p with doubt := true } else p }
  txFinish i s2

/-- R216: every transaction committed for the headland just reached is applied. -/
def txApply (forced : TxAction → Bool) (s : State) : State :=
  s.forAll (txCommitted s s.headIndex) fun i t => txApply1 i forced t

/-- R217: the writes that wait for runs that have ended take effect. -/
def deferredWrites (s : State) : State :=
  let ready := s.txn.deferred.filter fun w => ¬ (if w.old then (List.range 36).any fun k =>
    (s.run k).any fun r => r.old && decide (r.entry.desc = w.desc) else s.taskRuns w.desc)
  s.forAll ready fun w t => applyDeferred w.desc w.old t

/-- R598: a peer has answered: the coordinator's record for it goes. -/
def doubtOver (d h : Nat) (s : State) : State :=
  { s with txn := { s.txn with doubts := s.txn.doubts.filter fun x => ¬ (x.1 = d ∧ x.2.1 = h) } }

/-- R598: a peer in doubt asks: the decision that the coordinator holds for it, or that it holds none. -/
def doubtAsked (d h : Nat) (s : State) : State :=
  let known := (s.txn.doubts.find? fun x => x.1 = d ∧ x.2.1 = h).map (·.2.2)
  { s with txn := { s.txn with doubtAnswer := some (d, h, known) } }

/-- R597, R598, R220, R221: what a peer tells of a decision. -/
def peerReceipt (dev handle : Nat) (a : PeerAnswer) (s0 : State) : State :=
  let s := doubtOver dev handle s0
  match s.txSlot handle with
  | none => s
  | some i =>
    match s.partOf i 5 dev with
    | none => s
    | some n =>
      if ((s.tx i).parts[n]?).any fun p => p.outcome ≠ 0 then s
      else if (s.tx i).state = 7 then modPart i n (fun p => { p with outcome := 5, doubt := false }) s
      else if (s.tx i).state ≠ 3 then s
      else
        txFinish i (match a with
          | .received => if (s.tx i).applied then partLate i n 1 s else modPart i n (fun p => { p with outcome := 1 }) s
          | .late l => partLate i n l s
          | .expired => partUnsettled i n 3 s)

/-! ### The commands -/

/-- TXN_OPEN (R229). -/
def execTxnOpen (s : State) : Out := ok (txnCmdWrite (keyed 1) s)
/-- TXN_ADD (R201, R229). DEDUCED (assumption 48). -/
def execTxnAdd (s : State) : Out := ok (txnCmdWrite (keyed 2) s)
/-- TXN_SEAL (R208, R229). -/
def execTxnSeal (s : State) : Out := ok (txnCmdWrite (keyed 3) s)
/-- TXN_DROP (R205, R229). -/
def execTxnDrop (s : State) : Out := ok (txnCmdWrite (keyed 4) s)
/-- LOCAL_STAGING_DONE (R209). -/
def execLocalStagingDone (i : Fin 64) (s : State) : Out := ok (localStagingDone i s)
/-- PEER_VOTE (R212). -/
def execPeerVote (dev : Fin 8) (handle : BitVec 16) (yes : Bool) (reason : Fin 16) (s : State) : Out :=
  ok (peerVote dev handle.toNat yes reason s)
/-- TXN_DECISION (R214). -/
def execTxnDecision (s : State) : Out := ok (txDecision s)
/-- TXN_BROADCAST (R215). -/
def execTxnBroadcast (s : State) : Out := ok (txBroadcast s)
/-- DEFERRED_OD_WRITE (R217). -/
def execDeferredOdWrite (s : State) : Out := ok (deferredWrites s)
/-- TXN_HOLD_EXPIRY (R205). -/
def execTxnHoldExpiry (s : State) : Out := ok (txHoldExpiry s)
/-- OPEN_TIMEOUT (R206). -/
def execOpenTimeout (s : State) : Out := ok (txOpenTimeout s)
/-- PEER_RECEIPT (R597, R598). DEDUCED (assumption 49). -/
def execPeerReceipt (dev : Fin 8) (handle : BitVec 16) (a : PeerAnswer) (s : State) : Out :=
  ok (peerReceipt dev handle.toNat a s)

end Sys2Proof.Machine
end

