-- ==== Sys2Proof/Machine/Control.lean ====
section
/-! DEFINITION. Chapter 4: the output images, forcing, the controller's commands and stop, and the cycle watchdog. -/

namespace Sys2Proof.Machine

/-! ### Forcing (R129 to R131) -/

/-- The force entries whose EN is 1: they differ from reset, so the register table lists them. -/
def State.forceEntries (s : State) : List Nat :=
  (s.regs.filter fun x => 0x71000 ≤ x.1 ∧ x.1 < 0x75000 ∧ x.1 % 16 = 4 ∧
    s.flag ⟨x.1, 0⟩ F.FORCE_e_CTRL.EN).map fun x => (x.1 - 0x71000) / 16

/-- The enabled force entries of a direction: reference, type and value. -/
def State.forces (s : State) (input : Bool) : List (Nat × EType × Quad) :=
  if ¬ s.flag R.FORCE_CTRL F.FORCE_CTRL.ENABLE then []
  else s.forceEntries.filterMap fun e =>
    if s.flag (R.FORCE_e_CTRL e) F.FORCE_e_CTRL.INPUT = input then
      (etypeOf (s.get (R.FORCE_e_CTRL e) F.FORCE_e_CTRL.TYPE)).map fun t =>
        ((s.reg (R.FORCE_e_POINT e)).toNat, t, normCell t (s.reg64 (R.FORCE_e_VALUE_LO e) (R.FORCE_e_VALUE_HI e)))
    else none

/-- R118, R129: an enabled entry other than e forces an overlapping point in the same direction. -/
def forceOverlaps (s : State) (e r : Nat) (t : EType) (input : Bool) : Bool :=
  s.forceEntries.any fun k => decide (k ≠ e) && (s.flag (R.FORCE_e_CTRL k) F.FORCE_e_CTRL.INPUT == input) &&
    match etypeOf (s.get (R.FORCE_e_CTRL k) F.FORCE_e_CTRL.TYPE) with
    | some u => refOverlap r t (s.reg (R.FORCE_e_POINT k)).toNat u
    | none => false

/-- R129: an entry with a reference, a type code and a direction may be enabled. -/
def forceOk (s : State) (e r tc : Nat) (input : Bool) : Bool :=
  match etypeOf tc with
  | none => false
  | some t => refFieldsOk r && refTypeOk s.image r t input && refDirOk r s.ownDev input && !forceOverlaps s e r t input

/-- R129: a refused enable or edit. -/
def forceRefused (s : State) : State := s.raise R.FORCE_EVENTS F.FORCE_EVENTS.BAD_POINT

/-- R129, R155: a write of FORCE_e_CTRL. -/
def forceCtrlEntryWrite (e : Nat) (v : Word) (s : State) : State :=
  let w := v &&& 0x73
  let was := s.flag (R.FORCE_e_CTRL e) F.FORCE_e_CTRL.EN
  let keep := s.reg (R.FORCE_e_CTRL e) &&& 4
  let good := forceOk s e (s.reg (R.FORCE_e_POINT e)).toNat (fldOf F.FORCE_e_CTRL.TYPE w) (fldOf F.FORCE_e_CTRL.INPUT w = 1)
  if fldOf F.FORCE_e_CTRL.EN w = 1 ∧ ¬ good then
    if was then forceRefused s
    else forceRefused (s.setReg (R.FORCE_e_CTRL e) ((w &&& 0x72) ||| keep))
  else s.setReg (R.FORCE_e_CTRL e) (w ||| keep)

/-- R129: a write of FORCE_e_POINT. -/
def forcePointWrite (e : Nat) (v : Word) (s : State) : State :=
  let c := R.FORCE_e_CTRL e
  if s.flag c F.FORCE_e_CTRL.EN ∧
      ¬ forceOk s e v.toNat (s.get c F.FORCE_e_CTRL.TYPE) (s.flag c F.FORCE_e_CTRL.INPUT) then forceRefused s
  else s.setReg (R.FORCE_e_POINT e) v

/-- Every force entry disabled, its UNWRITTEN flag with it. DESIGN CHOICE (assumption 234). -/
def forcesOff (s : State) : State :=
  s.forAll s.forceEntries fun e t => (t.put (R.FORCE_e_CTRL e) F.FORCE_e_CTRL.EN 0).put (R.FORCE_e_CTRL e)
    F.FORCE_e_CTRL.UNWRITTEN 0

/-- R153: a write of FORCE_CTRL. -/
def forceCtrlWrite (v : Word) (s : State) : State :=
  let s1 := s.setReg R.FORCE_CTRL (v &&& 3)
  if fldOf F.FORCE_CTRL.CLEAR_ALL v = 1 then { s1 with exec := { s1.exec with clearAll := true } } else s1

/-- R141: the controller bridges, and the headland just reached is not the one at which it rejoins. -/
def State.bridged (s : State) : Bool :=
  s.ctrlBridging && !(s.exec.restored.isSome && decide (s.exec.rejoinAt ≤ s.headIndex))

/-- R129, R130: the input forces in force at a headland: during a bridge those of its start. DEDUCED (assumption 92). -/
def State.inputForces (s : State) : List (Nat × EType × Quad) := if s.bridged then s.exec.bridgeForces else s.forces true

/-- R129, R130: the output forces in force at a headland: during a bridge those before it, which the held values carry. -/
def State.outputForces (s : State) : List (Nat × EType × Quad) := if s.bridged then s.img.forces else s.forces false

/-- R130, R153: the CLEAR_ALL that waits takes effect at a headland, after a bridge at the headland of the rejoin. -/
def forceHeadland (s : State) : State :=
  if s.exec.clearAll && !s.bridged then { forcesOff s with exec := { s.exec with clearAll := false } } else s

/-- R216: an action's point is forced at H. -/
def State.forcedPoint (s : State) (a : TxAction) : Bool :=
  s.img.forces.any fun (r, t, _) => refOverlap a.target a.ty r t

/-! ### The live image (R30, R34, R126) -/

/-- R30, stage 3: an image with forced values. -/
def withForces (l : List (Nat × EType × Quad)) (m : Tbl Byte) : Tbl Byte := l.foldl (fun i (r, t, v) => imgWrite i r t v) m

/-- R30, stage 1: the shadow images of the classes due, as far as they were written since they last took effect. DEDUCED (assumption 46). -/
def stageOne (s : State) : State :=
  s.forAll ((List.range 4).filter fun c => natBit s.head.classDue c) fun c t =>
    { t with img := { t.img with
      base := imgOverlay t.img.base (tget [] t.img.shadow c) (tget [] t.img.fresh c)
      fresh := tset [] t.img.fresh c [] } }

/-- R30, stage 2: actions written into an image. -/
def stageTwo (l : List TxAction) (m : Tbl Byte) : Tbl Byte := l.foldl (fun i a => imgWrite i a.target a.ty a.value) m

/-- R30, R34, R126: the live image formed at the headland just reached: stage 1 only in RUNNING, stage 3 not while the controller bridges,
where the image is held. -/
def formLive (s : State) : State :=
  let acts := txOutputs s s.headIndex
  if s.bridged then
    { s with img := { s.img with base := stageTwo acts s.img.base, live := stageTwo acts s.img.live, acts := acts } }
  else
    let s1 := if s.ctrlRunning then stageOne s else s
    let b := stageTwo acts s1.img.base
    let l := s.forces false
    { s1 with img := { s1.img with base := b, live := withForces l b, acts := acts, forces := l } }

/-- R124: every shadow image equal to the live image. -/
def shadowsLive (s : State) : State :=
  (List.range 4).foldl (fun t c => { t with img := { t.img with
    shadow := tset [] t.img.shadow c t.img.live, fresh := tset [] t.img.fresh c [] } })
    { s with img := { s.img with base := s.img.live } }

/-- R127: the value of an output point in the safe image. -/
def OutPoint.safe (o : OutPoint) (live : Tbl Byte) : Quad :=
  match o.safeMode with
  | 1 => imgRead live o.ref o.ty
  | 2 => normCell o.ty o.safeVal
  | _ => 0

/-- R261: the code of a DAC's AOUT point in an image. -/
def dacCode (m : Tbl Byte) (n : Nat) : Nat := imgNat m (refAddr (2 ^ 28 + n)) 4

/-- R261: DAC codes above 65,535 in the live image are clamped and counted. DEDUCED (assumption 56). -/
def dacClamp (s : State) : State :=
  s.forAll ((List.range 32).filter fun n => 65535 < dacCode s.img.live n) fun n t =>
    (({ t with img := { t.img with live := imgSet t.img.live (refAddr (2 ^ 28 + n)) 65535 4 } }).incSat
      R.DAC_CLAMP_CNT).raise R.DAC_EVENTS F.DAC_EVENTS.CLAMPED

/-- R126, R127: the live image of a stop at its grain D: the safe values in place of stage 1, stage 2 of a headland that falls at D, and the
forces in force; its seal, the switch of the outputs and the load of the DACs are due. DEDUCED (assumption 43). -/
def safeImage (s : State) : State :=
  let b := s.image.outs.foldl (fun m o => imgWrite m o.ref o.ty (o.safe s.img.live)) s.img.base
  let b2 := if s.raw = s.headRaw then stageTwo s.img.acts b else b
  dacClamp { s with
    img := { s.img with base := b2, live := withForces s.img.forces b2 }
    head := { s.head with safeSeal := some s.raw, safeSwitch := some s.raw, safeDac := some s.raw } }

/-- R32, R126: the grain that the next of two like events counts from: a headland's, when it is due, or a controller stop's. -/
def nextDue (due : Bool) (h : Quad) (stop : Option Quad) : Option Quad :=
  match due, stop with
  | true, some d => some (if d.toNat < h.toNat then d else h)
  | true, none => some h
  | false, d => d

/-! ### The controller stop (R126 to R128) -/

/-- R126 to R128, R517: a controller stop with a cause. DEDUCED (assumption 150). -/
def controllerStop (cause : Nat) (s : State) : State :=
  let n := collieEntries s
  let s1 := (s.put R.EXEC_STATUS F.EXEC_STATUS.STATE 2).put R.EXEC_STATUS F.EXEC_STATUS.STOP_CAUSE cause
  let s2 := s1.raiseNamed R.EXEC_EVENTS F.EXEC_EVENTS.CTRL_STOP 3 (BitVec.ofNat 64 cause)
  let s3 := deferredWrites (haltRuns s2)
  let s4 := (collieFlush s3).addSat R.EXEC_STOP_FLUSHED n
  let s5 := { s4 with exec := { s4.exec with pendCmd := none } }
  let s6 := txStop (axesStop s5)
  let s7 := if s6.flag R.FORCE_CTRL F.FORCE_CTRL.RELEASE_ON_STOP then forcesOff s6 else s6
  let s8 := if s7.flag R.SAFEMIR_REQ F.SAFEMIR_REQ.DROP_ON_STOP then s7.put R.SAFEMIR_REQ F.SAFEMIR_REQ.REQ 0 else s7
  (safeImage s8).put R.EXEC_STATUS F.EXEC_STATUS.CMD_PENDING 0

/-! ### Commands (R123, R124) -/

/-- R123: a refused command. -/
def cmdRefused (s : State) : State := s.raise R.EXEC_EVENTS F.EXEC_EVENTS.CMD_REFUSED

/-- R122: the controller state. -/
def State.ctrl (s : State) : Nat := s.get R.EXEC_STATUS F.EXEC_STATUS.STATE

/-- R123: RESUME and ABORT are accepted: SAFE, or STOPPED with cause RESTORED. -/
def State.mayResume (s : State) : Bool :=
  decide (s.ctrl = 2) || (decide (s.ctrl = 0) && decide (s.get R.EXEC_STATUS F.EXEC_STATUS.STOP_CAUSE = 5))

/-- R124: a command waits for the first base headland at least 1,024 grains after its write. -/
def pendCommand (c : Nat) (s : State) : State :=
  ({ s with exec := { s.exec with pendCmd := some (c, s.firstIndexAfter s.vNow 1024) } }).put R.EXEC_STATUS
    F.EXEC_STATUS.CMD_PENDING 1

/-- R123: every retained image and global area is zero. -/
def zeroRetained (s : State) : State := { s with collie := { s.collie with retained := [], globals := [] } }

/-- R423: at START every stored value of a persisted variable is written into it; one of another type is discarded. -/
def restorePersisted (s : State) : State :=
  s.forAll s.persisted fun (key, x) t =>
    match findPub t.image (key / 256) (key % 256) with
    | some (m, _, d) =>
      if entryType d = x.ty ∧ x.cells.length = d.elems then
        t.forAll x.cells.zipIdx fun (v, i) u => u.varPoke m d i v
      else (dropPersisted key t).raise R.SYS_EVENTS F.SYS_EVENTS.PERSIST_MISMATCH
    | none => t

/-- R123, R124, R622: START, RESUME or ABORT; none while a lifecycle transition is in progress (R574). DEDUCED (assumptions 126, 147). -/
def runCommand (c : Nat) (s : State) : State :=
  let good : Bool := if c = 1 then decide (s.ctrl = 0 ∨ s.ctrl = 2) && s.headRun else s.mayResume
  if s.shutStep ≠ 0 ∨ s.exec.pendCmd.isSome ∨ s.sec.running.isSome ∨ ¬ good then cmdRefused s
  else pendCommand c (if c = 1 then restorePersisted (zeroRetained s) else s)

/-- R123: STOP. -/
def stopCommand (s : State) : State := if s.ctrlRunning then controllerStop 3 s else cmdRefused s

/-- R123: CHECKPOINT. -/
def checkpointCommand (s : State) : State :=
  if s.ctrlRunning then { s with exec := { s.exec with cutAsked := max 2 s.exec.cutAsked } } else cmdRefused s

/-- R118: system points set for the next first run of every task, beside those that its first run still owes. -/
def setSysAll (mask : Nat) (s : State) : State :=
  s.forAll (s.image.tasks.map (·.1)) fun d t => t.setTask d { t.task d with sysNext := (t.task d).sysNext ||| mask }

/-- R118: the system points of a command, as a mask. -/
def sysMask (c cause : Nat) : Nat :=
  1 + (if c = 3 then 2 else 0) + (if c = 4 then 4 else 0) + (if c ≠ 1 ∧ cause = 5 then 32 else 0)

/-- R124: a pending command takes effect at its headland. DEDUCED (assumption 45). -/
def commandTakesEffect (s : State) : State :=
  match s.exec.pendCmd with
  | none => s
  | some (c, b) =>
    if s.headIndex < b then s
    else
      let s1 := setSysAll (sysMask c (s.get R.EXEC_STATUS F.EXEC_STATUS.STOP_CAUSE)) (shadowsLive s)
      let s2 := (s1.put R.EXEC_STATUS F.EXEC_STATUS.STATE 1).put R.EXEC_STATUS F.EXEC_STATUS.STOP_CAUSE 0
      let s3 := (s2.put R.EXEC_STATUS F.EXEC_STATUS.CMD_PENDING 0).put R.EXEC_STATUS F.EXEC_STATUS.SAFE_OUT 0
      axesRelease { s3 with exec := { s3.exec with pendCmd := none } }

/-! ### The cycle watchdog (R125) -/

/-- R125: the deadline of class n for the headland at raw grain h. -/
def State.deadline (s : State) (n : Nat) (h : Quad) : Quad :=
  h + BitVec.ofNat 64 (s.classK n * s.pg * ((s.reg (R.EXEC_n_BUDGET n)).toNat % 128) / 100)

/-- R125: the tasks of a class made ready at a headland and not completed, with that headland. -/
def State.lateTasks (s : State) (n : Nat) : List (Nat × Nat × Quad) :=
  (s.collie.tasks.filterMap fun (t, x) => if (s.desc t).cls = n ∧ (s.desc t).kind = 1 then x.due.map fun d => (t, d) else none) ++
    s.collie.oldTasks.filterMap fun (t, x) =>
      if (s.oldDesc t).cls = n ∧ (s.oldDesc t).kind = 1 then x.due.map fun d => (t, d) else none

/-- R125, R126: a class cycle overruns at its deadline. DESIGN CHOICE (assumption 47). -/
def overrun (n : Nat) (s : State) : State :=
  match s.lateTasks n with
  | [] => s
  | (t, b, h) :: _ =>
    let s1 := s.advanceTo (s.deadline n h)
    let w := t + 4096 * n + 2 ^ 15 * b2n ((s.task t).st = 1 || (s.oldTask t).st = 1)
    let s2 := ((s1.setReg R.EXEC_OVR_TASK (BitVec.ofNat 32 w)).setReg64 R.EXEC_OVR_INDEX_LO R.EXEC_OVR_INDEX_HI
      (BitVec.ofNat 64 b)).incSat R.EXEC_OVR_CNT
    let s3 := (s2.raise R.EXEC_EVENTS F.EXEC_EVENTS.OVERRUN).put R.EXEC_STATUS F.EXEC_STATUS.OVR_CLASS n
    if s.ctrlRunning then controllerStop 1 s3 else s3

/-! ### Tasks (R104, R151) -/

/-- R151: a write of EXEC_t_TASK_CTRL. -/
def taskCtrlWrite (t : Nat) (v : Word) (s : State) : State :=
  let r := R.EXEC_t_TASK_CTRL t
  let en := fldOf F.EXEC_t_TASK_CTRL.ENABLE v
  let p := fldOf F.EXEC_t_TASK_CTRL.POLICY v
  let s1 := (s.put r F.EXEC_t_TASK_CTRL.ENABLE en).put r F.EXEC_t_TASK_CTRL.POLICY (if p = 3 then 0 else p)
  let s2 := if fldOf F.EXEC_t_TASK_CTRL.FAULTED v = 1 then s1.put r F.EXEC_t_TASK_CTRL.FAULTED 0 else s1
  if en = 1 then s2.put r F.EXEC_t_TASK_CTRL.DISABLED_BY_FAULT 0 else s2

/-- R103, R104: a task fault of the run on a core, at a byte offset of the code section: recorded and counted, then the
policy acts; the result is whether the task runs on, and the state. -/
def taskFault (k code : Nat) (s : State) : Bool × State :=
  match s.run k with
  | none => (true, s)
  | some r =>
    let t := r.entry.desc
    let fr := r.frames.headD ⟨0, 0, [], []⟩
    let s1 := ((s.incSat (R.EXEC_t_FAULT_CNT t)).incSat R.EXEC_FAULT_CNT).raise (R.EXEC_t_TASK_CTRL t)
      F.EXEC_t_TASK_CTRL.FAULTED
    let s2 :=
      if r.faulted then s1
      else
        let held := s1.flag R.EXEC_EVENTS F.EXEC_EVENTS.TASK_FAULT
        let s3 := if held then s1 else
          ((s1.setReg R.EXEC_FAULT_TASK (BitVec.ofNat 32 t)).setReg R.EXEC_FAULT_REC
            (BitVec.ofNat 32 (code + 256 * fr.func))).setReg R.EXEC_FAULT_OFFSET (BitVec.ofNat 32 fr.pc)
        (s3.raiseNamed R.EXEC_EVENTS F.EXEC_EVENTS.TASK_FAULT 2 (BitVec.ofNat 64 (t + 65536 * code))).setRun k
          (some { r with faulted := true })
    match s.get (R.EXEC_t_TASK_CTRL t) F.EXEC_t_TASK_CTRL.POLICY with
    | 1 => (false, deferredWrites (stopTask k s2))
    | 2 => (false, controllerStop 2 (deferredWrites (stopTask k s2)))
    | _ => (true, s2)

/-! ### The commands -/

/-- R146: a write of EXEC_CMD; a wrong KEY is ignored, and the commands of the online change are handled by olc. -/
def ctrlCmdWrite (olc : Nat → State → State) (v : Word) (s : State) : State :=
  if fldOf F.EXEC_CMD.KEY v ≠ 0x4A58 then s
  else
    match fldOf F.EXEC_CMD.CMD v with
    | 1 => runCommand 1 s
    | 2 => stopCommand s
    | 3 => runCommand 3 s
    | 4 => runCommand 4 s
    | 5 => checkpointCommand s
    | 6 => olc 6 s
    | 7 => olc 7 s
    | _ => cmdRefused s

/-- START (R123). -/
def execStart (s : State) : Out := ok (ctrlCmdWrite (fun _ t => t) (keyed 1) s)
/-- STOP (R123, R126). -/
def execStop (s : State) : Out := ok (ctrlCmdWrite (fun _ t => t) (keyed 2) s)
/-- RESUME (R123). -/
def execResume (s : State) : Out := ok (ctrlCmdWrite (fun _ t => t) (keyed 3) s)
/-- ABORT (R123). -/
def execAbort (s : State) : Out := ok (ctrlCmdWrite (fun _ t => t) (keyed 4) s)
/-- CHECKPOINT (R123). -/
def execCheckpoint (s : State) : Out := ok (ctrlCmdWrite (fun _ t => t) (keyed 5) s)
/-- COMMAND_TAKES_EFFECT (R124). -/
def execCommandTakesEffect (s : State) : Out := ok (commandTakesEffect s)
/-- OVERRUN (R125). -/
def execOverrun (n : Fin 4) (s : State) : Out := ok (overrun n s)
/-- TASK_CTRL_WRITE (R151). -/
def execTaskCtrlWrite (t : Fin 4096) (v : Word) (s : State) : Out := ok (taskCtrlWrite t v s)
/-- FORCE_ENTRY_WRITE (R129): a write of FORCE_e_CTRL, or of FORCE_e_POINT. -/
def execForceEntryWrite (e : Fin 1024) (ctrl : Bool) (v : Word) (s : State) : Out :=
  ok (if ctrl then forceCtrlEntryWrite e v s else forcePointWrite e v s)
/-- CLEAR_ALL (R153): a write of FORCE_CTRL whose CLEAR_ALL is 1. -/
def execClearAll (v : Word) (s : State) : Out := ok (forceCtrlWrite (setFldOf F.FORCE_CTRL.CLEAR_ALL 1 v) s)
/-- FORCE_CTRL_WRITE (R130, R153). -/
def execForceCtrlWrite (v : Word) (s : State) : Out := ok (forceCtrlWrite v s)

end Sys2Proof.Machine
end

