-- ==== Sys2Proof/Machine/Mem.lean ====
section
/-! DEFINITION. CRC-32C (R96), and the addressed memory: the on-chip banks and DDR4 as bytes by physical address (R527,
R298). -/

namespace Sys2Proof.Machine

/-- R96: one bit of the reflected CRC-32C. -/
def crcBit (c : Word) : Word := if c.getLsbD 0 then (c >>> 1) ^^^ 0x82F63B78 else c >>> 1

/-- R96: n bits. -/
def crcBits : Nat → Word → Word
  | 0, c => c
  | n + 1, c => crcBits n (crcBit c)

/-- R96: CRC-32C of bytes. -/
def crc32c (l : List Byte) : Word :=
  l.foldl (fun c b => crcBits 8 (c ^^^ b.zeroExtend 32)) 0xFFFFFFFF ^^^ 0xFFFFFFFF

/-- n bytes of memory from an address; a byte that nothing has written reads 0. DESIGN CHOICE (assumption 68). DEDUCED (assumption 143). -/
def State.memRead (s : State) (a n : Nat) : List Byte := imgBytes s.mem a n

/-- Bytes written to memory from an address. -/
def State.memWrite (s : State) (a : Nat) (l : List Byte) : State := { s with mem := imgPut s.mem a l }

/-- R529: bytes that the capture engine writes into its bank, unless another owns it. -/
def captWrite (a : Nat) (l : List Byte) (s : State) : State :=
  if s.get (R.MEM_k_OWNER 5) F.MEM_k_OWNER.OWNER = 5 then s.memWrite a l else violation 1 a s

/-- R527: base address and size of bank k. -/
def bankPlace : Nat → Nat × Nat
  | 4 => (0x11000000, 0x800000)
  | 5 => (0x12000000, 0x400000)
  | 6 => (0x13000000, 0x200000)
  | 7 => (0x13400000, 0x40000)
  | 8 => (0x13800000, 0x80000)
  | k => (0x10000000 + k * 0x400000, 0x400000)

/-- R530: the bytes of the secure window at the top of a bank. -/
def State.secWin (s : State) (k : Nat) : Nat := s.get (R.MEM_k_CFG k) F.MEM_k_CFG.SECWIN * 4096

end Sys2Proof.Machine
end

