-- ==== Sys2Proof/Machine/Capture.lean ====
section
/-! DEFINITION. Chapter 8, first part: capture channels, their triggers, segments and the overflow ring. -/

namespace Sys2Proof.Machine

/-! ### Access -/

/-- A capture channel. -/
def State.capt (s : State) (n : Nat) : CaptChan := tget CaptChan.idle s.capture.chans n
/-- A capture channel, set. -/
def State.setCapt (s : State) (n : Nat) (x : CaptChan) : State :=
  { s with capture := { s.capture with chans := tset CaptChan.idle s.capture.chans n x } }
/-- A capture channel, changed. -/
def State.modCapt (s : State) (n : Nat) (f : CaptChan → CaptChan) : State := s.setCapt n (f (s.capt n))
/-- KIND of a channel's source. -/
def State.captKind (s : State) (n : Nat) : Nat := s.get (R.CAPT_n_SRC n) F.CAPT_n_SRC.KIND
/-- INDEX of a channel's source. -/
def State.captIndex (s : State) (n : Nat) : Nat := s.get (R.CAPT_n_SRC n) F.CAPT_n_SRC.INDEX
/-- R282: the sampling period of a source. -/
def State.captPeriod (s : State) (n : Nat) : Nat :=
  match s.captKind n with
  | 0 => 512
  | 1 => 32
  | _ => 1024
/-- R282: the bytes of a record. -/
def State.captWidth (s : State) (n : Nat) : Nat := if s.captKind n = 2 then 8 else 4
/-- PRE. -/
def State.captPre (s : State) (n : Nat) : Nat := (s.reg (R.CAPT_n_PRE n)).toNat
/-- POST. -/
def State.captPost (s : State) (n : Nat) : Nat := (s.reg (R.CAPT_n_POST n)).toNat
/-- DESC_BASE and DESC_COUNT. -/
def State.captShare (s : State) (n : Nat) : Nat × Nat :=
  (s.get (R.CAPT_n_SEG_CFG n) F.CAPT_n_SEG_CFG.DESC_BASE, s.get (R.CAPT_n_SEG_CFG n) F.CAPT_n_SEG_CFG.DESC_COUNT)

/-- R241, R242: a converter unit as it stands at a raw grain: a cleared or set RUN whose boundary has come has taken effect, and an
injected sequence whose last slot is over is complete. DEDUCED (assumption 51). -/
def AUnit.at (x : AUnit) (g : Quad) : AUnit :=
  let past (q : Option Quad) : Bool := match q with
    | some b => decide (b.toNat ≤ g.toNat)
    | none => false
  let a := if past x.injEnd then
      { x with inj := .none, injEnd := none, suspended := x.suspended && decide (x.cal ≠ .none) } else x
  let waits (t : Stage) : Stage := if past a.startAt ∧ t = .waiting then .waiting else .none
  let b := if past a.stopAt then
      { a with running := false, stopAt := none, inj := waits a.inj, injEnd := none, cal := waits a.cal, suspended := false } else a
  if past b.startAt then { b with running := true, startAt := none, next := 0, slot := b.startAt.getD b.slot } else b

/-- R285: SEG_SIZE. -/
def State.segSize (s : State) (n : Nat) : Nat :=
  (64 + (s.captPre n + s.captPost n) * s.captWidth n + 63) / 64 * 64

/-- The offset of slot k of a channel in the capture bank. -/
def State.slotOfs (s : State) (n k : Nat) : Nat := (s.reg (R.CAPT_n_BASE n)).toNat * 64 + k * s.segSize n
/-- The address of slot k of a channel. -/
def State.slotAddr (s : State) (n k : Nat) : Nat := (bankPlace 5).1 + s.slotOfs n k
/-- The descriptor of slot k of a channel. -/
def State.slotDesc (s : State) (n k : Nat) : Nat := (s.captShare n).1 + k

/-- The channel to which a descriptor is shared out. -/
def State.descOwner (s : State) (d : Nat) : Option Nat :=
  (List.range 16).find? fun n => decide ((s.captShare n).1 ≤ d) && decide (d < (s.captShare n).1 + (s.captShare n).2)

/-- R286: the state of a descriptor: 0 FREE, 1 FILLING, 2 READY, 3 COPYING. -/
def State.segState (s : State) (d : Nat) : Nat := s.get (R.CAPT_d_SEG d) F.CAPT_d_SEG.STATE
/-- The state of a descriptor, set. -/
def setSegState (d st : Nat) (s : State) : State := s.put (R.CAPT_d_SEG d) F.CAPT_d_SEG.STATE st

/-- CAPT_d_SEG as it reads (R325). -/
def segRead (s : State) (d : Nat) : Nat :=
  match s.descOwner d with
  | some n => s.slotOfs n (d - (s.captShare n).1) / 64 % 65536 + 65536 * s.segState d + 2 ^ 20 * n + 2 ^ 24
  | none => 65536 * s.segState d

/-- R284: a refused write, ARM or release. -/
def captRefused (s : State) : State := s.raise R.CAPT_EVENTS F.CAPT_EVENTS.CFG_REFUSED

/-- The channel is not IDLE. -/
def CaptChan.busy (x : CaptChan) : Bool := x.st ≠ 0 || x.armAt.isSome

/-! ### The overflow ring (R298, R299) -/

/-- The ring's size in 64-byte units. DEDUCED (assumption 173). -/
def State.ovfSize (s : State) : Nat := (s.reg R.CAPT_OVF_SIZE).toNat * 1024
/-- The units in use. DESIGN CHOICE (assumption 60). -/
def State.ovfUsed (s : State) : Nat :=
  ((s.reg R.CAPT_OVF_HEAD).toNat + s.ovfSize - (s.reg R.CAPT_OVF_TAIL).toNat) % s.ovfSize
/-- The ring's base address. -/
def State.ovfBase (s : State) : Nat := (s.reg64 R.CAPT_OVF_BASE_LO R.CAPT_OVF_BASE_HI).toNat % 2 ^ 40 / 64 * 64

/-- R298: the units that a segment takes, with the pad before it when it does not fit before the end of the ring. -/
def State.ovfPad (s : State) (u : Nat) : Nat :=
  let h := (s.reg R.CAPT_OVF_HEAD).toNat
  if h + u ≤ s.ovfSize then 0 else s.ovfSize - h

/-- R298: the copy of the next READY segment starts, or waits for ring space. DEDUCED (assumption 64). -/
def ovfKick (s : State) : State :=
  if ¬ s.flag R.CAPT_CTRL F.CAPT_CTRL.OVF_EN ∨ s.flag R.CAPT_STATUS F.CAPT_STATUS.OVF_SUSPENDED ∨ s.capture.copying.isSome then s
  else
    match s.capture.ready.find? fun d => match s.descOwner d with
        | some n => s.flag (R.CAPT_n_CTRL n) F.CAPT_n_CTRL.OVF
        | none => false with
    | none => s
    | some d =>
      let u := s.segSize ((s.descOwner d).getD 0) / 64
      if s.ovfUsed + s.ovfPad u + u < s.ovfSize then
        (setSegState d 3 { s with capture := { s.capture with
          ready := s.capture.ready.erase d, copying := some d } }).put R.CAPT_STATUS F.CAPT_STATUS.OVF_ACTIVE 1
      else s.raise R.CAPT_EVENTS F.CAPT_EVENTS.OVF_FULL

/-- R296: a header's bytes 0 to 59 with their CRC. -/
def withCrc (l : List Byte) : List Byte := l ++ leBytes 4 (crc32c l).toNat

/-- R298: a pad header of a length in units. -/
def padHeader (u : Nat) : List Byte :=
  withCrc (leBytes 5 0 ++ [0xFF] ++ leBytes 26 0 ++ leBytes 4 u ++ leBytes 24 0)

/-- R298: the bytes of a segment with OVF set in its header. -/
def ovfBytes (l : List Byte) : List Byte :=
  withCrc ((l.take 47) ++ [l.getD 47 0 ||| 8] ++ (l.drop 48).take 12) ++ l.drop 64

/-- R298, R299: the copy in progress completes or fails. -/
def ovfCopy (good : Bool) (s : State) : State :=
  match s.capture.copying with
  | none => s
  | some d =>
    let s1 := ({ s with capture := { s.capture with copying := none } }).put R.CAPT_STATUS F.CAPT_STATUS.OVF_ACTIVE 0
    if ¬ good ∨ ¬ s.flag R.DDR_STATUS F.DDR_STATUS.READY then
      (((setSegState d 2 { s1 with capture := { s1.capture with ready := d :: s1.capture.ready } }).put R.CAPT_STATUS
        F.CAPT_STATUS.OVF_SUSPENDED 1).incSat R.CAPT_OVF_FAIL_CNT).raise R.CAPT_EVENTS F.CAPT_EVENTS.OVF_FAULT
    else
      let n := (s.descOwner d).getD 0
      let u := s.segSize n / 64
      let pad := s.ovfPad u
      let h := (s.reg R.CAPT_OVF_HEAD).toNat
      let s2 := if pad = 0 then s1 else s1.memWrite (s.ovfBase + h * 64) (padHeader pad)
      let at_ := if pad = 0 then h else 0
      let s3 := s2.memWrite (s.ovfBase + at_ * 64) (ovfBytes (s.memRead (s.slotAddr n (d - (s.captShare n).1)) (64 * u)))
      ovfKick (setSegState d 0 (s3.setReg R.CAPT_OVF_HEAD (BitVec.ofNat 32 ((at_ + u) % s.ovfSize))))

/-- R300: a write of CAPT_OVF_TAIL. -/
def ovfTailWrite (v : Word) (s : State) : State :=
  if v.toNat < s.ovfSize ∧
      (v.toNat + s.ovfSize - (s.reg R.CAPT_OVF_TAIL).toNat) % s.ovfSize ≤ s.ovfUsed then
    ovfKick (s.setReg R.CAPT_OVF_TAIL v)
  else captRefused s

/-- R286: a write of CAPT_RELEASE; a segment behind a released one may now be copied (R298). -/
def captRelease (d : Nat) (s : State) : State :=
  if s.segState d = 2 then
    ovfKick (setSegState d 0 { s with capture := { s.capture with ready := s.capture.ready.erase d } })
  else captRefused s

/-! ### Segments (R291 to R297) -/

/-- R297: a post of a channel. -/
def captPostEvt (n : Nat) (f : Fld) (ended : Nat) (s : State) : State :=
  let w := s.reg (R.CAPT_n_EVT n)
  if fldOf f w = 1 then
    hwPost (fldOf F.CAPT_n_EVT.DESC w) (BitVec.ofNat 64 (n + 16 * ended + 65536 * s.slotDesc n (s.capt n).slot +
      2 ^ 32 * (s.reg (R.CAPT_n_SEQ n)).toNat)) s
  else s

/-- The ring index of the oldest pre-trigger record. -/
def CaptChan.preHead (x : CaptChan) (pre : Nat) : Nat := if x.preValid < pre then 0 else x.preNext

/-- PRIMARY: the lowest code in a trigger map. -/
def primaryOf (m : Nat) : Nat := ((List.range 7).find? fun i => natBit m i).getD 0

/-- R282: an AU word with VALID 0. -/
def auInvalid (s : State) (n : Nat) (v : Quad) : Bool := decide (s.captKind n = 0) && !v.getLsbD 24

/-- The record at a place of the slot in use. -/
def State.recordOf (s : State) (n place : Nat) : Quad :=
  BitVec.ofNat 64 (leNat (s.memRead (s.slotAddr n (s.capt n).slot + 64 + place * s.captWidth n) (s.captWidth n)))

/-- R296: a word with VALID 0 is stored in the segment, behind the trigger or in the pre-trigger ring. -/
def segInvalid (s : State) (n : Nat) : Bool :=
  let x := s.capt n
  x.invalid || (decide (s.captKind n = 0) && (List.range x.preValid).any fun j => auInvalid s n (s.recordOf n j))

/-- R296: the header of the segment that ends, for a reason. -/
def segHeader (s : State) (n reason : Nat) : List Byte :=
  let x := s.capt n
  let pre := s.captPre n
  withCrc (leBytes 4 (s.reg (R.CAPT_n_SEQ n)).toNat ++ leBytes 1 n ++ leBytes 1 (s.captKind n) ++
    leBytes 1 (primaryOf x.trigMap) ++ leBytes 1 x.trigMap ++ leBytes 8 x.trigV.toNat ++
    leBytes 8 (x.trigRaw - BitVec.ofNat 64 (x.preValid * s.captPeriod n)).toNat ++ leBytes 4 x.preValid ++
    leBytes 4 (x.preHead pre) ++ leBytes 4 x.post ++ leBytes 4 x.deadTime ++ leBytes 4 x.segMissed ++
    leBytes 2 (s.captPeriod n) ++ leBytes 1 reason ++
    leBytes 1 (b2n x.first + 2 * b2n (x.preValid < pre) + 4 * b2n (segInvalid s n)) ++
    leBytes 8 (if x.segMissed = 0 then 0 else x.segMissedV.toNat) ++ leBytes 4 0)

/-- R291: the channel goes IDLE. -/
def captIdle (n : Nat) (s : State) : State := s.modCapt n fun x => { x with st := 0, armAt := none, trigs := [] }

/-- R291: a channel that has COUNT segments to take has taken them. -/
def captDone (s : State) (n taken : Nat) : Bool :=
  !s.flag (R.CAPT_n_CTRL n) F.CAPT_n_CTRL.CONTINUOUS && decide (s.get (R.CAPT_n_CTRL n) F.CAPT_n_CTRL.COUNT ≤ taken)

/-- R291, R296, R297: the segment ends for a reason: its header is written, its descriptor becomes READY, and the channel
enters REARM, or IDLE after COUNT segments. DEDUCED (assumption 61). -/
def segEnd (n reason : Nat) (s : State) : State :=
  let x := s.capt n
  let d := s.slotDesc n x.slot
  let s1 := captWrite (s.slotAddr n x.slot) (segHeader s n reason) s
  let s2 := captPostEvt n F.CAPT_n_EVT.POST_SEG 1 (s1.setReg (R.CAPT_d_SEG_SEQ d) (s.reg (R.CAPT_n_SEQ n)))
  let s3 := (setSegState d 2 { s2 with capture := { s2.capture with ready := s2.capture.ready ++ [d] } }).raise
    R.CAPT_EVENTS F.CAPT_EVENTS.SEG_READY
  let s4 := (s3.incWrap (R.CAPT_n_SEQ n)).modCapt n fun y => { y with
    st := 3, taken := y.taken + 1, slot := (y.slot + 1) % max 1 (s.captShare n).2, segLast := y.last }
  ovfKick (if captDone s n (x.taken + 1) then captIdle n s4 else s4)

/-- A record written at a place of the slot. -/
def recordAt (n place : Nat) (v : Quad) (s : State) : State :=
  captWrite (s.slotAddr n (s.capt n).slot + 64 + place * s.captWidth n) (leBytes (s.captWidth n) v.toNat) s

/-- R292: a record written into the pre-trigger ring. -/
def preRecord (n : Nat) (v : Quad) (s : State) : State :=
  let pre := s.captPre n
  if pre = 0 then s
  else
    let x := s.capt n
    (recordAt n x.preNext v s).setCapt n { x with
      preNext := (x.preNext + 1) % pre, preValid := min pre (x.preValid + 1)
      pushed := if x.preValid < pre then none else some (s.recordOf n x.preNext) }

/-- The last record taken out of the pre-trigger ring again; the one that it replaced is back. -/
def preUndo (n : Nat) (s : State) : State :=
  let x := s.capt n
  let pre := s.captPre n
  if pre = 0 then s
  else
    let k := (x.preNext + pre - 1) % pre
    match x.pushed with
    | some v => (recordAt n k v s).setCapt n { x with preNext := k }
    | none => s.setCapt n { x with preNext := k, preValid := x.preValid - 1 }

/-- A post-trigger record written; the POST-th ends the segment. -/
def postRecord (n : Nat) (v : Quad) (s : State) : State :=
  let x := s.capt n
  let s1 := (recordAt n (s.captPre n + x.post) v s).setCapt n { x with
    post := x.post + 1, invalid := x.invalid || auInvalid s n v }
  if s.captPost n ≤ x.post + 1 then segEnd n 0 s1 else s1

/-- R293: a missed trigger event with its trigger time. DEDUCED (assumption 67). -/
def captMissed (n : Nat) (t : Quad) (s : State) : State :=
  let x := s.capt n
  let y := { x with missed := min 0xFFFFFFFF (x.missed + 1), missedV := if x.missed = 0 then BitVec.ofInt 64 (s.vAt t) else x.missedV }
  ((s.setCapt n y).incSat (R.CAPT_n_MISSED n)).raise R.CAPT_EVENTS F.CAPT_EVENTS.MISSED

/-- R291: an accepted trigger event at a sample: POST begins with it. -/
def captTrigger (n map : Nat) (g v : Quad) (s : State) : State :=
  let s1 := s.modCapt n fun x => { x with
    st := 2, trigMap := map, trigRaw := g, trigV := BitVec.ofInt 64 (s.vAt g), post := 0, missed := 0 }
  postRecord n v (captPostEvt n F.CAPT_n_EVT.POST_TRIG 0 s1)

/-! ### Conditions (R287, R290) -/

/-- LEVEL of a condition: 20 bits for an AU source, 48 for an AXIS source (R324). -/
def State.condLevel (s : State) (n k : Nat) : Int :=
  let q := s.reg64 (R.CAPT_n_k_LEVEL_LO n k) (R.CAPT_n_k_LEVEL_HI n k)
  if s.captKind n = 0 then (q.truncate 20).toInt else (q.truncate 48).toInt

/-- R287: a level condition with SENSE for a value: whether it is true, and the new flags. -/
def levelCond (sense : Nat) (level hyst v : Int) (rise fall : Bool) : Bool × Bool × Bool :=
  let up := decide (sense = 1 ∨ sense = 3)
  let dn := decide (sense = 2 ∨ sense = 3)
  let r := up && rise && decide (level - hyst ≤ v) && decide (level ≤ v)
  let f := dn && fall && decide (v ≤ level + hyst) && decide (v ≤ level)
  (r || f,
    if up then (if v < level - hyst then true else rise && !r) else rise,
    if dn then (if level + hyst < v then true else fall && !f) else fall)

/-- The value that a level condition watches in a sample, unless the sample is none of its input's. -/
def condValue (s : State) (n k : Nat) (v : Quad) : Option Int :=
  if s.captKind n = 0 then
    if v.getLsbD 24 ∧ v.toNat / 2 ^ 20 % 16 = s.get (R.CAPT_n_k_COND_CFG n k) F.CAPT_n_k_COND_CFG.INPUT then
      some (v.truncate 20).toInt else none
  else some (v.truncate 48).toInt

/-- R287: condition k of a channel for a sample: whether it is true, and the state. -/
def condStep (n k : Nat) (v : Quad) (s : State) : Bool × State :=
  let c := R.CAPT_n_k_COND_CFG n k
  let sense := s.get c F.CAPT_n_k_COND_CFG.SENSE
  let x := s.capt n
  if sense = 0 then (false, s)
  else if s.captKind n = 1 then
    let b := s.get c F.CAPT_n_k_COND_CFG.BIT
    match x.prev with
    | none => (false, s)
    | some p =>
      let now := v.getLsbD b
      let was := p.getLsbD b
      ((decide (sense ≠ 2) && now && !was) || (decide (sense ≠ 1) && was && !now), s)
  else
    match condValue s n k v with
    | none => (false, s)
    | some y =>
      let r := levelCond sense (s.condLevel n k) (s.reg (R.CAPT_n_k_HYST n k)).toNat y (natBit x.rise k) (natBit x.fall k)
      (r.1, s.setCapt n { x with
        rise := (if r.2.1 then natSetBit else natClrBit) x.rise k
        fall := (if r.2.2 then natSetBit else natClrBit) x.fall k })

/-- R290: the conditions true for a sample, as a map, and the state. -/
def condMap (n : Nat) (v : Quad) (s : State) : Nat × State :=
  (List.range 4).foldl (fun a k =>
    let r := condStep n k v a.2
    (if r.1 then a.1 + 2 ^ k else a.1, r.2)) (0, s)

/-- R289, R293: the trigger time of an event with a map at a sample at g, from the triggers attributed to it: the sampling instant for
a condition, else the earliest time of its primary source. DEDUCED (assumption 67). -/
def eventTime (map : Nat) (due : List (Nat × Quad)) (g : Quad) : Quad :=
  (due.filter fun t => t.1 = primaryOf map).foldl (fun a t => if t.2.toNat < a.toNat then t.2 else a) g

/-- R289, R290: the trigger map of the sample of a channel at raw grain g with the trigger time, and the state. -/
def trigMapOf (n : Nat) (g v : Quad) (s : State) : (Nat × Quad) × State :=
  let r := condMap n v s
  let x := r.2.capt n
  let due := x.trigs.filter fun t => t.2.toNat ≤ g.toNat
  let map := due.foldl (fun m t => natSetBit m t.1) r.1
  ((map, eventTime map due g),
    r.2.setCapt n { x with
      trigs := x.trigs.filter (fun t => g.toNat < t.2.toNat), prev := some v, last := some g, lastMap := map })

/-! ### Samples (R282, R283, R291) -/

/-- R293, R294: the channel enters ARMED with a new segment. -/
def enterArmed (n : Nat) (s : State) : State :=
  s.modCapt n fun x => { x with
    st := 1, preValid := 0, preNext := 0, post := 0, invalid := false, fresh := true, trigMap := 0
    segMissed := x.missed, segMissedV := x.missedV, missed := 0 }

/-- The slot that a channel takes next becomes FILLING, if it is FREE. -/
def takeSlot (n : Nat) (s : State) : Bool × State :=
  let d := s.slotDesc n (s.capt n).slot
  if s.segState d = 0 then (true, setSegState d 1 s) else (false, s)

/-- R294: the first sample of a segment fixes DEAD_TIME and FIRST. -/
def firstSample (n : Nat) (g : Quad) (s : State) : State :=
  s.modCapt n fun x =>
    if x.fresh then
      match x.segLast with
      | some l => { x with fresh := false, first := false, deadTime := min 0xFFFFFFFF ((g - l).toNat - s.captPeriod n) }
      | none => { x with fresh := false, first := true, deadTime := 0 }
    else x

/-- R292: an ARMED channel ignores an event before its pre-trigger ring is full. -/
def tooEarly (s : State) (n : Nat) : Bool :=
  s.flag (R.CAPT_n_CTRL n) F.CAPT_n_CTRL.REQUIRE_FULL_PRE && decide ((s.capt n).preValid < s.captPre n)

/-- R291 to R293: a sample in ARMED with a trigger map. -/
def armedSample (n map : Nat) (g v : Quad) (s0 : State) : State :=
  let s := firstSample n g s0
  if map = 0 then preRecord n v s
  else if tooEarly s n then
    preRecord n v ((s.incSat (R.CAPT_n_EARLY n)).raise R.CAPT_EVENTS F.CAPT_EVENTS.EARLY)
  else captTrigger n map g v s

/-- R291: a sample of a channel by its state; g is its raw grain, t the trigger time. -/
def sampleIn (n map : Nat) (t g v : Quad) (s : State) : State :=
  match (s.capt n).st with
  | 1 => armedSample n map g v s
  | 2 => postRecord n v (if map = 0 then s else captMissed n t s)
  | 0 => s
  | _ => if map = 0 then s else captMissed n t s

/-- R291, R292: the channel accepts a trigger event. -/
def accepts (s : State) (n : Nat) : Bool := decide ((s.capt n).st = 1) && !tooEarly s n

/-- R289, R290: a trigger with a time at or before the channel's last sample at g comes after that sample was taken: it joins the
event of the sample, or makes one of it. DEDUCED (assumption 59). -/
def lateTrigger (code : Nat) (t g : Quad) (n : Nat) (s : State) : State :=
  let x := s.capt n
  let s1 := s.setCapt n { x with lastMap := natSetBit x.lastMap code }
  if x.lastMap ≠ 0 then
    if x.st = 2 ∧ x.trigRaw = g then s1.modCapt n fun y => { y with trigMap := natSetBit y.trigMap code } else s1
  else if x.st = 1 ∧ ¬ x.fresh then armedSample n (2 ^ code) g (x.prev.getD 0) (preUndo n s1)
  else captMissed n t s1

/-- R289: a trigger with a code and a time for a busy channel: it waits for the first sample at or after its time, if that is not
taken yet. -/
def attribute_ (code : Nat) (t : Quad) (n : Nat) (s : State) : State :=
  if ¬ (s.capt n).busy then s
  else
    match (s.capt n).last with
    | some g => if t.toNat ≤ g.toNat then lateTrigger code t g n s
      else s.modCapt n fun x => { x with trigs := x.trigs ++ [(code, t)] }
    | none => s.modCapt n fun x => { x with trigs := x.trigs ++ [(code, t)] }

/-- R289: an accepted trigger event with a source other than cross triggers is passed on to the channels whose XMASK names the
channel. DEDUCED (assumption 59). -/
def crossTrigger (n : Nat) (map : Nat) (g : Quad) (s : State) : State :=
  if natClrBit map 4 = 0 then s
  else s.forAll ((List.range 16).filter fun m =>
      natBit (s.get (R.CAPT_n_XTRIG m) F.CAPT_n_XTRIG.XMASK) n ∧ m ≠ n) (attribute_ 4 g)

/-- R289: the last sample of a channel takes a trigger after it was taken, and makes an accepted event of it. -/
def lateAccepted (s : State) (t : Quad) (n : Nat) : Bool :=
  let x := s.capt n
  (match x.last with
    | some g => decide (t.toNat ≤ g.toNat)
    | none => false) && decide (x.lastMap = 0) && !x.fresh && accepts (preUndo n s) n

/-- R289: a TRIGIN edge (5) or a software trigger (6) reaches a channel. -/
def trigger_ (code : Nat) (t : Quad) (n : Nat) (s : State) : State :=
  let s1 := attribute_ code t n s
  if lateAccepted s t n then crossTrigger n (2 ^ code) ((s.capt n).last.getD t) s1 else s1

/-- R283: the AU stream of a channel has a gap before a sample at g: POST ends, and pre-trigger records are discarded. -/
def sourceGap (n : Nat) (s : State) : State :=
  if (s.capt n).st = 2 then segEnd n 1 s
  else if (s.capt n).st = 1 then s.modCapt n fun x => { x with preValid := 0, preNext := 0, fresh := true }
  else s

/-- R283: the conversions of a unit stop. DEDUCED (assumption 58). -/
def auStreamStops (u : Nat) (s : State) : State :=
  s.forAll ((List.range 16).filter fun n => s.captKind n = 0 ∧ s.captIndex n = u ∧ (s.capt n).last.isSome) fun n t =>
    (sourceGap n t).modCapt n fun x => { x with last := none }

/-- R283: the source of an AU channel gives no word after the channel's last sample: the unit does not convert in the next slot. -/
def auStreamEnds (s : State) (n : Nat) : Bool :=
  let u := tget AUnit.stopped s.analog.units (s.captIndex n)
  decide (s.captKind n = 0) && decide ((s.capt n).last = some u.sampled) && !(u.at (u.sampled + 416)).running

/-- R283: a channel whose source stops after its last sample. -/
def streamCheck (n : Nat) (s : State) : State :=
  if auStreamEnds s n then (sourceGap n s).modCapt n fun x => { x with last := none } else s

/-- R283: the channels of a unit that is stopping. -/
def auStreamCheck (u : Nat) (s : State) : State :=
  s.forAll ((List.range 16).filter fun n => s.captIndex n = u) streamCheck

/-- R282, R404: the synchronised level of a pin: the filtered one where the pin has no filter; before the filter it is a level at the
ball that no command gives, so a free bit. DESIGN CHOICE (assumption 23). -/
def syncLevel (s : State) (free i : Nat) : Bool :=
  if s.get (R.GPIO_i_CFG i) F.GPIO_i_CFG.FILT = 0 then natBit s.field.filt i else (Config.freeQuad free).getLsbD (i % 32)

/-- R282: the raw grain and the record of a channel's next sample. An AU sample is the unit's last conversion; the others come one
period after the last one, the first at the first instant of the source at or after the ARM. -/
def captSource (s : State) (n : Nat) : Quad × Quad :=
  let p := s.captPeriod n
  let from_ := match (s.capt n).last with
    | some l => l.toNat + p
    | none => ((s.capt n).armAt.getD s.raw).toNat
  let g := BitVec.ofNat 64 ((from_ + p - 1) / p * p)
  match s.captKind n with
  | 0 =>
    let u := tget AUnit.stopped s.analog.units (s.captIndex n)
    (u.sampled, u.word.zeroExtend 64)
  | 1 => (g, BitVec.ofNat 64 (maskOf 32 fun j => syncLevel s s.free (32 * s.captIndex n + j)))
  | _ => (g, ((s.axStatus (s.captIndex n)).truncate 16 : BitVec 16) ++ (BitVec.ofInt 48 (s.pos (s.captIndex n)) : BitVec 48))

/-- R291: a channel that waits for its first sample, or for a slot, enters ARMED at a sample. -/
def armAtSample (n : Nat) (g : Quad) (s : State) : State :=
  let x := s.capt n
  match x.armAt with
  | some a =>
    if a.toNat ≤ g.toNat then
      enterArmed n (s.setCapt n { x with armAt := none, taken := 0, missed := 0, segLast := none, rise := 0, fall := 0, prev := none })
    else s
  | none =>
    if x.st = 4 ∧ (takeSlot n s).1 then enterArmed n (takeSlot n s).2 else s

/-- R283: the sample does not follow the one before it by one period. DEDUCED (assumption 58). -/
def gapBefore (s : State) (n : Nat) (g : Quad) : Bool :=
  match (s.capt n).last with
  | some l => decide (s.captKind n = 0) && decide (g.toNat ≠ l.toNat + 512)
  | none => false

/-- R287, R289, R290: what an armed channel does with a sample: its trigger, its record, and the channels that it triggers. -/
def sampleTaken (n : Nat) (g v : Quad) (s : State) : State :=
  let r := trigMapOf n g v s
  let t := sampleIn n r.1.1 r.1.2 g v r.2
  streamCheck n (if accepts r.2 n then crossTrigger n r.1.1 g t else t)

/-- R287, R290, R291: a channel takes the next sample of its source. -/
def captureSample (n : Nat) (s0 : State) : State :=
  let (g, v) := captSource s0 n
  if ¬ (s0.capt n).busy ∨ (s0.capt n).last = some g then s0
  else
    let s := ({ s0 with free := s0.free + 1 }).advanceTo g
    let s1 := armAtSample n g (if gapBefore s n g then sourceGap n s else s)
    if (s1.capt n).st = 0 then s1 else sampleTaken n g v s1

/-- R291: a channel in REARM takes the next slot or waits for it. -/
def captRearm (n : Nat) (s : State) : State :=
  if (s.capt n).st ≠ 3 ∧ (s.capt n).st ≠ 4 then s
  else if (takeSlot n s).1 then enterArmed n (takeSlot n s).2
  else if (s.capt n).st = 3 then
    (s.modCapt n fun x => { x with st := 4 }).raise R.CAPT_EVENTS F.CAPT_EVENTS.WAIT_SLOT
  else s

/-! ### Arming, triggers and settings (R284, R285, R289, R295) -/

/-- R285: two runs of numbers overlap. -/
def runsOverlap (a n b m : Nat) : Bool := decide (0 < n) && decide (0 < m) && decide (a < b + m) && decide (b < a + n)

/-- R285: the slots and descriptors of a channel may be used. DEDUCED (assumption 66). -/
def armOk (s : State) (n : Nat) : Bool :=
  let c := (s.captShare n).2
  let size := c * s.segSize n
  decide (0 < c) && decide ((s.captShare n).1 + c ≤ 4096) &&
  decide (s.slotOfs n 0 + size ≤ (bankPlace 5).2 - s.secWin 5) &&
  (List.range 16).all fun m => decide (m = n) ||
    (!runsOverlap (s.slotOfs n 0) size (s.slotOfs m 0) ((s.captShare m).2 * s.segSize m) &&
      !runsOverlap (s.captShare n).1 c (s.captShare m).1 (s.captShare m).2)

/-- R291: ARM. -/
def captArm (n : Nat) (s : State) : State :=
  if (s.capt n).busy then s
  else if ¬ armOk s n then captRefused s
  else
    let s1 := s.modCapt n fun x => { x with
      slot := 0, trigs := [], last := none, segLast := none, missed := 0, taken := 0, lastMap := 0, rise := 0, fall := 0
      prev := none }
    if (takeSlot n s1).1 then (takeSlot n s1).2.modCapt n fun x => { x with armAt := some s.raw }
    else (s1.modCapt n fun x => { x with st := 4 }).raise R.CAPT_EVENTS F.CAPT_EVENTS.WAIT_SLOT

/-- R295: DISARM. -/
def captDisarm (n : Nat) (s : State) : State :=
  let x := s.capt n
  if x.st = 1 ∨ x.armAt.isSome then captIdle n (setSegState (s.slotDesc n x.slot) 0 s)
  else if x.st = 2 then captIdle n (segEnd n 2 s)
  else captIdle n s

/-- R289: a software trigger of the channels of a mask. -/
def captSwTrig (mask : Nat) (s : State) : State :=
  s.forAll ((List.range 16).filter fun n => natBit mask n) (trigger_ 6 s.raw)

/-- R321: a write of CAPT_n_CTRL. -/
def captCtrlWrite (n : Nat) (v : Word) (s : State) : State :=
  let w := v &&& 0x1FFF0038
  let w1 := if fldOf F.CAPT_n_CTRL.COUNT w = 0 then setFldOf F.CAPT_n_CTRL.COUNT 1 w
    else if 4096 < fldOf F.CAPT_n_CTRL.COUNT w then setFldOf F.CAPT_n_CTRL.COUNT 4096 w else w
  let s1 := s.setReg (R.CAPT_n_CTRL n) w1
  let s2 := if fldOf F.CAPT_n_CTRL.DISARM v = 1 then captDisarm n s1 else s1
  let s3 := if fldOf F.CAPT_n_CTRL.ARM v = 1 then captArm n s2 else s2
  ovfKick (if fldOf F.CAPT_n_CTRL.SW_TRIG v = 1 then captSwTrig (2 ^ n) s3 else s3)

/-- R284: the bytes per millisecond of the channels that own descriptors, or of the one written. DEDUCED (assumption 65). -/
def captBudget (s : State) (n : Nat) : Nat :=
  ((List.range 16).map fun m =>
    if (s.captShare m).2 = 0 ∧ m ≠ n then 0 else if s.captKind m = 1 then 131072 else 8192).sum

/-- R282, R284: a channel's source exists and the budget holds. -/
def captCfgOk (s : State) (n : Nat) : Bool :=
  decide (captBudget s n ≤ 1048576) &&
  match s.captKind n with
  | 0 => decide (s.captIndex n < 16)
  | 1 => decide (s.captIndex n < 6)
  | 2 => true
  | _ => false

/-- R284: a write of one of a channel's source, memory, pre-trigger, post-trigger or condition registers, with the value to
store. -/
def captCfgWrite (n : Nat) (f : State → State) (s : State) : State :=
  if (s.capt n).busy ∨ ¬ captCfgOk (f s) n then captRefused s else f s

/-! ### TRIGIN (R288) -/

/-- R288, R320: the polarity of a pin counts an edge. -/
def triginCounts (s : State) (m : Nat) (rising : Bool) : Bool :=
  let p := (s.reg R.CAPT_TRIGIN_CFG).toNat / 4 ^ m % 4
  if rising then p % 2 = 1 else 2 ≤ p

/-- R288, R289: a qualified edge reaches capture. -/
def triginCapture (m : Nat) (t : Quad) (s : State) : State :=
  let s1 := s.setReg64 (R.CAPT_TRIGIN_m_V_LO m) (R.CAPT_TRIGIN_m_V_HI m) (BitVec.ofInt 64 (s.vAt t))
  s1.forAll ((List.range 16).filter fun n => natBit (s.get (R.CAPT_n_XTRIG n) F.CAPT_n_XTRIG.TMASK) m) (trigger_ 5 t)

/-! ### The commands -/

/-- ARM (R291): a write of CAPT_n_CTRL with ARM 1. -/
def execArm (n : Fin 16) (v : Word) (s : State) : Out := ok (captCtrlWrite n (setFldOf F.CAPT_n_CTRL.ARM 1 v) s)
/-- DISARM (R295): a write of CAPT_n_CTRL with DISARM 1. -/
def execDisarm (n : Fin 16) (v : Word) (s : State) : Out := ok (captCtrlWrite n (setFldOf F.CAPT_n_CTRL.DISARM 1 v) s)
/-- CAPT_SW_TRIG (R289): a write of CAPT_SW_TRIG. -/
def execCaptSwTrig (v : Word) (s : State) : Out := ok (captSwTrig (v.toNat % 65536) s)
/-- CAPTURE_SAMPLE (R287). -/
def execCaptureSample (n : Fin 16) (s : State) : Out := ok (captureSample n s)
/-- REARM (R291). -/
def execRearm (n : Fin 16) (s : State) : Out := ok (captRearm n s)
/-- CAPT_RELEASE (R286). -/
def execCaptRelease (d : Fin 4096) (s : State) : Out := ok (captRelease d s)
/-- OVF_TAIL_WRITE (R300). -/
def execOvfTailWrite (v : Word) (s : State) : Out := ok (ovfTailWrite v s)
/-- OVF_COPY (R298, R299). -/
def execOvfCopy (good : Bool) (s : State) : Out := ok (ovfCopy good s)

end Sys2Proof.Machine
end

