-- ==== Sys2Proof/Machine/FbLib.lean ====
section
/-! DEFINITION. The function-block library (R105 to R113): each block reads and writes the cells of its instance, from
cell b of a working copy w, and gives its outputs in the order of R105. -/

namespace Sys2Proof.Machine

/-- What a block is run with: NOW, INTERVAL and the number of cells of its instance. -/
structure FbEnv where
  now : Quad
  interval : Quad
  elems : Nat
deriving DecidableEq, Repr

/-- A cell of the instance. -/
def fbGet (w : Tbl Quad) (b i : Nat) : Quad := tget 0 w (b + i)

/-- A cell of the instance, written. -/
def fbSet (b i : Nat) (v : Quad) (w : Tbl Quad) : Tbl Quad := tset 0 w (b + i) v

/-- A cell read as a B. -/
def fbB (w : Tbl Quad) (b i : Nat) : Bool := fbGet w b i ≠ 0
/-- Bit n of a FLAGS cell. -/
def fbFlag (w : Tbl Quad) (b i n : Nat) : Bool := natBit (fbGet w b i).toNat n
/-- Bit n of a FLAGS cell, a U32, set to a truth value; its other bits keep their values. DEDUCED (assumption 42). -/
def fbSetFlag (b i n : Nat) (v : Bool) (w : Tbl Quad) : Tbl Quad :=
  fbSet b i (BitVec.ofNat 64 ((if v then natSetBit else natClrBit) ((fbGet w b i).toNat % 2 ^ 32) n)) w

/-- F64 operations on cells (R106). -/
def dAdd (a b : Quad) : Quad := cellAdd .f64 a b
def dSub (a b : Quad) : Quad := cellSub .f64 a b
def dMul (a b : Quad) : Quad := cellMul .f64 a b
def dDiv (a b : Quad) : Quad := cellDiv .f64 a b
def dLt (a b : Quad) : Bool := cellLt .f64 a b
def dNan (a : Quad) : Bool := fisNan fmt64 a.toNat
/-- R106: min and max of the library, which pass over a NaN. -/
def dMin (a b : Quad) : Quad := wrFlt (fminL fmt64 a.toNat b.toNat)
def dMax (a b : Quad) : Quad := wrFlt (fmaxL fmt64 a.toNat b.toNat)
/-- R106: a grain count in milliseconds. -/
def dMs (g : Quad) : Quad := dDiv (wrFlt (fofI fmt64 g.toInt)) 0x4130000000000000

/-! ### PID (R107, R108) -/

/-- R108: u held to UMAX and then to UMIN, with the limit flags in the status. -/
def pidLimit (w : Tbl Quad) (b : Nat) (u : Quad) (status : Nat) : Quad × Nat :=
  let hi := dLt (fbGet w b 7) u
  let u1 := if hi then fbGet w b 7 else u
  let lo := dLt u1 (fbGet w b 6)
  (if lo then fbGet w b 6 else u1, status + b2n hi + 2 * b2n lo)

/-- R108: the state before the computation: PV_PREV and D at a first call, and h. -/
def pidBegin (e : FbEnv) (w : Tbl Quad) (b : Nat) (pv : Quad) : Tbl Quad × Quad :=
  if fbFlag w b 13 0 then (w, dMs (e.now - fbGet w b 12))
  else (fbSet b 9 0 (fbSet b 10 pv w), dMs e.interval)

/-- R108: the derivative state. -/
def pidD (w : Tbl Quad) (b : Nat) (pv h : Quad) : Quad :=
  let td := fbGet w b 2
  if dLt 0 td then
    let ad := dDiv td (dAdd td (dMul (fbGet w b 3) h))
    dSub (dMul ad (fbGet w b 9)) (dMul (dMul (dMul (fbGet w b 0) (fbGet w b 3)) ad) (dSub pv (fbGet w b 10)))
  else 0

/-- R108: the integral state in automatic mode. -/
def pidI (w : Tbl Quad) (b : Nat) (sp pv h u v : Quad) : Quad :=
  let ti := fbGet w b 1
  let tt := fbGet w b 5
  let i1 := if dLt 0 ti then
      dAdd (fbGet w b 8) (dMul (dDiv (dMul (fbGet w b 0) h) ti) (dSub sp pv)) else fbGet w b 8
  if dLt 0 tt then dAdd i1 (dMul (dDiv h tt) (dSub u v)) else i1

/-- R108: PID. -/
def fbPid (e : FbEnv) (w : Tbl Quad) (b : Nat) (sp pv man uman : Quad) : Tbl Quad × List Quad :=
  let m : Bool := man ≠ 0
  let s0 := 4 * b2n m
  if dNan sp || dNan pv || (m && dNan uman) then
    (if fbFlag w b 13 0 then fbSet b 12 e.now w else w, [fbGet w b 11, wrInt .u32 (s0 + 8 : Nat)])
  else
    let s1 := s0 + 16 * b2n (!fbFlag w b 13 0)
    let (w1, h) := pidBegin e w b pv
    let p := dMul (fbGet w1 b 0) (dSub (dMul (fbGet w1 b 4) sp) pv)
    let d := pidD w1 b pv h
    let v := dAdd (dAdd p (fbGet w1 b 8)) d
    let (u, s2) := pidLimit w1 b (if m then uman else v) s1
    let i := if m then dSub (dSub u p) d else pidI w1 b sp pv h u v
    let w2 := fbSet b 8 i (fbSet b 9 d w1)
    (fbSetFlag b 13 0 true (fbSet b 12 e.now (fbSet b 11 u (fbSet b 10 pv w2))), [u, wrInt .u32 (s2 : Nat)])

/-! ### Timers (R109) -/

/-- The outputs Q and ET of a timer. -/
def timerOut (w : Tbl Quad) (b : Nat) : Tbl Quad × List Quad := (w, [wrBool (fbB w b 0), fbGet w b 1])

/-- R109: START = NOW and RUN = 1 when RUN is 0. -/
def timerBegin (e : FbEnv) (b : Nat) (w : Tbl Quad) : Tbl Quad :=
  if fbFlag w b 3 0 then w else fbSetFlag b 3 0 true (fbSet b 2 e.now w)

/-- NOW − START. -/
def timerEt (e : FbEnv) (w : Tbl Quad) (b : Nat) : Quad := e.now - fbGet w b 2

/-- max(pt, 0). -/
def ptMax (pt : Quad) : Quad := if pt.toInt < 0 then 0 else pt

/-- R109: TON. -/
def fbTon (e : FbEnv) (w : Tbl Quad) (b : Nat) (i pt : Quad) : Tbl Quad × List Quad :=
  if i = 0 then timerOut (fbSetFlag b 3 0 false (fbSet b 1 0 (fbSet b 0 0 w))) b
  else
    let w1 := timerBegin e b w
    let et := timerEt e w1 b
    timerOut (if pt.toInt ≤ et.toInt then fbSet b 0 1 (fbSet b 1 (ptMax pt) w1) else fbSet b 1 et w1) b

/-- R109: TOF. -/
def fbTof (e : FbEnv) (w : Tbl Quad) (b : Nat) (i pt : Quad) : Tbl Quad × List Quad :=
  if i ≠ 0 then timerOut (fbSetFlag b 3 0 false (fbSet b 1 0 (fbSet b 0 1 w))) b
  else if fbB w b 0 then
    let w1 := timerBegin e b w
    let et := timerEt e w1 b
    timerOut (if pt.toInt ≤ et.toInt then fbSetFlag b 3 0 false (fbSet b 0 0 (fbSet b 1 (ptMax pt) w1))
      else fbSet b 1 et w1) b
  else timerOut w b

/-- R109: TP. -/
def fbTp (e : FbEnv) (w : Tbl Quad) (b : Nat) (i pt : Quad) : Tbl Quad × List Quad :=
  let go : Bool := !fbFlag w b 3 0 && decide (i ≠ 0) && !fbFlag w b 3 1 && decide (0 < pt.toInt)
  let w1 := if go then fbSet b 0 1 (timerBegin e b w) else w
  let et := timerEt e w1 b
  let w2 :=
    if fbFlag w1 b 3 0 then
      (if pt.toInt ≤ et.toInt then fbSetFlag b 3 0 false (fbSet b 0 0 (fbSet b 1 pt w1)) else fbSet b 1 et w1)
    else if i = 0 then fbSet b 1 0 w1 else w1
  timerOut (fbSetFlag b 3 1 (i ≠ 0) w2) b

/-! ### Counters and edges (R110, R111) -/

/-- CV of a counter, an I32. -/
def fbCv (w : Tbl Quad) (b : Nat) : Int := rdInt .i32 (fbGet w b 0)

/-- R110: CTU. -/
def fbCtu (w : Tbl Quad) (b : Nat) (cu reset pv : Quad) : Tbl Quad × List Quad :=
  let e : Bool := decide (cu ≠ 0) && !fbB w b 1
  let cv : Int := if reset ≠ 0 then 0 else if e ∧ fbCv w b < 2147483647 then fbCv w b + 1 else fbCv w b
  (fbSet b 1 (wrBool (cu ≠ 0)) (fbSet b 0 (wrInt .i32 cv) w), [wrBool (rdInt .i32 pv ≤ cv), wrInt .i32 cv])

/-- R110: CTD. -/
def fbCtd (w : Tbl Quad) (b : Nat) (cd ld pv : Quad) : Tbl Quad × List Quad :=
  let e : Bool := decide (cd ≠ 0) && !fbB w b 1
  let cv : Int := if ld ≠ 0 then rdInt .i32 pv else if e ∧ -2147483648 < fbCv w b then fbCv w b - 1 else fbCv w b
  (fbSet b 1 (wrBool (cd ≠ 0)) (fbSet b 0 (wrInt .i32 cv) w), [wrBool (cv ≤ 0), wrInt .i32 cv])

/-- R110: CTUD. -/
def fbCtud (w : Tbl Quad) (b : Nat) (cu cd reset ld pv : Quad) : Tbl Quad × List Quad :=
  let eu : Bool := decide (cu ≠ 0) && !fbB w b 1
  let ed : Bool := decide (cd ≠ 0) && !fbB w b 2
  let cv : Int :=
    if reset ≠ 0 then 0
    else if ld ≠ 0 then rdInt .i32 pv
    else if (eu && !ed) ∧ fbCv w b < 2147483647 then fbCv w b + 1
    else if (ed && !eu) ∧ -2147483648 < fbCv w b then fbCv w b - 1
    else fbCv w b
  (fbSet b 2 (wrBool (cd ≠ 0)) (fbSet b 1 (wrBool (cu ≠ 0)) (fbSet b 0 (wrInt .i32 cv) w)),
    [wrBool (rdInt .i32 pv ≤ cv), wrBool (cv ≤ 0), wrInt .i32 cv])

/-- R111: R_TRIG. -/
def fbRTrig (w : Tbl Quad) (b : Nat) (clk : Quad) : Tbl Quad × List Quad :=
  (fbSet b 0 (wrBool (clk ≠ 0)) w, [wrBool (decide (clk ≠ 0) && !fbB w b 0)])

/-- R111: F_TRIG. -/
def fbFTrig (w : Tbl Quad) (b : Nat) (clk : Quad) : Tbl Quad × List Quad :=
  (fbSet b 0 (wrBool (clk ≠ 0)) w, [wrBool (fbB w b 0 && decide (clk = 0))])

/-! ### Ramp (R112) -/

/-- R112: Y after a call. -/
def rampY (w : Tbl Quad) (b : Nat) (x enable reset y0 h : Quad) : Quad :=
  let y := fbGet w b 2
  if reset ≠ 0 then y0
  else if decide (enable ≠ 0) && !dNan x then
    if dLt y x && dLt 0 (fbGet w b 0) then dMin (dAdd y (dMul (fbGet w b 0) h)) x
    else if dLt x y && dLt 0 (fbGet w b 1) then dMax (dSub y (dMul (fbGet w b 1) h)) x
    else y
  else y

/-- R112: RAMP. -/
def fbRamp (e : FbEnv) (w : Tbl Quad) (b : Nat) (x enable reset y0 : Quad) : Tbl Quad × List Quad :=
  let h := if fbFlag w b 4 0 then dMs (e.now - fbGet w b 3) else 0
  let y := rampY w b x enable reset y0 h
  (fbSetFlag b 4 0 true (fbSet b 3 e.now (fbSet b 2 y w)), [y, wrBool (cellEq .f64 y x)])

/-! ### The sequencer (R113) -/

/-- The header cells of a SEQ instance while it computes, with `entered`. -/
structure SeqSt where
  st : Nat
  step : Nat
  tIn : Quad
  tHeld : Quad
  entered : Bool
deriving DecidableEq, Repr

/-- R113: the running and holding states. -/
def SeqSt.active (q : SeqSt) : Bool := q.st = 1 ∨ q.st = 2

/-- R113: abort, start, hold and resume. -/
def seqMode (e : FbEnv) (steps : Nat) (se hold abort : Bool) (q : SeqSt) : SeqSt :=
  let q1 := if q.active && decide (steps ≤ q.step) then { q with st := 3 } else q
  if abort && q1.active then { q1 with st := 4 }
  else if se && !q1.active then { q1 with step := 0, tIn := e.now, st := 1, entered := true }
  else if decide (q1.st = 1) && hold then { q1 with st := 2, tHeld := e.now }
  else if decide (q1.st = 2) && !hold then { q1 with st := 1, tIn := q1.tIn + (e.now - q1.tHeld) }
  else q1

/-- R113: whether the step in progress ends. -/
def seqGo (e : FbEnv) (dur flags : Quad) (advance : Bool) (q : SeqSt) : Bool :=
  let tOk := decide (0 < dur.toInt) && decide (dur.toInt ≤ (e.now - q.tIn).toInt)
  if natBit flags.toNat 18 then tOk && advance
  else (natBit flags.toNat 16 && tOk) || (natBit flags.toNat 17 && advance)

/-- R113: the transition of the step in progress. -/
def seqStep (e : FbEnv) (w : Tbl Quad) (b steps : Nat) (advance restart : Bool) (q : SeqSt) : SeqSt :=
  let q1 := if decide (q.st = 1) && restart && !q.entered then { q with tIn := e.now, entered := true } else q
  let dur := fbGet w b (8 + 2 * q1.step)
  let flags := fbGet w b (9 + 2 * q1.step)
  let next := flags.toNat % 65536
  if decide (q1.st = 1) && !q1.entered && seqGo e dur flags advance q1 then
    if next = 0xFFFF ∨ steps ≤ next then { q1 with st := 3 }
    else { q1 with step := next, tIn := e.now, entered := true }
  else q1

/-- R113: SEQ. -/
def fbSeq (e : FbEnv) (w : Tbl Quad) (b : Nat) (start advance hold abort restart : Quad) : Tbl Quad × List Quad :=
  let steps := (e.elems - 8) / 2
  let se : Bool := decide (start ≠ 0) && !fbB w b 4
  let q0 : SeqSt := ⟨(fbGet w b 0).toNat % 2 ^ 32, (fbGet w b 1).toNat % 2 ^ 32, fbGet w b 2, fbGet w b 3, false⟩
  let q := seqStep e w b steps (advance ≠ 0) (restart ≠ 0) (seqMode e steps se (hold ≠ 0) (abort ≠ 0) q0)
  let st := if q.st = 2 then q.tHeld - q.tIn else if q.st = 1 then e.now - q.tIn else 0
  (fbSet b 4 (wrBool (start ≠ 0)) (fbSet b 3 q.tHeld (fbSet b 2 q.tIn (fbSet b 1 (BitVec.ofNat 64 q.step)
    (fbSet b 0 (BitVec.ofNat 64 q.st) w)))),
    [BitVec.ofNat 64 q.step, wrBool q.entered, st, BitVec.ofNat 64 q.st])

/-! ### The blocks by code (R105) -/

/-- R105: the number of inputs of a block; none for a code outside the table. -/
def fbInputs : Nat → Option Nat
  | 1 => some 4 | 2 => some 4 | 3 => some 2 | 4 => some 2 | 5 => some 2 | 6 => some 3 | 7 => some 3 | 8 => some 5
  | 9 => some 1 | 10 => some 1 | 11 => some 5 | _ => none

/-- R105: the number of outputs of a block. -/
def fbOutputs : Nat → Nat
  | 8 => 3 | 9 => 1 | 10 => 1 | 11 => 4 | _ => 2

/-- R105: the cells of a block; SEQ gives its own count. -/
def fbCells : Nat → Nat
  | 1 => 16 | 2 => 6 | 3 => 4 | 4 => 4 | 5 => 4 | 6 => 2 | 7 => 2 | 8 => 3 | 9 => 1 | 10 => 1 | _ => 0

/-- R105: a block run on its instance with its inputs, the first one deepest. -/
def fbRun (code : Nat) (e : FbEnv) (w : Tbl Quad) (b : Nat) (ins : List Quad) : Tbl Quad × List Quad :=
  let i := fun n => ins.getD n 0
  match code with
  | 1 => fbPid e w b (i 0) (i 1) (i 2) (i 3)
  | 2 => fbRamp e w b (i 0) (i 1) (i 2) (i 3)
  | 3 => fbTon e w b (i 0) (i 1)
  | 4 => fbTof e w b (i 0) (i 1)
  | 5 => fbTp e w b (i 0) (i 1)
  | 6 => fbCtu w b (i 0) (i 1) (i 2)
  | 7 => fbCtd w b (i 0) (i 1) (i 2)
  | 8 => fbCtud w b (i 0) (i 1) (i 2) (i 3) (i 4)
  | 9 => fbRTrig w b (i 0)
  | 10 => fbFTrig w b (i 0)
  | 11 => fbSeq e w b (i 0) (i 1) (i 2) (i 3) (i 4)
  | _ => (w, [])

end Sys2Proof.Machine
end

