-- ==== Sys2Proof/WellFormed.lean ====
section
/-! DEFINITION. Well-formed commands: what the operands of a command must hold beyond their types. -/

namespace Sys2Proof

/-- R4, R15: a bus master that the device has: a core 0 to 35, a DMA engine (0 capture, 1 network, 16 + d farm device d), or a session
0 to 31. -/
def Master.wf : Master → Bool
  | .core k => decide (k < 36)
  | .dma n => decide (n < 24)
  | .joa k => decide (k < 32)

/-- R435: the address of a host fits its carrier: IPv4 and UDP port, IPv6 and UDP port, or MAC address. -/
def HostAddr.wf (h : HostAddr) : Bool :=
  match h.carrier with
  | 0 => decide (h.addr < 2 ^ 32 ∧ h.port < 65536)
  | 1 => decide (h.addr < 2 ^ 128 ∧ h.port < 65536)
  | 2 => decide (h.addr < 2 ^ 48 ∧ h.port = 0)

/-- R432, R437: what follows the header of a body lets it be of at most 8,192 bytes. -/
def bodyFits (n : Nat) : Bool := decide (4 + n ≤ 8192)

/-- R441: the bytes that the items of a WRITE take. -/
def writeLength (items : List WriteItem) : Nat := (items.map fun x => 8 + (x.data.length + 3) / 4 * 4).sum

/-- R86: the types of the rows ADD to DIV, LT to GE, LIMIT, MIN and MAX. -/
def EType.arith (t : EType) : Bool := t ≠ .b
/-- R86: the types of REM, ADDS, SUBS and MULS. -/
def EType.ints (t : EType) : Bool := t = .i32 ∨ t = .u32 ∨ t = .i64 ∨ t = .t64
/-- R86: the types of NEG and ABS. -/
def EType.signed (t : EType) : Bool := t ≠ .b ∧ t ≠ .u32
/-- R86: the types of NOT, the shifts and the bit instructions. -/
def EType.bits (t : EType) : Bool := t = .i32 ∨ t = .u32 ∨ t = .i64
/-- R77, R87: bit 7 of a CONV byte is 0 and its type codes are of types. -/
def convFits (c : BitVec 8) : Bool := decide (c.toNat < 128 ∧ c.toNat / 8 % 8 ≠ 7 ∧ c.toNat % 8 ≠ 7)

/-- A command whose operands hold what their fields can. -/
def Instr.wf : Instr → Bool
  | .registerWrite m _ _ _ => m.wf
  | .readClear m _ => m.wf
  | .readLoLatch m _ => m.wf
  | .writeLoStage m _ _ => m.wf
  | .writeHiCommit m _ _ => m.wf
  | .aliasSetWrite m _ n _ _ => m.wf && decide (1 ≤ n.val)
  | .aliasClearWrite m _ n _ _ => m.wf && decide (1 ≤ n.val)
  | .unmappedAccess m _ _ => m.wf
  | .offsetWrite m _ => m.wf
  | .vnowRead m => m.wf
  | .add _ t => t.arith
  | .sub _ t => t.arith
  | .mul _ t => t.arith
  | .div _ t => t.arith
  | .rem _ t => t.ints
  | .adds _ t => t.ints
  | .subs _ t => t.ints
  | .muls _ t => t.ints
  | .neg _ t => t.signed
  | .abs _ t => t.signed
  | .lt _ t => t.arith
  | .le _ t => t.arith
  | .gt _ t => t.arith
  | .ge _ t => t.arith
  | .not _ t => t.bits
  | .shl _ t => t.bits
  | .shr _ t => t.bits
  | .sar _ t => t.bits
  | .bitget _ t => t.bits
  | .bitset _ t => t.bits
  | .bitclr _ t => t.bits
  | .conv _ c => convFits c
  | .limit _ t => t.arith
  | .min _ t => t.arith
  | .max _ t => t.arith
  | .axcmd _ _ c => decide (c.toNat ≤ 6)
  | .coreFenced _ cause => decide (1 ≤ cause ∧ cause ≤ 3)
  | .accNRead m _ => m.wf
  | .trkMinRead m _ => m.wf
  | .joaMessage h _ _ _ _ _ _ _ _ => h.wf
  | .write _ _ items => bodyFits (4 + writeLength items)
  | .readMulti _ _ addrs => bodyFits (4 + 4 * addrs.length)
  | .writeGroup _ _ _ items => bodyFits (12 + writeLength items)
  | .segData _ _ _ _ data => bodyFits (16 + data.length)
  | .subscribe _ _ _ _ addrs => bodyFits (8 + 4 * addrs.length)
  | .farmForwardResponse _ _ _ _ _ _ data => bodyFits data.length
  | .hello h _ _ _ _ nonce eph _ => h.wf && decide (nonce.length = 32) && decide (eph.length = 97)
  | .identity h _ _ => h.wf
  | .neighbourSolicitation _ _ target => decide (target.length = 4)
  | .helloLockoutEnd h => h.wf
  | .headland | .liveImageSeal | .tasksReady | .outputSwitch | .rateAdjWrite _ | .seat | .headPeriodWrite _ | .runSet _
  | .runClear _ | .syncEnable _ | .syncDisable _ | .syncRearm _ | .classCfgWrite _ _ | .headSyncCfgWrite _ | .headSyncCompWrite _
  | .headsyncEdge _ _ | .headsyncWindowClose | .nop _ | .dup _ | .drop _ | .swap _ | .over _ | .rot _ | .pick _ _ | .push0 _
  | .push1 _ | .pushi8 _ _ | .pushi16 _ _ | .pushi32 _ _ | .pushi64 _ _ | .pushk _ _ | .pushf32 _ _ | .ldl _ _ | .stl _ _
  | .ldv _ _ | .stv _ _ | .ldx _ _ | .stx _ _ | .incl _ _ _ | .eq _ _ | .ne _ _ | .and _ | .or _ | .xor _ | .lnot _ | .sel _
  | .jmp _ _ | .jt _ _ | .jf _ _ | .call _ _ | .ret _ | .endRun _ | .ldi _ _ | .sto _ _ | .ldo _ _ | .pcatch _ _ | .ldage _ _
  | .ldq _ _ | .now _ | .elapsed _ | .interval _ | .clock _ | .fb _ _ | .post _ _ | .wait _ _ | .send _ _ | .reply _
  | .cancel _ _ | .delay _ _ | .txopen _ | .txadd _ _ | .txseal _ | .txstat _ | .txdrop _ | .accMean _ _ | .accRms _ _
  | .accMin _ _ | .accMax _ _ | .accN _ _ | .accInv _ _ | .accMint _ _ | .accMaxt _ _ | .axstat _ _ | .axpos _ _ | .mark _ _
  | .take _ | .dispatch _ | .spill _ | .taskComplete _ | .releaseStallEnd _ | .journalFold _ | .releaseActions _ | .delayExpiry
  | .hostPost _ | .hostCancel _ | .cancelItem _ | .hardwarePost | .fence _ | .retest _ | .retestDone _ _ | .descError _ _
  | .start | .stop | .resume | .abort | .checkpoint | .olcArm | .olcCancel | .commandTakesEffect | .overrun _
  | .taskCtrlWrite _ _ | .forceEntryWrite _ _ _ | .clearAll _ | .forceCtrlWrite _ | .olcChangeHeadland | .olcComplete
  | .checkpointCapture _ | .checkpointWrite | .pfailAssert | .powerFailCut _ | .pfailRelease | .warmReset | .bridgeRestore _
  | .rejoin | .bridgeLimitExpiry | .txnOpen | .txnAdd | .txnSeal | .txnDrop | .localStagingDone _ | .peerVote _ _ _ _
  | .txnDecision | .txnBroadcast | .deferredOdWrite | .txnHoldExpiry | .openTimeout | .conversion _ _ | .auCtrlWrite _ _
  | .injSwTrig _ _ | .injectedRequest _ | .injectedStart _ | .refEnable _ _ | .refSettled _ | .refFault _ | .chCfgWrite _ _ _
  | .calStart _ _ | .calBegin _ | .calEnd _ _ | .accCfgWrite _ _ | .accTrkClr _ | .wcmpCfgWrite _ _ _ | .dacLoad | .arm _ _
  | .disarm _ _ | .captSwTrig _ | .captureSample _ | .rearm _ | .triginEdge _ _ _ | .captRelease _ | .ovfTailWrite _ | .ovfCopy _
  | .gleanSample | .gleanEdge _ _ _ | .gleanHoldEnd _ | .blockTimeClose _ | .gapRecord _ | .spoolCopy _ | .gleanSigWrite _ _
  | .moveAbs _ | .moveRel _ | .moveVel _ | .stopDecel _ | .stopNow _ | .home _ | .setPos _ | .profileTick _ _ | .drillStep _ _
  | .hardLimit _ _ | .homeInput _ _ | .encoderTransition _ | .axisCtrlWrite _ _ | .faultClr _ _ | .axisLimitWrite _ _ _
  | .axisPinsWrite _ _ | .chopTrip _ _ _ | .chopBlankEnd _ _ | .chopFastEnd _ _ | .chopSlowEnd _ _ | .open _ _ | .restRamp _
  | .chopCtrlWrite _ _ | .chopCfgWrite _ _ _ | .fieldCtrlWrite _ _ | .treavoReply _ _ _ | .foreignMaster _ _
  | .stationServiceWrite _ _ _ | .mdioGo _ _ _ | .phyPoll _ _ | .canCycle _ | .canFrameRx _ _ _ | .nodeBootTimeout _ _
  | .nodeRetry _ _ | .heartbeatTimeout _ _ | .busOff _ | .sdoUpload _ _ | .sdoDownload _ _ | .sdoComplete _ _ _ | .serialScan _
  | .modbusResponse _ _ | .modbusTimeout _ | .gpioFilteredChange _ _ _ | .ping _ _ | .close _ _ | .read _ _ _ _ _ | .info _ _ _
  | .segStart _ _ _ _ _ | .segEnd _ _ _ | .segAbort _ _ _ | .xferTimeout _ | .unsubscribe _ _ _ | .subscriptionSample
  | .streamOpen _ _ _ | .streamBlock | .streamAck _ _ _ | .streamClose _ _ | .streamResend | .sessionIdle _
  | .sessionCloseWrite _ | .proxyComplete _ _ | .proof _ _ _ | .proofTimeout _ | .sigPart _ _ _ | .sysResetWarm | .sysResetCold
  | .sync _ _ _ _ | .followUp _ _ | .delayReq _ _ _ _ | .delayResp _ _ _ | .pdelayReq _ _ _ _ _ _ | .pdelayResp _ _ _ _
  | .pdelayRespFollowUp _ _ | .announce _ _ _ | .announceTimeout _ _ _ | .holdEnd | .delayReqSend _ _ _ | .syncSend _ _ _
  | .announceSend _ _ | .frameSent _ _ _ _ _ | .ptpAsymWrite _ | .arpRequest _ _ _ | .echoRequest _ _ | .safetyCoreTick _
  | .mastiffTick _ _ | .testPulse _ _ | .darkTest _ _ _ | .safetyResetRelease | .islandFault _ _ _ | .islandStart _ | .restart
  | .activate | .mirrorFrame | .mirrorLost | .safemirReqWrite _ | .harrowRead _ _ | .fallowWindow _ _ | .ownerWrite _ _
  | .drainEnd _ | .creditRefill | .granaryLineWrite _ | .persistRewrite _ | .bistSlice _ | .bistRestart _ | .provision | .operate
  | .service | .retire | .deprovision | .revoke _ _ | .rollbackAdvance | .fwActivate _ | .imageVerify _ _ | .debugUnlock _ _
  | .tamperDetect _ | .tamperWipeDone | .linkUp _ _ _ | .linkDown _ | .farmTimeExchange _ _ _ _ _ _ _ | .headlandMessage _ _ _ _
  | .headlandMessageMissed | .farmWindowAccess _ _ _ | .farmValueDelivery _ _ _ _ | .farmEventForward _ _ _ _ _ _
  | .peerActions _ _ _ _ _ | .peerDecision _ _ _ | .doubtQuery _ _ _ | .doubtLimitExpiry | .twinMirror _ | .twinMirrorIncomplete
  | .twinHeartbeat _ _ _ _ | .twinTakeover | .powerOn _ _ _ | .porstAssert | .coldStart _ _ _ _ _ | .svcrstPress | .svcrstRelease
  | .svcrstStuck | .shutdown | .shutCancel | .shutdownStepDone | .cfgRestart _ | .fwConfirm | .fwTrialExpiry | .wdogKick _
  | .wdogExpiry | .ddrTrain _ | .ddrTrainDone _ _ | .ddrTestStart _ | .ddrTestDone _ _ _ | .linktestCtrlWrite _ _
  | .prbsLockLost _ _ _ | .generatorStart _ _ | .generatorStop _ _ | .testFrameRx _ _ _ | .uplinkLinkDown _ | .uplinkLinkUp _ _
  | .laneFailure _ | .flitReplay _ _ | .refInRange _ | .dacrefReady | .peerReceipt _ _ _ | .broadcastTurnaround _
  | .busOffRecovered _ | .bootMsMissing _ _ | .lifecycleTransitionEnd | .debugHalt _ | .xspiProgramDone _ | .prbsLock _
  | .testFrameSend _ | .twinCutCopied _ | .twinFrameSeen _ => true

end Sys2Proof
end

