-- ==== Sys2Proof/Machine/ECode.lean ====
section
/-! DEFINITION. Chapter 3: the instructions of E-code 5 on a core that runs a task. An instruction acts on the top frame
of the core's run; on a core that executes no task, or without the operands a verified module gives it, it does not occur
and the state stays as it is. -/

namespace Sys2Proof.Machine

/-! ### The frame of an instruction -/

/-- The top frame of a run changed, with its program counter past an instruction of n bytes. -/
def Run.next (r : Run) (fr : Frame) (rest : List Frame) (n : Nat) (stack : List Quad) : Run :=
  { r with frames := { fr with pc := fr.pc + n, stack := stack } :: rest }

/-- What an instruction of at least n stack cells does to the run and its top frame. DESIGN CHOICE (assumptions 5, 35, 148). -/
def onFrame (k n : Nat) (f : Run → Frame → List Frame → State → State) (s : State) : State :=
  match s.run k with
  | none => s
  | some r =>
    match r.frames with
    | [] => s
    | fr :: rest => if r.phase = .executing ∧ n ≤ fr.stack.length then f r fr rest s else s

/-- An instruction of a size that pops n cells and pushes what f gives for them, top first. DESIGN CHOICE (assumption 36). -/
def stackOp (k size n : Nat) (f : List Quad → List Quad) (s : State) : State :=
  onFrame k n (fun r fr rest t => t.setRun k (some (r.next fr rest size (f (fr.stack.take n) ++ fr.stack.drop n)))) s

/-- The cell i below the top of the popped ones. -/
def nth (l : List Quad) (i : Nat) : Quad := l.getD i 0

/-- An instruction that pushes one cell. -/
def pushOp (k size : Nat) (v : Quad) (s : State) : State := stackOp k size 0 (fun _ => [v]) s
/-- An instruction a → f a. -/
def unaryOp (k size : Nat) (f : Quad → Quad) (s : State) : State := stackOp k size 1 (fun l => [f (nth l 0)]) s
/-- An instruction a, b → f a b. -/
def binaryOp (k size : Nat) (f : Quad → Quad → Quad) (s : State) : State :=
  stackOp k size 2 (fun l => [f (nth l 1) (nth l 0)]) s

/-- R103, R104: an instruction that raised a task fault: under continue and report it gives its result, g. -/
def faultOp (k code : Nat) (g : State → State) (s : State) : State :=
  if (taskFault k code s).1 then g (taskFault k code s).2 else (taskFault k code s).2

/-- A typed instruction is defined for its type (R85, R86); with another type a module that holds it is refused.
DESIGN CHOICE (assumption 148). -/
def typed (good : Bool) (f : State → State) (s : State) : State := if good then f s else s

/-- R114: the run on a core is in compatibility decode. -/
def State.legacyRun (s : State) (k : Nat) : Bool := (s.run k).any (·.mod.legacy)

/-- R115: an instruction that compatibility decode does not have. -/
def code5 (k : Nat) (f : State → State) (s : State) : State := if s.legacyRun k then s else f s

/-- R115: compatibility decode has 32-bit cells only. -/
def typedOn (k : Nat) (t : EType) (good : Bool) (f : State → State) (s : State) : State :=
  typed (good && !(s.legacyRun k && (t == .i64 || t == .f64 || t == .t64))) f s

/-- R75: DIV and REM: an integer divisor of 0 is DIV_ZERO. -/
def divOp (k : Nat) (t : EType) (f : Quad → Quad → Quad) (s : State) : State :=
  onFrame k 2 (fun _ fr _ u =>
    if !isFlt t && decide (rdInt t (nth fr.stack 0) = 0) then faultOp k 1 (binaryOp k 1 f) u else binaryOp k 1 f u) s

/-- R77, R87: the types and SAT of a CONV byte, unless the byte breaks R87. -/
def convByte (c : BitVec 8) : Option (EType × EType × Bool) :=
  if natBit c.toNat 7 then none
  else
    match etypeOf (c.toNat / 8 % 8), etypeOf (c.toNat % 8) with
    | some src, some dst => some (src, dst, natBit c.toNat 6)
    | _, _ => none

/-- R77: CONV. -/
def convOp (k : Nat) (c : BitVec 8) (s : State) : State :=
  match convByte c with
  | none => s
  | some (src, dst, sat) =>
    onFrame k 1 (fun _ fr _ u =>
      let op := unaryOp k 2 fun a => (cellConv src dst sat a).1
      if (cellConv src dst sat (nth fr.stack 0)).2 then faultOp k 2 op u else op u) s

/-! ### Locals, branches and calls (R80, R84) -/

/-- The top frame's local i set, past an instruction of a size, with the stack given. -/
def setLocal (k size i : Nat) (v : Quad) (stack : List Quad) (s : State) : State :=
  onFrame k 0 (fun r fr rest t =>
    t.setRun k (some (r.next { fr with locals := tset 0 fr.locals i v } rest size stack))) s

/-- LDL. -/
def ldl (k i : Nat) (s : State) : State := onFrame k 0 (fun _ fr _ t => pushOp k 2 (tget 0 fr.locals i) t) s
/-- STL. -/
def stl (k i : Nat) (s : State) : State :=
  onFrame k 1 (fun _ fr _ t => setLocal k 2 i (nth fr.stack 0) (fr.stack.drop 1) t) s
/-- INCL. -/
def incl (k i : Nat) (d : BitVec 8) (s : State) : State :=
  onFrame k 0 (fun _ fr _ t => setLocal k 3 i (tget 0 fr.locals i + d.signExtend 64) fr.stack t) s

/-- R84: the program counter moved by an offset from the next instruction. -/
def branchTo (pc : Nat) (o : BrOff) : Nat := ((pc + o.size : Nat) + o.val).toNat

/-- A branch of the run on a core that pops n cells and is taken when p holds for them. -/
def branchOp (k n : Nat) (o : BrOff) (p : List Quad → Bool) (s : State) : State :=
  onFrame k n (fun r fr rest t =>
    let pc := if p (fr.stack.take n) then branchTo fr.pc o else fr.pc + o.size
    t.setRun k (some { r with frames := { fr with pc := pc, stack := fr.stack.drop n } :: rest })) s

/-- The locals 0 to n − 1 of a call, from the arguments, deepest first. -/
def argLocals (l : List Quad) : Tbl Quad := l.zipIdx.foldl (fun m (v, i) => tset 0 m i v) []

/-- R80: CALL of entry f of the function table. -/
def callOp (k f : Nat) (s : State) : State :=
  onFrame k 0 (fun r fr rest t =>
    match r.mod.funcs[f]? with
    | none => t
    | some d =>
      if fr.stack.length < d.args then t
      else t.setRun k (some { r with frames :=
        ⟨f, d.offset, argLocals (fr.stack.take d.args).reverse, []⟩ ::
          { fr with pc := fr.pc + 3, stack := fr.stack.drop d.args } :: rest })) s

/-- The number of results of a function. -/
def Run.results (r : Run) (f : Nat) : Nat := ((r.mod.funcs[f]?).map (·.results)).getD 0

/-- The run's code has ended (R80). -/
def endOp (k : Nat) (s : State) : State :=
  onFrame k 0 (fun r _ _ t => t.setRun k (some { r with phase := .ended })) s

/-- R80: RET. -/
def retOp (k : Nat) (s : State) : State :=
  onFrame k 0 (fun r fr rest t =>
    match rest with
    | [] => endOp k t
    | c :: more => t.setRun k (some { r with frames :=
        { c with stack := fr.stack.take (r.results fr.func) ++ c.stack } :: more })) s

/-! ### Variables (R73, R81, R82, R99) -/

/-- An instruction whose descriptor operand is of one of some kinds. -/
def onVar (k n : Nat) (d : VarIdx) (kinds : List Nat) (f : Run → Frame → VarDesc → State → State) (s : State) : State :=
  onFrame k n (fun r fr _ t =>
    match r.mod.vars[d.idx]? with
    | none => t
    | some v => if v.kind ∈ kinds then f r fr v t else t) s

/-- R99: cell i of a RETAIN or FB variable of another entry: its principal copy. -/
def principalCell (s : State) (r : Run) (v : VarDesc) (i : Nat) : Quad :=
  let im := if r.old then s.oldImage.getD s.image else s.image
  match principal im r.mod v.owner with
  | none => 0
  | some t => tget 0 (if r.old then (s.oldRetained t).valid else (s.retained t).valid) (v.loc / 8 + i)

/-- Cell i of a variable as a run reads it. -/
def runCell (s : State) (r : Run) (v : VarDesc) (i : Nat) : Quad :=
  if v.kind = 1 then tget 0 (tget [] s.collie.globals r.mod.uid) (v.loc / 8 + i)
  else if v.owner = r.func then tget 0 r.work (v.loc / 8 + i)
  else principalCell s r v i

/-- Cell i of a variable written by the run on a core: a GLOBAL at once (R82), its own RETAIN or FB variable in the working
copy; a variable of another entry is not written (R99). DEDUCED (assumption 37). -/
def runPoke (k : Nat) (v : VarDesc) (i : Nat) (x : Quad) (s : State) : State :=
  match s.run k with
  | none => s
  | some r =>
    if v.kind = 1 then s.setGlobal r.mod.uid (v.loc / 8 + i) (normCell v.ty x)
    else if v.owner = r.func then
      s.setRun k (some { r with work := tset 0 r.work (v.loc / 8 + i) (normCell v.ty x) })
    else s

/-- LDV. -/
def ldv (k : Nat) (d : VarIdx) (s : State) : State :=
  onVar k 0 d [0, 1] (fun r _ v t => pushOp k (3 + d.extra) (runCell t r v 0) t) s
/-- STV. -/
def stv (k : Nat) (d : VarIdx) (s : State) : State :=
  onVar k 1 d [0, 1] (fun _ fr v t => stackOp k (3 + d.extra) 1 (fun _ => []) (runPoke k v 0 (nth fr.stack 0) t)) s
/-- LDX (R87). -/
def ldx (k : Nat) (d : VarIdx) (s : State) : State :=
  onVar k 1 d [0, 1, 6] (fun r fr v t =>
    let i := (nth fr.stack 0).toNat
    if i < v.elems then unaryOp k (3 + d.extra) (fun _ => runCell t r v i) t
    else faultOp k 3 (unaryOp k (3 + d.extra) fun _ => 0) t) s
/-- STX (R87). -/
def stx (k : Nat) (d : VarIdx) (s : State) : State :=
  onVar k 2 d [0, 1, 6] (fun _ fr v t =>
    let i := (nth fr.stack 1).toNat
    if i < v.elems then stackOp k (3 + d.extra) 2 (fun _ => []) (runPoke k v i (nth fr.stack 0) t)
    else faultOp k 3 (stackOp k (3 + d.extra) 2 fun _ => []) t) s

/-- R105: FB. -/
def fbOp (k : Nat) (d : VarIdx) (s : State) : State :=
  onVar k 0 d [6] (fun r fr v t =>
    match fbInputs (v.aux % 256) with
    | none => t
    | some n =>
      if fr.stack.length < n ∨ v.owner ≠ r.func then t
      else
        let x := fbRun (v.aux % 256) ⟨r.now, r.interval, v.elems⟩ r.work (v.loc / 8) (fr.stack.take n).reverse
        stackOp k (3 + d.extra) n (fun _ => x.2.reverse) (t.setRun k (some { r with work := x.1 }))) s

/-! ### The process image (R90, R119) -/

/-- R129: a point of an image lies under a force in a snapshot, at its address moved by a key. -/
def pointForced (x : Snapshot) (key : Nat → Nat) (r : Nat) (t : EType) : Bool :=
  (List.range (typeBytes t)).any fun i =>
    let m := (tget 0 x.forced (key (refAddr r + i))).toNat
    if t = .b then natBit m (refBit r) else decide (m ≠ 0)

/-- LDI: an input value from the snapshot; a system point from the run (R118), unless it is forced (R129). -/
def ldiVal (r : Run) (v : VarDesc) : Quad :=
  if refKind v.loc = 8 ∧ ¬ pointForced r.snap id v.loc v.ty then wrBool (natBit r.sys (v.loc % 256)) else imgRead r.snap.vals v.loc v.ty

/-- R120: the journal with a value for a point; a later one replaces the earlier. DEDUCED (assumption 40). -/
def journalPut (p : Nat) (ty : EType) (x : Quad) : List JEntry → List JEntry
  | [] => [⟨p, ty, x⟩]
  | e :: t => if e.point = p then ⟨p, ty, x⟩ :: t else e :: journalPut p ty x t

/-- R119: the journal has an entry for the point. -/
def journalHas (p : Nat) (l : List JEntry) : Bool := l.any fun e => e.point = p

/-- STO. -/
def sto (k : Nat) (d : VarIdx) (s : State) : State :=
  onVar k 1 d [3] (fun r fr v t =>
    let pop := stackOp k (3 + d.extra) 1 fun _ => []
    if !journalHas v.loc r.journal && decide (512 ≤ r.journal.length) then faultOp k 7 pop t
    else pop (t.setRun k (some { r with journal := journalPut v.loc v.ty (normCell v.ty (nth fr.stack 0)) r.journal }))) s

/-- LDO: the last STO of this run, or the shadow value. -/
def ldoVal (s : State) (r : Run) (v : VarDesc) : Quad :=
  match r.journal.find? fun e => e.point = v.loc with
  | some e => e.value
  | none => imgRead (tget [] s.img.shadow r.cls) v.loc v.ty

/-- PCATCH: the pulse-catch latch of a pin for the run's class. -/
def pcatchVal (r : Run) (v : VarDesc) : Quad :=
  if refKind v.loc = 0 then BitVec.ofNat 64 (tget 0 r.snap.pulses (r.cls * 192 + v.loc % 256)) else 0

/-- A point that is no value of a network or of the island: its value is always present and valid (R90). -/
def refLocal (p : Nat) : Bool := refKind p = 0 ∨ refKind p = 1 ∨ refKind p = 6 ∨ refKind p = 8

/-- LDAGE: 0 for a local point, or the base periods since the value's headland (R388). -/
def ldageVal (r : Run) (v : VarDesc) : Quad :=
  if refLocal v.loc || decide (refKind v.loc = 7) then 0
  else
    match tget 0 r.snap.ages (refSource v.loc) with
    | 0 => 0xFFFFFFFF
    | b + 1 => BitVec.ofNat 64 (min 0xFFFFFFFF (r.snap.index - b))

/-- The key of an output in a snapshot's qualities and forces. -/
def outKey (a : Nat) : Nat := a + 2 ^ 40

/-- R90: VALID, SUBSTITUTE and FORCED of a point in a snapshot. -/
def pointQual (x : Snapshot) (out : Bool) (r : Nat) (t : EType) : Nat :=
  let src := refSource r
  let q := if refLocal r then 1 else tget 0 x.quals (if out then outKey src else src)
  q % 4 + 4 * b2n (pointForced x (if out then outKey else id) r t)

/-- LDQ: the quality of the point in the run's snapshot. DEDUCED (assumption 41). -/
def ldqVal (r : Run) (v : VarDesc) : Quad := BitVec.ofNat 64 (pointQual r.snap (v.kind = 3) v.loc v.ty)

/-- An instruction that pushes a value read through a descriptor of one of some kinds. -/
def readVar (k : Nat) (d : VarIdx) (kinds : List Nat) (f : State → Run → VarDesc → Quad) (s : State) : State :=
  onVar k 0 d kinds (fun r _ v t => pushOp k (3 + d.extra) (f t r v) t) s

/-! ### The core-private memory (R79) -/

/-- R79: the operand stack of a run, the deepest cell first. -/
def Run.stackCells (r : Run) : List Quad := (r.frames.reverse.map fun f => f.stack.reverse).flatten

/-- R119: an entry of the output journal, as two words. -/
def JEntry.words (e : JEntry) : List Quad := [BitVec.ofNat 64 (e.point + 2 ^ 32 * etypeCode e.ty), e.value]

/-- R166: an entry of the staged action list, as two words; a DELAY has two entries. -/
def Action.words (a : Action) : List Quad :=
  let head := fun (code : Nat) => BitVec.ofNat 64 (code + 256 * etypeCode a.ty + 4096 * a.kind + 65536 * a.handle + 2 ^ 32 * a.target)
  [head a.code, a.value] ++ if a.code = 5 then [head 6, a.dt] else []

/-- R79: the 64-bit word at an offset of a core's private memory: the operand stack, the working copy, the journal and the staged actions of
the run; what lies in the frame area has no layout that the spec gives. -/
def Run.privWord (r : Run) (o : Nat) : Option Quad :=
  if o < 0x800 then some (r.stackCells.getD (o / 8) 0)
  else if o < 0x4000 then none
  else if o < 0xC000 then some (tget 0 r.work ((o - 0x4000) / 8))
  else if o < 0xE000 then some ((r.journal.flatMap JEntry.words).getD ((o - 0xC000) / 8) 0)
  else some ((r.actions.flatMap Action.words).getD ((o - 0xE000) / 8) 0)

/-! ### Staged actions (R92, R166) -/

/-- An action staged behind the others after n cells are popped, or ACTION_FULL. -/
def stageOp (k size n : Nat) (a : Action) (s : State) : State :=
  onFrame k n (fun r _ _ t =>
    let pop := stackOp k size n fun _ => []
    if 512 < actionSize (r.actions ++ [a]) then faultOp k 6 pop t
    else pop (t.setRun k (some { r with actions := r.actions ++ [a] }))) s

/-- POST, SEND, CANCEL, MARK: an action of a code with one argument at most. -/
def stageVar (k code kind n : Nat) (d : VarIdx) (s : State) : State :=
  onVar k n d [kind] (fun _ fr v t =>
    stageOp k (3 + d.extra) n ⟨code, .i64, kind, 0, v.loc, if n = 0 then 0 else nth fr.stack 0, 0⟩ t) s

/-- REPLY: to the waitpoint that the run's post named (R170). -/
def replyOp (k : Nat) (s : State) : State :=
  onFrame k 1 (fun r fr _ t => stageOp k 1 1 ⟨3, .i64, 7, 0, r.entry.replyTo, nth fr.stack 0, 0⟩ t) s

/-- DELAY. -/
def delayOp (k : Nat) (d : VarIdx) (s : State) : State :=
  onVar k 2 d [7] (fun _ fr v t =>
    stageOp k (3 + d.extra) 2 ⟨5, .i64, 7, 0, v.loc, nth fr.stack 1, nth fr.stack 0⟩ t) s

/-- R169: WAIT ends the segment. -/
def waitOp (k : Nat) (d : VarIdx) (s : State) : State :=
  onVar k 0 d [7] (fun r fr v t =>
    t.setRun k (some { r.next fr r.frames.tail (3 + d.extra) fr.stack with phase := .waiting v.loc })) s

/-- R92, R103: TXOPEN reserves a handle and stages the open. DEDUCED (assumption 38). -/
def txopenOp (k : Nat) (s : State) : State :=
  onFrame k 0 (fun r _ _ t =>
    if 512 < actionSize r.actions + 1 then faultOp k 6 (pushOp k 1 0) t
    else
      let x := txTake 1 r.entry.desc true t
      if x.1 = 0 then faultOp k 5 (pushOp k 1 0) t
      else
        pushOp k 1 (BitVec.ofNat 64 x.1) (x.2.setRun k (some { r with actions :=
          r.actions ++ [⟨7, .u32, 0, x.1, 0, 0, 0⟩] }))) s

/-- R203: the slot of a handle that the run's task owns. -/
def ownSlot (s : State) (r : Run) (h : Quad) : Option Nat :=
  (s.txSlot h.toNat).filter fun i => (s.tx i).ownerKind = 1 ∧ (s.tx i).ownerId = r.entry.desc

/-- An instruction on a transaction of the run's task, its handle n − 1 cells below the top: staged, or TXN_HANDLE. -/
def stageTx (k size n : Nat) (a : Action) (s : State) : State :=
  onFrame k n (fun r fr _ t =>
    let h := nth fr.stack (n - 1)
    match ownSlot t r h with
    | none => faultOp k 4 (stackOp k size n fun _ => []) t
    | some _ => stageOp k size n { a with handle := h.toNat } t) s

/-- R201: the type that an ADD of a descriptor stages; an axis takes an I64 target. -/
def addType (v : VarDesc) : EType := if v.kind = 5 then .i64 else v.ty

/-- TXADD. DEDUCED (assumption 149). -/
def txaddOp (k : Nat) (d : VarIdx) (s : State) : State :=
  onVar k 2 d [3, 5, 10] (fun _ fr v t =>
    stageTx k (3 + d.extra) 2 ⟨8, addType v, v.kind, 0, v.loc, normCell (addType v) (nth fr.stack 0), 0⟩ t) s

/-- TXSEAL. DEDUCED (assumption 149). -/
def txsealOp (k : Nat) (s : State) : State :=
  onFrame k 2 (fun _ fr _ t => stageTx k 1 2 ⟨9, .t64, 0, 0, 0, nth fr.stack 0, 0⟩ t) s

/-- TXDROP. DEDUCED (assumption 149). -/
def txdropOp (k : Nat) (s : State) : State := stageTx k 1 1 ⟨10, .u32, 0, 0, 0, 0, 0⟩ s

/-- TXSTAT (R224). -/
def txstatOp (k : Nat) (s : State) : State :=
  onFrame k 1 (fun r fr _ t =>
    match ownSlot t r (nth fr.stack 0) with
    | none => faultOp k 4 (unaryOp k 1 fun _ => 0) t
    | some i => unaryOp k 1 (fun _ => BitVec.ofNat 64 (txStatus (t.tx i))) t) s

/-- R93: the number of arguments of an axis command; none for a value outside the table. -/
def axArgs : Nat → Option Nat
  | 0 => some 1 | 1 => some 1 | 2 => some 1 | 3 => some 0 | 4 => some 0 | 5 => some 1 | 6 => some 1 | _ => none

/-- AXCMD. -/
def axcmdOp (k : Nat) (d : VarIdx) (c : BitVec 8) (s : State) : State :=
  match axArgs c.toNat with
  | none => s
  | some n =>
    onVar k n d [5] (fun _ fr v t =>
      let ty : EType := if c = 5 then .u32 else .i64
      let x := if n = 0 then 0 else normCell ty (nth fr.stack 0)
      stageOp k (4 + d.extra) n ⟨11, ty, 5, c.toNat, v.loc, x, 0⟩ t) s

end Sys2Proof.Machine
end

