-- ==== Sys2Proof/Machine/Analog.lean ====
section
/-! DEFINITION. Chapter 7: the converter units, reference buffers, channel filters, accumulators, trackers, window
comparators, calibration and DACs. -/

namespace Sys2Proof.Machine

/-! ### Access -/

/-- A converter unit. -/
def State.au (s : State) (u : Nat) : AUnit := tget AUnit.stopped s.analog.units u
/-- A converter unit, set. -/
def State.setAu (s : State) (u : Nat) (x : AUnit) : State :=
  { s with analog := { s.analog with units := tset AUnit.stopped s.analog.units u x } }
/-- A channel. -/
def State.chan (s : State) (c : Nat) : Chan := tget Chan.fresh s.analog.chans c
/-- A channel, set. -/
def State.setChan (s : State) (c : Nat) (x : Chan) : State :=
  { s with analog := { s.analog with chans := tset Chan.fresh s.analog.chans c x } }
/-- A channel, changed. -/
def State.modChan (s : State) (c : Nat) (f : Chan → Chan) : State := s.setChan c (f (s.chan c))
/-- The channels of a unit. -/
def chansOf (u : Nat) : List Nat := (List.range 16).map (16 * u + ·)
/-- REF_SETTLED of the plot of a unit. -/
def State.refOk (s : State) (u : Nat) : Bool := s.flag (R.ADC_p_REF_STATUS (u / 4)) F.ADC_p_REF_STATUS.SETTLED
/-- RUN of a unit. -/
def State.auRun (s : State) (u : Nat) : Bool := s.flag (R.AU_n_CTRL u) F.AU_n_CTRL.RUN

/-- R236: the first slot boundary strictly later than a grain. -/
def slotAfter (g : Quad) : Quad := BitVec.ofNat 64 ((g.toNat / 512 + 1) * 512)
/-- The first slot boundary at or after a grain. -/
def slotFrom (g : Quad) : Quad := BitVec.ofNat 64 ((g.toNat + 511) / 512 * 512)

/-! ### Reference buffers (R243) -/

/-- Settling of a plot's reference buffer starts. -/
def refStart (p : Nat) (s : State) : State :=
  ({ s with analog := { s.analog with
    settleAt := tset none s.analog.settleAt p (some (s.raw + 5242880)) } }).put (R.ADC_p_REF_STATUS p)
    F.ADC_p_REF_STATUS.SETTLING 1

/-- REF_SETTLED becomes 0; a calibration in progress has not been settled throughout (R251). -/
def refLost (p : Nat) (s : State) : State :=
  let s1 := { s with analog := { s.analog with settleAt := tset none s.analog.settleAt p none } }
  let s2 := (s1.put (R.ADC_p_REF_STATUS p) F.ADC_p_REF_STATUS.SETTLED 0).put (R.ADC_p_REF_STATUS p)
    F.ADC_p_REF_STATUS.SETTLING 0
  (List.range 4).foldl (fun t i => t.setAu (4 * p + i) { t.au (4 * p + i) with calOk := false }) s2

/-- R243: a write of ADC_p_REF_CTRL. -/
def refCtrlWrite (p : Nat) (v : Word) (s : State) : State :=
  let was := s.flag (R.ADC_p_REF_CTRL p) F.ADC_p_REF_CTRL.EN
  let s1 := s.put (R.ADC_p_REF_CTRL p) F.ADC_p_REF_CTRL.EN (fldOf F.ADC_p_REF_CTRL.EN v)
  if fldOf F.ADC_p_REF_CTRL.EN v = 1 then (if was then s1 else refStart p s1)
  else (refLost p s1).put (R.ADC_p_REF_STATUS p) F.ADC_p_REF_STATUS.FAULT 0

/-- R243: a reference buffer has settled. -/
def refSettled (p : Nat) (s : State) : State :=
  match tget none s.analog.settleAt p with
  | none => s
  | some g =>
    let s1 := s.advanceTo g
    let s2 := { s1 with analog := { s1.analog with settleAt := tset none s1.analog.settleAt p none } }
    let s3 := (s2.put (R.ADC_p_REF_STATUS p) F.ADC_p_REF_STATUS.SETTLED 1).put (R.ADC_p_REF_STATUS p)
      F.ADC_p_REF_STATUS.SETTLING 0
    (s3.setReg64 (R.ADC_p_REF_SETTLED_V_LO p) (R.ADC_p_REF_SETTLED_V_HI p) s3.vT64).raise R.ADC_EVENTS ⟨4 + p, 1⟩

/-- R243: the monitor of an enabled reference buffer has been out of range for 4 slots. -/
def refFault (p : Nat) (s : State) : State :=
  if s.flag (R.ADC_p_REF_CTRL p) F.ADC_p_REF_CTRL.EN then
    ((refLost p s).put (R.ADC_p_REF_STATUS p) F.ADC_p_REF_STATUS.FAULT 1).raise R.ADC_EVENTS ⟨p, 1⟩
  else s

/-- R243: the monitor is in range again after a fault. -/
def refInRange (p : Nat) (s : State) : State :=
  if s.flag (R.ADC_p_REF_STATUS p) F.ADC_p_REF_STATUS.FAULT then
    refStart p (s.put (R.ADC_p_REF_STATUS p) F.ADC_p_REF_STATUS.FAULT 0)
  else s

/-! ### Settings of a channel (R244, R247) -/

/-- GAIN of a setting. -/
def cfgGain (c : Nat) : Nat := c % 4
/-- FILTER of a setting. -/
def cfgFilter (c : Nat) : Nat := c / 4 % 4
/-- FPARAM of a setting. -/
def cfgParam (c : Nat) : Nat := c / 16 % 8

/-- R245, R247: the outputs that a restarted filter gives as invalid. -/
def fillOf (c : Nat) : Nat :=
  match cfgFilter c with
  | 1 => 2 ^ (cfgParam c + 1) - 1
  | 2 => 4 * 2 ^ (cfgParam c + 1)
  | _ => 0

/-- R244, R247: a staged setting takes effect: a gain change makes three conversions invalid, and a change of the gain or
the filter restarts the filter. -/
def Chan.take (x : Chan) (new : Nat) : Chan :=
  if cfgGain new ≠ cfgGain x.cfg then { x with cfg := new, armed := none, gainLeft := 3, restart := true }
  else if new ≠ x.cfg then { x with cfg := new, armed := none, restart := true }
  else { x with armed := none }

/-- R244: a channel as it stands at a raw grain, at one of its conversions or between them: a staged setting that is due takes
effect, and the window in which it does is marked. -/
def Chan.settle (x : Chan) (g : Quad) (conv : Bool) : Chan :=
  match x.armed with
  | none => x
  | some a =>
    if a.since.toNat ≤ g.toNat ∧ (conv ∨ a.bySlot) then
      let from_ := if a.bySlot then a.since else g
      let y := x.take a.cfg
      { y with win := y.win.map fun w => { w with
        staged := w.staged || (decide (a.cfg ≠ x.cfg) && decide (w.startRaw.toNat ≤ from_.toNat)) } }
    else x

/-- R244: a channel settled; PENDING falls when no later write is staged. -/
def chanSettle (c : Nat) (g : Quad) (conv : Bool) (s : State) : State :=
  let r := R.AU_n_i_CH_CFG (c / 16) (c % 16)
  let y := (s.chan c).settle g conv
  let s1 := s.setChan c y
  if y.armed.isNone ∧ (s.chan c).armed.isSome ∧ (s.reg r).toNat % 128 = y.cfg then s1.put r F.AU_n_i_CH_CFG.PENDING 0 else s1

/-- R244: the setting of a channel before one of its conversions. -/
def applyStaged (c : Nat) (g : Quad) (s : State) : State := chanSettle c g true s

/-- A channel as it stands now. -/
def State.chanNow (s : State) (c : Nat) : Chan := (s.chan c).settle s.raw false

/-- AU_n_i_CH_CFG as it reads (R274). -/
def chCfgRead (s : State) (c : Nat) : Nat :=
  let r := R.AU_n_i_CH_CFG (c / 16) (c % 16)
  let w := (s.reg r).toNat % 128
  let done : Bool := (s.chan c).armed.isSome ∧ (s.chanNow c).armed.isNone ∧ w = (s.chanNow c).cfg
  w + 256 * b2n (s.flag r F.AU_n_i_CH_CFG.PENDING && !done)

/-- R244, R274: a write of AU_n_i_CH_CFG; while the generator does not run it takes effect at the next slot boundary. -/
def chCfgWrite (u i : Nat) (v : Word) (s : State) : State :=
  let new := v.toNat % 128
  if (cfgFilter new = 1 ∧ 5 < cfgParam new) ∨ cfgFilter new = 3 then
    s.raise (R.AU_n_EVENTS u) F.AU_n_EVENTS.CFG_REFUSED
  else
    let s1 := s.setReg (R.AU_n_i_CH_CFG u i) (BitVec.ofNat 32 (new + 256))
    if s.headRun then s1
    else s1.modChan (16 * u + i) fun x => { x.settle s.raw false with armed := some ⟨slotAfter s.raw, new, true⟩ }

/-- AU_n_i_CH_STATUS (R274). -/
def chStatus (s : State) (c : Nat) : Nat :=
  let x := s.chanNow c
  let left := if x.restart ∨ 0 < x.gainLeft then x.gainLeft + fillOf x.cfg else fillOf x.cfg - x.fill
  x.cfg + 256 * x.reason + 1024 * b2n x.valid + 65536 * left

/-! ### The filter (R245) -/

/-- The filter with its history cleared. -/
def Chan.cleared (x : Chan) : Chan :=
  if x.restart then { x with hist := [], fill := 0, y := 0, restart := false } else x

/-- R245: a valid regular conversion enters the filter: the output, whether it is valid, and the channel. -/
def Chan.filter (x0 : Chan) (v : Int) : Int × Bool × Chan :=
  let x := { x0.cleared with fill := min 4096 (x0.cleared.fill + 1) }
  let n := cfgParam x.cfg + 1
  match cfgFilter x.cfg with
  | 1 =>
    let h := (v :: x.hist).take (2 ^ n)
    let y := (h.foldl (· + ·) 0 + 2 ^ n / 2) / 2 ^ n
    (y, decide (2 ^ n ≤ x.fill), { x with hist := h })
  | 2 =>
    let y := if x.fill = 1 then v * 256 else x.y + (v * 256 - x.y) / 2 ^ n
    ((y + 128) / 256, decide (4 * 2 ^ n < x.fill), { x with y := y })
  | _ => (v, true, x)

/-! ### Accumulators, trackers, comparators (R253 to R259) -/

/-- R254, R255: a value enters an open window; off is its raw offset from the start. -/
def AccWin.add (w : AccWin) (v : Int) (valid clip : Bool) (off : Nat) : AccWin :=
  if !valid then { w with inv := if w.inv < 255 then w.inv + 1 else 255 }
  else
    { w with
      n := if w.n < 65535 then w.n + 1 else w.n
      sum := if w.n < 65535 then w.sum + v else w.sum
      sumsq := if w.n < 65535 then w.sumsq + v.natAbs * v.natAbs else w.sumsq
      nSat := w.nSat || decide (65534 ≤ w.n)
      clip := w.clip || clip
      min := match w.min with
        | some (x, o) => if v < x then some (v, off) else some (x, o)
        | none => some (v, off)
      max := match w.max with
        | some (x, o) => if x < v then some (v, off) else some (x, o)
        | none => some (v, off) }

/-- R253, R255: a value reaches the accumulator of a channel. -/
def accAdd (c : Nat) (v : Int) (valid clip : Bool) (g : Quad) (s : State) : State :=
  match (s.chan c).win with
  | none => s
  | some w =>
    let w1 := w.add v valid clip (g - w.startRaw).toNat
    (s.modChan c fun x => { x with win := some w1 }).raiseIf (w1.nSat && !w.nSat) R.ACC_EVENTS F.ACC_EVENTS.N_SAT

/-- R257: a valid value reaches the trackers of a channel. -/
def trkAdd (c : Nat) (v : Int) (t : Quad) (s : State) : State :=
  let first := !(s.chan c).tracked
  let lo := first || decide (v < (s.reg (R.ACC_c_TRK_MIN c)).toInt)
  let hi := first || decide ((s.reg (R.ACC_c_TRK_MAX c)).toInt < v)
  let s1 := s.modChan c fun x => { x with tracked := true }
  let s2 := if lo then (s1.setReg (R.ACC_c_TRK_MIN c) (BitVec.ofInt 32 v)).setReg64 (R.ACC_c_TRK_MIN_T_LO c)
    (R.ACC_c_TRK_MIN_T_HI c) t else s1
  if hi then (s2.setReg (R.ACC_c_TRK_MAX c) (BitVec.ofInt 32 v)).setReg64 (R.ACC_c_TRK_MAX_T_LO c)
    (R.ACC_c_TRK_MAX_T_HI c) t else s2

/-- R257: the tracker of a channel cleared. -/
def trkClear (c : Nat) (s : State) : State :=
  let s1 := (s.setReg (R.ACC_c_TRK_MIN c) 0x7FFFF).setReg (R.ACC_c_TRK_MAX c) 0xFFF80000
  ((s1.setReg64 (R.ACC_c_TRK_MIN_T_LO c) (R.ACC_c_TRK_MIN_T_HI c) 0).setReg64 (R.ACC_c_TRK_MAX_T_LO c)
    (R.ACC_c_TRK_MAX_T_HI c) 0).modChan c fun x => { x with tracked := false }

/-- R257: a write of ACC_TRK_CLR. -/
def trkClrWrite (v : Word) (s : State) : State :=
  if fldOf F.ACC_TRK_CLR.ALL v = 1 then s.forAll (List.range 256) trkClear else trkClear (v.toNat % 256) s

/-- R258: the new state and the event (0 none) of a comparator in a state for a value. -/
def wcmpMove (st : Nat) (lo hi hyst v : Int) (re : Bool) : Nat × Nat :=
  if st = 0 ∨ st = 1 then
    if v < lo then (2, 1) else if hi < v then (3, 2) else (1, 0)
  else if st = 2 then
    if hi < v then (3, 2) else if lo + hyst ≤ v then (1, if re then 3 else 0) else (2, 0)
  else if v < lo then (2, 1) else if v ≤ hi - hyst then (1, if re then 3 else 0) else (3, 0)

/-- R258, R259: a valid value reaches the comparator of a channel; g is its sampling instant. -/
def wcmpAdd (c : Nat) (v : Int) (g : Quad) (s : State) : State :=
  let r := R.ACC_c_WCMP_CFG c
  if ¬ s.flag r F.ACC_c_WCMP_CFG.EN then s
  else
    let m := wcmpMove (s.get r F.ACC_c_WCMP_CFG.STATE) (s.reg (R.ACC_c_WCMP_LOW c)).toInt
      (s.reg (R.ACC_c_WCMP_HIGH c)).toInt (s.get r F.ACC_c_WCMP_CFG.HYST) v (s.flag r F.ACC_c_WCMP_CFG.REENTRY)
    let s1 := s.put r F.ACC_c_WCMP_CFG.STATE m.1
    if m.2 = 0 then s1
    else
      let arg := c + 256 * m.2 + 65536 * (v % (2 ^ 20 : Int)).toNat
      let p : HwPost := ⟨s.get r F.ACC_c_WCMP_CFG.DESC, BitVec.ofNat 64 arg, some (g, BitVec.ofInt 64 (s.vAt g))⟩
      ({ s1 with collie := { s1.collie with hwPosts := s1.collie.hwPosts ++ [p] } }).raise R.ACC_EVENTS
        F.ACC_EVENTS.WCMP

/-- A signed 20-bit register value, sign-extended (R275). -/
def sext20 (v : Word) : Word := (v.extractLsb' 0 20).signExtend 32

/-- R258: after a write the comparator is UNKNOWN, and it is refused when its thresholds cross. -/
def wcmpCheck (c : Nat) (s : State) : State :=
  let r := R.ACC_c_WCMP_CFG c
  let s1 := s.put r F.ACC_c_WCMP_CFG.STATE 0
  let h : Int := s1.get r F.ACC_c_WCMP_CFG.HYST
  if s1.flag r F.ACC_c_WCMP_CFG.EN ∧ (s1.reg (R.ACC_c_WCMP_HIGH c)).toInt - h < (s1.reg (R.ACC_c_WCMP_LOW c)).toInt + h then
    (s1.put r F.ACC_c_WCMP_CFG.EN 0).raise R.ACC_EVENTS F.ACC_EVENTS.CFG_REFUSED
  else s1

/-- R258: a write of ACC_c_WCMP_LOW (0), ACC_c_WCMP_HIGH (1) or ACC_c_WCMP_CFG (2). -/
def wcmpWrite (c which : Nat) (v : Word) (s : State) : State :=
  wcmpCheck c (match which with
    | 0 => s.setReg (R.ACC_c_WCMP_LOW c) (sext20 v)
    | 1 => s.setReg (R.ACC_c_WCMP_HIGH c) (sext20 v)
    | _ => s.setReg (R.ACC_c_WCMP_CFG c) (v &&& 0xFFF3FFFF))

/-- R254: OFS_SHIFT of a window of m base periods. -/
def ofsShift (s : State) (m : Nat) : Nat :=
  ((List.range 10).find? fun e => m * (s.pg + s.pg / 32) ≤ 2 ^ (24 + e)).getD 9

/-- R255: the entries of an input in the regular sequence of a unit of length l. -/
def seqOcc (s : State) (u i l : Nat) : Nat :=
  ((List.range l).filter fun e => (s.reg (R.AU_n_SEQ_e u e)).toNat % 16 = i).length

/-- R255: the bound on regular conversions of a channel with windows of m base periods in a sequence of length l. -/
def accFits (s : State) (u i m l : Nat) : Bool :=
  seqOcc s u i l * ((m * (s.pg + s.pg / 32) + 512 * l - 1) / (512 * l)) ≤ 65535

/-- SEQ_LEN_M1 + 1. -/
def State.seqLen (s : State) (u : Nat) : Nat := s.get (R.AU_n_CTRL u) F.AU_n_CTRL.SEQ_LEN_M1 + 1

/-- R253, R255: a write of ACC_c_CFG. -/
def accCfgWrite (c : Nat) (v : Word) (s : State) : State :=
  let m := fldOf F.ACC_c_CFG.WIN_M_M1 v + 1
  if m ≤ fldOf F.ACC_c_CFG.WIN_PHASE v ∨ ¬ accFits s (c / 16) (c % 16) m (s.seqLen (c / 16)) then
    s.raise R.ACC_EVENTS F.ACC_EVENTS.CFG_REFUSED
  else s.setReg (R.ACC_c_CFG c) (v &&& 0xFFFF)

/-- ACC_c_CFG as it reads: OFS_SHIFT is that of the open window, or of the next one. -/
def accCfgRead (s : State) (c : Nat) : Nat :=
  let w := s.reg (R.ACC_c_CFG c)
  let e := match (s.chan c).win with
    | some x => x.shift
    | none => ofsShift s (fldOf F.ACC_c_CFG.WIN_M_M1 w + 1)
  w.toNat % 65536 + 65536 * e

/-- R252, R254: the regular conversions of a unit are stopped or suspended at a raw grain. -/
def State.auGap (s : State) (u : Nat) (g : Quad) : Bool :=
  let x := (s.au u).at g
  !x.running || x.suspended || decide (x.cal = .running)

/-- R253: the window that opens at the last headland. -/
def accOpen (s : State) (c : Nat) : AccWin :=
  let w := s.reg (R.ACC_c_CFG c)
  let m := fldOf F.ACC_c_CFG.WIN_M_M1 w + 1
  { m := m, phase := fldOf F.ACC_c_CFG.WIN_PHASE w, shift := ofsShift s m, startV := s.headV, startRaw := s.headRaw
    n := 0, inv := 0, sum := 0, sumsq := 0, min := none, max := none
    gap := s.auGap (c / 16) s.headRaw, nSat := false, clip := false, staged := false }

/-- R254: the record of a window that closes; RUN that took effect as 0 before the close marks GAP. DEDUCED (assumption 54). -/
def accClose (s : State) (c : Nat) (x : Chan) (w : AccWin) : AccRec :=
  let seq := (x.closed.flags / 65536 + 1) % 65536
  { n := w.n, inv := w.inv, sum := w.sum, sumsq := w.sumsq
    min := (w.min.map (·.1)).getD 0, minOfs := (w.min.map (·.2)).getD 0 / 2 ^ w.shift
    max := (w.max.map (·.1)).getD 0, maxOfs := (w.max.map (·.2)).getD 0 / 2 ^ w.shift
    start := w.startV, shift := w.shift
    flags := b2n (w.gap || !((s.au (c / 16)).at (s.headRaw - 1)).running) + 2 * b2n w.nSat + 4 * b2n w.clip + 8 * b2n w.staged + 65536 * seq
    scale := s.reg64 (R.AU_n_i_SCALE_LO (c / 16) (c % 16)) (R.AU_n_i_SCALE_HI (c / 16) (c % 16))
    gain := cfgGain x.cfg }

/-- R244, R253: the accumulator of a channel at a headland: a window due closes and the next opens, with a staged setting
due; the first headland opens the first one. -/
def accHeadlandOf (c : Nat) (s : State) : State :=
  let s1 := chanSettle c s.headRaw false s
  let x := s1.chan c
  let r := R.AU_n_i_CH_CFG (c / 16) (c % 16)
  let due : Option Staged := if s1.flag r F.AU_n_i_CH_CFG.PENDING then some ⟨s.headRaw, (s1.reg r).toNat % 128, false⟩ else x.armed
  match x.win with
  | none => s1.setChan c { x with win := some (accOpen s c) }
  | some w =>
    if ((s.headIndex : Int) - w.phase) % (w.m : Int) = 0 then
      s1.setChan c { x with closed := accClose s c x w, win := some (accOpen s c), armed := due }
    else s1

/-- R253: every accumulator at a headland. -/
def accHeadland (s : State) : State := s.forAll (List.range 256) accHeadlandOf

/-- R256: the closed records that a snapshot takes. -/
def accRecords (s : State) : Tbl AccRec :=
  (s.analog.chans.map fun x => (x.1, x.2.closed)).filter fun x => x.2 ≠ AccRec.empty

/-- R275, R277: the words of a channel's closed record, from ACC_c_WIN_STATUS at place 1 to ACC_c_START_HI at 12. -/
def accWord (r : AccRec) (i : Nat) : Word :=
  match i with
  | 1 => BitVec.ofNat 32 r.flags
  | 2 => BitVec.ofNat 32 (r.n + 65536 * r.inv)
  | 3 => BitVec.ofInt 32 r.sum
  | 4 => BitVec.ofInt 32 (r.sum / 2 ^ 32)
  | 5 => BitVec.ofNat 32 r.sumsq
  | 6 => BitVec.ofNat 32 (r.sumsq / 2 ^ 32)
  | 7 => BitVec.ofInt 32 r.min
  | 8 => BitVec.ofNat 32 r.minOfs
  | 9 => BitVec.ofInt 32 r.max
  | 10 => BitVec.ofNat 32 r.maxOfs
  | 11 => lo32 r.start
  | _ => hi32 r.start

/-- Words latched for a master (R256, R257). -/
def latchWords (m : Master) (l : List (Reg × Word)) (s : State) : State :=
  { s with group := l.foldl (fun g x => tset none g (masterKey m x.1.addr) (some x.2)) s.group }

/-- R256: a read of ACC_c_N latches the closed record. -/
def accNRead (m : Master) (c : Nat) (s : State) : State :=
  let r := (s.chan c).closed
  latchWords m ([1, 3, 4, 5, 6, 7, 8, 9, 10, 11, 12].map fun i => (⟨(R.ACC_c_CFG c).addr + 4 * i, 0⟩, accWord r i))
    { s with readData := accWord r 2 }

/-- R257: a read of ACC_c_TRK_MIN latches the tracker. -/
def trkMinRead (m : Master) (c : Nat) (s : State) : State :=
  latchWords m ([R.ACC_c_TRK_MIN_T_LO c, R.ACC_c_TRK_MIN_T_HI c, R.ACC_c_TRK_MAX c, R.ACC_c_TRK_MAX_T_LO c,
    R.ACC_c_TRK_MAX_T_HI c].map fun r => (r, s.reg r)) { s with readData := s.reg (R.ACC_c_TRK_MIN c) }

/-! ### Conversions (R236 to R242, R260) -/

/-- R237: the sample value of a code at a gain. -/
def sampleValue (s : State) (u g code : Nat) : Int :=
  let o := (s.reg (R.AU_n_CAL_OFS_g u g)).toInt
  let k : Nat := (s.reg (R.AU_n_CAL_GAIN_g u g)).toNat % 2 ^ 22
  clampInt (-524288) 524287 (((16 * (code : Int) - o) * (k : Int) + 2 ^ 23) / 2 ^ 24)

/-- R248: the reason of a conversion of a channel. -/
def convReason (s : State) (u : Nat) (x : Chan) : Nat :=
  if ¬ s.refOk u then 1 else if 0 < x.gainLeft then 2 else 0

/-- R238: the conversion word. -/
def convWord (v : Int) (i reason : Nat) (injected clip : Bool) (gain : Nat) : Word :=
  BitVec.ofNat 32 ((v % (2 ^ 20 : Int)).toNat + 2 ^ 20 * i + 2 ^ 24 * b2n (reason = 0) + 2 ^ 25 * reason +
    2 ^ 27 * b2n injected + 2 ^ 28 * b2n clip + 2 ^ 29 * gain)

/-- R248: a value with its validity reaches the accumulator, the trackers and the comparator that its entry does not
exclude. -/
def deliver (entry c : Nat) (v : Int) (valid clip : Bool) (g : Quad) (s : State) : State :=
  let s1 := if natBit entry 4 then s else accAdd c v valid clip g s
  let s2 := if natBit entry 6 ∨ ¬ valid then s1 else trkAdd c v (BitVec.ofInt 64 (s.vAt g)) s1
  if natBit entry 5 ∨ ¬ valid then s2 else wcmpAdd c v g s2

/-- R260: the legacy result of a regular entry, and the end of a pass. -/
def legacyResult (u e : Nat) (y : Int) (valid clip last : Bool) (s : State) : State :=
  if ¬ s.flag (R.AU_n_CTRL u) F.AU_n_CTRL.LEGACY then s
  else
    let w := (clampInt 0 262143 y).toNat + 2 ^ 29 * b2n clip + 2 ^ 30 * b2n valid + 2 ^ 31
    let s1 := if e < 16 then s.setReg (R.AU_n_LEG_RES_e u e) (BitVec.ofNat 32 w) else s
    if last then
      hwPostCfg (s1.reg (R.AU_n_LEG_CFG u)) (BitVec.ofNat 64 (u + 2 ^ 32 * (s1.reg (R.AU_n_PASS_CNT u)).toNat))
        (s1.raise (R.AU_n_EVENTS u) F.AU_n_EVENTS.EOS)
    else s1

/-- The channel after a conversion with a reason: an invalid one sets the restart mark (R245) and counts (R247). DEDUCED (assumption 57). -/
def Chan.converted (x : Chan) (reason : Nat) : Chan :=
  { x with gainLeft := x.gainLeft - 1, restart := x.restart || decide (reason ≠ 0) }

/-- R237, R245, R248: a regular conversion of entry e at sampling instant g. -/
def regularConv (u e code : Nat) (g : Quad) (s0 : State) : State :=
  let entry := (s0.reg (R.AU_n_SEQ_e u e)).toNat
  let c := 16 * u + entry % 16
  let s := applyStaged c g s0
  let x := s.chan c
  let gain := cfgGain x.cfg
  let v := sampleValue s u gain code
  let clip : Bool := code = 0 ∨ code = 262143
  let reason := convReason s u x
  let f := x.filter v
  let y := if reason = 0 then f.1 else v
  let ok := decide (reason = 0) && f.2.1
  let x1 := (if reason = 0 then f.2.2 else x).converted reason
  let x2 := { x1 with valid := ok, reason := if ok then 0 else if reason = 0 then 3 else reason }
  let last : Bool := s.seqLen u ≤ e + 1
  let s1 := (s.setChan c x2).setAu u { s.au u with
    next := if last then 0 else e + 1, slot := g + 416, sampled := g, word := convWord v (entry % 16) reason false clip gain }
  let s2 := if last then s1.incWrap (R.AU_n_PASS_CNT u) else s1
  legacyResult u e y ok clip last (deliver entry c y ok clip g s2)

/-- R242: an injected conversion, entry e, at sampling instant g. -/
def injectedConv (u e code : Nat) (g : Quad) (s0 : State) : State :=
  let entry := (s0.reg (R.AU_n_INJ_e u e)).toNat
  let c := 16 * u + entry % 16
  let s := applyStaged c g s0
  let x := s.chan c
  let gain := cfgGain x.cfg
  let v := sampleValue s u gain code
  let clip : Bool := code = 0 ∨ code = 262143
  let reason := convReason s u x
  let last : Bool := s.get (R.AU_n_INJ_CTRL u) F.AU_n_INJ_CTRL.INJ_LEN_M1 ≤ e
  let s1 := (s.setChan c (x.converted reason)).setAu u { s.au u with
    injNext := e + 1, injEnd := if last then some (g + 416) else none, slot := g + 416, sampled := g
    word := convWord v (entry % 16) reason true clip gain }
  deliver entry c v (reason = 0) clip g s1

/-- R236: a slot, or the first later one whose sampling instant is still to come. -/
def stillToCome (s : State) (b : Quad) : Quad := if s.raw.toNat ≤ b.toNat + 96 then b else slotFrom (s.raw - 96)

/-- R236, R241: the unit's next slot: the one after its last, or the first one still to be sampled, from the start of a unit that
does not run. DESIGN CHOICE (assumption 50). -/
def nextSlot (s : State) (u : Nat) : Quad :=
  let b := stillToCome s (s.au u).slot
  if ((s.au u).at b).running then b else stillToCome s ((s.au u).startAt.getD b)

/-- R241: the unit converts in its next slot. -/
def auConverts (s : State) (u : Nat) : Bool := ((s.au u).at (nextSlot s u)).running

/-- R245: the filters of a unit restart. -/
def restartFilters (u : Nat) (s : State) : State :=
  s.forAll (chansOf u) fun c t => t.modChan c fun x => { x with restart := true }

/-- R241, R245: a unit brought to a raw grain; the filters restart where a set RUN takes effect. -/
def auSettle (u : Nat) (g : Quad) (s : State) : State :=
  let y := (s.au u).at g
  let s1 := s.setAu u y
  if (s.au u).startAt.isSome ∧ y.startAt.isNone then restartFilters u s1 else s1

/-- R236, R240: a conversion of a unit with its code, at the sampling instant of its next slot. DESIGN CHOICE (assumption 50). -/
def conversion (u code : Nat) (s : State) : State :=
  if ¬ auConverts s u then s
  else
    let b := nextSlot s u
    let g := b + 96
    let s1 := auSettle u b (s.advanceTo g)
    let x := s1.au u
    if x.inj = .running then injectedConv u x.injNext code g s1
    else if x.suspended ∨ x.cal = .running then s
    else regularConv u x.next code g s1

/-! ### Unit control (R241, R242) -/

/-- R252, R254: the open windows of a unit's channels carry GAP. -/
def markGap (u : Nat) (s : State) : State :=
  s.forAll (chansOf u) fun c t => t.modChan c fun x => { x with win := x.win.map fun w => { w with gap := true } }

/-- R241, R254: RUN is set: the unit starts at entry 0 at the next slot boundary; a window open while it stood carries GAP. -/
def auStart (u : Nat) (s : State) : State :=
  let y := (s.au u).at s.raw
  let s1 := s.setAu u { y with startAt := some (slotAfter s.raw) }
  if y.running then s1 else auStreamStops u (markGap u (restartFilters u s1))

/-- R241: RUN is cleared: the unit stops at the next slot boundary, or does not start there. -/
def auStop (u : Nat) (s : State) : State :=
  let y := (s.au u).at s.raw
  auStreamCheck u (s.setAu u { y with startAt := none, stopAt := if y.running then some (slotAfter s.raw) else none })

/-- R241, R255, R260: a write of AU_n_CTRL. DEDUCED (assumptions 51, 55). -/
def auCtrlWrite (u : Nat) (v : Word) (s : State) : State :=
  let w := v &&& 0x1F3
  let old := s.reg (R.AU_n_CTRL u)
  let l := fldOf F.AU_n_CTRL.SEQ_LEN_M1 w + 1
  let moved : Bool := (w ^^^ old) &&& 0x1F2 ≠ 0
  let tooLong : Bool := fldOf F.AU_n_CTRL.LEGACY w = 1 ∧ fldOf F.AU_n_CTRL.RUN w = 1 ∧ 16 < l
  let fits := (List.range 16).all fun i => accFits s u i (s.get (R.ACC_c_CFG (16 * u + i)) F.ACC_c_CFG.WIN_M_M1 + 1) l
  if (s.auRun u && moved) || tooLong || !fits then s.raise (R.AU_n_EVENTS u) F.AU_n_EVENTS.CFG_REFUSED
  else
    let s1 := s.setReg (R.AU_n_CTRL u) w
    if fldOf F.AU_n_CTRL.RUN w = 1 then (if s.auRun u then s1 else auStart u s1)
    else if s.auRun u then auStop u s1
    else s1

/-- R241: a write of AU_n_SEQ_e or AU_n_INJ_e: only while RUN is 0. -/
def auEntryWrite (u : Nat) (r : Reg) (v : Word) (s : State) : State :=
  if s.auRun u then s.raise (R.AU_n_EVENTS u) F.AU_n_EVENTS.CFG_REFUSED else s.setReg r (v &&& 0x7F)

/-- R242: a request for the injected sequence reaches a unit at a grain. -/
def injRequest (u : Nat) (g : Quad) (s : State) : State :=
  let x := (s.au u).at g
  if ¬ s.auRun u ∨ x.inj ≠ .none then
    (s.incSat (R.AU_n_INJ_DROP_CNT u)).raise (R.AU_n_EVENTS u) F.AU_n_EVENTS.INJ_DROPPED
  else s.setAu u { x with inj := .waiting, injAt := g }

/-- R242, R271: a write of AU_n_INJ_CTRL. DEDUCED (assumption 55). -/
def injCtrlWrite (u : Nat) (v : Word) (s : State) : State :=
  let r := R.AU_n_INJ_CTRL u
  if s.auRun u ∧ fldOf F.AU_n_INJ_CTRL.INJ_LEN_M1 v ≠ s.get r F.AU_n_INJ_CTRL.INJ_LEN_M1 then
    s.raise (R.AU_n_EVENTS u) F.AU_n_EVENTS.CFG_REFUSED
  else
    let w := v &&& 0x0FFF0373
    let w1 := if 6 ≤ fldOf F.AU_n_INJ_CTRL.TRIG_SRC w then setFldOf F.AU_n_INJ_CTRL.TRIG_SRC 0 w else w
    let s1 := s.setReg r w1
    if fldOf F.AU_n_INJ_CTRL.SW_TRIG v = 1 then injRequest u s.raw s1 else s1

/-- R242: the units whose source is code src get a request on its way, which reaches them at a grain. -/
def injSend (src : Nat) (g : Nat → Quad) (sel : Nat → Bool) (s : State) : State :=
  s.forAll ((List.range 16).filter fun u => s.get (R.AU_n_INJ_CTRL u) F.AU_n_INJ_CTRL.TRIG_SRC = src ∧ sel u) fun u t =>
    { t with analog := { t.analog with reqs := t.analog.reqs ++ [(u, g u)] } }

/-- R242: at a headland the requests of the classes due start on their way. -/
def injHeadland (s : State) : State :=
  injSend 5 (fun u => s.headRaw + BitVec.ofNat 64 (512 * s.get (R.AU_n_INJ_CTRL u) F.AU_n_INJ_CTRL.HL_OFS))
    (fun u => natBit s.head.classDue (s.get (R.AU_n_INJ_CTRL u) F.AU_n_INJ_CTRL.CLASS)) s

/-- R242: the oldest request on its way to a unit reaches it. -/
def injectedRequest (u : Nat) (s : State) : State :=
  match s.analog.reqs.find? fun x => x.1 = u with
  | none => s
  | some (_, g) =>
    injRequest u g ({ s with analog := { s.analog with reqs := s.analog.reqs.erase (u, g) } }.advanceTo g)

/-- R252: an injected request may abandon the calibration in progress. -/
def calPreempt (s : State) (u : Nat) : Bool :=
  s.flag (R.AU_n_CAL_CTRL u) F.AU_n_CAL_CTRL.INJ_PREEMPT_CAL && decide (s.get (R.AU_n_CAL_CTRL u) F.AU_n_CAL_CTRL.ABORTS < 8)

/-- R252: the calibration in progress is abandoned and queued again. DEDUCED (assumption 52). -/
def calAbandon (u : Nat) (s : State) : State :=
  let r := R.AU_n_CAL_CTRL u
  let n := s.get r F.AU_n_CAL_CTRL.ABORTS + 1
  let s1 := (s.put r F.AU_n_CAL_CTRL.ABORTS n).setAu u { s.au u with cal := .waiting, suspended := true }
  let s2 := (s1.incSat (R.AU_n_CAL_ABORT_CNT u)).raise (R.AU_n_EVENTS u) F.AU_n_EVENTS.CAL_ABORTED
  s2.raiseIf (8 ≤ n) (R.AU_n_EVENTS u) F.AU_n_EVENTS.CAL_FORCED

/-- The injected sequence starts at a boundary. -/
def injBegin (u : Nat) (b : Quad) (s : State) : State :=
  s.setAu u { (s.au u).at b with inj := .running, injNext := 0, injEnd := none, slot := b }

/-- R242, R252: the injected sequence starts, at the first boundary at least 32 grains after its request; a calibration in
progress holds it or is abandoned. -/
def injectedStart (u : Nat) (s : State) : State :=
  let b := slotFrom ((s.au u).injAt + 32)
  let x := (s.au u).at b
  if x.inj ≠ .waiting ∨ ¬ x.running then s
  else
    if x.cal = .running then (if calPreempt s u then injBegin u b (calAbandon u (s.advanceTo b)) else s)
    else injBegin u b (s.advanceTo b)

/-! ### Calibration (R249 to R252) -/

/-- R249, R272: a write of AU_n_CAL_CTRL. -/
def calCtrlWrite (u : Nat) (v : Word) (s0 : State) : State :=
  let r := R.AU_n_CAL_CTRL u
  let s := s0.put r F.AU_n_CAL_CTRL.INJ_PREEMPT_CAL (fldOf F.AU_n_CAL_CTRL.INJ_PREEMPT_CAL v)
  if fldOf F.AU_n_CAL_CTRL.START v = 0 then s
  else if ¬ s.auRun u ∨ ¬ s.refOk u ∨ ((s.au u).at s.raw).cal ≠ .none then
    (s.put r F.AU_n_CAL_CTRL.CAL_RESULT 3).raise (R.AU_n_EVENTS u) F.AU_n_EVENTS.CAL_REFUSED
  else (s.put r F.AU_n_CAL_CTRL.ABORTS 0).setAu u { s.au u with cal := .waiting, calReq := s.raw }

/-- R249: a requested calibration begins at the next slot boundary once no injected request is pending or running.
DESIGN CHOICE (assumption 5). -/
def calBegin (u : Nat) (s : State) : State :=
  let from_ := slotAfter (s.au u).calReq
  let next := ((s.au u).at from_).slot
  let b := if from_.toNat ≤ next.toNat then next else from_
  let x := (s.au u).at b
  if x.cal ≠ .waiting ∨ x.inj ≠ .none ∨ ¬ x.running then s
  else
    let s1 := s.advanceTo b
    auStreamStops u (markGap u (s1.setAu u { x with
      cal := .running, calAt := b, calOk := s1.refOk u, suspended := true }))

/-- R250: OFS_g from the sum of the 496 offset codes, rounded half away from zero. -/
def calOfs (sum : Nat) : Nat := (2 * 16 * sum + 496) / (2 * 496)

/-- R250: GAIN_g from the sum of the 496 gain codes and OFS_g; none when the divisor is not positive. -/
def calGain (sum ofs : Nat) : Option Nat :=
  let d : Int := 16 * (sum : Int) - 496 * (ofs : Int)
  if d ≤ 0 then none else some ((2 * (2 ^ 20 * 229376 * 496 * 16) + d.toNat) / (2 * d.toNat))

/-- R251: the coefficients of a gain, when they are acceptable. -/
def calPair (o g : Nat) : Option (Nat × Nat) :=
  match calGain g (calOfs o) with
  | none => none
  | some k => if calOfs o ≤ 32768 ∧ 2 ^ 20 - 16384 ≤ k ∧ k ≤ 2 ^ 20 + 16384 then some (calOfs o, k) else none

/-- R251: the coefficients of the four gains, when all are acceptable. -/
def calPairs (c : CalSums) : Option (List (Nat × Nat)) :=
  match calPair c.offs.1 c.gains.1, calPair c.offs.2.1 c.gains.2.1, calPair c.offs.2.2.1 c.gains.2.2.1,
      calPair c.offs.2.2.2 c.gains.2.2.2 with
  | some a, some b, some d, some e => some [a, b, d, e]
  | _, _, _, _ => none

/-- R251: the calibration's coefficients accepted or rejected at slot 4,096. -/
def calResult (u : Nat) (c : Option (List (Nat × Nat))) (s : State) : State :=
  match c with
  | some l =>
    let s1 := s.forAll l.zipIdx fun (x, g) t =>
      (t.setReg (R.AU_n_CAL_OFS_g u g) (BitVec.ofNat 32 x.1)).setReg (R.AU_n_CAL_GAIN_g u g) (BitVec.ofNat 32 x.2)
    ((s1.put (R.AU_n_CAL_CTRL u) F.AU_n_CAL_CTRL.CAL_RESULT 1).setReg64 (R.AU_n_CAL_LAST_V_LO u)
      (R.AU_n_CAL_LAST_V_HI u) s1.vT64).raise (R.AU_n_EVENTS u) F.AU_n_EVENTS.CAL_DONE
  | none => (s.put (R.AU_n_CAL_CTRL u) F.AU_n_CAL_CTRL.CAL_RESULT 2).raise (R.AU_n_EVENTS u) F.AU_n_EVENTS.CAL_FAILED

/-- R252: a hold of some grains in slots; of a part of a slot the spec does not say whether it counts, so that is a free value.
DESIGN CHOICE (assumption 53). -/
def holdSlots (s : State) (d : Nat) : Nat :=
  d / 512 + (if d % 512 = 0 then 0 else (Config.freeQuad s.free).toNat % 2)

/-- R252: a held request starts at slot 4,096, and the regular sequence resumes after it; the longest hold is recorded in slots. -/
def heldStart (u : Nat) (b : Quad) (s : State) : State :=
  if (s.au u).inj = .waiting then
    let t := injBegin u b { s with free := s.free + 1 }
    (t.setAu u { t.au u with suspended := true }).maxFld (R.AU_n_INJ_HOLD_MAX u) ⟨0, 13⟩ (holdSlots s (b - (s.au u).injAt).toNat)
  else s

/-- R250, R251: a calibration ends, with the sums of its phases. -/
def calEnd (u : Nat) (c : CalSums) (s : State) : State :=
  let b := (s.au u).calAt + 2097152
  let x := (s.au u).at b
  if x.cal ≠ .running then s
  else
    let s1 := calResult u (if x.calOk then calPairs c else none) (s.advanceTo b)
    let s2 := s1.setAu u { (s1.au u).at b with cal := .none, suspended := false, slot := b }
    heldStart u b (restartFilters u s2)

/-- AU_n_STATUS (R269). -/
def auStatus (s : State) (u : Nat) : Nat :=
  let x := (s.au u).at s.raw
  let st := if !x.running then 0 else if x.inj = .running then 2 else if x.cal = .running then 3 else 1
  let held := decide (x.inj = .waiting) && decide (x.cal = .running) && !calPreempt s u
  let slot := if x.cal = .running then min 4095 ((s.raw - x.calAt).toNat / 512) else 0
  st + 16 * x.next + 512 * b2n (decide (x.inj = .waiting) && !held) + 1024 * b2n held + 2048 * b2n (x.cal = .waiting) +
    4096 * b2n (s.refOk u) + 65536 * slot

/-! ### DACs (R261, R262) -/

/-- R126, R262: 64 grains after a seal, at H + 128 or at D + 128 of a controller stop, the DACs load the codes of the sealed image. -/
def dacLoad (s : State) : State :=
  match nextDue (s.head.dacDue && !s.head.sealDue) s.headRaw (if s.head.safeSeal.isNone then s.head.safeDac else none) with
  | none => s
  | some g =>
    let s1 := s.advanceTo (g + 128)
    let h := { s1.head with
      dacDue := s1.head.dacDue && decide (g ≠ s.headRaw), safeDac := if s.head.safeDac = some g then none else s1.head.safeDac }
    ({ s1 with head := h }).forAll (List.range 32) fun n t =>
      t.setReg (R.DAC_n_CODE n) (BitVec.ofNat 32 (min 65535 (dacCode t.img.sealed n)))

/-- R261, R262: the voltage of DAC n in units of 2.5 V / 65,536: 0 V until the reference is ready, then the code loaded. -/
def dacOutput (s : State) (n : Nat) : Nat :=
  if s.flag R.DAC_STATUS ⟨0, 1⟩ then (s.reg (R.DAC_n_CODE n)).toNat % 65536 else 0

/-- R262: the DAC reference is ready. -/
def dacrefReady (s : State) : State := s.put R.DAC_STATUS ⟨0, 1⟩ 1

/-! ### The ACC instructions (R91, R246) -/

/-- R246: the conversion factor of a record's channel. -/
def accFactor (r : AccRec) : Quad :=
  let n := r.scale.toNat
  if n % fmt64.signBit < fmt64.infBits ∧ n % fmt64.signBit ≠ 0 then r.scale
  else dDiv 0x4004000000000000 (wrFlt (fofI fmt64 (2 ^ r.gain * 262144 : Nat)))

/-- An integer as an F64. -/
def dOfInt (x : Int) : Quad := wrFlt (fofI fmt64 x)

/-- R91: an F64 result of a record, the quiet NaN when N is 0. -/
def accF (f : AccRec → Quad) (r : AccRec) : Quad :=
  if r.n = 0 then 0x7FF8000000000000 else dMul (f r) (accFactor r)

/-- R91: ACC.MEAN. -/
def accMean : AccRec → Quad := accF fun r => dDiv (dOfInt r.sum) (dOfInt r.n)
/-- R91: ACC.RMS. -/
def accRms : AccRec → Quad := accF fun r => wrFlt (fsqrt fmt64 (dDiv (dOfInt r.sumsq) (dOfInt r.n)).toNat)
/-- R91: ACC.MIN. -/
def accMin : AccRec → Quad := accF fun r => dOfInt r.min
/-- R91: ACC.MAX. -/
def accMax : AccRec → Quad := accF fun r => dOfInt r.max
/-- R91, R254: the time of an offset. -/
def accTime (o : AccRec → Nat) (r : AccRec) : Quad :=
  if r.n = 0 then 0 else r.start + BitVec.ofNat 64 (o r * 2 ^ r.shift)

/-- An ACC instruction: a value of the closed record in the snapshot. -/
def accOp (k : Nat) (d : VarIdx) (f : AccRec → Quad) (s : State) : State :=
  code5 k (readVar k d [4] fun _ r v => f (tget AccRec.empty r.snap.accs v.loc)) s

/-! ### The commands -/

/-- CONVERSION (R236). -/
def execConversion (u : Fin 16) (code : BitVec 18) (s : State) : Out := ok (conversion u code.toNat s)
/-- AU_CTRL_WRITE (R241). -/
def execAuCtrlWrite (u : Fin 16) (v : Word) (s : State) : Out := ok (auCtrlWrite u v s)
/-- INJ_SW_TRIG (R242): a write of AU_n_INJ_CTRL with SW_TRIG 1. -/
def execInjSwTrig (u : Fin 16) (v : Word) (s : State) : Out :=
  ok (injCtrlWrite u (setFldOf F.AU_n_INJ_CTRL.SW_TRIG 1 v) s)
/-- INJECTED_REQUEST (R242). -/
def execInjectedRequest (u : Fin 16) (s : State) : Out := ok (injectedRequest u s)
/-- INJECTED_START (R242). -/
def execInjectedStart (u : Fin 16) (s : State) : Out := ok (injectedStart u s)
/-- REF_ENABLE (R243). -/
def execRefEnable (p : Fin 4) (v : Word) (s : State) : Out := ok (refCtrlWrite p v s)
/-- REF_SETTLED (R243). -/
def execRefSettled (p : Fin 4) (s : State) : Out := ok (refSettled p s)
/-- REF_FAULT (R243). -/
def execRefFault (p : Fin 4) (s : State) : Out := ok (refFault p s)
/-- REF_IN_RANGE (R243). -/
def execRefInRange (p : Fin 4) (s : State) : Out := ok (refInRange p s)
/-- CH_CFG_WRITE (R244). -/
def execChCfgWrite (u i : Fin 16) (v : Word) (s : State) : Out := ok (chCfgWrite u i v s)
/-- CAL_START (R249): a write of AU_n_CAL_CTRL with START 1. -/
def execCalStart (u : Fin 16) (v : Word) (s : State) : Out :=
  ok (calCtrlWrite u (setFldOf F.AU_n_CAL_CTRL.START 1 v) s)
/-- CAL_BEGIN (R249). -/
def execCalBegin (u : Fin 16) (s : State) : Out := ok (calBegin u s)
/-- CAL_END (R251). -/
def execCalEnd (u : Fin 16) (c : CalSums) (s : State) : Out := ok (calEnd u c s)
/-- ACC_CFG_WRITE (R253). -/
def execAccCfgWrite (c : Fin 256) (v : Word) (s : State) : Out := ok (accCfgWrite c v s)
/-- ACC_N_READ (R256). -/
def execAccNRead (m : Master) (c : Fin 256) (s : State) : Out := ok (accNRead m c s)
/-- TRK_MIN_READ (R257). -/
def execTrkMinRead (m : Master) (c : Fin 256) (s : State) : Out := ok (trkMinRead m c s)
/-- ACC_TRK_CLR (R257). -/
def execAccTrkClr (v : Word) (s : State) : Out := ok (trkClrWrite v s)
/-- WCMP_CFG_WRITE (R258): a write of LOW, HIGH or CFG. -/
def execWcmpCfgWrite (c : Fin 256) (which : Fin 3) (v : Word) (s : State) : Out := ok (wcmpWrite c which v s)
/-- DAC_LOAD (R262). -/
def execDacLoad (s : State) : Out := ok (dacLoad s)
/-- DACREF_READY (R262). -/
def execDacrefReady (s : State) : Out := ok (dacrefReady s)
/-- ACC.MEAN (R91). -/
def execAccMean (k : Fin 36) (d : VarIdx) (s : State) : Out := ok (accOp k d accMean s)
/-- ACC.RMS (R91). -/
def execAccRms (k : Fin 36) (d : VarIdx) (s : State) : Out := ok (accOp k d accRms s)
/-- ACC.MIN (R91). -/
def execAccMin (k : Fin 36) (d : VarIdx) (s : State) : Out := ok (accOp k d accMin s)
/-- ACC.MAX (R91). -/
def execAccMax (k : Fin 36) (d : VarIdx) (s : State) : Out := ok (accOp k d accMax s)
/-- ACC.N (R91). -/
def execAccN (k : Fin 36) (d : VarIdx) (s : State) : Out := ok (accOp k d (fun r => BitVec.ofNat 64 r.n) s)
/-- ACC.INV (R91). -/
def execAccInv (k : Fin 36) (d : VarIdx) (s : State) : Out := ok (accOp k d (fun r => BitVec.ofNat 64 r.inv) s)
/-- ACC.MINT (R91). -/
def execAccMint (k : Fin 36) (d : VarIdx) (s : State) : Out := ok (accOp k d (accTime (·.minOfs)) s)
/-- ACC.MAXT (R91). -/
def execAccMaxt (k : Fin 36) (d : VarIdx) (s : State) : Out := ok (accOp k d (accTime (·.maxOfs)) s)

end Sys2Proof.Machine
end

