-- ==== Sys2Proof/Machine/Glean.lean ====
section
/-! DEFINITION. Chapter 8, second part: the gleaner's records, blocks, losses and spool; TRIGIN edges. -/

namespace Sys2Proof.Machine

/-! ### Access -/

/-- A signal's settings in force. -/
def State.sig (s : State) (n : Nat) : SigCfg := tget SigCfg.unused s.glean.sigs n
/-- What the gleaner knows of a signal. -/
def State.sigState (s : State) (n : Nat) : SigState := tget SigState.none_ s.glean.states n
/-- What the gleaner knows of a signal, set. -/
def State.setSigState (s : State) (n : Nat) (x : SigState) : State :=
  { s with glean := { s.glean with states := tset SigState.none_ s.glean.states n x } }
/-- The open block of a class. -/
def State.block (s : State) (k : Nat) : Option Block := tget none s.glean.blocks k
/-- The open block of a class, set. -/
def State.setBlock (s : State) (k : Nat) (b : Option Block) : State :=
  { s with glean := { s.glean with blocks := tset none s.glean.blocks k b } }
/-- The loss of a class. -/
def State.loss (s : State) (k : Nat) : Loss := tget Loss.none_ s.glean.losses k
/-- The loss of a class, set. -/
def State.setLoss (s : State) (k : Nat) (x : Loss) : State :=
  { s with glean := { s.glean with losses := tset Loss.none_ s.glean.losses k x } }
/-- A status bit of the gleaner. -/
def State.gleanFlag (s : State) (f : Fld) : Bool := s.flag R.GLEAN_STATUS f
/-- EN. -/
def State.gleanOn (s : State) : Bool := s.flag R.GLEAN_CTRL F.GLEAN_CTRL.EN
/-- The loss epoch of a class; a signal whose last record is of an earlier one records with RESYNC. -/
def State.epoch (s : State) (k : Nat) : Nat := tget 0 s.glean.epochs k

/-! ### Fill and places (R311, R312, R314) -/

/-- R311: the blocks that the recorder bank holds. -/
def State.recBlocks (s : State) : Nat := ((bankPlace 4).2 - s.secWin 4) / 4096

/-- R311, R314: blocks go through the spool. -/
def State.spoolOn (s : State) : Bool :=
  s.flag R.GLEAN_CTRL F.GLEAN_CTRL.SPOOL_EN && !s.gleanFlag F.GLEAN_STATUS.SPOOL_FAULT

/-- The spool size in blocks. DEDUCED (assumption 173). -/
def State.spoolSize (s : State) : Nat := (s.reg R.GLEAN_SPOOL_SIZE).toNat

/-- Every unacknowledged block, in BLOCK_SEQ order. -/
def State.unacked (s : State) : List Block := s.glean.recovered ++ s.glean.spool ++ s.glean.waiting

/-- R312, R314: F in percent, rounded down. -/
def State.fill (s : State) : Nat :=
  if s.spoolOn then (if s.spoolSize = 0 then 100 else min 100 (s.glean.spool.length * 100 / s.spoolSize))
  else min 100 (s.glean.waiting.length * 100 / max 1 s.recBlocks)

/-- R308, R311: the blocks with a place in the recorder bank: the open ones and those that wait. -/
def State.banked (s : State) : List Block := s.glean.blocks.filterMap (·.2) ++ s.glean.waiting

/-- R311: a block of a class finds a place in the recorder bank: classes 1 to 3 leave the places of C0_RESERVE free. -/
def State.placeFree (s : State) (k : Nat) : Bool :=
  let others := (s.banked.filter fun b => b.cls ≠ 0).length
  decide (s.banked.length < s.recBlocks) && (decide (k = 0) || decide (others + (s.reg R.GLEAN_C0_RESERVE).toNat < s.recBlocks))

/-- The lowest place of the recorder bank that no block has. DESIGN CHOICE (assumption 242). -/
def State.freePlace (s : State) : Nat :=
  ((List.range s.recBlocks).find? fun j => s.banked.all fun b => b.place ≠ j).getD 0

/-- The address of a place of the recorder bank, and of a place of the spool ring. -/
def recAddr (j : Nat) : Nat := (bankPlace 4).1 + 4096 * j
def State.spoolAddr (s : State) (j : Nat) : Nat :=
  (s.reg64 R.GLEAN_SPOOL_BASE_LO R.GLEAN_SPOOL_BASE_HI).toNat % 2 ^ 40 / 4096 * 4096 + 4096 * j

/-! ### Losses (R310, R312) -/

/-- R310, R312: records of a class lost, with some of its blocks: counted, and the loss goes on. -/
def lossAdd (k records blocks : Nat) (first last : Quad) (s : State) : State :=
  let x := s.loss k
  let s1 := s.setLoss k { x with
    records := x.records + records, blocks := x.blocks + blocks
    fromV := if x.records = 0 then first else x.fromV, toV := last, open_ := true
    lastGap := if x.open_ then x.lastGap else s.vT64 }
  s1.addSat (R.GLEAN_k_LOST_CNT k) records

/-- A block that nothing can give any more. -/
def blockLost (b : Block) (s : State) : State := lossAdd b.cls b.count 1 b.firstTag b.lastTag s

/-- R312: a class is discarded: the event, and for class 1 its status bit. -/
def dropped (k : Nat) (s : State) : State :=
  let s1 := s.raise R.GLEAN_EVENTS F.GLEAN_EVENTS.DROP
  if k = 1 then s1.put R.GLEAN_STATUS F.GLEAN_STATUS.DROP1 1 else s1

/-- R312: a block is discarded. -/
def discard (b : Block) (s : State) : State := dropped b.cls (blockLost b s)

/-- R312: a loss of a class ends: a gap record is due, and every signal of the class records again. -/
def lossEnds (k : Nat) (s : State) : State :=
  let x := s.loss k
  if x.open_ then
    let s1 := s.setLoss k { x with open_ := false, due := true }
    { s1 with glean := { s1.glean with epochs := tset 0 s1.glean.epochs k (s1.epoch k + 1) } }
  else s

/-- The status bit of a class that is discarded. -/
def dropFld (k : Nat) : Fld := if k = 3 then F.GLEAN_STATUS.DROP3 else F.GLEAN_STATUS.DROP2

/-- R312: whether blocks of class 3 or 2 are discarded at a fill. -/
def dropRule (k : Nat) (on off : Nat) (s : State) : State :=
  let f := s.fill
  if s.gleanFlag (dropFld k) then (if f < off then lossEnds k (s.put R.GLEAN_STATUS (dropFld k) 0) else s)
  else if on ≤ f then s.put R.GLEAN_STATUS (dropFld k) 1 else s

/-- R312: the fill is read again at a block close. -/
def fillRules (s : State) : State :=
  let s1 := dropRule 2 95 85 (dropRule 3 90 80 s)
  s1.put R.GLEAN_STATUS F.GLEAN_STATUS.FILL s1.fill

/-- R313: the gleaner halts. -/
def gleanHalt (s : State) : State :=
  ((s.put R.GLEAN_STATUS F.GLEAN_STATUS.HALTED 1).raise R.GLEAN_EVENTS F.GLEAN_EVENTS.HALT).setReg64 R.GLEAN_HALT_V_LO
    R.GLEAN_HALT_V_HI s.vT64

/-- R312: the oldest waiting block of the highest class above 0. -/
def reclaimable (s : State) : Option Block :=
  [3, 2, 1].findSome? fun k => s.glean.waiting.find? fun b => b.cls = k

/-- A block leaves the recorder bank as lost. -/
def reclaim (b : Block) (s : State) : State :=
  discard b { s with glean := { s.glean with waiting := s.glean.waiting.filter fun x => x.seq ≠ b.seq } }

/-- R308: the 4,096 bytes of a block. -/
def blockBytes (s : State) (b : Block) : List Byte :=
  let h := fun (crc : Nat) => [0x47, 0x4C, 0x42, 0x35] ++ leBytes 4 b.seq ++ leBytes 8 b.baseV.toNat ++
    leBytes 2 (32 + b.bytes.length) ++ leBytes 1 b.cls ++ leBytes 1 (b2n b.timeClose + 2 * b2n b.recovered) ++
    leBytes 1 s.ownDev ++ leBytes 3 0 ++ leBytes 4 b.count ++ leBytes 4 crc
  let body := padTo 4064 b.bytes
  h (crc32c (h 0 ++ body)).toNat ++ body

/-- A closed block is kept: it takes the next BLOCK_SEQ and waits at its place in the recorder bank. -/
def keepBlock (b0 : Block) (s : State) : State :=
  let b := { b0 with seq := (s.reg R.GLEAN_NEXT_SEQ).toNat }
  (({ s with glean := { s.glean with waiting := s.glean.waiting ++ [b] } }).memWrite (recAddr b.place) (blockBytes s b)).incWrap
    R.GLEAN_NEXT_SEQ

/-- R312: blocks of a class are discarded at a close. -/
def dropsClass (s : State) (k : Nat) : Bool := (decide (k = 3) || decide (k = 2)) && s.gleanFlag (dropFld k)

/-- R308, R312: the open block of a class closes. -/
def closeBlock (k : Nat) (timed : Bool) (s0 : State) : State :=
  match s0.block k with
  | none => s0
  | some b0 =>
    let b := { b0 with timeClose := timed }
    let s := fillRules (s0.setBlock k none)
    if dropsClass s k then discard b s else keepBlock b s

/-- R311 to R313: a place for a block of a class that opens: a class-0 block takes that of a waiting block of a higher class, or the
gleaner halts. -/
def makeRoom (k : Nat) (s : State) : State × Bool :=
  if s.placeFree k then (s, true)
  else if k ≠ 0 then (dropped k s, false)
  else
    match reclaimable s with
    | some r => (reclaim r s, true)
    | none => (gleanHalt s, false)

/-! ### Records (R308, R309) -/

/-- R309: the bytes of a value of a type. -/
def valueBytes (ty : EType) (v : Quad) : List Byte :=
  match ty with
  | .i64 => leBytes 8 v.toNat
  | .f64 => leBytes 8 v.toNat
  | .t64 => leBytes 8 v.toNat
  | _ => leBytes 4 v.toNat

/-- R309: a tag that the 24-bit offset cannot hold. -/
def isLong (baseV tag : Quad) : Bool :=
  decide ((tag - baseV).toInt < 0) || decide (2 ^ 24 ≤ (tag - baseV).toInt)

/-- R309: a record: the offset and time of its tag, its flags, its signal, AUX and its value. -/
def recordBytes (baseV tag : Quad) (flags sig aux : Nat) (value : List Byte) : List Byte :=
  let long := isLong baseV tag
  leBytes 3 (if long then 0 else (tag - baseV).toNat) ++ leBytes 1 (flags + 8 * b2n long) ++ leBytes 2 sig ++
    leBytes 2 aux ++ (if long then leBytes 8 tag.toNat else []) ++ value

/-- R308, R312: the class's open block, opened when there is none and a place is; a loss of the class then ends. DESIGN CHOICE
(assumption 63). -/
def openBlock (k : Nat) (s : State) : State × Option Block :=
  match s.block k with
  | some b => (s, some b)
  | none =>
    let r := makeRoom k s
    if r.2 then (if dropsClass r.1 k then r.1 else lossEnds k r.1, some ⟨0, s.headV, k, false, false, 0, [], 0, 0, r.1.freePlace⟩)
    else (r.1, none)

/-- A block with a record added. -/
def Block.add (b : Block) (tag : Quad) (l : List Byte) : Block :=
  { b with count := b.count + 1, bytes := b.bytes ++ l, firstTag := if b.count = 0 then tag else b.firstTag, lastTag := tag }

/-- A record of a length does not fit the open block of a class. -/
def overflows (s : State) (k : Nat) (mk : Quad → List Byte) : Bool :=
  match s.block k with
  | some b => decide (4064 < b.bytes.length + (mk b.baseV).length)
  | none => false

/-- R308: a record put into the open block of a class, after closing one that it does not fit; whether there was a place for it. -/
def putRecord (k : Nat) (tag : Quad) (mk : Quad → List Byte) (s : State) : State × Bool :=
  let r := openBlock k (if overflows s k mk then closeBlock k false s else s)
  match r.2 with
  | some b =>
    let l := mk b.baseV
    (((r.1.setBlock k (some (b.add tag l))).memWrite (recAddr b.place + 32 + b.bytes.length) l).incSat (R.GLEAN_k_REC_CNT k), true)
  | none => (r.1, false)

/-- R304, R309: a record of a signal: its value, quality and tag, with flags (bits 7:4); resync is added. -/
def gleanRecord (n : Nat) (v : Quad) (q : Nat) (tag : Quad) (flags : Nat) (s : State) : State :=
  let c := s.sig n
  if ¬ s.gleanOn then s
  else if s.gleanFlag F.GLEAN_STATUS.HALTED then lossAdd c.cls 1 0 tag tag s
  else
    let x := s.sigState n
    let fresh : Bool := x.last.isNone || decide (x.epoch ≠ s.epoch c.cls)
    let fl := etypeCode c.ty + flags + (if fresh ∧ c.kind ≠ 6 then 32 else 0)
    let aux := q % 8 + 8 * min 8191 x.held
    let r := putRecord c.cls tag (fun base => recordBytes base tag fl n aux (valueBytes c.ty v)) s
    if r.2 then r.1.setSigState n ⟨some (v, q), tag, s.headIndex, r.1.epoch c.cls, 0, none⟩
    else lossAdd c.cls 1 0 tag tag r.1

/-- R307: a released MARK. DEDUCED (assumption 62). -/
def gleanMark (n : Nat) (cell now : Quad) (s : State) : State :=
  gleanRecord n (normCell (s.sig n).ty cell) 0 now 128 s

/-! ### Change (R304 to R306) -/

/-- R304: the value differs from the last recorded one by more than the deadband. -/
def changed (c : SigCfg) (v r : Quad) : Bool :=
  match c.ty with
  | .b => decide (v ≠ r)
  | .f32 | .f64 =>
    let a := (cellConv c.ty .f64 false v).1
    let b := (cellConv c.ty .f64 false r).1
    let d := (cellConv c.ty .f64 false c.deadband).1
    if dNan a || dNan b then dNan a != dNan b else dLt d (cellAbs .f64 (dSub a b))
  | t => decide (rdInt t c.deadband < (rdInt t v - rdInt t r).natAbs)

/-- R304: a sampled value is the first one, or differs from the one recorded last. -/
def newValue (s : State) (n : Nat) (v : Quad) (q : Nat) : Bool :=
  let c := s.sig n
  let x := s.sigState n
  match x.last with
  | none => true
  | some (r, qr) => decide (x.epoch ≠ s.epoch c.cls) || decide (q ≠ qr) || changed c v r

/-- R304: the heartbeat of a signal is due. -/
def heartDue (s : State) (n : Nat) : Bool :=
  decide (0 < (s.sig n).heartbeat) && decide ((s.sig n).heartbeat ≤ s.headIndex - (s.sigState n).index)

/-- R306: a tag lies within MIN_INTERVAL of the signal's last record. -/
def tooSoon (s : State) (n : Nat) (tag : Quad) : Bool :=
  let x := s.sigState n
  x.last.isSome && decide ((tag - x.tag).toInt < 1024 * (s.sig n).minInt)

/-- R304, R306: a value of a headland-sampled signal with a tag; MIN_INTERVAL holds back a change, not a heartbeat. -/
def gleanValue (n : Nat) (v : Quad) (q : Nat) (tag : Quad) (heart : Bool) (s : State) : State :=
  let hb := heart && heartDue s n && (s.sigState n).last.isSome
  if hb || (newValue s n v q && !tooSoon s n tag) then gleanRecord n v q tag (16 * b2n hb) s else s

/-- R305, R306: an edge of an edge-mode signal: recorded, or held back. -/
def gleanEdge (n : Nat) (level : Bool) (q : Nat) (tag : Quad) (s : State) : State :=
  let c := s.sig n
  if ¬ (c.edge ∧ c.kind = 1) ∨ ¬ s.gleanOn then s
  else if tooSoon s n tag then
    let x := s.sigState n
    s.setSigState n { x with held := x.held + 1, heldEdge := some (wrBool level, tag) }
  else gleanRecord n (wrBool level) q tag 64 s

/-- R306: the minimum interval of an edge-mode signal ends: the latest held edge is recorded if its level differs from the
last recorded one. -/
def gleanHoldEnd (n : Nat) (s0 : State) : State :=
  let x := s0.sigState n
  match x.heldEdge, x.last with
  | some (v, tag), some (r, q) =>
    let s := s0.advanceToV (x.tag.toInt + 1024 * (s0.sig n).minInt)
    if v ≠ r then gleanRecord n v q tag 64 s else s.setSigState n { x with heldEdge := none }
  | _, _ => s0

/-! ### Blocks closing on time, gap records, the spool (R308, R310, R311, R314) -/

/-- R308: the open block of a class has reached 15 ms. -/
def blockTimeClose (k : Nat) (s : State) : State :=
  match s.block k with
  | none => s
  | some b => closeBlock k true (s.advanceToV (b.baseV.toInt + 15728640))

/-- R310: the bytes of a gap record written now. -/
def gapBytes (s : State) (k : Nat) (baseV : Quad) : List Byte :=
  let x := s.loss k
  leBytes 3 (s.vT64 - baseV).toNat ++ leBytes 1 7 ++ leBytes 2 k ++ leBytes 2 0 ++ leBytes 8 x.fromV.toNat ++
    leBytes 8 x.toV.toNat ++ leBytes 4 x.records ++ leBytes 4 x.blocks

/-- R310: a gap record of a class is due: its loss ended, or went on for 1,024 ms since the last one. -/
def gapDue (s : State) (k : Nat) : Bool :=
  (s.loss k).due || ((s.loss k).open_ && decide (msGrains 1024 ≤ (s.vT64 - (s.loss k).lastGap).toNat))

/-- R310: the gap record of a class is written; where it finds no place, it stays due. -/
def gapRecord (k : Nat) (s : State) : State :=
  if ¬ gapDue s k ∨ s.gleanFlag F.GLEAN_STATUS.HALTED then s
  else
    let r := putRecord 0 s.vT64 (gapBytes s k) s
    if ¬ r.2 then r.1
    else
      let s2 := if k = 1 then r.1.put R.GLEAN_STATUS F.GLEAN_STATUS.DROP1 0 else r.1
      s2.setLoss k (if (s.loss k).open_ then { Loss.none_ with open_ := true, lastGap := s.vT64 } else Loss.none_)

/-- R313: a place frees: a halted gleaner goes on, with a gap record and RESYNC for every class. -/
def gleanResume (s : State) : State :=
  if s.gleanFlag F.GLEAN_STATUS.HALTED ∧ s.placeFree 0 then
    ((s.put R.GLEAN_STATUS F.GLEAN_STATUS.HALTED 0).forAll (List.range 4) fun k t =>
      let x := t.loss k
      lossEnds k (t.setLoss k (if x.records = 0 then { x with open_ := true, fromV := t.vT64, toV := t.vT64 } else { x with open_ := true })))
  else s

/-- R314: a DDR4 error on the spool: the blocks it cannot return are lost, and the recorder bank takes its part. -/
def spoolFault (lost : List Nat) (s : State) : State :=
  let gone := s.glean.spool.filter fun b => b.seq ∈ lost
  let s1 := { s with glean := { s.glean with spool := s.glean.spool.filter fun b => b.seq ∉ lost } }
  let s2 := s1.forAll gone fun b t => lossEnds b.cls (blockLost b t)
  ((s2.put R.GLEAN_STATUS F.GLEAN_STATUS.SPOOL_FAULT 1).put R.GLEAN_STATUS F.GLEAN_STATUS.SPOOL_ACTIVE 0).raise
    R.GLEAN_EVENTS F.GLEAN_EVENTS.SPOOL_FAULT

/-- R311, R314: the copy of the oldest waiting block ends. -/
def spoolCopy (e : SpoolEnd) (s : State) : State :=
  if ¬ s.spoolOn then s
  else
    match e, s.glean.waiting with
    | .fault l, _ => spoolFault l s
    | .copied, b :: rest =>
      if s.glean.spool.length < s.spoolSize then
        let j := s.glean.spoolNext
        let t := s.memWrite (s.spoolAddr j) (s.memRead (recAddr b.place) 4096)
        gleanResume { t with glean := { s.glean with
          waiting := rest, spool := s.glean.spool ++ [{ b with place := j }], spoolNext := (j + 1) % s.spoolSize } }
      else s
    | .copied, [] => s

/-- R314: the event is cleared with SPOOL_EN set: the spool starts again with an empty ring. -/
def spoolAgain (s : State) : State :=
  if s.gleanFlag F.GLEAN_STATUS.SPOOL_FAULT ∧ s.flag R.GLEAN_CTRL F.GLEAN_CTRL.SPOOL_EN then
    let gone := s.glean.spool
    let s1 := { s with glean := { s.glean with spool := [], spoolNext := 0 } }
    ((s1.forAll gone fun b t => lossEnds b.cls (blockLost b t)).put R.GLEAN_STATUS F.GLEAN_STATUS.SPOOL_FAULT 0).put
      R.GLEAN_STATUS F.GLEAN_STATUS.SPOOL_ACTIVE 1
  else s

/-- R311, R453: a BLOCK_SEQ is at or before another, modulo 2^32 within 2^31. -/
def seqLe (a b : Nat) : Bool := decide ((b + 2 ^ 32 - a) % 2 ^ 32 < 2 ^ 31)

/-- R311: a BLOCK_SEQ and every earlier one are acknowledged; one never sent is ignored. -/
def gleanAck (q : Nat) (s : State) : State :=
  if seqLe s.glean.sent q then s.raise R.GLEAN_EVENTS F.GLEAN_EVENTS.ACK_INVALID
  else
    let keep := fun (b : Block) => ¬ seqLe b.seq q
    if s.unacked.all keep then s
    else
      gleanResume ({ s with glean := { s.glean with
        recovered := s.glean.recovered.filter keep, spool := s.glean.spool.filter keep
        waiting := s.glean.waiting.filter keep, sentAt := s.raw } })

/-- The oldest unacknowledged BLOCK_SEQ. -/
def State.ackSeq (s : State) : Nat := ((s.unacked.head?).map (·.seq)).getD (s.reg R.GLEAN_NEXT_SEQ).toNat

/-! ### Settings (R301, R327, R330) -/

/-- The settings of a signal as written last. -/
def State.sigWritten (s : State) (n : Nat) : SigCfg := (tget none s.glean.staged n).getD (s.sig n)

/-- R301, R330: a write to the signal window: DEADBAND (0), HEARTBEAT (1) or MIN_INTERVAL (2). -/
def sigWrite (which : Nat) (v : Quad) (s : State) : State :=
  let n := (s.reg R.GLEAN_SIG_SEL).toNat % 16384
  let c := s.sigWritten n
  if c.kind = 0 ∨ c.kind = 6 then s.raise R.GLEAN_EVENTS F.GLEAN_EVENTS.CFG_REFUSED
  else
    let c1 := match which with
      | 0 => { c with deadband := v }
      | 1 => { c with heartbeat := v.toNat % 2 ^ 32 }
      | _ => { c with minInt := v.toNat % 65536 }
    { s with glean := { s.glean with staged := tset none s.glean.staged n (some c1) } }

/-- R301: at a base headland the settings written take effect. -/
def sigHeadland (s : State) : State :=
  { s with glean := { s.glean with
    sigs := s.glean.staged.foldl (fun t (n, c) => tset SigCfg.unused t n (c.getD SigCfg.unused)) s.glean.sigs
    staged := [] } }

/-- GLEAN_SIG_CFG as it reads (R330). -/
def sigCfgRead (s : State) : Nat :=
  let c := s.sig ((s.reg R.GLEAN_SIG_SEL).toNat % 16384)
  if c.kind = 0 then 0
  else c.kind + 8 * etypeCode c.ty + 64 * c.cls + 256 * b2n c.edge + 65536 * (c.div - 1)

/-- R327: a write of GLEAN_CTRL; enabling starts new first records. -/
def gleanCtrlWrite (v : Word) (s : State) : State :=
  let was := s.gleanOn
  let w := v &&& 0x7F03
  let w1 := if 64 < fldOf F.GLEAN_CTRL.PF_BLOCKS w then setFldOf F.GLEAN_CTRL.PF_BLOCKS 64 w else w
  let s1 := s.setReg R.GLEAN_CTRL w1
  let s2 := s1.putFlag R.GLEAN_STATUS F.GLEAN_STATUS.SPOOL_ACTIVE s1.spoolOn
  if ¬ was ∧ s2.gleanOn then
    { s2 with glean := { s2.glean with
      states := [], epochs := (List.range 4).foldl (fun t k => tset 0 t k (s2.epoch k + 1)) s2.glean.epochs } }
  else s2

/-! ### TRIGIN (R242, R288) -/

/-- R288: a qualified transition of a TRIGIN pin at a raw grain reaches capture and the converter units 64 grains later. -/
def triginEdge (m : Nat) (t : Quad) (rising : Bool) (s : State) : State :=
  if ¬ triginCounts s m rising then s
  else injSend (m + 1) (fun _ => t + 64) (fun _ => true) (triginCapture m t (s.advanceTo (t + 64)))

/-! ### The commands -/

/-- TRIGIN_EDGE (R288). -/
def execTriginEdge (m : Fin 4) (t : Quad) (rising : Bool) (s : State) : Out := ok (triginEdge m t rising s)
/-- GLEAN_EDGE (R305): the level and the tag of the change; an input's quality is VALID. -/
def execGleanEdge (n : Fin 16384) (level : Bool) (tag : Quad) (s : State) : Out := ok (gleanEdge n level 1 tag s)
/-- GLEAN_HOLD_END (R306). -/
def execGleanHoldEnd (n : Fin 16384) (s : State) : Out := ok (gleanHoldEnd n s)
/-- BLOCK_TIME_CLOSE (R308). -/
def execBlockTimeClose (k : Fin 4) (s : State) : Out := ok (blockTimeClose k s)
/-- GAP_RECORD (R310). -/
def execGapRecord (k : Fin 4) (s : State) : Out := ok (gapRecord k s)
/-- SPOOL_COPY (R311, R314). -/
def execSpoolCopy (e : SpoolEnd) (s : State) : Out := ok (spoolCopy e s)
/-- GLEAN_SIG_WRITE (R301): DEADBAND, as the whole value of its pair, HEARTBEAT or MIN_INTERVAL. -/
def execGleanSigWrite (which : Fin 3) (v : Quad) (s : State) : Out := ok (sigWrite which v s)

end Sys2Proof.Machine
end

