-- ==== Sys2Proof/Machine/Release.lean ====
section
/-! DEFINITION. Release: the staged actions of a completed task take effect (R92, R166 to R170), and what a completion
shows the gleaner (R305). -/

namespace Sys2Proof.Machine

/-- R92, R166: the staged actions of a transaction on its slot, while the transaction is open. -/
def releaseTx (a : Action) (s : State) : State :=
  match s.txSlot a.handle with
  | none => s
  | some i =>
    if a.code = 8 then
      (if (s.tx i).state = 1 then txAdd i a.kind a.target a.ty 0 a.value 2 s else s)
    else if a.code = 9 then (if (s.tx i).state = 1 then txSeal i (s.sealIndex a.value) s else s)
    else txDrop i s

/-- R92: an AXCMD waits for its class's next headland; an event task's for the next C0 headland. -/
def releaseAxis (r : Release) (a : Action) (s : State) : State :=
  { s with motion := { s.motion with
    waits := s.motion.waits ++ [⟨if r.cyclic then r.cls else 0, a.target, a.handle, a.value⟩] } }

/-- R166: one action of a release in its Collie cycle. -/
def releaseAction (r : Release) (a : Action) (s : State) : State :=
  match a.code with
  | 1 => postTo a.target a.value r.replyWp s
  | 2 => flowSend a.target a.value r.replyWp s
  | 3 => replyTo a.target a.value r.replyWp s
  | 4 => cancelDesc a.target s
  | 5 => delayTo a.target a.value (r.now + a.dt) r.replyWp s
  | 7 => txOpenReserved a.handle s
  | 8 => releaseTx a s
  | 9 => releaseTx a s
  | 10 => releaseTx a s
  | 11 => releaseAxis r a s
  | 12 => gleanMark a.target a.value r.now s
  | _ => s

/-- A release of a slice that is folded and released leaves the area, and its flow goes on. -/
def finishRelease (p : Nat) (s : State) : State :=
  match (s.releases p).zipIdx.find? fun (r, _) => r.folded && r.released with
  | none => s
  | some (r, i) => updateRelease p i r s

/-- R167: the actions of the next release of a slice are released, one in each Collie cycle. -/
def releaseActions (p : Nat) (s : State) : State :=
  match firstRelease s p (fun r => !r.released) with
  | none => s
  | some (i, r) =>
    finishRelease p ((s.setReleases p ((s.releases p).set i { r with released := true })).forAll r.actions fun a t =>
      releaseAction r a (t.advanceTo (t.raw + 4)))

/-- R305: the signals that a completed run of a task shows the gleaner: its completion-mode variables. -/
def completionSigs (s : State) (t : Nat) : List (Nat × Module × VarDesc) :=
  s.glean.sigs.filterMap fun (n, c) =>
    if c.kind = 3 ∧ c.edge then
      match s.image.modules.find? fun m => m.slot = c.source / 2 ^ 24 with
      | none => none
      | some m =>
        match m.vars[c.source % 2 ^ 24]? with
        | none => none
        | some v => if principal s.image m v.owner = some t then some (n, m, v) else none
    else none

/-- R305: what follows the completion of a run: its completion-mode signals are examined, tagged with its NOW. -/
def gleanCompletion (r : Run) (s : State) : State :=
  s.forAll (completionSigs s r.entry.desc) fun (n, m, v) t => gleanValue n (t.varCell m v 0) 0 r.now false t

/-- A step of completion on a core, with what the gleaner sees when the run has completed by it. -/
def withCompletion (f : Nat → State → State) (k : Nat) (s : State) : State :=
  match s.run k, (f k s).run k with
  | some r, none => gleanCompletion r (f k s)
  | _, _ => f k s

/-- TASK_COMPLETE (R164). -/
def execTaskComplete (k : Fin 36) (s : State) : Out := ok (withCompletion taskComplete k s)
/-- RELEASE_STALL_END (R165). -/
def execReleaseStallEnd (k : Fin 36) (s : State) : Out := ok (withCompletion releaseStallEnd k s)
/-- RELEASE_ACTIONS (R166, R167). -/
def execReleaseActions (p : Fin 4) (s : State) : Out := ok (releaseActions p s)

end Sys2Proof.Machine
end

