-- ==== Sys2Proof/Machine/Verify.lean ====
section
/-! DEFINITION. Chapter 3: the verification of a module at load (R83 to R87, R94 to R102), from its bytes. -/

namespace Sys2Proof.Machine

/-! ### Instructions as verification sees them -/

/-- Where control goes after an instruction. -/
inductive VFlow where
  | next
  /-- JMP by an offset from the next instruction. -/
  | jump (o : Int)
  /-- JT or JF. -/
  | cond (o : Int)
  | ret
  | stop
deriving DecidableEq, Repr

/-- R83, R85: a decoded instruction: its bytes, its stack effect, its flow, its descriptor operand with the kinds that it
accepts, whether it writes the variable, its local, its callee, and whether it is FB or WAIT. -/
structure VInst where
  size : Nat
  pops : Nat
  pushes : Nat
  flow : VFlow
  var : Option (Nat × List Nat)
  writes : Bool
  loc : Option Nat
  call : Option Nat
  fb : Bool
  wait : Bool
deriving DecidableEq, Repr

/-- An instruction of a size with a stack effect and nothing else. -/
def vPlain (size pops pushes : Nat) : VInst := ⟨size, pops, pushes, .next, none, false, none, none, false, false⟩

/-- R85: the stack effect of an instruction without operands. -/
def vSimple : Nat → Option (Nat × Nat)
  | 0x00 => some (0, 0) | 0x01 => some (1, 2) | 0x02 => some (1, 0) | 0x03 => some (2, 2) | 0x04 => some (2, 3)
  | 0x05 => some (3, 3) | 0x08 => some (0, 1) | 0x09 => some (0, 1) | 0xA0 => some (2, 1) | 0xA1 => some (2, 1)
  | 0xA2 => some (2, 1) | 0xA4 => some (1, 1) | 0xAD => some (3, 1) | 0xC8 => some (0, 1) | 0xC9 => some (1, 1)
  | 0xCA => some (0, 1) | 0xCB => some (0, 1) | 0xD3 => some (1, 0) | 0xD8 => some (0, 1) | 0xDA => some (2, 0)
  | 0xDB => some (1, 1) | 0xDC => some (1, 0) | _ => none

/-- R86: the stack effect of a typed opcode with a defined type. -/
def vTyped (op : Nat) : Option (Nat × Nat) :=
  let row := op / 8
  match etypeOf (op % 8) with
  | none => none
  | some t =>
    if 4 ≤ row ∧ row ≤ 7 then (if t.arith then some (2, 1) else none)
    else if 8 ≤ row ∧ row ≤ 11 then (if t.ints then some (2, 1) else none)
    else if 12 ≤ row ∧ row ≤ 13 then (if t.signed then some (1, 1) else none)
    else if 14 ≤ row ∧ row ≤ 15 then some (2, 1)
    else if 16 ≤ row ∧ row ≤ 19 then (if t.arith then some (2, 1) else none)
    else none

/-- R86: the stack effect of an instruction with a type byte. -/
def vT8 (op t : Nat) : Option (Nat × Nat) :=
  match op with
  | 0xA3 => if 1 ≤ t ∧ t ≤ 3 then some (1, 1) else none
  | 0xA5 | 0xA6 | 0xA7 | 0xA8 | 0xA9 | 0xAA => if 1 ≤ t ∧ t ≤ 3 then some (2, 1) else none
  | 0xAC => if 1 ≤ t ∧ t ≤ 6 then some (3, 1) else none
  | 0xAE | 0xAF => if 1 ≤ t ∧ t ≤ 6 then some (2, 1) else none
  | _ => none

/-- R85: the bytes and stack effect of an instruction with an immediate. -/
def vImm : Nat → Option (Nat × Nat × Nat)
  | 0x0A => some (2, 0, 1) | 0x0B => some (3, 0, 1) | 0x0C => some (5, 0, 1) | 0x0D => some (9, 0, 1)
  | 0x0F => some (5, 0, 1) | _ => none

/-- R85, R99: the kinds, the stack effect and whether it writes, of an instruction with a descriptor operand. -/
def vVar : Nat → Option (List Nat × Nat × Nat × Bool)
  | 0x12 => some ([0, 1], 0, 1, false) | 0x13 => some ([0, 1], 1, 0, true)
  | 0x14 => some ([0, 1, 6], 1, 1, false) | 0x15 => some ([0, 1, 6], 2, 0, true)
  | 0xC0 => some ([2], 0, 1, false) | 0xC1 => some ([3], 1, 0, false) | 0xC2 => some ([3], 0, 1, false)
  | 0xC3 => some ([2], 0, 1, false) | 0xC4 => some ([2], 0, 1, false) | 0xC5 => some ([2, 3], 0, 1, false)
  | 0xCC => some ([6], 0, 0, true) | 0xD0 => some ([7], 1, 0, false) | 0xD1 => some ([7], 0, 1, false)
  | 0xD2 => some ([8], 1, 0, false) | 0xD4 => some ([7], 0, 0, false) | 0xD5 => some ([7], 2, 0, false)
  | 0xD9 => some ([3, 5, 10], 2, 0, false) | 0xE9 => some ([5], 0, 1, false) | 0xEA => some ([5], 0, 1, false)
  | 0xE0 | 0xE1 | 0xE2 | 0xE3 | 0xE4 | 0xE5 | 0xE6 | 0xE7 => some ([4], 0, 1, false)
  | 0xF0 => some ([9], 1, 0, false) | _ => none

/-- A signed number from its bytes, least significant first. -/
def leInt (l : List Byte) : Int := (BitVec.ofNat (8 * l.length) (leNat l)).toInt

/-- R84: the bytes of a branch opcode's offset, and its flow. -/
def vBranch : Nat → Option (Nat × Bool)
  | 0xB0 => some (1, false) | 0xB1 => some (2, false) | 0xB2 => some (3, false)
  | 0xB3 | 0xB6 => some (1, true) | 0xB4 | 0xB7 => some (2, true) | 0xB5 | 0xB8 => some (3, true) | _ => none

/-- An instruction with a descriptor operand of n bytes, the bytes after the opcode given. -/
def vDescr (op n pre : Nat) (l : List Byte) : Option VInst :=
  if l.length < n then none
  else
    let d := leNat (l.take n)
    if op = 0xE8 then
      match l[n]? with
      | none => none
      | some c => (axArgs c.toNat).map fun a => { vPlain (pre + 2 + n) a 0 with var := some (d, [5]) }
    else
      match vVar op with
      | none => none
      | some (kinds, a, b, w) =>
        some { vPlain (pre + 1 + n) a b with
          var := some (d, kinds), writes := w, fb := decide (op = 0xCC), wait := decide (op = 0xD1) }

/-- R83, R85 to R87: the instruction at the head of some bytes, in a module with a number of constants and functions. -/
def vDecode (consts funcs : Nat) (l : List Byte) : Option VInst :=
  match l with
  | [] => none
  | b :: r =>
    let op := b.toNat
    let x := ((r.head?).map (·.toNat)).getD 0
    if op = 0xFE then
      match r with
      | [] => none
      | c :: q => vDescr c.toNat 3 1 q
    else
      match vSimple op, vTyped op, vImm op, vBranch op with
      | some (a, c), _, _, _ => some (vPlain 1 a c)
      | _, some (a, c), _, _ => some (vPlain 1 a c)
      | _, _, some (n, a, c), _ => if l.length < n then none else some (vPlain n a c)
      | _, _, _, some (n, cond) =>
        if r.length < n then none
        else if cond then some { vPlain (1 + n) 1 0 with flow := .cond (leInt (r.take n)) }
        else some { vPlain (1 + n) 0 0 with flow := .jump (leInt (r.take n)) }
      | _, _, _, _ =>
        if op = 0xBA then some { vPlain 1 0 0 with flow := .ret }
        else if op = 0xBB then some { vPlain 1 0 0 with flow := .stop }
        else if r = [] then none
        else if op = 0x06 then some (vPlain 2 (x + 1) (x + 2))
        else if op = 0x10 then some { vPlain 2 0 1 with loc := some x }
        else if op = 0x11 then some { vPlain 2 1 0 with loc := some x }
        else if op = 0x16 then (if r.length < 2 then none else some { vPlain 3 0 0 with loc := some x })
        else if op = 0xAB then (convByte (BitVec.ofNat 8 x)).map fun _ => vPlain 2 1 1
        else if op = 0x0E then (if r.length < 2 ∨ consts ≤ leNat (r.take 2) then none else some (vPlain 3 0 1))
        else if op = 0xB9 then
          (if r.length < 2 ∨ funcs ≤ leNat (r.take 2) then none
          else some { vPlain 3 0 0 with call := some (leNat (r.take 2)) })
        else
          match vT8 op x with
          | some (a, c) => some (vPlain 2 a c)
          | none => vDescr op 2 0 r

/-! ### The parts of a module -/

/-- n bytes from an offset, as a number. -/
def fieldAt (l : List Byte) (o n : Nat) : Nat := leNat ((l.drop o).take n)

/-- R95: the offset and size of a section. -/
def sectionAt (l : List Byte) (i : Nat) : Nat × Nat := (fieldAt l (16 + 8 * i) 4, fieldAt l (20 + 8 * i) 4)

/-- The bytes of a section. -/
def sectionBytes (l : List Byte) (i : Nat) : List Byte := (l.drop (sectionAt l i).1).take (sectionAt l i).2

/-- Bytes cut into pieces of n. -/
def chunksOf (n : Nat) (l : List Byte) : List (List Byte) :=
  (List.range (l.length / n)).map fun i => (l.drop (n * i)).take n

/-- R97: the function table of a code section. -/
def funcTable (code : List Byte) : List (List Byte) := chunksOf 16 ((code.drop 4).take (16 * fieldAt code 0 2))

/-- R97: an entry of the function table. -/
def funcOf (l : List Byte) : FuncDesc :=
  ⟨fieldAt l 0 4, fieldAt l 4 1, fieldAt l 5 1, fieldAt l 6 1, fieldAt l 7 1, fieldAt l 8 2, fieldAt l 10 2⟩

/-- R98: a variable descriptor; a type code 7 reads as B and is refused. -/
def varOf (l : List Byte) : VarDesc :=
  ⟨fieldAt l 0 1, (etypeOf (fieldAt l 1 1)).getD .b, fieldAt l 2 2, fieldAt l 4 4, fieldAt l 8 4⟩

/-- R100: a publish-table entry. -/
def pubOf (l : List Byte) : PubEntry := ⟨fieldAt l 0 3, fieldAt l 3 1, fieldAt l 4 2, fieldAt l 6 1, fieldAt l 7 1⟩

/-- R101: a record-table entry. -/
def recOf (l : List Byte) : RecEntry := ⟨fieldAt l 0 3, fieldAt l 3 1, fieldAt l 4 2, fieldAt l 6 1⟩

/-- R95 to R101: a module from its bytes, in a slot of its configuration image and with its home plot. -/
def moduleFrom (uid slot home : Nat) (l0 : List Byte) : Module :=
  let l := l0.take (fieldAt l0 12 4)
  let code := sectionBytes l 1
  { uid := uid, slot := slot, home := home, id := fieldAt l 8 4, crc := fieldAt l 60 4, legacy := false
    consts := (chunksOf 8 (sectionBytes l 0)).map fun c => BitVec.ofNat 64 (leNat c)
    funcs := (funcTable code).map funcOf, vars := (chunksOf 12 (sectionBytes l 2)).map varOf
    pubs := (chunksOf 8 (sectionBytes l 3)).map pubOf, recs := (chunksOf 8 (sectionBytes l 4)).map recOf
    globalSize := fieldAt l 56 4, code := code, bytes := l
    codeOff := (sectionAt l 1).1, varOff := (sectionAt l 2).1, pubOff := (sectionAt l 3).1, recOff := (sectionAt l 4).1 }

/-! ### Checks 1 to 4 (R95, R96, R102) -/

/-- A check that failed: its code and the offset of the failing item. -/
abbrev VFail := Option (Nat × Nat)

/-- R102: a failure at an offset of the code section, by its offset in the module. -/
def inCode (m : Module) (x : VFail) : VFail := x.map fun (c, o) => (c, m.codeOff + o)

/-- The first check that failed. -/
def firstFail : List VFail → VFail
  | [] => none
  | some x :: _ => some x
  | none :: t => firstFail t

/-- A check with a code and an offset. -/
def vCheck (good : Bool) (code off : Nat) : VFail := if good then none else some (code, off)

/-- R95, check 2: VERSION, FLAGS and TOTAL_SIZE. -/
def headOk (l : List Byte) : Bool :=
  let n := fieldAt l 12 4
  decide (fieldAt l 4 2 = 0x0500) && decide (fieldAt l 6 2 = 0) && decide (64 ≤ n ∧ n % 8 = 0 ∧ n ≤ 1966080 ∧ n ≤ l.length)

/-- R96, check 3. -/
def crcOk (l0 : List Byte) : Bool :=
  let l := l0.take (fieldAt l0 12 4)
  crc32c (l.take 60 ++ [0, 0, 0, 0] ++ l.drop 64) = BitVec.ofNat 32 (fieldAt l 60 4)

/-- R95: two sections do not overlap; a section of size 0 overlaps one that it lies strictly inside. DESIGN CHOICE (assumption 221). -/
def sectionsApart (a b : Nat × Nat) : Bool := decide (a.1 + a.2 ≤ b.1 ∨ b.1 + b.2 ≤ a.1)

/-- R95: the sections lie as they must. -/
def sectionsOk (l : List Byte) : Bool :=
  let n := fieldAt l 12 4
  let ss := (List.range 5).map (sectionAt l)
  (ss.all fun x => decide (64 ≤ x.1 ∧ x.1 % 8 = 0 ∧ x.1 + x.2 ≤ n)) &&
    (List.range 5).all fun i => (List.range 5).all fun j =>
      decide (j ≤ i) || sectionsApart (sectionAt l i) (sectionAt l j)

/-- R97: an entry of the function table is formed, in a code section of a size with a table that ends at a place.
DESIGN CHOICE (assumption 222). -/
def funcOk (size start : Nat) (l : List Byte) : Bool :=
  let f := funcOf l
  decide (start ≤ f.offset ∧ f.offset < size) && decide (f.args ≤ f.locals ∧ f.results ≤ 1 ∧ f.kind ≤ 2) &&
    decide (fieldAt l 12 4 = 0) && (decide (f.kind = 0) || decide (f.args = 0 ∧ f.results = 0)) &&
    (decide (f.kind ≠ 0) || decide (f.retain = 0))

/-- R97: the code section begins with a function table that it can hold. -/
def codeTableOk (code : List Byte) : Bool :=
  code = [] || (decide (4 ≤ code.length) && decide (fieldAt code 2 2 = 0) &&
    decide (4 + 16 * fieldAt code 0 2 ≤ code.length) &&
    (funcTable code).all (funcOk code.length (4 + 16 * fieldAt code 0 2)))

/-- R100: a publish-table entry among n descriptors is formed. -/
def pubOk (n : Nat) (p : PubEntry) : Bool :=
  decide (p.var < n) && decide (0xA000 ≤ p.index ∧ p.index ≤ 0xBFFF) && decide (p.writeRoles < 32 ∧ p.flags < 4)

/-- R101: a record-table entry among n descriptors is formed. -/
def recOk (n : Nat) (l : List Byte) : Bool :=
  let r := recOf l
  decide (r.var < n) && decide (r.cls ≤ 3 ∧ r.signal < 16384 ∧ r.mode ≤ 1) && decide (fieldAt l 7 1 = 0)

/-- Check 4: sections and tables. -/
def tablesOk (l : List Byte) : Bool :=
  let nv := (sectionAt l 2).2 / 12
  sectionsOk l && decide ((sectionAt l 0).2 % 8 = 0 ∧ (sectionAt l 2).2 % 12 = 0) &&
    decide ((sectionAt l 3).2 % 8 = 0 ∧ (sectionAt l 4).2 % 8 = 0) && decide (fieldAt l 56 4 % 8 = 0) &&
    codeTableOk (sectionBytes l 1) && ((chunksOf 8 (sectionBytes l 3)).all fun c => pubOk nv (pubOf c)) &&
    (chunksOf 8 (sectionBytes l 4)).all (recOk nv)

/-! ### Checks 5 and 6 -/

/-- R97: the end of a function's code. -/
def codeEnd (m : Module) (o : Nat) : Nat :=
  (m.funcs.map (·.offset)).foldl (fun e x => if o < x ∧ x < e then x else e) m.code.length

/-- R85: the instructions of a function's bytes from an offset, and the offset where decoding fails. -/
def vSweep (consts funcs : Nat) : Nat → Nat → List Byte → List (Nat × VInst) × Option Nat
  | 0, _, _ => ([], none)
  | n + 1, pos, l =>
    if l = [] then ([], none)
    else
      match vDecode consts funcs l with
      | none => ([], some pos)
      | some i =>
        if l.length < i.size then ([], some pos)
        else
          let (rest, bad) := vSweep consts funcs n (pos + i.size) (l.drop i.size)
          ((pos, i) :: rest, bad)

/-- The instructions of a function. -/
def instsOf (m : Module) (f : FuncDesc) : List (Nat × VInst) × Option Nat :=
  let l := (m.code.drop f.offset).take (codeEnd m f.offset - f.offset)
  vSweep m.consts.length m.funcs.length l.length f.offset l

/-- R97: control does not fall past an instruction. -/
def VFlow.ends : VFlow → Bool
  | .jump _ | .ret | .stop => true
  | _ => false

/-- Check 5 of a function. -/
def opcodesOk (x : List (Nat × VInst) × Option Nat) : VFail :=
  match x.2, x.1.getLast? with
  | some o, _ => some (5, o)
  | none, some (o, i) => vCheck i.flow.ends 5 o
  | none, none => none

/-- R84: the target of a branch at an offset. -/
def VInst.target (i : VInst) (pos : Nat) : Option Int :=
  match i.flow with
  | .jump o | .cond o => some ((pos + i.size : Nat) + o)
  | _ => none

/-- Check 6 of a function. -/
def branchesOk (l : List (Nat × VInst)) : VFail :=
  firstFail (l.map fun (o, i) =>
    match i.target o with
    | none => none
    | some t => vCheck (l.any fun (p, _) => (p : Int) = t) 6 o)

/-! ### Check 7 -/

/-- The stack effect of an instruction in a module; none for an FB that names no block. -/
def effectOf (m : Module) (i : VInst) : Option (Nat × Nat) :=
  if i.fb then
    match i.var with
    | none => none
    | some (d, _) =>
      match m.vars[d]? with
      | none => none
      | some v => if v.kind = 6 then (fbInputs (v.aux % 256)).map fun n => (n, fbOutputs (v.aux % 256)) else none
  else
    match i.call with
    | none => some (i.pops, i.pushes)
    | some f => (m.funcs[f]?).map fun d => (d.args, d.results)

/-- The instructions that may follow one at an offset. -/
def VInst.nexts (i : VInst) (pos : Nat) : List Nat :=
  match i.flow with
  | .next => [pos + i.size]
  | .jump o => [((pos + i.size : Nat) + o).toNat]
  | .cond o => [pos + i.size, ((pos + i.size : Nat) + o).toNat]
  | _ => []

/-- Check 7 along every path: the offsets and depths still to visit, those seen, and the greatest depth; the result is the
failure, the greatest depth, and the depth before each instruction. -/
def depthGo (m : Module) (f : FuncDesc) (l : List (Nat × VInst)) :
    Nat → List (Nat × Nat) → Tbl (Option Nat) → Nat → VFail × Nat × Tbl (Option Nat)
  | 0, _, seen, mx => (none, mx, seen)
  | _, [], seen, mx => (none, mx, seen)
  | n + 1, (o, d) :: todo, seen, mx =>
    match tget none seen o with
    | some e => if e = d then depthGo m f l n todo seen mx else (some (7, o), mx, seen)
    | none =>
      match l.find? fun x => x.1 = o with
      | none => (some (7, o), mx, seen)
      | some (_, i) =>
        match effectOf m i with
        | none => (some (10, o), mx, seen)
        | some (a, b) =>
          if d < a ∨ 256 < d - a + b ∨ (i.flow = .ret ∧ d ≠ f.results) then (some (7, o), mx, seen)
          else
            depthGo m f l n ((i.nexts o).map (·, d - a + b) ++ todo) (tset none seen o (some d)) (max mx (d - a + b))

/-- Check 7 of a function, with the greatest depth and the depth before each instruction. -/
def depthWalk (m : Module) (f : FuncDesc) (l : List (Nat × VInst)) : VFail × Nat × Tbl (Option Nat) :=
  depthGo m f l (2 * l.length + 2) [(f.offset, 0)] [] 0

/-- Check 7 of a function. -/
def depthOk (m : Module) (f : FuncDesc) (l : List (Nat × VInst)) : VFail :=
  let r := depthWalk m f l
  match r.1 with
  | some x => some x
  | none => vCheck (decide (r.2.1 = f.maxStack)) 7 f.offset

/-! ### Checks 8 and 9 -/

/-- The functions that each function calls. -/
def callGraph (l : List (List (Nat × VInst))) : List (List Nat) := l.map fun x => x.filterMap fun (_, i) => i.call

/-- The call depth below a function; none beyond the fuel. -/
def callDepth (g : List (List Nat)) : Nat → Nat → Option Nat
  | 0, _ => none
  | n + 1, f => (g.getD f []).foldl (fun m c => m.bind fun a => (callDepth g n c).map fun b => max a (b + 1)) (some 1)

/-- R78: the frame bytes of the deepest call chain from a function, within the fuel. -/
def frameBytes (m : Module) (g : List (List Nat)) : Nat → Nat → Nat
  | 0, _ => 0
  | n + 1, f =>
    16 + 8 * ((m.funcs[f]?).map (·.locals)).getD 0 +
      (g.getD f []).foldl (fun a c => max a (frameBytes m g n c)) 0

/-- Check 8. -/
def callsOk (m : Module) (g : List (List Nat)) : VFail :=
  firstFail (m.funcs.zipIdx.map fun (f, i) => vCheck (callDepth g 32 i).isSome 8 f.offset)

/-- Check 9. -/
def localsOk (m : Module) (g : List (List Nat)) (l : List (List (Nat × VInst))) : VFail :=
  firstFail ((m.funcs.zip l).map fun (f, x) =>
    firstFail (x.map fun (o, i) =>
      match i.loc with
      | none => none
      | some k => vCheck (decide (k < f.locals)) 9 o))
  |> fun a => firstFail (a :: m.funcs.zipIdx.map fun (f, i) => vCheck (decide (frameBytes m g 32 i ≤ 14336)) 9 f.offset)

/-! ### Checks 10 and 11 -/

/-- R99: a cell range of a RETAIN or FB variable lies in its owner's retained image. -/
def retainOk (m : Module) (owner loc n : Nat) : Bool :=
  match m.funcs[owner]? with
  | none => false
  | some f => decide (f.kind ≠ 0) && decide (loc % 8 = 0 ∧ loc + 8 * n ≤ f.retain)

/-- R118: the system points. -/
def systemPoint (r : Nat) : Bool := decide (refKind r = 8) && decide (r % 256 < 6)

/-- R98, R99, R117: a descriptor of a module of an image on the device own is formed. -/
def varOk (im : Image) (own : Nat) (m : Module) (v : VarDesc) : Bool :=
  match v.kind with
  | 0 => decide (1 ≤ v.elems ∧ v.elems ≤ 4096) && retainOk m v.aux v.loc v.elems
  | 1 => decide (1 ≤ v.elems ∧ v.elems ≤ 4096) && decide (v.loc % 8 = 0 ∧ v.loc + 8 * v.elems ≤ m.globalSize ∧ v.aux = 0)
  | 2 => decide (v.elems = 1 ∧ v.aux = 0) && refFieldsOk v.loc && refTypeOk im v.loc v.ty true && refDirOk v.loc own true &&
      (systemPoint v.loc || (decide (refKind v.loc ≠ 8) && im.ins.any fun x => x.1 = v.loc))
  | 3 => decide (v.elems = 1 ∧ v.aux = 0) && refFieldsOk v.loc && refTypeOk im v.loc v.ty false && refDirOk v.loc own false &&
      im.outs.any fun x => x.ref = v.loc
  | 4 => decide (v.elems = 1 ∧ v.aux = 0 ∧ v.loc < 256)
  | 5 => decide (v.elems = 1 ∧ v.aux = 0 ∧ v.loc < 64)
  | 6 =>
    let c := v.aux % 256
    (if c = 11 then decide (10 ≤ v.elems ∧ v.elems ≤ 520 ∧ v.elems % 2 = 0)
      else decide ((fbInputs c).isSome ∧ v.elems = fbCells c)) &&
      decide (v.aux < 2 ^ 24) && retainOk m (v.aux / 256) v.loc v.elems
  | 7 => decide (v.elems = 1 ∧ v.aux = 0 ∧ v.loc < 4096)
  | 8 => decide (v.elems = 1 ∧ v.aux = 0 ∧ v.loc < 512)
  | 9 => decide (v.elems = 1 ∧ v.aux = 0 ∧ v.loc < 16384)
  | 10 => decide (v.elems = 1 ∧ v.aux = 0 ∧ v.loc / 2 ^ 24 < 8)
  | _ => false

/-- R98: the bytes of a descriptor hold a TYPE. -/
def varTypeOk (l : List Byte) : Bool := (etypeOf (fieldAt l 1 1)).isSome

/-- Functions reached from a set within a number of calls. -/
def reachFrom (g : List (List Nat)) : Nat → List Nat → List Nat
  | 0, l => l
  | n + 1, l => reachFrom g n (l ++ (l.flatMap fun f => g.getD f [])).eraseDups

/-- The entries of a module with the functions that each reaches. -/
def entriesOf (m : Module) (g : List (List Nat)) : List (Nat × FuncDesc × List Nat) :=
  m.funcs.zipIdx.filterMap fun (f, i) => if f.kind = 0 then none else some (i, f, reachFrom g 32 [i])

/-- R200: a target that TXADD may address: no CANopen or Modbus point, and no entry of the excluded ranges. -/
def txTargetOk (v : VarDesc) : Bool :=
  let i := v.loc / 256 % 65536
  if v.kind = 3 then decide (refKind v.loc ≠ 3 ∧ refKind v.loc ≠ 4)
  else if v.kind = 10 then !(decide (0x7000 ≤ i ∧ i < 0x8000) || decide (0xC000 ≤ i ∧ i < 0xCC00) || decide (0xD000 ≤ i))
  else true

/-- R99, R200: a descriptor operand exists and is of a kind that the instruction accepts. -/
def operandOk (m : Module) (i : VInst) : Bool :=
  match i.var with
  | none => true
  | some (d, kinds) =>
    ((m.vars[d]?).map fun v => decide (v.kind ∈ kinds) && (decide (kinds ≠ [3, 5, 10]) || txTargetOk v)).getD false

/-- R99: an instruction in code of an entry writes no RETAIN or FB variable of another entry. DEDUCED (assumption 165). -/
def ownsOk (m : Module) (e : Nat) (i : VInst) : Bool :=
  match i.var with
  | none => true
  | some (d, _) =>
    match m.vars[d]? with
    | none => true
    | some v => !i.writes || decide (v.kind = 1) || decide (v.owner = e)

/-- Check 10 of the descriptors themselves; raw gives their bytes. -/
def varsOk (im : Image) (own : Nat) (m : Module) (raw : List (List Byte)) : VFail :=
  firstFail ((m.vars.zip raw).zipIdx.map fun ((v, r), i) => vCheck (varTypeOk r && varOk im own m v) 10 (m.varOff + 12 * i))

/-- Check 10. -/
def descriptorsOk (im : Image) (own : Nat) (m : Module) (raw : List (List Byte)) (g : List (List Nat))
    (l : List (List (Nat × VInst))) : VFail :=
  let b := firstFail (l.map fun x => firstFail (x.map fun (o, i) => vCheck (operandOk m i) 10 o))
  let c := firstFail ((entriesOf m g).flatMap fun (e, _, fs) => fs.map fun f =>
    firstFail ((l.getD f []).map fun (o, i) => vCheck (ownsOk m e i) 10 o))
  firstFail [varsOk im own m raw, inCode m b, inCode m c]

/-- Check 11: R94. -/
def waitsOk (m : Module) (g : List (List Nat)) (l : List (List (Nat × VInst))) : VFail :=
  firstFail ((entriesOf m g).flatMap fun (_, e, fs) => fs.map fun f =>
    firstFail ((l.getD f []).map fun (o, i) => vCheck (!(i.wait && decide (e.kind = 1))) 11 o))

/-! ### Checks 12 to 16 -/

/-- Check 12 against the modules before. -/
def publishOk (before : List Module) (m : Module) : VFail :=
  firstFail (m.pubs.zipIdx.map fun (p, i) =>
    vCheck (!((before.flatMap (·.pubs) ++ m.pubs.take i).any fun q => decide (q.index = p.index ∧ q.subindex = p.subindex))) 12
      (m.pubOff + 8 * i))

/-- Check 13 against the modules before. -/
def recordOk (before : List Module) (m : Module) : VFail :=
  firstFail (m.recs.zipIdx.map fun (p, i) =>
    vCheck (!((before.flatMap (·.recs) ++ m.recs.take i).any fun q => decide (q.signal = p.signal))) 13 (m.recOff + 8 * i))

/-- R107: the PID instances that a cyclic task of an image runs. -/
def pidsOf (ms : List Module) (d : TaskDesc) : Nat :=
  match ms.find? fun m => m.slot = d.modSlot with
  | none => 0
  | some m => (m.vars.filter fun v => v.kind = 6 ∧ v.aux % 256 = 1 ∧ v.aux / 256 = d.func).length

/-- R107: the load of the PID instances of all cyclic tasks of some modules fits, with the class factors and the period in
grains given. -/
def pidOk (im : Image) (k : Nat → Nat) (pg : Nat) (ms : List Module) : Bool :=
  let all := k 0 * k 1 * k 2 * k 3
  let sum := (im.tasks.map fun (_, d) => if d.kind = 1 then pidsOf ms d * (all / k d.cls) else 0).sum
  decide (sum * 1048576 ≤ 4096 * pg * all)

/-- R78: the operand cells that a function needs with those that it calls, within the fuel: at a call the cells below the arguments
stay on the stack. DEDUCED (assumption 223). -/
def stackNeed (m : Module) (l : List (List (Nat × VInst × Nat))) : Nat → Nat → Nat
  | 0, _ => 0
  | n + 1, f =>
    (l.getD f []).foldl (fun a (_, i, d) =>
      match i.call with
      | none => a
      | some c => max a (d - ((m.funcs[c]?).map (·.args)).getD 0 + stackNeed m l n c)) (((m.funcs[f]?).map (·.maxStack)).getD 0)

/-- R78: the instructions of every function with the stack depth before each, as check 7 finds it. -/
def depthsOf (m : Module) : List (List (Nat × VInst × Nat)) :=
  m.funcs.map fun f =>
    let l := (instsOf m f).1
    let seen := (depthWalk m f l).2.2
    l.map fun (o, i) => (o, i, (tget none seen o).getD 0)

/-- R78: the operand cells of the deepest call chain from an entry. -/
def entryStack (m : Module) (f : Nat) : Nat := if m.legacy then ((m.funcs[f]?).map (·.maxStack)).getD 0 else stackNeed m (depthsOf m) 32 f

/-- Check 14: R78 and R107. -/
def capacityOk (im : Image) (k : Nat → Nat) (pg : Nat) (before : List Module) (m : Module) : VFail :=
  vCheck ((m.funcs.all fun f => decide (f.retain ≤ 32768)) && decide (m.globalSize ≤ 1048576) &&
    decide (m.vars.length ≤ 262144 ∧ m.consts.length ≤ 65536 ∧ m.bytes.length ≤ 1966080) &&
    (m.funcs.zipIdx.all fun (_, i) => decide (entryStack m i ≤ 256)) && pidOk im k pg (before ++ [m])) 14 0

/-- Check 16. -/
def idOk (before : List Module) (m : Module) : VFail := vCheck (!(before.any fun x => decide (x.id = m.id))) 16 8

/-- Checks 12 to 14 and 16: those that the image and the modules before decide. -/
def placeChecks (im : Image) (k : Nat → Nat) (pg : Nat) (before : List Module) (m : Module) : List VFail :=
  [publishOk before m, recordOk before m, capacityOk im k pg before m, idOk before m]

/-! ### A module, and the modules of an image -/

/-- R102: the checks of a module, with those before it in its image. DEDUCED (assumptions 72, 73). DESIGN CHOICE (assumption 224). -/
def verifyModule (im : Image) (own : Nat) (k : Nat → Nat) (pg : Nat) (before : List Module) (bytes : List Byte)
    (m : Module) : VFail :=
  if fieldAt bytes 0 4 ≠ 0x35524845 then some (1, 0)
  else if ¬ headOk bytes then some (2, 4)
  else if ¬ crcOk bytes then some (3, 60)
  else if ¬ tablesOk (bytes.take (fieldAt bytes 12 4)) then some (4, 16)
  else
    let xs := m.funcs.map (instsOf m)
    let l := xs.map (·.1)
    let g := callGraph l
    let raw := chunksOf 12 (sectionBytes bytes 2)
    match firstFail [firstFail (xs.map opcodesOk), firstFail (l.map branchesOk)] with
    | some x => inCode m (some x)
    | none =>
      let depths := (m.funcs.zip l).map fun (f, x) => depthOk m f x
      match depths.find? fun x => (x.map (·.1)) = some 10 with
      | some x => inCode m x
      | none =>
        firstFail ([inCode m (firstFail [firstFail depths, callsOk m g, localsOk m g l]), descriptorsOk im own m raw g l,
          inCode m (waitsOk m g l)] ++ placeChecks im k pg before m)

end Sys2Proof.Machine
end

