-- ==== Sys2Proof/Machine/Granary.lean ====
section
/-! DEFINITION. Chapter 14: the granary: the journal ring, persistent values and the rate limiter. -/

namespace Sys2Proof.Machine

/-! ### The journal ring (R535, R536) -/

/-- R535: the address of the journal ring in the granary window, its size, and the size of a segment. -/
def ringBase : Nat := 0x14440000
def ringSize : Nat := 156 * 65536

/-- R536: the header of a segment. -/
def ringSegHeader (seq : Nat) : List Byte :=
  let h := [0x4A, 0x52, 0x4E, 0x35] ++ leBytes 8 seq ++ List.replicate 48 0
  h ++ leBytes 4 (crc32c h).toNat

/-- R536: two spans of the ring, offset and bytes, share a segment. -/
def spanHits (seg : Nat) (x : Nat × Nat) : Bool :=
  decide (((seg + 156 - x.1 / 65536) % 156) * 65536 < x.1 % 65536 + x.2)

/-- R539: a persisted entry's region place is rewritten with its newest value: the value counts as held there. -/
def regionDone (key : Nat) (s : State) : State :=
  match tget none s.gran.persist key with
  | none => s
  | some x =>
    let y : PersistVal := { x with regSeq := x.seq, regAt := s.raw, kept := (x.seq, x.ty, x.cells) }
    { s with gran := { s.gran with persist := tset none s.gran.persist key (some y) } }

/-- R541: the write point passes over the 16 blocks of a segment, which are written once more. DESIGN CHOICE (assumption 212). -/
def wearSegment (seg : Nat) (s : State) : State :=
  let first := 1088 + 16 * seg
  let w := (List.range 16).foldl (fun m i => tset 0 m (first + i) (tget 0 m (first + i) + 1)) s.gran.wear
  let top := (List.range 16).foldl (fun n i => max n (tget 0 w (first + i))) 0
  { s with gran := { s.gran with wear := w } }.maxFld R.GRAN_WEAR_MAX ⟨0, 32⟩ (top / 256)

/-- R536, R539: the write point enters a segment, which is erased: cuts in it are gone, and region places still owed for records in
it are written first. -/
def enterSegment (s : State) : State :=
  let seg := s.gran.head / 65536
  let due := s.persisted.filterMap fun (k, x) => if x.seq ≠ x.regSeq ∧ x.off / 65536 = seg then some k else none
  let s1 := s.forAll due regionDone
  let gone := (s1.gran.places.filter fun (_, x) => spanHits seg x).map (·.1)
  let base := ringBase + seg * 65536
  let s2 := { s1 with
    mem := s1.mem.filter fun x => ¬ (base ≤ x.1 ∧ x.1 < base + 65536)
    exec := { s1.exec with stored := s1.exec.stored.filter fun c => c.seq ∉ gone }
    gran := { s1.gran with
      places := s1.gran.places.filter fun x => x.1 ∉ gone, segSeq := s1.gran.segSeq + 1, head := s1.gran.head + 64 } }
  let s3 := if seg = 0 ∧ 0 < s.gran.segSeq then s2.incSat R.GRAN_WRAP_CNT else s2
  (wearSegment seg s3).memWrite base (ringSegHeader s2.gran.segSeq)

/-- Bytes put into the ring at the write point, past the headers of the segments that they reach; fuel bounds the segments. -/
def ringPutN : Nat → List Byte → State → State
  | 0, _, s => s
  | n + 1, l, s =>
    if l = [] then s
    else
      let s1 := if s.gran.head % 65536 = 0 then enterSegment s else s
      let room := 65536 - s1.gran.head % 65536
      let k := min room l.length
      let s2 := s1.memWrite (ringBase + s1.gran.head) (l.take k)
      ringPutN n (l.drop k) { s2 with gran := { s2.gran with head := (s1.gran.head + k) % ringSize } }

/-- Bytes put into the ring. DEDUCED (assumption 69). -/
def ringPut (l : List Byte) (s : State) : State :=
  let s1 := ringPutN (l.length / 65472 + 2) l s
  (s1.setReg R.GRAN_JOURNAL_HEAD (BitVec.ofNat 32 s1.gran.head)).put R.GRAN_STATUS F.GRAN_STATUS.SEGMENT (s1.gran.head / 65536)

/-- n rounded up to a multiple of 8. -/
def up8 (n : Nat) : Nat := (n + 7) / 8 * 8

/-- R536: a record of the ring. -/
def ringRecord (ty : Nat) (payload : List Byte) : List Byte :=
  let h := leBytes 1 ty ++ leBytes 3 0 ++ leBytes 4 payload.length ++ leBytes 4 (crc32c payload).toNat
  h ++ leBytes 4 (crc32c h).toNat ++ padTo (up8 payload.length) payload

/-- The place of the next record: after the header of the segment that the write point enters. -/
def nextPlace (s : State) : Nat := if s.gran.head % 65536 = 0 then s.gran.head + 64 else s.gran.head

/-! ### Waiting writes (R540) -/

/-- The place of a waiting write in the order of R540. -/
def GranWork.rank : GranWork → Nat
  | .secure => 0 | .persist _ => 1 | .region _ => 1 | .cut => 2 | .safety => 3 | .repair => 4 | .config => 5

/-- Lines of 64 bytes that n bytes take. -/
def linesOf (n : Nat) : Nat := (n + 63) / 64

/-- A write of some bytes waits for the granary. -/
def granWait (w : GranWork) (n : Nat) (s : State) : State :=
  { s with gran := { s.gran with jobs := s.gran.jobs ++ [⟨w, linesOf n, false, s.raw⟩] } }

/-- R540: the waiting write that is served next: the first of the lowest rank that still has lines. -/
def nextJob (s : State) : Option (Nat × GranJob) :=
  (s.gran.jobs.zipIdx.foldl (fun best (j, i) =>
    if j.lines = 0 then best
    else match best with
      | none => some (i, j)
      | some (_, b) => if j.work.rank < b.work.rank then some (i, j) else best) none)

/-- R540: the signed credit. -/
def State.credit (s : State) : Int := (s.reg R.GRAN_CREDIT).toInt

/-- R540: the credit lowered, to −524,288 at the least. -/
def creditTake (n : Nat) (s : State) : State :=
  s.setReg R.GRAN_CREDIT (BitVec.ofInt 32 (max (-524288) (s.credit - n)))

/-- R540: at a multiple of 100 ms the credit grows. -/
def creditRefill (s0 : State) : State :=
  let s := s0.advanceTo (BitVec.ofNat 64 ((s0.raw.toNat / 104857600 + 1) * 104857600))
  let c : Int := min ((s.reg R.GRAN_RATE_BURST).toNat % 2 ^ 21 : Nat) (s.credit + ((s.reg R.GRAN_RATE_BYTES).toNat % 2 ^ 17 : Nat))
  s.setReg R.GRAN_CREDIT (BitVec.ofInt 32 c)

/-! ### Persistent values (R423, R539) -/

/-- The wire bytes of a persisted value: eight to a cell of an ARRAY or 64-bit type, else the type's size. -/
def persistBytes (x : PersistVal) : List Byte :=
  let n := match x.ty with | 1 => 1 | 4 => 4 | 8 => 4 | 10 => 4 | _ => 8
  x.cells.flatMap fun c => leBytes n c.toNat

/-- R539: the header and value of a persisted entry. -/
def persistRecord (dev key : Nat) (x : PersistVal) : List Byte :=
  let v := persistBytes x
  let h := leBytes 4 (dev * 2 ^ 24 + key) ++ leBytes 1 x.ty ++ [0] ++ leBytes 2 v.length ++ leBytes 4 x.seq
  h ++ leBytes 4 (crc32c (h ++ v)).toNat ++ v

/-- R423, R539: a persisted entry has a value; a change is saved by a PERSIST record. DEDUCED (assumption 136). -/
def persistSave (key ty : Nat) (cells : List Quad) (s : State) : State :=
  let old := tget none s.gran.persist key
  if (old.map fun x => decide (x.ty = ty ∧ x.cells = cells)) = some true then s
  else
    let x : PersistVal := match old with
      | some y => { y with ty := ty, cells := cells, seq := y.seq + 1 }
      | none => ⟨ty, cells, 1, 0, 0, 0, (0, 0, [])⟩
    granWait (.persist key) (32 + (persistBytes x).length)
      { s with gran := { s.gran with persist := tset none s.gran.persist key (some x) } }

/-- R423: the persisted value of a published variable is saved as its valid copy has it. -/
def persistVar (key : Nat) (m : Module) (p : PubEntry) (v : VarDesc) (s : State) : State :=
  if natBit p.flags 0 then persistSave key (entryType v) ((List.range v.elems).map (s.varCell m v)) s else s

/-- R217, R423: a persisted entry that a LOCAL_OD or PEER action wrote is saved; after the run that the write waits for. -/
def persistWritten (key : Nat) (m : Module) (p : PubEntry) (v : VarDesc) (s : State) : State :=
  let waits : Bool := (principal s.image m v.owner).any fun t => s.txn.deferred.any fun w => decide (w.desc = t)
  if natBit p.flags 0 && decide (v.kind ≠ 1) && waits then { s with txn := { s.txn with saveDue := s.txn.saveDue ++ [key] } }
  else persistVar key m p v s

/-- R217: the persisted entries whose writes waited are saved once the writes have taken effect. -/
def savesDue (s : State) : State :=
  let l := s.txn.saveDue
  { s with txn := { s.txn with saveDue := [] } }.forAll l fun key t =>
    match findPub t.image (key / 256 % 65536) (key % 256) with
    | some (m, p, v) => persistWritten key m p v t
    | none => t

/-- R423: at a checkpoint cut every persisted variable is saved. DEDUCED (assumption 93). -/
def persistAll (s : State) : State :=
  s.forAll (s.image.modules.flatMap fun m => m.pubs.map fun p => (m, p)) fun (m, p) t =>
    match m.vars[p.var]? with
    | some v => persistVar (p.index * 256 + p.subindex) m p v t
    | none => t

/-- A PERSIST record is put into the ring. -/
def persistPut (key : Nat) (s : State) : State :=
  match tget none s.gran.persist key with
  | none => s
  | some x =>
    let off := nextPlace s
    let y : PersistVal := { x with off := off, kept := (x.seq, x.ty, x.cells) }
    ringPut (ringRecord 3 (persistRecord s.ownDev key x))
      { s with gran := { s.gran with persist := tset none s.gran.persist key (some y) } }

/-- R539: a region place may be rewritten: its value is not the newest, and GRAN_PERSIST_MIN has passed since the last time. -/
def regionOwed (s : State) (x : PersistVal) : Bool :=
  decide (x.seq ≠ x.regSeq) &&
    (decide (x.regSeq = 0) || decide (msGrains ((s.reg R.GRAN_PERSIST_MIN).toNat % 65536) ≤ (s.raw - x.regAt).toNat))

/-- R539: the region place of an entry that is due waits to be rewritten. -/
def persistRewrite (key : Nat) (s : State) : State :=
  match tget none s.gran.persist key with
  | none => s
  | some x =>
    if regionOwed s x ∧ ¬ s.gran.jobs.any (fun j => j.work = .region key) then
      granWait (.region key) (16 + (persistBytes x).length) s
    else s

/-! ### Lines (R540, R542) -/

/-- What follows when the last line of a waiting write is written; a cut waits for its own row. -/
def jobDone (w : GranWork) (s : State) : State :=
  match w with
  | .persist k => persistPut k s
  | .region k => regionDone k s
  | _ => s

/-- R542: how a line ends: one that fails twice takes a spare block while one is left, and fails else. -/
def lineFate (s : State) (e : LineEnd) : LineEnd :=
  let left : Bool := decide ((s.reg R.GRAN_SPARES_FREE).toNat % 128 ≠ 0)
  match e with
  | .verified => .verified
  | .retried => .retried
  | .remapped | .noSpare => if left then .remapped else .noSpare

/-- R540, R542: the lines written for one: a second attempt is one more, and a spare block takes its 64 lines. DEDUCED (assumption 251). -/
def linesFor : LineEnd → Nat
  | .verified => 1
  | .retried => 2
  | .remapped => 66
  | .noSpare => 2

/-- R542: how a line ended, recorded. -/
def lineEnd (e : LineEnd) (s : State) : State :=
  match e with
  | .verified => s
  | .retried => s.incSat R.GRAN_VERIFY_FAIL_CNT
  | .remapped =>
    let n := (s.reg R.GRAN_SPARES_FREE).toNat % 128
    (((s.incSat R.GRAN_VERIFY_FAIL_CNT).incSat R.GRAN_REMAP_CNT).setReg R.GRAN_SPARES_FREE (BitVec.ofNat 32 (n - 1))).raise
      R.GRAN_EVENTS F.GRAN_EVENTS.REMAP
  | .noSpare =>
    ((s.incSat R.GRAN_VERIFY_FAIL_CNT).put R.GRAN_STATUS F.GRAN_STATUS.NO_SPARE 1).raise R.GRAN_EVENTS F.GRAN_EVENTS.NO_SPARE

/-- R541: the first block of the wear table whose count has reached 9 × 10^7. DESIGN CHOICE (assumption 212). -/
def wornBlock (s : State) : Option Nat := (s.gran.wear.find? fun x => decide (90000000 ≤ x.2)).map (·.1)

/-- R541: a worn block is exchanged for a spare, while one is left. DESIGN CHOICE (assumption 212). -/
def wearSwap (s : State) : State :=
  match wornBlock s with
  | none => s
  | some b =>
    let n := (s.reg R.GRAN_SPARES_FREE).toNat % 128
    if n = 0 then s
    else
      ({ s with gran := { s.gran with wear := tset 0 s.gran.wear b 0 } }.setReg R.GRAN_SPARES_FREE (BitVec.ofNat 32 (n - 1))).raise
        R.GRAN_EVENTS F.GRAN_EVENTS.WEAR_SWAP

/-- R540 to R542: the granary controller exchanges a worn block, then writes and verifies a line of the write that is served next, when the credit allows it. -/
def granLine (e0 : LineEnd) (s : State) : State :=
  match nextJob s with
  | none => s
  | some (i, j) =>
    if s.credit < 64 then s
    else
      let wait := (s.raw - j.since).toNat / 2 ^ 20
      let e := lineFate (wearSwap s) e0
      let s1 := lineEnd e (creditTake (64 * linesFor e) (wearSwap s))
      let s2 := s1.maxFld R.GRAN_WAIT_MAX ⟨0, 32⟩ wait
      let bad : Bool := decide (e = .noSpare)
      let j1 := { j with lines := if bad then 0 else j.lines - 1, failed := j.failed || bad, since := s.raw }
      if j1.lines = 0 ∧ j.work ≠ .cut then
        let s3 := { s2 with gran := { s2.gran with jobs := s2.gran.jobs.eraseIdx i } }
        if j1.failed then s3 else jobDone j.work s3
      else { s2 with gran := { s2.gran with jobs := s2.gran.jobs.set i j1 } }

/-! ### Cuts in the granary (R537, R538) -/

/-- R537: a task record of a cut: a retained copy of some bytes. -/
def cutTask (d flags size : Nat) (copy : Tbl Quad) : List Byte :=
  leBytes 2 d ++ leBytes 1 flags ++ [0] ++ leBytes 4 size ++
    (List.range ((size + 7) / 8)).flatMap fun i => leBytes 8 (tget 0 copy i).toNat

/-- The bytes of a task's retained image. -/
def retainSize (im : Image) (d : TaskDesc) : Nat :=
  match moduleOf im d with
  | none => 0
  | some m => ((m.funcs[d.func]?).map (·.retain)).getD 0

/-- R537: the task records of a cut. -/
def cutTasks (c : Cut) : List (List Byte) :=
  ((c.sels.filter fun x => x.1 < 4096).map fun x => cutTask x.1 (tget 0 c.enables x.1) (tget 0 c.sizes x.1) (tget [] c.retained x.1)) ++
    (c.sels.filter fun x => 4096 ≤ x.1).map fun x =>
      let t := x.1 - 4096
      cutTask t (tget 0 c.enables t + 4) (tget 0 c.sizes x.1) (tget [] c.oldRetained t)

/-- R537: the payload of the CKPT_SLOT record of a cut. -/
def cutPayload (c : Cut) : List Byte :=
  let tasks := cutTasks c
  let body := tasks.flatten
  let h := [0x43, 0x4B, 0x50, 0x35] ++ leBytes 4 (64 + body.length) ++ leBytes 8 c.seq ++ leBytes 8 c.index ++
    leBytes 8 c.v.toNat ++ leBytes 4 c.config ++ leBytes 1 (c.state + 16 * c.cause) ++
    leBytes 1 c.olc ++ leBytes 2 tasks.length ++ leBytes 1 c.kind ++
    leBytes 3 0 ++ leBytes 16 0
  h ++ leBytes 4 (crc32c h).toNat ++ body

/-- R538: the bytes that a cut takes in the ring. -/
def cutSize (c : Cut) : Nat := 16 + up8 (cutPayload c).length + 40

/-- R538: the slot and the commit record of a cut are put into the ring; the cut is the newest valid one. -/
def cutCommit (c : Cut) (s : State) : State :=
  let p := cutPayload c
  let off := nextPlace s
  let rec1 := ringRecord 1 p
  let s1 := ringPut rec1 s
  let s2 := ringPut (ringRecord 2 (leBytes 8 c.seq ++ leBytes 4 off ++ leBytes 4 p.length ++ leBytes 4 (crc32c p).toNat ++
    leBytes 4 0)) s1
  let s3 := { s2 with
    exec := { s2.exec with stored := s2.exec.stored ++ [c] }
    gran := { s2.gran with places := tset (0, 0) s2.gran.places c.seq (off, rec1.length) } }
  (s3.setReg R.EXEC_CKPT_SEQ (BitVec.ofNat 32 c.seq)).setReg64 R.EXEC_CKPT_INDEX_LO R.EXEC_CKPT_INDEX_HI (BitVec.ofNat 64 c.index)

/-- CREDIT_REFILL (R540). -/
def execCreditRefill (s : State) : Out := ok (creditRefill s)
/-- GRANARY_LINE_WRITE (R540, R542). -/
def execGranaryLineWrite (e : LineEnd) (s : State) : Out := ok (granLine e s)
/-- PERSIST_REWRITE (R539): an entry by its index × 256 + sub-index. -/
def execPersistRewrite (key : Fin 16777216) (s : State) : Out := ok (persistRewrite key s)

end Sys2Proof.Machine
end

