-- ==== Sys2Proof/Machine/Ptp.lean ====
section
/-! DEFINITION. Chapter 12: PTP timestamps and messages, the servo and seating, path changes, the field ports as time sources,
and the uplinks. -/

namespace Sys2Proof.Machine

/-! ### Times (R468 to R470) -/

/-- Sixteenths of a grain in a second. -/
def sixteenthsPerS : Int := 16777216000

/-- R470: a time in sixteenths in PTP form. -/
def toPtp (x : Int) : PtpTime :=
  let r := x % sixteenthsPerS
  let q := (r * 15625 / 4).toNat
  ⟨(x / sixteenthsPerS).toNat, q / 65536, q % 65536⟩

/-- R470: a signed duration of 2^-16 ns in sixteenths, rounded towards plus infinity. DEDUCED (assumption 75). -/
def corrSixteenths (v : Int) : Int := -((-(v * 4)) / 15625)

/-- R470: a signed duration of sixteenths in 2^-16 ns, rounded towards minus infinity. -/
def corrNs (x : Int) : Int := x * 15625 / 4

/-- R470: a PTP time in sixteenths. -/
def ofPtp (t : PtpTime) : Int := t.sec * sixteenthsPerS + corrSixteenths (t.ns * 65536 + t.frac : Nat)

/-- A signed 16-bit field. -/
def s16 (n : Nat) : Int := (BitVec.ofNat 16 n).toInt

/-- R468, R469: raw grain and fraction of a timestamp with its compensation; a field port takes whole grains. -/
def stamp (s : State) (q : Nat) (sent : Bool) (t : Quad) (f : Nat) : Quad × Nat :=
  let c := s16 (s.get (R.PTP_q_COMP q) (if sent then F.PTP_q_COMP.EGRESS else F.PTP_q_COMP.INGRESS))
  let x : Int := 16 * t.toNat + (if q < 2 then f else 0) + c
  (BitVec.ofInt 64 (x / 16), (x % 16).toNat)

/-- R469: V at a raw grain under the parameters in force there. DEDUCED (assumption 80). -/
def State.vPast (s : State) (g : Quad) : Int :=
  if (s.reg64 R.TIME_RAW_REF_LO R.TIME_RAW_REF_HI).toNat ≤ g.toNat then s.vAt g
  else match s.ptp.past.find? fun c => c.ref.toNat ≤ g.toNat with
    | some c => c.vOf g
    | none => s.vAt g

/-- R469: virtual time of a timestamp in sixteenths. -/
def stampX (s : State) (g : Quad × Nat) : Int := 16 * s.vPast g.1 + g.2

/-! ### The engine -/

/-- PTP_STATUS.SERVO: 0 OFF, 1 FREE, 2 ACQUIRE, 3 TRACKING, 4 LOCKED, 5 HOLD, 6 HOLDOVER. -/
def State.servo (s : State) : Nat := s.get R.PTP_STATUS F.PTP_STATUS.SERVO
/-- The servo's state, set. -/
def setServo (n : Nat) (s : State) : State := s.put R.PTP_STATUS F.PTP_STATUS.SERVO n
/-- The engine is enabled. -/
def State.ptpOn (s : State) : Bool := s.flag R.PTP_CTRL F.PTP_CTRL.EN
/-- The measurements of an uplink. -/
def State.meas (s : State) (u : Nat) : UplinkMeas := tget UplinkMeas.none_ s.ptp.meas u
/-- The measurements of an uplink, set. -/
def State.setMeas (s : State) (u : Nat) (x : UplinkMeas) : State :=
  { s with ptp := { s.ptp with meas := tset UplinkMeas.none_ s.ptp.meas u x } }
/-- A dropped sample. -/
def sampleDrop (n : Nat) (s : State) : State := s.addSat R.PTP_SAMPLE_DROP_CNT n
/-- A message sent by a port. -/
def ptpSend (o : PtpOut) (s : State) : State :=
  let keep := s.ptp.out.filter fun (x : PtpOut) => ¬ (x.port = o.port ∧ x.kind = o.kind)
  let s1 := { s with ptp := { s.ptp with out := keep ++ [o] } }
  let s2 := s1.incSat (R.PTP_q_TX_CNT o.port)
  if o.port < 2 then s2.incSat (R.UPLINK_p_TX_CNT o.port) else s2

/-- LOCK_THR. -/
def State.lockThr (s : State) : Int := s.get R.PTP_LOCK_CFG F.PTP_LOCK_CFG.LOCK_THR
/-- LOCK_COUNT. -/
def State.lockCount (s : State) : Nat := s.get R.PTP_LOCK_CFG F.PTP_LOCK_CFG.LOCK_COUNT
/-- F. -/
def State.freqEst (s : State) : Int := (s.reg R.PTP_FREQ).toInt
/-- F, held within its limits. -/
def setFreq (f : Int) (s : State) : State := s.setReg R.PTP_FREQ (BitVec.ofInt 32 (clampInt (-rateLimit) rateLimit f))

/-! ### Path changes (R478, R479, R481) -/

/-- R478: four times the median of values that are twice D. DESIGN CHOICE (assumption 76). -/
def median4 (l : List Int) : Int :=
  let m := l.mergeSort (fun a b => decide (a ≤ b))
  let n := m.length
  m.getD (n / 2) 0 + m.getD ((n - 1) / 2) 0

/-- R478: a value, twice D, lies off the median by more than PATH_JUMP_THR. -/
def pathJump (s : State) (l : List Int) (d2 : Int) : Bool :=
  !l.isEmpty && decide (4 * s.get R.PTP_PATH_CFG F.PTP_PATH_CFG.PATH_JUMP_THR * 262144 < (2 * d2 - median4 l).natAbs * 15625)

/-- The last eight of a list. -/
def last8 (l : List Int) : List Int := l.drop (l.length - 8)

/-- PTP_MPD follows the median. -/
def mpdUpdate (s : State) : State := s.setReg R.PTP_MPD (BitVec.ofInt 32 (median4 s.ptp.ds / 4))

/-- R479: a path change or a change of parent after seating. -/
def beginHold (s : State) : State :=
  let s1 := ((s.raise R.PTP_EVENTS F.PTP_EVENTS.PATH_CHANGE).incSat R.PTP_PATH_CHANGE_CNT).put R.PTP_STATUS
    F.PTP_STATUS.ASYM_SUSPECT 0
  let hold := s.get R.PTP_PATH_CFG F.PTP_PATH_CFG.HOLD_S * 1048576000
  let b : Option Int := if s.ptp.thetaB.isSome then s.ptp.thetaB else s.ptp.prev.map (·.1)
  rateAdjWrite (BitVec.ofInt 32 s.freqEst)
    (setServo 5 { s1 with ptp := { s1.ptp with
      holdEnd := s.raw + BitVec.ofNat 64 hold, gather := [], aside := [], run := 0, thetaB := b } })

/-- R478: a path change by the servo's state; the values that show it. DEDUCED (assumption 79). -/
def pathChange (l : List Int) (s : State) : State :=
  if s.servo ≤ 2 then mpdUpdate { s with ptp := { s.ptp with run := 0, ds := l, aside := [] } }
  else
    let s1 := beginHold s
    { s1 with ptp := { s1.ptp with gather := l } }

/-- R478: a value held aside; a sample that was not counted yet counts when it is discarded. -/
def holdAside (base : List Int) (d2 : Int) (counted : Bool) (s : State) : State :=
  let up (x : Int) : Bool := decide (median4 base < 2 * x)
  let same := s.ptp.aside.filter fun x => up x == up d2
  let lost := s.ptp.aside.length - same.length
  let l := same ++ [d2]
  let s1 := sampleDrop (if counted then 0 else lost) { s with ptp := { s.ptp with aside := l } }
  if l.length < 3 then s1 else pathChange l s1

/-- R479: the hold ends. -/
def ptpHoldEnd (s : State) : State :=
  if s.servo ≠ 5 then s
  else
    let s1 := s.advanceTo s.ptp.holdEnd
    mpdUpdate (setServo 3 { s1 with ptp := { s1.ptp with ds := last8 s1.ptp.gather, gather := [], aside := [], run := 0 } })

/-- R479: the first accepted θ after a hold compared with the last before it. -/
def asymCheck (theta : Int) (s : State) : State :=
  match s.ptp.thetaB with
  | none => s
  | some b =>
    let s1 := { s with ptp := { s.ptp with thetaB := none } }
    if s.lockThr < (theta - b).natAbs then
      ((s1.put R.PTP_STATUS F.PTP_STATUS.ASYM_SUSPECT 1).raise R.PTP_EVENTS F.PTP_EVENTS.ASYM_SUSPECT).setReg R.PTP_ASYM_EST
        (BitVec.ofInt 32 (2 * (theta - b)))
    else s1

/-! ### The servo and seating (R476, R477) -/

/-- A rate of θ over T raw grains with a shift: floor(θ × 2^40 / (16 × T × 2^k)). -/
def rateOf (theta : Int) (t k : Nat) : Int := theta * 2 ^ 40 / (16 * t * 2 ^ k : Nat)

/-- R476, R591: F and c of a seated servo, with gains and slew limit: the new F and RATE_ADJ. -/
def servoStep (f theta : Int) (t kp ki slew : Nat) : Int × Int :=
  let l : Int := (slew * 2 ^ 40 / 1000000 : Nat)
  let c := -rateOf theta t kp
  if l < c.natAbs then (f, f + c.sign * l)
  else
    let g := clampInt (-rateLimit) rateLimit (f - rateOf theta t ki)
    (g, g + c)

/-- The clock stepped so that V falls by θ / 16, rounded to the nearest grain (R477). -/
def stepClock (theta : Int) (s : State) : State :=
  let v := s.vNow + (8 - theta) / 16
  let s1 := offsetSet (BitVec.ofInt 64 (v - s.raw.toNat)) s
  if s.headRun then headRealign s1 else s1

/-- R477: seating at first lock with offset θ; auto and the greatest offset in ms come from the registers. -/
def seatAtLock (theta : Int) (s : State) : State :=
  if s.flag R.TIME_STATUS F.TIME_STATUS.SEATED then setServo 3 s
  else if ¬ s.flag R.PTP_CTRL F.PTP_CTRL.AUTO_SEAT then { s with ptp := { s.ptp with waitSeat := true } }
  else if s.ctrlStopped then
    setServo 3 ((seatClock (stepClock theta s)).raise R.PTP_EVENTS F.PTP_EVENTS.SEATED_STEP)
  else
    let s1 := setServo 3 ((seatClock s).raise R.PTP_EVENTS F.PTP_EVENTS.SEATED_RATE)
    if theta.natAbs ≤ 16 * msGrains (s.get R.PTP_SEAT_MAX F.PTP_SEAT_MAX.SEAT_MAX) then s1
    else
      ((s1.raise R.PTP_EVENTS F.PTP_EVENTS.SYNT_ONLY).put R.PTP_STATUS F.PTP_STATUS.SYNT_ONLY 1).setReg64 R.PTP_STANDING_LO
        R.PTP_STANDING_HI (BitVec.ofInt 64 ((8 - theta) / 16))

/-- R476: the servo in ACQUIRE. -/
def servoAcquire (theta : Int) (t2 : Quad) (s : State) : State :=
  match s.ptp.prev with
  | none => rateAdjWrite (BitVec.ofInt 32 s.freqEst) s
  | some (th0, t0) =>
    let t := (t2 - t0).toNat
    let s1 := if t = 0 then s else setFreq (s.freqEst - rateOf (theta - th0) t 0) s
    let s2 := rateAdjWrite (BitVec.ofInt 32 s1.freqEst) s1
    let run := if (theta - th0).natAbs ≤ s.lockThr.toNat then s.ptp.run + 1 else 0
    let s3 := { s2 with ptp := { s2.ptp with run := run } }
    if s.lockCount ≤ run ∧ ¬ s.ptp.waitSeat then
      seatAtLock theta ({ s3 with ptp := { s3.ptp with run := 0 } }.raise R.PTP_EVENTS F.PTP_EVENTS.FIRST_LOCK)
    else s3

/-- R476: LOCKED and TRACKING by θ. -/
def servoLock (theta : Int) (s : State) : State :=
  let run := if theta.natAbs ≤ s.lockThr.toNat then s.ptp.run + 1 else 0
  let s1 := { s with ptp := { s.ptp with run := run } }
  if s.servo = 3 then if s.lockCount ≤ run then setServo 4 s1 else s1
  else if 4 * s.lockThr.toNat < theta.natAbs then
    setServo 3 ({ s1 with ptp := { s1.ptp with run := 0 } }.raise R.PTP_EVENTS F.PTP_EVENTS.LOCK_LOST)
  else s1

/-- R476: the servo in TRACKING and LOCKED; in syntonise-only operation c stays 0. -/
def servoTrack (theta : Int) (t2 : Quad) (s : State) : State :=
  let t := match s.ptp.prev with
    | some (_, t0) => (t2 - t0).toNat
    | none => 0
  let kp := s.get R.PTP_SERVO_CFG F.PTP_SERVO_CFG.KP_SHIFT
  let ki := s.get R.PTP_SERVO_CFG F.PTP_SERVO_CFG.KI_SHIFT
  if t = 0 then servoLock theta s
  else if s.flag R.PTP_STATUS F.PTP_STATUS.SYNT_ONLY then
    let s1 := setFreq (s.freqEst - rateOf theta t ki) s
    servoLock theta (rateAdjWrite (BitVec.ofInt 32 s1.freqEst) s1)
  else
    let x := servoStep s.freqEst theta t kp ki (s.get R.PTP_SERVO_CFG F.PTP_SERVO_CFG.SLEW_PPM)
    servoLock theta (rateAdjWrite (BitVec.ofInt 32 x.2) (setFreq x.1 s))

/-- R476, R477: an accepted sample. -/
def sampleAccept (d2 theta0 : Int) (t2 : Quad) (s : State) : State :=
  let theta := if s.flag R.PTP_STATUS F.PTP_STATUS.SYNT_ONLY then
    theta0 + 16 * (s.reg64 R.PTP_STANDING_LO R.PTP_STANDING_HI).toInt else theta0
  let s1 := sampleDrop s.ptp.aside.length
    (mpdUpdate { s with ptp := { s.ptp with ds := last8 (s.ptp.ds ++ [d2]), aside := [] } })
  let s2 := asymCheck theta (s1.setReg64 R.PTP_OFFSET_LO R.PTP_OFFSET_HI (BitVec.ofInt 64 theta))
  let s3 := match s2.servo with
    | 1 => servoAcquire theta t2 (setServo 2 s2)
    | 2 => servoAcquire theta t2 s2
    | 3 => servoTrack theta t2 s2
    | 4 => servoTrack theta t2 s2
    | _ => s2
  { s3 with ptp := { s3.ptp with prev := some (theta, t2) } }

/-- R475, R478, R479: a sample with twice its D and with t2 − t1 − c_sync, judged and taken. -/
def sampleIn12 (d2 diff : Int) (t2 : Quad) (s : State) : State :=
  let theta := (2 * diff - d2 - 2 * (s.reg R.PTP_ASYM).toInt) / 2
  if d2 < 0 then sampleDrop 1 s
  else if s.servo = 5 then
    let s1 := sampleDrop 1 s
    if pathJump s s.ptp.gather d2 then holdAside s.ptp.gather d2 true s1
    else { s1 with ptp := { s1.ptp with gather := s1.ptp.gather ++ [d2], aside := [] } }
  else if pathJump s s.ptp.ds d2 then holdAside s.ptp.ds d2 false s
  else sampleAccept d2 theta t2 s

/-- R475: the newest measurements of the parent's uplink make a sample when they are complete. DEDUCED (assumption 74). -/
def trySample (u : Nat) (s : State) : State :=
  let m := s.meas u
  match m.sync with
  | none => s
  | some y =>
    match y.t1 with
    | none => s
    | some t1 =>
      let diff := y.t2 - t1 - corrSixteenths y.corr
      if s.flag R.PTP_CTRL F.PTP_CTRL.P2P then
        match m.d2 with
        | some d2 => sampleIn12 d2 diff y.t2raw (s.setMeas u { m with sync := none })
        | none => s
      else
        match m.resp with
        | some (t3, t4, c) =>
          sampleIn12 (diff + (t4 - t3 - corrSixteenths c)) diff y.t2raw (s.setMeas u { m with sync := none, resp := none })
        | none => s

/-! ### Sources and the parent (R474, R481) -/

/-- R474: a number list that orders datasets; the lesser is the better. PRESUMED (assumption 77). -/
def PtpSource.rank (x : PtpSource) : List Nat :=
  [x.data.prio1, x.data.cls, x.data.accuracy, x.data.variance, x.data.prio2, x.data.gm.toNat, x.data.steps, x.clock.toNat,
    x.uplink, x.port]

/-- Lexicographic order. -/
def lexLt : List Nat → List Nat → Bool
  | a :: l, b :: m => decide (a < b) || (decide (a = b) && lexLt l m)
  | _, _ => false

/-- The best of the sources heard on uplinks that take part. -/
def bestSource (s : State) : Option PtpSource :=
  (s.ptp.sources.filter fun x => s.flag (R.PTP_q_CFG x.uplink) F.PTP_q_CFG.EN).foldl (fun b x =>
    match b with
    | none => some x
    | some y => if lexLt x.rank y.rank then some x else some y) none

/-- The parent's registers. -/
def parentRegs (s : State) : State :=
  match s.ptp.parent with
  | none => s.put R.PTP_STATUS F.PTP_STATUS.PARENT_VALID 0
  | some x =>
    (((s.put R.PTP_STATUS F.PTP_STATUS.PARENT_VALID 1).put R.PTP_STATUS F.PTP_STATUS.PARENT_UPLINK x.uplink).setReg64
      R.PTP_PARENT_ID_LO R.PTP_PARENT_ID_HI x.clock).setReg R.PTP_PARENT_PORT (BitVec.ofNat 32 x.port)

/-- Two sources are the same one. -/
def PtpSource.same (x y : PtpSource) : Bool := decide (x.uplink = y.uplink ∧ x.clock = y.clock ∧ x.port = y.port)

/-- R479, R481: the next parent after HOLDOVER: a hold once the clock is seated, else ACQUIRE. DEDUCED (assumption 78). -/
def nextParent (s : State) : State :=
  let s1 := s.raise R.PTP_EVENTS F.PTP_EVENTS.SOURCE_CHANGE
  if s.flag R.TIME_STATUS F.TIME_STATUS.SEATED then beginHold s1
  else setServo 2 { s1 with ptp := { s1.ptp with run := 0, prev := none, ds := [], aside := [] } }

/-- R474, R479, R481: parent selection. DEDUCED (assumption 78). -/
def selectParent (s : State) : State :=
  let b := bestSource s
  let s1 := parentRegs { s with ptp := { s.ptp with parent := b } }
  match s.ptp.parent, b with
  | none, none => s1
  | some _, none =>
    let s2 := s1.raise R.PTP_EVENTS F.PTP_EVENTS.SOURCE_LOST
    if s.servo = 0 then s2 else rateAdjWrite (BitVec.ofInt 32 s.freqEst) (setServo 6 { s2 with ptp := { s2.ptp with meas := [] } })
  | none, some _ => if s.servo = 6 then nextParent s1 else s1
  | some x, some y =>
    if x.same y then s1
    else
      let s2 := { s1 with ptp := { s1.ptp with meas := [] } }.raise R.PTP_EVENTS F.PTP_EVENTS.SOURCE_CHANGE
      if s.servo < 3 then { s2 with ptp := { s2.ptp with run := 0, prev := none, ds := [], aside := [] } } else beginHold s2

/-! ### Messages received (R467, R471, R475) -/

/-- R467: a message of a port is discarded; p2p is what its kind needs of the delay mechanism, where it needs one. -/
def ptpBad (s : State) (q : Nat) (m : PtpMsg) (p2p : Option Bool) : Bool :=
  let tr := if q < 2 then s.get R.PTP_CTRL F.PTP_CTRL.TRANSPORT else 0
  let mech := if q < 2 then s.flag R.PTP_CTRL F.PTP_CTRL.P2P else s.flag (R.PTP_q_CFG q) F.PTP_q_CFG.P2P
  decide (m.domain ≠ s.get R.PTP_CTRL F.PTP_CTRL.DOMAIN) || decide (m.transport ≠ tr) || !m.version2 || !m.supported ||
    decide (1000000000 ≤ m.time.ns) || (match p2p with | some b => b != mech | none => false)

/-- An uplink takes frames. -/
def State.uplinkOn (s : State) (u : Nat) : Bool := s.flag (R.UPLINK_p_CTRL u) F.UPLINK_p_CTRL.EN

/-- A PTP message received at a port at a raw grain: discarded under R467, or counted and given to f. -/
def ptpRx (q : Nat) (t : Quad) (m : PtpMsg) (p2p : Option Bool) (f : State → State) (s0 : State) : State :=
  let s := s0.advanceTo t
  if ¬ s.ptpOn ∨ (q < 2 ∧ ¬ s.uplinkOn q) then s
  else
    let s1 := if q < 2 then s.incSat (R.UPLINK_p_RX_CNT q) else s
    if ptpBad s q m p2p then s1.incSat R.PTP_DISCARD_CNT else f (s1.incSat (R.PTP_q_RX_CNT q))

/-- A message of the parent on the parent's uplink; a follower's servo takes none (R466). -/
def fromParent (s : State) (u : Nat) (m : PtpMsg) : Bool :=
  !s.isFollower && (match s.ptp.parent with
    | some x => decide (x.uplink = u ∧ x.clock = m.clock ∧ x.port = m.port)
    | none => false)

/-- R471: a Sync. -/
def ptpSync (u : Nat) (t : Quad) (f : Nat) (m : PtpMsg) : State → State :=
  ptpRx u t m none fun s =>
    if ¬ fromParent s u m then s
    else
      let g := stamp s u false t f
      let x := s.meas u
      let lost := match x.sync with
        | some y => y.t1.isNone
        | none => false
      let y : SyncRec := ⟨m.seq, if m.twoStep then none else some (ofPtp m.time), stampX s g, g.1, m.corr⟩
      trySample u ((sampleDrop (b2n lost) s).setMeas u { x with sync := some y })

/-- R471: a Follow_Up. -/
def ptpFollowUp (u : Nat) (m : PtpMsg) (s : State) : State :=
  ptpRx u s.raw m none (fun s =>
    if ¬ fromParent s u m then s
    else
      let x := s.meas u
      match x.sync with
      | none => s
      | some y =>
        if y.t1.isSome then s
        else if y.seq ≠ m.seq then sampleDrop 1 s
        else trySample u (s.setMeas u { x with sync := some { y with t1 := some (ofPtp m.time), corr := y.corr + m.corr } })) s

/-- R475: a Delay_Resp; mine says that it answers this port. -/
def ptpDelayResp (u : Nat) (mine : Bool) (m : PtpMsg) (s : State) : State :=
  ptpRx u s.raw m (some false) (fun s =>
    if ¬ mine ∨ ¬ fromParent s u m then s
    else
      let x := s.meas u
      match x.req with
      | none => s
      | some (q, t3) =>
        if q ≠ m.seq then sampleDrop 1 s
        else trySample u (s.setMeas u { x with req := none, resp := some (t3, ofPtp m.time, m.corr) })) s

/-- R475: a completed peer-delay exchange gives twice D. -/
def peerDelayDone (u : Nat) (p1 p2 p3 p4 c : Int) (s : State) : State :=
  s.setMeas u { s.meas u with pd := none, d2 := some ((p4 - p1) - (p3 - p2) - corrSixteenths c) }

/-- R475: a Pdelay_Resp. -/
def ptpPdelayResp (u : Nat) (t : Quad) (f : Nat) (m : PtpMsg) : State → State :=
  ptpRx u t m (some true) fun s =>
    let x := s.meas u
    match x.pd with
    | none => s
    | some e =>
      if e.seq ≠ m.seq then sampleDrop 1 s
      else
        let p4 := stampX s (stamp s u false t f)
        if m.twoStep then s.setMeas u { x with pd := some { e with resp := some (ofPtp m.time, m.corr, p4) } }
        else peerDelayDone u e.p1 0 0 p4 m.corr s

/-- R475: a Pdelay_Resp_Follow_Up. -/
def ptpPdelayFollowUp (u : Nat) (m : PtpMsg) (s : State) : State :=
  ptpRx u s.raw m (some true) (fun s =>
    match (s.meas u).pd with
    | none => s
    | some e =>
      match e.resp with
      | none => s
      | some (p2, c, p4) => if e.seq ≠ m.seq then sampleDrop 1 s else peerDelayDone u e.p1 p2 (ofPtp m.time) p4 (c + m.corr) s) s

/-- R474: an Announce. -/
def ptpAnnounce (u : Nat) (m : PtpMsg) (a : Announce) (s : State) : State :=
  ptpRx u s.raw m none (fun s =>
    let x : PtpSource := ⟨u, m.clock, m.port, a, s.raw⟩
    selectParent { s with ptp := { s.ptp with sources := (s.ptp.sources.filter fun y => !(y.same x)) ++ [x] } }) s

/-- A number of grains for a power of two of seconds. -/
def logSeconds (n : Int) : Nat := if n < 0 then 1048576000 / 2 ^ n.natAbs else 1048576000 * 2 ^ n.natAbs

/-- R474: a source sends no Announce in time and is lost. -/
def ptpAnnounceTimeout (u : Nat) (clock : Quad) (port : Nat) (s : State) : State :=
  match s.ptp.sources.find? fun x => x.uplink = u ∧ x.clock = clock ∧ x.port = port with
  | none => s
  | some x =>
    let n := s.get R.PTP_CTRL F.PTP_CTRL.ANN_TIMEOUT * logSeconds x.data.logInterval
    let s1 := s.advanceTo (x.last + BitVec.ofNat 64 n)
    selectParent { s1 with ptp := { s1.ptp with sources := s1.ptp.sources.filter fun y => !(y.same x) } }

/-! ### Messages sent (R471, R473, R475, R482) -/

/-- R475: an uplink sends Delay_Req or Pdelay_Req at a raw grain. -/
def ptpDelayReqSend (u : Nat) (t : Quad) (f : Nat) (s0 : State) : State :=
  let s := s0.advanceTo t
  if ¬ s.ptpOn ∨ ¬ s.uplinkOn u then s
  else
    let x := s.meas u
    let q := (x.seq + 1) % 65536
    let g := stampX s (stamp s u true t f)
    let p2p := s.flag R.PTP_CTRL F.PTP_CTRL.P2P
    let y := if p2p then { x with seq := q, pd := some ⟨q, g, none⟩ } else { x with seq := q, req := some (q, g) }
    ptpSend ⟨u, if p2p then 2 else 1, q, toPtp g, 0, none, false⟩ (s.setMeas u y)

/-- R471, R482: a Pdelay_Req is answered; the response leaves at a second timestamp. -/
def ptpPdelayReq (q : Nat) (t : Quad) (f : Nat) (te : Quad) (fe : Nat) (m : PtpMsg) : State → State :=
  ptpRx q t m (some true) fun s =>
    if 2 ≤ q ∧ ¬ s.flag (R.PTP_q_CFG q) F.PTP_q_CFG.EN then s
    else
      let p2 := stampX s (stamp s q false t f)
      let s1 := s.advanceTo te
      let p3 := stampX s1 (stamp s1 q true te fe)
      if q < 2 ∧ s.flag R.PTP_CTRL F.PTP_CTRL.ONE_STEP then
        ptpSend ⟨q, 3, m.seq, ⟨0, 0, 0⟩, m.corr + corrNs (p3 - p2), none, false⟩ s1
      else
        ptpSend ⟨q, 10, m.seq, toPtp p3, m.corr, none, false⟩ (ptpSend ⟨q, 3, m.seq, toPtp p2, 0, none, false⟩ s1)

/-- R482: a Delay_Req received on a field port is answered. -/
def ptpDelayReq (p : Nat) (t : Quad) (f : Nat) (m : PtpMsg) : State → State :=
  ptpRx (2 + p) t m (some false) fun s =>
    if ¬ s.flag (R.PTP_q_CFG (2 + p)) F.PTP_q_CFG.EN then s
    else ptpSend ⟨2 + p, 9, m.seq, toPtp (stampX s (stamp s (2 + p) false t f)), m.corr, none, false⟩ s

/-- R473: a PTP frame of n bytes that starts at raw grain t on a field port ends early enough. DEDUCED (assumption 82). -/
def ptpGapOk (s : State) (p : Nat) (t : Quad) (n : Nat) : Bool :=
  let e := s.vAt t + byteGrains (s.get (R.FIELD_p_CTRL p) F.FIELD_p_CTRL.SPEED) n + 1024
  let b := s.fieldFrom p s.head.nextB
  let fh := s.head.nextActual + ((b : Int) - s.head.nextB) * s.pg
  let dec := s.head.nextActual - (s.pg / 8 : Nat)
  !s.head.armed || (decide (e ≤ fh) && (decide (e ≤ dec) || decide (dec < s.vAt t)))

/-- The sequenceId that a field port sends next. -/
def nextPtpSeq (q : Nat) (s : State) : Nat × State :=
  let n := (tget 0 s.ptp.seqs q + 1) % 65536
  (n, { s with ptp := { s.ptp with seqs := tset 0 s.ptp.seqs q n } })

/-- R482: a field port sends Sync and Follow_Up at a raw grain. -/
def ptpSyncSend (p : Nat) (t : Quad) (f : Nat) (s0 : State) : State :=
  let s := s0.advanceTo t
  let q := 2 + p
  if ¬ s.ptpOn ∨ ¬ s.flag (R.PTP_q_CFG q) F.PTP_q_CFG.EN ∨ ¬ ptpGapOk s p t 64 then s
  else
    let (n, s1) := nextPtpSeq q s
    let x := stampX s1 (stamp s1 q true t f)
    ptpSend ⟨q, 8, n, toPtp x, 0, none, false⟩ (ptpSend ⟨q, 0, n, ⟨0, 0, 0⟩, 0, none, false⟩ s1)

/-- R482: the dataset that the field ports announce: the parent's, one step further, or the device's own. PRESUMED (assumption 248). -/
def ownAnnounce (s : State) (q : Nat) : Announce :=
  match s.ptp.parent with
  | some x => if s.servo = 3 ∨ s.servo = 4 then { x.data with steps := x.data.steps + 1 } else own
  | none => own
where
  own : Announce := ⟨128, s.get (R.PTP_q_CFG q) F.PTP_q_CFG.CLASS, 0xFE, 0xFFFF, 128,
    s.reg64 R.PTP_CLOCK_ID_LO R.PTP_CLOCK_ID_HI, 0, 0xA0, s.get (R.PTP_q_CFG q) F.PTP_q_CFG.LOG_ANNOUNCE⟩

/-- R482: a field port sends Announce. -/
def ptpAnnounceSend (p : Nat) (t : Quad) (s0 : State) : State :=
  let s := s0.advanceTo t
  let q := 2 + p
  if ¬ s.ptpOn ∨ ¬ s.flag (R.PTP_q_CFG q) F.PTP_q_CFG.EN ∨ ¬ ptpGapOk s p t 72 then s
  else
    let (n, s1) := nextPtpSeq q s
    let tr := s.flag R.TIME_STATUS F.TIME_STATUS.SEATED && !s.flag R.PTP_STATUS F.PTP_STATUS.SYNT_ONLY && decide (s.servo = 4)
    ptpSend ⟨q, 11, n, ⟨0, 0, 0⟩, 0, some (ownAnnounce s q), tr⟩ s1

/-- R472: the write-back of a descriptor at a place of the network bank: a timestamp, or an error code; a received frame with an FCS
error counts (R486). -/
def frameSent (q ofs : Nat) (ts : Option (Quad × Nat)) (sent : Bool) (err : Nat) (s0 : State) : State :=
  let s := match ts with
    | some (t, _) => s0.advanceTo t
    | none => s0
  let bytes := match ts with
    | none => leBytes 4 (1 + 64 * q + 65536 * err) ++ List.replicate 20 0
    | some (t, f) =>
      let g := stamp s q sent t f
      let p := toPtp (stampX s g)
      leBytes 4 (3 + 4 * g.2 + 64 * q + 512 * s.get R.TIME_STATUS F.TIME_STATUS.SEATED + 65536 * err) ++
        leBytes 4 g.1.toNat ++ leBytes 6 p.sec ++ leBytes 2 p.frac ++ leBytes 4 p.ns ++ leBytes 4 0
  let s1 := if q < 2 ∧ ¬ sent ∧ err = 3 then s.incSat (R.UPLINK_p_RX_ERR_CNT q) else s
  s1.memWrite ((bankPlace 6).1 + ofs) bytes

/-! ### Registers (R480, R487, R490, R493, R494) -/

/-- R490: a write of PTP_CTRL. -/
def ptpCtrlWrite (v : Word) (s : State) : State :=
  let old := s.reg R.PTP_CTRL
  let differs (f : Fld) : Bool := decide (fldOf f v ≠ fldOf f old)
  let on := s.ptpOn
  if (on && (differs F.PTP_CTRL.TRANSPORT || differs F.PTP_CTRL.P2P || differs F.PTP_CTRL.DOMAIN)) ||
      decide (fldOf F.PTP_CTRL.TRANSPORT v = 3) || decide (127 < fldOf F.PTP_CTRL.DOMAIN v) then
    s.raise R.PTP_EVENTS F.PTP_EVENTS.CFG_REFUSED
  else
    let w := v &&& 0xFFF3F
    let w1 := if fldOf F.PTP_CTRL.ANN_TIMEOUT w < 2 then setFldOf F.PTP_CTRL.ANN_TIMEOUT 2 w else w
    let s1 := s.setReg R.PTP_CTRL w1
    if fldOf F.PTP_CTRL.EN w = 1 ∧ ¬ on then
      if s.isFollower then s1 else setServo 1 s1
    else if fldOf F.PTP_CTRL.EN w = 0 ∧ on then
      parentRegs (setServo 0 { s1 with ptp := { Ptp.off with out := s1.ptp.out, seqs := s1.ptp.seqs, past := s1.ptp.past } })
    else s1

/-- R493: a write of PTP_SERVO_CFG. -/
def ptpServoCfgWrite (v : Word) (s : State) : State :=
  let w := v &&& 0x1FF00FF
  s.setReg R.PTP_SERVO_CFG (setFldOf F.PTP_SERVO_CFG.SLEW_PPM (clampNat 1 500 (fldOf F.PTP_SERVO_CFG.SLEW_PPM w)) w)

/-- R489: a write of PTP_LOCK_CFG, PTP_PATH_CFG or PTP_SEAT_MAX: a 0 that is not allowed is stored as 1. DEDUCED (assumption 81). -/
def ptpNonzeroWrite (r : Reg) (f g : Fld) (v : Word) (s : State) : State :=
  let w := setFldOf f (fldOf f v) 0
  let w1 := setFldOf g (max 1 (fldOf g v)) w
  s.setReg r w1

/-- R494: a write of PTP_q_CFG. -/
def ptpPortCfgWrite (q : Nat) (v : Word) (s : State) : State :=
  let w := v &&& 0xFF1FF1
  let w1 := setFldOf F.PTP_q_CFG.LOG_SYNC (min 7 (fldOf F.PTP_q_CFG.LOG_SYNC w)) w
  let w2 := setFldOf F.PTP_q_CFG.LOG_ANNOUNCE (min 3 (fldOf F.PTP_q_CFG.LOG_ANNOUNCE w)) w1
  let s1 := s.setReg (R.PTP_q_CFG q) w2
  if q < 2 ∧ s.ptpOn then selectParent s1 else s1

/-- The link of an uplink goes down. -/
def uplinkDown (u : Nat) (s : State) : State := s.setReg (R.UPLINK_p_STATUS u) 0

/-- R487: a write of UPLINK_p_CTRL. -/
def uplinkCtrlWrite (u : Nat) (v : Word) (s : State) : State :=
  let w := v &&& 0xF
  let old := s.reg (R.UPLINK_p_CTRL u)
  if s.uplinkOn u ∧ w.toNat / 2 ≠ old.toNat / 2 % 8 then s.raise R.UPLINK_EVENTS F.UPLINK_EVENTS.CFG_REFUSED
  else
    let s1 := s.setReg (R.UPLINK_p_CTRL u) w
    if w.toNat % 2 = 0 then uplinkDown u s1 else s1

/-! ### Uplink frames (R484) -/

/-- R484: a request that an uplink answers when it is well addressed and asks for the uplink's own address. -/
def uplinkAnswer (u : Nat) (good : Bool) (s : State) : State :=
  if ¬ s.uplinkOn u then s
  else if good then (s.incSat (R.UPLINK_p_RX_CNT u)).incSat (R.UPLINK_p_TX_CNT u)
  else s.incSat (R.UPLINK_p_DISCARD_CNT u)

/-- The IPv6 address of an uplink as four words. -/
def State.ip6 (s : State) (u : Nat) : List Word := (List.range 4).map fun w => s.reg (R.UPLINK_p_IP6_ADDR_w u w)

/-- The link of an uplink is lost (R486). -/
def uplinkLinkDown (u : Nat) (s : State) : State :=
  if ¬ s.flag (R.UPLINK_p_STATUS u) F.UPLINK_p_STATUS.LINK then s
  else (uplinkDown u s).raise R.UPLINK_EVENTS ⟨u, 1⟩

/-- R488: an uplink's link comes up. -/
def uplinkLinkUp (u : Nat) (fault : Bool) (s : State) : State :=
  if ¬ s.uplinkOn u then s
  else
    let c := s.reg (R.UPLINK_p_CTRL u)
    let an := fldOf F.UPLINK_p_CTRL.AN c * fldOf F.UPLINK_p_CTRL.MODE c
    s.setReg (R.UPLINK_p_STATUS u) (BitVec.ofNat 32 (3 + 4 * an + 8 * b2n fault))

/-! ### The commands -/

/-- SYNC (R471). -/
def execSync (u : Fin 2) (t : Quad) (f : Fin 16) (m : PtpMsg) (s : State) : Out := ok (ptpSync u t f m s)
/-- FOLLOW_UP (R471). -/
def execFollowUp (u : Fin 2) (m : PtpMsg) (s : State) : Out := ok (ptpFollowUp u m s)
/-- DELAY_REQ (R482). -/
def execDelayReq (p : Fin 4) (t : Quad) (f : Fin 16) (m : PtpMsg) (s : State) : Out := ok (ptpDelayReq p t f m s)
/-- DELAY_RESP (R475). -/
def execDelayResp (u : Fin 2) (mine : Bool) (m : PtpMsg) (s : State) : Out := ok (ptpDelayResp u mine m s)
/-- PDELAY_REQ (R471, R482). -/
def execPdelayReq (q : Fin 6) (t : Quad) (f : Fin 16) (te : Quad) (fe : Fin 16) (m : PtpMsg) (s : State) : Out :=
  ok (ptpPdelayReq q t f te fe m s)
/-- PDELAY_RESP (R475). -/
def execPdelayResp (u : Fin 2) (t : Quad) (f : Fin 16) (m : PtpMsg) (s : State) : Out := ok (ptpPdelayResp u t f m s)
/-- PDELAY_RESP_FOLLOW_UP (R475). -/
def execPdelayRespFollowUp (u : Fin 2) (m : PtpMsg) (s : State) : Out := ok (ptpPdelayFollowUp u m s)
/-- ANNOUNCE (R474). -/
def execAnnounce (u : Fin 2) (m : PtpMsg) (a : Announce) (s : State) : Out := ok (ptpAnnounce u m a s)
/-- ANNOUNCE_TIMEOUT (R474, R481). -/
def execAnnounceTimeout (u : Fin 2) (clock : Quad) (port : Fin 65536) (s : State) : Out :=
  ok (ptpAnnounceTimeout u clock port s)
/-- HOLD_END (R479). -/
def execHoldEnd (s : State) : Out := ok (ptpHoldEnd s)
/-- DELAY_REQ_SEND (R475). -/
def execDelayReqSend (u : Fin 2) (t : Quad) (f : Fin 16) (s : State) : Out := ok (ptpDelayReqSend u t f s)
/-- SYNC_SEND (R482). -/
def execSyncSend (p : Fin 4) (t : Quad) (f : Fin 16) (s : State) : Out := ok (ptpSyncSend p t f s)
/-- ANNOUNCE_SEND (R482). -/
def execAnnounceSend (p : Fin 4) (t : Quad) (s : State) : Out := ok (ptpAnnounceSend p t s)
/-- FRAME_SENT (R472). -/
def execFrameSent (q : Fin 6) (ofs : Fin 2097129) (ts : Option (Quad × Fin 16)) (sent : Bool) (err : Fin 4) (s : State) : Out :=
  ok (frameSent q ofs (ts.map fun x => (x.1, x.2.val)) sent err s)
/-- PTP_ASYM_WRITE (R480). -/
def execPtpAsymWrite (v : Word) (s : State) : Out := ok (s.setReg R.PTP_ASYM v)
/-- ARP_REQUEST (R484). -/
def execArpRequest (u : Fin 2) (addressed : Bool) (target : Word) (s : State) : Out :=
  ok (uplinkAnswer u (addressed && target == s.reg (R.UPLINK_p_IP4_ADDR u)) s)
/-- NEIGHBOUR_SOLICITATION (R484). -/
def execNeighbourSolicitation (u : Fin 2) (addressed : Bool) (target : List Word) (s : State) : Out :=
  ok (uplinkAnswer u (addressed && target == s.ip6 u) s)
/-- ECHO_REQUEST (R484). -/
def execEchoRequest (u : Fin 2) (addressed : Bool) (s : State) : Out := ok (uplinkAnswer u addressed s)
/-- UPLINK_LINK_DOWN (R486). -/
def execUplinkLinkDown (u : Fin 2) (s : State) : Out := ok (uplinkLinkDown u s)
/-- UPLINK_LINK_UP (R488). -/
def execUplinkLinkUp (u : Fin 2) (fault : Bool) (s : State) : Out := ok (uplinkLinkUp u fault s)

end Sys2Proof.Machine
end

