-- ==== Sys2Proof/Machine/Farm.lean ====
section
/-! DEFINITION. Chapter 16: Drustra links and routes, farm time, FARM points, peers of farm transactions, and twins. -/

namespace Sys2Proof.Machine

/-! ### Links and routes (R586 to R589, R599, R600) -/

/-- The farm table of the active image. -/
def State.farmTable (s : State) : FarmTable := s.image.farm.getD ⟨[], [], 0, []⟩

/-- The place in the farm table of the link at an own port. -/
def State.ownLink (s : State) (p : Nat) : Option Nat :=
  s.farmTable.links.findIdx? fun (a, pa, b, pb) => (a = s.ownDev ∧ pa = p) ∨ (b = s.ownDev ∧ pb = p)

/-- The far end, device and port, of an own port in the farm table. -/
def State.farEnd (s : State) (p : Nat) : Option (Nat × Nat) :=
  (s.farmTable.links.find? fun (a, pa, b, pb) => (a = s.ownDev ∧ pa = p) ∨ (b = s.ownDev ∧ pb = p)).map fun (a, pa, b, pb) =>
    if a = s.ownDev ∧ pa = p then (b, pb) else (a, pa)

/-- One step of a search: the devices next to those of a list over some links. -/
def reachStep (ls : List (Nat × Nat × Nat × Nat)) (l : List Nat) : List Nat :=
  ls.foldl (fun acc (a, _, b, _) =>
    let acc1 := if l.contains a ∧ ¬ acc.contains b then acc ++ [b] else acc
    if l.contains b ∧ ¬ acc1.contains a then acc1 ++ [a] else acc1) l

/-- R589: the number of hops of the shortest path from the own device to device d over some links, when there is one; the search
goes at most n hops. -/
def hopsFrom (ls : List (Nat × Nat × Nat × Nat)) (d : Nat) : Nat → Nat → List Nat → Option Nat
  | 0, k, l => if l.contains d then some k else none
  | n + 1, k, l => if l.contains d then some k else hopsFrom ls d n (k + 1) (reachStep ls l)

/-- R589: the hops to a device over the links that are open. -/
def State.hops (s : State) (d : Nat) : Option Nat :=
  let ls := s.farmTable.links.zipIdx.filterMap fun (x, i) => if s.farm.up.contains i then some x else none
  hopsFrom ls d 8 0 [s.ownDev]

/-- A path to a device is open. -/
def State.reaches (s : State) (d : Nat) : Bool := natBit ((s.reg R.DRUS_REACH).toNat) d

/-- R589: a path of n hops keeps the bound. -/
def pathShort (s : State) (n : Nat) : Bool := decide (n * 1408 + 1024 ≤ s.pg / 8)

/-- R593: a follower cut off from the lead enters holdover. -/
def farmHoldover (s : State) : State :=
  let s1 := (s.put R.DRUS_STATUS F.DRUS_STATUS.FARM_LOCKED 0).put R.DRUS_STATUS F.DRUS_STATUS.HOLDOVER 1
  rateAdjWrite (BitVec.ofInt 32 s.farm.f) { s1 with farm := { s1.farm with outOfStep := true, run := 0, prev := none } }

/-- TWIN_STATE: 0 NONE, 1 PRIMARY, 2 STANDBY_READY, 3 STANDBY_SYNCING, 4 ALONE. -/
def State.twinState (s : State) : Nat := s.get R.DRUS_TWIN_STATUS F.DRUS_TWIN_STATUS.TWIN_STATE

/-- TWIN_STATE, set. -/
def setTwin (n : Nat) (s : State) : State := s.put R.DRUS_TWIN_STATUS F.DRUS_TWIN_STATUS.TWIN_STATE n

/-- R603: a primary whose standby is lost or not READY runs on as ALONE. -/
def twinAlone (s : State) : State :=
  if s.twinState = 1 then (setTwin 4 s).raise R.DRUS_EVENTS F.DRUS_EVENTS.TWIN_DEGRADED else s

/-- R599: a device becomes unreachable. -/
def deviceLost (d : Nat) (s : State) : State :=
  let s1 := (s.raise R.DRUS_EVENTS F.DRUS_EVENTS.DEVICE_LOST).incSat R.DRUS_LOST_CNT
  let s2 := s1.setReg R.DRUS_ATTN_DEV (BitVec.ofNat 32 (natClrBit (s1.reg R.DRUS_ATTN_DEV).toNat d))
  let s3 := txLost 5 d { s2 with farm := { s2.farm with lostAge := tset 0 s2.farm.lostAge d 0 } }
  let s4 := if d = 0 ∧ s.isFollower then farmHoldover s3 else s3
  if s.get R.DRUS_TWIN_CFG F.DRUS_TWIN_CFG.PARTNER = d then twinAlone s4 else s4

/-- R600, R593: a device returns. -/
def deviceJoined (d : Nat) (s : State) : State :=
  let s1 := s.raise R.DRUS_EVENTS F.DRUS_EVENTS.DEVICE_JOINED
  let s2 := { s1 with farm := { s1.farm with lostAge := tset 0 s1.farm.lostAge d 0 } }
  if d = 0 ∧ s.isFollower then s2.put R.DRUS_STATUS F.DRUS_STATUS.HOLDOVER 0 else s2

/-- R589, R599, R600: the routes recomputed over the open links. -/
def reroute (s : State) : State :=
  let others := s.farmTable.devs.filter fun d => d ≠ s.ownDev ∧ d < 8
  let was := s.reg R.DRUS_REACH
  let now := others.filter fun d => (s.hops d).isSome
  let s1 := s.setReg R.DRUS_REACH (BitVec.ofNat 32 (now.foldl natSetBit 0 + was.toNat / 256 * 256))
  let s2 := s1.forAll (others.filter fun d => natBit was.toNat d && !now.contains d) deviceLost
  let s3 := s2.forAll (now.filter fun d => !natBit was.toNat d) deviceJoined
  s3.raiseIf (now.any fun d => !pathShort s ((s.hops d).getD 0)) R.DRUS_EVENTS F.DRUS_EVENTS.PATH_LONG

/-- R588: the reason to refuse a link, or 0. -/
def linkRefuse (s : State) (p : Nat) (h : FarmHello) : Nat :=
  let named (t : Option FarmTable) : Bool := match t with
    | none => false
    | some x => x.links.any fun (a, pa, b, pb) =>
      decide ((a, pa, b, pb) = (s.ownDev, p, h.dev, h.port)) || decide ((a, pa, b, pb) = (h.dev, h.port, s.ownDev, p))
  let fits (t : FarmTable) (pd : Nat) (cl : List Nat) : Bool := decide (t.period = pd) && decide (t.classes = cl)
  let mine := (List.range 4).map fun n => (s.reg (R.HEAD_n_CLASS_CFG n)).toNat
  if h.dev = s.ownDev then 1
  else if ¬ (named s.image.farm && named h.table) then 2
  else if s.image.farm ≠ h.table then 3
  else if ¬ (fits s.farmTable (s.reg R.HEAD_PERIOD).toNat mine && fits s.farmTable h.period h.classes) then 4
  else 0

/-- R587: an own link goes down. -/
def portDown (p : Nat) (s : State) : State :=
  if ¬ s.flag (R.DRUS_p_STATUS p) F.DRUS_p_STATUS.UP then s
  else
    let s1 := ((s.put (R.DRUS_p_STATUS p) F.DRUS_p_STATUS.UP 0).put (R.DRUS_p_STATUS p) F.DRUS_p_STATUS.PEER 0).raise
      R.DRUS_EVENTS F.DRUS_EVENTS.LINK_DOWN
    match s.ownLink p with
    | some i => reroute { s1 with farm := { s1.farm with up := s1.farm.up.filter fun k => k ≠ i } }
    | none => s1

/-- R587: a link goes down. -/
def linkDown (l : FarmLink) (s : State) : State :=
  match l with
  | .own p => portDown p s
  | .remote i => reroute { s with farm := { s.farm with up := s.farm.up.filter fun k => k ≠ i } }

/-- R588: an own link trains and opens, or is refused. -/
def portUp (p : Nat) (h : FarmHello) (oneLane : Bool) (s : State) : State :=
  if ¬ (s.flag R.DRUS_CTRL F.DRUS_CTRL.EN && s.flag (R.DRUS_p_CTRL p) F.DRUS_p_CTRL.EN) then s
  else
    let c := linkRefuse s p h
    let s1 := (s.put (R.DRUS_p_STATUS p) F.DRUS_p_STATUS.REFUSE c).put (R.DRUS_p_STATUS p) F.DRUS_p_STATUS.ONE_LANE (b2n oneLane)
    if c ≠ 0 then s1.raise R.DRUS_EVENTS F.DRUS_EVENTS.CFG_REFUSED
    else
      let s2 := (s1.put (R.DRUS_p_STATUS p) F.DRUS_p_STATUS.UP 1).put (R.DRUS_p_STATUS p) F.DRUS_p_STATUS.PEER h.dev
      let new := (s.ownLink p).toList ++ h.open_
      reroute { s2 with farm := { s2.farm with up := s2.farm.up ++ new.filter fun i => !s2.farm.up.contains i } }

/-- R588, R600: a link comes up; of another device's link the farm only learns that it is open. -/
def linkUp (l : FarmLink) (h : FarmHello) (oneLane : Bool) (s : State) : State :=
  match l with
  | .own p => portUp p h oneLane s
  | .remote i => if s.farm.up.contains i then s else reroute { s with farm := { s.farm with up := s.farm.up ++ [i] } }

/-- R587: a flit is replayed. -/
def flitReplay (p : Nat) (crc : Bool) (s : State) : State :=
  let s1 := s.incSat (R.DRUS_p_RETRY_CNT p)
  if crc then s1.incSat (R.DRUS_p_CRC_CNT p) else s1

/-- R605: a write of DRUS_CTRL; clearing EN closes the ports. -/
def drusCtrlWrite (v : Word) (s : State) : State :=
  let s1 := s.setReg R.DRUS_CTRL (v &&& 3)
  if fldOf F.DRUS_CTRL.EN v = 1 then s1 else s1.forAll (List.range 3) portDown

/-- R652: the test mode of a Drustra port, LOOP in bits 1:0 and PRBS in bit 2, is that of both its lanes. -/
def drusTest (p m : Nat) (s : State) : State :=
  let lane := fun j (t : State) => (t.put (R.LINKTEST_l_CTRL (2 + 2 * p + j)) F.LINKTEST_l_CTRL.LOOP (m % 4)).put
    (R.LINKTEST_l_CTRL (2 + 2 * p + j)) F.LINKTEST_l_CTRL.PRBS (m / 4 % 2)
  (lane 1 (lane 0 s)).setReg (R.DRUS_p_CTRL p) ((s.reg (R.DRUS_p_CTRL p) &&& 1) ||| BitVec.ofNat 32 (2 * m))

/-- R605, R652: a write of DRUS_p_CTRL; clearing EN closes the port, setting it clears the test mode, and a test mode written while EN
is 1 is refused. DEDUCED (assumption 255). -/
def drusPortWrite (p : Nat) (v : Word) (s : State) : State :=
  let m := v.toNat / 2 % 8
  if s.flag (R.DRUS_p_CTRL p) F.DRUS_p_CTRL.EN ∧ m ≠ 0 then s.raise R.DRUS_EVENTS F.DRUS_EVENTS.CFG_REFUSED
  else
    let s1 := s.put (R.DRUS_p_CTRL p) F.DRUS_p_CTRL.EN (v.toNat % 2)
    if fldOf F.DRUS_p_CTRL.EN v = 1 then drusTest p 0 s1
    else drusTest p (if m % 4 = 3 then m - 3 else m) (portDown p s1)

/-! ### Farm time (R591 to R593) -/

/-- R591: FARM_LOCKED by consecutive samples. -/
def farmLock (theta : Int) (s : State) : State :=
  if s.flag R.DRUS_STATUS F.DRUS_STATUS.FARM_LOCKED then
    if 96 < theta.natAbs then
      ({ s with farm := { s.farm with run := 0 } }.put R.DRUS_STATUS F.DRUS_STATUS.FARM_LOCKED 0).raise R.DRUS_EVENTS
        F.DRUS_EVENTS.LOCK_LOST
    else s
  else
    let run := if theta.natAbs ≤ 64 then s.farm.run + 1 else 0
    if 8 ≤ run then
      ({ s with farm := { s.farm with run := 0, outOfStep := false } }.put R.DRUS_STATUS F.DRUS_STATUS.FARM_LOCKED 1).put
        R.DRUS_STATUS F.DRUS_STATUS.HOLDOVER 0
    else { s with farm := { s.farm with run := run } }

/-- R591: first lock seats the clock by the rows of R477; the servo of PTP stays as it was. -/
def farmSeat (theta : Int) (s : State) : State :=
  let s1 := seatAtLock theta s
  let t : State := s1.put R.PTP_STATUS F.PTP_STATUS.SERVO s.servo
  if s1.ptp.waitSeat then { t with ptp := { t.ptp with waitSeat := false }, farm := { t.farm with waitSeat := true, run := 0 } }
  else { t with farm := { t.farm with tracking := true, run := 0 } }

/-- R591: a follower's farm time unit takes an offset θ, measured with t2 at a raw grain. -/
def farmServo (theta : Int) (t2 : Quad) (s : State) : State :=
  let t := match s.farm.prev with
    | some (_, t0) => (t2 - t0).toNat
    | none => 0
  let th0 := (s.farm.prev.map (·.1)).getD theta
  let seated := s.flag R.TIME_STATUS F.TIME_STATUS.SEATED
  let s1 := { s with farm := { s.farm with prev := some (theta, t2) } }.setReg R.DRUS_OFFSET (BitVec.ofInt 32 theta)
  if s.farm.tracking ∨ (s.farm.waitSeat ∧ seated) then
    let slew := if s.flag R.PTP_STATUS F.PTP_STATUS.SYNT_ONLY then 0 else 100
    let (f, r) := if t = 0 then (s.farm.f, s.farm.f) else
      (if slew = 0 then (clampInt (-rateLimit) rateLimit (s.farm.f - rateOf theta t 5),
        clampInt (-rateLimit) rateLimit (s.farm.f - rateOf theta t 5)) else servoStep s.farm.f theta t 2 5 slew)
    farmLock theta (rateAdjWrite (BitVec.ofInt 32 r)
      { s1 with farm := { s1.farm with f := f, tracking := true, waitSeat := false } })
  else
    let f := if t = 0 then s.farm.f else clampInt (-rateLimit) rateLimit (s.farm.f - rateOf (theta - th0) t 0)
    let run := if t ≠ 0 ∧ (theta - th0).natAbs ≤ 16 then s.farm.run + 1 else 0
    let s2 := rateAdjWrite (BitVec.ofInt 32 f) { s1 with farm := { s1.farm with f := f, run := run } }
    if 8 ≤ run ∧ ¬ s.farm.waitSeat then farmSeat theta s2 else s2

/-- R591: θ, reported relative to the standing offset in syntonise-only operation. -/
def farmTheta (s : State) (theta : Int) : Int :=
  if s.flag R.PTP_STATUS F.PTP_STATUS.SYNT_ONLY then theta + 16 * (s.reg64 R.PTP_STANDING_LO R.PTP_STANDING_HI).toInt else theta

/-- A timestamp at a Drustra port in sixteenths, with its compensation, and its raw grain. -/
def drusStamp (s : State) (p : Nat) (sent : Bool) (t : Quad) (f : Nat) : Int × Quad :=
  let c := s16 (s.get (R.DRUS_p_COMP p) (if sent then F.DRUS_p_COMP.EGRESS else F.DRUS_p_COMP.INGRESS))
  let x : Int := 16 * t.toNat + f + c
  (16 * s.vAt (BitVec.ofInt 64 (x / 16)) + x % 16, BitVec.ofInt 64 (x / 16))

/-- R591: the own port on the path to the lead: the lowest-numbered one that a shortest path leaves by. -/
def State.leadPort (s : State) : Option Nat :=
  let ls := s.farmTable.links.zipIdx.filterMap fun (x, i) => if s.farm.up.contains i then some x else none
  let here := (s.hops 0).getD 0
  (List.range 3).find? fun p => s.flag (R.DRUS_p_STATUS p) F.DRUS_p_STATUS.UP &&
    (match s.farEnd p with
      | some (d, _) => decide ((hopsFrom ls 0 8 0 [d]).map (· + 1) = some here)
      | none => false)

/-- R591: a two-way timestamp exchange at an own port: t1 and t4 in the lead's sixteenths at the far end, residence times
taken off; t2 the own ingress and t3 the own egress. DEDUCED (assumption 84). -/
def farmExchange (p : Nat) (t1 : Int) (t2 : Quad) (f2 : Nat) (t3 : Quad) (f3 : Nat) (t4 : Int) (s0 : State) : State :=
  let s := s0.advanceTo t3
  if ¬ s.flag (R.DRUS_p_STATUS p) F.DRUS_p_STATUS.UP then s
  else
    let (x2, g2) := drusStamp s p false t2 f2
    let (x3, _) := drusStamp s p true t3 f3
    let s1 := s.setReg (R.DRUS_p_DELAY p) (BitVec.ofInt 32 (((x2 - t1) + (t4 - x3)) / 2))
    if s.isFollower ∧ s.leadPort = some p ∧ ¬ s.flag R.DRUS_STATUS F.DRUS_STATUS.HOLDOVER then
      farmServo (farmTheta s (((x2 - t1) - (t4 - x3)) / 2)) g2 s1
    else s1

/-- R592: the interval in progress takes a correction. -/
def takeDelta (d : Int) (s : State) : State :=
  let sh := (s.reg R.HEAD_SHIFT).toInt
  { s with head := { s.head with
    nextActual := s.headV.toInt + s.pg + d, nextShift := sh + d, awaitLead := false } }

/-- R592: the virtual time by which the message of the interval in progress must have come. -/
def State.headMsgLimit (s : State) : Int := s.headV.toInt + s.pg - s.pSlew - 1024

/-- R592, R593: a follower receives a headland message: base index, S and δ of the lead, and that the lead runs. DEDUCED (assumption 83). -/
def headlandMessage (b : Nat) (sh d : Int) (running : Bool) (s : State) : State :=
  if ¬ s.isFollower then s
  else
    let s1 := { s with head := { s.head with leadRunning := running, leadShift := sh } }
    if ¬ (s.headRun ∧ s.head.armed ∧ s.flag R.HEAD_STATUS F.HEAD_STATUS.RUNNING) then s1
    else if b + 1 = s.head.nextB ∧ s.vNow < s.headMsgLimit then
      let own := (s.reg R.HEAD_SHIFT).toInt
      let s2 := if own = sh then s1 else setTarget sh s1
      takeDelta (clampInt (-s.pSlew) s.pSlew (d + sh - own)) { s2 with farm := { s2.farm with missed := false } }
    else
      let s2 := takeDelta 0 s1
      { setTarget sh s2 with farm := { s2.farm with missed := false } }

/-- R592: no headland message has arrived in time. -/
def headlandMessageMissed (s : State) : State :=
  if ¬ (s.isFollower ∧ s.head.awaitLead) then s
  else
    let s1 := takeDelta 0 (s.advanceToV s.headMsgLimit)
    { s1 with farm := { s1.farm with missed := true } }.raise R.DRUS_EVENTS F.DRUS_EVENTS.LOCK_LOST

/-! ### FARM points (R593, R595, R599) -/

/-- R593, R595, R599: the FARM inputs of a device take their substitutes. -/
def farmSubstituted (s : State) (d : Nat) : Bool :=
  s.farm.outOfStep || s.farm.unlocked.contains d ||
    (!s.reaches d && decide (s.get R.DRUS_FARM_LOST_LIMIT ⟨0, 4⟩ ≤ tget 0 s.farm.lostAge d))

/-- R595: FARM values of another device arrive: their base index, whether the device is in step, and values by point number. -/
def farmDelivery (d b : Nat) (inStep : Bool) (vals : List (Nat × Quad)) (s : State) : State :=
  if ¬ s.reaches d then s
  else
    let u := if inStep then s.farm.unlocked.filter (· ≠ d) else
      (if s.farm.unlocked.contains d then s.farm.unlocked else s.farm.unlocked ++ [d])
    { s with farm := { s.farm with unlocked := u } }.forAll vals fun (n, v) t =>
      let r := 5 * 2 ^ 28 + d * 65536 + n % 65536
      (t.putInputs (refAddr r) (leBytes 8 v.toNat)).setAge (refSource r) b

/-- R595: the FARM inputs at a headland: their quality, and substitutes where they are due. DEDUCED (assumption 85). -/
def farmInputs (s : State) : State :=
  s.forAll s.image.farmIns fun x t =>
    let d := x.ref / 65536 % 8
    if farmSubstituted s d then
      (substitute t (refAddr x.ref) 8 (if x.subst = 0 then 0 else if x.subst = 1 then 1 else 2)
        (leBytes 8 (normCell x.ty x.fixed).toNat)).setQual (refSource x.ref) 2
    else t.setQual (refSource x.ref) (b2n (s.reaches d))

/-- R599: the base headlands since devices were lost are counted. -/
def farmAges (s : State) : State :=
  s.forAll (s.farmTable.devs.filter fun d => d ≠ s.ownDev ∧ d < 8) fun d t =>
    if t.reaches d then t else { t with farm := { t.farm with lostAge := tset 0 t.farm.lostAge d (tget 0 t.farm.lostAge d + 1) } }

/-- R595, R592, R603: at H + 64 the FARM values, the lead's headland message and a primary's heartbeat are sent.
DESIGN CHOICE (assumption 88). -/
def farmSend (s : State) : State :=
  let vals := s.image.farmOuts.map fun (r, t) => (r % 65536, imgRead s.img.sealed r t)
  let s1 := if s.standby then s else { s with farm := { s.farm with sent := vals, sentAt := s.headIndex } }
  let s2 := if s.isFollower then s1 else { s1 with farm := { s1.farm with headMsg := s.headIndex } }
  if s.twinState = 1 ∨ s.twinState = 4 then { s2 with farm := { s2.farm with beatSent := s.headIndex } } else s2

/-- R596: a forwarded event arrives: its source, block, bit and code, bits 51:20 of V, and whether the source asserts ATTN_L. -/
def farmEvent (d block bit code v : Nat) (attn : Bool) (s : State) : State :=
  let m := (s.reg R.DRUS_ATTN_DEV).toNat
  let s1 := s.setReg R.DRUS_ATTN_DEV (BitVec.ofNat 32 (if attn then natSetBit m d else natClrBit m d))
  hwPostCfg (s.reg R.DRUS_EVT_DESC) (BitVec.ofNat 64 (d + 256 * block + 65536 * bit + 2 ^ 24 * code + 2 ^ 32 * v)) s1

/-! ### Peers (R212, R593, R597, R598) -/

/-- A variable of an entry written from outside, and saved when it is persisted (R217). -/
def pokeEntry (key cell : Nat) (v : Quad) (s : State) : State :=
  match findPub s.image (key / 256) (key % 256) with
  | some (m, p, d) => persistWritten key m p d (s.varPoke m d cell v)
  | none => s

/-- R212: a peer's check of an action, as LOCAL_OD's. -/
def peerActionOk (s : State) (role : Nat) (a : Nat × EType × Quad) : Bool :=
  match pubScalar s.image (a.1 / 256) (a.1 % 256) with
  | some (_, p, v) => decide (v.ty = a.2.1) && natBit p.writeRoles role && inRange s.image (a.1 / 256) (a.1 % 256) a.2.1 a.2.2
  | none => false

/-- R212, R235, R593: the reason for which a peer votes NO on a coordinator's actions, beside the records ps that it holds; 0 is a YES.
DESIGN CHOICE (assumption 240). -/
def peerReason (role : Nat) (ps : List PeerTxn) (l : List (Nat × EType × Quad)) (s : State) : Nat :=
  if s.farm.outOfStep then 2
  else if 64 ≤ ps.length ∨ 4096 < (ps.map fun x => x.actions.length).sum + l.length then 3
  else if l.all (peerActionOk s role) then 0 else 1

/-- R212, R593: a peer stages a coordinator's actions and votes. -/
def peerActions (c h b role : Nat) (l : List (Nat × EType × Quad)) (s : State) : State :=
  let ps := s.txn.peers.filter fun x => ¬ (x.coord = c ∧ x.handle = h)
  let why := peerReason role ps l s
  { s with txn := { s.txn with
    peers := if why = 0 then ps ++ [⟨c, h, b, l, none, false, none⟩] else ps, peerVote := some (c, h, decide (why = 0), why) } }

/-- A peer record changed. -/
def modPeer (c h : Nat) (f : PeerTxn → PeerTxn) (s : State) : State :=
  { s with txn := { s.txn with peers := s.txn.peers.map fun x => if x.coord = c ∧ x.handle = h then f x else x } }

/-- A peer record discarded. -/
def dropPeer (c h : Nat) (s : State) : State :=
  { s with txn := { s.txn with peers := s.txn.peers.filter fun x => ¬ (x.coord = c ∧ x.handle = h) } }

/-- R597: the decision message reaches the peer. -/
def peerDecision (c h : Nat) (commit : Bool) (s : State) : State :=
  if commit then modPeer c h (fun x => { x with decision := some true }) s else dropPeer c h s

/-- R597, R598: at a headland the committed records apply, and those without a decision are in doubt. DEDUCED (assumption 91). -/
def peerHeadland (s : State) : State :=
  let b := s.headIndex
  s.forAll s.txn.peers fun x t =>
    if b < x.at_ then t
    else if x.decision = some true then dropPeer x.coord x.handle (t.forAll x.actions fun (k, _, v) u => pokeEntry k 0 v u)
    else if x.doubtSince.isNone then modPeer x.coord x.handle (fun y => { y with doubtSince := some b }) t
    else t

/-- R598: the coordinator answers a peer in doubt: the decision, or that it no longer holds the record. -/
def doubtQuery (c h : Nat) (answer : Option Bool) (s : State) : State :=
  match s.txn.peers.find? fun x => x.coord = c ∧ x.handle = h with
  | none => s
  | some x =>
    if x.doubtSince.isNone ∨ ¬ s.reaches c then s
    else match answer with
      | some true => peerDecision c h true s
      | some false => dropPeer c h s
      | none => (dropPeer c h s).raise R.DRUS_EVENTS F.DRUS_EVENTS.PEER_DOUBT_EXPIRED

/-- R598: the records in doubt for longer than DRUS_DOUBT_LIMIT are discarded. -/
def doubtExpiry (s : State) : State :=
  let lim := s.get R.DRUS_DOUBT_LIMIT ⟨0, 16⟩
  let late := s.txn.peers.filter fun x => match x.doubtSince with
    | some b => decide (b + lim ≤ s.headIndex)
    | none => false
  if late = [] then s
  else (s.forAll late fun x t => dropPeer x.coord x.handle t).raise R.DRUS_EVENTS F.DRUS_EVENTS.PEER_DOUBT_EXPIRED

/-! ### Twins (R601 to R603) -/

/-- The twin's state, changed. -/
def modTwin (f : Twin → Twin) (s : State) : State := { s with farm := { s.farm with twin := f s.farm.twin } }

/-- R603: a device that sees a higher EPOCH becomes standby. DEDUCED (assumption 87). -/
def twinYield (epoch : Nat) (s : State) : State :=
  let own := s.get R.DRUS_TWIN_STATUS F.DRUS_TWIN_STATUS.EPOCH
  let higher : Bool := decide (epoch ≠ own) && decide ((epoch + 65536 - own) % 65536 < 32768)
  if ¬ higher then s
  else
    let s1 := s.put R.DRUS_TWIN_STATUS F.DRUS_TWIN_STATUS.EPOCH epoch
    if s.twinState = 1 ∨ s.twinState = 4 then setTwin 3 s1 else s1

/-- R603: a message of the twin: its EPOCH and index as the primary's heartbeat, or from a standby whether it is READY.
DEDUCED (assumption 86). -/
def twinHeartbeat (primary : Bool) (epoch index : Nat) (ready : Bool) (s : State) : State :=
  if s.twinState = 0 then s
  else if primary then twinYield epoch (modTwin (fun w => { w with beat := some index }) s)
  else if s.twinState = 1 ∧ ¬ ready then twinAlone s
  else if s.twinState = 4 ∧ ready then setTwin 1 s
  else s

/-- R603: the twin's output frame is seen at a field port. -/
def twinFrame (epoch : Nat) (s : State) : State :=
  if s.twinState = 0 then s else twinYield epoch (modTwin (fun w => { w with frameSeen := true }) s)

/-- R602: the mirror of a headland reaches a standby. -/
def twinMirror (m : TwinMirror) (s : State) : State :=
  if ¬ s.standby then s
  else
    let s1 := { s with
      inputs := m.inputs.foldl (fun t (a, v) => tset 0 t a v) s.inputs
      ages := m.ages.foldl (fun t (a, v) => tset 0 t a v) s.ages
      quals := m.quals.foldl (fun t (a, v) => tset 0 t a v) s.quals }
    let s2 := s1.forAll m.stations fun (p, n, st) t => t.put (R.FIELD_p_s_STATUS p n) F.FIELD_p_s_STATUS.STATE st
    let s3 := s2.forAll m.writes fun (k, c, v) t => pokeEntry k c v t
    let s4 := s3.forAll m.forces fun (e, p, c, v) t =>
      ((t.setReg (R.FORCE_e_POINT (e % 1024)) p).setReg (R.FORCE_e_CTRL (e % 1024)) (c &&& 0x77)).setReg64
        (R.FORCE_e_VALUE_LO (e % 1024)) (R.FORCE_e_VALUE_HI (e % 1024)) v
    let s5 := modTwin (fun w => { w with cycles := m.cycles, txns := m.txns }) s4
    if ¬ m.complete ∨ m.index ≠ s.headIndex then s5
    else
      let cut (x : Snapshot) : Snapshot := if x.index = m.index then
        { x with
          vals := m.inputs.foldl (fun t (a, v) => tset 0 t a v) x.vals
          ages := m.ages.foldl (fun t (a, v) => tset 0 t a v) x.ages
          quals := m.quals.foldl (fun t (a, v) => tset 0 t a v) x.quals } else x
      let s6 := modTwin (fun w => { w with mirrorAt := m.index }) s5
      let s7 : State := { s6 with collie := { s6.collie with snaps := s6.collie.snaps.map cut } }
      if s7.ctrlRunning && decide (s7.twinState = 2) then s7.forAll (List.range 4) sliceReady else s7

/-- R602: the mirror is still incomplete at H + 8,192: the class cycle stays unrun. -/
def twinIncomplete (s : State) : State :=
  if ¬ s.standby ∨ s.farm.twin.mirrorAt = s.headIndex then s
  else setTwin 3 (s.advanceTo (s.headRaw + 8192))

/-- R602: a standby has copied the primary's checkpoint cut: retained images by task. -/
def twinCutCopied (l : List (Nat × List Quad)) (s : State) : State :=
  if s.twinState ≠ 3 then s
  else
    let s1 := s.forAll l fun (t, cells) u =>
      let img := cells.zipIdx.foldl (fun m (v, i) => tset 0 m i v) ([] : Tbl Quad)
      u.setRetained t ⟨img, [], false, true⟩
    modTwin (fun w => { w with rejoin := true }) s1

/-- R603: at H + P/4 a standby finds the primary silent. -/
def twinTakeover (s : State) : State :=
  let silent : Bool := decide (s.farm.twin.beat ≠ some s.headIndex) && !s.farm.twin.frameSeen
  if ¬ (s.standby && silent) then s
  else
    let s1 := s.advanceToV (s.headV.toInt + (s.pg / 4 : Nat))
    if s.twinState = 2 then modTwin (fun w => { w with takeover := true }) s1
    else s1.raise R.DRUS_EVENTS F.DRUS_EVENTS.TWIN_FAILED

/-- R603: what the field ports of a new primary continue: the CYCLE, and decision records of the mirrored transactions. -/
def takePorts (s : State) : State :=
  let s1 := s.forAll s.farm.twin.cycles fun (p, c, b) t =>
    let n := (t.headIndex - b) / t.fcK p - 1
    let q := (c + n) % 0xFFFFFFFF
    (t.setFport p { t.fport p with frames := (t.fport p).frames + 1, running := true }).setReg (R.FIELD_p_CYCLE_NUM p)
      (BitVec.ofNat 32 q)
  s1.forAll s.farm.twin.txns fun x t =>
    let add := x.ports.map fun p =>
      (⟨p, x.handle % 64, x.handle, x.commit, t.fieldFrom p t.headIndex, x.v, t.get R.TXN_CFG F.TXN_CFG.DEC_REPEAT⟩ : DecRepeat)
    { t with txn := { t.txn with repeats := t.txn.repeats ++ add } }

/-- R602, R603: what a headland brings for a twin, before the stations are judged: a takeover, or a return to step. -/
def twinHeadland (s : State) : State :=
  let w := s.farm.twin
  let s1 := modTwin (fun x => { x with frameSeen := false, takeover := false, rejoin := false }) s
  if w.takeover then
    let e := s.get R.DRUS_TWIN_STATUS F.DRUS_TWIN_STATUS.EPOCH
    takePorts ((setTwin 1 (s1.put R.DRUS_TWIN_STATUS F.DRUS_TWIN_STATUS.EPOCH ((e + 1) % 65536))).raise R.DRUS_EVENTS
      F.DRUS_EVENTS.TWIN_TAKEOVER)
  else if w.rejoin ∧ s.twinState = 3 then setTwin 2 s1
  else s1

/-- R601: the twin pairing of an image with some port control words may be used. -/
def twinOk (s : State) (img : Image) (pair : Nat → Bool) (axes : Bool) : Bool :=
  let partner := fldOf F.DRUS_TWIN_CFG.PARTNER img.twin
  match img.farm with
  | none => false
  | some t =>
    t.links.any (fun (a, _, b, _) => decide ((a, b) = (s.ownDev, partner)) || decide ((a, b) = (partner, s.ownDev))) &&
      img.outs.all (fun o => decide (refKind o.ref = 2) || decide (refKind o.ref = 5)) && !axes && (pair 0 || pair 2) &&
      !((decide (s.ownDev = 0) || decide (partner = 0)) && decide (2 < t.devs.length))

/-- R589: an allowed topology: a chain or ring, or a full mesh of 3 or 4, each device at most once, with every shortest path
short enough for a period in grains. -/
def farmOk (t : FarmTable) (pg : Nat) : Bool :=
  let n := t.devs.length
  let deg (d : Nat) : Nat := (t.links.filter fun (a, _, b, _) => decide (a = d) || decide (b = d)).length
  let conn (d : Nat) : Bool := t.devs.all fun e => (hopsFrom t.links e 8 0 [d]).isSome
  let ones := (t.devs.filter fun d => deg d = 1).length
  let chain : Bool := decide (2 ≤ n ∧ n ≤ 8 ∧ t.links.length + 1 = n ∧ ones = 2) && t.devs.all fun d => decide (deg d ≤ 2)
  let ring : Bool := decide (3 ≤ n ∧ n ≤ 8 ∧ t.links.length = n) && t.devs.all fun d => decide (deg d = 2)
  let mesh : Bool := decide ((n = 3 ∨ n = 4) ∧ t.links.length = n * (n - 1) / 2) && t.devs.all fun d => decide (deg d = n - 1)
  let short : Bool := t.devs.all fun d => t.devs.all fun e => decide ((hopsFrom t.links e 8 0 [d]).getD 9 * 1408 + 1024 ≤ pg / 8)
  t.devs.all conn && (chain || ring || mesh) && short

/-! ### The commands -/

/-- LINK_UP (R588, R600). -/
def execLinkUp (l : FarmLink) (h : FarmHello) (oneLane : Bool) (s : State) : Out := ok (linkUp l h oneLane s)
/-- LINK_DOWN (R587, R589, R599). -/
def execLinkDown (l : FarmLink) (s : State) : Out := ok (linkDown l s)
/-- LANE_FAILURE (R586). -/
def execLaneFailure (p : Fin 3) (s : State) : Out := ok (s.put (R.DRUS_p_STATUS p) F.DRUS_p_STATUS.ONE_LANE 1)
/-- FLIT_REPLAY (R587). -/
def execFlitReplay (p : Fin 3) (crc : Bool) (s : State) : Out := ok (flitReplay p crc s)
/-- FARM_TIME_EXCHANGE (R591). -/
def execFarmTimeExchange (p : Fin 3) (t1 : Int) (t2 : Quad) (f2 : Fin 16) (t3 : Quad) (f3 : Fin 16) (t4 : Int) (s : State) : Out :=
  ok (farmExchange p t1 t2 f2 t3 f3 t4 s)
/-- HEADLAND_MESSAGE (R592, R593). -/
def execHeadlandMessage (b : Nat) (shift delta : Int) (running : Bool) (s : State) : Out :=
  ok (headlandMessage b shift delta running s)
/-- HEADLAND_MESSAGE_MISSED (R592). -/
def execHeadlandMessageMissed (s : State) : Out := ok (headlandMessageMissed s)
/-- FARM_VALUE_DELIVERY (R595). -/
def execFarmValueDelivery (d : Fin 8) (b : Nat) (inStep : Bool) (vals : List (Nat × Quad)) (s : State) : Out :=
  ok (farmDelivery d b inStep vals s)
/-- FARM_EVENT_FORWARD (R596). -/
def execFarmEventForward (d : Fin 8) (block : Fin 256) (bit : Fin 32) (code : Fin 256) (v : Word) (attn : Bool) (s : State) : Out :=
  ok (farmEvent d block bit code v.toNat attn s)
/-- PEER_ACTIONS (R212, R593). -/
def execPeerActions (c : Fin 8) (h : BitVec 16) (b : Nat) (role : Fin 4) (l : List (Fin 16777216 × EType × Quad)) (s : State) : Out :=
  ok (peerActions c h.toNat b role (l.map fun x => (x.1.val, x.2)) s)
/-- PEER_DECISION (R597). -/
def execPeerDecision (c : Fin 8) (h : BitVec 16) (commit : Bool) (s : State) : Out := ok (peerDecision c h.toNat commit s)
/-- DOUBT_QUERY (R598): on the peer's side, or on the coordinator's. -/
def execDoubtQuery (d : Fin 8) (h : BitVec 16) (x : DoubtAsk) (s : State) : Out :=
  match x with
  | .asks answer => ok (doubtQuery d h.toNat answer s)
  | .asked => ok (doubtAsked d h.toNat s)
/-- DOUBT_LIMIT_EXPIRY (R598). -/
def execDoubtLimitExpiry (s : State) : Out := ok (doubtExpiry s)
/-- TWIN_MIRROR (R602). -/
def execTwinMirror (m : TwinMirror) (s : State) : Out := ok (twinMirror m s)
/-- TWIN_MIRROR_INCOMPLETE (R602). -/
def execTwinMirrorIncomplete (s : State) : Out := ok (twinIncomplete s)
/-- TWIN_HEARTBEAT (R603). -/
def execTwinHeartbeat (primary : Bool) (epoch : Fin 65536) (index : Nat) (ready : Bool) (s : State) : Out :=
  ok (twinHeartbeat primary epoch index ready s)
/-- TWIN_TAKEOVER (R603). -/
def execTwinTakeover (s : State) : Out := ok (twinTakeover s)
/-- TWIN_CUT_COPIED (R602). -/
def execTwinCutCopied (l : List (Nat × List Quad)) (s : State) : Out := ok (twinCutCopied l s)
/-- TWIN_FRAME_SEEN (R603). -/
def execTwinFrameSeen (epoch : Fin 65536) (s : State) : Out := ok (twinFrame epoch s)

end Sys2Proof.Machine
end

