-- ==== Sys2Proof/Machine/JoaWrite.lean ====
section
/-! DEFINITION. Chapter 11: writes of published variables by JOA, and the items of requests that wait for a headland (R441). -/

namespace Sys2Proof.Machine

/-- R419, R422: the cells that the bytes of a published variable spell. -/
def pubCells (v : VarDesc) (data : List Byte) : List Quad :=
  (chunksOf (cellBytes v) data).map fun l =>
    let x := BitVec.ofNat 64 (leNat l)
    if v.kind = 6 then x else normCell v.ty x

/-- R419, R422: the bytes of a published variable's valid copy. -/
def pubBytes (s : State) (m : Module) (v : VarDesc) : List Byte :=
  (List.range v.elems).flatMap fun i => leBytes (cellBytes v) (s.varCell m v i).toNat

/-- R423, R441: a published variable takes a value; a persisted one is saved. -/
def pubWrite (key : Nat) (m : Module) (p : PubEntry) (v : VarDesc) (data : List Byte) (s : State) : State :=
  persistVar key m p v (s.forAll (pubCells v data).zipIdx fun (x, i) t => t.varPoke m v i x)

/-! ### Items of requests -/

/-- A request in progress of a session. -/
def State.joaReq (s : State) (k req : Nat) : Option JoaPend := (s.session k).pend.find? fun p => p.req = req
/-- An item of a request in progress. -/
def State.joaItem (s : State) (k req i : Nat) : Option JoaItem := (s.joaReq k req).bind fun p => p.items[i]?

/-- A request in progress, changed. -/
def modReq (k req : Nat) (f : JoaPend → JoaPend) (s : State) : State :=
  s.modSession k fun x => { x with pend := x.pend.map fun p => if p.req = req then f p else p }

/-- An item of a request in progress, changed. -/
def modItem (k req i : Nat) (f : JoaItem → JoaItem) (s : State) : State :=
  modReq k req (fun p => { p with items := p.items.modify i f }) s

/-- An item waits. -/
def itemWait (k req i : Nat) (w : JoaWait) (s : State) : State := modItem k req i (fun x => { x with wait := w }) s

/-- R440, R441: an item has its STATUS and DETAIL; VTIME of a READ or WRITE follows. -/
def itemEnd (k req i st detail : Nat) (s : State) : State :=
  modReq k req (fun p => { p with
    items := p.items.modify i fun x => { x with status := some (st, detail), wait := .none }
    v := if st = 0 ∧ (p.op = 0x10 ∨ p.op = 0x11) then s.vT64 else p.v }) s

/-- A place of an item of a request in progress: the order of its request, session, REQ_ID and number. -/
abbrev ItemAt := Nat × Nat × Nat × Nat

/-- An item put into the order of acceptance. -/
def ordInsert (x : ItemAt) : List ItemAt → List ItemAt
  | [] => [x]
  | y :: t => if x.1 ≤ y.1 then x :: y :: t else y :: ordInsert x t

/-- R439: the unsettled items with a predicate, in the order of acceptance. -/
def itemsWhere (s : State) (f : Nat → JoaItem → Bool) : List ItemAt :=
  ((List.range 32).flatMap fun k => (s.session k).pend.flatMap fun p =>
    (p.items.zipIdx.filter fun (x, _) => x.status.isNone && f k x).map fun (_, i) => (p.ord, k, p.req, i)).foldr ordInsert []

/-- The items that wait for something. -/
def itemsWaiting (s : State) (w : JoaWait) : List ItemAt := itemsWhere s fun _ x => decide (x.wait = w)

/-- R441: the write of a published RETAIN or FB variable takes effect; it waits for the end of a run of the principal task. -/
def varItem (k req i : Nat) (s : State) : State :=
  match s.joaItem k req i with
  | none => s
  | some x =>
    match findPub s.image (x.addr / 256 % 65536) (x.addr % 256) with
    | none => itemEnd k req i stNoEntry 0 s
    | some (m, p, v) =>
      let t := (principal s.image m v.owner).getD 4096
      if s.ctrlBridging then itemEnd k req i stState 0 s
      else if s.taskRuns t then
        itemWait k req i (.run t) (s.forAll (pubCells v x.data).zipIdx fun (c, j) u => u.varPoke m v j c)
      else itemEnd k req i 0 0 (pubWrite (x.addr % 2 ^ 24) m p v x.data s)

/-- R441: at a base headland the writes of published RETAIN and FB variables take effect. DEDUCED (assumption 207). -/
def joaHeadland (s : State) : State := s.forAll (itemsWaiting s .headland) fun (_, k, req, i) t => varItem k req i t

end Sys2Proof.Machine
end

