-- ==== Sys2Proof/Machine/Cyclic.lean ====
section
/-! DEFINITION. Chapters 1 and 4: the headland: the snapshot cut, the live image, the checkpoint cuts; the seal of the image and
the switching of the local outputs; capture and writing of checkpoints. -/

namespace Sys2Proof.Machine

/-! ### The snapshot cut (R25, R26, R121, R129) -/

/-- The input image now: bytes received, filtered pin levels and encoder counts. -/
def liveInputs (s : State) : Tbl Byte :=
  let g := (whereBelow 192 s.level).foldl (fun m i => tset 0 m i 1) s.inputs
  (List.range 64).foldl (fun m e =>
    imgSet m (6 * 2 ^ 32 + e * 8) (s.reg64 (R.ENC_m_COUNT_LO e) (R.ENC_m_COUNT_HI e)).toNat 8) g

/-- A mask joined with that of a point, its addresses moved by a key. -/
def maskPoint (key : Nat → Nat) (m : Tbl Byte) (r : Nat) (t : EType) : Tbl Byte :=
  (imgTouch [] r t).foldl (fun i (a, v) => tset 0 i (key a) (tget 0 i (key a) ||| v)) m

/-- R129: the forced points of both directions, as masks. -/
def forcedMask (s : State) : Tbl Byte :=
  let m := s.inputForces.foldl (fun i (r, t, _) => maskPoint id i r t) ([] : Tbl Byte)
  s.outputForces.foldl (fun i (r, t, _) => maskPoint outKey i r t) m

/-- R388, R398: the quality of the output points of stations, nodes and slaves. DEDUCED (assumption 90). -/
def outQuals (s : State) : Tbl Nat :=
  s.image.outs.foldl (fun q o =>
    let src := refSource o.ref
    let p := o.ref / 2 ^ 16 % 4
    let n := o.ref / 2 ^ 8 % 256
    let v : Bool := match refKind o.ref with
      | 2 => decide ((s.stn p n).lastGood = some (s.fport p).headland)
      | 3 => natBit (tget 0 s.quals src) 0
      | 4 => natBit (tget 0 s.quals src) 0
      | _ => true
    tset 0 q (outKey src) (b2n v)) s.quals

/-- The snapshot of the headland just reached (R25). -/
def snapshotNow (s : State) : Snapshot :=
  { index := s.headIndex, v := s.headV, classes := s.head.classDue
    vals := s.inputForces.foldl (fun m (r, t, v) => imgWrite m r t v) (liveInputs s)
    ages := s.ages
    quals := outQuals s
    forced := forcedMask s
    pulses := s.pulses.filter fun x => natBit s.head.classDue (x.1 / 192)
    accs := accRecords s
    axStat := (List.range 64).foldl (fun m n => tset 0 m n (s.axStatus n)) []
    axPos := (List.range 64).foldl (fun m n => tset 0 m n (s.reg64 (R.AXIS_n_POS_LO n) (R.AXIS_n_POS_HI n))) []
    axVel := (List.range 64).foldl (fun m n => tset 0 m n (s.reg64 (R.AXIS_n_VEL_LO n) (R.AXIS_n_VEL_HI n))) []
    intervals := (List.range 4).foldl (fun m n => tset 0 m n (s.reg64 (R.HEAD_n_INTERVAL_LO n) (R.HEAD_n_INTERVAL_HI n))) [] }

/-- R181: the snapshots that are kept: the newest, the last two of class C0, and the last of every other class. -/
def keepSnaps (l : List Snapshot) : List Snapshot :=
  let ofClass (c : Nat) : List Snapshot := l.filter fun x => natBit x.classes c
  let c0 := ofClass 0
  let kept := (c0.drop (c0.length - 2)).map (·.index) ++ (l.getLast?.map (·.index)).toList ++
    [1, 2, 3].filterMap fun c => ((ofClass c).getLast?).map (·.index)
  l.filter fun x => kept.contains x.index

/-- R25, R121: the snapshot cut; the pulse-catch latches of the classes due are cleared. -/
def snapshotCut (s : State) : State :=
  { s with
    collie := { s.collie with snaps := keepSnaps (s.collie.snaps ++ [snapshotNow s]) }
    pulses := s.pulses.filter fun x => ¬ natBit s.head.classDue (x.1 / 192) }

/-! ### Checkpoint cuts (R137, R138) -/

/-- The tasks of an image that keep a retained image. -/
def retainTasks (im : Image) : List Nat := (im.tasks.filter fun x => x.2.kind = 1 ∨ x.2.kind = 2 ∨ x.2.kind = 3).map (·.1)

/-- R137: a cut of the present state with a kind. -/
def cutNow (kind : Nat) (s : State) : Cut :=
  let ts := retainTasks s.image
  { seq := 0, kind := kind, index := s.headIndex, v := s.headV, config := (s.oldImage.getD s.image).id, state := s.ctrl
    cause := s.get R.EXEC_STATUS F.EXEC_STATUS.STOP_CAUSE
    retained := ts.foldl (fun m t => tset [] m t (s.retained t).valid) []
    oldRetained := s.collie.oldRetained.map fun x => (x.1, x.2.valid)
    enables := s.image.tasks.foldl (fun m x => tset 0 m x.1
      (s.get (R.EXEC_t_TASK_CTRL x.1) F.EXEC_t_TASK_CTRL.ENABLE +
        2 * s.get (R.EXEC_t_TASK_CTRL x.1) F.EXEC_t_TASK_CTRL.DISABLED_BY_FAULT)) []
    sels := s.collie.oldRetained.foldl (fun m x => tset 0 m (x.1 + 4096) (if x.2.selB then 2 else 1))
      (ts.foldl (fun m t => tset 0 m t (if (s.retained t).selB then 2 else 1)) [])
    olc := s.get R.EXEC_STATUS F.EXEC_STATUS.OLC_STATE
    sizes := s.collie.oldRetained.foldl (fun m x => tset 0 m (x.1 + 4096) (retainSize (s.oldImage.getD s.image) (s.oldDesc x.1)))
      (ts.foldl (fun m t => tset 0 m t (retainSize s.image (s.desc t))) []) }

/-- R147: CKPT_BUSY follows the staging buffers. -/
def ckptBusy (s : State) : State :=
  s.putFlag R.EXEC_STATUS F.EXEC_STATUS.CKPT_BUSY (!s.exec.capture.isEmpty || s.exec.writing.isSome || s.exec.waiting.isSome)

/-- R138: a new cut takes a free staging buffer; when both are in use it replaces the one that waits, or else the newer of those that are
captured. DEDUCED (assumption 89). -/
def stageCut (c : Cut) (s : State) : State :=
  let l := s.exec.capture
  if l.length + s.exec.writing.toList.length + s.exec.waiting.toList.length < 2 then
    { s with exec := { s.exec with capture := l ++ [c] } }
  else
    { s with exec := { s.exec with
      capture := (if s.exec.waiting.isSome then l else l.dropLast) ++ [c], waiting := none } }.incSat R.EXEC_CKPT_COALESCED

/-- R138: a cut with a kind is taken. -/
def takeCut (kind : Nat) (s : State) : State :=
  let s1 := persistAll s
  ckptBusy (stageCut (cutNow kind s1) s1)

/-- R138: the kind of the cut due at the headland just reached: the highest of the reasons. -/
def cutDue (s : State) (commits : Bool) : Option Nat :=
  let p := (s.reg R.EXEC_CKPT_PERIOD).toNat % 65536
  if s.exec.bridgeW.isSome ∧ ¬ s.exec.bridgeCut then some 4
  else if 0 < s.exec.cutAsked then some s.exec.cutAsked
  else if commits then some 1
  else if 0 < p ∧ s.headIndex % p = 0 then some 0
  else none

/-- R138: the cut of a headland. -/
def headlandCut (commits : Bool) (s : State) : State :=
  match cutDue s commits with
  | none => s
  | some k =>
    let s1 := takeCut k s
    { s1 with exec := { s1.exec with
      cutAsked := 0, bridgeCut := s1.exec.bridgeCut || decide (k = 4) } }

/-- R538: a captured cut takes its sequence number and waits for the granary. -/
def cutWrite (c : Cut) (s : State) : State :=
  let n := s.exec.cutSeq + 1
  let c1 := { c with seq := n }
  granWait .cut (cutSize c1) { s with exec := { s.exec with cutSeq := n, writing := some c1 } }

/-- R138: the capture engines finish the oldest cut in capture; a capture that failed is reported. -/
def checkpointCapture (good : Bool) (s : State) : State :=
  match s.exec.capture with
  | [] => s
  | c :: rest =>
    let s1 := { s with exec := { s.exec with capture := rest } }
    ckptBusy
      (if ¬ good then s1.raise R.EXEC_EVENTS F.EXEC_EVENTS.CKPT_FAILED
      else if s1.exec.writing.isSome then { s1 with exec := { s1.exec with waiting := some c } }
      else cutWrite c s1)

/-- R538: the lines of a cut are written: it becomes valid, or it failed; the one that waits is written next. -/
def checkpointWrite (s : State) : State :=
  match s.exec.writing, s.gran.jobs.find? fun j => decide (j.work = .cut ∧ j.lines = 0) with
  | some c, some j =>
    let s1 := { s with gran := { s.gran with jobs := s.gran.jobs.erase j }, exec := { s.exec with writing := none } }
    let s2 := if j.failed then s1.raise R.EXEC_EVENTS F.EXEC_EVENTS.CKPT_FAILED else cutCommit c s1
    match s2.exec.waiting with
    | none => ckptBusy s2
    | some w => ckptBusy (cutWrite w { s2 with exec := { s2.exec with waiting := none } })
  | _, _ => s

/-! ### The headland (R32) -/

/-- R385 to R387, R396: the stations and nodes of the ports whose field or CAN headland this is are judged; a standby's station
states come with the mirror (R602). -/
def portsJudge (s : State) : State :=
  let b := s.headIndex
  let s1 := if s.standby then s else
    s.forAll (List.range 4) fun p t => if t.isFieldHeadland p b then fieldJudge p t else t
  s1.forAll (List.range 4) fun p t =>
    if t.flag (R.CAN_p_CTRL p) F.CAN_p_CTRL.EN && t.isCanHeadland p b then canJudge p t else t

/-- R217: the persisted entries among the actions of the transactions that commit here are saved. -/
def savePersisted (l : List TxAction) (s : State) : State :=
  s.forAll (l.filter fun a => a.kind = 10 ∧ a.target / 2 ^ 24 = s.ownDev) fun a t =>
    match findPub t.image (a.target / 256 % 65536) (a.target % 256) with
    | some (m, p, v) => persistWritten (a.target % 2 ^ 24) m p v t
    | none => t

/-- R141, R142: a headland of a bridge is counted, unless the controller rejoins at it. -/
def bridgeCounted (s : State) : State :=
  if s.bridged then
    { s with exec := { s.exec with bridgeCount := s.exec.bridgeCount + 1 } }
  else s

/-- R136: the classes that had a headland since H_c. -/
def olcSeen (s : State) : State :=
  if s.get R.EXEC_STATUS F.EXEC_STATUS.OLC_STATE = 2 then
    { s with exec := { s.exec with olcSeen := s.exec.olcSeen ||| s.head.classDue } }
  else s

/-- R25: every moving axis up to the last MOTION edge at or before the headland. -/
def axesNow (s : State) : State := s.forAll ((List.range 64).filter fun n => s.vel n ≠ 0) drillNow

/-- What a headland does before the snapshot is cut: its record, the axes up to it, forces, farm, stations and nodes, settings of signals, and the
accumulator windows. -/
def headlandBefore (s : State) : State :=
  accHeadland (sigHeadland (portsJudge (farmInputs (farmAges (twinHeadland (forceHeadland (olcSeen (axesNow (headlandOccurs s)))))))))

/-- What a headland does after the snapshot is cut: commands to the axes, the live image, the transactions, injected requests
and cuts. -/
def headlandAfter (s : State) : State :=
  let com := txCommitted s s.headIndex
  let acts := com.flatMap fun i => (s.tx i).actions
  let s1 := txApply s.forcedPoint (dacClamp (formLive (axisHeadland s)))
  headlandCut (!com.isEmpty) (bridgeCounted (injHeadland (peerHeadland (joaHeadland (savePersisted acts (savesDue s1))))))

/-- R618: the first headland after a start: CLK_START_TIME takes the ticks since the release. -/
def startTimed (s : State) : State :=
  if s.resets.first then
    { s with resets := { s.resets with first := false } }.setReg R.CLK_START_TIME
      (BitVec.ofNat 32 (s.resets.lockTicks + s.raw.toNat / 1024))
  else s

/-- R623: the headland of shutdown step 1 stops the controller with cause HOST. DEDUCED (assumption 138). -/
def shutHeadland (s : State) : State :=
  if s.shutStep = 1 ∧ s.headIndex = s.resets.stopAt ∧ s.ctrl ≠ 2 then controllerStop 3 s else s

/-- R32: the next base headland. DEDUCED (assumption 207). -/
def headland (s : State) : State :=
  if s.head.armed then shutHeadland (startTimed (headlandAfter (snapshotCut (headlandBefore s)))) else s

/-- R31, R126: the live image is sealed 64 grains after a headland or a controller stop at g; the seal of a stop asserts SAFE_STATE. -/
def sealAt (g : Quad) (s : State) : State :=
  let s1 := s.advanceTo (g + 64)
  let stop : Bool := decide (s.head.safeSeal = some g)
  let h := { s1.head with
    sealDue := s1.head.sealDue && decide (g ≠ s.headRaw), safeSeal := if stop then none else s1.head.safeSeal }
  let s2 : State := { s1 with img := { s1.img with sealed := s1.img.live }, head := h }
  if stop then s2.put R.EXEC_STATUS F.EXEC_STATUS.SAFE_OUT 1 else s2

/-- R31, R32, R126, R595: the next seal; that of a headland hands the image to the field ports, and the FARM values are sent. -/
def liveImageSeal (s : State) : State :=
  match nextDue s.head.sealDue s.headRaw s.head.safeSeal with
  | none => s
  | some g =>
    let s1 := sealAt g s
    if s.head.sealDue ∧ g = s.headRaw then farmSend (if s1.standby || s1.portsSilent then s1 else fieldSend s1) else s1

/-- R403: a pin that the live image drives. -/
def State.drivenPin (s : State) (i : Nat) : Bool := s.get (R.GPIO_i_CFG i) F.GPIO_i_CFG.MODE ≠ 0

/-- R32: the image of the last headland is sealed and its tasks are ready, so that the events of H + 128 may follow. -/
def State.headlandServed (s : State) : Bool := !s.head.sealDue && !s.head.tasksDue

/-- R32, R53, R126: at H + 128, or at D + 128 of a controller stop, the local digital outputs take the sealed image. -/
def outputSwitch (s : State) : State :=
  match nextDue (s.head.switchDue && s.headlandServed) s.headRaw (if s.head.safeSeal.isNone then s.head.safeSwitch else none) with
  | none => s
  | some g =>
    let s1 := s.advanceTo (g + 128)
    let b := (List.range 192).foldl (fun m i =>
      if s.drivenPin i then tset 0 m i (tget 0 s.img.sealed i) else m) s1.img.balls
    let h := { s1.head with
      switchDue := s1.head.switchDue && decide (g ≠ s.headRaw)
      safeSwitch := if s.head.safeSwitch = some g then none else s1.head.safeSwitch }
    { s1 with img := { s1.img with balls := b }, head := h }

/-! ### The commands -/

/-- HEADLAND (R32). -/
def execHeadland (s : State) : Out := ok (headland s)
/-- LIVE_IMAGE_SEAL (R32). -/
def execLiveImageSeal (s : State) : Out := ok (liveImageSeal s)
/-- OUTPUT_SWITCH (R53). -/
def execOutputSwitch (s : State) : Out := ok (outputSwitch s)
/-- CHECKPOINT_CAPTURE (R138). -/
def execCheckpointCapture (good : Bool) (s : State) : Out := ok (checkpointCapture good s)
/-- CHECKPOINT_WRITE (R538). -/
def execCheckpointWrite (s : State) : Out := ok (checkpointWrite s)

end Sys2Proof.Machine
end

