-- ==== Sys2Proof/Machine/MemTest.lean ====
section
/-! DEFINITION. Chapter 14: the harrow, the fallow test, bank hand-over, the shutdown self-test and the repair store. -/

namespace Sys2Proof.Machine

/-! ### Repair records (R547 to R550) -/

/-- The sub-arrays of a bank (R527). -/
def bankSubs (k : Nat) : Nat := (bankPlace k).2 / 262144

/-- R548: the bank and sub-array of a test unit 0 to 122, by counting on from a bank. -/
def subOf : Nat → Nat → Nat → Nat × Nat
  | 0, k, u => (k, u)
  | n + 1, k, u => if u < bankSubs k then (k, u) else subOf n (k + 1) (u - bankSubs k)

/-- R549: a finding: the record at its place counts it, or a new record is added while the store has room. -/
def addRepair (r : RepairRec) (s0 : State) : State :=
  let s := if r.state = 0 then s0.put R.BIST_STATUS F.BIST_STATUS.PENDING 1 else s0
  let same := fun (x : RepairRec) => decide (x.unit = r.unit ∧ x.sub = r.sub ∧ x.row = r.row ∧ x.bit = r.bit)
  let counted := s.gran.repairs.map fun x => if same x then { x with count := min 65535 (x.count + 1), time := r.time } else x
  if s.gran.repairs.any same then { s with gran := { s.gran with repairs := counted } }
  else if s.gran.repairs.length < 2043 then { s with gran := { s.gran with repairs := s.gran.repairs ++ [r] } }
  else s.raise R.BIST_EVENTS F.BIST_EVENTS.STORE_FULL

/-- R549: bits 51:20 of V. -/
def State.foundAt (s : State) : Nat := s.vT64.toNat / 2 ^ 20 % 2 ^ 32

/-- The spare rows of a sub-array that records use. -/
def sparesUsed (l : List RepairRec) (unit sub : Nat) : List Nat :=
  (l.filter fun x => x.unit = unit ∧ x.sub = sub ∧ (x.state = 1 ∨ x.state = 2) ∧ x.spare < 8).map (·.spare)

/-- R547, R550: the first spare row of a sub-array that is left. DEDUCED (assumption 129). -/
def spareRow (l : List RepairRec) (unit sub : Nat) : Option Nat :=
  (List.range 8).find? fun n => n ∉ sparesUsed l unit sub

/-- R550: the first spare column of a sub-array that is left. DEDUCED (assumption 129). -/
def spareColumn (l : List RepairRec) (unit sub : Nat) : Option Nat :=
  (List.range 2).find? fun n => !(l.any fun x => decide (x.unit = unit ∧ x.sub = sub ∧ x.state = 2 ∧ x.spare = 128 + n))

/-- R550: a record applied at a start: the spare that it has, or a column for a bit that fails in several rows, or a row. -/
def applyRepair (all : List RepairRec) (done : List RepairRec) (r : RepairRec) : RepairRec :=
  if r.state = 3 then r
  else if r.spare ≠ 255 then { r with state := 2 }
  else
    let column : Bool := decide (r.kind ≠ 4) && (all.any fun x =>
      decide (x.unit = r.unit ∧ x.sub = r.sub ∧ x.bit = r.bit ∧ x.row ≠ r.row ∧ x.kind ≠ 4))
    let shared := done.find? fun x => if column then x.unit = r.unit ∧ x.sub = r.sub ∧ x.bit = r.bit ∧ x.state = 2 ∧ 128 ≤ x.spare ∧ x.spare ≠ 255
      else x.unit = r.unit ∧ x.sub = r.sub ∧ x.row = r.row ∧ x.state = 2 ∧ x.spare < 8
    match shared with
    | some x => { r with state := 2, spare := x.spare }
    | none =>
      if column then
        match spareColumn (done ++ all) r.unit r.sub with
        | some c => { r with kind := 2, state := 2, spare := 128 + c }
        | none => { r with kind := 2, state := 3 }
      else
        match spareRow (done ++ all) r.unit r.sub with
        | some n => { r with state := 2, spare := n }
        | none => { r with state := 3 }

/-- R550: every record applied, in order. -/
def applyRepairs (l : List RepairRec) : List RepairRec := l.foldl (fun done r => done ++ [applyRepair l done r]) []

/-- The sub-arrays of the device: unit and number; the memories of a core count as one. -/
def allSubs : List (Nat × Nat) :=
  ((List.range 9).flatMap fun k => (List.range (bankSubs k)).map fun j => (k, j)) ++ (List.range 36).map fun c => (16 + c, 0)

/-- BIST_SPARE_FREE: the spare rows and columns left. -/
def sparesFree (l : List RepairRec) : Nat :=
  let held := fun (p : RepairRec → Bool) => ((l.filter fun x => (x.state = 1 ∨ x.state = 2) ∧ p x).map fun x =>
    (x.unit, x.sub, x.spare)).eraseDups.length
  (8 * allSubs.length - held fun x => decide (x.spare < 8)) +
    65536 * (2 * allSubs.length - held fun x => decide (128 ≤ x.spare ∧ x.spare < 130))

/-! ### The harrow (R533, R534) -/

/-- R533: a correctable error in a bank. -/
def correctable (k : Nat) (s : State) : State :=
  ((s.incSat (R.MEM_k_CE_CNT k)).incSat R.MEM_CE_CNT).raise R.MEM_EVENTS F.MEM_EVENTS.CE

/-- R533: an uncorrectable error reported. -/
def lostWord (a : Nat) (s : State) : State :=
  (((s.incSat R.MEM_UE_CNT).setReg R.MEM_UE_ADDR_LO (BitVec.ofNat 32 a)).setReg R.MEM_UE_ADDR_HI
    (BitVec.ofNat 32 (a / 2 ^ 32))).raise R.MEM_EVENTS F.MEM_EVENTS.UE

/-- R533: an uncorrectable error in a bank word, which is poisoned. -/
def uncorrectable (a : Nat) (s : State) : State :=
  lostWord a (if a ∈ s.gran.poison then s else { s with gran := { s.gran with poison := s.gran.poison ++ [a] } })

/-- R534: a weak cell is recorded. -/
def weakCell (k w bit : Nat) (s : State) : State :=
  (addRepair ⟨4, 3, 0, k, w / 32768, w / 32 % 1024, bit, 255, 1, s.foundAt⟩ s).raise R.MEM_EVENTS F.MEM_EVENTS.WEAK

/-- R533, R534: the harrow reads the next line of the granary; what it corrects there is written back by the granary controller.
DEDUCED (assumption 250). -/
def harrowLine (e : WordEnd) (s : State) : State :=
  let w := tget 0 s.gran.harrow 9
  let next := if w + 1 < 262144 then w + 1 else 0
  let s1 : State := { s with gran := { s.gran with harrow := tset 0 s.gran.harrow 9 next } }
  match e with
  | .clean => s1
  | .correctable _ => granWait .repair 64 ((s1.incSat R.MEM_CE_CNT).raise R.MEM_EVENTS F.MEM_EVENTS.CE)
  | .uncorrectable => lostWord (0x14000000 + 64 * w) s1

/-- R534: the harrow reads the next word of a bank, or as number 9 the next line of the granary. DEDUCED (assumption 122). -/
def harrowRead (k : Nat) (e : WordEnd) (s : State) : State :=
  if !s.flag R.MEM_HARROW_CFG F.MEM_HARROW_CFG.EN || s.portsSilent then s
  else if k = 9 then harrowLine e s
  else
    let w := tget 0 s.gran.harrow k
    let n := (bankPlace k).2 / 8
    let a := (bankPlace k).1 + 8 * w
    let key := a / 8
    let next := if w + 1 < n then w + 1 else 0
    let s1 : State := { s with gran := { s.gran with harrow := tset 0 s.gran.harrow k next } }
    let s2 := if decide (k = 4) && decide (next = 0) then s1.incWrap R.MEM_HARROW_PASS else s1
    match e with
    | .clean => { s2 with gran := { s2.gran with weak := tset 0 s2.gran.weak key 0 } }
    | .correctable bit =>
      let c := tget 0 s2.gran.weak key + 1
      let s3 := correctable k { s2 with gran := { s2.gran with weak := tset 0 s2.gran.weak key (if 3 ≤ c then 0 else c) } }
      if 3 ≤ c then weakCell k w bit s3 else s3
    | .uncorrectable => uncorrectable a { s2 with gran := { s2.gran with weak := tset 0 s2.gran.weak key 0 } }

/-! ### The fallow test (R546, R547) -/

/-- R546, R547: the next fallow window of a bank is tested; the bits of its words that failed. DEDUCED (assumption 124). -/
def fallowWindow (k : Nat) (bits : List Nat) (s : State) : State :=
  if !s.flag R.MEM_FALLOW_CFG F.MEM_FALLOW_CFG.EN || s.portsSilent then s
  else
    let w := tget 0 s.gran.fallow k
    let next := if w + 1 < (bankPlace k).2 / 256 then w + 1 else 0
    let s1 : State := { s with gran := { s.gran with fallow := tset 0 s.gran.fallow k next } }
    if bits = [] then s1
    else
      let spare := spareRow s1.gran.repairs k (w / 1024)
      let rec1 := fun (b : Nat) => (⟨3, 1, if spare.isSome then 1 else 3, k, w / 1024, w % 1024, b, spare.getD 255, 1, s1.foundAt⟩ : RepairRec)
      let s2 := s1.forAll bits fun b t => addRepair (rec1 b) t
      ((s2.incSat R.MEM_FALLOW_FAIL_CNT).raise R.MEM_EVENTS F.MEM_EVENTS.FALLOW_FAIL).raise R.MEM_EVENTS
        (if spare.isSome then F.MEM_EVENTS.SOFT_REPAIR else F.MEM_EVENTS.NO_SPARE)

/-! ### Ownership (R529, R556) -/

/-- R529, R556: a write of MEM_k_OWNER: the bank is handed over, and the old owner's writes drain. -/
def ownerWrite (k : Nat) (v : Word) (s : State) : State :=
  let o := fldOf F.MEM_k_OWNER.OWNER v
  let old := s.get (R.MEM_k_OWNER k) F.MEM_k_OWNER.OWNER
  if fldOf F.MEM_k_OWNER.KEY v ≠ 0x4A58 ∨ ¬ (k < 4 ∨ k = 5) ∨ o = 0 ∨ o = 7 then s
  else
    let s1 := (s.put (R.MEM_k_OWNER k) F.MEM_k_OWNER.OWNER o).put (R.MEM_k_OWNER k) F.MEM_k_OWNER.DRAINING 1
    { s1 with gran := { s1.gran with drains := tset (0, 0) s1.gran.drains k (old, s.raw.toNat) } }

/-! ### The shutdown self-test (R548, R558) -/

/-- R548: the grains that a slice of a unit takes at most. -/
def sliceGrains (u : Nat) : Nat := if u < 123 then 1835008 else 4194304

/-- R623, R548: a slice may start: shutdown step 5 runs, the test is enabled, and the slice can end within the budget. -/
def sliceFits (s : State) (u : Nat) : Bool :=
  decide (s.shutStep = 5) && s.flag R.BIST_CTRL F.BIST_CTRL.EN &&
    decide ((s.raw - s.resets.stepAt).toNat + sliceGrains u ≤ msGrains (s.get R.BIST_CTRL F.BIST_CTRL.BUDGET_MS))

/-- R548: the content of a unit's sub-array is destroyed. DESIGN CHOICE (assumption 123). -/
def destroyUnit (u : Nat) (s : State) : State :=
  if u < 123 then
    let (k, j) := subOf 9 0 u
    let s1 := s.memWrite ((bankPlace k).1 + j * 262144) ((List.range 262144).map (Config.freeByte s.free))
    { s1 with free := s.free + 1 }
  else s

/-- R548: a slice tests the next unit, which fails at some bits: rows and bits. DESIGN CHOICE (assumption 123). -/
def bistSlice (bits : List (Nat × Nat)) (s : State) : State :=
  let u := (s.reg R.BIST_PTR).toNat % 256
  if !sliceFits s u then s
  else
    let (k, j) := if u < 123 then subOf 9 0 u else (16 + (u - 123), 0)
    let s1 := destroyUnit u ((s.put R.BIST_STATUS F.BIST_STATUS.UNIT u).put R.BIST_STATUS F.BIST_STATUS.STATE 1)
    let s2 := if u < 123 then s1.advanceTo (s.raw + 1835008) else s1
    let s3 := s2.forAll bits fun (r, b) t => (addRepair ⟨3, 2, 0, k, j, r, b, 255, 1, t.foundAt⟩ t).incSat R.BIST_FAIL_CNT
    let s4 := if bits = [] then s3 else s3.raise R.BIST_EVENTS F.BIST_EVENTS.FAIL
    if u = 158 then
      ((s4.setReg R.BIST_PTR 0).incWrap R.BIST_PASS_CNT).raise R.BIST_EVENTS F.BIST_EVENTS.PASS_DONE
    else s4.setReg R.BIST_PTR (BitVec.ofNat 32 (u + 1))

/-- R558: a write of BIST_CTRL; RESTART sets the pointer to unit 0. -/
def bistCtrlWrite (v : Word) (s : State) : State :=
  let s1 := s.setReg R.BIST_CTRL (v &&& 0xFFFF0001)
  if fldOf F.BIST_CTRL.RESTART v = 1 then s1.setReg R.BIST_PTR 0 else s1

/-! ### The commands -/

/-- HARROW_READ (R534). -/
def execHarrowRead (k : Fin 10) (e : WordEnd) (s : State) : Out := ok (harrowRead k e s)
/-- FALLOW_WINDOW (R546): the failing bits of the window's words. -/
def execFallowWindow (k : Fin 9) (bits : List (Fin 72)) (s : State) : Out := ok (fallowWindow k (bits.map (·.val)) s)
/-- OWNER_WRITE (R529). -/
def execOwnerWrite (k : Fin 9) (v : Word) (s : State) : Out := ok (ownerWrite k v s)
/-- BIST_SLICE (R548): the failing bits found, by row and bit. -/
def execBistSlice (bits : List (Fin 1024 × Fin 72)) (s : State) : Out :=
  ok (bistSlice (bits.map fun x => (x.1.val, x.2.val)) s)
/-- BIST_RESTART (R558): a write of BIST_CTRL with RESTART set. -/
def execBistRestart (v : Word) (s : State) : Out := ok (bistCtrlWrite (setFldOf F.BIST_CTRL.RESTART 1 v) s)

end Sys2Proof.Machine
end

