-- ==== Sys2Proof/Machine/Island.lean ====
section
/-! DEFINITION. Chapter 13: the safety island: the safety core and Mastiff, test pulses and dark tests, the safety reset, island
faults and starts, and the mirror. -/

namespace Sys2Proof.Machine

/-! ### The parameter set (R498, R499) -/

/-- CRC-32 (R498), one bit. -/
def crc32Bit (c : Word) : Word := if c.getLsbD 0 then (c >>> 1) ^^^ 0xEDB88320 else c >>> 1

/-- CRC-32 over n bits. -/
def crc32Bits : Nat → Word → Word
  | 0, c => c
  | n + 1, c => crc32Bits n (crc32Bit c)

/-- CRC-32 of bytes (R498). -/
def crc32 (l : List Byte) : Word :=
  l.foldl (fun c b => crc32Bits 8 (c ^^^ b.setWidth 32)) 0xFFFFFFFF ^^^ 0xFFFFFFFF

/-- Bytes of a set at an offset, as a number. -/
def setAt (l : List Byte) (o n : Nat) : Nat := ((l.drop o).take n).zipIdx.foldl (fun a (b, i) => a + b.toNat * 256 ^ i) 0

/-- EN of an input. -/
def setInEn (l : List Byte) (i : Nat) : Bool := natBit (setAt l (16 + 8 * i) 1) 0
/-- STP_A of an input. -/
def setStpA (l : List Byte) (i : Nat) : Nat := setAt l (17 + 8 * i) 1
/-- STP_B of an input. -/
def setStpB (l : List Byte) (i : Nat) : Nat := setAt l (18 + 8 * i) 1
/-- DISC_T of an input, in ticks. -/
def setDisc (l : List Byte) (i : Nat) : Nat := 8 * setAt l (20 + 8 * i) 2
/-- MASK of an output. -/
def setMask (l : List Byte) (n : Nat) : Nat := setAt l (144 + 8 * n) 2
/-- A flag of an output: 0 EN, 1 MANUAL, 2 REQ, 3 DARK. -/
def setOut (l : List Byte) (n k : Nat) : Bool := natBit (setAt l (146 + 8 * n) 1) k
/-- FB_T of an output. -/
def setFbT (l : List Byte) (n : Nat) : Nat := setAt l (148 + 8 * n) 2

/-- R499, check 3: an input record's fields. -/
def setInputOk (l : List Byte) (i : Nat) : Bool :=
  let o := 16 + 8 * i
  decide (setAt l o 1 ≤ 1 ∧ setStpA l i ≤ 4 ∧ setStpB l i ≤ 4 ∧ setAt l (o + 3) 1 = 0 ∧ setAt l (o + 6) 2 = 0) &&
    decide (10 ≤ setAt l (o + 4) 2 ∧ setAt l (o + 4) 2 ≤ 2000)

/-- R499, check 3: an output record's fields. -/
def setOutputOk (l : List Byte) (n : Nat) : Bool :=
  let o := 144 + 8 * n
  decide (setAt l (o + 2) 1 < 16 ∧ setAt l (o + 3) 1 = 0 ∧ setAt l (o + 6) 2 = 0 ∧ 1 ≤ setFbT l n ∧ setFbT l n ≤ 24)

/-- R499, check 5: an enabled output has a MASK of enabled inputs. -/
def setMaskOk (l : List Byte) (n : Nat) : Bool :=
  !setOut l n 0 || (decide (setMask l n ≠ 0) && (List.range 16).all fun i => !natBit (setMask l n) i || setInEn l i)

/-- R499: a set passes every check. -/
def setOk (l : List Byte) : Bool :=
  decide (l.length = 212 ∧ setAt l 0 4 = 0x31534653 ∧ setAt l 4 2 = 1 ∧ setAt l 6 2 = 212) &&
    decide (setAt l 208 4 = (crc32 (l.take 208)).toNat) &&
    decide (10 ≤ setAt l 12 2 ∧ setAt l 12 2 ≤ 1000 ∧ 100 ≤ setAt l 14 2 ∧ setAt l 14 2 ≤ 60000) &&
    (List.range 16).all (setInputOk l) && (List.range 8).all (setOutputOk l) &&
    (List.range 16).all (fun i => decide (setStpA l i = 0 ∨ setStpA l i ≠ setStpB l i)) && (List.range 8).all (setMaskOk l)

/-! ### Samples, discrepancy and latches (R500 to R505) -/

/-- R500: a new sample of channels, with the masked ones repeating the previous sample. -/
def maskedSample (old new : Nat) (masked : Nat → Bool) : Nat :=
  ((List.range 16).map fun i => if natBit (if masked i then old else new) i then 2 ^ i else 0).sum

/-- R502, R504: the count of an input after a sample. -/
def discCount (d : SafeSide) (i : Nat) : Nat :=
  if natBit d.a i = natBit d.b i then 0 else tget 0 d.count i + 1

/-- R505: a step of the clearing sequence of an input, from the samples before and after, within a limit of ticks. -/
def clearStep (limit : Nat) (a0 b0 a b : Bool) (x : Nat × Nat) : Nat × Nat :=
  if !a && !b then (1, 0)
  else
    match x.1 with
    | 1 => if a && b then (3, 0) else (2, 0)
    | 2 => if a && b then (if x.2 + 1 ≤ limit then (3, 0) else (0, 0)) else (if limit < x.2 + 1 then (0, 0) else (2, x.2 + 1))
    | 3 => if a = a0 ∧ b = b0 then (3, 0) else (0, 0)
    | _ => (0, 0)

/-- R500 to R505: a sample of a side: the new channels, counts, latches and clearing sequences; a threshold and a limit in ticks
for each input. -/
def sampleSide (d : SafeSide) (p : IslandPins) (maskA maskB : Nat → Bool) (threshold limit : Nat → Nat) : SafeSide :=
  let d1 := { d with a := maskedSample d.a p.a maskA, b := maskedSample d.b p.b maskB, sfb := p.sfb % 256, tick := d.tick + 1 }
  let counts := (List.range 16).foldl (fun t i => tset 0 t i (discCount d1 i)) d.count
  let latches := (List.range 16).foldl (fun t i =>
    if threshold i ≤ tget 0 counts i then tset 0 t i (tget 0 t i ||| 1) else t) d.inLatch
  let clears := (List.range 16).foldl (fun t i =>
    tset (0, 0) t i (if tget 0 latches i = 0 then (0, 0)
      else clearStep (limit i) (natBit d.a i) (natBit d.b i) (natBit d1.a i) (natBit d1.b i) (tget (0, 0) t i))) d.clear
  { d1 with count := counts, inLatch := latches, clear := clears }

/-- R511, R512: a sample of SRESET_L: the press counted; a press of more samples than the side accepts, or one found low at the island
start, is held. -/
def sampleReset (most : Nat) (d : SafeSide) (low : Bool) : SafeSide :=
  let n := if low then (if d.low then d.press + 1 else 1) else d.press
  { d with press := n, low := low, begun := true, stuck := d.stuck || (low && (!d.begun || decide (most < n))) }

/-! ### Outputs (R501, R506, R507, R510) -/

/-- R501: an input is OK on a side. -/
def inOk (set : List Byte) (d other : SafeSide) (i : Nat) : Bool :=
  setInEn set i && natBit d.a i && natBit d.b i && decide (tget 0 d.inLatch i = 0 ∧ tget 0 other.inLatch i = 0)

/-- R506: an output is permitted on a side; req holds the request bits. -/
def outPermitted (set : List Byte) (req : Nat) (fault : Bool) (d other : SafeSide) (n : Nat) : Bool :=
  setOut set n 0 && ((List.range 16).all fun i => !natBit (setMask set n) i || inOk set d other i) &&
    decide (tget 0 d.outLatch n = 0 ∧ tget 0 other.outLatch n = 0) && !fault && (!setOut set n 2 || natBit req n)

/-- R506: the next state of an output on a side; an output that needs no reset goes ON at the tick after the one that found the
permission. DEDUCED (assumption 249). -/
def outNext (set : List Byte) (permitted : Bool) (d other : SafeSide) (n : Nat) : Nat :=
  if tget 0 d.outLatch n ≠ 0 ∨ tget 0 other.outLatch n ≠ 0 then 3
  else
    match tget 0 d.out n, permitted with
    | 0, true => if setOut set n 1 || natBit d.fresh n then 1 else if natBit d.permit n then 2 else 0
    | 1, true => 1
    | 2, true => 2
    | _, _ => 0

/-- A mask of the outputs that hold a predicate. -/
def outMask (p : Nat → Bool) : Nat := ((List.range 8).map fun n => if p n then 2 ^ n else 0).sum

/-- R506: the outputs of a side judged. -/
def judgeSide (set : List Byte) (req : Nat) (fault : Bool) (d other : SafeSide) : SafeSide :=
  let permit := outMask fun n => outPermitted set req fault d other n
  let out := (List.range 8).foldl (fun t n => tset 0 t n (outNext set (natBit permit n) d other n)) d.out
  { d with permit := permit, out := out, cmd := outMask fun n => decide (tget 0 out n = 2) }

/-- R507: the readback of a side compared with the commands of both switches; an output that does not follow latches FEEDBACK.
DEDUCED (assumption 110). -/
def feedbackSide (set : List Byte) (d other : SafeSide) : SafeSide :=
  let expect := d.cmd &&& other.cmd
  let since := (List.range 8).foldl (fun t n =>
    tset 0 t n (if natBit expect n = natBit d.expect n then tget 0 t n + 1 else 0)) d.since
  let bad := fun n => setOut set n 0 && decide (tget 0 d.outLatch n = 0) && decide (setFbT set n ≤ tget 0 since n) &&
    (natBit expect n != natBit d.sfb n)
  let d1 := { d with
    expect := expect, since := since
    outLatch := (List.range 8).foldl (fun t n => if bad n then tset 0 t n 1 else t) d.outLatch }
  { d1 with
    cmd := outMask fun n => natBit d.cmd n && !bad n
    out := (List.range 8).foldl (fun t n => if bad n then tset 0 t n 3 else t) d1.out }

/-- R510: the ticks in which the other side's switch stays on while this side's permission is absent. -/
def crossSide (d other : SafeSide) : SafeSide :=
  { d with cross := (List.range 8).foldl (fun t n =>
      tset 0 t n (if natBit other.cmd n && !natBit d.permit n then tget 0 t n + 1 else 0)) d.cross }

/-- R510: the output whose cross-check fails. -/
def crossFault (d : SafeSide) : Option Nat := (List.range 8).find? fun n => decide (32 ≤ tget 0 d.cross n)

/-- R513, R524: an island fault with a cause, found by a side (0 the safety core, 1 Mastiff), for CROSS_CHECK concerning an output: both
sides turn their switch signals off. -/
def Island.fault (x : Island) (cause side out : Nat) : Island :=
  let off := fun (d : SafeSide) => { d with cmd := 0, permit := 0, out := d.out.filter fun o => o.2 = 3 }
  { x with
    st := 4, core := off x.core, mastiff := off x.mastiff
    log := cause % 16 + (if cause = 6 then 16 * (out % 8) else 0) + 128 * (side % 2) + 65536 * (x.core.tick % 65536) }

/-! ### Mirror frames (R515) -/

/-- The LATCH code of an input's latches on the core: the lowest-numbered one held. DESIGN CHOICE (assumption 105). -/
def latchCode (l : Nat) : Nat := if natBit l 0 then 1 else if natBit l 1 then 2 else if natBit l 2 then 3 else 0

/-- R515: the frame of the present state. -/
def Island.frame (x : Island) : MirrorFrame :=
  let c := x.core
  let m := x.mastiff
  let set := x.running
  let ok := fun i => decide (x.st ≠ 4) && inOk set c m i
  let b := fun (k : Nat) (v : Bool) => if v then 2 ^ k else 0
  let ins := (List.range 16).map fun i =>
    b 0 (natBit c.a i) + b 1 (natBit c.b i) + b 2 (ok i) + b 3 (!(natBit c.a i && natBit c.b i)) +
      16 * latchCode (tget 0 c.inLatch i) + b 7 (decide (tget 0 m.inLatch i ≠ 0)) +
      b 8 (decide ((tget (0, 0) c.clear i).1 = 3)) + 65536 * min 16383 (tget 0 c.count i)
  let outs := (List.range 8).map fun n =>
    b 0 (natBit c.cmd n) + b 1 (natBit m.cmd n) + b 2 (natBit c.sfb n) + 8 * tget 0 c.out n +
      256 * (if tget 0 c.outLatch n ≠ 0 then tget 0 c.outLatch n else tget 0 m.outLatch n) +
      b 10 (natBit c.permit n) + b 11 (natBit m.permit n) + 65536 * (tget 0 x.dark n % 65536)
  let bits16 := ((List.range 16).map fun i =>
    b i (ok i) + b (16 + i) (natBit c.a i) + b (32 + i) (natBit c.b i) +
      b (48 + i) (decide (tget 0 c.inLatch i ≠ 0 ∨ tget 0 m.inLatch i ≠ 0))).sum
  let bits8 := ((List.range 8).map fun n =>
    b (64 + n) (natBit c.cmd n && natBit m.cmd n) + b (72 + n) (natBit c.sfb n) +
      b (80 + n) (decide (tget 0 c.outLatch n ≠ 0 ∨ tget 0 m.outLatch n ≠ 0)) + b (88 + n) (decide (tget 0 c.out n = 1))).sum
  { tick := c.tick, bits := bits16 + bits8 + b 96 (decide (x.st = 4)) + b 97 c.stuck + b 98 c.low
    island := x.st, ins := ins, outs := outs, log := x.log, resets := x.resets, refused := x.refused, presses := x.presses
    setId := setAt x.active 8 4, setCrc := setAt x.active 208 4 }

/-- A change of the island. -/
def State.modIsland (s : State) (f : Island → Island) : State := { s with island := f s.island }

/-- R505: the request bits that the island sees. -/
def State.islandReq (s : State) : Nat := s.get R.SAFEMIR_REQ F.SAFEMIR_REQ.REQ

/-- R500 to R507, R510 to R512, R515: a safety-core tick; a frame is sent. DEDUCED (assumption 104). -/
def coreTick (p : IslandPins) (s : State) : State :=
  let x := s.island
  if x.st = 2 then
    let y := { x with core := { x.core with tick := x.core.tick + 1 } }
    s.modIsland fun _ => { y with frames := y.frames ++ [y.frame] }
  else if x.st ≠ 3 ∧ x.st ≠ 4 then s
  else
    let set := x.running
    let low := fun (stp : List Byte → Nat → Nat) (i : Nat) => decide (x.pulse.map (· + 1) = some (stp set i))
    let c1 := sampleReset 16000 (sampleSide x.core p (low setStpA) (low setStpB) (fun i => setDisc set i + 1) (setDisc set)) p.sreset
    let held : Bool := c1.stuck && !x.core.stuck
    let c2 := crossSide (feedbackSide set (judgeSide set s.islandReq (decide (x.st = 4)) c1 x.mastiff) x.mastiff) x.mastiff
    let y := { x with core := c2, pulse := none, refused := x.refused + b2n held, presses := x.presses + b2n held }
    let z := match decide (y.st = 3), crossFault c2 with
      | true, some n => y.fault 6 0 n
      | _, _ => y
    s.modIsland fun _ => { z with frames := z.frames ++ [z.frame] }

/-- R501, R504 to R507, R510 to R512: a Mastiff tick; rose names the test pulse that rose within the last 16 µs. -/
def mastiffTick (p : IslandPins) (rose : Option Nat) (s : State) : State :=
  let x := s.island
  if x.st ≠ 3 ∧ x.st ≠ 4 then s
  else
    let set := x.running
    let low := fun (stp : List Byte → Nat → Nat) (i : Nat) =>
      decide (x.pulse.map (· + 1) = some (stp set i)) || decide (rose.map (· + 1) = some (stp set i))
    let limit := fun i => 2 * setDisc set i + 16
    let m1 := sampleReset 17024 (sampleSide x.mastiff p (low setStpA) (low setStpB) limit limit) p.sreset
    let m2 := crossSide (feedbackSide set (judgeSide set s.islandReq (decide (x.st = 4)) m1 x.core) x.core) x.core
    let y := { x with mastiff := m2 }
    s.modIsland fun _ => match decide (y.st = 3), crossFault m2 with
      | true, some n => y.fault 6 1 n
      | _, _ => y

/-- R500: STPm goes low for a tick, and the core reads its channels: one that reads closed sets its latch. -/
def testPulse (m : Nat) (p : IslandPins) (s : State) : State :=
  let x := s.island
  if x.st ≠ 3 then s
  else
    let l := (List.range 16).foldl (fun t i =>
      let a := setInEn x.running i && decide (setStpA x.running i = m + 1) && natBit p.a i
      let b := setInEn x.running i && decide (setStpB x.running i = m + 1) && natBit p.b i
      tset 0 t i (tget 0 t i ||| (2 * b2n a + 4 * b2n b))) x.core.inLatch
    s.modIsland fun _ => { x with pulse := some m, core := { x.core with inLatch := l } }

/-- R508: a dark test of an output on a side: it passes when SFBn reads low in time; else the output latches and both sides open
their switches. -/
def darkTest (mastiff : Bool) (n : Nat) (pass : Bool) (s : State) : State :=
  let x := s.island
  let d := if mastiff then x.mastiff else x.core
  if x.st ≠ 3 || !setOut x.running n 3 || decide (tget 0 d.out n ≠ 2) then s
  else if pass then s.modIsland fun _ => { x with dark := tset 0 x.dark n ((tget 0 x.dark n + 1) % 65536) }
  else
    let off := fun (e : SafeSide) => { e with out := tset 0 e.out n 3, cmd := natClrBit e.cmd n }
    let d1 := { d with outLatch := tset 0 d.outLatch n (if mastiff then 3 else 2) }
    s.modIsland fun _ =>
      if mastiff then { x with mastiff := off d1, core := off x.core } else { x with core := off d1, mastiff := off x.mastiff }

/-! ### The safety reset (R505, R509, R511, R512) -/

/-- R505, R509, R511: a valid reset on a side: its clearable latches clear, and then READY outputs go ON. -/
def resetSide (d other : SafeSide) : SafeSide :=
  let ins := d.inLatch.filter fun x => (tget (0, 0) d.clear x.1).1 ≠ 3
  let clr := fun n => !natBit d.cmd n && !natBit other.cmd n && !natBit d.sfb n
  let outL := d.outLatch.filter fun x => !clr x.1
  let out1 := d.out.filter fun x => !(decide (x.2 = 3) && clr x.1)
  let out2 := out1.map fun x => if x.2 = 1 then (x.1, 2) else x
  { d with
    inLatch := ins, outLatch := outL, out := out2
    cmd := outMask fun n => decide (tget 0 out2 n = 2)
    fresh := outMask fun n => natBit d.fresh n && decide (tget 0 d.out n ≠ 1)
    press := 0 }

/-- R505: the inputs whose latch a valid reset leaves. -/
def latchesLeft (c m : SafeSide) : Nat :=
  ((List.range 16).filter fun i => (tget 0 c.inLatch i ≠ 0 ∧ (tget (0, 0) c.clear i).1 ≠ 3) ∨
    (tget 0 m.inLatch i ≠ 0 ∧ (tget (0, 0) m.clear i).1 ≠ 3)).length

/-- R511, R512: SRESET_L is released after a press. DEDUCED (assumption 111). -/
def resetRelease (s : State) : State :=
  let x := s.island
  let c := x.core
  let m := x.mastiff
  let done := fun (d : SafeSide) => { d with press := 0, low := false, stuck := false }
  if x.st ≠ 3 ∧ x.st ≠ 4 then s
  else if c.stuck then s.modIsland fun _ => { x with core := done c, mastiff := done m }
  else if c.press = 0 ∧ m.press = 0 then s
  else if ¬ m.stuck ∧ 400 ≤ c.press ∧ c.press ≤ 16000 ∧ 376 ≤ m.press ∧ m.press ≤ 17024 then
    s.modIsland fun _ => { x with
      core := done (resetSide c m), mastiff := done (resetSide m c)
      resets := x.resets + 1, refused := x.refused + latchesLeft c m }
  else s.modIsland fun _ => { x with core := done c, mastiff := done m, refused := x.refused + 1, presses := x.presses + 1 }

/-! ### Island starts (R497, R499, R512 to R514) -/

/-- R497, R499: a set goes into the pending slot, or is refused. DEDUCED (assumption 109). -/
def setPending (set : List Byte) (s : State) : State :=
  if setAt set 208 4 = setAt s.island.active 208 4 then s
  else if setOk set then
    ((s.modIsland fun x => { x with pending := some set }).setReg R.SAFEMIR_PEND_CRC (BitVec.ofNat 32 (setAt set 208 4))
      |>.putFlag R.SAFEMIR_STATUS F.SAFEMIR_STATUS.SET_PENDING true).raise R.SAFEMIR_EVENTS F.SAFEMIR_EVENTS.SET_PENDING
  else s.raise R.SAFEMIR_EVENTS F.SAFEMIR_EVENTS.SET_REFUSED

/-- R514: an island start; without the granary read port the island waits. -/
def islandStart (port : Bool) (s : State) : State :=
  let x := s.island
  let y : Island := { x with
    st := 2, core := SafeSide.reset, mastiff := SafeSide.reset, pulse := none, dark := [], log := x.log, frames := x.frames }
  if !port then s.modIsland fun _ => { y with frames := y.frames ++ [y.frame] }
  else
    let z : Island := { y with st := 3, running := x.active, fwRun := x.fwRegion }
    s.modIsland fun _ => if setOk x.active then z else z.fault 3 0 0

/-- R514: a command is accepted only while both sides report every switch signal off. -/
def State.islandQuiet (s : State) : Bool := decide (s.island.core.cmd = 0 ∧ s.island.mastiff.cmd = 0)

/-- R514, R523: a write of SAFEMIR_CMD. -/
def safemirCmdWrite (v : Word) (s : State) : State :=
  let op := fldOf F.SAFEMIR_CMD.OP v
  if fldOf F.SAFEMIR_CMD.KEY v ≠ 0x4A58 ∨ op = 0 ∨ op = 3 then s
  else if !s.islandQuiet || (decide (op = 2) && s.island.pending.isNone) then
    s.raise R.SAFEMIR_EVENTS F.SAFEMIR_EVENTS.CMD_REFUSED
  else if op = 1 then islandStart true s
  else
    let s1 := s.modIsland fun x => { x with active := x.pending.getD x.active, pending := none }
    islandStart true ((s1.setReg R.SAFEMIR_PEND_CRC 0).putFlag R.SAFEMIR_STATUS F.SAFEMIR_STATUS.SET_PENDING false)

/-! ### The mirror (R515, R516) -/

/-- Events of an arriving frame: bits of a range newly set against the frame before. -/
def newBits (old new lo n : Nat) : Bool := (List.range n).any fun i => natBit new (lo + i) && !natBit old (lo + i)

/-- R515: the mirror bits as input points. -/
def mirrorInputs (bits : Nat) (valid : Bool) (s : State) : State :=
  { s with
    inputs := (List.range 99).foldl (fun m i => tset 0 m (7 * 2 ^ 32 + i) (if natBit bits i then 1 else 0)) s.inputs
    quals := (List.range 99).foldl (fun m i => tset 0 m (7 * 2 ^ 32 + i) (b2n valid)) s.quals }

/-- R515: the oldest frame on its way arrives; its arrival's V is the mirror time. DEDUCED (assumptions 106, 107). -/
def mirrorFrame (s : State) : State :=
  match s.island.frames with
  | [] => s
  | f :: rest =>
    let old := s.island.seen
    let ob := (old.map (·.bits)).getD 0
    let s1 := mirrorInputs f.bits true (s.modIsland fun x => { x with frames := rest, seen := some f, seenAt := s.raw })
    let s2 := (s1.setReg R.SAFEMIR_TICK (BitVec.ofNat 32 f.tick)).setReg64 R.SAFEMIR_FRAME_V_LO R.SAFEMIR_FRAME_V_HI s1.vT64
    let s3 := ((s2.setReg R.SAFEMIR_FAULT_LOG (BitVec.ofNat 32 f.log)).setReg R.SAFEMIR_SET_ID (BitVec.ofNat 32 f.setId)).setReg
      R.SAFEMIR_SET_CRC (BitVec.ofNat 32 f.setCrc)
    let s4 := (List.range 4).foldl (fun (t : State) w => t.setReg (R.SAFEMIR_BITS_w w) (BitVec.ofNat 32 (f.bits / 2 ^ (32 * w)))) s3
    let s5 := f.ins.zipIdx.foldl (fun (t : State) (v, i) => t.setReg (R.SAFEMIR_i_IN i) (BitVec.ofNat 32 v)) s4
    let s6 := f.outs.zipIdx.foldl (fun (t : State) (v, n) => t.setReg (R.SAFEMIR_n_OUT n) (BitVec.ofNat 32 v)) s5
    let pend := s6.get R.SAFEMIR_STATUS F.SAFEMIR_STATUS.SET_PENDING
    let st := f.island + 8 + 16 * pend + 32 * b2n (natBit f.bits 97) + 256 * (f.bits / 2 ^ 64 % 256) + 65536 * (f.bits / 2 ^ 88 % 256)
    let s7 := ((s6.setReg R.SAFEMIR_STATUS (BitVec.ofNat 32 st)).addSat R.SAFEMIR_RESET_CNT (f.resets - (old.map (·.resets)).getD 0)).addSat
      R.SAFEMIR_RESET_REF_CNT (f.refused - (old.map (·.refused)).getD 0)
    let e := fun (c : Bool) (b : Fld) (t : State) => if c then t.raise R.SAFEMIR_EVENTS b else t
    let demand := (List.range 16).any fun i => setInEn s.island.running i &&
      !(natBit f.bits (16 + i) && natBit f.bits (32 + i)) && (old.isNone || (natBit ob (16 + i) && natBit ob (32 + i)))
    e demand F.SAFEMIR_EVENTS.DEMAND (e (newBits ob f.bits 48 16) F.SAFEMIR_EVENTS.IN_LATCH
      (e (newBits ob f.bits 80 8) F.SAFEMIR_EVENTS.OUT_LATCH (e (newBits ob f.bits 96 1) F.SAFEMIR_EVENTS.ISLAND_FAULT
        (e (decide ((old.map (·.presses)).getD 0 < f.presses)) F.SAFEMIR_EVENTS.RESET_REFUSED s7))))

/-- R516: no frame for 1,048,576 grains after the last: the mirror is invalid, and every mirror bit reads 0. DEDUCED (assumption 108). -/
def mirrorLost (s : State) : State :=
  if !s.flag R.SAFEMIR_STATUS F.SAFEMIR_STATUS.MIRROR_VALID then s
  else
    let s0 := s.advanceTo (s.island.seenAt + 1048576)
    let s1 := (List.range 4).foldl (fun (t : State) w => t.setReg (R.SAFEMIR_BITS_w w) 0) (mirrorInputs 0 false s0)
    (s1.setReg R.SAFEMIR_STATUS (s1.reg R.SAFEMIR_STATUS &&& 0x10)).raise R.SAFEMIR_EVENTS F.SAFEMIR_EVENTS.MIRROR_LOST

/-- R517: a write of SAFEMIR_REQ. -/
def safemirReqWrite (v : Word) (s : State) : State := s.setReg R.SAFEMIR_REQ (v &&& 0x1FF)

/-! ### The commands -/

/-- SAFETY_CORE_TICK (R500). -/
def execSafetyCoreTick (p : IslandPins) (s : State) : Out := ok (coreTick p s)
/-- MASTIFF_TICK (R504). -/
def execMastiffTick (p : IslandPins) (rose : Option (Fin 4)) (s : State) : Out := ok (mastiffTick p (rose.map (·.val)) s)
/-- TEST_PULSE (R500). -/
def execTestPulse (m : Fin 4) (p : IslandPins) (s : State) : Out := ok (testPulse m p s)
/-- DARK_TEST (R508). -/
def execDarkTest (mastiff : Bool) (n : Fin 8) (pass : Bool) (s : State) : Out := ok (darkTest mastiff n pass s)
/-- SAFETY_RESET_RELEASE (R511). -/
def execSafetyResetRelease (s : State) : Out := ok (resetRelease s)
/-- ISLAND_FAULT (R513). DEDUCED (assumption 112). -/
def execIslandFault (cause : Nat) (side : Fin 2) (n : Fin 8) (s : State) : Out :=
  ok (if s.island.st = 0 then s else s.modIsland fun x => x.fault cause side n)
/-- ISLAND_START (R514): VDDSAFE rises, with the granary read port or without; or the port comes back while the island waits. -/
def execIslandStart (port : Bool) (s : State) : Out := ok (islandStart port s)
/-- RESTART (R514). -/
def execRestart (s : State) : Out := ok (safemirCmdWrite (keyed 1) s)
/-- ACTIVATE (R514). -/
def execActivate (s : State) : Out := ok (safemirCmdWrite (keyed 2) s)
/-- MIRROR_FRAME (R515). -/
def execMirrorFrame (s : State) : Out := ok (mirrorFrame s)
/-- MIRROR_LOST (R516). -/
def execMirrorLost (s : State) : Out := ok (mirrorLost s)
/-- SAFEMIR_REQ_WRITE (R517). -/
def execSafemirReqWrite (v : Word) (s : State) : Out := ok (safemirReqWrite v s)

end Sys2Proof.Machine
end

