-- ==== Sys2Proof/Machine/Load.lean ====
section
/-! DEFINITION. Chapters 1, 3 and 4: the loading of a configuration image: its modules verified, the writer classes of its
output points (R29), and the space it takes in the plot banks. -/

namespace Sys2Proof.Machine

/-- R115: what a load finds of an E-code 3 module: instructions without a counterpart, and reads of a unit that is not in legacy
result mode, by their offsets. -/
def legacyFaults (s : State) (x : Code3) : List Nat :=
  x.unsupported ++ (x.reads.filter fun r => !s.flag (R.AU_n_CTRL r.1) F.AU_n_CTRL.LEGACY).map (·.2)

/-- R102, R114: the checks of an E-code 3 module: those of its format and instructions as they come, those of its descriptors, and
those that the image and the modules before decide. DEDUCED (assumption 70). -/
def verifyCode3 (s : State) (im : Image) (before : List Module) (x : Code3) (m : Module) : Option (Nat × List Nat) :=
  let own (lo hi : Nat) : VFail := if lo ≤ x.code ∧ x.code ≤ hi then some (x.code, x.off) else none
  let vars := firstFail (m.vars.zipIdx.map fun (v, i) => vCheck (varOk im s.ownDev m v) 10 (m.varOff + 12 * i))
  let one (l : List VFail) : Option (Nat × List Nat) := (firstFail l).map fun (c, o) => (c, [o])
  match one ([own 2 9, vars, own 10 11, publishOk before m, recordOk before m, capacityOk im s.classK s.pg before m]) with
  | some y => some y
  | none => if legacyFaults s x ≠ [] then some (15, legacyFaults s x) else one [idOk before m]

/-- The first uid that no module of the images in use has. -/
def State.nextUid (s : State) : Nat :=
  1 + (s.image.modules ++ (s.oldImage.map (·.modules)).getD []).foldl (fun n m => max n m.uid) 0

/-- R133: the unchanged module of an image: the same MODULE_ID and CRC. -/
def unchangedModule (keep : List Module) (m : Module) : Option Module :=
  keep.find? fun x => x.id = m.id ∧ x.crc = m.crc

/-- R102: a module of an image verified, after those before it. -/
def verifySrc (s : State) (im : Image) (before : List Module) (uid : Nat) (x : ModSrc) : Sum LoadRefusal Module :=
  match x with
  | .code5 slot home bytes =>
    let m := moduleFrom uid slot home bytes
    match verifyModule im s.ownDev s.classK s.pg before bytes m with
    | some (c, o) => .inl (.module slot c [o])
    | none => .inr m
  | .code3 y =>
    let m := { y.m with uid := uid, legacy := true }
    match verifyCode3 s im before y m with
    | some (c, o) => .inl (.module m.slot c o)
    | none => .inr m

/-- The module of a source before its checks. -/
def ModSrc.module : ModSrc → Module
  | .code5 slot home bytes => moduleFrom 0 slot home bytes
  | .code3 x => { x.m with legacy := true }

/-- R102, R132: the modules of an image; one that is unchanged from a kept one is taken over, in the slot and plot of the new image, when
it passes the checks that the new image and its other modules decide. DEDUCED (assumption 142). -/
def loadModules (s : State) (im : Image) (keep : List Module) : Nat → List Module → List ModSrc → Sum LoadRefusal (List Module)
  | _, before, [] => .inr before
  | uid, before, x :: t =>
    match unchangedModule keep x.module with
    | some y =>
      let m := { y with slot := x.module.slot, home := x.module.home }
      match firstFail (placeChecks im s.classK s.pg before m) with
      | some (c, o) => .inl (.module m.slot c [o])
      | none => loadModules s im keep uid (before ++ [m]) t
    | none =>
      match verifySrc s im before uid x with
      | .inl e => .inl e
      | .inr m => loadModules s im keep (uid + 1) (before ++ [m]) t

/-! ### Writer classes (R29) -/

/-- The output descriptors that the code of an entry stores to. DEDUCED (assumption 102). -/
def storesOf (m : Module) (entry : Nat) : List Nat :=
  if m.legacy then (whereBelow m.vars.length fun i => ((m.vars[i]?).map fun v => decide (v.kind = 3)).getD false)
  else
    let l := m.funcs.map fun f => (instsOf m f).1
    (reachFrom (callGraph l) 32 [entry]).flatMap fun f => (l.getD f []).filterMap fun (_, i) =>
      match i.var with
      | some (d, [3]) => if i.pops = 1 ∧ i.pushes = 0 then some d else none
      | _ => none

/-- The output points that a task writes: reference and type. -/
def writesOf (im : Image) (d : TaskDesc) : List (Nat × EType) :=
  match moduleOf im d with
  | none => []
  | some m => (storesOf m d.func).filterMap fun i => (m.vars[i]?).map fun v => (v.loc, v.ty)

/-- R29: the writer class of a task: C0 to C3, or 4 for the event tasks. -/
def writerClass (d : TaskDesc) : Nat := if d.kind = 1 then d.cls else 4

/-- R29: every output point that a task of an image writes, with the writer class. -/
def writersOf (im : Image) : List (Nat × EType × Nat) :=
  im.tasks.flatMap fun (_, d) =>
    if d.kind = 1 ∨ d.kind = 2 ∨ d.kind = 3 then (writesOf im d).map fun (r, t) => (r, t, writerClass d) else []

/-- R29: each output point has at most one writer class. -/
def writersOk (im : Image) : Bool :=
  let w := writersOf im
  w.all fun (r, t, c) => w.all fun (q, u, e) => decide (c = e) || !refOverlap r t q u

/-- A point is written by some task of an image. -/
def hasWriter (im : Image) (r : Nat) (t : EType) : Bool := (writersOf im).any fun (q, u, _) => refOverlap r t q u

/-! ### Space in the plot banks (R81, R132) -/

/-- The bytes of an image in a plot bank: code, constants and globals of the modules homed there, and two retained copies with
their selector for each task. -/
def imageBytes (im : Image) (p : Nat) : Nat :=
  ((im.modules.filter fun m => m.home = p).map fun m => m.code.length + 8 * m.consts.length + m.globalSize).sum +
    (im.tasks.map fun (_, d) =>
      if (d.kind = 1 ∨ d.kind = 2 ∨ d.kind = 3) ∧ d.home = p then 8 + 2 * retainSize im d else 0).sum

/-- R132, check 7: the banks hold both images together, below the secure windows. -/
def bothFit (s : State) (im : Image) : Bool :=
  (List.range 4).all fun p => decide (imageBytes s.image p + imageBytes im p + 4096 * s.get (R.MEM_k_CFG p) F.MEM_k_CFG.SECWIN ≤ 4194304)

/-! ### Checks of an image as a whole (R158, R169, R255, R302, R423, R543, R589, R601) -/

/-- The instructions of a module's functions with the entries that reach them; an E-code 3 module's are its format's own. -/
def reachedInsts (m : Module) : List (Nat × VInst) :=
  if m.legacy then []
  else
    let l := m.funcs.map fun f => (instsOf m f).1
    (entriesOf m (callGraph l)).flatMap fun (e, _, fs) => fs.flatMap fun f => (l.getD f []).map fun (_, i) => (e, i)

/-- R158: the descriptor that a POST, DELAY or WAIT of a module names, when it is not one of the kinds that the operand must name; e is
the entry from which a WAIT is reachable. -/
def badTarget (im : Image) (m : Module) (e : Option Nat) (i : VInst) : Option Nat :=
  match i.var with
  | some (d, [7]) =>
    match m.vars[d]? with
    | none => none
    | some v =>
      let t := tget TaskDesc.unused im.tasks v.loc
      let o := tget TaskDesc.unused im.tasks t.link
      let good : Bool :=
        if i.wait then decide (t.kind = 4) && e.all fun f => decide (o.modSlot = m.slot ∧ o.func = f)
        else decide (i.pops = 0 ∨ t.kind = 2 ∨ t.kind = 4)
      if good then none else some v.loc
  | _ => none

/-- R158: the descriptors that operands of a module name against the rules: in all its code, and each WAIT by the entries that reach it.
An E-code 3 module's instructions are its format's own. -/
def badTargets (im : Image) (m : Module) : List Nat :=
  if m.legacy then []
  else
    (m.funcs.flatMap fun f => (instsOf m f).1.filterMap fun x => badTarget im m none x.2) ++
      (reachedInsts m).filterMap fun x => badTarget im m (some x.1) x.2

/-- R158: a class may have tasks: C0, or one that is enabled. -/
def State.classOn (s : State) (c : Nat) : Bool := decide (c = 0) || s.flag (R.HEAD_n_CLASS_CFG c) F.HEAD_n_CLASS_CFG.ENABLE

/-- R156, R158: the entry that a descriptor of KIND 1 to 3 is bound to is one of its kind. DEDUCED (assumption 103). -/
def taskEntryOk (im : Image) (d : TaskDesc) : Bool :=
  match moduleOf im d with
  | none => false
  | some m => ((m.funcs[d.func]?).map fun f => decide (f.kind = if d.kind = 1 then 1 else 2)).getD false

/-- R158: a descriptor obeys the rules. -/
def descOk (s : State) (im : Image) (t : Nat) (d : TaskDesc) : Bool :=
  let rule : Bool := match d.kind with
    | 1 => s.classOn d.cls && taskEntryOk im d
    | 2 => taskEntryOk im d
    | 3 => taskEntryOk im d && (tget ⟨0, 0, false⟩ im.flows d.link == ⟨t, (tget ⟨0, 0, false⟩ im.flows d.link).window, true⟩)
    | 4 =>
      let o := tget TaskDesc.unused im.tasks d.link
      decide (o.kind = 2 ∨ o.kind = 3)
    | _ => true
  decide (d.slot ≤ 7 ∨ d.slot = 15) && decide (d.home ≤ 3) && rule &&
    (decide (d.replyWp = 0xFFFF) || decide ((tget TaskDesc.unused im.tasks d.replyWp).kind = 4))

/-- R169: the save area of a descriptor that owns a waitpoint holds the deepest frames and stack of its entry. -/
def saveOk (im : Image) (t : Nat) (d : TaskDesc) : Bool :=
  !(im.tasks.any fun x => x.2.kind = 4 ∧ x.2.link = t) ||
    match moduleOf im d with
    | none => false
    | some m =>
      decide (m.legacy = true) ||
        decide (frameBytes m (callGraph (m.funcs.map fun f => (instsOf m f).1)) 32 d.func +
          8 * entryStack m d.func ≤ d.saveSize)

/-- R302: the settings of a signal may be recorded on change. -/
def edgeSigOk (c : SigCfg) : Bool :=
  !c.edge || decide (c.kind = 3) || (decide (c.kind = 1 ∧ c.ty = .b) && (decide (refKind c.source = 0) || decide (refKind c.source = 7)))

/-- R302: the worst-case record rate of a class-0 signal, in bytes per second, for a period in ticks. -/
def sigRate (n p : Nat) (c : SigCfg) : Rat :=
  let size := (recordBytes 0 0 0 n 0 (valueBytes c.ty 0)).length
  if c.edge && decide (c.minInt = 0) then (size : Rat) * 131072000
  else (size : Rat) * 1024000 / (max (c.div * p) c.minInt : Nat)

/-- R99, R301: the kind and source of a signal bound to a variable of a module. -/
def bindOf (slot i : Nat) (v : VarDesc) : Nat × Nat :=
  match v.kind with
  | 2 => (1, v.loc)
  | 3 => (2, v.loc)
  | 4 => (4, v.loc)
  | 10 => (5, v.loc)
  | _ => (3, slot * 2 ^ 24 + i)

/-- R101: the signals that the record table of a module binds, each with what it takes from its entry and its variable. -/
def bindingsOf (m : Module) : List (Nat × RecEntry × Nat × Nat × EType) :=
  m.recs.filterMap fun r => (m.vars[r.var]?).map fun v => (r.signal, r, (bindOf m.slot r.var v).1, (bindOf m.slot r.var v).2, v.ty)

/-- R101, R301: the signals of an image: those of its table, with the variables, classes and modes that the record tables of its modules
bind. DEDUCED (assumption 226). -/
def boundSigs (ms : List Module) (sigs : Tbl SigCfg) : Tbl SigCfg :=
  (ms.flatMap bindingsOf).foldl (fun t (n, r, k, src, ty) => tset SigCfg.unused t n
    { tget SigCfg.unused t n with kind := k, source := src, ty := ty, cls := r.cls, edge := decide (r.mode = 1) }) sigs

/-- R302: a signal that the image's table and a record table bind to different sources. -/
def boundTwice (ms : List Module) (sigs : Tbl SigCfg) (n : Nat) : Bool :=
  let c := tget SigCfg.unused sigs n
  (ms.flatMap bindingsOf).any fun (k, _, kind, src, _) => decide (k = n ∧ c.kind ≠ 0 ∧ (c.kind ≠ kind ∨ c.source ≠ src))

/-- R302: the first signal of an image that fails the gleaner's checks, in the order of the signals. DEDUCED (assumption 225). -/
def badSig (s : State) (ms : List Module) (sigs : Tbl SigCfg) : Option Nat :=
  let l := boundSigs ms sigs
  let due := (l.filter fun x => x.2.kind ≠ 0 ∧ x.2.kind ≠ 6 ∧ ¬ x.2.edge).map (·.1)
  let late := due.drop ((s.pg - 2048) / 4)
  let rate (n : Nat) : Rat := ((l.filter fun x => x.1 ≤ n ∧ x.2.kind ≠ 0 ∧ x.2.cls = 0).map fun x => sigRate x.1 (s.pg / 1024) x.2).sum
  (l.find? fun (n, c) => !edgeSigOk c || boundTwice ms sigs n || decide (n ∈ late) || decide (c.cls = 0 ∧ 65536 < rate n)).map (·.1)

/-- R423: the persisted entries of an image fit 512 KiB. -/
def persistOk (im : Image) : Bool :=
  decide ((im.modules.map fun m => (m.pubs.map fun p =>
    match m.vars[p.var]? with
    | some v => if natBit p.flags 0 then 16 + (persistBytes ⟨entryType v, List.replicate v.elems 0, 0, 0, 0, 0, (0, 0, [])⟩).length else 0
    | none => 0).sum).sum ≤ 524288)

/-- R543: the largest cut of an image and its commit record fit the power-fail budget. DEDUCED (assumption 152). -/
def cutOk (im : Image) : Bool :=
  let body := (im.tasks.map fun (_, d) => if d.kind = 1 ∨ d.kind = 2 ∨ d.kind = 3 then 8 + up8 (retainSize im d) else 0).sum
  decide (16 + up8 (68 + body) + 40 ≤ 389120)

/-- R158, R169: the first descriptor of an image that breaks a rule. DEDUCED (assumption 225). -/
def badDesc (s : State) (im : Image) : Option Nat :=
  let own := (im.tasks.filter fun x => !(descOk s im x.1 x.2 && saveOk im x.1 x.2)).map (·.1)
  (own ++ im.modules.flatMap (badTargets im)).foldl (fun m t => some ((m.map (min t)).getD t)) none

/-- R165: the sizes of the release areas that an image gives. -/
def releasesOk (im : Image) : Bool := im.releaseBytes.all fun x => decide (65536 ≤ x.2 ∧ x.2 ≤ 1048576)

/-- R158, R165, R169, R302, R423, R543: what a program image as a whole is refused for. -/
def programFail (s : State) (im : Image) (sigs : Tbl SigCfg) : Option LoadRefusal :=
  match badDesc s im, badSig s im.modules sigs with
  | some t, _ => some (.descriptor t)
  | none, some n => some (.signal n)
  | none, none => if releasesOk im && persistOk im && cutOk im then none else some .image

/-- R255: the regular conversions that the settings of the units and accumulators allow. -/
def accsOk (s : State) : Bool :=
  (List.range 16).all fun u => (List.range 16).all fun i =>
    accFits s u i (s.get (R.ACC_c_CFG (16 * u + i)) F.ACC_c_CFG.WIN_M_M1 + 1) (s.seqLen u)

end Sys2Proof.Machine
end

