-- ==== Sys2Proof/Machine/Olc.lean ====
section
/-! DEFINITION. Chapter 4: online change (R131 to R136). -/

namespace Sys2Proof.Machine

/-- OLC_STATE of EXEC_STATUS: 0 none, 1 ARMED, 2 CHANGING. -/
def State.olcState (s : State) : Nat := s.get R.EXEC_STATUS F.EXEC_STATUS.OLC_STATE

/-- The active configuration slot: 2 or 3 (R567). DEDUCED (assumption 132). -/
def State.activeSlot (s : State) : Nat := 2 + (s.reg R.SEC_IMAGE_STATUS).toNat / 2 ^ 17 % 2

/-- R567: the result of an image slot: 1 VALID. -/
def State.imageResult (s : State) (k : Nat) : Nat := (s.reg R.SEC_IMAGE_STATUS).toNat / 16 ^ k % 16

/-- The body of the image in a configuration slot. -/
def State.configBody (s : State) (k : Nat) : Option ConfigBody := (tget none s.slots k).bind (·.body)

/-- R132: a refused change, or one cancelled by a reset: its code. -/
def olcRefused (code : Nat) (s : State) : State :=
  (s.setReg R.EXEC_OLC_STATUS (BitVec.ofNat 32 code)).raise R.EXEC_EVENTS F.EXEC_EVENTS.OLC_REFUSED

/-- R133: the program of an image in the place of the present one; the tables of the field, the pins and the farm stay until
the image is loaded at a start. DEDUCED (assumption 98). -/
def withProgram (im new : Image) (ms : List Module) : Image :=
  { im with
    id := new.id, modules := ms, tasks := new.tasks, flows := new.flows, outs := new.outs, ins := new.ins, maps := new.maps
    releaseBytes := new.releaseBytes, metas := new.metas }

/-- R135: an entry of the mapping table obeys the rules. -/
def mapOk (old new : Image) (e : MapEntry) : Bool :=
  match old.modules.find? fun m => m.id = e.oldModule, new.modules.find? fun m => m.id = e.newModule with
  | some a, some b =>
    match a.vars[e.oldVar]?, b.vars[e.newVar]? with
    | some v, some w =>
      (decide (v.kind = 0 ∧ w.kind = 0) && (decide (e.conv = 0x80) || (convByte (BitVec.ofNat 8 e.conv)).isSome)) ||
        (decide (v.kind = 6 ∧ w.kind = 6 ∧ v.aux % 256 = w.aux % 256 ∧ e.conv = 0x80))
    | _, _ => false
  | _, _ => false

/-- R132: the checks of the image in the inactive slot after those of the request: the refusal code, and for VERIFY what it is
refused for; or the body with its modules loaded. DEDUCED (assumption 99). -/
def olcCheck (s : State) : Sum (Nat × Option LoadRefusal) ConfigBody :=
  let k := 5 - s.activeSlot
  match s.configBody k with
  | none => .inl (4, none)
  | some b =>
    if s.imageResult k ≠ 1 then .inl (4, none)
    else
      match loadModules s b.img s.image.modules s.nextUid [] b.mods with
      | .inl e => .inl (4, some e)
      | .inr ms =>
        let im := withProgram s.image b.img ms
        if (programFail s im b.sigs).isSome then .inl (4, programFail s im b.sigs)
        else if !writersOk im then .inl (5, none)
        else if !im.maps.all (mapOk s.image im) then .inl (6, none)
        else if !bothFit s im then .inl (7, none)
        else .inr { b with img := im }

/-- R132: OLC_ARM. DEDUCED (assumption 44). -/
def olcArm (s : State) : State :=
  let at_ := (s.reg64 R.EXEC_OLC_AT_LO R.EXEC_OLC_AT_HI).toNat
  if ¬ s.ctrlRunning then cmdRefused (olcRefused (if s.olcState ≠ 0 then 1 else 2) s)
  else if s.olcState ≠ 0 then olcRefused 1 s
  else if at_ < s.headIndex + 2 then olcRefused 3 s
  else
    match olcCheck s with
    | .inl (c, e) => olcRefused c { s with exec := { s.exec with refusal := (e.map some).getD s.exec.refusal } }
    | .inr b =>
      { s with newImage := some b, exec := { s.exec with olcAt := at_ } }.put R.EXEC_STATUS F.EXEC_STATUS.OLC_STATE 1

/-- The armed change is gone. -/
def olcDisarm (s : State) : State := { s with newImage := none }.put R.EXEC_STATUS F.EXEC_STATUS.OLC_STATE 0

/-- R123, R132: OLC_CANCEL, before H_c; outside RUNNING it is refused. DEDUCED (assumption 100). -/
def olcCancel (s : State) : State :=
  if ¬ s.ctrlRunning then cmdRefused s
  else if s.olcState = 1 then olcDisarm s
  else s

/-- R132: a warm reset or a shutdown before H_c cancels the change with code RESET. -/
def olcReset (s : State) : State := if s.olcState = 1 then olcRefused 8 (olcDisarm s) else s

/-- R123, R132: the commands of the online change of EXEC_CMD. -/
def olcCommand (c : Nat) (s : State) : State := if c = 6 then olcArm s else olcCancel s

/-! ### The change headland (R131, R133) -/

/-- A task of an image is of a module that the other image has too. DEDUCED (assumption 95). -/
def taskKept (old new : Image) (t : Nat) : Bool :=
  let d := tget TaskDesc.unused old.tasks t
  let e := tget TaskDesc.unused new.tasks t
  match moduleOf old d, moduleOf new e with
  | some a, some b => decide (a.uid = b.uid ∧ d.kind = e.kind ∧ d.func = e.func)
  | _, _ => decide (d.kind = 4 ∧ e.kind = 4)

/-- R133: a ready entry of a task that changes goes on under old code: a cyclic task's, a resumed one, a repeat. -/
def entryStays (s : State) (t : Nat) (e : ReadyEntry) : Bool :=
  decide (e.desc = t) && (decide ((s.desc t).kind = 1) || e.resume || e.again)

/-- R133: a task that changes runs, waits, or has a ready entry that goes on under old code. -/
def taskStays (s : State) (t : Nat) : Bool :=
  s.taskRuns t || decide ((s.task t).st = 3) || !(s.readyOf (entryStays s t)).isEmpty ||
    (decide ((s.desc t).kind = 3) && (s.flow (s.desc t).link).items.any fun it => it.st = .waiting)

/-- R133: the runs, the ready entries that go on, and the writes that wait for a run of a task become those of its old form. -/
def markOld (t : Nat) (s : State) : State :=
  let mark := fun (e : ReadyEntry) => if entryStays s t e then { e with old := true } else e
  (List.range 36).foldl (fun (u : State) k =>
    match u.run k with
    | some r => if r.entry.desc = t then u.setRun k (some { r with old := true, entry := { r.entry with old := true } }) else u
    | none => u) { s with
      collie := { s.collie with ready := s.collie.ready.map fun y => (y.1, y.2.map mark) }
      txn := { s.txn with deferred := s.txn.deferred.map fun w => if w.desc = t then { w with old := true } else w } }

/-- R192: the states of the two forms of a handler whose items go on under old code. -/
def settleOld (t : Nat) (s : State) : State :=
  if (s.desc t).kind ≠ 3 then s
  else
    let s1 := s.setOldTask t { s.oldTask t with st := handlerSt s true t, core := handlerCore s true t }
    s1.setTask t { s1.task t with st := handlerSt s1 false t }

/-- R118, R133: a task whose module changes: its run, its wait, or its readiness under old code becomes an old form, and its retained image
is kept beside; the new form starts from nothing but the posts that wait. DEDUCED (assumption 94). -/
def changeTask (t : Nat) (s : State) : State :=
  let x := s.task t
  let stays := taskStays s t
  let s1 := if stays then s.setOldTask t { x with queue := [] } else s
  let s2 := (s1.setOldRetained t (s.retained t)).setRetained t ⟨[], [], false, false⟩
  let s3 := s2.setTask t { TaskState.idle with queue := x.queue, st := if stays then 0 else x.st, sysNext := x.sysNext ||| 16 }
  if stays then settleOld t (markOld t s3) else s3

/-- R133: posts and items for an entry that the new image lacks are discarded and counted. -/
def dropLacking (new : Image) (t : Nat) (s : State) : State :=
  let e := tget TaskDesc.unused new.tasks t
  let was := (s.desc t).kind
  if was = 3 ∧ e.kind ≠ 3 then
    let f := (s.desc t).link
    let pending := fun (q : Nat) => !(s.readyOf fun x => decide (x.desc = t ∧ x.seq = some q) && !x.old).isEmpty
    let gone := fun (it : FlowItem) => decide (it.st = .queued) || (decide (it.st = .ready) && pending it.seq)
    let n := ((s.flow f).items.filter gone).length
    (flowLost f gone s).addSat R.EXEC_STOP_FLUSHED n
  else if e.kind = 2 ∨ e.kind = 3 ∨ e.kind = 4 ∨ (e.kind = 1 ∧ was = 1) then s
  else
    let lost := fun (x : ReadyEntry) => decide (x.desc = t) && !x.old
    let n := (s.readyOf lost).length + (s.task t).queue.length
    (dropQueue t ((discardReady lost s).setTask t { TaskState.idle with queue := (s.task t).queue })).addSat R.EXEC_STOP_FLUSHED n

/-- R159: the ready entries of kept tasks stand in the lists of their new home plots and levels, in the order of service. -/
def relistReady (s : State) : State :=
  let place := fun (i : Nat) (e : ReadyEntry) =>
    let d := s.descOf e.old e.desc
    d.home * 16 + if i % 16 = 8 then 8 else d.prio
  let all := readyKeys.flatMap fun i => (tget [] s.collie.ready i).map fun e => (place i e, e)
  { s with collie := { s.collie with ready := readyKeys.foldl (fun t i => tset [] t i ((all.filter fun x => x.1 = i).map (·.2))) [] } }

/-- R134: the valid copies of the tasks that the change keeps and its mapping names, as they are at H_c. -/
def mapCopies (old : Image) (maps : List MapEntry) (changed : List Nat) (s : State) : State :=
  let slots := old.modules.filterMap fun m => if maps.any (fun e => e.oldModule = m.id) then some m.slot else none
  let kept := (old.tasks.filter fun x => slots.contains x.2.modSlot ∧ ¬ changed.contains x.1).map (·.1)
  { s with collie := { s.collie with mapFrom := kept.foldl (fun m t => tset none m t (some (s.retained t).valid)) [] } }

/-- R131: a force at H_c: an entry of a point that the new image deletes is disabled, and one that no task writes is marked. -/
def forceChange (old new : Image) (e : Nat) (s : State) : State :=
  let c := R.FORCE_e_CTRL e
  let r := (s.reg (R.FORCE_e_POINT e)).toNat
  let input := s.flag c F.FORCE_e_CTRL.INPUT
  match etypeOf (s.get c F.FORCE_e_CTRL.TYPE) with
  | none => s
  | some t =>
    let points := fun (im : Image) => if input then im.ins.any (fun x => refOverlap r t x.1 x.2)
      else im.outs.any fun o => refOverlap r t o.ref o.ty
    if points old && !points new then
      ((s.put c F.FORCE_e_CTRL.EN 0).setReg R.FORCE_REMOVED_POINT (BitVec.ofNat 32 r)).raiseNamed R.FORCE_EVENTS
        F.FORCE_EVENTS.REMOVED 5 (BitVec.ofNat 64 r)
    else if !input && !hasWriter new r t then
      (s.put c F.FORCE_e_CTRL.UNWRITTEN 1).raise R.FORCE_EVENTS F.FORCE_EVENTS.UNWRITTEN
    else if !input then s.put c F.FORCE_e_CTRL.UNWRITTEN 0
    else s

/-- R151: the enable and policy of the tasks of an image as the image gives them. -/
def loadTaskCtrl (ts : List (Nat × TaskDesc)) (s : State) : State :=
  s.forAll ts fun (t, d) u => u.setReg (R.EXEC_t_TASK_CTRL t) (BitVec.ofNat 32 (b2n d.enable + 2 * (d.policy % 4)))

/-- R304: the signals of an image; one whose settings change has no last record. -/
def loadSignals (sigs : Tbl SigCfg) (s : State) : State :=
  { s with glean := { s.glean with
    sigs := sigs, staged := []
    states := s.glean.states.filter fun x => tget SigCfg.unused sigs x.1 = s.sig x.1 } }

/-- R133: H_c: the headlands begin to make new-image tasks ready, and forces are checked against the new image. DEDUCED (assumption 96). -/
def olcChange (s : State) : State :=
  match s.newImage with
  | none => s
  | some b =>
    if s.olcState ≠ 1 ∨ s.headIndex ≠ s.exec.olcAt then s
    else
      let old := s.image
      let new := b.img
      let changed := (old.tasks.map (·.1)).filter fun t => !taskKept old new t
      let fresh := new.tasks.filter fun x => !taskKept old new x.1
      let s1 := (mapCopies old new.maps changed s).forAll changed fun t u => dropLacking new t (changeTask t u)
      let s2 : State := { s1 with
        image := new, oldImage := some old, newImage := none
        exec := { s1.exec with
          olcSeen := s.head.classDue, newGlean := (b.regs.find? fun x => x.1 = (R.GLEAN_CTRL).addr).map (·.2) } }
      let s3 := (relistReady s2).forAll (fresh.filter fun x => (tget TaskDesc.unused old.tasks x.1).kind % 4 = 0) fun x u =>
        (u.setTask x.1 { u.task x.1 with sysNext := 17 }).setRetained x.1 ⟨[], [], false, false⟩
      let s4 := s3.forAll (changed.filter fun t => (s3.task t).st = 0 ∧ (s3.desc t).kind = 2) fun t u => nextPost t u
      let s5 := s4.forAll s4.forceEntries fun e u => forceChange old new e u
      (loadSignals (boundSigs new.modules b.sigs) (loadTaskCtrl fresh s5)).put R.EXEC_STATUS F.EXEC_STATUS.OLC_STATE 2

/-! ### Completion (R136) -/

/-- R136: every old-image task has completed, and every enabled class has had a class headland at or after H_c. -/
def olcFinished (s : State) : Bool :=
  s.collie.oldTasks.all (fun x => decide (x.2.st = 0)) &&
    (List.range 4).all fun c => !s.classOn c || natBit s.exec.olcSeen c

/-- R327: the new image becomes active and sets EN and SPOOL_EN. -/
def newGleanCtrl (s : State) : State :=
  match s.exec.newGlean with
  | none => s
  | some w =>
    let t := { s with exec := { s.exec with newGlean := none } }
    gleanCtrlWrite ((t.reg R.GLEAN_CTRL &&& ~~~(3 : Word)) ||| (w &&& 3)) t

/-- R497: an image that became active brings its safety parameter set. -/
def newSafetySet (s : State) : State :=
  match s.configBody s.activeSlot with
  | some b => setPending b.safety s
  | none => s

/-- R136: the change completes. DESIGN CHOICE (assumption 97). -/
def olcComplete (s : State) : State :=
  if s.olcState ≠ 2 || !olcFinished s then s
  else
    let s1 := s.forAll ((s.collie.retained.filter fun x => !x.2.built).map (·.1)) fun t u => buildRetained t u
    let keep := fun (u : Nat) => s.image.modules.any fun m => m.uid = u
    let s2 : State := { s1 with
      oldImage := none
      collie := { s1.collie with
        oldTasks := [], oldRetained := [], mapFrom := [], globals := s1.collie.globals.filter fun x => keep x.1 }
      exec := { s1.exec with cutAsked := max 3 s1.exec.cutAsked } }
    let s3 := s2.setReg64 R.EXEC_OLC_DONE_LO R.EXEC_OLC_DONE_HI (BitVec.ofNat 64 s2.exec.olcAt)
    newSafetySet (newGleanCtrl (((s3.setReg R.SEC_IMAGE_STATUS (s3.reg R.SEC_IMAGE_STATUS ^^^ 0x20000)).put R.EXEC_STATUS F.EXEC_STATUS.OLC_STATE 0).raise
      R.EXEC_EVENTS F.EXEC_EVENTS.OLC_DONE))

/-! ### The commands -/

/-- OLC_ARM (R132). -/
def execOlcArm (s : State) : Out := ok (ctrlCmdWrite olcCommand (keyed 6) s)
/-- OLC_CANCEL (R132). -/
def execOlcCancel (s : State) : Out := ok (ctrlCmdWrite olcCommand (keyed 7) s)
/-- OLC_CHANGE_HEADLAND (R133). -/
def execOlcChangeHeadland (s : State) : Out := ok (olcChange s)
/-- OLC_COMPLETE (R136). -/
def execOlcComplete (s : State) : Out := ok (olcComplete s)

end Sys2Proof.Machine
end

