-- ==== Sys2Proof/Machine/Security.lean ====
section
/-! DEFINITION. Chapter 15: images and roots, the one-time state, lifecycle, debug access and tamper. -/

namespace Sys2Proof.Machine

/-! ### Access -/

/-- A change of the security block. -/
def State.modSec (s : State) (f : Security → Security) : State := { s with sec := f s.sec }
/-- R566: the anti-rollback counter E. -/
def Security.rollback (x : Security) : Nat := max x.cOtp x.cMir
/-- R573: the lifecycle state. -/
def Security.lifecycle (x : Security) : Nat := if x.retired then 4 else if x.keys.isNone then 0 else x.life
/-- R573: the lifecycle state of the device. -/
def State.lifecycle (s : State) : Nat := s.sec.lifecycle
/-- A root slot of the ECDSA (false) or LMS scheme. -/
def Security.root (x : Security) (lms : Bool) (n : Nat) : RootSlot := tget RootSlot.empty (if lms then x.rootL else x.rootE) n
/-- A root slot set. -/
def Security.setRoot (x : Security) (lms : Bool) (n : Nat) (r : RootSlot) : Security :=
  if lms then { x with rootL := tset RootSlot.empty x.rootL n r } else { x with rootE := tset RootSlot.empty x.rootE n r }
/-- R565: a root slot that is programmed and not revoked. -/
def RootSlot.usable (r : RootSlot) : Bool := r.hash.isSome && !r.revoked
/-- The usable root slots of a scheme, as a mask. -/
def Security.usable (x : Security) (lms : Bool) : Nat :=
  ((List.range 4).map fun n => if (x.root lms n).usable then 2 ^ n else 0).sum
/-- The slots of a scheme that hold a predicate, as a mask. -/
def Security.rootMask (x : Security) (lms : Bool) (p : RootSlot → Bool) : Nat :=
  ((List.range 4).map fun n => if p (x.root lms n) then 2 ^ n else 0).sum
/-- R616: a power failure is qualified and not released. -/
def State.pfailOn (s : State) : Bool := s.flag R.CLK_STATUS F.CLK_STATUS.PFAIL
/-- The running firmware slot: 0 A, 1 B. -/
def State.fwSlot (s : State) : Nat := s.get R.CLK_STATUS F.CLK_STATUS.FW_SLOT
/-- The image in a slot. -/
def State.imageFile (s : State) (k : Nat) : Option ImageFile := tget none s.slots k

/-! ### Verification (R567, R568) -/

/-- R567: the result of an image under the security block's state: 1 VALID, or the first check that fails. -/
def imageResultOf (x : Security) (f : ImageFile) : Nat :=
  let e := x.root false f.eSlot
  let l := x.root true f.lSlot
  if !f.formed then 2
  else if !f.fits then 3
  else if f.bind ≠ 0 ∧ f.bind ≠ x.serial then 4
  else if !natBit f.lifecycles x.lifecycle then 5
  else if ¬ (e.hash = some f.eHash ∧ l.hash = some f.lHash) then 6
  else if e.revoked || l.revoked then 7
  else if f.rollback < x.rollback then 8
  else if !f.bodyOk then 9
  else if !f.ecdsaOk then 10
  else if !f.hssOk then 11
  else 1

/-- R568: the image in a slot is verified. -/
def verifySlot (k : Nat) (s : State) : State :=
  match s.imageFile k with
  | none => setImageResult k 0 s
  | some f =>
    let r := imageResultOf s.sec f
    let s1 := setImageResult k r s
    if r = 1 then s1 else s1.raise R.SEC_EVENTS F.SEC_EVENTS.IMAGE_REFUSED

/-- R568: the stored images are verified again. -/
def verifyAll (s : State) : State := s.forAll (List.range 4) fun k t => verifySlot k t

/-- R567, R568: an image is verified: the one given, as the slot's bytes give it, or the one that the slot holds. -/
def imageVerify (k : Nat) (f : Option ImageFile) (s : State) : State :=
  if s.joa.xfers.any fun x => x.slot = k then s
  else
    match f with
    | none => verifySlot k s
    | some x => verifySlot k { s with slots := tset none s.slots k (some x) }

/-! ### Wipes (R574, R580) -/

/-- R530: an address lies in the secure bank or in a secure window. -/
def State.inSecure (s : State) (a : Nat) : Bool :=
  (List.range 9).any fun k =>
    let (b, n) := bankPlace k
    decide (b ≤ a ∧ a < b + n ∧ b + n - (if k = 8 then n else s.secWin k) ≤ a)

/-- R574, R580: the secure bank and every secure window are cleared, and every session ends. -/
def wipeSecure (s : State) : State :=
  let s1 := endSessions 5 s
  { s1 with mem := s1.mem.filter fun x => !s1.inSecure x.1 }

/-- R574, R580: what the wipe of the granary secure region takes. -/
def Security.wiped (x : Security) : Security :=
  { x with cMir := 0, life := 0, keys := none, hosts := [], lmsN := 0, lmsR := 0, lmsLost := 0 }

/-- R612: a cold reset is on its way, with SOURCE 3. -/
def coldSoon (s : State) : State :=
  { s with resets := { s.resets with cold := (s.resets.cold.map some).getD (some (3, s.raw)) } }

/-! ### The one-time state (R571) -/

/-- R571: the reservation R is moved on by 1,024 leaves, in the granary secure region. -/
def lmsReserve (s : State) : State := granWait .secure 64 (s.modSec fun y => { y with lmsR := y.lmsR + 1024 })

/-- R571: a leaf of the HSS key is used; none while it is exhausted or absent. -/
def lmsUse (s : State) : Option Nat × State :=
  let x := s.sec
  if x.keys.isNone ∨ 2 ^ 30 ≤ x.lmsN then (none, s)
  else
    let near : Bool := decide (x.lmsR ≤ x.lmsN + 256)
    let s1 := if near then lmsReserve s else s
    let s2 := s1.modSec fun y => { y with lmsN := x.lmsN + 1 }
    (some x.lmsN, if x.lmsN + 1 = 2 ^ 30 - 2 ^ 24 then s2.raise R.SEC_EVENTS F.SEC_EVENTS.LMS_LOW else s2)

/-- R571: at a start N is set to R, and the unused leaves are counted. -/
def lmsStart (x : Security) : Security :=
  { x with lmsN := x.lmsR, lmsLost := min 0xFFFFFFFF (x.lmsLost + (x.lmsR - x.lmsN)) }

/-- R571: LMS_EXHAUSTED. -/
def Security.exhausted (x : Security) : Bool := decide (2 ^ 30 ≤ x.lmsN)

/-- Bytes that the spec leaves open: keys, nonces and signatures. DESIGN CHOICE (assumption 115). -/
def State.freeBytes (s : State) (n : Nat) : List Byte × State := 
  ((List.range n).map (Config.freeByte s.free), { s with free := s.free + 1 })

/-! ### SEC_CMD (R565, R566, R574, R585) -/

/-- R585: the result of a command. -/
def secResult (op code : Nat) (s : State) : State :=
  (s.setReg R.SEC_CMD_RESULT (BitVec.ofNat 32 (op + 256 * code))).raiseIf (code ≠ 0) R.SEC_EVENTS F.SEC_EVENTS.CMD_REFUSED

/-- R574: a transition took place. -/
def transition (life : Nat) (s : State) : State :=
  (s.modSec fun x => { x with life := life }).raise R.SEC_EVENTS F.SEC_EVENTS.LIFECYCLE

/-- R574: PROVISION. -/
def secProvision (s : State) : State :=
  if s.lifecycle ≠ 0 then secResult 1 2 s
  else if s.sec.usable false = 0 ∨ s.sec.usable true = 0 then secResult 1 4 s
  else secResult 1 0 ((wipeSecure s).modSec fun x => { x with running := some 1 })

/-- R574: OPERATE. DEDUCED (assumption 126). -/
def secOperate (s : State) : State :=
  if s.lifecycle = 1 then
    if s.sec.hosts.all fun x => x.2.isNone then secResult 2 5 s
    else secResult 2 0 (coldSoon (transition 2 (wipeSecure s)))
  else if s.lifecycle = 3 then
    if s.ctrlStopped then secResult 2 0 (transition 2 (wipeSecure s)) else secResult 2 3 s
  else secResult 2 2 s

/-- R574: SERVICE. -/
def secService (s : State) : State :=
  if s.lifecycle ≠ 2 then secResult 3 2 s
  else if s.ctrlStopped then secResult 3 0 (transition 3 (wipeSecure s))
  else secResult 3 3 s

/-- R574: RETIRE and DEPROVISION, whose wipe takes time. DEDUCED (assumption 126). -/
def secLeave (op : Nat) (s : State) : State :=
  let from_ : Bool := if op = 4 then decide (s.lifecycle ≠ 4) else decide (1 ≤ s.lifecycle ∧ s.lifecycle ≤ 3)
  if !from_ then secResult op 2 s
  else if !s.ctrlStopped then secResult op 3 s
  else secResult op 0 ((wipeSecure s).modSec fun x => { x with running := some op })

/-- R565: REVOKE of a root slot. -/
def secRevoke (lms : Bool) (n : Nat) (s : State) : State :=
  let x := s.sec
  let y := x.setRoot lms n { x.root lms n with revoked := true }
  let last : Bool := (x.root lms n).usable && decide (y.usable lms = 0)
  let none_ := (List.range 2).all fun k => match s.imageFile k with
    | none => true
    | some f => decide (imageResultOf y f ≠ 1)
  if s.lifecycle = 4 then secResult 6 2 s
  else if last || none_ then secResult 6 6 s
  else secResult 6 0 (verifyAll (s.modSec fun _ => y))

/-- R566: ROLLBACK_ADVANCE. -/
def secAdvance (s : State) : State :=
  let r := ((s.imageFile s.fwSlot).map (·.rollback)).getD 0
  let older := match s.imageFile s.activeSlot with
    | none => false
    | some f => decide (s.image.id = f.id ∧ f.rollback < r)
  if s.lifecycle = 4 then secResult 7 2 s
  else if r ≤ s.sec.rollback || older then secResult 7 7 s
  else secResult 7 0 ((verifyAll (s.modSec fun x => { x with cMir := r, cOtp := max x.cOtp r })).raise R.SEC_EVENTS
    F.SEC_EVENTS.ROLLBACK_ADVANCED)

/-- R585: a write of SEC_CMD. DEDUCED (assumption 128). -/
def secCmdWrite (v : Word) (s : State) : State :=
  let op := fldOf F.SEC_CMD.OP v
  let key := fldOf F.SEC_CMD.KEY v
  if (key ≠ if op = 4 then 0x5254 else 0x4A58) ∨ op = 0 ∨ 7 < op then s
  else if s.sec.running.isSome then secResult op 1 s
  else if s.pfailOn then secResult op 2 s
  else
    match op with
    | 1 => secProvision s
    | 2 => secOperate s
    | 3 => secService s
    | 4 => secLeave 4 s
    | 5 => secLeave 5 s
    | 6 => secRevoke (fldOf F.SEC_CMD.SCHEME v = 1) (fldOf F.SEC_CMD.SLOT v) s
    | _ => secAdvance s

/-- R574: the generation of the identity keys, or the wipe of a DEPROVISION or RETIRE, ends, and a cold reset follows. -/
def transitionEnd (s : State) : State :=
  match s.sec.running with
  | none => s
  | some op =>
    let s1 := s.modSec fun x => { x with running := none }
    if op = 1 then
      let (k, s2) := s1.freeBytes 157
      coldSoon (transition 1 (s2.modSec fun x => { x with keys := some k, lmsN := 0, lmsR := 0, lmsLost := 0 }))
    else if op = 5 then coldSoon (transition 0 (s1.modSec Security.wiped))
    else
      let s2 := s1.modSec fun x => { x.wiped with retired := true }
      let s3 : State := { s2 with
        mem := s2.mem.filter fun x => ¬ (0x14000000 ≤ x.1 ∧ x.1 < 0x15000000)
        slots := tset none (tset none s2.slots 2 none) 3 none
        joa := { s2.joa with stores := tset none (tset none s2.joa.stores 2 none) 3 none }
        exec := { s2.exec with stored := [] }
        gran := { s2.gran with persist := [], saved := [], head := 0, segSeq := 0, places := [] } }
      coldSoon (transition 4 (setImageResult 2 0 (setImageResult 3 0 s3)))

/-! ### Firmware activation (R569, R620) -/

/-- R569, R620: a write of FW_ACTIVATE: its STATUS, and the state. DEDUCED (assumption 125). DESIGN CHOICE (assumption 188). -/
def fwActivate (n : Nat) (s : State) : Nat × State :=
  if s.pfailOn || decide (s.shutStep ≠ 0) then (stState, s)
  else if n = s.fwSlot ∨ 2 ≤ n then (stRange, s)
  else if s.joa.xfers.any fun x => x.slot = n then (stBusy, s)
  else if s.imageResult n ≠ 1 then (stState, s)
  else
    (0, granWait .secure 64 { s with
      sec := { s.sec with activating := some n }
      resets := { s.resets with trial := some n, warm := s.resets.warm ++ [⟨5, s.raw + 1024, none⟩] } })

/-! ### Debug access (R578) -/

/-- R578: a response to the challenge: the root slot it names, and whether its signature verifies. -/
def debugUnlock (n : Nat) (good : Bool) (s : State) : State :=
  let life := s.lifecycle
  if (life = 0 ∨ life = 1 ∨ life = 3) && (s.sec.root false n).usable && good then
    (s.modSec fun x => { x with unlocked := true, everUnlocked := true }).raise R.SEC_EVENTS F.SEC_EVENTS.DEBUG_UNLOCK
  else s

/-- R578, R179: the debugger halts a core; while the controller runs it is fenced with cause HOST. DEDUCED (assumption 127). -/
def debugHalt (k : Nat) (s : State) : State :=
  if s.sec.unlocked && s.ctrlRunning then fenceCore k 4 s else s

/-! ### Tamper (R579, R580) -/

/-- R640: the voltage tamper source is armed: the PLL is locked, PORST_L is high, and PFAIL_L is not qualified. -/
def voltageArmed (s : State) : Bool := s.pllLocked && !s.resets.porst && !s.pfailOn

/-- R579, R580, R640: tamper sources are detected. -/
def tamperDetect (sources : Nat) (s : State) : State :=
  let src := sources % 32 &&& ((s.reg R.SEC_TAMPER_CFG).toNat % 32) &&& (if voltageArmed s then 31 else 27)
  let s0 := s.setReg R.SEC_TAMPER_LIVE (BitVec.ofNat 32 (sources % 32))
  if src = 0 ∨ s.sec.wiping then s0
  else
    ((wipeSecure s0).modSec fun x => { x with
      wiping := true, unlocked := false, running := none
      tamperSrc := src, tamperCnt := min 65535 (x.tamperCnt + 1), tamperV := s.vT64 }).raise R.SEC_EVENTS F.SEC_EVENTS.TAMPER

/-- R580: the tamper wipe completes, and a cold reset into BLANK follows. -/
def tamperWipeDone (s : State) : State :=
  if !s.sec.wiping then s else coldSoon (s.modSec fun x => { x.wiped with wiping := false })

/-! ### The commands -/

/-- A key word of SEC_CMD. -/
def secKeyed (op : Nat) : Word := BitVec.ofNat 32 (op + 65536 * if op = 4 then 0x5254 else 0x4A58)

/-- PROVISION (R574). -/
def execProvision (s : State) : Out := ok (secCmdWrite (secKeyed 1) s)
/-- OPERATE (R574). -/
def execOperate (s : State) : Out := ok (secCmdWrite (secKeyed 2) s)
/-- SERVICE (R574). -/
def execService (s : State) : Out := ok (secCmdWrite (secKeyed 3) s)
/-- RETIRE (R574). -/
def execRetire (s : State) : Out := ok (secCmdWrite (secKeyed 4) s)
/-- DEPROVISION (R574). -/
def execDeprovision (s : State) : Out := ok (secCmdWrite (secKeyed 5) s)
/-- REVOKE (R565). -/
def execRevoke (lms : Bool) (n : Fin 4) (s : State) : Out := ok (secCmdWrite (secKeyed (6 + 16 * n + 64 * b2n lms)) s)
/-- ROLLBACK_ADVANCE (R566). -/
def execRollbackAdvance (s : State) : Out := ok (secCmdWrite (secKeyed 7) s)
/-- FW_ACTIVATE (R569). -/
def execFwActivate (n : Byte) (s : State) : Out := ok (fwActivate n.toNat s).2
/-- IMAGE_VERIFY (R567). -/
def execImageVerify (k : Fin 4) (f : Option ImageFile) (s : State) : Out := ok (imageVerify k f s)
/-- DEBUG_UNLOCK (R578). -/
def execDebugUnlock (n : Fin 4) (good : Bool) (s : State) : Out := ok (debugUnlock n good s)
/-- TAMPER_DETECT (R580): the sources now active. -/
def execTamperDetect (sources : BitVec 5) (s : State) : Out := ok (tamperDetect sources.toNat s)
/-- TAMPER_WIPE_DONE (R580). -/
def execTamperWipeDone (s : State) : Out := ok (tamperWipeDone s)
/-- LIFECYCLE_TRANSITION_END (R574). -/
def execLifecycleTransitionEnd (s : State) : Out := ok (transitionEnd s)
/-- DEBUG_HALT (R578). -/
def execDebugHalt (k : Fin 36) (s : State) : Out := ok (debugHalt k s)
/-- HELLO_LOCKOUT_END (R577). -/
def execHelloLockoutEnd (h : HostAddr) (s : State) : Out :=
  ok { s with joa := { s.joa with lockouts := s.joa.lockouts.filter fun x => x.1 ≠ h } }

end Sys2Proof.Machine
end

