-- ==== Sys2Proof/Machine/Banks.lean ====
section
/-! DEFINITION. Chapter 14: accesses of bus masters to the banks, the aliases and the granary window (R527 to R533, R535). -/

namespace Sys2Proof.Machine

/-- R527: the bank that an address lies in. -/
def bankOf (a : Nat) : Option Nat :=
  (List.range 9).find? fun k => (bankPlace k).1 ≤ a ∧ a < (bankPlace k).1 + (bankPlace k).2

/-- R528, R529: what a master is as an owner of banks: 1 to 4 a plot, 5 the capture engine, 6 the JOA and network engine; 7
owns nothing. A core that runs a task carries the identity of the task's home plot. -/
def ownerOf (m : Master) (s : State) : Nat :=
  match m with
  | .core k => match s.run k with
    | some r => (s.descOf r.old r.entry.desc).home + 1
    | none => k / 9 + 1
  | .dma 0 => 5
  | .dma 1 => 6
  | .dma _ => 7
  | .joa _ => 6

/-- R527, R529, R530: the reason for which a bank turns an access away; 0 none. -/
def bankFault (s : State) (who a : Nat) (write : Bool) : Nat :=
  match bankOf a with
  | none => 4
  | some k =>
    if s.inSecure a then 2
    else if write ∧ s.flag (R.MEM_k_CFG k) F.MEM_k_CFG.OWNED ∧ s.get (R.MEM_k_OWNER k) F.MEM_k_OWNER.OWNER ≠ who then 1
    else 0

/-- R81, R157: the retained pair that a byte offset of a plot bank lies in: the task, the size of a copy, and the offset in the pair. -/
def retainedAt (s : State) (p o : Nat) : Option (Nat × Nat × Nat) :=
  s.image.tasks.findSome? fun (t, d) =>
    let n := (retainSize s.image d + 7) / 8 * 8
    if (d.kind = 1 ∨ d.kind = 2 ∨ d.kind = 3) ∧ d.home = p ∧ d.retainOff ≤ o ∧ o < d.retainOff + 8 + 2 * n then
      some (t, n, o - d.retainOff)
    else none

/-- R82: what a byte offset of a plot bank, a multiple of 8, lies in: a word of the image of a module (true) or of its global area. -/
def moduleWordAt (s : State) (p o : Nat) : Option (Module × Bool × Nat) :=
  s.image.modules.findSome? fun m =>
    let a := Config.moduleAt m.slot * 64 % 0x400000
    let g := Config.globalAt m.slot * 8 % 0x400000
    if m.home ≠ p then none
    else if a ≤ o ∧ o < a + m.bytes.length then some (m, true, (o - a) / 8)
    else if g ≤ o ∧ o < g + m.globalSize then some (m, false, (o - g) / 8)
    else none

/-- R82: a word of a module image in its bank: as loaded, or as written since. -/
def codeWord (s : State) (m : Module) (i : Nat) : Quad :=
  (tget none (tget [] s.collie.codeMem m.uid) i).getD (BitVec.ofNat 64 (leNat ((m.bytes.drop (8 * i)).take 8)))

/-- R82: a word of a module image in its bank written. What runs is the module as verified. DESIGN CHOICE (assumption 238). -/
def setCodeWord (m : Module) (i : Nat) (q : Quad) (s : State) : State :=
  { s with collie := { s.collie with codeMem := tset [] s.collie.codeMem m.uid (tset none (tget [] s.collie.codeMem m.uid) i (some q)) } }

/-- The word of a module image, a global area, or else of the memory, at an address of a plot bank. -/
def plotWord (s : State) (a : Nat) : Quad :=
  match moduleWordAt s (a / 0x400000 % 4) (a % 0x400000) with
  | none => BitVec.ofNat 64 (imgNat s.mem a 8)
  | some (m, true, i) => codeWord s m i
  | some (m, false, i) => tget 0 (tget [] s.collie.globals m.uid) i

/-- The word of a module image, a global area, or else of the memory, at an address of a plot bank, set. -/
def setPlotWord (a : Nat) (q : Quad) (s : State) : State :=
  match moduleWordAt s (a / 0x400000 % 4) (a % 0x400000) with
  | none => s.memWrite a (leBytes 8 q.toNat)
  | some (m, true, i) => setCodeWord m i q s
  | some (m, false, i) => s.setGlobal m.uid i q

/-- The 64-bit word of a bank at an address that is a multiple of 8. -/
def bankWord (s : State) (a : Nat) : Quad :=
  if 0x11000000 ≤ a then BitVec.ofNat 64 (imgNat s.mem a 8)
  else
    match retainedAt s (a / 0x400000 % 4) (a % 0x400000) with
    | none => plotWord s a
    | some (t, n, o) =>
      if o = 0 then (if (s.retained t).selB then 2 else 1)
      else if o < 8 + n then tget 0 (s.retained t).a ((o - 8) / 8)
      else tget 0 (s.retained t).b ((o - 8 - n) / 8)

/-- The 64-bit word of a bank at an address that is a multiple of 8, set. -/
def setBankWord (a : Nat) (q : Quad) (s : State) : State :=
  if 0x11000000 ≤ a then s.memWrite a (leBytes 8 q.toNat)
  else
    match retainedAt s (a / 0x400000 % 4) (a % 0x400000) with
    | none => setPlotWord a q s
    | some (t, n, o) =>
      let r := s.retained t
      s.setRetained t
        (if o = 0 then { r with selB := q = 2 }
         else if o < 8 + n then { r with a := tset 0 r.a ((o - 8) / 8) q }
         else { r with b := tset 0 r.b ((o - 8 - n) / 8) q })

/-- The bytes of a word with some replaced from a place on. -/
def mergeBytes (q : Quad) (o : Nat) (l : List Byte) : Quad :=
  let old := leBytes 8 q.toNat
  BitVec.ofNat 64 (leNat (old.take o ++ l ++ old.drop (o + l.length)))

/-- R533: bytes within one word stored: a full write clears the poison of the word, any other write of a poisoned word is dropped. -/
def bankStore (a : Nat) (l : List Byte) (s : State) : State :=
  let w := a / 8 * 8
  if w ∈ s.gran.poison then
    if l.length = 8 then
      setBankWord w (BitVec.ofNat 64 (leNat l)) { s with gran := { s.gran with poison := s.gran.poison.filter (· ≠ w) } }
    else s
  else setBankWord w (mergeBytes (bankWord s w) (a % 8) l) s

/-- R17, R531, R533: a write takes effect at the bank: bytes stored, or the bits of one word set or cleared in one step; an alias write to a
poisoned word is dropped. -/
def bankDo (op : BankOp) (a : Nat) (l : List Byte) (s : State) : State :=
  let w := a / 8 * 8
  let bits := mergeBytes 0 (a % 8) l
  match op with
  | .store => bankStore a l s
  | .setBits => if w ∈ s.gran.poison then s else setBankWord w (bankWord s w ||| bits) s
  | .clearBits => if w ∈ s.gran.poison then s else setBankWord w (bankWord s w &&& ~~~bits) s

/-- R529: a write of a master to a bank: turned away, held while a hand-over drains, or done; and whether it was not turned away.
DESIGN CHOICE (assumption 121). -/
def bankIssue (op : BankOp) (who a : Nat) (l : List Byte) (s : State) : Bool × State :=
  let f := bankFault s who a true
  if f ≠ 0 then (false, violation f a s)
  else
    let k := (bankOf a).getD 0
    if s.flag (R.MEM_k_OWNER k) F.MEM_k_OWNER.DRAINING then
      (true, { s with gran := { s.gran with held := s.gran.held ++ [⟨k, a, op, l⟩] } })
    else (true, bankDo op a l s)

/-- R529: a plain write of a master to a bank. -/
def bankWrite (who a : Nat) (l : List Byte) (s : State) : Bool × State := bankIssue .store who a l s

/-- R527, R530, R533: n bytes within one word of a bank read: zeros where the access is turned away or the word is poisoned.
DESIGN CHOICE (assumption 121). -/
def bankRead (who a n : Nat) (s : State) : List Byte × State :=
  let f := bankFault s who a false
  let w := a / 8 * 8
  if f ≠ 0 then (List.replicate n 0, violation f a s)
  else if w ∈ s.gran.poison then (List.replicate n 0, uncorrectable w s)
  else (((leBytes 8 (bankWord s w).toNat).drop (a % 8)).take n, s)

/-- R532: a write of port B meets a write of port A that is not turned away, to the same word of the shared bank. DEDUCED (assumption 167). -/
def collide (a : Nat) (portB : Bool) (x : Bool × State) : State :=
  if portB ∧ x.1 ∧ bankOf a = some 7 then (x.2.incSat R.MEM_COLLIDE_CNT).raise R.MEM_EVENTS F.MEM_EVENTS.COLLIDED else x.2

/-- R531: a write through the bit-set or bit-clear alias of a bank address, of 4 or 8 bytes. DEDUCED (assumption 166). -/
def aliasWrite (set : Bool) (who a n : Nat) (v : Quad) (s : State) : Bool × State :=
  if (n ≠ 4 ∧ n ≠ 8) ∨ a % n ≠ 0 then (false, violation 5 a s)
  else bankIssue (if set then .setBits else .clearBits) who a (leBytes n v.toNat) s

/-- R529: the drain of a bank ends, and the writes of the new owner that were held proceed in their order. -/
def drainEnd (k : Nat) (s : State) : State :=
  if !s.flag (R.MEM_k_OWNER k) F.MEM_k_OWNER.DRAINING then s
  else
    let mine := s.gran.held.filter fun x => x.bank = k
    let s1 : State := { s with gran := { s.gran with
      held := s.gran.held.filter fun x => x.bank ≠ k, drains := tset (0, 0) s.gran.drains k (0, 0) } }
    (s1.forAll mine fun x t => bankDo x.op x.addr x.bytes t).put (R.MEM_k_OWNER k) F.MEM_k_OWNER.DRAINING 0

/-! ### The commands -/

/-- DRAIN_END (R529). -/
def execDrainEnd (k : Fin 9) (s : State) : Out := ok (drainEnd k s)

end Sys2Proof.Machine
end

