-- ==== Sys2Proof/Machine/Establish.lean ====
section
/-! DEFINITION. Chapter 15: the establishment of a JOA session (R576, R577). Signatures and the random bytes the device draws are
results of cryptography: whether a signature verifies is an operand, and drawn bytes are free. -/

namespace Sys2Proof.Machine

/-- R576: an answer in clear, to a host, on an uplink. -/
def clearAnswer (h : HostAddr) (up : Nat) (body : List Byte) (s : State) : State :=
  let t := s.incSat (R.UPLINK_p_TX_CNT up)
  { t with joa := { t.joa with clear := some (h, body) } }

/-- R431, R435, R487, R568: a carrier is enabled on an enabled uplink; in recovery only raw Ethernet with jumbo frames on UP0 serves. -/
def carrierOn (s : State) (h : HostAddr) (up : Nat) : Bool :=
  natBit (s.reg R.JOA_CTRL).toNat h.carrier &&
    if s.resets.recovery then decide (h.carrier = 2 ∧ up = 0) && s.flag (R.UPLINK_p_CTRL up) F.UPLINK_p_CTRL.JUMBO else s.uplinkOn up

/-- R484: a JOA frame of a host is passed on, or discarded and counted. -/
def joaHeard (h : HostAddr) (up : Nat) (f : State → State) (s : State) : State :=
  if carrierOn s h up then f (s.incSat (R.UPLINK_p_RX_CNT up))
  else if s.uplinkOn up then s.incSat (R.UPLINK_p_DISCARD_CNT up)
  else s

/-- R435, R576: the most bytes that a carrier takes. -/
def carrierMax (s : State) (h : HostAddr) (up : Nat) : Nat :=
  if h.carrier = 2 ∧ ¬ s.flag (R.UPLINK_p_CTRL up) F.UPLINK_p_CTRL.JUMBO then 1464 else 8192

/-- R577: the refusal of a HELLO; 0 where it is accepted. -/
def helloStatus (s : State) (h : HostAddr) (role slot : Nat) : Nat :=
  let root : Bool := decide (0x80 ≤ slot ∧ slot < 0x84)
  let used := (List.range 32).filter fun k => (s.session k).st ≠ 0
  let shaking := (List.range 32).filter fun k => (s.session k).st = 1
  let good : Bool :=
    if root then (s.sec.root false (slot % 4)).usable && decide (role = 4)
    else match tget none s.sec.hosts slot with
      | some k => decide (slot < 16 ∧ role < 5) && natBit k.roles role
      | none => false
  if s.lifecycle = 4 ∨ (s.sec.exhausted ∧ ¬ root) then stState
  else if s.joa.lockouts.any fun x => x.1 = h then stBusy
  else if used.length = 32 ∨ 4 ≤ shaking.length then stBusy
  else if !good then stAccess
  else 0

/-- R570, R577: the signatures over TH1: none for a root-key session in BLANK or with LMS_EXHAUSTED. -/
def helloSign (root : Bool) (s : State) : (List Byte × List Byte) × State :=
  if s.sec.keys.isNone ∨ (root ∧ s.lifecycle = 0) then ((List.replicate 96 0, []), s)
  else
    match lmsUse s with
    | (none, s1) => ((List.replicate 96 0, []), s1)
    | (some _, s1) =>
      let (e, s2) := s1.freeBytes 96
      let (l, s3) := s2.freeBytes 3284
      ((e, l), s3)

/-- R577: a HELLO that is passed on takes a session, or is refused. -/
def helloHeard (h : HostAddr) (up role slot most : Nat) (nonce eph : List Byte) (req : Nat) (s : State) : State :=
  let st := helloStatus s h role slot
  match (List.range 32).find? fun k => (s.session k).st = 0 with
  | none => clearAnswer h up (joaHead 1 st req) s
  | some k =>
    if st ≠ 0 then clearAnswer h up (joaHead 1 st req) s
    else
      let (dn, s1) := s.freeBytes 32
      let (de, s2) := s1.freeBytes 97
      let (sigs, s3) := helloSign (decide (0x80 ≤ slot)) s2
      let token := (Config.freeQuad s3.free).toNat % 2 ^ 27
      let s4 : State := { s3 with free := s3.free + 1 }
      let room := carrierMax s h up - 252
      let body := joaHead 1 0 req ++ leBytes 4 (k + 32 * token) ++ dn ++ de ++ leBytes 3 0 ++ leBytes 8 s.sec.serial.toNat ++
        leBytes 1 s.lifecycle ++ leBytes 3 0 ++ sigs.1 ++ leBytes 4 sigs.2.length ++ sigs.2.take room
      let x : JoaSession := { JoaSession.free with
        st := 1, role := role, host := h, uplink := up, maxPayload := min most (carrierMax s h up), token := token
        keySlot := slot, last := s.raw, shake := some ⟨nonce, eph, dn, de, sigs.1, sigs.2⟩, reason := (s.session k).reason }
      clearAnswer h up body ((s4.setSession k x).setReg (R.JOA_s_INFO k) (BitVec.ofNat 32 (x.reason + 16 * (slot % 16))))

/-- R577: HELLO. -/
def hello (h : HostAddr) (up role slot most : Nat) (nonce eph : List Byte) (req : Nat) (s : State) : State :=
  joaHeard h up (helloHeard h up role slot most nonce eph req) s

/-- R577: a host's failed proofs of the last 60 s; the eighth locks it out for 60 s. -/
def proofFailed (h : HostAddr) (s : State) : State :=
  let near := (s.joa.failures.filter fun x => (s.raw - x.2).toNat < msGrains 60000) ++ [(h, s.raw)]
  let lock : Bool := decide (8 ≤ (near.filter fun x => x.1 = h).length)
  { s with joa := { s.joa with
    failures := if lock then near.filter fun x => x.1 ≠ h else near
    lockouts := if lock then s.joa.lockouts ++ [(h, s.raw)] else s.joa.lockouts } }

/-- R577: PROOF opens the session or frees it. DESIGN CHOICE (assumption 119). DEDUCED (assumption 120). -/
def proof (k req : Nat) (good : Bool) (s : State) : State :=
  let x := s.session k
  if x.st ≠ 1 then s
  else if !good then clearAnswer x.host x.uplink (joaHead 2 stAccess req)
    (proofFailed x.host (endSession k x.reason (s.incSat (R.UPLINK_p_RX_CNT x.uplink))))
  else
    let (keys, s1) := (s.incSat (R.UPLINK_p_RX_CNT x.uplink)).freeBytes 72
    let body := joaHead 2 0 req ++ leBytes 1 x.role ++ leBytes 1 0 ++ leBytes 2 x.maxPayload
    (s1.setSession k { x with
      st := 2, shake := none, keys := keys, high := 1, seen := [1], own := 0, last := s.raw, queue := [.body body] }).raise
      R.JOA_EVENTS F.JOA_EVENTS.SESSION_OPENED

/-- R577: no PROOF within 5 s. -/
def proofTimeout (k : Nat) (s : State) : State := if (s.session k).st = 1 then endSession k (s.session k).reason s else s

/-- R570: the two public keys; before PROVISION the spec states no content, and the bytes are free. DESIGN CHOICE (assumption 116). -/
def identityKeys (s : State) : List Byte × State :=
  match s.sec.keys with
  | some k => (k, s)
  | none => s.freeBytes 157

/-- R576: the answer to an IDENTITY that is passed on. DESIGN CHOICE (assumption 116). -/
def identityHeard (h : HostAddr) (up req : Nat) (s : State) : State :=
  let (k, s1) := identityKeys s
  clearAnswer h up (joaHead 3 0 req ++ leBytes 8 s.sec.serial.toNat ++ k ++ leBytes 3 0) s1

/-- R576: IDENTITY. -/
def identity (h : HostAddr) (up req : Nat) (s : State) : State := joaHeard h up (identityHeard h up req) s

/-- R576: SIG_PART of a session in establishment. DEDUCED (assumption 117). -/
def sigPart (k off req : Nat) (s : State) : State :=
  let x := s.session k
  match x.shake with
  | none => s
  | some y =>
    let part := (y.hssSig.drop off).take (carrierMax s x.host x.uplink - 12)
    clearAnswer x.host x.uplink (joaHead 4 0 req ++ leBytes 4 off ++ leBytes 2 part.length ++ leBytes 2 0 ++ part)
      (s.incSat (R.UPLINK_p_RX_CNT x.uplink))

/-! ### The commands -/

/-- HELLO (R577). -/
def execHello (h : HostAddr) (up : Fin 2) (role slot : Byte) (most : BitVec 16) (nonce eph : List Byte) (req : BitVec 16)
    (s : State) : Out := ok (hello h up role.toNat slot.toNat most.toNat nonce eph req.toNat s)
/-- PROOF (R577): whether HOST_SIG verifies. -/
def execProof (k : Fin 32) (req : BitVec 16) (good : Bool) (s : State) : Out := ok (proof k req.toNat good s)
/-- PROOF_TIMEOUT (R577). -/
def execProofTimeout (k : Fin 32) (s : State) : Out := ok (proofTimeout k s)
/-- IDENTITY (R576). -/
def execIdentity (h : HostAddr) (up : Fin 2) (req : BitVec 16) (s : State) : Out := ok (identity h up req.toNat s)
/-- SIG_PART (R576). -/
def execSigPart (k : Fin 32) (off : Word) (req : BitVec 16) (s : State) : Out := ok (sigPart k off.toNat req.toNat s)

end Sys2Proof.Machine
end

