-- ==== Sys2Proof/Machine/Clk.lean ====
section
/-! DEFINITION. Chapter 17: reset requests, the service button, the watchdog, the power-fail warning, firmware confirmation and the
orderly shutdown. -/

namespace Sys2Proof.Machine

/-- A change of what Resets holds. -/
def State.modResets (s : State) (f : Resets → Resets) : State := { s with resets := f s.resets }

/-- R614, R616, R622: a refused command. -/
def clkRefused (s : State) : State := s.raise R.CLK_EVENTS F.CLK_EVENTS.CMD_REFUSED

/-- R612: a warm reset is on its way. -/
def warmSoon (source : Nat) (w : Quad) (slot : Option Nat) (s : State) : State :=
  s.modResets fun x => { x with warm := x.warm ++ [⟨source, w, slot⟩] }

/-- R463, R612, R616: a write of SYS_RESET. -/
def sysResetWrite (v : Word) (s : State) : State :=
  let k := fldOf F.SYS_RESET.KIND v
  if fldOf F.SYS_RESET.KEY v ≠ 0x4A58 ∨ k = 0 ∨ k = 3 then s
  else if s.pfailOn then clkRefused s
  else if k = 1 then warmSoon 3 (s.raw + 1024) none s
  else s.modResets fun x => { x with cold := (x.cold.map some).getD (some (3, s.raw + 1024)) }

/-! ### Firmware trial (R620) -/

/-- R620: the boot record is written. -/
def bootRecord (s : State) : State := granWait .secure 64 s

/-- R620: FW_CONFIRM. DEDUCED (assumption 141). -/
def fwConfirm (s : State) : State :=
  if s.flag R.CLK_STATUS F.CLK_STATUS.FW_TRIAL then
    ((bootRecord (s.modResets fun x => { x with confirmed := s.fwSlot, trialW := none })).put R.CLK_STATUS
      F.CLK_STATUS.FW_TRIAL 0).raise R.CLK_EVENTS F.CLK_EVENTS.FW_CONFIRMED
  else s

/-- R620: the trial time runs out, and a warm reset falls back. -/
def fwTrialExpiry (s : State) : State :=
  match s.resets.trialW with
  | none => s
  | some w =>
    let s1 := s.advanceTo (w + BitVec.ofNat 64 (msGrains (s.reg R.CLK_FW_TRIAL_MS).toNat))
    warmSoon 5 s1.raw none (s1.modResets fun x => { x with trialW := none })

/-! ### The watchdog (R621) -/

/-- R621: a write of CLK_WDOG_KICK. -/
def wdogKick (v : Word) (s : State) : State :=
  if fldOf F.CLK_WDOG_KICK.KEY v ≠ 0x4A58 then s
  else
    let due : Bool := match s.resets.toggle with
      | none => true
      | some t => decide (msGrains 64 ≤ (s.raw - t).toNat)
    let flip := due && !s.resets.recovery
    s.modResets fun x => { x with
      kick := s.raw, healthy := x.healthy != flip, toggle := if flip then some s.raw else x.toggle }

/-- R621: the watchdog expires. -/
def wdogExpiry (s : State) : State :=
  let s1 := s.advanceTo (s.resets.kick + BitVec.ofNat 64 (msGrains (s.get R.CLK_WDOG_CFG F.CLK_WDOG_CFG.TIMEOUT_MS)))
  let s2 := (s1.raise R.CLK_EVENTS F.CLK_EVENTS.WDOG_RESET).incSat R.CLK_WDOG_CNT
  warmSoon 4 s2.raw none (s2.modResets fun x => { x with healthy := false })

/-! ### The service button (R615) -/

/-- R615: the state of the service reset: 0 DISARMED, 1 ARMED, 2 HELD, 3 STUCK. -/
def State.svc (s : State) : Nat := s.get R.CLK_STATUS F.CLK_STATUS.SVC_STATE

/-- R615: 20,480 low samples in ARMED. -/
def svcPress (s : State) : State :=
  if s.svc = 1 then
    warmSoon 2 s.raw none ((s.put R.CLK_STATUS F.CLK_STATUS.SVC_STATE 2).incSat R.CLK_SVC_CNT)
  else s

/-- R615: 102,400 high samples. -/
def svcRelease (s : State) : State :=
  (s.put R.CLK_STATUS F.CLK_STATUS.SVC_STATE 1).put R.CLK_STATUS F.CLK_STATUS.SVCRST_STUCK 0

/-- R615: 5 s low in HELD. -/
def svcStuck (s : State) : State :=
  if s.svc = 2 then
    ((s.put R.CLK_STATUS F.CLK_STATUS.SVC_STATE 3).put R.CLK_STATUS F.CLK_STATUS.SVCRST_STUCK 1).raise R.CLK_EVENTS
      F.CLK_EVENTS.SVCRST_STUCK
  else s

/-! ### The power-fail warning (R140, R315, R544, R616, R625) -/

/-- R625: a power failure ends a shutdown; STEP is kept. -/
def shutPfail (s : State) : State :=
  if s.shutStep = 0 then s
  else
    let s1 := s.put R.CLK_SHUT_STATUS F.CLK_SHUT_STATUS.RESULT 3
    if 5 ≤ s.shutStep then s1.modResets fun x => { x with pfDone := true } else s1

/-- R140, R315, R544, R616: PFAIL_L is qualified: dispatching stops, waiting writes are abandoned, the open class-0 block
closes. -/
def pfailAssert (s : State) : State :=
  if s.pfailOn then s
  else
    let s1 := ((s.put R.CLK_STATUS F.CLK_STATUS.PFAIL 1).raise R.CLK_EVENTS F.CLK_EVENTS.PFAIL).incSat R.CLK_PF_CNT
    let s2 : State := { s1 with
      exec := { s1.exec with pfail := some s.raw, capture := [], writing := none, waiting := none }
      gran := { s1.gran with jobs := [] }
      resets := { s1.resets with pfDone := false, pfShort := false } }
    shutPfail (closeBlock 0 false (ckptBusy (s2.put R.GRAN_STATUS F.GRAN_STATUS.PF_ACTIVE 1)))

/-- What a power failure still writes: the cut, a gleaner block, or a region place; with its bytes. -/
inductive PfWork where
  | cut (c : Cut)
  | block (b : Block)
  | region (key : Nat)
deriving DecidableEq, Repr

/-- The bytes of a power-fail write. -/
def pfBytes (s : State) : PfWork → Nat
  | .cut c => cutSize c
  | .block _ => 4112
  | .region k => match tget none s.gran.persist k with
    | some x => 16 + (persistBytes x).length
    | none => 0

/-- R315: a block is saved as a GLEAN_PF record. -/
def saveBlock (b : Block) (s : State) : State :=
  ringPut (ringRecord 4 (blockBytes s b)) { s with gran := { s.gran with saved := b :: s.gran.saved } }

/-- A power-fail write is made. -/
def pfWrite (w : PfWork) (s : State) : State :=
  match w with
  | .cut c => cutCommit c { s with exec := { s.exec with cutSeq := c.seq } }
  | .block b => saveBlock b s
  | .region k => regionDone k s

/-- R544: the writes in order, until the supply fails after some bytes; the bytes written, and whether it was short.
DEDUCED (assumption 135). -/
def pfWrites : List PfWork → Nat → Nat → State → Nat × Bool × State
  | [], _, done, s => (done, false, s)
  | w :: t, left, done, s =>
    let n := pfBytes s w
    if left < n then (done, true, s) else pfWrites t (left - n) (done + n) (pfWrite w s)

/-- R315, R543: the unacknowledged class-0 blocks to save, newest first, within a number of bytes. -/
def blocksToSave (s : State) (room : Nat) : List Block :=
  ((s.unacked.filter fun b => b.cls = 0).reverse.take (min (s.get R.GLEAN_CTRL F.GLEAN_CTRL.PF_BLOCKS) (room / 4112)))

/-- R140, R544: the running tasks are halted, the power-fail cut is taken and written with what else there is, as far as the supply
lasts, and a running controller enters BRIDGING; ready entries and their deadlines stay. DEDUCED (assumptions 134, 135). DESIGN CHOICE
(assumption 236). -/
def powerFailCut (lines : Nat) (s : State) : State :=
  match s.exec.pfail with
  | none => s
  | some a =>
    if s.resets.pfDone then s
    else
      let busy : Bool := (List.range 36).any fun k => (s.run k).isSome
      let s1 := persistAll (if busy then deferredWrites (flowsAdvance (haltRuns (s.advanceTo (a + 524288)))) else s)
      let c := { cutNow 5 s1 with seq := s1.exec.cutSeq + 1 }
      let owed := s1.persisted.filterMap fun (k, x) => if x.seq ≠ x.regSeq then some k else none
      let work := PfWork.cut c :: ((blocksToSave s1 (389120 - cutSize c)).map .block ++ owed.map .region)
      let (n, short, s2) := pfWrites work (64 * lines) 0 { s1 with gran := { s1.gran with jobs := [], saved := [] } }
      let s3 := (creditTake n (s2.setReg R.GRAN_PF_BYTES (BitVec.ofNat 32 n))).put R.GRAN_STATUS F.GRAN_STATUS.PF_ACTIVE 0
      let s4 := s3.modResets fun x => { x with pfDone := true, pfShort := short }
      if s.ctrlRunning then
        { s4 with exec := { s4.exec with
          bridgeW := some a, bridgeCut := true, restored := none, bridgeCount := 0, bridgeForces := s.forces true } }.put R.EXEC_STATUS F.EXEC_STATUS.STATE 3
      else s4

/-- R617: PFAIL_L is released, and a power-fail bridge goes on to its rejoin. -/
def pfailRelease (s : State) : State :=
  if !s.pfailOn then s
  else
    let s1 := (s.put R.CLK_STATUS F.CLK_STATUS.PFAIL 0).raise R.CLK_EVENTS F.CLK_EVENTS.PF_RELEASED
    let s2 : State := { s1 with exec := { s1.exec with pfail := none } }
    if s.ctrlBridging ∧ s.resets.pfDone then
      let at_ := ((s.exec.stored.filter fun c => c.kind = 5).getLast?.map (·.index)).getD s.headIndex
      { s2 with exec := { s2.exec with restored := some at_, rejoinAt := s.firstIndexAfter s.vNow 1024 } }
    else s2

/-! ### The orderly shutdown (R622 to R625) -/

/-- R631: ms since the shutdown command. -/
def State.shutMs (s : State) : Nat := min 65535 ((s.raw - s.resets.shutAt).toNat / 2 ^ 20)

/-- R623: a step of the shutdown begins. -/
def shutEnter (n : Nat) (s : State) : State :=
  ((s.put R.CLK_SHUT_STATUS F.CLK_SHUT_STATUS.STEP n).put R.CLK_SHUT_STATUS F.CLK_SHUT_STATUS.ELAPSED_MS s.shutMs).modResets
    fun x => { x with stepAt := s.raw, portDone := [] }

/-- R622: SHUTDOWN. DEDUCED (assumption 147). -/
def shutdownCmd (s : State) : State :=
  if s.ctrlBridging || s.pfailOn || decide (s.shutStep ≠ 0) then clkRefused s
  else
    let s1 := (olcReset s).setReg R.CLK_SHUT_STATUS 0
    shutEnter 1 (s1.modResets fun x => { x with shutAt := s.raw, stopAt := s.firstIndexAfter s.vNow 1024 })

/-- R622: SHUT_CANCEL. DEDUCED (assumption 139). -/
def shutCancel (s : State) : State :=
  if s.shutStep = 0 ∨ 5 ≤ s.shutStep then clkRefused s
  else
    let s1 := if s.ctrl = 2 then s else controllerStop 3 s
    (shutEnter 0 s1).put R.CLK_SHUT_STATUS F.CLK_SHUT_STATUS.RESULT 2

/-- R623: every transaction is final or has a participant in doubt. -/
def txSettled (s : State) : Bool :=
  (List.range 64).all fun i => decide ((s.tx i).gen = 0) || decide (4 ≤ (s.tx i).state) ||
    (decide ((s.tx i).state = 3) && (s.tx i).parts.any Part.inDoubt) || decide ((s.tx i).state = 0)

/-- R623, step 3: the flush ends; blocks that are not acknowledged are saved, and the gleaner is disabled. -/
def flushEnd (s : State) : State :=
  let late : Bool := !s.unacked.isEmpty
  let s1 := if late then
      s.advanceTo (s.resets.stepAt + BitVec.ofNat 64 (msGrains (s.get R.CLK_SHUT_CFG F.CLK_SHUT_CFG.FLUSH_MS)))
    else s
  let s2 := s1.forAll (blocksToSave s1 389120) saveBlock
  ((s2.put R.CLK_SHUT_STATUS F.CLK_SHUT_STATUS.FLUSH_TIMEOUT (b2n late)).put R.GLEAN_CTRL F.GLEAN_CTRL.EN 0)

/-- R623, step 4: the cuts in staging are written past the limiter. -/
def finalCut (s : State) : State :=
  let cs := s.exec.writing.toList ++ s.exec.waiting.toList ++ s.exec.capture
  let s1 : State := { s with
    exec := { s.exec with writing := none, waiting := none, capture := [] }
    gran := { s.gran with jobs := s.gran.jobs.filter fun j => j.work ≠ .cut } }
  ckptBusy (s1.forAll cs fun c t =>
    let d := if c.seq = 0 then { c with seq := t.exec.cutSeq + 1 } else c
    creditTake (cutSize d) (pfWrite (.cut d) t))

/-- R623, step 2: every enabled port has done its cycles: field frames, a CAN cycle, a serial scan where there is one. -/
def safeSent (s : State) : Bool :=
  let n := fun k => tget 0 s.resets.portDone k
  ((List.range 4).all fun p => !s.flag (R.FIELD_p_CTRL p) F.FIELD_p_CTRL.EN || decide (s.tablePort p ≠ p) ||
    decide (s.get R.CLK_SHUT_CFG F.CLK_SHUT_CFG.SAFE_CYCLES ≤ n p)) &&
  ((List.range 4).all fun p => !s.flag (R.CAN_p_CTRL p) F.CAN_p_CTRL.EN || decide (0 < n (4 + p))) &&
  (List.range 4).all fun p => !s.flag (R.SER_p_CTRL p) F.SER_p_CTRL.EN || decide (s.polls p = []) || decide (0 < n (8 + p))

/-- R548, R559: STATE when the shutdown test ends: IDLE where it is not enabled, ENDED_PASS after a pass, ENDED_BUDGET else.
DEDUCED (assumption 253). -/
def bistEndState (s : State) : Nat :=
  if !s.flag R.BIST_CTRL F.BIST_CTRL.EN then 0
  else if s.get R.BIST_STATUS F.BIST_STATUS.STATE = 1 ∧ (s.reg R.BIST_PTR).toNat % 256 = 0 then 3 else 2

/-- R623: a shutdown step ends, and the next begins. DEDUCED (assumption 140). -/
def shutStepDone (s : State) : State :=
  match s.shutStep with
  | 1 => if s.ctrl = 2 ∧ s.head.safeSeal.isNone then shutEnter 2 s else s
  | 2 => if safeSent s && txSettled s then shutEnter 3 (s.forAll (List.range 4) fun k t => closeBlock k false t) else s
  | 3 =>
    let s1 := flushEnd s
    shutEnter 4 { s1 with exec := { s1.exec with cutAsked := max 2 s1.exec.cutAsked } }
  | 4 => if s.exec.cutAsked = 0 then shutEnter 5 (endSessions 4 (finalCut s)) else s
  | 5 =>
    if sliceFits s ((s.reg R.BIST_PTR).toNat % 256) then s
    else
      let ms := (s.raw - s.resets.stepAt).toNat / 2 ^ 20
      (shutEnter 6 (s.setReg R.BIST_LAST_MS (BitVec.ofNat 32 ms))).put R.BIST_STATUS F.BIST_STATUS.STATE (bistEndState s)
  | 6 =>
    ((shutEnter 7 s).put R.CLK_SHUT_STATUS F.CLK_SHUT_STATUS.RESULT 1).raise R.CLK_EVENTS F.CLK_EVENTS.SHUT_DONE
  | _ => s

/-! ### CLK_CMD (R630) -/

/-- R614: CFG_RESTART of a slot, 0 A or 1 B. DEDUCED (assumption 146). -/
def cfgRestart (slot : Nat) (s : State) : State :=
  let k := 2 + slot
  if s.ctrlStopped && decide (s.imageResult k = 1) && !(s.joa.xfers.any fun x => decide (2 ≤ x.slot)) &&
      decide (s.olcState ≠ 1) && decide (s.shutStep = 0) then warmSoon 6 (s.raw + 1024) (some k) s
  else clkRefused s

/-- R616, R630: a write of CLK_CMD. -/
def clkCmdWrite (v : Word) (s : State) : State :=
  let op := fldOf F.CLK_CMD.OP v
  if fldOf F.CLK_CMD.KEY v ≠ 0x4A58 ∨ op = 0 ∨ 4 < op then s
  else if s.pfailOn then clkRefused s
  else
    match op with
    | 1 => shutdownCmd s
    | 2 => shutCancel s
    | 3 => cfgRestart (fldOf F.CLK_CMD.SLOT v) s
    | _ => fwConfirm s

/-! ### The commands -/

/-- SYS_RESET_WARM (R463). -/
def execSysResetWarm (s : State) : Out := ok (sysResetWrite (keyed 1) s)
/-- SYS_RESET_COLD (R463). -/
def execSysResetCold (s : State) : Out := ok (sysResetWrite (keyed 2) s)
/-- PFAIL_ASSERT (R616). -/
def execPfailAssert (s : State) : Out := ok (pfailAssert s)
/-- POWER_FAIL_CUT (R140, R544): the lines that the supply still lasts for. -/
def execPowerFailCut (lines : Fin 8192) (s : State) : Out := ok (powerFailCut lines s)
/-- PFAIL_RELEASE (R617). -/
def execPfailRelease (s : State) : Out := ok (pfailRelease s)
/-- SVCRST_PRESS (R615). -/
def execSvcrstPress (s : State) : Out := ok (svcPress s)
/-- SVCRST_RELEASE (R615). -/
def execSvcrstRelease (s : State) : Out := ok (svcRelease s)
/-- SVCRST_STUCK (R615). -/
def execSvcrstStuck (s : State) : Out := ok (svcStuck s)
/-- SHUTDOWN (R622). -/
def execShutdown (s : State) : Out := ok (clkCmdWrite (keyed 1) s)
/-- SHUT_CANCEL (R622). -/
def execShutCancel (s : State) : Out := ok (clkCmdWrite (keyed 2) s)
/-- SHUTDOWN_STEP_DONE (R623). -/
def execShutdownStepDone (s : State) : Out := ok (shutStepDone s)
/-- CFG_RESTART (R614): the slot, 0 A or 1 B. -/
def execCfgRestart (slot : Fin 2) (s : State) : Out := ok (clkCmdWrite (keyed (3 + 8 * slot)) s)
/-- FW_CONFIRM (R620). -/
def execFwConfirm (s : State) : Out := ok (clkCmdWrite (keyed 4) s)
/-- FW_TRIAL_EXPIRY (R620). -/
def execFwTrialExpiry (s : State) : Out := ok (fwTrialExpiry s)
/-- WDOG_KICK (R621). -/
def execWdogKick (v : Word) (s : State) : Out := ok (wdogKick v s)
/-- WDOG_EXPIRY (R621). -/
def execWdogExpiry (s : State) : Out := ok (wdogExpiry s)

end Sys2Proof.Machine
end

