-- ==== Sys2Proof/Machine/RegRead.lean ====
section
/-! DEFINITION. The registers as the bus finds and reads them: the register at an address (R454), the registers whose value is read
off the state of their block, and a read with its latches (R13 to R15, R43, R256, R257). -/

namespace Sys2Proof.Machine

/-! ### The register at an address -/

/-- The indices at which a row of the register map holds the register at a byte offset from 0x00_2000_0000. -/
def RegDesc.place (d : RegDesc) (a : Nat) : Option (Nat × Nat) :=
  if a < d.base then none
  else
    let o := a - d.base
    let i := if d.s1 = 0 then 0 else o / d.s1
    let o1 := if d.s1 = 0 then o else o % d.s1
    let j := if d.s2 = 0 then 0 else o1 / d.s2
    let o2 := if d.s2 = 0 then o1 else o1 % d.s2
    if o2 = 0 ∧ d.f1 ≤ i ∧ i < d.f1 + d.n1 ∧ d.f2 ≤ j ∧ j < d.f2 + d.n2 then some (i, j) else none

/-- R454: the row of the register map that holds the register at an offset. -/
def regLookup (a : Nat) : Option RegDesc := (regMap (a / 65536)).find? fun d => (d.place a).isSome

/-- The index at which a register array lies at an offset. -/
def regIdx (r : Nat → Reg) (n a : Nat) : Option Nat :=
  let b := (r 0).addr
  let w := (r 1).addr - b
  if b ≤ a ∧ (a - b) % w = 0 ∧ (a - b) / w < n then some ((a - b) / w) else none

/-- The indices at which a register array of two indices lies at an offset. -/
def regIdx2 (r : Nat → Nat → Reg) (n m a : Nat) : Option (Nat × Nat) :=
  (List.range n).findSome? fun i => (regIdx (r i) m a).map fun j => (i, j)

/-- The reset values that differ from register to register of an array. -/
def regReset (d : RegDesc) (a : Nat) : Word :=
  ((((((regIdx R.HEAD_n_CLASS_CFG 4 a).map fun i => (R.HEAD_n_CLASS_CFG i).reset) <|>
    (regIdx R.PLOT_k_CORE_STATUS 36 a).map fun i => (R.PLOT_k_CORE_STATUS i).reset) <|>
    (regIdx R.MEM_k_OWNER 9 a).map fun i => (R.MEM_k_OWNER i).reset) <|>
    (regIdx R.MEM_k_CFG 9 a).map fun i => (R.MEM_k_CFG i).reset) <|>
    (regIdx R.CHOP_SINE_i 1024 a).map fun i => (R.CHOP_SINE_i i).reset).getD (BitVec.ofNat 32 d.reset)

/-- The register of a row at an offset. -/
def RegDesc.reg (d : RegDesc) (a : Nat) : Reg := ⟨a, regReset d a⟩

/-- The register at an offset. -/
def regAt (a : Nat) : Reg :=
  match regLookup a with
  | some d => d.reg a
  | none => ⟨a, 0⟩

/-! ### Registers read off the state -/

/-- A word as a register of its own. -/
def at1 (r : Reg) (a : Nat) (w : Unit → Nat) : Option Word := if a = r.addr then some (BitVec.ofNat 32 (w ())) else none
/-- A register array. -/
def atN (r : Nat → Reg) (n a : Nat) (w : Nat → Nat) : Option Word := (regIdx r n a).map fun i => BitVec.ofNat 32 (w i)
/-- The two words of a pair. -/
def atPair (lo hi : Reg) (a : Nat) (q : Unit → Nat) : Option Word :=
  at1 lo a (fun u => q u) <|> at1 hi a (fun u => q u / 2 ^ 32)
/-- An array of pairs. -/
def atPairs (lo hi : Nat → Reg) (n a : Nat) (q : Nat → Nat) : Option Word :=
  atN lo n a q <|> atN hi n a fun i => q i / 2 ^ 32

/-- R43, R64, R462: the registers of TIME that are live. -/
def liveTime (s : State) (a : Nat) : Option Word :=
  (if a = (R.TIME_STATUS).addr then
    some (setFldOf F.TIME_STATUS.PLL_LOCKED (b2n s.pllLocked) (s.reg R.TIME_STATUS)) else none) <|>
  atPair R.TIME_RAW_LO R.TIME_RAW_HI a (fun _ => s.raw.toNat) <|>
  atPair R.TIME_VNOW_LO R.TIME_VNOW_HI a (fun _ => s.vT64.toNat)

/-- R452: the 24 bytes of a log entry. -/
def EvEntry.bytes (e : EvEntry) : List Byte :=
  leBytes 8 e.v.toNat ++ leBytes 2 e.code ++ leBytes 1 e.block ++ leBytes 1 e.bit ++ leBytes 2 e.reg ++ leBytes 2 e.rep ++
    leBytes 8 e.arg.toNat

/-- R462: entry number k of the log, while it holds it. -/
def State.evEntry (s : State) (k : Nat) : Option EvEntry :=
  let n := (s.reg R.SYS_EVLOG_HEAD).toNat
  if n ≤ k then none else s.evlog.reverse[n - 1 - k]?

/-- R462: the bytes of the entry that SYS_EVLOG_SEL selects; zeros when it is no longer in the log. -/
def evlogBytes (s : State) : List Byte :=
  match s.evEntry (s.reg R.SYS_EVLOG_SEL).toNat with
  | none => List.replicate 24 0
  | some e => e.bytes

/-- R462: the ATTN mask of block b, with its events. -/
def attnBlock (s : State) (b : Nat) : Bool :=
  let both (e m : Reg) : Bool := decide (s.reg e &&& s.reg m ≠ 0)
  match b with
  | 0x00 => both R.SYS_EVENTS R.SYS_ATTN_MASK
  | 0x01 => both R.CLK_EVENTS R.CLK_ATTN_MASK
  | 0x04 => both R.COLLIE_EVENTS R.COLLIE_ATTN_MASK
  | 0x06 => both R.EXEC_EVENTS R.EXEC_ATTN_MASK
  | 0x08 => both R.TXN_EVENTS R.TXN_ATTN_MASK
  | 0x09 => both R.ADC_EVENTS R.ADC_ATTN_MASK
  | 0x0A => both R.ACC_EVENTS R.ACC_ATTN_MASK
  | 0x0C => both R.CAPT_EVENTS R.CAPT_ATTN_MASK
  | 0x0D => both R.GLEAN_EVENTS R.GLEAN_ATTN_MASK || s.flag R.GLEAN_EVENTS F.GLEAN_EVENTS.HALT
  | 0x0E => (List.range 64).any fun n => both (R.AXIS_n_EVENTS n) R.AXIS_ATTN_MASK
  | 0x0F => (List.range 24).any fun c => both (R.CHOP_c_EVENTS c) R.CHOP_ATTN_MASK
  | 0x10 => both R.GPIO_EVENTS R.GPIO_ATTN_MASK
  | 0x11 => both R.FIELD_EVENTS R.FIELD_ATTN_MASK
  | 0x12 => both R.CAN_EVENTS R.CAN_ATTN_MASK
  | 0x13 => both R.SER_EVENTS R.SER_ATTN_MASK
  | 0x14 => both R.UPLINK_EVENTS R.UPLINK_ATTN_MASK
  | 0x15 => both R.PTP_EVENTS R.PTP_ATTN_MASK
  | 0x16 => both R.JOA_EVENTS R.JOA_ATTN_MASK
  | 0x17 => both R.SAFEMIR_EVENTS R.SAFEMIR_ATTN_MASK
  | 0x18 => both R.MEM_EVENTS R.MEM_ATTN_MASK
  | 0x19 => both R.BIST_EVENTS R.BIST_ATTN_MASK
  | 0x1A => both R.GRAN_EVENTS R.GRAN_ATTN_MASK
  | 0x1B => both R.SEC_EVENTS R.SEC_ATTN_MASK
  | 0x1C => both R.DRUS_EVENTS R.DRUS_ATTN_MASK
  | 0x1D => both R.DDR_EVENTS R.DDR_ATTN_MASK
  | 0x1E => both R.XSPI_EVENTS R.XSPI_ATTN_MASK
  | 0x1F => both R.LINKTEST_EVENTS R.LINKTEST_ATTN_MASK
  | b => decide (0x20 ≤ b ∧ b < 0x30) && both (R.AU_n_EVENTS (b - 0x20)) (R.AU_n_ATTN_MASK (b - 0x20))

/-- R462: SYS_ATTN_LO and SYS_ATTN_HI as one mask. ATTN_L is asserted while it is not 0. -/
def State.attn (s : State) : Nat := maskOf 48 (attnBlock s)

/-- R462: ATTN_L is asserted; in recovery it is too (R568). -/
def State.attnL (s : State) : Bool := decide (s.attn ≠ 0) || s.resets.recovery

/-- The registers of SYS and CLK that are live. -/
def liveSys (s : State) (a : Nat) : Option Word :=
  atPair R.SYS_ATTN_LO R.SYS_ATTN_HI a (fun _ => s.attn) <|>
  atN R.SYS_EVLOG_w 6 a (fun w => leNat ((evlogBytes s).drop (4 * w) |>.take 4)) <|>
  at1 R.CLK_SHUT_STATUS a fun _ =>
    let w := s.reg R.CLK_SHUT_STATUS
    let st := fldOf F.CLK_SHUT_STATUS.STEP w
    (if 1 ≤ st ∧ st ≤ 6 then setFldOf F.CLK_SHUT_STATUS.ELAPSED_MS s.shutMs w else w).toNat

/-- R157, R186: word w of the descriptor that COLLIE_DESC_SEL selects; an unused one reads 0. -/
def descWord (s : State) (w : Nat) : Nat :=
  let t := (s.reg R.COLLIE_DESC_SEL).toNat
  let d := s.desc t
  let x := tget (0, 0) s.collie.last t
  if d.kind = 0 ∧ w < 4 then 0
  else match w with
  | 0 => d.kind + 16 * d.prio + 128 * b2n d.spill + 256 * d.home + 1024 * d.slot + 16384 * d.cls + 65536 * d.link
  | 1 => d.func + 65536 * d.modSlot
  | 2 => d.retainOff
  | 3 => d.replyWp + 65536 * d.depth
  | 4 => (lo32 x.1).toNat
  | 5 => (hi32 x.1).toNat
  | 6 => (lo32 x.2).toNat
  | _ => (hi32 x.2).toNat

/-- The ready entries of slice p, as far as their Collie cycles have come (R160). -/
def readyIn (s : State) (p : Nat) : Nat := ((List.range 9).map fun l => ((s.readyList p l).filter fun e => e.here s).length).sum

/-- The registers of COLLIE and PLOT that are live. -/
def liveCollie (s : State) (a : Nat) : Option Word :=
  at1 R.COLLIE_STATUS a (fun _ => ((List.range 4).map (readyIn s)).sum % 8192 +
    65536 * (whereBelow 36 fun k => (s.run k).isSome).length + 2 ^ 24 * (whereBelow 36 fun k => (s.core k).heel).length) <|>
  at1 R.COLLIE_POOL_FREE a (fun _ => 8192 - s.collie.poolUsed) <|>
  atN R.COLLIE_DESC_w 8 a (descWord s) <|>
  atN R.COLLIE_n_DELAY_STAT 16 a (fun n => (s.reg (R.COLLIE_n_DELAY_STAT n)).toNat / 65536 * 65536 +
    (tget [] s.collie.delays n).length) <|>
  atN R.COLLIE_t_STATE 4096 a (fun t =>
    let x := s.task t
    let handler : Bool := decide ((s.desc t).kind = 3)
    let st := if handler then handlerSt s false t else if x.st = 1 ∧ (s.readyOf fun e => decide (e.desc = t) && e.here s) = [] then 0 else x.st
    st + 16 * x.queue.length + 4096 * s.get (R.COLLIE_t_STATE t) F.COLLIE_t_STATE.OVERFLOW + 8192 * b2n x.again +
      65536 * (if handler then handlerCore s false t else x.core).getD 63) <|>
  atN R.COLLIE_f_FLOW_CFG 512 a (fun f => let c := s.flowCfg f
                                          if c.valid then c.handler + 65536 * c.window + 2 ^ 31 else 0) <|>
  atN R.COLLIE_f_FLOW_STAT 512 a (fun f =>
    let n := (s.flow f).items.length
    let w := min (s.flowCfg f).window n
    w + 65536 * (n - w)) <|>
  atN R.COLLIE_f_FLOW_HEAD 512 a (fun f => (s.flow f).head) <|>
  atN R.PLOT_k_CORE_STATUS 36 a (fun k =>
    (setFldOf F.PLOT_k_CORE_STATUS.AT_HEEL (b2n (s.core k).heel) (s.reg (R.PLOT_k_CORE_STATUS k))).toNat) <|>
  atN R.PLOT_k_CORE_TASK 36 a (fun k => match s.run k with
    | some r => r.entry.desc + 32768
    | none => 0) <|>
  atN R.PLOT_p_READY 4 a (readyIn s)

/-- R235: the participant that TXN_PART_SEL selects. -/
def partInfo (s : State) : Nat :=
  let v := (s.reg R.TXN_PART_SEL).toNat
  match (s.tx (v % 64)).parts[v / 256 % 64]? with
  | none => 0
  | some p => p.kind + 16 * p.id + 65536 * p.vote + 2 ^ 20 * p.reason + 2 ^ 24 * p.outcome

/-- R657: the status of a SerDes lane: a lane whose checker is locked has a signal and clock recovery. DESIGN CHOICE (assumption 257). -/
def laneStatus (s : State) (l : Nat) : Nat :=
  if s.flag (R.LINKTEST_l_STATUS l) F.LINKTEST_l_STATUS.LOCK then 7 else 2 * (Config.laneSignal l s.raw).toNat

/-- The registers of FORCE and TXN that are live. -/
def liveTxn (s : State) (a : Nat) : Option Word :=
  at1 R.FORCE_STATUS a (fun _ => s.forceEntries.length) <|>
  at1 R.TXN_STATUS a (fun _ => (whereBelow 64 fun i => (s.tx i).gen ≠ 0).length + 256 * (whereBelow 64 fun i => (s.tx i).state = 2).length +
    65536 * (whereBelow 64 fun i => (s.tx i).state = 3 ∧ (s.tx i).parts.any fun p => p.kind = 4 ∧ p.inDoubt).length) <|>
  at1 R.TXN_PART_INFO a (fun _ => partInfo s) <|>
  atN R.TXN_s_STATE 64 a (fun i => txStatus (s.tx i)) <|>
  atN R.TXN_s_HANDLE 64 a (fun i => s.txHandle i) <|>
  atN R.TXN_s_OWNER 64 a (fun i => (s.tx i).ownerKind + 16 * (s.tx i).ownerId) <|>
  atN R.TXN_s_COUNTS 64 a (fun i => (s.tx i).count + 65536 * (s.tx i).parts.length) <|>
  atPairs R.TXN_s_AT_LO R.TXN_s_AT_HI 64 a (fun i => (s.tx i).at_) <|>
  atPairs R.TXN_s_COMMIT_V_LO R.TXN_s_COMMIT_V_HI 64 a (fun i => (s.tx i).commitV.toNat) <|>
  atPairs R.TXN_s_FAIL_LO R.TXN_s_FAIL_HI 64 a (fun i => txFail (s.tx i)) <|>
  atPairs R.TXN_s_DOUBT_LO R.TXN_s_DOUBT_HI 64 a (fun i => txDoubt (s.tx i)) <|>
  atPairs R.TXN_s_LATE_LO R.TXN_s_LATE_HI 64 a (fun i => txLate (s.tx i))

/-- The output point of a DAC. -/
def dacPoint (s : State) (n : Nat) : Option OutPoint := s.image.outs.find? fun o => o.ref = 2 ^ 28 + n

/-- The registers of the converter units, ACC and DAC that are live. -/
def liveAnalog (s : State) (a : Nat) : Option Word :=
  atN R.AU_n_STATUS 16 a (auStatus s) <|>
  (regIdx2 R.AU_n_i_CH_STATUS 16 16 a).map (fun (u, i) => BitVec.ofNat 32 (chStatus s (16 * u + i))) <|>
  (regIdx2 R.AU_n_i_CH_CFG 16 16 a).map (fun (u, i) => BitVec.ofNat 32 (chCfgRead s (16 * u + i))) <|>
  atN R.ACC_c_CFG 256 a (accCfgRead s) <|>
  (List.range' 1 12).findSome? (fun i => atN (fun c => ⟨(R.ACC_c_CFG c).addr + 4 * i, 0⟩) 256 a fun c =>
    (accWord (s.chan c).closed i).toNat) <|>
  atN R.DAC_n_SEED 32 a (fun n => ((dacPoint s n).map fun o => o.seed.toNat % 65536).getD 0) <|>
  atN R.DAC_n_SAFE 32 a (fun n => ((dacPoint s n).map fun o => o.safeVal.toNat % 65536).getD 0) <|>
  atN R.DAC_n_CFG 32 a (fun n => ((dacPoint s n).map (·.safeMode)).getD 0 +
    16 * (((writersOf s.image).find? fun x => x.1 = 2 ^ 28 + n).map (·.2.2)).getD 7)

/-- The signal that GLEAN_SIG_SEL selects, as written last. -/
def sigSel (s : State) : SigCfg := s.sigWritten ((s.reg R.GLEAN_SIG_SEL).toNat % 16384)

/-- The registers of CAPT and GLEAN that are live. -/
def liveCapt (s : State) (a : Nat) : Option Word :=
  at1 R.CAPT_STATUS a (fun _ => (setFldOf F.CAPT_STATUS.READY s.capture.ready.length (s.reg R.CAPT_STATUS)).toNat) <|>
  atN R.CAPT_n_STATUS 16 a (fun n => (s.capt n).st + 4096 * min (s.capt n).preValid (s.captPre n)) <|>
  atN R.CAPT_d_SEG 4096 a (segRead s) <|>
  at1 R.GLEAN_STATUS a (fun _ => (setFldOf F.GLEAN_STATUS.STREAM_OPEN (b2n s.glean.stream.isSome)
    (setFldOf F.GLEAN_STATUS.FILL s.fill (s.reg R.GLEAN_STATUS))).toNat) <|>
  at1 R.GLEAN_ACK_SEQ a (fun _ => s.ackSeq) <|>
  at1 R.GLEAN_FILL_BLOCKS a (fun _ => s.unacked.length) <|>
  at1 R.GLEAN_SIG_CFG a (fun _ => sigCfgRead s) <|>
  at1 R.GLEAN_SIG_SOURCE a (fun _ => (sigSel s).source) <|>
  atPair R.GLEAN_SIG_DEADBAND_LO R.GLEAN_SIG_DEADBAND_HI a (fun _ => (sigSel s).deadband.toNat) <|>
  at1 R.GLEAN_SIG_HEARTBEAT a (fun _ => (sigSel s).heartbeat) <|>
  at1 R.GLEAN_SIG_MIN_INT a (fun _ => (sigSel s).minInt)

/-- R354: the chopper scale of an axis differs from I_MOVE. -/
def State.resting (s : State) (c : Nat) : Bool := s.chopScale c ≠ fldOf F.CHOP_c_CURRENT.I_MOVE (s.chopCurrent c)

/-- The registers of AXIS and CHOP that are live. -/
def liveMotion (s : State) (a : Nat) : Option Word :=
  atPair R.AXIS_PEND_LO R.AXIS_PEND_HI a (fun _ => maskOf 64 fun n => s.reg (R.AXIS_n_EVENTS n) ≠ 0) <|>
  atPair R.AXIS_FAULT_LO R.AXIS_FAULT_HI a (fun _ => maskOf 64 fun n => s.axState n = 5) <|>
  atPair R.AXIS_MOVING_LO R.AXIS_MOVING_HI a (fun _ => maskOf 64 fun n => s.axFlag n F.AXIS_n_STATUS.MOVING) <|>
  atN R.AXIS_n_STATUS 64 a (fun n => (s.axStatus n).toNat) <|>
  at1 R.CHOP_PEND a (fun _ => maskOf 24 fun c => s.reg (R.CHOP_c_EVENTS c) ≠ 0) <|>
  atN R.CHOP_c_STATUS 24 a (fun c => (setFldOf F.CHOP_c_STATUS.RESTING (b2n (s.resting c))
    (setFldOf F.CHOP_c_STATUS.IDX (s.chopIdx c) (s.reg (R.CHOP_c_STATUS c)))).toNat) <|>
  atN R.CHOP_c_CODES 24 a (fun c => s.chopCode c false + 256 * s.chopCode c true)

/-- R333, R353: the level that an axis drives on a pin, if it names it; an axis that drives its chopper only gives no steps.
DEDUCED (assumption 174). -/
def axisDrives (s : State) (n i : Nat) : Option Bool :=
  let w := s.reg (R.AXIS_n_PINS n)
  let c := s.reg (R.AXIS_n_STEP_CFG n)
  let x := s.axis n
  if fldOf F.AXIS_n_PINS.STEP_PIN w = i then
    let setup := if x.dirAt = 0 then 0 else x.dirAt.toNat + 16 + 8 * fldOf F.AXIS_n_STEP_CFG.DIR_SETUP c
    let up := max (x.lastStep.toNat + 16) setup
    let high := s.get (R.AXIS_n_CTRL n) F.AXIS_n_CTRL.MODE ≠ 1 ∧ x.lastStep ≠ 0 ∧ up ≤ s.raw.toNat ∧ s.raw.toNat < up + 8 * (fldOf F.AXIS_n_STEP_CFG.STEP_W_M1 c + 1)
    some (decide high != decide (fldOf F.AXIS_n_STEP_CFG.STEP_POL c = 1))
  else if fldOf F.AXIS_n_PINS.DIR_PIN w = i then
    some ((if x.dirAt ≠ 0 ∧ s.raw.toNat < x.dirAt.toNat + 16 then !x.dirNeg else x.dirNeg) !=
      !decide (fldOf F.AXIS_n_STEP_CFG.DIR_POL c = 1))
  else if fldOf F.AXIS_n_PINS.EN_PIN w = i then
    some (s.flag (R.AXIS_n_CTRL n) F.AXIS_n_CTRL.EN != decide (fldOf F.AXIS_n_STEP_CFG.EN_POL c = 1))
  else none

/-- The level driven on a pin by an axis or by the output point. DEDUCED (assumption 174). -/
def pinDrive (s : State) (i : Nat) : Bool :=
  match (List.range 64).findSome? fun n => axisDrives s n i with
  | some b => b
  | none => s.drivenPin i && natBit (tget 0 s.img.balls i).toNat 0

/-- The registers of GPIO and FIELD that are live. -/
def liveField (s : State) (a : Nat) : Option Word :=
  atN R.GPIO_IN_w 6 a (fun w => s.field.filt / 2 ^ (32 * w) % 2 ^ 32) <|>
  atN R.GPIO_SYNC_w 6 a (fun w => maskOf 32 fun j => syncLevel s s.free (32 * w + j)) <|>
  atN R.GPIO_DRIVE_w 6 a (fun w => maskOf 32 fun j => pinDrive s (32 * w + j)) <|>
  atN R.FIELD_p_STATUS 4 a (fun p =>
    (setFldOf F.FIELD_p_STATUS.RUNNING (b2n (s.flag (R.FIELD_p_STATUS p) F.FIELD_p_STATUS.RUNNING && s.headRun && !s.portsSilent))
      (s.reg (R.FIELD_p_STATUS p))).toNat) <|>
  (regIdx2 R.FIELD_p_s_STATUS 4 256 a).map fun (p, n) =>
    if (s.station? p n).isNone then 0
    else setFldOf F.FIELD_p_s_STATUS.IN_DOUBT
      (b2n ((List.range 64).any fun i => (s.tx i).parts.any fun x => x.kind = 4 ∧ x.id = p * 256 + n ∧ x.doubt))
      (s.reg (R.FIELD_p_s_STATUS p n))

/-- R460: JOA_s_STATUS. -/
def joaStatus (s : State) (k : Nat) : Nat :=
  let x := s.session k
  if x.st = 0 then 0
  else x.st + 4 * x.role + 32 * x.host.carrier.val + 128 * x.uplink + 256 * x.pend.length + 8192 * b2n (s.glean.stream = some k) +
    65536 * x.maxPayload

/-- R549: the bytes of a repair record. -/
def RepairRec.image (r : RepairRec) : List Byte :=
  leBytes 1 r.kind ++ leBytes 1 r.source ++ leBytes 1 r.state ++ leBytes 1 r.unit ++ leBytes 2 r.sub ++ leBytes 2 r.row ++ leBytes 1 r.bit ++
    leBytes 1 r.spare ++ leBytes 2 r.count ++ leBytes 4 r.time

/-- The registers of JOA, BIST, GRAN and SEC that are live. -/
def liveSecure (s : State) (a : Nat) : Option Word :=
  at1 R.JOA_STATUS a (fun _ => (whereBelow 32 fun k => (s.session k).st = 2).length + 256 * s.glean.stream.getD 63) <|>
  atN R.JOA_s_STATUS 32 a (joaStatus s) <|>
  at1 R.BIST_SPARE_FREE a (fun _ => sparesFree s.gran.repairs) <|>
  at1 R.BIST_REPAIR_COUNT a (fun _ => s.gran.repairs.length) <|>
  atN R.BIST_REPAIR_w 4 a (fun w => match s.gran.repairs[(s.reg R.BIST_REPAIR_SEL).toNat]? with
    | none => 0
    | some r => leNat ((r.image.drop (4 * w)).take 4)) <|>
  at1 R.GRAN_STATUS a (fun _ => (setFldOf F.GRAN_STATUS.LIMITED (b2n !s.gran.jobs.isEmpty) (s.reg R.GRAN_STATUS)).toNat) <|>
  at1 R.SEC_STATUS a (fun _ => s.lifecycle + 8 * b2n s.sec.keys.isSome + 16 * b2n s.sec.unlocked + 32 * b2n s.sec.exhausted +
    64 * b2n s.sec.wiping + 128 * b2n s.sec.running.isSome) <|>
  at1 R.SEC_ROLLBACK a (fun _ => s.sec.cOtp + 256 * s.sec.cMir + 65536 * s.sec.rollback) <|>
  at1 R.SEC_ROOT_SLOTS a (fun _ => s.sec.rootMask false (·.hash.isSome) + 16 * s.sec.rootMask false (·.revoked) +
    256 * s.sec.rootMask true (·.hash.isSome) + 4096 * s.sec.rootMask true (·.revoked)) <|>
  at1 R.SEC_HOSTKEYS a (fun _ => maskOf 16 fun n => (tget none s.sec.hosts n).isSome) <|>
  atPair R.SEC_LMS_INDEX_LO R.SEC_LMS_INDEX_HI a (fun _ => s.sec.lmsN) <|>
  atPair R.SEC_LMS_RESERVED_LO R.SEC_LMS_RESERVED_HI a (fun _ => s.sec.lmsR) <|>
  at1 R.SEC_LMS_LOST a (fun _ => s.sec.lmsLost) <|>
  at1 R.SEC_TAMPER_LOG a (fun _ => s.sec.tamperSrc + 65536 * s.sec.tamperCnt) <|>
  atPair R.SEC_TAMPER_V_LO R.SEC_TAMPER_V_HI a (fun _ => s.sec.tamperV.toNat)

/-- The register of PTP that is live: a follower shows it (R491). -/
def livePtp (s : State) (a : Nat) : Option Word :=
  at1 R.PTP_STATUS a (fun _ => (setFldOf F.PTP_STATUS.FOLLOWER (b2n s.isFollower) (s.reg R.PTP_STATUS)).toNat)

/-- The value of a register that is read off the state, if the one at an offset is. -/
def liveRead (s : State) (a : Nat) : Option Word :=
  match a / 65536 with
  | 0x00 | 0x01 => liveSys s a
  | 0x02 => liveTime s a
  | 0x04 | 0x05 => liveCollie s a
  | 0x07 | 0x08 => liveTxn s a
  | 0x0A | 0x0B => liveAnalog s a
  | 0x0C | 0x0D => liveCapt s a
  | 0x0E | 0x0F => liveMotion s a
  | 0x10 | 0x11 => liveField s a
  | 0x15 => livePtp s a
  | 0x16 | 0x19 | 0x1A | 0x1B => liveSecure s a
  | 0x1F => atN R.LINKTEST_l_STATUS 8 a (laneStatus s)
  | b => if 0x20 ≤ b then liveAnalog s a else none

/-- The value of the register of a row at an offset, write-only bits as 0 (R13). -/
def State.valueOf (s : State) (d : RegDesc) (a : Nat) : Word :=
  ((liveRead s a).getD (s.reg (d.reg a))) &&& ~~~BitVec.ofNat 32 d.wo

/-! ### A read (R13, R15) -/

/-- R455: an access to an address of the register space that holds no register. -/
def unmapped (a : Nat) (s : State) : State :=
  ((s.setReg64 R.SYS_UNMAPPED_ADDR_LO R.SYS_UNMAPPED_ADDR_HI (BitVec.ofNat 64 (0x20000000 + a))).incSat R.SYS_UNMAPPED_CNT).raise
    R.SYS_EVENTS F.SYS_EVENTS.UNMAPPED

/-- The value a master finds: its group latch of the word (R43, R256, R257), or the register's. -/
def seenBy (m : Master) (d : RegDesc) (a : Nat) (s : State) : Word := (tget none s.group (masterKey m a)).getD (s.valueOf d a)

/-- R15: a low word read: the high word is latched for the master. -/
def loRead (m : Master) (d : RegDesc) (a : Nat) (s : State) : State :=
  let h := ((regLookup (a + 4)).map fun e => seenBy m e (a + 4) s).getD 0
  { s with readData := seenBy m d a s, latch := tset none s.latch (masterKey m a) (some h) }

/-- R15: a high word read: the latched half, whose latch empties, or the live one. -/
def hiRead (m : Master) (d : RegDesc) (a : Nat) (s : State) : State :=
  match tget none s.latch (masterKey m (a - 4)) with
  | some h => { s with readData := h, latch := tset none s.latch (masterKey m (a - 4)) none }
  | none => { s with readData := seenBy m d a s }

/-- R13: any other register read: read-to-clear bits are cleared. -/
def wordRead (m : Master) (d : RegDesc) (a : Nat) (s : State) : State :=
  let s1 := { s with readData := seenBy m d a s }
  if d.rc = 0 then s1
  else s1.setReg (d.reg a) (s1.reg (d.reg a) &&& ~~~BitVec.ofNat 32 d.rc)

/-- A read of a word that no latching word is (R15): a word held in a group latch comes from it and touches no other latch.
DEDUCED (assumptions 113, 177). -/
def groupRead (m : Master) (d : RegDesc) (a : Nat) (s : State) : State :=
  match tget none s.group (masterKey m a) with
  | some x => { s with readData := x }
  | none => if d.half = 1 then loRead m d a s else if d.half = 2 then hiRead m d a s else wordRead m d a s

/-- A read by a master of the register at an offset from 0x00_2000_0000; the word read is readData. -/
def regRead (m : Master) (a : Nat) (s : State) : State :=
  match regLookup a with
  | none => unmapped a { s with readData := 0 }
  | some d =>
    if a = (R.TIME_VNOW_LO).addr then vnowRead m s
    else
      match regIdx R.ACC_c_N 256 a, regIdx R.ACC_c_TRK_MIN 256 a with
      | some c, _ => accNRead m c s
      | _, some c => trkMinRead m c s
      | _, _ =>
        let t := groupRead m d a s
        if (regIdx R.GPIO_SYNC_w 6 a).isSome then { t with free := t.free + 1 } else t

end Sys2Proof.Machine
end

