-- ==== Sys2Proof/Machine/RegWrite.lean ====
section
/-! DEFINITION. Register writes of bus masters: the writes that have a rule of their own, by block, and every other write by the access
codes of its fields (R13, R14), with the staging of 64-bit values (R16). -/

namespace Sys2Proof.Machine

/-- The state after a write to one register. -/
def to1 (r : Reg) (a : Nat) (f : Unit → State) : Option State := if a = r.addr then some (f ()) else none
/-- The state after a write to a register of an array. -/
def toN (r : Nat → Reg) (n a : Nat) (f : Nat → State) : Option State := (regIdx r n a).map f
/-- The state after a write to a register of an array of two indices. -/
def toNM (r : Nat → Nat → Reg) (n m a : Nat) (f : Nat → Nat → State) : Option State := (regIdx2 r n m a).map fun (i, j) => f i j

/-- A register set to the bits of a mask. -/
def storeMask (r : Reg) (mask : Nat) (v : Word) (s : State) : State := s.setReg r (v &&& BitVec.ofNat 32 mask)

/-- A field of a value, with 0 stored as another value. -/
def zeroAs (f : Fld) (n : Nat) (v : Word) : Word := if fldOf f v = 0 then setFldOf f n v else v

/-- A field of a value, held between limits. -/
def heldTo (f : Fld) (lo hi : Nat) (v : Word) : Word := setFldOf f (clampNat lo hi (fldOf f v)) v

/-! ### Time, controller, Collie and transactions -/

/-- Writes of TIME, HEAD, SYS and CLK. -/
def writeTime (m : Master) (a : Nat) (v : Word) (s : State) : Option State :=
  to1 R.TIME_CTRL a (fun _ => if fldOf F.TIME_CTRL.SEAT v = 1 then seatClock s else s) <|>
  to1 R.TIME_OFFSET_HI a (fun _ => offsetWrite m v s) <|>
  to1 R.TIME_RATE_ADJ a (fun _ => rateAdjWrite v s) <|>
  to1 R.HEAD_CTRL a (fun _ => headCtrlWrite v s) <|>
  to1 R.HEAD_PERIOD a (fun _ => headPeriodWrite v s) <|>
  to1 R.HEAD_SYNC_CFG a (fun _ => headSyncCfgWrite v s) <|>
  to1 R.HEAD_SYNC_COMP a (fun _ => headSyncCompWrite v s) <|>
  to1 R.HEAD_SYNC_MISS a (fun _ => headSyncMissWrite v s) <|>
  toN R.HEAD_n_CLASS_CFG 4 a (fun n => classCfgWrite n v s) <|>
  to1 R.SYS_RESET a (fun _ => sysResetWrite v s) <|>
  to1 R.CLK_WDOG_CFG a (fun _ => storeMask R.CLK_WDOG_CFG 0x3FFF (heldTo F.CLK_WDOG_CFG.TIMEOUT_MS 10 10000 v) s) <|>
  to1 R.CLK_WDOG_KICK a (fun _ => wdogKick v s) <|>
  to1 R.CLK_CMD a (fun _ => clkCmdWrite v s) <|>
  to1 R.CLK_SHUT_CFG a (fun _ => storeMask R.CLK_SHUT_CFG 0xFFFFF
    (zeroAs F.CLK_SHUT_CFG.SAFE_CYCLES 1 (heldTo F.CLK_SHUT_CFG.FLUSH_MS 100 65535 v)) s) <|>
  to1 R.CLK_FW_TRIAL_MS a (fun _ => s.setReg R.CLK_FW_TRIAL_MS (BitVec.ofNat 32 (clampNat 1000 60000 (v.toNat % 65536))))

/-- Writes of EXEC, FORCE, COLLIE, PLOT and TXN. -/
def writeExec (a : Nat) (v : Word) (s : State) : Option State :=
  to1 R.EXEC_CMD a (fun _ => ctrlCmdWrite olcCommand v s) <|>
  toN R.EXEC_n_BUDGET 4 a (fun n => s.setReg (R.EXEC_n_BUDGET n) (BitVec.ofNat 32 (clampNat 10 95 (v.toNat % 128)))) <|>
  to1 R.EXEC_BRIDGE_LIMIT a (fun _ => s.setReg R.EXEC_BRIDGE_LIMIT (BitVec.ofNat 32 (clampNat 1 10000 (v.toNat % 16384)))) <|>
  toN R.EXEC_t_TASK_CTRL 4096 a (fun t => taskCtrlWrite t v s) <|>
  to1 R.FORCE_CTRL a (fun _ => forceCtrlWrite v s) <|>
  toN R.FORCE_e_POINT 1024 a (fun e => forcePointWrite e v s) <|>
  toN R.FORCE_e_CTRL 1024 a (fun e => forceCtrlEntryWrite e v s) <|>
  to1 R.COLLIE_CMD a (fun _ => collieCmdWrite v s) <|>
  toN R.PLOT_k_CORE_CTRL 36 a (fun k => coreCtrlWrite k v s) <|>
  to1 R.TXN_CMD a (fun _ => txnCmdWrite v s) <|>
  to1 R.TXN_CFG a (fun _ => s.setReg R.TXN_CFG (zeroAs F.TXN_CFG.DEC_REPEAT 1 v))

/-! ### Acquisition, capture and gleaning -/

/-- Writes of the converter units, ADC and ACC. -/
def writeAnalog (a : Nat) (v : Word) (s : State) : Option State :=
  toN R.ADC_p_REF_CTRL 4 a (fun p => refCtrlWrite p v s) <|>
  toN R.AU_n_CTRL 16 a (fun u => auCtrlWrite u v s) <|>
  toN R.AU_n_INJ_CTRL 16 a (fun u => injCtrlWrite u v s) <|>
  toN R.AU_n_CAL_CTRL 16 a (fun u => calCtrlWrite u v s) <|>
  toNM R.AU_n_SEQ_e 16 32 a (fun u e => auEntryWrite u (R.AU_n_SEQ_e u e) v s) <|>
  toNM R.AU_n_INJ_e 16 4 a (fun u e => auEntryWrite u (R.AU_n_INJ_e u e) v s) <|>
  toNM R.AU_n_i_CH_CFG 16 16 a (fun u i => chCfgWrite u i v s) <|>
  to1 R.ACC_TRK_CLR a (fun _ => trkClrWrite v s) <|>
  toN R.ACC_c_CFG 256 a (fun c => accCfgWrite c v s) <|>
  toN R.ACC_c_WCMP_LOW 256 a (fun c => wcmpWrite c 0 v s) <|>
  toN R.ACC_c_WCMP_HIGH 256 a (fun c => wcmpWrite c 1 v s) <|>
  toN R.ACC_c_WCMP_CFG 256 a (fun c => wcmpWrite c 2 v s)

/-- R284: a capture channel register whose write the channel may refuse, with the value to store. -/
def captReg (n : Nat) (r : Reg) (mask : Nat) (v : Word) (s : State) : State := captCfgWrite n (storeMask r mask v) s

/-- Writes of CAPT and GLEAN. -/
def writeCapt (a : Nat) (v : Word) (s : State) : Option State :=
  to1 R.CAPT_CTRL a (fun _ => ovfKick (storeMask R.CAPT_CTRL 1 v s)) <|>
  to1 R.CAPT_SW_TRIG a (fun _ => captSwTrig (v.toNat % 65536) s) <|>
  to1 R.CAPT_RELEASE a (fun _ => captRelease (v.toNat % 4096) s) <|>
  to1 R.CAPT_OVF_SIZE a (fun _ => ovfKick (s.setReg R.CAPT_OVF_SIZE (BitVec.ofNat 32 (min 65536 (v.toNat % 2 ^ 17))))) <|>
  to1 R.CAPT_OVF_TAIL a (fun _ => ovfTailWrite v s) <|>
  toN R.CAPT_n_CTRL 16 a (fun n => captCtrlWrite n v s) <|>
  toN R.CAPT_n_SRC 16 a (fun n => captReg n (R.CAPT_n_SRC n) 0x3F3 v s) <|>
  toN R.CAPT_n_SEG_CFG 16 a (fun n => captReg n (R.CAPT_n_SEG_CFG n) 0x1FFF0FFF v s) <|>
  toN R.CAPT_n_BASE 16 a (fun n => captReg n (R.CAPT_n_BASE n) 0xFFFF v s) <|>
  toN R.CAPT_n_PRE 16 a (fun n => captReg n (R.CAPT_n_PRE n) 0xFFFFF v s) <|>
  toN R.CAPT_n_POST 16 a (fun n => captReg n (R.CAPT_n_POST n) 0xFFFFF (zeroAs ⟨0, 20⟩ 1 v) s) <|>
  toNM R.CAPT_n_k_COND_CFG 16 4 a (fun n k => captReg n (R.CAPT_n_k_COND_CFG n k) 0x1FF3 v s) <|>
  toNM R.CAPT_n_k_HYST 16 4 a (fun n k => captReg n (R.CAPT_n_k_HYST n k) 0xFFFFFFFF v s) <|>
  to1 R.GLEAN_CTRL a (fun _ => gleanCtrlWrite v s) <|>
  to1 R.GLEAN_SPOOL_SIZE a (fun _ => s.setReg R.GLEAN_SPOOL_SIZE (BitVec.ofNat 32 (min 1048576 (v.toNat % 2 ^ 21)))) <|>
  to1 R.GLEAN_SIG_HEARTBEAT a (fun _ => sigWrite 1 (BitVec.ofNat 64 v.toNat) s) <|>
  to1 R.GLEAN_SIG_MIN_INT a (fun _ => sigWrite 2 (BitVec.ofNat 64 v.toNat) s)

/-! ### Motion, field and pins -/

/-- Writes of AXIS and CHOP. -/
def writeMotion (a : Nat) (v : Word) (s : State) : Option State :=
  let q : Quad := v.zeroExtend 64
  toN R.AXIS_n_CMD 64 a (fun n => axisCmdWrite n v s) <|>
  toN R.AXIS_n_CTRL 64 a (fun n => axisCtrlWrite n v s) <|>
  toN R.AXIS_n_ACCEL 64 a (fun n => limitWrite n .accel q s) <|>
  toN R.AXIS_n_DECEL 64 a (fun n => limitWrite n .decel q s) <|>
  toN R.AXIS_n_JERK 64 a (fun n => limitWrite n .jerk q s) <|>
  toN R.AXIS_n_VCREEP 64 a (fun n => limitWrite n .vcreep q s) <|>
  toN R.AXIS_n_PINS 64 a (fun n => axisPinsWrite n v s) <|>
  toN R.AXIS_n_STEP_CFG 64 a (fun n => stepCfgWrite n v s) <|>
  toN R.CHOP_c_CTRL 24 a (fun c => chopCtrlWrite c v s) <|>
  toN R.CHOP_c_TIMING 24 a (fun c => chopCfgWrite c .timing v s) <|>
  toN R.CHOP_c_CURRENT 24 a (fun c => chopCfgWrite c .current v s) <|>
  toN R.CHOP_c_MSTEP 24 a (fun c => chopCfgWrite c .mstep v s) <|>
  toN R.CHOP_SINE_i 1024 a (fun i => chopSineWrite i v s)

/-- R408: some field port sends. -/
def State.anyFieldOn (s : State) : Bool := (List.range 4).any fun p => s.flag (R.FIELD_p_CTRL p) F.FIELD_p_CTRL.EN

/-- Writes of FIELD. -/
def writeField (a : Nat) (v : Word) (s : State) : Option State :=
  toN R.FIELD_p_CTRL 4 a (fun p => fieldCtrlWrite p v s) <|>
  to1 R.FIELD_ETYPE a (fun _ => if s.anyFieldOn then fieldRefused s else storeMask R.FIELD_ETYPE 0xFFFF v s) <|>
  toN R.FIELD_p_CYCLE 4 a (fun p => fieldCycleWrite p v s) <|>
  toN R.FIELD_p_LIMITS 4 a (fun p => storeMask (R.FIELD_p_LIMITS p) 0x1FFFFFFF (zeroAs F.FIELD_p_LIMITS.LOST_LIMIT 1 v) s) <|>
  toN R.FIELD_p_MDIO 4 a (fun p => mdioWrite p v ((Config.freeQuad s.free).extractLsb' 0 16) { s with free := s.free + 1 }) <|>
  toNM R.FIELD_p_s_CTRL 4 256 a (fun p n => stationServiceWrite p n v s)

/-- Writes of CAN, SER and GPIO. -/
def writeSerial (a : Nat) (v : Word) (s : State) : Option State :=
  toN R.CAN_p_CTRL 4 a (fun p => canCtrlWrite p v s) <|>
  toN R.CAN_p_DBIT 4 a (fun p => if v.toNat % 2 ^ 20 < 4096 then s.raise R.CAN_EVENTS F.CAN_EVENTS.CFG_REFUSED
    else s.setReg (R.CAN_p_DBIT p) v) <|>
  toN R.CAN_p_SDO_CMD 4 a (fun p => sdoCmdWrite p v s) <|>
  toN R.SER_p_CTRL 4 a (fun p => serCtrlWrite p v s) <|>
  toN R.GPIO_e_EVT 16 a (fun e => gpioEvtWrite e v s)

/-! ### Network, safety and memory -/

/-- R458: a write of JOA_UDP_PORT or JOA_ETYPE. -/
def joaPortWrite (r : Reg) (v : Word) (s : State) : State :=
  if s.reg R.JOA_CTRL = 0 then storeMask r 0xFFFF v s else s.raise R.JOA_EVENTS F.JOA_EVENTS.CFG_REFUSED

/-- Writes of JOA, UPLINK and PTP. -/
def writeNet (a : Nat) (v : Word) (s : State) : Option State :=
  to1 R.JOA_UDP_PORT a (fun _ => joaPortWrite R.JOA_UDP_PORT v s) <|>
  to1 R.JOA_ETYPE a (fun _ => joaPortWrite R.JOA_ETYPE v s) <|>
  to1 R.JOA_IDLE_S a (fun _ => s.setReg R.JOA_IDLE_S (BitVec.ofNat 32 (clampNat 1 3600 (v.toNat % 4096)))) <|>
  to1 R.JOA_STREAM_CFG a (fun _ => s.setReg R.JOA_STREAM_CFG (BitVec.ofNat 32 (max 1 (v.toNat % 65536)))) <|>
  toN R.JOA_s_CTRL 32 a (fun k => joaCtrlWrite k v s) <|>
  toN R.UPLINK_p_CTRL 2 a (fun u => uplinkCtrlWrite u v s) <|>
  to1 R.PTP_CTRL a (fun _ => ptpCtrlWrite v s) <|>
  to1 R.PTP_SERVO_CFG a (fun _ => ptpServoCfgWrite v s) <|>
  to1 R.PTP_LOCK_CFG a (fun _ => ptpNonzeroWrite R.PTP_LOCK_CFG F.PTP_LOCK_CFG.LOCK_THR F.PTP_LOCK_CFG.LOCK_COUNT v s) <|>
  to1 R.PTP_PATH_CFG a (fun _ => ptpNonzeroWrite R.PTP_PATH_CFG F.PTP_PATH_CFG.PATH_JUMP_THR F.PTP_PATH_CFG.HOLD_S v s) <|>
  to1 R.PTP_SEAT_MAX a (fun _ => s.setReg R.PTP_SEAT_MAX (BitVec.ofNat 32 (max 1 (v.toNat % 65536)))) <|>
  toN R.PTP_q_CFG 6 a (fun q => ptpPortCfgWrite q v s)

/-- Writes of SAFEMIR, MEM, BIST, GRAN and SEC. -/
def writeMem (a : Nat) (v : Word) (s : State) : Option State :=
  to1 R.SAFEMIR_REQ a (fun _ => safemirReqWrite v s) <|>
  to1 R.SAFEMIR_CMD a (fun _ => safemirCmdWrite v s) <|>
  to1 R.MEM_HARROW_CFG a (fun _ => storeMask R.MEM_HARROW_CFG 0xFFFF0001 (heldTo F.MEM_HARROW_CFG.DIV 16 65535 v) s) <|>
  to1 R.MEM_FALLOW_CFG a (fun _ => storeMask R.MEM_FALLOW_CFG 0xFFFF0001 (zeroAs F.MEM_FALLOW_CFG.GAP 1 v) s) <|>
  toN R.MEM_k_OWNER 9 a (fun k => ownerWrite k v s) <|>
  to1 R.BIST_CTRL a (fun _ => bistCtrlWrite v s) <|>
  to1 R.GRAN_RATE_BYTES a (fun _ => s.setReg R.GRAN_RATE_BYTES (BitVec.ofNat 32 (clampNat 64 129024 (v.toNat % 2 ^ 17)))) <|>
  to1 R.GRAN_RATE_BURST a (fun _ => s.setReg R.GRAN_RATE_BURST (BitVec.ofNat 32 (clampNat 65536 1048576 (v.toNat % 2 ^ 21)))) <|>
  to1 R.GRAN_PERSIST_MIN a (fun _ => s.setReg R.GRAN_PERSIST_MIN (BitVec.ofNat 32 (clampNat 8000 65535 (v.toNat % 65536)))) <|>
  to1 R.SEC_CMD a (fun _ => secCmdWrite v s) <|>
  to1 R.SEC_TAMPER_CFG a (fun _ => if s.lifecycle = 1 ∨ s.lifecycle = 3 then storeMask R.SEC_TAMPER_CFG 0x1F v s else s)

/-- Writes of DRUS, DDR and LINKTEST. -/
def writeLink (a : Nat) (v : Word) (s : State) : Option State :=
  to1 R.DRUS_CTRL a (fun _ => drusCtrlWrite v s) <|>
  toN R.DRUS_p_CTRL 3 a (fun p => drusPortWrite p v s) <|>
  to1 R.DRUS_DOUBT_LIMIT a (fun _ => s.setReg R.DRUS_DOUBT_LIMIT (BitVec.ofNat 32 (max 1 (v.toNat % 65536)))) <|>
  to1 R.DRUS_FARM_LOST_LIMIT a (fun _ => s.setReg R.DRUS_FARM_LOST_LIMIT (BitVec.ofNat 32 (max 1 (v.toNat % 16)))) <|>
  to1 R.DDR_CTRL a (fun _ => ddrCtrlWrite v s) <|>
  to1 R.DDR_TEST_CTRL a (fun _ => ddrTestCtrlWrite v s) <|>
  toN R.LINKTEST_l_CTRL 8 a (fun l => linktestCtrlWrite l v s) <|>
  toN R.LINKTEST_f_FCTRL 8 a (fun f => genCtrlWrite f v s)

/-- A write that a block's own rule governs, by block. DEDUCED (assumption 165). -/
def ownedWrite (m : Master) (a : Nat) (v : Word) (s : State) : Option State :=
  match a / 65536 with
  | 0x00 | 0x01 | 0x02 | 0x03 => writeTime m a v s
  | 0x04 | 0x05 | 0x06 | 0x07 | 0x08 => writeExec a v s
  | 0x09 | 0x0A => writeAnalog a v s
  | 0x0C | 0x0D => writeCapt a v s
  | 0x0E | 0x0F => writeMotion a v s
  | 0x11 => writeField a v s
  | 0x10 | 0x12 | 0x13 => writeSerial a v s
  | 0x14 | 0x15 | 0x16 => writeNet a v s
  | 0x17 | 0x18 | 0x19 | 0x1A | 0x1B => writeMem a v s
  | 0x1C | 0x1D | 0x1F => writeLink a v s
  | b => if 0x20 ≤ b then writeAnalog a v s else none

/-! ### The access codes (R13, R14, R16) -/

/-- R13, R14: a write of the writable and write-1-to-clear bits of a register; other bits stay. -/
def plainWrite (d : RegDesc) (a : Nat) (v : Word) (s : State) : State :=
  let r := d.reg a
  let old := s.reg r
  let rw := BitVec.ofNat 32 d.rw
  let w1c := BitVec.ofNat 32 d.w1c
  s.setReg r ((old &&& ~~~rw ||| v &&& rw) &&& ~~~(v &&& w1c))

/-- R299, R314: clearing OVF_FAULT lets the overflow copy go on, and clearing SPOOL_FAULT the spool. -/
def afterClear (a : Nat) (v : Word) (s : State) : State :=
  if a = (R.CAPT_EVENTS).addr ∧ fldOf F.CAPT_EVENTS.OVF_FAULT v = 1 then ovfKick (s.put R.CAPT_STATUS F.CAPT_STATUS.OVF_SUSPENDED 0)
  else if a = (R.GLEAN_EVENTS).addr ∧ fldOf F.GLEAN_EVENTS.SPOOL_FAULT v = 1 then spoolAgain s
  else s

/-- R16: a low word written: staged for the master. -/
def loStage (m : Master) (d : RegDesc) (a : Nat) (v : Word) (s : State) : State :=
  if d.rw = 0 then s else { s with stage := tset none s.stage (masterKey m a) (some (v &&& BitVec.ofNat 32 d.rw)) }

/-- R359: a 64-bit position is a 48-bit value, sign-extended. DEDUCED (assumption 245). -/
def posWord (q : Quad) : Quad := (q.extractLsb' 0 48).signExtend 64

/-- A 64-bit value in force: by a rule of its block, or stored. -/
def pairWrite (d : RegDesc) (a : Nat) (q : Quad) (s : State) : State :=
  ((toN R.AXIS_n_VMAX_HI 64 a (fun n => limitWrite n .vmax q s) <|>
    to1 R.GLEAN_SIG_DEADBAND_HI a (fun _ => sigWrite 0 q s)) <|>
    toNM R.CAPT_n_k_LEVEL_HI 16 4 a (fun n k => captCfgWrite n
      (fun t => t.setReg64 (R.CAPT_n_k_LEVEL_LO n k) (R.CAPT_n_k_LEVEL_HI n k) q) s) <|>
    toN R.AXIS_n_SOFT_MIN_HI 64 a (fun n => s.setReg64 (R.AXIS_n_SOFT_MIN_LO n) (R.AXIS_n_SOFT_MIN_HI n) (posWord q)) <|>
    toN R.AXIS_n_SOFT_MAX_HI 64 a (fun n => s.setReg64 (R.AXIS_n_SOFT_MAX_LO n) (R.AXIS_n_SOFT_MAX_HI n) (posWord q)) <|>
    toN R.AXIS_n_HOME_OFS_HI 64 a (fun n => s.setReg64 (R.AXIS_n_HOME_OFS_LO n) (R.AXIS_n_HOME_OFS_HI n) (posWord q))).getD
    ((s.setReg (regAt (a - 4)) (lo32 q)).setReg (d.reg a) (hi32 q &&& BitVec.ofNat 32 d.rw))

/-- R16: a high word written: the 64-bit value takes effect, with the low half staged by the master or as it is. -/
def hiCommit (m : Master) (d : RegDesc) (a : Nat) (v : Word) (s : State) : State :=
  if d.rw = 0 then s
  else if a = (R.TIME_OFFSET_HI).addr then offsetWrite m v s
  else
    let key := masterKey m (a - 4)
    let low := (tget none s.stage key).getD (((regLookup (a - 4)).map fun e => s.valueOf e (a - 4)).getD 0)
    pairWrite d a (pair low v) { s with stage := tset none s.stage key none }

/-- A write by a master of the register at an offset from 0x00_2000_0000. -/
def regWrite (m : Master) (a : Nat) (v : Word) (s : State) : State :=
  match regLookup a with
  | none => unmapped a s
  | some d =>
    if d.half = 1 then loStage m d a v s
    else if d.half = 2 then hiCommit m d a v s
    else afterClear a v ((ownedWrite m a v s).getD (plainWrite d a v s))

end Sys2Proof.Machine
end

