-- ==== Sys2Proof/Machine/Bus.lean ====
section
/-! DEFINITION. Accesses of bus masters by physical address: registers, banks and their aliases, the granary window, DDR4 and the farm
windows (R454, R455, R527 to R535, R594). Accesses are one aligned 32-bit word wide, alias writes up to 64 bits. -/

namespace Sys2Proof.Machine

/-- What a physical address belongs to. -/
inductive Space where
  /-- The register space, with the offset from 0x00_2000_0000. -/
  | regs (o : Nat)
  /-- The addresses of the banks (R527). -/
  | bank
  | granary
  /-- R531: an alias, with the bank address. -/
  | bitAlias (set : Bool) (b : Nat)
  | ddr
  /-- R594: a farm window, with the device and the address there. -/
  | farm (d o : Nat)
  /-- No target of the bus. -/
  | none_
deriving DecidableEq, Repr

/-- R454, R527, R531, R535, R594: the space of a physical address. DEDUCED (assumption 161). -/
def spaceOf (s : State) (a : Nat) : Space :=
  if 0x10000000 ≤ a ∧ a < 0x14000000 then .bank
  else if 0x14000000 ≤ a ∧ a < 0x15000000 then .granary
  else if 0x20000000 ≤ a ∧ a < 0x30000000 then .regs (a - 0x20000000)
  else if 0x50000000 ≤ a ∧ a < 0x54000000 then .bitAlias true (a - 0x40000000)
  else if 0x90000000 ≤ a ∧ a < 0x94000000 then .bitAlias false (a - 0x80000000)
  else if 0x100000000 ≤ a ∧ a < 0x100000000 + (s.reg R.DDR_SIZE).toNat * 2 ^ 20 ∧ s.flag R.DDR_STATUS F.DDR_STATUS.READY then .ddr
  else if 0x8000000000 ≤ a ∧ a < 0xC000000000 then .farm ((a - 0x8000000000) / 2 ^ 35) (a % 2 ^ 35)
  else .none_

/-- A word of bytes. -/
def wordOf (l : List Byte) : Word := BitVec.ofNat 32 (leNat l)

/-- A word that the spec does not state, as the data read. DESIGN CHOICE (assumptions 163, 188). -/
def freeRead (s : State) : State := { s with readData := lo32 (Config.freeQuad s.free), free := s.free + 1 }

/-- R535: a word read through the granary window: the journal ring, and the active and the pending safety set at their places; of the other
regions the spec gives no bytes. DESIGN CHOICE (assumption 252). -/
def granaryRead (a : Nat) (s : State) : State :=
  let o := a - 0x14000000
  let set (l : List Byte) (p : Nat) : State := { s with readData := wordOf (padTo 4 ((l.drop (o - p)).take 4)) }
  if 0x440000 ≤ o ∧ o < 0xE00000 then { s with readData := wordOf (s.memRead a 4) }
  else if 0x400000 ≤ o ∧ o < 0x401000 then set s.island.active 0x400000
  else if 0x401000 ≤ o ∧ o < 0x402000 then set (s.island.pending.getD []) 0x401000
  else freeRead s

/-- A word read from a space that is no farm window. -/
def localRead (m : Master) (who a : Nat) (s : State) : State :=
  match spaceOf s a with
  | .regs o => regRead m o s
  | .bank => let x := bankRead who a 4 s
             { x.2 with readData := wordOf x.1 }
  | .bitAlias _ b => let x := bankRead who b 4 s
                  { x.2 with readData := wordOf x.1 }
  | .granary => granaryRead a s
  | .ddr => { s with readData := wordOf (s.memRead a 4) }
  | .farm _ _ => { s with readData := 0 }
  | .none_ => freeRead s

/-- A word read by a master. DEDUCED (assumption 162). DESIGN CHOICE (assumption 163). -/
def busRead (m : Master) (a0 : Nat) (s : State) : State :=
  let a := a0 / 4 * 4
  match spaceOf s a with
  | .farm d o =>
    if d = s.ownDev then localRead m (ownerOf m s) o s
    else if natBit (s.reg R.DRUS_REACH).toNat d then freeRead s
    else { s with readData := 0 }
  | _ => localRead m (ownerOf m s) a s

/-- A word written to a space that is no farm window; and whether it was not turned away. -/
def localWrite (m : Master) (who a : Nat) (v : Word) (s : State) : Bool × State :=
  match spaceOf s a with
  | .regs o => (true, regWrite m o v s)
  | .bank => bankWrite who a (leBytes 4 v.toNat) s
  | .bitAlias set b => aliasWrite set who b 4 (v.zeroExtend 64) s
  | .granary => (false, violation 3 a s)
  | .ddr => (true, s.memWrite a (leBytes 4 v.toNat))
  | .farm _ _ | .none_ => (false, s)

/-- A word written by a master; and a write of port B may meet it (R532). DEDUCED (assumption 162). DESIGN CHOICE (assumption 163). -/
def busWrite (m : Master) (a0 : Nat) (v : Word) (portB : Bool) (s : State) : State :=
  let a := a0 / 4 * 4
  match spaceOf s a with
  | .farm d o => if d = s.ownDev then (localWrite m (ownerOf m s) o v s).2 else s
  | .bitAlias _ b => collide b portB (localWrite m (ownerOf m s) a v s)
  | _ => collide a portB (localWrite m (ownerOf m s) a v s)

/-- R531: an alias write of n bytes to a bank address. -/
def busAlias (set : Bool) (m : Master) (a n : Nat) (v : Quad) (portB : Bool) (s : State) : State :=
  collide a portB (aliasWrite set (ownerOf m s) a n v s)

/-! ### Remote accesses (R594) -/

/-- The master that a remote device is. DESIGN CHOICE (assumption 164). -/
def remoteMaster (d : Nat) : Master := .dma (16 + d)

/-- R594: a refused remote write. DEDUCED (assumption 169). -/
def remoteRefused (s : State) : State := (s.incSat R.DRUS_REMOTE_REFUSED_CNT).raise R.DRUS_EVENTS F.DRUS_EVENTS.REMOTE_REFUSED

/-- R594: a word read by device d through its window. DEDUCED (assumption 168). -/
def remoteRead (d a : Nat) (s : State) : State :=
  match spaceOf s a with
  | .regs _ | .bank | .granary | .ddr => localRead (remoteMaster d) 7 a s
  | _ => { s with readData := 0 }

/-- R594: a word written by device d through its window. DEDUCED (assumptions 169, 170). -/
def remoteWrite (d a : Nat) (v : Word) (s : State) : State :=
  match spaceOf s a with
  | .regs o => if s.flag R.DRUS_CTRL F.DRUS_CTRL.REMOTE_WR then regWrite (remoteMaster d) o v s else remoteRefused s
  | .bank | .granary | .ddr =>
    let x := localWrite (remoteMaster d) 7 a v s
    if x.1 then x.2 else remoteRefused x.2
  | _ => remoteRefused s

/-- R594: an access of another device through its window on this one. DEDUCED (assumption 168). -/
def farmAccess (d a : Nat) (w : Option Word) (s : State) : State :=
  match w with
  | none => remoteRead d (a / 4 * 4) s
  | some v => remoteWrite d (a / 4 * 4) v s

/-! ### The commands -/

/-- REGISTER_WRITE (R13, R532). -/
def execRegisterWrite (m : Master) (a : BitVec 40) (v : Word) (portB : Bool) (s : State) : Out := ok (busWrite m a.toNat v portB s)
/-- READ_CLEAR (R13). -/
def execReadClear (m : Master) (a : BitVec 40) (s : State) : Out := ok (busRead m a.toNat s)
/-- READ_LO_LATCH (R15). -/
def execReadLoLatch (m : Master) (a : BitVec 40) (s : State) : Out := ok (busRead m a.toNat s)
/-- WRITE_LO_STAGE (R16). -/
def execWriteLoStage (m : Master) (a : BitVec 40) (v : Word) (s : State) : Out := ok (busWrite m a.toNat v false s)
/-- WRITE_HI_COMMIT (R16). -/
def execWriteHiCommit (m : Master) (a : BitVec 40) (v : Word) (s : State) : Out := ok (busWrite m a.toNat v false s)
/-- ALIAS_SET_WRITE (R531): n bytes at bank address a. DEDUCED (assumption 167). -/
def execAliasSetWrite (m : Master) (a : BitVec 40) (n : Fin 9) (v : Quad) (portB : Bool) (s : State) : Out :=
  ok (busAlias true m a.toNat n v portB s)
/-- ALIAS_CLEAR_WRITE (R531). DEDUCED (assumption 167). -/
def execAliasClearWrite (m : Master) (a : BitVec 40) (n : Fin 9) (v : Quad) (portB : Bool) (s : State) : Out :=
  ok (busAlias false m a.toNat n v portB s)
/-- UNMAPPED_ACCESS (R455): a read, or a write of a word. -/
def execUnmappedAccess (m : Master) (a : BitVec 40) (w : Option Word) (s : State) : Out :=
  ok (match w with
    | none => busRead m a.toNat s
    | some v => busWrite m a.toNat v false s)
/-- FARM_WINDOW_ACCESS (R594): a read, or a write of a word, by device d at an address of this one. -/
def execFarmWindowAccess (d : Fin 8) (a : BitVec 35) (w : Option Word) (s : State) : Out := ok (farmAccess d a.toNat w s)

end Sys2Proof.Machine
end

