-- ==== Sys2Proof/Machine/ECodeRows.lean ====
section
/-! DEFINITION. The rows of chapter 3: one meaning for each instruction of E-code 5 but the ACC instructions, on core k. -/

namespace Sys2Proof.Machine

/-- NOP (R85). -/
def execNop (k : Fin 36) (s : State) : Out := ok (stackOp k 1 0 (fun _ => []) s)
/-- DUP (R85). -/
def execDup (k : Fin 36) (s : State) : Out := ok (stackOp k 1 1 (fun l => [nth l 0, nth l 0]) s)
/-- DROP (R85). -/
def execDrop (k : Fin 36) (s : State) : Out := ok (stackOp k 1 1 (fun _ => []) s)
/-- SWAP (R85). -/
def execSwap (k : Fin 36) (s : State) : Out := ok (stackOp k 1 2 (fun l => [nth l 1, nth l 0]) s)
/-- OVER (R85). -/
def execOver (k : Fin 36) (s : State) : Out := ok (stackOp k 1 2 (fun l => [nth l 1, nth l 0, nth l 1]) s)
/-- ROT (R85). -/
def execRot (k : Fin 36) (s : State) : Out := ok (stackOp k 1 3 (fun l => [nth l 2, nth l 0, nth l 1]) s)
/-- PICK (R85). -/
def execPick (k : Fin 36) (u : BitVec 8) (s : State) : Out :=
  ok (stackOp k 2 (u.toNat + 1) (fun l => nth l u.toNat :: l) s)
/-- PUSH0 (R85). -/
def execPush0 (k : Fin 36) (s : State) : Out := ok (pushOp k 1 0 s)
/-- PUSH1 (R85). -/
def execPush1 (k : Fin 36) (s : State) : Out := ok (pushOp k 1 1 s)
/-- PUSHI8 (R85). -/
def execPushi8 (k : Fin 36) (v : BitVec 8) (s : State) : Out := ok (pushOp k 2 (v.signExtend 64) s)
/-- PUSHI16 (R85). -/
def execPushi16 (k : Fin 36) (v : BitVec 16) (s : State) : Out := ok (pushOp k 3 (v.signExtend 64) s)
/-- PUSHI32 (R85). -/
def execPushi32 (k : Fin 36) (v : BitVec 32) (s : State) : Out := ok (pushOp k 5 (v.signExtend 64) s)
/-- PUSHI64 (R85). -/
def execPushi64 (k : Fin 36) (v : Quad) (s : State) : Out := ok (pushOp k 9 v s)
/-- PUSHK (R97). -/
def execPushk (k : Fin 36) (n : BitVec 16) (s : State) : Out :=
  ok (onFrame k 0 (fun r _ _ t => match r.mod.consts[n.toNat]? with
    | some v => pushOp k 3 v t
    | none => t) s)
/-- PUSHF32 (R85). -/
def execPushf32 (k : Fin 36) (v : BitVec 32) (s : State) : Out := ok (pushOp k 5 (v.zeroExtend 64) s)
/-- LDL (R85). -/
def execLdl (k : Fin 36) (i : BitVec 8) (s : State) : Out := ok (ldl k i.toNat s)
/-- STL (R73). -/
def execStl (k : Fin 36) (i : BitVec 8) (s : State) : Out := ok (stl k i.toNat s)
/-- LDV (R99). -/
def execLdv (k : Fin 36) (d : VarIdx) (s : State) : Out := ok (ldv k d s)
/-- STV (R73, R99). -/
def execStv (k : Fin 36) (d : VarIdx) (s : State) : Out := ok (stv k d s)
/-- LDX (R87). -/
def execLdx (k : Fin 36) (d : VarIdx) (s : State) : Out := ok (ldx k d s)
/-- STX (R87). -/
def execStx (k : Fin 36) (d : VarIdx) (s : State) : Out := ok (stx k d s)
/-- INCL (R85). -/
def execIncl (k : Fin 36) (i d : BitVec 8) (s : State) : Out := ok (incl k i.toNat d s)
/-- ADD.t (R74, R76). -/
def execAdd (k : Fin 36) (t : EType) (s : State) : Out := ok (typedOn k t t.arith (binaryOp k 1 (cellAdd t)) s)
/-- SUB.t (R74, R76). -/
def execSub (k : Fin 36) (t : EType) (s : State) : Out := ok (typedOn k t t.arith (binaryOp k 1 (cellSub t)) s)
/-- MUL.t (R74, R76). -/
def execMul (k : Fin 36) (t : EType) (s : State) : Out := ok (typedOn k t t.arith (binaryOp k 1 (cellMul t)) s)
/-- DIV.t (R75, R76). -/
def execDiv (k : Fin 36) (t : EType) (s : State) : Out := ok (typedOn k t t.arith (divOp k t (cellDiv t)) s)
/-- REM.t (R75). -/
def execRem (k : Fin 36) (t : EType) (s : State) : Out := ok (typedOn k t t.ints (divOp k t (cellRem t)) s)
/-- ADDS.t (R74). -/
def execAdds (k : Fin 36) (t : EType) (s : State) : Out := ok (typedOn k t t.ints (binaryOp k 1 (cellAdds t)) s)
/-- SUBS.t (R74). -/
def execSubs (k : Fin 36) (t : EType) (s : State) : Out := ok (typedOn k t t.ints (binaryOp k 1 (cellSubs t)) s)
/-- MULS.t (R74). -/
def execMuls (k : Fin 36) (t : EType) (s : State) : Out := ok (typedOn k t t.ints (binaryOp k 1 (cellMuls t)) s)
/-- NEG.t (R85). -/
def execNeg (k : Fin 36) (t : EType) (s : State) : Out := ok (typedOn k t t.signed (unaryOp k 1 (cellNeg t)) s)
/-- ABS.t (R85). -/
def execAbs (k : Fin 36) (t : EType) (s : State) : Out := ok (typedOn k t t.signed (unaryOp k 1 (cellAbs t)) s)
/-- EQ.t (R87). -/
def execEq (k : Fin 36) (t : EType) (s : State) : Out := ok (typedOn k t true (binaryOp k 1 fun a b => wrBool (cellEq t a b)) s)
/-- NE.t (R87). -/
def execNe (k : Fin 36) (t : EType) (s : State) : Out := ok (typedOn k t true (binaryOp k 1 fun a b => wrBool (!cellEq t a b)) s)
/-- LT.t (R87). -/
def execLt (k : Fin 36) (t : EType) (s : State) : Out :=
  ok (typedOn k t t.arith (binaryOp k 1 fun a b => wrBool (cellLt t a b)) s)
/-- LE.t (R87). -/
def execLe (k : Fin 36) (t : EType) (s : State) : Out :=
  ok (typedOn k t t.arith (binaryOp k 1 fun a b => wrBool (cellLe t a b)) s)
/-- GT.t (R87). -/
def execGt (k : Fin 36) (t : EType) (s : State) : Out :=
  ok (typedOn k t t.arith (binaryOp k 1 fun a b => wrBool (cellLt t b a)) s)
/-- GE.t (R87). -/
def execGe (k : Fin 36) (t : EType) (s : State) : Out :=
  ok (typedOn k t t.arith (binaryOp k 1 fun a b => wrBool (cellLe t b a)) s)
/-- AND (R85). -/
def execAnd (k : Fin 36) (s : State) : Out := ok (binaryOp k 1 (fun a b => a &&& b) s)
/-- OR (R85). -/
def execOr (k : Fin 36) (s : State) : Out := ok (binaryOp k 1 (fun a b => a ||| b) s)
/-- XOR (R85). -/
def execXor (k : Fin 36) (s : State) : Out := ok (binaryOp k 1 (fun a b => a ^^^ b) s)
/-- NOT (R85). -/
def execNot (k : Fin 36) (t : EType) (s : State) : Out := ok (typedOn k t t.bits (unaryOp k 2 (cellNot t)) s)
/-- LNOT (R85). -/
def execLnot (k : Fin 36) (s : State) : Out := ok (unaryOp k 1 (fun a => wrBool (a = 0)) s)
/-- SHL (R87). -/
def execShl (k : Fin 36) (t : EType) (s : State) : Out := ok (typedOn k t t.bits (binaryOp k 2 (cellShl t)) s)
/-- SHR (R87). -/
def execShr (k : Fin 36) (t : EType) (s : State) : Out := ok (typedOn k t t.bits (binaryOp k 2 (cellShr t)) s)
/-- SAR (R87). -/
def execSar (k : Fin 36) (t : EType) (s : State) : Out := ok (typedOn k t t.bits (binaryOp k 2 (cellSar t)) s)
/-- BITGET (R87). -/
def execBitget (k : Fin 36) (t : EType) (s : State) : Out := ok (typedOn k t t.bits (binaryOp k 2 (cellBitGet t)) s)
/-- BITSET (R87). -/
def execBitset (k : Fin 36) (t : EType) (s : State) : Out := ok (typedOn k t t.bits (binaryOp k 2 (cellBitSet t)) s)
/-- BITCLR (R87). -/
def execBitclr (k : Fin 36) (t : EType) (s : State) : Out := ok (typedOn k t t.bits (binaryOp k 2 (cellBitClr t)) s)
/-- CONV (R77). -/
def execConv (k : Fin 36) (c : BitVec 8) (s : State) : Out := ok (convOp k c s)
/-- LIMIT (R87). -/
def execLimit (k : Fin 36) (t : EType) (s : State) : Out :=
  ok (typedOn k t t.arith (stackOp k 2 3 fun l => [cellLimit t (nth l 2) (nth l 1) (nth l 0)]) s)
/-- SEL (R85). -/
def execSel (k : Fin 36) (s : State) : Out :=
  ok (stackOp k 1 3 (fun l => [if nth l 0 ≠ 0 then nth l 2 else nth l 1]) s)
/-- MIN (R87). -/
def execMin (k : Fin 36) (t : EType) (s : State) : Out := ok (typedOn k t t.arith (binaryOp k 2 (cellMin t)) s)
/-- MAX (R87). -/
def execMax (k : Fin 36) (t : EType) (s : State) : Out := ok (typedOn k t t.arith (binaryOp k 2 (cellMax t)) s)
/-- JMP (R84). -/
def execJmp (k : Fin 36) (o : BrOff) (s : State) : Out := ok (branchOp k 0 o (fun _ => true) s)
/-- JT (R84). -/
def execJt (k : Fin 36) (o : BrOff) (s : State) : Out := ok (branchOp k 1 o (fun l => nth l 0 ≠ 0) s)
/-- JF (R84). -/
def execJf (k : Fin 36) (o : BrOff) (s : State) : Out := ok (branchOp k 1 o (fun l => nth l 0 = 0) s)
/-- CALL (R80). -/
def execCall (k : Fin 36) (f : BitVec 16) (s : State) : Out := ok (callOp k f.toNat s)
/-- RET (R80). -/
def execRet (k : Fin 36) (s : State) : Out := ok (retOp k s)
/-- END (R80). -/
def execEnd (k : Fin 36) (s : State) : Out := ok (endOp k s)
/-- LDI (R90). -/
def execLdi (k : Fin 36) (d : VarIdx) (s : State) : Out := ok (readVar k d [2] (fun _ r v => ldiVal r v) s)
/-- STO (R90, R119). -/
def execSto (k : Fin 36) (d : VarIdx) (s : State) : Out := ok (sto k d s)
/-- LDO (R90). -/
def execLdo (k : Fin 36) (d : VarIdx) (s : State) : Out := ok (readVar k d [3] ldoVal s)
/-- PCATCH (R90). -/
def execPcatch (k : Fin 36) (d : VarIdx) (s : State) : Out := ok (readVar k d [2] (fun _ r v => pcatchVal r v) s)
/-- LDAGE (R90). -/
def execLdage (k : Fin 36) (d : VarIdx) (s : State) : Out := ok (readVar k d [2] (fun _ r v => ldageVal r v) s)
/-- LDQ (R90). -/
def execLdq (k : Fin 36) (d : VarIdx) (s : State) : Out := ok (readVar k d [2, 3] (fun _ r v => ldqVal r v) s)
/-- NOW (R89). -/
def execNow (k : Fin 36) (s : State) : Out := ok (onFrame k 0 (fun r _ _ t => pushOp k 1 r.now t) s)
/-- ELAPSED (R89). -/
def execElapsed (k : Fin 36) (s : State) : Out :=
  ok (onFrame k 1 (fun r _ _ t => unaryOp k 1 (fun a => r.now - a) t) s)
/-- INTERVAL (R89). -/
def execInterval (k : Fin 36) (s : State) : Out := ok (onFrame k 0 (fun r _ _ t => pushOp k 1 r.interval t) s)
/-- CLOCK (R89): the read reaches the TIME block 64 grains after the instruction starts. -/
def execClock (k : Fin 36) (s : State) : Out := ok (pushOp k 1 (BitVec.ofInt 64 (s.vAt (s.raw + 64))) s)
/-- FB (R105). -/
def execFb (k : Fin 36) (d : VarIdx) (s : State) : Out := ok (fbOp k d s)
/-- POST (R92). -/
def execPost (k : Fin 36) (d : VarIdx) (s : State) : Out := ok (stageVar k 1 7 1 d s)
/-- WAIT (R169). -/
def execWait (k : Fin 36) (d : VarIdx) (s : State) : Out := ok (waitOp k d s)
/-- SEND (R92). -/
def execSend (k : Fin 36) (d : VarIdx) (s : State) : Out := ok (code5 k (stageVar k 2 8 1 d) s)
/-- REPLY (R92). -/
def execReply (k : Fin 36) (s : State) : Out := ok (replyOp k s)
/-- CANCEL (R92). -/
def execCancel (k : Fin 36) (d : VarIdx) (s : State) : Out := ok (stageVar k 4 7 0 d s)
/-- DELAY (R92). -/
def execDelay (k : Fin 36) (d : VarIdx) (s : State) : Out := ok (delayOp k d s)
/-- TXOPEN (R92). -/
def execTxopen (k : Fin 36) (s : State) : Out := ok (code5 k (txopenOp k) s)
/-- TXADD (R92). -/
def execTxadd (k : Fin 36) (d : VarIdx) (s : State) : Out := ok (code5 k (txaddOp k d) s)
/-- TXSEAL (R92). -/
def execTxseal (k : Fin 36) (s : State) : Out := ok (code5 k (txsealOp k) s)
/-- TXSTAT (R224). -/
def execTxstat (k : Fin 36) (s : State) : Out := ok (code5 k (txstatOp k) s)
/-- TXDROP (R92). -/
def execTxdrop (k : Fin 36) (s : State) : Out := ok (code5 k (txdropOp k) s)
/-- AXCMD (R93). -/
def execAxcmd (k : Fin 36) (d : VarIdx) (c : BitVec 8) (s : State) : Out := ok (code5 k (axcmdOp k d c) s)
/-- AXSTAT (R85). -/
def execAxstat (k : Fin 36) (d : VarIdx) (s : State) : Out :=
  ok (code5 k (readVar k d [5] fun _ r v => (tget 0 r.snap.axStat v.loc).zeroExtend 64) s)
/-- AXPOS (R85). -/
def execAxpos (k : Fin 36) (d : VarIdx) (s : State) : Out :=
  ok (code5 k (readVar k d [5] fun _ r v => tget 0 r.snap.axPos v.loc) s)
/-- MARK (R92, R307). DEDUCED (assumption 39). -/
def execMark (k : Fin 36) (d : VarIdx) (s : State) : Out := ok (code5 k (stageVar k 12 9 1 d) s)

end Sys2Proof.Machine
end

