-- ==== Sys2Proof/Machine/Entries.lean ====
section
/-! DEFINITION. Chapter 11: the entries of the object dictionary: their addresses, metadata, reading and writing (R418 to R430, R300,
R445, R575). -/

namespace Sys2Proof.Machine

/-! ### The entries -/

/-- An entry of the object dictionary. -/
inductive Entry where
  /-- R426: 1 to 9. -/
  | identity (n : Nat)
  | configSlot
  | configActive
  | firmwareSlot
  | fwActivate
  | root (lms : Bool) (n : Nat)
  | hostKey (n : Nat)
  | nonce
  | report
  | idKeys
  /-- R300: the slot of a descriptor. -/
  | captSeg (d : Nat)
  | captOvf
  | pub (m : Module) (p : PubEntry) (v : VarDesc)
  /-- R427: the register of a row of the register map at an offset. -/
  | mirror (d : RegDesc) (a : Nat)
  /-- R430: the port (4 to 7 for serial), the node or slave, and the remote item. -/
  | proxy (port node index sub : Nat)
deriving DecidableEq, Repr

/-- R426, R445, R575: the device entries that stand alone, by index × 256 + sub-index. -/
def deviceEntries : List (Nat × Entry) :=
  ((List.range' 1 9).map fun n => (0x100000 + n, Entry.identity n)) ++
  [(0x3F0000, Entry.configSlot), (0x3F0100, Entry.configActive), (0x4F0000, Entry.captOvf), (0x900001, Entry.fwActivate)] ++
  ((List.range 4).map fun n => (0x900201 + n, Entry.root false n)) ++
  ((List.range 4).map fun n => (0x900211 + n, Entry.root true n)) ++
  ((List.range 16).map fun n => (0x901001 + n, Entry.hostKey n)) ++
  [(0x9F0000, Entry.firmwareSlot), (0x9F1000, Entry.nonce), (0x9F1100, Entry.report), (0x9F1200, Entry.idKeys)]

/-- R430: the entry of a proxy window. DEDUCED (assumption 205). -/
def proxyEntry (s : State) (idx sub : Nat) : Option Entry :=
  let w := (s.reg (R.JOA_w_PROXY_CFG ((idx - 0xD000) / 256)))
  let kind := fldOf F.JOA_w_PROXY_CFG.KIND w
  let base := fldOf F.JOA_w_PROXY_CFG.REMOTE_BASE w
  let port := fldOf F.JOA_w_PROXY_CFG.PORT w
  let node := fldOf F.JOA_w_PROXY_CFG.NODE w
  let k := idx % 256
  if kind = 1 ∧ base + k < 65536 then some (.proxy port node (base + k) sub)
  else if kind = 2 ∧ base + k * 256 + sub < 65536 then some (.proxy (4 + port) node (base + k * 256 + sub) 0)
  else none

/-- R425: the entry of this device at an index × 256 + sub-index. -/
def findEntry (s : State) (key : Nat) : Option Entry :=
  let idx := key / 256
  let sub := key % 256
  if 0xD000 ≤ idx then proxyEntry s idx sub
  else if 0xC000 ≤ idx then
    let a := (key - 0xC00000) * 4
    if idx < 0xCC00 then (regLookup a).map fun d => .mirror d a else none
  else if 0xA000 ≤ idx then (findPub s.image idx sub).map fun (m, p, v) => .pub m p v
  else if 0x480000 ≤ key ∧ key < 0x481000 then some (.captSeg (key - 0x480000))
  else (deviceEntries.find? fun x => x.1 = key).map (·.2)

/-! ### Metadata (R420) -/

/-- A metadata record. -/
structure EntryMeta where
  ty : Nat
  elem : Nat
  flags : Nat
  rd : Nat
  wr : Nat
  count : Nat
  dflt : Nat
  min : Nat
  max : Nat
  unit : List Byte
  name : List Byte
deriving DecidableEq, Repr

/-- UTF-8 of a text of ASCII characters. -/
def textBytes (t : String) : List Byte := t.toList.map fun c => BitVec.ofNat 8 c.toNat

/-- R419: the bytes of a value of a scalar entry type. -/
def wireBytes (ty : Nat) : Nat :=
  match ty with
  | 1 | 2 | 6 => 1
  | 3 | 7 => 2
  | 4 | 8 | 10 => 4
  | _ => 8

/-- R419: an entry type of one value. -/
def scalarType (ty : Nat) : Bool := decide (1 ≤ ty ∧ ty ≤ 12)

/-- The metadata of an entry whose DEFAULT, MIN, MAX and UNIT, and NAME where none is given, the spec does not state. -/
def openMeta (key ty flags rd wr count : Nat) (name : Option String) : EntryMeta :=
  let v (j : Nat) : Nat := if scalarType ty then (Config.entryQuad (4 * key + j)).toNat % 2 ^ (8 * wireBytes ty) else 0
  { ty := ty, elem := 0, flags := flags, rd := rd, wr := wr, count := count, dflt := v 0, min := v 1, max := v 2
    unit := (List.range 12).map (Config.entryByte (4 * key))
    name := match name with
      | some t => padTo 32 (textBytes t)
      | none => (List.range 32).map (Config.entryByte (4 * key + 1)) }

/-- R422: the metadata of a published variable. DEDUCED (assumption 180). -/
def pubMeta (s : State) (key : Nat) (p : PubEntry) (v : VarDesc) : EntryMeta :=
  let one : Bool := decide (entryType v ≠ 15)
  let r := tget none s.image.metas key
  let wire (x : Quad) : Nat := if one then x.toNat % 2 ^ (8 * cellBytes v) else 0
  let lim := metaRange s.image (key / 256) (key % 256) v.ty
  { ty := entryType v, elem := if one then 0 else if v.kind = 6 then 16 else wireType v.ty, flags := p.flags % 4 + 32
    rd := 31, wr := p.writeRoles % 32, count := if one then 0 else v.elems
    dflt := match r with
      | some x => wire x.dflt
      | none => 0
    min := wire lim.1, max := wire lim.2
    unit := match r with
      | some x => padTo 12 (x.unit.take 12)
      | none => List.replicate 12 0
    name := match r with
      | some x => padTo 32 (x.name.take 32)
      | none => List.replicate 32 0 }

/-- R427: READ_ROLES and WRITE_ROLES of the mirror entries of a block. -/
def mirrorRoles (b : Nat) : Nat × Nat := if b = 0x1B then (24, 16) else if b = 0 then (31, 24) else (31, 28)

/-- R426: the type and name of an identity entry, with its length, and whether its value changes without writes.
DEDUCED (assumption 180). -/
def identityMeta (n : Nat) : Nat × String × Nat × Bool :=
  match n with
  | 1 => (13, "PART_NUMBER", 10, false)
  | 2 => (13, "STEPPING", 2, false)
  | 3 => (5, "SERIAL", 0, false)
  | 4 => (4, "FIRMWARE_VERSION", 0, true)
  | 5 => (2, "FIRMWARE_SLOT", 0, true)
  | 6 => (4, "CONFIG_ID", 0, true)
  | 7 => (2, "FARM_DEVICE", 0, false)
  | 8 => (2, "LIFECYCLE", 0, true)
  | _ => (2, "JOA_VERSION", 0, false)

/-- R651: the size of a firmware slot. -/
def fwSlotSize (s : State) : Nat := (s.reg R.XSPI_SIZE).toNat % 256 * 2 ^ 19

/-- R420: the metadata of an entry. DESIGN CHOICE (assumption 179). -/
def entryMeta (s : State) (key : Nat) (e : Entry) : EntryMeta :=
  match e with
  | .identity n =>
    let (t, name, c, vol) := identityMeta n
    openMeta key t (32 * b2n vol) 31 0 c (some name)
  | .configSlot => openMeta key 14 4 28 12 (2 ^ 21) (some "CONFIG_SLOT")
  | .configActive => openMeta key 14 4 28 0 (2 ^ 21) (some "CONFIG_ACTIVE")
  | .firmwareSlot => openMeta key 14 4 24 24 (fwSlotSize s) (some "FIRMWARE_SLOT")
  | .fwActivate => openMeta key 2 0 31 24 0 (some "FW_ACTIVATE")
  | .root _ _ => openMeta key 14 0 31 16 48 none
  | .hostKey _ => openMeta key 14 0 31 16 98 none
  | .nonce => openMeta key 14 0 31 31 32 (some "ATTEST_NONCE")
  | .report => openMeta key 14 32 31 0 3640 (some "ATTEST_REPORT")
  | .idKeys => openMeta key 14 0 31 0 157 (some "IDENTITY_KEYS")
  | .captSeg d => openMeta key 14 32 28 0 (((s.descOwner d).map s.segSize).getD 0) (some ("CAPT_SEG_" ++ toString d))
  | .captOvf => openMeta key 14 32 28 0 0xFFFFFFFF (some "CAPT_OVF_DATA")
  | .pub _ p v => pubMeta s key p v
  | .mirror _ a => openMeta key 4 40 (mirrorRoles (a / 65536)).1 (mirrorRoles (a / 65536)).2 0 none
  | .proxy port _ _ _ => if port < 4 then openMeta key 14 16 12 12 1024 none else openMeta key 3 16 12 12 0 none

/-- R420: the 80 bytes of a metadata record. -/
def EntryMeta.bytes (x : EntryMeta) : List Byte :=
  leBytes 1 x.ty ++ leBytes 1 x.elem ++ leBytes 1 x.flags ++ leBytes 1 x.rd ++ leBytes 1 x.wr ++ leBytes 3 0 ++ leBytes 4 x.count ++
    leBytes 8 x.dflt ++ leBytes 8 x.min ++ leBytes 8 x.max ++ x.unit ++ x.name

/-- R427: an entry can be read: a register unless every field of it is write-only. -/
def Entry.readable : Entry → Bool
  | .mirror d _ => decide (d.wo = 0 ∨ d.rw ≠ 0 ∨ d.w1c ≠ 0 ∨ d.rc ≠ 0)
  | _ => true

/-- R427, R441: an entry can be written by WRITE: a register unless every field of it is read-only or read-to-clear.
DEDUCED (assumption 181). -/
def Entry.writable : Entry → Bool
  | .mirror d _ => decide (d.rw ≠ 0 ∨ d.w1c ≠ 0 ∨ d.wo ≠ 0)
  | .identity _ | .configSlot | .configActive | .firmwareSlot => false
  | _ => true

/-- R445: an entry of segmented transfer. -/
def Entry.segmented : Entry → Bool
  | .configSlot | .configActive | .firmwareSlot => true
  | _ => false

/-- The image slot of an entry of segmented transfer: 0, 1 firmware, 2, 3 configuration. DEDUCED (assumption 190). -/
def Entry.slot (s : State) : Entry → Nat
  | .configSlot => 5 - s.activeSlot
  | .configActive => s.activeSlot
  | _ => 1 - s.fwSlot

/-- R300, R448: an entry that cannot be subscribed to: a read-to-clear register, a proxy, a SEGMENTED or a capture entry. -/
def Entry.unsubscribable : Entry → Bool
  | .mirror d _ => decide (d.rc ≠ 0)
  | .proxy _ _ _ _ | .captSeg _ | .captOvf => true
  | e => e.segmented

/-! ### The entry after another (R443) -/

/-- The least register offset of a row that is at least x. -/
def RegDesc.least (d : RegDesc) (x : Nat) : Option Nat :=
  ((List.range' d.f1 d.n1).flatMap fun i => (List.range' d.f2 d.n2).map fun j => d.base + i * d.s1 + j * d.s2).foldl
    (fun m a => if x ≤ a ∧ a < m.getD (a + 1) then some a else m) none

/-- The lesser of two keys. -/
def minKey (a b : Option Nat) : Option Nat :=
  match a, b with
  | some x, some y => some (min x y)
  | some x, none => some x
  | none, y => y

/-- R427: the least register offset that is at least x. -/
def regNext (x : Nat) : Option Nat :=
  (List.range' (x / 65536) (48 - x / 65536)).findSome? fun b =>
    (regMap b).foldl (fun m d => minKey m (d.least x)) none

/-- R443: the least key of an existing entry above a key; no proxy entry. -/
def nextEntry (s : State) (key : Nat) : Option Nat :=
  let above (l : List Nat) : Option Nat := l.foldl (fun m a => if key < a then minKey m (some a) else m) none
  let capt : Option Nat := if key < 0x480000 then some 0x480000 else if key < 0x480FFF then some (key + 1) else none
  let mir : Option Nat := if 0xCC0000 ≤ key then none
    else (regNext (if key < 0xC00000 then 0 else (key + 1 - 0xC00000) * 4)).map fun a => 0xC00000 + a / 4
  minKey (above (deviceEntries.map (·.1)))
    (minKey capt (minKey (above (s.image.modules.flatMap fun m => m.pubs.map fun p => p.index * 256 + p.subindex)) mir))

/-! ### Reading (R440) -/

/-- R426: the bytes of an identity entry. -/
def identityBytes (s : State) (n : Nat) : List Byte :=
  match n with
  | 1 => textBytes "JX5-3600-I"
  | 2 => textBytes "C0"
  | 3 => leBytes 8 s.sec.serial.toNat
  | 4 => leBytes 4 (((s.imageFile s.fwSlot).map (·.version)).getD 0)
  | 5 => leBytes 1 s.fwSlot
  | 6 => leBytes 4 s.image.id
  | 7 => leBytes 1 s.ownDev
  | 8 => leBytes 1 s.lifecycle
  | _ => [1]

/-- R447: the length of the content of an image slot; none while the slot is empty or invalid. -/
def slotTotal (s : State) (k : Nat) : Option Nat :=
  match tget none s.joa.stores k with
  | some l => some l.length
  | none => (s.imageFile k).map fun f =>
      (Config.entryQuad (2 ^ 40 + 4 * f.id + k)).toNat % ((if k < 2 then fwSlotSize s else 2 ^ 21) + 1)

/-- The bytes of an image slot from an offset; those of an image that no transfer brought are free. -/
def slotPart (s : State) (k off n : Nat) : List Byte :=
  match tget none s.joa.stores k with
  | some l => (l.drop off).take n
  | none => match s.imageFile k with
    | some f => (List.range' off n).map (Config.entryByte (2 ^ 40 + 4 * f.id + k))
    | none => []

/-- R572: the signed 256 bytes of an attestation report for a nonce and leaf. -/
def reportHead (s : State) (nonce : List Byte) (leaf : Nat) : List Byte :=
  let fw := s.imageFile s.fwSlot
  let cf := s.imageFile s.activeSlot
  textBytes "ATR5" ++ leBytes 2 256 ++ leBytes 2 0 ++ nonce ++ leBytes 8 s.sec.serial.toNat ++ leBytes 4 (s.reg R.SYS_ID).toNat ++
    leBytes 4 (s.reg R.SYS_STEPPING).toNat ++ leBytes 1 s.lifecycle ++ leBytes 1 s.ownDev ++ leBytes 1 s.fwSlot ++
    leBytes 1 s.sec.rollback ++ leBytes 4 ((fw.map (·.version)).getD 0) ++ padTo 48 ((fw.map (·.bodyHash)).getD []) ++
    leBytes 4 s.image.id ++ padTo 48 (((cf.filter fun f => f.id = s.image.id).map (·.bodyHash)).getD []) ++
    leBytes 4 (s.reg R.SAFEMIR_SET_CRC).toNat ++ leBytes 1 (s.sec.usable false + 16 * s.sec.usable true) ++
    leBytes 1 (b2n s.sec.everUnlocked) ++ leBytes 2 s.sec.tamperCnt ++ leBytes 4 0 ++ leBytes 8 s.vT64.toNat ++ leBytes 8 leaf ++
    List.replicate 64 0

/-- R572: a session's report: a new one where a READ begins at its first byte. DEDUCED (assumption 189). -/
def attest (k off : Nat) (s : State) : List Byte × State :=
  let x := s.session k
  if off ≠ 0 ∧ x.report ≠ [] then (x.report, s)
  else
    match x.nonce, lmsUse s with
    | some n, (some leaf, s1) =>
      let (e, s2) := s1.freeBytes 96
      let (h, s3) := s2.freeBytes 3284
      let r := reportHead s n leaf ++ e ++ leBytes 4 3284 ++ h
      (r, s3.setSession k { x with report := r })
    | _, _ => ([], s)

/-- The value of an entry is longer than any: its length; none where it cannot be read in the present state. -/
def entryTotal (s : State) (k : Nat) (e : Entry) : Option Nat :=
  match e with
  | .identity n => some (identityBytes s n).length
  | .configSlot | .configActive | .firmwareSlot => slotTotal s (e.slot s)
  | .fwActivate => some 1
  | .root lms n => some (if (s.sec.root lms n).hash.isSome then 48 else 0)
  | .hostKey n => some (if (tget none s.sec.hosts n).isSome then 98 else 0)
  | .nonce => some (if (s.session k).nonce.isSome then 32 else 0)
  | .report => if (s.session k).nonce.isSome && s.sec.keys.isSome && !s.sec.exhausted then some 3640 else none
  | .idKeys => some 157
  | .captSeg d => if s.segState d = 2 then (s.descOwner d).map s.segSize else none
  | .captOvf => some (if s.ovfSize = 0 then 0 else 64 * s.ovfUsed)
  | .pub _ _ v => some (v.elems * cellBytes v)
  | .mirror _ _ => some 4
  | .proxy port _ _ _ => some (if port < 4 then 1024 else 2)

/-- R300: n bytes of the overflow ring from an offset past its tail. -/
def ovfPart (s : State) (off n : Nat) : List Byte :=
  let size := 64 * s.ovfSize
  let at_ := (64 * (s.reg R.CAPT_OVF_TAIL).toNat + off) % size
  let first := min n (size - at_)
  s.memRead (s.ovfBase + at_) first ++ s.memRead s.ovfBase (n - first)

/-- R440: n bytes of an entry's value from an offset, read for session k at one instant. -/
def entryPart (k : Nat) (e : Entry) (off n : Nat) (s : State) : List Byte × State :=
  let cut (l : List Byte) : List Byte := (l.drop off).take n
  let room := min n (((entryTotal s k e).getD 0) - off)
  match e with
  | .identity i => (cut (identityBytes s i), s)
  | .configSlot | .configActive | .firmwareSlot => (slotPart s (e.slot s) off room, s)
  | .fwActivate => let x := s.freeBytes 1
                   (cut x.1, x.2)
  | .root lms i => (cut ((s.sec.root lms i).hash.getD []), s)
  | .hostKey i => (cut (match tget none s.sec.hosts i with
      | some x => x.key ++ leBytes 1 x.roles
      | none => []), s)
  | .nonce => (cut ((s.session k).nonce.getD []), s)
  | .report => let x := attest k off s
               (cut x.1, x.2)
  | .idKeys =>
    match s.sec.keys with
    | some l => (cut l, s)
    | none => let x := s.freeBytes 157
              (cut x.1, x.2)
  | .captSeg d =>
    match s.descOwner d with
    | some c => (s.memRead (s.slotAddr c (d - (s.captShare c).1) + off) room, s)
    | none => ([], s)
  | .captOvf => (ovfPart s off room, s)
  | .pub m _ v => (cut (pubBytes s m v), s)
  | .mirror _ a => let t := regRead (.joa k) a s
                   (leBytes 4 t.readData.toNat, t)
  | .proxy _ _ _ _ => ([], s)

/-- R438: the check of a read of an entry of this device with a role: 0, or the first that fails. -/
def readStatus (s : State) (role key : Nat) : Nat :=
  match findEntry s key with
  | none => stNoEntry
  | some e => if !natBit (entryMeta s key e).rd role then stAccess else if !e.readable then stNotReadable else 0

/-! ### Writing (R441) -/

/-- R419: the element bytes of a metadata record's type. -/
def EntryMeta.unitBytes (x : EntryMeta) : Nat := if x.ty = 15 then (if x.elem = 16 then 8 else wireBytes x.elem) else 1

/-- R438, R441, R575: the length of a value to write fits its entry. -/
def lengthOk (x : EntryMeta) (e : Entry) (n : Nat) : Bool :=
  match e with
  | .root _ _ => decide (n = 48)
  | .nonce => decide (n = 32)
  | .hostKey _ => decide (n = 0 ∨ n = 98)
  | _ =>
    if scalarType x.ty then decide (n = wireBytes x.ty)
    else if x.ty = 15 then decide (n = x.count * x.unitBytes) else decide (n ≤ x.count)

/-- R419, R438: a value to write lies within the range of its entry. -/
def rangeOk (s : State) (key : Nat) (e : Entry) (data : List Byte) : Bool :=
  match e with
  | .pub _ _ v =>
    if v.kind ≠ 6 ∧ v.ty = .b then data.all fun b => decide (b.toNat ≤ 1)
    else if entryType v = 15 then true
    else inRange s.image (key / 256) (key % 256) v.ty (normCell v.ty (BitVec.ofNat 64 (leNat data)))
  | _ => true

/-- R438: the check of a write of an entry of this device with a role: 0, or the first that fails. -/
def writeStatus (s : State) (role key ty : Nat) (data : List Byte) : Nat :=
  match findEntry s key with
  | none => stNoEntry
  | some e =>
    let x := entryMeta s key e
    let ident := match e with
      | .identity _ => true
      | _ => false
    if ident then stNotWritable
    else if !natBit x.wr role then stAccess
    else if !e.writable then stNotWritable
    else if ty ≠ x.ty then stType
    else if !lengthOk x e data.length then stLength
    else if !rangeOk s key e data then stRange
    else 0

/-- R575: a root slot is programmed once. DEDUCED (assumption 187). -/
def rootWrite (lms : Bool) (n : Nat) (data : List Byte) (s : State) : Nat × State :=
  let r := s.sec.root lms n
  if r.hash.isSome then (stState, s) else (0, s.modSec fun x => x.setRoot lms n { r with hash := some data })

/-- R575: a host key is set, or cleared by length 0. DEDUCED (assumption 187). -/
def hostKeyWrite (n : Nat) (data : List Byte) (s : State) : State :=
  let key : Option HostKey := if data = [] then none else some ⟨data.take 97, (data.getD 97 0).toNat⟩
  granWait .secure 98 (s.modSec fun x => { x with hosts := tset none x.hosts n key })

/-- R441: a checked write of an entry that takes effect at once, for session k: its STATUS. -/
def entryWrite (k key : Nat) (e : Entry) (data : List Byte) (s : State) : Nat × State :=
  match e with
  | .mirror _ a => (0, regWrite (.joa k) a (BitVec.ofNat 32 (leNat data)) s)
  | .pub m p v => (0, pubWrite key m p v data s)
  | .fwActivate => fwActivate (leNat data) s
  | .root lms n => rootWrite lms n data s
  | .hostKey n => (0, hostKeyWrite n data s)
  | .nonce => (0, s.modSession k fun x => { x with nonce := some data, report := [] })
  | _ => (stNotWritable, s)

/-! ### Readings of the gleaner (R303) -/

/-- R301, R303: the value of an entry of this device as a cell of a type, read without an effect. -/
def entryCell (s : State) (key : Nat) (t : EType) : Option Quad :=
  match findEntry s key with
  | some (.mirror d a) => some (normCell t ((s.valueOf d a).zeroExtend 64))
  | some (.pub m _ v) => if entryType v = 15 then none else some (s.varCell m v 0)
  | some (.identity n) => if n ≤ 2 then none else some (normCell t (BitVec.ofNat 64 (leNat (identityBytes s n))))
  | _ => none

end Sys2Proof.Machine
end

