-- ==== Sys2Proof/Machine/JoaServe.lean ====
section
/-! DEFINITION. Chapter 11: the items of JOA requests, their responses, and the service of what waits (R429, R430, R438 to R444). -/

namespace Sys2Proof.Machine

/-! ### Items -/

/-- An item that only addresses an entry. -/
def JoaItem.at (a : Nat) : JoaItem := ⟨a, 0, 0, 0, [], 0, false, none, .none⟩
/-- R440: the item of a READ. -/
def JoaItem.read (a off most : Nat) : JoaItem := { JoaItem.at a with off := off, most := most }
/-- R441: an item of a WRITE. -/
def JoaItem.write (w : WriteItem) : JoaItem := { JoaItem.at w.addr.toNat with ty := w.ty.toNat, data := w.data }

/-- R440, R442: the value of an item that was read. -/
def itemValue (k req i ty total : Nat) (more : Bool) (data : List Byte) (s : State) : State :=
  itemEnd k req i 0 0 (modItem k req i (fun x => { x with ty := ty, total := total, more := more, data := data }) s)

/-- R439: an earlier item of the session for the same entry is not settled. -/
def itemBlocked (s : State) (k ord i addr : Nat) : Bool :=
  (s.session k).pend.any fun p => p.items.zipIdx.any fun (x, j) =>
    decide (x.addr = addr ∧ x.status = none ∧ (p.ord < ord ∨ (p.ord = ord ∧ j < i)))

/-- R442: the bytes that an item of a READ_MULTI may still take. DEDUCED (assumption 183). -/
def multiRoom (s : State) (k : Nat) (p : JoaPend) : Nat :=
  (s.session k).maxPayload - (16 + (p.items.map fun x => 4 + if x.status.isSome then up4 x.data.length else 0).sum)

/-- R440: the bytes that the response of a READ may carry. -/
def readRoom (s : State) (k : Nat) : Nat := (s.session k).maxPayload - 20

/-- R440: the part that a READ takes of a value of some element size; none where its OFFSET or MAXLEN is malformed. -/
def readSpan (s : State) (k : Nat) (x : JoaItem) (m : EntryMeta) : Option Nat :=
  let es := m.unitBytes
  if scalarType m.ty then (if x.off = 0 then some 8 else none)
  else if m.ty = 15 ∧ (x.off % es ≠ 0 ∨ x.most % es ≠ 0) then none
  else
    let n := if x.most = 0 then readRoom s k else min x.most (readRoom s k)
    some (n / es * es)

/-- R440: a READ of an entry of this device. -/
def readOne (k req i : Nat) (x : JoaItem) (e : Entry) (m : EntryMeta) (s : State) : State :=
  match readSpan s k x m, entryTotal s k e with
  | none, _ => itemEnd k req i stBadRequest 0 s
  | _, none => itemEnd k req i stState 0 s
  | some n, some total =>
    if scalarType m.ty ∧ readRoom s k < total then itemEnd k req i stTooBig 0 s
    else
      let r := entryPart k e x.off n s
      itemValue k req i m.ty total (decide (x.off + r.1.length < total)) r.1 r.2

/-- R442: an item of a READ_MULTI of this device: the whole value. DEDUCED (assumption 190). -/
def readWhole (k req i : Nat) (p : JoaPend) (e : Entry) (m : EntryMeta) (s : State) : State :=
  match entryTotal s k e with
  | none => itemEnd k req i stState 0 s
  | some total =>
    if multiRoom s k p < up4 total then itemEnd k req i stTooBig 0 s
    else
      let r := entryPart k e 0 total s
      itemValue k req i m.ty total false r.1 r.2

/-! ### Proxy accesses (R430) -/

/-- R430: a node or slave is DISABLED. -/
def proxyDisabled (s : State) (port node : Nat) : Bool :=
  if port < 4 then decide (s.nodeState port node = 0) else decide (s.slaveState (port - 4) node = 0)

/-- R430: a proxy access is queued for its port, or refused. -/
def proxyQueue (k req i port node index sub : Nat) (write : Bool) (data : List Byte) (s : State) : State :=
  if proxyDisabled s port node then itemEnd k req i stState 0 s
  else if 8 ≤ (s.joa.proxies.filter fun r => r.port = port ∧ ¬ r.started).length then itemEnd k req i stBusy 0 s
  else
    let r : ProxyReq := ⟨k, req, i, port, node, index, sub, write, data, false⟩
    itemWait k req i .proxy { s with joa := { s.joa with proxies := s.joa.proxies ++ [r] } }

/-- R397, R430: the first waiting access of a port starts when none runs; an SDO, also behind the host's. DEDUCED (assumption 206). -/
def proxyStart (port : Nat) (s : State) : State :=
  let mine := s.joa.proxies.filter fun r => r.port = port
  if mine.any (·.started) || (decide (port < 4) && (s.can port).sdo.isSome) then s
  else
    match mine with
    | [] => s
    | r :: _ =>
      let s1 : State := { s with joa := { s.joa with
        proxies := s.joa.proxies.map fun x => if x = r then { x with started := true } else x } }
      if port < 4 then
        (s1.setCan port { s1.can port with sdo := some ⟨2, r.node, r.index, r.sub, r.write, r.data⟩ }).setReg (R.CAN_p_SDO_BUSY port) 1
      else s1

/-! ### One item -/

/-- R440, R442: an item that reads an entry of this device. -/
def readItem (k req i : Nat) (p : JoaPend) (x : JoaItem) (s : State) : State :=
  let key := x.addr % 2 ^ 24
  let st := readStatus s (s.session k).role key
  match findEntry s key with
  | none => itemEnd k req i stNoEntry 0 s
  | some e =>
    if st ≠ 0 then itemEnd k req i st 0 s
    else
      match e with
      | .proxy port node index sub => proxyQueue k req i port node index sub false [] s
      | e => if p.op = 0x10 then readOne k req i x e (entryMeta s key e) s else readWhole k req i p e (entryMeta s key e) s

/-- R441: an item that writes a published RETAIN or FB variable waits for the next base headland; with RUN clear it takes effect at
once, and during BRIDGING it is refused. -/
def varWait (k req i : Nat) (s : State) : State :=
  if s.ctrlBridging then itemEnd k req i stState 0 s
  else if s.headRun then itemWait k req i .headland s
  else varItem k req i s

/-- R441: an item that writes an entry of this device. -/
def writeItem (k req i : Nat) (x : JoaItem) (s : State) : State :=
  let key := x.addr % 2 ^ 24
  let st := writeStatus s (s.session k).role key x.ty x.data
  match findEntry s key with
  | none => itemEnd k req i stNoEntry 0 s
  | some e =>
    if st ≠ 0 then itemEnd k req i st 0 s
    else
      match e with
      | .proxy port node index sub => proxyQueue k req i port node index sub true x.data s
      | .pub m p v =>
        if v.kind = 1 then itemEnd k req i 0 0 (pubWrite key m p v x.data s) else varWait k req i s
      | e =>
        let r := entryWrite k key e x.data s
        itemEnd k req i r.1 0 r.2

/-- R443: the answer of an INFO: NEXT and the metadata record. DEDUCED (assumption 184). -/
def infoItem (k req i : Nat) (x : JoaItem) (s : State) : State :=
  let key := x.addr % 2 ^ 24
  let next := match nextEntry s key with
    | some a => s.ownDev * 2 ^ 24 + a
    | none => 0xFFFFFFFF
  let put (l : List Byte) := modItem k req i (fun y => { y with data := leBytes 4 next ++ l }) s
  match findEntry s key with
  | none => itemEnd k req i stNoEntry 0 (put (List.replicate 80 0))
  | some e => itemEnd k req i 0 0 (put (entryMeta s key e).bytes)

/-- R448: an address to subscribe to. -/
def subItem (k req i : Nat) (x : JoaItem) (s : State) : State :=
  let key := x.addr % 2 ^ 24
  let st := readStatus s (s.session k).role key
  let no : Bool := match findEntry s key with
    | some e => e.unsubscribable
    | none => false
  itemEnd k req i (if st ≠ 0 then st else if no then stNotSub else 0) 0 s

/-- R429, R439: an item is carried out, waits, or is forwarded to its farm device. -/
def joaTry (k req i : Nat) (s : State) : State :=
  match s.joaReq k req, s.joaItem k req i with
  | some p, some x =>
    if x.status.isSome then s
    else if itemBlocked s k p.ord i x.addr then itemWait k req i .after s
    else if x.addr / 2 ^ 24 ≠ s.ownDev then
      if x.addr / 2 ^ 24 < 8 ∧ natBit (s.reg R.DRUS_REACH).toNat (x.addr / 2 ^ 24) then itemWait k req i .farm s
      else itemEnd k req i stNoDevice 0 s
    else
      match p.op with
      | 0x11 => writeItem k req i x s
      | 0x14 => infoItem k req i x s
      | 0x20 => subItem k req i x s
      | _ => readItem k req i p x s
  | _, _ => s

/-! ### Responses -/

/-- An item's STATUS. -/
def JoaItem.code (x : JoaItem) : Nat := (x.status.map (·.1)).getD 0
/-- An item's DETAIL. -/
def JoaItem.detail (x : JoaItem) : Nat := (x.status.map (·.2)).getD 0
/-- R438: a message's STATUS: that of its first failing item. -/
def JoaPend.code (p : JoaPend) : Nat := ((p.items.map (·.code)).find? fun c => c ≠ 0).getD 0

/-- The bytes that an item returns: its value, or the remote code. -/
def JoaItem.bytes (x : JoaItem) : List Byte := if x.code = 0 then x.data else if x.code = stRemote then leBytes 4 x.detail else []

/-- R440: the response of a READ. DEDUCED (assumption 182). -/
def readBody (p : JoaPend) (x : JoaItem) : List Byte :=
  let d := x.bytes
  joaHead 0x10 p.code p.req ++ leBytes 1 x.ty ++ leBytes 1 (b2n x.more) ++ leBytes 2 d.length ++ leBytes 4 x.total ++
    leBytes 8 p.v.toNat ++ d

/-- R447: a transfer. -/
def State.xfer (s : State) (n : Nat) : Option JoaXfer := s.joa.xfers.find? fun x => x.num = n

/-- R446: the response of a SEG_DATA. DEDUCED (assumption 195). -/
def segBody (s : State) (st req n : Nat) : List Byte :=
  match s.xfer n with
  | some x => joaHead 0x19 st req ++ leBytes 2 n ++ leBytes 2 0 ++ leBytes 8 x.bytes.length
  | none => joaHead 0x19 st req

/-- R440 to R448: the response of a request whose items are settled; that of a SUBSCRIBE with a SUB_ID. -/
def joaBody (s : State) (p : JoaPend) (subId : Nat) : List Byte :=
  let head := joaHead p.op p.code p.req
  let count := leBytes 2 p.items.length ++ leBytes 2 0
  match p.op with
  | 0x10 => readBody p (p.items.headD (JoaItem.at 0))
  | 0x11 => head ++ count ++ leBytes 8 p.v.toNat ++ p.items.flatMap fun x => leBytes 1 x.code ++ leBytes 3 0 ++ leBytes 4 x.detail
  | 0x12 => head ++ count ++ leBytes 8 p.v.toNat ++ p.items.flatMap fun x =>
      leBytes 1 x.code ++ leBytes 1 x.ty ++ leBytes 2 x.bytes.length ++ pad4 x.bytes
  | 0x14 => head ++ padTo 84 (p.items.headD (JoaItem.at 0)).data
  | 0x19 => segBody s p.code p.req p.slot
  | _ => head ++ leBytes 2 subId ++ leBytes 2 0 ++ pad4 (p.items.map fun x => BitVec.ofNat 8 x.code)

/-! ### Subscriptions: creation (R448) -/

/-- R448: a new SUB_ID. DEDUCED (assumption 200). -/
def newSub (s : State) : Nat :=
  (((List.range 257).map fun j => (s.joa.nextSub + j) % 65535).find? fun n => ¬ s.joa.subs.any fun x => x.id = n).getD 0

/-- The number of the oldest entry of the event log (R452). -/
def State.evOldest (s : State) : Nat := (s.reg R.SYS_EVLOG_HEAD).toNat - s.evlog.length

/-- R448: a SUBSCRIBE whose addresses are checked is answered; slot is its MODE, bad its PERIOD. -/
def subFinish (k : Nat) (p : JoaPend) (s : State) : State :=
  let good := (p.items.zipIdx.filter fun (x, _) => x.code = 0).map fun (x, i) => (i, x.addr)
  let mine := (s.joa.subs.filter fun x => x.session = k).length
  let total := (s.joa.subs.map fun x => x.items.length).sum
  if good = [] ∧ p.slot ≠ 2 then joaRespond k p.req (joaBody s p 0xFFFF) s
  else if 256 ≤ s.joa.subs.length ∨ 32 ≤ mine ∨ 4096 < total + good.length then joaAnswer k 0x20 stNoResource p.req [] s
  else
    let id := newSub s
    let x : JoaSub := ⟨id, k, p.slot, p.bad, good, [], 0, 0, [], 0, 0, false, s.evOldest, none, []⟩
    joaRespond k p.req (joaBody s p id) { s with joa := { s.joa with subs := s.joa.subs ++ [x], nextSub := id + 1 } }

/-- The request whose items are settled is answered. -/
def joaFinish (k : Nat) (p : JoaPend) (s : State) : State :=
  if p.op = 0x20 then subFinish k p s else joaRespond k p.req (joaBody s p 0) s

/-! ### Segments that wait for their store (R447, R651) -/

/-- R447: a segment that waited is stored behind the others of its transfer; it fails with STATE when the transfer is gone.
DEDUCED (assumption 193). -/
def segStored (k req i : Nat) (s : State) : State :=
  match s.joaReq k req, s.joaItem k req i with
  | some p, some x =>
    if (s.xfer p.slot).isNone then itemEnd k req i stState 0 s
    else
      itemEnd k req i 0 0 { s with joa := { s.joa with
        xfers := s.joa.xfers.map fun y => if y.num = p.slot then { y with bytes := y.bytes ++ x.data } else y } }
  | _, _ => s

/-- The transfer of a waiting segment is gone. DEDUCED (assumption 191). -/
def segOrphan (s : State) (a : ItemAt) : Bool :=
  match s.joaReq a.2.1 a.2.2.1 with
  | some p => (s.xfer p.slot).isNone
  | none => true

/-- R447, R540: segments whose granary writes have ended are stored, and those of transfers that are gone fail. -/
def segServe (s : State) : State :=
  let lost := ((itemsWaiting s .flash) ++ (itemsWaiting s .granary)).filter (segOrphan s)
  let s1 := s.forAll lost fun (_, k, req, i) t => segStored k req i t
  let w := itemsWaiting s1 .granary
  let jobs := (s1.gran.jobs.filter fun j => j.work = .config).length
  let s2 := s1.forAll (w.take (w.length - jobs)) fun (_, k, req, i) t => segStored k req i t
  s2.putFlag R.XSPI_STATUS F.XSPI_STATUS.BUSY (!(itemsWaiting s2 .flash).isEmpty)

/-! ### Service -/

/-- R217, R441: items whose run has ended have taken effect; a persisted one is saved. -/
def runServe (s : State) : State :=
  let done := itemsWhere s fun _ x => match x.wait with
    | .run t => ¬ s.txn.deferred.any fun w => w.desc = t
    | _ => false
  s.forAll done fun (_, k, req, i) t =>
    match (t.joaItem k req i).bind fun x => (findPub t.image (x.addr / 256 % 65536) (x.addr % 256)).map fun y => (x, y) with
    | some (x, m, p, v) => itemEnd k req i 0 0 (persistVar (x.addr % 2 ^ 24) m p v t)
    | none => itemEnd k req i 0 0 t

/-- R439, R441: items whose headlands no longer come, or that waited for others. -/
def waitServe (s : State) : State :=
  let s1 := if s.headRun then s else joaHeadland s
  s1.forAll (itemsWaiting s1 .after) fun (_, k, req, i) t => joaTry k req i t

/-- R439: requests whose items are all settled are answered. -/
def answerServe (s : State) : State :=
  s.forAll (List.range 32) fun k t =>
    if (t.session k).st ≠ 2 then t
    else t.forAll ((t.session k).pend.filter fun p => p.op ≠ 0x13 ∧ p.items.all fun x => x.status.isSome) fun p u => joaFinish k p u

/-- The JOA engine serves what waits and answers what is settled. -/
def joaServe (s : State) : State :=
  let s1 := waitServe (runServe (segServe s))
  joaGroups (answerServe (s1.forAll (List.range 8) fun p t => proxyStart p t))

/-! ### Requests -/

/-- R568: what recovery serves: PING, CLOSE, transfers of the firmware slot, and a WRITE of SYS_RESET. DEDUCED (assumption 194). -/
def recoveryServes (s : State) (op : Nat) (items : List JoaItem) : Bool :=
  !s.resets.recovery || decide (op = 8 ∨ op = 9 ∨ (0x18 ≤ op ∧ op ≤ 0x1B)) ||
    (decide (op = 0x11) && items.all fun x => decide (x.addr % 2 ^ 24 = 0xC00003))

/-- A request of an open session that recovery serves. -/
def joaServed (k op req : Nat) (items : List JoaItem) (f : State → State) (s : State) : State :=
  joaServe (joaRequest k op req
    (fun t => if recoveryServes t op items then f t else joaAnswer k op stState req [] t) s)

/-- A request with items: its items are carried out in order, and it is answered when they are settled. -/
def joaItems (k op req slot bad : Nat) (formed : Bool) (items : List JoaItem) (s : State) : State :=
  joaServed k op req items (fun t =>
    if !formed then joaAnswer k op stBadRequest req [] t
    else
      let p : JoaPend := ⟨req, t.joa.nextOrd, op, items, t.vT64, slot, bad⟩
      let t1 := joaPend k p { t with joa := { t.joa with nextOrd := t.joa.nextOrd + 1 } }
      t1.forAll (List.range items.length) fun i u => joaTry k req i u) s

/-! ### WRITE_GROUP (R226, R444) -/

/-- R201, R419: the cell that carries a value of a wire type from BOOL to T64. -/
def groupType : Nat → Option EType
  | 1 => some .b
  | 2 | 3 | 4 => some .u32
  | 5 | 9 => some .i64
  | 6 | 7 | 8 => some .i32
  | 10 => some .f32 | 11 => some .f64 | 12 => some .t64
  | _ => none

/-- R419: a value of a wire type as a cell; an I8 or I16 keeps its sign. -/
def groupCell (wire v : Nat) : Quad :=
  if wire = 6 then BitVec.ofInt 64 (BitVec.ofNat 8 v).toInt
  else if wire = 7 then BitVec.ofInt 64 (BitVec.ofNat 16 v).toInt
  else BitVec.ofNat 64 v

/-- R444: an item of a group write is added to its transaction. -/
def groupAdd (i role : Nat) (w : WriteItem) (s : State) : State :=
  let v := leNat w.data
  match groupType w.ty.toNat with
  | some t =>
    if w.data.length = wireBytes w.ty.toNat ∧ (t ≠ .b ∨ v ≤ 1) then
      txAddWire w.ty.toNat i 10 w.addr.toNat t 0 (groupCell w.ty.toNat v) role s
    else s.modTx i fun x => { x with badAction := true }
  | none => s.modTx i fun x => { x with badAction := true }

/-- An ADD of a transaction was refused. -/
def Txn.refused (x : Txn) : Bool := x.badAction || x.full || x.tooMany

/-- R444: the items of a group write are added; the number of the first refused one, or 0xFFFF. -/
def groupAdds (i role : Nat) : Nat → List WriteItem → State → Nat × State
  | _, [], s => (0xFFFF, s)
  | n, w :: l, s =>
    let s1 := groupAdd i role w s
    let r := groupAdds i role (n + 1) l s1
    (if (s1.tx i).refused && !(s.tx i).refused then n else r.1, r.2)

/-- R226: the lowest commit index that passes R208, where there is one. DESIGN CHOICE (assumption 186). -/
def groupIndex (s : State) (i : Nat) : Nat :=
  let b := s.firstIndexAfter s.vNow 1024 + 1
  ((List.range' b 2300).find? fun h => sealCause s i h = 0).getD b

/-- R226, R444: a group write is opened, filled and sealed; it is answered at the decision. DEDUCED (assumption 185). -/
def groupWrite (k req at_ : Nat) (items : List WriteItem) (s : State) : State :=
  joaServed k 0x13 req [] (fun t =>
    if items = [] ∨ 4096 < items.length then joaAnswer k 0x13 stBadRequest req [] t
    else
      match txTake 2 k false t with
      | (0, _) => joaAnswer k 0x13 stBusy req [] t
      | (h, t1) =>
        let i := h % 64
        let (bad, t2) := groupAdds i (t.session k).role 0 items t1
        let t3 := txSeal i (if at_ = 0 then groupIndex t2 i else at_) t2
        joaPend k ⟨req, t3.joa.nextOrd, 0x13, [], t3.vT64, i, bad⟩ { t3 with joa := { t3.joa with nextOrd := t3.joa.nextOrd + 1 } }) s

/-! ### Answers from elsewhere (R429, R430) -/

/-- R430, R440: the value that a proxy access brought, to the item that asked. -/
def proxyValue (k req i port : Nat) (data : List Byte) (s : State) : State :=
  match s.joaReq k req, s.joaItem k req i with
  | some p, some x =>
    let ty := if port < 4 then 14 else 3
    if p.op = 0x10 then
      match readSpan s k x { openMeta 0 ty 0 0 0 0 none with elem := 0 } with
      | none => itemEnd k req i stBadRequest 0 s
      | some n =>
        let d := (data.drop x.off).take n
        itemValue k req i ty data.length (decide (x.off + d.length < data.length)) d s
    else if multiRoom s k p < up4 data.length then itemEnd k req i stTooBig 0 s
    else itemValue k req i ty data.length false data s
  | _, _ => s

/-- R430: the proxy access that runs on a port ends. DEDUCED (assumption 204). -/
def proxyComplete (port : Nat) (e : ProxyEnd) (s : State) : State :=
  let s0 := if port < 4 ∧ ((s.can port).sdo.any fun r => r.source = 2) then
    (s.setCan port { s.can port with sdo := none }).setReg (R.CAN_p_SDO_BUSY port) 0 else s
  match s0.joa.proxies.find? fun r => r.port = port ∧ r.started with
  | none => joaServe s0
  | some r =>
    let s1 : State := { s0 with joa := { s0.joa with proxies := s0.joa.proxies.erase r } }
    joaServe (match e with
      | .timeout => itemEnd r.session r.req r.item stTimeout 0 s1
      | .remote c => itemEnd r.session r.req r.item stRemote c.toNat s1
      | .done d =>
        if r.write then itemEnd r.session r.req r.item 0 0 s1
        else proxyValue r.session r.req r.item port (if port < 4 then d else padTo 2 (d.take 2)) s1)

/-- R429: what another farm device answers to an item: its STATUS, TYPE, value or INFO record, MORE, TOTAL and DETAIL. -/
def farmItem (k req i st ty total detail : Nat) (more : Bool) (data : List Byte) (s : State) : State :=
  match s.joaReq k req, s.joaItem k req i with
  | some p, some x =>
    if x.wait ≠ .farm then s
    else if p.op = 0x14 then itemEnd k req i st detail (modItem k req i (fun y => { y with data := data }) s)
    else if st ≠ 0 then itemEnd k req i st detail s
    else if p.op = 0x10 then itemValue k req i ty total more (data.take (readRoom s k)) s
    else if p.op = 0x12 then
      if multiRoom s k p < up4 data.length then itemEnd k req i stTooBig 0 s else itemValue k req i ty total false data s
    else itemEnd k req i 0 0 s
  | _, _ => s

/-- R449: a value of a subscribed entry as its device sampled it. -/
def farmSample (id i ty : Nat) (data : List Byte) (s : State) : State :=
  { s with joa := { s.joa with subs := s.joa.subs.map fun x =>
      if x.id = id then { x with remote := (x.remote.filter fun r => r.1 ≠ i) ++ [(i, ty, data)] } else x } }

/-- R429, R449: what another farm device sends. DEDUCED (assumptions 204, 208). -/
def farmAnswer (f : ForwardFor) (st ty total detail : Nat) (more : Bool) (data : List Byte) (s : State) : State :=
  match f with
  | .request k req i => joaServe (farmItem k req.toNat i st ty total detail more data s)
  | .subscription id i => if st = 0 then farmSample id i ty data s else s

/-! ### The commands -/

/-- READ (R440). -/
def execRead (k : Fin 32) (req : BitVec 16) (addr off : Word) (most : BitVec 16) (s : State) : Out :=
  ok (joaItems k 0x10 req.toNat 0 0 true [JoaItem.read addr.toNat off.toNat most.toNat] s)
/-- WRITE (R441). -/
def execWrite (k : Fin 32) (req : BitVec 16) (items : List WriteItem) (s : State) : Out :=
  ok (joaItems k 0x11 req.toNat 0 0 (1 ≤ items.length && items.length ≤ 64) (items.map JoaItem.write) s)
/-- READ_MULTI (R442). -/
def execReadMulti (k : Fin 32) (req : BitVec 16) (addrs : List Word) (s : State) : Out :=
  ok (joaItems k 0x12 req.toNat 0 0 (1 ≤ addrs.length && addrs.length ≤ 256) (addrs.map fun a => JoaItem.at a.toNat) s)
/-- WRITE_GROUP (R226, R444). -/
def execWriteGroup (k : Fin 32) (req : BitVec 16) (at_ : Quad) (items : List WriteItem) (s : State) : Out :=
  ok (groupWrite k req.toNat at_.toNat items s)
/-- INFO (R443). -/
def execInfo (k : Fin 32) (req : BitVec 16) (addr : Word) (s : State) : Out :=
  ok (joaItems k 0x14 req.toNat 0 0 true [JoaItem.at addr.toNat] s)
/-- SUBSCRIBE (R448). -/
def execSubscribe (k : Fin 32) (req : BitVec 16) (mode : Byte) (period : BitVec 16) (addrs : List Word) (s : State) : Out :=
  ok (joaItems k 0x20 req.toNat mode.toNat period.toNat
    (decide (mode.toNat ≤ 2 ∧ 1 ≤ period.toNat ∧ addrs.length ≤ 64 ∧ (addrs = [] ↔ mode.toNat = 2)))
    (addrs.map fun a => JoaItem.at a.toNat) s)
/-- PROXY_COMPLETE (R430). -/
def execProxyComplete (port : Fin 8) (e : ProxyEnd) (s : State) : Out := ok (proxyComplete port e s)
/-- FARM_FORWARD_RESPONSE (R429, R449). -/
def execFarmForwardResponse (f : ForwardFor) (status ty : Byte) (total detail : Word) (more : Bool) (data : List Byte) (s : State) : Out :=
  ok (farmAnswer f status.toNat ty.toNat total.toNat detail.toNat more data s)

end Sys2Proof.Machine
end

