-- ==== Sys2Proof/Machine/JoaStream.lean ====
section
/-! DEFINITION. Chapter 11: transfers, subscriptions and their EVENTs, the gleaner stream, arriving messages, and the transmit queues
(R433 to R436, R445 to R453); the gleaner's headland samples (R303) and the boot flash's programs (R651). -/

namespace Sys2Proof.Machine

/-! ### Transfers (R446, R447) -/

/-- R447: the refusal of a SEG_START of an entry by a role; 0 where it is accepted. -/
def segStatus (s : State) (role addr total : Nat) : Nat :=
  if addr / 2 ^ 24 ≠ s.ownDev then
    (if addr / 2 ^ 24 < 8 ∧ natBit (s.reg R.DRUS_REACH).toNat (addr / 2 ^ 24) then stNotWritable else stNoDevice)
  else
    let key := addr % 2 ^ 24
    match findEntry s key with
    | none => stNoEntry
    | some e =>
      let slot := e.slot s
      if !natBit (entryMeta s key e).wr role then stAccess
      else if !e.segmented then stNotWritable
      else if (e = .configSlot ∧ s.get R.EXEC_STATUS F.EXEC_STATUS.OLC_STATE ≠ 0) ∨ (e = .firmwareSlot ∧ s.sec.activating = some slot) then
        stState
      else if s.joa.xfers.any fun x => x.slot = slot then stBusy
      else if 4 ≤ s.joa.xfers.length then stNoResource
      else if (entryMeta s key e).count < total then stLength
      else 0

/-- R447: SEG_START: the target is invalid at once. DEDUCED (assumption 191). -/
def segStart (k req addr total crc : Nat) (s : State) : State :=
  joaServed k 0x18 req [] (fun t =>
    let st := segStatus t (t.session k).role addr total
    match findEntry t (addr % 2 ^ 24) with
    | none => joaAnswer k 0x18 st req [] t
    | some e =>
      if st ≠ 0 then joaAnswer k 0x18 st req [] t
      else if t.resets.recovery ∧ e ≠ .firmwareSlot then joaAnswer k 0x18 stState req [] t
      else
        let slot := e.slot t
        let n := t.joa.nextXfer % 65536
        let t1 : State := { t with
          slots := tset none t.slots slot none
          joa := { t.joa with
            stores := tset none t.joa.stores slot none
            xfers := t.joa.xfers ++ [⟨n, k, slot, total, crc, [], t.raw⟩], nextXfer := n + 1 } }
        joaAnswer k 0x18 0 req (leBytes 2 n ++ leBytes 2 ((t.session k).maxPayload - 20) ++ leBytes 2 8 ++ leBytes 2 0)
          (setImageResult slot 0 t1)) s

/-- A transfer of a session. -/
def State.xferOf (s : State) (k n : Nat) : Option JoaXfer := (s.xfer n).filter fun x => x.session = k

/-- R447: the bytes of a transfer that are stored or wait to be. -/
def xferNext (s : State) (x : JoaXfer) : Nat :=
  x.bytes.length + ((itemsWhere s fun _ y => decide (y.wait = .flash ∨ y.wait = .granary)).map fun (_, k, req, i) =>
    match s.joaReq k req, s.joaItem k req i with
    | some p, some y => if p.slot = x.num then y.data.length else 0
    | _, _ => 0).sum

/-- R447: SEG_DATA: a segment at NEXT is stored, and answered when its store has it. DEDUCED (assumption 192). -/
def segData (k req n off : Nat) (data : List Byte) (s : State) : State :=
  joaServed k 0x19 req [] (fun t0 =>
    match t0.xferOf k n with
    | none => joaAnswer k 0x19 stState req [] t0
    | some x =>
      let t : State := { t0 with joa := { t0.joa with
        xfers := t0.joa.xfers.map fun y => if y.num = n then { y with last := t0.raw } else y } }
      let next := xferNext t x
      if data = [] ∨ (t.session k).maxPayload - 20 < data.length ∨ x.total < off + data.length then joaAnswer k 0x19 stLength req [] t
      else if off + data.length ≤ next then joaRespond k req (segBody t 0 req n) t
      else if off ≠ next then joaRespond k req (segBody t stOutOfOrder req n) t
      else
        let item : JoaItem := { JoaItem.at 0 with data := data, wait := if x.slot < 2 then .flash else .granary }
        let p : JoaPend := ⟨req, t.joa.nextOrd, 0x19, [item], t.vT64, n, 0⟩
        let t1 := joaPend k p { t with joa := { t.joa with nextOrd := t.joa.nextOrd + 1 } }
        if x.slot < 2 then t1 else granWait .config data.length t1) s

/-- R447: SEG_END: the target is valid when the length and the CRC are right; the transfer ends. -/
def xferEnd (k req n : Nat) (s : State) : State :=
  joaServed k 0x1A req [] (fun t =>
    match t.xferOf k n with
    | none => joaAnswer k 0x1A stState req [] t
    | some x =>
      let st := if x.bytes.length ≠ x.total then stLength else if (crc32c x.bytes).toNat ≠ x.crc then stCrc else 0
      joaAnswer k 0x1A st req [] { t with joa := { t.joa with
        xfers := t.joa.xfers.filter fun y => y.num ≠ n
        stores := if st = 0 then tset none t.joa.stores x.slot (some x.bytes) else t.joa.stores } }) s

/-- R447: SEG_ABORT. -/
def segAbort (k req n : Nat) (s : State) : State :=
  joaServed k 0x1B req [] (fun t =>
    match t.xferOf k n with
    | none => joaAnswer k 0x1B stState req [] t
    | some _ => joaAnswer k 0x1B 0 req [] (xferAbort n t)) s

/-- R447: 10 s pass without a SEG_DATA. -/
def xferTimeout (n : Nat) (s : State) : State :=
  match s.xfer n with
  | none => s
  | some x => joaServe (xferAbort n (s.advanceTo (x.last + BitVec.ofNat 64 (msGrains 10000))))

/-- R651: an erase or program of the boot flash ends: the first waiting segment is stored, or the transfer ends.
DEDUCED (assumption 193). -/
def xspiDone (good : Bool) (s : State) : State :=
  if good then
    match itemsWaiting s .flash with
    | [] => s
    | (_, k, req, i) :: _ => joaServe (segStored k req i s)
  else
    joaServe (xspiProgFail (s.forAll (s.joa.xfers.filter fun x => x.slot < 2) fun x t => xferAbort x.num t))

/-! ### Subscriptions (R448 to R452) -/

/-- A subscription, changed. -/
def modSub (id : Nat) (f : JoaSub → JoaSub) (s : State) : State :=
  { s with joa := { s.joa with subs := s.joa.subs.map fun x => if x.id = id then f x else x } }

/-- R448: UNSUBSCRIBE. DEDUCED (assumption 195). -/
def unsubscribe (k req id : Nat) (s : State) : State :=
  joaServed k 0x21 req [] (fun t =>
    if t.joa.subs.any fun x => x.id = id ∧ x.session = k then
      let t1 : State := { t with joa := { t.joa with subs := t.joa.subs.filter fun x => x.id ≠ id } }
      joaAnswer k 0x21 0 req [] (t1.modSession k fun x => { x with queue := x.queue.filter fun m => m ≠ .event id })
    else joaAnswer k 0x21 stState req [] t) s

/-- A value of an item of a subscription: its position, TYPE and bytes. -/
abbrev SubVal := Nat × Nat × List Byte

/-- R449: the items of a subscription read, for the session, one after another. DEDUCED (assumption 201). -/
def sampleItems (x : JoaSub) : List (Nat × Nat) → State → List SubVal × State
  | [], s => ([], s)
  | (i, a) :: l, s =>
    let key := a % 2 ^ 24
    let one : List SubVal × State :=
      if a / 2 ^ 24 ≠ s.ownDev then (x.remote.filter fun r => r.1 = i, s)
      else
        match findEntry s key with
        | none => ([], s)
        | some e =>
          match entryTotal s x.session e with
          | none => ([], s)
          | some n =>
            let r := entryPart x.session e 0 n s
            ([(i, (entryMeta s key e).ty, r.1)], r.2)
    let rest := sampleItems x l one.2
    (one.1 ++ rest.1, rest.2)

/-- R451: items united with those gathered before; each takes its newest value. -/
def gather (old new : List SubVal) : List SubVal :=
  ((old.filter fun x => ¬ new.any fun y => y.1 = x.1) ++ new).foldr
    (fun x l => (l.filter fun y => y.1 < x.1) ++ [x] ++ l.filter fun y => x.1 < y.1) []

/-- R449, R451: a sample of a subscription: an EVENT is queued, or the sample is merged. -/
def sampleSub (id : Nat) (s : State) : State :=
  match s.joa.subs.find? fun x => x.id = id with
  | none => s
  | some x =>
    let r := sampleItems x x.items s
    let t := r.2
    let news := if x.mode = 1 then r.1
      else r.1.filter fun y => ¬ x.last.any (fun z => z = y) ∨ x.gathered.any fun z => z.1 = y.1
    let all := gather x.gathered news
    let full : Bool := decide (64 ≤ (t.session x.session).queue.length)
    let merged : Bool := (x.queued || full) && !news.isEmpty
    let put : Bool := !x.queued && !full && !all.isEmpty
    let t1 := modSub id (fun y => { y with
      gathered := all, sampled := some s.headIndex, queued := y.queued || put
      b := if news.isEmpty then y.b else s.headIndex, v := if news.isEmpty then y.v else s.headV
      skipped := if merged then min 65535 (y.skipped + 1) else y.skipped }) t
    let t2 := if put then t1.modSession x.session fun y => { y with queue := y.queue ++ [.event id] } else t1
    if merged then t2.raise R.JOA_EVENTS F.JOA_EVENTS.SUB_SKIPPED else t2

/-- R449: at H + 64 the due subscriptions are sampled. -/
def subSample (s : State) : State :=
  let b := s.headIndex
  let due := s.joa.subs.filter fun x => x.mode ≤ 1 ∧ b % x.period = 0 ∧ x.sampled ≠ some b
  if due = [] ∨ ¬ s.headRun then s else (s.advanceTo (s.headRaw + 64)).forAll due fun x t => sampleSub x.id t

/-! ### Sending (R434, R450, R451) -/

/-- R484: where an uplink sends IPv4 for a host: to the host inside the subnet, else to the gateway. -/
def ip4Hop (s : State) (u addr : Nat) : Nat :=
  let m := s.reg (R.UPLINK_p_IP4_MASK u)
  if BitVec.ofNat 32 addr &&& m = s.reg (R.UPLINK_p_IP4_ADDR u) &&& m then addr else (s.reg (R.UPLINK_p_IP4_GW u)).toNat

/-- R434, R435, R484: a message of a session is sent, on the uplink of the latest accepted one. -/
def sendBody (k : Nat) (body : List Byte) (s : State) : State :=
  let u := (s.session k).uplink
  let hop := if (s.session k).host.carrier = 0 then ip4Hop s u (s.session k).host.addr else (s.session k).host.addr
  (s.modSession k fun x => { x with own := x.own + 1, sent := body, hop := hop }).incSat (R.UPLINK_p_TX_CNT u)

/-- R450: the items that fit in some bytes, and those that do not; a first item that can never fit goes with LEN 0.
DEDUCED (assumption 196). -/
def fitItems : Nat → List SubVal → List SubVal × List SubVal
  | _, [] => ([], [])
  | room, (i, ty, d) :: l =>
    if 4 + up4 d.length ≤ room then
      let r := fitItems (room - (4 + up4 d.length)) l
      ((i, ty, d) :: r.1, r.2)
    else ([], (i, ty, d) :: l)

/-- R450: the head of an EVENT. -/
def eventHead (x : JoaSub) (b : Nat) (v : Quad) (count : Nat) : List Byte :=
  joaHead 0x22 0 0 ++ leBytes 2 x.id ++ leBytes 2 x.skipped ++ leBytes 4 x.evSeq ++ leBytes 8 b ++ leBytes 8 v.toNat ++ leBytes 2 count ++
    leBytes 2 0

/-- R450, R451: the EVENT of a subscription is sent with the items gathered; what does not fit is queued again. DEDUCED (assumption 196). -/
def sendEvent (k : Nat) (x : JoaSub) (s : State) : State :=
  let room := (s.session k).maxPayload - 32
  let r0 := fitItems room x.gathered
  let r := match r0.1, x.gathered with
    | [], (i, ty, _) :: l => ([(i, ty, [])], l)
    | _, _ => r0
  let body := eventHead x x.b x.v r.1.length ++ r.1.flatMap fun (i, ty, d) => leBytes 1 i ++ leBytes 1 ty ++ leBytes 2 d.length ++ pad4 d
  let more : Bool := !r.2.isEmpty
  let s1 := modSub x.id (fun y => { y with
    last := (y.last.filter fun z => ¬ r0.1.any fun w => w.1 = z.1) ++ r0.1
    gathered := r.2, queued := more, skipped := 0, evSeq := (y.evSeq + 1) % 2 ^ 32 }) (sendBody k body s)
  if more then s1.modSession k fun y => { y with queue := y.queue ++ [.event x.id] } else s1

/-- R450, R452: the EVENT of an EVENT_LOG subscription is sent, with as many log entries as fit. -/
def sendLog (k : Nat) (x : JoaSub) (s : State) : State :=
  let first := max x.logNext s.evOldest
  let n := min ((s.reg R.SYS_EVLOG_HEAD).toNat - first) (((s.session k).maxPayload - 32) / 24)
  let body := eventHead x s.headIndex s.vT64 n ++ (List.range' first n).flatMap fun i => ((s.evEntry i).map EvEntry.bytes).getD []
  modSub x.id (fun y => { y with logNext := first + n, queued := false, skipped := 0, evSeq := (y.evSeq + 1) % 2 ^ 32 }) (sendBody k body s)

/-- R451, R452: EVENT_LOG subscriptions with entries to send queue their EVENT. -/
def logQueue (s : State) : State :=
  s.forAll (s.joa.subs.filter fun x => x.mode = 2 ∧ ¬ x.queued ∧ x.logNext < (s.reg R.SYS_EVLOG_HEAD).toNat) fun x t =>
    if 64 ≤ (t.session x.session).queue.length then t
    else (modSub x.id (fun y => { y with queued := true }) t).modSession x.session fun y => { y with queue := y.queue ++ [.event x.id] }

/-- R451: an open session sends the first message of its queue. DEDUCED (assumption 203). -/
def sendNext (k : Nat) (s : State) : State :=
  match (s.session k).queue with
  | [] => s
  | m :: l =>
    let s1 := s.modSession k fun x => { x with queue := l }
    match m with
    | .body b => sendBody k b s1
    | .event id =>
      match s1.joa.subs.find? fun x => x.id = id with
      | none => s1
      | some x => if x.mode = 2 then sendLog k x s1 else sendEvent k x s1

/-- The JOA engine between commands: it serves what waits, and every session sends one message. DESIGN CHOICE (assumption 2). -/
def joaTick (s : State) : State := (logQueue (joaServe s)).forAll (List.range 32) fun k t => sendNext k t

/-! ### The gleaner stream (R453) -/

/-- R453: STREAM_OPEN. -/
def streamOpen (k req window : Nat) (s : State) : State :=
  joaServed k 0x28 req [] (fun t =>
    if window = 0 ∨ 64 < window then joaAnswer k 0x28 stBadRequest req [] t
    else if t.glean.stream.isSome ∧ t.glean.stream ≠ some k then joaAnswer k 0x28 stBusy req [] t
    else if (t.session k).maxPayload < 4108 then joaAnswer k 0x28 stTooBig req [] t
    else joaAnswer k 0x28 0 req (leBytes 4 t.ackSeq) { t with glean := { t.glean with
      stream := some k, window := window, nextSend := t.ackSeq, sentAt := t.raw } }) s

/-- R453: the next block is sent while fewer than WINDOW are unacknowledged; one at a time passes the transmit queue. -/
def streamBlock (s : State) : State :=
  match s.glean.stream, s.unacked.find? fun b => seqLe s.glean.nextSend b.seq with
  | some k, some b =>
    let out := (s.unacked.filter fun x => ¬ seqLe s.glean.nextSend x.seq).length
    let next := (b.seq + 1) % 2 ^ 32
    if s.glean.window ≤ out ∨ 64 ≤ (s.session k).queue.length then s
    else
      let body := joaHead 0x29 0 0 ++ leBytes 4 b.seq ++ leBytes 4 0 ++ blockBytes s b
      ({ s with glean := { s.glean with
        nextSend := next, sentAt := if out = 0 then s.raw else s.glean.sentAt
        sent := if seqLe s.glean.sent b.seq then next else s.glean.sent } }).modSession k
        fun x => { x with queue := x.queue ++ [JoaOut.body body] }
  | _, _ => s

/-- R453: STREAM_ACK of the holder. DEDUCED (assumption 195). -/
def streamAck (k req q : Nat) (s : State) : State :=
  joaServed k 0x2A req [] (fun t =>
    if t.glean.stream = some k then joaAnswer k 0x2A 0 req [] (gleanAck q t) else joaAnswer k 0x2A stState req [] t) s

/-- R453: STREAM_CLOSE of the holder. DEDUCED (assumption 195). -/
def streamClose (k req : Nat) (s : State) : State :=
  joaServed k 0x2B req [] (fun t =>
    if t.glean.stream = some k then joaAnswer k 0x2B 0 req [] { t with glean := { t.glean with stream := none } }
    else joaAnswer k 0x2B stState req [] t) s

/-- R453: RESEND_MS passes without an acknowledgement advancing: sending begins again at the oldest unacknowledged block. -/
def streamResend (s : State) : State :=
  if s.glean.stream.isNone ∨ s.glean.nextSend = s.ackSeq then s
  else
    let ms := (s.reg R.JOA_STREAM_CFG).toNat % 65536
    let s1 := s.advanceTo (s.glean.sentAt + BitVec.ofNat 64 (msGrains ms))
    ({ s1 with glean := { s1.glean with nextSend := s1.ackSeq, sentAt := s1.raw } }).raise R.JOA_EVENTS F.JOA_EVENTS.STREAM_RESEND

/-! ### Arriving messages and sessions (R433 to R437) -/

/-- R437: the opcodes of requests inside a session. DEDUCED (assumption 199). -/
def hostOpcode (op : Nat) : Bool :=
  [0x08, 0x09, 0x10, 0x11, 0x12, 0x13, 0x14, 0x18, 0x19, 0x1A, 0x1B, 0x20, 0x21, 0x28, 0x2A, 0x2B].contains op

/-- R433: a message discarded and counted as malformed. -/
def joaMalformed (s : State) : State := s.incSat R.JOA_MALFORMED_CNT

/-- R434: a session takes a SEQ. DEDUCED (assumption 198). -/
def seqFresh (x : JoaSession) (q : Nat) : Bool := decide (x.high < q) || (decide (x.high ≤ q + 64) && !x.seen.contains q)

/-- R434, R435: a message is accepted in a session. DEDUCED (assumption 197). -/
def joaAccept (k up q : Nat) (s : State) : State :=
  let s1 := s.modSession k fun x =>
    let h := max x.high q
    { x with high := h, seen := (q :: x.seen).filter fun y => h ≤ y + 64, last := s.raw, uplink := up }
  s1.incSat (R.JOA_s_RX_CNT k)

/-- R433, R437: a message inside a session. -/
def joaSealed (h : HostAddr) (up word q : Nat) (tagOk : Bool) (op req : Nat) (s : State) : State :=
  let k := word % 32
  let x := s.session k
  if ¬ (x.st = 2 ∧ x.token = word / 32 ∧ x.host = h) then joaMalformed s
  else if !tagOk then (s.incSat R.JOA_AUTH_FAIL_CNT).raise R.JOA_EVENTS F.JOA_EVENTS.AUTH_FAIL
  else if !seqFresh x q then (s.incSat R.JOA_REPLAY_CNT).raise R.JOA_EVENTS F.JOA_EVENTS.REPLAY
  else
    let s1 := joaAccept k up q s
    if hostOpcode op then s1 else joaRequest k op req (joaAnswer k op 15 req []) s1

/-- R433: a JOA message arrives; its request, where it is one, follows as a command of its own. DEDUCED (assumptions 178, 197). -/
def joaMessage (h : HostAddr) (up : Nat) (clear formed : Bool) (word q : Nat) (tagOk : Bool) (op req : Nat) (s : State) : State :=
  joaHeard h up (fun t =>
    if !formed then joaMalformed t
    else if clear then (if 5 ≤ op ∧ op ≤ 7 ∧ t.lifecycle ≠ 4 then clearAnswer h up (joaHead op 15 req) t else t)
    else joaSealed h up word q tagOk op req t) s

/-- R437: PING. -/
def ping (k req : Nat) (s : State) : State :=
  joaServed k 8 req [] (fun t => joaAnswer k 8 0 req [] (t.modSession k fun x => { x with last := t.raw })) s

/-- R436: CLOSE is answered, and the session ends. -/
def closeSession (k req : Nat) (s : State) : State :=
  joaServed k 9 req [] (fun t =>
    let y := (sendBody k (joaHead 9 0 req) t).session k
    (endSession k 1 (sendBody k (joaHead 9 0 req) t)).modSession k fun x => { x with own := y.own, sent := y.sent, hop := y.hop }) s

/-- R436: JOA_IDLE_S seconds pass without an accepted message. -/
def sessionIdle (k : Nat) (s : State) : State :=
  if (s.session k).st ≠ 2 then s
  else
    let n := (s.reg R.JOA_IDLE_S).toNat % 4096
    joaServe (endSession k 2 (s.advanceTo ((s.session k).last + BitVec.ofNat 64 (msGrains (1000 * n)))))

/-! ### The gleaner's headland samples (R303) -/

/-- R303: the reading of a signal with its quality bits (R304); none for a signal that is not sampled or cannot be read.
DEDUCED (assumption 202). -/
def signalRead (s : State) (c : SigCfg) : Option (Quad × Nat) :=
  let snap := s.collie.snaps.getLast?.getD Snapshot.empty
  match c.kind with
  | 1 => some (imgRead snap.vals c.source c.ty, pointQual snap false c.source c.ty)
  | 2 => some (imgRead s.img.sealed c.source c.ty, pointQual snap true c.source c.ty)
  | 3 =>
    match s.image.modules.find? fun m => m.slot = c.source / 2 ^ 24 with
    | none => none
    | some m => (m.vars[c.source % 2 ^ 24]?).map fun v => (s.varCell m v 0, 0)
  | 4 =>
    let r := tget AccRec.empty snap.accs c.source
    some (normCell c.ty (accMean r), b2n (decide (0 < r.n)))
  | 5 => if c.source / 2 ^ 24 = s.ownDev then (entryCell s (c.source % 2 ^ 24) c.ty).map fun x => (x, 0) else none
  | _ => none

/-- R303 to R305, R312: one signal at a headland: a sampled value, or the heartbeat or the value after a loss of an edge-mode signal. -/
def gleanSignal (n : Nat) (s : State) : State :=
  let c := s.sig n
  if s.headIndex % c.div ≠ 0 ∨ (c.edge ∧ c.kind ≠ 1) then s
  else
    match signalRead s c with
    | some (v, q) =>
      if ¬ c.edge then gleanValue n v q s.headV true s
      else if heartDue s n then gleanRecord n v q s.headV 16 s
      else if (s.sigState n).last.isSome ∧ (s.sigState n).epoch ≠ s.epoch c.cls then gleanRecord n v q s.headV 0 s
      else s
    | none => s

/-- R303: from H + 64 on the due signals are read, one per FABRIC cycle. DEDUCED (assumption 62). -/
def gleanSample (s : State) : State :=
  if ¬ s.head.gleanDue then s
  else
    let s1 : State := { s.advanceTo (s.headRaw + 64) with head := { s.head with gleanDue := false } }
    if ¬ s1.gleanOn then s1
    else s1.forAll (s1.glean.sigs.filter fun x => x.2.kind ≠ 0 ∧ x.2.kind ≠ 6) fun x t =>
      let t1 := gleanSignal x.1 t
      if x.2.edge ∨ t.headIndex % x.2.div ≠ 0 then t1 else t1.advanceTo (t.raw + 4)

/-! ### The commands -/

/-- SEG_START (R447). -/
def execSegStart (k : Fin 32) (req : BitVec 16) (addr : Word) (total : Quad) (crc : Word) (s : State) : Out :=
  ok (segStart k req.toNat addr.toNat total.toNat crc.toNat s)
/-- SEG_DATA (R447). -/
def execSegData (k : Fin 32) (req n : BitVec 16) (off : Quad) (data : List Byte) (s : State) : Out :=
  ok (segData k req.toNat n.toNat off.toNat data s)
/-- SEG_END (R447). -/
def execSegEnd (k : Fin 32) (req n : BitVec 16) (s : State) : Out := ok (xferEnd k req.toNat n.toNat s)
/-- SEG_ABORT (R447). -/
def execSegAbort (k : Fin 32) (req n : BitVec 16) (s : State) : Out := ok (segAbort k req.toNat n.toNat s)
/-- XFER_TIMEOUT (R447). -/
def execXferTimeout (n : BitVec 16) (s : State) : Out := ok (xferTimeout n.toNat s)
/-- XSPI_PROGRAM_DONE (R651). -/
def execXspiProgramDone (good : Bool) (s : State) : Out := ok (xspiDone good s)
/-- UNSUBSCRIBE (R448). -/
def execUnsubscribe (k : Fin 32) (req id : BitVec 16) (s : State) : Out := ok (unsubscribe k req.toNat id.toNat s)
/-- SUBSCRIPTION_SAMPLE (R449). -/
def execSubscriptionSample (s : State) : Out := ok (subSample s)
/-- STREAM_OPEN (R453). -/
def execStreamOpen (k : Fin 32) (req : BitVec 16) (window : Byte) (s : State) : Out := ok (streamOpen k req.toNat window.toNat s)
/-- STREAM_BLOCK (R453). -/
def execStreamBlock (s : State) : Out := ok (streamBlock s)
/-- STREAM_ACK (R453). -/
def execStreamAck (k : Fin 32) (req : BitVec 16) (q : Word) (s : State) : Out := ok (streamAck k req.toNat q.toNat s)
/-- STREAM_CLOSE (R453). -/
def execStreamClose (k : Fin 32) (req : BitVec 16) (s : State) : Out := ok (streamClose k req.toNat s)
/-- STREAM_RESEND (R453). -/
def execStreamResend (s : State) : Out := ok (streamResend s)
/-- JOA_MESSAGE (R433): from a host on an uplink; CLEAR, whether MAGIC, VERSION and LEN are right, SESSION, SEQ, whether the tag
verifies, and the OPCODE and REQ_ID of its body. -/
def execJoaMessage (h : HostAddr) (up : Fin 2) (clear formed : Bool) (word : Word) (q : Quad) (tagOk : Bool) (op : Byte) (req : BitVec 16)
    (s : State) : Out := ok (joaMessage h up clear formed word.toNat q.toNat tagOk op.toNat req.toNat s)
/-- PING (R437). -/
def execPing (k : Fin 32) (req : BitVec 16) (s : State) : Out := ok (ping k req.toNat s)
/-- CLOSE (R436). -/
def execClose (k : Fin 32) (req : BitVec 16) (s : State) : Out := ok (closeSession k req.toNat s)
/-- SESSION_IDLE (R436). -/
def execSessionIdle (k : Fin 32) (s : State) : Out := ok (sessionIdle k s)
/-- SESSION_CLOSE_WRITE (R436, R457). -/
def execSessionCloseWrite (k : Fin 32) (s : State) : Out := ok (joaServe (joaCtrlWrite k 0x4A580001 s))
/-- GLEAN_SAMPLE (R303). -/
def execGleanSample (s : State) : Out := ok (gleanSample s)

end Sys2Proof.Machine
end

