-- ==== Sys2Proof/Machine/Reset.lean ====
section
/-! DEFINITION. Chapter 17: what a reset leaves, the cold start with its choice of firmware and configuration, and the bridged restart
after a warm reset (R141 to R144). -/

namespace Sys2Proof.Machine

/-! ### What a power-on or cold reset leaves (R61, R116, R144, R185, R227, R263, R317, R358, R407, R456, R485, R518, R551, R581,
R604, R626, R656) -/

/-- The registers that a power-on or cold reset keeps whole: FARM_ID, and what the repair store and the granary hold. -/
def keptRegs : List Nat :=
  [R.SYS_FARM, R.BIST_PTR, R.BIST_PASS_CNT, R.BIST_LAST_MS, R.GRAN_WRAP_CNT, R.GRAN_WEAR_MAX, R.GRAN_SPARES_FREE].map (·.addr)

/-- R581: the security block after a reset: no debug unlock, and no command in progress. -/
def Security.restart (x : Security) : Security :=
  { x with running := none, unlocked := false, everUnlocked := false, activating := none }

/-- R539, R545: the persisted entries that recovery finds: the values that a PERSIST record or a region place holds. -/
def keptValues (l : Tbl (Option PersistVal)) : Tbl (Option PersistVal) :=
  l.filterMap fun (k, x) => (x.filter fun y => y.kept.1 ≠ 0).map fun y =>
    (k, some { y with seq := y.kept.1, ty := y.kept.2.1, cells := y.kept.2.2 })

/-- R551: the granary and the repair store after a reset: what they hold. -/
def Granary.restart (x : Granary) : Granary :=
  { Granary.fresh with
    head := x.head, segSeq := x.segSeq, places := x.places, persist := keptValues x.persist, saved := x.saved, repairs := x.repairs
    wear := x.wear }

/-- R518, R626: SAFEMIR_STATUS and the boot record's part of the resets. -/
def Resets.restart (x : Resets) (unconfirmed : Bool) (cause : Nat × Nat) : Resets :=
  { Resets.off with
    cause := cause, confirmed := x.confirmed, trial := x.trial, trialW := if unconfirmed then some 0 else none
    pfShort := x.pfShort }

/-- R611: an address of the granary window. -/
def inGranary (a : Nat) : Bool := decide (0x14000000 ≤ a ∧ a < 0x15000000)

/-- R436, R460: the close reason 4 (RESET) of every session that a cold reset ends, in the registers of the state after it.
DEDUCED (assumption 247). -/
def sessionsReset (s t : State) : State :=
  t.forAll ((List.range 32).filter fun k => (s.session k).st ≠ 0) fun k u =>
    u.setReg (R.JOA_s_INFO k) (BitVec.ofNat 32 (4 + 16 * ((s.session k).keySlot % 16)))

/-- R611: the block right after a power-on or cold reset with a cause, a start being due. The FENCE_COUNTs start at 0 after a cold reset too.
DESIGN CHOICE (assumption 233). -/
def coldState (cause : Nat × Nat) (s : State) : State :=
  let s1 : State := { State.reset with
    pending := s.pending, free := s.free, slots := s.slots
    regs := s.regs.filter fun x => x.1 ∈ keptRegs
    mem := s.mem.filter fun x => inGranary x.1
    exec := { Exec.off with stored := s.exec.stored, cutSeq := s.exec.cutSeq }
    gran := s.gran.restart
    island := { s.island with frames := [], seen := none, seenAt := 0, resets := 0, refused := 0, presses := 0 }
    resets := s.resets.restart (s.flag R.CLK_STATUS F.CLK_STATUS.FW_TRIAL) cause
    joa := { Joa.off with stores := s.joa.stores }
    sec := s.sec.restart }
  let s2 := (s1.put R.CLK_STATUS F.CLK_STATUS.XIN_EXT (s.get R.CLK_STATUS F.CLK_STATUS.XIN_EXT)).setReg R.SEC_IMAGE_STATUS
    (s.reg R.SEC_IMAGE_STATUS &&& 0x20000)
  let s3 := s2.put R.GRAN_STATUS F.GRAN_STATUS.NO_SPARE (s.get R.GRAN_STATUS F.GRAN_STATUS.NO_SPARE)
  match s.island.pending with
  | none => s3
  | some p => (s3.setReg R.SAFEMIR_PEND_CRC (BitVec.ofNat 32 (setAt p 208 4))).putFlag R.SAFEMIR_STATUS
      F.SAFEMIR_STATUS.SET_PENDING true

/-- R611, R612: the supplies rise (true), or PORST_L is released; FARM_ID is sampled, and whether XIN is driven. -/
def powerOn (supply : Bool) (farm : Nat) (ext : Bool) (s : State) : State :=
  let s1 := (coldState (0, b2n !supply) s).setReg R.SYS_FARM (BitVec.ofNat 32 (farm % 8))
  s1.putFlag R.CLK_STATUS F.CLK_STATUS.XIN_EXT ext

/-- R612: PORST_L is low: the reset lasts until it is released. DEDUCED (assumption 130). -/
def porstAssert (s : State) : State := (coldState (0, 1) s).modResets fun x => { x with porst := true, await := false }

/-! ### Firmware (R568, R620) -/

/-- R620: the slot that runs and whether it is a trial. -/
def fwPick (s : State) : Option Nat × Bool :=
  let valid := fun k => decide (s.imageResult k = 1)
  let c := s.resets.confirmed
  match s.resets.trial.filter valid with
  | some t => (some t, true)
  | none => (if valid c then some c else if valid (1 - c) then some (1 - c) else none, false)

/-- R620, R497: the boot ROM takes the slot to run, with the trial slot cleared from the record; w is the reset's W.
DEDUCED (assumption 158). -/
def fwStart (w : Quad) (s : State) : State :=
  let (slot, trial) := fwPick s
  let unconfirmed := s.flag R.CLK_STATUS F.CLK_STATUS.FW_TRIAL || s.resets.trialW.isSome
  let fell : Bool := slot.isSome && !trial && (s.resets.trial.isSome || unconfirmed || decide (slot ≠ some s.resets.confirmed))
  let s1 := if s.resets.trial.isSome then bootRecord s else s
  let s2 := s1.modResets fun x => { x with
    trial := none, trialW := if trial then some w else none, recovery := slot.isNone }
  let k := slot.getD (s.fwSlot)
  let s3 := ((s2.put R.CLK_STATUS F.CLK_STATUS.FW_SLOT k).putFlag R.CLK_STATUS F.CLK_STATUS.FW_TRIAL trial).setReg
    R.SEC_IMAGE_STATUS (setFldOf ⟨16, 1⟩ k (s2.reg R.SEC_IMAGE_STATUS))
  let s4 := s3.raiseIf fell R.CLK_EVENTS F.CLK_EVENTS.FW_FALLBACK
  if trial then s4.modIsland fun x => { x with fwRegion := ((s.imageFile k).map (·.id)).getD 0 |> some } else s4

/-! ### The configuration image (R143, R407, R567, R618) -/

/-- R530: the size of a secure window is set by the image of a power-on or cold start only. -/
def secWinSetting (k : Nat) (v : Word) (s : State) : State :=
  if 2 ≤ s.get R.SYS_RESET_CAUSE F.SYS_RESET_CAUSE.KIND then s else s.put (R.MEM_k_CFG k) F.MEM_k_CFG.SECWIN (fldOf F.MEM_k_CFG.SECWIN v)

/-- R530: the secure windows of the banks but the secure bank are no larger than a quarter of the bank. -/
def secWinsOk (s : State) : Bool := (List.range 8).all fun k => decide (4 * s.secWin k ≤ (bankPlace k).2)

/-- A register setting of an image: a register that software cannot write takes the word, another one is written.
DEDUCED (assumption 133). -/
def imageSetting (x : Nat × Word) (s : State) : State :=
  match regIdx R.MEM_k_CFG 9 x.1, regLookup x.1 with
  | some k, _ => secWinSetting k x.2 s
  | none, none => s
  | none, some d => if d.rw = 0 ∧ d.w1c = 0 ∧ d.wo = 0 then s.setReg (d.reg x.1) x.2 else regWrite (.core 0) x.1 x.2 s

/-- R403, R408: the pins and the port addresses of the image. -/
def imagePorts (s : State) : State :=
  let s1 := s.forAll s.image.pins fun (i, w) t => t.setReg (R.GPIO_i_CFG i) w
  s1.forAll s.image.macs fun (p, m) t => (t.setReg (R.FIELD_p_MAC_LO p) (BitVec.ofNat 32 m)).setReg (R.FIELD_p_MAC_HI p)
    (BitVec.ofNat 32 (m / 2 ^ 32 % 65536))

/-- R588: the farm table of the image. -/
def imageFarm (s : State) : State :=
  match s.image.farm with
  | none => s
  | some t =>
    let devs := (t.devs.map fun d => 2 ^ (8 + d % 8)).eraseDups.sum
    s.setReg R.DRUS_REACH (BitVec.ofNat 32 devs)

/-- R601: the twin pairing of the image, unless it is refused. DEDUCED (assumption 159). -/
def imageTwin (s : State) : State :=
  let w := s.image.twin
  let axes : Bool := (List.range 64).any fun n => s.flag (R.AXIS_n_CTRL n) F.AXIS_n_CTRL.EN
  if fldOf F.DRUS_TWIN_CFG.EN w = 0 then s
  else if !twinOk s s.image s.paired axes then s.raise R.DRUS_EVENTS F.DRUS_EVENTS.CFG_REFUSED
  else setTwin (if fldOf F.DRUS_TWIN_CFG.STANDBY w = 1 then 3 else 1) (s.setReg R.DRUS_TWIN_CFG w)

/-- R619, R407, R263: seed values drive every output point. -/
def seedOutputs (s : State) : State :=
  let m := s.image.outs.foldl (fun m o => imgWrite m o.ref o.ty o.seed) ([] : Tbl Byte)
  let balls := (List.range 192).foldl (fun t i => if s.drivenPin i then tset 0 t i (tget 0 m i) else t) ([] : Tbl Byte)
  let s1 := dacClamp { s with img := { s.img with base := m, live := m, sealed := m, balls := balls } }
  ({ s1 with img := { s1.img with sealed := s1.img.live } }).forAll (List.range 32) fun n t =>
    t.setReg (R.DAC_n_CODE n) (BitVec.ofNat 32 (dacCode s1.img.live n))

/-- R529: no task is homed in a plot whose bank another plot owns. -/
def homesOk (s : State) (im : Image) : Bool :=
  im.tasks.all fun x => decide (x.2.kind = 0 ∨ x.2.kind = 4 ∨ s.get (R.MEM_k_OWNER x.2.home) F.MEM_k_OWNER.OWNER = x.2.home + 1)

/-- The output pins that a configuration image names for an axis. -/
def imagePins (b : ConfigBody) (n : Nat) : List Nat :=
  let w := ((b.regs.reverse.find? fun x => decide (x.1 = (R.AXIS_n_PINS n).addr)).map (·.2)).getD (R.AXIS_n_PINS n).reset
  ([F.AXIS_n_PINS.STEP_PIN, F.AXIS_n_PINS.DIR_PIN, F.AXIS_n_PINS.EN_PIN].map fun f => fldOf f w).filter fun p => p < 192

/-- R333: no pin that an axis names is an output point or named by another axis. -/
def axisPinsOk (b : ConfigBody) : Bool :=
  let pins := (List.range 64).map (imagePins b)
  pins.all (fun l => l.all fun p => !b.img.pins.any fun x => decide (x.1 = p ∧ fldOf F.GPIO_i_CFG.MODE x.2 ≠ 0)) &&
    decide (pins.Pairwise fun k l => k.all (fun p => !l.contains p))

/-- R102, R158, R302, R333, R530, R589: the image of a slot with its settings in force, or what it is refused for. -/
def configCheck (k : Nat) (b : ConfigBody) (s : State) : Sum LoadRefusal State :=
  let s1 := s.forAll b.regs imageSetting
  match loadModules s1 b.img [] 1 [] b.mods with
  | .inl e => .inl e
  | .inr ms =>
    let im := { b.img with modules := ms }
    let farm : Bool := match im.farm with
      | none => true
      | some t => farmOk t s1.pg
    match programFail s1 im b.sigs with
    | some e => .inl e
    | none =>
      if !stationTablesOk s1 then .inl .stations
      else if (List.range 4).all (fun p => nodesOk s1 p && pollsOk s1 p) && writersOk im && accsOk s1 && homesOk s1 im && axisPinsOk b && secWinsOk s1 && farm then
        .inr ({ s1 with image := im }.setReg R.SEC_IMAGE_STATUS (setFldOf ⟨17, 1⟩ (k - 2) (s1.reg R.SEC_IMAGE_STATUS)))
      else .inl .image

/-- R618: the image of a configuration slot loaded, if it is VALID and passes its checks. The tables, pins and ports are in force
before its settings are. DEDUCED (assumption 142). -/
def configTry (k : Nat) (s : State) : Sum (Option LoadRefusal) State :=
  match s.configBody k with
  | none => .inl none
  | some b =>
    if s.imageResult k ≠ 1 then .inl none
    else
      match configCheck k b (networkStart (imagePorts { s with image := b.img })) with
      | .inl e => .inl (some e)
      | .inr t =>
        let s1 := loadSignals (boundSigs t.image.modules b.sigs) (loadTaskCtrl t.image.tasks (imageTwin (imageFarm t)))
        let s2 := setPending b.safety (s1.modResets fun x => { x with loaded := true })
        .inr (if b.start && !s2.headRun then headCtrlWrite (setFldOf F.HEAD_CTRL.RUN 1 (s2.reg R.HEAD_CTRL)) s2 else s2)

/-- A refusal noted; R379: that of a station table is an event of the field ports. -/
def noteRefusal (e : Option LoadRefusal) (s : State) : State :=
  { s with exec := { s.exec with refusal := (e.map some).getD s.exec.refusal } }.raiseIf (decide (e = some LoadRefusal.stations)) R.FIELD_EVENTS
    F.FIELD_EVENTS.CFG_REFUSED

/-- R573, R618: the active configuration slot is loaded, with one fallback to the other; in a lifecycle state that has none, no image
is active. -/
def configLoad (s : State) : State :=
  let off := { s with image := Image.none_ }.modResets fun x => { x with loaded := false }
  if s.lifecycle ≠ 2 ∧ s.lifecycle ≠ 3 then off
  else
    match configTry s.activeSlot s with
    | .inr t => t
    | .inl e =>
      match configTry (5 - s.activeSlot) s with
      | .inr t => noteRefusal e t
      | .inl f => noteRefusal f (noteRefusal e off)

/-! ### Restoring a cut (R141, R143) -/

/-- A retained image of which one copy is given. -/
def retainedFrom (sel : Nat) (m : Tbl Quad) : Retained := if sel = 2 then ⟨[], m, true, true⟩ else ⟨m, [], false, true⟩

/-- R139: the retained images of a cut, by task: the copies of tasks of an old image where old is set. -/
def cutImages (c : Cut) (old : Bool) : Tbl Retained :=
  (if old then c.oldRetained else c.retained).foldl (fun m (t, x) =>
    tset Retained.zero m t (retainedFrom (tget 0 c.sels (if old then t + 4096 else t)) x)) []

/-- R116, R143: the newest valid cut of the active image is restored at a start: the retained images, and the enable states, a task that the
stop task policy disabled being enabled again; a task whose change was not complete has the copy of its old form. DEDUCED
(assumption 153). -/
def startRestore (s : State) : State :=
  match s.exec.stored.getLast? with
  | none => s
  | some c =>
    if !s.resets.loaded || !s.flag R.EXEC_START_CFG ⟨0, 1⟩ || decide (c.config ≠ s.image.id) then s
    else
      let old := cutImages c true
      let ret := (cutImages c false).filter fun x => !old.any fun y => y.1 = x.1
      let all := old.foldl (fun m (t, x) => tset Retained.zero m t x) ret
      let s1 : State := { s with collie := { s.collie with retained := all } }
      let s2 := s1.forAll (s1.image.tasks.map (·.1)) fun t u =>
        let e := tget 0 c.enables t
        u.putFlag (R.EXEC_t_TASK_CTRL t) F.EXEC_t_TASK_CTRL.ENABLE (natBit e 0 || natBit e 1)
      s2.put R.EXEC_STATUS F.EXEC_STATUS.STOP_CAUSE 5

/-! ### The cold start (R612, R613, R618, R619) -/

/-- R545: the granary is recovered; its duration is a free value of at most 20,480 ticks. DESIGN CHOICE (assumption 154). -/
def granRecover (s : State) : State :=
  let s1 := (s.put R.GRAN_STATUS F.GRAN_STATUS.READY 1).put R.GRAN_STATUS F.GRAN_STATUS.SEGMENT (s.gran.head / 65536)
  let s2 := (s1.setReg R.GRAN_JOURNAL_HEAD (BitVec.ofNat 32 s.gran.head)).setReg R.GRAN_RECOVERY
    (BitVec.ofNat 32 ((Config.freeQuad s.free).toNat % 20481))
  let s3 := { s2 with free := s2.free + 1 }.raiseIf s.resets.pfShort R.GRAN_EVENTS F.GRAN_EVENTS.PF_SHORT
  let s4 := s3.modResets fun x => { x with pfShort := false }
  match s.exec.stored.getLast? with
  | none => s4.raise R.GRAN_EVENTS F.GRAN_EVENTS.CKPT_NONE
  | some c =>
    let s5 := s4.raise R.GRAN_EVENTS F.GRAN_EVENTS.RECOVERED
    (s5.setReg R.EXEC_CKPT_SEQ (BitVec.ofNat 32 c.seq)).setReg64 R.EXEC_CKPT_INDEX_LO R.EXEC_CKPT_INDEX_HI (BitVec.ofNat 64 c.index)

/-- R316: the gleaner's saved blocks are recovered, oldest first, and the numbers go on after the newest. DEDUCED (assumption 137). -/
def gleanRecover (s : State) : State :=
  match s.gran.saved with
  | [] => s
  | b :: _ =>
    let l := s.gran.saved.reverse.map fun x => { x with recovered := true }
    ({ s with
      glean := { s.glean with recovered := l, sent := ((l.head?).map Block.seq).getD 0 }
      gran := { s.gran with saved := [] } }.setReg R.GLEAN_NEXT_SEQ (BitVec.ofNat 32 (b.seq + 1))).raise R.GLEAN_EVENTS
        F.GLEAN_EVENTS.RECOVERED

/-- R651: the boot flash: its mode (0 none, 1 1-1-1, 2 8D-8D-8D), its size in MiB and its identification bytes; a flash that cannot be
used leaves the device in recovery. -/
def flashStart (mode size id : Nat) (s : State) : State :=
  let bad : Bool := decide (mode = 0 ∨ size < 8)
  let s1 := ((s.put R.XSPI_STATUS F.XSPI_STATUS.MODE mode).putFlag R.XSPI_STATUS F.XSPI_STATUS.SFDP_OK !bad).setReg R.XSPI_SIZE
    (BitVec.ofNat 32 (min 64 size))
  ((s1.setReg R.XSPI_ID (BitVec.ofNat 32 (id % 2 ^ 24))).raiseIf (decide (mode = 1)) R.XSPI_EVENTS F.XSPI_EVENTS.SLOW_MODE).raiseIf bad
    R.XSPI_EVENTS F.XSPI_EVENTS.SFDP_BAD

/-- R566, R571, R580: an interrupted wipe is completed first; then the fuses and the one-time state at a start. -/
def Security.start (x : Security) : Security :=
  let y := if x.wiping then { x.wiped with wiping := false } else x
  lmsStart { y with cOtp := max y.cOtp y.cMir }

/-- R571: the security block at a start; N may reach 2^30 - 2^24 as it is set to R, and R is then moved on. -/
def secStart (s : State) : State :=
  let t := s.modSec Security.start
  let u := t.raiseIf (decide (s.sec.lmsN < 2 ^ 30 - 2 ^ 24 ∧ 2 ^ 30 - 2 ^ 24 ≤ t.sec.lmsN)) R.SEC_EVENTS F.SEC_EVENTS.LMS_LOW
  if u.sec.keys.isSome ∧ u.sec.lmsN < 2 ^ 30 then lmsReserve u else u

/-- R613, R618: the OTP is read: the factory's coefficients, MAC addresses and clockIdentity. DESIGN CHOICE (assumption 211). -/
def otpLoad (s : State) : State :=
  let x := s.sec.otp
  let s1 := s.forAll (List.range 64) fun i t =>
    let c := tget Otp.cal0 x.cal i
    (t.setReg (R.AU_n_CAL_OFS_g (i / 4) (i % 4)) c.1).setReg (R.AU_n_CAL_GAIN_g (i / 4) (i % 4)) (c.2 &&& 0x3FFFFF)
  let s2 := s1.forAll (List.range 2) fun u t =>
    t.setReg64 (R.UPLINK_p_MAC_LO u) (R.UPLINK_p_MAC_HI u) (tget 0 x.macs u &&& 0xFFFFFFFFFFFF)
  s2.setReg64 R.PTP_CLOCK_ID_LO R.PTP_CLOCK_ID_HI x.clockId

/-- R550: the repair records are applied; a record that finds no spare is told of. -/
def repairLoad (s : State) : State :=
  let l := applyRepairs s.gran.repairs
  let lost := s.gran.repairs.zip l |>.any fun (x, y) => decide (x.state ≠ 3 ∧ y.state = 3)
  { s with gran := { s.gran with repairs := l } }.raiseIf lost R.BIST_EVENTS F.BIST_EVENTS.NO_SPARE

/-- What a cold start finds: ticks from the release to the PLL's lock, whether SVCRST_L is low at the first sample, and the boot
flash. DEDUCED (assumption 160). -/
structure ColdFinds where
  lockTicks : Nat
  svcLow : Bool
  mode : Nat
  size : Nat
  flashId : Nat

/-- R60, R68: the HEADSYNC state of a follower is IGNORED. -/
def syncIgnored (s : State) : State := if s.isFollower then s.put R.HEAD_STATUS F.HEAD_STATUS.SYNC_STATE 3 else s

/-- R606: the own device number, and whether it is that of the lead. -/
def farmId (s : State) : State :=
  (s.put R.DRUS_STATUS F.DRUS_STATUS.FARM_ID s.ownDev).putFlag R.DRUS_STATUS F.DRUS_STATUS.LEAD (decide (s.ownDev = 0))

/-- R36, R618: the first part of a start: the PLL locks, and RAW starts at 0; the cause and the safe outputs show. DEDUCED (assumptions
150, 217). -/
def lockStart (f : ColdFinds) (s : State) : State :=
  let c := s.resets.cause
  let s1 := { s with raw := 0 }.modResets fun x => { x with await := false, first := true, lockTicks := f.lockTicks }
  let s2 := ((farmId (syncIgnored s1)).setReg R.SYS_RESET_CAUSE (BitVec.ofNat 32 (c.1 + 16 * c.2))).put R.EXEC_STATUS F.EXEC_STATUS.SAFE_OUT 1
  s2.raiseIf f.svcLow R.CLK_EVENTS F.CLK_EVENTS.SVC_LOW_AT_START

/-- R618, R619: the start from the release to the loaded configuration. DEDUCED (assumption 150). -/
def coldRun (f : ColdFinds) (s : State) : State :=
  let s4 := repairLoad (otpLoad (secStart (lockStart f s)))
  let s5 := fwStart 0 (verifyAll (flashStart f.mode f.size f.flashId (gleanRecover (granRecover s4))))
  let s6 := if f.mode = 0 ∨ f.size < 8 then s5.modResets fun x => { x with recovery := true } else s5
  if s6.resets.recovery then s6
  else
    let s7 := configLoad s6
    let s8 := startRestore (if s7.resets.loaded then seedOutputs s7 else s7)
    { s8 with latch := [], group := [], stage := [] }

/-- R612, R613: a cold reset that is due, or the start that is due after a power-on reset. DEDUCED (assumptions 130, 160). -/
def coldStart (f : ColdFinds) (s : State) : State :=
  if s.resets.porst then s
  else
    match s.resets.cold with
    | some (src, _) => coldRun f (sessionsReset s (coldState (1, src) s))
    | none => if s.resets.await then coldRun f s else s

/-! ### The warm reset (R141, R185, R613, R614, R624) -/

/-- R613: the warm reset that is due first, and the others. -/
def firstWarm (l : List WarmReq) : Option (WarmReq × List WarmReq) :=
  (l.foldl (fun (m : Option WarmReq) r => match m with
    | none => some r
    | some x => if r.w.toNat < x.w.toNat then some r else some x) none).map fun r => (r, l.erase r)

/-- R61: the latches of the cores cleared, those of other masters kept. -/
def dropCores (t : Tbl (Option Word)) : Tbl (Option Word) := t.filter fun x => x.1 / 2 ^ 32 % 3 ≠ 0

/-- R185: what Collie discards: ready and delay entries, posts that wait, flow items whose run has begun or ended, the other releases, and
the waiting tasks. DEDUCED (assumption 156). -/
def warmEntries (s : State) : Nat :=
  let begun := fun (it : FlowItem) => it.st = .waiting || it.st = .held
  collieEntries s + (s.collie.flows.map fun x => (x.2.items.filter begun).length).sum +
    (s.collie.releases.map fun x => (x.2.filter fun r => r.flow.isNone).length).sum +
    (s.collie.tasks.filter fun x => x.2.st = 3 ∧ (s.desc x.1).kind ≠ 3).length

/-- R82, R116: the words of the module images that differ from the modules as loaded, and so from their CRCs, are loaded again. -/
def reloadModules (s : State) : State := { s with collie := { s.collie with codeMem := [] } }

/-- R116, R128, R185: the cores and Collie at W: runs are lost, and every list is empty. DEDUCED (assumption 156). -/
def warmCollie (s : State) : State :=
  let n := warmEntries s
  let s1 := reloadModules (collieEmpty (deferredWrites (haltRuns s)))
  { s1 with
    collie := { s1.collie with cores := [], flows := [], releases := [] }
    motion := { s1.motion with waits := [] }
    latch := dropCores s1.latch, group := dropCores s1.group, stage := dropCores s1.stage }.addSat R.COLLIE_BRIDGE_FLUSHED n

/-- R141, R613: the controller at W: a running one bridges from W, and one that bridges goes back to step 3.
DEDUCED (assumptions 145, 151, 157). -/
def warmControl (w : Quad) (s : State) : State :=
  if s.ctrlRunning then
    { s with exec := { s.exec with bridgeW := some w, bridgeCut := false, restored := none, bridgeCount := 0, bridgeForces := s.forces true } }.put R.EXEC_STATUS
      F.EXEC_STATUS.STATE 3
  else if s.ctrlBridging then { s with exec := { s.exec with restored := none } }
  else s

/-- R614: a CFG_RESTART at W: the named slot is active and loaded; retained images and global areas are zero. -/
def warmConfig (k : Nat) (s : State) : State :=
  let s1 := s.setReg R.SEC_IMAGE_STATUS (setFldOf ⟨17, 1⟩ (k - 2) (s.reg R.SEC_IMAGE_STATUS))
  let s2 := configLoad (zeroRetained { s1 with collie := { s1.collie with tasks := [] } })
  { s2.put R.EXEC_STATUS F.EXEC_STATUS.STOP_CAUSE 0 with
    latch := dropCores s2.latch, group := dropCores s2.group, stage := dropCores s2.stage }

/-- R624: a shutdown in steps 1 to 4 ends. DEDUCED (assumption 155). -/
def warmShut (s : State) : State :=
  if s.get R.CLK_SHUT_STATUS F.CLK_SHUT_STATUS.STEP = 0 ∨ s.shutStep = 0 then s else shutEnter 0 s

/-- R141, R317, R612, R620, R621: a warm reset takes effect. -/
def warmRun (r : WarmReq) (s : State) : State :=
  let s1 := (s.setReg R.SYS_RESET_CAUSE (BitVec.ofNat 32 (2 + 16 * r.source))).incSat R.CLK_WARM_CNT
  let s2 := warmControl s.raw (txWarm (warmCollie (warmShut (olcReset s1))))
  let s3 := (s2.modSec fun x => { x with activating := none }).modResets fun x => { x with kick := s.raw }
  let s4 := fwStart s.raw (verifySlot s.fwSlot s3)
  let s5 : State := { s4 with glean := { s4.glean with nextSend := s4.ackSeq } }
  match r.slot with
  | none => s5
  | some k => warmConfig k s5

/-- R612, R613: the warm reset that is due first takes effect at its W; a cold reset that comes no later takes its place, and from
shutdown step 5 on it is a cold one. -/
def warmReset (s : State) : State :=
  match firstWarm s.resets.warm with
  | none => s
  | some (r, rest) =>
    let s1 := s.modResets fun x => { x with warm := rest }
    let sooner : Bool := match s.resets.cold with
      | some (_, g) => decide (g.toNat ≤ r.w.toNat)
      | none => false
    if sooner then s1
    else
      let s2 := s1.advanceTo r.w
      if 5 ≤ s2.shutStep then s2.modResets fun x => { x with cold := (x.cold.map some).getD (some (r.source, s2.raw)) }
      else warmRun r s2

/-! ### The bridge (R141, R142) -/

/-- The cuts that a bridge may restore, newest first: in staging, then in the granary. DEDUCED (assumption 152). -/
def bridgeCuts (s : State) : List Cut := s.exec.waiting.toList ++ s.exec.writing.toList ++ s.exec.stored.reverse

/-- R141: a cut older than the bridge cut: it is from before W, and it is not the power-fail cut of this bridge. -/
def olderCut (s : State) (c : Cut) : Bool :=
  let before := (s.exec.capture.reverse ++ bridgeCuts s).takeWhile fun x => decide (x ≠ c)
  before.any (fun x => decide (x.kind = 4 ∨ x.kind = 5)) ||
    match s.exec.bridgeW with
    | some w => decide (c.kind ≠ 5 ∧ c.v.toInt < s.vAt w)
    | none => false

/-- R134, R141: the retained images of a cut put in force; a cut from before the change headland of a change in progress holds the old
forms of the tasks that change. -/
def bridgeImages (c : Cut) (s : State) : State :=
  let l := s.collie
  if s.oldImage.isSome ∧ c.index < s.exec.olcAt then
    let changed := l.oldRetained.map (·.1)
    let all := cutImages c false
    let olds := all.filter fun x => x.1 ∈ changed
    let kept := all.filter fun x => x.1 ∉ changed
    let news := changed.foldl (fun m t => tset Retained.zero m t ⟨[], [], false, false⟩) kept
    { s with collie := { l with retained := news, oldRetained := olds } }
  else
    let unbuilt := l.retained.filter fun x => !x.2.built ∧ (tget [] c.retained x.1) = []
    let all := unbuilt.foldl (fun m (t, x) => tset Retained.zero m t x) (cutImages c false)
    { s with collie := { l with retained := all, oldRetained := cutImages c true } }

/-- R141, step 3: the cores have restarted, and the newest cut that verifies is restored; bad counts the newest that do not.
DEDUCED (assumption 151). -/
def bridgeRestore (bad : Nat) (s : State) : State :=
  if !s.ctrlBridging || !s.exec.bridgeCut || s.exec.restored.isSome || s.pfailOn then s
  else
    match (bridgeCuts s).drop bad with
    | [] => s
    | c :: _ =>
      let s1 := bridgeImages c s
      let s2 : State := { s1 with exec := { s1.exec with restored := some c.index, rejoinAt := s.firstIndexAfter s.vNow 1024 } }
      s2.raiseIf (olderCut s c) R.EXEC_EVENTS F.EXEC_EVENTS.OLD_CKPT_USED

/-- The bridge is over. -/
def bridgeEnd (s : State) : State :=
  { s with exec := { s.exec with bridgeW := none, bridgeCut := false, restored := none, bridgeCount := 0 } }

/-- R124, R141, R142: the controller rejoins at its headland. -/
def rejoin (s : State) : State :=
  match s.exec.restored with
  | none => s
  | some i =>
    if !s.ctrlBridging || s.bridged then s
    else
      let s2 := axesRelease (setSysAll 9 (shadowsLive s))
      let n := s.exec.bridgeCount
      let s3 := (s2.put R.EXEC_STATUS F.EXEC_STATUS.STATE 1).setReg R.EXEC_BRIDGE_LAST (BitVec.ofNat 32 n)
      let s4 := s3.setReg R.EXEC_BRIDGE_AGE (BitVec.ofNat 32 (s.headIndex - i))
      bridgeEnd (s4.raiseNamed R.EXEC_EVENTS F.EXEC_EVENTS.BRIDGED 4 (BitVec.ofNat 64 n))

/-- R142: the bridge limit runs out, counted from W: a controller stop with cause BRIDGE_LIMIT. -/
def bridgeExpiry (s : State) : State :=
  match s.exec.bridgeW with
  | none => s
  | some w =>
    if !s.ctrlBridging then s
    else
      let s1 := s.advanceTo (w + BitVec.ofNat 64 (msGrains ((s.reg R.EXEC_BRIDGE_LIMIT).toNat % 16384)))
      bridgeEnd ((controllerStop 4 s1).raise R.EXEC_EVENTS F.EXEC_EVENTS.BRIDGE_EXPIRED)

/-! ### The board signals (R619, R621, R623) -/

/-- SAFE_STATE is asserted. -/
def State.safeStatePin (s : State) : Bool :=
  s.resets.porst || s.resets.await || s.resets.cold.isSome || s.flag R.EXEC_STATUS F.EXEC_STATUS.SAFE_OUT
/-- SHUTDOWN_DONE is asserted. -/
def State.shutdownDonePin (s : State) : Bool := decide (s.shutStep = 7)
/-- The level of HEALTHY. -/
def State.healthyPin (s : State) : Bool := s.resets.healthy

/-! ### The commands -/

/-- POWER_ON (R611): whether the supplies rise (else PORST_L is released), the FARM_ID straps, and whether XIN is driven. -/
def execPowerOn (supply : Bool) (farm : Fin 8) (ext : Bool) (s : State) : Out := ok (powerOn supply farm ext s)
/-- PORST_ASSERT (R612). -/
def execPorstAssert (s : State) : Out := ok (porstAssert s)
/-- COLD_START (R618): ticks to the PLL's lock, whether SVCRST_L is low at the first sample, the mode, size in MiB and
identification of the boot flash. -/
def execColdStart (lock : BitVec 16) (svcLow : Bool) (mode : Fin 3) (size : Byte) (id : BitVec 24) (s : State) : Out :=
  ok (coldStart ⟨lock.toNat, svcLow, mode, size.toNat, id.toNat⟩ s)
/-- WARM_RESET (R141). -/
def execWarmReset (s : State) : Out := ok (warmReset s)
/-- BRIDGE_RESTORE (R141): how many of the newest cuts do not verify. -/
def execBridgeRestore (bad : Nat) (s : State) : Out := ok (bridgeRestore bad s)
/-- REJOIN (R141). -/
def execRejoin (s : State) : Out := ok (rejoin s)
/-- BRIDGE_LIMIT_EXPIRY (R142). -/
def execBridgeLimitExpiry (s : State) : Out := ok (bridgeExpiry s)

end Sys2Proof.Machine
end

