-- ==== Sys2Proof/Machine/Dispatch.lean ====
section
/-! DEFINITION. The dispatch of a command to its meaning. -/

namespace Sys2Proof.Machine

/-- A command's effect on everything but the queue. -/
def exec (i : Instr) (s : State) : Host.Outcome State Fault Refusal :=
  match i with
  | .registerWrite x0 x1 x2 x3 => Sys2Proof.Machine.execRegisterWrite x0 x1 x2 x3 s
  | .readClear x0 x1 => Sys2Proof.Machine.execReadClear x0 x1 s
  | .readLoLatch x0 x1 => Sys2Proof.Machine.execReadLoLatch x0 x1 s
  | .writeLoStage x0 x1 x2 => Sys2Proof.Machine.execWriteLoStage x0 x1 x2 s
  | .writeHiCommit x0 x1 x2 => Sys2Proof.Machine.execWriteHiCommit x0 x1 x2 s
  | .aliasSetWrite x0 x1 x2 x3 x4 => Sys2Proof.Machine.execAliasSetWrite x0 x1 x2 x3 x4 s
  | .aliasClearWrite x0 x1 x2 x3 x4 => Sys2Proof.Machine.execAliasClearWrite x0 x1 x2 x3 x4 s
  | .unmappedAccess x0 x1 x2 => Sys2Proof.Machine.execUnmappedAccess x0 x1 x2 s
  | .headland => Sys2Proof.Machine.execHeadland s
  | .liveImageSeal => Sys2Proof.Machine.execLiveImageSeal s
  | .tasksReady => Sys2Proof.Machine.execTasksReady s
  | .outputSwitch => Sys2Proof.Machine.execOutputSwitch s
  | .rateAdjWrite x0 => Sys2Proof.Machine.execRateAdjWrite x0 s
  | .offsetWrite x0 x1 => Sys2Proof.Machine.execOffsetWrite x0 x1 s
  | .seat => Sys2Proof.Machine.execSeat s
  | .vnowRead x0 => Sys2Proof.Machine.execVnowRead x0 s
  | .headPeriodWrite x0 => Sys2Proof.Machine.execHeadPeriodWrite x0 s
  | .runSet x0 => Sys2Proof.Machine.execRunSet x0 s
  | .runClear x0 => Sys2Proof.Machine.execRunClear x0 s
  | .syncEnable x0 => Sys2Proof.Machine.execSyncEnable x0 s
  | .syncDisable x0 => Sys2Proof.Machine.execSyncDisable x0 s
  | .syncRearm x0 => Sys2Proof.Machine.execSyncRearm x0 s
  | .classCfgWrite x0 x1 => Sys2Proof.Machine.execClassCfgWrite x0 x1 s
  | .headSyncCfgWrite x0 => Sys2Proof.Machine.execHeadSyncCfgWrite x0 s
  | .headSyncCompWrite x0 => Sys2Proof.Machine.execHeadSyncCompWrite x0 s
  | .headsyncEdge x0 x1 => Sys2Proof.Machine.execHeadsyncEdge x0 x1 s
  | .headsyncWindowClose => Sys2Proof.Machine.execHeadsyncWindowClose s
  | .nop x0 => Sys2Proof.Machine.execNop x0 s
  | .dup x0 => Sys2Proof.Machine.execDup x0 s
  | .drop x0 => Sys2Proof.Machine.execDrop x0 s
  | .swap x0 => Sys2Proof.Machine.execSwap x0 s
  | .over x0 => Sys2Proof.Machine.execOver x0 s
  | .rot x0 => Sys2Proof.Machine.execRot x0 s
  | .pick x0 x1 => Sys2Proof.Machine.execPick x0 x1 s
  | .push0 x0 => Sys2Proof.Machine.execPush0 x0 s
  | .push1 x0 => Sys2Proof.Machine.execPush1 x0 s
  | .pushi8 x0 x1 => Sys2Proof.Machine.execPushi8 x0 x1 s
  | .pushi16 x0 x1 => Sys2Proof.Machine.execPushi16 x0 x1 s
  | .pushi32 x0 x1 => Sys2Proof.Machine.execPushi32 x0 x1 s
  | .pushi64 x0 x1 => Sys2Proof.Machine.execPushi64 x0 x1 s
  | .pushk x0 x1 => Sys2Proof.Machine.execPushk x0 x1 s
  | .pushf32 x0 x1 => Sys2Proof.Machine.execPushf32 x0 x1 s
  | .ldl x0 x1 => Sys2Proof.Machine.execLdl x0 x1 s
  | .stl x0 x1 => Sys2Proof.Machine.execStl x0 x1 s
  | .ldv x0 x1 => Sys2Proof.Machine.execLdv x0 x1 s
  | .stv x0 x1 => Sys2Proof.Machine.execStv x0 x1 s
  | .ldx x0 x1 => Sys2Proof.Machine.execLdx x0 x1 s
  | .stx x0 x1 => Sys2Proof.Machine.execStx x0 x1 s
  | .incl x0 x1 x2 => Sys2Proof.Machine.execIncl x0 x1 x2 s
  | .add x0 x1 => Sys2Proof.Machine.execAdd x0 x1 s
  | .sub x0 x1 => Sys2Proof.Machine.execSub x0 x1 s
  | .mul x0 x1 => Sys2Proof.Machine.execMul x0 x1 s
  | .div x0 x1 => Sys2Proof.Machine.execDiv x0 x1 s
  | .rem x0 x1 => Sys2Proof.Machine.execRem x0 x1 s
  | .adds x0 x1 => Sys2Proof.Machine.execAdds x0 x1 s
  | .subs x0 x1 => Sys2Proof.Machine.execSubs x0 x1 s
  | .muls x0 x1 => Sys2Proof.Machine.execMuls x0 x1 s
  | .neg x0 x1 => Sys2Proof.Machine.execNeg x0 x1 s
  | .abs x0 x1 => Sys2Proof.Machine.execAbs x0 x1 s
  | .eq x0 x1 => Sys2Proof.Machine.execEq x0 x1 s
  | .ne x0 x1 => Sys2Proof.Machine.execNe x0 x1 s
  | .lt x0 x1 => Sys2Proof.Machine.execLt x0 x1 s
  | .le x0 x1 => Sys2Proof.Machine.execLe x0 x1 s
  | .gt x0 x1 => Sys2Proof.Machine.execGt x0 x1 s
  | .ge x0 x1 => Sys2Proof.Machine.execGe x0 x1 s
  | .and x0 => Sys2Proof.Machine.execAnd x0 s
  | .or x0 => Sys2Proof.Machine.execOr x0 s
  | .xor x0 => Sys2Proof.Machine.execXor x0 s
  | .not x0 x1 => Sys2Proof.Machine.execNot x0 x1 s
  | .lnot x0 => Sys2Proof.Machine.execLnot x0 s
  | .shl x0 x1 => Sys2Proof.Machine.execShl x0 x1 s
  | .shr x0 x1 => Sys2Proof.Machine.execShr x0 x1 s
  | .sar x0 x1 => Sys2Proof.Machine.execSar x0 x1 s
  | .bitget x0 x1 => Sys2Proof.Machine.execBitget x0 x1 s
  | .bitset x0 x1 => Sys2Proof.Machine.execBitset x0 x1 s
  | .bitclr x0 x1 => Sys2Proof.Machine.execBitclr x0 x1 s
  | .conv x0 x1 => Sys2Proof.Machine.execConv x0 x1 s
  | .limit x0 x1 => Sys2Proof.Machine.execLimit x0 x1 s
  | .sel x0 => Sys2Proof.Machine.execSel x0 s
  | .min x0 x1 => Sys2Proof.Machine.execMin x0 x1 s
  | .max x0 x1 => Sys2Proof.Machine.execMax x0 x1 s
  | .jmp x0 x1 => Sys2Proof.Machine.execJmp x0 x1 s
  | .jt x0 x1 => Sys2Proof.Machine.execJt x0 x1 s
  | .jf x0 x1 => Sys2Proof.Machine.execJf x0 x1 s
  | .call x0 x1 => Sys2Proof.Machine.execCall x0 x1 s
  | .ret x0 => Sys2Proof.Machine.execRet x0 s
  | .endRun x0 => Sys2Proof.Machine.execEnd x0 s
  | .ldi x0 x1 => Sys2Proof.Machine.execLdi x0 x1 s
  | .sto x0 x1 => Sys2Proof.Machine.execSto x0 x1 s
  | .ldo x0 x1 => Sys2Proof.Machine.execLdo x0 x1 s
  | .pcatch x0 x1 => Sys2Proof.Machine.execPcatch x0 x1 s
  | .ldage x0 x1 => Sys2Proof.Machine.execLdage x0 x1 s
  | .ldq x0 x1 => Sys2Proof.Machine.execLdq x0 x1 s
  | .now x0 => Sys2Proof.Machine.execNow x0 s
  | .elapsed x0 => Sys2Proof.Machine.execElapsed x0 s
  | .interval x0 => Sys2Proof.Machine.execInterval x0 s
  | .clock x0 => Sys2Proof.Machine.execClock x0 s
  | .fb x0 x1 => Sys2Proof.Machine.execFb x0 x1 s
  | .post x0 x1 => Sys2Proof.Machine.execPost x0 x1 s
  | .wait x0 x1 => Sys2Proof.Machine.execWait x0 x1 s
  | .send x0 x1 => Sys2Proof.Machine.execSend x0 x1 s
  | .reply x0 => Sys2Proof.Machine.execReply x0 s
  | .cancel x0 x1 => Sys2Proof.Machine.execCancel x0 x1 s
  | .delay x0 x1 => Sys2Proof.Machine.execDelay x0 x1 s
  | .txopen x0 => Sys2Proof.Machine.execTxopen x0 s
  | .txadd x0 x1 => Sys2Proof.Machine.execTxadd x0 x1 s
  | .txseal x0 => Sys2Proof.Machine.execTxseal x0 s
  | .txstat x0 => Sys2Proof.Machine.execTxstat x0 s
  | .txdrop x0 => Sys2Proof.Machine.execTxdrop x0 s
  | .accMean x0 x1 => Sys2Proof.Machine.execAccMean x0 x1 s
  | .accRms x0 x1 => Sys2Proof.Machine.execAccRms x0 x1 s
  | .accMin x0 x1 => Sys2Proof.Machine.execAccMin x0 x1 s
  | .accMax x0 x1 => Sys2Proof.Machine.execAccMax x0 x1 s
  | .accN x0 x1 => Sys2Proof.Machine.execAccN x0 x1 s
  | .accInv x0 x1 => Sys2Proof.Machine.execAccInv x0 x1 s
  | .accMint x0 x1 => Sys2Proof.Machine.execAccMint x0 x1 s
  | .accMaxt x0 x1 => Sys2Proof.Machine.execAccMaxt x0 x1 s
  | .axcmd x0 x1 x2 => Sys2Proof.Machine.execAxcmd x0 x1 x2 s
  | .axstat x0 x1 => Sys2Proof.Machine.execAxstat x0 x1 s
  | .axpos x0 x1 => Sys2Proof.Machine.execAxpos x0 x1 s
  | .mark x0 x1 => Sys2Proof.Machine.execMark x0 x1 s
  | .take x0 => Sys2Proof.Machine.execTake x0 s
  | .dispatch x0 => Sys2Proof.Machine.execDispatch x0 s
  | .spill x0 => Sys2Proof.Machine.execSpill x0 s
  | .taskComplete x0 => Sys2Proof.Machine.execTaskComplete x0 s
  | .releaseStallEnd x0 => Sys2Proof.Machine.execReleaseStallEnd x0 s
  | .journalFold x0 => Sys2Proof.Machine.execJournalFold x0 s
  | .releaseActions x0 => Sys2Proof.Machine.execReleaseActions x0 s
  | .delayExpiry => Sys2Proof.Machine.execDelayExpiry s
  | .hostPost x0 => Sys2Proof.Machine.execHostPost x0 s
  | .hostCancel x0 => Sys2Proof.Machine.execHostCancel x0 s
  | .cancelItem x0 => Sys2Proof.Machine.execCancelItem x0 s
  | .hardwarePost => Sys2Proof.Machine.execHardwarePost s
  | .coreFenced x0 x1 => Sys2Proof.Machine.execCoreFenced x0 x1 s
  | .fence x0 => Sys2Proof.Machine.execFence x0 s
  | .retest x0 => Sys2Proof.Machine.execRetest x0 s
  | .retestDone x0 x1 => Sys2Proof.Machine.execRetestDone x0 x1 s
  | .descError x0 x1 => Sys2Proof.Machine.execDescError x0 x1 s
  | .start => Sys2Proof.Machine.execStart s
  | .stop => Sys2Proof.Machine.execStop s
  | .resume => Sys2Proof.Machine.execResume s
  | .abort => Sys2Proof.Machine.execAbort s
  | .checkpoint => Sys2Proof.Machine.execCheckpoint s
  | .olcArm => Sys2Proof.Machine.execOlcArm s
  | .olcCancel => Sys2Proof.Machine.execOlcCancel s
  | .commandTakesEffect => Sys2Proof.Machine.execCommandTakesEffect s
  | .overrun x0 => Sys2Proof.Machine.execOverrun x0 s
  | .taskCtrlWrite x0 x1 => Sys2Proof.Machine.execTaskCtrlWrite x0 x1 s
  | .forceEntryWrite x0 x1 x2 => Sys2Proof.Machine.execForceEntryWrite x0 x1 x2 s
  | .clearAll x0 => Sys2Proof.Machine.execClearAll x0 s
  | .forceCtrlWrite x0 => Sys2Proof.Machine.execForceCtrlWrite x0 s
  | .olcChangeHeadland => Sys2Proof.Machine.execOlcChangeHeadland s
  | .olcComplete => Sys2Proof.Machine.execOlcComplete s
  | .checkpointCapture x0 => Sys2Proof.Machine.execCheckpointCapture x0 s
  | .checkpointWrite => Sys2Proof.Machine.execCheckpointWrite s
  | .pfailAssert => Sys2Proof.Machine.execPfailAssert s
  | .powerFailCut x0 => Sys2Proof.Machine.execPowerFailCut x0 s
  | .pfailRelease => Sys2Proof.Machine.execPfailRelease s
  | .warmReset => Sys2Proof.Machine.execWarmReset s
  | .bridgeRestore x0 => Sys2Proof.Machine.execBridgeRestore x0 s
  | .rejoin => Sys2Proof.Machine.execRejoin s
  | .bridgeLimitExpiry => Sys2Proof.Machine.execBridgeLimitExpiry s
  | .txnOpen => Sys2Proof.Machine.execTxnOpen s
  | .txnAdd => Sys2Proof.Machine.execTxnAdd s
  | .txnSeal => Sys2Proof.Machine.execTxnSeal s
  | .txnDrop => Sys2Proof.Machine.execTxnDrop s
  | .localStagingDone x0 => Sys2Proof.Machine.execLocalStagingDone x0 s
  | .peerVote x0 x1 x2 x3 => Sys2Proof.Machine.execPeerVote x0 x1 x2 x3 s
  | .txnDecision => Sys2Proof.Machine.execTxnDecision s
  | .txnBroadcast => Sys2Proof.Machine.execTxnBroadcast s
  | .deferredOdWrite => Sys2Proof.Machine.execDeferredOdWrite s
  | .txnHoldExpiry => Sys2Proof.Machine.execTxnHoldExpiry s
  | .openTimeout => Sys2Proof.Machine.execOpenTimeout s
  | .conversion x0 x1 => Sys2Proof.Machine.execConversion x0 x1 s
  | .auCtrlWrite x0 x1 => Sys2Proof.Machine.execAuCtrlWrite x0 x1 s
  | .injSwTrig x0 x1 => Sys2Proof.Machine.execInjSwTrig x0 x1 s
  | .injectedRequest x0 => Sys2Proof.Machine.execInjectedRequest x0 s
  | .injectedStart x0 => Sys2Proof.Machine.execInjectedStart x0 s
  | .refEnable x0 x1 => Sys2Proof.Machine.execRefEnable x0 x1 s
  | .refSettled x0 => Sys2Proof.Machine.execRefSettled x0 s
  | .refFault x0 => Sys2Proof.Machine.execRefFault x0 s
  | .chCfgWrite x0 x1 x2 => Sys2Proof.Machine.execChCfgWrite x0 x1 x2 s
  | .calStart x0 x1 => Sys2Proof.Machine.execCalStart x0 x1 s
  | .calBegin x0 => Sys2Proof.Machine.execCalBegin x0 s
  | .calEnd x0 x1 => Sys2Proof.Machine.execCalEnd x0 x1 s
  | .accCfgWrite x0 x1 => Sys2Proof.Machine.execAccCfgWrite x0 x1 s
  | .accNRead x0 x1 => Sys2Proof.Machine.execAccNRead x0 x1 s
  | .trkMinRead x0 x1 => Sys2Proof.Machine.execTrkMinRead x0 x1 s
  | .accTrkClr x0 => Sys2Proof.Machine.execAccTrkClr x0 s
  | .wcmpCfgWrite x0 x1 x2 => Sys2Proof.Machine.execWcmpCfgWrite x0 x1 x2 s
  | .dacLoad => Sys2Proof.Machine.execDacLoad s
  | .arm x0 x1 => Sys2Proof.Machine.execArm x0 x1 s
  | .disarm x0 x1 => Sys2Proof.Machine.execDisarm x0 x1 s
  | .captSwTrig x0 => Sys2Proof.Machine.execCaptSwTrig x0 s
  | .captureSample x0 => Sys2Proof.Machine.execCaptureSample x0 s
  | .rearm x0 => Sys2Proof.Machine.execRearm x0 s
  | .triginEdge x0 x1 x2 => Sys2Proof.Machine.execTriginEdge x0 x1 x2 s
  | .captRelease x0 => Sys2Proof.Machine.execCaptRelease x0 s
  | .ovfTailWrite x0 => Sys2Proof.Machine.execOvfTailWrite x0 s
  | .ovfCopy x0 => Sys2Proof.Machine.execOvfCopy x0 s
  | .gleanSample => Sys2Proof.Machine.execGleanSample s
  | .gleanEdge x0 x1 x2 => Sys2Proof.Machine.execGleanEdge x0 x1 x2 s
  | .gleanHoldEnd x0 => Sys2Proof.Machine.execGleanHoldEnd x0 s
  | .blockTimeClose x0 => Sys2Proof.Machine.execBlockTimeClose x0 s
  | .gapRecord x0 => Sys2Proof.Machine.execGapRecord x0 s
  | .spoolCopy x0 => Sys2Proof.Machine.execSpoolCopy x0 s
  | .gleanSigWrite x0 x1 => Sys2Proof.Machine.execGleanSigWrite x0 x1 s
  | .moveAbs x0 => Sys2Proof.Machine.execMoveAbs x0 s
  | .moveRel x0 => Sys2Proof.Machine.execMoveRel x0 s
  | .moveVel x0 => Sys2Proof.Machine.execMoveVel x0 s
  | .stopDecel x0 => Sys2Proof.Machine.execStopDecel x0 s
  | .stopNow x0 => Sys2Proof.Machine.execStopNow x0 s
  | .home x0 => Sys2Proof.Machine.execHome x0 s
  | .setPos x0 => Sys2Proof.Machine.execSetPos x0 s
  | .profileTick x0 x1 => Sys2Proof.Machine.execProfileTick x0 x1 s
  | .drillStep x0 x1 => Sys2Proof.Machine.execDrillStep x0 x1 s
  | .hardLimit x0 x1 => Sys2Proof.Machine.execHardLimit x0 x1 s
  | .homeInput x0 x1 => Sys2Proof.Machine.execHomeInput x0 x1 s
  | .encoderTransition x0 => Sys2Proof.Machine.execEncoderTransition x0 s
  | .axisCtrlWrite x0 x1 => Sys2Proof.Machine.execAxisCtrlWrite x0 x1 s
  | .faultClr x0 x1 => Sys2Proof.Machine.execFaultClr x0 x1 s
  | .axisLimitWrite x0 x1 x2 => Sys2Proof.Machine.execAxisLimitWrite x0 x1 x2 s
  | .axisPinsWrite x0 x1 => Sys2Proof.Machine.execAxisPinsWrite x0 x1 s
  | .chopTrip x0 x1 x2 => Sys2Proof.Machine.execChopTrip x0 x1 x2 s
  | .chopBlankEnd x0 x1 => Sys2Proof.Machine.execChopBlankEnd x0 x1 s
  | .chopFastEnd x0 x1 => Sys2Proof.Machine.execChopFastEnd x0 x1 s
  | .chopSlowEnd x0 x1 => Sys2Proof.Machine.execChopSlowEnd x0 x1 s
  | .open x0 x1 => Sys2Proof.Machine.execOpen x0 x1 s
  | .restRamp x0 => Sys2Proof.Machine.execRestRamp x0 s
  | .chopCtrlWrite x0 x1 => Sys2Proof.Machine.execChopCtrlWrite x0 x1 s
  | .chopCfgWrite x0 x1 x2 => Sys2Proof.Machine.execChopCfgWrite x0 x1 x2 s
  | .fieldCtrlWrite x0 x1 => Sys2Proof.Machine.execFieldCtrlWrite x0 x1 s
  | .treavoReply x0 x1 x2 => Sys2Proof.Machine.execTreavoReply x0 x1 x2 s
  | .foreignMaster x0 x1 => Sys2Proof.Machine.execForeignMaster x0 x1 s
  | .stationServiceWrite x0 x1 x2 => Sys2Proof.Machine.execStationServiceWrite x0 x1 x2 s
  | .mdioGo x0 x1 x2 => Sys2Proof.Machine.execMdioGo x0 x1 x2 s
  | .phyPoll x0 x1 => Sys2Proof.Machine.execPhyPoll x0 x1 s
  | .canCycle x0 => Sys2Proof.Machine.execCanCycle x0 s
  | .canFrameRx x0 x1 x2 => Sys2Proof.Machine.execCanFrameRx x0 x1 x2 s
  | .nodeBootTimeout x0 x1 => Sys2Proof.Machine.execNodeBootTimeout x0 x1 s
  | .nodeRetry x0 x1 => Sys2Proof.Machine.execNodeRetry x0 x1 s
  | .heartbeatTimeout x0 x1 => Sys2Proof.Machine.execHeartbeatTimeout x0 x1 s
  | .busOff x0 => Sys2Proof.Machine.execBusOff x0 s
  | .sdoUpload x0 x1 => Sys2Proof.Machine.execSdoUpload x0 x1 s
  | .sdoDownload x0 x1 => Sys2Proof.Machine.execSdoDownload x0 x1 s
  | .sdoComplete x0 x1 x2 => Sys2Proof.Machine.execSdoComplete x0 x1 x2 s
  | .serialScan x0 => Sys2Proof.Machine.execSerialScan x0 s
  | .modbusResponse x0 x1 => Sys2Proof.Machine.execModbusResponse x0 x1 s
  | .modbusTimeout x0 => Sys2Proof.Machine.execModbusTimeout x0 s
  | .gpioFilteredChange x0 x1 x2 => Sys2Proof.Machine.execGpioFilteredChange x0 x1 x2 s
  | .joaMessage x0 x1 x2 x3 x4 x5 x6 x7 x8 => Sys2Proof.Machine.execJoaMessage x0 x1 x2 x3 x4 x5 x6 x7 x8 s
  | .ping x0 x1 => Sys2Proof.Machine.execPing x0 x1 s
  | .close x0 x1 => Sys2Proof.Machine.execClose x0 x1 s
  | .read x0 x1 x2 x3 x4 => Sys2Proof.Machine.execRead x0 x1 x2 x3 x4 s
  | .write x0 x1 x2 => Sys2Proof.Machine.execWrite x0 x1 x2 s
  | .readMulti x0 x1 x2 => Sys2Proof.Machine.execReadMulti x0 x1 x2 s
  | .writeGroup x0 x1 x2 x3 => Sys2Proof.Machine.execWriteGroup x0 x1 x2 x3 s
  | .info x0 x1 x2 => Sys2Proof.Machine.execInfo x0 x1 x2 s
  | .segStart x0 x1 x2 x3 x4 => Sys2Proof.Machine.execSegStart x0 x1 x2 x3 x4 s
  | .segData x0 x1 x2 x3 x4 => Sys2Proof.Machine.execSegData x0 x1 x2 x3 x4 s
  | .segEnd x0 x1 x2 => Sys2Proof.Machine.execSegEnd x0 x1 x2 s
  | .segAbort x0 x1 x2 => Sys2Proof.Machine.execSegAbort x0 x1 x2 s
  | .xferTimeout x0 => Sys2Proof.Machine.execXferTimeout x0 s
  | .subscribe x0 x1 x2 x3 x4 => Sys2Proof.Machine.execSubscribe x0 x1 x2 x3 x4 s
  | .unsubscribe x0 x1 x2 => Sys2Proof.Machine.execUnsubscribe x0 x1 x2 s
  | .subscriptionSample => Sys2Proof.Machine.execSubscriptionSample s
  | .streamOpen x0 x1 x2 => Sys2Proof.Machine.execStreamOpen x0 x1 x2 s
  | .streamBlock => Sys2Proof.Machine.execStreamBlock s
  | .streamAck x0 x1 x2 => Sys2Proof.Machine.execStreamAck x0 x1 x2 s
  | .streamClose x0 x1 => Sys2Proof.Machine.execStreamClose x0 x1 s
  | .streamResend => Sys2Proof.Machine.execStreamResend s
  | .sessionIdle x0 => Sys2Proof.Machine.execSessionIdle x0 s
  | .sessionCloseWrite x0 => Sys2Proof.Machine.execSessionCloseWrite x0 s
  | .proxyComplete x0 x1 => Sys2Proof.Machine.execProxyComplete x0 x1 s
  | .farmForwardResponse x0 x1 x2 x3 x4 x5 x6 => Sys2Proof.Machine.execFarmForwardResponse x0 x1 x2 x3 x4 x5 x6 s
  | .hello x0 x1 x2 x3 x4 x5 x6 x7 => Sys2Proof.Machine.execHello x0 x1 x2 x3 x4 x5 x6 x7 s
  | .proof x0 x1 x2 => Sys2Proof.Machine.execProof x0 x1 x2 s
  | .proofTimeout x0 => Sys2Proof.Machine.execProofTimeout x0 s
  | .identity x0 x1 x2 => Sys2Proof.Machine.execIdentity x0 x1 x2 s
  | .sigPart x0 x1 x2 => Sys2Proof.Machine.execSigPart x0 x1 x2 s
  | .sysResetWarm => Sys2Proof.Machine.execSysResetWarm s
  | .sysResetCold => Sys2Proof.Machine.execSysResetCold s
  | .sync x0 x1 x2 x3 => Sys2Proof.Machine.execSync x0 x1 x2 x3 s
  | .followUp x0 x1 => Sys2Proof.Machine.execFollowUp x0 x1 s
  | .delayReq x0 x1 x2 x3 => Sys2Proof.Machine.execDelayReq x0 x1 x2 x3 s
  | .delayResp x0 x1 x2 => Sys2Proof.Machine.execDelayResp x0 x1 x2 s
  | .pdelayReq x0 x1 x2 x3 x4 x5 => Sys2Proof.Machine.execPdelayReq x0 x1 x2 x3 x4 x5 s
  | .pdelayResp x0 x1 x2 x3 => Sys2Proof.Machine.execPdelayResp x0 x1 x2 x3 s
  | .pdelayRespFollowUp x0 x1 => Sys2Proof.Machine.execPdelayRespFollowUp x0 x1 s
  | .announce x0 x1 x2 => Sys2Proof.Machine.execAnnounce x0 x1 x2 s
  | .announceTimeout x0 x1 x2 => Sys2Proof.Machine.execAnnounceTimeout x0 x1 x2 s
  | .holdEnd => Sys2Proof.Machine.execHoldEnd s
  | .delayReqSend x0 x1 x2 => Sys2Proof.Machine.execDelayReqSend x0 x1 x2 s
  | .syncSend x0 x1 x2 => Sys2Proof.Machine.execSyncSend x0 x1 x2 s
  | .announceSend x0 x1 => Sys2Proof.Machine.execAnnounceSend x0 x1 s
  | .frameSent x0 x1 x2 x3 x4 => Sys2Proof.Machine.execFrameSent x0 x1 x2 x3 x4 s
  | .ptpAsymWrite x0 => Sys2Proof.Machine.execPtpAsymWrite x0 s
  | .arpRequest x0 x1 x2 => Sys2Proof.Machine.execArpRequest x0 x1 x2 s
  | .neighbourSolicitation x0 x1 x2 => Sys2Proof.Machine.execNeighbourSolicitation x0 x1 x2 s
  | .echoRequest x0 x1 => Sys2Proof.Machine.execEchoRequest x0 x1 s
  | .safetyCoreTick x0 => Sys2Proof.Machine.execSafetyCoreTick x0 s
  | .mastiffTick x0 x1 => Sys2Proof.Machine.execMastiffTick x0 x1 s
  | .testPulse x0 x1 => Sys2Proof.Machine.execTestPulse x0 x1 s
  | .darkTest x0 x1 x2 => Sys2Proof.Machine.execDarkTest x0 x1 x2 s
  | .safetyResetRelease => Sys2Proof.Machine.execSafetyResetRelease s
  | .islandFault x0 x1 x2 => Sys2Proof.Machine.execIslandFault x0 x1 x2 s
  | .islandStart x0 => Sys2Proof.Machine.execIslandStart x0 s
  | .restart => Sys2Proof.Machine.execRestart s
  | .activate => Sys2Proof.Machine.execActivate s
  | .mirrorFrame => Sys2Proof.Machine.execMirrorFrame s
  | .mirrorLost => Sys2Proof.Machine.execMirrorLost s
  | .safemirReqWrite x0 => Sys2Proof.Machine.execSafemirReqWrite x0 s
  | .harrowRead x0 x1 => Sys2Proof.Machine.execHarrowRead x0 x1 s
  | .fallowWindow x0 x1 => Sys2Proof.Machine.execFallowWindow x0 x1 s
  | .ownerWrite x0 x1 => Sys2Proof.Machine.execOwnerWrite x0 x1 s
  | .drainEnd x0 => Sys2Proof.Machine.execDrainEnd x0 s
  | .creditRefill => Sys2Proof.Machine.execCreditRefill s
  | .granaryLineWrite x0 => Sys2Proof.Machine.execGranaryLineWrite x0 s
  | .persistRewrite x0 => Sys2Proof.Machine.execPersistRewrite x0 s
  | .bistSlice x0 => Sys2Proof.Machine.execBistSlice x0 s
  | .bistRestart x0 => Sys2Proof.Machine.execBistRestart x0 s
  | .provision => Sys2Proof.Machine.execProvision s
  | .operate => Sys2Proof.Machine.execOperate s
  | .service => Sys2Proof.Machine.execService s
  | .retire => Sys2Proof.Machine.execRetire s
  | .deprovision => Sys2Proof.Machine.execDeprovision s
  | .revoke x0 x1 => Sys2Proof.Machine.execRevoke x0 x1 s
  | .rollbackAdvance => Sys2Proof.Machine.execRollbackAdvance s
  | .fwActivate x0 => Sys2Proof.Machine.execFwActivate x0 s
  | .imageVerify x0 x1 => Sys2Proof.Machine.execImageVerify x0 x1 s
  | .debugUnlock x0 x1 => Sys2Proof.Machine.execDebugUnlock x0 x1 s
  | .tamperDetect x0 => Sys2Proof.Machine.execTamperDetect x0 s
  | .tamperWipeDone => Sys2Proof.Machine.execTamperWipeDone s
  | .linkUp x0 x1 x2 => Sys2Proof.Machine.execLinkUp x0 x1 x2 s
  | .linkDown x0 => Sys2Proof.Machine.execLinkDown x0 s
  | .farmTimeExchange x0 x1 x2 x3 x4 x5 x6 => Sys2Proof.Machine.execFarmTimeExchange x0 x1 x2 x3 x4 x5 x6 s
  | .headlandMessage x0 x1 x2 x3 => Sys2Proof.Machine.execHeadlandMessage x0 x1 x2 x3 s
  | .headlandMessageMissed => Sys2Proof.Machine.execHeadlandMessageMissed s
  | .farmWindowAccess x0 x1 x2 => Sys2Proof.Machine.execFarmWindowAccess x0 x1 x2 s
  | .farmValueDelivery x0 x1 x2 x3 => Sys2Proof.Machine.execFarmValueDelivery x0 x1 x2 x3 s
  | .farmEventForward x0 x1 x2 x3 x4 x5 => Sys2Proof.Machine.execFarmEventForward x0 x1 x2 x3 x4 x5 s
  | .peerActions x0 x1 x2 x3 x4 => Sys2Proof.Machine.execPeerActions x0 x1 x2 x3 x4 s
  | .peerDecision x0 x1 x2 => Sys2Proof.Machine.execPeerDecision x0 x1 x2 s
  | .doubtQuery x0 x1 x2 => Sys2Proof.Machine.execDoubtQuery x0 x1 x2 s
  | .doubtLimitExpiry => Sys2Proof.Machine.execDoubtLimitExpiry s
  | .twinMirror x0 => Sys2Proof.Machine.execTwinMirror x0 s
  | .twinMirrorIncomplete => Sys2Proof.Machine.execTwinMirrorIncomplete s
  | .twinHeartbeat x0 x1 x2 x3 => Sys2Proof.Machine.execTwinHeartbeat x0 x1 x2 x3 s
  | .twinTakeover => Sys2Proof.Machine.execTwinTakeover s
  | .powerOn x0 x1 x2 => Sys2Proof.Machine.execPowerOn x0 x1 x2 s
  | .porstAssert => Sys2Proof.Machine.execPorstAssert s
  | .coldStart x0 x1 x2 x3 x4 => Sys2Proof.Machine.execColdStart x0 x1 x2 x3 x4 s
  | .svcrstPress => Sys2Proof.Machine.execSvcrstPress s
  | .svcrstRelease => Sys2Proof.Machine.execSvcrstRelease s
  | .svcrstStuck => Sys2Proof.Machine.execSvcrstStuck s
  | .shutdown => Sys2Proof.Machine.execShutdown s
  | .shutCancel => Sys2Proof.Machine.execShutCancel s
  | .shutdownStepDone => Sys2Proof.Machine.execShutdownStepDone s
  | .cfgRestart x0 => Sys2Proof.Machine.execCfgRestart x0 s
  | .fwConfirm => Sys2Proof.Machine.execFwConfirm s
  | .fwTrialExpiry => Sys2Proof.Machine.execFwTrialExpiry s
  | .wdogKick x0 => Sys2Proof.Machine.execWdogKick x0 s
  | .wdogExpiry => Sys2Proof.Machine.execWdogExpiry s
  | .ddrTrain x0 => Sys2Proof.Machine.execDdrTrain x0 s
  | .ddrTrainDone x0 x1 => Sys2Proof.Machine.execDdrTrainDone x0 x1 s
  | .ddrTestStart x0 => Sys2Proof.Machine.execDdrTestStart x0 s
  | .ddrTestDone x0 x1 x2 => Sys2Proof.Machine.execDdrTestDone x0 x1 x2 s
  | .linktestCtrlWrite x0 x1 => Sys2Proof.Machine.execLinktestCtrlWrite x0 x1 s
  | .prbsLockLost x0 x1 x2 => Sys2Proof.Machine.execPrbsLockLost x0 x1 x2 s
  | .generatorStart x0 x1 => Sys2Proof.Machine.execGeneratorStart x0 x1 s
  | .generatorStop x0 x1 => Sys2Proof.Machine.execGeneratorStop x0 x1 s
  | .testFrameRx x0 x1 x2 => Sys2Proof.Machine.execTestFrameRx x0 x1 x2 s
  | .uplinkLinkDown x0 => Sys2Proof.Machine.execUplinkLinkDown x0 s
  | .uplinkLinkUp x0 x1 => Sys2Proof.Machine.execUplinkLinkUp x0 x1 s
  | .laneFailure x0 => Sys2Proof.Machine.execLaneFailure x0 s
  | .flitReplay x0 x1 => Sys2Proof.Machine.execFlitReplay x0 x1 s
  | .refInRange x0 => Sys2Proof.Machine.execRefInRange x0 s
  | .dacrefReady => Sys2Proof.Machine.execDacrefReady s
  | .peerReceipt x0 x1 x2 => Sys2Proof.Machine.execPeerReceipt x0 x1 x2 s
  | .broadcastTurnaround x0 => Sys2Proof.Machine.execBroadcastTurnaround x0 s
  | .busOffRecovered x0 => Sys2Proof.Machine.execBusOffRecovered x0 s
  | .bootMsMissing x0 x1 => Sys2Proof.Machine.execBootMsMissing x0 x1 s
  | .lifecycleTransitionEnd => Sys2Proof.Machine.execLifecycleTransitionEnd s
  | .debugHalt x0 => Sys2Proof.Machine.execDebugHalt x0 s
  | .xspiProgramDone x0 => Sys2Proof.Machine.execXspiProgramDone x0 s
  | .prbsLock x0 => Sys2Proof.Machine.execPrbsLock x0 s
  | .testFrameSend x0 => Sys2Proof.Machine.execTestFrameSend x0 s
  | .twinCutCopied x0 => Sys2Proof.Machine.execTwinCutCopied x0 s
  | .twinFrameSeen x0 => Sys2Proof.Machine.execTwinFrameSeen x0 s
  | .helloLockoutEnd x0 => Sys2Proof.Machine.execHelloLockoutEnd x0 s

end Sys2Proof.Machine
end

