-- ==== Sys2Proof/Machine/Idle.lean ====
section
/-! DEFINITION. What the block does while no command waits. -/

namespace Sys2Proof.Machine

/-- R36, R611: RAW advances by a grain while the PLL is locked. DESIGN CHOICE (assumption 2). -/
def rawTick (s : State) : State := if s.pllLocked then { s with raw := s.raw + 1 } else s

/-- With no command waiting a grain passes, and the JOA engine serves what waits and sends (assumption 2). -/
def idle (s : State) : State := joaTick (rawTick s)

end Sys2Proof.Machine
end

