-- ==== Sys2Proof/Safety.lean ====
section
/-! DEFINITION. What claims about the block are stated in: the parts of the state that a command may write, the canonical form of
memory, and what the fuses of the OTP hold for good. -/

namespace Sys2Proof.Machine

/-! ### The parts of the state -/

/-- R454: the block whose registers hold an offset, the sixteen converter units counted as one. -/
def blockOf (a : Nat) : Nat := if 32 ≤ a / 65536 ∧ a / 65536 < 48 then 32 else a / 65536

/-- A part of the state: a field of State, all registers, the registers of one block, or one register by its offset (R454). -/
inductive Piece where
  | pending | raw | head | evlog | free | readData | latch | group | stage | gens | injected | image | oldImage | newImage
  | collie | txn | exec | img | inputs | quals | ages | pulses | field | motion | analog | mem | capture | glean | gran | slots
  | ptp | farm | island | resets | joa | sec
  | regs
  | block (b : Nat)
  | reg (a : Nat)
deriving DecidableEq, Repr

/-- Two states agree in every part but those of a list: what a command leaves unchanged. -/
structure Keeps (w : List Piece) (s t : State) : Prop where
  pending : Piece.pending ∉ w → t.pending = s.pending
  raw : Piece.raw ∉ w → t.raw = s.raw
  head : Piece.head ∉ w → t.head = s.head
  evlog : Piece.evlog ∉ w → t.evlog = s.evlog
  free : Piece.free ∉ w → t.free = s.free
  readData : Piece.readData ∉ w → t.readData = s.readData
  latch : Piece.latch ∉ w → t.latch = s.latch
  group : Piece.group ∉ w → t.group = s.group
  stage : Piece.stage ∉ w → t.stage = s.stage
  gens : Piece.gens ∉ w → t.gens = s.gens
  injected : Piece.injected ∉ w → t.injected = s.injected
  image : Piece.image ∉ w → t.image = s.image
  oldImage : Piece.oldImage ∉ w → t.oldImage = s.oldImage
  newImage : Piece.newImage ∉ w → t.newImage = s.newImage
  collie : Piece.collie ∉ w → t.collie = s.collie
  txn : Piece.txn ∉ w → t.txn = s.txn
  exec : Piece.exec ∉ w → t.exec = s.exec
  img : Piece.img ∉ w → t.img = s.img
  inputs : Piece.inputs ∉ w → t.inputs = s.inputs
  quals : Piece.quals ∉ w → t.quals = s.quals
  ages : Piece.ages ∉ w → t.ages = s.ages
  pulses : Piece.pulses ∉ w → t.pulses = s.pulses
  field : Piece.field ∉ w → t.field = s.field
  motion : Piece.motion ∉ w → t.motion = s.motion
  analog : Piece.analog ∉ w → t.analog = s.analog
  mem : Piece.mem ∉ w → t.mem = s.mem
  capture : Piece.capture ∉ w → t.capture = s.capture
  glean : Piece.glean ∉ w → t.glean = s.glean
  gran : Piece.gran ∉ w → t.gran = s.gran
  slots : Piece.slots ∉ w → t.slots = s.slots
  ptp : Piece.ptp ∉ w → t.ptp = s.ptp
  farm : Piece.farm ∉ w → t.farm = s.farm
  island : Piece.island ∉ w → t.island = s.island
  resets : Piece.resets ∉ w → t.resets = s.resets
  joa : Piece.joa ∉ w → t.joa = s.joa
  sec : Piece.sec ∉ w → t.sec = s.sec
  /-- The registers that the list holds neither by themselves nor with their block. -/
  regs : ∀ a, Piece.regs ∉ w → Piece.block (blockOf a) ∉ w → Piece.reg a ∉ w → tget 0 t.regs a = tget 0 s.regs a

/-- The command completes in s: the next state meets post and agrees with s in every part but those of w. -/
def Completes (c : Instr) (s : State) (w : List Piece) (post : State → Prop) : Prop :=
  ∃ t, exec c s = .next t ∧ post t ∧ Keeps w s t

/-- A register as a part of the state. -/
def Reg.piece (r : Reg) : Piece := .reg r.addr

/-- What noting an event in the log may write beside the event's own register: the log and its registers in block SYS (R452). -/
def noted : List Piece := [.evlog, .block 0]

/-- A register offset at which a read is a plain one: no latching word of R43, R256 or R257. -/
def plainlyRead (o : Nat) : Prop :=
  o ≠ (R.TIME_VNOW_LO).addr ∧ regIdx R.ACC_c_N 256 o = none ∧ regIdx R.ACC_c_TRK_MIN 256 o = none

/-- A register offset whose pair is stored as written: no pair with a rule of its own. -/
def plainlyWritten (o : Nat) : Prop :=
  o ≠ (R.TIME_OFFSET_HI).addr ∧ o ≠ (R.GLEAN_SIG_DEADBAND_HI).addr ∧ regIdx R.AXIS_n_VMAX_HI 64 o = none ∧
    regIdx2 R.CAPT_n_k_LEVEL_HI 16 4 o = none

/-- R81, R82: a word of the banks that holds bytes of memory only: no retained area, module image or global area lies there. -/
def plainWord (s : State) (w : Nat) : Prop :=
  0x11000000 ≤ w ∨
    (retainedAt s (w / 0x400000 % 4) (w % 0x400000) = none ∧ moduleWordAt s (w / 0x400000 % 4) (w % 0x400000) = none)

/-- A saturating counter, one more. -/
def satSucc (w : Word) : Word := if w = BitVec.allOnes 32 then w else w + 1

/-! ### Runs of tasks -/

/-- Core k executes a run whose top frame is fr, above the frames rest. -/
structure Executes (s : State) (k : Nat) (r : Run) (fr : Frame) (rest : List Frame) : Prop where
  run : s.run k = some r
  phase : r.phase = .executing
  frames : r.frames = fr :: rest

/-- R115: the instruction set of the run's module has a type: compatibility decode has 32-bit cells only. -/
def Run.has (r : Run) (t : EType) : Prop := r.mod.legacy = true → t ≠ .i64 ∧ t ≠ .f64 ∧ t ≠ .t64

/-- The state in which the run of core k stands past an instruction of n bytes with a stack, and nothing else has changed. -/
def State.past (s : State) (k : Nat) (r : Run) (fr : Frame) (rest : List Frame) (n : Nat) (stack : List Quad) : State :=
  s.setRun k (some (r.next fr rest n stack))

/-! ### Invariants -/

/-- Memory is in its one canonical form: addresses rise, and no byte listed is what an unlisted one reads as. -/
def Memory.wf (m : Tbl Byte) : Bool := twf 0 m

/-- Every stored register value is in canonical form: the table lists differences from the reset value, and no other. -/
def State.regsWf (s : State) : Bool := twf 0 s.regs

/-- R565: a root slot holds a hash. -/
def State.rootHolds (s : State) (lms : Bool) (n : Nat) (h : List Byte) : Prop := (s.sec.root lms n).hash = some h

/-- R565: the revoke fuse of a root slot is blown. -/
def State.rootRevoked (s : State) (lms : Bool) (n : Nat) : Prop := (s.sec.root lms n).revoked = true

end Sys2Proof.Machine
end

