-- ==== Sys2Proof/Certificates/Slice0/Obligations.lean ====
section
/-! DEFINITION. The statements about the model. A statement whose parts are long is the conjunction of claims, which stand before it under
the chapters of the spec they come from. -/

open Sys2Proof Sys2Proof.Machine


/-! ### The machine -/

/-- A step takes the command at the front of the queue and is exec of it on the state with the rest of the queue. -/
def Obligations.StepRunsTheFrontCommand : Prop :=
  ∀ (c : Instr) (rest : List Instr) (s : State), step { s with pending := c :: rest } = exec c { s with pending := rest }

/-- R42, R611: with no command waiting a grain passes while the PLL is locked, and with no request, message or proxy waiting nothing else
changes (that the block counts its grains and serves JOA here is assumption 2, the model's choice). -/
def Obligations.AnEmptyQueueLetsAGrainPass : Prop :=
  ∀ s : State, s.pending = [] → s.joa.proxies = [] → (∀ k, k < 32 → (s.session k).queue = [] ∧ (s.session k).pend = []) → s.joa.subs = [] →
    ∃ t, step s = .next t ∧ t.raw = (if s.pllLocked then s.raw + 1 else s.raw) ∧
      Keeps [Piece.raw, R.XSPI_STATUS.piece] s t

/-! ### Chapter 3: E-code -/

/-- R85: NOP, DUP, DROP, SWAP, OVER, ROT and PICK move cells of the operand stack, step past themselves and change nothing else. -/
def Claim.StackRowsMoveCells : Prop :=
  ∀ (k : Fin 36) (s : State) (r : Run) (fr : Frame) (rest : List Frame), Executes s k r fr rest →
    exec (.nop k) s = .next (s.past k r fr rest 1 fr.stack) ∧
    (∀ a l, fr.stack = a :: l →
      exec (.dup k) s = .next (s.past k r fr rest 1 (a :: a :: l)) ∧ exec (.drop k) s = .next (s.past k r fr rest 1 l)) ∧
    (∀ a b l, fr.stack = b :: a :: l →
      exec (.swap k) s = .next (s.past k r fr rest 1 (a :: b :: l)) ∧
      exec (.over k) s = .next (s.past k r fr rest 1 (a :: b :: a :: l))) ∧
    (∀ a b c l, fr.stack = c :: b :: a :: l → exec (.rot k) s = .next (s.past k r fr rest 1 (a :: c :: b :: l))) ∧
    (∀ (u : BitVec 8) (x : Quad), fr.stack[u.toNat]? = some x →
      exec (.pick k u) s = .next (s.past k r fr rest 2 (x :: fr.stack)))

/-- R85, R97: PUSH0 to PUSHF32 push the constant or the immediate, sign-extended but for PUSHF32, and PUSHK the constant of the pool. -/
def Claim.PushRowsPushTheirOperand : Prop :=
  ∀ (k : Fin 36) (s : State) (r : Run) (fr : Frame) (rest : List Frame), Executes s k r fr rest →
    exec (.push0 k) s = .next (s.past k r fr rest 1 (0 :: fr.stack)) ∧
    exec (.push1 k) s = .next (s.past k r fr rest 1 (1 :: fr.stack)) ∧
    (∀ v : BitVec 8, exec (.pushi8 k v) s = .next (s.past k r fr rest 2 (BitVec.ofInt 64 v.toInt :: fr.stack))) ∧
    (∀ v : BitVec 16, exec (.pushi16 k v) s = .next (s.past k r fr rest 3 (BitVec.ofInt 64 v.toInt :: fr.stack))) ∧
    (∀ v : BitVec 32, exec (.pushi32 k v) s = .next (s.past k r fr rest 5 (BitVec.ofInt 64 v.toInt :: fr.stack))) ∧
    (∀ v : Quad, exec (.pushi64 k v) s = .next (s.past k r fr rest 9 (v :: fr.stack))) ∧
    (∀ v : BitVec 32, exec (.pushf32 k v) s = .next (s.past k r fr rest 5 (BitVec.ofNat 64 v.toNat :: fr.stack))) ∧
    (∀ (n : BitVec 16) (x : Quad), r.mod.consts[n.toNat]? = some x →
      exec (.pushk k n) s = .next (s.past k r fr rest 3 (x :: fr.stack)))

/-- R73, R80, R82, R87, R99: LDL, STL and INCL act on a local of the top frame; LDV and STV on a variable, LDX and STX on an element
within its array. A RETAIN variable of the run's own entry lies in its working copy, a GLOBAL in the module's globals. -/
def Claim.LocalAndVariableRowsMoveCells : Prop :=
  ∀ (k : Fin 36) (s : State) (r : Run) (fr : Frame) (rest : List Frame), Executes s k r fr rest →
    (∀ i : BitVec 8, exec (.ldl k i) s = .next (s.past k r fr rest 2 (tget 0 fr.locals i.toNat :: fr.stack))) ∧
    (∀ (i : BitVec 8) (x : Quad) (l : List Quad), fr.stack = x :: l →
      exec (.stl k i) s = .next (s.past k r { fr with locals := tset 0 fr.locals i.toNat x } rest 2 l)) ∧
    (∀ i d : BitVec 8, exec (.incl k i d) s =
      .next (s.past k r { fr with locals := tset 0 fr.locals i.toNat (tget 0 fr.locals i.toNat + d.signExtend 64) } rest 3 fr.stack)) ∧
    (∀ (d : VarIdx) (v : VarDesc), r.mod.vars[d.idx]? = some v →
      (v.kind = 0 ∧ v.owner = r.func →
        exec (.ldv k d) s = .next (s.past k r fr rest (3 + d.extra) (tget 0 r.work (v.loc / 8) :: fr.stack)) ∧
        (∀ x l, fr.stack = x :: l → exec (.stv k d) s = .next
          (s.past k { r with work := tset 0 r.work (v.loc / 8) (normCell v.ty x) } fr rest (3 + d.extra) l)) ∧
        (∀ i l, fr.stack = i :: l → i.toNat < v.elems →
          exec (.ldx k d) s = .next (s.past k r fr rest (3 + d.extra) (tget 0 r.work (v.loc / 8 + i.toNat) :: l))) ∧
        (∀ x i l, fr.stack = x :: i :: l → i.toNat < v.elems → exec (.stx k d) s = .next
          (s.past k { r with work := tset 0 r.work (v.loc / 8 + i.toNat) (normCell v.ty x) } fr rest (3 + d.extra) l))) ∧
      (v.kind = 1 →
        exec (.ldv k d) s = .next
          (s.past k r fr rest (3 + d.extra) (tget 0 (tget [] s.collie.globals r.mod.uid) (v.loc / 8) :: fr.stack)) ∧
        (∀ x l, fr.stack = x :: l → exec (.stv k d) s = .next
          ((s.setGlobal r.mod.uid (v.loc / 8) (normCell v.ty x)).past k r fr rest (3 + d.extra) l))))

/-- The rows that move cells between the stack, the operands, the locals and the variables. -/
def Obligations.StackAndVariableRowsMoveCells : Prop :=
  Claim.StackRowsMoveCells ∧ Claim.PushRowsPushTheirOperand ∧ Claim.LocalAndVariableRowsMoveCells

/-- R74, R76: ADD, SUB and MUL give the exact result modulo the width of an integer type, or the rounded result of a floating-point
type; ADDS, SUBS and MULS hold the exact result to the type's range; NEG wraps and ABS saturates. -/
def Claim.ArithmeticRowsGiveTheResult : Prop :=
  ∀ (k : Fin 36) (s : State) (r : Run) (fr : Frame) (rest : List Frame), Executes s k r fr rest →
    (∀ (t : EType) (a b : Quad) (l : List Quad), t = .i32 ∨ t = .u32 ∨ t = .i64 ∨ t = .t64 → r.has t → fr.stack = b :: a :: l →
      exec (.add k t) s = .next (s.past k r fr rest 1 (wrInt t (rdInt t a + rdInt t b) :: l)) ∧
      exec (.sub k t) s = .next (s.past k r fr rest 1 (wrInt t (rdInt t a - rdInt t b) :: l)) ∧
      exec (.mul k t) s = .next (s.past k r fr rest 1 (wrInt t (rdInt t a * rdInt t b) :: l)) ∧
      exec (.adds k t) s = .next (s.past k r fr rest 1 (wrInt t (max (tyMin t) (min (tyMax t) (rdInt t a + rdInt t b))) :: l)) ∧
      exec (.subs k t) s = .next (s.past k r fr rest 1 (wrInt t (max (tyMin t) (min (tyMax t) (rdInt t a - rdInt t b))) :: l)) ∧
      exec (.muls k t) s = .next (s.past k r fr rest 1 (wrInt t (max (tyMin t) (min (tyMax t) (rdInt t a * rdInt t b))) :: l))) ∧
    (∀ (t : EType) (a b : Quad) (l : List Quad), t = .f32 ∨ t = .f64 → r.has t → fr.stack = b :: a :: l →
      exec (.add k t) s = .next (s.past k r fr rest 1 (wrFlt (fadd (fmtOf t) (rdFlt t a) (rdFlt t b)) :: l)) ∧
      exec (.sub k t) s = .next (s.past k r fr rest 1 (wrFlt (fsub (fmtOf t) (rdFlt t a) (rdFlt t b)) :: l)) ∧
      exec (.mul k t) s = .next (s.past k r fr rest 1 (wrFlt (fmul (fmtOf t) (rdFlt t a) (rdFlt t b)) :: l)) ∧
      exec (.div k t) s = .next (s.past k r fr rest 1 (wrFlt (fdiv (fmtOf t) (rdFlt t a) (rdFlt t b)) :: l))) ∧
    (∀ (t : EType) (a : Quad) (l : List Quad), t = .i32 ∨ t = .i64 ∨ t = .t64 → r.has t → fr.stack = a :: l →
      exec (.neg k t) s = .next (s.past k r fr rest 1 (wrInt t (-rdInt t a) :: l)) ∧
      exec (.abs k t) s = .next (s.past k r fr rest 1 (wrInt t (min (tyMax t) ((rdInt t a).natAbs : Int)) :: l))) ∧
    (∀ (t : EType) (a : Quad) (l : List Quad), t = .f32 ∨ t = .f64 → r.has t → fr.stack = a :: l →
      exec (.neg k t) s = .next (s.past k r fr rest 1 (wrFlt (fneg (fmtOf t) (rdFlt t a)) :: l)) ∧
      exec (.abs k t) s = .next (s.past k r fr rest 1 (wrFlt (fabs (fmtOf t) (rdFlt t a)) :: l)))

/-- R75: integer division truncates toward zero, the remainder has the sign of the dividend, and MIN / −1 gives MIN (the quotient
written modulo the width) with remainder 0; with divisor 0 the fault DIV_ZERO is taken, and where the task runs on the result is 0. -/
def Obligations.DivideRowsTruncate : Prop :=
  ∀ (k : Fin 36) (s : State) (r : Run) (fr : Frame) (rest : List Frame), Executes s k r fr rest →
    ∀ (t : EType) (a b : Quad) (l : List Quad), t = .i32 ∨ t = .u32 ∨ t = .i64 ∨ t = .t64 → r.has t → fr.stack = b :: a :: l →
      (rdInt t b ≠ 0 →
        exec (.div k t) s = .next (s.past k r fr rest 1 (wrInt t ((rdInt t a).tdiv (rdInt t b)) :: l)) ∧
        exec (.rem k t) s = .next (s.past k r fr rest 1 (wrInt t ((rdInt t a).tmod (rdInt t b)) :: l))) ∧
      (rdInt t b = 0 → ∀ c ∈ [Instr.div k t, Instr.rem k t],
        ((taskFault k 1 s).1 = false → exec c s = .next (taskFault k 1 s).2) ∧
        ((taskFault k 1 s).1 = true → ∃ r', (taskFault k 1 s).2.run k = some r' ∧
          exec c s = .next ((taskFault k 1 s).2.past k r' fr rest 1 (0 :: l))))

/-- R87: the comparisons push 0 or 1, false with a NaN but for NE; MIN, MAX, LIMIT and SEL choose a value. -/
def Claim.CompareAndSelectRowsGiveTheResult : Prop :=
  ∀ (k : Fin 36) (s : State) (r : Run) (fr : Frame) (rest : List Frame), Executes s k r fr rest →
    (∀ (t : EType) (a b : Quad) (l : List Quad), t = .i32 ∨ t = .u32 ∨ t = .i64 ∨ t = .t64 → r.has t → fr.stack = b :: a :: l →
      exec (.eq k t) s = .next (s.past k r fr rest 1 (wrBool (rdInt t a = rdInt t b) :: l)) ∧
      exec (.ne k t) s = .next (s.past k r fr rest 1 (wrBool (rdInt t a ≠ rdInt t b) :: l)) ∧
      exec (.lt k t) s = .next (s.past k r fr rest 1 (wrBool (rdInt t a < rdInt t b) :: l)) ∧
      exec (.le k t) s = .next (s.past k r fr rest 1 (wrBool (rdInt t a ≤ rdInt t b) :: l)) ∧
      exec (.gt k t) s = .next (s.past k r fr rest 1 (wrBool (rdInt t a > rdInt t b) :: l)) ∧
      exec (.ge k t) s = .next (s.past k r fr rest 1 (wrBool (rdInt t a ≥ rdInt t b) :: l)) ∧
      exec (.min k t) s = .next (s.past k r fr rest 2 (wrInt t (min (rdInt t a) (rdInt t b)) :: l)) ∧
      exec (.max k t) s = .next (s.past k r fr rest 2 (wrInt t (max (rdInt t a) (rdInt t b)) :: l))) ∧
    (∀ (t : EType) (a b : Quad) (l : List Quad), t = .f32 ∨ t = .f64 → r.has t → fr.stack = b :: a :: l →
      fisNan (fmtOf t) (rdFlt t a) ∨ fisNan (fmtOf t) (rdFlt t b) →
      exec (.eq k t) s = .next (s.past k r fr rest 1 (0 :: l)) ∧ exec (.ne k t) s = .next (s.past k r fr rest 1 (1 :: l)) ∧
      exec (.lt k t) s = .next (s.past k r fr rest 1 (0 :: l)) ∧ exec (.le k t) s = .next (s.past k r fr rest 1 (0 :: l)) ∧
      exec (.gt k t) s = .next (s.past k r fr rest 1 (0 :: l)) ∧ exec (.ge k t) s = .next (s.past k r fr rest 1 (0 :: l)) ∧
      exec (.min k t) s = .next (s.past k r fr rest 2 (wrFlt (fmtOf t).nanBits :: l)) ∧
      exec (.max k t) s = .next (s.past k r fr rest 2 (wrFlt (fmtOf t).nanBits :: l))) ∧
    (∀ (t : EType) (lo x hi : Quad) (l : List Quad), t = .i32 ∨ t = .u32 ∨ t = .i64 ∨ t = .t64 → r.has t → fr.stack = hi :: x :: lo :: l →
      exec (.limit k t) s = .next (s.past k r fr rest 2 (wrInt t (max (rdInt t lo) (min (rdInt t x) (rdInt t hi))) :: l))) ∧
    (∀ (c y x : Quad) (l : List Quad), fr.stack = c :: y :: x :: l →
      exec (.sel k) s = .next (s.past k r fr rest 1 ((if c = 0 then y else x) :: l)))

/-- R85, R87: the bitwise rows on whole cells; NOT, the shifts and the bit rows in the width of I32, U32 or I64, a count of the full
width or more giving 0 (SAR: the sign), and a bit number out of range reading 0 and changing nothing. -/
def Claim.BitRowsGiveTheResult : Prop :=
  ∀ (k : Fin 36) (s : State) (r : Run) (fr : Frame) (rest : List Frame), Executes s k r fr rest →
    (∀ (a b : Quad) (l : List Quad), fr.stack = b :: a :: l →
      exec (.and k) s = .next (s.past k r fr rest 1 ((a &&& b) :: l)) ∧
      exec (.or k) s = .next (s.past k r fr rest 1 ((a ||| b) :: l)) ∧
      exec (.xor k) s = .next (s.past k r fr rest 1 ((a ^^^ b) :: l))) ∧
    (∀ (a : Quad) (l : List Quad), fr.stack = a :: l →
      exec (.lnot k) s = .next (s.past k r fr rest 1 ((if a = 0 then 1 else 0) :: l)) ∧
      (r.has .i64 → exec (.not k .i64) s = .next (s.past k r fr rest 2 (~~~a :: l))) ∧
      exec (.not k .u32) s = .next (s.past k r fr rest 2 ((~~~(a.truncate 32 : Word)).zeroExtend 64 :: l)) ∧
      exec (.not k .i32) s = .next (s.past k r fr rest 2 ((~~~(a.truncate 32 : Word)).signExtend 64 :: l))) ∧
    (∀ (t : EType) (a n : Quad) (l : List Quad), t = .i32 ∨ t = .u32 ∨ t = .i64 → r.has t → fr.stack = n :: a :: l →
      let c := n.toNat % 2 ^ bitWidth t
      let p := a.toNat % 2 ^ bitWidth t
      (c < bitWidth t →
        exec (.shl k t) s = .next (s.past k r fr rest 2 (wrInt t (p * 2 ^ c : Nat) :: l)) ∧
        exec (.shr k t) s = .next (s.past k r fr rest 2 (wrInt t (p / 2 ^ c : Nat) :: l)) ∧
        exec (.sar k t) s = .next (s.past k r fr rest 2 (wrInt t ((p : Int).bmod (2 ^ bitWidth t) / 2 ^ c) :: l)) ∧
        exec (.bitget k t) s = .next (s.past k r fr rest 2 ((if p.testBit c then 1 else 0) :: l)) ∧
        exec (.bitset k t) s = .next (s.past k r fr rest 2 (wrInt t (p ||| 2 ^ c : Nat) :: l)) ∧
        exec (.bitclr k t) s = .next (s.past k r fr rest 2 (wrInt t (if p.testBit c then p - 2 ^ c else p : Nat) :: l))) ∧
      (bitWidth t ≤ c →
        exec (.shl k t) s = .next (s.past k r fr rest 2 (0 :: l)) ∧ exec (.shr k t) s = .next (s.past k r fr rest 2 (0 :: l)) ∧
        exec (.sar k t) s = .next
          (s.past k r fr rest 2 ((if p < 2 ^ (bitWidth t - 1) then 0 else wrInt t (-1)) :: l)) ∧
        exec (.bitget k t) s = .next (s.past k r fr rest 2 (0 :: l)) ∧
        exec (.bitset k t) s = .next (s.past k r fr rest 2 (wrInt t p :: l)) ∧
        exec (.bitclr k t) s = .next (s.past k r fr rest 2 (wrInt t p :: l))))

/-- R77: CONV between types, with SAT of the conversion byte. -/
def Claim.ConvRowConvertsTheCell : Prop :=
  ∀ (k : Fin 36) (s : State) (r : Run) (fr : Frame) (rest : List Frame) (a : Quad) (l : List Quad), Executes s k r fr rest →
    fr.stack = a :: l → ∀ (src dst : EType) (sat : Bool),
    let c : Instr := .conv k (BitVec.ofNat 8 (64 * b2n sat + 8 * etypeCode src + etypeCode dst))
    (isFlt src = false → isFlt dst = false → dst ≠ .b → exec c s = .next (s.past k r fr rest 2
      (wrInt dst (if sat then max (tyMin dst) (min (tyMax dst) (rdInt src a)) else rdInt src a) :: l))) ∧
    (isFlt src = false → isFlt dst = true → exec c s = .next (s.past k r fr rest 2 (wrFlt (fofI (fmtOf dst) (rdInt src a)) :: l))) ∧
    (isFlt src = true → isFlt dst = true → exec c s = .next
      (s.past k r fr rest 2 (wrFlt (fconv (fmtOf src) (fmtOf dst) (rdFlt src a)) :: l))) ∧
    (isFlt src = false → dst = .b → exec c s = .next (s.past k r fr rest 2 (wrBool (rdInt src a ≠ 0) :: l))) ∧
    (isFlt src = true → dst = .b → exec c s = .next (s.past k r fr rest 2 (wrBool (!feq (fmtOf src) (rdFlt src a) 0) :: l))) ∧
    (isFlt src = true → isFlt dst = false → dst ≠ .b →
      (∀ x, ftoI (fmtOf src) (rdFlt src a) = some x → tyMin dst ≤ x → x ≤ tyMax dst →
        exec c s = .next (s.past k r fr rest 2 (wrInt dst x :: l))) ∧
      (∀ x, ftoI (fmtOf src) (rdFlt src a) = some x → sat = true → exec c s = .next
        (s.past k r fr rest 2 (wrInt dst (max (tyMin dst) (min (tyMax dst) x)) :: l))) ∧
      (fisNan (fmtOf src) (rdFlt src a) = true → sat = true → exec c s = .next (s.past k r fr rest 2 (0 :: l))) ∧
      ((∀ x, ftoI (fmtOf src) (rdFlt src a) = some x → x < tyMin dst ∨ tyMax dst < x) → sat = false →
        ((taskFault k 2 s).1 = false → exec c s = .next (taskFault k 2 s).2) ∧
        ((taskFault k 2 s).1 = true → ∃ r', (taskFault k 2 s).2.run k = some r' ∧
          exec c s = .next ((taskFault k 2 s).2.past k r' fr rest 2 (0 :: l)))))

/-- The rows of arithmetic, comparison, selection, bits and conversion give the results of their rules. -/
def Obligations.ArithmeticAndBitRowsGiveTheResult : Prop :=
  Claim.ArithmeticRowsGiveTheResult ∧ Claim.CompareAndSelectRowsGiveTheResult ∧ Claim.BitRowsGiveTheResult ∧ Claim.ConvRowConvertsTheCell

/-- R80, R84: a branch is counted from the next instruction; CALL opens a frame with its arguments as the first locals; RET gives the
results to the caller, and from the entry ends the run, as END does at any depth. -/
def Obligations.BranchAndCallRowsMoveThePlace : Prop :=
  ∀ (k : Fin 36) (s : State) (r : Run) (fr : Frame) (rest : List Frame), Executes s k r fr rest →
    let goto (pc : Nat) (l : List Quad) : State := s.setRun k (some { r with frames := { fr with pc := pc, stack := l } :: rest })
    (∀ o : BrOff, exec (.jmp k o) s = .next (goto (((fr.pc + o.size : Nat) : Int) + o.val).toNat fr.stack)) ∧
    (∀ (o : BrOff) (x : Quad) (l : List Quad), fr.stack = x :: l →
      (x ≠ 0 → exec (.jt k o) s = .next (goto (((fr.pc + o.size : Nat) : Int) + o.val).toNat l) ∧
        exec (.jf k o) s = .next (goto (fr.pc + o.size) l)) ∧
      (x = 0 → exec (.jf k o) s = .next (goto (((fr.pc + o.size : Nat) : Int) + o.val).toNat l) ∧
        exec (.jt k o) s = .next (goto (fr.pc + o.size) l))) ∧
    (∀ (f : BitVec 16) (d : FuncDesc), r.mod.funcs[f.toNat]? = some d → d.args ≤ fr.stack.length →
      ∃ loc : Tbl Quad, (∀ i, tget 0 loc i = if i < d.args then fr.stack.getD (d.args - 1 - i) 0 else 0) ∧
        exec (.call k f) s = .next (s.setRun k (some { r with frames :=
          ⟨f.toNat, d.offset, loc, []⟩ :: { fr with pc := fr.pc + 3, stack := fr.stack.drop d.args } :: rest }))) ∧
    (∀ (c : Frame) (more : List Frame) (d : FuncDesc), rest = c :: more → r.mod.funcs[fr.func]? = some d →
      exec (.ret k) s = .next (s.setRun k (some { r with frames :=
        { c with stack := fr.stack.take d.results ++ c.stack } :: more }))) ∧
    (rest = [] → exec (.ret k) s = .next (s.setRun k (some { r with phase := .ended }))) ∧
    exec (.endRun k) s = .next (s.setRun k (some { r with phase := .ended }))

/-- R89, R90, R91, R118, R119: what the rows that read the process image, the accumulator records, the axes and the time push, and
what STO puts into the journal. -/
def Claim.ProcessImageRowsReadAndJournal : Prop :=
  ∀ (k : Fin 36) (s : State) (r : Run) (fr : Frame) (rest : List Frame), Executes s k r fr rest →
    ∀ (d : VarIdx) (v : VarDesc), r.mod.vars[d.idx]? = some v →
    let pushes (c : Instr) (x : Quad) : Prop := exec c s = .next (s.past k r fr rest (3 + d.extra) (x :: fr.stack))
    (v.kind = 2 → refKind v.loc ≠ 8 → pushes (.ldi k d) (imgRead r.snap.vals v.loc v.ty)) ∧
    (v.kind = 2 → refKind v.loc = 8 → pushes (.ldi k d)
      (if pointForced r.snap id v.loc v.ty then imgRead r.snap.vals v.loc v.ty else wrBool (natBit r.sys (v.loc % 256)))) ∧
    (v.kind = 2 → refKind v.loc = 0 → pushes (.pcatch k d) (BitVec.ofNat 64 (tget 0 r.snap.pulses (r.cls * 192 + v.loc % 256)))) ∧
    (v.kind = 2 → refKind v.loc = 0 → pushes (.ldage k d) 0) ∧
    (v.kind = 2 → refKind v.loc = 2 → ∀ b, tget 0 r.snap.ages (refSource v.loc) = b + 1 →
      pushes (.ldage k d) (BitVec.ofNat 64 (min 0xFFFFFFFF (r.snap.index - b)))) ∧
    (v.kind = 2 → pushes (.ldq k d) (BitVec.ofNat 64 (pointQual r.snap false v.loc v.ty))) ∧
    (v.kind = 3 → pushes (.ldq k d) (BitVec.ofNat 64 (pointQual r.snap true v.loc v.ty))) ∧
    (v.kind = 3 → (∀ e ∈ r.journal, e.point ≠ v.loc) → pushes (.ldo k d) (imgRead (tget [] s.img.shadow r.cls) v.loc v.ty)) ∧
    (v.kind = 3 → ∀ e, r.journal.find? (fun e => e.point = v.loc) = some e → pushes (.ldo k d) e.value) ∧
    (v.kind = 3 → ∀ x l, fr.stack = x :: l → (∃ e ∈ r.journal, e.point = v.loc) ∨ r.journal.length < 512 →
      ∃ j, exec (.sto k d) s = .next (s.past k { r with journal := j } fr rest (3 + d.extra) l) ∧
        j.find? (fun e => e.point = v.loc) = some ⟨v.loc, v.ty, normCell v.ty x⟩ ∧
        (∀ p, p ≠ v.loc → j.find? (fun e => e.point = p) = r.journal.find? (fun e => e.point = p)) ∧
        j.length = (if ∃ e ∈ r.journal, e.point = v.loc then r.journal.length else r.journal.length + 1)) ∧
    (r.mod.legacy = false → v.kind = 5 → pushes (.axstat k d) ((tget 0 r.snap.axStat v.loc).zeroExtend 64) ∧ pushes (.axpos k d) (tget 0 r.snap.axPos v.loc)) ∧
    (r.mod.legacy = false → v.kind = 4 → ∀ a, tget AccRec.empty r.snap.accs v.loc = a →
      pushes (.accN k d) (BitVec.ofNat 64 a.n) ∧ pushes (.accInv k d) (BitVec.ofNat 64 a.inv) ∧
      (a.n = 0 → pushes (.accMean k d) 0x7FF8000000000000 ∧ pushes (.accRms k d) 0x7FF8000000000000 ∧
        pushes (.accMin k d) 0x7FF8000000000000 ∧ pushes (.accMax k d) 0x7FF8000000000000 ∧
        pushes (.accMint k d) 0 ∧ pushes (.accMaxt k d) 0) ∧
      (a.n ≠ 0 → pushes (.accMean k d) (dMul (dDiv (dOfInt a.sum) (dOfInt a.n)) (accFactor a)) ∧
        pushes (.accRms k d) (dMul (wrFlt (fsqrt fmt64 (dDiv (dOfInt a.sumsq) (dOfInt a.n)).toNat)) (accFactor a)) ∧
        pushes (.accMin k d) (dMul (dOfInt a.min) (accFactor a)) ∧ pushes (.accMax k d) (dMul (dOfInt a.max) (accFactor a)) ∧
        pushes (.accMint k d) (a.start + BitVec.ofNat 64 (a.minOfs * 2 ^ a.shift)) ∧
        pushes (.accMaxt k d) (a.start + BitVec.ofNat 64 (a.maxOfs * 2 ^ a.shift))))

/-- R89, R105: NOW, ELAPSED, INTERVAL and CLOCK; and FB runs a block of the library on its instance in the run's working copy. -/
def Claim.TimeAndBlockRowsGiveTheResult : Prop :=
  ∀ (k : Fin 36) (s : State) (r : Run) (fr : Frame) (rest : List Frame), Executes s k r fr rest →
    exec (.now k) s = .next (s.past k r fr rest 1 (r.now :: fr.stack)) ∧
    exec (.interval k) s = .next (s.past k r fr rest 1 (r.interval :: fr.stack)) ∧
    exec (.clock k) s = .next (s.past k r fr rest 1 (BitVec.ofInt 64 (s.vAt (s.raw + 64)) :: fr.stack)) ∧
    (∀ x l, fr.stack = x :: l → exec (.elapsed k) s = .next (s.past k r fr rest 1 ((r.now - x) :: l))) ∧
    (∀ (d : VarIdx) (v : VarDesc) (n : Nat), r.mod.vars[d.idx]? = some v → v.kind = 6 → v.owner = r.func →
      fbInputs (v.aux % 256) = some n → n ≤ fr.stack.length →
      let x := fbRun (v.aux % 256) ⟨r.now, r.interval, v.elems⟩ r.work (v.loc / 8) (fr.stack.take n).reverse
      exec (.fb k d) s = .next (s.past k { r with work := x.1 } fr rest (3 + d.extra) (x.2.reverse ++ fr.stack.drop n)))

/-- The rows that read the snapshot and the time, journal writes and call library blocks. -/
def Obligations.ImageAndTimeRowsReadAndJournal : Prop :=
  Claim.ProcessImageRowsReadAndJournal ∧ Claim.TimeAndBlockRowsGiveTheResult

/-- R92, R93, R166, R169: an action is staged behind those the run has, while 512 entries hold them; WAIT ends the segment. -/
def Claim.ActionRowsStageAnAction : Prop :=
  ∀ (k : Fin 36) (s : State) (r : Run) (fr : Frame) (rest : List Frame), Executes s k r fr rest →
    let stages (c : Instr) (n : Nat) (l : List Quad) (a : Action) : Prop :=
      actionSize (r.actions ++ [a]) ≤ 512 → exec c s = .next (s.past k { r with actions := r.actions ++ [a] } fr rest n l)
    (∀ x l, fr.stack = x :: l → stages (.reply k) 1 l ⟨3, .i64, 7, 0, r.entry.replyTo, x, 0⟩) ∧
    (∀ (d : VarIdx) (v : VarDesc), r.mod.vars[d.idx]? = some v →
      (∀ x l, fr.stack = x :: l →
        (v.kind = 7 → stages (.post k d) (3 + d.extra) l ⟨1, .i64, 7, 0, v.loc, x, 0⟩) ∧
        (r.mod.legacy = false → v.kind = 8 → stages (.send k d) (3 + d.extra) l ⟨2, .i64, 8, 0, v.loc, x, 0⟩) ∧
        (r.mod.legacy = false → v.kind = 9 → stages (.mark k d) (3 + d.extra) l ⟨12, .i64, 9, 0, v.loc, x, 0⟩) ∧
        (r.mod.legacy = false → v.kind = 5 → ∀ c : BitVec 8, c = 0 ∨ c = 1 ∨ c = 2 ∨ c = 6 →
          stages (.axcmd k d c) (4 + d.extra) l ⟨11, .i64, 5, c.toNat, v.loc, x, 0⟩) ∧
        (r.mod.legacy = false → v.kind = 5 → stages (.axcmd k d 5) (4 + d.extra) l ⟨11, .u32, 5, 5, v.loc, BitVec.ofNat 64 (x.toNat % 2 ^ 32), 0⟩)) ∧
      (r.mod.legacy = false → v.kind = 5 → ∀ c : BitVec 8, c = 3 ∨ c = 4 →
        stages (.axcmd k d c) (4 + d.extra) fr.stack ⟨11, .i64, 5, c.toNat, v.loc, 0, 0⟩) ∧
      (v.kind = 7 → stages (.cancel k d) (3 + d.extra) fr.stack ⟨4, .i64, 7, 0, v.loc, 0, 0⟩) ∧
      (v.kind = 7 → ∀ dt x l, fr.stack = dt :: x :: l → stages (.delay k d) (3 + d.extra) l ⟨5, .i64, 7, 0, v.loc, x, dt⟩) ∧
      (v.kind = 7 → exec (.wait k d) s = .next (s.setRun k
        (some { r.next fr rest (3 + d.extra) fr.stack with phase := .waiting v.loc }))))

/-- R92, R203, R224: TXOPEN reserves the lowest free slot for the run's task and stages the open; TXADD, TXSEAL and TXDROP stage an
action on a transaction of the task; TXSTAT pushes its status. A handle that is no transaction of the task is a task fault. -/
def Claim.TransactionRowsStageAnAction : Prop :=
  ∀ (k : Fin 36) (s : State) (r : Run) (fr : Frame) (rest : List Frame), Executes s k r fr rest → r.mod.legacy = false →
    (∀ i, s.txFreeSlot = some i → actionSize r.actions + 1 ≤ 512 →
      let g := tget 0 s.txn.gens i % 1023 + 1
      Completes (.txopen k) s [Piece.collie, .txn] fun t =>
        t.run k = some (Run.next { r with actions := r.actions ++ [⟨7, .u32, 0, i + 64 * g, 0, 0, 0⟩] } fr rest 1
          (BitVec.ofNat 64 (i + 64 * g) :: fr.stack)) ∧
        t.tx i = { Txn.free with
          gen := g, ownerKind := 1, ownerId := r.entry.desc, reserved := true, state := 0, openIndex := s.headIndex } ∧
        (∀ j, j ≠ i → t.tx j = s.tx j) ∧ (∀ j, j ≠ k.val → t.core j = s.core j)) ∧
    (∀ (h : Quad) (i : Nat), s.txSlot h.toNat = some i → (s.tx i).ownerKind = 1 → (s.tx i).ownerId = r.entry.desc →
      let stages (c : Instr) (n : Nat) (l : List Quad) (a : Action) : Prop :=
        actionSize (r.actions ++ [a]) ≤ 512 → exec c s = .next (s.past k { r with actions := r.actions ++ [a] } fr rest n l)
      (∀ (d : VarIdx) (v : VarDesc) (x : Quad) (l : List Quad), r.mod.vars[d.idx]? = some v → fr.stack = x :: h :: l →
        (v.kind = 3 ∨ v.kind = 10 → stages (.txadd k d) (3 + d.extra) l ⟨8, v.ty, v.kind, h.toNat, v.loc, normCell v.ty x, 0⟩) ∧
        (v.kind = 5 → stages (.txadd k d) (3 + d.extra) l ⟨8, .i64, 5, h.toNat, v.loc, x, 0⟩)) ∧
      (∀ (x : Quad) (l : List Quad), fr.stack = x :: h :: l → stages (.txseal k) 1 l ⟨9, .t64, 0, h.toNat, 0, x, 0⟩) ∧
      (∀ l, fr.stack = h :: l →
        stages (.txdrop k) 1 l ⟨10, .u32, 0, h.toNat, 0, 0, 0⟩ ∧
        exec (.txstat k) s = .next (s.past k r fr rest 1 (BitVec.ofNat 64 (txStatus (s.tx i)) :: l)))) ∧
    (∀ (h : Quad) (l : List Quad), s.txSlot h.toNat = none → fr.stack = h :: l → ∀ c ∈ [Instr.txdrop k, Instr.txstat k],
      (taskFault k 4 s).1 = false → exec c s = .next (taskFault k 4 s).2)

/-- The rows that stage actions for the release of the run. -/
def Obligations.ActionRowsStageTheirActions : Prop :=
  Claim.ActionRowsStageAnAction ∧ Claim.TransactionRowsStageAnAction

/-- R87, R92, R103, R119: LDX and STX outside the array, a handle that is no transaction of the run's task, TXOPEN with every slot taken,
a full list of actions and a full journal are the task faults 3 to 7; where the policy ends the task, the state is the fault's. -/
def Claim.RowsRaiseTheTaskFaults : Prop :=
  ∀ (k : Fin 36) (s : State) (r : Run) (fr : Frame) (rest : List Frame), Executes s k r fr rest →
    let faults (c : Instr) (code : Nat) (n : Nat) (l : List Quad) : Prop :=
      ((taskFault k code s).1 = false → exec c s = .next (taskFault k code s).2) ∧
      ((taskFault k code s).1 = true → ∃ r', (taskFault k code s).2.run k = some r' ∧
        exec c s = .next ((taskFault k code s).2.past k r' fr rest n l))
    (∀ (d : VarIdx) (v : VarDesc), r.mod.vars[d.idx]? = some v → v.kind = 0 ∨ v.kind = 1 ∨ v.kind = 6 →
      (∀ i l, fr.stack = i :: l → v.elems ≤ i.toNat → faults (.ldx k d) 3 (3 + d.extra) (0 :: l)) ∧
      (∀ x i l, fr.stack = x :: i :: l → v.elems ≤ i.toNat → faults (.stx k d) 3 (3 + d.extra) l)) ∧
    (∀ (h : Quad), r.mod.legacy = false → (∀ i, s.txSlot h.toNat = some i → (s.tx i).ownerKind ≠ 1 ∨ (s.tx i).ownerId ≠ r.entry.desc) →
      (∀ l, fr.stack = h :: l → faults (.txdrop k) 4 1 l ∧ faults (.txstat k) 4 1 (0 :: l)) ∧
      (∀ x l, fr.stack = x :: h :: l → faults (.txseal k) 4 1 l ∧
        ∀ (d : VarIdx) (v : VarDesc), r.mod.vars[d.idx]? = some v → v.kind = 3 ∨ v.kind = 5 ∨ v.kind = 10 →
          faults (.txadd k d) 4 (3 + d.extra) l)) ∧
    (r.mod.legacy = false → s.txFreeSlot = none → actionSize r.actions + 1 ≤ 512 → faults (.txopen k) 5 1 (0 :: fr.stack)) ∧
    (512 < actionSize r.actions + 1 → (r.mod.legacy = false → faults (.txopen k) 6 1 (0 :: fr.stack)) ∧
      ∀ (d : VarIdx) (v : VarDesc) (x : Quad) (l : List Quad), r.mod.vars[d.idx]? = some v → fr.stack = x :: l →
        (v.kind = 7 → faults (.post k d) 6 (3 + d.extra) l) ∧ (r.mod.legacy = false → v.kind = 8 → faults (.send k d) 6 (3 + d.extra) l) ∧
        (r.mod.legacy = false → v.kind = 9 → faults (.mark k d) 6 (3 + d.extra) l) ∧ faults (.reply k) 6 1 l) ∧
    (r.journal.length = 512 → ∀ (d : VarIdx) (v : VarDesc) (x : Quad) (l : List Quad), r.mod.vars[d.idx]? = some v → v.kind = 3 →
      fr.stack = x :: l → (∀ e ∈ r.journal, e.point ≠ v.loc) → faults (.sto k d) 7 (3 + d.extra) l)

/-- R104, R151: a task fault counts, sets FAULTED, is recorded and posted when it is the run's first, and acts by the task's policy. -/
def Claim.TaskFaultsCountAndActByPolicy : Prop :=
  ∀ (k : Fin 36) (s : State) (r : Run) (code : Nat), s.run k = some r → r.entry.desc < 4096 →
    let d := r.entry.desc
    let t := (taskFault k code s).2
    let p := s.get (R.EXEC_t_TASK_CTRL d) F.EXEC_t_TASK_CTRL.POLICY
    t.reg (R.EXEC_t_FAULT_CNT d) = satSucc (s.reg (R.EXEC_t_FAULT_CNT d)) ∧
    t.reg R.EXEC_FAULT_CNT = satSucc (s.reg R.EXEC_FAULT_CNT) ∧
    t.flag (R.EXEC_t_TASK_CTRL d) F.EXEC_t_TASK_CTRL.FAULTED = true ∧
    (r.faulted = false → s.flag R.EXEC_EVENTS F.EXEC_EVENTS.TASK_FAULT = false →
      t.reg R.EXEC_FAULT_TASK = BitVec.ofNat 32 d ∧
      t.reg R.EXEC_FAULT_REC = BitVec.ofNat 32 (code + 256 * (r.frames.headD ⟨0, 0, [], []⟩).func) ∧
      t.reg R.EXEC_FAULT_OFFSET = BitVec.ofNat 32 (r.frames.headD ⟨0, 0, [], []⟩).pc) ∧
    (r.faulted = false → t.flag R.EXEC_EVENTS F.EXEC_EVENTS.TASK_FAULT = true) ∧
    (r.faulted = true ∨ s.flag R.EXEC_EVENTS F.EXEC_EVENTS.TASK_FAULT = true →
      t.reg R.EXEC_FAULT_TASK = s.reg R.EXEC_FAULT_TASK ∧ t.reg R.EXEC_FAULT_REC = s.reg R.EXEC_FAULT_REC ∧
      t.reg R.EXEC_FAULT_OFFSET = s.reg R.EXEC_FAULT_OFFSET) ∧
    (p ≠ 1 → p ≠ 2 → (taskFault k code s).1 = true ∧ t.run k = some { r with faulted := true } ∧
      Keeps [Piece.collie, .evlog, .block 0, .block 6] s t) ∧
    (p = 1 ∨ p = 2 → (taskFault k code s).1 = false ∧ t.run k = none ∧
      t.flag (R.EXEC_t_TASK_CTRL d) F.EXEC_t_TASK_CTRL.ENABLE = false ∧
      t.flag (R.EXEC_t_TASK_CTRL d) F.EXEC_t_TASK_CTRL.DISABLED_BY_FAULT = true) ∧
    (p = 2 → t.get R.EXEC_STATUS F.EXEC_STATUS.STATE = 2 ∧ t.get R.EXEC_STATUS F.EXEC_STATUS.STOP_CAUSE = 2)

/-- Task faults, what raises them and what each policy does. -/
def Obligations.TaskFaultsAreRaisedAndActByPolicy : Prop :=
  Claim.RowsRaiseTheTaskFaults ∧ Claim.TaskFaultsCountAndActByPolicy

/-! ### Chapters 0 and 14: accesses of bus masters -/

/-- R13, R14: a write sets the writable bits, clears the write-1-to-clear bits written as 1 and ignores the rest; a read gives the value
and clears the bits that a read clears. -/
def Claim.RegisterAccessesActByAccessCode : Prop :=
  ∀ (m : Master) (a : BitVec 40) (o : Nat) (d : RegDesc) (s : State), a.toNat / 4 * 4 = 0x20000000 + o → o < 0x10000000 →
    regLookup o = some d → d.half = 0 →
    (∀ (v : Word) (portB : Bool), ownedWrite m o v s = none → o ≠ (R.CAPT_EVENTS).addr → o ≠ (R.GLEAN_EVENTS).addr →
      exec (.registerWrite m a v portB) s = .next (s.setReg (d.reg o)
        ((s.reg (d.reg o) &&& ~~~(BitVec.ofNat 32 d.rw) ||| v &&& BitVec.ofNat 32 d.rw) &&& ~~~(v &&& BitVec.ofNat 32 d.w1c)))) ∧
    (plainlyRead o → tget none s.group (masterKey m o) = none →
      Completes (.readClear m a) s [Piece.readData, .reg o] fun t =>
        t.readData = s.valueOf d o ∧ t.reg (d.reg o) = s.reg (d.reg o) &&& ~~~(BitVec.ofNat 32 d.rc))

/-- R15, R16: a read of a low word latches the high half for its master, whose next read of the high word returns it; a write of a low word
is staged for its master until it writes the high word, and the value then takes effect whole. -/
def Claim.PairsAreReadAndWrittenWhole : Prop :=
  ∀ (m : Master) (a : BitVec 40) (o : Nat) (d h : RegDesc) (s : State), a.toNat = 0x20000000 + o → o % 4 = 0 → o < 0x0FFFFFF0 →
    regLookup o = some d → regLookup (o + 4) = some h → d.half = 1 → h.half = 2 →
    (plainlyRead o → plainlyRead (o + 4) → tget none s.group (masterKey m o) = none → tget none s.group (masterKey m (o + 4)) = none →
      (Completes (.readLoLatch m a) s [Piece.readData, .latch] fun t => t.readData = s.valueOf d o ∧
        ∀ u : State, u.latch = t.latch → tget none u.group (masterKey m (o + 4)) = none →
          Completes (.readClear m (a + 4)) u [Piece.readData, .latch] fun w =>
            w.readData = s.valueOf h (o + 4) ∧ tget none w.latch (masterKey m o) = none) ∧
      (tget none s.latch (masterKey m o) = none →
        Completes (.readClear m (a + 4)) s [Piece.readData] fun w => w.readData = s.valueOf h (o + 4))) ∧
    (plainlyWritten (o + 4) → d.rw ≠ 0 → h.rw ≠ 0 → ∀ lo hi : Word,
      (Completes (.writeLoStage m a lo) s [Piece.stage] fun t =>
        tget none t.stage (masterKey m o) = some (lo &&& BitVec.ofNat 32 d.rw) ∧
        (∀ k, k ≠ masterKey m o → tget none t.stage k = tget none s.stage k) ∧
        ∀ u : State, u.stage = t.stage →
          Completes (.writeHiCommit m (a + 4) hi) u [Piece.stage, .reg o, .reg (o + 4)] fun w =>
            w.reg (d.reg o) = lo &&& BitVec.ofNat 32 d.rw ∧ w.reg (h.reg (o + 4)) = hi &&& BitVec.ofNat 32 h.rw ∧
            tget none w.stage (masterKey m o) = none) ∧
      (tget none s.stage (masterKey m o) = none → liveRead s o = none → d.wo = 0 →
        Completes (.writeHiCommit m (a + 4) hi) s [Piece.stage, .reg (o + 4)] fun w =>
          w.reg (h.reg (o + 4)) = hi &&& BitVec.ofNat 32 h.rw))

/-- Single registers act by their access codes, pairs are read and written whole. -/
def Obligations.RegisterAccessesActByTheirCodes : Prop :=
  Claim.RegisterAccessesActByAccessCode ∧ Claim.PairsAreReadAndWrittenWhole

/-- R531: an alias write sets or clears the bits written as 1 in the word at the bank address, and no other byte; one that is narrower or
unaligned, or that the bank turns away, is a violation with its reason. -/
def Claim.AliasWritesSetAndClearBits : Prop :=
  ∀ (m : Master) (a : BitVec 40) (n : Fin 9) (v : Quad) (s : State),
    let w := a.toNat / 8 * 8
    let old : Quad := BitVec.ofNat 64 (imgNat s.mem w 8)
    let bits : Quad := BitVec.ofNat 64 (v.toNat % 2 ^ (8 * n.val) * 2 ^ (8 * (a.toNat % 8)))
    let why := bankFault s (ownerOf m s) a.toNat true
    (n = 4 ∨ n = 8 → a.toNat % n.val = 0 → why = 0 →
      plainWord s w → w ∉ s.gran.poison →
      (∀ k, bankOf a.toNat = some k → s.flag (R.MEM_k_OWNER k) F.MEM_k_OWNER.DRAINING = false) →
      exec (.aliasSetWrite m a n v false) s = .next (s.memWrite w (leBytes 8 (old ||| bits).toNat)) ∧
      exec (.aliasClearWrite m a n v false) s = .next (s.memWrite w (leBytes 8 (old &&& ~~~bits).toNat))) ∧
    ((n ≠ 4 ∧ n ≠ 8) ∨ a.toNat % n.val ≠ 0 → ∀ c ∈ [Instr.aliasSetWrite m a n v false, Instr.aliasClearWrite m a n v false],
      exec c s = .next (violation 5 a.toNat s)) ∧
    (n = 4 ∨ n = 8 → a.toNat % n.val = 0 → why ≠ 0 →
      ∀ c ∈ [Instr.aliasSetWrite m a n v false, Instr.aliasClearWrite m a n v false],
      exec c s = .next (violation why a.toNat s))

/-- R529, R530, R532, R533: a write of a word to an address of the banks: by the owner it lands in memory; any other is a violation with
reason OWNER, SECURE or UNMAPPED; a poisoned word keeps out a part of it; and a write of port B that meets it is dropped and counted. -/
def Claim.BankWritesObeyOwnersAndWindows : Prop :=
  ∀ (m : Master) (a : BitVec 40) (v : Word) (s : State), 0x10000000 ≤ a.toNat → a.toNat < 0x14000000 →
    let x := a.toNat / 4 * 4
    let why := bankFault s (ownerOf m s) x true
    (why ≠ 0 → exec (.registerWrite m a v false) s = .next (violation why x s)) ∧
    (bankOf x = none → why = 4) ∧
    (∀ k, bankOf x = some k → s.inSecure x = true → why = 2) ∧
    (∀ k, bankOf x = some k → s.inSecure x = false → s.flag (R.MEM_k_CFG k) F.MEM_k_CFG.OWNED = true →
      s.get (R.MEM_k_OWNER k) F.MEM_k_OWNER.OWNER ≠ ownerOf m s → why = 1) ∧
    (∀ k, bankOf x = some k → why = 0 → s.flag (R.MEM_k_OWNER k) F.MEM_k_OWNER.DRAINING = false →
      (x / 8 * 8 ∈ s.gran.poison → exec (.registerWrite m a v false) s = .next s) ∧
      (x / 8 * 8 ∉ s.gran.poison →
        plainWord s (x / 8 * 8) → Completes (.registerWrite m a v false) s [Piece.mem] fun t =>
          t.memRead x 4 = leBytes 4 v.toNat ∧ ∀ b, b < x ∨ x + 4 ≤ b → tget 0 t.mem b = tget 0 s.mem b)) ∧
    (∃ t, exec (.registerWrite m a v false) s = .next t ∧ exec (.registerWrite m a v true) s = .next
      (if bankOf x = some 7 ∧ why = 0 then (t.incSat R.MEM_COLLIDE_CNT).raise R.MEM_EVENTS F.MEM_EVENTS.COLLIDED else t))

/-- R527, R529, R530: what a violation leaves: the count, the address and reason of the last one, and the event. -/
def Claim.ViolationsAreCountedAndRecorded : Prop :=
  ∀ (why a : Nat) (s : State), why < 8 → a < 2 ^ 40 →
    (violation why a s).reg R.MEM_VIOL_CNT = satSucc (s.reg R.MEM_VIOL_CNT) ∧
    (violation why a s).reg R.MEM_VIOL_ADDR_LO = BitVec.ofNat 32 a ∧
    (violation why a s).reg R.MEM_VIOL_ADDR_HI = BitVec.ofNat 32 (a / 2 ^ 32 + 256 * why) ∧
    (violation why a s).flag R.MEM_EVENTS F.MEM_EVENTS.VIOLATION = true ∧
    Keeps ([R.MEM_VIOL_CNT.piece, R.MEM_VIOL_ADDR_LO.piece, R.MEM_VIOL_ADDR_HI.piece, R.MEM_EVENTS.piece] ++ noted) s (violation why a s)

/-- Alias writes, owned and secure banks, and violations. -/
def Obligations.BankAccessesObeyTheirRules : Prop :=
  Claim.AliasWritesSetAndClearBits ∧ Claim.BankWritesObeyOwnersAndWindows ∧ Claim.ViolationsAreCountedAndRecorded

/-- R455: an access to an address of the register space that holds no register. -/
def Obligations.UnmappedAccessesAreRecorded : Prop :=
  ∀ (m : Master) (a : BitVec 40) (w : Option Word) (s : State), 0x20000000 ≤ a.toNat → a.toNat < 0x30000000 →
    regLookup (a.toNat / 4 * 4 - 0x20000000) = none →
    Completes (.unmappedAccess m a w) s
      ([Piece.readData, R.SYS_UNMAPPED_ADDR_LO.piece, R.SYS_UNMAPPED_ADDR_HI.piece, R.SYS_UNMAPPED_CNT.piece, R.SYS_EVENTS.piece] ++ noted)
      fun t => (w = none → t.readData = 0) ∧ (w ≠ none → t.readData = s.readData) ∧
        t.reg64 R.SYS_UNMAPPED_ADDR_LO R.SYS_UNMAPPED_ADDR_HI = BitVec.ofNat 64 (a.toNat / 4 * 4) ∧
        t.reg R.SYS_UNMAPPED_CNT = satSucc (s.reg R.SYS_UNMAPPED_CNT) ∧ t.flag R.SYS_EVENTS F.SYS_EVENTS.UNMAPPED = true

/-- R452: a hardware source sets its event bit and nothing else of the register; the log grows by an entry, or an entry of the same bit
counts one more; the log keeps 1,024 entries. -/
def Obligations.EventsAreSetAndNoted : Prop :=
  ∀ (r : Reg) (f : Fld) (s : State), f.width = 1 → f.lo < 32 → s.evlog.length ≤ 1024 → r.addr ≠ (R.SYS_EVENTS).addr →
    r.addr ≠ (R.SYS_EVLOG_HEAD).addr → r.addr ≠ (R.SYS_EVLOG_LOST).addr →
    (s.raise r f).flag r f = true ∧
    (∀ g : Fld, g.lo + g.width ≤ f.lo ∨ f.lo < g.lo → g.lo + g.width ≤ 32 → (s.raise r f).get r g = s.get r g) ∧
    (s.raise r f).evlog.length ≤ 1024 ∧
    (∃ e ∈ (s.raise r f).evlog, e.block = r.addr / 65536 ∧ e.bit = f.lo ∧ e.reg = r.addr % 65536 / 4) ∧
    Keeps (r.piece :: noted) s (s.raise r f)

/-! ### Chapter 2: time, headlands and HEADSYNC -/

/-- R38, R39: a write of TIME_RATE_ADJ keeps V continuous: the accumulated term goes into OFFSET and RAW_REF takes RAW; the value is held
to the limit, and one beyond it is reported and counted. -/
def Obligations.RateAdjIsClampedAndKeepsTheTerm : Prop :=
  ∀ (v : Word) (s : State),
    Completes (.rateAdjWrite v) s ([R.TIME_OFFSET_LO.piece, R.TIME_OFFSET_HI.piece, R.TIME_RAW_REF_LO.piece, R.TIME_RAW_REF_HI.piece,
        R.TIME_RATE_ADJ.piece, R.TIME_STATUS.piece, R.TIME_RATE_CLAMP_CNT.piece, Piece.ptp] ++ noted) fun t =>
      t.ptp = { s.ptp with past := t.ptp.past } ∧ t.reg64 R.TIME_RAW_REF_LO R.TIME_RAW_REF_HI = s.raw ∧
      t.reg64 R.TIME_OFFSET_LO R.TIME_OFFSET_HI =
        BitVec.ofInt 64 ((s.reg64 R.TIME_OFFSET_LO R.TIME_OFFSET_HI).toInt + s.rateTerm s.raw) ∧
      (t.reg R.TIME_RATE_ADJ).toInt = max (-549755813) (min 549755813 v.toInt) ∧
      (v.toInt < -549755813 ∨ 549755813 < v.toInt → t.flag R.TIME_STATUS F.TIME_STATUS.RATE_CLAMPED = true ∧
        t.reg R.TIME_RATE_CLAMP_CNT = satSucc (s.reg R.TIME_RATE_CLAMP_CNT)) ∧
      (-549755813 ≤ v.toInt → v.toInt ≤ 549755813 → t.reg R.TIME_STATUS = s.reg R.TIME_STATUS ∧
        t.reg R.TIME_RATE_CLAMP_CNT = s.reg R.TIME_RATE_CLAMP_CNT ∧ t.evlog = s.evlog)

/-- R40, R41, R43, R48: OFFSET is written while the clock is not seated and the controller is stopped, and a running generator is
re-aligned; SEAT seats it once; a read of TIME_VNOW_LO samples V and RAW for its master. -/
def Claim.TheClockIsSetSeatedAndRead : Prop :=
  ∀ (m : Master) (hi : Word) (s : State),
    let seated := s.flag R.TIME_STATUS F.TIME_STATUS.SEATED
    let low := (tget none s.stage (masterKey m (R.TIME_OFFSET_LO).addr)).getD (s.reg R.TIME_OFFSET_LO)
    (seated = false → s.ctrlStopped = true →
      Completes (.offsetWrite m hi) s ([Piece.stage, .head, .ptp, R.TIME_OFFSET_LO.piece, R.TIME_OFFSET_HI.piece, R.TIME_RAW_REF_LO.piece,
          R.TIME_RAW_REF_HI.piece, R.HEAD_STATUS.piece] ++ noted) fun t =>
        t.reg64 R.TIME_OFFSET_LO R.TIME_OFFSET_HI = pair low hi ∧ t.reg64 R.TIME_RAW_REF_LO R.TIME_RAW_REF_HI = s.raw ∧
        tget none t.stage (masterKey m (R.TIME_OFFSET_LO).addr) = none ∧
        (s.headRun = false → t.head = s.head ∧ t.reg R.HEAD_STATUS = s.reg R.HEAD_STATUS) ∧
        t.ptp = { s.ptp with past := t.ptp.past } ∧
        (s.headRun = true → t.flag R.HEAD_STATUS F.HEAD_STATUS.REALIGNED = true ∧
          t.head.nextShift = (if s.flag R.HEAD_STATUS F.HEAD_STATUS.RUNNING then (s.reg R.HEAD_SHIFT).toInt else s.head.nextShift) ∧
          t.head.nextActual = t.head.nextB * s.pg + t.head.nextShift ∧
          t.head.windows = s.windowFor t.head.nextB t.head.nextActual t.head.nextShift)) ∧
    (seated = true ∨ s.ctrlStopped = false →
      Completes (.offsetWrite m hi) s ([Piece.stage, R.TIME_STATUS.piece] ++ noted) fun t =>
        t.flag R.TIME_STATUS F.TIME_STATUS.OFFSET_REFUSED = true) ∧
    (seated = false →
      Completes .seat s ([Piece.ptp, R.TIME_STATUS.piece, R.TIME_SEAT_V_LO.piece, R.TIME_SEAT_V_HI.piece, R.PTP_STATUS.piece]) fun t =>
        t.flag R.TIME_STATUS F.TIME_STATUS.SEATED = true ∧ t.reg64 R.TIME_SEAT_V_LO R.TIME_SEAT_V_HI = s.vT64 ∧
        (s.ctrlRunning = true → t.flag R.TIME_STATUS F.TIME_STATUS.SEAT_RATE_ONLY = true) ∧
        (s.ptp.waitSeat = true → t.ptp.waitSeat = false ∧
          (s.get R.PTP_STATUS F.PTP_STATUS.SERVO = 2 → t.get R.PTP_STATUS F.PTP_STATUS.SERVO = 3))) ∧
    (seated = true → exec .seat s = .next (s.raise R.TIME_STATUS F.TIME_STATUS.SEAT_REFUSED)) ∧
    (Completes (.vnowRead m) s [Piece.readData, .latch, .group] fun t => t.readData = lo32 s.vT64 ∧
      ∀ u : State, u.latch = t.latch → u.group = t.group → tget none u.group (masterKey m (R.TIME_VNOW_HI).addr) = none →
        ∀ x ∈ [(R.TIME_VNOW_HI, hi32 s.vT64), (R.TIME_VRAW_LO, lo32 s.raw), (R.TIME_VRAW_HI, hi32 s.raw)],
          ∃ w, exec (.readClear m (BitVec.ofNat 40 (0x20000000 + x.1.addr))) u = .next w ∧ w.readData = x.2)

/-- R44, R51, R69, R71, R588, R666: the settings of the generator; what is out of range, or written while it runs, is refused. -/
def Claim.GeneratorSettingsAreChecked : Prop :=
  ∀ (v : Word) (s : State),
    let refused (c : Instr) : Prop := exec c s = .next (s.raise R.HEAD_STATUS F.HEAD_STATUS.CFG_REFUSED)
    (s.headRun = false → 64 ≤ v.toNat → v.toNat ≤ 16384 → farmPeriodOk v s = true →
      exec (.headPeriodWrite v) s = .next (s.setReg R.HEAD_PERIOD v)) ∧
    (s.headRun = true ∨ v.toNat < 64 ∨ 16384 < v.toNat ∨ farmPeriodOk v s = false → refused (.headPeriodWrite v)) ∧
    exec (.classCfgWrite 0 v) s = .next s ∧
    (∀ n : Fin 4, n ≠ 0 →
      (s.headRun = false → fldOf F.HEAD_n_CLASS_CFG.PHASE v < fldOf F.HEAD_n_CLASS_CFG.K_M1 v + 1 → farmClassOk n v s = true →
        exec (.classCfgWrite n v) s = .next (s.setReg (R.HEAD_n_CLASS_CFG n) (v &&& 0x83FF03FF))) ∧
      (s.headRun = true ∨ fldOf F.HEAD_n_CLASS_CFG.K_M1 v + 1 ≤ fldOf F.HEAD_n_CLASS_CFG.PHASE v ∨ farmClassOk n v s = false →
        refused (.classCfgWrite n v))) ∧
    (fldOf F.HEAD_SYNC_CFG.SYNC_PHASE v < fldOf F.HEAD_SYNC_CFG.DIV_M1 v + 1 →
      exec (.headSyncCfgWrite v) s = .next (s.setReg R.HEAD_SYNC_CFG (v &&& 0x13FF03FF))) ∧
    (fldOf F.HEAD_SYNC_CFG.DIV_M1 v + 1 ≤ fldOf F.HEAD_SYNC_CFG.SYNC_PHASE v → refused (.headSyncCfgWrite v)) ∧
    exec (.headSyncCompWrite v) s =
      .next (s.setReg R.HEAD_SYNC_COMP (BitVec.ofInt 32 (max (-65536) (min 65535 v.toInt))))

/-- R46, R573, R592: RUN set starts the generator at the first base index whose time lies at least a period ahead, on a follower under the
lead's shift; RUN cleared stops it while the controller is stopped; a change that is refused changes nothing of the generator. -/
def Claim.RunStartsAndStopsTheGenerator : Prop :=
  ∀ (v : Word) (s : State),
    let regs := [R.HEAD_CTRL.piece, R.HEAD_STATUS.piece, R.HEAD_TARGET.piece, R.HEAD_SYNC_MISS.piece]
    let sh : Int := if s.isFollower then s.head.leadShift else 0
    (s.headRun = false → s.leadFollowed = true → s.resets.loaded = true → 0 < s.pg →
      Completes (.runSet v) s ([Piece.head] ++ regs ++ (List.range 4).map fun n => (R.HEAD_n_COUNT n).piece) fun t =>
        t.headRun = true ∧ t.head.armed = true ∧ t.head.nextShift = sh ∧ t.head.nextActual = t.head.nextB * s.pg + sh ∧
        (sh ≤ s.vNow → s.vNow + s.pg ≤ t.head.nextActual ∧ t.head.nextActual < s.vNow + 2 * s.pg) ∧
        t.reg R.HEAD_TARGET = BitVec.ofInt 32 sh ∧ t.head.classSeen = 0 ∧ ∀ n < 4, t.reg (R.HEAD_n_COUNT n) = 0) ∧
    (s.headRun = false → s.leadFollowed = true → s.resets.loaded = false →
      Completes (.runSet v) s ([Piece.head] ++ regs) fun t => t.headRun = false ∧ t.head.armed = s.head.armed) ∧
    (s.headRun = true → s.leadFollowed = true → s.ctrlStopped = true →
      Completes (.runClear v) s ([Piece.head, .analog] ++ regs) fun t =>
        t.headRun = false ∧ t.head.armed = false ∧ t.flag R.HEAD_STATUS F.HEAD_STATUS.RUNNING = false ∧ t.head.windows = []) ∧
    (s.headRun = true → s.leadFollowed = false ∨ s.ctrlStopped = false →
      exec (.runClear v) s = .next (s.raise R.HEAD_STATUS F.HEAD_STATUS.CFG_REFUSED)) ∧
    (s.headRun = false → s.leadFollowed = false →
      exec (.runSet v) s = .next (s.raise R.HEAD_STATUS F.HEAD_STATUS.CFG_REFUSED))

/-- The clock is set, seated and read; the generator takes legal settings, starts and stops. -/
def Obligations.TheClockAndTheGeneratorAreSet : Prop :=
  Claim.TheClockIsSetSeatedAndRead ∧ Claim.GeneratorSettingsAreChecked ∧ Claim.RunStartsAndStopsTheGenerator

/-- R59, R60: what a write of HEAD_CTRL does to the tracking, RUN written as it stands. -/
def Claim.SyncEnableDisableAndRearm : Prop :=
  ∀ (v : Word) (s : State), (fldOf F.HEAD_CTRL.RUN v = 1 ↔ s.headRun = true) →
    let regs := [R.HEAD_CTRL.piece, R.HEAD_STATUS.piece, R.HEAD_TARGET.piece, R.HEAD_SYNC_MISS.piece]
    let state (t : State) := t.get R.HEAD_STATUS F.HEAD_STATUS.SYNC_STATE
    let target (t : State) : Prop :=
      t.reg R.HEAD_TARGET = BitVec.ofInt 32 s.head.nextShift ∧ t.head.target = s.head.nextShift ∧ t.head.pendTargets = []
    let armed (c : Instr) : Prop := Completes c s ([Piece.head] ++ regs) fun t =>
      t.flag R.HEAD_CTRL F.HEAD_CTRL.SYNC_EN = true ∧ state t = (if s.isFollower then state s else 1) ∧
      t.get R.HEAD_SYNC_MISS F.HEAD_SYNC_MISS.MISS_COUNT = 0 ∧ target t ∧ t.head.firstEdge = true ∧
      t.head.nextShift = s.head.nextShift ∧ t.reg R.HEAD_SHIFT = s.reg R.HEAD_SHIFT
    (s.flag R.HEAD_CTRL F.HEAD_CTRL.SYNC_EN = false → armed (.syncEnable v)) ∧
    (fldOf F.HEAD_CTRL.SYNC_EN v = 1 → armed (.syncRearm v)) ∧
    (fldOf F.HEAD_CTRL.SYNC_EN v = 0 → s.flag R.HEAD_CTRL F.HEAD_CTRL.SYNC_EN = false →
      Completes (.syncRearm v) s [] fun t => state t = state s) ∧
    (s.flag R.HEAD_CTRL F.HEAD_CTRL.SYNC_EN = true →
      Completes (.syncDisable v) s [Piece.head, R.HEAD_CTRL.piece, R.HEAD_STATUS.piece, R.HEAD_TARGET.piece] fun t =>
        t.flag R.HEAD_CTRL F.HEAD_CTRL.SYNC_EN = false ∧ state t = (if s.isFollower then state s else 0) ∧ target t ∧
        t.head.nextShift = s.head.nextShift)

/-- R54 to R56, R58: an edge of the set polarity while tracking is used in the window nearest to it: its error is recorded, and it loses
sync, leaves the target within the deadband, or moves it; an edge in no free window is stray; one that may belong to a window not yet fixed
waits for it (assumption 220, the model's reading). -/
def Claim.HeadsyncEdgesMoveTheTargetOrLoseSync : Prop :=
  ∀ (te : Quad) (s : State), s.get R.HEAD_STATUS F.HEAD_STATUS.SYNC_STATE = 1 → s.isFollower = false →
    let falling := s.flag R.HEAD_SYNC_CFG F.HEAD_SYNC_CFG.FALLING
    let tv := s.vAt (te + (s.reg R.HEAD_SYNC_COMP).signExtend 64)
    exec (.headsyncEdge te (!falling)) s = .next (s.advanceTo (te + 64)) ∧
    (s.edgeEarly tv = true → Completes (.headsyncEdge te falling) s [Piece.raw, .head] fun t =>
      t.head = { s.head with early := s.head.early ++ [tv] }) ∧
    (s.edgeEarly tv = false → ∀ w, windowOf s.pg tv s.head.windows = some w → w.used = false →
      let e := tv - w.actual
      let t' := w.shift + e
      Completes (.headsyncEdge te falling) s ([Piece.raw, .head, R.HEAD_SYNC_MISS.piece, R.HEAD_SYNC_ERR.piece, R.HEAD_TARGET.piece,
          R.HEAD_STATUS.piece, R.HEAD_SYNC_LOST_CNT.piece] ++ noted) fun t =>
        t.reg R.HEAD_SYNC_ERR = BitVec.ofInt 32 e ∧ t.get R.HEAD_SYNC_MISS F.HEAD_SYNC_MISS.MISS_COUNT = 0 ∧
        t.head.firstEdge = false ∧ (∀ x ∈ t.head.windows, x.index = w.index → x.used = true) ∧
        (256 * (s.reg R.HEAD_PERIOD).toNat < t'.natAbs ∨
          s.head.firstEdge = false ∧ (s.syncDiv : Int) * s.pSlew < ((t' - (s.reg R.HEAD_TARGET).toInt).natAbs : Int) →
          t.get R.HEAD_STATUS F.HEAD_STATUS.SYNC_STATE = 2 ∧ t.flag R.HEAD_STATUS F.HEAD_STATUS.SYNC_LOST = true ∧
          t.get R.HEAD_STATUS F.HEAD_STATUS.LOST_REASON = (if 256 * (s.reg R.HEAD_PERIOD).toNat < t'.natAbs then 1 else 2) ∧
          t.reg R.HEAD_SYNC_LOST_CNT = satSucc (s.reg R.HEAD_SYNC_LOST_CNT) ∧
          t.reg R.HEAD_TARGET = BitVec.ofInt 32 s.head.nextShift) ∧
        (t'.natAbs ≤ 256 * (s.reg R.HEAD_PERIOD).toNat → s.head.firstEdge = true ∨
          ((t' - (s.reg R.HEAD_TARGET).toInt).natAbs : Int) ≤ (s.syncDiv : Int) * s.pSlew →
          t.reg R.HEAD_STATUS = s.reg R.HEAD_STATUS ∧
          t.reg R.HEAD_TARGET = (if (t' - (s.reg R.HEAD_TARGET).toInt).natAbs ≤ (s.reg R.HEAD_SYNC_DEADBAND).toNat then
            s.reg R.HEAD_TARGET else BitVec.ofInt 32 t'))) ∧
    (s.edgeEarly tv = false → (∀ w, windowOf s.pg tv s.head.windows = some w → w.used = true) →
      Completes (.headsyncEdge te falling) s [Piece.raw, R.HEAD_SYNC_STRAY.piece] fun t =>
        t.reg R.HEAD_SYNC_STRAY = satSucc (s.reg R.HEAD_SYNC_STRAY))

/-- R55, R58: the oldest window closes; without a used edge while tracking it is a miss, and MISS_LIMIT misses lose sync. -/
def Claim.HeadsyncWindowsCloseAsMisses : Prop :=
  ∀ (w : SyncWindow) (ws : List SyncWindow) (s : State), s.head.windows = w :: ws → s.isFollower = false →
    let n := min 15 (s.get R.HEAD_SYNC_MISS F.HEAD_SYNC_MISS.MISS_COUNT + 1)
    let limit := s.get R.HEAD_SYNC_MISS F.HEAD_SYNC_MISS.MISS_LIMIT
    let tracks := s.get R.HEAD_STATUS F.HEAD_STATUS.SYNC_STATE = 1
    (w.used = true ∨ ¬tracks → Completes .headsyncWindowClose s [Piece.raw, .head] fun t => t.head = { s.head with windows := ws }) ∧
    (w.used = false → tracks → n < limit → Completes .headsyncWindowClose s [Piece.raw, .head, R.HEAD_SYNC_MISS.piece] fun t =>
      t.head = { s.head with windows := ws } ∧ t.get R.HEAD_SYNC_MISS F.HEAD_SYNC_MISS.MISS_COUNT = n) ∧
    (w.used = false → tracks → limit ≤ n → Completes .headsyncWindowClose s ([Piece.raw, .head, R.HEAD_SYNC_MISS.piece,
        R.HEAD_STATUS.piece, R.HEAD_SYNC_LOST_CNT.piece, R.HEAD_TARGET.piece] ++ noted) fun t =>
      t.head.windows = ws ∧ t.get R.HEAD_STATUS F.HEAD_STATUS.SYNC_STATE = 2 ∧ t.get R.HEAD_STATUS F.HEAD_STATUS.LOST_REASON = 3 ∧
      t.flag R.HEAD_STATUS F.HEAD_STATUS.SYNC_LOST = true ∧ t.reg R.HEAD_SYNC_LOST_CNT = satSucc (s.reg R.HEAD_SYNC_LOST_CNT) ∧
      t.reg R.HEAD_TARGET = BitVec.ofInt 32 s.head.nextShift)

/-- HEADSYNC is enabled, follows its edges, and loses sync without them. -/
def Obligations.HeadsyncFollowsItsEdges : Prop :=
  Claim.SyncEnableDisableAndRearm ∧ Claim.HeadsyncEdgesMoveTheTargetOrLoseSync ∧ Claim.HeadsyncWindowsCloseAsMisses

/-! ### Chapters 1 and 2: the cycle of a headland -/

/-- R45, R50, R52, R57: a headland is recorded with the classes that fall on it, and opens the next interval, whose length is the base
period and a change of shift of at most P/32; without a running generator there is none. -/
def Claim.HeadlandsAreRecordedAndOpenTheNextInterval : Prop :=
  ∀ s : State,
    (s.head.armed = false → exec .headland s = .next s) ∧
    (s.head.armed = true →
      Completes .headland s ([Piece.raw, .head, .exec, .farm, .field, .inputs, .quals, .collie, .txn, .glean, .analog, .pulses, .motion, .img,
          .gran, .joa, .resets, .free, .block 1, .block 3, .block 4, .block 5, .block 6, .block 7, .block 8, .block 11, .block 14, .block 17,
          .block 18, .block 23, .block 28, .block 32] ++ noted)
        fun t =>
        let d := t.head.nextShift - s.head.nextShift
        t.raw = (s.advanceToV s.head.nextActual).raw ∧ t.headRaw = t.raw ∧
        t.reg64 R.HEAD_INDEX_LO R.HEAD_INDEX_HI = BitVec.ofNat 64 s.head.nextB ∧ t.headV = BitVec.ofInt 64 s.head.nextActual ∧
        t.reg R.HEAD_SHIFT = BitVec.ofInt 32 s.head.nextShift ∧ t.flag R.HEAD_STATUS F.HEAD_STATUS.RUNNING = true ∧
        t.head.nextB = s.head.nextB + 1 ∧ t.head.nextActual = s.head.nextActual + s.pg + d ∧ -s.pSlew ≤ d ∧ d ≤ s.pSlew ∧
        t.head.sealDue = true ∧ t.head.tasksDue = true ∧ t.head.switchDue = true ∧ t.head.dacDue = true ∧
        ∀ n, n < 4 →
          natBit t.head.classDue n = s.classAt n s.head.nextB ∧
          (s.classAt n s.head.nextB = true → t.reg (R.HEAD_n_COUNT n) = s.reg (R.HEAD_n_COUNT n) + 1 ∧
            t.reg64 (R.HEAD_n_LAST_V_LO n) (R.HEAD_n_LAST_V_HI n) = BitVec.ofInt 64 s.head.nextActual ∧
            t.reg64 (R.HEAD_n_INTERVAL_LO n) (R.HEAD_n_INTERVAL_HI n) =
              (if natBit s.head.classSeen n then
                BitVec.ofInt 64 s.head.nextActual - s.reg64 (R.HEAD_n_LAST_V_LO n) (R.HEAD_n_LAST_V_HI n)
              else BitVec.ofNat 64 (s.classK n * s.pg))) ∧
          (s.classAt n s.head.nextB = false → t.reg (R.HEAD_n_COUNT n) = s.reg (R.HEAD_n_COUNT n)))

/-- R25, R121: the snapshot of a headland is the last of those kept: the input image at its grain, under the forces; and the pulse-catch
latches of the classes that are due are cleared, all others kept. -/
def Claim.SnapshotsHoldTheInputImage : Prop :=
  ∀ s : State,
    Keeps [Piece.collie, .pulses] s (snapshotCut s) ∧
    (∃ (x : Snapshot) (m : Tbl Byte), (snapshotCut s).collie.snaps.getLast? = some x ∧
      x.index = s.headIndex ∧ x.v = s.headV ∧ x.classes = s.head.classDue ∧
      x.vals = s.inputForces.foldl (fun m (r, t, v) => imgWrite m r t v) m ∧
      (∀ i, i < 192 → tget 0 m i = if s.level i then 1 else tget 0 s.inputs i) ∧
      (∀ a, 192 ≤ a → a < 6 * 2 ^ 32 → tget 0 m a = tget 0 s.inputs a) ∧
      (∀ n, n < 64 → tget 0 x.axPos n = s.reg64 (R.AXIS_n_POS_LO n) (R.AXIS_n_POS_HI n) ∧
        tget 0 x.axVel n = s.reg64 (R.AXIS_n_VEL_LO n) (R.AXIS_n_VEL_HI n))) ∧
    (∀ k, tget 0 (snapshotCut s).pulses k = if natBit s.head.classDue (k / 192) then 0 else tget 0 s.pulses k)

/-- R31, R32, R53, R126, R262, R595: 64 grains after a headland or a controller stop, whichever of those due lies earlier, the live image is
sealed; at 128 grains the pins switch to the sealed image and the DACs load its codes; each once. -/
def Claim.SealedImagesReachPinsAndDacs : Prop :=
  ∀ (s : State) (g : Quad),
    (nextDue s.head.sealDue s.headRaw s.head.safeSeal = some g →
      Completes .liveImageSeal s ([Piece.raw, .img, .head, .field, .txn, .farm, .resets, .block 6, .block 17] ++ noted) fun t =>
        t.img = { s.img with sealed := s.img.live } ∧ t.raw = (s.advanceTo (g + 64)).raw ∧
        t.head = { s.head with
          sealDue := s.head.sealDue && decide (g ≠ s.headRaw)
          safeSeal := if s.head.safeSeal = some g then none else s.head.safeSeal } ∧
        (s.head.safeSeal = some g → t.flag R.EXEC_STATUS F.EXEC_STATUS.SAFE_OUT = true)) ∧
    (s.head.sealDue = false → s.head.safeSeal = none → exec .liveImageSeal s = .next s) ∧
    (nextDue (s.head.switchDue && s.headlandServed) s.headRaw (if s.head.safeSeal.isNone then s.head.safeSwitch else none) = some g →
      Completes .outputSwitch s [Piece.raw, .img, .head] fun t =>
        t.raw = (s.advanceTo (g + 128)).raw ∧ t.img = { s.img with balls := t.img.balls } ∧
        t.head = { s.head with
          switchDue := s.head.switchDue && decide (g ≠ s.headRaw)
          safeSwitch := if s.head.safeSwitch = some g then none else s.head.safeSwitch } ∧
        ∀ i, tget 0 t.img.balls i =
          if i < 192 ∧ s.drivenPin i = true then tget 0 s.img.sealed i else tget 0 s.img.balls i) ∧
    (s.head.switchDue = false ∨ s.head.sealDue = true ∨ s.head.tasksDue = true →
      s.head.safeSeal.isSome = true ∨ s.head.safeSwitch = none → exec .outputSwitch s = .next s) ∧
    (nextDue (s.head.dacDue && !s.head.sealDue) s.headRaw (if s.head.safeSeal.isNone then s.head.safeDac else none) = some g →
      Completes .dacLoad s ([Piece.raw, .head] ++ (List.range 32).map fun n => (R.DAC_n_CODE n).piece) fun t =>
        t.raw = (s.advanceTo (g + 128)).raw ∧
        t.head = { s.head with
          dacDue := s.head.dacDue && decide (g ≠ s.headRaw)
          safeDac := if s.head.safeDac = some g then none else s.head.safeDac } ∧
        ∀ n, n < 32 → t.reg (R.DAC_n_CODE n) = BitVec.ofNat 32 (min 65535 (dacCode s.img.sealed n))) ∧
    (s.head.dacDue = false ∨ s.head.sealDue = true → s.head.safeSeal.isSome = true ∨ s.head.safeDac = none →
      exec .dacLoad s = .next s)

/-- R32, R122, R160, R602: after the seal, from 96 grains after a headland, the enabled cyclic tasks of the classes due become ready while the
controller runs, once. -/
def Claim.TasksBecomeReadyAfterTheSeal : Prop :=
  ∀ s : State, 
    (s.head.tasksDue = true → s.head.sealDue = false →
      Completes .tasksReady s [Piece.raw, .head, .collie, .block 4] fun t =>
        t.head = { s.head with tasksDue := false } ∧ t.raw = (s.advanceTo (s.headRaw + 96)).raw ∧
        (s.ctrlRunning = false ∨ s.standby = true → Keeps [Piece.raw, .head] s t) ∧
        (s.ctrlRunning = true → s.standby = false →
          ∀ n d, (n, d) ∈ s.image.tasks → s.desc n = d → d.kind = 1 → d.cls < 4 → d.home < 4 → natBit s.head.classDue d.cls = true →
            s.taskEnabled n = true → (s.task n).st = 0 → n ∉ s.collie.cancels.2 →
            (t.task n).st = 1 ∧ (t.task n).due = some (s.headIndex, s.headRaw) ∧
            ∃ e ∈ t.readyList d.home d.prio, e.desc = n ∧ e.snapIndex = some s.headIndex ∧ e.readyV = s.headV)) ∧
    (s.head.tasksDue = false ∨ s.head.sealDue = true → exec .tasksReady s = .next s)

/-- What a headland records, snapshots, seals and switches. -/
def Obligations.HeadlandsOpenIntervalsAndCycles : Prop :=
  Claim.HeadlandsAreRecordedAndOpenTheNextInterval ∧ Claim.SnapshotsHoldTheInputImage ∧ Claim.SealedImagesReachPinsAndDacs ∧
    Claim.TasksBecomeReadyAfterTheSeal

/-! ### Chapter 5: Collie -/

/-- R161, R162, R163: TAKE waits at heel; a slice hands the first entry in order of service that a core at heel may run to the lowest-
numbered such core; a SPILL task that no core at home takes goes to a core at heel elsewhere. -/
def Claim.DispatchHandsTheFirstEntryToACoreAtHeel : Prop :=
  ∀ s : State,
    (∀ k : Fin 36, s.run k = none → s.role k = 0 ∨ s.role k = 1 →
      Completes (.take k) s [Piece.collie, (R.PLOT_k_CORE_STATUS k).piece] fun t =>
        (t.core k).heel = true ∧ t.run k = none ∧ t.flag (R.PLOT_k_CORE_STATUS k) F.PLOT_k_CORE_STATUS.AT_HEEL = true ∧
        ∀ j, j ≠ k.val → t.core j = s.core j) ∧
    (∀ k : Fin 36, s.run k ≠ none ∨ (s.role k ≠ 0 ∧ s.role k ≠ 1) → exec (.take k) s = .next s) ∧
    (∀ (p : Fin 4) (l i k : Nat) (e : ReadyEntry) (m : Module) (pre post : List (Nat × Nat × ReadyEntry)),
      s.ctrlRunning = true → s.exec.pfail = none → readyInOrder s p = pre ++ (l, i, e) :: post →
      moduleOf (if e.old then s.oldImage.getD s.image else s.image) (s.descOf e.old e.desc) = some m →
      let settled (x : ReadyEntry) : ReadyEntry := { x with delayed := false }
      let handed (t : State) (k : Nat) : Prop :=
        (∃ r, t.run k = some r ∧ r.entry.desc = e.desc ∧ r.entry.arg = e.arg ∧ r.mod = m ∧ r.phase = .executing ∧ r.now = e.readyV ∧
          r.journal = [] ∧ r.actions = [] ∧ r.cancelled = e.cancelled) ∧
        (t.core k).heel = false ∧ t.flag (R.PLOT_k_CORE_STATUS k) F.PLOT_k_CORE_STATUS.AT_HEEL = false ∧
        (t.taskOf e.old e.desc).st = 2 ∧ (t.taskOf e.old e.desc).core = some k ∧
        (t.readyList p l).map settled = ((s.readyList p l).eraseIdx i).map settled ∧ (∀ j, j ≠ k → t.core j = s.core j)
      ((∀ x ∈ pre, dispatchable s x.2.2 = false ∨ ∀ j ∈ coresOf p, mayRun s x.2.2 j = false) → dispatchable s e = true →
        (coresOf p).find? (mayRun s e) = some k →
        Completes (.dispatch p) s ([Piece.collie, .txn, .block 4, .block 5, R.EXEC_CKPT_STALL.piece] ++ noted) fun t => handed t k) ∧
      (s.flag R.COLLIE_CTRL F.COLLIE_CTRL.SPILL_EN = true → (∀ x ∈ pre, maySpill s p x.2.2 = false) → maySpill s p e = true →
        spillCore s p = some k →
        Completes (.spill p) s ([Piece.collie, .txn, .block 4, .block 5] ++ noted) fun t => handed t k ∧
          t.reg (R.PLOT_p_SPILL_OUT p) = satSucc (s.reg (R.PLOT_p_SPILL_OUT p)) ∧
          t.reg (R.PLOT_p_SPILL_IN (plotOf k)) = satSucc (s.reg (R.PLOT_p_SPILL_IN (plotOf k))))) ∧
    (∀ p : Fin 4, s.ctrlRunning = false ∨ s.exec.pfail.isSome = true → exec (.dispatch p) s = .next s ∧ exec (.spill p) s = .next s)

/-- R81, R164, R165, R169: a run that has ended gives its working copy to the task, its journal and actions to the release area and its core
to TAKE; one that ended on WAIT leaves the task waiting; with the area full the core waits. A bank that turns the working copy away (R529) counts a violation and keeps the valid copy. -/
def Claim.CompletionHandsOverTheRun : Prop :=
  ∀ (k : Fin 36) (s : State) (r : Run), s.run k = some r → s.role k = 0 ∨ s.role k = 1 →
    let n := r.entry.desc
    let p := plotOf k
    let kept : Prop := ((r.mod.funcs[(s.descOf r.old n).func]?).map (·.retain)).getD 0 = 0 ∨ plotOwned s (s.descOf r.old n).home = true
    let pieces : List Piece := [Piece.collie, .glean, .txn, .mem, .block 4, .block 5, .block 13, .block 24] ++ noted
    let done (w : Option Nat) (t : State) : Prop :=
      t.run k = none ∧ (t.core k).heel = true ∧
      (r.old = false → r.entry.seq = none → kept → (t.retained n).valid = r.work ∧ (t.retained n).selB = !(s.retained n).selB) ∧
      (r.entry.seq.isSome = true ∨ ¬kept → t.collie.retained = s.collie.retained) ∧
      (r.entry.seq = none → ¬kept → t.reg R.MEM_VIOL_CNT = satSucc (s.reg R.MEM_VIOL_CNT)) ∧
      (r.entry.seq = none → r.journal ≠ [] ∧ ¬(r.cancelled = true ∧ (s.descOf r.old n).kind ≠ 1) ∨ (r.actions ≠ [] ∧ r.cancelled = false) →
        t.releases p = s.releases p ++ [releaseOf s k r w]) ∧
      (r.old = false → r.entry.seq = none → w = none → (s.task n).queue = [] → (t.task n).st = 0 ∧ (t.task n).core = none) ∧
      (∀ wp, r.old = false → r.entry.seq = none → w = some wp → r.cancelled = false → wp ≠ n → (s.task wp).queue = [] →
        (t.task n).st = 3 ∧ (t.task n).save = some (wp, r.frames))
    let fits := releaseFits s p (releaseOf s k r none).bytes = true
    (r.phase = .ended → fits → Completes (.taskComplete k) s pieces (done none)) ∧
    (∀ wp, r.phase = .waiting wp → fits → Completes (.taskComplete k) s pieces (done (some wp))) ∧
    (r.phase = .stalled → fits → Completes (.releaseStallEnd k) s pieces (done r.stallWait)) ∧
    (r.phase ≠ .executing → r.phase ≠ .stalled → ¬fits →
      Completes (.taskComplete k) s ([Piece.collie, R.COLLIE_RELEASE_STALL.piece, R.COLLIE_EVENTS.piece] ++ noted) fun t =>
        t.run k = some { r with phase := .stalled, stallWait := r.phase.wait } ∧
        t.reg R.COLLIE_RELEASE_STALL = satSucc (s.reg R.COLLIE_RELEASE_STALL) ∧
        t.flag R.COLLIE_EVENTS F.COLLIE_EVENTS.RELEASE_STALL = true) ∧
    (r.phase = .executing → exec (.taskComplete k) s = .next s) ∧
    (r.phase ≠ .stalled ∨ ¬fits → exec (.releaseStallEnd k) s = .next s)

/-- Entries are handed to cores, and ended runs hand over what they made. -/
def Obligations.DispatchAndCompletionHandOverRuns : Prop :=
  Claim.DispatchHandsTheFirstEntryToACoreAtHeel ∧ Claim.CompletionHandsOverTheRun

/-- R120, R166, R167: the next journal of a slice is folded into its class's shadow image in entry order, and the actions of the next
release take effect in order, one in each Collie cycle. -/
def Claim.ReleasesFoldJournalsAndRunActions : Prop :=
  ∀ (p : Fin 4) (s : State) (i : Nat) (r : Release),
    (firstRelease s p (fun x => !x.folded) = some (i, r) →
      Completes (.journalFold p) s [Piece.collie, .img, .block 4] fun t =>
        let c := if r.cyclic then r.cls else 0
        tget [] t.img.shadow c = r.journal.foldl (fun m e => imgWrite m e.point e.ty e.value) (tget [] s.img.shadow c) ∧
        (∀ j, j ≠ c → tget [] t.img.shadow j = tget [] s.img.shadow j) ∧ t.img.live = s.img.live ∧ t.img.sealed = s.img.sealed ∧
        t.releases p = (if r.released then (s.releases p).eraseIdx i else (s.releases p).set i { r with folded := true }) ∧
        (∀ f q, r.flow = some (f, q) → r.released = true → r.segment = false → ∀ it ∈ (t.flow f).items, it.seq ≠ q)) ∧
    (firstRelease s p (fun x => !x.folded) = none → exec (.journalFold p) s = .next s) ∧
    (firstRelease s p (fun x => !x.released) = some (i, r) →
      exec (.releaseActions p) s = .next (finishRelease p (r.actions.foldl (fun t a => releaseAction r a (t.advanceTo (t.raw + 4)))
        (s.setReleases p ((s.releases p).set i { r with released := true }))))) ∧
    (firstRelease s p (fun x => !x.released) = some (i, r) → r.actions = [] → r.folded = true → r.flow = none →
      (∀ x ∈ s.releases p, (x.folded && x.released) = false) →
      Completes (.releaseActions p) s [Piece.collie] fun t => t.releases p = (s.releases p).eraseIdx i) ∧
    (firstRelease s p (fun x => !x.released) = none → exec (.releaseActions p) s = .next s)

/-- R151, R168, R169, R171: a post makes an idle event task ready, resumes a task that waits on the waitpoint, or waits in the queue of
its descriptor; it is discarded where the queue or the pool is full, the descriptor takes none or is disabled, or the controller stands. -/
def Claim.PostsReachTheirDescriptor : Prop :=
  ∀ (n : Fin 4096) (s : State), oldWaiter s n = none →
    let d := s.desc n
    let arg := s.reg64 R.COLLIE_CMD_ARG_LO R.COLLIE_CMD_ARG_HI
    let dropped : List Piece := [R.COLLIE_POST_DROP_CNT.piece, R.COLLIE_EVENTS.piece] ++ noted
    let counted (t : State) : Prop := t.reg R.COLLIE_POST_DROP_CNT = satSucc (s.reg R.COLLIE_POST_DROP_CNT) ∧
      t.flag R.COLLIE_EVENTS F.COLLIE_EVENTS.POST_DROP = true
    (d.kind = 2 → s.ctrlStopped = false → s.taskEnabled n = true → s.collie.poolUsed < 8192 →
      ((s.task n).st = 0 → s.cancelledIn n s.raw = false → Completes (.hostPost n) s [Piece.collie] fun t =>
        (t.task n).st = 1 ∧ t.collie.poolUsed = s.collie.poolUsed + 1 ∧
        t.readyList d.home d.prio = s.readyList d.home d.prio ++ [postEntry s n arg s.vT64 0xFFFF false]) ∧
      ((s.task n).st = 0 → s.cancelledIn n s.raw = true → exec (.hostPost n) s = .next (s.incSat R.COLLIE_CANCEL_RACE)) ∧
      ((s.task n).st ≠ 0 → (s.task n).queue.length < d.depth → Completes (.hostPost n) s [Piece.collie] fun t =>
        t.task n = { s.task n with queue := (s.task n).queue ++ [⟨arg, s.vT64, 0xFFFF⟩] } ∧
        t.collie.poolUsed = s.collie.poolUsed + 1) ∧
      ((s.task n).st ≠ 0 → d.depth ≤ (s.task n).queue.length →
        Completes (.hostPost n) s ((R.COLLIE_t_STATE n).piece :: dropped) fun t =>
          counted t ∧ t.flag (R.COLLIE_t_STATE n) F.COLLIE_t_STATE.OVERFLOW = true)) ∧
    (d.kind = 2 → s.ctrlStopped = false → s.taskEnabled n = true → 8192 ≤ s.collie.poolUsed →
      Completes (.hostPost n) s dropped fun t => counted t ∧ t.flag R.COLLIE_EVENTS F.COLLIE_EVENTS.POOL_EMPTY = true) ∧
    (d.kind = 4 → s.ctrlStopped = false → s.taskEnabled d.link = true → s.collie.poolUsed < 8192 → s.cancelledIn d.link s.raw = false →
      ∀ fr, (s.task d.link).st = 3 → (s.task d.link).save = some (n.val, fr) → waitingItem s (s.desc d.link).link n = none →
      Completes (.hostPost n) s [Piece.collie] fun t =>
        (t.task d.link).st = 1 ∧ (t.task d.link).save = some (n.val, fr) ∧
        t.readyList (s.desc d.link).home (s.desc d.link).prio =
          s.readyList (s.desc d.link).home (s.desc d.link).prio ++ [postEntry s d.link arg s.vT64 0xFFFF true]) ∧
    (d.kind = 4 → s.ctrlStopped = false → s.taskEnabled d.link = true → s.collie.poolUsed < 8192 → (s.task d.link).st ≠ 3 →
      waitingItem s (s.desc d.link).link n = none → (s.task n).queue.length < d.depth → Completes (.hostPost n) s [Piece.collie] fun t =>
        t.task n = { s.task n with queue := (s.task n).queue ++ [⟨arg, s.vT64, 0xFFFF⟩] }) ∧
    (d.kind = 2 → s.ctrlStopped = false → s.taskEnabled n = false → Completes (.hostPost n) s dropped counted) ∧
    (d.kind = 2 → s.ctrlStopped = true → Completes (.hostPost n) s (R.EXEC_STOP_FLUSHED.piece :: dropped) fun t =>
      counted t ∧ t.reg R.EXEC_STOP_FLUSHED = satSucc (s.reg R.EXEC_STOP_FLUSHED)) ∧
    (d.kind ≠ 2 → d.kind ≠ 4 → Completes (.hostPost n) s dropped fun t =>
      counted t ∧ t.flag R.COLLIE_EVENTS F.COLLIE_EVENTS.CMD_NO_EFFECT = true) ∧
    (∀ (x : HwPost) (rest : List HwPost), s.collie.hwPosts = x :: rest →
      (x.since = none → exec .hardwarePost s =
        .next (postTo x.desc x.arg 0xFFFF { s with collie := { s.collie with hwPosts := rest } })) ∧
      ((s.desc x.desc).kind = 2 → oldWaiter s x.desc = none → s.ctrlStopped = false → s.taskEnabled x.desc = true →
        s.collie.poolUsed < 8192 → (s.task x.desc).st = 0 → s.cancelledIn x.desc s.raw = false →
        Completes .hardwarePost s [Piece.collie] fun t => t.collie.hwPosts = rest ∧ (t.task x.desc).st = 1 ∧
          ∃ e ∈ t.readyList (s.desc x.desc).home (s.desc x.desc).prio, e.desc = x.desc ∧
            (x.since = none → e.arg = x.arg ∧ e.readyV = s.vT64))) ∧
    (s.collie.hwPosts = [] → exec .hardwarePost s = .next s)

/-- R172: the delay entries due at the next tick boundary leave their lists and are posted with that tick as READY_V. -/
def Claim.DelaysExpireIntoPosts : Prop :=
  ∀ s : State,
    (nextExpiry s = none → exec .delayExpiry s = .next s) ∧
    (∀ x e, nextExpiry s = some x → ((allDelays s).filter fun y => y.expiry = x) = [e] →
      ∃ u : State, exec .delayExpiry s = .next (postAt e.desc e.arg x e.replyTo u) ∧
        u.raw = (s.advanceToV x.toNat).raw ∧ u.collie = { s.collie with delays := u.collie.delays } ∧ Keeps [Piece.raw, .collie] s u ∧
        ∀ n, n < 16 → tget [] u.collie.delays n = (tget [] s.collie.delays n).filter fun y => y.expiry ≠ x) ∧
    (∀ x, nextExpiry s = some x → Completes .delayExpiry s ([Piece.raw, .collie, .block 4, .block 6] ++ noted) fun t =>
      ∀ n, n < 16 → tget [] t.collie.delays n = (tget [] s.collie.delays n).filter fun y => y.expiry ≠ x)

/-- R176, R178: a cancel takes a task's delays, posts and ready entries away and marks its runs; a waitpoint's posts and delays; an item of
a flow is released empty; a number that names no unreleased item has no effect. -/
def Claim.CancelsTakePendingWorkAway : Prop :=
  ∀ s : State,
    (∀ n : Fin 4096, (s.desc n).kind = 1 ∨ (s.desc n).kind = 2 →
      Completes (.hostCancel n) s [Piece.collie, R.COLLIE_CANCEL_RACE.piece] fun t =>
        (t.task n).queue = [] ∧ (∀ i, i < 16 → ∀ e ∈ tget [] t.collie.delays i, e.desc ≠ n.val) ∧
        (∀ i, i < 64 → i % 16 < 9 → tget [] t.collie.ready i = (tget [] s.collie.ready i).filter fun e => !(e.desc = n.val && e.here s)) ∧
        (∀ k r, k < 36 → t.run k = some r → r.entry.desc = n.val → r.cancelled = true) ∧
        ((s.task n).st = 1 ∨ (s.task n).st = 3 → (∀ i ∈ readyKeys, ∀ e ∈ tget [] s.collie.ready i, e.desc = n.val → e.here s = true) →
          (t.task n).st = 0 ∧ (t.task n).save = none ∧ (t.task n).due = none) ∧
        ((s.task n).st = 2 → (t.task n).st = 2)) ∧
    (∀ n : Fin 4096, (s.desc n).kind = 4 → Completes (.hostCancel n) s [Piece.collie] fun t =>
      (t.task n).queue = [] ∧ (∀ i, i < 16 → ∀ e ∈ tget [] t.collie.delays i, e.desc ≠ n.val) ∧ t.collie.ready = s.collie.ready) ∧
    (∀ n : Fin 4096, (s.desc n).kind = 3 → ((s.flow (s.desc n).link).items.map (·.seq)).Nodup →
      Completes (.hostCancel n) s ([Piece.collie, .txn, .block 4] ++ noted) fun t => (∀ i, i < 16 → ∀ e ∈ tget [] t.collie.delays i, e.desc ≠ n.val) ∧ ∀ it ∈ (t.flow (s.desc n).link).items, it.st = .empty) ∧
    (∀ f : Fin 512, let q := (s.reg R.COLLIE_CMD_SEQ).toNat
      ((∃ it ∈ (s.flow f).items, it.seq = q) → ((s.flow f).items.map (·.seq)).Nodup →
        Completes (.cancelItem f) s ([Piece.collie, .txn, .block 4] ++ noted) fun t =>
        ∀ it ∈ (t.flow f).items, it.seq = q → it.st = .empty) ∧
      ((∀ it ∈ (s.flow f).items, it.seq ≠ q) →
        exec (.cancelItem f) s = .next (s.raise R.COLLIE_EVENTS F.COLLIE_EVENTS.CMD_NO_EFFECT)))

/-- Releases, posts, delays and cancels. -/
def Obligations.ReleasesPostsDelaysAndCancelsAct : Prop :=
  Claim.ReleasesFoldJournalsAndRunActions ∧ Claim.PostsReachTheirDescriptor ∧ Claim.DelaysExpireIntoPosts ∧ Claim.CancelsTakePendingWorkAway

/-- R179 to R184: a fenced core loses its run, which is repeated ahead of every entry of its plot, and its reserve takes over its slot; a
retest serves a core fenced once; errors in Collie's own state are repaired or reported with their descriptor. -/
def Obligations.FencesRepeatTheRunOnAnotherCore : Prop :=
  ∀ s : State,
    (∀ (k : Fin 36) (cause : Nat), s.role k ≠ 2 → cause < 8 →
      Completes (.coreFenced k cause) s ([Piece.collie, .txn, .block 4, .block 5] ++ noted) fun t =>
        t.role k = 2 ∧ t.get (R.PLOT_k_CORE_STATUS k) F.PLOT_k_CORE_STATUS.FENCE_CAUSE = cause ∧ t.run k = none ∧
        (t.core k).heel = false ∧ t.reg R.COLLIE_FENCE_CNT = satSucc (s.reg R.COLLIE_FENCE_CNT) ∧
        t.flag R.COLLIE_EVENTS F.COLLIE_EVENTS.CORE_FENCED = true ∧ t.collie.retained = s.collie.retained ∧
        (∀ r, s.run k = some r → (r.entry.seq = none → (t.taskOf r.old r.entry.desc).st = 1) ∧
          ∃ e, t.readyList (s.descOf r.old r.entry.desc).home 8 = e :: s.readyList (s.descOf r.old r.entry.desc).home 8 ∧
            e.desc = r.entry.desc ∧ e.arg = r.entry.arg ∧ e.again = true) ∧
        (s.role k = 0 → ∀ j, ((coresOf (plotOf k)).find? fun i => s.role i = 1 ∧ (s.core i).heel) = some j →
          t.role j = 0 ∧ t.coreSlot j = s.coreSlot k) ∧
        (s.role k = 0 → (∀ i ∈ coresOf (plotOf k), ¬(s.role i = 1 ∧ (s.core i).heel = true)) →
          t.flag R.COLLIE_EVENTS F.COLLIE_EVENTS.NO_RESERVE = true)) ∧
    (∀ (k : Fin 36) (cause : Nat), s.role k = 2 → exec (.coreFenced k cause) s = .next s) ∧
    (∀ k : Fin 36, exec (.fence k) s = exec (.coreFenced k 4) s) ∧
    (∀ k : Fin 36, s.role k = 2 → s.get (R.PLOT_k_CORE_STATUS k) F.PLOT_k_CORE_STATUS.FENCE_COUNT = 1 →
      Completes (.retest k) s [Piece.latch, .group, .stage, (R.PLOT_k_CORE_STATUS k).piece] fun t => t.role k = 3) ∧
    (∀ k : Fin 36, s.role k ≠ 2 ∨ s.get (R.PLOT_k_CORE_STATUS k) F.PLOT_k_CORE_STATUS.FENCE_COUNT ≠ 1 →
      exec (.retest k) s = .next (s.raise R.COLLIE_EVENTS F.COLLIE_EVENTS.CMD_NO_EFFECT)) ∧
    (∀ k : Fin 36, s.role k = 3 → s.run k = none →
      (Completes (.retestDone k true) s [Piece.collie, .block 5] fun t => (t.core k).heel = true ∧
        (∀ sl, ((List.range 8).find? fun i => (s.slotCore (plotOf k) i).isNone) = some sl → t.role k = 0 ∧ t.coreSlot k = sl) ∧
        (((List.range 8).find? fun i => (s.slotCore (plotOf k) i).isNone) = none → t.role k = 1)) ∧
      (Completes (.retestDone k false) s [(R.PLOT_k_CORE_STATUS k).piece] fun t =>
        t.role k = 2 ∧ t.flag (R.PLOT_k_CORE_STATUS k) F.PLOT_k_CORE_STATUS.TEST_FAILED = true)) ∧
    (∀ d : Fin 4096, exec (.descError d 4) s = .next (s.incSat R.MEM_INT_CE_CNT) ∧
      ∀ w : Fin 5, w ≠ 4 → Completes (.descError d w) s ([Piece.collie, .txn, .block 4, .block 24] ++ noted) fun t =>
        let own (e : ReadyEntry) : Bool := decide (e.desc = d.val ∧ ¬e.old)
        let delays (u : State) : Nat := ((allDelays u).filter fun e => e.desc = d.val).length
        t.reg R.COLLIE_FENCE_TASK = BitVec.ofNat 32 (d.val + 2 ^ 14 + 2 ^ 15) ∧
        t.flag R.COLLIE_EVENTS F.COLLIE_EVENTS.DESC_ERROR = true ∧
        (w = 0 → (t.task d).queue = [] ∧ delays t = 0 ∧ ((s.desc d).kind ≠ 3 → t.readyOf own = [])) ∧
        (w = 1 → ∀ e l, s.readyOf own = e :: l → e.seq = none → (s.task d).queue = [] →
          t.readyOf own = (e :: l).filter fun x => x ≠ e) ∧
        (w = 2 → (s.desc d).kind ≠ 3 → (t.task d).queue = (s.task d).queue.tail) ∧
        (w = 3 → delays t = delays s - 1 ∧ t.collie.tasks = s.collie.tasks ∧ t.collie.ready = s.collie.ready))

/-! ### Chapter 4: the controller -/

/-- R123, R124: START, RESUME and ABORT wait for the first headland at least 1,024 grains ahead and then set RUNNING, with the shadow images
equal to the live one; STOP stops and CHECKPOINT asks for a cut while running; any other command is refused. -/
def Claim.ControllerCommandsActInTheirStates : Prop :=
  ∀ s : State,
    let refused (c : Instr) : Prop := exec c s = .next (s.raise R.EXEC_EVENTS F.EXEC_EVENTS.CMD_REFUSED)
    let at_ := if s.vNow + 1024 ≤ s.head.nextActual then s.head.nextB else s.head.nextB + 1
    let waits (c : Nat) (t : State) : Prop :=
      t.exec = { s.exec with pendCmd := some (c, at_) } ∧ t.flag R.EXEC_STATUS F.EXEC_STATUS.CMD_PENDING = true ∧ t.ctrl = s.ctrl
    (s.ctrl = 0 ∨ s.ctrl = 2 → s.headRun = true → s.shutStep = 0 → s.exec.pendCmd = none → s.sec.running = none →
      Completes .start s ([Piece.exec, .collie, .txn, .gran, R.EXEC_STATUS.piece] ++ noted) fun t =>
        waits 1 t ∧ (s.persisted = [] → t.collie = { s.collie with retained := [], globals := [] })) ∧
    (s.mayResume = true → s.shutStep = 0 → s.exec.pendCmd = none → s.sec.running = none →
      Completes .resume s [Piece.exec, R.EXEC_STATUS.piece] (waits 3) ∧ Completes .abort s [Piece.exec, R.EXEC_STATUS.piece] (waits 4)) ∧
    (s.shutStep ≠ 0 ∨ s.exec.pendCmd.isSome = true ∨ s.sec.running.isSome = true ∨ ¬(s.ctrl = 0 ∨ s.ctrl = 2) ∨ s.headRun = false →
      refused .start) ∧
    (s.shutStep ≠ 0 ∨ s.exec.pendCmd.isSome = true ∨ s.sec.running.isSome = true ∨ s.mayResume = false →
      refused .resume ∧ refused .abort) ∧
    (s.ctrl = 1 → exec .stop s = .next (controllerStop 3 s) ∧
      exec .checkpoint s = .next { s with exec := { s.exec with cutAsked := max 2 s.exec.cutAsked } }) ∧
    (s.ctrl ≠ 1 → refused .stop ∧ refused .checkpoint) ∧
    (∀ c b, s.exec.pendCmd = some (c, b) →
      (s.headIndex < b → exec .commandTakesEffect s = .next s) ∧
      (b ≤ s.headIndex → Completes .commandTakesEffect s [Piece.exec, .img, .collie, .block 6, .block 14] fun t =>
        t.ctrl = 1 ∧ t.get R.EXEC_STATUS F.EXEC_STATUS.STOP_CAUSE = 0 ∧ t.flag R.EXEC_STATUS F.EXEC_STATUS.CMD_PENDING = false ∧
        t.flag R.EXEC_STATUS F.EXEC_STATUS.SAFE_OUT = false ∧ t.exec = { s.exec with pendCmd := none } ∧
        t.img.live = s.img.live ∧ (∀ n, n < 4 → tget [] t.img.shadow n = s.img.live))) ∧
    (s.exec.pendCmd = none → exec .commandTakesEffect s = .next s)

/-- R126 to R128: a controller stop sets SAFE with its cause, halts every run, empties Collie, keeps what completed tasks have released, drops
a pending command, and forms the safe image: the safe values, stage 2 of a headland that falls at it, and the forces in force. -/
def Claim.AControllerStopLeavesTheSafeState : Prop :=
  ∀ (cause : Nat) (s : State), cause < 16 →
    let t := controllerStop cause s
    let safe := s.image.outs.foldl (fun m o => imgWrite m o.ref o.ty (o.safe s.img.live)) s.img.base
    let b := if s.raw = s.headRaw then stageTwo s.img.acts safe else safe
    let l := s.img.forces.foldl (fun m (r, ty, v) => imgWrite m r ty v) b
    t.ctrl = 2 ∧ t.get R.EXEC_STATUS F.EXEC_STATUS.STOP_CAUSE = cause ∧ t.flag R.EXEC_STATUS F.EXEC_STATUS.CMD_PENDING = false ∧
    t.exec = { s.exec with pendCmd := none } ∧
    t.flag R.EXEC_EVENTS F.EXEC_EVENTS.CTRL_STOP = true ∧ (∀ k, k < 36 → t.run k = none) ∧
    t.collie.ready = [] ∧ t.collie.delays = [] ∧ t.collie.poolUsed = 0 ∧ (∀ n, (t.task n).queue = [] ∧ (t.task n).save = none) ∧
    (∀ p, p < 4 → t.releases p = (s.releases p).filter fun r => r.flow = none) ∧
    t.head = { s.head with safeSeal := some s.raw, safeSwitch := some s.raw, safeDac := some s.raw } ∧
    t.img = { s.img with base := b, live := t.img.live } ∧
    ((∀ n, n < 32 → dacCode l n ≤ 65535) → t.img.live = l) ∧ (∀ n, n < 32 → dacCode t.img.live n = min 65535 (dacCode l n)) ∧
    (s.flag R.FORCE_CTRL F.FORCE_CTRL.RELEASE_ON_STOP = true → t.forceEntries = []) ∧
    (s.flag R.SAFEMIR_REQ F.SAFEMIR_REQ.DROP_ON_STOP = true → t.get R.SAFEMIR_REQ F.SAFEMIR_REQ.REQ = 0) ∧
    Keeps ([Piece.collie, .exec, .free, .head, .img, .motion, .txn, .block 4, .block 5, .block 6, .block 7, .block 8, .block 11, .block 14,
      .block 23] ++ noted) s t

/-- The commands of the controller and what a controller stop leaves. -/
def Obligations.ControllerCommandsAndStops : Prop :=
  Claim.ControllerCommandsActInTheirStates ∧ Claim.AControllerStopLeavesTheSafeState

/-- R104, R125, R151: a class cycle with a task not completed at its deadline overruns: its record is set, and a running controller stops
with cause 1. A write of a task's control sets its enable and policy, a policy of 3 as 0, and clears what it writes as 1. -/
def Claim.OverrunsAreRecordedAndTasksControlled : Prop :=
  ∀ s : State,
    (∀ n : Fin 4, s.lateTasks n = [] → exec (.overrun n) s = .next s) ∧
    (∀ (n : Fin 4) (x : Nat) (b : Nat) (h : Quad) (l : List (Nat × Nat × Quad)), s.lateTasks n = (x, b, h) :: l →
      ∃ u : State, Keeps ([Piece.raw, .block 6] ++ noted) s u ∧
        u.raw = (s.advanceTo (h + BitVec.ofNat 64
          (s.classK n * s.pg * ((s.reg (R.EXEC_n_BUDGET n)).toNat % 128) / 100))).raw ∧
        (u.reg R.EXEC_OVR_TASK).toNat % 4096 = x % 4096 ∧ u.reg64 R.EXEC_OVR_INDEX_LO R.EXEC_OVR_INDEX_HI = BitVec.ofNat 64 b ∧
        u.reg R.EXEC_OVR_CNT = satSucc (s.reg R.EXEC_OVR_CNT) ∧ u.flag R.EXEC_EVENTS F.EXEC_EVENTS.OVERRUN = true ∧
        u.get R.EXEC_STATUS F.EXEC_STATUS.OVR_CLASS = n ∧ u.ctrl = s.ctrl ∧
        exec (.overrun n) s = .next (if s.ctrl = 1 then controllerStop 1 u else u)) ∧
    (∀ (n : Fin 4096) (v : Word), Completes (.taskCtrlWrite n v) s [(R.EXEC_t_TASK_CTRL n).piece] fun t =>
      let f (g : Fld) := t.get (R.EXEC_t_TASK_CTRL n) g
      let old (g : Fld) := s.get (R.EXEC_t_TASK_CTRL n) g
      f F.EXEC_t_TASK_CTRL.ENABLE = fldOf F.EXEC_t_TASK_CTRL.ENABLE v ∧
      f F.EXEC_t_TASK_CTRL.POLICY = (if fldOf F.EXEC_t_TASK_CTRL.POLICY v = 3 then 0 else fldOf F.EXEC_t_TASK_CTRL.POLICY v) ∧
      f F.EXEC_t_TASK_CTRL.FAULTED =
        (if fldOf F.EXEC_t_TASK_CTRL.FAULTED v = 1 then 0 else old F.EXEC_t_TASK_CTRL.FAULTED) ∧
      f F.EXEC_t_TASK_CTRL.DISABLED_BY_FAULT =
        (if fldOf F.EXEC_t_TASK_CTRL.ENABLE v = 1 then 0 else old F.EXEC_t_TASK_CTRL.DISABLED_BY_FAULT))

/-- R129, R153: an entry of the force table is enabled or edited when its point, type and direction are good and no enabled entry overlaps;
otherwise it is refused. CLEAR_ALL waits for the headland, during a bridge for that of the rejoin (R130). -/
def Claim.ForceEntriesAreCheckedWhenEnabled : Prop :=
  ∀ (e : Fin 1024) (v : Word) (s : State),
    let c := R.FORCE_e_CTRL e
    let on := s.flag c F.FORCE_e_CTRL.EN
    let asks := fldOf F.FORCE_e_CTRL.EN v = 1
    let good := forceOk s e (s.reg (R.FORCE_e_POINT e)).toNat (fldOf F.FORCE_e_CTRL.TYPE v) (fldOf F.FORCE_e_CTRL.INPUT v = 1)
    let pointGood := forceOk s e v.toNat (s.get c F.FORCE_e_CTRL.TYPE) (s.flag c F.FORCE_e_CTRL.INPUT)
    let bad (t : State) : State := t.raise R.FORCE_EVENTS F.FORCE_EVENTS.BAD_POINT
    (¬asks ∨ good = true → exec (.forceEntryWrite e true v) s = .next (s.setReg c ((v &&& 0x73) ||| (s.reg c &&& 4)))) ∧
    (asks → good = false → on = true → exec (.forceEntryWrite e true v) s = .next (bad s)) ∧
    (asks → good = false → on = false →
      exec (.forceEntryWrite e true v) s = .next (bad (s.setReg c ((v &&& 0x72) ||| (s.reg c &&& 4))))) ∧
    (on = false ∨ pointGood = true → exec (.forceEntryWrite e false v) s = .next (s.setReg (R.FORCE_e_POINT e) v)) ∧
    (on = true → pointGood = false → exec (.forceEntryWrite e false v) s = .next (bad s)) ∧
    exec (.clearAll v) s = .next { s.setReg R.FORCE_CTRL (v &&& 3) with exec := { s.exec with clearAll := true } } ∧
    (fldOf F.FORCE_CTRL.CLEAR_ALL v = 0 → exec (.forceCtrlWrite v) s = .next (s.setReg R.FORCE_CTRL (v &&& 3))) ∧
    (s.exec.clearAll = true → s.bridged = false → (forceHeadland s).exec.clearAll = false ∧ (forceHeadland s).forceEntries = []) ∧
    (s.exec.clearAll = false ∨ s.bridged = true → forceHeadland s = s)

/-- Overruns, task control and forces. -/
def Obligations.OverrunsTasksAndForcesAreControlled : Prop :=
  Claim.OverrunsAreRecordedAndTasksControlled ∧ Claim.ForceEntriesAreCheckedWhenEnabled

/-- R131 to R136: an online change is armed for a later headland when its image passes every check, cancelled before it, made at it, and
complete when no old task runs and every enabled class has had a headland. -/
def Obligations.OnlineChangesAreArmedMadeAndCompleted : Prop :=
  ∀ s : State,
    let at_ := (s.reg64 R.EXEC_OLC_AT_LO R.EXEC_OLC_AT_HI).toNat
    let refused (code : Nat) (t : State) : State :=
      (t.setReg R.EXEC_OLC_STATUS (BitVec.ofNat 32 code)).raise R.EXEC_EVENTS F.EXEC_EVENTS.OLC_REFUSED
    (s.ctrl ≠ 1 → exec .olcArm s =
      .next ((refused (if s.olcState ≠ 0 then 1 else 2) s).raise R.EXEC_EVENTS F.EXEC_EVENTS.CMD_REFUSED)) ∧
    (s.olcState ≠ 0 → s.ctrl = 1 → exec .olcArm s = .next (refused 1 s)) ∧
    (s.olcState = 0 → s.ctrl = 1 → at_ < s.headIndex + 2 → exec .olcArm s = .next (refused 3 s)) ∧
    (s.olcState = 0 → s.ctrl = 1 → s.headIndex + 2 ≤ at_ →
      (∀ code f, olcCheck s = .inl (code, f) → Completes .olcArm s ([Piece.exec, R.EXEC_OLC_STATUS.piece, R.EXEC_EVENTS.piece] ++ noted) fun t =>
        t.reg R.EXEC_OLC_STATUS = BitVec.ofNat 32 code ∧ t.flag R.EXEC_EVENTS F.EXEC_EVENTS.OLC_REFUSED = true ∧ t.olcState = 0) ∧
      (∀ b, olcCheck s = .inr b → Completes .olcArm s [Piece.newImage, .exec, R.EXEC_STATUS.piece] fun t =>
        t.newImage = some b ∧ t.exec = { s.exec with olcAt := at_ } ∧ t.olcState = 1 ∧ t.ctrl = 1)) ∧
    (s.ctrl ≠ 1 → exec .olcCancel s = .next (s.raise R.EXEC_EVENTS F.EXEC_EVENTS.CMD_REFUSED)) ∧
    (s.ctrl = 1 → s.olcState = 1 → Completes .olcCancel s [Piece.newImage, R.EXEC_STATUS.piece] fun t =>
      t.newImage = none ∧ t.olcState = 0) ∧
    (s.ctrl = 1 → s.olcState ≠ 1 → exec .olcCancel s = .next s) ∧
    (∀ b, s.newImage = some b → s.olcState = 1 → s.headIndex = s.exec.olcAt →
      Completes .olcChangeHeadland s ([Piece.collie, .exec, .glean, .image, .newImage, .oldImage, .txn, .block 4, .block 6, .block 7] ++ noted)
        fun t =>
        t.image = b.img ∧ t.oldImage = some s.image ∧ t.newImage = none ∧ t.olcState = 2 ∧
        t.glean.sigs = boundSigs b.img.modules b.sigs ∧ t.exec = { s.exec with olcSeen := s.head.classDue, newGlean := t.exec.newGlean }) ∧
    (s.newImage = none ∨ s.olcState ≠ 1 ∨ s.headIndex ≠ s.exec.olcAt → exec .olcChangeHeadland s = .next s) ∧
    (s.olcState = 2 → olcFinished s = true →
      Completes .olcComplete s ([Piece.collie, .exec, .glean, .island, .oldImage, .block 6, .block 13, .block 23, R.SEC_IMAGE_STATUS.piece] ++
        noted) fun t =>
        t.oldImage = none ∧ t.collie.oldTasks = [] ∧ t.collie.oldRetained = [] ∧ t.olcState = 0 ∧
        t.reg64 R.EXEC_OLC_DONE_LO R.EXEC_OLC_DONE_HI = BitVec.ofNat 64 s.exec.olcAt ∧
        t.reg R.SEC_IMAGE_STATUS = s.reg R.SEC_IMAGE_STATUS ^^^ 0x20000 ∧ t.exec.cutAsked = max 3 s.exec.cutAsked ∧
        t.flag R.EXEC_EVENTS F.EXEC_EVENTS.OLC_DONE = true) ∧
    (s.olcState ≠ 2 ∨ olcFinished s = false → exec .olcComplete s = .next s)

/-- R137, R138, R147, R538: a captured cut takes the next number and is written, or waits for the one that is; a capture or write that fails
is reported; a cut whose lines are all written is valid. -/
def Claim.CheckpointsAreCapturedAndWritten : Prop :=
  ∀ s : State,
    (∀ good : Bool, s.exec.capture = [] → exec (.checkpointCapture good) s = .next s) ∧
    (∀ (c : Cut) (rest : List Cut), s.exec.capture = c :: rest →
      (s.exec.writing = none → Completes (.checkpointCapture true) s [Piece.exec, .gran, R.EXEC_STATUS.piece] fun t =>
        t.exec = { s.exec with capture := rest, cutSeq := s.exec.cutSeq + 1, writing := some { c with seq := s.exec.cutSeq + 1 } } ∧
        t.gran.jobs = s.gran.jobs ++ [⟨.cut, linesOf (cutSize { c with seq := s.exec.cutSeq + 1 }), false, s.raw⟩] ∧
        t.flag R.EXEC_STATUS F.EXEC_STATUS.CKPT_BUSY = true) ∧
      (s.exec.writing.isSome = true → Completes (.checkpointCapture true) s [Piece.exec, R.EXEC_STATUS.piece] fun t =>
        t.exec = { s.exec with capture := rest, waiting := some c } ∧ t.flag R.EXEC_STATUS F.EXEC_STATUS.CKPT_BUSY = true) ∧
      Completes (.checkpointCapture false) s ([Piece.exec, R.EXEC_STATUS.piece, R.EXEC_EVENTS.piece] ++ noted) fun t =>
        t.exec = { s.exec with capture := rest } ∧ t.flag R.EXEC_EVENTS F.EXEC_EVENTS.CKPT_FAILED = true) ∧
    (∀ c j, s.exec.writing = some c → (s.gran.jobs.find? fun j => decide (j.work = .cut ∧ j.lines = 0)) = some j →
      s.exec.waiting = none → s.exec.capture = [] →
      Completes .checkpointWrite s ([Piece.exec, .gran, .mem, .block 6, .block 26] ++ noted) fun t =>
        t.exec.writing = none ∧ t.gran.jobs = s.gran.jobs.erase j ∧ t.flag R.EXEC_STATUS F.EXEC_STATUS.CKPT_BUSY = false ∧
        (j.failed = false → t.exec.stored.getLast? = some c ∧ t.reg R.EXEC_CKPT_SEQ = BitVec.ofNat 32 c.seq ∧
          t.reg64 R.EXEC_CKPT_INDEX_LO R.EXEC_CKPT_INDEX_HI = BitVec.ofNat 64 c.index) ∧
        (j.failed = true → t.exec.stored = s.exec.stored ∧ t.flag R.EXEC_EVENTS F.EXEC_EVENTS.CKPT_FAILED = true)) ∧
    (s.exec.writing = none → exec .checkpointWrite s = .next s)

/-- R140, R544, R616, R617: a power-fail warning stops dispatch and drops what waits for the granary; its cut halts the runs and puts a
running controller into BRIDGING within the bytes the supply lasts for; its release lets the bridge go on. -/
def Claim.PowerFailureTakesACutAndBridges : Prop :=
  ∀ s : State,
    (s.pfailOn = false → Completes .pfailAssert s ([Piece.exec, .glean, .gran, .mem, .resets, .block 1, .block 6, .block 13, .block 26] ++ noted) fun t =>
      t.exec = { s.exec with pfail := some s.raw, capture := [], writing := none, waiting := none } ∧ t.gran.jobs = [] ∧
      t.flag R.CLK_STATUS F.CLK_STATUS.PFAIL = true ∧ t.flag R.CLK_EVENTS F.CLK_EVENTS.PFAIL = true ∧
      t.reg R.CLK_PF_CNT = satSucc (s.reg R.CLK_PF_CNT) ∧ t.flag R.GRAN_STATUS F.GRAN_STATUS.PF_ACTIVE = true ∧
      t.resets.pfDone = decide (5 ≤ s.shutStep)) ∧
    (s.pfailOn = true → exec .pfailAssert s = .next s) ∧
    (∀ (n : Fin 8192) (a : Quad), s.exec.pfail = some a → s.resets.pfDone = false →
      Completes (.powerFailCut n) s [Piece.collie, .exec, .gran, .mem, .raw, .resets, .txn, .block 4, .block 5, .block 6, .block 26] fun t =>
        t.resets.pfDone = true ∧ (∀ k, k < 36 → t.run k = none) ∧ (t.reg R.GRAN_PF_BYTES).toNat ≤ 64 * n ∧
        t.flag R.GRAN_STATUS F.GRAN_STATUS.PF_ACTIVE = false ∧
        (s.ctrl = 1 → t.ctrl = 3 ∧ t.exec.bridgeW = some a ∧ t.exec.bridgeCut = true ∧ t.exec.restored = none ∧ t.exec.bridgeCount = 0) ∧
        (s.ctrl ≠ 1 → t.ctrl = s.ctrl) ∧
        (t.resets.pfShort = false → t.reg R.EXEC_CKPT_SEQ = BitVec.ofNat 32 (s.exec.cutSeq + 1) ∧
          t.reg64 R.EXEC_CKPT_INDEX_LO R.EXEC_CKPT_INDEX_HI = BitVec.ofNat 64 s.headIndex)) ∧
    (∀ n : Fin 8192, s.exec.pfail = none ∨ s.resets.pfDone = true → exec (.powerFailCut n) s = .next s) ∧
    (s.pfailOn = true → Completes .pfailRelease s ([Piece.exec, .block 1] ++ noted) fun t =>
      t.exec.pfail = none ∧ t.flag R.CLK_STATUS F.CLK_STATUS.PFAIL = false ∧ t.flag R.CLK_EVENTS F.CLK_EVENTS.PF_RELEASED = true ∧
      (s.ctrl = 3 → s.resets.pfDone = true → t.exec.restored.isSome = true ∧
        t.exec.rejoinAt = (if s.vNow + 1024 ≤ s.head.nextActual then s.head.nextB else s.head.nextB + 1))) ∧
    (s.pfailOn = false → exec .pfailRelease s = .next s)

/-- Checkpoint cuts and the power-fail cut. -/
def Obligations.CheckpointsAndPowerFailCutsAreTaken : Prop :=
  Claim.CheckpointsAreCapturedAndWritten ∧ Claim.PowerFailureTakesACutAndBridges

/-- R124, R134, R141, R142: a bridge restores its newest good cut, rejoins at its headland with the shadow images equal to the live one, or
ends at its limit in a controller stop with cause 4. -/
def Obligations.BridgesRestoreRejoinOrExpire : Prop :=
  ∀ s : State, s.ctrl = 3 →
    (∀ (bad : Nat) (c : Cut) (l : List Cut), s.exec.bridgeCut = true → s.exec.restored = none → s.pfailOn = false →
      (bridgeCuts s).drop bad = c :: l →
      Completes (.bridgeRestore bad) s ([Piece.collie, .exec, R.EXEC_EVENTS.piece] ++ noted) fun t =>
        t.exec.restored = some c.index ∧
        t.exec.rejoinAt = (if s.vNow + 1024 ≤ s.head.nextActual then s.head.nextB else s.head.nextB + 1) ∧
        (olderCut s c = true → t.flag R.EXEC_EVENTS F.EXEC_EVENTS.OLD_CKPT_USED = true) ∧
        (olderCut s c = false → t.reg R.EXEC_EVENTS = s.reg R.EXEC_EVENTS)) ∧
    (∀ bad : Nat, s.exec.bridgeCut = false ∨ s.exec.restored.isSome = true ∨ s.pfailOn = true →
      exec (.bridgeRestore bad) s = .next s) ∧
    (∀ i, s.exec.restored = some i → s.exec.rejoinAt ≤ s.headIndex →
      Completes .rejoin s ([Piece.collie, .exec, .img, .block 6, .block 14] ++ noted) fun t =>
        t.ctrl = 1 ∧ t.exec.bridgeW = none ∧ t.exec.restored = none ∧ t.exec.bridgeCount = 0 ∧
        t.reg R.EXEC_BRIDGE_LAST = BitVec.ofNat 32 s.exec.bridgeCount ∧
        t.reg R.EXEC_BRIDGE_AGE = BitVec.ofNat 32 (s.headIndex - i) ∧ t.flag R.EXEC_EVENTS F.EXEC_EVENTS.BRIDGED = true ∧
        ∀ n, n < 4 → tget [] t.img.shadow n = t.img.live) ∧
    (s.exec.restored = none ∨ s.headIndex < s.exec.rejoinAt → exec .rejoin s = .next s) ∧
    (∀ w, s.exec.bridgeW = some w →
      Completes .bridgeLimitExpiry s ([Piece.raw, .collie, .exec, .free, .head, .img, .motion, .txn, .block 4, .block 5, .block 6, .block 7,
          .block 8, .block 11, .block 14, .block 23] ++ noted) fun t =>
        t.ctrl = 2 ∧ t.get R.EXEC_STATUS F.EXEC_STATUS.STOP_CAUSE = 4 ∧ t.exec.bridgeW = none ∧
        t.flag R.EXEC_EVENTS F.EXEC_EVENTS.BRIDGE_EXPIRED = true ∧
        t.raw = (s.advanceTo (w + BitVec.ofNat 64 (msGrains ((s.reg R.EXEC_BRIDGE_LIMIT).toNat % 16384)))).raw)

/-! ### Chapter 6: step transactions -/

/-- R203, R205, R208, R229, R233: the host opens the lowest free slot, adds an action, seals and drops; what fails gives its code, and a
failing seal aborts with its cause. -/
def Claim.HostTransactionsAreOpenedFilledAndSealed : Prop :=
  ∀ s : State,
    let code (t : State) := t.get R.TXN_CMD_RESULT F.TXN_CMD_RESULT.CODE
    let pieces : List Piece := [Piece.txn, R.TXN_CMD_RESULT.piece, R.TXN_EVENTS.piece] ++ noted
    (∀ i, s.txFreeSlot = some i → Completes .txnOpen s [Piece.txn, R.TXN_CMD_RESULT.piece] fun t =>
      let g := tget 0 s.txn.gens i % 1023 + 1
      code t = 0 ∧ t.get R.TXN_CMD_RESULT F.TXN_CMD_RESULT.HANDLE = i + 64 * g ∧
      t.tx i = { Txn.free with gen := g, ownerKind := 3, state := 1, openIndex := s.headIndex } ∧ ∀ j, j ≠ i → t.tx j = s.tx j) ∧
    (s.txFreeSlot = none → Completes .txnOpen s (pieces.drop 1) fun t =>
      code t = 14 ∧ t.get R.TXN_CMD_RESULT F.TXN_CMD_RESULT.HANDLE = 0 ∧ t.flag R.TXN_EVENTS F.TXN_EVENTS.CMD_REFUSED = true) ∧
    (s.hostSlot = none → ∀ c ∈ [Instr.txnAdd, Instr.txnSeal, Instr.txnDrop], Completes c s (pieces.drop 1) fun t =>
      code t = 15 ∧ t.flag R.TXN_EVENTS F.TXN_EVENTS.CMD_REFUSED = true) ∧
    (∀ i, s.hostSlot = some i →
      let x := s.tx i
      let k := s.reg R.TXN_CMD_KIND
      let kind := fldOf F.TXN_CMD_KIND.TARGET_KIND k
      let tgt := (s.reg R.TXN_CMD_TARGET).toNat
      let cmd := fldOf F.TXN_CMD_KIND.AXIS_CMD k
      let b := (s.reg64 R.TXN_CMD_AT_LO R.TXN_CMD_AT_HI).toNat
      (x.state = 1 → ∀ ty pk pid, etypeOf (fldOf F.TXN_CMD_KIND.TYPE k) = some ty → txTarget s kind tgt ty (wireType ty) cmd 2 = some (pk, pid) →
        let a : TxAction :=
          ⟨(txPart x.parts pk pid).1, kind, tgt, ty, cmd, normCell ty (s.reg64 R.TXN_CMD_VALUE_LO R.TXN_CMD_VALUE_HI),
            wireType ty⟩
        let n := if txIsNew x.actions a then x.count + 1 else x.count
        let ps := (txPart x.parts pk pid).2
        (n ≤ 4096 → ps.length ≤ 64 → Completes .txnAdd s [Piece.txn, R.TXN_CMD_RESULT.piece] fun t =>
          code t = 0 ∧ (t.tx i).actions = txAppend x.actions a ∧ (t.tx i).parts = ps ∧ (t.tx i).state = 1 ∧ (t.tx i).count = n) ∧
        (4096 < n → Completes .txnAdd s pieces fun t => code t = 5 ∧ (t.tx i).full = true ∧ (t.tx i).actions = x.actions) ∧
        (n ≤ 4096 → 64 < ps.length → Completes .txnAdd s pieces fun t =>
          code t = 6 ∧ (t.tx i).tooMany = true ∧ (t.tx i).actions = x.actions)) ∧
      (x.state = 1 → (∀ ty, etypeOf (fldOf F.TXN_CMD_KIND.TYPE k) = some ty → txTarget s kind tgt ty (wireType ty) cmd 2 = none) →
        Completes .txnAdd s pieces fun t =>
          code t = 7 ∧ (t.tx i).badAction = true ∧ (t.tx i).actions = x.actions ∧ t.flag R.TXN_EVENTS F.TXN_EVENTS.CMD_REFUSED = true) ∧
      (x.state ≠ 1 → ∀ c ∈ [Instr.txnAdd, Instr.txnSeal], Completes c s (pieces.drop 1) fun t => code t = 15) ∧
      (x.state = 1 → sealCause s i b = 0 → Completes .txnSeal s [Piece.txn, R.TXN_CMD_RESULT.piece] fun t =>
        code t = 0 ∧ t.tx i = { x with
          state := 2, at_ := b, bn := s.firstIndexAfter s.vNow 1024, sealRaw := s.raw
          parts := x.parts.map fun p => if lostNow s p then { p with vote := 2, reason := 5 } else p } ∧
        (∀ (n : Nat) (p : Part), x.parts[n]? = some p → p.kind = 5 → ∀ l, l = x.actions.filter (fun a => a.part = n) →
          (p.id, s.txHandle i, b, l) ∈ t.txn.sentActions)) ∧
      (x.state = 1 → sealCause s i b ≠ 0 → x.dropped = false → Completes .txnSeal s (R.TXN_ABORT_CNT.piece :: pieces) fun t =>
        code t = sealCause s i b ∧ (t.tx i).state = 7 ∧ (t.tx i).cause = sealCause s i b ∧
        t.reg R.TXN_ABORT_CNT = satSucc (s.reg R.TXN_ABORT_CNT) ∧ t.flag R.TXN_EVENTS F.TXN_EVENTS.ABORTED = true) ∧
      Completes .txnDrop s (R.TXN_ABORT_CNT.piece :: pieces) (fun t =>
        code t = 0 ∧ (x.state = 1 ∨ 4 ≤ x.state → t.tx i = Txn.free) ∧
        (x.state = 2 ∨ x.state = 3 → t.tx i = { x with dropped := true })))

/-- R209, R212, R213: the local participants of a sealed transaction vote when local staging ends; a peer's vote is taken while the
transaction is not decided, and a NO stands. -/
def Claim.ParticipantsVoteOnASealedTransaction : Prop :=
  ∀ s : State,
    (∀ i : Fin 64, (s.tx i).state = 2 → (s.tx i).decided = false → (s.tx i).localDone = false →
      Completes (.localStagingDone i) s [Piece.raw, .txn] fun t =>
        (t.tx i).localDone = true ∧ (t.tx i).state = 2 ∧ (∀ j, j ≠ i.val → t.tx j = s.tx j) ∧
        ∀ (n : Nat) (p : Part), (s.tx i).parts[n]? = some p → (t.tx i).parts[n]? = some
          (if 3 < p.kind ∨ p.vote = 2 then p
          else if (localVote s (s.tx i) p).1 then { p with vote := 1, reason := 0 }
          else { p with vote := 2, reason := if p.vote = 1 then 4 else (localVote s (s.tx i) p).2 })) ∧
    (∀ i : Fin 64, (s.tx i).state ≠ 2 ∨ (s.tx i).localDone = true → exec (.localStagingDone i) s = .next s) ∧
    (∀ (d : Fin 8) (h : BitVec 16) (yes : Bool) (why : Fin 16) (i n : Nat) (p : Part), s.txSlot h.toNat = some i →
      s.partOf i 5 d = some n → (s.tx i).parts[n]? = some p → (s.tx i).state = 2 → (s.tx i).decided = false →
      Completes (.peerVote d h yes why) s [Piece.txn] fun t => (t.tx i).parts[n]? = some
        (if p.vote = 2 then p else if yes then { p with vote := 1, reason := 0 }
        else { p with vote := 2, reason := if p.vote = 1 then 4 else why })) ∧
    (∀ (d : Fin 8) (h : BitVec 16) (yes : Bool) (why : Fin 16), s.txSlot h.toNat = none → exec (.peerVote d h yes why) s = .next s)

/-- Host transactions are opened, filled and sealed, and their participants vote. -/
def Obligations.TransactionsAreFilledSealedAndVoted : Prop :=
  Claim.HostTransactionsAreOpenedFilledAndSealed ∧ Claim.ParticipantsVoteOnASealedTransaction

/-- R214, R215, R216: a transaction sealed for the next headland is decided before it, commit when no participant gives a cause and else
abort with the lowest, and its decision is broadcast; a commit is applied at its headland. -/
def Claim.TransactionsAreDecidedAndBroadcast : Prop :=
  ∀ (s : State) (i : Fin 64), s.head.armed = true →
    let decided (t : State) : Prop := (t.tx i).decided = true ∧ (t.tx i).commitV = BitVec.ofInt 64 s.head.nextActual
    ((s.tx i).at_ = s.head.nextB → (s.tx i).state = 2 → s.farm.outOfStep = false →
      Completes .txnDecision s ([Piece.raw, .txn, .joa, .free, .block 8] ++ noted) fun t =>
      t.raw = (s.advanceToV (s.head.nextActual - (s.pg / 4 : Nat))).raw ∧
      (decisionCause (s.tx i) = 0 → decided t ∧ (t.tx i).state = 3 ∧ (t.tx i).commit = true) ∧
      (decisionCause (s.tx i) ≠ 0 → t.flag R.TXN_EVENTS F.TXN_EVENTS.ABORTED = true ∧
        ((s.tx i).dropped = false → decided t ∧ (t.tx i).state = 7 ∧ (t.tx i).cause = decisionCause (s.tx i)) ∧
        ((s.tx i).dropped = true → t.tx i = Txn.free)) ∧
      (∃ c ∈ t.txn.casts, c.at_ = s.head.nextB ∧ c.handle = s.txHandle i ∧ c.commit = decide (decisionCause (s.tx i) = 0)) ∧
      ∀ j, j < 64 → ¬((s.tx j).state = 2 ∧ (s.tx j).at_ = s.head.nextB) → t.tx j = s.tx j) ∧
    (∀ c ∈ s.txn.casts, c.at_ = s.head.nextB → Completes .txnBroadcast s [Piece.raw, .txn, .field] fun t =>
      t.raw = (s.advanceToV (s.head.nextActual - (s.pg / 8 : Nat))).raw ∧ t.txn.slots = s.txn.slots ∧
      (∀ p, p < 4 → p ∈ c.ports → (p, c.handle, c.commit) ∈ t.txn.sent) ∧
      (∀ d ∈ c.peers, (16 + d, c.handle, c.commit) ∈ t.txn.sent) ∧ ∀ x ∈ t.txn.casts, x.at_ ≠ s.head.nextB) ∧
    ((∀ j, j < 64 → ¬((s.tx j).state = 2 ∧ (s.tx j).at_ = s.head.nextB)) → exec .txnDecision s = .next s) ∧
    ((∀ c ∈ s.txn.casts, c.at_ ≠ s.head.nextB) → exec .txnBroadcast s = .next s)

/-- R205, R206, R217, R220, R221, R597: final states are held for HOLD base periods and open ones time out; the receipt of a peer settles
its part; a write that waited for a run takes effect in the valid copy. -/
def Claim.TransactionsExpireAndSettle : Prop :=
  ∀ s : State,
    (Completes .txnHoldExpiry s [Piece.txn] fun t => ∀ i, i < 64 →
      let hold := s.get R.TXN_CFG F.TXN_CFG.HOLD
      t.tx i = if hold ≠ 0 ∧ 4 ≤ (s.tx i).state ∧ (s.tx i).finalIndex + hold ≤ s.headIndex then Txn.free else s.tx i) ∧
    (Completes .openTimeout s ([Piece.txn, R.TXN_ABORT_CNT.piece, R.TXN_EVENTS.piece] ++ noted) fun t => ∀ i, i < 64 →
      let lim := s.get R.TXN_CFG F.TXN_CFG.OPEN_LIMIT
      (lim ≠ 0 ∧ (s.tx i).state = 1 ∧ (s.tx i).openIndex + lim < s.headIndex → (s.tx i).dropped = false →
        (t.tx i).state = 7 ∧ (t.tx i).cause = 13 ∧ t.flag R.TXN_EVENTS F.TXN_EVENTS.ABORTED = true) ∧
      (¬(lim ≠ 0 ∧ (s.tx i).state = 1 ∧ (s.tx i).openIndex + lim < s.headIndex) → t.tx i = s.tx i)) ∧
    (∀ (d : Fin 8) (h : BitVec 16) (i n : Nat) (p : Part), s.txSlot h.toNat = some i → s.partOf i 5 d = some n →
      (s.tx i).parts[n]? = some p → p.outcome = 0 →
      ((s.tx i).state = 7 → ∀ a, Completes (.peerReceipt d h a) s [Piece.txn] fun t =>
        (t.tx i).parts[n]? = some { p with outcome := 5, doubt := false }) ∧
      ((s.tx i).state = 3 → (s.tx i).applied = false → Completes (.peerReceipt d h .received) s [Piece.txn] fun t =>
        (t.tx i).parts[n]? = some { p with outcome := 1 }) ∧
      ((s.tx i).state = 3 → (s.tx i).applied = false → ∀ l, Completes (.peerReceipt d h (.late l)) s
          ([Piece.txn, R.TXN_LATE_CNT.piece, R.TXN_EVENTS.piece] ++ noted) fun t =>
        (t.tx i).parts[n]? = some { p with late := true, outcome := 2, doubt := false } ∧
        t.reg R.TXN_LATE_CNT = satSucc (s.reg R.TXN_LATE_CNT) ∧ t.flag R.TXN_EVENTS F.TXN_EVENTS.LATE = true) ∧
      ((s.tx i).state = 3 → (s.tx i).applied = false → Completes (.peerReceipt d h .expired) s
          ([Piece.txn, R.TXN_LOST_DOUBT_CNT.piece, R.TXN_EVENTS.piece] ++ noted) fun t =>
        (t.tx i).parts[n]? = some { p with outcome := 3, doubt := true } ∧
        t.flag R.TXN_EVENTS F.TXN_EVENTS.LOST_IN_DOUBT = true)) ∧
    (∀ w : DeferredWrite, s.txn.deferred = [w] → w.old = false →
      (s.taskRuns w.desc = true → exec .deferredOdWrite s = .next s) ∧
      (s.taskRuns w.desc = false → Completes .deferredOdWrite s [Piece.txn, .collie] fun t =>
        t.txn.deferred = [] ∧ t.retained w.desc = (s.retained w.desc).poke w.cell w.value ∧
        ∀ j, j ≠ w.desc → t.retained j = s.retained j))

/-- Transactions are decided, broadcast, expire and settle. -/
def Obligations.TransactionsAreDecidedAndSettled : Prop :=
  Claim.TransactionsAreDecidedAndBroadcast ∧ Claim.TransactionsExpireAndSettle

/-! ### Chapter 7: converters, accumulators and DACs -/

/-- R243: enabling a reference buffer starts 5,242,880 grains of settling; settled, it says so with the virtual time; disabled or out of
range it is not settled, and one that is in range again settles anew. -/
def Claim.ReferenceBuffersSettleAndFault : Prop :=
  ∀ (p : Fin 4) (s : State),
    let c := R.ADC_p_REF_CTRL p
    let st := R.ADC_p_REF_STATUS p
    let settles (t : State) : Prop :=
      t.flag st F.ADC_p_REF_STATUS.SETTLING = true ∧ tget none t.analog.settleAt p = some (s.raw + 5242880)
    let lost (t : State) : Prop := t.flag st F.ADC_p_REF_STATUS.SETTLED = false ∧ t.flag st F.ADC_p_REF_STATUS.SETTLING = false ∧
      tget none t.analog.settleAt p = none ∧ ∀ i, i < 4 → (t.au (4 * p + i)).calOk = false
    (∀ v : Word, fldOf F.ADC_p_REF_CTRL.EN v = 1 →
      (s.flag c F.ADC_p_REF_CTRL.EN = false → Completes (.refEnable p v) s [Piece.analog, c.piece, st.piece] fun t =>
        t.flag c F.ADC_p_REF_CTRL.EN = true ∧ settles t) ∧
      (s.flag c F.ADC_p_REF_CTRL.EN = true → Completes (.refEnable p v) s [c.piece] fun t => t.flag c F.ADC_p_REF_CTRL.EN = true)) ∧
    (∀ v : Word, fldOf F.ADC_p_REF_CTRL.EN v = 0 → Completes (.refEnable p v) s [Piece.analog, c.piece, st.piece] fun t =>
      t.flag c F.ADC_p_REF_CTRL.EN = false ∧ lost t ∧ t.flag st F.ADC_p_REF_STATUS.FAULT = false) ∧
    (∀ g, tget none s.analog.settleAt p = some g →
      Completes (.refSettled p) s ([Piece.raw, .analog, .block 9] ++ noted) fun t =>
        t.raw = (s.advanceTo g).raw ∧ t.flag st F.ADC_p_REF_STATUS.SETTLED = true ∧ t.flag st F.ADC_p_REF_STATUS.SETTLING = false ∧
        t.reg64 (R.ADC_p_REF_SETTLED_V_LO p) (R.ADC_p_REF_SETTLED_V_HI p) = (s.advanceTo g).vT64 ∧
        tget none t.analog.settleAt p = none ∧ t.flag R.ADC_EVENTS ⟨4 + p.val, 1⟩ = true) ∧
    (tget none s.analog.settleAt p = none → exec (.refSettled p) s = .next s) ∧
    (s.flag c F.ADC_p_REF_CTRL.EN = true → Completes (.refFault p) s ([Piece.analog, st.piece, R.ADC_EVENTS.piece] ++ noted) fun t =>
      lost t ∧ t.flag st F.ADC_p_REF_STATUS.FAULT = true ∧ t.flag R.ADC_EVENTS ⟨p.val, 1⟩ = true) ∧
    (s.flag c F.ADC_p_REF_CTRL.EN = false → exec (.refFault p) s = .next s) ∧
    (s.flag st F.ADC_p_REF_STATUS.FAULT = true → Completes (.refInRange p) s [Piece.analog, st.piece] fun t =>
      t.flag st F.ADC_p_REF_STATUS.FAULT = false ∧ settles t) ∧
    (s.flag st F.ADC_p_REF_STATUS.FAULT = false → exec (.refInRange p) s = .next s)

/-- R236, R237, R238, R242, R244, R248: a conversion samples 96 grains into the unit's next slot and gives the word of its sample value,
channel, reason, clipping and gain, under the channel's setting then; the sequence moves on, and its last entry ends a pass. -/
def Claim.ConversionsGiveTheirWord : Prop :=
  ∀ (u : Fin 16) (code : BitVec 18) (s : State),
    let x := (s.au u).at (nextSlot s u)
    let g := nextSlot s u + 96
    let gives (entry : Nat) (injected : Bool) (t : State) : Prop :=
      let i := entry % 16
      let ch := (s.chan (16 * u + i)).settle g true
      let cfg := ch.cfg
      let ofs : Int := (s.reg (R.AU_n_CAL_OFS_g u (cfg % 4))).toInt
      let gain : Int := ((s.reg (R.AU_n_CAL_GAIN_g u (cfg % 4))).toNat % 2 ^ 22 : Nat)
      let v := clampInt (-524288) 524287 (((16 * (code.toNat : Int) - ofs) * gain + 2 ^ 23) / 2 ^ 24)
      let reason := if s.refOk u = false then 1 else if 0 < ch.gainLeft then 2 else 0
      (t.au u).word = BitVec.ofNat 32 ((v % 2 ^ 20).toNat + 2 ^ 20 * i + (if reason = 0 then 2 ^ 24 else 0) + 2 ^ 25 * reason +
        (if injected then 2 ^ 27 else 0) + (if code.toNat = 0 ∨ code.toNat = 262143 then 2 ^ 28 else 0) + 2 ^ 29 * (cfg % 4)) ∧
      (t.au u).sampled = g ∧ (t.au u).slot = g + 416 ∧ t.raw = (s.advanceTo g).raw ∧
      (injected = false → reason ≠ 0 → (t.chan (16 * u + i)).valid = false ∧ (t.chan (16 * u + i)).reason = reason)
    let parts := [Piece.analog, .collie, .raw, .block 10, .block 32] ++ noted
    auConverts s u = true →
    (x.inj = .running → Completes (.conversion u code) s parts fun t =>
      gives (s.reg (R.AU_n_INJ_e u x.injNext)).toNat true t ∧ (t.au u).injNext = x.injNext + 1 ∧ (t.au u).next = x.next ∧
      (t.au u).inj = .running ∧
      (t.au u).injEnd = if s.get (R.AU_n_INJ_CTRL u) F.AU_n_INJ_CTRL.INJ_LEN_M1 ≤ x.injNext then some (g + 416) else none) ∧
    (x.inj ≠ .running → x.suspended = false → x.cal ≠ .running → Completes (.conversion u code) s parts fun t =>
      gives (s.reg (R.AU_n_SEQ_e u x.next)).toNat false t ∧ (t.au u).inj = x.inj ∧
      (t.au u).next = (if s.seqLen u ≤ x.next + 1 then 0 else x.next + 1) ∧
      t.reg (R.AU_n_PASS_CNT u) = (if s.seqLen u ≤ x.next + 1 then s.reg (R.AU_n_PASS_CNT u) + 1 else s.reg (R.AU_n_PASS_CNT u))) ∧
    (x.inj ≠ .running → x.suspended = true ∨ x.cal = .running → exec (.conversion u code) s = .next s)

/-- R241, R242: a unit starts at the next slot boundary and stops at one; a request for its injected sequence waits or is dropped and
counted, and starts the sequence at the first boundary at least 32 grains later. -/
def Claim.ConverterUnitsRunTheirSequences : Prop :=
  ∀ (u : Fin 16) (s : State),
    let x := s.au u
    let refused (t : State) : Prop := t = s.raise (R.AU_n_EVENTS u) F.AU_n_EVENTS.CFG_REFUSED
    let asked (from_ : State) (g : Quad) (t : State) : Prop :=
      (s.auRun u = true → (x.at g).inj = .none → (t.au u).inj = .waiting ∧ (t.au u).injAt = g) ∧
      (s.auRun u = false ∨ (x.at g).inj ≠ .none → t.au u = x ∧
        t.reg (R.AU_n_INJ_DROP_CNT u) = satSucc (from_.reg (R.AU_n_INJ_DROP_CNT u)) ∧
        t.flag (R.AU_n_EVENTS u) F.AU_n_EVENTS.INJ_DROPPED = true)
    (∀ v : Word,
      let l := fldOf F.AU_n_CTRL.SEQ_LEN_M1 v + 1
      let fits := ∀ i, i < 16 → accFits s u i (s.get (R.ACC_c_CFG (16 * u + i)) F.ACC_c_CFG.WIN_M_M1 + 1) l = true
      let bad := (s.auRun u = true ∧ (v ^^^ s.reg (R.AU_n_CTRL u)) &&& 0x1F2 ≠ 0) ∨
        (fldOf F.AU_n_CTRL.LEGACY v = 1 ∧ fldOf F.AU_n_CTRL.RUN v = 1 ∧ 16 < l) ∨ ¬fits
      (bad → ∃ t, exec (.auCtrlWrite u v) s = .next t ∧ refused t) ∧
      (¬bad → Completes (.auCtrlWrite u v) s ([Piece.analog, .capture, .collie, .mem, .block 12, .block 24, .block 32] ++ noted) fun t =>
        let y := x.at s.raw
        let b := slotAfter s.raw
        t.reg (R.AU_n_CTRL u) = v &&& 0x1F3 ∧
        (fldOf F.AU_n_CTRL.RUN v = 1 → s.auRun u = true → t.analog = s.analog) ∧
        (fldOf F.AU_n_CTRL.RUN v = 1 → s.auRun u = false → t.au u = { y with startAt := some b } ∧
          ((t.au u).at b).running = true ∧ ((t.au u).at b).next = 0 ∧
          (y.running = false → ∀ i, i < 16 → (t.chan (16 * u + i)).restart = true ∧
            ∀ w, (t.chan (16 * u + i)).win = some w → w.gap = true)) ∧
        (fldOf F.AU_n_CTRL.RUN v = 0 → s.auRun u = true →
          t.au u = { y with startAt := none, stopAt := if y.running then some b else none } ∧ ((t.au u).at b).running = false) ∧
        (fldOf F.AU_n_CTRL.RUN v = 0 → s.auRun u = false → t.analog = s.analog))) ∧
    (∀ v : Word,
      let r := R.AU_n_INJ_CTRL u
      let bad := s.auRun u = true ∧ fldOf F.AU_n_INJ_CTRL.INJ_LEN_M1 v ≠ s.get r F.AU_n_INJ_CTRL.INJ_LEN_M1
      (bad → ∃ t, exec (.injSwTrig u v) s = .next t ∧ refused t) ∧
      (¬bad → Completes (.injSwTrig u v) s ([Piece.analog, .block 32] ++ noted) fun t => asked s s.raw t ∧
        t.get r F.AU_n_INJ_CTRL.TRIG_SRC = (if 6 ≤ fldOf F.AU_n_INJ_CTRL.TRIG_SRC v then 0 else fldOf F.AU_n_INJ_CTRL.TRIG_SRC v) ∧
        t.get r F.AU_n_INJ_CTRL.INJ_LEN_M1 = fldOf F.AU_n_INJ_CTRL.INJ_LEN_M1 v)) ∧
    (∀ g l, s.analog.reqs = (u.val, g) :: l → Completes (.injectedRequest u) s ([Piece.analog, .raw, .block 32] ++ noted) fun t =>
      t.raw = (s.advanceTo g).raw ∧ t.analog.reqs = l ∧ asked s g t) ∧
    ((∀ r ∈ s.analog.reqs, r.1 ≠ u.val) → exec (.injectedRequest u) s = .next s) ∧
    (let b := BitVec.ofNat 64 (((x.injAt + 32).toNat + 511) / 512 * 512)
     let y := x.at b
     (y.inj = .waiting → y.running = true → y.cal ≠ .running → Completes (.injectedStart u) s [Piece.analog, .raw] fun t =>
        t.raw = (s.advanceTo b).raw ∧ t.au u = { y with inj := .running, injNext := 0, injEnd := none, slot := b }) ∧
      (y.inj = .waiting → y.running = true → y.cal = .running → calPreempt s u = true →
        Completes (.injectedStart u) s ([Piece.analog, .raw, .block 32] ++ noted) fun t =>
          let z : AUnit := { x with cal := .waiting, suspended := true }
          t.raw = (s.advanceTo b).raw ∧ t.au u = { z.at b with inj := .running, injNext := 0, injEnd := none, slot := b } ∧
          t.get (R.AU_n_CAL_CTRL u) F.AU_n_CAL_CTRL.ABORTS = s.get (R.AU_n_CAL_CTRL u) F.AU_n_CAL_CTRL.ABORTS + 1 ∧
          t.reg (R.AU_n_CAL_ABORT_CNT u) = satSucc (s.reg (R.AU_n_CAL_ABORT_CNT u)) ∧
          t.flag (R.AU_n_EVENTS u) F.AU_n_EVENTS.CAL_ABORTED = true ∧
          (s.get (R.AU_n_CAL_CTRL u) F.AU_n_CAL_CTRL.ABORTS = 7 → t.flag (R.AU_n_EVENTS u) F.AU_n_EVENTS.CAL_FORCED = true)) ∧
      (y.inj ≠ .waiting ∨ y.running = false ∨ (y.cal = .running ∧ calPreempt s u = false) → exec (.injectedStart u) s = .next s))

/-- References, conversions and the sequences of a converter unit. -/
def Obligations.ConvertersConvertOnSettledReferences : Prop :=
  Claim.ReferenceBuffersSettleAndFault ∧ Claim.ConversionsGiveTheirWord ∧ Claim.ConverterUnitsRunTheirSequences

/-- R244, R249 to R252: a channel's setting is staged or refused; a calibration is requested or refused, begins at a slot boundary, and at
slot 4,096 its coefficients are taken where all are acceptable and the reference stayed settled. -/
def Claim.ChannelSettingsAndCalibrations : Prop :=
  ∀ (u : Fin 16) (s : State),
    let x := s.au u
    let ctl := R.AU_n_CAL_CTRL u
    (∀ (i : Fin 16) (v : Word),
      let new := v.toNat % 128
      let bad := (new / 4 % 4 = 1 ∧ 5 < new / 16 % 8) ∨ new / 4 % 4 = 3
      (bad → exec (.chCfgWrite u i v) s = .next (s.raise (R.AU_n_EVENTS u) F.AU_n_EVENTS.CFG_REFUSED)) ∧
      (¬bad → Completes (.chCfgWrite u i v) s [Piece.analog, (R.AU_n_i_CH_CFG u i).piece] fun t =>
        t.reg (R.AU_n_i_CH_CFG u i) = BitVec.ofNat 32 (new + 256) ∧
        (s.headRun = true → t.analog = s.analog) ∧
        (s.headRun = false → t.chan (16 * u + i) =
          { (s.chan (16 * u + i)).settle s.raw false with armed := some ⟨slotAfter s.raw, new, true⟩ }))) ∧
    (∀ v : Word,
      (s.auRun u = false ∨ s.refOk u = false ∨ (x.at s.raw).cal ≠ .none →
        Completes (.calStart u v) s ([ctl.piece, (R.AU_n_EVENTS u).piece] ++ noted) fun t =>
          t.get ctl F.AU_n_CAL_CTRL.CAL_RESULT = 3 ∧ t.flag (R.AU_n_EVENTS u) F.AU_n_EVENTS.CAL_REFUSED = true) ∧
      (s.auRun u = true → s.refOk u = true → (x.at s.raw).cal = .none → Completes (.calStart u v) s [Piece.analog, ctl.piece] fun t =>
        t.get ctl F.AU_n_CAL_CTRL.ABORTS = 0 ∧ t.au u = { x with cal := .waiting, calReq := s.raw } ∧
        t.get ctl F.AU_n_CAL_CTRL.INJ_PREEMPT_CAL = fldOf F.AU_n_CAL_CTRL.INJ_PREEMPT_CAL v)) ∧
    (let next := (x.at (slotAfter x.calReq)).slot
     let b := if (slotAfter x.calReq).toNat ≤ next.toNat then next else slotAfter x.calReq
     let y := x.at b
     (y.cal = .waiting → y.inj = .none → y.running = true →
        Completes (.calBegin u) s ([Piece.analog, .capture, .collie, .mem, .raw, .block 12, .block 24] ++ noted) fun t =>
          t.raw = (s.advanceTo b).raw ∧ t.au u = { y with cal := .running, calAt := b, calOk := s.refOk u, suspended := true } ∧
          ∀ i, i < 16 → ∀ w, (t.chan (16 * u + i)).win = some w → w.gap = true) ∧
      (y.cal ≠ .waiting ∨ y.inj ≠ .none ∨ y.running = false → exec (.calBegin u) s = .next s)) ∧
    (∀ c : CalSums, (x.at (x.calAt + 2097152)).cal = .running →
      Completes (.calEnd u c) s ([Piece.analog, .raw, .free, .block 32] ++ noted) fun t =>
      let b := x.calAt + 2097152
      let held := decide ((x.at b).inj = .waiting)
      t.raw = (s.advanceTo b).raw ∧ (t.au u).cal = .none ∧ (t.au u).suspended = held ∧ (t.au u).slot = b ∧
      (t.au u).inj = (if held then .running else (x.at b).inj) ∧
      (∀ l, x.calOk = true → calPairs c = some l → t.get ctl F.AU_n_CAL_CTRL.CAL_RESULT = 1 ∧
        t.flag (R.AU_n_EVENTS u) F.AU_n_EVENTS.CAL_DONE = true ∧
        t.reg64 (R.AU_n_CAL_LAST_V_LO u) (R.AU_n_CAL_LAST_V_HI u) = (s.advanceTo b).vT64 ∧
        ∀ g o k, l[g]? = some (o, k) → o ≤ 32768 ∧ 1032192 ≤ k ∧ k ≤ 1064960 ∧
          t.reg (R.AU_n_CAL_OFS_g u g) = BitVec.ofNat 32 o ∧ t.reg (R.AU_n_CAL_GAIN_g u g) = BitVec.ofNat 32 k) ∧
      (x.calOk = false ∨ calPairs c = none → t.get ctl F.AU_n_CAL_CTRL.CAL_RESULT = 2 ∧
        t.flag (R.AU_n_EVENTS u) F.AU_n_EVENTS.CAL_FAILED = true ∧
        ∀ g, g < 4 → t.reg (R.AU_n_CAL_OFS_g u g) = s.reg (R.AU_n_CAL_OFS_g u g) ∧
          t.reg (R.AU_n_CAL_GAIN_g u g) = s.reg (R.AU_n_CAL_GAIN_g u g))) ∧
    (∀ c : CalSums, (x.at (x.calAt + 2097152)).cal ≠ .running → exec (.calEnd u c) s = .next s)

/-- R253, R255 to R258, R262: a window setting that fits is taken; reads latch a closed record and a tracker for their master; trackers are
cleared; a comparator is unknown after a write and refused where its thresholds cross. -/
def Claim.AccumulatorsTrackersAndComparators : Prop :=
  ∀ s : State,
    (∀ (c : Fin 256) (v : Word),
      let m := fldOf F.ACC_c_CFG.WIN_M_M1 v + 1
      let good := fldOf F.ACC_c_CFG.WIN_PHASE v < m ∧ accFits s (c.val / 16) (c.val % 16) m (s.seqLen (c.val / 16)) = true
      (good → exec (.accCfgWrite c v) s = .next (s.setReg (R.ACC_c_CFG c) (v &&& 0xFFFF))) ∧
      (¬good → exec (.accCfgWrite c v) s = .next (s.raise R.ACC_EVENTS F.ACC_EVENTS.CFG_REFUSED))) ∧
    (∀ (m : Master) (c : Fin 256),
      let r := (s.chan c).closed
      Completes (.accNRead m c) s [Piece.readData, .group] fun t => t.readData = BitVec.ofNat 32 (r.n + 65536 * r.inv) ∧
        (∀ i, i ∈ [1, 3, 4, 5, 6, 7, 8, 9, 10, 11, 12] →
          tget none t.group (masterKey m ((R.ACC_c_CFG c).addr + 4 * i)) = some (accWord r i)) ∧
        ∀ m', m' ≠ m → ∀ a, a < 2 ^ 28 → tget none t.group (masterKey m' a) = tget none s.group (masterKey m' a)) ∧
    (∀ (m : Master) (c : Fin 256), Completes (.trkMinRead m c) s [Piece.readData, .group] fun t =>
      t.readData = s.reg (R.ACC_c_TRK_MIN c) ∧
      (∀ r ∈ [R.ACC_c_TRK_MIN_T_LO c, R.ACC_c_TRK_MIN_T_HI c, R.ACC_c_TRK_MAX c, R.ACC_c_TRK_MAX_T_LO c, R.ACC_c_TRK_MAX_T_HI c],
        tget none t.group (masterKey m r.addr) = some (s.reg r))) ∧
    (∀ v : Word, Completes (.accTrkClr v) s [Piece.analog, .block 10] fun t => ∀ c : Fin 256,
      (fldOf F.ACC_TRK_CLR.ALL v = 1 ∨ c.val = v.toNat % 256 →
        (t.reg (R.ACC_c_TRK_MIN c)).toInt = 524287 ∧ (t.reg (R.ACC_c_TRK_MAX c)).toInt = -524288 ∧
        t.reg64 (R.ACC_c_TRK_MIN_T_LO c) (R.ACC_c_TRK_MIN_T_HI c) = 0 ∧ t.reg64 (R.ACC_c_TRK_MAX_T_LO c) (R.ACC_c_TRK_MAX_T_HI c) = 0 ∧
        t.chan c = { s.chan c with tracked := false }) ∧
      (fldOf F.ACC_TRK_CLR.ALL v = 0 → c.val ≠ v.toNat % 256 → t.chan c = s.chan c ∧
        t.reg (R.ACC_c_TRK_MIN c) = s.reg (R.ACC_c_TRK_MIN c) ∧ t.reg (R.ACC_c_TRK_MAX c) = s.reg (R.ACC_c_TRK_MAX c))) ∧
    (∀ (c : Fin 256) (k : Fin 3) (v : Word),
      let r := R.ACC_c_WCMP_CFG c
      Completes (.wcmpCfgWrite c k v) s
        ([(R.ACC_c_WCMP_LOW c).piece, (R.ACC_c_WCMP_HIGH c).piece, r.piece, R.ACC_EVENTS.piece] ++ noted) fun t =>
        t.get r F.ACC_c_WCMP_CFG.STATE = 0 ∧
        t.reg (R.ACC_c_WCMP_LOW c) = (if k.val = 0 then (v.extractLsb' 0 20).signExtend 32 else s.reg (R.ACC_c_WCMP_LOW c)) ∧
        t.reg (R.ACC_c_WCMP_HIGH c) = (if k.val = 1 then (v.extractLsb' 0 20).signExtend 32 else s.reg (R.ACC_c_WCMP_HIGH c)) ∧
        (k.val = 2 → t.get r F.ACC_c_WCMP_CFG.HYST = fldOf F.ACC_c_WCMP_CFG.HYST v) ∧
        (let h : Int := t.get r F.ACC_c_WCMP_CFG.HYST
         let on := if k.val = 2 then fldOf F.ACC_c_WCMP_CFG.EN v = 1 else s.flag r F.ACC_c_WCMP_CFG.EN = true
         let crossed := (t.reg (R.ACC_c_WCMP_HIGH c)).toInt - h < (t.reg (R.ACC_c_WCMP_LOW c)).toInt + h
         t.flag r F.ACC_c_WCMP_CFG.EN = decide (on ∧ ¬crossed) ∧
         (on → crossed → t.flag R.ACC_EVENTS F.ACC_EVENTS.CFG_REFUSED = true))) ∧
    Completes .dacrefReady s [R.DAC_STATUS.piece] fun t => t.flag R.DAC_STATUS ⟨0, 1⟩ = true ∧
      ∀ n, n < 32 → (s.flag R.DAC_STATUS ⟨0, 1⟩ = false → dacOutput s n = 0) ∧ dacOutput t n = (s.reg (R.DAC_n_CODE n)).toNat % 65536

/-- Channel settings and calibrations, accumulators, trackers and comparators. -/
def Obligations.ChannelsAccumulateAndCompare : Prop :=
  Claim.ChannelSettingsAndCalibrations ∧ Claim.AccumulatorsTrackersAndComparators

/-! ### Chapter 8: capture and the gleaner -/

/-- R285, R286, R289, R291, R295: ARM of an idle channel takes its slot or waits for it, and is refused where its memory is not free to
use; DISARM ends what the channel does; a software trigger reaches the channels of its mask, and one that comes at the grain of a sample
already taken joins the event of that sample; REARM takes the next slot. -/
def Claim.CaptureChannelsAreArmedAndDisarmed : Prop :=
  ∀ (n : Fin 16) (s : State),
    let x := s.capt n
    let c := R.CAPT_n_CTRL n
    let d0 := s.slotDesc n 0
    let d := s.slotDesc n x.slot
    let own : Prop := s.get (R.MEM_k_OWNER 5) F.MEM_k_OWNER.OWNER = 5
    (∀ v : Word, fldOf F.CAPT_n_CTRL.DISARM v = 0 → fldOf F.CAPT_n_CTRL.SW_TRIG v = 0 →
      Completes (.arm n v) s ([Piece.capture, .block 12] ++ noted) fun t =>
        t.get c F.CAPT_n_CTRL.COUNT = max 1 (min 4096 (fldOf F.CAPT_n_CTRL.COUNT v)) ∧
        t.get c F.CAPT_n_CTRL.CONTINUOUS = fldOf F.CAPT_n_CTRL.CONTINUOUS v ∧
        (x.busy = true → t.capt n = x) ∧
        (x.busy = false → armOk s n = false → t.capt n = x ∧ t.flag R.CAPT_EVENTS F.CAPT_EVENTS.CFG_REFUSED = true) ∧
        (x.busy = false → armOk s n = true → (t.capt n).slot = 0 ∧ (t.capt n).taken = 0 ∧ (t.capt n).trigs = [] ∧
          (s.segState d0 = 0 → (t.capt n).st = 0 ∧ (t.capt n).armAt = some s.raw ∧ (d0 ∉ s.capture.ready → t.segState d0 = 1)) ∧
          (s.segState d0 ≠ 0 → (t.capt n).st = 4 ∧ t.flag R.CAPT_EVENTS F.CAPT_EVENTS.WAIT_SLOT = true))) ∧
    (∀ v : Word, fldOf F.CAPT_n_CTRL.ARM v = 0 → fldOf F.CAPT_n_CTRL.SW_TRIG v = 0 → d < 4096 →
      Completes (.disarm n v) s ([Piece.capture, .collie, .mem, .block 12, .block 24] ++ noted) fun t =>
        (t.capt n).st = 0 ∧ (t.capt n).armAt = none ∧ (t.capt n).trigs = [] ∧
        (x.st = 1 ∨ x.armAt.isSome = true → t.mem = s.mem ∧ (d ∉ s.capture.ready → t.segState d = 0)) ∧
        (x.st = 2 → x.armAt = none → t.reg (R.CAPT_d_SEG_SEQ d) = s.reg (R.CAPT_n_SEQ n) ∧
          t.reg (R.CAPT_n_SEQ n) = s.reg (R.CAPT_n_SEQ n) + 1 ∧ (d ∈ t.capture.ready ∨ t.capture.copying = some d) ∧
          t.flag R.CAPT_EVENTS F.CAPT_EVENTS.SEG_READY = true ∧
          (own → t.mem = (s.memWrite (s.slotAddr n x.slot) (segHeader s n 2)).mem) ∧
          (¬own → t.mem = s.mem ∧ t.reg R.MEM_VIOL_CNT = satSucc (s.reg R.MEM_VIOL_CNT)))) ∧
    (∀ v : Word, Completes (.captSwTrig v) s ([Piece.capture, .collie, .mem, .block 12, .block 24] ++ noted) fun t =>
      ((∀ m, m < 16 → ∀ g, (s.capt m).last = some g → g.toNat < s.raw.toNat) →
        t.capt n = (if v.getLsbD n = true ∧ x.busy = true then { x with trigs := x.trigs ++ [(6, s.raw)] } else x) ∧
        Keeps [Piece.capture] s t ∧ t.capture.ready = s.capture.ready ∧ t.capture.copying = s.capture.copying) ∧
      (∀ g, v = BitVec.ofNat 32 (2 ^ n.val) → x.busy = true → x.last = some g → s.raw.toNat ≤ g.toNat → x.lastMap ≠ 0 → x.st = 2 →
        x.trigRaw = g → t.capt n = { x with lastMap := natSetBit x.lastMap 6, trigMap := natSetBit x.trigMap 6 })) ∧
    (x.st = 3 ∨ x.st = 4 → s.segState d = 0 → Completes (.rearm n) s [Piece.capture, (R.CAPT_d_SEG d).piece] fun t =>
      t.segState d = 1 ∧ (t.capt n).st = 1 ∧ (t.capt n).preValid = 0 ∧ (t.capt n).post = 0 ∧ (t.capt n).missed = 0 ∧
      (t.capt n).segMissed = x.missed ∧ (t.capt n).slot = x.slot) ∧
    (x.st = 3 → s.segState d ≠ 0 → Completes (.rearm n) s ([Piece.capture, R.CAPT_EVENTS.piece] ++ noted) fun t =>
      t.capt n = { x with st := 4 } ∧ t.flag R.CAPT_EVENTS F.CAPT_EVENTS.WAIT_SLOT = true) ∧
    (x.st = 4 → s.segState d ≠ 0 → exec (.rearm n) s = .next s) ∧
    (x.st ≠ 3 → x.st ≠ 4 → exec (.rearm n) s = .next s)

/-- R283, R287, R290 to R293: a sample of an armed channel goes to its pre-trigger ring until a trigger is accepted, one after it behind the
ring until POST records end the segment; a trigger too early or in another state is counted; a gap of the source, or its end, ends a segment. -/
def Claim.CaptureSamplesAreRecorded : Prop :=
  ∀ (n : Fin 16) (s : State),
    let x := s.capt n
    let g := (captSource s n).1
    let v := (captSource s n).2
    let map := (trigMapOf n g v (s.advanceTo g)).1.1
    let goes : Prop := s.captKind n = 0 → ((tget AUnit.stopped s.analog.units (s.captIndex n)).at (g + 416)).running = true
    let alone : Prop := ∀ m, m < 16 → m ≠ n.val → natBit (s.get (R.CAPT_n_XTRIG m) F.CAPT_n_XTRIG.XMASK) n = false
    let place (k : Nat) := s.slotAddr n x.slot + 64 + k * s.captWidth n
    let recorded (k : Nat) : State := captWrite (place k) (leBytes (s.captWidth n) v.toNat) s
    let parts := [Piece.capture, .collie, .mem, .raw, .free, .block 12, .block 24] ++ noted
    (x.busy = false ∨ x.last = some g → exec (.captureSample n) s = .next s) ∧
    (x.busy = true → x.last ≠ some g → gapBefore s n g = false → goes →
      Completes (.captureSample n) s parts fun t => t.raw = (s.advanceTo g).raw ∧
        (x.st ≠ 0 → (t.capt n).last = some g) ∧
        (∀ a, x.st = 0 → x.armAt = some a → g.toNat < a.toNat → t.capt n = x ∧ t.mem = s.mem) ∧
        (∀ a, x.armAt = some a → a.toNat ≤ g.toNat → (t.capt n).armAt = none) ∧
        (x.st = 1 → x.armAt = none → map = 0 → 0 < s.captPre n → t.mem = (recorded x.preNext).mem ∧ (t.capt n).st = 1 ∧
          (t.capt n).preNext = (x.preNext + 1) % s.captPre n ∧ (t.capt n).preValid = min (s.captPre n) (x.preValid + 1)) ∧
        (x.st = 1 → x.armAt = none → map = 0 → s.captPre n = 0 → t.mem = s.mem ∧ (t.capt n).st = 1) ∧
        (x.st = 1 → x.armAt = none → map ≠ 0 → tooEarly s n = true → (t.capt n).st = 1 ∧
          t.reg (R.CAPT_n_EARLY n) = satSucc (s.reg (R.CAPT_n_EARLY n)) ∧ t.flag R.CAPT_EVENTS F.CAPT_EVENTS.EARLY = true) ∧
        (x.st = 1 → x.armAt = none → map ≠ 0 → tooEarly s n = false → (t.capt n).trigRaw = g ∧ (t.capt n).trigMap = map ∧
          (t.capt n).trigV = BitVec.ofInt 64 (s.vAt g) ∧ (t.capt n).post = 1 ∧
          (1 < s.captPost n → (t.capt n).st = 2 ∧ (alone → t.mem = (recorded (s.captPre n)).mem))) ∧
        (x.st = 2 → x.armAt = none → x.post + 1 < s.captPost n → (t.capt n).st = 2 ∧ (t.capt n).post = x.post + 1 ∧
          t.mem = (recorded (s.captPre n + x.post)).mem) ∧
        (x.st = 2 → x.armAt = none → s.captPost n ≤ x.post + 1 → (t.capt n).st ≠ 2 ∧
          t.reg (R.CAPT_n_SEQ n) = s.reg (R.CAPT_n_SEQ n) + 1 ∧ t.flag R.CAPT_EVENTS F.CAPT_EVENTS.SEG_READY = true) ∧
        (x.st = 2 ∨ x.st = 3 → x.armAt = none → map ≠ 0 → t.reg (R.CAPT_n_MISSED n) = satSucc (s.reg (R.CAPT_n_MISSED n)) ∧
          t.flag R.CAPT_EVENTS F.CAPT_EVENTS.MISSED = true) ∧
        (x.st = 3 → x.armAt = none → t.mem = s.mem ∧ (t.capt n).st = 3)) ∧
    (x.busy = true → x.last ≠ some g → gapBefore s n g = true → Completes (.captureSample n) s parts fun t =>
      t.raw = (s.advanceTo g).raw ∧
      (x.st = 2 → x.armAt = none → t.reg (R.CAPT_n_SEQ n) = s.reg (R.CAPT_n_SEQ n) + 1 ∧
        t.flag R.CAPT_EVENTS F.CAPT_EVENTS.SEG_READY = true)) ∧
    (x.busy = true → x.last ≠ some g → ¬goes → Completes (.captureSample n) s parts fun t =>
      t.raw = (s.advanceTo g).raw ∧ (t.capt n).st ≠ 2)

/-- R242, R286, R288, R298 to R300: an edge of TRIGIN is stamped and passed on 64 grains later; a READY descriptor is released; the copy
of a segment to the overflow ring moves its head and frees the descriptor, or is suspended; the tail moves within what is used. -/
def Claim.SegmentsAreReleasedAndCopied : Prop :=
  ∀ s : State,
    (∀ (m : Fin 4) (g : Quad) (up : Bool),
      let p := (s.reg R.CAPT_TRIGIN_CFG).toNat / 4 ^ m.val % 4
      let counts := if up = true then p % 2 = 1 else 2 ≤ p
      (¬counts → exec (.triginEdge m g up) s = .next s) ∧
      (counts → Completes (.triginEdge m g up) s ([Piece.analog, .capture, .collie, .mem, .raw, .block 12, .block 24] ++ noted) fun t =>
        t.raw = (s.advanceTo (g + 64)).raw ∧
        t.reg64 (R.CAPT_TRIGIN_m_V_LO m) (R.CAPT_TRIGIN_m_V_HI m) = BitVec.ofInt 64 (s.vAt g) ∧
        ((∀ k, k < 16 → ∀ l, (s.capt k).last = some l → l.toNat < g.toNat) → ∀ n, n < 16 → t.capt n = if natBit (s.get (R.CAPT_n_XTRIG n) F.CAPT_n_XTRIG.TMASK) m.val = true ∧ (s.capt n).busy = true then
          { s.capt n with trigs := (s.capt n).trigs ++ [(5, g)] } else s.capt n) ∧
        t.analog = { s.analog with reqs := s.analog.reqs ++
          ((List.range 16).filter fun u => s.get (R.AU_n_INJ_CTRL u) F.AU_n_INJ_CTRL.TRIG_SRC = m.val + 1).map fun u => (u, g + 64) })) ∧
    (∀ d : Fin 4096,
      (s.segState d = 2 → s.capture.ready.Nodup → (∀ e ∈ s.capture.ready, e < 4096) →
        Completes (.captRelease d) s ([Piece.capture, .block 12] ++ noted) fun t =>
          t.segState d = 0 ∧ d.val ∉ t.capture.ready ∧ t.capture.chans = s.capture.chans ∧
          (s.flag R.CAPT_CTRL F.CAPT_CTRL.OVF_EN = false → t.capture = { s.capture with ready := s.capture.ready.erase d } ∧
            Keeps [Piece.capture, (R.CAPT_d_SEG d).piece] s t)) ∧
      (s.segState d ≠ 2 → exec (.captRelease d) s = .next (s.raise R.CAPT_EVENTS F.CAPT_EVENTS.CFG_REFUSED))) ∧
    (∀ v : Word,
      let good := v.toNat < s.ovfSize ∧ (v.toNat + s.ovfSize - (s.reg R.CAPT_OVF_TAIL).toNat) % s.ovfSize ≤ s.ovfUsed
      (good → Completes (.ovfTailWrite v) s ([Piece.capture, .block 12] ++ noted) fun t =>
        t.reg R.CAPT_OVF_TAIL = v ∧ t.capture.chans = s.capture.chans) ∧
      (¬good → exec (.ovfTailWrite v) s = .next (s.raise R.CAPT_EVENTS F.CAPT_EVENTS.CFG_REFUSED))) ∧
    (∀ good : Bool, s.capture.copying = none → exec (.ovfCopy good) s = .next s) ∧
    (∀ (d : Nat) (good : Bool), s.capture.copying = some d → d < 4096 → d ∉ s.capture.ready →
      let n := (s.descOwner d).getD 0
      let u := s.segSize n / 64
      let head := (s.reg R.CAPT_OVF_HEAD).toNat
      (good = false ∨ s.flag R.DDR_STATUS F.DDR_STATUS.READY = false →
        Completes (.ovfCopy good) s ([Piece.capture, .block 12] ++ noted) fun t =>
          t.capture = { s.capture with copying := none, ready := d :: s.capture.ready } ∧ t.segState d = 2 ∧
          t.flag R.CAPT_STATUS F.CAPT_STATUS.OVF_SUSPENDED = true ∧ t.flag R.CAPT_STATUS F.CAPT_STATUS.OVF_ACTIVE = false ∧
          t.reg R.CAPT_OVF_FAIL_CNT = satSucc (s.reg R.CAPT_OVF_FAIL_CNT) ∧ t.flag R.CAPT_EVENTS F.CAPT_EVENTS.OVF_FAULT = true) ∧
      (good = true → s.flag R.DDR_STATUS F.DDR_STATUS.READY = true →
        Completes (.ovfCopy good) s ([Piece.capture, .mem, .block 12] ++ noted) fun t =>
          let bytes := ovfBytes (s.memRead (s.slotAddr n (d - (s.captShare n).1)) (64 * u))
          t.segState d = 0 ∧ t.capture.copying ≠ some d ∧ t.capture.chans = s.capture.chans ∧
          (head + u ≤ s.ovfSize → t.reg R.CAPT_OVF_HEAD = BitVec.ofNat 32 ((head + u) % s.ovfSize) ∧
            t.mem = (s.memWrite (s.ovfBase + head * 64) bytes).mem) ∧
          (s.ovfSize < head + u → head < s.ovfSize → t.reg R.CAPT_OVF_HEAD = BitVec.ofNat 32 (u % s.ovfSize) ∧
            t.mem = ((s.memWrite (s.ovfBase + head * 64) (padHeader (s.ovfSize - head))).memWrite s.ovfBase bytes).mem)))

/-- Capture channels are armed, record samples, and release segments. -/
def Obligations.CaptureRecordsAndReleases : Prop :=
  Claim.CaptureChannelsAreArmedAndDisarmed ∧ Claim.CaptureSamplesAreRecorded ∧ Claim.SegmentsAreReleasedAndCopied

/-- R301, R303 to R308: edges are recorded or held back; a held edge is recorded when its interval ends if the level differs; signals are
read from 64 grains after the headland on; settings written through the window wait for the headland. -/
def Claim.GleanerSignalsAreRecorded : Prop :=
  ∀ s : State,
    (∀ (n : Fin 16384) (level : Bool) (tag : Quad),
      let c := s.sig n
      let x := s.sigState n
      let fits := ∀ b, s.block c.cls = some b → b.bytes.length + 24 ≤ 4064
      let parts := [Piece.glean, .mem, .block 13] ++ noted
      (c.edge = false ∨ c.kind ≠ 1 ∨ s.gleanOn = false → exec (.gleanEdge n level tag) s = .next s) ∧
      (c.edge = true → c.kind = 1 → s.gleanOn = true →
        (tooSoon s n tag = true → Completes (.gleanEdge n level tag) s [Piece.glean] fun t =>
          t.sigState n = { x with held := x.held + 1, heldEdge := some (wrBool level, tag) } ∧
          (∀ m, m ≠ n.val → t.sigState m = s.sigState m) ∧ t.glean.blocks = s.glean.blocks ∧ t.glean.waiting = s.glean.waiting) ∧
        (tooSoon s n tag = false → s.gleanFlag F.GLEAN_STATUS.HALTED = false →
          (fits → (s.block c.cls = none → s.placeFree c.cls = true) → Completes (.gleanEdge n level tag) s parts fun t =>
            t.sigState n = ⟨some (wrBool level, 1), tag, s.headIndex, t.epoch c.cls, 0, none⟩ ∧
            (s.block c.cls ≠ none → t.epoch c.cls = s.epoch c.cls) ∧
            (∃ b', t.block c.cls = some b' ∧ b'.lastTag = tag ∧
              b'.count = ((s.block c.cls).map fun b => b.count).getD 0 + 1) ∧
            t.reg (R.GLEAN_k_REC_CNT c.cls) = satSucc (s.reg (R.GLEAN_k_REC_CNT c.cls)) ∧
            (∀ m, m ≠ n.val → t.sigState m = s.sigState m)) ∧
          (s.block c.cls = none → s.placeFree c.cls = false → (c.cls = 0 → reclaimable s = none) →
            Completes (.gleanEdge n level tag) s parts fun t =>
              (t.loss c.cls).records = (s.loss c.cls).records + 1 ∧ (t.loss c.cls).open_ = true ∧ t.glean.states = s.glean.states ∧
              (c.cls = 0 → t.gleanFlag F.GLEAN_STATUS.HALTED = true ∧ t.flag R.GLEAN_EVENTS F.GLEAN_EVENTS.HALT = true) ∧
              (c.cls ≠ 0 → t.flag R.GLEAN_EVENTS F.GLEAN_EVENTS.DROP = true))))) ∧
    (∀ n : Fin 16384,
      let x := s.sigState n
      (x.heldEdge = none ∨ x.last = none → exec (.gleanHoldEnd n) s = .next s) ∧
      (∀ v tag r q, x.heldEdge = some (v, tag) → x.last = some (r, q) →
        Completes (.gleanHoldEnd n) s ([Piece.glean, .raw, .mem, .block 13] ++ noted) fun t =>
          t.raw = (s.advanceToV (x.tag.toInt + 1024 * (s.sig n).minInt)).raw ∧
          (v = r → t.glean = (s.setSigState n { x with heldEdge := none }).glean) ∧
          (v ≠ r → s.gleanOn = true → s.gleanFlag F.GLEAN_STATUS.HALTED = false →
            (∀ b, s.block (s.sig n).cls = some b → b.bytes.length + 24 ≤ 4064) →
            (s.block (s.sig n).cls = none → s.placeFree (s.sig n).cls = true) → (t.sigState n).last = some (v, q) ∧
            (t.sigState n).tag = tag ∧ (t.sigState n).held = 0 ∧ (t.sigState n).heldEdge = none))) ∧
    (s.head.gleanDue = false → exec .gleanSample s = .next s) ∧
    (s.head.gleanDue = true → Completes .gleanSample s ([Piece.glean, .head, .raw, .mem, .block 13] ++ noted) fun t =>
      t.head = { s.head with gleanDue := false } ∧
      (s.gleanOn = false → t.raw = (s.advanceTo (s.headRaw + 64)).raw ∧ t.glean = s.glean)) ∧
    (∀ (n : Nat) (c : SigCfg) (v : Quad) (q : Nat) (b : Block), s.head.gleanDue = true → s.gleanOn = true →
      s.gleanFlag F.GLEAN_STATUS.HALTED = false → s.glean.sigs = [(n, c)] → 0 < c.kind → c.kind < 5 → c.edge = false →
      s.headIndex % c.div = 0 → signalRead s c = some (v, q) → (s.sigState n).last = none → s.block c.cls = some b →
      b.bytes.length + 24 ≤ 4064 →
      Completes .gleanSample s ([Piece.glean, .head, .raw, .mem, .block 13] ++ noted) fun t =>
        t.sigState n = ⟨some (v, q), s.headV, s.headIndex, s.epoch c.cls, 0, none⟩ ∧
        t.reg (R.GLEAN_k_REC_CNT c.cls) = satSucc (s.reg (R.GLEAN_k_REC_CNT c.cls)) ∧
        ∃ b', t.block c.cls = some b' ∧ b'.lastTag = s.headV ∧ b'.count = b.count + 1) ∧
    (∀ (k : Fin 3) (v : Quad),
      let n := (s.reg R.GLEAN_SIG_SEL).toNat % 16384
      let c := s.sigWritten n
      (c.kind = 0 ∨ c.kind = 6 → exec (.gleanSigWrite k v) s = .next (s.raise R.GLEAN_EVENTS F.GLEAN_EVENTS.CFG_REFUSED)) ∧
      (c.kind ≠ 0 → c.kind ≠ 6 → Completes (.gleanSigWrite k v) s [Piece.glean] fun t =>
        t.sigWritten n = (if k.val = 0 then { c with deadband := v } else if k.val = 1 then { c with heartbeat := v.toNat % 2 ^ 32 }
          else { c with minInt := v.toNat % 65536 }) ∧ t.glean.sigs = s.glean.sigs ∧
        ∀ m, m ≠ n → t.sigWritten m = s.sigWritten m))

/-- R308, R310 to R314: a block closes on time; a due gap record goes into class 0 and settles the loss; the oldest waiting block is copied
to the spool, or the spool fails. -/
def Claim.GleanerBlocksCloseAndSpool : Prop :=
  ∀ s : State,
    (∀ k : Fin 4, s.block k = none → exec (.blockTimeClose k) s = .next s) ∧
    (∀ (k : Fin 4) (b : Block), s.block k = some b → Completes (.blockTimeClose k) s ([Piece.glean, .raw, .mem, .block 13] ++ noted) fun t =>
      let u := fillRules ((s.advanceToV (b.baseV.toInt + 15728640)).setBlock k none)
      let dropped := (k.val = 3 ∧ u.gleanFlag F.GLEAN_STATUS.DROP3 = true) ∨ (k.val = 2 ∧ u.gleanFlag F.GLEAN_STATUS.DROP2 = true)
      let kept : Block := { b with timeClose := true, seq := (s.reg R.GLEAN_NEXT_SEQ).toNat }
      t.raw = (s.advanceToV (b.baseV.toInt + 15728640)).raw ∧ t.block k = none ∧
      (¬dropped → t.glean.waiting = s.glean.waiting ++ [kept] ∧ t.reg R.GLEAN_NEXT_SEQ = s.reg R.GLEAN_NEXT_SEQ + 1 ∧
        t.mem = (s.memWrite (recAddr b.place) (blockBytes s kept)).mem) ∧
      (dropped → t.glean.waiting = s.glean.waiting ∧ t.mem = s.mem ∧
        (t.loss b.cls).open_ = true ∧ t.flag R.GLEAN_EVENTS F.GLEAN_EVENTS.DROP = true)) ∧
    (∀ k : Fin 4,
      (gapDue s k = false ∨ s.gleanFlag F.GLEAN_STATUS.HALTED = true → exec (.gapRecord k) s = .next s) ∧
      (gapDue s k = true → s.gleanFlag F.GLEAN_STATUS.HALTED = false →
        (∀ b, s.block 0 = some b → b.bytes.length + 32 ≤ 4064) → (s.block 0 = none → s.placeFree 0 = true) →
        Completes (.gapRecord k) s ([Piece.glean, .mem, .block 13] ++ noted) fun t =>
          t.loss k = (if (s.loss k).open_ = true then { Loss.none_ with open_ := true, lastGap := s.vT64 } else Loss.none_) ∧
          (k.val = 1 → t.gleanFlag F.GLEAN_STATUS.DROP1 = false)) ∧
      (gapDue s k = true → s.gleanFlag F.GLEAN_STATUS.HALTED = false → s.block 0 = none → s.placeFree 0 = false → reclaimable s = none →
        Completes (.gapRecord k) s ([Piece.block 13] ++ noted) fun t =>
          t.gleanFlag F.GLEAN_STATUS.HALTED = true ∧ t.flag R.GLEAN_EVENTS F.GLEAN_EVENTS.HALT = true)) ∧
    (s.spoolOn = false → ∀ e, exec (.spoolCopy e) s = .next s) ∧
    (s.spoolOn = true →
      (∀ b rest, s.glean.waiting = b :: rest → s.glean.spool.length < s.spoolSize →
        Completes (.spoolCopy .copied) s ([Piece.glean, .mem, .block 13] ++ noted) fun t =>
          let j := s.glean.spoolNext
          t.glean.waiting = rest ∧ t.glean.spool = s.glean.spool ++ [{ b with place := j }] ∧
          t.glean.spoolNext = (j + 1) % s.spoolSize ∧
          t.mem = (s.memWrite (s.spoolAddr j) (s.memRead (recAddr b.place) 4096)).mem) ∧
      (s.glean.waiting = [] ∨ s.spoolSize ≤ s.glean.spool.length → exec (.spoolCopy .copied) s = .next s) ∧
      (∀ l, Completes (.spoolCopy (.fault l)) s ([Piece.glean, .block 13] ++ noted) fun t =>
        t.glean.spool = s.glean.spool.filter (fun b => decide (b.seq ∉ l)) ∧ t.glean.waiting = s.glean.waiting ∧
        t.gleanFlag F.GLEAN_STATUS.SPOOL_FAULT = true ∧ t.gleanFlag F.GLEAN_STATUS.SPOOL_ACTIVE = false ∧
        t.flag R.GLEAN_EVENTS F.GLEAN_EVENTS.SPOOL_FAULT = true))

/-- The gleaner records signals, closes blocks and spools them. -/
def Obligations.TheGleanerRecordsClosesAndSpools : Prop :=
  Claim.GleanerSignalsAreRecorded ∧ Claim.GleanerBlocksCloseAndSpool

/-! ### Chapter 9: axes and choppers -/

/-- R334 to R336, R339, R342 to R346: the oldest command of an axis takes effect at its tick boundary: refused by the stop hold or by the
engine's state with its reason, or a move, a stop, a HOME or a new position; a SET_POS of a transaction in any state. A STOP_NOW stops
the pulses at once. -/
def Claim.AxisCommandsTakeEffect : Prop :=
  ∀ (n : Fin 64) (s : State),
    let q := (s.axis n).queue
    let parts := [Piece.motion, .raw, .txn, .free, .block 14] ++ noted
    (∀ k c, (k, c) ∈ [(0, Instr.moveAbs n), (1, .moveRel n), (2, .moveVel n), (3, .stopDecel n), (5, .home n), (6, .setPos n)] →
      ((q = [] ∨ ∃ x l, q = x :: l ∧ x.cmd ≠ k) → exec c s = .next s) ∧
      (∀ x rest, q = x :: rest → x.cmd = k → Completes c s parts fun t =>
        let d := s.advanceTo x.due
        let u := refreshLimits n (drillTo n (d.raw.toNat / 8) (d.setAxis n { s.axis n with queue := rest }))
        let hold := s.axFlag n F.AXIS_n_STATUS.STOP_HOLD
        let refused (why : Nat) : Prop := t.get (R.AXIS_n_STATUS n) F.AXIS_n_STATUS.LAST_REFUSAL = why ∧ t.axState n = s.axState n ∧
          t.reg (R.AXIS_n_REFUSED_CNT n) = satSucc (s.reg (R.AXIS_n_REFUSED_CNT n)) ∧
          t.flag (R.AXIS_n_EVENTS n) F.AXIS_n_EVENTS.REFUSED = true ∧ t.pos n = u.pos n ∧ t.vel n = u.vel n ∧ t.target n = u.target n ∧
          t.axis n = u.axis n ∧ t.reg64 (R.AXIS_n_CMD_V_LO n) (R.AXIS_n_CMD_V_HI n) = s.reg64 (R.AXIS_n_CMD_V_LO n) (R.AXIS_n_CMD_V_HI n)
        let noted_ : Prop := t.reg64 (R.AXIS_n_CMD_V_LO n) (R.AXIS_n_CMD_V_HI n) = BitVec.ofInt 64 (s.vAt x.due)
        let braked : Prop := (s.axState n = 2 ∨ s.axState n = 4 → t.axState n = 3 ∧ (t.axis n).goal = .stop 0 ∧ (t.axis n).homing = none) ∧
          (s.axState n ≠ 2 → s.axState n ≠ 4 → t.axState n = s.axState n ∧ t.vel n = u.vel n)
        let moved (g : Int) : Prop := t.target n = g ∧ noted_ ∧
          (u.vel n = 0 → u.pos n ≠ g → t.axState n = 2 ∧ (t.axis n).goal = .travel) ∧
          (u.vel n = 0 → u.pos n = g → t.axState n = 1 ∧ t.axFlag n F.AXIS_n_STATUS.DONE = true ∧
            t.flag (R.AXIS_n_EVENTS n) F.AXIS_n_EVENTS.DONE = true) ∧
          (u.vel n ≠ 0 → t.axState n = 2 ∧ ((t.axis n).goal = .travel ∨ (t.axis n).goal = .reverse))
        let wanted (g : Int) : Prop := -posMax ≤ g ∧ g ≤ posMax ∧ s.softMin n ≤ g ∧ g ≤ s.softMax n ∧
          towardsLimit u n (g * 2 ^ 40 - u.xPos n) = false
        t.raw = d.raw ∧ (t.axis n).queue = rest ∧
        (x.src = .task → hold = true → refused 8) ∧
        (x.src = .txn → k ≠ 6 → hold = true ∨ s.axState n = 5 →
          t.flag (R.AXIS_n_EVENTS n) F.AXIS_n_EVENTS.TXN_SUPERSEDED = true ∧ t.axState n = s.axState n) ∧
        (x.src = .txn → k = 6 → -posMax ≤ x.arg.toInt → x.arg.toInt ≤ posMax →
          t.pos n = x.arg.toInt ∧ t.target n = x.arg.toInt ∧ t.axState n = s.axState n ∧ noted_) ∧
        (x.src = .host → k ≠ 3 → s.axState n = 0 → refused 1) ∧
        (x.src = .host → k ≠ 3 → s.axState n = 5 → refused 2) ∧
        (x.src = .host → s.txnPending n = none →
          (k = 0 → s.axState n = 1 ∨ s.axState n = 2 ∨ s.axState n = 3 → wanted x.arg.toInt → moved x.arg.toInt) ∧
          (k = 1 → s.axState n = 1 ∨ s.axState n = 2 ∨ s.axState n = 3 → wanted (u.target n + x.arg.toInt) →
            moved (u.target n + x.arg.toInt)) ∧
          (k = 0 → s.axState n = 1 ∨ s.axState n = 2 ∨ s.axState n = 3 → posMax < x.arg.toInt ∨ x.arg.toInt < -posMax → refused 5) ∧
          (k = 2 → s.axState n = 1 ∨ s.axState n = 2 ∨ s.axState n = 3 →
            let w := clampInt (-(u.limits n).vmax) (u.limits n).vmax x.arg.toInt
            towardsLimit u n w = false → noted_ ∧ (w = 0 → braked) ∧
              (w ≠ 0 → t.axState n = 2 ∧ (t.axis n).goal = .velocity w) ∧
              (w ≠ x.arg.toInt → t.flag (R.AXIS_n_EVENTS n) F.AXIS_n_EVENTS.CLAMPED = true)) ∧
          (k = 5 → s.axState n = 1 → x.arg.toNat % 2 ^ 32 < 3 → towardsLimit u n 1 = false →
            t.axState n = 4 ∧ t.axFlag n F.AXIS_n_STATUS.HOMED = false ∧
            (t.axis n).homing = some ⟨x.arg.toNat % 2 ^ 32, false, .search, 0, u.pos n⟩) ∧
          (k = 6 → s.axState n = 1 → -posMax ≤ x.arg.toInt → x.arg.toInt ≤ posMax →
            t.pos n = x.arg.toInt ∧ t.target n = x.arg.toInt ∧ (t.axis n).f = 2 ^ 39) ∧
          (k = 5 ∨ k = 6 → s.axState n = 2 ∨ s.axState n = 3 ∨ s.axState n = 4 → refused 3)) ∧
        (k = 3 → x.src = .host → noted_ ∧ braked))) ∧
    ((∀ x ∈ q, x.cmd ≠ 4) → exec (.stopNow n) s = .next s) ∧
    (∀ (front : List AxisCmd) x rest, q = front ++ x :: rest → (∀ y ∈ front, y.cmd ≠ 4) → x.cmd = 4 → x.src = .host →
      Completes (.stopNow n) s ([Piece.motion, .txn, .free, .block 14] ++ noted) fun t =>
        (t.axis n).queue = front.filter (fun y => decide (y.due ≠ x.due)) ++ rest ∧ t.reg64 (R.AXIS_n_CMD_V_LO n) (R.AXIS_n_CMD_V_HI n) = BitVec.ofInt 64 (s.vAt x.due) ∧
        (s.axState n = 2 ∨ s.axState n = 3 ∨ s.axState n = 4 → t.vel n = 0 ∧ t.target n = t.pos n ∧ (t.axis n).goal = .halt ∧
          (t.reg64 (R.AXIS_n_STOP_POS_LO n) (R.AXIS_n_STOP_POS_HI n)).toInt = t.pos n ∧ t.pos n = (drillNow n s).pos n ∧
          ((drillNow n s).vel n ≠ 0 → s.axState n ≠ 4 → t.axFlag n F.AXIS_n_STATUS.POS_LOST = true) ∧
          (s.axState n = 4 → t.axFlag n F.AXIS_n_STATUS.POS_LOST = s.axFlag n F.AXIS_n_STATUS.POS_LOST)) ∧
        (s.axState n ≠ 2 → s.axState n ≠ 3 → s.axState n ≠ 4 → t.axState n = s.axState n ∧ t.pos n = s.pos n ∧ t.vel n = s.vel n))

/-- R331, R332, R337, R338, R340, R347, R349, R351: the drill adds the velocity at every MOTION edge and stands still at the target; a tick
plans one update; a limit in the direction of motion is a fault; the home switch is latched; an encoder counts its transitions. -/
def Claim.AxesStepPlanAndCount : Prop :=
  ∀ (n : Fin 64) (s : State),
    (∀ g : Quad,
      let d := s.advanceTo g
      let e := d.raw.toNat / 8 + 1
      let x := s.xRaw n + s.vel n * ((e - (s.axis n).edges : Nat) : Int)
      let p := x / 2 ^ 40
      let hits := s.armed n = true ∧ ((0 < s.vel n ∧ s.target n ≤ p) ∨ (s.vel n < 0 ∧ p ≤ s.target n))
      Completes (.drillStep n g) s [Piece.motion, .raw, .free, .block 14] fun t => t.raw = d.raw ∧
        (e ≤ (s.axis n).edges → t.motion = s.motion ∧ t.pos n = s.pos n) ∧
        ((s.axis n).edges < e → (t.axis n).edges = e ∧ t.axState n = s.axState n ∧
          (¬hits → -posMax ≤ p → p ≤ posMax → t.xRaw n = x ∧ t.vel n = s.vel n) ∧
          (hits → -posMax ≤ s.target n → s.target n ≤ posMax → t.pos n = s.target n ∧ t.vel n = 0 ∧ (t.axis n).f = 2 ^ 39 ∧ (t.axis n).goal = .reached))) ∧
    (∀ g : Quad,
      let d := s.advanceTo (tickFrom g)
      let u := refreshLimits n (drillTo n ((tickFrom g).toNat / 8) d)
      let l := s.regLimits n
      Completes (.profileTick n g) s ([Piece.motion, .raw, .txn, .free, .block 14] ++ noted) fun t => t.raw = d.raw ∧
        ((u.axis n).homing = none → (u.axis n).ref = none →
          ((u.axis n).goal = .none_ → t.pos n = u.pos n ∧ t.vel n = u.vel n ∧ t.axState n = u.axState n) ∧
          ((u.axis n).goal = .halt ∨ (u.axis n).goal = .reached → t.axState n = 1 ∧ t.axFlag n F.AXIS_n_STATUS.DONE = true ∧
            t.flag (R.AXIS_n_EVENTS n) F.AXIS_n_EVENTS.DONE = true ∧ (t.axis n).goal = .none_) ∧
          (∀ w, (u.axis n).goal = .velocity w → (u.axis n).held = 0 → softNear u n w = false → l.jerk = 0 → u.vel n ≠ 0 →
            w.sign = (u.vel n).sign → (u.vel n).natAbs < w.natAbs → l.vmax < 2 ^ 62 → 0 ≤ l.vmax →
            t.vel n = clampInt (-l.vmax) l.vmax (u.vel n + clampInt (-(l.accel : Int)) l.accel (w - u.vel n)) ∧
            t.target n = u.pos n))) ∧
    (∀ up : Bool,
      let u := drillNow n s
      let toward := s.limitActive n up = true ∧ ((up = true ∧ 0 < u.vel n) ∨ (up = false ∧ u.vel n < 0))
      (toward → Completes (.hardLimit n up) s ([Piece.motion, .txn, .free, .block 14] ++ noted) fun t =>
        t.axState n = 5 ∧ t.get (R.AXIS_n_STATUS n) F.AXIS_n_STATUS.FAULT_CAUSE = 1 ∧ t.vel n = 0 ∧ t.target n = t.pos n ∧
        t.axFlag n F.AXIS_n_STATUS.POS_LOST = true ∧ t.flag (R.AXIS_n_EVENTS n) F.AXIS_n_EVENTS.FAULT = true ∧ t.pos n = u.pos n) ∧
      (¬toward → exec (.hardLimit n up) s = .next u)) ∧
    (∀ index : Bool,
      let u := drillNow n s
      ((u.axis n).homing = none → exec (.homeInput n index) s = .next u) ∧
      (∀ h, (u.axis n).homing = some h → Completes (.homeInput n index) s [Piece.motion, .free, .block 14] fun t =>
        t.pos n = u.pos n ∧
        (index = true → h.phase = .index ∨ (h.phase = .search ∧ h.method = 2) →
          ∃ h', (t.axis n).homing = some h' ∧ h'.phase = (if h.phase = .search then .brake else .seat) ∧ h'.latch = u.pos n) ∧
        (index = false → h.phase = .search → h.method ≠ 2 → s.homeActive n = true →
          (t.axis n).homing = some { h with phase := .brake, latch := u.pos n }) ∧
        (index = false → h.phase = .back → h.method = 0 → s.homeActive n = false →
          (t.axis n).homing = some { h with phase := .seat, latch := u.pos n }))) ∧
    (let cfg := s.reg (R.ENC_m_CFG n)
     let st := R.ENC_m_STATUS n
     let lv (f : Fld) : Bool := decide (fldOf f cfg < 192) && s.level (fldOf f cfg)
     let a := s.flag st F.ENC_m_STATUS.LEVEL_A
     let b := s.flag st F.ENC_m_STATUS.LEVEL_B
     let i := s.flag st F.ENC_m_STATUS.LEVEL_INDEX
     let count (x : State) := x.reg64 (R.ENC_m_COUNT_LO n) (R.ENC_m_COUNT_HI n)
     let one : Quad := if fldOf F.ENC_m_CFG.INVERT cfg = 1 then -1 else 1
     let on := fldOf F.ENC_m_CFG.EN cfg = 1
     let a' := lv F.ENC_m_CFG.PIN_A
     let b' := lv F.ENC_m_CFG.PIN_B
     let i' := lv F.ENC_m_CFG.PIN_I
     let indexed := if fldOf F.ENC_m_CFG.IDX_POL cfg = 1 then i = true ∧ i' = false else i = false ∧ i' = true
     Completes (.encoderTransition n) s ([Piece.motion, .txn, .free, .block 14] ++ noted) fun t =>
      t.flag st F.ENC_m_STATUS.LEVEL_A = a' ∧ t.flag st F.ENC_m_STATUS.LEVEL_B = b' ∧ t.flag st F.ENC_m_STATUS.LEVEL_INDEX = i' ∧
      (¬on → count t = count s) ∧
      (on → a ≠ a' → b = b' → count t = count s + (if a' ≠ b then one else -one)) ∧
      (on → a = a' → b ≠ b' → count t = count s + (if a = b' then one else -one)) ∧
      (on → a = a' → b = b' → count t = count s) ∧
      (on → a ≠ a' → b ≠ b' → count t = count s ∧ t.flag st F.ENC_m_STATUS.QUAD_ERR = true ∧
        t.reg (R.ENC_m_ERR_CNT n) = satSucc (s.reg (R.ENC_m_ERR_CNT n)) ∧
        ∀ k ∈ boundAxes s n, t.axState k = 5 ∧ t.get (R.AXIS_n_STATUS k) F.AXIS_n_STATUS.FAULT_CAUSE = 5) ∧
      (on → indexed → t.reg64 (R.ENC_m_INDEX_LO n) (R.ENC_m_INDEX_HI n) = count t) ∧
      (¬(on ∧ indexed) → t.reg64 (R.ENC_m_INDEX_LO n) (R.ENC_m_INDEX_HI n) = s.reg64 (R.ENC_m_INDEX_LO n) (R.ENC_m_INDEX_HI n)))

/-- Axis commands, planning, steps and counts. -/
def Obligations.AxisCommandsMoveTheAxes : Prop :=
  Claim.AxisCommandsTakeEffect ∧ Claim.AxesStepPlanAndCount

/-- R332, R335, R342, R344, R361, R403: enabling, disabling and FAULT_CLR move an axis between its states; its limits are taken within
bounds and come into force at a tick boundary, held back during an approach or a reversal; its pins are taken where they are free. -/
def Claim.AxesAreEnabledLimitedAndPinned : Prop :=
  ∀ (n : Fin 64) (s : State),
    (∀ (v : Word) (c : Instr), c ∈ [Instr.axisCtrlWrite n v, .faultClr n v] →
      Completes c s ([Piece.motion, .txn, .free, .block 14, .block 15] ++ noted) fun t =>
        let clears := fldOf F.AXIS_n_CTRL.FAULT_CLR v = 1 ∨ c = .faultClr n v
        let m := fldOf F.AXIS_n_CTRL.MODE v
        let cur := s.get (R.AXIS_n_CTRL n) F.AXIS_n_CTRL.MODE
        t.get (R.AXIS_n_CTRL n) F.AXIS_n_CTRL.EN = fldOf F.AXIS_n_CTRL.EN v ∧
        t.get (R.AXIS_n_CTRL n) F.AXIS_n_CTRL.MODE = (if m ≠ 3 ∧ (m = 0 ∨ n.val % 16 < 6) ∧ s.axState n ≤ 1 then m else cur) ∧
        (fldOf F.AXIS_n_CTRL.EN v = 1 → s.axState n = 0 → t.axState n = 1) ∧
        (fldOf F.AXIS_n_CTRL.EN v = 1 → s.axState n = 5 → clears → t.axState n = 1 ∧
          t.get (R.AXIS_n_STATUS n) F.AXIS_n_STATUS.FAULT_CAUSE = 0) ∧
        (fldOf F.AXIS_n_CTRL.EN v = 1 → s.axState n ≠ 0 → s.axState n ≠ 5 ∨ ¬clears → t.axState n = s.axState n ∧
          t.axis n = s.axis n) ∧
        (fldOf F.AXIS_n_CTRL.EN v = 0 → t.axState n = 0) ∧
        (fldOf F.AXIS_n_CTRL.EN v = 0 → s.axState n ≠ 0 → t.vel n = 0 ∧ t.target n = t.pos n ∧
          (t.axis n).queue = (s.axis n).queue ∧ (t.axis n).homing = none ∧ (t.axis n).goal = .none_) ∧
        ∀ k : Fin 64, k ≠ n → t.axis k = s.axis k ∧ t.axState k = s.axState k) ∧
    (∀ (r : LimitReg) (v : Quad),
      let u := drillNow n s
      let bound := min (2 ^ 35) (2 ^ 39 / (s.get (R.AXIS_n_STEP_CFG n) F.AXIS_n_STEP_CFG.STEP_W_M1 + 1))
      let holds := ((u.axis n).goal = .approach ∨ (u.axis n).goal = .reverse) ∧
        s.flag (R.AXIS_n_CTRL n) F.AXIS_n_CTRL.APPLY_NOW = false
      Completes (.axisLimitWrite n r v) s ([Piece.motion, .free, .block 14] ++ noted) fun t =>
        (r = .vmax → (t.reg64 (R.AXIS_n_VMAX_LO n) (R.AXIS_n_VMAX_HI n)).toNat = min bound v.toNat ∧
          (bound < v.toNat → t.flag (R.AXIS_n_EVENTS n) F.AXIS_n_EVENTS.CLAMPED = true)) ∧
        (r = .accel → t.reg (R.AXIS_n_ACCEL n) = lo32 v) ∧ (r = .decel → t.reg (R.AXIS_n_DECEL n) = lo32 v) ∧
        (r = .jerk → t.reg (R.AXIS_n_JERK n) = lo32 v) ∧
        (r = .vcreep → (t.reg (R.AXIS_n_VCREEP n)).toNat = max 65536 (lo32 v).toNat) ∧
        t.limits n = u.limits n ∧
        (holds → (t.axis n).held = natSetBit (u.axis n).held (limitBit r) ∧ t.axFlag n F.AXIS_n_STATUS.LIMIT_HELD = true ∧
          t.flag (R.AXIS_n_EVENTS n) F.AXIS_n_EVENTS.LIMIT_HELD = true) ∧
        (¬holds → (t.axis n).held = natClrBit (u.axis n).held (limitBit r))) ∧
    (∀ v : Word,
      let named (p : Nat) := p ≠ 255 ∧
        (p = fldOf F.AXIS_n_PINS.STEP_PIN v ∨ p = fldOf F.AXIS_n_PINS.DIR_PIN v ∨ p = fldOf F.AXIS_n_PINS.EN_PIN v)
      ((∃ p, named p ∧ 191 < p) → exec (.axisPinsWrite n v) s = .next s) ∧
      ((∀ p, named p → p ≤ 191) → (∃ p, named p ∧ pinTaken s n p = true) →
        exec (.axisPinsWrite n v) s = .next (s.raise R.GPIO_EVENTS F.GPIO_EVENTS.PIN_CONFLICT)) ∧
      ((∀ p, named p → p ≤ 191 ∧ pinTaken s n p = false) →
        Completes (.axisPinsWrite n v) s [(R.AXIS_n_PINS n).piece, .block 16] fun t =>
          t.reg (R.AXIS_n_PINS n) = v &&& 0xFFFFFF ∧
          ∀ p : Fin 192, (named p → t.flag (R.GPIO_i_CFG p) F.GPIO_i_CFG.AXIS = true) ∧
            (¬named p → (p.val = s.get (R.AXIS_n_PINS n) F.AXIS_n_PINS.STEP_PIN ∨ p.val = s.get (R.AXIS_n_PINS n) F.AXIS_n_PINS.DIR_PIN ∨
              p.val = s.get (R.AXIS_n_PINS n) F.AXIS_n_PINS.EN_PIN) → t.flag (R.GPIO_i_CFG p) F.GPIO_i_CFG.AXIS = false)))

/-- R354, R355, R357, R369 to R371: the states of a chopper phase follow each other at their times; a fourth early trip in a row is a short
circuit, which faults the axis; the scale ramps to rest; settings are taken or refused. -/
def Claim.ChoppersFollowTheirStates : Prop :=
  ∀ (c : Fin 24) (s : State),
    let x := s.chop c
    let ax := c.val / 6 * 16 + c.val % 6
    (∀ b : Bool,
      let y := x.ph b
      let parts := [Piece.motion, .raw, (R.CHOP_c_STATUS c).piece]
      let early (first : Bool) := if first = true ∧ 64 ≤ s.chopCode c b then y.early + 1 else 0
      (∀ first, s.phase c b = 2 → early first < 4 →
        Completes (.chopTrip c b first) s [Piece.motion, (R.CHOP_c_STATUS c).piece] fun t =>
          let w := s.reg (R.CHOP_c_TIMING c)
          t.phase c b = (if fldOf F.CHOP_c_TIMING.FAST_16 w = 0 then 4 else 3) ∧ t.phase c (!b) = s.phase c (!b) ∧
          let p := (t.chop c).ph b
          p.since = s.raw ∧ p.off = fldOf F.CHOP_c_TIMING.OFF_TICKS w ∧ p.blank = fldOf F.CHOP_c_TIMING.BLANK_M1 w ∧
          p.fast = fldOf F.CHOP_c_TIMING.FAST_16 w ∧ p.early = early first ∧ (t.chop c).ph (!b) = (s.chop c).ph (!b)) ∧
      (∀ first, s.phase c b = 2 → 4 ≤ early first →
        Completes (.chopTrip c b first) s ([Piece.motion, .txn, .free, .block 14, .block 15] ++ noted) fun t =>
          t.phase c true = 0 ∧ t.phase c false = 0 ∧ (t.chop c).shorted = true ∧
          t.reg (R.CHOP_c_SHORT_CNT c) = satSucc (s.reg (R.CHOP_c_SHORT_CNT c)) ∧
          t.flag (R.CHOP_c_EVENTS c) (if b then F.CHOP_c_EVENTS.SHORT_B else F.CHOP_c_EVENTS.SHORT_A) = true ∧
          t.axState ax = 5 ∧ t.get (R.AXIS_n_STATUS ax) F.AXIS_n_STATUS.FAULT_CAUSE = 2) ∧
      (∀ first, s.phase c b ≠ 2 → exec (.chopTrip c b first) s = .next s) ∧
      (s.phase c b = 1 → Completes (.chopBlankEnd c b) s parts fun t =>
        t.raw = (s.advanceTo (y.since + BitVec.ofNat 64 (256 * (y.blank + 1)))).raw ∧ t.phase c b = 2 ∧
        (t.chop c).ph b = { y with since := t.raw }) ∧
      (s.phase c b ≠ 1 → exec (.chopBlankEnd c b) s = .next s) ∧
      (s.phase c b = 3 → Completes (.chopFastEnd c b) s parts fun t =>
        t.raw = (s.advanceTo (y.since + BitVec.ofNat 64 (64 * y.off * y.fast))).raw ∧ t.phase c b = 4 ∧
        (t.chop c).ph b = { y with
          legP := if s.chopNeg c b = true then some t.raw else y.legP
          legN := if s.chopNeg c b = true then y.legN else some t.raw }) ∧
      (s.phase c b ≠ 3 → exec (.chopFastEnd c b) s = .next s) ∧
      (s.phase c b = 4 → Completes (.chopSlowEnd c b) s parts fun t =>
        let d := s.advanceTo (y.since + BitVec.ofNat 64 (1024 * y.off))
        t.raw = d.raw ∧ t.phase c b = (if d.chopCode c b = 0 then 4 else 1) ∧
        (d.chopCode c b ≠ 0 → ((t.chop c).ph b).since = t.raw ∧
          t.flag (R.CHOP_c_STATUS c) (if b then F.CHOP_c_STATUS.NEG_B else F.CHOP_c_STATUS.NEG_A) = decide (s.chopSine c b < 0))) ∧
      (s.phase c b ≠ 4 → exec (.chopSlowEnd c b) s = .next s) ∧
      (let opens := s.phase c b = 2 ∧ 16 ≤ s.chopCode c b ∧ s.get (R.CHOP_c_OPEN_CFG c) F.CHOP_c_OPEN_CFG.OPEN_TICKS ≠ 0
       exec (.open c b) s = .next (if opens then
        s.raise (R.CHOP_c_EVENTS c) (if b then F.CHOP_c_EVENTS.OPEN_B else F.CHOP_c_EVENTS.OPEN_A) else s))) ∧
    (let w := s.chopCurrent c
     let ms (k : Nat) : Quad := BitVec.ofNat 64 (msGrains k)
     let due : Quad := match x.ramped with
       | none => (s.axis ax).lastStep + ms (4 * fldOf F.CHOP_c_CURRENT.REST_DELAY w)
       | some r => r + ms (fldOf F.CHOP_c_CURRENT.REST_RAMP w)
     let d := s.advanceTo due
     let g := fldOf F.CHOP_c_CURRENT.I_REST (d.chopCurrent c)
     let i := d.chopScale c
     (fldOf F.CHOP_c_CURRENT.REST_DELAY w = 0 → exec (.restRamp c) s = .next s) ∧
     (fldOf F.CHOP_c_CURRENT.REST_DELAY w ≠ 0 → Completes (.restRamp c) s [Piece.motion, .raw] fun t => t.raw = d.raw ∧
       t.chopScale c = (if fldOf F.CHOP_c_CURRENT.REST_RAMP (d.chopCurrent c) = 0 then g
         else if i < g then i + 1 else if g < i then i - 1 else i) ∧
       t.motion.axes = s.motion.axes)) ∧
    (∀ v : Word, Completes (.chopCtrlWrite c v) s ([Piece.motion, .txn, .free, .block 14, .block 15] ++ noted) fun t =>
      let was := s.flag (R.CHOP_c_CTRL c) F.CHOP_c_CTRL.EN = true
      let en := fldOf F.CHOP_c_CTRL.EN v = 1
      t.reg (R.CHOP_c_CTRL c) = v &&& 3 ∧
      (en → ¬was → x.shorted = false → t.phase c true = 1 ∧ t.phase c false = 1) ∧
      (en → was ∨ x.shorted = true → t.phase c true = s.phase c true ∧ t.phase c false = s.phase c false) ∧
      (¬en → was → t.phase c true = 0 ∧ t.phase c false = 0 ∧
        (s.axState ax = 2 ∨ s.axState ax = 3 ∨ s.axState ax = 4 → t.vel ax = 0 ∧ (t.axis ax).goal = .halt)) ∧
      (¬en → ¬was → t.motion = s.motion)) ∧
    (let refused : Out := .next (s.raise (R.CHOP_c_EVENTS c) F.CHOP_c_EVENTS.CFG_REFUSED)
     let on := s.flag (R.CHOP_c_CTRL c) F.CHOP_c_CTRL.EN = true
     ∀ v : Word,
      (let dead := fldOf F.CHOP_c_TIMING.DEAD_M v
       let bad := fldOf F.CHOP_c_TIMING.OFF_TICKS v = 0 ∨ 12 < dead ∨
        (on ∧ dead ≠ s.get (R.CHOP_c_TIMING c) F.CHOP_c_TIMING.DEAD_M)
       (bad → exec (.chopCfgWrite c .timing v) s = refused) ∧
       (¬bad → Completes (.chopCfgWrite c .timing v) s [(R.CHOP_c_TIMING c).piece] fun t =>
        t.get (R.CHOP_c_TIMING c) F.CHOP_c_TIMING.OFF_TICKS = fldOf F.CHOP_c_TIMING.OFF_TICKS v ∧
        t.get (R.CHOP_c_TIMING c) F.CHOP_c_TIMING.BLANK_M1 = fldOf F.CHOP_c_TIMING.BLANK_M1 v ∧
        t.get (R.CHOP_c_TIMING c) F.CHOP_c_TIMING.FAST_16 = min 16 (fldOf F.CHOP_c_TIMING.FAST_16 v) ∧
        t.get (R.CHOP_c_TIMING c) F.CHOP_c_TIMING.DEAD_M = dead)) ∧
      (Completes (.chopCfgWrite c .current v) s [Piece.motion, (R.CHOP_c_CURRENT c).piece] fun t =>
        t.reg (R.CHOP_c_CURRENT c) = v ∧ t.motion.axes = s.motion.axes ∧
        (s.raw.toNat < (tickFrom (s.raw + 1)).toNat → t.chopCurrent c = s.chopCurrent c) ∧
        ∀ g : Quad, (tickFrom (s.raw + 1)).toNat ≤ g.toNat → ({ t with raw := g }).chopCurrent c = v) ∧
      (let u := fldOf F.CHOP_c_MSTEP.USTEP v
       exec (.chopCfgWrite c .mstep v) s =
        (if 8 < u ∨ (s.axState ax = 2 ∧ u ≠ s.get (R.CHOP_c_MSTEP c) F.CHOP_c_MSTEP.USTEP) then refused
         else .next (s.setReg (R.CHOP_c_MSTEP c) (v &&& 0x03FF000F)))) ∧
      (∀ i : Fin 1024,
        ((∃ k : Fin 24, s.flag (R.CHOP_c_CTRL k) F.CHOP_c_CTRL.EN = true) →
          exec (.chopCfgWrite c (.sine i) v) s = .next (s.raise R.CHOP_GEVENTS F.CHOP_GEVENTS.SINE_REFUSED)) ∧
        ((∀ k : Fin 24, s.flag (R.CHOP_c_CTRL k) F.CHOP_c_CTRL.EN = false) →
          exec (.chopCfgWrite c (.sine i) v) s = .next (s.setReg (R.CHOP_SINE_i i) ((v.extractLsb' 0 9).signExtend 32)))))

/-- What enables, limits and pins do to an axis, and the states of a chopper. -/
def Obligations.AxisEventsAndChoppersActByState : Prop :=
  Claim.AxesAreEnabledLimitedAndPinned ∧ Claim.ChoppersFollowTheirStates

/-! ### Chapter 10: the field network, CAN, serial ports and GPIO -/

/-- R375, R376, R379, R386, R390: a field port is enabled where its table passes and refuses other changes while it is; a station's service
bit, the MDIO access, the link poll and frames of other masters. -/
def Claim.FieldPortsAreEnabledAndServed : Prop :=
  ∀ (p : Fin 4) (s : State),
    let c := R.FIELD_p_CTRL p
    let st := R.FIELD_p_STATUS p
    (∀ v : Word,
      let w := (if p.val % 2 = 1 then setFldOf F.FIELD_p_CTRL.PAIR 0 v else v) &&& 0xFF
      let was := s.flag c F.FIELD_p_CTRL.EN = true
      let en := fldOf F.FIELD_p_CTRL.EN v = 1
      let bad := fldOf F.FIELD_p_CTRL.MODE v = 3 ∨ fldOf F.FIELD_p_CTRL.SPEED v = 3 ∨ (was ∧ (w ^^^ s.reg c) &&& 0x7E ≠ 0) ∨
        (en ∧ ¬was ∧ tableOk s (s.tablePort p) w = false) ∨
        ((en ∨ pairOn s p = true) ∧ pairOk s p w (s.reg (R.FIELD_p_CYCLE p)) = false)
      (bad → exec (.fieldCtrlWrite p v) s = .next (s.raise R.FIELD_EVENTS F.FIELD_EVENTS.CFG_REFUSED)) ∧
      (¬bad → Completes (.fieldCtrlWrite p v) s [Piece.field, .gens, c.piece, st.piece] fun t => t.reg c = w ∧
        (en → ¬was → t.fport p = { s.fport p with running := false, frames := 0 } ∧ (t.gen p).running = false) ∧
        (en → was → t.fport p = s.fport p) ∧
        (¬en → (t.fport p).running = false ∧ t.flag st F.FIELD_p_STATUS.RUNNING = false))) ∧
    Completes (.foreignMaster p false) s ([(R.FIELD_p_FOREIGN_CNT p).piece, R.FIELD_EVENTS.piece] ++ noted) (fun t =>
      t.reg (R.FIELD_p_FOREIGN_CNT p) = satSucc (s.reg (R.FIELD_p_FOREIGN_CNT p)) ∧
      t.flag R.FIELD_EVENTS F.FIELD_EVENTS.FOREIGN_MASTER = true) ∧
    Completes (.foreignMaster p true) s [(R.FIELD_p_OTHER_CNT p).piece] (fun t =>
      t.reg (R.FIELD_p_OTHER_CNT p) = satSucc (s.reg (R.FIELD_p_OTHER_CNT p))) ∧
    (∀ (n : Fin 256) (v : Word), Completes (.stationServiceWrite p n v) s [(R.FIELD_p_s_CTRL p n).piece] fun t =>
      t.get (R.FIELD_p_s_CTRL p n) F.FIELD_p_s_CTRL.SERVICE = fldOf F.FIELD_p_s_CTRL.SERVICE v) ∧
    (∀ (v : Word) (answer : BitVec 16), Completes (.mdioGo p v answer) s [(R.FIELD_p_MDIO p).piece] fun t =>
      let f (g : Fld) := t.get (R.FIELD_p_MDIO p) g = fldOf g v
      f F.FIELD_p_MDIO.REG ∧ f F.FIELD_p_MDIO.PHYAD ∧ f F.FIELD_p_MDIO.WRITE ∧
      t.get (R.FIELD_p_MDIO p) F.FIELD_p_MDIO.DATA = (if fldOf F.FIELD_p_MDIO.WRITE v = 1 then fldOf F.FIELD_p_MDIO.DATA v else answer.toNat) ∧
      t.flag (R.FIELD_p_MDIO p) F.FIELD_p_MDIO.BUSY = false) ∧
    (∀ link : Bool,
      (s.flag c F.FIELD_p_CTRL.POLL = false → exec (.phyPoll p link) s = .next s) ∧
      (s.flag c F.FIELD_p_CTRL.POLL = true → Completes (.phyPoll p link) s ([st.piece, R.FIELD_EVENTS.piece] ++ noted) fun t =>
        t.flag st F.FIELD_p_STATUS.LINK = link ∧
        (s.flag st F.FIELD_p_STATUS.LINK = true → link = false → t.flag R.FIELD_EVENTS F.FIELD_EVENTS.LINK_DOWN = true) ∧
        (s.flag st F.FIELD_p_STATUS.LINK = false ∨ link = true → t.reg R.FIELD_EVENTS = s.reg R.FIELD_EVENTS)))

/-- R379, R383, R386 to R388, R390: a reply that is not well formed, or not of the frame sent last, is counted as bad; one of no station of
the table as unknown; a second one as a duplicate; a good one gives its arrival, status and inputs. -/
def Claim.StationRepliesAreTaken : Prop :=
  ∀ (q : Fin 4) (g : Quad) (r : Reply) (s : State),
    let p := s.tablePort q
    let d := s.advanceTo g
    let wire := r.fcs = true ∧ r.addressed = true ∧ r.formed = true
    let bad := Completes (.treavoReply q g r) s [Piece.raw, .field, (R.FIELD_p_BAD_CNT q).piece] fun t => t.raw = d.raw ∧
      t.reg (R.FIELD_p_BAD_CNT q) = satSucc (s.reg (R.FIELD_p_BAD_CNT q)) ∧ t.field = s.field
    let unknown := Completes (.treavoReply q g r) s
      [Piece.raw, (R.FIELD_p_UNKNOWN_CNT q).piece, (R.FIELD_p_UNKNOWN_MAC_LO q).piece, (R.FIELD_p_UNKNOWN_MAC_HI q).piece] fun t =>
      t.raw = d.raw ∧ t.reg (R.FIELD_p_UNKNOWN_CNT q) = satSucc (s.reg (R.FIELD_p_UNKNOWN_CNT q)) ∧
      t.reg (R.FIELD_p_UNKNOWN_MAC_LO q) = BitVec.ofNat 32 r.src ∧
      t.reg (R.FIELD_p_UNKNOWN_MAC_HI q) = BitVec.ofNat 32 (r.src / 2 ^ 32 % 65536)
    (¬wire → bad) ∧
    (wire → s.station? p r.station = none → unknown) ∧
    (∀ c, wire → s.station? p r.station = some c → c.num < 256 →
      (s.stnState p r.station = 0 ∨ (c.mac ≠ 0 ∧ c.mac ≠ r.src) → unknown) ∧
      (s.stnState p r.station ≠ 0 → c.mac = 0 ∨ c.mac = r.src →
        let x := s.stn p c.num
        let cyc := r.cycle = (s.reg (R.FIELD_p_CYCLE_NUM q)).toNat ∧ (s.fport q).running = true ∧ frameOver s q = false ∧
          (r.inputs.length = c.inLen ∨ (natBit r.status 0 = true ∧ r.inputs = []))
        let here (y : StationSt) : StationSt := if p = q then { y with pathA := true } else { y with pathB := true }
        (¬cyc → bad) ∧
        (cyc → x.good.isSome = true → Completes (.treavoReply q g r) s [Piece.raw, .field, (R.FIELD_p_DUP_CNT q).piece] fun t =>
          t.reg (R.FIELD_p_DUP_CNT q) = satSucc (s.reg (R.FIELD_p_DUP_CNT q)) ∧ t.stn p c.num = here x) ∧
        (cyc → x.good = none → Completes (.treavoReply q g r) s ([Piece.raw, .field, .ages, .inputs, .txn, .block 8, .block 17] ++ noted) fun t =>
          let off := (g - (s.fport q).origin).toNat
          let st := s.stnState p c.num
          t.raw = d.raw ∧ t.stnState p c.num = st ∧
          t.reg (R.FIELD_p_s_ARRIVAL p c.num) = BitVec.ofNat 32 (off % 2 ^ 24) ∧
          t.flag (R.FIELD_p_s_STATUS p c.num) F.FIELD_p_s_STATUS.OUT_CONFIRMED = true ∧
          t.flag (R.FIELD_p_s_STATUS p c.num) F.FIELD_p_s_STATUS.STN_SAFE = natBit r.status 3 ∧
          t.flag (R.FIELD_p_s_STATUS p c.num) F.FIELD_p_s_STATUS.WD_TRIPPED = natBit r.status 1 ∧
          (t.stn p c.num).good = some (r.inputs, r.status) ∧ (t.stn p c.num).lastGood = some (s.fport p).headland ∧
          tget 0 t.ages (stnSource p c.num) = (s.fport p).headland + 1 ∧
          (natBit r.status 0 = false → st = 3 ∨ st = 4 →
            t.inputs = (s.putInputs (stnAddr p c.num) r.inputs).inputs) ∧
          (natBit r.status 0 = false → st = 2 → (t.stn p c.num).admitted = true ∧ (t.stn p c.num).inputs = r.inputs ∧
            t.inputs = s.inputs) ∧
          (natBit r.status 0 = true → t.inputs = s.inputs ∧
            (st = 3 ∨ st = 4 → (t.stn p c.num).dropped = true)))))

/-- Field ports, their frames and the replies of their stations. -/
def Obligations.FieldPortsServeTheirStations : Prop :=
  Claim.FieldPortsAreEnabledAndServed ∧ Claim.StationRepliesAreTaken

/-- R391, R394 to R398: at its headland a CAN port queues SYNC and the process data of its operational nodes; a node boots step by step,
becomes operational with its first process data, and is lost or refused; the host runs one SDO at a time on each port. -/
def Claim.CanPortsManageTheirNodes : Prop :=
  ∀ (p : Fin 4) (s : State),
    (let due := s.flag (R.CAN_p_CTRL p) F.CAN_p_CTRL.EN = true ∧ s.headRun = true ∧ s.isCanHeadland p s.headIndex = true ∧
      s.portsSilent = false
     (¬due → exec (.canCycle p) s = .next s) ∧
     (due → Completes (.canCycle p) s [Piece.field, .raw, .resets] fun t => t.raw = (s.advanceTo (s.headRaw + 64)).raw ∧
       ∃ l, (t.can p).queue = (0x080, []) :: l ∧
         l = ((List.range 128).filterMap fun n => (s.node? p n).filter fun _ => s.nodeState p n = 2).flatMap (nodeRpdos s p))) ∧
    (∀ n : Fin 128,
      let dropped (m : CanMsg) := exec (.canFrameRx p n m) s = .next (s.incSat (R.CAN_p_RX_DROP_CNT p))
      let x := s.node p n
      let st := s.nodeState p n
      let parts := [Piece.collie, .field, .inputs, .quals, .block 18] ++ noted
      (s.node? p n = none → (∀ m, dropped m) ∧ exec (.nodeRetry p n) s = .next s ∧ exec (.heartbeatTimeout p n) s = .next s) ∧
      (st = 1 → x.boot = .wait → Completes (.nodeBootTimeout p n) s [Piece.field] fun t => t.node p n = { x with boot := .retry }) ∧
      (st ≠ 1 ∨ x.boot ≠ .wait → exec (.nodeBootTimeout p n) s = .next s) ∧
      (∀ c, s.node? p n = some c → c.node = n.val →
        let lost (i : Instr) := Completes i s parts fun t => t.nodeState p n = 4 ∧ (t.node p n).boot = .retry ∧
          t.flag R.CAN_EVENTS F.CAN_EVENTS.NODE_LOST = true ∧ (tget 0 t.quals (nodeSource p n)) = 2
        dropped .other ∧
        (st = 1 → x.boot = .wait → Completes (.canFrameRx p n .bootUp) s [Piece.field] fun t => t.node p n = { x with boot := .ident 1 }) ∧
        (st = 2 ∨ st = 3 → lost (.canFrameRx p n .bootUp) ∧ (∀ h, h ≠ 5 → lost (.canFrameRx p n (.heartbeat h))) ∧
          exec (.canFrameRx p n (.heartbeat 5)) s = .next s ∧ (c.hbMs ≠ 0 → lost (.heartbeatTimeout p n))) ∧
        ((st ≠ 2 ∧ st ≠ 3) ∨ c.hbMs = 0 → exec (.heartbeatTimeout p n) s = .next s) ∧
        (∀ b, Completes (.canFrameRx p n (.emcy b)) s ([Piece.block 18] ++ noted) fun t =>
          t.reg (R.CAN_p_n_EMCY_LO p n) = BitVec.ofNat 32 (leNat (b.take 4)) ∧
          t.reg (R.CAN_p_n_EMCY_HI p n) = BitVec.ofNat 32 (leNat ((b.drop 4).take 4)) ∧
          t.flag R.CAN_EVENTS F.CAN_EVENTS.EMCY = true) ∧
        (∀ i b, c.tpdos.length ≤ i → dropped (.tpdo i b)) ∧
        (∀ i b, i < c.tpdos.length →
          Completes (.canFrameRx p n (.tpdo i b)) s [Piece.ages, .collie, .field, .inputs, .quals, .block 18] fun t =>
            natBit (t.node p n).got i = true ∧ tget 0 t.ages (nodeSource p n) = s.headIndex + 1 ∧
            (st = 2 ∨ st = 3 → t.nodeState p n = st ∧ t.inputs = (s.putInputs (nodeAddr p n + (c.tpdos.take i).sum)
              (padTo ((c.tpdos[i]?).getD 0) (b.take ((c.tpdos[i]?).getD 0)))).inputs) ∧
            (st = 1 → x.boot = .start → t.nodeState p n = 2 ∧ tget 0 t.quals (nodeSource p n) = 1)) ∧
        (x.boot = .retry → Completes (.nodeRetry p n) s [Piece.collie, .field, .inputs, .quals, .block 18] fun t =>
          t.nodeState p n = 1 ∧ (t.node p n).boot = .wait ∧
          (c.resetComm = true → (t.can p).queue = (s.can p).queue ++ [(0, [0x82, BitVec.ofNat 8 n])])) ∧
        (x.boot ≠ .retry → exec (.nodeRetry p n) s = .next s) ∧
        (x.boot = .ident 1 ∨ x.boot = .sdo 0 → ∀ e, e ≠ .timeout → (∀ code, e ≠ .abort code) →
          Completes (.sdoComplete p (some n) e) s [Piece.field] fun t =>
            (x.boot = .ident 1 → (t.node p n).boot = .ident 2) ∧
            (x.boot = .sdo 0 → 1 < c.sdos.length → (t.node p n).boot = .sdo 1) ∧
            (x.boot = .sdo 0 → c.sdos.length ≤ 1 → (t.node p n).boot = .start ∧
              (t.can p).queue = (s.can p).queue ++ [(0, [1, BitVec.ofNat 8 n])])) ∧
        (∀ b, x.boot = .ident 3 → Completes (.sdoComplete p (some n) (.success b)) s parts fun t =>
          let code := nodeIdent c (x.idents ++ [leNat (b.take 4)])
          (code = 0 → 0 < c.sdos.length → (t.node p n).boot = .sdo 0) ∧
          (code ≠ 0 → t.nodeState p n = 5 ∧ (t.node p n).boot = .retry ∧ t.get (R.CAN_p_n_STATUS p n) ⟨8, 3⟩ = code)) ∧
        (∀ i code, x.boot = .ident i ∨ x.boot = .sdo i → Completes (.sdoComplete p (some n) (.abort code)) s parts fun t =>
          t.nodeState p n = 5 ∧ (t.node p n).boot = .retry ∧ t.reg (R.CAN_p_SDO_RESULT p) = BitVec.ofNat 32 code ∧
          t.flag R.CAN_EVENTS F.CAN_EVENTS.REFUSED = true) ∧
        (∀ i, x.boot = .ident i ∨ x.boot = .sdo i → Completes (.sdoComplete p (some n) .timeout) s [Piece.field] fun t =>
          t.node p n = { x with boot := .retry }))) ∧
    Completes (.busOff p) s ([(R.CAN_p_STATUS p).piece, (R.CAN_p_BUSOFF_CNT p).piece, R.CAN_EVENTS.piece] ++ noted) (fun t =>
      t.get (R.CAN_p_STATUS p) ⟨0, 2⟩ = 2 ∧ t.reg (R.CAN_p_BUSOFF_CNT p) = satSucc (s.reg (R.CAN_p_BUSOFF_CNT p)) ∧
      t.flag R.CAN_EVENTS F.CAN_EVENTS.BUS_OFF = true) ∧
    exec (.busOffRecovered p) s = .next (if s.get (R.CAN_p_STATUS p) ⟨0, 2⟩ = 2 then s.setReg (R.CAN_p_STATUS p) 0 else s) ∧
    (∀ (n : Fin 128) (down : Bool),
      let i : Instr := if down then .sdoDownload p n else .sdoUpload p n
      ((s.can p).sdo.isSome = true → exec i s = .next (s.raise R.CAN_EVENTS F.CAN_EVENTS.CFG_REFUSED)) ∧
      ((s.can p).sdo = none → Completes i s [Piece.field, (R.CAN_p_SDO_BUSY p).piece] fun t => t.reg (R.CAN_p_SDO_BUSY p) = 1 ∧
        ∃ b, (t.can p).sdo = some ⟨0, n, (s.reg (R.CAN_p_SDO_ADDR p)).toNat % 65536,
          (s.reg (R.CAN_p_SDO_ADDR p)).toNat / 65536 % 256, down, b⟩ ∧ (down = false → b = []))) ∧
    ((s.can p).sdo = none → ∀ e, exec (.sdoComplete p none e) s = .next s) ∧
    (∀ r, (s.can p).sdo = some r → r.source = 0 →
      let done (e : SdoEnd) (result : Word) := Completes (.sdoComplete p none e) s [Piece.field, .block 18] fun t =>
        (t.can p).sdo = none ∧ t.reg (R.CAN_p_SDO_BUSY p) = 0 ∧ t.reg (R.CAN_p_SDO_RESULT p) = result
      (∀ b, done (.success b) 0) ∧ (∀ code, done (.abort code) (BitVec.ofNat 32 code)) ∧ done .timeout 0xFFFFFFFF ∧
      (∀ b t, r.download = false → exec (.sdoComplete p none (.success b)) s = .next t → b.length ≤ 1024 →
        sdoBuf t p b.length = b ∧ t.reg (R.CAN_p_SDO_LEN p) = BitVec.ofNat 32 b.length)) ∧
    (∀ serial : Bool, Completes (.bootMsMissing serial p) s ([R.CAN_EVENTS.piece, R.SER_EVENTS.piece] ++ noted) fun t =>
      (serial = false → (∃ c ∈ s.nodeTable p, s.nodeState p c.node ≠ 2 ∧ s.nodeState p c.node ≠ 3) →
        t.flag R.CAN_EVENTS F.CAN_EVENTS.MISSING = true) ∧
      (serial = false → (∀ c ∈ s.nodeTable p, s.nodeState p c.node = 2 ∨ s.nodeState p c.node = 3) → t = s) ∧
      (serial = true → (∃ c ∈ tget [] s.image.slaves p, (s.slave p c.slave).everOk = false) →
        t.flag R.SER_EVENTS F.SER_EVENTS.MISSING = true) ∧
      (serial = true → (∀ c ∈ tget [] s.image.slaves p, (s.slave p c.slave).everOk = true) → t = s))

/-- R23, R121, R401, R402, R404, R405: a serial port scans its poll list, retries, and counts an overrun; a filtered change of a pin moves
the input at its PERIPH edge, latches the change for every class and posts it. -/
def Claim.SerialPortsScanAndPinsChange : Prop :=
  ∀ s : State,
    (∀ p : Fin 4,
      let x := s.ser p
      let parts := [Piece.collie, .field, .inputs, .quals, .resets, .block 19] ++ noted
      let due := s.flag (R.SER_p_CTRL p) F.SER_p_CTRL.EN = true ∧ s.headRun = true ∧ s.isSerHeadland p s.headIndex = true ∧
        s.portsSilent = false
      let sent (i tries : Nat) (e : PollEntry) (image : Tbl Byte) (t : State) : Prop := (t.ser p).entry = i ∧ (t.ser p).tries = tries ∧
        (t.ser p).turn = decide (e.slave = 0) ∧ (t.ser p).request = pollRequest image p e ∧ (t.ser p).scanning = true ∧
        t.get (R.SER_p_STATUS p) ⟨8, 8⟩ = i % 256
      (¬due → exec (.serialScan p) s = .next s) ∧
      (due → x.scanning = true → Completes (.serialScan p) s ([Piece.field, .raw, .block 19] ++ noted) fun t =>
        t.raw = (s.advanceTo (s.headRaw + 64)).raw ∧ t.ser p = { x with again := true } ∧
        t.reg (R.SER_p_SCAN_OVR p) = satSucc (s.reg (R.SER_p_SCAN_OVR p)) ∧ t.flag R.SER_EVENTS F.SER_EVENTS.SCAN_OVR = true) ∧
      (due → x.scanning = false → s.polls p = [] → Completes (.serialScan p) s [Piece.raw] fun t =>
        t.raw = (s.advanceTo (s.headRaw + 64)).raw) ∧
      (∀ e l, due → x.scanning = false → s.polls p = e :: l → Completes (.serialScan p) s [Piece.field, .raw, .block 19] fun t =>
        t.raw = (s.advanceTo (s.headRaw + 64)).raw ∧ sent 0 0 e s.img.sealed t ∧ (t.ser p).image = s.img.sealed ∧
        t.flag (R.SER_p_STATUS p) F.SER_p_STATUS.SCANNING = true) ∧
      (let idle := (s.polls p)[x.entry]? = none ∨ x.scanning = false ∨ x.turn = true
       idle → (∀ r, exec (.modbusResponse p r) s = .next s) ∧ exec (.modbusTimeout p) s = .next s) ∧
      (∀ e, (s.polls p)[x.entry]? = some e → x.scanning = true → x.turn = false → 0 < e.slave → e.slave < 248 →
        let limit := s.get (R.SER_p_TIMING p) F.SER_p_TIMING.RETRIES
        (x.tries < limit →
          (∀ i ∈ [Instr.modbusTimeout p, .modbusResponse p .crc, .modbusResponse p .malformed],
            Completes i s [Piece.field, (R.SER_p_STATUS p).piece] (sent x.entry (x.tries + 1) e x.image)) ∧
          ∀ code, Completes (.modbusResponse p (.exception code)) s [Piece.field, .block 19] fun t =>
            sent x.entry (x.tries + 1) e x.image t ∧ t.get (R.SER_p_s_STATUS p e.slave) ⟨8, 8⟩ = code % 256) ∧
        (limit ≤ x.tries → ∀ code k i, (k, i) ∈ [(1, Instr.modbusTimeout p), (2, .modbusResponse p .crc), (3, .modbusResponse p .malformed),
            (4, .modbusResponse p (.exception code))] →
          Completes i s parts fun t => t.get (R.SER_p_s_STATUS p e.slave) ⟨4, 3⟩ = k ∧
            (∀ e', (s.polls p)[x.entry + 1]? = some e' → sent (x.entry + 1) 0 e' x.image t)) ∧
        (∀ data, Completes (.modbusResponse p (.good data)) s ([Piece.ages] ++ parts) fun t =>
          t.get (R.SER_p_s_STATUS p e.slave) ⟨4, 3⟩ = 0 ∧ (t.slave p e.slave).everOk = true ∧
          (x.entry + 1 < (s.polls p).length → t.slaveState p e.slave = 2) ∧
          (∀ e', (s.polls p)[x.entry + 1]? = some e' → sent (x.entry + 1) 0 e' x.image t) ∧
          (e.func = 3 ∨ e.func = 4 → x.entry + 1 < (s.polls p).length →
            t.inputs = (s.putInputs (slaveAddr p e.slave e.elem) (regsIn (data.take (2 * e.qty)))).inputs ∧
            tget 0 t.ages (slaveSource p e.slave) = s.headIndex + 1))) ∧
      (x.scanning = false ∨ x.turn = false → exec (.broadcastTurnaround p) s = .next s) ∧
      (x.scanning = true → x.turn = true → Completes (.broadcastTurnaround p) s parts fun t =>
        ∀ e', (s.polls p)[x.entry + 1]? = some e' → sent (x.entry + 1) 0 e' x.image t)) ∧
    (∀ (i : Fin 192) (lv : Bool) (g : Quad),
      let d := s.advanceTo (periphFrom (if g.toNat < s.raw.toNat then s.raw else g))
      (s.level i = lv → exec (.gpioFilteredChange i lv g) s = .next d) ∧
      (s.level i ≠ lv → Completes (.gpioFilteredChange i lv g) s [Piece.collie, .field, .inputs, .pulses, .raw] fun t =>
        t.raw = d.raw ∧ t.level i = lv ∧ (∀ j : Fin 192, j ≠ i → t.level j = s.level j) ∧ tget 0 t.inputs i = (if lv then 1 else 0) ∧
        (∀ k, k < 4 → natBit (tget 0 t.pulses (k * 192 + i)) (if lv then 0 else 1) = true) ∧
        ∃ l, t.collie = { s.collie with hwPosts := s.collie.hwPosts ++ l } ∧
          ∀ e : Fin 16,
            let w := s.reg (R.GPIO_e_EVT e)
            fldOf F.GPIO_e_EVT.PIN w = i.val →
            fldOf F.GPIO_e_EVT.EDGE w = 3 ∨ fldOf F.GPIO_e_EVT.EDGE w = (if lv then 1 else 2) →
            ⟨fldOf F.GPIO_e_EVT.DESC w, BitVec.ofNat 64 (i.val + (if lv then 256 else 0)), some (d.raw, d.vT64)⟩ ∈ l))

/-- CAN ports and nodes, serial ports and slaves, and pins. -/
def Obligations.CanSerialAndPinsAreServed : Prop :=
  Claim.CanPortsManageTheirNodes ∧ Claim.SerialPortsScanAndPinsChange

/-! ### Chapters 11 and 15: JOA -/

/-- R439: a request of a session that is not open, or that is in progress, is discarded; a repeated one gets its kept response again; with 16
in progress it is answered BUSY. -/
def Obligations.RequestsAreAnsweredOnce : Prop :=
  ∀ (k : Fin 32) (req n win : BitVec 16) (a b : Word) (q : Quad) (w mode : Byte) (ws : List WriteItem) (as_ : List Word) (data : List Byte)
    (s : State), ∀ op c, (op, c) ∈ [(8, Instr.ping k req), (9, .close k req), (0x10, .read k req a b n), (0x11, .write k req ws),
      (0x12, .readMulti k req as_), (0x13, .writeGroup k req q ws), (0x14, .info k req a), (0x18, .segStart k req a q b),
      (0x19, .segData k req n q data), (0x1A, .segEnd k req n), (0x1B, .segAbort k req n), (0x20, .subscribe k req mode win as_),
      (0x21, .unsubscribe k req n), (0x28, .streamOpen k req w), (0x2A, .streamAck k req a), (0x2B, .streamClose k req)] →
    let x := s.session k
    let pending := ∃ p ∈ x.pend, p.req = req.toNat
    let queued (m : List Byte) : State := s.setSession k { x with queue := x.queue ++ [.body m] }
    (x.st ≠ 2 ∨ pending → exec c s = .next (joaServe s)) ∧
    (∀ body, x.st = 2 → ¬pending → x.kept.find? (fun r => decide (r.1 = req.toNat)) = some (req.toNat, body) →
      exec c s = .next (joaServe (queued body))) ∧
    (x.st = 2 → ¬pending → (∀ r ∈ x.kept, r.1 ≠ req.toNat) → 16 ≤ x.pend.length →
      exec c s = .next (joaServe (queued (joaHead op 10 req.toNat))))

/-- R430, R436 to R448, R453: what a request of an open session is answered, with nothing else waiting. -/
def Obligations.RequestsTakeEffectAndAreAnswered : Prop :=
  ∀ (k : Fin 32) (req : BitVec 16) (s : State),
    let x := s.session k
    let rq := req.toNat
    x.st = 2 → s.joa.proxies = [] → (∀ j, j < 32 → (s.session j).pend = []) → (∀ r ∈ x.kept, r.1 ≠ rq) → s.resets.recovery = false →
    let reading := [Piece.evlog, .free, .gran, .group, .latch, .readData, .sec, .regs]
    let answers (c : Instr) (op st : Nat) (w : List Piece) (post : State → List Byte → Prop) : Prop :=
      ∃ rest, Completes c s (w ++ [Piece.joa, R.XSPI_STATUS.piece]) fun t =>
        (t.session k).queue = x.queue ++ [JoaOut.body (joaHead op st rq ++ rest)] ∧
        (t.session k).kept.getLast? = some (rq, joaHead op st rq ++ rest) ∧ (t.session k).pend = [] ∧ post t rest
    let plain (c : Instr) (op st : Nat) : Prop := answers c op st [] fun t rest => rest = [] ∧ t.joa.xfers = s.joa.xfers ∧ t.joa.subs = s.joa.subs
    let accepted (op slot bad : Nat) (items : List JoaItem) : State :=
      joaPend k ⟨rq, s.joa.nextOrd, op, items, s.vT64, slot, bad⟩ { s with joa := { s.joa with nextOrd := s.joa.nextOrd + 1 } }
    let here (a : Word) := a.toNat / 2 ^ 24 = s.ownDev
    let far (a : Word) : Nat := if a.toNat / 2 ^ 24 < 8 ∧ natBit (s.reg R.DRUS_REACH).toNat (a.toNat / 2 ^ 24) = true then 1 else 0
    answers (.ping k req) 8 0 [] (fun t rest => rest = [] ∧ (t.session k).last = s.raw) ∧
    (Completes (.close k req) s
        ([Piece.free, .glean, .group, .joa, .latch, .stage, .txn, .block 8, .block 20, .block 22, R.XSPI_STATUS.piece] ++ noted) fun t =>
      (t.session k).st = 0 ∧ (t.session k).reason = 1 ∧ (t.session k).sent = joaHead 9 0 rq ∧
      t.flag R.JOA_EVENTS F.JOA_EVENTS.SESSION_CLOSED = true) ∧
    (∀ (a off : Word) (most : BitVec 16),
      let item := JoaItem.read a.toNat off.toNat most.toNat
      let u := accepted 0x10 0 0 [item]
      let key := a.toNat % 2 ^ 24
      let st := readStatus u x.role key
      let c := Instr.read k req a off most
      (¬here a → far a = 0 → answers c 0x10 2 [] fun _ _ => True) ∧
      (here a → st ≠ 0 → answers c 0x10 st [] fun t _ => t.readData = s.readData) ∧
      (∀ e, here a → st = 0 → findEntry u key = some e → (∀ p n i j, e ≠ .proxy p n i j) →
        let m := entryMeta u key e
        (readSpan u k item m = none → answers c 0x10 14 [] fun _ _ => True) ∧
        (∀ n, readSpan u k item m = some n →
          (entryTotal u k e = none → answers c 0x10 11 [] fun _ _ => True) ∧
          (∀ total, entryTotal u k e = some total →
            let r := entryPart k e off.toNat n u
            (scalarType m.ty = true → readRoom u k < total → answers c 0x10 9 [] fun _ _ => True) ∧
            (scalarType m.ty = false ∨ total ≤ readRoom u k → answers c 0x10 0 reading fun _ rest =>
              rest = leBytes 1 m.ty ++ leBytes 1 (b2n (decide (off.toNat + r.1.length < total))) ++ leBytes 2 r.1.length ++
                leBytes 4 total ++ leBytes 8 r.2.vT64.toNat ++ r.1))))) ∧
    (∀ ws : List WriteItem,
      let c := Instr.write k req ws
      (ws = [] ∨ 64 < ws.length → plain c 0x11 14) ∧
      (∀ w, ws = [w] → here w.addr →
        let u := accepted 0x11 0 0 [JoaItem.write w]
        let key := w.addr.toNat % 2 ^ 24
        let st := writeStatus u x.role key w.ty.toNat w.data
        (st ≠ 0 → answers c 0x11 st [] fun _ _ => True) ∧
        (∀ e, st = 0 → findEntry u key = some e → (∀ p n i j, e ≠ .proxy p n i j) → (∀ m p v, e ≠ .pub m p v) →
          let r := entryWrite k key e w.data u
          r.2.joa = u.joa → ∃ t rest, exec c s = .next t ∧ (t.session k).queue = x.queue ++ [JoaOut.body (joaHead 0x11 r.1 rq ++ rest)] ∧
            t.mem = r.2.mem ∧ t.sec = r.2.sec ∧ t.exec = r.2.exec ∧ t.head = r.2.head ∧
            ∀ o, o ≠ (R.XSPI_STATUS).addr → tget 0 t.regs o = tget 0 r.2.regs o) ∧
        (∀ m p v, st = 0 → findEntry u key = some (.pub m p v) →
          (v.kind = 1 → ∃ t rest, exec c s = .next t ∧ (t.session k).queue = x.queue ++ [JoaOut.body (joaHead 0x11 0 rq ++ rest)] ∧
            t.collie = (pubWrite key m p v w.data u).collie) ∧
          (v.kind ≠ 1 → s.ctrlBridging = true → answers c 0x11 11 [] fun _ _ => True) ∧
          (v.kind ≠ 1 → s.ctrlBridging = false → s.headRun = true → Completes c s [Piece.joa, R.XSPI_STATUS.piece] fun t =>
            (t.session k).queue = x.queue ∧ ∃ p', (t.session k).pend = [p'] ∧ p'.req = rq ∧ p'.op = 0x11 ∧
              p'.items = [{ JoaItem.write w with wait := .headland }])))) ∧
    (∀ as_ : List Word,
      (as_ = [] ∨ 256 < as_.length → plain (.readMulti k req as_) 0x12 14) ∧
      (∀ a, as_ = [a] → here a →
        let u := accepted 0x12 0 0 [JoaItem.at a.toNat]
        let st := readStatus u x.role (a.toNat % 2 ^ 24)
        (st ≠ 0 → answers (.readMulti k req as_) 0x12 st [] fun _ _ => True) ∧
        (∀ e total, st = 0 → findEntry u (a.toNat % 2 ^ 24) = some e → (∀ p n i j, e ≠ .proxy p n i j) → entryTotal u k e = some total →
          20 + up4 total ≤ x.maxPayload → answers (.readMulti k req as_) 0x12 0 reading fun _ rest =>
            let r := entryPart k e 0 total u
            rest = leBytes 2 1 ++ leBytes 2 0 ++ leBytes 8 s.vT64.toNat ++ leBytes 1 0 ++ leBytes 1 (entryMeta u (a.toNat % 2 ^ 24) e).ty ++
              leBytes 2 r.1.length ++ pad4 r.1))) ∧
    (∀ (q : Quad) (ws : List WriteItem),
      (ws = [] ∨ 4096 < ws.length → plain (.writeGroup k req q ws) 0x13 14) ∧
      (ws ≠ [] → ws.length ≤ 4096 → s.txFreeSlot = none → plain (.writeGroup k req q ws) 0x13 10) ∧
      (∀ i, ws ≠ [] → ws.length ≤ 4096 → s.txFreeSlot = some i → ∃ t, exec (.writeGroup k req q ws) s = .next t ∧
        ((∃ p ∈ (t.session k).pend, p.req = rq ∧ p.op = 0x13 ∧ p.slot = i) ∨
          ∃ st rest, (t.session k).queue = x.queue ++ [JoaOut.body (joaHead 0x13 st rq ++ rest)]))) ∧
    (∀ a : Word,
      let key := a.toNat % 2 ^ 24
      let next := match nextEntry s key with
        | some b => s.ownDev * 2 ^ 24 + b
        | none => 0xFFFFFFFF
      (here a → findEntry s key = none → answers (.info k req a) 0x14 1 [] fun _ rest => rest = leBytes 4 next ++ List.replicate 80 0) ∧
      (∀ e, here a → findEntry s key = some e → answers (.info k req a) 0x14 0 [] fun _ rest =>
        rest = padTo 84 (leBytes 4 next ++ (entryMeta s key e).bytes)) ∧
      (¬here a → far a = 0 → answers (.info k req a) 0x14 2 [] fun _ _ => True)) ∧
    (∀ (mode : Byte) (period : BitVec 16) (as_ : List Word),
      let formed := mode.toNat ≤ 2 ∧ 1 ≤ period.toNat ∧ as_.length ≤ 64 ∧ (as_ = [] ↔ mode.toNat = 2)
      let room := s.joa.subs.length < 256 ∧ (s.joa.subs.filter fun y => decide (y.session = k.val)).length < 32 ∧
        (s.joa.subs.map fun y => y.items.length).sum + as_.length ≤ 4096
      (¬formed → plain (.subscribe k req mode period as_) 0x20 14) ∧
      (formed → (∀ a ∈ as_, here a ∧ readStatus s x.role (a.toNat % 2 ^ 24) = 0 ∧
          ∀ e, findEntry s (a.toNat % 2 ^ 24) = some e → e.unsubscribable = false) →
        (¬room → plain (.subscribe k req mode period as_) 0x20 19) ∧
        (room → answers (.subscribe k req mode period as_) 0x20 0 [] fun t rest => ∃ y : JoaSub, t.joa.subs = s.joa.subs ++ [y] ∧
          y.id = newSub s ∧ y.session = k.val ∧ y.mode = mode.toNat ∧ y.period = period.toNat ∧ y.items.map (·.2) = as_.map (·.toNat) ∧
          rest = leBytes 2 y.id ++ leBytes 2 0 ++ pad4 (as_.map fun _ => 0)))) ∧
    (∀ id : BitVec 16,
      let mine := ∃ y : JoaSub, y ∈ s.joa.subs ∧ y.id = id.toNat ∧ y.session = k.val
      (¬mine → plain (.unsubscribe k req id) 0x21 11) ∧
      (mine → ∃ t, exec (.unsubscribe k req id) s = .next t ∧ (∀ y : JoaSub, y ∈ t.joa.subs → y.id ≠ id.toNat) ∧
        (t.session k).queue = x.queue.filter (fun m => decide (m ≠ .event id.toNat)) ++ [JoaOut.body (joaHead 0x21 0 rq)])) ∧
    (∀ (a : Word) (total : Quad) (crc : Word),
      let st := segStatus s x.role a.toNat total.toNat
      let c := Instr.segStart k req a total crc
      (st ≠ 0 → plain c 0x18 st) ∧
      (∀ e, st = 0 → findEntry s (a.toNat % 2 ^ 24) = some e → answers c 0x18 0 [Piece.slots, R.SEC_IMAGE_STATUS.piece] fun t rest =>
        let n := s.joa.nextXfer % 65536
        t.joa.xfers = s.joa.xfers ++ [⟨n, k, e.slot s, total.toNat, crc.toNat, [], s.raw⟩] ∧ tget none t.slots (e.slot s) = none ∧
        tget none t.joa.stores (e.slot s) = none ∧
        rest = leBytes 2 n ++ leBytes 2 (x.maxPayload - 20) ++ leBytes 2 8 ++ leBytes 2 0)) ∧
    (∀ n : BitVec 16, s.xferOf k n.toNat = none → (∀ off data, plain (.segData k req n off data) 0x19 11) ∧
      plain (.segEnd k req n) 0x1A 11 ∧ plain (.segAbort k req n) 0x1B 11) ∧
    (∀ (n : BitVec 16) (y : JoaXfer), s.xferOf k n.toNat = some y →
      (∀ (off : Quad) (data : List Byte),
        let fits := data ≠ [] ∧ data.length ≤ x.maxPayload - 20 ∧ off.toNat + data.length ≤ y.total
        let c := Instr.segData k req n off data
        (¬fits → answers c 0x19 8 [] fun _ rest => rest = []) ∧
        (fits → off.toNat + data.length ≤ y.bytes.length → answers c 0x19 0 [] fun _ rest =>
          rest = leBytes 2 n.toNat ++ leBytes 2 0 ++ leBytes 8 y.bytes.length) ∧
        (fits → y.bytes.length < off.toNat + data.length → off.toNat ≠ y.bytes.length → answers c 0x19 17 [] fun _ _ => True) ∧
        (fits → off.toNat = y.bytes.length → Completes c s [Piece.joa, .gran, R.XSPI_STATUS.piece] fun t =>
          (t.session k).queue = x.queue ∧ (t.session k).pend = [⟨rq, s.joa.nextOrd, 0x19,
            [{ JoaItem.at 0 with data := data, wait := if y.slot < 2 then .flash else .granary }], s.vT64, n.toNat, 0⟩] ∧
          (y.slot < 2 → t.flag R.XSPI_STATUS F.XSPI_STATUS.BUSY = true ∧ t.gran = s.gran) ∧
          (2 ≤ y.slot → t.gran.jobs = s.gran.jobs ++ [⟨.config, linesOf data.length, false, s.raw⟩]))) ∧
      (let st := if y.bytes.length ≠ y.total then 8 else if (crc32c y.bytes).toNat ≠ y.crc then 16 else 0
       answers (.segEnd k req n) 0x1A st [] fun t rest => rest = [] ∧ t.joa.xfers = s.joa.xfers.filter (fun z => decide (z.num ≠ n.toNat)) ∧
        (st = 0 → tget none t.joa.stores y.slot = some y.bytes) ∧ (st ≠ 0 → t.joa.stores = s.joa.stores)) ∧
      (answers (.segAbort k req n) 0x1B 0 (R.JOA_EVENTS.piece :: noted) fun t rest => rest = [] ∧
        t.joa.xfers = s.joa.xfers.filter (fun z => decide (z.num ≠ n.toNat)) ∧ t.flag R.JOA_EVENTS F.JOA_EVENTS.XFER_ABORTED = true)) ∧
    (let mine := s.glean.stream = some k.val
     (∀ w : Byte,
       let c := Instr.streamOpen k req w
       let formed := 1 ≤ w.toNat ∧ w.toNat ≤ 64
       (¬formed → plain c 0x28 14) ∧ (formed → s.glean.stream.isSome = true → ¬mine → plain c 0x28 10) ∧
       (formed → s.glean.stream = none ∨ mine → x.maxPayload < 4108 → plain c 0x28 9) ∧
       (formed → s.glean.stream = none ∨ mine → 4108 ≤ x.maxPayload → answers c 0x28 0 [Piece.glean] fun t rest =>
         rest = leBytes 4 s.ackSeq ∧
         t.glean = { s.glean with stream := some k.val, window := w.toNat, nextSend := s.ackSeq, sentAt := s.raw })) ∧
     (¬mine → (∀ a, plain (.streamAck k req a) 0x2A 11) ∧ plain (.streamClose k req) 0x2B 11) ∧
     (mine → (∀ a, answers (.streamAck k req a) 0x2A 0 ([Piece.glean, .block 13] ++ noted) fun t rest => rest = [] ∧
         t.glean = (gleanAck a.toNat s).glean) ∧
       answers (.streamClose k req) 0x2B 0 [Piece.glean] fun t rest => rest = [] ∧ t.glean = { s.glean with stream := none }))

/-- R433 to R436, R457, R576, R577: a message in clear or inside a session is accepted, or counted by what is wrong with it; HELLO takes a
session, PROOF opens it or frees it, and it ends by its timeout, when it is idle, or by the host's write. -/
def Obligations.SessionsAreEstablishedUsedAndEnded : Prop :=
  ∀ s : State,
    (∀ (h : HostAddr) (up : Fin 2) (word : Word) (q : Quad) (tag : Bool) (op : Byte) (req : BitVec 16),
      let c (clear formed : Bool) := Instr.joaMessage h up clear formed word q tag op req
      let k := word.toNat % 32
      let x := s.session k
      let known := x.st = 2 ∧ x.token = word.toNat / 32 ∧ x.host = h
      let rx := R.UPLINK_p_RX_CNT up
      let counted (i : Instr) (r : Reg) (w : List Piece) (post : State → Prop) := Completes i s (w ++ [r.piece, rx.piece]) fun t =>
        t.reg r = satSucc (s.reg r) ∧ t.reg rx = satSucc (s.reg rx) ∧ post t
      (carrierOn s h up = false → ∀ a b, exec (c a b) s =
        .next (if s.uplinkOn up = true then s.incSat (R.UPLINK_p_DISCARD_CNT up) else s)) ∧
      (carrierOn s h up = true →
        (∀ a, counted (c a false) R.JOA_MALFORMED_CNT [] fun _ => True) ∧
        (5 ≤ op.toNat → op.toNat ≤ 7 → s.lifecycle ≠ 4 → counted (c true true) (R.UPLINK_p_TX_CNT up) [Piece.joa] fun t =>
          t.joa = { s.joa with clear := some (h, joaHead op.toNat 15 req.toNat) }) ∧
        (op.toNat < 5 ∨ 7 < op.toNat ∨ s.lifecycle = 4 → exec (c true true) s = .next (s.incSat rx)) ∧
        (¬known → counted (c false true) R.JOA_MALFORMED_CNT [] fun _ => True) ∧
        (known → tag = false → counted (c false true) R.JOA_AUTH_FAIL_CNT (R.JOA_EVENTS.piece :: noted) fun t =>
          t.flag R.JOA_EVENTS F.JOA_EVENTS.AUTH_FAIL = true) ∧
        (known → tag = true → seqFresh x q.toNat = false → counted (c false true) R.JOA_REPLAY_CNT (R.JOA_EVENTS.piece :: noted) fun t =>
          t.flag R.JOA_EVENTS F.JOA_EVENTS.REPLAY = true) ∧
        (known → tag = true → seqFresh x q.toNat = true → counted (c false true) (R.JOA_s_RX_CNT k) [Piece.joa] fun t =>
          (t.session k).high = max x.high q.toNat ∧ q.toNat ∈ (t.session k).seen ∧ (t.session k).last = s.raw ∧ (t.session k).uplink = up ∧
          (hostOpcode op.toNat = true → (t.session k).queue = x.queue ∧ (t.session k).pend = x.pend)))) ∧
    (∀ (h : HostAddr) (up : Fin 2) (role slot : Byte) (most : BitVec 16) (nonce eph : List Byte) (req : BitVec 16),
      let c := Instr.hello h up role slot most nonce eph req
      let st := helloStatus s h role.toNat slot.toNat
      let free := (List.range 32).find? fun k => decide ((s.session k).st = 0)
      let passed : State := if s.uplinkOn up = true then s.incSat (R.UPLINK_p_DISCARD_CNT up) else s
      (carrierOn s h up = false → exec c s = .next passed ∧ exec (.identity h up req) s = .next passed) ∧
      (carrierOn s h up = true →
        (st ≠ 0 ∨ free = none → Completes c s [Piece.joa, .block 20] fun t => t.joa = { s.joa with clear := some (h, joaHead 1 st req.toNat) }) ∧
        (∀ k, st = 0 → free = some k → Completes c s ([Piece.joa, .free, .gran, .sec, .block 20, .block 22, .block 27] ++ noted) fun t =>
          (t.session k).st = 1 ∧ (t.session k).role = role.toNat ∧ (t.session k).host = h ∧ (t.session k).keySlot = slot.toNat ∧
          (t.session k).uplink = up ∧ (t.session k).last = s.raw ∧ (t.session k).pend = [] ∧ (t.session k).queue = [] ∧
          (t.session k).shake.isSome = true ∧ (t.session k).maxPayload = min most.toNat (carrierMax s h up) ∧
          (∃ rest, t.joa.clear = some (h, joaHead 1 0 req.toNat ++ rest)) ∧ (∀ j, j < 32 → j ≠ k → t.session j = s.session j)) ∧
        (Completes (.identity h up req) s [Piece.joa, .free, .block 20] fun t => ∃ keys, t.joa.clear = some (h, joaHead 3 0 req.toNat ++
            leBytes 8 s.sec.serial.toNat ++ keys ++ leBytes 3 0) ∧ (∀ l, s.sec.keys = some l → keys = l ∧ t.free = s.free)))) ∧
    (∀ (k : Fin 32) (req : BitVec 16),
      let x := s.session k
      let ended (c : Instr) (why : Nat) (w : List Piece) (post : State → Prop) :=
        Completes c s (w ++ [Piece.free, .glean, .group, .joa, .latch, .stage, .txn, .block 8, .block 22] ++ noted) fun t =>
          (t.session k).st = 0 ∧ (t.session k).reason = why ∧ (∀ y : JoaSub, y ∈ t.joa.subs → y.session ≠ k.val) ∧
          t.glean.stream ≠ some k.val ∧ post t
      (∀ off, x.shake = none → exec (.sigPart k off req) s = .next s) ∧
      (∀ (off : Word) y, x.shake = some y → Completes (.sigPart k off req) s [Piece.joa, .block 20] fun t =>
        let part := (y.hssSig.drop off.toNat).take (carrierMax s x.host x.uplink - 12)
        t.joa = { s.joa with clear := some (x.host, joaHead 4 0 req.toNat ++ leBytes 4 off.toNat ++ leBytes 2 part.length ++ leBytes 2 0 ++
          part) }) ∧
      (x.st ≠ 1 → (∀ good, exec (.proof k req good) s = .next s) ∧ exec (.proofTimeout k) s = .next s) ∧
      (x.st = 1 → Completes (.proof k req true) s ([Piece.joa, .free, .block 20, R.JOA_EVENTS.piece] ++ noted) fun t =>
        (t.session k).st = 2 ∧ (t.session k).shake = none ∧ (t.session k).high = 1 ∧ (t.session k).seen = [1] ∧ (t.session k).last = s.raw ∧
        (t.session k).queue = [JoaOut.body (joaHead 2 0 req.toNat ++ leBytes 1 x.role ++ leBytes 1 0 ++ leBytes 2 x.maxPayload)] ∧
        t.flag R.JOA_EVENTS F.JOA_EVENTS.SESSION_OPENED = true) ∧
      (x.st = 1 → ended (.proof k req false) x.reason [Piece.block 20] (fun t => t.joa.clear = some (x.host, joaHead 2 3 req.toNat) ∧
          ((x.host, s.raw) ∈ t.joa.failures ∨ (x.host, s.raw) ∈ t.joa.lockouts)) ∧
        ended (.proofTimeout k) x.reason [] fun _ => True) ∧
      (x.st ≠ 2 → exec (.sessionIdle k) s = .next s) ∧
      (s.joa.proxies = [] → (∀ j, j < 32 → (s.session j).pend = []) →
        (x.st = 2 → ended (.sessionIdle k) 2 [Piece.raw, R.XSPI_STATUS.piece] (fun t =>
          t.raw = (s.advanceTo (x.last + BitVec.ofNat 64 (msGrains (1000 * ((s.reg R.JOA_IDLE_S).toNat % 4096))))).raw ∧
          t.flag R.JOA_EVENTS F.JOA_EVENTS.SESSION_CLOSED = true)) ∧
        (x.st ≠ 0 → ended (.sessionCloseWrite k) 3 [R.XSPI_STATUS.piece] fun _ => True) ∧
        (x.st = 0 → Completes (.sessionCloseWrite k) s [R.XSPI_STATUS.piece] fun _ => True))) ∧
    (∀ h : HostAddr, exec (.helloLockoutEnd h) s =
      .next { s with joa := { s.joa with lockouts := s.joa.lockouts.filter fun y => decide (y.1 ≠ h) } })

/-- R429, R430, R447, R449, R451, R453, R651: answers of nodes, slaves and farm devices settle the items that wait for them; a due
subscription is sampled; the next block of the gleaner is streamed, or sending begins again; a transfer is aborted after 10 s. -/
def Obligations.TheJoaEngineServesWhatWaits : Prop :=
  ∀ s : State,
    (∀ (port : Fin 8) (e : ProxyEnd) (r : ProxyReq) (p : JoaPend) (it : JoaItem), s.joa.proxies = [r] → r.port = port.val →
      r.started = true → r.session < 32 → (s.session r.session).st = 2 → (s.session r.session).pend = [p] → p.req = r.req →
      p.op = 0x11 → p.items = [it] → r.item = 0 → r.write = true → it.status = none → it.wait = .proxy →
      (∀ j, j < 32 → j ≠ r.session → (s.session j).pend = []) →
      ∃ t rest, exec (.proxyComplete port e) s = .next t ∧ t.joa.proxies = [] ∧ (t.session r.session).pend = [] ∧
        (t.session r.session).queue = (s.session r.session).queue ++ [JoaOut.body (joaHead 0x11 (match e with
          | .done _ => 0
          | .remote _ => 13
          | .timeout => 12) r.req ++ rest)]) ∧
    (∀ (k : Fin 32) (req : BitVec 16) (p : JoaPend) (it : JoaItem) (st ty : Byte) (total detail : Word) (more : Bool) (data : List Byte),
      s.joa.proxies = [] → (s.session k).st = 2 → (s.session k).pend = [p] → p.req = req.toNat → p.op = 0x11 → p.items = [it] →
      it.status = none → it.wait = .farm → (∀ j, j < 32 → j ≠ k.val → (s.session j).pend = []) →
      ∃ t rest, exec (.farmForwardResponse (.request k req 0) st ty total detail more data) s = .next t ∧ (t.session k).pend = [] ∧
        (t.session k).queue = (s.session k).queue ++ [JoaOut.body (joaHead 0x11 st.toNat req.toNat ++ rest)]) ∧
    (∀ (id i : Nat) (ty : Byte) (total detail : Word) (more : Bool) (data : List Byte),
      Completes (.farmForwardResponse (.subscription id i) 0 ty total detail more data) s [Piece.joa] fun t =>
        ∀ x ∈ t.joa.subs, x.id = id → (i, ty.toNat, data) ∈ x.remote) ∧
    (let due := s.joa.subs.filter fun x => decide (x.mode ≤ 1 ∧ s.headIndex % x.period = 0 ∧ x.sampled ≠ some s.headIndex)
     (due = [] ∨ s.headRun = false → exec .subscriptionSample s = .next s) ∧
     (due ≠ [] → s.headRun = true → (s.joa.subs.map (·.id)).Nodup →
       Completes .subscriptionSample s ([Piece.evlog, .free, .gran, .group, .joa, .latch, .raw, .readData, .regs, .sec] ++ noted) fun t =>
         t.raw = (s.advanceTo (s.headRaw + 64)).raw ∧
         ∀ x ∈ due, ∃ y : JoaSub, y ∈ t.joa.subs ∧ y.id = x.id ∧ y.sampled = some s.headIndex)) ∧
    (∀ k b, s.glean.stream = some k → s.unacked.find? (fun y => seqLe s.glean.nextSend y.seq) = some b →
      let out := (s.unacked.filter fun y => !seqLe s.glean.nextSend y.seq).length
      let next := (b.seq + 1) % 2 ^ 32
      (s.glean.window ≤ out ∨ 64 ≤ (s.session k).queue.length → exec .streamBlock s = .next s) ∧
      (out < s.glean.window → (s.session k).queue.length < 64 → Completes .streamBlock s [Piece.glean, .joa] fun t =>
        t.glean = { s.glean with
          nextSend := next, sentAt := if out = 0 then s.raw else s.glean.sentAt
          sent := if seqLe s.glean.sent b.seq = true then next else s.glean.sent } ∧
        (t.session k).queue = (s.session k).queue ++ [JoaOut.body (joaHead 0x29 0 0 ++ leBytes 4 b.seq ++ leBytes 4 0 ++ blockBytes s b)])) ∧
    (s.glean.stream = none ∨ (∀ y ∈ s.unacked, seqLe s.glean.nextSend y.seq = false) → exec .streamBlock s = .next s) ∧
    (s.glean.stream = none ∨ s.glean.nextSend = s.ackSeq → exec .streamResend s = .next s) ∧
    (s.glean.stream.isSome = true → s.glean.nextSend ≠ s.ackSeq →
      Completes .streamResend s ([Piece.glean, .raw, R.JOA_EVENTS.piece] ++ noted) fun t =>
        t.raw = (s.advanceTo (s.glean.sentAt + BitVec.ofNat 64 (msGrains ((s.reg R.JOA_STREAM_CFG).toNat % 65536)))).raw ∧
        t.glean = { s.glean with nextSend := s.ackSeq, sentAt := t.raw } ∧ t.flag R.JOA_EVENTS F.JOA_EVENTS.STREAM_RESEND = true) ∧
    (∀ n : BitVec 16, s.xfer n.toNat = none → exec (.xferTimeout n) s = .next s) ∧
    (s.joa.proxies = [] → (∀ j, j < 32 → (s.session j).pend = []) →
      (∀ (n : BitVec 16) (x : JoaXfer), s.xfer n.toNat = some x →
        Completes (.xferTimeout n) s ([Piece.joa, .raw, R.JOA_EVENTS.piece, R.XSPI_STATUS.piece] ++ noted) fun t =>
          t.raw = (s.advanceTo (x.last + BitVec.ofNat 64 (msGrains 10000))).raw ∧
          t.joa.xfers = s.joa.xfers.filter (fun y => decide (y.num ≠ n.toNat)) ∧
          t.flag R.JOA_EVENTS F.JOA_EVENTS.XFER_ABORTED = true) ∧
      exec (.xspiProgramDone true) s = .next s ∧
      (Completes (.xspiProgramDone false) s ([Piece.joa, .block 22, .block 30] ++ noted) fun t =>
        (∀ x ∈ t.joa.xfers, 2 ≤ x.slot) ∧ t.reg R.XSPI_ERR_CNT = satSucc (s.reg R.XSPI_ERR_CNT) ∧
        t.flag R.XSPI_EVENTS F.XSPI_EVENTS.PROG_FAIL = true)) ∧
    (∀ (k : Fin 32) (p : JoaPend) (it : JoaItem) (x : JoaXfer), s.joa.proxies = [] → (s.session k).st = 2 → (s.session k).pend = [p] →
      p.op = 0x19 → p.items = [it] → it.status = none → it.wait = .flash → (∀ j, j < 32 → j ≠ k.val → (s.session j).pend = []) →
      s.xfer p.slot = some x → ∃ t rest, exec (.xspiProgramDone true) s = .next t ∧ (t.session k).pend = [] ∧
        (t.session k).queue = (s.session k).queue ++ [JoaOut.body (joaHead 0x19 0 p.req ++ rest)] ∧
        t.xfer p.slot = some { x with bytes := x.bytes ++ it.data })

/-! ### Chapter 12: network time and the uplinks -/

/-- R467, R471, R473, R475, R482: a PTP message is discarded and counted, or taken; the parent's Sync and Follow_Up supply t1 and t2, a
response ends its exchange; a port answers requests and sends what is due. -/
def Obligations.PtpMessagesAreTakenAndSent : Prop :=
  ∀ (s : State) (m : PtpMsg),
    let w : List Piece := [Piece.raw, .ptp, .block 20, .block 21]
    let dropped (t : State) := t.reg R.PTP_SAMPLE_DROP_CNT = satSucc (s.reg R.PTP_SAMPLE_DROP_CNT)
    (∀ (u : Fin 2) (t : Quad) (f : Fin 16) (mine : Bool) (a : Announce), ∀ at_ p2p c, (at_, p2p, c) ∈ [(t, none, Instr.sync u t f m),
        (s.raw, none, .followUp u m), (s.raw, some false, .delayResp u mine m), (t, some true, .pdelayResp u t f m),
        (s.raw, some true, .pdelayRespFollowUp u m), (s.raw, none, .announce u m a)] →
      (s.ptpOn = false ∨ s.uplinkOn u = false → exec c s = .next (s.advanceTo at_)) ∧
      (s.ptpOn = true → s.uplinkOn u = true → ptpBad s u m p2p = true →
        Completes c s [Piece.raw, (R.UPLINK_p_RX_CNT u).piece, R.PTP_DISCARD_CNT.piece] fun t => t.raw = (s.advanceTo at_).raw ∧
          t.reg (R.UPLINK_p_RX_CNT u) = satSucc (s.reg (R.UPLINK_p_RX_CNT u)) ∧ t.reg R.PTP_DISCARD_CNT = satSucc (s.reg R.PTP_DISCARD_CNT))) ∧
    (∀ u : Fin 2, s.ptpOn = true → s.uplinkOn u = true →
      let x := s.meas u
      let counted (t : State) := t.reg (R.PTP_q_RX_CNT u) = satSucc (s.reg (R.PTP_q_RX_CNT u)) ∧
        t.reg (R.UPLINK_p_RX_CNT u) = satSucc (s.reg (R.UPLINK_p_RX_CNT u))
      (∀ (t : Quad) (f : Fin 16), ptpBad s u m none = false →
        let g := stamp s u false t f
        let y : SyncRec := ⟨m.seq, if m.twoStep then none else some (ofPtp m.time), stampX s g, g.1, m.corr⟩
        let waits := m.twoStep = true ∨ (s.flag R.PTP_CTRL F.PTP_CTRL.P2P = true ∧ x.d2 = none) ∨
          (s.flag R.PTP_CTRL F.PTP_CTRL.P2P = false ∧ x.resp = none)
        (fromParent s u m = false → Completes (.sync u t f m) s w fun r => counted r ∧ r.ptp = s.ptp) ∧
        (fromParent s u m = true → waits → Completes (.sync u t f m) s w fun r => counted r ∧ r.raw = (s.advanceTo t).raw ∧
          r.meas u = { x with sync := some y } ∧
          ((∃ z, x.sync = some z ∧ z.t1 = none) → dropped r) ∧
          ((∀ z, x.sync = some z → z.t1.isSome = true) → r.reg R.PTP_SAMPLE_DROP_CNT = s.reg R.PTP_SAMPLE_DROP_CNT))) ∧
      (ptpBad s u m none = false → ∀ y, fromParent s u m = true → x.sync = some y → y.t1 = none →
        (y.seq ≠ m.seq → Completes (.followUp u m) s w fun r => counted r ∧ dropped r ∧ r.ptp = s.ptp) ∧
        (y.seq = m.seq → s.flag R.PTP_CTRL F.PTP_CTRL.P2P = false → x.resp = none → Completes (.followUp u m) s w fun r =>
          counted r ∧ r.meas u = { x with sync := some { y with t1 := some (ofPtp m.time), corr := y.corr + m.corr } })) ∧
      (ptpBad s u m (some false) = false →
        (∀ mine, mine = false ∨ fromParent s u m = false ∨ x.req = none → Completes (.delayResp u mine m) s w fun r =>
          counted r ∧ r.ptp = s.ptp) ∧
        (∀ q t3, fromParent s u m = true → x.req = some (q, t3) →
          (q ≠ m.seq → Completes (.delayResp u true m) s w fun r => counted r ∧ dropped r ∧ r.ptp = s.ptp) ∧
          (q = m.seq → x.sync = none → Completes (.delayResp u true m) s w fun r => counted r ∧
            r.meas u = { x with req := none, resp := some (t3, ofPtp m.time, m.corr) }))) ∧
      (ptpBad s u m (some true) = false → ∀ (t : Quad) (f : Fin 16),
        let p4 := stampX s (stamp s u false t f)
        (x.pd = none → Completes (.pdelayResp u t f m) s w (fun r => counted r ∧ r.ptp = s.ptp) ∧
          Completes (.pdelayRespFollowUp u m) s w fun r => counted r ∧ r.ptp = s.ptp) ∧
        (∀ e, x.pd = some e →
          (e.seq ≠ m.seq → Completes (.pdelayResp u t f m) s w fun r => counted r ∧ dropped r ∧ r.ptp = s.ptp) ∧
          (e.seq = m.seq → m.twoStep = true → Completes (.pdelayResp u t f m) s w fun r => counted r ∧
            r.meas u = { x with pd := some { e with resp := some (ofPtp m.time, m.corr, p4) } }) ∧
          (e.seq = m.seq → m.twoStep = false → Completes (.pdelayResp u t f m) s w fun r => counted r ∧
            r.meas u = { x with pd := none, d2 := some (p4 - e.p1 - corrSixteenths m.corr) }) ∧
          (∀ p2 c q4, e.resp = some (p2, c, q4) →
            (e.seq ≠ m.seq → Completes (.pdelayRespFollowUp u m) s w fun r => counted r ∧ dropped r ∧ r.ptp = s.ptp) ∧
            (e.seq = m.seq → Completes (.pdelayRespFollowUp u m) s w fun r => counted r ∧
              r.meas u = { x with pd := none, d2 := some ((q4 - e.p1) - (ofPtp m.time - p2) - corrSixteenths (c + m.corr)) }))))) ∧
    (∀ (u : Fin 2) (t : Quad) (f : Fin 16),
      let x := s.meas u
      let q := (x.seq + 1) % 65536
      let g := stampX s (stamp s u true t f)
      let p2p := s.flag R.PTP_CTRL F.PTP_CTRL.P2P
      (s.ptpOn = false ∨ s.uplinkOn u = false → exec (.delayReqSend u t f) s = .next (s.advanceTo t)) ∧
      (s.ptpOn = true → s.uplinkOn u = true →
        Completes (.delayReqSend u t f) s [Piece.raw, .ptp, (R.PTP_q_TX_CNT u).piece, (R.UPLINK_p_TX_CNT u).piece] fun r =>
          (p2p = true → r.meas u = { x with seq := q, pd := some ⟨q, g, none⟩ }) ∧
          (p2p = false → r.meas u = { x with seq := q, req := some (q, g) }) ∧
          r.ptp.out.getLast? = some ⟨u, if p2p = true then 2 else 1, q, toPtp g, 0, none, false⟩ ∧
          r.reg (R.PTP_q_TX_CNT u) = satSucc (s.reg (R.PTP_q_TX_CNT u)))) ∧
    (∀ (q : Fin 6) (t te : Quad) (f fe : Fin 16),
      let p2 := stampX s (stamp s q false t f)
      let p3 := stampX s (stamp s q true te fe)
      let answers := s.ptpOn = true ∧ (q.val < 2 → s.uplinkOn q = true) ∧ (2 ≤ q.val → s.flag (R.PTP_q_CFG q) F.PTP_q_CFG.EN = true) ∧
        ptpBad s q m (some true) = false
      let one := q.val < 2 ∧ s.flag R.PTP_CTRL F.PTP_CTRL.ONE_STEP = true
      (answers → Completes (.pdelayReq q t f te fe m) s w fun r => r.raw = ((s.advanceTo t).advanceTo te).raw ∧ r.ptp.meas = s.ptp.meas ∧
        r.reg (R.PTP_q_RX_CNT q) = satSucc (s.reg (R.PTP_q_RX_CNT q)) ∧
        (one → r.ptp.out.getLast? = some ⟨q, 3, m.seq, ⟨0, 0, 0⟩, m.corr + corrNs (p3 - p2), none, false⟩) ∧
        (¬one → ⟨q, 3, m.seq, toPtp p2, 0, none, false⟩ ∈ r.ptp.out ∧
          r.ptp.out.getLast? = some ⟨q, 10, m.seq, toPtp p3, m.corr, none, false⟩))) ∧
    (∀ (p : Fin 4) (t : Quad) (f : Fin 16),
      let q := 2 + p.val
      let on := s.ptpOn = true ∧ s.flag (R.PTP_q_CFG q) F.PTP_q_CFG.EN = true
      let n := (tget 0 s.ptp.seqs q + 1) % 65536
      let sent (c : Instr) (k : Nat) (post : State → Prop) := Completes c s [Piece.raw, .ptp, (R.PTP_q_RX_CNT q).piece, (R.PTP_q_TX_CNT q).piece] fun r =>
        r.raw = (s.advanceTo t).raw ∧ r.ptp.meas = s.ptp.meas ∧
        (k = 1 → r.reg (R.PTP_q_TX_CNT q) = satSucc (s.reg (R.PTP_q_TX_CNT q))) ∧ post r
      (¬on → exec (.syncSend p t f) s = .next (s.advanceTo t) ∧ exec (.announceSend p t) s = .next (s.advanceTo t)) ∧
      (ptpGapOk (s.advanceTo t) p t 64 = false → exec (.syncSend p t f) s = .next (s.advanceTo t)) ∧
      (ptpGapOk (s.advanceTo t) p t 72 = false → exec (.announceSend p t) s = .next (s.advanceTo t)) ∧
      (on → ptpBad s q m (some false) = false → sent (.delayReq p t f m) 1 fun r =>
        r.reg (R.PTP_q_RX_CNT q) = satSucc (s.reg (R.PTP_q_RX_CNT q)) ∧
        r.ptp.out.getLast? = some ⟨q, 9, m.seq, toPtp (stampX s (stamp s q false t f)), m.corr, none, false⟩) ∧
      (on → ptpGapOk (s.advanceTo t) p t 64 = true → sent (.syncSend p t f) 2 fun r => tget 0 r.ptp.seqs q = n ∧
        ⟨q, 0, n, ⟨0, 0, 0⟩, 0, none, false⟩ ∈ r.ptp.out ∧
        r.ptp.out.getLast? = some ⟨q, 8, n, toPtp (stampX s (stamp s q true t f)), 0, none, false⟩) ∧
      (on → ptpGapOk (s.advanceTo t) p t 72 = true → sent (.announceSend p t) 1 fun r => tget 0 r.ptp.seqs q = n ∧
        ∃ a tr, r.ptp.out.getLast? = some ⟨q, 11, n, ⟨0, 0, 0⟩, 0, some a, tr⟩ ∧
          (tr = true ↔ s.flag R.TIME_STATUS F.TIME_STATUS.SEATED = true ∧ s.flag R.PTP_STATUS F.PTP_STATUS.SYNT_ONLY = false ∧ s.servo = 4) ∧
          (∀ x, s.ptp.parent = some x → s.servo = 3 ∨ s.servo = 4 → a = { x.data with steps := x.data.steps + 1 }) ∧
          (s.ptp.parent = none ∨ (s.servo ≠ 3 ∧ s.servo ≠ 4) → a.gm = s.reg64 R.PTP_CLOCK_ID_LO R.PTP_CLOCK_ID_HI ∧ a.steps = 0 ∧
            a.source = 0xA0 ∧ a.cls = s.get (R.PTP_q_CFG q) F.PTP_q_CFG.CLASS)))

/-- R475 to R481: a sample with D < 0 is dropped, one in a hold gathers D, one off the median is held aside; an accepted one sets the offset
and steers the frequency; sources come, are lost, and choose the parent; a hold ends in TRACKING. -/
def Obligations.TheServoFollowsTheParent : Prop :=
  ∀ s : State,
    (∀ (u : Fin 2) (m : PtpMsg) (y : SyncRec) (t1 t3 : Int), s.ptpOn = true → s.uplinkOn u = true → ptpBad s u m (some false) = false →
      fromParent s u m = true → s.flag R.PTP_CTRL F.PTP_CTRL.P2P = false → (s.meas u).sync = some y → y.t1 = some t1 →
      (s.meas u).req = some (m.seq, t3) →
      let diff := y.t2 - t1 - corrSixteenths y.corr
      let d2 := diff + (ofPtp m.time - t3 - corrSixteenths m.corr)
      let theta := (2 * diff - d2 - 2 * (s.reg R.PTP_ASYM).toInt) / 2
      let sampled (w : List Piece) (post : State → Prop) := Completes (.delayResp u true m) s
        (w ++ [Piece.ptp, (R.UPLINK_p_RX_CNT u).piece, .block 21]) fun t => (t.meas u).sync = none ∧ (t.meas u).resp = none ∧ post t
      let dropped (t : State) := t.reg R.PTP_SAMPLE_DROP_CNT = satSucc (s.reg R.PTP_SAMPLE_DROP_CNT)
      (d2 < 0 → sampled [] fun t => dropped t ∧ t.servo = s.servo ∧ t.ptp.ds = s.ptp.ds) ∧
      (0 ≤ d2 → s.servo = 5 → pathJump s s.ptp.gather d2 = false → sampled [] fun t =>
        dropped t ∧ t.servo = 5 ∧ t.ptp.gather = s.ptp.gather ++ [d2] ∧ t.ptp.aside = []) ∧
      (0 ≤ d2 → s.servo ≠ 5 → pathJump s s.ptp.ds d2 = true → s.ptp.aside = [] → sampled [] fun t =>
        t.ptp.aside = [d2] ∧ t.servo = s.servo ∧ t.ptp.ds = s.ptp.ds) ∧
      (0 ≤ d2 → pathJump s s.ptp.ds d2 = false → s.ptp.thetaB = none → s.flag R.PTP_STATUS F.PTP_STATUS.SYNT_ONLY = false →
        let f := s.freqEst
        let accepted (post : State → Prop) := sampled ([Piece.head, .block 2, .block 3] ++ noted) fun t =>
          t.reg64 R.PTP_OFFSET_LO R.PTP_OFFSET_HI = BitVec.ofInt 64 theta ∧ t.ptp.prev = some (theta, y.t2raw) ∧
          t.ptp.ds = last8 (s.ptp.ds ++ [d2]) ∧ t.ptp.aside = [] ∧ post t
        let steers (t : State) (g c : Int) := t.reg R.PTP_FREQ = BitVec.ofInt 32 g ∧
          t.reg R.TIME_RATE_ADJ = BitVec.ofInt 32 (clampInt (-rateLimit) rateLimit (BitVec.ofInt 32 (g + c)).toInt)
        let near := theta.natAbs ≤ s.lockThr.toNat
        (s.servo = 1 → s.ptp.prev = none → accepted fun t => t.servo = 2 ∧ t.freqEst = f ∧
          t.reg R.TIME_RATE_ADJ = BitVec.ofInt 32 (clampInt (-rateLimit) rateLimit f)) ∧
        (∀ th0 t0, s.servo = 2 → s.ptp.prev = some (th0, t0) → y.t2raw ≠ t0 → (theta - th0).natAbs ≤ s.lockThr.toNat →
          s.ptp.run + 1 < s.lockCount → accepted fun t => t.servo = 2 ∧ t.ptp.run = s.ptp.run + 1 ∧
            t.reg R.PTP_FREQ = BitVec.ofInt 32 (clampInt (-rateLimit) rateLimit (f - rateOf (theta - th0) (y.t2raw - t0).toNat 0))) ∧
        (∀ th0 t0, s.servo = 2 → s.ptp.prev = some (th0, t0) → y.t2raw ≠ t0 → (theta - th0).natAbs ≤ s.lockThr.toNat →
          s.lockCount ≤ s.ptp.run + 1 → s.ptp.waitSeat = false → accepted fun t => t.flag R.PTP_EVENTS F.PTP_EVENTS.FIRST_LOCK = true ∧
            (s.flag R.TIME_STATUS F.TIME_STATUS.SEATED = true → t.servo = 3) ∧
            (s.flag R.TIME_STATUS F.TIME_STATUS.SEATED = false → s.flag R.PTP_CTRL F.PTP_CTRL.AUTO_SEAT = false →
              t.servo = 2 ∧ t.ptp.waitSeat = true) ∧
            (s.flag R.TIME_STATUS F.TIME_STATUS.SEATED = false → s.flag R.PTP_CTRL F.PTP_CTRL.AUTO_SEAT = true →
              t.servo = 3 ∧ t.flag R.TIME_STATUS F.TIME_STATUS.SEATED = true ∧
              (s.ctrlStopped = true → t.flag R.PTP_EVENTS F.PTP_EVENTS.SEATED_STEP = true ∧ t.reg64 R.TIME_RAW_REF_LO R.TIME_RAW_REF_HI = s.raw) ∧
              (s.ctrlStopped = false → t.flag R.PTP_EVENTS F.PTP_EVENTS.SEATED_RATE = true ∧
                (16 * msGrains (s.get R.PTP_SEAT_MAX F.PTP_SEAT_MAX.SEAT_MAX) < theta.natAbs →
                  t.flag R.PTP_STATUS F.PTP_STATUS.SYNT_ONLY = true ∧
                  t.reg64 R.PTP_STANDING_LO R.PTP_STANDING_HI = BitVec.ofInt 64 ((8 - theta) / 16))))) ∧
        (∀ th0 t0, s.servo = 3 ∨ s.servo = 4 → s.ptp.prev = some (th0, t0) → y.t2raw ≠ t0 → accepted fun t =>
          let n := (y.t2raw - t0).toNat
          let c := -rateOf theta n (s.get R.PTP_SERVO_CFG F.PTP_SERVO_CFG.KP_SHIFT)
          let l : Int := (s.get R.PTP_SERVO_CFG F.PTP_SERVO_CFG.SLEW_PPM * 2 ^ 40 / 1000000 : Nat)
          let g := clampInt (-rateLimit) rateLimit (f - rateOf theta n (s.get R.PTP_SERVO_CFG F.PTP_SERVO_CFG.KI_SHIFT))
          ((c.natAbs : Int) ≤ l → steers t g c) ∧
          (l < c.natAbs → t.reg R.TIME_RATE_ADJ = BitVec.ofInt 32 (clampInt (-rateLimit) rateLimit (BitVec.ofInt 32 (f + c.sign * l)).toInt)) ∧
          (s.servo = 3 → near → s.lockCount ≤ s.ptp.run + 1 → t.servo = 4) ∧
          (s.servo = 3 → ¬near → t.servo = 3 ∧ t.ptp.run = 0) ∧
          (s.servo = 4 → theta.natAbs ≤ 4 * s.lockThr.toNat → t.servo = 4) ∧
          (s.servo = 4 → 4 * s.lockThr.toNat < theta.natAbs → t.servo = 3 ∧ t.flag R.PTP_EVENTS F.PTP_EVENTS.LOCK_LOST = true)))) ∧
    (∀ (u : Fin 2) (m : PtpMsg) (a : Announce), s.ptpOn = true → s.uplinkOn u = true → ptpBad s u m none = false →
      Completes (.announce u m a) s ([Piece.ptp, .block 2, .block 20, .block 21] ++ noted) fun t =>
        (⟨u, m.clock, m.port, a, s.raw⟩ : PtpSource) ∈ t.ptp.sources ∧ t.ptp.parent = bestSource t ∧
        (∀ x y, s.ptp.parent = some x → t.ptp.parent = some y → x.same y = false →
          t.flag R.PTP_EVENTS F.PTP_EVENTS.SOURCE_CHANGE = true ∧ (3 ≤ s.servo → t.servo = 5)) ∧
        (s.ptp.parent = none → t.ptp.parent.isSome = true → s.servo = 6 → t.flag R.PTP_EVENTS F.PTP_EVENTS.SOURCE_CHANGE = true ∧
          t.servo = (if s.flag R.TIME_STATUS F.TIME_STATUS.SEATED = true then 5 else 2))) ∧
    (∀ (u : Fin 2) (k : Quad) (n : Fin 65536),
      let it := s.ptp.sources.find? fun x => x.uplink = u.val ∧ x.clock = k ∧ x.port = n.val
      (it = none → exec (.announceTimeout u k n) s = .next s) ∧
      (∀ x, it = some x → Completes (.announceTimeout u k n) s ([Piece.raw, .ptp, .block 2, .block 21] ++ noted) fun t =>
        t.raw = (s.advanceTo (x.last + BitVec.ofNat 64 (s.get R.PTP_CTRL F.PTP_CTRL.ANN_TIMEOUT * logSeconds x.data.logInterval))).raw ∧
        (∀ z ∈ t.ptp.sources, z.same x = false) ∧ t.ptp.parent = bestSource t ∧
        (s.ptp.parent.isSome = true → t.ptp.parent = none → t.flag R.PTP_EVENTS F.PTP_EVENTS.SOURCE_LOST = true ∧
          (s.servo ≠ 0 → t.servo = 6 ∧ t.ptp.meas = [] ∧ t.reg R.TIME_RATE_ADJ = BitVec.ofInt 32 (clampInt (-rateLimit) rateLimit s.freqEst))))) ∧
    (s.servo ≠ 5 → exec .holdEnd s = .next s) ∧
    (s.servo = 5 → Completes .holdEnd s [Piece.raw, .ptp, R.PTP_STATUS.piece, R.PTP_MPD.piece] fun t =>
      t.raw = (s.advanceTo s.ptp.holdEnd).raw ∧ t.servo = 3 ∧ t.ptp.ds = last8 s.ptp.gather ∧
      t.reg R.PTP_MPD = BitVec.ofInt 32 (median4 (last8 s.ptp.gather) / 4)) ∧
    (∀ v, Completes (.ptpAsymWrite v) s [R.PTP_ASYM.piece] fun t => t.reg R.PTP_ASYM = v)

/-- R472, R484, R486, R488: a frame's descriptor is written back to the network bank, and an FCS error of an uplink counts; an uplink answers requests for its own address, and
its link comes up and goes down. -/
def Obligations.FramesAndUplinksAreServed : Prop :=
  ∀ s : State,
    (∀ (q : Fin 6) (o : Fin 2097129) (ts : Option (Quad × Fin 16)) (sent : Bool) (err : Fin 4),
      Completes (.frameSent q o ts sent err) s [Piece.raw, .mem, (R.UPLINK_p_RX_ERR_CNT q).piece] fun t =>
        let word (k : Nat) := leNat (t.memRead (0x13000000 + o.val + 4 * k) 4)
        let bad := q.val < 2 ∧ sent = false ∧ err.val = 3
        (bad → t.reg (R.UPLINK_p_RX_ERR_CNT q) = satSucc (s.reg (R.UPLINK_p_RX_ERR_CNT q))) ∧
        (¬bad → t.reg (R.UPLINK_p_RX_ERR_CNT q) = s.reg (R.UPLINK_p_RX_ERR_CNT q)) ∧
        (∀ a, a < 0x13000000 + o.val ∨ 0x13000000 + o.val + 24 ≤ a → tget 0 t.mem a = tget 0 s.mem a) ∧
        (ts = none → t.raw = s.raw ∧ word 0 = 1 + 64 * q.val + 65536 * err.val ∧ ∀ k, 1 ≤ k → k < 6 → word k = 0) ∧
        (∀ g f, ts = some (g, f) →
          let x := stamp s q sent g f
          let p := toPtp (stampX s x)
          t.raw = (s.advanceTo g).raw ∧
          word 0 = 3 + 4 * x.2 + 64 * q.val + 512 * s.get R.TIME_STATUS F.TIME_STATUS.SEATED + 65536 * err.val ∧
          word 1 = x.1.toNat % 2 ^ 32 ∧ word 2 = p.sec % 2 ^ 32 ∧ word 3 = p.sec / 2 ^ 32 % 65536 + 65536 * (p.frac % 65536) ∧
          word 4 = p.ns % 2 ^ 32 ∧ word 5 = 0)) ∧
    (∀ (u : Fin 2) (ok : Bool) (ip : Word) (ip6 : List Word),
      let cs := [(ok && ip == s.reg (R.UPLINK_p_IP4_ADDR u), Instr.arpRequest u ok ip), (ok && ip6 == s.ip6 u, .neighbourSolicitation u ok ip6),
        (ok, .echoRequest u ok)]
      ∀ good c, (good, c) ∈ cs →
        (s.uplinkOn u = false → exec c s = .next s) ∧
        (s.uplinkOn u = true → good = true → Completes c s [(R.UPLINK_p_RX_CNT u).piece, (R.UPLINK_p_TX_CNT u).piece] fun t =>
          t.reg (R.UPLINK_p_RX_CNT u) = satSucc (s.reg (R.UPLINK_p_RX_CNT u)) ∧
          t.reg (R.UPLINK_p_TX_CNT u) = satSucc (s.reg (R.UPLINK_p_TX_CNT u))) ∧
        (s.uplinkOn u = true → good = false → Completes c s [(R.UPLINK_p_DISCARD_CNT u).piece] fun t =>
          t.reg (R.UPLINK_p_DISCARD_CNT u) = satSucc (s.reg (R.UPLINK_p_DISCARD_CNT u)))) ∧
    (∀ u : Fin 2,
      (s.flag (R.UPLINK_p_STATUS u) F.UPLINK_p_STATUS.LINK = false → exec (.uplinkLinkDown u) s = .next s) ∧
      (s.flag (R.UPLINK_p_STATUS u) F.UPLINK_p_STATUS.LINK = true →
        Completes (.uplinkLinkDown u) s ([(R.UPLINK_p_STATUS u).piece, R.UPLINK_EVENTS.piece] ++ noted) fun t =>
          t.reg (R.UPLINK_p_STATUS u) = 0 ∧ natBit (t.reg R.UPLINK_EVENTS).toNat u = true) ∧
      (∀ fault, (s.uplinkOn u = false → exec (.uplinkLinkUp u fault) s = .next s) ∧
        (s.uplinkOn u = true → Completes (.uplinkLinkUp u fault) s [(R.UPLINK_p_STATUS u).piece] fun t =>
          t.flag (R.UPLINK_p_STATUS u) F.UPLINK_p_STATUS.LINK = true)))

/-! ### Chapter 13: the safety island and its mirror -/

/-- R500 to R507, R510 to R512, R515: a tick of either side samples its pins, counts discrepancies, latches, judges its outputs by both sides'
latches and drives its switch signals only as permitted; the safety core sends a frame. -/
def Obligations.SafetyTicksSampleJudgeAndDrive : Prop :=
  ∀ (mast : Bool) (p : IslandPins) (rose : Option (Fin 4)) (s : State),
    let x := s.island
    let c := if mast then Instr.mastiffTick p rose else Instr.safetyCoreTick p
    let side (y : Island) := if mast then y.mastiff else y.core
    let other (y : Island) := if mast then y.core else y.mastiff
    let d := side x
    let masked (stp : List Byte → Nat → Nat) (i : Nat) : Bool := decide (x.pulse.map (· + 1) = some (stp x.running i)) ||
      (mast && decide (rose.map (fun m => m.val + 1) = some (stp x.running i)))
    let limit (i : Nat) := if mast then 2 * setDisc x.running i + 16 else setDisc x.running i + 1
    (x.st ≠ 3 → x.st ≠ 4 → mast = true ∨ x.st ≠ 2 → exec c s = .next s) ∧
    (x.st = 2 → mast = false → Completes c s [Piece.island] fun t =>
      t.island = { x with core := { x.core with tick := x.core.tick + 1 }, frames := x.frames ++ [t.island.frame] }) ∧
    (x.st = 3 ∨ x.st = 4 → Completes c s [Piece.island] fun t =>
      let e := side t.island
      let crossed := ∃ n, n < 8 ∧ 32 ≤ tget 0 e.cross n
      e.tick = d.tick + 1 ∧ e.sfb = p.sfb % 256 ∧ t.island.running = x.running ∧ e.low = p.sreset ∧
      e.press = (if p.sreset = true then (if d.low = true then d.press + 1 else 1) else d.press) ∧
      (mast = false → t.island.frames = x.frames ++ [t.island.frame] ∧ t.island.pulse = none ∧
        t.island.presses = (if e.stuck = true ∧ d.stuck = false then x.presses + 1 else x.presses)) ∧
      (mast = true → t.island.frames = x.frames ∧ t.island.presses = x.presses) ∧
      (∀ i, i < 16 → natBit e.a i = natBit (if masked setStpA i = true then d.a else p.a) i ∧
        natBit e.b i = natBit (if masked setStpB i = true then d.b else p.b) i ∧
        tget 0 e.count i = (if natBit e.a i = natBit e.b i then 0 else tget 0 d.count i + 1) ∧
        tget 0 e.inLatch i = (if limit i ≤ tget 0 e.count i then tget 0 d.inLatch i ||| 1 else tget 0 d.inLatch i)) ∧
      (∀ n, n < 8 → natBit e.cmd n = true → tget 0 e.out n = 2 ∧ natBit e.permit n = true) ∧
      (x.st = 3 → crossed → t.island.st = 4 ∧ t.island.core.cmd = 0 ∧ t.island.mastiff.cmd = 0) ∧
      (x.st = 4 ∨ ¬crossed → t.island.st = x.st ∧ other t.island = other x ∧ ∀ n, n < 8 →
        (natBit e.permit n = true ↔ setOut x.running n 0 = true ∧ tget 0 d.outLatch n = 0 ∧ tget 0 (other x).outLatch n = 0 ∧ x.st ≠ 4 ∧
          (setOut x.running n 2 = true → natBit s.islandReq n = true) ∧
          ∀ i, i < 16 → natBit (setMask x.running n) i = true → setInEn x.running i = true ∧ natBit e.a i = true ∧ natBit e.b i = true ∧
            tget 0 e.inLatch i = 0 ∧ tget 0 (other x).inLatch i = 0)))

/-- R497, R500, R505, R508, R509, R511 to R514: test pulses and dark tests latch what fails them; a valid press resets; an island fault turns
every switch signal off; a start runs the active set or faults. -/
def Claim.TheIslandTestsResetsAndStarts : Prop :=
  ∀ s : State,
    let x := s.island
    (∀ (m : Fin 4) (p : IslandPins),
      (x.st ≠ 3 → exec (.testPulse m p) s = .next s) ∧
      (x.st = 3 → Completes (.testPulse m p) s [Piece.island] fun t => t.island.pulse = some m.val ∧ t.island.mastiff = x.mastiff ∧
        ∀ i, i < 16 →
          let a := setInEn x.running i && decide (setStpA x.running i = m.val + 1) && natBit p.a i
          let b := setInEn x.running i && decide (setStpB x.running i = m.val + 1) && natBit p.b i
          tget 0 t.island.core.inLatch i = tget 0 x.core.inLatch i ||| (2 * b2n a + 4 * b2n b))) ∧
    (∀ (mast pass : Bool) (n : Fin 8),
      let d := if mast then x.mastiff else x.core
      let c := Instr.darkTest mast n pass
      (x.st ≠ 3 ∨ setOut x.running n 3 = false ∨ tget 0 d.out n ≠ 2 → exec c s = .next s) ∧
      (x.st = 3 → setOut x.running n 3 = true → tget 0 d.out n = 2 → Completes c s [Piece.island] fun t =>
        (pass = true → t.island = { x with dark := tset 0 x.dark n ((tget 0 x.dark n + 1) % 65536) }) ∧
        (pass = false → natBit t.island.core.cmd n = false ∧ natBit t.island.mastiff.cmd n = false ∧ tget 0 t.island.core.out n = 3 ∧
          tget 0 t.island.mastiff.out n = 3 ∧
          (if mast then tget 0 t.island.mastiff.outLatch n = 3 else tget 0 t.island.core.outLatch n = 2)))) ∧
    (let c := x.core
     let m := x.mastiff
     let held := c.stuck = true
     let valid := m.stuck = false ∧ 400 ≤ c.press ∧ c.press ≤ 16000 ∧ 376 ≤ m.press ∧ m.press ≤ 17024
     (x.st ≠ 3 → x.st ≠ 4 → exec .safetyResetRelease s = .next s) ∧
     (x.st = 3 ∨ x.st = 4 → (¬held → c.press = 0 → m.press = 0 → exec .safetyResetRelease s = .next s) ∧
       (held ∨ c.press ≠ 0 ∨ m.press ≠ 0 → Completes .safetyResetRelease s [Piece.island] fun t =>
         let u := t.island
         u.core.press = 0 ∧ u.mastiff.press = 0 ∧ u.core.stuck = false ∧ u.mastiff.stuck = false ∧ u.st = x.st ∧
         (held ∨ ¬valid → u.core.inLatch = c.inLatch ∧ u.core.outLatch = c.outLatch ∧ u.core.cmd = c.cmd ∧ u.mastiff.cmd = m.cmd ∧
           u.resets = x.resets ∧ (held → u.refused = x.refused ∧ u.presses = x.presses) ∧
           (¬held → u.refused = x.refused + 1 ∧ u.presses = x.presses + 1)) ∧
         (¬held → valid → u.resets = x.resets + 1 ∧ u.presses = x.presses ∧ u.refused = x.refused + latchesLeft c m ∧
           ∀ d o e, (d, o, e) ∈ [(c, m, u.core), (m, c, u.mastiff)] →
             (∀ i, tget 0 e.inLatch i = if (tget (0, 0) d.clear i).1 = 3 then 0 else tget 0 d.inLatch i) ∧
             (∀ n, tget 0 e.outLatch n =
               if natBit d.cmd n = false ∧ natBit o.cmd n = false ∧ natBit d.sfb n = false then 0 else tget 0 d.outLatch n) ∧
             ∀ n, n < 8 → tget 0 d.out n = 1 → tget 0 e.out n = 2 ∧ natBit e.cmd n = true)))) ∧
    (∀ (cause : Nat) (side : Fin 2) (n : Fin 8),
      (x.st = 0 → exec (.islandFault cause side n) s = .next s) ∧
      (x.st ≠ 0 → Completes (.islandFault cause side n) s [Piece.island] fun t => t.island.st = 4 ∧ t.island.core.cmd = 0 ∧
        t.island.mastiff.cmd = 0 ∧
        t.island.log = cause % 16 + (if cause = 6 then 16 * n.val else 0) + 128 * side + 65536 * (x.core.tick % 65536))) ∧
    (let started (set : List Byte) (t : State) : Prop := t.island.core.cmd = 0 ∧ t.island.mastiff.cmd = 0 ∧ t.island.running = set ∧
        t.island.active = set ∧ t.island.fwRun = x.fwRegion ∧
        (setOk set = true → t.island.st = 3 ∧ t.island.core = SafeSide.reset ∧ t.island.mastiff = SafeSide.reset) ∧
        (setOk set = false → t.island.st = 4 ∧ t.island.log % 16 = 3)
     Completes (.islandStart true) s [Piece.island] (started x.active) ∧
     (Completes (.islandStart false) s [Piece.island] fun t => t.island.st = 2 ∧ t.island.core = SafeSide.reset ∧
       t.island.mastiff = SafeSide.reset ∧ t.island.frames = x.frames ++ [t.island.frame]) ∧
     (s.islandQuiet = true → Completes .restart s [Piece.island] (started x.active)) ∧
     (∀ set, s.islandQuiet = true → x.pending = some set →
       Completes .activate s [Piece.island, R.SAFEMIR_PEND_CRC.piece, R.SAFEMIR_STATUS.piece] fun t => started set t ∧ t.island.pending = none ∧
         t.flag R.SAFEMIR_STATUS F.SAFEMIR_STATUS.SET_PENDING = false) ∧
     (s.islandQuiet = false → exec .restart s = .next (s.raise R.SAFEMIR_EVENTS F.SAFEMIR_EVENTS.CMD_REFUSED)) ∧
     (s.islandQuiet = false ∨ x.pending = none →
       exec .activate s = .next (s.raise R.SAFEMIR_EVENTS F.SAFEMIR_EVENTS.CMD_REFUSED)))

/-- R515 to R517: a mirror frame shows the island's state with the mirror time and its events; with none for 1,048,576 grains the mirror is
invalid and reads 0; the request bits follow their write. -/
def Claim.TheMirrorFollowsTheIsland : Prop :=
  ∀ s : State,
    let x := s.island
    (x.frames = [] → exec .mirrorFrame s = .next s) ∧
    (∀ f rest, x.frames = f :: rest → f.island < 8 →
      Completes .mirrorFrame s ([Piece.island, .inputs, .quals, .block 23] ++ noted) fun t =>
        let old := (x.seen.map (·.bits)).getD 0
        let rising (lo n : Nat) := ∃ i, i < n ∧ natBit f.bits (lo + i) = true ∧ natBit old (lo + i) = false
        t.island = { x with frames := rest, seen := some f, seenAt := s.raw } ∧
        t.flag R.SAFEMIR_STATUS F.SAFEMIR_STATUS.MIRROR_VALID = true ∧ t.get R.SAFEMIR_STATUS F.SAFEMIR_STATUS.ISLAND = f.island ∧
        t.reg R.SAFEMIR_TICK = BitVec.ofNat 32 f.tick ∧ t.reg64 R.SAFEMIR_FRAME_V_LO R.SAFEMIR_FRAME_V_HI = s.vT64 ∧
        t.reg R.SAFEMIR_FAULT_LOG = BitVec.ofNat 32 f.log ∧ t.reg R.SAFEMIR_SET_ID = BitVec.ofNat 32 f.setId ∧
        t.reg R.SAFEMIR_SET_CRC = BitVec.ofNat 32 f.setCrc ∧
        (∀ w, w < 4 → t.reg (R.SAFEMIR_BITS_w w) = BitVec.ofNat 32 (f.bits / 2 ^ (32 * w))) ∧
        (∀ (i : Nat) v, i < 16 → f.ins[i]? = some v → t.reg (R.SAFEMIR_i_IN i) = BitVec.ofNat 32 v) ∧
        (∀ (n : Nat) v, n < 8 → f.outs[n]? = some v → t.reg (R.SAFEMIR_n_OUT n) = BitVec.ofNat 32 v) ∧
        (∀ i, i < 99 → tget 0 t.inputs (7 * 2 ^ 32 + i) = (if natBit f.bits i = true then 1 else 0) ∧
          tget 0 t.quals (7 * 2 ^ 32 + i) = 1) ∧
        (rising 48 16 → t.flag R.SAFEMIR_EVENTS F.SAFEMIR_EVENTS.IN_LATCH = true) ∧
        (rising 80 8 → t.flag R.SAFEMIR_EVENTS F.SAFEMIR_EVENTS.OUT_LATCH = true) ∧
        (rising 96 1 → t.flag R.SAFEMIR_EVENTS F.SAFEMIR_EVENTS.ISLAND_FAULT = true) ∧
        ((x.seen.map (·.presses)).getD 0 < f.presses → t.flag R.SAFEMIR_EVENTS F.SAFEMIR_EVENTS.RESET_REFUSED = true)) ∧
    (let valid := s.flag R.SAFEMIR_STATUS F.SAFEMIR_STATUS.MIRROR_VALID
     (valid = false → exec .mirrorLost s = .next s) ∧
     (valid = true → Completes .mirrorLost s ([Piece.raw, .inputs, .quals, .block 23] ++ noted) fun t =>
       t.raw = (s.advanceTo (x.seenAt + 1048576)).raw ∧ t.flag R.SAFEMIR_STATUS F.SAFEMIR_STATUS.MIRROR_VALID = false ∧
       t.flag R.SAFEMIR_EVENTS F.SAFEMIR_EVENTS.MIRROR_LOST = true ∧ (∀ w, w < 4 → t.reg (R.SAFEMIR_BITS_w w) = 0) ∧
       ∀ i, i < 99 → tget 0 t.inputs (7 * 2 ^ 32 + i) = 0 ∧ tget 0 t.quals (7 * 2 ^ 32 + i) = 0)) ∧
    (∀ v, Completes (.safemirReqWrite v) s [R.SAFEMIR_REQ.piece] fun t => t.reg R.SAFEMIR_REQ = v &&& 0x1FF)

/-- Tests, resets, faults and starts of the island, and its mirror. -/
def Obligations.TheIslandResetsStartsAndIsMirrored : Prop :=
  Claim.TheIslandTestsResetsAndStarts ∧ Claim.TheMirrorFollowsTheIsland

/-! ### Chapter 14: memory, the granary and the self-test -/

/-- R17, R529, R533, R534, R546, R547: the harrow reads word after word, and line after line of the granary, and counts errors; a fallow window is tested; a bank is handed over, and its
drain ends. -/
def Claim.TheBanksAreTestedAndHandedOver : Prop :=
  ∀ (k : Fin 9) (s : State),
    (let w := tget 0 s.gran.harrow k
     let a := (bankPlace k).1 + 8 * w
     let wraps := (bankPlace k).2 / 8 ≤ w + 1
     let on := s.flag R.MEM_HARROW_CFG F.MEM_HARROW_CFG.EN = true ∧ s.portsSilent = false
     let read (e : WordEnd) (p : List Piece) (post : State → Prop) := Completes (.harrowRead k.castSucc e) s
       (p ++ [Piece.gran, R.MEM_HARROW_PASS.piece]) fun t =>
       tget 0 t.gran.harrow k = (if wraps then 0 else w + 1) ∧
       t.reg R.MEM_HARROW_PASS = (if k.val = 4 ∧ wraps then s.reg R.MEM_HARROW_PASS + 1 else s.reg R.MEM_HARROW_PASS) ∧ post t
     (¬on → ∀ e (i : Fin 10), exec (.harrowRead i e) s = .next s) ∧
     (on → read .clean [] (fun t => tget 0 t.gran.weak (a / 8) = 0 ∧ t.gran.repairs = s.gran.repairs ∧ t.gran.poison = s.gran.poison) ∧
       (∀ bit, read (.correctable bit) ([Piece.block 24, .block 25] ++ noted) fun t =>
         let c := tget 0 s.gran.weak (a / 8) + 1
         t.reg (R.MEM_k_CE_CNT k) = satSucc (s.reg (R.MEM_k_CE_CNT k)) ∧ t.reg R.MEM_CE_CNT = satSucc (s.reg R.MEM_CE_CNT) ∧
         t.flag R.MEM_EVENTS F.MEM_EVENTS.CE = true ∧ t.gran.poison = s.gran.poison ∧
         (c < 3 → tget 0 t.gran.weak (a / 8) = c ∧ t.gran.repairs = s.gran.repairs) ∧
         (3 ≤ c → tget 0 t.gran.weak (a / 8) = 0 ∧ t.flag R.MEM_EVENTS F.MEM_EVENTS.WEAK = true ∧
           (s.gran.repairs.length < 2043 → ∃ r ∈ t.gran.repairs, r.unit = k.val ∧ r.sub = w / 32768 ∧ r.row = w / 32 % 1024 ∧
             r.bit = bit.val))) ∧
       read .uncorrectable (.block 24 :: noted) fun t => a ∈ t.gran.poison ∧ t.reg R.MEM_UE_CNT = satSucc (s.reg R.MEM_UE_CNT) ∧
         t.reg R.MEM_UE_ADDR_LO = BitVec.ofNat 32 a ∧ t.flag R.MEM_EVENTS F.MEM_EVENTS.UE = true ∧ tget 0 t.gran.weak (a / 8) = 0) ∧
     (let i := tget 0 s.gran.harrow 9
      let moved : State := { s with gran := { s.gran with harrow := tset 0 s.gran.harrow 9 (if i + 1 < 262144 then i + 1 else 0) } }
      on → exec (.harrowRead 9 .clean) s = .next moved ∧
        (∀ bit, Completes (.harrowRead 9 (.correctable bit)) s ([Piece.gran, .block 24] ++ noted) fun t =>
          t.reg R.MEM_CE_CNT = satSucc (s.reg R.MEM_CE_CNT) ∧ t.flag R.MEM_EVENTS F.MEM_EVENTS.CE = true ∧
          t.gran = { moved.gran with jobs := s.gran.jobs ++ [⟨.repair, 1, false, s.raw⟩] }) ∧
        (Completes (.harrowRead 9 .uncorrectable) s ([Piece.gran, .block 24] ++ noted) fun t =>
          t.reg R.MEM_UE_CNT = satSucc (s.reg R.MEM_UE_CNT) ∧ t.reg R.MEM_UE_ADDR_LO = BitVec.ofNat 32 (0x14000000 + 64 * i) ∧
          t.flag R.MEM_EVENTS F.MEM_EVENTS.UE = true ∧ t.gran = moved.gran))) ∧
    (∀ bits : List (Fin 72),
      let w := tget 0 s.gran.fallow k
      let next := if (bankPlace k).2 / 256 ≤ w + 1 then 0 else w + 1
      let on := s.flag R.MEM_FALLOW_CFG F.MEM_FALLOW_CFG.EN = true ∧ s.portsSilent = false
      let spare := spareRow s.gran.repairs k (w / 1024)
      (¬on → exec (.fallowWindow k bits) s = .next s) ∧
      (on → bits = [] → exec (.fallowWindow k bits) s =
        .next { s with gran := { s.gran with fallow := tset 0 s.gran.fallow k next } }) ∧
      (on → bits ≠ [] → Completes (.fallowWindow k bits) s ([Piece.gran, .block 24, .block 25] ++ noted) fun t =>
        tget 0 t.gran.fallow k = next ∧ t.reg R.MEM_FALLOW_FAIL_CNT = satSucc (s.reg R.MEM_FALLOW_FAIL_CNT) ∧
        t.flag R.MEM_EVENTS F.MEM_EVENTS.FALLOW_FAIL = true ∧
        (∀ n, spare = some n → t.flag R.MEM_EVENTS F.MEM_EVENTS.SOFT_REPAIR = true) ∧
        (spare = none → t.flag R.MEM_EVENTS F.MEM_EVENTS.NO_SPARE = true) ∧
        (s.gran.repairs.length + bits.length ≤ 2043 → ∀ b ∈ bits, ∃ r ∈ t.gran.repairs,
          r.unit = k.val ∧ r.sub = w / 1024 ∧ r.row = w % 1024 ∧ r.bit = b.val))) ∧
    (∀ v : Word,
      let o := v.toNat % 8
      let taken := v.toNat / 65536 = 0x4A58 ∧ (k.val < 4 ∨ k.val = 5) ∧ o ≠ 0 ∧ o ≠ 7
      (¬taken → exec (.ownerWrite k v) s = .next s) ∧
      (taken → Completes (.ownerWrite k v) s [Piece.gran, (R.MEM_k_OWNER k).piece] fun t =>
        t.get (R.MEM_k_OWNER k) F.MEM_k_OWNER.OWNER = o ∧ t.flag (R.MEM_k_OWNER k) F.MEM_k_OWNER.DRAINING = true ∧
        t.gran.held = s.gran.held ∧
        tget (0, 0) t.gran.drains k = (s.get (R.MEM_k_OWNER k) F.MEM_k_OWNER.OWNER, s.raw.toNat))) ∧
    (let draining := s.flag (R.MEM_k_OWNER k) F.MEM_k_OWNER.DRAINING
     let mine := s.gran.held.filter fun x => x.bank = k.val
     (draining = false → exec (.drainEnd k) s = .next s) ∧
     (draining = true → Completes (.drainEnd k) s [Piece.collie, .gran, .mem, (R.MEM_k_OWNER k).piece] fun t =>
       t.flag (R.MEM_k_OWNER k) F.MEM_k_OWNER.DRAINING = false ∧ t.gran.held = s.gran.held.filter (fun x => x.bank ≠ k.val) ∧
       t.get (R.MEM_k_OWNER k) F.MEM_k_OWNER.OWNER = s.get (R.MEM_k_OWNER k) F.MEM_k_OWNER.OWNER ∧
       (mine = [] → t.mem = s.mem ∧ t.collie = s.collie ∧ t.gran.poison = s.gran.poison) ∧
       (∀ a l op, mine = [⟨k.val, a, op, l⟩] → 0x11000000 ≤ a → a / 8 * 8 ∉ s.gran.poison →
         (op = .store → bankWord t (a / 8 * 8) = mergeBytes (bankWord s (a / 8 * 8)) (a % 8) l) ∧
         (op = .setBits → bankWord t (a / 8 * 8) = bankWord s (a / 8 * 8) ||| mergeBytes 0 (a % 8) l) ∧
         (op = .clearBits → bankWord t (a / 8 * 8) = bankWord s (a / 8 * 8) &&& ~~~mergeBytes 0 (a % 8) l) ∧
         ∀ b, b < a / 8 * 8 ∨ a / 8 * 8 + 8 ≤ b → tget 0 t.mem b = tget 0 s.mem b)))

/-- R539 to R542: the credit grows every 100 ms; the waiting write of the highest rank gets the next line, which is verified, retried,
remapped or failed; a worn block is exchanged for a spare; a persisted entry that is owed its region place waits for it. -/
def Obligations.TheGranaryWritesLineByLine : Prop :=
  ∀ s : State,
    (Completes .creditRefill s [Piece.raw, R.GRAN_CREDIT.piece] fun t =>
      t.raw = (s.advanceTo (BitVec.ofNat 64 ((s.raw.toNat / 104857600 + 1) * 104857600))).raw ∧
      t.credit = (BitVec.ofInt 32 (min ((s.reg R.GRAN_RATE_BURST).toNat % 2 ^ 21 : Nat)
        (s.credit + ((s.reg R.GRAN_RATE_BYTES).toNat % 2 ^ 17 : Nat)))).toInt) ∧
    (∀ e, nextJob s = none ∨ s.credit < 64 → exec (.granaryLineWrite e) s = .next s) ∧
    (∀ e0 i j, nextJob s = some (i, j) → 64 ≤ s.credit →
      let e := lineFate (wearSwap s) e0
      let left := if e = .noSpare then 0 else j.lines - 1
      Completes (.granaryLineWrite e0) s ([Piece.exec, .gran, .mem, .block 26] ++ noted) fun t =>
        t.credit = s.credit - 64 * linesFor e ∧ t.exec.stored.length ≤ s.exec.stored.length ∧
        (0 < left ∨ j.work = .cut → t.gran.jobs = s.gran.jobs.set i { j with
            lines := left, failed := j.failed || decide (e = .noSpare), since := s.raw } ∧ t.mem = s.mem ∧ t.exec = s.exec) ∧
        (left = 0 → j.work ≠ .cut → t.gran.jobs = s.gran.jobs.eraseIdx i) ∧
        (∀ key x, left = 0 → j.failed = false → e ≠ .noSpare → j.work = .region key → tget none s.gran.persist key = some x →
          tget none t.gran.persist key = some { x with regSeq := x.seq, regAt := s.raw, kept := (x.seq, x.ty, x.cells) }) ∧
        (e = .verified → t.reg R.GRAN_VERIFY_FAIL_CNT = s.reg R.GRAN_VERIFY_FAIL_CNT) ∧
        (e ≠ .verified → t.reg R.GRAN_VERIFY_FAIL_CNT = satSucc (s.reg R.GRAN_VERIFY_FAIL_CNT)) ∧
        (e = .remapped → t.reg R.GRAN_REMAP_CNT = satSucc (s.reg R.GRAN_REMAP_CNT) ∧
          (wornBlock s = none → t.reg R.GRAN_SPARES_FREE = BitVec.ofNat 32 ((s.reg R.GRAN_SPARES_FREE).toNat % 128 - 1)) ∧
          t.flag R.GRAN_EVENTS F.GRAN_EVENTS.REMAP = true) ∧
        (e = .noSpare → t.flag R.GRAN_STATUS F.GRAN_STATUS.NO_SPARE = true ∧ t.flag R.GRAN_EVENTS F.GRAN_EVENTS.NO_SPARE = true) ∧
        (∀ b, wornBlock s = some b → (s.reg R.GRAN_SPARES_FREE).toNat % 128 ≠ 0 → t.flag R.GRAN_EVENTS F.GRAN_EVENTS.WEAR_SWAP = true ∧
          (e ≠ .remapped → t.reg R.GRAN_SPARES_FREE = BitVec.ofNat 32 ((s.reg R.GRAN_SPARES_FREE).toNat % 128 - 1)) ∧
          (0 < left → t.gran.wear = tset 0 s.gran.wear b 0))) ∧
    (∀ key : Fin 16777216,
      let owed := ∃ x, tget none s.gran.persist key = some x ∧ regionOwed s x = true ∧ ∀ j ∈ s.gran.jobs, j.work ≠ .region key
      (¬owed → exec (.persistRewrite key) s = .next s) ∧
      (owed → Completes (.persistRewrite key) s [Piece.gran] fun t => t.gran.persist = s.gran.persist ∧
        ∃ n, 0 < n ∧ t.gran.jobs = s.gran.jobs ++ [⟨.region key, n, false, s.raw⟩]))

/-- R548, R558: a slice of the shutdown self-test destroys one unit, records what fails and moves the pointer on; RESTART sets it to unit 0. -/
def Claim.TheSelfTestTakesUnitsInTurn : Prop :=
  ∀ s : State,
    let u := (s.reg R.BIST_PTR).toNat % 256
    (∀ bits, sliceFits s u = false → exec (.bistSlice bits) s = .next s) ∧
    (∀ bits : List (Fin 1024 × Fin 72), sliceFits s u = true →
      Completes (.bistSlice bits) s ([Piece.raw, .mem, .gran, .free, .block 25] ++ noted) fun t =>
        t.reg R.BIST_PTR = (if u = 158 then 0 else BitVec.ofNat 32 (u + 1)) ∧
        t.reg R.BIST_PASS_CNT = (if u = 158 then s.reg R.BIST_PASS_CNT + 1 else s.reg R.BIST_PASS_CNT) ∧
        (u = 158 → t.flag R.BIST_EVENTS F.BIST_EVENTS.PASS_DONE = true) ∧
        (123 ≤ u → t.mem = s.mem) ∧
        (u < 123 → let p := subOf 9 0 u
          let base := (bankPlace p.1).1 + p.2 * 262144
          (∀ a, a < base ∨ base + 262144 ≤ a → tget 0 t.mem a = tget 0 s.mem a) ∧ t.raw = (s.advanceTo (s.raw + 1835008)).raw) ∧
        (bits = [] → t.gran = s.gran ∧ t.reg R.BIST_FAIL_CNT = s.reg R.BIST_FAIL_CNT) ∧
        (bits ≠ [] → t.flag R.BIST_EVENTS F.BIST_EVENTS.FAIL = true) ∧
        (s.gran.repairs.length + bits.length ≤ 2043 → ∀ b ∈ bits, ∃ r ∈ t.gran.repairs, r.row = b.1.val ∧ r.bit = b.2.val)) ∧
    (∀ v, Completes (.bistRestart v) s [R.BIST_CTRL.piece, R.BIST_PTR.piece] fun t =>
      t.reg R.BIST_PTR = 0 ∧ t.reg R.BIST_CTRL = v &&& 0xFFFF0001)

/-- The harrow, the fallow test, bank hand-over and the self-test. -/
def Obligations.TheBanksAreTestedAndHandedOver : Prop :=
  Claim.TheBanksAreTestedAndHandedOver ∧ Claim.TheSelfTestTakesUnitsInTurn

/-! ### Chapter 15: security and lifecycle -/

/-- R565, R566, R574, R585: a command of SEC_CMD is refused with its code, or wipes the secure memory, ends the sessions and moves the lifecycle;
a root is revoked for good, and the anti-rollback counter is raised. -/
def Obligations.SecurityCommandsMoveTheLifecycle : Prop :=
  ∀ s : State,
    let refused (c : Instr) (op code : Nat) : Prop := exec c s =
      .next ((s.setReg R.SEC_CMD_RESULT (BitVec.ofNat 32 (op + 256 * code))).raise R.SEC_EVENTS F.SEC_EVENTS.CMD_REFUSED)
    let done (c : Instr) (op : Nat) (w : List Piece) (post : State → Prop) : Prop :=
      Completes c s (w ++ [R.SEC_CMD_RESULT.piece]) fun t => t.reg R.SEC_CMD_RESULT = BitVec.ofNat 32 op ∧ post t
    let wiped (c : Instr) (op : Nat) (w : List Piece) (post : State → Prop) : Prop :=
      done c op (w ++ [Piece.free, .glean, .group, .joa, .latch, .mem, .stage, .txn, .sec, .block 8, .block 22] ++ noted) fun t =>
        (∀ k, k < 32 → (t.session k).st = 0) ∧
        (∀ a, tget 0 t.mem a = if s.inSecure a = true then 0 else tget 0 s.mem a) ∧ post t
    let moved (n : Nat) (t : State) := t.sec = { s.sec with life := n } ∧ t.flag R.SEC_EVENTS F.SEC_EVENTS.LIFECYCLE = true
    let stopped := s.ctrlStopped = true
    let free := s.sec.running = none ∧ s.pfailOn = false
    (∀ lms n op c, (op, c) ∈ [(1, Instr.provision), (2, .operate), (3, .service), (4, .retire), (5, .deprovision), (6, .revoke lms n),
        (7, .rollbackAdvance)] → (s.sec.running.isSome = true → refused c op 1) ∧
      (s.sec.running = none → s.pfailOn = true → refused c op 2)) ∧
    (free → s.lifecycle ≠ 0 → refused .provision 1 2) ∧
    (free → s.lifecycle = 0 → s.sec.usable false = 0 ∨ s.sec.usable true = 0 → refused .provision 1 4) ∧
    (free → s.lifecycle = 0 → s.sec.usable false ≠ 0 → s.sec.usable true ≠ 0 →
      wiped .provision 1 [] fun t => t.sec = { s.sec with running := some 1 }) ∧
    (free →
      (s.lifecycle = 1 → (∀ x ∈ s.sec.hosts, x.2 = none) → refused .operate 2 5) ∧
      (s.lifecycle = 1 → (∃ x ∈ s.sec.hosts, x.2.isSome = true) → wiped .operate 2 [Piece.resets, .block 27] fun t => moved 2 t ∧
        t.resets.cold.isSome = true ∧ (s.resets.cold = none → t.resets.cold = some (3, s.raw))) ∧
      (s.lifecycle = 3 → stopped → wiped .operate 2 [Piece.block 27] (moved 2)) ∧ (s.lifecycle = 3 → ¬stopped → refused .operate 2 3) ∧
      (s.lifecycle ≠ 1 → s.lifecycle ≠ 3 → refused .operate 2 2) ∧
      (s.lifecycle ≠ 2 → refused .service 3 2) ∧ (s.lifecycle = 2 → ¬stopped → refused .service 3 3) ∧
      (s.lifecycle = 2 → stopped → wiped .service 3 [Piece.block 27] (moved 3)) ∧
      (s.lifecycle = 4 → refused .retire 4 2) ∧ (s.lifecycle ≠ 4 → ¬stopped → refused .retire 4 3) ∧
      (s.lifecycle ≠ 4 → stopped → wiped .retire 4 [] fun t => t.sec = { s.sec with running := some 4 }) ∧
      (s.lifecycle = 0 ∨ s.lifecycle = 4 → refused .deprovision 5 2) ∧
      (s.lifecycle ≠ 0 → s.lifecycle < 4 → ¬stopped → refused .deprovision 5 3) ∧
      (s.lifecycle ≠ 0 → s.lifecycle < 4 → stopped → wiped .deprovision 5 [] fun t => t.sec = { s.sec with running := some 5 })) ∧
    (∀ (lms : Bool) (n : Fin 4), free →
      let y := s.sec.setRoot lms n { s.sec.root lms n with revoked := true }
      let last := (s.sec.root lms n).usable = true ∧ y.usable lms = 0
      let boots := ∃ k f, k < 2 ∧ s.imageFile k = some f ∧ imageResultOf y f = 1
      (s.lifecycle = 4 → refused (.revoke lms n) 6 2) ∧
      (s.lifecycle ≠ 4 → last ∨ ¬boots → refused (.revoke lms n) 6 6) ∧
      (s.lifecycle ≠ 4 → ¬last → boots → done (.revoke lms n) 6 ([Piece.sec, R.SEC_IMAGE_STATUS.piece, R.SEC_EVENTS.piece] ++ noted) fun t =>
        t.sec = y ∧ (t.sec.root lms n).revoked = true ∧ (t.sec.root lms n).hash = (s.sec.root lms n).hash)) ∧
    (free →
      let r := ((s.imageFile s.fwSlot).map (·.rollback)).getD 0
      let older := ∃ f, s.imageFile s.activeSlot = some f ∧ s.image.id = f.id ∧ f.rollback < r
      (s.lifecycle = 4 → refused .rollbackAdvance 7 2) ∧
      (s.lifecycle ≠ 4 → r ≤ s.sec.rollback ∨ older → refused .rollbackAdvance 7 7) ∧
      (s.lifecycle ≠ 4 → s.sec.rollback < r → ¬older →
        done .rollbackAdvance 7 ([Piece.sec, R.SEC_IMAGE_STATUS.piece, R.SEC_EVENTS.piece] ++ noted) fun t =>
          t.sec = { s.sec with cMir := r, cOtp := max s.sec.cOtp r } ∧ t.flag R.SEC_EVENTS F.SEC_EVENTS.ROLLBACK_ADVANCED = true))

/-- R567 to R569, R574, R578 to R580, R640: an image is verified in order; the other slot is marked for trial; debug is unlocked and halts a core;
tamper wipes the secure memory; a transition's end leaves the new lifecycle state and a cold reset. -/
def Obligations.ImagesDebugAndTamperAct : Prop :=
  ∀ s : State,
    let cold (t : State) := t.resets.cold.isSome = true ∧ (s.resets.cold = none → t.resets.cold = some (3, s.raw))
    (∀ (k : Fin 4) (f : Option ImageFile),
      let busy := ∃ x ∈ s.joa.xfers, x.slot = k.val
      let g := match f with
        | some x => some x
        | none => s.imageFile k
      (busy → exec (.imageVerify k f) s = .next s) ∧
      (¬busy → Completes (.imageVerify k f) s ([Piece.slots, R.SEC_IMAGE_STATUS.piece, R.SEC_EVENTS.piece] ++ noted) fun t =>
        t.imageFile k = g ∧ (∀ j, j ≠ k.val → t.imageFile j = s.imageFile j) ∧ (g = none → t.imageResult k = 0) ∧
        (∀ x, g = some x → t.imageResult k = imageResultOf s.sec x ∧
          (imageResultOf s.sec x ≠ 1 → t.flag R.SEC_EVENTS F.SEC_EVENTS.IMAGE_REFUSED = true)))) ∧
    (∀ n : Byte,
      let taken := s.pfailOn = false ∧ s.shutStep = 0 ∧ n.toNat ≠ s.fwSlot ∧ n.toNat < 2 ∧ (∀ x ∈ s.joa.xfers, x.slot ≠ n.toNat) ∧
        s.imageResult n.toNat = 1
      (¬taken → exec (.fwActivate n) s = .next s) ∧
      (taken → Completes (.fwActivate n) s [Piece.gran, .resets, .sec] fun t => t.resets.trial = some n.toNat ∧
        t.resets.warm = s.resets.warm ++ [⟨5, s.raw + 1024, none⟩] ∧ t.sec = { s.sec with activating := some n.toNat })) ∧
    (∀ (n : Fin 4) (good : Bool),
      let allowed := (s.lifecycle = 0 ∨ s.lifecycle = 1 ∨ s.lifecycle = 3) ∧ (s.sec.root false n).usable = true ∧ good = true
      (¬allowed → exec (.debugUnlock n good) s = .next s) ∧
      (allowed → Completes (.debugUnlock n good) s ([Piece.sec, R.SEC_EVENTS.piece] ++ noted) fun t =>
        t.sec = { s.sec with unlocked := true, everUnlocked := true } ∧ t.flag R.SEC_EVENTS F.SEC_EVENTS.DEBUG_UNLOCK = true)) ∧
    (∀ k : Fin 36,
      (s.sec.unlocked = false ∨ s.ctrlRunning = false ∨ s.role k = 2 → exec (.debugHalt k) s = .next s) ∧
      (s.sec.unlocked = true → s.ctrlRunning = true → s.role k ≠ 2 →
        Completes (.debugHalt k) s ([Piece.collie, .txn, .block 4, .block 5] ++ noted) fun t =>
          t.role k = 2 ∧ t.get (R.PLOT_k_CORE_STATUS k) F.PLOT_k_CORE_STATUS.FENCE_CAUSE = 4 ∧ t.run k = none)) ∧
    (∀ b : BitVec 5,
      let armed := s.pllLocked = true ∧ s.resets.porst = false ∧ s.pfailOn = false
      let src := b.toNat &&& ((s.reg R.SEC_TAMPER_CFG).toNat % 32) &&& (if armed then 31 else 27)
      (src = 0 ∨ s.sec.wiping = true → exec (.tamperDetect b) s = .next (s.setReg R.SEC_TAMPER_LIVE (b.setWidth 32))) ∧
      (src ≠ 0 → s.sec.wiping = false →
        Completes (.tamperDetect b) s
            ([Piece.free, .glean, .group, .joa, .latch, .mem, .stage, .txn, .sec, .block 8, .block 22, .block 27] ++ noted) fun t =>
          t.sec = { s.sec with
            wiping := true, unlocked := false, running := none, tamperSrc := src
            tamperCnt := min 65535 (s.sec.tamperCnt + 1), tamperV := s.vT64 } ∧
          (∀ k, k < 32 → (t.session k).st = 0) ∧ (∀ a, s.inSecure a = true → tget 0 t.mem a = 0) ∧
          t.flag R.SEC_EVENTS F.SEC_EVENTS.TAMPER = true)) ∧
    (s.sec.wiping = false → exec .tamperWipeDone s = .next s) ∧
    (s.sec.wiping = true → Completes .tamperWipeDone s [Piece.sec, .resets] fun t => t.sec = { s.sec.wiped with wiping := false } ∧
      (s.sec.retired = false → t.lifecycle = 0) ∧ cold t) ∧
    (s.sec.running = none → exec .lifecycleTransitionEnd s = .next s) ∧
    (∀ op, s.sec.running = some op →
      Completes .lifecycleTransitionEnd s ([Piece.free, .mem, .sec, .resets, .slots, .joa, .exec, .gran, .block 27] ++ noted) fun t => cold t ∧
        (∀ a, tget 0 t.mem a = if op ≠ 1 ∧ op ≠ 5 ∧ 0x14000000 ≤ a ∧ a < 0x15000000 then 0 else tget 0 s.mem a) ∧
        t.flag R.SEC_EVENTS F.SEC_EVENTS.LIFECYCLE = true ∧ t.sec.running = none ∧
        (op = 1 → (s.sec.retired = false → t.lifecycle = 1) ∧ t.sec.keys.isSome = true ∧ t.sec.lmsN = 0 ∧ t.sec.lmsR = 0 ∧
          t.gran = s.gran ∧ t.slots = s.slots) ∧
        (op = 5 → (s.sec.retired = false → t.lifecycle = 0) ∧ t.sec.keys = none ∧ t.sec.hosts = [] ∧ t.gran = s.gran) ∧
        (op = 4 → t.lifecycle = 4 ∧ t.sec.keys = none ∧ t.sec.hosts = [] ∧ t.imageFile 2 = none ∧ t.imageFile 3 = none ∧
          t.imageResult 2 = 0 ∧ t.imageResult 3 = 0 ∧ t.gran.persist = [] ∧ t.exec.stored = []))

/-! ### Chapter 16: the farm and its twins -/

/-- R586 to R589, R599, R600: a link opens, is refused with its reason, or goes down, and the routes follow; a lane fails; a flit is replayed. -/
def Claim.LinksOpenAndRoutesFollow : Prop :=
  ∀ s : State,
    let moved : List Piece := [Piece.farm, .txn, .ptp, .block 2, .block 8, .block 28] ++ noted
    let routed (t : State) : Prop := ∀ d, d ∈ s.farmTable.devs → d ≠ s.ownDev → d < 8 →
      s.reaches d = natBit (s.reg R.DRUS_REACH).toNat d ∧ t.reaches d = (t.hops d).isSome ∧
      (s.reaches d = true → t.reaches d = false → t.flag R.DRUS_EVENTS F.DRUS_EVENTS.DEVICE_LOST = true ∧ tget 0 t.farm.lostAge d = 0) ∧
      (s.reaches d = false → t.reaches d = true → t.flag R.DRUS_EVENTS F.DRUS_EVENTS.DEVICE_JOINED = true)
    (∀ (p : Fin 3) (h : FarmHello) (one : Bool),
      let c := Instr.linkUp (.own p) h one
      let r := R.DRUS_p_STATUS p
      let on := s.flag R.DRUS_CTRL F.DRUS_CTRL.EN = true ∧ s.flag (R.DRUS_p_CTRL p) F.DRUS_p_CTRL.EN = true
      (¬on → exec c s = .next s) ∧
      (on → linkRefuse s p h ≠ 0 → Completes c s ([r.piece, R.DRUS_EVENTS.piece] ++ noted) fun t =>
        t.get r F.DRUS_p_STATUS.REFUSE = linkRefuse s p h ∧ t.flag r F.DRUS_p_STATUS.UP = s.flag r F.DRUS_p_STATUS.UP ∧
        t.flag R.DRUS_EVENTS F.DRUS_EVENTS.CFG_REFUSED = true) ∧
      (on → linkRefuse s p h = 0 → h.dev < 8 → Completes c s moved fun t =>
        t.flag r F.DRUS_p_STATUS.UP = true ∧ t.get r F.DRUS_p_STATUS.PEER = h.dev ∧ t.get r F.DRUS_p_STATUS.REFUSE = 0 ∧
        t.flag r F.DRUS_p_STATUS.ONE_LANE = one ∧ (∀ i, i ∈ t.farm.up ↔ i ∈ s.farm.up ∨ s.ownLink p = some i ∨ i ∈ h.open_) ∧ routed t) ∧
      (s.flag r F.DRUS_p_STATUS.UP = false → exec (.linkDown (.own p)) s = .next s) ∧
      (s.flag r F.DRUS_p_STATUS.UP = true → Completes (.linkDown (.own p)) s moved fun t =>
        t.flag r F.DRUS_p_STATUS.UP = false ∧ t.get r F.DRUS_p_STATUS.PEER = 0 ∧ t.flag R.DRUS_EVENTS F.DRUS_EVENTS.LINK_DOWN = true ∧
        (∀ i, s.ownLink p = some i → t.farm.up = s.farm.up.filter (fun k => decide (k ≠ i)) ∧ routed t)) ∧
      (Completes (.laneFailure p) s [r.piece] fun t => t.flag r F.DRUS_p_STATUS.ONE_LANE = true ∧
        t.flag r F.DRUS_p_STATUS.UP = s.flag r F.DRUS_p_STATUS.UP) ∧
      (∀ crc, Completes (.flitReplay p crc) s [(R.DRUS_p_RETRY_CNT p).piece, (R.DRUS_p_CRC_CNT p).piece] fun t =>
        t.reg (R.DRUS_p_RETRY_CNT p) = satSucc (s.reg (R.DRUS_p_RETRY_CNT p)) ∧
        t.reg (R.DRUS_p_CRC_CNT p) = if crc then satSucc (s.reg (R.DRUS_p_CRC_CNT p)) else s.reg (R.DRUS_p_CRC_CNT p))) ∧
    (∀ (i : Nat) (h : FarmHello) (one : Bool),
      (i ∈ s.farm.up → exec (.linkUp (.remote i) h one) s = .next s) ∧
      (i ∉ s.farm.up → Completes (.linkUp (.remote i) h one) s moved fun t => t.farm.up = s.farm.up ++ [i] ∧ routed t) ∧
      Completes (.linkDown (.remote i)) s moved fun t => t.farm.up = s.farm.up.filter (fun k => decide (k ≠ i)) ∧ routed t)

/-- R591, R592: an exchange measures the link's delay, and a follower's offset steers its rate and its lock; a follower takes δ from the lead's
headland message, and 0 without one. -/
def Claim.AFollowerKeepsFarmTime : Prop :=
  ∀ s : State,
    (∀ (p : Fin 3) (t1 t4 : Int) (t2 t3 : Quad) (f2 f3 : Fin 16),
      let c := Instr.farmTimeExchange p t1 t2 f2 t3 f3 t4
      let up := s.flag (R.DRUS_p_STATUS p) F.DRUS_p_STATUS.UP
      let x2 := drusStamp s p false t2 f2
      let x3 := drusStamp s p true t3 f3
      let theta := ((x2.1 - t1) - (t4 - x3.1)) / 2
      let delay := BitVec.ofInt 32 (((x2.1 - t1) + (t4 - x3.1)) / 2)
      let takes := s.isFollower = true ∧ s.leadPort = some p.val ∧ s.flag R.DRUS_STATUS F.DRUS_STATUS.HOLDOVER = false
      let locked := s.flag R.DRUS_STATUS F.DRUS_STATUS.FARM_LOCKED
      (up = false → exec c s = .next (s.advanceTo t3)) ∧
      (up = true → ¬takes → Completes c s [Piece.raw, (R.DRUS_p_DELAY p).piece] fun t =>
        t.raw = (s.advanceTo t3).raw ∧ t.reg (R.DRUS_p_DELAY p) = delay) ∧
      (∀ th0 t0, up = true → takes → s.flag R.PTP_STATUS F.PTP_STATUS.SYNT_ONLY = false → s.farm.tracking = true →
        s.farm.prev = some (th0, t0) → x2.2 ≠ t0 →
        let y := servoStep s.farm.f theta (x2.2 - t0).toNat 2 5 100
        Completes c s ([Piece.raw, .farm, .ptp, .block 2, .block 28] ++ noted) fun t =>
          t.reg (R.DRUS_p_DELAY p) = delay ∧ t.reg R.DRUS_OFFSET = BitVec.ofInt 32 theta ∧ t.farm.prev = some (theta, x2.2) ∧
          t.farm.f = y.1 ∧ t.reg R.TIME_RATE_ADJ = BitVec.ofInt 32 (clampInt (-rateLimit) rateLimit (BitVec.ofInt 32 y.2).toInt) ∧
          (locked = true → 96 < theta.natAbs → t.flag R.DRUS_STATUS F.DRUS_STATUS.FARM_LOCKED = false ∧
            t.flag R.DRUS_EVENTS F.DRUS_EVENTS.LOCK_LOST = true) ∧
          (locked = true → theta.natAbs ≤ 96 → t.flag R.DRUS_STATUS F.DRUS_STATUS.FARM_LOCKED = true) ∧
          (locked = false → theta.natAbs ≤ 64 → 7 ≤ s.farm.run → t.flag R.DRUS_STATUS F.DRUS_STATUS.FARM_LOCKED = true ∧
            t.farm.outOfStep = false) ∧
          (locked = false → 64 < theta.natAbs → t.flag R.DRUS_STATUS F.DRUS_STATUS.FARM_LOCKED = false ∧ t.farm.run = 0)) ∧
      (∀ th0 t0, up = true → takes → s.flag R.PTP_STATUS F.PTP_STATUS.SYNT_ONLY = false → s.farm.tracking = false →
        s.farm.waitSeat = false → s.farm.prev = some (th0, t0) → x2.2 ≠ t0 → s.farm.run < 7 ∨ 16 < (theta - th0).natAbs →
        Completes c s ([Piece.raw, .farm, .ptp, .block 2, .block 28] ++ noted) fun t =>
          t.farm.f = clampInt (-rateLimit) rateLimit (s.farm.f - rateOf (theta - th0) (x2.2 - t0).toNat 0) ∧
          t.farm.run = (if (theta - th0).natAbs ≤ 16 then s.farm.run + 1 else 0) ∧ t.farm.tracking = false)) ∧
    (∀ (b : Nat) (sh d : Int) (run : Bool),
      let c := Instr.headlandMessage b sh d run
      let own := (s.reg R.HEAD_SHIFT).toInt
      let armed := s.headRun = true ∧ s.head.armed = true ∧ s.flag R.HEAD_STATUS F.HEAD_STATUS.RUNNING = true
      let due := b + 1 = s.head.nextB ∧ s.vNow < s.headMsgLimit
      let d0 := clampInt (-s.pSlew) s.pSlew (d + sh - own)
      let head : Headland := { s.head with leadRunning := run, leadShift := sh }
      (s.isFollower = false → exec c s = .next s) ∧
      (s.isFollower = true → ¬armed → exec c s = .next { s with head := head }) ∧
      (s.isFollower = true → armed → Completes c s [Piece.head, .farm, R.HEAD_TARGET.piece] fun t => t.farm = { s.farm with missed := false } ∧
        t.head.leadRunning = run ∧ t.head.leadShift = sh ∧ t.head.awaitLead = false ∧ t.head.nextB = s.head.nextB ∧
        (due → t.head.nextShift = own + d0 ∧ t.head.nextActual = s.headV.toInt + s.pg + d0) ∧
        (¬due → t.head.nextShift = own ∧ t.head.nextActual = s.headV.toInt + s.pg) ∧
        (¬due ∨ own ≠ sh → t.head.target = sh ∧ t.reg R.HEAD_TARGET = BitVec.ofInt 32 sh) ∧
        (due → own = sh → t.head.target = s.head.target ∧ t.reg R.HEAD_TARGET = s.reg R.HEAD_TARGET))) ∧
    (s.isFollower = false ∨ s.head.awaitLead = false → exec .headlandMessageMissed s = .next s) ∧
    (s.isFollower = true → s.head.awaitLead = true →
      Completes .headlandMessageMissed s ([Piece.raw, .head, .farm, R.DRUS_EVENTS.piece] ++ noted) fun t =>
        t.raw = (s.advanceToV s.headMsgLimit).raw ∧ t.farm = { s.farm with missed := true } ∧
        t.head = { s.head with nextActual := s.headV.toInt + s.pg, nextShift := (s.reg R.HEAD_SHIFT).toInt, awaitLead := false } ∧
        t.flag R.DRUS_EVENTS F.DRUS_EVENTS.LOCK_LOST = true)

/-- Drustra links and routes, and the time of a follower. -/
def Obligations.LinksRoutesAndFarmTimeFollow : Prop :=
  Claim.LinksOpenAndRoutesFollow ∧ Claim.AFollowerKeepsFarmTime

/-- R212, R535, R593 to R598: another device reads and writes through its window; its FARM values and its events arrive; a peer votes on a
coordinator's actions, takes the decision, asks for it in doubt, and discards what stays in doubt too long; a coordinator answers a peer. The
numbers of a NO's reasons are the model's (log entry 240). -/
def Obligations.FarmAccessesValuesAndPeers : Prop :=
  ∀ s : State,
    (∀ (d : Fin 8) (a : BitVec 35),
      let x := a.toNat / 4 * 4
      let m := remoteMaster d
      let o := x - 0x20000000
      let refused (t : State) : State := (t.incSat R.DRUS_REMOTE_REFUSED_CNT).raise R.DRUS_EVENTS F.DRUS_EVENTS.REMOTE_REFUSED
      (∀ e, 0x20000000 ≤ x → x < 0x30000000 → regLookup o = some e → e.half = 0 →
        (plainlyRead o → tget none s.group (masterKey m o) = none → Completes (.farmWindowAccess d a none) s [Piece.readData, .reg o] fun t =>
          t.readData = s.valueOf e o ∧ t.reg (e.reg o) = s.reg (e.reg o) &&& ~~~(BitVec.ofNat 32 e.rc)) ∧
        (∀ v, s.flag R.DRUS_CTRL F.DRUS_CTRL.REMOTE_WR = false → exec (.farmWindowAccess d a (some v)) s = .next (refused s)) ∧
        (∀ v, s.flag R.DRUS_CTRL F.DRUS_CTRL.REMOTE_WR = true → ownedWrite m o v s = none → o ≠ (R.CAPT_EVENTS).addr →
          o ≠ (R.GLEAN_EVENTS).addr → exec (.farmWindowAccess d a (some v)) s = .next (s.setReg (e.reg o)
            ((s.reg (e.reg o) &&& ~~~(BitVec.ofNat 32 e.rw) ||| v &&& BitVec.ofNat 32 e.rw) &&& ~~~(v &&& BitVec.ofNat 32 e.w1c))))) ∧
      (spaceOf s x = .granary →
        (let g := x - 0x14000000
         let c := Instr.farmWindowAccess d a none
         let set (l : List Byte) (p : Nat) : Out := .next { s with readData := wordOf (padTo 4 ((l.drop (g - p)).take 4)) }
         (0x440000 ≤ g → g < 0xE00000 → exec c s = .next { s with readData := wordOf (s.memRead x 4) }) ∧
         (0x400000 ≤ g → g < 0x401000 → exec c s = set s.island.active 0x400000) ∧
         (0x401000 ≤ g → g < 0x402000 → exec c s = set (s.island.pending.getD []) 0x401000) ∧
         (g < 0x400000 ∨ (0x402000 ≤ g ∧ g < 0x440000) ∨ 0xE00000 ≤ g → Completes c s [Piece.readData, .free] fun _ => True)) ∧
        ∀ v, exec (.farmWindowAccess d a (some v)) s = .next (refused (violation 3 x s))) ∧
      (spaceOf s x = .ddr → exec (.farmWindowAccess d a none) s = .next { s with readData := wordOf (s.memRead x 4) } ∧
        ∀ v : Word, exec (.farmWindowAccess d a (some v)) s = .next (s.memWrite x (leBytes 4 v.toNat))) ∧
      (spaceOf s x = .none_ → exec (.farmWindowAccess d a none) s = .next { s with readData := 0 } ∧
        ∀ v, exec (.farmWindowAccess d a (some v)) s = .next (refused s)) ∧
      (spaceOf s x = .bank → ∀ v : Word, bankFault s 7 x true ≠ 0 →
        exec (.farmWindowAccess d a (some v)) s = .next (refused (violation (bankFault s 7 x true) x s)))) ∧
    (∀ (d : Fin 8) (b : Nat) (step : Bool) (vals : List (Nat × Quad)),
      (s.reaches d = false → exec (.farmValueDelivery d b step vals) s = .next s) ∧
      (s.reaches d = true → Completes (.farmValueDelivery d b step vals) s [Piece.farm, .inputs, .ages] fun t =>
        (d.val ∈ t.farm.unlocked ↔ step = false) ∧ (∀ e, e ≠ d.val → (e ∈ t.farm.unlocked ↔ e ∈ s.farm.unlocked)) ∧
        (∀ x ∈ vals, tget 0 t.ages (refSource (5 * 2 ^ 28 + d * 65536 + x.1 % 65536)) = b + 1) ∧
        ((vals.map fun x => x.1 % 65536).Nodup → ∀ x ∈ vals,
          imgBytes t.inputs (refAddr (5 * 2 ^ 28 + d * 65536 + x.1 % 65536)) 8 = leBytes 8 x.2.toNat))) ∧
    (∀ (d : Fin 8) (block : Fin 256) (bit : Fin 32) (code : Fin 256) (v : Word) (attn : Bool),
      let w := (s.reg R.DRUS_EVT_DESC).toNat
      Completes (.farmEventForward d block bit code v attn) s [Piece.collie, R.DRUS_ATTN_DEV.piece] fun t =>
        natBit (t.reg R.DRUS_ATTN_DEV).toNat d = attn ∧
        (natBit w 12 = false → t.collie = s.collie) ∧
        (natBit w 12 = true → t.collie = { s.collie with hwPosts := s.collie.hwPosts ++ [⟨w % 4096, BitVec.ofNat 64
          (d.val + 256 * block.val + 65536 * bit.val + 2 ^ 24 * code.val + 2 ^ 32 * v.toNat), none⟩] })) ∧
    (∀ (c : Fin 8) (h : BitVec 16),
      let mine (x : PeerTxn) := x.coord = c.val ∧ x.handle = h.toNat
      let others := s.txn.peers.filter fun x => ¬ (x.coord = c.val ∧ x.handle = h.toNat)
      let it := s.txn.peers.find? fun x => x.coord = c.val ∧ x.handle = h.toNat
      (∀ (b : Nat) (role : Fin 4) (l : List (Fin 16777216 × EType × Quad)),
        let acts := l.map fun x => (x.1.val, x.2)
        let full := 64 ≤ others.length ∨ 4096 < (others.map fun x => x.actions.length).sum + acts.length
        let voted (ps : List PeerTxn) (why : Nat) : Out :=
          .next { s with txn := { s.txn with peers := ps, peerVote := some (c, h.toNat, decide (why = 0), why) } }
        let x := Instr.peerActions c h b role l
        (s.farm.outOfStep = true → exec x s = voted others 2) ∧
        (s.farm.outOfStep = false → full → exec x s = voted others 3) ∧
        (s.farm.outOfStep = false → ¬full → acts.all (peerActionOk s role) = false → exec x s = voted others 1) ∧
        (s.farm.outOfStep = false → ¬full → acts.all (peerActionOk s role) = true →
          exec x s = voted (others ++ [⟨c, h.toNat, b, acts, none, false, none⟩]) 0)) ∧
      (Completes (.peerDecision c h false) s [Piece.txn] fun t => t.txn = { s.txn with peers := others }) ∧
      (Completes (.peerDecision c h true) s [Piece.txn] fun t => t.txn.peers.length = s.txn.peers.length ∧
        (∀ x ∈ t.txn.peers, mine x → x.decision = some true) ∧ t.txn.peers.filter (fun x => ¬ (x.coord = c.val ∧ x.handle = h.toNat)) = others) ∧
      (∀ ans, (it = none ∨ s.reaches c = false ∨ (∃ x, it = some x ∧ x.doubtSince = none) →
        exec (.doubtQuery c h (.asks ans)) s = .next s)) ∧
      (exec (.doubtQuery c h .asked) s = .next { s with txn := { s.txn with
        doubtAnswer := some (c, h.toNat, (s.txn.doubts.find? fun y => y.1 = c.val ∧ y.2.1 = h.toNat).map (·.2.2)) } }) ∧
      (∀ x, it = some x → x.doubtSince.isSome = true → s.reaches c = true →
        exec (.doubtQuery c h (.asks (some true))) s = exec (.peerDecision c h true) s ∧
        (Completes (.doubtQuery c h (.asks (some false))) s [Piece.txn] fun t => t.txn = { s.txn with peers := others }) ∧
        Completes (.doubtQuery c h (.asks none)) s ([Piece.txn, R.DRUS_EVENTS.piece] ++ noted) fun t => t.txn = { s.txn with peers := others } ∧
          t.flag R.DRUS_EVENTS F.DRUS_EVENTS.PEER_DOUBT_EXPIRED = true)) ∧
    (let overdue (x : PeerTxn) := ∃ b, x.doubtSince = some b ∧ b + (s.reg R.DRUS_DOUBT_LIMIT).toNat % 65536 ≤ s.headIndex
     ((∀ x ∈ s.txn.peers, ¬overdue x) → exec .doubtLimitExpiry s = .next s) ∧
     ((∃ x ∈ s.txn.peers, overdue x) → Completes .doubtLimitExpiry s ([Piece.txn, R.DRUS_EVENTS.piece] ++ noted) fun t =>
       (∀ x ∈ t.txn.peers, ¬overdue x ∧ x ∈ s.txn.peers) ∧
       (∀ x ∈ s.txn.peers, (∀ y ∈ s.txn.peers, overdue y → ¬(y.coord = x.coord ∧ y.handle = x.handle)) → x ∈ t.txn.peers) ∧
       t.flag R.DRUS_EVENTS F.DRUS_EVENTS.PEER_DOUBT_EXPIRED = true))

/-- R602, R603: a standby takes the primary's mirror and cut, skips a cycle without it, and becomes primary when the primary is silent; a
higher EPOCH makes a device standby, and a primary without a READY standby runs alone. -/
def Obligations.TwinsMirrorAndTakeOver : Prop :=
  ∀ s : State,
    let st := s.twinState
    let own := s.get R.DRUS_TWIN_STATUS F.DRUS_TWIN_STATUS.EPOCH
    let standby := st = 2 ∨ st = 3
    (∀ m : TwinMirror,
      (¬standby → exec (.twinMirror m) s = .next s) ∧
      (standby → Completes (.twinMirror m) s [Piece.inputs, .ages, .quals, .collie, .farm, .gran, .txn, .block 4, .block 7, .block 17] fun t =>
        t.twinState = st ∧ t.farm.twin.cycles = m.cycles ∧ t.farm.twin.txns = m.txns ∧
        t.inputs = m.inputs.foldl (fun x (a, v) => tset 0 x a v) s.inputs ∧
        t.ages = m.ages.foldl (fun x (a, v) => tset 0 x a v) s.ages ∧
        t.quals = m.quals.foldl (fun x (a, v) => tset 0 x a v) s.quals ∧
        (m.complete = true ∧ m.index = s.headIndex → t.farm.twin.mirrorAt = m.index) ∧
        (m.complete = false ∨ m.index ≠ s.headIndex → t.farm.twin.mirrorAt = s.farm.twin.mirrorAt) ∧
        (∀ e p c v, m.forces = [(e, p, c, v)] → e < 1024 → t.reg (R.FORCE_e_POINT e) = p ∧ t.reg (R.FORCE_e_CTRL e) = c &&& 0x77 ∧
          t.reg64 (R.FORCE_e_VALUE_LO e) (R.FORCE_e_VALUE_HI e) = v))) ∧
    (¬standby ∨ s.farm.twin.mirrorAt = s.headIndex → exec .twinMirrorIncomplete s = .next s) ∧
    (standby → s.farm.twin.mirrorAt ≠ s.headIndex → Completes .twinMirrorIncomplete s [Piece.raw, R.DRUS_TWIN_STATUS.piece] fun t =>
      t.raw = (s.advanceTo (s.headRaw + 8192)).raw ∧ t.twinState = 3) ∧
    (∀ (e : Fin 65536) (i : Nat) (ready : Bool),
      let higher := e.val ≠ own ∧ (e.val + 65536 - own) % 65536 < 32768
      (st = 0 → ∀ p, exec (.twinHeartbeat p e i ready) s = .next s ∧ exec (.twinFrameSeen e) s = .next s) ∧
      (st ≠ 0 → ∀ c, c ∈ [Instr.twinHeartbeat true e i ready, .twinFrameSeen e] →
        Completes c s [Piece.farm, R.DRUS_TWIN_STATUS.piece] fun t =>
          (c = .twinFrameSeen e → t.farm.twin = { s.farm.twin with frameSeen := true }) ∧
          (c ≠ .twinFrameSeen e → t.farm.twin = { s.farm.twin with beat := some i }) ∧
          (¬higher → t.reg R.DRUS_TWIN_STATUS = s.reg R.DRUS_TWIN_STATUS) ∧
          (higher → t.get R.DRUS_TWIN_STATUS F.DRUS_TWIN_STATUS.EPOCH = e ∧ t.twinState = if st = 1 ∨ st = 4 then 3 else st)) ∧
      (st = 1 → Completes (.twinHeartbeat false e i false) s ([R.DRUS_TWIN_STATUS.piece, R.DRUS_EVENTS.piece] ++ noted) fun t =>
        t.twinState = 4 ∧ t.flag R.DRUS_EVENTS F.DRUS_EVENTS.TWIN_DEGRADED = true) ∧
      (st = 4 → Completes (.twinHeartbeat false e i true) s [R.DRUS_TWIN_STATUS.piece] fun t => t.twinState = 1) ∧
      (standby → exec (.twinHeartbeat false e i ready) s = .next s)) ∧
    (let silent := s.farm.twin.beat ≠ some s.headIndex ∧ s.farm.twin.frameSeen = false
     (¬standby ∨ ¬silent → exec .twinTakeover s = .next s) ∧
     (silent → st = 2 → Completes .twinTakeover s [Piece.raw, .farm] fun t =>
       t.raw = (s.advanceToV (s.headV.toInt + (s.pg / 4 : Nat))).raw ∧ t.farm.twin = { s.farm.twin with takeover := true }) ∧
     (silent → st = 3 → Completes .twinTakeover s ([Piece.raw, R.DRUS_EVENTS.piece] ++ noted) fun t =>
       t.flag R.DRUS_EVENTS F.DRUS_EVENTS.TWIN_FAILED = true)) ∧
    (∀ l : List (Nat × List Quad),
      (st ≠ 3 → exec (.twinCutCopied l) s = .next s) ∧
      (st = 3 → (l.map (·.1)).Nodup → Completes (.twinCutCopied l) s [Piece.collie, .farm] fun t => t.farm.twin = { s.farm.twin with rejoin := true } ∧
        ∀ n cells, (n, cells) ∈ l → ∀ (i : Nat) v, cells[i]? = some v → tget 0 (t.retained n).valid i = v))

/-! ### Chapter 17: resets, the start and the shutdown -/

/-- R463, R550, R611 to R616, R618: a power-on or PORST_L rebuilds the block, keeping what OTP, granary, repair store and boot flash hold; a cold start
runs what is due; a request brings a warm or cold reset 1,024 grains later; the service button and PORST_L act by their states. -/
def Obligations.ResetsRebuildTheBlock : Prop :=
  ∀ s : State,
    let rebuilt (cause : Nat × Nat) (t : State) : Prop :=
      t.pending = s.pending ∧ t.slots = s.slots ∧ t.raw = 0 ∧ t.evlog = [] ∧ t.image = Image.none_ ∧ t.collie = Collie.empty ∧
      t.txn = TxnEngine.empty ∧ t.img = Images.zero ∧ t.inputs = [] ∧ t.head = Headland.stopped ∧ t.field = Field.empty ∧
      t.motion = Motion.empty ∧ t.analog = Analog.off ∧ t.glean = Gleaner.off ∧ t.ptp = Ptp.off ∧ t.farm = Farm.alone ∧
      (∀ k, (t.session k).st = 0) ∧ t.exec.stored = s.exec.stored ∧ t.gran.persist = keptValues s.gran.persist ∧ t.gran.repairs = s.gran.repairs ∧
      t.gran.saved = s.gran.saved ∧ t.sec = s.sec.restart ∧ t.resets.cause = cause ∧ t.resets.warm = [] ∧ t.resets.cold = none ∧
      t.island.st = s.island.st ∧ t.island.core = s.island.core ∧ t.island.mastiff = s.island.mastiff ∧ t.ctrl = 0 ∧
      (∀ a, tget 0 t.mem a = if inGranary a = true then tget 0 s.mem a else 0) ∧
      (∀ r : Reg, r.addr ∉ keptRegs → r.addr ∉ [(R.CLK_STATUS).addr, (R.SYS_FARM).addr, (R.SEC_IMAGE_STATUS).addr, (R.GRAN_STATUS).addr,
        (R.SAFEMIR_PEND_CRC).addr, (R.SAFEMIR_STATUS).addr] → t.reg r = r.reset) ∧
      ∀ r : Reg, r.addr ∈ keptRegs → r.addr ≠ (R.SYS_FARM).addr → t.reg r = s.reg r
    (∀ (supply ext : Bool) (farm : Fin 8), ∃ t, exec (.powerOn supply farm ext) s = .next t ∧ rebuilt (0, b2n !supply) t ∧
      t.resets.porst = false ∧ t.resets.await = true ∧ t.reg R.SYS_FARM = BitVec.ofNat 32 farm ∧
      t.flag R.CLK_STATUS F.CLK_STATUS.XIN_EXT = ext) ∧
    (∃ t, exec .porstAssert s = .next t ∧ rebuilt (0, 1) t ∧ t.resets.porst = true ∧ t.resets.await = false) ∧
    (∀ (lock : BitVec 16) (low : Bool) (mode : Fin 3) (size : Byte) (id : BitVec 24),
      let c := Instr.coldStart lock low mode size id
      let idle := s.resets.porst = true ∨ (s.resets.cold = none ∧ s.resets.await = false)
      (idle → exec c s = .next s) ∧
      (¬idle → ∃ t, exec c s = .next t ∧ t.pending = s.pending ∧ t.resets.await = false ∧ t.resets.first = true ∧
        t.resets.lockTicks = lock.toNat ∧ (mode.val = 0 ∨ size.toNat < 8 → t.resets.recovery = true ∧ t.raw = 0 ∧
          t.flag R.EXEC_STATUS F.EXEC_STATUS.SAFE_OUT = true ∧
          t.flag R.XSPI_EVENTS F.XSPI_EVENTS.SFDP_BAD = true ∧ t.flag R.XSPI_STATUS F.XSPI_STATUS.SFDP_OK = false ∧
          (∀ u g, u < 16 → g < 4 → t.reg (R.AU_n_CAL_OFS_g u g) = (tget Otp.cal0 s.sec.otp.cal (4 * u + g)).1 ∧
            t.reg (R.AU_n_CAL_GAIN_g u g) = (tget Otp.cal0 s.sec.otp.cal (4 * u + g)).2 &&& 0x3FFFFF) ∧
          t.reg64 R.PTP_CLOCK_ID_LO R.PTP_CLOCK_ID_HI = s.sec.otp.clockId ∧
          ((∃ x ∈ s.gran.repairs.zip (applyRepairs s.gran.repairs), x.1.state ≠ 3 ∧ x.2.state = 3) →
            t.flag R.BIST_EVENTS F.BIST_EVENTS.NO_SPARE = true) ∧
          ∀ src g, s.resets.cold = some (src, g) → src < 16 → t.reg R.SYS_RESET_CAUSE = BitVec.ofNat 32 (1 + 16 * src) ∧
            t.image = Image.none_) ∧
        (t.resets.recovery = false → t.latch = [] ∧ t.group = [] ∧ t.stage = []))) ∧
    (s.pfailOn = true → ∀ c, c ∈ [Instr.sysResetWarm, .sysResetCold] → exec c s =
      .next (s.raise R.CLK_EVENTS F.CLK_EVENTS.CMD_REFUSED)) ∧
    (s.pfailOn = false →
      exec .sysResetWarm s = .next { s with resets := { s.resets with warm := s.resets.warm ++ [⟨3, s.raw + 1024, none⟩] } } ∧
      Completes .sysResetCold s [Piece.resets] fun t => (s.resets.cold = none → t.resets = { s.resets with cold := some (3, s.raw + 1024) }) ∧
        (s.resets.cold.isSome = true → t.resets = s.resets)) ∧
    (let armed := s.get R.CLK_STATUS F.CLK_STATUS.SVC_STATE = 1
     let held := s.get R.CLK_STATUS F.CLK_STATUS.SVC_STATE = 2
     (¬armed → exec .svcrstPress s = .next s) ∧
     (armed → Completes .svcrstPress s [Piece.resets, .block 1] fun t =>
       t.resets = { s.resets with warm := s.resets.warm ++ [⟨2, s.raw, none⟩] } ∧ t.get R.CLK_STATUS F.CLK_STATUS.SVC_STATE = 2 ∧
       t.reg R.CLK_SVC_CNT = satSucc (s.reg R.CLK_SVC_CNT)) ∧
     (Completes .svcrstRelease s [R.CLK_STATUS.piece] fun t => t.get R.CLK_STATUS F.CLK_STATUS.SVC_STATE = 1 ∧
       t.flag R.CLK_STATUS F.CLK_STATUS.SVCRST_STUCK = false) ∧
     (¬held → exec .svcrstStuck s = .next s) ∧
     (held → Completes .svcrstStuck s (.block 1 :: noted) fun t => t.get R.CLK_STATUS F.CLK_STATUS.SVC_STATE = 3 ∧
       t.flag R.CLK_STATUS F.CLK_STATUS.SVCRST_STUCK = true ∧ t.flag R.CLK_EVENTS F.CLK_EVENTS.SVCRST_STUCK = true))

/-- R141, R185, R612, R613, R624: the warm reset that is due first takes effect at its W: runs and waiting entries are lost, a running
controller bridges, and memory, images and field state stay; a cold reset that comes no later takes its place. -/
def Obligations.AWarmResetBridgesARunningController : Prop :=
  ∀ (s : State),
    (s.resets.warm = [] → exec .warmReset s = .next s) ∧
    (∀ r rest, firstWarm s.resets.warm = some (r, rest) →
      r ∈ s.resets.warm ∧ (∀ x ∈ s.resets.warm, r.w.toNat ≤ x.w.toNat) ∧
      (let sooner := ∃ src g, s.resets.cold = some (src, g) ∧ g.toNat ≤ r.w.toNat
       (sooner → exec .warmReset s = .next { s with resets := { s.resets with warm := rest } }) ∧
       (¬sooner → 5 ≤ s.shutStep → Completes .warmReset s [Piece.raw, .resets] fun t => t.raw = (s.advanceTo r.w).raw ∧
         t.resets.warm = rest ∧ t.resets.cold = (if s.resets.cold.isSome then s.resets.cold else some (r.source, t.raw))) ∧
       (¬sooner → s.shutStep < 5 → r.slot = none →
         Completes .warmReset s ([Piece.raw, .collie, .exec, .glean, .gran, .group, .island, .latch, .motion, .newImage, .resets, .sec, .stage, .txn,
             .free, .block 1, .block 4, .block 5, .block 6, .block 8, .block 27] ++ noted) fun t =>
           t.raw = (s.advanceTo r.w).raw ∧ t.resets.warm = rest ∧ t.resets.kick = t.raw ∧
           t.reg R.SYS_RESET_CAUSE = BitVec.ofNat 32 (2 + 16 * r.source) ∧ t.reg R.CLK_WARM_CNT = satSucc (s.reg R.CLK_WARM_CNT) ∧
           (∀ k, k < 36 → t.run k = none) ∧ t.collie.ready = [] ∧ t.collie.delays = [] ∧ t.collie.releases = [] ∧ t.collie.flows = [] ∧
           t.collie.hwPosts = s.collie.hwPosts ∧ t.collie.codeMem = [] ∧ t.latch = dropCores s.latch ∧
           t.shutStep = 0 ∧
           (s.ctrl = 1 → t.ctrl = 3 ∧ t.exec.bridgeW = some t.raw ∧ t.exec.bridgeCut = false ∧ t.exec.restored = none) ∧
           (s.ctrl = 3 → t.ctrl = 3 ∧ t.exec.restored = none ∧ t.exec.bridgeW = s.exec.bridgeW) ∧
           (s.ctrl = 0 ∨ s.ctrl = 2 → t.ctrl = s.ctrl))))

/-- R614, R616, R620 to R625: the orderly shutdown runs its steps in order and can be cancelled before step 5; a configuration restart and a
firmware trial make warm resets; the watchdog is kicked, or makes one. -/
def Obligations.ShutdownTrialAndWatchdogRunTheirCourse : Prop :=
  ∀ s : State,
    let refused (c : Instr) : Prop := exec c s = .next (s.raise R.CLK_EVENTS F.CLK_EVENTS.CMD_REFUSED)
    let warm (src : Nat) (slot : Option Nat) (w : Quad) (x : Resets) : Resets := { x with warm := x.warm ++ [⟨src, w, slot⟩] }
    let step (c : Instr) (n : Nat) (p : List Piece) (post : State → Prop) := Completes c s (p ++ [Piece.resets, .block 1]) fun t =>
      t.get R.CLK_SHUT_STATUS F.CLK_SHUT_STATUS.STEP = n ∧ t.resets.stepAt = t.raw ∧ post t
    let done := Instr.shutdownStepDone
    (s.pfailOn = true → ∀ slot c, c ∈ [Instr.shutdown, .shutCancel, .cfgRestart slot, .fwConfirm] → refused c) ∧
    (s.pfailOn = false → (s.ctrl = 3 ∨ s.shutStep ≠ 0 → refused .shutdown) ∧
      (s.ctrl ≠ 3 → s.shutStep = 0 → step .shutdown 1 ([Piece.newImage, .block 6] ++ noted) fun t =>
        t.get R.CLK_SHUT_STATUS F.CLK_SHUT_STATUS.RESULT = 0 ∧ t.resets.shutAt = s.raw ∧ t.raw = s.raw) ∧
      (s.shutStep = 0 ∨ 5 ≤ s.shutStep → refused .shutCancel) ∧
      (s.shutStep ≠ 0 → s.shutStep < 5 →
        (s.ctrl = 2 → step .shutCancel 0 [] fun t => t.get R.CLK_SHUT_STATUS F.CLK_SHUT_STATUS.RESULT = 2) ∧
        (s.ctrl ≠ 2 → step .shutCancel 0 ([Piece.collie, .exec, .free, .head, .img, .motion, .txn, .block 4, .block 5, .block 6, .block 7,
          .block 8, .block 11, .block 14, .block 23] ++ noted) fun t => t.get R.CLK_SHUT_STATUS F.CLK_SHUT_STATUS.RESULT = 2 ∧ t.ctrl = 2 ∧
            t.get R.EXEC_STATUS F.EXEC_STATUS.STOP_CAUSE = 3))) ∧
    ((s.shutStep = 0 ∨ s.shutStep = 7 → exec done s = .next s) ∧
     (let stopped := s.ctrl = 2 ∧ s.head.safeSeal = none
      s.shutStep = 1 → (¬stopped → exec done s = .next s) ∧ (stopped → step done 2 [] fun t => t.raw = s.raw ∧ t.resets.portDone = [])) ∧
     (let sent := safeSent s = true ∧ txSettled s = true
      s.shutStep = 2 → (¬sent → exec done s = .next s) ∧
       (sent → step done 3 ([Piece.glean, .mem, .block 13] ++ noted) fun t => ∀ c, c < 4 → t.block c = none)) ∧
     (s.shutStep = 3 → step done 4 [Piece.raw, .exec, .gran, .mem, .block 13, .block 26] fun t => t.exec.cutAsked = max 2 s.exec.cutAsked ∧
       t.flag R.CLK_SHUT_STATUS F.CLK_SHUT_STATUS.FLUSH_TIMEOUT = !s.unacked.isEmpty ∧
       t.flag R.GLEAN_CTRL F.GLEAN_CTRL.EN = false ∧ (s.unacked = [] → t.raw = s.raw)) ∧
     (s.shutStep = 4 → (s.exec.cutAsked ≠ 0 → exec done s = .next s) ∧
       (s.exec.cutAsked = 0 → step done 5 ([Piece.exec, .free, .glean, .gran, .group, .joa, .latch, .mem, .stage, .txn, .block 6, .block 8, .block 22,
         .block 26] ++ noted) fun t => (∀ k, k < 32 → (t.session k).st = 0) ∧ t.exec.writing = none ∧ t.exec.waiting = none ∧
         t.exec.capture = [])) ∧
     (let next := sliceFits s ((s.reg R.BIST_PTR).toNat % 256)
      s.shutStep = 5 → (next = true → exec done s = .next s) ∧ (next = false → step done 6 [R.BIST_LAST_MS.piece, R.BIST_STATUS.piece] fun t =>
        t.reg R.BIST_LAST_MS = BitVec.ofNat 32 ((s.raw - s.resets.stepAt).toNat / 2 ^ 20) ∧
        t.get R.BIST_STATUS F.BIST_STATUS.STATE = bistEndState s)) ∧
     (s.shutStep = 6 → step done 7 noted fun t => t.get R.CLK_SHUT_STATUS F.CLK_SHUT_STATUS.RESULT = 1 ∧
       t.flag R.CLK_EVENTS F.CLK_EVENTS.SHUT_DONE = true)) ∧
    (s.pfailOn = false → ∀ slot : Fin 2,
      let may := s.ctrlStopped = true ∧ s.imageResult (2 + slot) = 1 ∧ (∀ x ∈ s.joa.xfers, x.slot < 2) ∧ s.olcState ≠ 1 ∧ s.shutStep = 0
      (may → exec (.cfgRestart slot) s = .next { s with resets := warm 6 (some (2 + slot.val)) (s.raw + 1024) s.resets }) ∧
      (¬may → refused (.cfgRestart slot))) ∧
    (let trial := s.flag R.CLK_STATUS F.CLK_STATUS.FW_TRIAL
     s.pfailOn = false → (trial = false → exec .fwConfirm s = .next s) ∧
       (trial = true → Completes .fwConfirm s ([Piece.resets, .gran, .block 1] ++ noted) fun t =>
         t.resets = { s.resets with confirmed := s.fwSlot, trialW := none } ∧ t.flag R.CLK_STATUS F.CLK_STATUS.FW_TRIAL = false ∧
         t.flag R.CLK_EVENTS F.CLK_EVENTS.FW_CONFIRMED = true)) ∧
    (s.resets.trialW = none → exec .fwTrialExpiry s = .next s) ∧
    (∀ w, s.resets.trialW = some w → Completes .fwTrialExpiry s [Piece.raw, .resets] fun t =>
      t.raw = (s.advanceTo (w + BitVec.ofNat 64 (msGrains (s.reg R.CLK_FW_TRIAL_MS).toNat))).raw ∧
      t.resets = warm 5 none t.raw { s.resets with trialW := none }) ∧
    (∀ v : Word, (v.toNat / 65536 ≠ 0x4A58 → exec (.wdogKick v) s = .next s) ∧
      (v.toNat / 65536 = 0x4A58 → Completes (.wdogKick v) s [Piece.resets] fun t =>
        let flip := s.resets.recovery = false ∧ ∀ g, s.resets.toggle = some g → msGrains 64 ≤ (s.raw - g).toNat
        (flip → t.resets = { s.resets with kick := s.raw, healthy := !s.resets.healthy, toggle := some s.raw }) ∧
        (¬flip → t.resets = { s.resets with kick := s.raw }))) ∧
    (Completes .wdogExpiry s ([Piece.raw, .resets, .block 1] ++ noted) fun t =>
      t.raw = (s.advanceTo (s.resets.kick + BitVec.ofNat 64 (msGrains (s.get R.CLK_WDOG_CFG F.CLK_WDOG_CFG.TIMEOUT_MS)))).raw ∧
      t.resets = warm 4 none t.raw { s.resets with healthy := false } ∧ t.flag R.CLK_EVENTS F.CLK_EVENTS.WDOG_RESET = true ∧
      t.reg R.CLK_WDOG_CNT = satSucc (s.reg R.CLK_WDOG_CNT))

/-! ### Chapter 18: DDR4 and the link tests -/

/-- R650, R655, R661, R662: a write of DDR_CTRL trains the memory, clears its status or is refused; training ends ready or failed; the pattern
test starts on idle memory and leaves its findings. -/
def Claim.DdrTrainsAndIsTested : Prop :=
  ∀ s : State,
    let refused : State := s.raise R.DDR_EVENTS F.DDR_EVENTS.CFG_REFUSED
    let en := s.flag R.DDR_CTRL F.DDR_CTRL.EN
    (∀ v : Word,
      let again := fldOf F.DDR_CTRL.RETRAIN v = 1
      let ok := s.ddrCfgOk v = true ∧ ¬(again ∧ s.ddrIdle = false ∧ en = true)
      (¬ok → exec (.ddrTrain v) s = .next refused) ∧
      (ok → Completes (.ddrTrain v) s [R.DDR_CTRL.piece, R.DDR_STATUS.piece] fun t => t.reg R.DDR_CTRL = v &&& 0xF ∧
        (fldOf F.DDR_CTRL.EN v = 0 → t.reg R.DDR_STATUS = 0) ∧
        (fldOf F.DDR_CTRL.EN v = 1 → en = false ∨ again → t.flag R.DDR_STATUS F.DDR_STATUS.READY = false ∧
          t.flag R.DDR_STATUS F.DDR_STATUS.TRAINING = true) ∧
        (fldOf F.DDR_CTRL.EN v = 1 → en = true → ¬again → t.reg R.DDR_STATUS = s.reg R.DDR_STATUS))) ∧
    (∀ (good : Bool) (ms : Nat),
      (s.flag R.DDR_STATUS F.DDR_STATUS.TRAINING = false → exec (.ddrTrainDone good ms) s = .next s) ∧
      (s.flag R.DDR_STATUS F.DDR_STATUS.TRAINING = true →
        Completes (.ddrTrainDone good ms) s ([R.DDR_STATUS.piece, R.DDR_TRAIN_TIME.piece, R.DDR_SIZE.piece, R.DDR_EVENTS.piece] ++ noted) fun t =>
          t.flag R.DDR_STATUS F.DDR_STATUS.TRAINING = false ∧ t.reg R.DDR_TRAIN_TIME = BitVec.ofNat 32 (min ms 65535) ∧
          t.flag R.DDR_STATUS F.DDR_STATUS.READY = good ∧ t.flag R.DDR_STATUS F.DDR_STATUS.TRAIN_FAILED = !good ∧
          (good = true → t.reg R.DDR_SIZE = BitVec.ofNat 32
            (2048 * (s.get R.DDR_CTRL F.DDR_CTRL.RANKS + 1) * 2 ^ s.get R.DDR_CTRL F.DDR_CTRL.DENSITY)) ∧
          (good = false → t.reg R.DDR_SIZE = s.reg R.DDR_SIZE ∧ t.flag R.DDR_EVENTS F.DDR_EVENTS.TRAIN_FAILED = true))) ∧
    (∀ v : Word,
      let p := fldOf F.DDR_TEST_CTRL.PATTERN v
      let ok := s.ddrIdle = true ∧ s.ddrRegionOk = true
      (¬ok → exec (.ddrTestStart v) s = .next refused) ∧
      let a := 0x100000000 + (s.reg R.DDR_TEST_BASE).toNat * 2 ^ 20
      let b := a + (s.reg R.DDR_TEST_SIZE).toNat * 2 ^ 20
      (ok → Completes (.ddrTestStart v) s [Piece.mem, R.DDR_TEST_CTRL.piece, R.DDR_STATUS.piece] fun t =>
        t.get R.DDR_TEST_CTRL F.DDR_TEST_CTRL.PATTERN = (if p = 3 then 0 else p) ∧
        t.flag R.DDR_STATUS F.DDR_STATUS.TESTING = true ∧
        (∀ x, a ≤ x → x < b → tget 0 t.mem x = 0) ∧ ∀ x, x < a ∨ b ≤ x → tget 0 t.mem x = tget 0 s.mem x)) ∧
    (∀ failing first corrected : Nat,
      let c := Instr.ddrTestDone failing first corrected
      (s.flag R.DDR_STATUS F.DDR_STATUS.TESTING = false → exec c s = .next s) ∧
      (s.flag R.DDR_STATUS F.DDR_STATUS.TESTING = true → Completes c s (.block 29 :: noted) fun t =>
        t.flag R.DDR_STATUS F.DDR_STATUS.TESTING = false ∧ t.reg R.DDR_TEST_ERR = BitVec.ofNat 32 (min failing (2 ^ 32 - 1)) ∧
        t.reg R.DDR_TEST_FIRST = (if failing = 0 then 0 else BitVec.ofNat 32 first) ∧
        (failing ≠ 0 → t.flag R.DDR_EVENTS F.DDR_EVENTS.TEST_FAIL = true) ∧
        t.reg R.DDR_CE_CNT = BitVec.ofNat 32 (min (2 ^ 32 - 1) ((s.reg R.DDR_CE_CNT).toNat + corrected)) ∧
        (corrected ≠ 0 → t.flag R.DDR_EVENTS F.DDR_EVENTS.CE = true)))

/-- R652 to R654, R657 to R659: a lane's pattern, injected errors and counts follow its writes; the PRBS checker locks and loses lock; a frame
generator starts on an idle port, sends, stops, and its checker counts good, bad and lost frames. -/
def Claim.LinkTestsFollowTheirWrites : Prop :=
  ∀ s : State,
    let refused : State := s.raise R.LINKTEST_EVENTS F.LINKTEST_EVENTS.CFG_REFUSED
    (∀ (l : Fin 8) (v : Word),
      let c := Instr.linktestCtrlWrite l v
      let r := R.LINKTEST_l_CTRL l
      let busy := l.val < 2 ∧ s.flag (R.UPLINK_p_CTRL l) F.UPLINK_p_CTRL.EN = true
      let bits (t : State) := t.reg64 (R.LINKTEST_l_BITS_LO l) (R.LINKTEST_l_BITS_HI l)
      let errs (t : State) := t.reg64 (R.LINKTEST_l_ERR_LO l) (R.LINKTEST_l_ERR_HI l)
      (busy → exec c s = .next refused) ∧
      (¬busy → Completes c s [Piece.injected, r.piece, (R.LINKTEST_l_BITS_LO l).piece, (R.LINKTEST_l_BITS_HI l).piece,
          (R.LINKTEST_l_ERR_LO l).piece, (R.LINKTEST_l_ERR_HI l).piece] fun t =>
        t.get r F.LINKTEST_l_CTRL.PATTERN = min 4 (fldOf F.LINKTEST_l_CTRL.PATTERN v) ∧
        t.get r F.LINKTEST_l_CTRL.INVERT = fldOf F.LINKTEST_l_CTRL.INVERT v ∧
        (l.val < 2 → t.get r F.LINKTEST_l_CTRL.PRBS = fldOf F.LINKTEST_l_CTRL.PRBS v ∧ t.get r F.LINKTEST_l_CTRL.LOOP =
          (if fldOf F.LINKTEST_l_CTRL.LOOP v = 3 then 0 else fldOf F.LINKTEST_l_CTRL.LOOP v)) ∧
        (2 ≤ l.val → t.get r F.LINKTEST_l_CTRL.PRBS = s.get r F.LINKTEST_l_CTRL.PRBS ∧
          t.get r F.LINKTEST_l_CTRL.LOOP = s.get r F.LINKTEST_l_CTRL.LOOP) ∧
        tget 0 t.injected l = tget 0 s.injected l + fldOf F.LINKTEST_l_CTRL.INJECT v ∧
        (fldOf F.LINKTEST_l_CTRL.CLR v = 1 → bits t = 0 ∧ errs t = 0) ∧
        (fldOf F.LINKTEST_l_CTRL.CLR v = 0 → bits t = bits s ∧ errs t = errs s)) ∧
      (let k := R.LINKTEST_l_STATUS l
       ∀ n e : Nat, (s.flag r F.LINKTEST_l_CTRL.PRBS = false → exec (.prbsLock ⟨l, n, e⟩) s = .next s) ∧
         (s.flag r F.LINKTEST_l_CTRL.PRBS = true → Completes (.prbsLock ⟨l, n, e⟩) s [k.piece, (R.LINKTEST_l_BITS_LO l).piece,
             (R.LINKTEST_l_BITS_HI l).piece, (R.LINKTEST_l_ERR_LO l).piece, (R.LINKTEST_l_ERR_HI l).piece] fun t =>
           t.flag k F.LINKTEST_l_STATUS.LOCK = true ∧ bits t = bits s + BitVec.ofNat 64 n ∧ errs t = errs s + BitVec.ofNat 64 e) ∧
         (s.flag k F.LINKTEST_l_STATUS.LOCK = false → exec (.prbsLockLost l n e) s = .next s) ∧
         (s.flag k F.LINKTEST_l_STATUS.LOCK = true → Completes (.prbsLockLost l n e) s (.block 31 :: noted) fun t =>
           t.flag k F.LINKTEST_l_STATUS.LOCK = false ∧ t.reg (R.LINKTEST_l_LOCK_CNT l) = satSucc (s.reg (R.LINKTEST_l_LOCK_CNT l)) ∧
           bits t = bits s + BitVec.ofNat 64 n ∧ errs t = errs s + BitVec.ofNat 64 e ∧
           t.flag R.LINKTEST_EVENTS F.LINKTEST_EVENTS.LOCK_LOST = true))) ∧
    (∀ f : Fin 8,
      let g := s.gen f
      (∀ v : Word,
        let startOk := s.genPortEn f = false ∧ s.genLenOk f (fldOf F.LINKTEST_f_FCTRL.LEN v) = true
        let stops := fldOf F.LINKTEST_f_FCTRL.STOP v = 1
        let starts := fldOf F.LINKTEST_f_FCTRL.START v = 1
        let n := (s.reg (R.LINKTEST_f_FCOUNT f)).toNat
        let w : List Piece := [Piece.gens, (R.LINKTEST_f_FCTRL f).piece, (R.LINKTEST_f_SENT f).piece, (R.LINKTEST_f_GOOD f).piece,
          (R.LINKTEST_f_BAD f).piece, (R.LINKTEST_f_LOST f).piece]
        (¬startOk → exec (.generatorStart f v) s = .next refused ∧ (starts → exec (.generatorStop f v) s = .next refused)) ∧
        (startOk → Completes (.generatorStart f v) s w fun t => t.gen f = ⟨decide (¬stops), if n = 0 then none else some n, 0, s.raw, none⟩ ∧
          (∀ j, j ≠ f.val → t.gen j = s.gen j)) ∧
        (¬starts → Completes (.generatorStop f v) s w fun t => t.gen f = { g with running := false } ∧ ∀ j, j ≠ f.val → t.gen j = s.gen j)) ∧
      (g.running = false ∨ s.genPortEn f = true → exec (.testFrameSend f) s = .next s) ∧
      (g.running = true → s.genPortEn f = false → Completes (.testFrameSend f) s [Piece.raw, .gens, (R.LINKTEST_f_SENT f).piece] fun t =>
        t.raw = (s.advanceTo g.dueAt).raw ∧ t.reg (R.LINKTEST_f_SENT f) = s.reg (R.LINKTEST_f_SENT f) + 1 ∧
        t.gen f = { g with running := decide (g.left ≠ some 1), left := g.left.map (· - 1), seq := (g.seq + 1) % 2 ^ 32, dueAt := t.raw +
                           BitVec.ofNat 64 (1024 * s.get (R.LINKTEST_f_FCTRL f) F.LINKTEST_f_FCTRL.GAP) }) ∧
      (∀ (seq : Nat) (good : Bool),
        let c := Instr.testFrameRx f seq good
        let lost := seqGap f g.expect seq
        let check := s.flag (R.LINKTEST_f_FCTRL f) F.LINKTEST_f_FCTRL.CHECK
        (check = false → exec c s = .next s) ∧
        (check = true → good = true → Completes c s ([Piece.gens, (R.LINKTEST_f_GOOD f).piece, (R.LINKTEST_f_LOST f).piece,
            R.LINKTEST_EVENTS.piece] ++ noted) fun t =>
          t.gen f = { g with expect := some ((seq + 1) % 2 ^ 32) } ∧
          t.reg (R.LINKTEST_f_GOOD f) = satSucc (s.reg (R.LINKTEST_f_GOOD f)) ∧
          t.reg (R.LINKTEST_f_LOST f) = BitVec.ofNat 32 (min (2 ^ 32 - 1) ((s.reg (R.LINKTEST_f_LOST f)).toNat + lost)) ∧
          (lost ≠ 0 → t.flag R.LINKTEST_EVENTS F.LINKTEST_EVENTS.FRAME_BAD = true)) ∧
        (check = true → good = false → Completes c s ([Piece.gens, (R.LINKTEST_f_BAD f).piece, R.LINKTEST_EVENTS.piece] ++ noted) fun t =>
          t.gen f = { g with expect := g.expect.map fun e => (e + 1) % 2 ^ 32 } ∧
          t.reg (R.LINKTEST_f_BAD f) = satSucc (s.reg (R.LINKTEST_f_BAD f)) ∧
          t.flag R.LINKTEST_EVENTS F.LINKTEST_EVENTS.FRAME_BAD = true)))

/-- DDR4 and the link tests. -/
def Obligations.DdrAndLinkTestsAct : Prop :=
  Claim.DdrTrainsAndIsTested ∧ Claim.LinkTestsFollowTheirWrites

/-! ### Whole-machine statements -/

/-- R31, R32, R45, R120, R160, R166: where the commands of a cycle complete: a headland falls, its image is sealed, reaches pins and
converters, its tasks become ready, and a release's journal and actions take effect. -/
def Claim.CycleCommandsComplete : Prop :=
  ∀ s : State,
    let runs (c : Instr) (post : State → Prop) : Prop := ∃ t, exec c s = .next t ∧ post t
    (s.head.armed = true → runs .headland fun t => t.headRaw = t.raw ∧ t.headV = BitVec.ofInt 64 s.head.nextActual ∧
      t.head.nextB = s.head.nextB + 1) ∧
    (s.head.sealDue = true → s.head.safeSeal = none → runs .liveImageSeal fun t => t.img.sealed = s.img.live ∧ t.head.sealDue = false) ∧
    (s.head.switchDue = true → s.headlandServed = true → s.head.safeSeal = none → s.head.safeSwitch = none →
      runs .outputSwitch fun t => t.head.switchDue = false ∧
        ∀ i, i < 192 → s.drivenPin i = true → tget 0 t.img.balls i = tget 0 s.img.sealed i) ∧
    (s.head.dacDue = true → s.head.sealDue = false → s.head.safeSeal = none → s.head.safeDac = none →
      runs .dacLoad fun t => t.head.dacDue = false ∧
        ∀ n, n < 32 → t.reg (R.DAC_n_CODE n) = BitVec.ofNat 32 (min 65535 (dacCode s.img.sealed n))) ∧
    (∀ (n : Nat) (d : TaskDesc), s.head.tasksDue = true → s.head.sealDue = false → s.ctrlRunning = true → s.standby = false → (n, d) ∈ s.image.tasks →
      s.desc n = d → d.kind = 1 → d.cls < 4 → d.home < 4 → natBit s.head.classDue d.cls = true → s.taskEnabled n = true →
      (s.task n).st = 0 → n ∉ s.collie.cancels.2 → runs .tasksReady fun t => t.head.tasksDue = false ∧ (t.task n).st = 1) ∧
    (∀ (p : Fin 4) (i : Nat) (r : Release), firstRelease s p (fun x => !x.folded) = some (i, r) → runs (.journalFold p) fun t =>
      let c := if r.cyclic then r.cls else 0
      tget [] t.img.shadow c = r.journal.foldl (fun m e => imgWrite m e.point e.ty e.value) (tget [] s.img.shadow c)) ∧
    (∀ (p : Fin 4) (i : Nat) (r : Release), firstRelease s p (fun x => !x.released) = some (i, r) → r.actions = [] → r.flow = none →
      r.folded = true → (∀ x ∈ s.releases p, (x.folded && x.released) = false) → runs (.releaseActions p) fun t =>
        t.releases p = (s.releases p).eraseIdx i)

/-- R168, R172, R176, R178, R182, R184: where Collie's commands complete: a delay expires, a post makes a task ready, a cancel takes work
away, a core is fenced and retested, an error of a descriptor is told. -/
def Claim.CollieCommandsComplete : Prop :=
  ∀ s : State,
    let runs (c : Instr) (post : State → Prop) : Prop := ∃ t, exec c s = .next t ∧ post t
    (∀ x : Quad, nextExpiry s = some x → runs .delayExpiry fun t =>
      ∀ n, n < 16 → tget [] t.collie.delays n = (tget [] s.collie.delays n).filter fun y => y.expiry ≠ x) ∧
    (∀ n : Fin 4096, oldWaiter s n = none → (s.desc n).kind = 2 → s.ctrlStopped = false → s.taskEnabled n = true →
      s.collie.poolUsed < 8192 → (s.task n).st = 0 → s.cancelledIn n s.raw = false → runs (.hostPost n) fun t => (t.task n).st = 1) ∧
    (∀ (x : HwPost) (rest : List HwPost), s.collie.hwPosts = x :: rest → (s.desc x.desc).kind = 2 → oldWaiter s x.desc = none → s.ctrlStopped = false →
      s.taskEnabled x.desc = true → s.collie.poolUsed < 8192 → (s.task x.desc).st = 0 → s.cancelledIn x.desc s.raw = false →
      runs .hardwarePost fun t => t.collie.hwPosts = rest ∧ (t.task x.desc).st = 1) ∧
    (∀ n : Fin 4096, (s.desc n).kind = 1 ∨ (s.desc n).kind = 2 → runs (.hostCancel n) fun t => (t.task n).queue = []) ∧
    (∀ f : Fin 512, (∃ it ∈ (s.flow f).items, it.seq = (s.reg R.COLLIE_CMD_SEQ).toNat) →
      ((s.flow f).items.map fun it => it.seq).Nodup → runs (.cancelItem f) fun t =>
        ∀ it ∈ (t.flow f).items, it.seq = (s.reg R.COLLIE_CMD_SEQ).toNat → it.st = .empty) ∧
    (∀ (k : Fin 36) (cause : Nat), s.role k ≠ 2 → cause < 8 → runs (.coreFenced k cause) fun t => t.role k = 2 ∧ t.run k = none) ∧
    (∀ k : Fin 36, (s.role k ≠ 2 → runs (.fence k) fun t => t.role k = 2 ∧ t.run k = none) ∧
      (s.role k = 2 → s.get (R.PLOT_k_CORE_STATUS k) F.PLOT_k_CORE_STATUS.FENCE_COUNT = 1 → runs (.retest k) fun t => t.role k = 3) ∧
      (s.role k = 3 → s.run k = none → runs (.retestDone k true) fun t => (t.core k).heel = true)) ∧
    (∀ (d : Fin 4096) (w : Fin 5), w ≠ 4 → runs (.descError d w) fun t => t.flag R.COLLIE_EVENTS F.COLLIE_EVENTS.DESC_ERROR = true)

/-- R304 to R308, R310, R311, R325: where the gleaner's commands complete: values and edges are recorded, blocks close and are copied. -/
def Claim.GleanerCommandsComplete : Prop :=
  ∀ s : State, s.gleanOn = true → s.gleanFlag F.GLEAN_STATUS.HALTED = false →
    let runs (c : Instr) (post : State → Prop) : Prop := ∃ t, exec c s = .next t ∧ post t
    let room (k : Nat) : Prop := ∃ b, s.block k = some b ∧ b.bytes.length + 32 ≤ 4064
    (∀ (n : Nat) (c : SigCfg) (v : Quad) (q : Nat), s.head.gleanDue = true → s.glean.sigs = [(n, c)] → 0 < c.kind → c.kind < 5 → c.edge = false → s.headIndex % c.div = 0 →
      signalRead s c = some (v, q) → (s.sigState n).last = none → room c.cls → runs .gleanSample fun t =>
        (t.sigState n).last = some (v, q) ∧ (t.sigState n).tag = s.headV) ∧
    (∀ (n : Fin 16384) (level : Bool) (tag : Quad), (s.sig n).edge = true → (s.sig n).kind = 1 → tooSoon s n tag = false →
      room (s.sig n).cls → runs (.gleanEdge n level tag) fun t =>
        (t.sigState n).last = some (wrBool level, 1) ∧ (t.sigState n).tag = tag) ∧
    (∀ (n : Fin 16384) (v w tag : Quad) (q : Nat), (s.sigState n).heldEdge = some (v, tag) → (s.sigState n).last = some (w, q) → v ≠ w →
      room (s.sig n).cls → runs (.gleanHoldEnd n) fun t => (t.sigState n).last = some (v, q) ∧ (t.sigState n).heldEdge = none) ∧
    (∀ (k : Fin 4) (b : Block), s.block k = some b → runs (.blockTimeClose k) fun t => t.block k = none) ∧
    (∀ k : Fin 4, gapDue s k = true → room 0 → runs (.gapRecord k) fun t => (t.loss k).lastGap = s.vT64 ∨ t.loss k = Loss.none_) ∧
    (∀ (b : Block) (rest : List Block), s.spoolOn = true → s.glean.waiting = b :: rest → s.glean.spool.length < s.spoolSize → runs (.spoolCopy .copied) fun t =>
      t.glean.waiting = rest ∧ t.glean.spool = s.glean.spool ++ [{ b with place := s.glean.spoolNext }]) ∧
    (∀ (k : Fin 3) (v : Quad), let n := (s.reg R.GLEAN_SIG_SEL).toNat % 16384
      (s.sigWritten n).kind ≠ 0 → (s.sigWritten n).kind ≠ 6 → runs (.gleanSigWrite k v) fun t =>
        k = 0 → (t.sigWritten n).deadband = v)

/-- R335, R342, R347, R349, R351, R354 to R357, R361, R369: where the commands of axes and choppers complete. -/
def Claim.MotionCommandsComplete : Prop :=
  ∀ (n : Fin 64) (c : Fin 24) (b : Bool) (v : Word) (s : State),
    let runs (i : Instr) (post : State → Prop) : Prop := ∃ t, exec i s = .next t ∧ post t
    let en := fldOf F.AXIS_n_CTRL.EN v = 1
    (en → s.axState n = 0 → runs (.axisCtrlWrite n v) fun t => t.axState n = 1) ∧
    (en → s.axState n = 5 → runs (.faultClr n v) fun t => t.axState n = 1) ∧
    runs (.axisLimitWrite n .accel (v.setWidth 64)) (fun t => t.reg (R.AXIS_n_ACCEL n) = v) ∧
    (v &&& 0xFFFFFF = 0xFFFFFF → runs (.axisPinsWrite n v) fun t => t.reg (R.AXIS_n_PINS n) = v &&& 0xFFFFFF) ∧
    (s.limitActive n true = true → 0 < (drillNow n s).vel n → runs (.hardLimit n true) fun t => t.axState n = 5) ∧
    (∀ h : Homing, ((drillNow n s).axis n).homing = some h → h.phase = .index → runs (.homeInput n true) fun t =>
      ∃ h', (t.axis n).homing = some h' ∧ h'.latch = (drillNow n s).pos n) ∧
    (∀ g : Quad, runs (.drillStep n g) (fun t => t.raw = (s.advanceTo g).raw) ∧
      runs (.profileTick n g) fun t => t.raw = (s.advanceTo (tickFrom g)).raw) ∧
    runs (.encoderTransition n) (fun t => t.flag (R.ENC_m_STATUS n) F.ENC_m_STATUS.LEVEL_A =
      (decide (fldOf F.ENC_m_CFG.PIN_A (s.reg (R.ENC_m_CFG n)) < 192) && s.level (fldOf F.ENC_m_CFG.PIN_A (s.reg (R.ENC_m_CFG n))))) ∧
    (s.phase c b = 2 → runs (.chopTrip c b false) fun t =>
      t.phase c b = if fldOf F.CHOP_c_TIMING.FAST_16 (s.reg (R.CHOP_c_TIMING c)) = 0 then 4 else 3) ∧
    (s.phase c b = 1 → runs (.chopBlankEnd c b) fun t => t.phase c b = 2) ∧
    (s.phase c b = 3 → runs (.chopFastEnd c b) fun t => t.phase c b = 4) ∧
    (s.phase c b = 4 → runs (.chopSlowEnd c b) fun t => t.phase c b = 4 ∨ t.phase c b = 1) ∧
    (s.phase c b = 2 → 16 ≤ s.chopCode c b → s.get (R.CHOP_c_OPEN_CFG c) F.CHOP_c_OPEN_CFG.OPEN_TICKS ≠ 0 → runs (.open c b) fun t =>
      t.flag (R.CHOP_c_EVENTS c) (if b then F.CHOP_c_EVENTS.OPEN_B else F.CHOP_c_EVENTS.OPEN_A) = true) ∧
    (fldOf F.CHOP_c_CURRENT.REST_DELAY (s.chopCurrent c) ≠ 0 → (s.chop c).ramped = none → runs (.restRamp c) fun t =>
      t.raw = (s.advanceTo ((s.axis (c.val / 6 * 16 + c.val % 6)).lastStep +
        BitVec.ofNat 64 (msGrains (4 * fldOf F.CHOP_c_CURRENT.REST_DELAY (s.chopCurrent c))))).raw) ∧
    runs (.chopCtrlWrite c v) (fun t => t.reg (R.CHOP_c_CTRL c) = v &&& 3) ∧
    runs (.chopCfgWrite c .current v) (fun t => t.reg (R.CHOP_c_CURRENT c) = v)

/-- Every command has an effect in every state, and leaves the queue of waiting commands as it is; where the commands of a cycle, of Collie,
of the gleaner and of motion have their own effect. -/
def Obligations.EveryCommandCompletesAndKeepsTheQueue : Prop :=
  (∀ (c : Instr) (s : State), ∃ t, exec c s = .next t ∧ t.pending = s.pending) ∧
    Claim.CycleCommandsComplete ∧ Claim.CollieCommandsComplete ∧ Claim.GleanerCommandsComplete ∧ Claim.MotionCommandsComplete

/-- Memory stays in its one canonical form: a step of a canonical memory leaves a canonical one. -/
def Obligations.EveryStepKeepsMemoryCanonical : Prop :=
  ∀ s t : State, Memory.wf s.mem = true → step s = .next t → Memory.wf t.mem = true

/-- R565, R566, R573: what OTP holds is there for good: a step keeps the hash of a programmed root slot, a blown revoke fuse, the RETIRED fuse
and the serial number, and never lowers C_otp. -/
def Obligations.EveryStepKeepsTheFuses : Prop :=
  ∀ s t : State, step s = .next t →
    (∀ lms n h, s.rootHolds lms n h → t.rootHolds lms n h) ∧ (∀ lms n, s.rootRevoked lms n → t.rootRevoked lms n) ∧
    (s.sec.retired = true → t.sec.retired = true) ∧ s.sec.cOtp ≤ t.sec.cOtp ∧ t.sec.serial = s.sec.serial

/-- Bytes written to memory are read back, and no other byte changes. -/
def Obligations.MemoryReadsBackWhatIsWritten : Prop :=
  ∀ (s : State) (a : Nat) (l : List Byte),
    (s.memWrite a l).memRead a l.length = l ∧
    (∀ b n, b + n ≤ a ∨ a + l.length ≤ b → (s.memWrite a l).memRead b n = s.memRead b n) ∧
    (Memory.wf s.mem = true → Memory.wf (s.memWrite a l).mem = true) ∧ Keeps [Piece.mem] s (s.memWrite a l)

/-- R44, R122, R436, R621: the block right after reset: nothing waits, every register has its reset value (those that the spec gives, HEAD_PERIOD
and the watchdog's time among them; the others by the assumption log), the controller is STOPPED, no session is open, memory lists nothing, and
the canonical forms hold. -/
def Obligations.ResetLeavesTheResetValues : Prop :=
  let s := State.reset
  s.pending = [] ∧ (∀ r : Reg, s.reg r = r.reset) ∧ s.reg R.HEAD_PERIOD = 1024 ∧ s.get R.CLK_WDOG_CFG F.CLK_WDOG_CFG.TIMEOUT_MS = 1000 ∧
    s.ctrl = 0 ∧ s.headRun = false ∧ s.raw = 0 ∧ (∀ k, (s.session k).st = 0) ∧ (∀ k, s.run k = none) ∧ (∀ i, s.imageFile i = none) ∧
    (∀ a, tget 0 s.mem a = 0) ∧ Memory.wf s.mem = true ∧ s.regsWf = true ∧ (∀ lms n h, ¬s.rootHolds lms n h) ∧
    ∀ lms n, ¬s.rootRevoked lms n
end

