-- ==== Sys2Proof/Laws/Tbl.lean ====
section
/-! SUPPORT. Tables: what a read after a write gives, and that a write keeps the canonical form. -/

namespace Sys2Proof.Machine

variable {α : Type} {d : α}

theorem tget_tput_self (i : Nat) (v : α) : ∀ t : Tbl α, tget d (tput t i v) i = v
  | [] => by simp [tput, tget]
  | (k, w) :: t => by
    unfold tput
    split
    · simp [tget]
    · split
      · simp [tget]
      · next h _ => simp [tget, h, tget_tput_self i v t]

theorem tget_tput_ne {i j : Nat} (v : α) (h : j ≠ i) : ∀ t : Tbl α, tget d (tput t i v) j = tget d t j
  | [] => by simp [tput, tget, h]
  | (k, w) :: t => by
    unfold tput
    split
    · next e => subst e; simp [tget, h]
    · split
      · simp [tget, h]
      · simp only [tget, tget_tput_ne v h t]

theorem tget_filter_self (i : Nat) : ∀ t : Tbl α, tget d (t.filter fun e => e.1 ≠ i) i = d
  | [] => rfl
  | (k, w) :: t => by
    by_cases h : k = i
    · simpa [h] using tget_filter_self i t
    · have : i ≠ k := fun e => h e.symm
      simpa [h, tget, this] using tget_filter_self i t

theorem tget_filter_ne {i j : Nat} (h : j ≠ i) : ∀ t : Tbl α, tget d (t.filter fun e => e.1 ≠ i) j = tget d t j
  | [] => rfl
  | (k, w) :: t => by
    have ih := tget_filter_ne h t
    by_cases e : k = i
    · have : j ≠ k := fun x => h (x.trans e)
      simpa [e, tget, this, h] using ih
    · by_cases g : j = k
      · simp [e, g, tget]
      · simpa [e, tget, g] using ih

variable [DecidableEq α]

/-- A read of the key written gives the value written. -/
@[simp] theorem tget_tset_self (i : Nat) (v : α) (t : Tbl α) : tget d (tset d t i v) i = v := by
  unfold tset
  split
  · next e => rw [e]; exact tget_filter_self i t
  · exact tget_tput_self i v t

/-- A read of another key gives what it gave. -/
theorem tget_tset_ne {i j : Nat} (v : α) (h : j ≠ i) (t : Tbl α) : tget d (tset d t i v) j = tget d t j := by
  unfold tset
  split
  · exact tget_filter_ne h t
  · exact tget_tput_ne v h t

theorem twfFrom_mono {lo lo' : Nat} (h : lo' ≤ lo) : ∀ {t : Tbl α}, twfFrom d lo t = true → twfFrom d lo' t = true
  | [], _ => rfl
  | (k, v) :: t, ht => by
    simp only [twfFrom, Bool.and_eq_true, decide_eq_true_eq] at ht ⊢
    exact ⟨⟨by omega, ht.1.2⟩, ht.2⟩

theorem twfFrom_tput {i lo : Nat} {v : α} (hv : v ≠ d) (hi : lo ≤ i) :
    ∀ {t : Tbl α}, twfFrom d lo t = true → twfFrom d lo (tput t i v) = true
  | [], _ => by simp [tput, twfFrom, hv, hi]
  | (k, w) :: t, ht => by
    simp only [twfFrom, Bool.and_eq_true, decide_eq_true_eq] at ht
    unfold tput
    split
    · next e => subst e; simp [twfFrom, hv, hi, ht.2]
    · split
      · next h => simp only [twfFrom, Bool.and_eq_true, decide_eq_true_eq]; exact ⟨⟨hi, hv⟩, ⟨by omega, ht.1.2⟩, ht.2⟩
      · next h1 h2 =>
        simp only [twfFrom, Bool.and_eq_true, decide_eq_true_eq]
        exact ⟨ht.1, twfFrom_tput hv (by omega) ht.2⟩

theorem twfFrom_filter (p : Nat × α → Bool) : ∀ {lo : Nat} {t : Tbl α}, twfFrom d lo t = true → twfFrom d lo (t.filter p) = true
  | _, [], _ => rfl
  | lo, (k, w) :: t, ht => by
    simp only [twfFrom, Bool.and_eq_true, decide_eq_true_eq] at ht
    have ih := twfFrom_filter p ht.2
    by_cases h : p (k, w) = true
    · simp only [List.filter_cons_of_pos h, twfFrom, Bool.and_eq_true, decide_eq_true_eq]
      exact ⟨ht.1, ih⟩
    · simp only [List.filter_cons_of_neg h]
      exact twfFrom_mono (by omega) ih

/-- A write keeps the canonical form. -/
theorem twf_tset {t : Tbl α} (i : Nat) (v : α) (h : twf d t = true) : twf d (tset d t i v) = true := by
  unfold tset
  split
  · exact twfFrom_filter _ h
  · next hv => exact twfFrom_tput hv (Nat.zero_le _) h

/-- Removing entries keeps the canonical form. -/
theorem twf_filter {t : Tbl α} (p : Nat × α → Bool) (h : twf d t = true) : twf d (t.filter p) = true := twfFrom_filter p h

end Sys2Proof.Machine
end

