-- ==== Sys2Proof/Laws/State.lean ====
section
/-! SUPPORT. Registers: what a read gives after each base operation. -/

namespace Sys2Proof.Machine

@[simp] theorem State.reg_setReg_self (s : State) (r : Reg) (v : Word) : (s.setReg r v).reg r = v := by
  simp [State.reg, State.setReg, BitVec.xor_assoc]

theorem State.reg_setReg_ne (s : State) {r q : Reg} (v : Word) (h : q.addr ≠ r.addr) : (s.setReg r v).reg q = s.reg q := by
  simp [State.reg, State.setReg, tget_tset_ne _ h]

end Sys2Proof.Machine
end

