-- ==== Sys2Proof/Laws/Keeps.lean ====
section
/-! SUPPORT. What an operation leaves unchanged. Every law "f_keeps" has the same form: where t agrees with s outside the parts w and w
holds the parts that f may write, f of t agrees with s outside w. -/

namespace Sys2Proof.Machine

/-- Every part of the first list is in the second. -/
def Within (l w : List Piece) : Prop := (l.all fun p => w.contains p) = true

theorem Within.mem {l w : List Piece} {p : Piece} (h : Within l w) (hp : p ∈ l) : p ∈ w := by
  simpa using List.all_eq_true.mp h p hp

theorem Within.head {l w : List Piece} {p : Piece} (h : Within (p :: l) w) : p ∈ w := h.mem (by simp)

theorem Within.tail {l w : List Piece} {p : Piece} (h : Within (p :: l) w) : Within l w := by
  simp only [Within, List.all_cons, Bool.and_eq_true] at h ⊢; exact h.2

/-- What lies within a part of w lies within w. -/
theorem Within.sub {l m w : List Piece} (h : Within m w) (h' : Within l m) : Within l w :=
  List.all_eq_true.mpr fun p hp => by simpa using h.mem (h'.mem hp)

theorem Keeps.refl (w : List Piece) (s : State) : Keeps w s s := by constructor <;> intros <;> rfl

variable {w : List Piece} {s t u : State}

/-- A part of the list may hold anything. -/
theorem Keeps.mono {w' : List Piece} (hw : Within w w') (h : Keeps w s t) : Keeps w' s t where
  pending hn := h.pending fun x => hn (hw.mem x)
  raw hn := h.raw fun x => hn (hw.mem x)
  head hn := h.head fun x => hn (hw.mem x)
  evlog hn := h.evlog fun x => hn (hw.mem x)
  free hn := h.free fun x => hn (hw.mem x)
  readData hn := h.readData fun x => hn (hw.mem x)
  latch hn := h.latch fun x => hn (hw.mem x)
  group hn := h.group fun x => hn (hw.mem x)
  stage hn := h.stage fun x => hn (hw.mem x)
  gens hn := h.gens fun x => hn (hw.mem x)
  injected hn := h.injected fun x => hn (hw.mem x)
  image hn := h.image fun x => hn (hw.mem x)
  oldImage hn := h.oldImage fun x => hn (hw.mem x)
  newImage hn := h.newImage fun x => hn (hw.mem x)
  collie hn := h.collie fun x => hn (hw.mem x)
  txn hn := h.txn fun x => hn (hw.mem x)
  exec hn := h.exec fun x => hn (hw.mem x)
  img hn := h.img fun x => hn (hw.mem x)
  inputs hn := h.inputs fun x => hn (hw.mem x)
  quals hn := h.quals fun x => hn (hw.mem x)
  ages hn := h.ages fun x => hn (hw.mem x)
  pulses hn := h.pulses fun x => hn (hw.mem x)
  field hn := h.field fun x => hn (hw.mem x)
  motion hn := h.motion fun x => hn (hw.mem x)
  analog hn := h.analog fun x => hn (hw.mem x)
  mem hn := h.mem fun x => hn (hw.mem x)
  capture hn := h.capture fun x => hn (hw.mem x)
  glean hn := h.glean fun x => hn (hw.mem x)
  gran hn := h.gran fun x => hn (hw.mem x)
  slots hn := h.slots fun x => hn (hw.mem x)
  ptp hn := h.ptp fun x => hn (hw.mem x)
  farm hn := h.farm fun x => hn (hw.mem x)
  island hn := h.island fun x => hn (hw.mem x)
  resets hn := h.resets fun x => hn (hw.mem x)
  joa hn := h.joa fun x => hn (hw.mem x)
  sec hn := h.sec fun x => hn (hw.mem x)
  regs a hn hb hr := h.regs a (fun x => hn (hw.mem x)) (fun x => hb (hw.mem x)) fun x => hr (hw.mem x)

theorem Keeps.trans (h : Keeps w s t) (h' : Keeps w t u) : Keeps w s u where
  pending hn := (h'.pending hn).trans (h.pending hn)
  raw hn := (h'.raw hn).trans (h.raw hn)
  head hn := (h'.head hn).trans (h.head hn)
  evlog hn := (h'.evlog hn).trans (h.evlog hn)
  free hn := (h'.free hn).trans (h.free hn)
  readData hn := (h'.readData hn).trans (h.readData hn)
  latch hn := (h'.latch hn).trans (h.latch hn)
  group hn := (h'.group hn).trans (h.group hn)
  stage hn := (h'.stage hn).trans (h.stage hn)
  gens hn := (h'.gens hn).trans (h.gens hn)
  injected hn := (h'.injected hn).trans (h.injected hn)
  image hn := (h'.image hn).trans (h.image hn)
  oldImage hn := (h'.oldImage hn).trans (h.oldImage hn)
  newImage hn := (h'.newImage hn).trans (h.newImage hn)
  collie hn := (h'.collie hn).trans (h.collie hn)
  txn hn := (h'.txn hn).trans (h.txn hn)
  exec hn := (h'.exec hn).trans (h.exec hn)
  img hn := (h'.img hn).trans (h.img hn)
  inputs hn := (h'.inputs hn).trans (h.inputs hn)
  quals hn := (h'.quals hn).trans (h.quals hn)
  ages hn := (h'.ages hn).trans (h.ages hn)
  pulses hn := (h'.pulses hn).trans (h.pulses hn)
  field hn := (h'.field hn).trans (h.field hn)
  motion hn := (h'.motion hn).trans (h.motion hn)
  analog hn := (h'.analog hn).trans (h.analog hn)
  mem hn := (h'.mem hn).trans (h.mem hn)
  capture hn := (h'.capture hn).trans (h.capture hn)
  glean hn := (h'.glean hn).trans (h.glean hn)
  gran hn := (h'.gran hn).trans (h.gran hn)
  slots hn := (h'.slots hn).trans (h.slots hn)
  ptp hn := (h'.ptp hn).trans (h.ptp hn)
  farm hn := (h'.farm hn).trans (h.farm hn)
  island hn := (h'.island hn).trans (h.island hn)
  resets hn := (h'.resets hn).trans (h.resets hn)
  joa hn := (h'.joa hn).trans (h.joa hn)
  sec hn := (h'.sec hn).trans (h.sec hn)
  regs a hn hb hr := (h'.regs a hn hb hr).trans (h.regs a hn hb hr)

/-! ### Fields -/

theorem Keeps.set_ages (hw : Within [.ages] w) (h : Keeps w s t) {x0} :
    Keeps w s { t with ages := x0 } :=
  { h with ages := fun n => absurd hw.head n }

theorem Keeps.set_analog (hw : Within [.analog] w) (h : Keeps w s t) {x0} :
    Keeps w s { t with analog := x0 } :=
  { h with analog := fun n => absurd hw.head n }

theorem Keeps.set_capture (hw : Within [.capture] w) (h : Keeps w s t) {x0} :
    Keeps w s { t with capture := x0 } :=
  { h with capture := fun n => absurd hw.head n }

theorem Keeps.set_collie (hw : Within [.collie] w) (h : Keeps w s t) {x0} :
    Keeps w s { t with collie := x0 } :=
  { h with collie := fun n => absurd hw.head n }

theorem Keeps.set_evlog (hw : Within [.evlog] w) (h : Keeps w s t) {x0} :
    Keeps w s { t with evlog := x0 } :=
  { h with evlog := fun n => absurd hw.head n }

theorem Keeps.set_exec (hw : Within [.exec] w) (h : Keeps w s t) {x0} :
    Keeps w s { t with exec := x0 } :=
  { h with exec := fun n => absurd hw.head n }

theorem Keeps.set_farm (hw : Within [.farm] w) (h : Keeps w s t) {x0} :
    Keeps w s { t with farm := x0 } :=
  { h with farm := fun n => absurd hw.head n }

theorem Keeps.set_field (hw : Within [.field] w) (h : Keeps w s t) {x0} :
    Keeps w s { t with field := x0 } :=
  { h with field := fun n => absurd hw.head n }

theorem Keeps.set_free (hw : Within [.free] w) (h : Keeps w s t) {x0} :
    Keeps w s { t with free := x0 } :=
  { h with free := fun n => absurd hw.head n }

theorem Keeps.set_gens (hw : Within [.gens] w) (h : Keeps w s t) {x0} :
    Keeps w s { t with gens := x0 } :=
  { h with gens := fun n => absurd hw.head n }

theorem Keeps.set_glean (hw : Within [.glean] w) (h : Keeps w s t) {x0} :
    Keeps w s { t with glean := x0 } :=
  { h with glean := fun n => absurd hw.head n }

theorem Keeps.set_gran (hw : Within [.gran] w) (h : Keeps w s t) {x0} :
    Keeps w s { t with gran := x0 } :=
  { h with gran := fun n => absurd hw.head n }

theorem Keeps.set_group (hw : Within [.group] w) (h : Keeps w s t) {x0} :
    Keeps w s { t with group := x0 } :=
  { h with group := fun n => absurd hw.head n }

theorem Keeps.set_head (hw : Within [.head] w) (h : Keeps w s t) {x0} :
    Keeps w s { t with head := x0 } :=
  { h with head := fun n => absurd hw.head n }

theorem Keeps.set_image (hw : Within [.image] w) (h : Keeps w s t) {x0} :
    Keeps w s { t with image := x0 } :=
  { h with image := fun n => absurd hw.head n }

theorem Keeps.set_img (hw : Within [.img] w) (h : Keeps w s t) {x0} :
    Keeps w s { t with img := x0 } :=
  { h with img := fun n => absurd hw.head n }

theorem Keeps.set_injected (hw : Within [.injected] w) (h : Keeps w s t) {x0} :
    Keeps w s { t with injected := x0 } :=
  { h with injected := fun n => absurd hw.head n }

theorem Keeps.set_inputs (hw : Within [.inputs] w) (h : Keeps w s t) {x0} :
    Keeps w s { t with inputs := x0 } :=
  { h with inputs := fun n => absurd hw.head n }

theorem Keeps.set_island (hw : Within [.island] w) (h : Keeps w s t) {x0} :
    Keeps w s { t with island := x0 } :=
  { h with island := fun n => absurd hw.head n }

theorem Keeps.set_joa (hw : Within [.joa] w) (h : Keeps w s t) {x0} :
    Keeps w s { t with joa := x0 } :=
  { h with joa := fun n => absurd hw.head n }

theorem Keeps.set_latch (hw : Within [.latch] w) (h : Keeps w s t) {x0} :
    Keeps w s { t with latch := x0 } :=
  { h with latch := fun n => absurd hw.head n }

theorem Keeps.set_mem (hw : Within [.mem] w) (h : Keeps w s t) {x0} :
    Keeps w s { t with mem := x0 } :=
  { h with mem := fun n => absurd hw.head n }

theorem Keeps.set_motion (hw : Within [.motion] w) (h : Keeps w s t) {x0} :
    Keeps w s { t with motion := x0 } :=
  { h with motion := fun n => absurd hw.head n }

theorem Keeps.set_newImage (hw : Within [.newImage] w) (h : Keeps w s t) {x0} :
    Keeps w s { t with newImage := x0 } :=
  { h with newImage := fun n => absurd hw.head n }

theorem Keeps.set_oldImage (hw : Within [.oldImage] w) (h : Keeps w s t) {x0} :
    Keeps w s { t with oldImage := x0 } :=
  { h with oldImage := fun n => absurd hw.head n }

theorem Keeps.set_pending (hw : Within [.pending] w) (h : Keeps w s t) {x0} :
    Keeps w s { t with pending := x0 } :=
  { h with pending := fun n => absurd hw.head n }

theorem Keeps.set_ptp (hw : Within [.ptp] w) (h : Keeps w s t) {x0} :
    Keeps w s { t with ptp := x0 } :=
  { h with ptp := fun n => absurd hw.head n }

theorem Keeps.set_pulses (hw : Within [.pulses] w) (h : Keeps w s t) {x0} :
    Keeps w s { t with pulses := x0 } :=
  { h with pulses := fun n => absurd hw.head n }

theorem Keeps.set_quals (hw : Within [.quals] w) (h : Keeps w s t) {x0} :
    Keeps w s { t with quals := x0 } :=
  { h with quals := fun n => absurd hw.head n }

theorem Keeps.set_raw (hw : Within [.raw] w) (h : Keeps w s t) {x0} :
    Keeps w s { t with raw := x0 } :=
  { h with raw := fun n => absurd hw.head n }

theorem Keeps.set_readData (hw : Within [.readData] w) (h : Keeps w s t) {x0} :
    Keeps w s { t with readData := x0 } :=
  { h with readData := fun n => absurd hw.head n }

theorem Keeps.set_resets (hw : Within [.resets] w) (h : Keeps w s t) {x0} :
    Keeps w s { t with resets := x0 } :=
  { h with resets := fun n => absurd hw.head n }

theorem Keeps.set_sec (hw : Within [.sec] w) (h : Keeps w s t) {x0} :
    Keeps w s { t with sec := x0 } :=
  { h with sec := fun n => absurd hw.head n }

theorem Keeps.set_slots (hw : Within [.slots] w) (h : Keeps w s t) {x0} :
    Keeps w s { t with slots := x0 } :=
  { h with slots := fun n => absurd hw.head n }

theorem Keeps.set_stage (hw : Within [.stage] w) (h : Keeps w s t) {x0} :
    Keeps w s { t with stage := x0 } :=
  { h with stage := fun n => absurd hw.head n }

theorem Keeps.set_txn (hw : Within [.txn] w) (h : Keeps w s t) {x0} :
    Keeps w s { t with txn := x0 } :=
  { h with txn := fun n => absurd hw.head n }

theorem Keeps.set_collie_pulses (hw : Within [.collie, .pulses] w) (h : Keeps w s t) {x0} {x1} :
    Keeps w s { t with collie := x0, pulses := x1 } :=
  { h with collie := fun n => absurd hw.head n, pulses := fun n => absurd hw.tail.head n }

theorem Keeps.set_collie_txn (hw : Within [.collie, .txn] w) (h : Keeps w s t) {x0} {x1} :
    Keeps w s { t with collie := x0, txn := x1 } :=
  { h with collie := fun n => absurd hw.head n, txn := fun n => absurd hw.tail.head n }

theorem Keeps.set_exec_gran (hw : Within [.exec, .gran] w) (h : Keeps w s t) {x0} {x1} :
    Keeps w s { t with exec := x0, gran := x1 } :=
  { h with exec := fun n => absurd hw.head n, gran := fun n => absurd hw.tail.head n }

theorem Keeps.set_free_readData (hw : Within [.free, .readData] w) (h : Keeps w s t) {x0} {x1} :
    Keeps w s { t with free := x0, readData := x1 } :=
  { h with free := fun n => absurd hw.head n, readData := fun n => absurd hw.tail.head n }

theorem Keeps.set_glean_gran (hw : Within [.glean, .gran] w) (h : Keeps w s t) {x0} {x1} :
    Keeps w s { t with glean := x0, gran := x1 } :=
  { h with glean := fun n => absurd hw.head n, gran := fun n => absurd hw.tail.head n }

theorem Keeps.set_head_analog (hw : Within [.head, .analog] w) (h : Keeps w s t) {x0} {x1} :
    Keeps w s { t with head := x0, analog := x1 } :=
  { h with head := fun n => absurd hw.head n, analog := fun n => absurd hw.tail.head n }

theorem Keeps.set_head_farm (hw : Within [.head, .farm] w) (h : Keeps w s t) {x0} {x1} :
    Keeps w s { t with head := x0, farm := x1 } :=
  { h with head := fun n => absurd hw.head n, farm := fun n => absurd hw.tail.head n }

theorem Keeps.set_head_img (hw : Within [.head, .img] w) (h : Keeps w s t) {x0} {x1} :
    Keeps w s { t with head := x0, img := x1 } :=
  { h with head := fun n => absurd hw.head n, img := fun n => absurd hw.tail.head n }

theorem Keeps.set_inputs_field (hw : Within [.inputs, .field] w) (h : Keeps w s t) {x0} {x1} :
    Keeps w s { t with inputs := x0, field := x1 } :=
  { h with inputs := fun n => absurd hw.head n, field := fun n => absurd hw.tail.head n }

theorem Keeps.set_inputs_quals (hw : Within [.inputs, .quals] w) (h : Keeps w s t) {x0} {x1} :
    Keeps w s { t with inputs := x0, quals := x1 } :=
  { h with inputs := fun n => absurd hw.head n, quals := fun n => absurd hw.tail.head n }

theorem Keeps.set_newImage_exec (hw : Within [.newImage, .exec] w) (h : Keeps w s t) {x0} {x1} :
    Keeps w s { t with newImage := x0, exec := x1 } :=
  { h with newImage := fun n => absurd hw.head n, exec := fun n => absurd hw.tail.head n }

theorem Keeps.set_ptp_farm (hw : Within [.ptp, .farm] w) (h : Keeps w s t) {x0} {x1} :
    Keeps w s { t with ptp := x0, farm := x1 } :=
  { h with ptp := fun n => absurd hw.head n, farm := fun n => absurd hw.tail.head n }

theorem Keeps.set_readData_latch (hw : Within [.readData, .latch] w) (h : Keeps w s t) {x0} {x1} :
    Keeps w s { t with readData := x0, latch := x1 } :=
  { h with readData := fun n => absurd hw.head n, latch := fun n => absurd hw.tail.head n }

theorem Keeps.set_resets_sec (hw : Within [.resets, .sec] w) (h : Keeps w s t) {x0} {x1} :
    Keeps w s { t with resets := x0, sec := x1 } :=
  { h with resets := fun n => absurd hw.head n, sec := fun n => absurd hw.tail.head n }

theorem Keeps.set_slots_joa (hw : Within [.slots, .joa] w) (h : Keeps w s t) {x0} {x1} :
    Keeps w s { t with slots := x0, joa := x1 } :=
  { h with slots := fun n => absurd hw.head n, joa := fun n => absurd hw.tail.head n }

theorem Keeps.set_collie_exec_motion (hw : Within [.collie, .exec, .motion] w) (h : Keeps w s t) {x0} {x1} {x2} :
    Keeps w s { t with collie := x0, exec := x1, motion := x2 } :=
  { h with collie := fun n => absurd hw.head n, exec := fun n => absurd hw.tail.head n, motion := fun n => absurd hw.tail.tail.head n }

theorem Keeps.set_exec_gran_resets (hw : Within [.exec, .gran, .resets] w) (h : Keeps w s t) {x0} {x1} {x2} :
    Keeps w s { t with exec := x0, gran := x1, resets := x2 } :=
  { h with exec := fun n => absurd hw.head n, gran := fun n => absurd hw.tail.head n, resets := fun n => absurd hw.tail.tail.head n }

theorem Keeps.set_exec_mem_gran (hw : Within [.exec, .mem, .gran] w) (h : Keeps w s t) {x0} {x1} {x2} :
    Keeps w s { t with exec := x0, mem := x1, gran := x2 } :=
  { h with exec := fun n => absurd hw.head n, mem := fun n => absurd hw.tail.head n, gran := fun n => absurd hw.tail.tail.head n }

theorem Keeps.set_inputs_quals_ages (hw : Within [.inputs, .quals, .ages] w) (h : Keeps w s t) {x0} {x1} {x2} :
    Keeps w s { t with inputs := x0, quals := x1, ages := x2 } :=
  { h with inputs := fun n => absurd hw.head n, quals := fun n => absurd hw.tail.head n, ages := fun n => absurd hw.tail.tail.head n }

theorem Keeps.set_latch_group_stage (hw : Within [.latch, .group, .stage] w) (h : Keeps w s t) {x0} {x1} {x2} :
    Keeps w s { t with latch := x0, group := x1, stage := x2 } :=
  { h with latch := fun n => absurd hw.head n, group := fun n => absurd hw.tail.head n, stage := fun n => absurd hw.tail.tail.head n }

theorem Keeps.set_oldImage_collie_exec (hw : Within [.oldImage, .collie, .exec] w) (h : Keeps w s t) {x0} {x1} {x2} :
    Keeps w s { t with oldImage := x0, collie := x1, exec := x2 } :=
  { h with oldImage := fun n => absurd hw.head n, collie := fun n => absurd hw.tail.head n, exec := fun n => absurd hw.tail.tail.head n }

theorem Keeps.set_readData_latch_group (hw : Within [.readData, .latch, .group] w) (h : Keeps w s t) {x0} {x1} {x2} :
    Keeps w s { t with readData := x0, latch := x1, group := x2 } :=
  { h with readData := fun n => absurd hw.head n, latch := fun n => absurd hw.tail.head n, group := fun n => absurd hw.tail.tail.head n }

theorem Keeps.set_exec_gran_slots_joa (hw : Within [.exec, .gran, .slots, .joa] w) (h : Keeps w s t) {x0} {x1} {x2} {x3} :
    Keeps w s { t with exec := x0, gran := x1, slots := x2, joa := x3 } :=
  { h with exec := fun n => absurd hw.head n, gran := fun n => absurd hw.tail.head n, slots := fun n => absurd hw.tail.tail.head n, joa := fun n => absurd hw.tail.tail.tail.head n }

theorem Keeps.set_image_oldImage_newImage_exec (hw : Within [.image, .oldImage, .newImage, .exec] w) (h : Keeps w s t) {x0} {x1} {x2} {x3} :
    Keeps w s { t with image := x0, oldImage := x1, newImage := x2, exec := x3 } :=
  { h with image := fun n => absurd hw.head n, oldImage := fun n => absurd hw.tail.head n, newImage := fun n => absurd hw.tail.tail.head n, exec := fun n => absurd hw.tail.tail.tail.head n }

theorem Keeps.set_latch_group_stage_collie_motion (hw : Within [.latch, .group, .stage, .collie, .motion] w) (h : Keeps w s t) {x0} {x1} {x2} {x3} {x4} :
    Keeps w s { t with latch := x0, group := x1, stage := x2, collie := x3, motion := x4 } :=
  { h with latch := fun n => absurd hw.head n, group := fun n => absurd hw.tail.head n, stage := fun n => absurd hw.tail.tail.head n, collie := fun n => absurd hw.tail.tail.tail.head n, motion := fun n => absurd hw.tail.tail.tail.tail.head n }

theorem Keeps.set_latch_group_stage_glean_joa (hw : Within [.latch, .group, .stage, .glean, .joa] w) (h : Keeps w s t) {x0} {x1} {x2} {x3} {x4} :
    Keeps w s { t with latch := x0, group := x1, stage := x2, glean := x3, joa := x4 } :=
  { h with latch := fun n => absurd hw.head n, group := fun n => absurd hw.tail.head n, stage := fun n => absurd hw.tail.tail.head n, glean := fun n => absurd hw.tail.tail.tail.head n, joa := fun n => absurd hw.tail.tail.tail.tail.head n }

theorem Keeps.set_exec_mem_gran_slots_joa (hw : Within [.exec, .mem, .gran, .slots, .joa] w) (h : Keeps w s t) {x0} {x1} {x2} {x3} {x4} :
    Keeps w s { t with exec := x0, mem := x1, gran := x2, slots := x3, joa := x4 } :=
  { h with exec := fun n => absurd hw.head n, mem := fun n => absurd hw.tail.head n, gran := fun n => absurd hw.tail.tail.head n, slots := fun n => absurd hw.tail.tail.tail.head n, joa := fun n => absurd hw.tail.tail.tail.tail.head n }

/-! ### Control flow -/

theorem Keeps.when {b : Bool} {f : State → State} (h : Keeps w s t) (hf : ∀ u, Keeps w s u → Keeps w s (f u)) :
    Keeps w s (t.when b f) := by
  unfold State.when; split
  · exact hf _ h
  · exact h

theorem Keeps.foldl {β : Type} {f : State → β → State} {l : List β} (h : Keeps w s t)
    (hf : ∀ u b, Keeps w s u → Keeps w s (f u b)) : Keeps w s (l.foldl f t) := by
  induction l generalizing t with
  | nil => exact h
  | cons b l ih => exact ih (hf _ _ h)

theorem Keeps.foldl_snd {β γ : Type} {f : γ × State → β → γ × State} {l : List β} {p : γ × State} (h : Keeps w s p.2)
    (hf : ∀ p b, Keeps w s p.2 → Keeps w s (f p b).2) : Keeps w s (l.foldl f p).2 := by
  induction l generalizing p with
  | nil => exact h
  | cons b l ih => exact ih (hf _ _ h)

theorem Keeps.forAll {β : Type} {f : β → State → State} {l : List β} (h : Keeps w s t)
    (hf : ∀ b u, Keeps w s u → Keeps w s (f b u)) : Keeps w s (t.forAll l f) :=
  Keeps.foldl h fun u b => hf b u

theorem Keeps.orElse {a b : Option State} (e : (a <|> b) = some u) (ha : a = some u → Keeps w s u)
    (hb : b = some u → Keeps w s u) : Keeps w s u := by
  cases a with
  | none => exact hb e
  | some x => exact ha e

theorem Keeps.getD {a : Option State} (ha : ∀ u, a = some u → Keeps w s u) (h : Keeps w s t) : Keeps w s (a.getD t) := by
  cases a with
  | none => exact h
  | some x => exact ha x rfl

/-! ### Registers -/

theorem Keeps.setReg {r : Reg} {v : Word} (hw : Within [.block (blockOf r.addr)] w) (h : Keeps w s t) :
    Keeps w s (t.setReg r v) where
  pending := h.pending
  raw := h.raw
  head := h.head
  evlog := h.evlog
  free := h.free
  readData := h.readData
  latch := h.latch
  group := h.group
  stage := h.stage
  gens := h.gens
  injected := h.injected
  image := h.image
  oldImage := h.oldImage
  newImage := h.newImage
  collie := h.collie
  txn := h.txn
  exec := h.exec
  img := h.img
  inputs := h.inputs
  quals := h.quals
  ages := h.ages
  pulses := h.pulses
  field := h.field
  motion := h.motion
  analog := h.analog
  mem := h.mem
  capture := h.capture
  glean := h.glean
  gran := h.gran
  slots := h.slots
  ptp := h.ptp
  farm := h.farm
  island := h.island
  resets := h.resets
  joa := h.joa
  sec := h.sec
  regs a hn hk hr := by
    have : a ≠ r.addr := fun e => hk (e ▸ hw.head)
    simpa [State.setReg, tget_tset_ne _ this] using h.regs a hn hk hr

theorem Keeps.setReg_any {r : Reg} {v : Word} (hw : Within [.regs] w) (h : Keeps w s t) : Keeps w s (t.setReg r v) where
  pending := h.pending
  raw := h.raw
  head := h.head
  evlog := h.evlog
  free := h.free
  readData := h.readData
  latch := h.latch
  group := h.group
  stage := h.stage
  gens := h.gens
  injected := h.injected
  image := h.image
  oldImage := h.oldImage
  newImage := h.newImage
  collie := h.collie
  txn := h.txn
  exec := h.exec
  img := h.img
  inputs := h.inputs
  quals := h.quals
  ages := h.ages
  pulses := h.pulses
  field := h.field
  motion := h.motion
  analog := h.analog
  mem := h.mem
  capture := h.capture
  glean := h.glean
  gran := h.gran
  slots := h.slots
  ptp := h.ptp
  farm := h.farm
  island := h.island
  resets := h.resets
  joa := h.joa
  sec := h.sec
  regs _ hn := absurd hw.head hn

theorem Keeps.put {r : Reg} {f : Fld} {n : Nat} (hw : Within [.block (blockOf r.addr)] w)
    (h : Keeps w s t) : Keeps w s (t.put r f n) := h.setReg hw

theorem Keeps.putFlag {r : Reg} {f : Fld} {x : Bool} (hw : Within [.block (blockOf r.addr)] w)
    (h : Keeps w s t) : Keeps w s (t.putFlag r f x) := h.put hw

theorem Keeps.setReg64 {r q : Reg} {v : Quad} (hw : Within [.block (blockOf r.addr), .block (blockOf q.addr)] w) (h : Keeps w s t) : Keeps w s (t.setReg64 r q v) := (h.setReg (hw.sub (by simp [Within]))).setReg hw.tail

theorem Keeps.incSat {r : Reg} (hw : Within [.block (blockOf r.addr)] w) (h : Keeps w s t) :
    Keeps w s (t.incSat r) := by
  unfold State.incSat; split
  · exact h
  · exact h.setReg hw

theorem Keeps.addSat {r : Reg} {n : Nat} (hw : Within [.block (blockOf r.addr)] w) (h : Keeps w s t) :
    Keeps w s (t.addSat r n) := h.setReg hw

theorem Keeps.incWrap {r : Reg} (hw : Within [.block (blockOf r.addr)] w) (h : Keeps w s t) :
    Keeps w s (t.incWrap r) := h.setReg hw

theorem Keeps.addFldSat {r : Reg} {f : Fld} {n : Nat} (hw : Within [.block (blockOf r.addr)] w)
    (h : Keeps w s t) : Keeps w s (t.addFldSat r f n) := h.put hw

theorem Keeps.maxFld {r : Reg} {f : Fld} {n : Nat} (hw : Within [.block (blockOf r.addr)] w)
    (h : Keeps w s t) : Keeps w s (t.maxFld r f n) := by
  unfold State.maxFld; split
  · exact h.put hw
  · exact h

/-! ### Events: the log, and the registers of block 0 that count it -/

theorem Keeps.evAppend {e : EvEntry} (hw : Within [.evlog, .block 0] w) (h : Keeps w s t) : Keeps w s (t.evAppend e) := by
  unfold State.evAppend
  have h1 := ((h.set_evlog (hw.sub rfl) (x0 := (t.evlog ++ [e]).drop (t.evlog.length - 1023))).incWrap
    (r := R.SYS_EVLOG_HEAD) (hw.sub rfl))
  dsimp only
  split
  · exact h1.incSat (r := R.SYS_EVLOG_LOST) (hw.sub rfl)
  · exact h1

theorem Keeps.evNote {r : Reg} {n : Nat} (hw : Within [.evlog, .block 0] w) (h : Keeps w s t) : Keeps w s (t.evNote r n) := by
  unfold State.evNote
  extract_lets _ _ s1
  have h1 : Keeps w s s1 := by
    unfold s1; split
    · exact h.set_evlog (hw.sub rfl)
    · exact h.evAppend hw
  split
  · exact h1
  · exact (h1.put (r := R.SYS_EVENTS) (hw.sub rfl)).evAppend hw

theorem Keeps.raise {r : Reg} {f : Fld} (hw : Within [.evlog, .block 0, .block (blockOf r.addr)] w)
    (h : Keeps w s t) : Keeps w s (t.raise r f) :=
  (h.put (by simp [Within] at hw ⊢; exact hw.2.2)).evNote (by simp [Within] at hw ⊢; exact ⟨hw.1, hw.2.1⟩)

theorem Keeps.raiseIf {x : Bool} {r : Reg} {f : Fld}
    (hw : Within [.evlog, .block 0, .block (blockOf r.addr)] w) (h : Keeps w s t) : Keeps w s (t.raiseIf x r f) := by
  unfold State.raiseIf; split
  · exact h.raise hw
  · exact h

theorem Keeps.raiseNamed {r : Reg} {f : Fld} {c : Nat} {q : Quad}
    (hw : Within [.evlog, .block 0, .block (blockOf r.addr)] w) (h : Keeps w s t) : Keeps w s (t.raiseNamed r f c q) := by
  have h0 : Within [.evlog, .block 0] w := by simp [Within] at hw ⊢; exact ⟨hw.1, hw.2.1⟩
  unfold State.raiseNamed
  extract_lets s1 s2
  have h2 : Keeps w s s2 := (h.put (by simp [Within] at hw ⊢; exact hw.2.2)).evAppend h0
  split
  · exact h2
  · exact h2.put (r := R.SYS_EVENTS) (h0.sub rfl)

theorem Keeps.advanceTo {g : Quad} (hw : Within [.raw] w) (h : Keeps w s t) : Keeps w s (t.advanceTo g) := by
  unfold State.advanceTo; split
  · exact h.set_raw hw
  · exact h

theorem Keeps.advanceToV {v : Int} (hw : Within [.raw] w) (h : Keeps w s t) : Keeps w s (t.advanceToV v) := h.advanceTo hw

end Sys2Proof.Machine
end

