-- ==== Sys2Proof/Laws/Regs.lean ====
section
/-! SUPPORT. The block of each register (R454). -/

namespace Sys2Proof.Machine

@[simp] theorem R.TIME_CTRL_block : blockOf R.TIME_CTRL.addr = 2 := rfl
@[simp] theorem R.TIME_STATUS_block : blockOf R.TIME_STATUS.addr = 2 := rfl
@[simp] theorem R.TIME_RAW_LO_block : blockOf R.TIME_RAW_LO.addr = 2 := rfl
@[simp] theorem R.TIME_RAW_HI_block : blockOf R.TIME_RAW_HI.addr = 2 := rfl
@[simp] theorem R.TIME_VNOW_LO_block : blockOf R.TIME_VNOW_LO.addr = 2 := rfl
@[simp] theorem R.TIME_VNOW_HI_block : blockOf R.TIME_VNOW_HI.addr = 2 := rfl
@[simp] theorem R.TIME_VRAW_LO_block : blockOf R.TIME_VRAW_LO.addr = 2 := rfl
@[simp] theorem R.TIME_VRAW_HI_block : blockOf R.TIME_VRAW_HI.addr = 2 := rfl
@[simp] theorem R.TIME_OFFSET_LO_block : blockOf R.TIME_OFFSET_LO.addr = 2 := rfl
@[simp] theorem R.TIME_OFFSET_HI_block : blockOf R.TIME_OFFSET_HI.addr = 2 := rfl
@[simp] theorem R.TIME_RAW_REF_LO_block : blockOf R.TIME_RAW_REF_LO.addr = 2 := rfl
@[simp] theorem R.TIME_RAW_REF_HI_block : blockOf R.TIME_RAW_REF_HI.addr = 2 := rfl
@[simp] theorem R.TIME_RATE_ADJ_block : blockOf R.TIME_RATE_ADJ.addr = 2 := rfl
@[simp] theorem R.TIME_RATE_CLAMP_CNT_block : blockOf R.TIME_RATE_CLAMP_CNT.addr = 2 := rfl
@[simp] theorem R.TIME_SEAT_V_LO_block : blockOf R.TIME_SEAT_V_LO.addr = 2 := rfl
@[simp] theorem R.TIME_SEAT_V_HI_block : blockOf R.TIME_SEAT_V_HI.addr = 2 := rfl
@[simp] theorem R.HEAD_CTRL_block : blockOf R.HEAD_CTRL.addr = 3 := rfl
@[simp] theorem R.HEAD_STATUS_block : blockOf R.HEAD_STATUS.addr = 3 := rfl
@[simp] theorem R.HEAD_PERIOD_block : blockOf R.HEAD_PERIOD.addr = 3 := rfl
@[simp] theorem R.HEAD_INDEX_LO_block : blockOf R.HEAD_INDEX_LO.addr = 3 := rfl
@[simp] theorem R.HEAD_INDEX_HI_block : blockOf R.HEAD_INDEX_HI.addr = 3 := rfl
@[simp] theorem R.HEAD_LAST_V_LO_block : blockOf R.HEAD_LAST_V_LO.addr = 3 := rfl
@[simp] theorem R.HEAD_LAST_V_HI_block : blockOf R.HEAD_LAST_V_HI.addr = 3 := rfl
@[simp] theorem R.HEAD_LAST_RAW_LO_block : blockOf R.HEAD_LAST_RAW_LO.addr = 3 := rfl
@[simp] theorem R.HEAD_LAST_RAW_HI_block : blockOf R.HEAD_LAST_RAW_HI.addr = 3 := rfl
@[simp] theorem R.HEAD_SHIFT_block : blockOf R.HEAD_SHIFT.addr = 3 := rfl
@[simp] theorem R.HEAD_TARGET_block : blockOf R.HEAD_TARGET.addr = 3 := rfl
@[simp] theorem R.HEAD_SYNC_CFG_block : blockOf R.HEAD_SYNC_CFG.addr = 3 := rfl
@[simp] theorem R.HEAD_SYNC_COMP_block : blockOf R.HEAD_SYNC_COMP.addr = 3 := rfl
@[simp] theorem R.HEAD_SYNC_DEADBAND_block : blockOf R.HEAD_SYNC_DEADBAND.addr = 3 := rfl
@[simp] theorem R.HEAD_SYNC_ERR_block : blockOf R.HEAD_SYNC_ERR.addr = 3 := rfl
@[simp] theorem R.HEAD_SYNC_MISS_block : blockOf R.HEAD_SYNC_MISS.addr = 3 := rfl
@[simp] theorem R.HEAD_SYNC_STRAY_block : blockOf R.HEAD_SYNC_STRAY.addr = 3 := rfl
@[simp] theorem R.HEAD_SYNC_LOST_CNT_block : blockOf R.HEAD_SYNC_LOST_CNT.addr = 3 := rfl
@[simp] theorem R.HEAD_n_CLASS_CFG_block (i : Nat) : blockOf (R.HEAD_n_CLASS_CFG i).addr = 3 := by
  unfold R.HEAD_n_CLASS_CFG blockOf; grind
@[simp] theorem R.HEAD_n_LAST_V_LO_block (i : Nat) : blockOf (R.HEAD_n_LAST_V_LO i).addr = 3 := by
  unfold R.HEAD_n_LAST_V_LO blockOf; grind
@[simp] theorem R.HEAD_n_LAST_V_HI_block (i : Nat) : blockOf (R.HEAD_n_LAST_V_HI i).addr = 3 := by
  unfold R.HEAD_n_LAST_V_HI blockOf; grind
@[simp] theorem R.HEAD_n_INTERVAL_LO_block (i : Nat) : blockOf (R.HEAD_n_INTERVAL_LO i).addr = 3 := by
  unfold R.HEAD_n_INTERVAL_LO blockOf; grind
@[simp] theorem R.HEAD_n_INTERVAL_HI_block (i : Nat) : blockOf (R.HEAD_n_INTERVAL_HI i).addr = 3 := by
  unfold R.HEAD_n_INTERVAL_HI blockOf; grind
@[simp] theorem R.HEAD_n_COUNT_block (i : Nat) : blockOf (R.HEAD_n_COUNT i).addr = 3 := by
  unfold R.HEAD_n_COUNT blockOf; grind
@[simp] theorem R.EXEC_CMD_block : blockOf R.EXEC_CMD.addr = 6 := rfl
@[simp] theorem R.EXEC_STATUS_block : blockOf R.EXEC_STATUS.addr = 6 := rfl
@[simp] theorem R.EXEC_EVENTS_block : blockOf R.EXEC_EVENTS.addr = 6 := rfl
@[simp] theorem R.EXEC_ATTN_MASK_block : blockOf R.EXEC_ATTN_MASK.addr = 6 := rfl
@[simp] theorem R.EXEC_n_BUDGET_block (i : Nat) : blockOf (R.EXEC_n_BUDGET i).addr = 6 := by
  unfold R.EXEC_n_BUDGET blockOf; grind
@[simp] theorem R.EXEC_OVR_TASK_block : blockOf R.EXEC_OVR_TASK.addr = 6 := rfl
@[simp] theorem R.EXEC_OVR_INDEX_LO_block : blockOf R.EXEC_OVR_INDEX_LO.addr = 6 := rfl
@[simp] theorem R.EXEC_OVR_INDEX_HI_block : blockOf R.EXEC_OVR_INDEX_HI.addr = 6 := rfl
@[simp] theorem R.EXEC_OVR_CNT_block : blockOf R.EXEC_OVR_CNT.addr = 6 := rfl
@[simp] theorem R.EXEC_FAULT_TASK_block : blockOf R.EXEC_FAULT_TASK.addr = 6 := rfl
@[simp] theorem R.EXEC_FAULT_REC_block : blockOf R.EXEC_FAULT_REC.addr = 6 := rfl
@[simp] theorem R.EXEC_FAULT_OFFSET_block : blockOf R.EXEC_FAULT_OFFSET.addr = 6 := rfl
@[simp] theorem R.EXEC_FAULT_CNT_block : blockOf R.EXEC_FAULT_CNT.addr = 6 := rfl
@[simp] theorem R.EXEC_BRIDGE_LIMIT_block : blockOf R.EXEC_BRIDGE_LIMIT.addr = 6 := rfl
@[simp] theorem R.EXEC_BRIDGE_LAST_block : blockOf R.EXEC_BRIDGE_LAST.addr = 6 := rfl
@[simp] theorem R.EXEC_BRIDGE_AGE_block : blockOf R.EXEC_BRIDGE_AGE.addr = 6 := rfl
@[simp] theorem R.EXEC_CKPT_PERIOD_block : blockOf R.EXEC_CKPT_PERIOD.addr = 6 := rfl
@[simp] theorem R.EXEC_CKPT_SEQ_block : blockOf R.EXEC_CKPT_SEQ.addr = 6 := rfl
@[simp] theorem R.EXEC_CKPT_INDEX_LO_block : blockOf R.EXEC_CKPT_INDEX_LO.addr = 6 := rfl
@[simp] theorem R.EXEC_CKPT_INDEX_HI_block : blockOf R.EXEC_CKPT_INDEX_HI.addr = 6 := rfl
@[simp] theorem R.EXEC_CKPT_STALL_block : blockOf R.EXEC_CKPT_STALL.addr = 6 := rfl
@[simp] theorem R.EXEC_CKPT_COALESCED_block : blockOf R.EXEC_CKPT_COALESCED.addr = 6 := rfl
@[simp] theorem R.EXEC_OLC_AT_LO_block : blockOf R.EXEC_OLC_AT_LO.addr = 6 := rfl
@[simp] theorem R.EXEC_OLC_AT_HI_block : blockOf R.EXEC_OLC_AT_HI.addr = 6 := rfl
@[simp] theorem R.EXEC_OLC_DONE_LO_block : blockOf R.EXEC_OLC_DONE_LO.addr = 6 := rfl
@[simp] theorem R.EXEC_OLC_DONE_HI_block : blockOf R.EXEC_OLC_DONE_HI.addr = 6 := rfl
@[simp] theorem R.EXEC_OLC_STATUS_block : blockOf R.EXEC_OLC_STATUS.addr = 6 := rfl
@[simp] theorem R.EXEC_STOP_FLUSHED_block : blockOf R.EXEC_STOP_FLUSHED.addr = 6 := rfl
@[simp] theorem R.EXEC_START_CFG_block : blockOf R.EXEC_START_CFG.addr = 6 := rfl
@[simp] theorem R.EXEC_t_TASK_CTRL_block (i : Nat) : blockOf (R.EXEC_t_TASK_CTRL i).addr = 6 := by
  unfold R.EXEC_t_TASK_CTRL blockOf; grind
@[simp] theorem R.EXEC_t_FAULT_CNT_block (i : Nat) : blockOf (R.EXEC_t_FAULT_CNT i).addr = 6 := by
  unfold R.EXEC_t_FAULT_CNT blockOf; grind
@[simp] theorem R.FORCE_CTRL_block : blockOf R.FORCE_CTRL.addr = 7 := rfl
@[simp] theorem R.FORCE_STATUS_block : blockOf R.FORCE_STATUS.addr = 7 := rfl
@[simp] theorem R.FORCE_EVENTS_block : blockOf R.FORCE_EVENTS.addr = 7 := rfl
@[simp] theorem R.FORCE_REMOVED_POINT_block : blockOf R.FORCE_REMOVED_POINT.addr = 7 := rfl
@[simp] theorem R.FORCE_e_POINT_block (i : Nat) : blockOf (R.FORCE_e_POINT i).addr = 7 := by
  unfold R.FORCE_e_POINT blockOf; grind
@[simp] theorem R.FORCE_e_CTRL_block (i : Nat) : blockOf (R.FORCE_e_CTRL i).addr = 7 := by
  unfold R.FORCE_e_CTRL blockOf; grind
@[simp] theorem R.FORCE_e_VALUE_LO_block (i : Nat) : blockOf (R.FORCE_e_VALUE_LO i).addr = 7 := by
  unfold R.FORCE_e_VALUE_LO blockOf; grind
@[simp] theorem R.FORCE_e_VALUE_HI_block (i : Nat) : blockOf (R.FORCE_e_VALUE_HI i).addr = 7 := by
  unfold R.FORCE_e_VALUE_HI blockOf; grind
@[simp] theorem R.COLLIE_CTRL_block : blockOf R.COLLIE_CTRL.addr = 4 := rfl
@[simp] theorem R.COLLIE_STATUS_block : blockOf R.COLLIE_STATUS.addr = 4 := rfl
@[simp] theorem R.COLLIE_EVENTS_block : blockOf R.COLLIE_EVENTS.addr = 4 := rfl
@[simp] theorem R.COLLIE_ATTN_MASK_block : blockOf R.COLLIE_ATTN_MASK.addr = 4 := rfl
@[simp] theorem R.COLLIE_POOL_FREE_block : blockOf R.COLLIE_POOL_FREE.addr = 4 := rfl
@[simp] theorem R.COLLIE_CANCEL_RACE_block : blockOf R.COLLIE_CANCEL_RACE.addr = 4 := rfl
@[simp] theorem R.COLLIE_POST_DROP_CNT_block : blockOf R.COLLIE_POST_DROP_CNT.addr = 4 := rfl
@[simp] theorem R.COLLIE_DELAY_FULL_CNT_block : blockOf R.COLLIE_DELAY_FULL_CNT.addr = 4 := rfl
@[simp] theorem R.COLLIE_REPLY_DROP_CNT_block : blockOf R.COLLIE_REPLY_DROP_CNT.addr = 4 := rfl
@[simp] theorem R.COLLIE_EMPTY_RELEASE_CNT_block : blockOf R.COLLIE_EMPTY_RELEASE_CNT.addr = 4 := rfl
@[simp] theorem R.COLLIE_RELEASE_STALL_block : blockOf R.COLLIE_RELEASE_STALL.addr = 4 := rfl
@[simp] theorem R.COLLIE_BRIDGE_FLUSHED_block : blockOf R.COLLIE_BRIDGE_FLUSHED.addr = 4 := rfl
@[simp] theorem R.COLLIE_FENCE_LOG_block : blockOf R.COLLIE_FENCE_LOG.addr = 4 := rfl
@[simp] theorem R.COLLIE_FENCE_TASK_block : blockOf R.COLLIE_FENCE_TASK.addr = 4 := rfl
@[simp] theorem R.COLLIE_FENCE_CNT_block : blockOf R.COLLIE_FENCE_CNT.addr = 4 := rfl
@[simp] theorem R.COLLIE_CMD_block : blockOf R.COLLIE_CMD.addr = 4 := rfl
@[simp] theorem R.COLLIE_CMD_SEQ_block : blockOf R.COLLIE_CMD_SEQ.addr = 4 := rfl
@[simp] theorem R.COLLIE_CMD_ARG_LO_block : blockOf R.COLLIE_CMD_ARG_LO.addr = 4 := rfl
@[simp] theorem R.COLLIE_CMD_ARG_HI_block : blockOf R.COLLIE_CMD_ARG_HI.addr = 4 := rfl
@[simp] theorem R.COLLIE_DESC_SEL_block : blockOf R.COLLIE_DESC_SEL.addr = 4 := rfl
@[simp] theorem R.COLLIE_DESC_w_block (i : Nat) : blockOf (R.COLLIE_DESC_w i).addr = 4 := by
  unfold R.COLLIE_DESC_w blockOf; grind
@[simp] theorem R.COLLIE_n_DELAY_STAT_block (i : Nat) : blockOf (R.COLLIE_n_DELAY_STAT i).addr = 4 := by
  unfold R.COLLIE_n_DELAY_STAT blockOf; grind
@[simp] theorem R.COLLIE_t_STATE_block (i : Nat) : blockOf (R.COLLIE_t_STATE i).addr = 4 := by
  unfold R.COLLIE_t_STATE blockOf; grind
@[simp] theorem R.COLLIE_f_FLOW_CFG_block (i : Nat) : blockOf (R.COLLIE_f_FLOW_CFG i).addr = 4 := by
  unfold R.COLLIE_f_FLOW_CFG blockOf; grind
@[simp] theorem R.COLLIE_f_FLOW_STAT_block (i : Nat) : blockOf (R.COLLIE_f_FLOW_STAT i).addr = 4 := by
  unfold R.COLLIE_f_FLOW_STAT blockOf; grind
@[simp] theorem R.COLLIE_f_FLOW_HEAD_block (i : Nat) : blockOf (R.COLLIE_f_FLOW_HEAD i).addr = 4 := by
  unfold R.COLLIE_f_FLOW_HEAD blockOf; grind
@[simp] theorem R.COLLIE_f_FLOW_EMPTY_block (i : Nat) : blockOf (R.COLLIE_f_FLOW_EMPTY i).addr = 4 := by
  unfold R.COLLIE_f_FLOW_EMPTY blockOf; grind
@[simp] theorem R.PLOT_k_CORE_STATUS_block (i : Nat) : blockOf (R.PLOT_k_CORE_STATUS i).addr = 5 := by
  unfold R.PLOT_k_CORE_STATUS blockOf; grind
@[simp] theorem R.PLOT_k_CORE_TASK_block (i : Nat) : blockOf (R.PLOT_k_CORE_TASK i).addr = 5 := by
  unfold R.PLOT_k_CORE_TASK blockOf; grind
@[simp] theorem R.PLOT_k_CORE_CTRL_block (i : Nat) : blockOf (R.PLOT_k_CORE_CTRL i).addr = 5 := by
  unfold R.PLOT_k_CORE_CTRL blockOf; grind
@[simp] theorem R.PLOT_k_CORE_BUSY_block (i : Nat) : blockOf (R.PLOT_k_CORE_BUSY i).addr = 5 := by
  unfold R.PLOT_k_CORE_BUSY blockOf; grind
@[simp] theorem R.PLOT_p_STATUS_block (i : Nat) : blockOf (R.PLOT_p_STATUS i).addr = 5 := by
  unfold R.PLOT_p_STATUS blockOf; grind
@[simp] theorem R.PLOT_p_READY_block (i : Nat) : blockOf (R.PLOT_p_READY i).addr = 5 := by
  unfold R.PLOT_p_READY blockOf; grind
@[simp] theorem R.PLOT_p_SPILL_OUT_block (i : Nat) : blockOf (R.PLOT_p_SPILL_OUT i).addr = 5 := by
  unfold R.PLOT_p_SPILL_OUT blockOf; grind
@[simp] theorem R.PLOT_p_SPILL_IN_block (i : Nat) : blockOf (R.PLOT_p_SPILL_IN i).addr = 5 := by
  unfold R.PLOT_p_SPILL_IN blockOf; grind
@[simp] theorem R.PLOT_p_DISPATCH_MAX_block (i : Nat) : blockOf (R.PLOT_p_DISPATCH_MAX i).addr = 5 := by
  unfold R.PLOT_p_DISPATCH_MAX blockOf; grind
@[simp] theorem R.PLOT_p_SLOT_MAP_block (i : Nat) : blockOf (R.PLOT_p_SLOT_MAP i).addr = 5 := by
  unfold R.PLOT_p_SLOT_MAP blockOf; grind
@[simp] theorem R.TXN_CMD_block : blockOf R.TXN_CMD.addr = 8 := rfl
@[simp] theorem R.TXN_STATUS_block : blockOf R.TXN_STATUS.addr = 8 := rfl
@[simp] theorem R.TXN_EVENTS_block : blockOf R.TXN_EVENTS.addr = 8 := rfl
@[simp] theorem R.TXN_ATTN_MASK_block : blockOf R.TXN_ATTN_MASK.addr = 8 := rfl
@[simp] theorem R.TXN_CFG_block : blockOf R.TXN_CFG.addr = 8 := rfl
@[simp] theorem R.TXN_CMD_HANDLE_block : blockOf R.TXN_CMD_HANDLE.addr = 8 := rfl
@[simp] theorem R.TXN_CMD_TARGET_block : blockOf R.TXN_CMD_TARGET.addr = 8 := rfl
@[simp] theorem R.TXN_CMD_KIND_block : blockOf R.TXN_CMD_KIND.addr = 8 := rfl
@[simp] theorem R.TXN_CMD_VALUE_LO_block : blockOf R.TXN_CMD_VALUE_LO.addr = 8 := rfl
@[simp] theorem R.TXN_CMD_VALUE_HI_block : blockOf R.TXN_CMD_VALUE_HI.addr = 8 := rfl
@[simp] theorem R.TXN_CMD_AT_LO_block : blockOf R.TXN_CMD_AT_LO.addr = 8 := rfl
@[simp] theorem R.TXN_CMD_AT_HI_block : blockOf R.TXN_CMD_AT_HI.addr = 8 := rfl
@[simp] theorem R.TXN_CMD_RESULT_block : blockOf R.TXN_CMD_RESULT.addr = 8 := rfl
@[simp] theorem R.TXN_COMMIT_CNT_block : blockOf R.TXN_COMMIT_CNT.addr = 8 := rfl
@[simp] theorem R.TXN_ABORT_CNT_block : blockOf R.TXN_ABORT_CNT.addr = 8 := rfl
@[simp] theorem R.TXN_LATE_CNT_block : blockOf R.TXN_LATE_CNT.addr = 8 := rfl
@[simp] theorem R.TXN_LOST_DOUBT_CNT_block : blockOf R.TXN_LOST_DOUBT_CNT.addr = 8 := rfl
@[simp] theorem R.TXN_PART_SEL_block : blockOf R.TXN_PART_SEL.addr = 8 := rfl
@[simp] theorem R.TXN_PART_INFO_block : blockOf R.TXN_PART_INFO.addr = 8 := rfl
@[simp] theorem R.TXN_s_STATE_block (i : Nat) : blockOf (R.TXN_s_STATE i).addr = 8 := by
  unfold R.TXN_s_STATE blockOf; grind
@[simp] theorem R.TXN_s_HANDLE_block (i : Nat) : blockOf (R.TXN_s_HANDLE i).addr = 8 := by
  unfold R.TXN_s_HANDLE blockOf; grind
@[simp] theorem R.TXN_s_OWNER_block (i : Nat) : blockOf (R.TXN_s_OWNER i).addr = 8 := by
  unfold R.TXN_s_OWNER blockOf; grind
@[simp] theorem R.TXN_s_COUNTS_block (i : Nat) : blockOf (R.TXN_s_COUNTS i).addr = 8 := by
  unfold R.TXN_s_COUNTS blockOf; grind
@[simp] theorem R.TXN_s_AT_LO_block (i : Nat) : blockOf (R.TXN_s_AT_LO i).addr = 8 := by
  unfold R.TXN_s_AT_LO blockOf; grind
@[simp] theorem R.TXN_s_AT_HI_block (i : Nat) : blockOf (R.TXN_s_AT_HI i).addr = 8 := by
  unfold R.TXN_s_AT_HI blockOf; grind
@[simp] theorem R.TXN_s_COMMIT_V_LO_block (i : Nat) : blockOf (R.TXN_s_COMMIT_V_LO i).addr = 8 := by
  unfold R.TXN_s_COMMIT_V_LO blockOf; grind
@[simp] theorem R.TXN_s_COMMIT_V_HI_block (i : Nat) : blockOf (R.TXN_s_COMMIT_V_HI i).addr = 8 := by
  unfold R.TXN_s_COMMIT_V_HI blockOf; grind
@[simp] theorem R.TXN_s_FAIL_LO_block (i : Nat) : blockOf (R.TXN_s_FAIL_LO i).addr = 8 := by
  unfold R.TXN_s_FAIL_LO blockOf; grind
@[simp] theorem R.TXN_s_FAIL_HI_block (i : Nat) : blockOf (R.TXN_s_FAIL_HI i).addr = 8 := by
  unfold R.TXN_s_FAIL_HI blockOf; grind
@[simp] theorem R.TXN_s_DOUBT_LO_block (i : Nat) : blockOf (R.TXN_s_DOUBT_LO i).addr = 8 := by
  unfold R.TXN_s_DOUBT_LO blockOf; grind
@[simp] theorem R.TXN_s_DOUBT_HI_block (i : Nat) : blockOf (R.TXN_s_DOUBT_HI i).addr = 8 := by
  unfold R.TXN_s_DOUBT_HI blockOf; grind
@[simp] theorem R.TXN_s_LATE_LO_block (i : Nat) : blockOf (R.TXN_s_LATE_LO i).addr = 8 := by
  unfold R.TXN_s_LATE_LO blockOf; grind
@[simp] theorem R.TXN_s_LATE_HI_block (i : Nat) : blockOf (R.TXN_s_LATE_HI i).addr = 8 := by
  unfold R.TXN_s_LATE_HI blockOf; grind
@[simp] theorem R.ADC_EVENTS_block : blockOf R.ADC_EVENTS.addr = 9 := rfl
@[simp] theorem R.ADC_ATTN_MASK_block : blockOf R.ADC_ATTN_MASK.addr = 9 := rfl
@[simp] theorem R.ADC_p_REF_CTRL_block (i : Nat) : blockOf (R.ADC_p_REF_CTRL i).addr = 9 := by
  unfold R.ADC_p_REF_CTRL blockOf; grind
@[simp] theorem R.ADC_p_REF_STATUS_block (i : Nat) : blockOf (R.ADC_p_REF_STATUS i).addr = 9 := by
  unfold R.ADC_p_REF_STATUS blockOf; grind
@[simp] theorem R.ADC_p_REF_SETTLED_V_LO_block (i : Nat) : blockOf (R.ADC_p_REF_SETTLED_V_LO i).addr = 9 := by
  unfold R.ADC_p_REF_SETTLED_V_LO blockOf; grind
@[simp] theorem R.ADC_p_REF_SETTLED_V_HI_block (i : Nat) : blockOf (R.ADC_p_REF_SETTLED_V_HI i).addr = 9 := by
  unfold R.ADC_p_REF_SETTLED_V_HI blockOf; grind
@[simp] theorem R.AU_n_CTRL_block (i : Nat) : blockOf (R.AU_n_CTRL i).addr = 32 := by
  unfold R.AU_n_CTRL blockOf; grind
@[simp] theorem R.AU_n_STATUS_block (i : Nat) : blockOf (R.AU_n_STATUS i).addr = 32 := by
  unfold R.AU_n_STATUS blockOf; grind
@[simp] theorem R.AU_n_EVENTS_block (i : Nat) : blockOf (R.AU_n_EVENTS i).addr = 32 := by
  unfold R.AU_n_EVENTS blockOf; grind
@[simp] theorem R.AU_n_ATTN_MASK_block (i : Nat) : blockOf (R.AU_n_ATTN_MASK i).addr = 32 := by
  unfold R.AU_n_ATTN_MASK blockOf; grind
@[simp] theorem R.AU_n_INJ_CTRL_block (i : Nat) : blockOf (R.AU_n_INJ_CTRL i).addr = 32 := by
  unfold R.AU_n_INJ_CTRL blockOf; grind
@[simp] theorem R.AU_n_CAL_CTRL_block (i : Nat) : blockOf (R.AU_n_CAL_CTRL i).addr = 32 := by
  unfold R.AU_n_CAL_CTRL blockOf; grind
@[simp] theorem R.AU_n_LEG_CFG_block (i : Nat) : blockOf (R.AU_n_LEG_CFG i).addr = 32 := by
  unfold R.AU_n_LEG_CFG blockOf; grind
@[simp] theorem R.AU_n_CAL_LAST_V_LO_block (i : Nat) : blockOf (R.AU_n_CAL_LAST_V_LO i).addr = 32 := by
  unfold R.AU_n_CAL_LAST_V_LO blockOf; grind
@[simp] theorem R.AU_n_CAL_LAST_V_HI_block (i : Nat) : blockOf (R.AU_n_CAL_LAST_V_HI i).addr = 32 := by
  unfold R.AU_n_CAL_LAST_V_HI blockOf; grind
@[simp] theorem R.AU_n_CAL_ABORT_CNT_block (i : Nat) : blockOf (R.AU_n_CAL_ABORT_CNT i).addr = 32 := by
  unfold R.AU_n_CAL_ABORT_CNT blockOf; grind
@[simp] theorem R.AU_n_INJ_DROP_CNT_block (i : Nat) : blockOf (R.AU_n_INJ_DROP_CNT i).addr = 32 := by
  unfold R.AU_n_INJ_DROP_CNT blockOf; grind
@[simp] theorem R.AU_n_INJ_HOLD_MAX_block (i : Nat) : blockOf (R.AU_n_INJ_HOLD_MAX i).addr = 32 := by
  unfold R.AU_n_INJ_HOLD_MAX blockOf; grind
@[simp] theorem R.AU_n_PASS_CNT_block (i : Nat) : blockOf (R.AU_n_PASS_CNT i).addr = 32 := by
  unfold R.AU_n_PASS_CNT blockOf; grind
@[simp] theorem R.AU_n_CAL_OFS_g_block (i : Nat) (j : Nat) : blockOf (R.AU_n_CAL_OFS_g i j).addr = 32 := by
  unfold R.AU_n_CAL_OFS_g blockOf; grind
@[simp] theorem R.AU_n_CAL_GAIN_g_block (i : Nat) (j : Nat) : blockOf (R.AU_n_CAL_GAIN_g i j).addr = 32 := by
  unfold R.AU_n_CAL_GAIN_g blockOf; grind
@[simp] theorem R.AU_n_SEQ_e_block (i : Nat) (j : Nat) : blockOf (R.AU_n_SEQ_e i j).addr = 32 := by
  unfold R.AU_n_SEQ_e blockOf; grind
@[simp] theorem R.AU_n_INJ_e_block (i : Nat) (j : Nat) : blockOf (R.AU_n_INJ_e i j).addr = 32 := by
  unfold R.AU_n_INJ_e blockOf; grind
@[simp] theorem R.AU_n_LEG_RES_e_block (i : Nat) (j : Nat) : blockOf (R.AU_n_LEG_RES_e i j).addr = 32 := by
  unfold R.AU_n_LEG_RES_e blockOf; grind
@[simp] theorem R.AU_n_i_CH_CFG_block (i : Nat) (j : Nat) : blockOf (R.AU_n_i_CH_CFG i j).addr = 32 := by
  unfold R.AU_n_i_CH_CFG blockOf; grind
@[simp] theorem R.AU_n_i_CH_STATUS_block (i : Nat) (j : Nat) : blockOf (R.AU_n_i_CH_STATUS i j).addr = 32 := by
  unfold R.AU_n_i_CH_STATUS blockOf; grind
@[simp] theorem R.AU_n_i_SCALE_LO_block (i : Nat) (j : Nat) : blockOf (R.AU_n_i_SCALE_LO i j).addr = 32 := by
  unfold R.AU_n_i_SCALE_LO blockOf; grind
@[simp] theorem R.AU_n_i_SCALE_HI_block (i : Nat) (j : Nat) : blockOf (R.AU_n_i_SCALE_HI i j).addr = 32 := by
  unfold R.AU_n_i_SCALE_HI blockOf; grind
@[simp] theorem R.ACC_EVENTS_block : blockOf R.ACC_EVENTS.addr = 10 := rfl
@[simp] theorem R.ACC_ATTN_MASK_block : blockOf R.ACC_ATTN_MASK.addr = 10 := rfl
@[simp] theorem R.ACC_TRK_CLR_block : blockOf R.ACC_TRK_CLR.addr = 10 := rfl
@[simp] theorem R.ACC_c_CFG_block (i : Nat) : blockOf (R.ACC_c_CFG i).addr = 10 := by
  unfold R.ACC_c_CFG blockOf; grind
@[simp] theorem R.ACC_c_WIN_STATUS_block (i : Nat) : blockOf (R.ACC_c_WIN_STATUS i).addr = 10 := by
  unfold R.ACC_c_WIN_STATUS blockOf; grind
@[simp] theorem R.ACC_c_N_block (i : Nat) : blockOf (R.ACC_c_N i).addr = 10 := by
  unfold R.ACC_c_N blockOf; grind
@[simp] theorem R.ACC_c_SUM_LO_block (i : Nat) : blockOf (R.ACC_c_SUM_LO i).addr = 10 := by
  unfold R.ACC_c_SUM_LO blockOf; grind
@[simp] theorem R.ACC_c_SUM_HI_block (i : Nat) : blockOf (R.ACC_c_SUM_HI i).addr = 10 := by
  unfold R.ACC_c_SUM_HI blockOf; grind
@[simp] theorem R.ACC_c_SUMSQ_LO_block (i : Nat) : blockOf (R.ACC_c_SUMSQ_LO i).addr = 10 := by
  unfold R.ACC_c_SUMSQ_LO blockOf; grind
@[simp] theorem R.ACC_c_SUMSQ_HI_block (i : Nat) : blockOf (R.ACC_c_SUMSQ_HI i).addr = 10 := by
  unfold R.ACC_c_SUMSQ_HI blockOf; grind
@[simp] theorem R.ACC_c_MIN_block (i : Nat) : blockOf (R.ACC_c_MIN i).addr = 10 := by
  unfold R.ACC_c_MIN blockOf; grind
@[simp] theorem R.ACC_c_MIN_OFS_block (i : Nat) : blockOf (R.ACC_c_MIN_OFS i).addr = 10 := by
  unfold R.ACC_c_MIN_OFS blockOf; grind
@[simp] theorem R.ACC_c_MAX_block (i : Nat) : blockOf (R.ACC_c_MAX i).addr = 10 := by
  unfold R.ACC_c_MAX blockOf; grind
@[simp] theorem R.ACC_c_MAX_OFS_block (i : Nat) : blockOf (R.ACC_c_MAX_OFS i).addr = 10 := by
  unfold R.ACC_c_MAX_OFS blockOf; grind
@[simp] theorem R.ACC_c_START_LO_block (i : Nat) : blockOf (R.ACC_c_START_LO i).addr = 10 := by
  unfold R.ACC_c_START_LO blockOf; grind
@[simp] theorem R.ACC_c_START_HI_block (i : Nat) : blockOf (R.ACC_c_START_HI i).addr = 10 := by
  unfold R.ACC_c_START_HI blockOf; grind
@[simp] theorem R.ACC_c_WCMP_LOW_block (i : Nat) : blockOf (R.ACC_c_WCMP_LOW i).addr = 10 := by
  unfold R.ACC_c_WCMP_LOW blockOf; grind
@[simp] theorem R.ACC_c_WCMP_HIGH_block (i : Nat) : blockOf (R.ACC_c_WCMP_HIGH i).addr = 10 := by
  unfold R.ACC_c_WCMP_HIGH blockOf; grind
@[simp] theorem R.ACC_c_WCMP_CFG_block (i : Nat) : blockOf (R.ACC_c_WCMP_CFG i).addr = 10 := by
  unfold R.ACC_c_WCMP_CFG blockOf; grind
@[simp] theorem R.ACC_c_TRK_MIN_block (i : Nat) : blockOf (R.ACC_c_TRK_MIN i).addr = 10 := by
  unfold R.ACC_c_TRK_MIN blockOf; grind
@[simp] theorem R.ACC_c_TRK_MIN_T_LO_block (i : Nat) : blockOf (R.ACC_c_TRK_MIN_T_LO i).addr = 10 := by
  unfold R.ACC_c_TRK_MIN_T_LO blockOf; grind
@[simp] theorem R.ACC_c_TRK_MIN_T_HI_block (i : Nat) : blockOf (R.ACC_c_TRK_MIN_T_HI i).addr = 10 := by
  unfold R.ACC_c_TRK_MIN_T_HI blockOf; grind
@[simp] theorem R.ACC_c_TRK_MAX_block (i : Nat) : blockOf (R.ACC_c_TRK_MAX i).addr = 10 := by
  unfold R.ACC_c_TRK_MAX blockOf; grind
@[simp] theorem R.ACC_c_TRK_MAX_T_LO_block (i : Nat) : blockOf (R.ACC_c_TRK_MAX_T_LO i).addr = 10 := by
  unfold R.ACC_c_TRK_MAX_T_LO blockOf; grind
@[simp] theorem R.ACC_c_TRK_MAX_T_HI_block (i : Nat) : blockOf (R.ACC_c_TRK_MAX_T_HI i).addr = 10 := by
  unfold R.ACC_c_TRK_MAX_T_HI blockOf; grind
@[simp] theorem R.DAC_STATUS_block : blockOf R.DAC_STATUS.addr = 11 := rfl
@[simp] theorem R.DAC_EVENTS_block : blockOf R.DAC_EVENTS.addr = 11 := rfl
@[simp] theorem R.DAC_CLAMP_CNT_block : blockOf R.DAC_CLAMP_CNT.addr = 11 := rfl
@[simp] theorem R.DAC_n_CODE_block (i : Nat) : blockOf (R.DAC_n_CODE i).addr = 11 := by
  unfold R.DAC_n_CODE blockOf; grind
@[simp] theorem R.DAC_n_SEED_block (i : Nat) : blockOf (R.DAC_n_SEED i).addr = 11 := by
  unfold R.DAC_n_SEED blockOf; grind
@[simp] theorem R.DAC_n_SAFE_block (i : Nat) : blockOf (R.DAC_n_SAFE i).addr = 11 := by
  unfold R.DAC_n_SAFE blockOf; grind
@[simp] theorem R.DAC_n_CFG_block (i : Nat) : blockOf (R.DAC_n_CFG i).addr = 11 := by
  unfold R.DAC_n_CFG blockOf; grind
@[simp] theorem R.CAPT_CTRL_block : blockOf R.CAPT_CTRL.addr = 12 := rfl
@[simp] theorem R.CAPT_STATUS_block : blockOf R.CAPT_STATUS.addr = 12 := rfl
@[simp] theorem R.CAPT_EVENTS_block : blockOf R.CAPT_EVENTS.addr = 12 := rfl
@[simp] theorem R.CAPT_ATTN_MASK_block : blockOf R.CAPT_ATTN_MASK.addr = 12 := rfl
@[simp] theorem R.CAPT_SW_TRIG_block : blockOf R.CAPT_SW_TRIG.addr = 12 := rfl
@[simp] theorem R.CAPT_RELEASE_block : blockOf R.CAPT_RELEASE.addr = 12 := rfl
@[simp] theorem R.CAPT_TRIGIN_CFG_block : blockOf R.CAPT_TRIGIN_CFG.addr = 12 := rfl
@[simp] theorem R.CAPT_TRIGIN_m_V_LO_block (i : Nat) : blockOf (R.CAPT_TRIGIN_m_V_LO i).addr = 12 := by
  unfold R.CAPT_TRIGIN_m_V_LO blockOf; grind
@[simp] theorem R.CAPT_TRIGIN_m_V_HI_block (i : Nat) : blockOf (R.CAPT_TRIGIN_m_V_HI i).addr = 12 := by
  unfold R.CAPT_TRIGIN_m_V_HI blockOf; grind
@[simp] theorem R.CAPT_OVF_BASE_LO_block : blockOf R.CAPT_OVF_BASE_LO.addr = 12 := rfl
@[simp] theorem R.CAPT_OVF_BASE_HI_block : blockOf R.CAPT_OVF_BASE_HI.addr = 12 := rfl
@[simp] theorem R.CAPT_OVF_SIZE_block : blockOf R.CAPT_OVF_SIZE.addr = 12 := rfl
@[simp] theorem R.CAPT_OVF_HEAD_block : blockOf R.CAPT_OVF_HEAD.addr = 12 := rfl
@[simp] theorem R.CAPT_OVF_TAIL_block : blockOf R.CAPT_OVF_TAIL.addr = 12 := rfl
@[simp] theorem R.CAPT_OVF_FAIL_CNT_block : blockOf R.CAPT_OVF_FAIL_CNT.addr = 12 := rfl
@[simp] theorem R.CAPT_n_CTRL_block (i : Nat) : blockOf (R.CAPT_n_CTRL i).addr = 12 := by
  unfold R.CAPT_n_CTRL blockOf; grind
@[simp] theorem R.CAPT_n_STATUS_block (i : Nat) : blockOf (R.CAPT_n_STATUS i).addr = 12 := by
  unfold R.CAPT_n_STATUS blockOf; grind
@[simp] theorem R.CAPT_n_SRC_block (i : Nat) : blockOf (R.CAPT_n_SRC i).addr = 12 := by
  unfold R.CAPT_n_SRC blockOf; grind
@[simp] theorem R.CAPT_n_SEG_CFG_block (i : Nat) : blockOf (R.CAPT_n_SEG_CFG i).addr = 12 := by
  unfold R.CAPT_n_SEG_CFG blockOf; grind
@[simp] theorem R.CAPT_n_BASE_block (i : Nat) : blockOf (R.CAPT_n_BASE i).addr = 12 := by
  unfold R.CAPT_n_BASE blockOf; grind
@[simp] theorem R.CAPT_n_PRE_block (i : Nat) : blockOf (R.CAPT_n_PRE i).addr = 12 := by
  unfold R.CAPT_n_PRE blockOf; grind
@[simp] theorem R.CAPT_n_POST_block (i : Nat) : blockOf (R.CAPT_n_POST i).addr = 12 := by
  unfold R.CAPT_n_POST blockOf; grind
@[simp] theorem R.CAPT_n_XTRIG_block (i : Nat) : blockOf (R.CAPT_n_XTRIG i).addr = 12 := by
  unfold R.CAPT_n_XTRIG blockOf; grind
@[simp] theorem R.CAPT_n_EVT_block (i : Nat) : blockOf (R.CAPT_n_EVT i).addr = 12 := by
  unfold R.CAPT_n_EVT blockOf; grind
@[simp] theorem R.CAPT_n_SEQ_block (i : Nat) : blockOf (R.CAPT_n_SEQ i).addr = 12 := by
  unfold R.CAPT_n_SEQ blockOf; grind
@[simp] theorem R.CAPT_n_MISSED_block (i : Nat) : blockOf (R.CAPT_n_MISSED i).addr = 12 := by
  unfold R.CAPT_n_MISSED blockOf; grind
@[simp] theorem R.CAPT_n_EARLY_block (i : Nat) : blockOf (R.CAPT_n_EARLY i).addr = 12 := by
  unfold R.CAPT_n_EARLY blockOf; grind
@[simp] theorem R.CAPT_n_k_COND_CFG_block (i : Nat) (j : Nat) : blockOf (R.CAPT_n_k_COND_CFG i j).addr = 12 := by
  unfold R.CAPT_n_k_COND_CFG blockOf; grind
@[simp] theorem R.CAPT_n_k_LEVEL_LO_block (i : Nat) (j : Nat) : blockOf (R.CAPT_n_k_LEVEL_LO i j).addr = 12 := by
  unfold R.CAPT_n_k_LEVEL_LO blockOf; grind
@[simp] theorem R.CAPT_n_k_LEVEL_HI_block (i : Nat) (j : Nat) : blockOf (R.CAPT_n_k_LEVEL_HI i j).addr = 12 := by
  unfold R.CAPT_n_k_LEVEL_HI blockOf; grind
@[simp] theorem R.CAPT_n_k_HYST_block (i : Nat) (j : Nat) : blockOf (R.CAPT_n_k_HYST i j).addr = 12 := by
  unfold R.CAPT_n_k_HYST blockOf; grind
@[simp] theorem R.CAPT_d_SEG_block (i : Nat) : blockOf (R.CAPT_d_SEG i).addr = 12 := by
  unfold R.CAPT_d_SEG blockOf; grind
@[simp] theorem R.CAPT_d_SEG_SEQ_block (i : Nat) : blockOf (R.CAPT_d_SEG_SEQ i).addr = 12 := by
  unfold R.CAPT_d_SEG_SEQ blockOf; grind
@[simp] theorem R.GLEAN_CTRL_block : blockOf R.GLEAN_CTRL.addr = 13 := rfl
@[simp] theorem R.GLEAN_STATUS_block : blockOf R.GLEAN_STATUS.addr = 13 := rfl
@[simp] theorem R.GLEAN_EVENTS_block : blockOf R.GLEAN_EVENTS.addr = 13 := rfl
@[simp] theorem R.GLEAN_ATTN_MASK_block : blockOf R.GLEAN_ATTN_MASK.addr = 13 := rfl
@[simp] theorem R.GLEAN_SPOOL_BASE_LO_block : blockOf R.GLEAN_SPOOL_BASE_LO.addr = 13 := rfl
@[simp] theorem R.GLEAN_SPOOL_BASE_HI_block : blockOf R.GLEAN_SPOOL_BASE_HI.addr = 13 := rfl
@[simp] theorem R.GLEAN_SPOOL_SIZE_block : blockOf R.GLEAN_SPOOL_SIZE.addr = 13 := rfl
@[simp] theorem R.GLEAN_C0_RESERVE_block : blockOf R.GLEAN_C0_RESERVE.addr = 13 := rfl
@[simp] theorem R.GLEAN_NEXT_SEQ_block : blockOf R.GLEAN_NEXT_SEQ.addr = 13 := rfl
@[simp] theorem R.GLEAN_ACK_SEQ_block : blockOf R.GLEAN_ACK_SEQ.addr = 13 := rfl
@[simp] theorem R.GLEAN_FILL_BLOCKS_block : blockOf R.GLEAN_FILL_BLOCKS.addr = 13 := rfl
@[simp] theorem R.GLEAN_k_REC_CNT_block (i : Nat) : blockOf (R.GLEAN_k_REC_CNT i).addr = 13 := by
  unfold R.GLEAN_k_REC_CNT blockOf; grind
@[simp] theorem R.GLEAN_k_LOST_CNT_block (i : Nat) : blockOf (R.GLEAN_k_LOST_CNT i).addr = 13 := by
  unfold R.GLEAN_k_LOST_CNT blockOf; grind
@[simp] theorem R.GLEAN_SIG_SEL_block : blockOf R.GLEAN_SIG_SEL.addr = 13 := rfl
@[simp] theorem R.GLEAN_SIG_CFG_block : blockOf R.GLEAN_SIG_CFG.addr = 13 := rfl
@[simp] theorem R.GLEAN_SIG_SOURCE_block : blockOf R.GLEAN_SIG_SOURCE.addr = 13 := rfl
@[simp] theorem R.GLEAN_SIG_DEADBAND_LO_block : blockOf R.GLEAN_SIG_DEADBAND_LO.addr = 13 := rfl
@[simp] theorem R.GLEAN_SIG_DEADBAND_HI_block : blockOf R.GLEAN_SIG_DEADBAND_HI.addr = 13 := rfl
@[simp] theorem R.GLEAN_SIG_HEARTBEAT_block : blockOf R.GLEAN_SIG_HEARTBEAT.addr = 13 := rfl
@[simp] theorem R.GLEAN_SIG_MIN_INT_block : blockOf R.GLEAN_SIG_MIN_INT.addr = 13 := rfl
@[simp] theorem R.GLEAN_HALT_V_LO_block : blockOf R.GLEAN_HALT_V_LO.addr = 13 := rfl
@[simp] theorem R.GLEAN_HALT_V_HI_block : blockOf R.GLEAN_HALT_V_HI.addr = 13 := rfl
@[simp] theorem R.AXIS_PEND_LO_block : blockOf R.AXIS_PEND_LO.addr = 14 := rfl
@[simp] theorem R.AXIS_PEND_HI_block : blockOf R.AXIS_PEND_HI.addr = 14 := rfl
@[simp] theorem R.AXIS_FAULT_LO_block : blockOf R.AXIS_FAULT_LO.addr = 14 := rfl
@[simp] theorem R.AXIS_FAULT_HI_block : blockOf R.AXIS_FAULT_HI.addr = 14 := rfl
@[simp] theorem R.AXIS_MOVING_LO_block : blockOf R.AXIS_MOVING_LO.addr = 14 := rfl
@[simp] theorem R.AXIS_MOVING_HI_block : blockOf R.AXIS_MOVING_HI.addr = 14 := rfl
@[simp] theorem R.AXIS_ATTN_MASK_block : blockOf R.AXIS_ATTN_MASK.addr = 14 := rfl
@[simp] theorem R.AXIS_n_CMD_block (i : Nat) : blockOf (R.AXIS_n_CMD i).addr = 14 := by
  unfold R.AXIS_n_CMD blockOf; grind
@[simp] theorem R.AXIS_n_CTRL_block (i : Nat) : blockOf (R.AXIS_n_CTRL i).addr = 14 := by
  unfold R.AXIS_n_CTRL blockOf; grind
@[simp] theorem R.AXIS_n_STATUS_block (i : Nat) : blockOf (R.AXIS_n_STATUS i).addr = 14 := by
  unfold R.AXIS_n_STATUS blockOf; grind
@[simp] theorem R.AXIS_n_EVENTS_block (i : Nat) : blockOf (R.AXIS_n_EVENTS i).addr = 14 := by
  unfold R.AXIS_n_EVENTS blockOf; grind
@[simp] theorem R.AXIS_n_ARG_LO_block (i : Nat) : blockOf (R.AXIS_n_ARG_LO i).addr = 14 := by
  unfold R.AXIS_n_ARG_LO blockOf; grind
@[simp] theorem R.AXIS_n_ARG_HI_block (i : Nat) : blockOf (R.AXIS_n_ARG_HI i).addr = 14 := by
  unfold R.AXIS_n_ARG_HI blockOf; grind
@[simp] theorem R.AXIS_n_POS_LO_block (i : Nat) : blockOf (R.AXIS_n_POS_LO i).addr = 14 := by
  unfold R.AXIS_n_POS_LO blockOf; grind
@[simp] theorem R.AXIS_n_POS_HI_block (i : Nat) : blockOf (R.AXIS_n_POS_HI i).addr = 14 := by
  unfold R.AXIS_n_POS_HI blockOf; grind
@[simp] theorem R.AXIS_n_TARGET_LO_block (i : Nat) : blockOf (R.AXIS_n_TARGET_LO i).addr = 14 := by
  unfold R.AXIS_n_TARGET_LO blockOf; grind
@[simp] theorem R.AXIS_n_TARGET_HI_block (i : Nat) : blockOf (R.AXIS_n_TARGET_HI i).addr = 14 := by
  unfold R.AXIS_n_TARGET_HI blockOf; grind
@[simp] theorem R.AXIS_n_VEL_LO_block (i : Nat) : blockOf (R.AXIS_n_VEL_LO i).addr = 14 := by
  unfold R.AXIS_n_VEL_LO blockOf; grind
@[simp] theorem R.AXIS_n_VEL_HI_block (i : Nat) : blockOf (R.AXIS_n_VEL_HI i).addr = 14 := by
  unfold R.AXIS_n_VEL_HI blockOf; grind
@[simp] theorem R.AXIS_n_VMAX_LO_block (i : Nat) : blockOf (R.AXIS_n_VMAX_LO i).addr = 14 := by
  unfold R.AXIS_n_VMAX_LO blockOf; grind
@[simp] theorem R.AXIS_n_VMAX_HI_block (i : Nat) : blockOf (R.AXIS_n_VMAX_HI i).addr = 14 := by
  unfold R.AXIS_n_VMAX_HI blockOf; grind
@[simp] theorem R.AXIS_n_ACCEL_block (i : Nat) : blockOf (R.AXIS_n_ACCEL i).addr = 14 := by
  unfold R.AXIS_n_ACCEL blockOf; grind
@[simp] theorem R.AXIS_n_DECEL_block (i : Nat) : blockOf (R.AXIS_n_DECEL i).addr = 14 := by
  unfold R.AXIS_n_DECEL blockOf; grind
@[simp] theorem R.AXIS_n_JERK_block (i : Nat) : blockOf (R.AXIS_n_JERK i).addr = 14 := by
  unfold R.AXIS_n_JERK blockOf; grind
@[simp] theorem R.AXIS_n_VCREEP_block (i : Nat) : blockOf (R.AXIS_n_VCREEP i).addr = 14 := by
  unfold R.AXIS_n_VCREEP blockOf; grind
@[simp] theorem R.AXIS_n_SOFT_MIN_LO_block (i : Nat) : blockOf (R.AXIS_n_SOFT_MIN_LO i).addr = 14 := by
  unfold R.AXIS_n_SOFT_MIN_LO blockOf; grind
@[simp] theorem R.AXIS_n_SOFT_MIN_HI_block (i : Nat) : blockOf (R.AXIS_n_SOFT_MIN_HI i).addr = 14 := by
  unfold R.AXIS_n_SOFT_MIN_HI blockOf; grind
@[simp] theorem R.AXIS_n_SOFT_MAX_LO_block (i : Nat) : blockOf (R.AXIS_n_SOFT_MAX_LO i).addr = 14 := by
  unfold R.AXIS_n_SOFT_MAX_LO blockOf; grind
@[simp] theorem R.AXIS_n_SOFT_MAX_HI_block (i : Nat) : blockOf (R.AXIS_n_SOFT_MAX_HI i).addr = 14 := by
  unfold R.AXIS_n_SOFT_MAX_HI blockOf; grind
@[simp] theorem R.AXIS_n_PINS_block (i : Nat) : blockOf (R.AXIS_n_PINS i).addr = 14 := by
  unfold R.AXIS_n_PINS blockOf; grind
@[simp] theorem R.AXIS_n_STEP_CFG_block (i : Nat) : blockOf (R.AXIS_n_STEP_CFG i).addr = 14 := by
  unfold R.AXIS_n_STEP_CFG blockOf; grind
@[simp] theorem R.AXIS_n_LIMIT_CFG_block (i : Nat) : blockOf (R.AXIS_n_LIMIT_CFG i).addr = 14 := by
  unfold R.AXIS_n_LIMIT_CFG blockOf; grind
@[simp] theorem R.AXIS_n_HOME_VEL_block (i : Nat) : blockOf (R.AXIS_n_HOME_VEL i).addr = 14 := by
  unfold R.AXIS_n_HOME_VEL blockOf; grind
@[simp] theorem R.AXIS_n_HOME_OFS_LO_block (i : Nat) : blockOf (R.AXIS_n_HOME_OFS_LO i).addr = 14 := by
  unfold R.AXIS_n_HOME_OFS_LO blockOf; grind
@[simp] theorem R.AXIS_n_HOME_OFS_HI_block (i : Nat) : blockOf (R.AXIS_n_HOME_OFS_HI i).addr = 14 := by
  unfold R.AXIS_n_HOME_OFS_HI blockOf; grind
@[simp] theorem R.AXIS_n_HOME_RANGE_LO_block (i : Nat) : blockOf (R.AXIS_n_HOME_RANGE_LO i).addr = 14 := by
  unfold R.AXIS_n_HOME_RANGE_LO blockOf; grind
@[simp] theorem R.AXIS_n_HOME_RANGE_HI_block (i : Nat) : blockOf (R.AXIS_n_HOME_RANGE_HI i).addr = 14 := by
  unfold R.AXIS_n_HOME_RANGE_HI blockOf; grind
@[simp] theorem R.AXIS_n_ENC_CFG_block (i : Nat) : blockOf (R.AXIS_n_ENC_CFG i).addr = 14 := by
  unfold R.AXIS_n_ENC_CFG blockOf; grind
@[simp] theorem R.AXIS_n_ENC_RATIO_block (i : Nat) : blockOf (R.AXIS_n_ENC_RATIO i).addr = 14 := by
  unfold R.AXIS_n_ENC_RATIO blockOf; grind
@[simp] theorem R.AXIS_n_ENC_TOL_block (i : Nat) : blockOf (R.AXIS_n_ENC_TOL i).addr = 14 := by
  unfold R.AXIS_n_ENC_TOL blockOf; grind
@[simp] theorem R.AXIS_n_STOP_POS_LO_block (i : Nat) : blockOf (R.AXIS_n_STOP_POS_LO i).addr = 14 := by
  unfold R.AXIS_n_STOP_POS_LO blockOf; grind
@[simp] theorem R.AXIS_n_STOP_POS_HI_block (i : Nat) : blockOf (R.AXIS_n_STOP_POS_HI i).addr = 14 := by
  unfold R.AXIS_n_STOP_POS_HI blockOf; grind
@[simp] theorem R.AXIS_n_REFUSED_CNT_block (i : Nat) : blockOf (R.AXIS_n_REFUSED_CNT i).addr = 14 := by
  unfold R.AXIS_n_REFUSED_CNT blockOf; grind
@[simp] theorem R.AXIS_n_CMD_V_LO_block (i : Nat) : blockOf (R.AXIS_n_CMD_V_LO i).addr = 14 := by
  unfold R.AXIS_n_CMD_V_LO blockOf; grind
@[simp] theorem R.AXIS_n_CMD_V_HI_block (i : Nat) : blockOf (R.AXIS_n_CMD_V_HI i).addr = 14 := by
  unfold R.AXIS_n_CMD_V_HI blockOf; grind
@[simp] theorem R.ENC_m_CFG_block (i : Nat) : blockOf (R.ENC_m_CFG i).addr = 14 := by
  unfold R.ENC_m_CFG blockOf; grind
@[simp] theorem R.ENC_m_STATUS_block (i : Nat) : blockOf (R.ENC_m_STATUS i).addr = 14 := by
  unfold R.ENC_m_STATUS blockOf; grind
@[simp] theorem R.ENC_m_COUNT_LO_block (i : Nat) : blockOf (R.ENC_m_COUNT_LO i).addr = 14 := by
  unfold R.ENC_m_COUNT_LO blockOf; grind
@[simp] theorem R.ENC_m_COUNT_HI_block (i : Nat) : blockOf (R.ENC_m_COUNT_HI i).addr = 14 := by
  unfold R.ENC_m_COUNT_HI blockOf; grind
@[simp] theorem R.ENC_m_INDEX_LO_block (i : Nat) : blockOf (R.ENC_m_INDEX_LO i).addr = 14 := by
  unfold R.ENC_m_INDEX_LO blockOf; grind
@[simp] theorem R.ENC_m_INDEX_HI_block (i : Nat) : blockOf (R.ENC_m_INDEX_HI i).addr = 14 := by
  unfold R.ENC_m_INDEX_HI blockOf; grind
@[simp] theorem R.ENC_m_ERR_CNT_block (i : Nat) : blockOf (R.ENC_m_ERR_CNT i).addr = 14 := by
  unfold R.ENC_m_ERR_CNT blockOf; grind
@[simp] theorem R.CHOP_PEND_block : blockOf R.CHOP_PEND.addr = 15 := rfl
@[simp] theorem R.CHOP_ATTN_MASK_block : blockOf R.CHOP_ATTN_MASK.addr = 15 := rfl
@[simp] theorem R.CHOP_GEVENTS_block : blockOf R.CHOP_GEVENTS.addr = 15 := rfl
@[simp] theorem R.CHOP_c_CTRL_block (i : Nat) : blockOf (R.CHOP_c_CTRL i).addr = 15 := by
  unfold R.CHOP_c_CTRL blockOf; grind
@[simp] theorem R.CHOP_c_TIMING_block (i : Nat) : blockOf (R.CHOP_c_TIMING i).addr = 15 := by
  unfold R.CHOP_c_TIMING blockOf; grind
@[simp] theorem R.CHOP_c_CURRENT_block (i : Nat) : blockOf (R.CHOP_c_CURRENT i).addr = 15 := by
  unfold R.CHOP_c_CURRENT blockOf; grind
@[simp] theorem R.CHOP_c_MSTEP_block (i : Nat) : blockOf (R.CHOP_c_MSTEP i).addr = 15 := by
  unfold R.CHOP_c_MSTEP blockOf; grind
@[simp] theorem R.CHOP_c_STATUS_block (i : Nat) : blockOf (R.CHOP_c_STATUS i).addr = 15 := by
  unfold R.CHOP_c_STATUS blockOf; grind
@[simp] theorem R.CHOP_c_EVENTS_block (i : Nat) : blockOf (R.CHOP_c_EVENTS i).addr = 15 := by
  unfold R.CHOP_c_EVENTS blockOf; grind
@[simp] theorem R.CHOP_c_OPEN_CFG_block (i : Nat) : blockOf (R.CHOP_c_OPEN_CFG i).addr = 15 := by
  unfold R.CHOP_c_OPEN_CFG blockOf; grind
@[simp] theorem R.CHOP_c_SHORT_CNT_block (i : Nat) : blockOf (R.CHOP_c_SHORT_CNT i).addr = 15 := by
  unfold R.CHOP_c_SHORT_CNT blockOf; grind
@[simp] theorem R.CHOP_c_CODES_block (i : Nat) : blockOf (R.CHOP_c_CODES i).addr = 15 := by
  unfold R.CHOP_c_CODES blockOf; grind
@[simp] theorem R.CHOP_SINE_i_block (i : Nat) : blockOf (R.CHOP_SINE_i i).addr = 15 := by
  unfold R.CHOP_SINE_i blockOf; grind
@[simp] theorem R.FIELD_ETYPE_block : blockOf R.FIELD_ETYPE.addr = 17 := rfl
@[simp] theorem R.FIELD_EVENTS_block : blockOf R.FIELD_EVENTS.addr = 17 := rfl
@[simp] theorem R.FIELD_ATTN_MASK_block : blockOf R.FIELD_ATTN_MASK.addr = 17 := rfl
@[simp] theorem R.FIELD_EVT_DESC_block : blockOf R.FIELD_EVT_DESC.addr = 17 := rfl
@[simp] theorem R.FIELD_p_CTRL_block (i : Nat) : blockOf (R.FIELD_p_CTRL i).addr = 17 := by
  unfold R.FIELD_p_CTRL blockOf; grind
@[simp] theorem R.FIELD_p_STATUS_block (i : Nat) : blockOf (R.FIELD_p_STATUS i).addr = 17 := by
  unfold R.FIELD_p_STATUS blockOf; grind
@[simp] theorem R.FIELD_p_CYCLE_block (i : Nat) : blockOf (R.FIELD_p_CYCLE i).addr = 17 := by
  unfold R.FIELD_p_CYCLE blockOf; grind
@[simp] theorem R.FIELD_p_LIMITS_block (i : Nat) : blockOf (R.FIELD_p_LIMITS i).addr = 17 := by
  unfold R.FIELD_p_LIMITS blockOf; grind
@[simp] theorem R.FIELD_p_MAC_LO_block (i : Nat) : blockOf (R.FIELD_p_MAC_LO i).addr = 17 := by
  unfold R.FIELD_p_MAC_LO blockOf; grind
@[simp] theorem R.FIELD_p_MAC_HI_block (i : Nat) : blockOf (R.FIELD_p_MAC_HI i).addr = 17 := by
  unfold R.FIELD_p_MAC_HI blockOf; grind
@[simp] theorem R.FIELD_p_DEST_LO_block (i : Nat) : blockOf (R.FIELD_p_DEST_LO i).addr = 17 := by
  unfold R.FIELD_p_DEST_LO blockOf; grind
@[simp] theorem R.FIELD_p_DEST_HI_block (i : Nat) : blockOf (R.FIELD_p_DEST_HI i).addr = 17 := by
  unfold R.FIELD_p_DEST_HI blockOf; grind
@[simp] theorem R.FIELD_p_CYCLE_NUM_block (i : Nat) : blockOf (R.FIELD_p_CYCLE_NUM i).addr = 17 := by
  unfold R.FIELD_p_CYCLE_NUM blockOf; grind
@[simp] theorem R.FIELD_p_MDIO_block (i : Nat) : blockOf (R.FIELD_p_MDIO i).addr = 17 := by
  unfold R.FIELD_p_MDIO blockOf; grind
@[simp] theorem R.FIELD_p_BAD_CNT_block (i : Nat) : blockOf (R.FIELD_p_BAD_CNT i).addr = 17 := by
  unfold R.FIELD_p_BAD_CNT blockOf; grind
@[simp] theorem R.FIELD_p_UNKNOWN_CNT_block (i : Nat) : blockOf (R.FIELD_p_UNKNOWN_CNT i).addr = 17 := by
  unfold R.FIELD_p_UNKNOWN_CNT blockOf; grind
@[simp] theorem R.FIELD_p_UNKNOWN_MAC_LO_block (i : Nat) : blockOf (R.FIELD_p_UNKNOWN_MAC_LO i).addr = 17 := by
  unfold R.FIELD_p_UNKNOWN_MAC_LO blockOf; grind
@[simp] theorem R.FIELD_p_UNKNOWN_MAC_HI_block (i : Nat) : blockOf (R.FIELD_p_UNKNOWN_MAC_HI i).addr = 17 := by
  unfold R.FIELD_p_UNKNOWN_MAC_HI blockOf; grind
@[simp] theorem R.FIELD_p_OTHER_CNT_block (i : Nat) : blockOf (R.FIELD_p_OTHER_CNT i).addr = 17 := by
  unfold R.FIELD_p_OTHER_CNT blockOf; grind
@[simp] theorem R.FIELD_p_DUP_CNT_block (i : Nat) : blockOf (R.FIELD_p_DUP_CNT i).addr = 17 := by
  unfold R.FIELD_p_DUP_CNT blockOf; grind
@[simp] theorem R.FIELD_p_REC_OVF_CNT_block (i : Nat) : blockOf (R.FIELD_p_REC_OVF_CNT i).addr = 17 := by
  unfold R.FIELD_p_REC_OVF_CNT blockOf; grind
@[simp] theorem R.FIELD_p_FOREIGN_CNT_block (i : Nat) : blockOf (R.FIELD_p_FOREIGN_CNT i).addr = 17 := by
  unfold R.FIELD_p_FOREIGN_CNT blockOf; grind
@[simp] theorem R.FIELD_p_MISSING_w_block (i : Nat) (j : Nat) : blockOf (R.FIELD_p_MISSING_w i j).addr = 17 := by
  unfold R.FIELD_p_MISSING_w blockOf; grind
@[simp] theorem R.FIELD_p_s_STATUS_block (i : Nat) (j : Nat) : blockOf (R.FIELD_p_s_STATUS i j).addr = 17 := by
  unfold R.FIELD_p_s_STATUS blockOf; grind
@[simp] theorem R.FIELD_p_s_CTRL_block (i : Nat) (j : Nat) : blockOf (R.FIELD_p_s_CTRL i j).addr = 17 := by
  unfold R.FIELD_p_s_CTRL blockOf; grind
@[simp] theorem R.FIELD_p_s_ARRIVAL_block (i : Nat) (j : Nat) : blockOf (R.FIELD_p_s_ARRIVAL i j).addr = 17 := by
  unfold R.FIELD_p_s_ARRIVAL blockOf; grind
@[simp] theorem R.FIELD_p_s_COUNTS_block (i : Nat) (j : Nat) : blockOf (R.FIELD_p_s_COUNTS i j).addr = 17 := by
  unfold R.FIELD_p_s_COUNTS blockOf; grind
@[simp] theorem R.CAN_EVENTS_block : blockOf R.CAN_EVENTS.addr = 18 := rfl
@[simp] theorem R.CAN_ATTN_MASK_block : blockOf R.CAN_ATTN_MASK.addr = 18 := rfl
@[simp] theorem R.CAN_EVT_DESC_block : blockOf R.CAN_EVT_DESC.addr = 18 := rfl
@[simp] theorem R.CAN_p_CTRL_block (i : Nat) : blockOf (R.CAN_p_CTRL i).addr = 18 := by
  unfold R.CAN_p_CTRL blockOf; grind
@[simp] theorem R.CAN_p_STATUS_block (i : Nat) : blockOf (R.CAN_p_STATUS i).addr = 18 := by
  unfold R.CAN_p_STATUS blockOf; grind
@[simp] theorem R.CAN_p_NBIT_block (i : Nat) : blockOf (R.CAN_p_NBIT i).addr = 18 := by
  unfold R.CAN_p_NBIT blockOf; grind
@[simp] theorem R.CAN_p_DBIT_block (i : Nat) : blockOf (R.CAN_p_DBIT i).addr = 18 := by
  unfold R.CAN_p_DBIT blockOf; grind
@[simp] theorem R.CAN_p_CYCLE_block (i : Nat) : blockOf (R.CAN_p_CYCLE i).addr = 18 := by
  unfold R.CAN_p_CYCLE blockOf; grind
@[simp] theorem R.CAN_p_SDO_CMD_block (i : Nat) : blockOf (R.CAN_p_SDO_CMD i).addr = 18 := by
  unfold R.CAN_p_SDO_CMD blockOf; grind
@[simp] theorem R.CAN_p_SDO_ADDR_block (i : Nat) : blockOf (R.CAN_p_SDO_ADDR i).addr = 18 := by
  unfold R.CAN_p_SDO_ADDR blockOf; grind
@[simp] theorem R.CAN_p_SDO_LEN_block (i : Nat) : blockOf (R.CAN_p_SDO_LEN i).addr = 18 := by
  unfold R.CAN_p_SDO_LEN blockOf; grind
@[simp] theorem R.CAN_p_SDO_RESULT_block (i : Nat) : blockOf (R.CAN_p_SDO_RESULT i).addr = 18 := by
  unfold R.CAN_p_SDO_RESULT blockOf; grind
@[simp] theorem R.CAN_p_SDO_BUSY_block (i : Nat) : blockOf (R.CAN_p_SDO_BUSY i).addr = 18 := by
  unfold R.CAN_p_SDO_BUSY blockOf; grind
@[simp] theorem R.CAN_p_BUSOFF_CNT_block (i : Nat) : blockOf (R.CAN_p_BUSOFF_CNT i).addr = 18 := by
  unfold R.CAN_p_BUSOFF_CNT blockOf; grind
@[simp] theorem R.CAN_p_RX_DROP_CNT_block (i : Nat) : blockOf (R.CAN_p_RX_DROP_CNT i).addr = 18 := by
  unfold R.CAN_p_RX_DROP_CNT blockOf; grind
@[simp] theorem R.CAN_p_n_STATUS_block (i : Nat) (j : Nat) : blockOf (R.CAN_p_n_STATUS i j).addr = 18 := by
  unfold R.CAN_p_n_STATUS blockOf; grind
@[simp] theorem R.CAN_p_n_EMCY_LO_block (i : Nat) (j : Nat) : blockOf (R.CAN_p_n_EMCY_LO i j).addr = 18 := by
  unfold R.CAN_p_n_EMCY_LO blockOf; grind
@[simp] theorem R.CAN_p_n_EMCY_HI_block (i : Nat) (j : Nat) : blockOf (R.CAN_p_n_EMCY_HI i j).addr = 18 := by
  unfold R.CAN_p_n_EMCY_HI blockOf; grind
@[simp] theorem R.CAN_p_n_COUNTS_block (i : Nat) (j : Nat) : blockOf (R.CAN_p_n_COUNTS i j).addr = 18 := by
  unfold R.CAN_p_n_COUNTS blockOf; grind
@[simp] theorem R.CAN_p_SDO_BUF_w_block (i : Nat) (j : Nat) : blockOf (R.CAN_p_SDO_BUF_w i j).addr = 18 := by
  unfold R.CAN_p_SDO_BUF_w blockOf; grind
@[simp] theorem R.SER_EVENTS_block : blockOf R.SER_EVENTS.addr = 19 := rfl
@[simp] theorem R.SER_ATTN_MASK_block : blockOf R.SER_ATTN_MASK.addr = 19 := rfl
@[simp] theorem R.SER_EVT_DESC_block : blockOf R.SER_EVT_DESC.addr = 19 := rfl
@[simp] theorem R.SER_p_CTRL_block (i : Nat) : blockOf (R.SER_p_CTRL i).addr = 19 := by
  unfold R.SER_p_CTRL blockOf; grind
@[simp] theorem R.SER_p_BAUD_block (i : Nat) : blockOf (R.SER_p_BAUD i).addr = 19 := by
  unfold R.SER_p_BAUD blockOf; grind
@[simp] theorem R.SER_p_CYCLE_block (i : Nat) : blockOf (R.SER_p_CYCLE i).addr = 19 := by
  unfold R.SER_p_CYCLE blockOf; grind
@[simp] theorem R.SER_p_TIMING_block (i : Nat) : blockOf (R.SER_p_TIMING i).addr = 19 := by
  unfold R.SER_p_TIMING blockOf; grind
@[simp] theorem R.SER_p_STATUS_block (i : Nat) : blockOf (R.SER_p_STATUS i).addr = 19 := by
  unfold R.SER_p_STATUS blockOf; grind
@[simp] theorem R.SER_p_SCAN_OVR_block (i : Nat) : blockOf (R.SER_p_SCAN_OVR i).addr = 19 := by
  unfold R.SER_p_SCAN_OVR blockOf; grind
@[simp] theorem R.SER_p_SCAN_TIME_block (i : Nat) : blockOf (R.SER_p_SCAN_TIME i).addr = 19 := by
  unfold R.SER_p_SCAN_TIME blockOf; grind
@[simp] theorem R.SER_p_s_STATUS_block (i : Nat) (j : Nat) : blockOf (R.SER_p_s_STATUS i j).addr = 19 := by
  unfold R.SER_p_s_STATUS blockOf; grind
@[simp] theorem R.SER_p_s_COUNTS_block (i : Nat) (j : Nat) : blockOf (R.SER_p_s_COUNTS i j).addr = 19 := by
  unfold R.SER_p_s_COUNTS blockOf; grind
@[simp] theorem R.GPIO_EVENTS_block : blockOf R.GPIO_EVENTS.addr = 16 := rfl
@[simp] theorem R.GPIO_ATTN_MASK_block : blockOf R.GPIO_ATTN_MASK.addr = 16 := rfl
@[simp] theorem R.GPIO_IN_w_block (i : Nat) : blockOf (R.GPIO_IN_w i).addr = 16 := by
  unfold R.GPIO_IN_w blockOf; grind
@[simp] theorem R.GPIO_SYNC_w_block (i : Nat) : blockOf (R.GPIO_SYNC_w i).addr = 16 := by
  unfold R.GPIO_SYNC_w blockOf; grind
@[simp] theorem R.GPIO_DRIVE_w_block (i : Nat) : blockOf (R.GPIO_DRIVE_w i).addr = 16 := by
  unfold R.GPIO_DRIVE_w blockOf; grind
@[simp] theorem R.GPIO_e_EVT_block (i : Nat) : blockOf (R.GPIO_e_EVT i).addr = 16 := by
  unfold R.GPIO_e_EVT blockOf; grind
@[simp] theorem R.GPIO_i_CFG_block (i : Nat) : blockOf (R.GPIO_i_CFG i).addr = 16 := by
  unfold R.GPIO_i_CFG blockOf; grind
@[simp] theorem R.JOA_CTRL_block : blockOf R.JOA_CTRL.addr = 22 := rfl
@[simp] theorem R.JOA_STATUS_block : blockOf R.JOA_STATUS.addr = 22 := rfl
@[simp] theorem R.JOA_EVENTS_block : blockOf R.JOA_EVENTS.addr = 22 := rfl
@[simp] theorem R.JOA_ATTN_MASK_block : blockOf R.JOA_ATTN_MASK.addr = 22 := rfl
@[simp] theorem R.JOA_UDP_PORT_block : blockOf R.JOA_UDP_PORT.addr = 22 := rfl
@[simp] theorem R.JOA_ETYPE_block : blockOf R.JOA_ETYPE.addr = 22 := rfl
@[simp] theorem R.JOA_IDLE_S_block : blockOf R.JOA_IDLE_S.addr = 22 := rfl
@[simp] theorem R.JOA_STREAM_CFG_block : blockOf R.JOA_STREAM_CFG.addr = 22 := rfl
@[simp] theorem R.JOA_AUTH_FAIL_CNT_block : blockOf R.JOA_AUTH_FAIL_CNT.addr = 22 := rfl
@[simp] theorem R.JOA_REPLAY_CNT_block : blockOf R.JOA_REPLAY_CNT.addr = 22 := rfl
@[simp] theorem R.JOA_MALFORMED_CNT_block : blockOf R.JOA_MALFORMED_CNT.addr = 22 := rfl
@[simp] theorem R.JOA_s_STATUS_block (i : Nat) : blockOf (R.JOA_s_STATUS i).addr = 22 := by
  unfold R.JOA_s_STATUS blockOf; grind
@[simp] theorem R.JOA_s_INFO_block (i : Nat) : blockOf (R.JOA_s_INFO i).addr = 22 := by
  unfold R.JOA_s_INFO blockOf; grind
@[simp] theorem R.JOA_s_RX_CNT_block (i : Nat) : blockOf (R.JOA_s_RX_CNT i).addr = 22 := by
  unfold R.JOA_s_RX_CNT blockOf; grind
@[simp] theorem R.JOA_s_CTRL_block (i : Nat) : blockOf (R.JOA_s_CTRL i).addr = 22 := by
  unfold R.JOA_s_CTRL blockOf; grind
@[simp] theorem R.JOA_w_PROXY_CFG_block (i : Nat) : blockOf (R.JOA_w_PROXY_CFG i).addr = 22 := by
  unfold R.JOA_w_PROXY_CFG blockOf; grind
@[simp] theorem R.SYS_ID_block : blockOf R.SYS_ID.addr = 0 := rfl
@[simp] theorem R.SYS_STEPPING_block : blockOf R.SYS_STEPPING.addr = 0 := rfl
@[simp] theorem R.SYS_FARM_block : blockOf R.SYS_FARM.addr = 0 := rfl
@[simp] theorem R.SYS_RESET_block : blockOf R.SYS_RESET.addr = 0 := rfl
@[simp] theorem R.SYS_RESET_CAUSE_block : blockOf R.SYS_RESET_CAUSE.addr = 0 := rfl
@[simp] theorem R.SYS_EVENTS_block : blockOf R.SYS_EVENTS.addr = 0 := rfl
@[simp] theorem R.SYS_ATTN_MASK_block : blockOf R.SYS_ATTN_MASK.addr = 0 := rfl
@[simp] theorem R.SYS_ATTN_LO_block : blockOf R.SYS_ATTN_LO.addr = 0 := rfl
@[simp] theorem R.SYS_ATTN_HI_block : blockOf R.SYS_ATTN_HI.addr = 0 := rfl
@[simp] theorem R.SYS_UNMAPPED_ADDR_LO_block : blockOf R.SYS_UNMAPPED_ADDR_LO.addr = 0 := rfl
@[simp] theorem R.SYS_UNMAPPED_ADDR_HI_block : blockOf R.SYS_UNMAPPED_ADDR_HI.addr = 0 := rfl
@[simp] theorem R.SYS_UNMAPPED_CNT_block : blockOf R.SYS_UNMAPPED_CNT.addr = 0 := rfl
@[simp] theorem R.SYS_EVLOG_HEAD_block : blockOf R.SYS_EVLOG_HEAD.addr = 0 := rfl
@[simp] theorem R.SYS_EVLOG_SEL_block : blockOf R.SYS_EVLOG_SEL.addr = 0 := rfl
@[simp] theorem R.SYS_EVLOG_LOST_block : blockOf R.SYS_EVLOG_LOST.addr = 0 := rfl
@[simp] theorem R.SYS_EVLOG_w_block (i : Nat) : blockOf (R.SYS_EVLOG_w i).addr = 0 := by
  unfold R.SYS_EVLOG_w blockOf; grind
@[simp] theorem R.UPLINK_EVENTS_block : blockOf R.UPLINK_EVENTS.addr = 20 := rfl
@[simp] theorem R.UPLINK_ATTN_MASK_block : blockOf R.UPLINK_ATTN_MASK.addr = 20 := rfl
@[simp] theorem R.UPLINK_p_CTRL_block (i : Nat) : blockOf (R.UPLINK_p_CTRL i).addr = 20 := by
  unfold R.UPLINK_p_CTRL blockOf; grind
@[simp] theorem R.UPLINK_p_STATUS_block (i : Nat) : blockOf (R.UPLINK_p_STATUS i).addr = 20 := by
  unfold R.UPLINK_p_STATUS blockOf; grind
@[simp] theorem R.UPLINK_p_MAC_LO_block (i : Nat) : blockOf (R.UPLINK_p_MAC_LO i).addr = 20 := by
  unfold R.UPLINK_p_MAC_LO blockOf; grind
@[simp] theorem R.UPLINK_p_MAC_HI_block (i : Nat) : blockOf (R.UPLINK_p_MAC_HI i).addr = 20 := by
  unfold R.UPLINK_p_MAC_HI blockOf; grind
@[simp] theorem R.UPLINK_p_IP4_ADDR_block (i : Nat) : blockOf (R.UPLINK_p_IP4_ADDR i).addr = 20 := by
  unfold R.UPLINK_p_IP4_ADDR blockOf; grind
@[simp] theorem R.UPLINK_p_IP4_MASK_block (i : Nat) : blockOf (R.UPLINK_p_IP4_MASK i).addr = 20 := by
  unfold R.UPLINK_p_IP4_MASK blockOf; grind
@[simp] theorem R.UPLINK_p_IP4_GW_block (i : Nat) : blockOf (R.UPLINK_p_IP4_GW i).addr = 20 := by
  unfold R.UPLINK_p_IP4_GW blockOf; grind
@[simp] theorem R.UPLINK_p_IP6_ADDR_w_block (i : Nat) (j : Nat) : blockOf (R.UPLINK_p_IP6_ADDR_w i j).addr = 20 := by
  unfold R.UPLINK_p_IP6_ADDR_w blockOf; grind
@[simp] theorem R.UPLINK_p_IP6_PREFIX_block (i : Nat) : blockOf (R.UPLINK_p_IP6_PREFIX i).addr = 20 := by
  unfold R.UPLINK_p_IP6_PREFIX blockOf; grind
@[simp] theorem R.UPLINK_p_RX_CNT_block (i : Nat) : blockOf (R.UPLINK_p_RX_CNT i).addr = 20 := by
  unfold R.UPLINK_p_RX_CNT blockOf; grind
@[simp] theorem R.UPLINK_p_RX_ERR_CNT_block (i : Nat) : blockOf (R.UPLINK_p_RX_ERR_CNT i).addr = 20 := by
  unfold R.UPLINK_p_RX_ERR_CNT blockOf; grind
@[simp] theorem R.UPLINK_p_TX_CNT_block (i : Nat) : blockOf (R.UPLINK_p_TX_CNT i).addr = 20 := by
  unfold R.UPLINK_p_TX_CNT blockOf; grind
@[simp] theorem R.UPLINK_p_DISCARD_CNT_block (i : Nat) : blockOf (R.UPLINK_p_DISCARD_CNT i).addr = 20 := by
  unfold R.UPLINK_p_DISCARD_CNT blockOf; grind
@[simp] theorem R.PTP_CTRL_block : blockOf R.PTP_CTRL.addr = 21 := rfl
@[simp] theorem R.PTP_STATUS_block : blockOf R.PTP_STATUS.addr = 21 := rfl
@[simp] theorem R.PTP_EVENTS_block : blockOf R.PTP_EVENTS.addr = 21 := rfl
@[simp] theorem R.PTP_ATTN_MASK_block : blockOf R.PTP_ATTN_MASK.addr = 21 := rfl
@[simp] theorem R.PTP_SERVO_CFG_block : blockOf R.PTP_SERVO_CFG.addr = 21 := rfl
@[simp] theorem R.PTP_LOCK_CFG_block : blockOf R.PTP_LOCK_CFG.addr = 21 := rfl
@[simp] theorem R.PTP_PATH_CFG_block : blockOf R.PTP_PATH_CFG.addr = 21 := rfl
@[simp] theorem R.PTP_SEAT_MAX_block : blockOf R.PTP_SEAT_MAX.addr = 21 := rfl
@[simp] theorem R.PTP_OFFSET_LO_block : blockOf R.PTP_OFFSET_LO.addr = 21 := rfl
@[simp] theorem R.PTP_OFFSET_HI_block : blockOf R.PTP_OFFSET_HI.addr = 21 := rfl
@[simp] theorem R.PTP_MPD_block : blockOf R.PTP_MPD.addr = 21 := rfl
@[simp] theorem R.PTP_FREQ_block : blockOf R.PTP_FREQ.addr = 21 := rfl
@[simp] theorem R.PTP_ASYM_block : blockOf R.PTP_ASYM.addr = 21 := rfl
@[simp] theorem R.PTP_ASYM_EST_block : blockOf R.PTP_ASYM_EST.addr = 21 := rfl
@[simp] theorem R.PTP_STANDING_LO_block : blockOf R.PTP_STANDING_LO.addr = 21 := rfl
@[simp] theorem R.PTP_STANDING_HI_block : blockOf R.PTP_STANDING_HI.addr = 21 := rfl
@[simp] theorem R.PTP_CLOCK_ID_LO_block : blockOf R.PTP_CLOCK_ID_LO.addr = 21 := rfl
@[simp] theorem R.PTP_CLOCK_ID_HI_block : blockOf R.PTP_CLOCK_ID_HI.addr = 21 := rfl
@[simp] theorem R.PTP_PARENT_ID_LO_block : blockOf R.PTP_PARENT_ID_LO.addr = 21 := rfl
@[simp] theorem R.PTP_PARENT_ID_HI_block : blockOf R.PTP_PARENT_ID_HI.addr = 21 := rfl
@[simp] theorem R.PTP_PARENT_PORT_block : blockOf R.PTP_PARENT_PORT.addr = 21 := rfl
@[simp] theorem R.PTP_DISCARD_CNT_block : blockOf R.PTP_DISCARD_CNT.addr = 21 := rfl
@[simp] theorem R.PTP_SAMPLE_DROP_CNT_block : blockOf R.PTP_SAMPLE_DROP_CNT.addr = 21 := rfl
@[simp] theorem R.PTP_PATH_CHANGE_CNT_block : blockOf R.PTP_PATH_CHANGE_CNT.addr = 21 := rfl
@[simp] theorem R.PTP_q_COMP_block (i : Nat) : blockOf (R.PTP_q_COMP i).addr = 21 := by
  unfold R.PTP_q_COMP blockOf; grind
@[simp] theorem R.PTP_q_CFG_block (i : Nat) : blockOf (R.PTP_q_CFG i).addr = 21 := by
  unfold R.PTP_q_CFG blockOf; grind
@[simp] theorem R.PTP_q_RX_CNT_block (i : Nat) : blockOf (R.PTP_q_RX_CNT i).addr = 21 := by
  unfold R.PTP_q_RX_CNT blockOf; grind
@[simp] theorem R.PTP_q_TX_CNT_block (i : Nat) : blockOf (R.PTP_q_TX_CNT i).addr = 21 := by
  unfold R.PTP_q_TX_CNT blockOf; grind
@[simp] theorem R.SAFEMIR_STATUS_block : blockOf R.SAFEMIR_STATUS.addr = 23 := rfl
@[simp] theorem R.SAFEMIR_EVENTS_block : blockOf R.SAFEMIR_EVENTS.addr = 23 := rfl
@[simp] theorem R.SAFEMIR_ATTN_MASK_block : blockOf R.SAFEMIR_ATTN_MASK.addr = 23 := rfl
@[simp] theorem R.SAFEMIR_REQ_block : blockOf R.SAFEMIR_REQ.addr = 23 := rfl
@[simp] theorem R.SAFEMIR_CMD_block : blockOf R.SAFEMIR_CMD.addr = 23 := rfl
@[simp] theorem R.SAFEMIR_SET_ID_block : blockOf R.SAFEMIR_SET_ID.addr = 23 := rfl
@[simp] theorem R.SAFEMIR_SET_CRC_block : blockOf R.SAFEMIR_SET_CRC.addr = 23 := rfl
@[simp] theorem R.SAFEMIR_PEND_CRC_block : blockOf R.SAFEMIR_PEND_CRC.addr = 23 := rfl
@[simp] theorem R.SAFEMIR_TICK_block : blockOf R.SAFEMIR_TICK.addr = 23 := rfl
@[simp] theorem R.SAFEMIR_FRAME_V_LO_block : blockOf R.SAFEMIR_FRAME_V_LO.addr = 23 := rfl
@[simp] theorem R.SAFEMIR_FRAME_V_HI_block : blockOf R.SAFEMIR_FRAME_V_HI.addr = 23 := rfl
@[simp] theorem R.SAFEMIR_FAULT_LOG_block : blockOf R.SAFEMIR_FAULT_LOG.addr = 23 := rfl
@[simp] theorem R.SAFEMIR_RESET_CNT_block : blockOf R.SAFEMIR_RESET_CNT.addr = 23 := rfl
@[simp] theorem R.SAFEMIR_RESET_REF_CNT_block : blockOf R.SAFEMIR_RESET_REF_CNT.addr = 23 := rfl
@[simp] theorem R.SAFEMIR_BITS_w_block (i : Nat) : blockOf (R.SAFEMIR_BITS_w i).addr = 23 := by
  unfold R.SAFEMIR_BITS_w blockOf; grind
@[simp] theorem R.SAFEMIR_i_IN_block (i : Nat) : blockOf (R.SAFEMIR_i_IN i).addr = 23 := by
  unfold R.SAFEMIR_i_IN blockOf; grind
@[simp] theorem R.SAFEMIR_n_OUT_block (i : Nat) : blockOf (R.SAFEMIR_n_OUT i).addr = 23 := by
  unfold R.SAFEMIR_n_OUT blockOf; grind
@[simp] theorem R.MEM_EVENTS_block : blockOf R.MEM_EVENTS.addr = 24 := rfl
@[simp] theorem R.MEM_ATTN_MASK_block : blockOf R.MEM_ATTN_MASK.addr = 24 := rfl
@[simp] theorem R.MEM_CE_CNT_block : blockOf R.MEM_CE_CNT.addr = 24 := rfl
@[simp] theorem R.MEM_INT_CE_CNT_block : blockOf R.MEM_INT_CE_CNT.addr = 24 := rfl
@[simp] theorem R.MEM_UE_CNT_block : blockOf R.MEM_UE_CNT.addr = 24 := rfl
@[simp] theorem R.MEM_UE_ADDR_LO_block : blockOf R.MEM_UE_ADDR_LO.addr = 24 := rfl
@[simp] theorem R.MEM_UE_ADDR_HI_block : blockOf R.MEM_UE_ADDR_HI.addr = 24 := rfl
@[simp] theorem R.MEM_COLLIDE_CNT_block : blockOf R.MEM_COLLIDE_CNT.addr = 24 := rfl
@[simp] theorem R.MEM_VIOL_CNT_block : blockOf R.MEM_VIOL_CNT.addr = 24 := rfl
@[simp] theorem R.MEM_VIOL_ADDR_LO_block : blockOf R.MEM_VIOL_ADDR_LO.addr = 24 := rfl
@[simp] theorem R.MEM_VIOL_ADDR_HI_block : blockOf R.MEM_VIOL_ADDR_HI.addr = 24 := rfl
@[simp] theorem R.MEM_HARROW_CFG_block : blockOf R.MEM_HARROW_CFG.addr = 24 := rfl
@[simp] theorem R.MEM_HARROW_PASS_block : blockOf R.MEM_HARROW_PASS.addr = 24 := rfl
@[simp] theorem R.MEM_FALLOW_CFG_block : blockOf R.MEM_FALLOW_CFG.addr = 24 := rfl
@[simp] theorem R.MEM_FALLOW_FAIL_CNT_block : blockOf R.MEM_FALLOW_FAIL_CNT.addr = 24 := rfl
@[simp] theorem R.MEM_k_CFG_block (i : Nat) : blockOf (R.MEM_k_CFG i).addr = 24 := by
  unfold R.MEM_k_CFG blockOf; grind
@[simp] theorem R.MEM_k_OWNER_block (i : Nat) : blockOf (R.MEM_k_OWNER i).addr = 24 := by
  unfold R.MEM_k_OWNER blockOf; grind
@[simp] theorem R.MEM_k_CE_CNT_block (i : Nat) : blockOf (R.MEM_k_CE_CNT i).addr = 24 := by
  unfold R.MEM_k_CE_CNT blockOf; grind
@[simp] theorem R.MEM_k_MAX_WAIT_block (i : Nat) : blockOf (R.MEM_k_MAX_WAIT i).addr = 24 := by
  unfold R.MEM_k_MAX_WAIT blockOf; grind
@[simp] theorem R.BIST_CTRL_block : blockOf R.BIST_CTRL.addr = 25 := rfl
@[simp] theorem R.BIST_STATUS_block : blockOf R.BIST_STATUS.addr = 25 := rfl
@[simp] theorem R.BIST_EVENTS_block : blockOf R.BIST_EVENTS.addr = 25 := rfl
@[simp] theorem R.BIST_ATTN_MASK_block : blockOf R.BIST_ATTN_MASK.addr = 25 := rfl
@[simp] theorem R.BIST_PTR_block : blockOf R.BIST_PTR.addr = 25 := rfl
@[simp] theorem R.BIST_PASS_CNT_block : blockOf R.BIST_PASS_CNT.addr = 25 := rfl
@[simp] theorem R.BIST_FAIL_CNT_block : blockOf R.BIST_FAIL_CNT.addr = 25 := rfl
@[simp] theorem R.BIST_LAST_MS_block : blockOf R.BIST_LAST_MS.addr = 25 := rfl
@[simp] theorem R.BIST_SPARE_FREE_block : blockOf R.BIST_SPARE_FREE.addr = 25 := rfl
@[simp] theorem R.BIST_REPAIR_COUNT_block : blockOf R.BIST_REPAIR_COUNT.addr = 25 := rfl
@[simp] theorem R.BIST_REPAIR_SEL_block : blockOf R.BIST_REPAIR_SEL.addr = 25 := rfl
@[simp] theorem R.BIST_REPAIR_w_block (i : Nat) : blockOf (R.BIST_REPAIR_w i).addr = 25 := by
  unfold R.BIST_REPAIR_w blockOf; grind
@[simp] theorem R.GRAN_STATUS_block : blockOf R.GRAN_STATUS.addr = 26 := rfl
@[simp] theorem R.GRAN_EVENTS_block : blockOf R.GRAN_EVENTS.addr = 26 := rfl
@[simp] theorem R.GRAN_ATTN_MASK_block : blockOf R.GRAN_ATTN_MASK.addr = 26 := rfl
@[simp] theorem R.GRAN_RATE_BYTES_block : blockOf R.GRAN_RATE_BYTES.addr = 26 := rfl
@[simp] theorem R.GRAN_RATE_BURST_block : blockOf R.GRAN_RATE_BURST.addr = 26 := rfl
@[simp] theorem R.GRAN_CREDIT_block : blockOf R.GRAN_CREDIT.addr = 26 := rfl
@[simp] theorem R.GRAN_PERSIST_MIN_block : blockOf R.GRAN_PERSIST_MIN.addr = 26 := rfl
@[simp] theorem R.GRAN_WRAP_CNT_block : blockOf R.GRAN_WRAP_CNT.addr = 26 := rfl
@[simp] theorem R.GRAN_WEAR_MAX_block : blockOf R.GRAN_WEAR_MAX.addr = 26 := rfl
@[simp] theorem R.GRAN_SPARES_FREE_block : blockOf R.GRAN_SPARES_FREE.addr = 26 := rfl
@[simp] theorem R.GRAN_REMAP_CNT_block : blockOf R.GRAN_REMAP_CNT.addr = 26 := rfl
@[simp] theorem R.GRAN_VERIFY_FAIL_CNT_block : blockOf R.GRAN_VERIFY_FAIL_CNT.addr = 26 := rfl
@[simp] theorem R.GRAN_WAIT_MAX_block : blockOf R.GRAN_WAIT_MAX.addr = 26 := rfl
@[simp] theorem R.GRAN_PF_BYTES_block : blockOf R.GRAN_PF_BYTES.addr = 26 := rfl
@[simp] theorem R.GRAN_RECOVERY_block : blockOf R.GRAN_RECOVERY.addr = 26 := rfl
@[simp] theorem R.GRAN_JOURNAL_HEAD_block : blockOf R.GRAN_JOURNAL_HEAD.addr = 26 := rfl
@[simp] theorem R.SEC_STATUS_block : blockOf R.SEC_STATUS.addr = 27 := rfl
@[simp] theorem R.SEC_EVENTS_block : blockOf R.SEC_EVENTS.addr = 27 := rfl
@[simp] theorem R.SEC_ATTN_MASK_block : blockOf R.SEC_ATTN_MASK.addr = 27 := rfl
@[simp] theorem R.SEC_CMD_block : blockOf R.SEC_CMD.addr = 27 := rfl
@[simp] theorem R.SEC_CMD_RESULT_block : blockOf R.SEC_CMD_RESULT.addr = 27 := rfl
@[simp] theorem R.SEC_ROLLBACK_block : blockOf R.SEC_ROLLBACK.addr = 27 := rfl
@[simp] theorem R.SEC_ROOT_SLOTS_block : blockOf R.SEC_ROOT_SLOTS.addr = 27 := rfl
@[simp] theorem R.SEC_HOSTKEYS_block : blockOf R.SEC_HOSTKEYS.addr = 27 := rfl
@[simp] theorem R.SEC_IMAGE_STATUS_block : blockOf R.SEC_IMAGE_STATUS.addr = 27 := rfl
@[simp] theorem R.SEC_LMS_INDEX_LO_block : blockOf R.SEC_LMS_INDEX_LO.addr = 27 := rfl
@[simp] theorem R.SEC_LMS_INDEX_HI_block : blockOf R.SEC_LMS_INDEX_HI.addr = 27 := rfl
@[simp] theorem R.SEC_LMS_RESERVED_LO_block : blockOf R.SEC_LMS_RESERVED_LO.addr = 27 := rfl
@[simp] theorem R.SEC_LMS_RESERVED_HI_block : blockOf R.SEC_LMS_RESERVED_HI.addr = 27 := rfl
@[simp] theorem R.SEC_LMS_LOST_block : blockOf R.SEC_LMS_LOST.addr = 27 := rfl
@[simp] theorem R.SEC_TAMPER_CFG_block : blockOf R.SEC_TAMPER_CFG.addr = 27 := rfl
@[simp] theorem R.SEC_TAMPER_LIVE_block : blockOf R.SEC_TAMPER_LIVE.addr = 27 := rfl
@[simp] theorem R.SEC_TAMPER_LOG_block : blockOf R.SEC_TAMPER_LOG.addr = 27 := rfl
@[simp] theorem R.SEC_TAMPER_V_LO_block : blockOf R.SEC_TAMPER_V_LO.addr = 27 := rfl
@[simp] theorem R.SEC_TAMPER_V_HI_block : blockOf R.SEC_TAMPER_V_HI.addr = 27 := rfl
@[simp] theorem R.DRUS_CTRL_block : blockOf R.DRUS_CTRL.addr = 28 := rfl
@[simp] theorem R.DRUS_STATUS_block : blockOf R.DRUS_STATUS.addr = 28 := rfl
@[simp] theorem R.DRUS_EVENTS_block : blockOf R.DRUS_EVENTS.addr = 28 := rfl
@[simp] theorem R.DRUS_ATTN_MASK_block : blockOf R.DRUS_ATTN_MASK.addr = 28 := rfl
@[simp] theorem R.DRUS_REACH_block : blockOf R.DRUS_REACH.addr = 28 := rfl
@[simp] theorem R.DRUS_OFFSET_block : blockOf R.DRUS_OFFSET.addr = 28 := rfl
@[simp] theorem R.DRUS_EVT_FWD_block : blockOf R.DRUS_EVT_FWD.addr = 28 := rfl
@[simp] theorem R.DRUS_EVT_DESC_block : blockOf R.DRUS_EVT_DESC.addr = 28 := rfl
@[simp] theorem R.DRUS_ATTN_DEV_block : blockOf R.DRUS_ATTN_DEV.addr = 28 := rfl
@[simp] theorem R.DRUS_DOUBT_LIMIT_block : blockOf R.DRUS_DOUBT_LIMIT.addr = 28 := rfl
@[simp] theorem R.DRUS_FARM_LOST_LIMIT_block : blockOf R.DRUS_FARM_LOST_LIMIT.addr = 28 := rfl
@[simp] theorem R.DRUS_TWIN_CFG_block : blockOf R.DRUS_TWIN_CFG.addr = 28 := rfl
@[simp] theorem R.DRUS_TWIN_STATUS_block : blockOf R.DRUS_TWIN_STATUS.addr = 28 := rfl
@[simp] theorem R.DRUS_LOST_CNT_block : blockOf R.DRUS_LOST_CNT.addr = 28 := rfl
@[simp] theorem R.DRUS_REMOTE_REFUSED_CNT_block : blockOf R.DRUS_REMOTE_REFUSED_CNT.addr = 28 := rfl
@[simp] theorem R.DRUS_p_CTRL_block (i : Nat) : blockOf (R.DRUS_p_CTRL i).addr = 28 := by
  unfold R.DRUS_p_CTRL blockOf; grind
@[simp] theorem R.DRUS_p_STATUS_block (i : Nat) : blockOf (R.DRUS_p_STATUS i).addr = 28 := by
  unfold R.DRUS_p_STATUS blockOf; grind
@[simp] theorem R.DRUS_p_COMP_block (i : Nat) : blockOf (R.DRUS_p_COMP i).addr = 28 := by
  unfold R.DRUS_p_COMP blockOf; grind
@[simp] theorem R.DRUS_p_DELAY_block (i : Nat) : blockOf (R.DRUS_p_DELAY i).addr = 28 := by
  unfold R.DRUS_p_DELAY blockOf; grind
@[simp] theorem R.DRUS_p_RETRY_CNT_block (i : Nat) : blockOf (R.DRUS_p_RETRY_CNT i).addr = 28 := by
  unfold R.DRUS_p_RETRY_CNT blockOf; grind
@[simp] theorem R.DRUS_p_CRC_CNT_block (i : Nat) : blockOf (R.DRUS_p_CRC_CNT i).addr = 28 := by
  unfold R.DRUS_p_CRC_CNT blockOf; grind
@[simp] theorem R.CLK_STATUS_block : blockOf R.CLK_STATUS.addr = 1 := rfl
@[simp] theorem R.CLK_EVENTS_block : blockOf R.CLK_EVENTS.addr = 1 := rfl
@[simp] theorem R.CLK_ATTN_MASK_block : blockOf R.CLK_ATTN_MASK.addr = 1 := rfl
@[simp] theorem R.CLK_WDOG_CFG_block : blockOf R.CLK_WDOG_CFG.addr = 1 := rfl
@[simp] theorem R.CLK_WDOG_KICK_block : blockOf R.CLK_WDOG_KICK.addr = 1 := rfl
@[simp] theorem R.CLK_WDOG_CNT_block : blockOf R.CLK_WDOG_CNT.addr = 1 := rfl
@[simp] theorem R.CLK_SVC_CNT_block : blockOf R.CLK_SVC_CNT.addr = 1 := rfl
@[simp] theorem R.CLK_WARM_CNT_block : blockOf R.CLK_WARM_CNT.addr = 1 := rfl
@[simp] theorem R.CLK_PF_CNT_block : blockOf R.CLK_PF_CNT.addr = 1 := rfl
@[simp] theorem R.CLK_CMD_block : blockOf R.CLK_CMD.addr = 1 := rfl
@[simp] theorem R.CLK_SHUT_STATUS_block : blockOf R.CLK_SHUT_STATUS.addr = 1 := rfl
@[simp] theorem R.CLK_SHUT_CFG_block : blockOf R.CLK_SHUT_CFG.addr = 1 := rfl
@[simp] theorem R.CLK_FW_TRIAL_MS_block : blockOf R.CLK_FW_TRIAL_MS.addr = 1 := rfl
@[simp] theorem R.CLK_START_TIME_block : blockOf R.CLK_START_TIME.addr = 1 := rfl
@[simp] theorem R.LINKTEST_EVENTS_block : blockOf R.LINKTEST_EVENTS.addr = 31 := rfl
@[simp] theorem R.LINKTEST_ATTN_MASK_block : blockOf R.LINKTEST_ATTN_MASK.addr = 31 := rfl
@[simp] theorem R.LINKTEST_l_CTRL_block (i : Nat) : blockOf (R.LINKTEST_l_CTRL i).addr = 31 := by
  unfold R.LINKTEST_l_CTRL blockOf; grind
@[simp] theorem R.LINKTEST_l_STATUS_block (i : Nat) : blockOf (R.LINKTEST_l_STATUS i).addr = 31 := by
  unfold R.LINKTEST_l_STATUS blockOf; grind
@[simp] theorem R.LINKTEST_l_BITS_LO_block (i : Nat) : blockOf (R.LINKTEST_l_BITS_LO i).addr = 31 := by
  unfold R.LINKTEST_l_BITS_LO blockOf; grind
@[simp] theorem R.LINKTEST_l_BITS_HI_block (i : Nat) : blockOf (R.LINKTEST_l_BITS_HI i).addr = 31 := by
  unfold R.LINKTEST_l_BITS_HI blockOf; grind
@[simp] theorem R.LINKTEST_l_ERR_LO_block (i : Nat) : blockOf (R.LINKTEST_l_ERR_LO i).addr = 31 := by
  unfold R.LINKTEST_l_ERR_LO blockOf; grind
@[simp] theorem R.LINKTEST_l_ERR_HI_block (i : Nat) : blockOf (R.LINKTEST_l_ERR_HI i).addr = 31 := by
  unfold R.LINKTEST_l_ERR_HI blockOf; grind
@[simp] theorem R.LINKTEST_l_LOCK_CNT_block (i : Nat) : blockOf (R.LINKTEST_l_LOCK_CNT i).addr = 31 := by
  unfold R.LINKTEST_l_LOCK_CNT blockOf; grind
@[simp] theorem R.LINKTEST_f_FCTRL_block (i : Nat) : blockOf (R.LINKTEST_f_FCTRL i).addr = 31 := by
  unfold R.LINKTEST_f_FCTRL blockOf; grind
@[simp] theorem R.LINKTEST_f_FCOUNT_block (i : Nat) : blockOf (R.LINKTEST_f_FCOUNT i).addr = 31 := by
  unfold R.LINKTEST_f_FCOUNT blockOf; grind
@[simp] theorem R.LINKTEST_f_SENT_block (i : Nat) : blockOf (R.LINKTEST_f_SENT i).addr = 31 := by
  unfold R.LINKTEST_f_SENT blockOf; grind
@[simp] theorem R.LINKTEST_f_GOOD_block (i : Nat) : blockOf (R.LINKTEST_f_GOOD i).addr = 31 := by
  unfold R.LINKTEST_f_GOOD blockOf; grind
@[simp] theorem R.LINKTEST_f_BAD_block (i : Nat) : blockOf (R.LINKTEST_f_BAD i).addr = 31 := by
  unfold R.LINKTEST_f_BAD blockOf; grind
@[simp] theorem R.LINKTEST_f_LOST_block (i : Nat) : blockOf (R.LINKTEST_f_LOST i).addr = 31 := by
  unfold R.LINKTEST_f_LOST blockOf; grind
@[simp] theorem R.DDR_CTRL_block : blockOf R.DDR_CTRL.addr = 29 := rfl
@[simp] theorem R.DDR_STATUS_block : blockOf R.DDR_STATUS.addr = 29 := rfl
@[simp] theorem R.DDR_EVENTS_block : blockOf R.DDR_EVENTS.addr = 29 := rfl
@[simp] theorem R.DDR_ATTN_MASK_block : blockOf R.DDR_ATTN_MASK.addr = 29 := rfl
@[simp] theorem R.DDR_SIZE_block : blockOf R.DDR_SIZE.addr = 29 := rfl
@[simp] theorem R.DDR_CE_CNT_block : blockOf R.DDR_CE_CNT.addr = 29 := rfl
@[simp] theorem R.DDR_UE_CNT_block : blockOf R.DDR_UE_CNT.addr = 29 := rfl
@[simp] theorem R.DDR_UE_ADDR_LO_block : blockOf R.DDR_UE_ADDR_LO.addr = 29 := rfl
@[simp] theorem R.DDR_UE_ADDR_HI_block : blockOf R.DDR_UE_ADDR_HI.addr = 29 := rfl
@[simp] theorem R.DDR_TEST_CTRL_block : blockOf R.DDR_TEST_CTRL.addr = 29 := rfl
@[simp] theorem R.DDR_TEST_BASE_block : blockOf R.DDR_TEST_BASE.addr = 29 := rfl
@[simp] theorem R.DDR_TEST_SIZE_block : blockOf R.DDR_TEST_SIZE.addr = 29 := rfl
@[simp] theorem R.DDR_TEST_ERR_block : blockOf R.DDR_TEST_ERR.addr = 29 := rfl
@[simp] theorem R.DDR_TEST_FIRST_block : blockOf R.DDR_TEST_FIRST.addr = 29 := rfl
@[simp] theorem R.DDR_TRAIN_TIME_block : blockOf R.DDR_TRAIN_TIME.addr = 29 := rfl
@[simp] theorem R.XSPI_STATUS_block : blockOf R.XSPI_STATUS.addr = 30 := rfl
@[simp] theorem R.XSPI_EVENTS_block : blockOf R.XSPI_EVENTS.addr = 30 := rfl
@[simp] theorem R.XSPI_ATTN_MASK_block : blockOf R.XSPI_ATTN_MASK.addr = 30 := rfl
@[simp] theorem R.XSPI_SIZE_block : blockOf R.XSPI_SIZE.addr = 30 := rfl
@[simp] theorem R.XSPI_ID_block : blockOf R.XSPI_ID.addr = 30 := rfl
@[simp] theorem R.XSPI_ERR_CNT_block : blockOf R.XSPI_ERR_CNT.addr = 30 := rfl

end Sys2Proof.Machine
end

