-- ==== Sys2Proof/Laws/Keeps/TimeBase.lean ====
section
/-! SUPPORT. What the operations of Sys2Proof/Machine/TimeBase.lean leave unchanged. -/

set_option linter.all false
set_option Elab.async false

namespace Sys2Proof.Machine

variable {w : List Piece} {s t : State}

theorem State.takeStage_keeps {x1 : Master} {x2 : Reg} (hw : Within [.stage, .block (blockOf x2.addr)] w) (h : Keeps w s t) :
    Keeps w s (State.takeStage t x1 x2).2 := by
  unfold State.takeStage
  repeat' first
    | with_reducible assumption
    | ((with_reducible refine Within.sub hw ?_); exact rfl)
    | exact hw.sub (by simp [Within])
    | split
    | intro _
    | dsimp only
    | with_reducible refine Keeps.set_stage ?_ ?_

theorem State.takeStage_keeps_eq {x1 : Master} {x2 : Reg} {y} {u : State}  (e : State.takeStage t x1 x2 = (y, u)) (hw : Within [.stage, .block (blockOf x2.addr)] w) (h : Keeps w s t) : Keeps w s u := by
  have := State.takeStage_keeps hw h (x1 := x1) (x2 := x2)
  rw [e] at this; exact this

theorem portDone_keeps {x0 : Nat} (hw : Within [.resets] w) (h : Keeps w s t) :
    Keeps w s (portDone x0 t) := by
  unfold portDone
  repeat' first
    | with_reducible assumption
    | ((with_reducible refine Within.sub hw ?_); exact rfl)
    | split
    | intro _
    | dsimp only
    | with_reducible refine Keeps.set_resets ?_ ?_

theorem State.headRefused_keeps (hw : Within [.evlog, .block 0, .block 3] w) (h : Keeps w s t) :
    Keeps w s (State.headRefused t) := by
  unfold State.headRefused
  repeat' first
    | with_reducible assumption
    | ((with_reducible refine Within.sub hw ?_); exact rfl)
    | with_reducible refine Keeps.raise ?_ ?_
    | split
    | intro _
    | dsimp only

theorem keepClock_keeps (hw : Within [.ptp] w) (h : Keeps w s t) :
    Keeps w s (keepClock t) := by
  unfold keepClock
  repeat' first
    | with_reducible assumption
    | ((with_reducible refine Within.sub hw ?_); exact rfl)
    | split
    | intro _
    | dsimp only
    | with_reducible refine Keeps.set_ptp ?_ ?_

theorem rateAdjWrite_keeps {x0 : Word} (hw : Within [.evlog, .ptp, .block 0, .block 2] w) (h : Keeps w s t) :
    Keeps w s (rateAdjWrite x0 t) := by
  unfold rateAdjWrite
  repeat' first
    | with_reducible assumption
    | ((with_reducible refine Within.sub hw ?_); exact rfl)
    | with_reducible refine Keeps.incSat ?_ ?_
    | with_reducible refine Keeps.raise ?_ ?_
    | with_reducible refine Keeps.setReg ?_ ?_
    | with_reducible refine Keeps.setReg64 ?_ ?_
    | with_reducible refine keepClock_keeps ?_ ?_
    | split
    | intro _
    | dsimp only

theorem headRealign_keeps (hw : Within [.evlog, .head, .block 0, .block 3] w) (h : Keeps w s t) :
    Keeps w s (headRealign t) := by
  unfold headRealign
  repeat' first
    | with_reducible assumption
    | ((with_reducible refine Within.sub hw ?_); exact rfl)
    | with_reducible refine Keeps.raise ?_ ?_
    | split
    | intro _
    | dsimp only
    | with_reducible refine Keeps.set_head ?_ ?_

theorem offsetSet_keeps {x0 : Quad} (hw : Within [.ptp, .block 2] w) (h : Keeps w s t) :
    Keeps w s (offsetSet x0 t) := by
  unfold offsetSet
  repeat' first
    | with_reducible assumption
    | ((with_reducible refine Within.sub hw ?_); exact rfl)
    | with_reducible refine Keeps.setReg64 ?_ ?_
    | with_reducible refine keepClock_keeps ?_ ?_
    | split
    | intro _
    | dsimp only

theorem offsetWrite_keeps {x0 : Master} {x1 : Word} (hw : Within [.evlog, .head, .ptp, .stage, .block 0, .block 2, .block 3] w) (h : Keeps w s t) :
    Keeps w s (offsetWrite x0 x1 t) := by
  unfold offsetWrite
  repeat' first
    | with_reducible assumption
    | ((with_reducible refine Within.sub hw ?_); exact rfl)
    | with_reducible refine Keeps.raise ?_ ?_
    | with_reducible refine State.takeStage_keeps ?_ ?_
    | with_reducible refine State.takeStage_keeps_eq (by assumption) ?_ ?_
    | with_reducible refine headRealign_keeps ?_ ?_
    | with_reducible refine offsetSet_keeps ?_ ?_
    | split
    | intro _
    | dsimp only

theorem seatClock_keeps (hw : Within [.evlog, .ptp, .block 0, .block 2, .block 21] w) (h : Keeps w s t) :
    Keeps w s (seatClock t) := by
  unfold seatClock
  repeat' first
    | with_reducible assumption
    | ((with_reducible refine Within.sub hw ?_); exact rfl)
    | with_reducible refine Keeps.put ?_ ?_
    | with_reducible refine Keeps.raise ?_ ?_
    | with_reducible refine Keeps.setReg64 ?_ ?_
    | with_reducible refine Keeps.when ?_ ?_
    | split
    | intro _
    | dsimp only
    | with_reducible refine Keeps.set_ptp ?_ ?_

theorem vnowRead_keeps {x0 : Master} (hw : Within [.group, .latch, .readData] w) (h : Keeps w s t) :
    Keeps w s (vnowRead x0 t) := by
  unfold vnowRead
  repeat' first
    | with_reducible assumption
    | ((with_reducible refine Within.sub hw ?_); exact rfl)
    | split
    | intro _
    | dsimp only
    | with_reducible refine Keeps.set_readData_latch_group ?_ ?_

theorem openInterval_keeps {x0 : Nat} {x1 : Int} {x2 : Int} (hw : Within [.head] w) (h : Keeps w s t) :
    Keeps w s (openInterval x0 x1 x2 t) := by
  unfold openInterval
  repeat' first
    | with_reducible assumption
    | ((with_reducible refine Within.sub hw ?_); exact rfl)
    | split
    | intro _
    | dsimp only
    | with_reducible refine Keeps.set_head ?_ ?_

theorem setTarget_keeps {x0 : Int} (hw : Within [.head, .block 3] w) (h : Keeps w s t) :
    Keeps w s (setTarget x0 t) := by
  unfold setTarget
  repeat' first
    | with_reducible assumption
    | ((with_reducible refine Within.sub hw ?_); exact rfl)
    | with_reducible refine Keeps.setReg ?_ ?_
    | split
    | intro _
    | dsimp only
    | with_reducible refine Keeps.set_head ?_ ?_

theorem runStart_keeps (hw : Within [.head, .block 3] w) (h : Keeps w s t) :
    Keeps w s (runStart t) := by
  unfold runStart
  repeat' first
    | with_reducible assumption
    | ((with_reducible refine Within.sub hw ?_); exact rfl)
    | with_reducible refine Keeps.forAll ?_ ?_
    | with_reducible refine Keeps.put ?_ ?_
    | with_reducible refine Keeps.setReg ?_ ?_
    | with_reducible refine setTarget_keeps ?_ ?_
    | (simp only [R.HEAD_n_COUNT_block]; (with_reducible refine Within.sub hw ?_); exact rfl)
    | split
    | intro _
    | dsimp only
    | with_reducible refine Keeps.set_head ?_ ?_

theorem runSet_keeps (hw : Within [.evlog, .head, .block 0, .block 3] w) (h : Keeps w s t) :
    Keeps w s (runSet t) := by
  unfold runSet
  repeat' first
    | with_reducible assumption
    | ((with_reducible refine Within.sub hw ?_); exact rfl)
    | with_reducible refine runStart_keeps ?_ ?_
    | split
    | intro _
    | dsimp only

theorem runClear_keeps (hw : Within [.analog, .evlog, .head, .block 0, .block 3] w) (h : Keeps w s t) :
    Keeps w s (runClear t) := by
  unfold runClear
  repeat' first
    | with_reducible assumption
    | ((with_reducible refine Within.sub hw ?_); exact rfl)
    | with_reducible refine Keeps.put ?_ ?_
    | split
    | intro _
    | dsimp only
    | with_reducible refine Keeps.set_head_analog ?_ ?_

theorem setSyncState_keeps {x0 : Nat} (hw : Within [.block 3] w) (h : Keeps w s t) :
    Keeps w s (setSyncState x0 t) := by
  unfold setSyncState
  repeat' first
    | with_reducible assumption
    | ((with_reducible refine Within.sub hw ?_); exact rfl)
    | with_reducible refine Keeps.put ?_ ?_
    | split
    | intro _
    | dsimp only

theorem syncArm_keeps (hw : Within [.head, .block 3] w) (h : Keeps w s t) :
    Keeps w s (syncArm t) := by
  unfold syncArm
  repeat' first
    | with_reducible assumption
    | ((with_reducible refine Within.sub hw ?_); exact rfl)
    | with_reducible refine Keeps.put ?_ ?_
    | with_reducible refine setSyncState_keeps ?_ ?_
    | with_reducible refine setTarget_keeps ?_ ?_
    | split
    | intro _
    | dsimp only
    | with_reducible refine Keeps.set_head ?_ ?_

theorem syncCtrl_keeps {x0 : Bool} {x1 : Bool} (hw : Within [.head, .block 3] w) (h : Keeps w s t) :
    Keeps w s (syncCtrl x0 x1 t) := by
  unfold syncCtrl
  repeat' first
    | with_reducible assumption
    | ((with_reducible refine Within.sub hw ?_); exact rfl)
    | with_reducible refine Keeps.putFlag ?_ ?_
    | with_reducible refine setSyncState_keeps ?_ ?_
    | with_reducible refine setTarget_keeps ?_ ?_
    | with_reducible refine syncArm_keeps ?_ ?_
    | split
    | intro _
    | dsimp only

theorem headCtrlWrite_keeps {x0 : Word} (hw : Within [.analog, .evlog, .head, .block 0, .block 3] w) (h : Keeps w s t) :
    Keeps w s (headCtrlWrite x0 t) := by
  unfold headCtrlWrite
  repeat' first
    | with_reducible assumption
    | ((with_reducible refine Within.sub hw ?_); exact rfl)
    | with_reducible refine State.headRefused_keeps ?_ ?_
    | with_reducible refine runClear_keeps ?_ ?_
    | with_reducible refine runSet_keeps ?_ ?_
    | with_reducible refine syncCtrl_keeps ?_ ?_
    | split
    | intro _
    | dsimp only

theorem headPeriodWrite_keeps {x0 : Word} (hw : Within [.evlog, .block 0, .block 3] w) (h : Keeps w s t) :
    Keeps w s (headPeriodWrite x0 t) := by
  unfold headPeriodWrite
  repeat' first
    | with_reducible assumption
    | ((with_reducible refine Within.sub hw ?_); exact rfl)
    | with_reducible refine State.headRefused_keeps ?_ ?_
    | with_reducible refine Keeps.setReg ?_ ?_
    | split
    | intro _
    | dsimp only

theorem classCfgWrite_keeps {x0 : Nat} {x1 : Word} (hw : Within [.evlog, .block 0, .block 3] w) (h : Keeps w s t) :
    Keeps w s (classCfgWrite x0 x1 t) := by
  unfold classCfgWrite
  repeat' first
    | with_reducible assumption
    | ((with_reducible refine Within.sub hw ?_); exact rfl)
    | with_reducible refine State.headRefused_keeps ?_ ?_
    | with_reducible refine Keeps.setReg ?_ ?_
    | (simp only [R.HEAD_n_CLASS_CFG_block]; (with_reducible refine Within.sub hw ?_); exact rfl)
    | split
    | intro _
    | dsimp only

theorem headSyncCfgWrite_keeps {x0 : Word} (hw : Within [.evlog, .block 0, .block 3] w) (h : Keeps w s t) :
    Keeps w s (headSyncCfgWrite x0 t) := by
  unfold headSyncCfgWrite
  repeat' first
    | with_reducible assumption
    | ((with_reducible refine Within.sub hw ?_); exact rfl)
    | with_reducible refine State.headRefused_keeps ?_ ?_
    | with_reducible refine Keeps.setReg ?_ ?_
    | split
    | intro _
    | dsimp only

theorem headSyncCompWrite_keeps {x0 : Word} (hw : Within [.block 3] w) (h : Keeps w s t) :
    Keeps w s (headSyncCompWrite x0 t) := by
  unfold headSyncCompWrite
  repeat' first
    | with_reducible assumption
    | ((with_reducible refine Within.sub hw ?_); exact rfl)
    | with_reducible refine Keeps.setReg ?_ ?_
    | split
    | intro _
    | dsimp only

theorem headSyncMissWrite_keeps {x0 : Word} (hw : Within [.block 3] w) (h : Keeps w s t) :
    Keeps w s (headSyncMissWrite x0 t) := by
  unfold headSyncMissWrite
  repeat' first
    | with_reducible assumption
    | ((with_reducible refine Within.sub hw ?_); exact rfl)
    | with_reducible refine Keeps.put ?_ ?_
    | split
    | intro _
    | dsimp only

theorem syncLost_keeps {x0 : Nat} {x1 : Nat} {x2 : Int} (hw : Within [.evlog, .head, .block 0, .block 3] w) (h : Keeps w s t) :
    Keeps w s (syncLost x0 x1 x2 t) := by
  unfold syncLost
  repeat' first
    | with_reducible assumption
    | ((with_reducible refine Within.sub hw ?_); exact rfl)
    | with_reducible refine Keeps.incSat ?_ ?_
    | with_reducible refine Keeps.put ?_ ?_
    | with_reducible refine Keeps.raiseNamed ?_ ?_
    | with_reducible refine setSyncState_keeps ?_ ?_
    | with_reducible refine setTarget_keeps ?_ ?_
    | split
    | intro _
    | dsimp only

theorem edgeUsed_keeps {x0 : SyncWindow} {x1 : Int} (hw : Within [.evlog, .head, .block 0, .block 3] w) (h : Keeps w s t) :
    Keeps w s (edgeUsed x0 x1 t) := by
  unfold edgeUsed
  repeat' first
    | with_reducible assumption
    | ((with_reducible refine Within.sub hw ?_); exact rfl)
    | with_reducible refine Keeps.put ?_ ?_
    | with_reducible refine Keeps.setReg ?_ ?_
    | with_reducible refine syncLost_keeps ?_ ?_
    | split
    | intro _
    | dsimp only
    | with_reducible refine Keeps.set_head ?_ ?_

theorem edgeJudge_keeps {x0 : Int} (hw : Within [.evlog, .head, .block 0, .block 3] w) (h : Keeps w s t) :
    Keeps w s (edgeJudge x0 t) := by
  unfold edgeJudge
  repeat' first
    | with_reducible assumption
    | ((with_reducible refine Within.sub hw ?_); exact rfl)
    | with_reducible refine Keeps.incSat ?_ ?_
    | with_reducible refine edgeUsed_keeps ?_ ?_
    | split
    | intro _
    | dsimp only

theorem headsyncEdge_keeps {x0 : Quad} {x1 : Bool} (hw : Within [.evlog, .head, .raw, .block 0, .block 3] w) (h : Keeps w s t) :
    Keeps w s (headsyncEdge x0 x1 t) := by
  unfold headsyncEdge
  repeat' first
    | with_reducible assumption
    | ((with_reducible refine Within.sub hw ?_); exact rfl)
    | with_reducible refine Keeps.advanceTo ?_ ?_
    | with_reducible refine edgeJudge_keeps ?_ ?_
    | split
    | intro _
    | dsimp only
    | with_reducible refine Keeps.set_head ?_ ?_

theorem earlyEdges_keeps (hw : Within [.evlog, .head, .block 0, .block 3] w) (h : Keeps w s t) :
    Keeps w s (earlyEdges t) := by
  unfold earlyEdges
  repeat' first
    | with_reducible assumption
    | ((with_reducible refine Within.sub hw ?_); exact rfl)
    | with_reducible refine Keeps.forAll ?_ ?_
    | with_reducible refine edgeJudge_keeps ?_ ?_
    | split
    | intro _
    | dsimp only
    | with_reducible refine Keeps.set_head ?_ ?_

theorem windowMissed_keeps {x0 : Nat} (hw : Within [.evlog, .head, .block 0, .block 3] w) (h : Keeps w s t) :
    Keeps w s (windowMissed x0 t) := by
  unfold windowMissed
  repeat' first
    | with_reducible assumption
    | ((with_reducible refine Within.sub hw ?_); exact rfl)
    | with_reducible refine Keeps.addFldSat ?_ ?_
    | with_reducible refine syncLost_keeps ?_ ?_
    | split
    | intro _
    | dsimp only

theorem headsyncWindowClose_keeps (hw : Within [.evlog, .head, .raw, .block 0, .block 3] w) (h : Keeps w s t) :
    Keeps w s (headsyncWindowClose t) := by
  unfold headsyncWindowClose
  repeat' first
    | with_reducible assumption
    | ((with_reducible refine Within.sub hw ?_); exact rfl)
    | with_reducible refine Keeps.advanceToV ?_ ?_
    | with_reducible refine windowMissed_keeps ?_ ?_
    | split
    | intro _
    | dsimp only
    | with_reducible refine Keeps.set_head ?_ ?_

theorem classHeadland_keeps {x0 : Nat} {x1 : Int} (hw : Within [.head, .block 3] w) (h : Keeps w s t) :
    Keeps w s (classHeadland x0 x1 t) := by
  unfold classHeadland
  repeat' first
    | with_reducible assumption
    | ((with_reducible refine Within.sub hw ?_); exact rfl)
    | with_reducible refine Keeps.incWrap ?_ ?_
    | with_reducible refine Keeps.setReg64 ?_ ?_
    | (simp only [R.HEAD_n_COUNT_block, R.HEAD_n_INTERVAL_HI_block, R.HEAD_n_INTERVAL_LO_block, R.HEAD_n_LAST_V_HI_block, R.HEAD_n_LAST_V_LO_block]; (with_reducible refine Within.sub hw ?_); exact rfl)
    | split
    | intro _
    | dsimp only
    | with_reducible refine Keeps.set_head ?_ ?_

theorem headlandOccurs_keeps (hw : Within [.evlog, .head, .raw, .block 0, .block 3] w) (h : Keeps w s t) :
    Keeps w s (headlandOccurs t) := by
  unfold headlandOccurs
  repeat' first
    | with_reducible assumption
    | ((with_reducible refine Within.sub hw ?_); exact rfl)
    | with_reducible refine Keeps.advanceToV ?_ ?_
    | with_reducible refine Keeps.foldl ?_ ?_
    | with_reducible refine Keeps.forAll ?_ ?_
    | with_reducible refine Keeps.put ?_ ?_
    | with_reducible refine Keeps.setReg ?_ ?_
    | with_reducible refine Keeps.setReg64 ?_ ?_
    | with_reducible refine classHeadland_keeps ?_ ?_
    | with_reducible refine earlyEdges_keeps ?_ ?_
    | with_reducible refine openInterval_keeps ?_ ?_
    | split
    | intro _
    | dsimp only
    | with_reducible refine Keeps.set_head ?_ ?_

end Sys2Proof.Machine
end

