-- ==== Sys2Proof/Laws/Keeps/Collie.lean ====
section
/-! SUPPORT. What the operations of Sys2Proof/Machine/Collie.lean leave unchanged. -/

set_option linter.all false
set_option Elab.async false

namespace Sys2Proof.Machine

variable {w : List Piece} {s t : State}

theorem State.setTask_keeps {x1 : Nat} {x2 : TaskState} (hw : Within [.collie] w) (h : Keeps w s t) :
    Keeps w s (State.setTask t x1 x2) := by
  unfold State.setTask
  repeat' first
    | with_reducible assumption
    | ((with_reducible refine Within.sub hw ?_); exact rfl)
    | split
    | intro _
    | dsimp only
    | with_reducible refine Keeps.set_collie ?_ ?_

theorem State.setOldTask_keeps {x1 : Nat} {x2 : TaskState} (hw : Within [.collie] w) (h : Keeps w s t) :
    Keeps w s (State.setOldTask t x1 x2) := by
  unfold State.setOldTask
  repeat' first
    | with_reducible assumption
    | ((with_reducible refine Within.sub hw ?_); exact rfl)
    | split
    | intro _
    | dsimp only
    | with_reducible refine Keeps.set_collie ?_ ?_

theorem State.setCore_keeps {x1 : Nat} {x2 : Core} (hw : Within [.collie] w) (h : Keeps w s t) :
    Keeps w s (State.setCore t x1 x2) := by
  unfold State.setCore
  repeat' first
    | with_reducible assumption
    | ((with_reducible refine Within.sub hw ?_); exact rfl)
    | split
    | intro _
    | dsimp only
    | with_reducible refine Keeps.set_collie ?_ ?_

theorem State.setRun_keeps {x1 : Nat} {x2 : Option Run} (hw : Within [.collie] w) (h : Keeps w s t) :
    Keeps w s (State.setRun t x1 x2) := by
  unfold State.setRun
  repeat' first
    | with_reducible assumption
    | ((with_reducible refine Within.sub hw ?_); exact rfl)
    | with_reducible refine State.setCore_keeps ?_ ?_
    | split
    | intro _
    | dsimp only

theorem State.setFlow_keeps {x1 : Nat} {x2 : Flow} (hw : Within [.collie] w) (h : Keeps w s t) :
    Keeps w s (State.setFlow t x1 x2) := by
  unfold State.setFlow
  repeat' first
    | with_reducible assumption
    | ((with_reducible refine Within.sub hw ?_); exact rfl)
    | split
    | intro _
    | dsimp only
    | with_reducible refine Keeps.set_collie ?_ ?_

theorem State.setReady_keeps {x1 : Nat} {x2 : Nat} {x3 : List ReadyEntry} (hw : Within [.collie] w) (h : Keeps w s t) :
    Keeps w s (State.setReady t x1 x2 x3) := by
  unfold State.setReady
  repeat' first
    | with_reducible assumption
    | ((with_reducible refine Within.sub hw ?_); exact rfl)
    | split
    | intro _
    | dsimp only
    | with_reducible refine Keeps.set_collie ?_ ?_

theorem State.setReleases_keeps {x1 : Nat} {x2 : List Release} (hw : Within [.collie] w) (h : Keeps w s t) :
    Keeps w s (State.setReleases t x1 x2) := by
  unfold State.setReleases
  repeat' first
    | with_reducible assumption
    | ((with_reducible refine Within.sub hw ?_); exact rfl)
    | split
    | intro _
    | dsimp only
    | with_reducible refine Keeps.set_collie ?_ ?_

theorem State.setRetained_keeps {x1 : Nat} {x2 : Retained} (hw : Within [.collie] w) (h : Keeps w s t) :
    Keeps w s (State.setRetained t x1 x2) := by
  unfold State.setRetained
  repeat' first
    | with_reducible assumption
    | ((with_reducible refine Within.sub hw ?_); exact rfl)
    | split
    | intro _
    | dsimp only
    | with_reducible refine Keeps.set_collie ?_ ?_

theorem State.setTaskOf_keeps {x1 : Bool} {x2 : Nat} {x3 : TaskState} (hw : Within [.collie] w) (h : Keeps w s t) :
    Keeps w s (State.setTaskOf t x1 x2 x3) := by
  unfold State.setTaskOf
  repeat' first
    | with_reducible assumption
    | ((with_reducible refine Within.sub hw ?_); exact rfl)
    | with_reducible refine State.setOldTask_keeps ?_ ?_
    | with_reducible refine State.setTask_keeps ?_ ?_
    | split
    | intro _
    | dsimp only

theorem State.setOldRetained_keeps {x1 : Nat} {x2 : Retained} (hw : Within [.collie] w) (h : Keeps w s t) :
    Keeps w s (State.setOldRetained t x1 x2) := by
  unfold State.setOldRetained
  repeat' first
    | with_reducible assumption
    | ((with_reducible refine Within.sub hw ?_); exact rfl)
    | split
    | intro _
    | dsimp only
    | with_reducible refine Keeps.set_collie ?_ ?_

theorem poolTake_keeps {x0 : Nat} (hw : Within [.collie] w) (h : Keeps w s t) :
    Keeps w s (poolTake x0 t) := by
  unfold poolTake
  repeat' first
    | with_reducible assumption
    | ((with_reducible refine Within.sub hw ?_); exact rfl)
    | split
    | intro _
    | dsimp only
    | with_reducible refine Keeps.set_collie ?_ ?_

theorem poolGive_keeps {x0 : Nat} (hw : Within [.collie] w) (h : Keeps w s t) :
    Keeps w s (poolGive x0 t) := by
  unfold poolGive
  repeat' first
    | with_reducible assumption
    | ((with_reducible refine Within.sub hw ?_); exact rfl)
    | split
    | intro _
    | dsimp only
    | with_reducible refine Keeps.set_collie ?_ ?_

theorem postDrop_keeps (hw : Within [.evlog, .block 0, .block 4] w) (h : Keeps w s t) :
    Keeps w s (postDrop t) := by
  unfold postDrop
  repeat' first
    | with_reducible assumption
    | ((with_reducible refine Within.sub hw ?_); exact rfl)
    | with_reducible refine Keeps.incSat ?_ ?_
    | with_reducible refine Keeps.raise ?_ ?_
    | split
    | intro _
    | dsimp only

theorem noteCancel_keeps {x0 : Nat} (hw : Within [.collie] w) (h : Keeps w s t) :
    Keeps w s (noteCancel x0 t) := by
  unfold noteCancel
  repeat' first
    | with_reducible assumption
    | ((with_reducible refine Within.sub hw ?_); exact rfl)
    | split
    | intro _
    | dsimp only
    | with_reducible refine Keeps.set_collie ?_ ?_

theorem pushReady_keeps {x0 : ReadyEntry} (hw : Within [.collie] w) (h : Keeps w s t) :
    Keeps w s (pushReady x0 t) := by
  unfold pushReady
  repeat' first
    | with_reducible assumption
    | ((with_reducible refine Within.sub hw ?_); exact rfl)
    | with_reducible refine State.setReady_keeps ?_ ?_
    | with_reducible refine State.setTaskOf_keeps ?_ ?_
    | split
    | intro _
    | dsimp only
    | with_reducible refine Keeps.set_collie ?_ ?_

theorem makeReady_keeps {x0 : Nat} {x1 : ReadyEntry} (hw : Within [.collie, .block 4] w) (h : Keeps w s t) :
    Keeps w s (makeReady x0 x1 t) := by
  unfold makeReady
  repeat' first
    | with_reducible assumption
    | ((with_reducible refine Within.sub hw ?_); exact rfl)
    | with_reducible refine Keeps.incSat ?_ ?_
    | with_reducible refine poolTake_keeps ?_ ?_
    | with_reducible refine pushReady_keeps ?_ ?_
    | split
    | intro _
    | dsimp only

theorem queuedReady_keeps {x0 : ReadyEntry} (hw : Within [.collie, .block 4] w) (h : Keeps w s t) :
    Keeps w s (queuedReady x0 t) := by
  unfold queuedReady
  repeat' first
    | with_reducible assumption
    | ((with_reducible refine Within.sub hw ?_); exact rfl)
    | with_reducible refine makeReady_keeps ?_ ?_
    | with_reducible refine poolGive_keeps ?_ ?_
    | split
    | intro _
    | dsimp only

theorem postQueue_keeps {x0 : Nat} {x1 : Quad} {x2 : Quad} {x3 : Nat} (hw : Within [.collie, .evlog, .block 0, .block 4, .block 6] w) (h : Keeps w s t) :
    Keeps w s (postQueue x0 x1 x2 x3 t) := by
  unfold postQueue
  repeat' first
    | with_reducible assumption
    | ((with_reducible refine Within.sub hw ?_); exact rfl)
    | with_reducible refine Keeps.raise ?_ ?_
    | with_reducible refine State.setTask_keeps ?_ ?_
    | with_reducible refine poolTake_keeps ?_ ?_
    | with_reducible refine postDrop_keeps ?_ ?_
    | with_reducible refine replyTo_keeps ?_ ?_
    | (simp only [R.COLLIE_t_STATE_block]; (with_reducible refine Within.sub hw ?_); exact rfl)
    | split
    | intro _
    | dsimp only

theorem flowSetItem_keeps {x0 : Nat} {x1 : Nat} {x2 : ItemState} (hw : Within [.collie] w) (h : Keeps w s t) :
    Keeps w s (flowSetItem x0 x1 x2 t) := by
  unfold flowSetItem
  repeat' first
    | with_reducible assumption
    | ((with_reducible refine Within.sub hw ?_); exact rfl)
    | with_reducible refine State.setFlow_keeps ?_ ?_
    | split
    | intro _
    | dsimp only

theorem postWaitpoint_keeps {x0 : Nat} {x1 : Quad} {x2 : Quad} {x3 : Nat} (hw : Within [.collie, .evlog, .block 0, .block 4, .block 6] w) (h : Keeps w s t) :
    Keeps w s (postWaitpoint x0 x1 x2 x3 t) := by
  unfold postWaitpoint
  repeat' first
    | with_reducible assumption
    | ((with_reducible refine Within.sub hw ?_); exact rfl)
    | with_reducible refine flowSetItem_keeps ?_ ?_
    | with_reducible refine makeReady_keeps ?_ ?_
    | with_reducible refine postQueue_keeps ?_ ?_
    | with_reducible refine replyTo_keeps ?_ ?_
    | split
    | intro _
    | dsimp only

theorem postDeliver_keeps {x0 : Nat} {x1 : Quad} {x2 : Quad} {x3 : Nat} (hw : Within [.collie, .evlog, .block 0, .block 4, .block 6] w) (h : Keeps w s t) :
    Keeps w s (postDeliver x0 x1 x2 x3 t) := by
  unfold postDeliver
  repeat' first
    | with_reducible assumption
    | ((with_reducible refine Within.sub hw ?_); exact rfl)
    | with_reducible refine makeReady_keeps ?_ ?_
    | with_reducible refine postQueue_keeps ?_ ?_
    | with_reducible refine postWaitpoint_keeps ?_ ?_
    | with_reducible refine replyTo_keeps ?_ ?_
    | split
    | intro _
    | dsimp only

theorem postAt_keeps {x0 : Nat} {x1 : Quad} {x2 : Quad} {x3 : Nat} (hw : Within [.collie, .evlog, .block 0, .block 4, .block 6] w) (h : Keeps w s t) :
    Keeps w s (postAt x0 x1 x2 x3 t) := by
  unfold postAt
  repeat' first
    | with_reducible assumption
    | ((with_reducible refine Within.sub hw ?_); exact rfl)
    | with_reducible refine Keeps.incSat ?_ ?_
    | with_reducible refine Keeps.raise ?_ ?_
    | with_reducible refine postDeliver_keeps ?_ ?_
    | with_reducible refine postDrop_keeps ?_ ?_
    | split
    | intro _
    | dsimp only

theorem postTo_keeps {x0 : Nat} {x1 : Quad} {x2 : Nat} (hw : Within [.collie, .evlog, .block 0, .block 4, .block 6] w) (h : Keeps w s t) :
    Keeps w s (postTo x0 x1 x2 t) := by
  unfold postTo
  repeat' first
    | with_reducible assumption
    | ((with_reducible refine Within.sub hw ?_); exact rfl)
    | with_reducible refine postAt_keeps ?_ ?_
    | split
    | intro _
    | dsimp only

theorem hwPost_keeps {x0 : Nat} {x1 : Quad} (hw : Within [.collie] w) (h : Keeps w s t) :
    Keeps w s (hwPost x0 x1 t) := by
  unfold hwPost
  repeat' first
    | with_reducible assumption
    | ((with_reducible refine Within.sub hw ?_); exact rfl)
    | split
    | intro _
    | dsimp only
    | with_reducible refine Keeps.set_collie ?_ ?_

theorem hwPostCfg_keeps {x0 : Word} {x1 : Quad} (hw : Within [.collie] w) (h : Keeps w s t) :
    Keeps w s (hwPostCfg x0 x1 t) := by
  unfold hwPostCfg
  repeat' first
    | with_reducible assumption
    | ((with_reducible refine Within.sub hw ?_); exact rfl)
    | with_reducible refine hwPost_keeps ?_ ?_
    | split
    | intro _
    | dsimp only

theorem replyTo_keeps {x0 : Nat} {x1 : Quad} {x2 : Nat} (hw : Within [.collie, .evlog, .block 0, .block 4, .block 6] w) (h : Keeps w s t) :
    Keeps w s (replyTo x0 x1 x2 t) := by
  unfold replyTo
  repeat' first
    | with_reducible assumption
    | ((with_reducible refine Within.sub hw ?_); exact rfl)
    | with_reducible refine Keeps.incSat ?_ ?_
    | with_reducible refine Keeps.raise ?_ ?_
    | with_reducible refine postTo_keeps ?_ ?_
    | split
    | intro _
    | dsimp only

theorem flowDropEmpty_keeps {x0 : Nat} {x1 : Nat} (hw : Within [.collie, .block 4] w) (h : Keeps w s t) :
    Keeps w s (flowDropEmpty x0 x1 t) := by
  induction x1 generalizing t with
  | zero => exact h
  | succ n ih =>
  unfold flowDropEmpty
  repeat' first
    | with_reducible refine ih ?_
    | with_reducible assumption
    | ((with_reducible refine Within.sub hw ?_); exact rfl)
    | with_reducible refine Keeps.incSat ?_ ?_
    | with_reducible refine State.setFlow_keeps ?_ ?_
    | (simp only [R.COLLIE_f_FLOW_EMPTY_block]; (with_reducible refine Within.sub hw ?_); exact rfl)
    | split
    | intro _
    | dsimp only

theorem flowFill_keeps {x0 : Nat} (hw : Within [.collie, .block 4] w) (h : Keeps w s t) :
    Keeps w s (flowFill x0 t) := by
  unfold flowFill
  repeat' first
    | with_reducible assumption
    | ((with_reducible refine Within.sub hw ?_); exact rfl)
    | with_reducible refine Keeps.addSat ?_ ?_
    | with_reducible refine Keeps.forAll ?_ ?_
    | with_reducible refine State.setFlow_keeps ?_ ?_
    | with_reducible refine flowDropEmpty_keeps ?_ ?_
    | with_reducible refine poolGive_keeps ?_ ?_
    | with_reducible refine pushReady_keeps ?_ ?_
    | split
    | intro _
    | dsimp only

theorem flowSend_keeps {x0 : Nat} {x1 : Quad} {x2 : Nat} (hw : Within [.collie, .evlog, .block 0, .block 4] w) (h : Keeps w s t) :
    Keeps w s (flowSend x0 x1 x2 t) := by
  unfold flowSend
  repeat' first
    | with_reducible assumption
    | ((with_reducible refine Within.sub hw ?_); exact rfl)
    | with_reducible refine Keeps.raise ?_ ?_
    | with_reducible refine State.setFlow_keeps ?_ ?_
    | with_reducible refine flowFill_keeps ?_ ?_
    | with_reducible refine poolTake_keeps ?_ ?_
    | with_reducible refine postDrop_keeps ?_ ?_
    | split
    | intro _
    | dsimp only

theorem flowAdvance_keeps {x0 : Nat} (hw : Within [.collie, .block 4] w) (h : Keeps w s t) :
    Keeps w s (flowAdvance x0 t) := by
  unfold flowAdvance
  repeat' first
    | with_reducible assumption
    | ((with_reducible refine Within.sub hw ?_); exact rfl)
    | with_reducible refine flowDropEmpty_keeps ?_ ?_
    | with_reducible refine flowFill_keeps ?_ ?_
    | split
    | intro _
    | dsimp only

theorem discardReady_keeps {x0 : ReadyEntry → Bool} (hw : Within [.collie] w) (h : Keeps w s t) :
    Keeps w s (discardReady x0 t) := by
  unfold discardReady
  repeat' first
    | with_reducible assumption
    | ((with_reducible refine Within.sub hw ?_); exact rfl)
    | with_reducible refine Keeps.foldl ?_ ?_
    | with_reducible refine poolGive_keeps ?_ ?_
    | split
    | intro _
    | dsimp only
    | with_reducible refine Keeps.set_collie ?_ ?_

theorem takeReady_keeps {x0 : ReadyEntry → Bool} (hw : Within [.collie, .block 4] w) (h : Keeps w s t) :
    Keeps w s (takeReady x0 t) := by
  unfold takeReady
  repeat' first
    | with_reducible assumption
    | ((with_reducible refine Within.sub hw ?_); exact rfl)
    | with_reducible refine Keeps.incSat ?_ ?_
    | with_reducible refine Keeps.when ?_ ?_
    | with_reducible refine discardReady_keeps ?_ ?_
    | split
    | intro _
    | dsimp only

theorem freeReserved_keeps {x0 : List Action} (hw : Within [.txn] w) (h : Keeps w s t) :
    Keeps w s (freeReserved x0 t) := by
  unfold freeReserved
  repeat' first
    | with_reducible assumption
    | ((with_reducible refine Within.sub hw ?_); exact rfl)
    | split
    | intro _
    | dsimp only
    | with_reducible refine Keeps.set_txn ?_ ?_

theorem dropReleases_keeps {x0 : Nat} {x1 : Nat} (hw : Within [.collie, .txn] w) (h : Keeps w s t) :
    Keeps w s (dropReleases x0 x1 t) := by
  unfold dropReleases
  repeat' first
    | with_reducible assumption
    | ((with_reducible refine Within.sub hw ?_); exact rfl)
    | with_reducible refine Keeps.forAll ?_ ?_
    | with_reducible refine State.setReleases_keeps ?_ ?_
    | with_reducible refine freeReserved_keeps ?_ ?_
    | split
    | intro _
    | dsimp only

theorem itemCancel_keeps {x0 : Nat} {x1 : Nat} (hw : Within [.collie, .txn, .block 4] w) (h : Keeps w s t) :
    Keeps w s (itemCancel x0 x1 t) := by
  unfold itemCancel
  repeat' first
    | with_reducible assumption
    | ((with_reducible refine Within.sub hw ?_); exact rfl)
    | with_reducible refine Keeps.foldl ?_ ?_
    | with_reducible refine State.setRun_keeps ?_ ?_
    | with_reducible refine dropReleases_keeps ?_ ?_
    | with_reducible refine flowSetItem_keeps ?_ ?_
    | with_reducible refine poolGive_keeps ?_ ?_
    | with_reducible refine takeReady_keeps ?_ ?_
    | split
    | intro _
    | dsimp only

theorem flowCancelAll_keeps {x0 : Nat} (hw : Within [.collie, .txn, .block 4] w) (h : Keeps w s t) :
    Keeps w s (flowCancelAll x0 t) := by
  unfold flowCancelAll
  repeat' first
    | with_reducible assumption
    | ((with_reducible refine Within.sub hw ?_); exact rfl)
    | with_reducible refine Keeps.forAll ?_ ?_
    | with_reducible refine flowAdvance_keeps ?_ ?_
    | with_reducible refine itemCancel_keeps ?_ ?_
    | split
    | intro _
    | dsimp only

theorem flowCancelAfter_keeps {x0 : Nat} {x1 : Nat} (hw : Within [.collie, .txn, .block 4] w) (h : Keeps w s t) :
    Keeps w s (flowCancelAfter x0 x1 t) := by
  unfold flowCancelAfter
  repeat' first
    | with_reducible assumption
    | ((with_reducible refine Within.sub hw ?_); exact rfl)
    | with_reducible refine Keeps.forAll ?_ ?_
    | with_reducible refine itemCancel_keeps ?_ ?_
    | split
    | intro _
    | dsimp only

theorem dropDelays_keeps {x0 : Nat} (hw : Within [.collie] w) (h : Keeps w s t) :
    Keeps w s (dropDelays x0 t) := by
  unfold dropDelays
  repeat' first
    | with_reducible assumption
    | ((with_reducible refine Within.sub hw ?_); exact rfl)
    | with_reducible refine Keeps.foldl ?_ ?_
    | split
    | intro _
    | dsimp only
    | with_reducible refine Keeps.set_collie ?_ ?_

theorem markRuns_keeps {x0 : Nat} (hw : Within [.collie] w) (h : Keeps w s t) :
    Keeps w s (markRuns x0 t) := by
  unfold markRuns
  repeat' first
    | with_reducible assumption
    | ((with_reducible refine Within.sub hw ?_); exact rfl)
    | with_reducible refine State.setRun_keeps ?_ ?_
    | with_reducible refine Keeps.foldl ?_ ?_
    | split
    | intro _
    | dsimp only

theorem dropReady_keeps {x0 : Nat} (hw : Within [.collie, .block 4] w) (h : Keeps w s t) :
    Keeps w s (dropReady x0 t) := by
  unfold dropReady
  repeat' first
    | with_reducible assumption
    | ((with_reducible refine Within.sub hw ?_); exact rfl)
    | with_reducible refine takeReady_keeps ?_ ?_
    | split
    | intro _
    | dsimp only

theorem dropQueue_keeps {x0 : Nat} (hw : Within [.collie] w) (h : Keeps w s t) :
    Keeps w s (dropQueue x0 t) := by
  unfold dropQueue
  repeat' first
    | with_reducible assumption
    | ((with_reducible refine Within.sub hw ?_); exact rfl)
    | with_reducible refine State.setTask_keeps ?_ ?_
    | with_reducible refine poolGive_keeps ?_ ?_
    | split
    | intro _
    | dsimp only

theorem cancelDesc_keeps {x0 : Nat} (hw : Within [.collie, .txn, .block 4] w) (h : Keeps w s t) :
    Keeps w s (cancelDesc x0 t) := by
  unfold cancelDesc
  repeat' first
    | with_reducible assumption
    | ((with_reducible refine Within.sub hw ?_); exact rfl)
    | with_reducible refine State.setOldTask_keeps ?_ ?_
    | with_reducible refine State.setTask_keeps ?_ ?_
    | with_reducible refine dropDelays_keeps ?_ ?_
    | with_reducible refine dropQueue_keeps ?_ ?_
    | with_reducible refine dropReady_keeps ?_ ?_
    | with_reducible refine flowCancelAll_keeps ?_ ?_
    | with_reducible refine markRuns_keeps ?_ ?_
    | with_reducible refine noteCancel_keeps ?_ ?_
    | split
    | intro _
    | dsimp only

theorem cancelItem_keeps {x0 : Nat} {x1 : Nat} (hw : Within [.collie, .evlog, .txn, .block 0, .block 4] w) (h : Keeps w s t) :
    Keeps w s (cancelItem x0 x1 t) := by
  unfold cancelItem
  repeat' first
    | with_reducible assumption
    | ((with_reducible refine Within.sub hw ?_); exact rfl)
    | with_reducible refine Keeps.raise ?_ ?_
    | with_reducible refine flowAdvance_keeps ?_ ?_
    | with_reducible refine itemCancel_keeps ?_ ?_
    | split
    | intro _
    | dsimp only

theorem delayTo_keeps {x0 : Nat} {x1 : Quad} {x2 : Quad} {x3 : Nat} (hw : Within [.collie, .evlog, .block 0, .block 4] w) (h : Keeps w s t) :
    Keeps w s (delayTo x0 x1 x2 x3 t) := by
  unfold delayTo
  repeat' first
    | with_reducible assumption
    | ((with_reducible refine Within.sub hw ?_); exact rfl)
    | with_reducible refine Keeps.incSat ?_ ?_
    | with_reducible refine Keeps.maxFld ?_ ?_
    | with_reducible refine Keeps.raise ?_ ?_
    | (simp only [R.COLLIE_n_DELAY_STAT_block]; (with_reducible refine Within.sub hw ?_); exact rfl)
    | split
    | intro _
    | dsimp only
    | with_reducible refine Keeps.set_collie ?_ ?_

theorem delayExpiryStep_keeps (hw : Within [.collie, .evlog, .raw, .block 0, .block 4, .block 6] w) (h : Keeps w s t) :
    Keeps w s (delayExpiryStep t) := by
  unfold delayExpiryStep
  repeat' first
    | with_reducible assumption
    | ((with_reducible refine Within.sub hw ?_); exact rfl)
    | with_reducible refine Keeps.advanceToV ?_ ?_
    | with_reducible refine Keeps.forAll ?_ ?_
    | with_reducible refine postAt_keeps ?_ ?_
    | with_reducible refine Keeps.foldl ?_ ?_
    | split
    | intro _
    | dsimp only
    | with_reducible refine Keeps.set_collie ?_ ?_

theorem makeCyclicReady_keeps {x0 : Nat} {x1 : Nat} (hw : Within [.collie, .block 4] w) (h : Keeps w s t) :
    Keeps w s (makeCyclicReady x0 x1 t) := by
  unfold makeCyclicReady
  repeat' first
    | with_reducible assumption
    | ((with_reducible refine Within.sub hw ?_); exact rfl)
    | with_reducible refine Keeps.incSat ?_ ?_
    | with_reducible refine State.setTask_keeps ?_ ?_
    | with_reducible refine pushReady_keeps ?_ ?_
    | split
    | intro _
    | dsimp only

theorem sliceReady_keeps {x0 : Nat} (hw : Within [.collie, .block 4] w) (h : Keeps w s t) :
    Keeps w s (sliceReady x0 t) := by
  unfold sliceReady
  repeat' first
    | with_reducible assumption
    | ((with_reducible refine Within.sub hw ?_); exact rfl)
    | with_reducible refine Keeps.forAll ?_ ?_
    | with_reducible refine makeCyclicReady_keeps ?_ ?_
    | split
    | intro _
    | dsimp only

theorem tasksReady_keeps (hw : Within [.collie, .head, .raw, .block 4] w) (h : Keeps w s t) :
    Keeps w s (tasksReady t) := by
  unfold tasksReady
  repeat' first
    | with_reducible assumption
    | ((with_reducible refine Within.sub hw ?_); exact rfl)
    | with_reducible refine Keeps.advanceTo ?_ ?_
    | with_reducible refine Keeps.forAll ?_ ?_
    | with_reducible refine sliceReady_keeps ?_ ?_
    | split
    | intro _
    | dsimp only
    | with_reducible refine Keeps.set_head ?_ ?_

theorem takeOp_keeps {x0 : Nat} (hw : Within [.collie, .block 5] w) (h : Keeps w s t) :
    Keeps w s (takeOp x0 t) := by
  unfold takeOp
  repeat' first
    | with_reducible assumption
    | ((with_reducible refine Within.sub hw ?_); exact rfl)
    | with_reducible refine Keeps.put ?_ ?_
    | with_reducible refine State.setCore_keeps ?_ ?_
    | (simp only [R.PLOT_k_CORE_STATUS_block]; (with_reducible refine Within.sub hw ?_); exact rfl)
    | split
    | intro _
    | dsimp only

theorem dispatchMarks_keeps {x0 : ReadyEntry} (hw : Within [.collie, .evlog, .block 0, .block 4] w) (h : Keeps w s t) :
    Keeps w s (dispatchMarks x0 t) := by
  unfold dispatchMarks
  repeat' first
    | with_reducible assumption
    | ((with_reducible refine Within.sub hw ?_); exact rfl)
    | with_reducible refine Keeps.put ?_ ?_
    | with_reducible refine Keeps.raise ?_ ?_
    | with_reducible refine flowSetItem_keeps ?_ ?_
    | with_reducible refine poolGive_keeps ?_ ?_
    | split
    | intro _
    | dsimp only

theorem applyDeferred_keeps {x0 : Nat} {x1 : Bool} (hw : Within [.collie, .txn] w) (h : Keeps w s t) :
    Keeps w s (applyDeferred x0 x1 t) := by
  unfold applyDeferred
  repeat' first
    | with_reducible assumption
    | ((with_reducible refine Within.sub hw ?_); exact rfl)
    | with_reducible refine Keeps.forAll ?_ ?_
    | with_reducible refine State.setOldRetained_keeps ?_ ?_
    | with_reducible refine State.setRetained_keeps ?_ ?_
    | split
    | intro _
    | dsimp only
    | with_reducible refine Keeps.set_txn ?_ ?_

theorem dispatchOn_keeps {x0 : ReadyEntry} {x1 : Nat} (hw : Within [.collie, .evlog, .txn, .block 0, .block 4, .block 5] w) (h : Keeps w s t) :
    Keeps w s (dispatchOn x0 x1 t) := by
  unfold dispatchOn
  repeat' first
    | with_reducible assumption
    | ((with_reducible refine Within.sub hw ?_); exact rfl)
    | with_reducible refine Keeps.maxFld ?_ ?_
    | with_reducible refine Keeps.put ?_ ?_
    | with_reducible refine State.setCore_keeps ?_ ?_
    | with_reducible refine State.setTaskOf_keeps ?_ ?_
    | with_reducible refine applyDeferred_keeps ?_ ?_
    | with_reducible refine dispatchMarks_keeps ?_ ?_
    | (simp only [R.PLOT_k_CORE_STATUS_block, R.PLOT_p_DISPATCH_MAX_block]; (with_reducible refine Within.sub hw ?_); exact rfl)
    | split
    | intro _
    | dsimp only

theorem removeReady_keeps {x0 : Nat} {x1 : Nat} {x2 : Nat} (hw : Within [.collie] w) (h : Keeps w s t) :
    Keeps w s (removeReady x0 x1 x2 t) := by
  unfold removeReady
  repeat' first
    | with_reducible assumption
    | ((with_reducible refine Within.sub hw ?_); exact rfl)
    | with_reducible refine State.setReady_keeps ?_ ?_
    | split
    | intro _
    | dsimp only

theorem countStalls_keeps {x0 : Nat} (hw : Within [.collie, .block 6] w) (h : Keeps w s t) :
    Keeps w s (countStalls x0 t) := by
  unfold countStalls
  repeat' first
    | with_reducible assumption
    | ((with_reducible refine Within.sub hw ?_); exact rfl)
    | with_reducible refine Keeps.addSat ?_ ?_
    | with_reducible refine Keeps.forAll ?_ ?_
    | with_reducible refine State.setReady_keeps ?_ ?_
    | split
    | intro _
    | dsimp only

theorem dispatchSlice_keeps {x0 : Nat} (hw : Within [.collie, .evlog, .txn, .block 0, .block 4, .block 5, .block 6] w) (h : Keeps w s t) :
    Keeps w s (dispatchSlice x0 t) := by
  unfold dispatchSlice
  repeat' first
    | with_reducible assumption
    | ((with_reducible refine Within.sub hw ?_); exact rfl)
    | with_reducible refine countStalls_keeps ?_ ?_
    | with_reducible refine dispatchOn_keeps ?_ ?_
    | with_reducible refine removeReady_keeps ?_ ?_
    | split
    | intro _
    | dsimp only

theorem spillFrom_keeps {x0 : Nat} (hw : Within [.collie, .evlog, .txn, .block 0, .block 4, .block 5] w) (h : Keeps w s t) :
    Keeps w s (spillFrom x0 t) := by
  unfold spillFrom
  repeat' first
    | with_reducible assumption
    | ((with_reducible refine Within.sub hw ?_); exact rfl)
    | with_reducible refine Keeps.incSat ?_ ?_
    | with_reducible refine dispatchOn_keeps ?_ ?_
    | with_reducible refine removeReady_keeps ?_ ?_
    | (simp only [R.PLOT_p_SPILL_IN_block, R.PLOT_p_SPILL_OUT_block]; (with_reducible refine Within.sub hw ?_); exact rfl)
    | split
    | intro _
    | dsimp only

theorem coreBusy_keeps {x0 : Nat} {x1 : Run} (hw : Within [.collie, .block 5] w) (h : Keeps w s t) :
    Keeps w s (coreBusy x0 x1 t) := by
  unfold coreBusy
  repeat' first
    | with_reducible assumption
    | ((with_reducible refine Within.sub hw ?_); exact rfl)
    | with_reducible refine Keeps.addSat ?_ ?_
    | with_reducible refine State.setCore_keeps ?_ ?_
    | (simp only [R.PLOT_k_CORE_BUSY_block]; (with_reducible refine Within.sub hw ?_); exact rfl)
    | split
    | intro _
    | dsimp only

theorem coreFree_keeps {x0 : Nat} (hw : Within [.collie, .block 5] w) (h : Keeps w s t) :
    Keeps w s (coreFree x0 t) := by
  unfold coreFree
  repeat' first
    | with_reducible assumption
    | ((with_reducible refine Within.sub hw ?_); exact rfl)
    | with_reducible refine State.setRun_keeps ?_ ?_
    | with_reducible refine takeOp_keeps ?_ ?_
    | split
    | intro _
    | dsimp only

theorem violation_keeps {x0 : Nat} {x1 : Nat} (hw : Within [.evlog, .block 0, .block 24] w) (h : Keeps w s t) :
    Keeps w s (violation x0 x1 t) := by
  unfold violation
  repeat' first
    | with_reducible assumption
    | ((with_reducible refine Within.sub hw ?_); exact rfl)
    | with_reducible refine Keeps.incSat ?_ ?_
    | with_reducible refine Keeps.raise ?_ ?_
    | with_reducible refine Keeps.setReg ?_ ?_
    | split
    | intro _
    | dsimp only

theorem flipRetained_keeps {x0 : Run} (hw : Within [.collie, .evlog, .block 0, .block 24] w) (h : Keeps w s t) :
    Keeps w s (flipRetained x0 t) := by
  unfold flipRetained
  repeat' first
    | with_reducible assumption
    | ((with_reducible refine Within.sub hw ?_); exact rfl)
    | with_reducible refine State.setOldRetained_keeps ?_ ?_
    | with_reducible refine State.setRetained_keeps ?_ ?_
    | with_reducible refine violation_keeps ?_ ?_
    | split
    | intro _
    | dsimp only

theorem nextPost_keeps {x0 : Nat} (hw : Within [.collie, .block 4] w) (h : Keeps w s t) :
    Keeps w s (nextPost x0 t) := by
  unfold nextPost
  repeat' first
    | with_reducible assumption
    | ((with_reducible refine Within.sub hw ?_); exact rfl)
    | with_reducible refine State.setTask_keeps ?_ ?_
    | with_reducible refine queuedReady_keeps ?_ ?_
    | split
    | intro _
    | dsimp only

theorem beginWait_keeps {x0 : Bool} {x1 : Nat} {x2 : Nat} {x3 : List Frame} (hw : Within [.collie, .block 4] w) (h : Keeps w s t) :
    Keeps w s (beginWait x0 x1 x2 x3 t) := by
  unfold beginWait
  repeat' first
    | with_reducible assumption
    | ((with_reducible refine Within.sub hw ?_); exact rfl)
    | with_reducible refine State.setTaskOf_keeps ?_ ?_
    | with_reducible refine State.setTask_keeps ?_ ?_
    | with_reducible refine queuedReady_keeps ?_ ?_
    | split
    | intro _
    | dsimp only

theorem beginWaitItem_keeps {x0 : Bool} {x1 : Nat} {x2 : Nat} {x3 : Nat} {x4 : Nat} {x5 : List Frame} (hw : Within [.collie, .block 4] w) (h : Keeps w s t) :
    Keeps w s (beginWaitItem x0 x1 x2 x3 x4 x5 t) := by
  unfold beginWaitItem
  repeat' first
    | with_reducible assumption
    | ((with_reducible refine Within.sub hw ?_); exact rfl)
    | with_reducible refine State.setFlow_keeps ?_ ?_
    | with_reducible refine State.setTask_keeps ?_ ?_
    | with_reducible refine flowSetItem_keeps ?_ ?_
    | with_reducible refine queuedReady_keeps ?_ ?_
    | split
    | intro _
    | dsimp only

theorem endRun_keeps {x0 : Run} {x1 : Option Nat} (hw : Within [.collie, .block 4] w) (h : Keeps w s t) :
    Keeps w s (endRun x0 x1 t) := by
  unfold endRun
  repeat' first
    | with_reducible assumption
    | ((with_reducible refine Within.sub hw ?_); exact rfl)
    | with_reducible refine State.setOldTask_keeps ?_ ?_
    | with_reducible refine State.setTaskOf_keeps ?_ ?_
    | with_reducible refine beginWait_keeps ?_ ?_
    | with_reducible refine nextPost_keeps ?_ ?_
    | split
    | intro _
    | dsimp only

theorem holdItem_keeps {x0 : Run} {x1 : Option Nat} (hw : Within [.collie, .block 4] w) (h : Keeps w s t) :
    Keeps w s (holdItem x0 x1 t) := by
  unfold holdItem
  repeat' first
    | with_reducible assumption
    | ((with_reducible refine Within.sub hw ?_); exact rfl)
    | with_reducible refine beginWaitItem_keeps ?_ ?_
    | with_reducible refine flowAdvance_keeps ?_ ?_
    | with_reducible refine flowSetItem_keeps ?_ ?_
    | split
    | intro _
    | dsimp only

theorem settleHandler_keeps {x0 : Run} (hw : Within [.collie] w) (h : Keeps w s t) :
    Keeps w s (settleHandler x0 t) := by
  unfold settleHandler
  repeat' first
    | with_reducible assumption
    | ((with_reducible refine Within.sub hw ?_); exact rfl)
    | with_reducible refine State.setOldTask_keeps ?_ ?_
    | with_reducible refine State.setTaskOf_keeps ?_ ?_
    | split
    | intro _
    | dsimp only

theorem completeRun_keeps {x0 : Nat} {x1 : Run} {x2 : Option Nat} (hw : Within [.collie, .evlog, .txn, .block 0, .block 4, .block 5, .block 24] w) (h : Keeps w s t) :
    Keeps w s (completeRun x0 x1 x2 t) := by
  unfold completeRun
  repeat' first
    | with_reducible assumption
    | ((with_reducible refine Within.sub hw ?_); exact rfl)
    | with_reducible refine State.setReleases_keeps ?_ ?_
    | with_reducible refine coreBusy_keeps ?_ ?_
    | with_reducible refine coreFree_keeps ?_ ?_
    | with_reducible refine endRun_keeps ?_ ?_
    | with_reducible refine flipRetained_keeps ?_ ?_
    | with_reducible refine freeReserved_keeps ?_ ?_
    | with_reducible refine holdItem_keeps ?_ ?_
    | with_reducible refine settleHandler_keeps ?_ ?_
    | split
    | intro _
    | dsimp only

theorem taskComplete_keeps {x0 : Nat} (hw : Within [.collie, .evlog, .txn, .block 0, .block 4, .block 5, .block 24] w) (h : Keeps w s t) :
    Keeps w s (taskComplete x0 t) := by
  unfold taskComplete
  repeat' first
    | with_reducible assumption
    | ((with_reducible refine Within.sub hw ?_); exact rfl)
    | with_reducible refine Keeps.incSat ?_ ?_
    | with_reducible refine Keeps.raise ?_ ?_
    | with_reducible refine State.setRun_keeps ?_ ?_
    | with_reducible refine completeRun_keeps ?_ ?_
    | split
    | intro _
    | dsimp only

theorem releaseStallEnd_keeps {x0 : Nat} (hw : Within [.collie, .evlog, .txn, .block 0, .block 4, .block 5, .block 24] w) (h : Keeps w s t) :
    Keeps w s (releaseStallEnd x0 t) := by
  unfold releaseStallEnd
  repeat' first
    | with_reducible assumption
    | ((with_reducible refine Within.sub hw ?_); exact rfl)
    | with_reducible refine completeRun_keeps ?_ ?_
    | split
    | intro _
    | dsimp only

theorem updateRelease_keeps {x0 : Nat} {x1 : Nat} {x2 : Release} (hw : Within [.collie, .block 4] w) (h : Keeps w s t) :
    Keeps w s (updateRelease x0 x1 x2 t) := by
  unfold updateRelease
  repeat' first
    | with_reducible assumption
    | ((with_reducible refine Within.sub hw ?_); exact rfl)
    | with_reducible refine State.setFlow_keeps ?_ ?_
    | with_reducible refine State.setReleases_keeps ?_ ?_
    | with_reducible refine flowAdvance_keeps ?_ ?_
    | split
    | intro _
    | dsimp only

theorem foldJournal_keeps {x0 : Nat} {x1 : List JEntry} (hw : Within [.img] w) (h : Keeps w s t) :
    Keeps w s (foldJournal x0 x1 t) := by
  unfold foldJournal
  repeat' first
    | with_reducible assumption
    | ((with_reducible refine Within.sub hw ?_); exact rfl)
    | with_reducible refine Keeps.foldl ?_ ?_
    | split
    | intro _
    | dsimp only
    | with_reducible refine Keeps.set_img ?_ ?_

theorem journalFold_keeps {x0 : Nat} (hw : Within [.collie, .img, .block 4] w) (h : Keeps w s t) :
    Keeps w s (journalFold x0 t) := by
  unfold journalFold
  repeat' first
    | with_reducible assumption
    | ((with_reducible refine Within.sub hw ?_); exact rfl)
    | with_reducible refine foldJournal_keeps ?_ ?_
    | with_reducible refine updateRelease_keeps ?_ ?_
    | split
    | intro _
    | dsimp only

theorem stopTask_keeps {x0 : Nat} (hw : Within [.collie, .txn, .block 4, .block 5, .block 6] w) (h : Keeps w s t) :
    Keeps w s (stopTask x0 t) := by
  unfold stopTask
  repeat' first
    | with_reducible assumption
    | ((with_reducible refine Within.sub hw ?_); exact rfl)
    | with_reducible refine Keeps.put ?_ ?_
    | with_reducible refine State.setOldTask_keeps ?_ ?_
    | with_reducible refine State.setTask_keeps ?_ ?_
    | with_reducible refine coreBusy_keeps ?_ ?_
    | with_reducible refine coreFree_keeps ?_ ?_
    | with_reducible refine dropQueue_keeps ?_ ?_
    | with_reducible refine flowAdvance_keeps ?_ ?_
    | with_reducible refine flowCancelAfter_keeps ?_ ?_
    | with_reducible refine flowSetItem_keeps ?_ ?_
    | with_reducible refine freeReserved_keeps ?_ ?_
    | with_reducible refine settleHandler_keeps ?_ ?_
    | (simp only [R.EXEC_t_TASK_CTRL_block]; (with_reducible refine Within.sub hw ?_); exact rfl)
    | split
    | intro _
    | dsimp only

theorem plotStatus_keeps {x0 : Nat} (hw : Within [.block 5] w) (h : Keeps w s t) :
    Keeps w s (plotStatus x0 t) := by
  unfold plotStatus
  repeat' first
    | with_reducible assumption
    | ((with_reducible refine Within.sub hw ?_); exact rfl)
    | with_reducible refine Keeps.put ?_ ?_
    | with_reducible refine Keeps.putFlag ?_ ?_
    | with_reducible refine Keeps.setReg ?_ ?_
    | (simp only [R.PLOT_p_SLOT_MAP_block, R.PLOT_p_STATUS_block]; (with_reducible refine Within.sub hw ?_); exact rfl)
    | split
    | intro _
    | dsimp only

theorem replaceCore_keeps {x0 : Nat} {x1 : Nat} (hw : Within [.evlog, .block 0, .block 4, .block 5] w) (h : Keeps w s t) :
    Keeps w s (replaceCore x0 x1 t) := by
  unfold replaceCore
  repeat' first
    | with_reducible assumption
    | ((with_reducible refine Within.sub hw ?_); exact rfl)
    | with_reducible refine Keeps.put ?_ ?_
    | with_reducible refine Keeps.raise ?_ ?_
    | with_reducible refine plotStatus_keeps ?_ ?_
    | (simp only [R.PLOT_k_CORE_STATUS_block]; (with_reducible refine Within.sub hw ?_); exact rfl)
    | split
    | intro _
    | dsimp only

theorem repeatRun_keeps {x0 : Nat} {x1 : Run} (hw : Within [.collie, .txn, .block 5] w) (h : Keeps w s t) :
    Keeps w s (repeatRun x0 x1 t) := by
  unfold repeatRun
  repeat' first
    | with_reducible assumption
    | ((with_reducible refine Within.sub hw ?_); exact rfl)
    | with_reducible refine State.setReady_keeps ?_ ?_
    | with_reducible refine State.setRun_keeps ?_ ?_
    | with_reducible refine State.setTaskOf_keeps ?_ ?_
    | with_reducible refine coreBusy_keeps ?_ ?_
    | with_reducible refine flowSetItem_keeps ?_ ?_
    | with_reducible refine freeReserved_keeps ?_ ?_
    | with_reducible refine settleHandler_keeps ?_ ?_
    | split
    | intro _
    | dsimp only

theorem fenceReport_keeps {x0 : Nat} {x1 : Nat} {x2 : Option Run} (hw : Within [.evlog, .block 0, .block 4] w) (h : Keeps w s t) :
    Keeps w s (fenceReport x0 x1 x2 t) := by
  unfold fenceReport
  repeat' first
    | with_reducible assumption
    | ((with_reducible refine Within.sub hw ?_); exact rfl)
    | with_reducible refine Keeps.incSat ?_ ?_
    | with_reducible refine Keeps.raiseNamed ?_ ?_
    | with_reducible refine Keeps.setReg ?_ ?_
    | split
    | intro _
    | dsimp only

theorem fenceCore_keeps {x0 : Nat} {x1 : Nat} (hw : Within [.collie, .evlog, .txn, .block 0, .block 4, .block 5] w) (h : Keeps w s t) :
    Keeps w s (fenceCore x0 x1 t) := by
  unfold fenceCore
  repeat' first
    | with_reducible assumption
    | ((with_reducible refine Within.sub hw ?_); exact rfl)
    | with_reducible refine Keeps.addFldSat ?_ ?_
    | with_reducible refine Keeps.put ?_ ?_
    | with_reducible refine State.setCore_keeps ?_ ?_
    | with_reducible refine fenceReport_keeps ?_ ?_
    | with_reducible refine plotStatus_keeps ?_ ?_
    | with_reducible refine repeatRun_keeps ?_ ?_
    | with_reducible refine replaceCore_keeps ?_ ?_
    | (simp only [R.PLOT_k_CORE_STATUS_block]; (with_reducible refine Within.sub hw ?_); exact rfl)
    | split
    | intro _
    | dsimp only

theorem retestCore_keeps {x0 : Nat} (hw : Within [.evlog, .group, .latch, .stage, .block 0, .block 4, .block 5] w) (h : Keeps w s t) :
    Keeps w s (retestCore x0 t) := by
  unfold retestCore
  repeat' first
    | with_reducible assumption
    | ((with_reducible refine Within.sub hw ?_); exact rfl)
    | with_reducible refine Keeps.put ?_ ?_
    | with_reducible refine Keeps.raise ?_ ?_
    | (simp only [R.PLOT_k_CORE_STATUS_block]; (with_reducible refine Within.sub hw ?_); exact rfl)
    | split
    | intro _
    | dsimp only
    | with_reducible refine Keeps.set_latch_group_stage ?_ ?_

theorem retestDone_keeps {x0 : Nat} {x1 : Bool} (hw : Within [.collie, .block 5] w) (h : Keeps w s t) :
    Keeps w s (retestDone x0 x1 t) := by
  unfold retestDone
  repeat' first
    | with_reducible assumption
    | ((with_reducible refine Within.sub hw ?_); exact rfl)
    | with_reducible refine Keeps.put ?_ ?_
    | with_reducible refine plotStatus_keeps ?_ ?_
    | with_reducible refine takeOp_keeps ?_ ?_
    | (simp only [R.PLOT_k_CORE_STATUS_block]; (with_reducible refine Within.sub hw ?_); exact rfl)
    | split
    | intro _
    | dsimp only

theorem flowLost_keeps {x0 : Nat} {x1 : FlowItem → Bool} (hw : Within [.collie, .txn, .block 4] w) (h : Keeps w s t) :
    Keeps w s (flowLost x0 x1 t) := by
  unfold flowLost
  repeat' first
    | with_reducible assumption
    | ((with_reducible refine Within.sub hw ?_); exact rfl)
    | with_reducible refine Keeps.forAll ?_ ?_
    | with_reducible refine flowAdvance_keeps ?_ ?_
    | with_reducible refine itemCancel_keeps ?_ ?_
    | split
    | intro _
    | dsimp only

theorem notReady_keeps {x0 : Nat} (hw : Within [.collie, .block 4] w) (h : Keeps w s t) :
    Keeps w s (notReady x0 t) := by
  unfold notReady
  repeat' first
    | with_reducible assumption
    | ((with_reducible refine Within.sub hw ?_); exact rfl)
    | with_reducible refine State.setTask_keeps ?_ ?_
    | with_reducible refine nextPost_keeps ?_ ?_
    | split
    | intro _
    | dsimp only

theorem loseDesc_keeps {x0 : Nat} (hw : Within [.collie, .txn, .block 4] w) (h : Keeps w s t) :
    Keeps w s (loseDesc x0 t) := by
  unfold loseDesc
  repeat' first
    | with_reducible assumption
    | ((with_reducible refine Within.sub hw ?_); exact rfl)
    | with_reducible refine discardReady_keeps ?_ ?_
    | with_reducible refine dropDelays_keeps ?_ ?_
    | with_reducible refine dropQueue_keeps ?_ ?_
    | with_reducible refine flowLost_keeps ?_ ?_
    | with_reducible refine notReady_keeps ?_ ?_
    | split
    | intro _
    | dsimp only

theorem loseReady_keeps {x0 : Nat} (hw : Within [.collie, .txn, .block 4] w) (h : Keeps w s t) :
    Keeps w s (loseReady x0 t) := by
  unfold loseReady
  repeat' first
    | with_reducible assumption
    | ((with_reducible refine Within.sub hw ?_); exact rfl)
    | with_reducible refine discardReady_keeps ?_ ?_
    | with_reducible refine flowLost_keeps ?_ ?_
    | with_reducible refine notReady_keeps ?_ ?_
    | split
    | intro _
    | dsimp only

theorem loseRecord_keeps {x0 : Nat} (hw : Within [.collie, .txn, .block 4] w) (h : Keeps w s t) :
    Keeps w s (loseRecord x0 t) := by
  unfold loseRecord
  repeat' first
    | with_reducible assumption
    | ((with_reducible refine Within.sub hw ?_); exact rfl)
    | with_reducible refine State.setTask_keeps ?_ ?_
    | with_reducible refine flowLost_keeps ?_ ?_
    | with_reducible refine poolGive_keeps ?_ ?_
    | split
    | intro _
    | dsimp only

theorem loseDelay_keeps {x0 : Nat} (hw : Within [.collie] w) (h : Keeps w s t) :
    Keeps w s (loseDelay x0 t) := by
  unfold loseDelay
  repeat' first
    | with_reducible assumption
    | ((with_reducible refine Within.sub hw ?_); exact rfl)
    | with_reducible refine Keeps.foldl ?_ ?_
    | split
    | intro _
    | dsimp only
    | with_reducible refine Keeps.set_collie ?_ ?_

theorem descError_keeps {x0 : Nat} {x1 : Nat} (hw : Within [.collie, .evlog, .txn, .block 0, .block 4, .block 24] w) (h : Keeps w s t) :
    Keeps w s (descError x0 x1 t) := by
  unfold descError
  repeat' first
    | with_reducible assumption
    | ((with_reducible refine Within.sub hw ?_); exact rfl)
    | with_reducible refine Keeps.incSat ?_ ?_
    | with_reducible refine Keeps.raise ?_ ?_
    | with_reducible refine Keeps.setReg ?_ ?_
    | with_reducible refine loseDelay_keeps ?_ ?_
    | with_reducible refine loseDesc_keeps ?_ ?_
    | with_reducible refine loseReady_keeps ?_ ?_
    | with_reducible refine loseRecord_keeps ?_ ?_
    | split
    | intro _
    | dsimp only

theorem collieEmpty_keeps (hw : Within [.collie] w) (h : Keeps w s t) :
    Keeps w s (collieEmpty t) := by
  unfold collieEmpty
  repeat' first
    | with_reducible assumption
    | ((with_reducible refine Within.sub hw ?_); exact rfl)
    | split
    | intro _
    | dsimp only
    | with_reducible refine Keeps.set_collie ?_ ?_

theorem collieFlush_keeps (hw : Within [.collie, .block 4] w) (h : Keeps w s t) :
    Keeps w s (collieFlush t) := by
  unfold collieFlush
  repeat' first
    | with_reducible assumption
    | ((with_reducible refine Within.sub hw ?_); exact rfl)
    | with_reducible refine Keeps.forAll ?_ ?_
    | with_reducible refine State.setFlow_keeps ?_ ?_
    | with_reducible refine State.setReleases_keeps ?_ ?_
    | with_reducible refine collieEmpty_keeps ?_ ?_
    | with_reducible refine flowAdvance_keeps ?_ ?_
    | split
    | intro _
    | dsimp only

theorem haltRun_keeps {x0 : Nat} {x1 : Run} (hw : Within [.collie, .txn, .block 5] w) (h : Keeps w s t) :
    Keeps w s (haltRun x0 x1 t) := by
  unfold haltRun
  repeat' first
    | with_reducible assumption
    | ((with_reducible refine Within.sub hw ?_); exact rfl)
    | with_reducible refine State.setOldTask_keeps ?_ ?_
    | with_reducible refine State.setRun_keeps ?_ ?_
    | with_reducible refine State.setTask_keeps ?_ ?_
    | with_reducible refine coreBusy_keeps ?_ ?_
    | with_reducible refine flowSetItem_keeps ?_ ?_
    | with_reducible refine freeReserved_keeps ?_ ?_
    | split
    | intro _
    | dsimp only

theorem flowsAdvance_keeps (hw : Within [.collie, .block 4] w) (h : Keeps w s t) :
    Keeps w s (flowsAdvance t) := by
  unfold flowsAdvance
  repeat' first
    | with_reducible assumption
    | ((with_reducible refine Within.sub hw ?_); exact rfl)
    | with_reducible refine Keeps.forAll ?_ ?_
    | with_reducible refine flowAdvance_keeps ?_ ?_
    | split
    | intro _
    | dsimp only

theorem haltRuns_keeps (hw : Within [.collie, .txn, .block 5] w) (h : Keeps w s t) :
    Keeps w s (haltRuns t) := by
  unfold haltRuns
  repeat' first
    | with_reducible assumption
    | ((with_reducible refine Within.sub hw ?_); exact rfl)
    | with_reducible refine Keeps.foldl ?_ ?_
    | with_reducible refine haltRun_keeps ?_ ?_
    | with_reducible refine takeOp_keeps ?_ ?_
    | split
    | intro _
    | dsimp only

theorem collieCmdWrite_keeps {x0 : Word} (hw : Within [.collie, .evlog, .txn, .block 0, .block 4, .block 6] w) (h : Keeps w s t) :
    Keeps w s (collieCmdWrite x0 t) := by
  unfold collieCmdWrite
  repeat' first
    | with_reducible assumption
    | ((with_reducible refine Within.sub hw ?_); exact rfl)
    | with_reducible refine Keeps.raise ?_ ?_
    | with_reducible refine cancelDesc_keeps ?_ ?_
    | with_reducible refine cancelItem_keeps ?_ ?_
    | with_reducible refine postTo_keeps ?_ ?_
    | split
    | intro _
    | dsimp only

theorem coreCtrlWrite_keeps {x0 : Nat} {x1 : Word} (hw : Within [.collie, .evlog, .group, .latch, .stage, .txn, .block 0, .block 4, .block 5] w) (h : Keeps w s t) :
    Keeps w s (coreCtrlWrite x0 x1 t) := by
  unfold coreCtrlWrite
  repeat' first
    | with_reducible assumption
    | ((with_reducible refine Within.sub hw ?_); exact rfl)
    | with_reducible refine fenceCore_keeps ?_ ?_
    | with_reducible refine retestCore_keeps ?_ ?_
    | split
    | intro _
    | dsimp only

theorem hardwarePost_keeps (hw : Within [.collie, .evlog, .block 0, .block 4, .block 6] w) (h : Keeps w s t) :
    Keeps w s (hardwarePost t) := by
  unfold hardwarePost
  repeat' first
    | with_reducible assumption
    | ((with_reducible refine Within.sub hw ?_); exact rfl)
    | with_reducible refine postAt_keeps ?_ ?_
    | split
    | intro _
    | dsimp only
    | with_reducible refine Keeps.set_collie ?_ ?_

end Sys2Proof.Machine
end

