-- ==== Sys2Proof/Laws/Keeps/LinkTest.lean ====
section
/-! SUPPORT. What the operations of Sys2Proof/Machine/LinkTest.lean leave unchanged. -/

set_option linter.all false
set_option Elab.async false

namespace Sys2Proof.Machine

variable {w : List Piece} {s t : State}

theorem State.ddrRefused_keeps (hw : Within [.evlog, .block 0, .block 29] w) (h : Keeps w s t) :
    Keeps w s (State.ddrRefused t) := by
  unfold State.ddrRefused
  repeat' first
    | with_reducible assumption
    | ((with_reducible refine Within.sub hw ?_); exact rfl)
    | with_reducible refine Keeps.raise ?_ ?_
    | split
    | intro _
    | dsimp only

theorem ddrTrainStart_keeps (hw : Within [.block 29] w) (h : Keeps w s t) :
    Keeps w s (ddrTrainStart t) := by
  unfold ddrTrainStart
  repeat' first
    | with_reducible assumption
    | ((with_reducible refine Within.sub hw ?_); exact rfl)
    | with_reducible refine Keeps.put ?_ ?_
    | split
    | intro _
    | dsimp only

theorem ddrCtrlWrite_keeps {x0 : Word} (hw : Within [.evlog, .block 0, .block 29] w) (h : Keeps w s t) :
    Keeps w s (ddrCtrlWrite x0 t) := by
  unfold ddrCtrlWrite
  repeat' first
    | with_reducible assumption
    | ((with_reducible refine Within.sub hw ?_); exact rfl)
    | with_reducible refine State.ddrRefused_keeps ?_ ?_
    | with_reducible refine Keeps.setReg ?_ ?_
    | with_reducible refine ddrTrainStart_keeps ?_ ?_
    | split
    | intro _
    | dsimp only

theorem ddrTrainDone_keeps {x0 : Bool} {x1 : Nat} (hw : Within [.evlog, .block 0, .block 29] w) (h : Keeps w s t) :
    Keeps w s (ddrTrainDone x0 x1 t) := by
  unfold ddrTrainDone
  repeat' first
    | with_reducible assumption
    | ((with_reducible refine Within.sub hw ?_); exact rfl)
    | with_reducible refine Keeps.put ?_ ?_
    | with_reducible refine Keeps.raise ?_ ?_
    | with_reducible refine Keeps.setReg ?_ ?_
    | split
    | intro _
    | dsimp only

theorem ddrDestroyed_keeps (hw : Within [.mem] w) (h : Keeps w s t) :
    Keeps w s (ddrDestroyed t) := by
  unfold ddrDestroyed
  repeat' first
    | with_reducible assumption
    | ((with_reducible refine Within.sub hw ?_); exact rfl)
    | split
    | intro _
    | dsimp only
    | with_reducible refine Keeps.set_mem ?_ ?_

theorem ddrTestCtrlWrite_keeps {x0 : Word} (hw : Within [.evlog, .mem, .block 0, .block 29] w) (h : Keeps w s t) :
    Keeps w s (ddrTestCtrlWrite x0 t) := by
  unfold ddrTestCtrlWrite
  repeat' first
    | with_reducible assumption
    | ((with_reducible refine Within.sub hw ?_); exact rfl)
    | with_reducible refine Keeps.put ?_ ?_
    | with_reducible refine State.ddrRefused_keeps ?_ ?_
    | with_reducible refine ddrDestroyed_keeps ?_ ?_
    | split
    | intro _
    | dsimp only

theorem ddrCorrected_keeps {x0 : Nat} (hw : Within [.evlog, .block 0, .block 29] w) (h : Keeps w s t) :
    Keeps w s (ddrCorrected x0 t) := by
  unfold ddrCorrected
  repeat' first
    | with_reducible assumption
    | ((with_reducible refine Within.sub hw ?_); exact rfl)
    | with_reducible refine Keeps.addSat ?_ ?_
    | with_reducible refine Keeps.raise ?_ ?_
    | split
    | intro _
    | dsimp only

theorem ddrTestDone_keeps {x0 : Nat} {x1 : Nat} {x2 : Nat} (hw : Within [.evlog, .block 0, .block 29] w) (h : Keeps w s t) :
    Keeps w s (ddrTestDone x0 x1 x2 t) := by
  unfold ddrTestDone
  repeat' first
    | with_reducible assumption
    | ((with_reducible refine Within.sub hw ?_); exact rfl)
    | with_reducible refine Keeps.put ?_ ?_
    | with_reducible refine Keeps.raise ?_ ?_
    | with_reducible refine Keeps.setReg ?_ ?_
    | with_reducible refine ddrCorrected_keeps ?_ ?_
    | split
    | intro _
    | dsimp only

theorem ddrUncorrectable_keeps {x0 : Nat} (hw : Within [.evlog, .block 0, .block 29] w) (h : Keeps w s t) :
    Keeps w s (ddrUncorrectable x0 t) := by
  unfold ddrUncorrectable
  repeat' first
    | with_reducible assumption
    | ((with_reducible refine Within.sub hw ?_); exact rfl)
    | with_reducible refine Keeps.incSat ?_ ?_
    | with_reducible refine Keeps.raise ?_ ?_
    | with_reducible refine Keeps.setReg64 ?_ ?_
    | split
    | intro _
    | dsimp only

theorem State.linkRefused_keeps (hw : Within [.evlog, .block 0, .block 31] w) (h : Keeps w s t) :
    Keeps w s (State.linkRefused t) := by
  unfold State.linkRefused
  repeat' first
    | with_reducible assumption
    | ((with_reducible refine Within.sub hw ?_); exact rfl)
    | with_reducible refine Keeps.raise ?_ ?_
    | split
    | intro _
    | dsimp only

theorem laneClear_keeps {x0 : Nat} (hw : Within [.block 31] w) (h : Keeps w s t) :
    Keeps w s (laneClear x0 t) := by
  unfold laneClear
  repeat' first
    | with_reducible assumption
    | ((with_reducible refine Within.sub hw ?_); exact rfl)
    | with_reducible refine Keeps.setReg64 ?_ ?_
    | (simp only [R.LINKTEST_l_BITS_HI_block, R.LINKTEST_l_BITS_LO_block, R.LINKTEST_l_ERR_HI_block, R.LINKTEST_l_ERR_LO_block]; (with_reducible refine Within.sub hw ?_); exact rfl)
    | split
    | intro _
    | dsimp only

theorem linktestCtrlWrite_keeps {x0 : Nat} {x1 : Word} (hw : Within [.evlog, .injected, .block 0, .block 31] w) (h : Keeps w s t) :
    Keeps w s (linktestCtrlWrite x0 x1 t) := by
  unfold linktestCtrlWrite
  repeat' first
    | with_reducible assumption
    | ((with_reducible refine Within.sub hw ?_); exact rfl)
    | with_reducible refine State.linkRefused_keeps ?_ ?_
    | with_reducible refine Keeps.setReg ?_ ?_
    | with_reducible refine laneClear_keeps ?_ ?_
    | (simp only [R.LINKTEST_l_CTRL_block, R.UPLINK_p_CTRL_block]; (with_reducible refine Within.sub hw ?_); exact rfl)
    | split
    | intro _
    | dsimp only
    | with_reducible refine Keeps.set_injected ?_ ?_

theorem laneCount_keeps {x0 : Nat} {x1 : Nat} {x2 : Nat} (hw : Within [.block 31] w) (h : Keeps w s t) :
    Keeps w s (laneCount x0 x1 x2 t) := by
  unfold laneCount
  repeat' first
    | with_reducible assumption
    | ((with_reducible refine Within.sub hw ?_); exact rfl)
    | with_reducible refine Keeps.setReg64 ?_ ?_
    | (simp only [R.LINKTEST_l_BITS_HI_block, R.LINKTEST_l_BITS_LO_block, R.LINKTEST_l_ERR_HI_block, R.LINKTEST_l_ERR_LO_block]; (with_reducible refine Within.sub hw ?_); exact rfl)
    | split
    | intro _
    | dsimp only

theorem prbsLock_keeps {x0 : Nat} {x1 : Nat} {x2 : Nat} (hw : Within [.block 31] w) (h : Keeps w s t) :
    Keeps w s (prbsLock x0 x1 x2 t) := by
  unfold prbsLock
  repeat' first
    | with_reducible assumption
    | ((with_reducible refine Within.sub hw ?_); exact rfl)
    | with_reducible refine Keeps.put ?_ ?_
    | with_reducible refine laneCount_keeps ?_ ?_
    | (simp only [R.LINKTEST_l_CTRL_block, R.LINKTEST_l_STATUS_block]; (with_reducible refine Within.sub hw ?_); exact rfl)
    | split
    | intro _
    | dsimp only

theorem prbsLockLost_keeps {x0 : Nat} {x1 : Nat} {x2 : Nat} (hw : Within [.evlog, .block 0, .block 31] w) (h : Keeps w s t) :
    Keeps w s (prbsLockLost x0 x1 x2 t) := by
  unfold prbsLockLost
  repeat' first
    | with_reducible assumption
    | ((with_reducible refine Within.sub hw ?_); exact rfl)
    | with_reducible refine Keeps.incSat ?_ ?_
    | with_reducible refine Keeps.put ?_ ?_
    | with_reducible refine Keeps.raise ?_ ?_
    | with_reducible refine laneCount_keeps ?_ ?_
    | (simp only [R.LINKTEST_l_LOCK_CNT_block, R.LINKTEST_l_STATUS_block]; (with_reducible refine Within.sub hw ?_); exact rfl)
    | split
    | intro _
    | dsimp only

theorem State.setGen_keeps {x1 : Nat} {x2 : FrameGen} (hw : Within [.gens] w) (h : Keeps w s t) :
    Keeps w s (State.setGen t x1 x2) := by
  unfold State.setGen
  repeat' first
    | with_reducible assumption
    | ((with_reducible refine Within.sub hw ?_); exact rfl)
    | split
    | intro _
    | dsimp only
    | with_reducible refine Keeps.set_gens ?_ ?_

theorem genClear_keeps {x0 : Nat} (hw : Within [.block 31] w) (h : Keeps w s t) :
    Keeps w s (genClear x0 t) := by
  unfold genClear
  repeat' first
    | with_reducible assumption
    | ((with_reducible refine Within.sub hw ?_); exact rfl)
    | with_reducible refine Keeps.setReg ?_ ?_
    | (simp only [R.LINKTEST_f_BAD_block, R.LINKTEST_f_GOOD_block, R.LINKTEST_f_LOST_block, R.LINKTEST_f_SENT_block]; (with_reducible refine Within.sub hw ?_); exact rfl)
    | split
    | intro _
    | dsimp only

theorem genStop_keeps {x0 : Nat} (hw : Within [.gens] w) (h : Keeps w s t) :
    Keeps w s (genStop x0 t) := by
  unfold genStop
  repeat' first
    | with_reducible assumption
    | ((with_reducible refine Within.sub hw ?_); exact rfl)
    | with_reducible refine State.setGen_keeps ?_ ?_
    | split
    | intro _
    | dsimp only

theorem genPortSet_keeps {x0 : Nat} (hw : Within [.gens] w) (h : Keeps w s t) :
    Keeps w s (genPortSet x0 t) := by
  unfold genPortSet
  repeat' first
    | with_reducible assumption
    | ((with_reducible refine Within.sub hw ?_); exact rfl)
    | with_reducible refine genStop_keeps ?_ ?_
    | split
    | intro _
    | dsimp only

theorem genStart_keeps {x0 : Nat} (hw : Within [.gens] w) (h : Keeps w s t) :
    Keeps w s (genStart x0 t) := by
  unfold genStart
  repeat' first
    | with_reducible assumption
    | ((with_reducible refine Within.sub hw ?_); exact rfl)
    | with_reducible refine State.setGen_keeps ?_ ?_
    | (simp only [R.LINKTEST_f_FCOUNT_block]; (with_reducible refine Within.sub hw ?_); exact rfl)
    | split
    | intro _
    | dsimp only

theorem genCtrlWrite_keeps {x0 : Nat} {x1 : Word} (hw : Within [.evlog, .gens, .block 0, .block 31] w) (h : Keeps w s t) :
    Keeps w s (genCtrlWrite x0 x1 t) := by
  unfold genCtrlWrite
  repeat' first
    | with_reducible assumption
    | ((with_reducible refine Within.sub hw ?_); exact rfl)
    | with_reducible refine State.linkRefused_keeps ?_ ?_
    | with_reducible refine Keeps.setReg ?_ ?_
    | with_reducible refine genClear_keeps ?_ ?_
    | with_reducible refine genStart_keeps ?_ ?_
    | with_reducible refine genStop_keeps ?_ ?_
    | (simp only [R.LINKTEST_f_FCTRL_block]; (with_reducible refine Within.sub hw ?_); exact rfl)
    | split
    | intro _
    | dsimp only

theorem testFrameSend_keeps {x0 : Nat} (hw : Within [.gens, .raw, .block 31] w) (h : Keeps w s t) :
    Keeps w s (testFrameSend x0 t) := by
  unfold testFrameSend
  repeat' first
    | with_reducible assumption
    | ((with_reducible refine Within.sub hw ?_); exact rfl)
    | with_reducible refine Keeps.advanceTo ?_ ?_
    | with_reducible refine Keeps.incWrap ?_ ?_
    | with_reducible refine State.setGen_keeps ?_ ?_
    | (simp only [R.LINKTEST_f_FCTRL_block, R.LINKTEST_f_SENT_block]; (with_reducible refine Within.sub hw ?_); exact rfl)
    | split
    | intro _
    | dsimp only

theorem testFrameRx_keeps {x0 : Nat} {x1 : Nat} {x2 : Bool} (hw : Within [.evlog, .gens, .block 0, .block 31] w) (h : Keeps w s t) :
    Keeps w s (testFrameRx x0 x1 x2 t) := by
  unfold testFrameRx
  repeat' first
    | with_reducible assumption
    | ((with_reducible refine Within.sub hw ?_); exact rfl)
    | with_reducible refine Keeps.addSat ?_ ?_
    | with_reducible refine Keeps.incSat ?_ ?_
    | with_reducible refine Keeps.raise ?_ ?_
    | with_reducible refine State.setGen_keeps ?_ ?_
    | (simp only [R.LINKTEST_f_BAD_block, R.LINKTEST_f_FCTRL_block, R.LINKTEST_f_GOOD_block, R.LINKTEST_f_LOST_block]; (with_reducible refine Within.sub hw ?_); exact rfl)
    | split
    | intro _
    | dsimp only

theorem xspiProgFail_keeps (hw : Within [.evlog, .block 0, .block 30] w) (h : Keeps w s t) :
    Keeps w s (xspiProgFail t) := by
  unfold xspiProgFail
  repeat' first
    | with_reducible assumption
    | ((with_reducible refine Within.sub hw ?_); exact rfl)
    | with_reducible refine Keeps.incSat ?_ ?_
    | with_reducible refine Keeps.raise ?_ ?_
    | split
    | intro _
    | dsimp only

end Sys2Proof.Machine
end

