-- ==== Sys2Proof/Laws/Keeps/Vars.lean ====
section
/-! SUPPORT. What the operations of Sys2Proof/Machine/Vars.lean leave unchanged. -/

set_option linter.all false
set_option Elab.async false

namespace Sys2Proof.Machine

variable {w : List Piece} {s t : State}

theorem State.setGlobal_keeps {x1 : Nat} {x2 : Nat} {x3 : Quad} (hw : Within [.collie] w) (h : Keeps w s t) :
    Keeps w s (State.setGlobal t x1 x2 x3) := by
  unfold State.setGlobal
  repeat' first
    | with_reducible assumption
    | ((with_reducible refine Within.sub hw ?_); exact rfl)
    | split
    | intro _
    | dsimp only
    | with_reducible refine Keeps.set_collie ?_ ?_

theorem buildRetained_keeps {x0 : Nat} (hw : Within [.collie] w) (h : Keeps w s t) :
    Keeps w s (buildRetained x0 t) := by
  unfold buildRetained
  repeat' first
    | with_reducible assumption
    | ((with_reducible refine Within.sub hw ?_); exact rfl)
    | with_reducible refine State.setRetained_keeps ?_ ?_
    | split
    | intro _
    | dsimp only

theorem State.varPoke_keeps {x1 : Module} {x2 : VarDesc} {x3 : Nat} {x4 : Quad} (hw : Within [.collie, .txn] w) (h : Keeps w s t) :
    Keeps w s (State.varPoke t x1 x2 x3 x4) := by
  unfold State.varPoke
  repeat' first
    | with_reducible assumption
    | ((with_reducible refine Within.sub hw ?_); exact rfl)
    | with_reducible refine State.setGlobal_keeps ?_ ?_
    | with_reducible refine State.setRetained_keeps ?_ ?_
    | with_reducible refine buildRetained_keeps ?_ ?_
    | split
    | intro _
    | dsimp only
    | with_reducible refine Keeps.set_txn ?_ ?_

theorem dropPersisted_keeps {x0 : Nat} (hw : Within [.gran] w) (h : Keeps w s t) :
    Keeps w s (dropPersisted x0 t) := by
  unfold dropPersisted
  repeat' first
    | with_reducible assumption
    | ((with_reducible refine Within.sub hw ?_); exact rfl)
    | split
    | intro _
    | dsimp only
    | with_reducible refine Keeps.set_gran ?_ ?_

end Sys2Proof.Machine
end

