-- ==== Sys2Proof/Laws/Keeps/TxnBase.lean ====
section
/-! SUPPORT. What the operations of Sys2Proof/Machine/TxnBase.lean leave unchanged. -/

set_option linter.all false
set_option Elab.async false

namespace Sys2Proof.Machine

variable {w : List Piece} {s t : State}

theorem State.setTx_keeps {x1 : Nat} {x2 : Txn} (hw : Within [.txn] w) (h : Keeps w s t) :
    Keeps w s (State.setTx t x1 x2) := by
  unfold State.setTx
  repeat' first
    | with_reducible assumption
    | ((with_reducible refine Within.sub hw ?_); exact rfl)
    | split
    | intro _
    | dsimp only
    | with_reducible refine Keeps.set_txn ?_ ?_

theorem State.modTx_keeps {x1 : Nat} {x2 : Txn → Txn} (hw : Within [.txn] w) (h : Keeps w s t) :
    Keeps w s (State.modTx t x1 x2) := by
  unfold State.modTx
  repeat' first
    | with_reducible assumption
    | ((with_reducible refine Within.sub hw ?_); exact rfl)
    | with_reducible refine State.setTx_keeps ?_ ?_
    | split
    | intro _
    | dsimp only

theorem txTake_keeps {x0 : Nat} {x1 : Nat} {x2 : Bool} (hw : Within [.txn] w) (h : Keeps w s t) :
    Keeps w s (txTake x0 x1 x2 t).2 := by
  unfold txTake
  repeat' first
    | with_reducible assumption
    | ((with_reducible refine Within.sub hw ?_); exact rfl)
    | with_reducible refine State.setTx_keeps ?_ ?_
    | split
    | intro _
    | dsimp only
    | with_reducible refine Keeps.set_txn ?_ ?_

theorem txTake_keeps_eq {x0 : Nat} {x1 : Nat} {x2 : Bool} {y} {u : State}  (e : txTake x0 x1 x2 t = (y, u)) (hw : Within [.txn] w) (h : Keeps w s t) : Keeps w s u := by
  have := txTake_keeps hw h (x0 := x0) (x1 := x1) (x2 := x2)
  rw [e] at this; exact this

theorem txOpenReserved_keeps {x0 : Nat} (hw : Within [.txn] w) (h : Keeps w s t) :
    Keeps w s (txOpenReserved x0 t) := by
  unfold txOpenReserved
  repeat' first
    | with_reducible assumption
    | ((with_reducible refine Within.sub hw ?_); exact rfl)
    | with_reducible refine State.modTx_keeps ?_ ?_
    | split
    | intro _
    | dsimp only

theorem txFree_keeps {x0 : Nat} (hw : Within [.txn] w) (h : Keeps w s t) :
    Keeps w s (txFree x0 t) := by
  unfold txFree
  repeat' first
    | with_reducible assumption
    | ((with_reducible refine Within.sub hw ?_); exact rfl)
    | with_reducible refine State.setTx_keeps ?_ ?_
    | split
    | intro _
    | dsimp only

theorem txAddWire_keeps {x0 : Nat} {x1 : Nat} {x2 : Nat} {x3 : Nat} {x4 : EType} {x5 : Nat} {x6 : Quad} {x7 : Nat} (hw : Within [.txn] w) (h : Keeps w s t) :
    Keeps w s (txAddWire x0 x1 x2 x3 x4 x5 x6 x7 t) := by
  unfold txAddWire
  repeat' first
    | with_reducible assumption
    | ((with_reducible refine Within.sub hw ?_); exact rfl)
    | with_reducible refine State.setTx_keeps ?_ ?_
    | split
    | intro _
    | dsimp only

theorem txAdd_keeps {x0 : Nat} {x1 : Nat} {x2 : Nat} {x3 : EType} {x4 : Nat} {x5 : Quad} {x6 : Nat} (hw : Within [.txn] w) (h : Keeps w s t) :
    Keeps w s (txAdd x0 x1 x2 x3 x4 x5 x6 t) := by
  unfold txAdd
  repeat' first
    | with_reducible assumption
    | ((with_reducible refine Within.sub hw ?_); exact rfl)
    | with_reducible refine txAddWire_keeps ?_ ?_
    | split
    | intro _
    | dsimp only

theorem txRepeat_keeps {x0 : Nat} {x1 : Bool} {x2 : Nat} {x3 : Quad} (hw : Within [.txn] w) (h : Keeps w s t) :
    Keeps w s (txRepeat x0 x1 x2 x3 t) := by
  unfold txRepeat
  repeat' first
    | with_reducible assumption
    | ((with_reducible refine Within.sub hw ?_); exact rfl)
    | split
    | intro _
    | dsimp only
    | with_reducible refine Keeps.set_txn ?_ ?_

theorem noteDoubt_keeps {x0 : Nat} {x1 : Bool} {x2 : Nat} (hw : Within [.txn] w) (h : Keeps w s t) :
    Keeps w s (noteDoubt x0 x1 x2 t) := by
  unfold noteDoubt
  repeat' first
    | with_reducible assumption
    | ((with_reducible refine Within.sub hw ?_); exact rfl)
    | split
    | intro _
    | dsimp only
    | with_reducible refine Keeps.set_txn ?_ ?_

theorem noteUnreached_keeps {x0 : Nat} {x1 : Bool} {x2 : List Nat} (hw : Within [.txn] w) (h : Keeps w s t) :
    Keeps w s (noteUnreached x0 x1 x2 t) := by
  unfold noteUnreached
  repeat' first
    | with_reducible assumption
    | ((with_reducible refine Within.sub hw ?_); exact rfl)
    | with_reducible refine Keeps.forAll ?_ ?_
    | with_reducible refine noteDoubt_keeps ?_ ?_
    | split
    | intro _
    | dsimp only

theorem txTellPeers_keeps {x0 : Nat} {x1 : Bool} (hw : Within [.txn] w) (h : Keeps w s t) :
    Keeps w s (txTellPeers x0 x1 t) := by
  unfold txTellPeers
  repeat' first
    | with_reducible assumption
    | ((with_reducible refine Within.sub hw ?_); exact rfl)
    | with_reducible refine noteUnreached_keeps ?_ ?_
    | split
    | intro _
    | dsimp only
    | with_reducible refine Keeps.set_txn ?_ ?_

theorem txFreeIfDropped_keeps {x0 : Nat} (hw : Within [.txn] w) (h : Keeps w s t) :
    Keeps w s (txFreeIfDropped x0 t) := by
  unfold txFreeIfDropped
  repeat' first
    | with_reducible assumption
    | ((with_reducible refine Within.sub hw ?_); exact rfl)
    | with_reducible refine txFree_keeps ?_ ?_
    | split
    | intro _
    | dsimp only

theorem abortRecords_keeps {x0 : Nat} (hw : Within [.free, .txn] w) (h : Keeps w s t) :
    Keeps w s (abortRecords x0 t) := by
  unfold abortRecords
  repeat' first
    | with_reducible assumption
    | ((with_reducible refine Within.sub hw ?_); exact rfl)
    | with_reducible refine txRepeat_keeps ?_ ?_
    | split
    | intro _
    | dsimp only
    | with_reducible refine Keeps.set_free ?_ ?_

theorem txAbort_keeps {x0 : Nat} {x1 : Nat} {x2 : Bool} (hw : Within [.evlog, .free, .txn, .block 0, .block 8] w) (h : Keeps w s t) :
    Keeps w s (txAbort x0 x1 x2 t) := by
  unfold txAbort
  repeat' first
    | with_reducible assumption
    | ((with_reducible refine Within.sub hw ?_); exact rfl)
    | with_reducible refine Keeps.incSat ?_ ?_
    | with_reducible refine Keeps.raise ?_ ?_
    | with_reducible refine State.setTx_keeps ?_ ?_
    | with_reducible refine abortRecords_keeps ?_ ?_
    | with_reducible refine txFreeIfDropped_keeps ?_ ?_
    | with_reducible refine txTellPeers_keeps ?_ ?_
    | split
    | intro _
    | dsimp only

theorem txFinish_keeps {x0 : Nat} (hw : Within [.txn, .block 8] w) (h : Keeps w s t) :
    Keeps w s (txFinish x0 t) := by
  unfold txFinish
  repeat' first
    | with_reducible assumption
    | ((with_reducible refine Within.sub hw ?_); exact rfl)
    | with_reducible refine Keeps.incSat ?_ ?_
    | with_reducible refine State.setTx_keeps ?_ ?_
    | with_reducible refine txFreeIfDropped_keeps ?_ ?_
    | split
    | intro _
    | dsimp only

theorem modPart_keeps {x0 : Nat} {x1 : Nat} {x2 : Part → Part} (hw : Within [.txn] w) (h : Keeps w s t) :
    Keeps w s (modPart x0 x1 x2 t) := by
  unfold modPart
  repeat' first
    | with_reducible assumption
    | ((with_reducible refine Within.sub hw ?_); exact rfl)
    | with_reducible refine State.modTx_keeps ?_ ?_
    | split
    | intro _
    | dsimp only

theorem partLate_keeps {x0 : Nat} {x1 : Nat} {x2 : Nat} (hw : Within [.evlog, .txn, .block 0, .block 8] w) (h : Keeps w s t) :
    Keeps w s (partLate x0 x1 x2 t) := by
  unfold partLate
  repeat' first
    | with_reducible assumption
    | ((with_reducible refine Within.sub hw ?_); exact rfl)
    | with_reducible refine Keeps.incSat ?_ ?_
    | with_reducible refine State.modTx_keeps ?_ ?_
    | with_reducible refine Keeps.raise ?_ ?_
    | with_reducible refine modPart_keeps ?_ ?_
    | split
    | intro _
    | dsimp only

theorem partUnsettled_keeps {x0 : Nat} {x1 : Nat} {x2 : Nat} (hw : Within [.evlog, .txn, .block 0, .block 8] w) (h : Keeps w s t) :
    Keeps w s (partUnsettled x0 x1 x2 t) := by
  unfold partUnsettled
  repeat' first
    | with_reducible assumption
    | ((with_reducible refine Within.sub hw ?_); exact rfl)
    | with_reducible refine Keeps.incSat ?_ ?_
    | with_reducible refine Keeps.raise ?_ ?_
    | with_reducible refine modPart_keeps ?_ ?_
    | split
    | intro _
    | dsimp only

theorem txVote_keeps {x0 : Nat} {x1 : Nat} {x2 : Bool} {x3 : Nat} (hw : Within [.txn] w) (h : Keeps w s t) :
    Keeps w s (txVote x0 x1 x2 x3 t) := by
  unfold txVote
  repeat' first
    | with_reducible assumption
    | ((with_reducible refine Within.sub hw ?_); exact rfl)
    | with_reducible refine modPart_keeps ?_ ?_
    | split
    | intro _
    | dsimp only

theorem txLose_keeps {x0 : Nat} {x1 : Nat} (hw : Within [.txn] w) (h : Keeps w s t) :
    Keeps w s (txLose x0 x1 t) := by
  unfold txLose
  repeat' first
    | with_reducible assumption
    | ((with_reducible refine Within.sub hw ?_); exact rfl)
    | with_reducible refine modPart_keeps ?_ ?_
    | split
    | intro _
    | dsimp only

theorem txLost_keeps {x0 : Nat} {x1 : Nat} (hw : Within [.evlog, .txn, .block 0, .block 8] w) (h : Keeps w s t) :
    Keeps w s (txLost x0 x1 t) := by
  unfold txLost
  repeat' first
    | with_reducible assumption
    | ((with_reducible refine Within.sub hw ?_); exact rfl)
    | with_reducible refine Keeps.forAll ?_ ?_
    | with_reducible refine partUnsettled_keeps ?_ ?_
    | with_reducible refine txFinish_keeps ?_ ?_
    | with_reducible refine txLose_keeps ?_ ?_
    | split
    | intro _
    | dsimp only

theorem txAxisFault_keeps {x0 : Nat} (hw : Within [.txn] w) (h : Keeps w s t) :
    Keeps w s (txAxisFault x0 t) := by
  unfold txAxisFault
  repeat' first
    | with_reducible assumption
    | ((with_reducible refine Within.sub hw ?_); exact rfl)
    | with_reducible refine Keeps.forAll ?_ ?_
    | with_reducible refine txVote_keeps ?_ ?_
    | split
    | intro _
    | dsimp only

theorem sealSends_keeps {x0 : Nat} (hw : Within [.txn] w) (h : Keeps w s t) :
    Keeps w s (sealSends x0 t) := by
  unfold sealSends
  repeat' first
    | with_reducible assumption
    | ((with_reducible refine Within.sub hw ?_); exact rfl)
    | split
    | intro _
    | dsimp only
    | with_reducible refine Keeps.set_txn ?_ ?_

theorem txSeal_keeps {x0 : Nat} {x1 : Nat} (hw : Within [.evlog, .free, .txn, .block 0, .block 8] w) (h : Keeps w s t) :
    Keeps w s (txSeal x0 x1 t) := by
  unfold txSeal
  repeat' first
    | with_reducible assumption
    | ((with_reducible refine Within.sub hw ?_); exact rfl)
    | with_reducible refine State.modTx_keeps ?_ ?_
    | with_reducible refine sealSends_keeps ?_ ?_
    | with_reducible refine txAbort_keeps ?_ ?_
    | split
    | intro _
    | dsimp only

theorem txDrop_keeps {x0 : Nat} (hw : Within [.evlog, .free, .txn, .block 0, .block 8] w) (h : Keeps w s t) :
    Keeps w s (txDrop x0 t) := by
  unfold txDrop
  repeat' first
    | with_reducible assumption
    | ((with_reducible refine Within.sub hw ?_); exact rfl)
    | with_reducible refine State.setTx_keeps ?_ ?_
    | with_reducible refine txAbort_keeps ?_ ?_
    | with_reducible refine txFree_keeps ?_ ?_
    | split
    | intro _
    | dsimp only

theorem txHoldExpiry_keeps (hw : Within [.txn] w) (h : Keeps w s t) :
    Keeps w s (txHoldExpiry t) := by
  unfold txHoldExpiry
  repeat' first
    | with_reducible assumption
    | ((with_reducible refine Within.sub hw ?_); exact rfl)
    | with_reducible refine Keeps.forAll ?_ ?_
    | with_reducible refine txFree_keeps ?_ ?_
    | split
    | intro _
    | dsimp only

theorem txOpenTimeout_keeps (hw : Within [.evlog, .free, .txn, .block 0, .block 8] w) (h : Keeps w s t) :
    Keeps w s (txOpenTimeout t) := by
  unfold txOpenTimeout
  repeat' first
    | with_reducible assumption
    | ((with_reducible refine Within.sub hw ?_); exact rfl)
    | with_reducible refine Keeps.forAll ?_ ?_
    | with_reducible refine txAbort_keeps ?_ ?_
    | split
    | intro _
    | dsimp only

theorem txStop_keeps (hw : Within [.evlog, .free, .txn, .block 0, .block 8] w) (h : Keeps w s t) :
    Keeps w s (txStop t) := by
  unfold txStop
  repeat' first
    | with_reducible assumption
    | ((with_reducible refine Within.sub hw ?_); exact rfl)
    | with_reducible refine Keeps.forAll ?_ ?_
    | with_reducible refine txAbort_keeps ?_ ?_
    | with_reducible refine txFree_keeps ?_ ?_
    | split
    | intro _
    | dsimp only

theorem txWarm_keeps (hw : Within [.evlog, .free, .txn, .block 0, .block 8] w) (h : Keeps w s t) :
    Keeps w s (txWarm t) := by
  unfold txWarm
  repeat' first
    | with_reducible assumption
    | ((with_reducible refine Within.sub hw ?_); exact rfl)
    | with_reducible refine Keeps.forAll ?_ ?_
    | with_reducible refine txAbort_keeps ?_ ?_
    | with_reducible refine txFree_keeps ?_ ?_
    | split
    | intro _
    | dsimp only

end Sys2Proof.Machine
end

