-- ==== Sys2Proof/Laws/Keeps/Field.lean ====
section
/-! SUPPORT. What the operations of Sys2Proof/Machine/Field.lean leave unchanged. -/

set_option linter.all false
set_option Elab.async false

namespace Sys2Proof.Machine

variable {w : List Piece} {s t : State}

theorem State.setFport_keeps {x1 : Nat} {x2 : FieldPort} (hw : Within [.field] w) (h : Keeps w s t) :
    Keeps w s (State.setFport t x1 x2) := by
  unfold State.setFport
  repeat' first
    | with_reducible assumption
    | ((with_reducible refine Within.sub hw ?_); exact rfl)
    | split
    | intro _
    | dsimp only
    | with_reducible refine Keeps.set_field ?_ ?_

theorem State.setStn_keeps {x1 : Nat} {x2 : Nat} {x3 : StationSt} (hw : Within [.field] w) (h : Keeps w s t) :
    Keeps w s (State.setStn t x1 x2 x3) := by
  unfold State.setStn
  repeat' first
    | with_reducible assumption
    | ((with_reducible refine Within.sub hw ?_); exact rfl)
    | split
    | intro _
    | dsimp only
    | with_reducible refine Keeps.set_field ?_ ?_

theorem State.setQual_keeps {x1 : Nat} {x2 : Nat} (hw : Within [.quals] w) (h : Keeps w s t) :
    Keeps w s (State.setQual t x1 x2) := by
  unfold State.setQual
  repeat' first
    | with_reducible assumption
    | ((with_reducible refine Within.sub hw ?_); exact rfl)
    | split
    | intro _
    | dsimp only
    | with_reducible refine Keeps.set_quals ?_ ?_

theorem State.setAge_keeps {x1 : Nat} {x2 : Nat} (hw : Within [.ages] w) (h : Keeps w s t) :
    Keeps w s (State.setAge t x1 x2) := by
  unfold State.setAge
  repeat' first
    | with_reducible assumption
    | ((with_reducible refine Within.sub hw ?_); exact rfl)
    | split
    | intro _
    | dsimp only
    | with_reducible refine Keeps.set_ages ?_ ?_

theorem State.putInputs_keeps {x1 : Nat} {x2 : List Byte} (hw : Within [.inputs] w) (h : Keeps w s t) :
    Keeps w s (State.putInputs t x1 x2) := by
  unfold State.putInputs
  repeat' first
    | with_reducible assumption
    | ((with_reducible refine Within.sub hw ?_); exact rfl)
    | split
    | intro _
    | dsimp only
    | with_reducible refine Keeps.set_inputs ?_ ?_

theorem substitute_keeps {x1 : Nat} {x2 : Nat} {x3 : Nat} {x4 : List Byte} (hw : Within [.inputs] w) (h : Keeps w s t) :
    Keeps w s (substitute t x1 x2 x3 x4) := by
  unfold substitute
  repeat' first
    | with_reducible assumption
    | ((with_reducible refine Within.sub hw ?_); exact rfl)
    | with_reducible refine State.putInputs_keeps ?_ ?_
    | split
    | intro _
    | dsimp only

theorem fieldRefused_keeps (hw : Within [.evlog, .block 0, .block 17] w) (h : Keeps w s t) :
    Keeps w s (fieldRefused t) := by
  unfold fieldRefused
  repeat' first
    | with_reducible assumption
    | ((with_reducible refine Within.sub hw ?_); exact rfl)
    | with_reducible refine Keeps.raise ?_ ?_
    | split
    | intro _
    | dsimp only

theorem fieldCtrlWrite_keeps {x0 : Nat} {x1 : Word} (hw : Within [.evlog, .field, .gens, .block 0, .block 17] w) (h : Keeps w s t) :
    Keeps w s (fieldCtrlWrite x0 x1 t) := by
  unfold fieldCtrlWrite
  repeat' first
    | with_reducible assumption
    | ((with_reducible refine Within.sub hw ?_); exact rfl)
    | with_reducible refine Keeps.put ?_ ?_
    | with_reducible refine Keeps.setReg ?_ ?_
    | with_reducible refine State.setFport_keeps ?_ ?_
    | with_reducible refine fieldRefused_keeps ?_ ?_
    | with_reducible refine genPortSet_keeps ?_ ?_
    | (simp only [R.FIELD_p_CTRL_block, R.FIELD_p_CYCLE_block, R.FIELD_p_STATUS_block]; (with_reducible refine Within.sub hw ?_); exact rfl)
    | split
    | intro _
    | dsimp only

theorem fieldCycleWrite_keeps {x0 : Nat} {x1 : Word} (hw : Within [.evlog, .block 0, .block 17] w) (h : Keeps w s t) :
    Keeps w s (fieldCycleWrite x0 x1 t) := by
  unfold fieldCycleWrite
  repeat' first
    | with_reducible assumption
    | ((with_reducible refine Within.sub hw ?_); exact rfl)
    | with_reducible refine Keeps.setReg ?_ ?_
    | with_reducible refine fieldRefused_keeps ?_ ?_
    | (simp only [R.FIELD_p_CTRL_block, R.FIELD_p_CYCLE_block]; (with_reducible refine Within.sub hw ?_); exact rfl)
    | split
    | intro _
    | dsimp only

theorem stnPost_keeps {x0 : Nat} {x1 : Nat} {x2 : Nat} (hw : Within [.collie] w) (h : Keeps w s t) :
    Keeps w s (stnPost x0 x1 x2 t) := by
  unfold stnPost
  repeat' first
    | with_reducible assumption
    | ((with_reducible refine Within.sub hw ?_); exact rfl)
    | with_reducible refine hwPostCfg_keeps ?_ ?_
    | (simp only [R.FIELD_p_CYCLE_NUM_block]; (with_reducible refine Within.sub hw ?_); exact rfl)
    | split
    | intro _
    | dsimp only

theorem setStnState_keeps {x0 : Nat} {x1 : StationCfg} {x2 : Nat} (hw : Within [.collie, .inputs, .quals, .block 17] w) (h : Keeps w s t) :
    Keeps w s (setStnState x0 x1 x2 t) := by
  unfold setStnState
  repeat' first
    | with_reducible assumption
    | ((with_reducible refine Within.sub hw ?_); exact rfl)
    | with_reducible refine Keeps.put ?_ ?_
    | with_reducible refine State.setQual_keeps ?_ ?_
    | with_reducible refine stnPost_keeps ?_ ?_
    | with_reducible refine substitute_keeps ?_ ?_
    | (simp only [R.FIELD_p_s_STATUS_block]; (with_reducible refine Within.sub hw ?_); exact rfl)
    | split
    | intro _
    | dsimp only

theorem stnJoin_keeps {x0 : Nat} {x1 : StationCfg} (hw : Within [.collie, .evlog, .field, .inputs, .quals, .block 0, .block 17] w) (h : Keeps w s t) :
    Keeps w s (stnJoin x0 x1 t) := by
  unfold stnJoin
  repeat' first
    | with_reducible assumption
    | ((with_reducible refine Within.sub hw ?_); exact rfl)
    | with_reducible refine Keeps.put ?_ ?_
    | with_reducible refine Keeps.raise ?_ ?_
    | with_reducible refine State.setStn_keeps ?_ ?_
    | with_reducible refine setStnState_keeps ?_ ?_
    | (simp only [R.FIELD_p_s_STATUS_block]; (with_reducible refine Within.sub hw ?_); exact rfl)
    | split
    | intro _
    | dsimp only

theorem stnLost_keeps {x0 : Nat} {x1 : StationCfg} (hw : Within [.collie, .evlog, .inputs, .quals, .txn, .block 0, .block 8, .block 17] w) (h : Keeps w s t) :
    Keeps w s (stnLost x0 x1 t) := by
  unfold stnLost
  repeat' first
    | with_reducible assumption
    | ((with_reducible refine Within.sub hw ?_); exact rfl)
    | with_reducible refine Keeps.raise ?_ ?_
    | with_reducible refine setStnState_keeps ?_ ?_
    | with_reducible refine txLost_keeps ?_ ?_
    | split
    | intro _
    | dsimp only

theorem stnMiss_keeps {x0 : Nat} {x1 : StationCfg} (hw : Within [.collie, .evlog, .inputs, .quals, .txn, .block 0, .block 8, .block 17] w) (h : Keeps w s t) :
    Keeps w s (stnMiss x0 x1 t) := by
  unfold stnMiss
  repeat' first
    | with_reducible assumption
    | ((with_reducible refine Within.sub hw ?_); exact rfl)
    | with_reducible refine Keeps.addFldSat ?_ ?_
    | with_reducible refine Keeps.put ?_ ?_
    | with_reducible refine setStnState_keeps ?_ ?_
    | with_reducible refine stnLost_keeps ?_ ?_
    | (simp only [R.FIELD_p_LIMITS_block, R.FIELD_p_s_COUNTS_block, R.FIELD_p_s_STATUS_block]; (with_reducible refine Within.sub hw ?_); exact rfl)
    | split
    | intro _
    | dsimp only

theorem stnAdmit_keeps {x0 : Nat} {x1 : StationCfg} (hw : Within [.collie, .evlog, .field, .inputs, .quals, .block 0, .block 17] w) (h : Keeps w s t) :
    Keeps w s (stnAdmit x0 x1 t) := by
  unfold stnAdmit
  repeat' first
    | with_reducible assumption
    | ((with_reducible refine Within.sub hw ?_); exact rfl)
    | with_reducible refine Keeps.put ?_ ?_
    | with_reducible refine State.putInputs_keeps ?_ ?_
    | with_reducible refine Keeps.raise ?_ ?_
    | with_reducible refine State.setStn_keeps ?_ ?_
    | with_reducible refine setStnState_keeps ?_ ?_
    | (simp only [R.FIELD_p_s_STATUS_block]; (with_reducible refine Within.sub hw ?_); exact rfl)
    | split
    | intro _
    | dsimp only

theorem stnJudge_keeps {x0 : Nat} {x1 : StationCfg} (hw : Within [.collie, .evlog, .field, .inputs, .quals, .txn, .block 0, .block 8, .block 17] w) (h : Keeps w s t) :
    Keeps w s (stnJudge x0 x1 t) := by
  unfold stnJudge
  repeat' first
    | with_reducible assumption
    | ((with_reducible refine Within.sub hw ?_); exact rfl)
    | with_reducible refine Keeps.put ?_ ?_
    | with_reducible refine Keeps.putFlag ?_ ?_
    | with_reducible refine State.setStn_keeps ?_ ?_
    | with_reducible refine setStnState_keeps ?_ ?_
    | with_reducible refine stnAdmit_keeps ?_ ?_
    | with_reducible refine stnJoin_keeps ?_ ?_
    | with_reducible refine stnLost_keeps ?_ ?_
    | with_reducible refine stnMiss_keeps ?_ ?_
    | (simp only [R.FIELD_p_s_CTRL_block, R.FIELD_p_s_STATUS_block]; (with_reducible refine Within.sub hw ?_); exact rfl)
    | split
    | intro _
    | dsimp only

theorem stnMissingBit_keeps {x0 : Nat} {x1 : Nat} {x2 : Bool} (hw : Within [.evlog, .block 0, .block 17] w) (h : Keeps w s t) :
    Keeps w s (stnMissingBit x0 x1 x2 t) := by
  unfold stnMissingBit
  repeat' first
    | with_reducible assumption
    | ((with_reducible refine Within.sub hw ?_); exact rfl)
    | with_reducible refine Keeps.putFlag ?_ ?_
    | with_reducible refine Keeps.raise ?_ ?_
    | (simp only [R.FIELD_p_MISSING_w_block]; (with_reducible refine Within.sub hw ?_); exact rfl)
    | split
    | intro _
    | dsimp only

theorem fieldCounts_keeps {x0 : Nat} (hw : Within [.block 17] w) (h : Keeps w s t) :
    Keeps w s (fieldCounts x0 t) := by
  unfold fieldCounts
  repeat' first
    | with_reducible assumption
    | ((with_reducible refine Within.sub hw ?_); exact rfl)
    | with_reducible refine Keeps.put ?_ ?_
    | (simp only [R.FIELD_p_STATUS_block]; (with_reducible refine Within.sub hw ?_); exact rfl)
    | split
    | intro _
    | dsimp only

theorem pathJudge_keeps {x0 : Nat} {x1 : Nat} (hw : Within [.evlog, .field, .block 0, .block 17] w) (h : Keeps w s t) :
    Keeps w s (pathJudge x0 x1 t) := by
  unfold pathJudge
  repeat' first
    | with_reducible assumption
    | ((with_reducible refine Within.sub hw ?_); exact rfl)
    | with_reducible refine Keeps.putFlag ?_ ?_
    | with_reducible refine Keeps.raiseIf ?_ ?_
    | with_reducible refine State.setFport_keeps ?_ ?_
    | (simp only [R.FIELD_p_CTRL_block, R.FIELD_p_LIMITS_block, R.FIELD_p_STATUS_block]; (with_reducible refine Within.sub hw ?_); exact rfl)
    | split
    | intro _
    | dsimp only

theorem repeatsEnd_keeps {x0 : Nat} (hw : Within [.evlog, .txn, .block 0, .block 8] w) (h : Keeps w s t) :
    Keeps w s (repeatsEnd x0 t) := by
  unfold repeatsEnd
  repeat' first
    | with_reducible assumption
    | ((with_reducible refine Within.sub hw ?_); exact rfl)
    | with_reducible refine Keeps.forAll ?_ ?_
    | with_reducible refine partUnsettled_keeps ?_ ?_
    | with_reducible refine txFinish_keeps ?_ ?_
    | split
    | intro _
    | dsimp only
    | with_reducible refine Keeps.set_txn ?_ ?_

theorem fieldJudge_keeps {x0 : Nat} (hw : Within [.collie, .evlog, .field, .inputs, .quals, .txn, .block 0, .block 8, .block 17] w) (h : Keeps w s t) :
    Keeps w s (fieldJudge x0 t) := by
  unfold fieldJudge
  repeat' first
    | with_reducible assumption
    | ((with_reducible refine Within.sub hw ?_); exact rfl)
    | with_reducible refine Keeps.forAll ?_ ?_
    | with_reducible refine fieldCounts_keeps ?_ ?_
    | with_reducible refine pathJudge_keeps ?_ ?_
    | with_reducible refine repeatsEnd_keeps ?_ ?_
    | with_reducible refine stnJudge_keeps ?_ ?_
    | with_reducible refine stnMissingBit_keeps ?_ ?_
    | (simp only [R.FIELD_p_LIMITS_block]; (with_reducible refine Within.sub hw ?_); exact rfl)
    | split
    | intro _
    | dsimp only

theorem repeatsSent_keeps {x0 : Nat} {x1 : Nat} (hw : Within [.txn] w) (h : Keeps w s t) :
    Keeps w s (repeatsSent x0 x1 t) := by
  unfold repeatsSent
  repeat' first
    | with_reducible assumption
    | ((with_reducible refine Within.sub hw ?_); exact rfl)
    | split
    | intro _
    | dsimp only
    | with_reducible refine Keeps.set_txn ?_ ?_

theorem sendFrame_keeps {x0 : Nat} (hw : Within [.evlog, .field, .txn, .block 0, .block 17] w) (h : Keeps w s t) :
    Keeps w s (sendFrame x0 t) := by
  unfold sendFrame
  repeat' first
    | with_reducible assumption
    | ((with_reducible refine Within.sub hw ?_); exact rfl)
    | with_reducible refine Keeps.addSat ?_ ?_
    | with_reducible refine Keeps.forAll ?_ ?_
    | with_reducible refine Keeps.put ?_ ?_
    | with_reducible refine Keeps.raiseIf ?_ ?_
    | with_reducible refine Keeps.setReg ?_ ?_
    | with_reducible refine State.modTx_keeps ?_ ?_
    | with_reducible refine State.setFport_keeps ?_ ?_
    | with_reducible refine State.setStn_keeps ?_ ?_
    | with_reducible refine repeatsSent_keeps ?_ ?_
    | (simp only [R.FIELD_p_CYCLE_NUM_block, R.FIELD_p_LIMITS_block, R.FIELD_p_REC_OVF_CNT_block, R.FIELD_p_STATUS_block, R.FIELD_p_s_STATUS_block]; (with_reducible refine Within.sub hw ?_); exact rfl)
    | split
    | intro _
    | dsimp only

theorem fieldSend_keeps (hw : Within [.evlog, .field, .resets, .txn, .block 0, .block 17] w) (h : Keeps w s t) :
    Keeps w s (fieldSend t) := by
  unfold fieldSend
  repeat' first
    | with_reducible assumption
    | ((with_reducible refine Within.sub hw ?_); exact rfl)
    | with_reducible refine Keeps.forAll ?_ ?_
    | with_reducible refine portDone_keeps ?_ ?_
    | with_reducible refine sendFrame_keeps ?_ ?_
    | (simp only [R.FIELD_p_CTRL_block]; (with_reducible refine Within.sub hw ?_); exact rfl)
    | split
    | intro _
    | dsimp only

theorem sendDecision_keeps {x0 : Nat} {x1 : Quad} {x2 : List (List Byte)} (hw : Within [.field] w) (h : Keeps w s t) :
    Keeps w s (sendDecision x0 x1 x2 t) := by
  unfold sendDecision
  repeat' first
    | with_reducible assumption
    | ((with_reducible refine Within.sub hw ?_); exact rfl)
    | with_reducible refine State.setFport_keeps ?_ ?_
    | split
    | intro _
    | dsimp only

theorem repeatsAcked_keeps {x0 : Nat} {x1 : Nat} (hw : Within [.txn] w) (h : Keeps w s t) :
    Keeps w s (repeatsAcked x0 x1 t) := by
  unfold repeatsAcked
  repeat' first
    | with_reducible assumption
    | ((with_reducible refine Within.sub hw ?_); exact rfl)
    | split
    | intro _
    | dsimp only
    | with_reducible refine Keeps.set_txn ?_ ?_

theorem ackRecord_keeps {x0 : Nat} {x1 : Nat} {x2 : Nat} {x3 : Nat} {x4 : Nat} (hw : Within [.evlog, .txn, .block 0, .block 8] w) (h : Keeps w s t) :
    Keeps w s (ackRecord x0 x1 x2 x3 x4 t) := by
  unfold ackRecord
  repeat' first
    | with_reducible assumption
    | ((with_reducible refine Within.sub hw ?_); exact rfl)
    | with_reducible refine modPart_keeps ?_ ?_
    | with_reducible refine partLate_keeps ?_ ?_
    | with_reducible refine partUnsettled_keeps ?_ ?_
    | with_reducible refine repeatsAcked_keeps ?_ ?_
    | with_reducible refine txFinish_keeps ?_ ?_
    | split
    | intro _
    | dsimp only

theorem replyRecord_keeps {x0 : Nat} {x1 : Nat} {x2 : ReplyRecord} (hw : Within [.evlog, .txn, .block 0, .block 8] w) (h : Keeps w s t) :
    Keeps w s (replyRecord x0 x1 x2 t) := by
  unfold replyRecord
  repeat' first
    | with_reducible assumption
    | ((with_reducible refine Within.sub hw ?_); exact rfl)
    | with_reducible refine ackRecord_keeps ?_ ?_
    | with_reducible refine txVote_keeps ?_ ?_
    | split
    | intro _
    | dsimp only

theorem goodReply_keeps {x0 : Nat} {x1 : StationCfg} {x2 : Reply} (hw : Within [.ages, .field, .inputs, .block 17] w) (h : Keeps w s t) :
    Keeps w s (goodReply x0 x1 x2 t) := by
  unfold goodReply
  repeat' first
    | with_reducible assumption
    | ((with_reducible refine Within.sub hw ?_); exact rfl)
    | with_reducible refine Keeps.put ?_ ?_
    | with_reducible refine Keeps.putFlag ?_ ?_
    | with_reducible refine State.putInputs_keeps ?_ ?_
    | with_reducible refine State.setAge_keeps ?_ ?_
    | with_reducible refine State.setStn_keeps ?_ ?_
    | (simp only [R.FIELD_p_s_STATUS_block]; (with_reducible refine Within.sub hw ?_); exact rfl)
    | split
    | intro _
    | dsimp only

theorem replyArrival_keeps {x0 : Nat} {x1 : Nat} {x2 : StationCfg} {x3 : Quad} (hw : Within [.block 17] w) (h : Keeps w s t) :
    Keeps w s (replyArrival x0 x1 x2 x3 t) := by
  unfold replyArrival
  repeat' first
    | with_reducible assumption
    | ((with_reducible refine Within.sub hw ?_); exact rfl)
    | with_reducible refine Keeps.addFldSat ?_ ?_
    | with_reducible refine Keeps.setReg ?_ ?_
    | (simp only [R.FIELD_p_s_ARRIVAL_block, R.FIELD_p_s_COUNTS_block]; (with_reducible refine Within.sub hw ?_); exact rfl)
    | split
    | intro _
    | dsimp only

theorem badReply_keeps {x0 : Nat} (hw : Within [.block 17] w) (h : Keeps w s t) :
    Keeps w s (badReply x0 t) := by
  unfold badReply
  repeat' first
    | with_reducible assumption
    | ((with_reducible refine Within.sub hw ?_); exact rfl)
    | with_reducible refine Keeps.incSat ?_ ?_
    | (simp only [R.FIELD_p_BAD_CNT_block]; (with_reducible refine Within.sub hw ?_); exact rfl)
    | split
    | intro _
    | dsimp only

theorem knownReply_keeps {x0 : Nat} {x1 : Nat} {x2 : StationCfg} {x3 : Quad} {x4 : Reply} (hw : Within [.ages, .evlog, .field, .inputs, .txn, .block 0, .block 8, .block 17] w) (h : Keeps w s t) :
    Keeps w s (knownReply x0 x1 x2 x3 x4 t) := by
  unfold knownReply
  repeat' first
    | with_reducible assumption
    | ((with_reducible refine Within.sub hw ?_); exact rfl)
    | with_reducible refine Keeps.forAll ?_ ?_
    | with_reducible refine Keeps.incSat ?_ ?_
    | with_reducible refine State.setStn_keeps ?_ ?_
    | with_reducible refine badReply_keeps ?_ ?_
    | with_reducible refine goodReply_keeps ?_ ?_
    | with_reducible refine replyArrival_keeps ?_ ?_
    | with_reducible refine replyRecord_keeps ?_ ?_
    | (simp only [R.FIELD_p_CYCLE_NUM_block, R.FIELD_p_DUP_CNT_block]; (with_reducible refine Within.sub hw ?_); exact rfl)
    | split
    | intro _
    | dsimp only

theorem treavoReply_keeps {x0 : Nat} {x1 : Quad} {x2 : Reply} (hw : Within [.ages, .evlog, .field, .inputs, .raw, .txn, .block 0, .block 8, .block 17] w) (h : Keeps w s t) :
    Keeps w s (treavoReply x0 x1 x2 t) := by
  unfold treavoReply
  repeat' first
    | with_reducible assumption
    | ((with_reducible refine Within.sub hw ?_); exact rfl)
    | with_reducible refine Keeps.advanceTo ?_ ?_
    | with_reducible refine Keeps.incSat ?_ ?_
    | with_reducible refine Keeps.setReg ?_ ?_
    | with_reducible refine badReply_keeps ?_ ?_
    | with_reducible refine knownReply_keeps ?_ ?_
    | (simp only [R.FIELD_p_UNKNOWN_CNT_block, R.FIELD_p_UNKNOWN_MAC_HI_block, R.FIELD_p_UNKNOWN_MAC_LO_block]; (with_reducible refine Within.sub hw ?_); exact rfl)
    | split
    | intro _
    | dsimp only

theorem foreignMaster_keeps {x0 : Nat} {x1 : Bool} (hw : Within [.evlog, .block 0, .block 17] w) (h : Keeps w s t) :
    Keeps w s (foreignMaster x0 x1 t) := by
  unfold foreignMaster
  repeat' first
    | with_reducible assumption
    | ((with_reducible refine Within.sub hw ?_); exact rfl)
    | with_reducible refine Keeps.incSat ?_ ?_
    | with_reducible refine Keeps.raise ?_ ?_
    | (simp only [R.FIELD_p_FOREIGN_CNT_block, R.FIELD_p_OTHER_CNT_block]; (with_reducible refine Within.sub hw ?_); exact rfl)
    | split
    | intro _
    | dsimp only

theorem stationServiceWrite_keeps {x0 : Nat} {x1 : Nat} {x2 : Word} (hw : Within [.block 17] w) (h : Keeps w s t) :
    Keeps w s (stationServiceWrite x0 x1 x2 t) := by
  unfold stationServiceWrite
  repeat' first
    | with_reducible assumption
    | ((with_reducible refine Within.sub hw ?_); exact rfl)
    | with_reducible refine Keeps.put ?_ ?_
    | (simp only [R.FIELD_p_s_CTRL_block]; (with_reducible refine Within.sub hw ?_); exact rfl)
    | split
    | intro _
    | dsimp only

theorem mdioWrite_keeps {x0 : Nat} {x1 : Word} {x2 : BitVec 16} (hw : Within [.block 17] w) (h : Keeps w s t) :
    Keeps w s (mdioWrite x0 x1 x2 t) := by
  unfold mdioWrite
  repeat' first
    | with_reducible assumption
    | ((with_reducible refine Within.sub hw ?_); exact rfl)
    | with_reducible refine Keeps.put ?_ ?_
    | with_reducible refine Keeps.setReg ?_ ?_
    | (simp only [R.FIELD_p_MDIO_block]; (with_reducible refine Within.sub hw ?_); exact rfl)
    | split
    | intro _
    | dsimp only

theorem phyPoll_keeps {x0 : Nat} {x1 : Bool} (hw : Within [.evlog, .block 0, .block 17] w) (h : Keeps w s t) :
    Keeps w s (phyPoll x0 x1 t) := by
  unfold phyPoll
  repeat' first
    | with_reducible assumption
    | ((with_reducible refine Within.sub hw ?_); exact rfl)
    | with_reducible refine Keeps.putFlag ?_ ?_
    | with_reducible refine Keeps.raiseIf ?_ ?_
    | (simp only [R.FIELD_p_CTRL_block, R.FIELD_p_STATUS_block]; (with_reducible refine Within.sub hw ?_); exact rfl)
    | split
    | intro _
    | dsimp only

end Sys2Proof.Machine
end

