-- ==== Sys2Proof/Laws/Keeps/Legacy.lean ====
section
/-! SUPPORT. What the operations of Sys2Proof/Machine/Legacy.lean leave unchanged. -/

set_option linter.all false
set_option Elab.async false

namespace Sys2Proof.Machine

variable {w : List Piece} {s t : State}

theorem State.setCan_keeps {x1 : Nat} {x2 : CanPort} (hw : Within [.field] w) (h : Keeps w s t) :
    Keeps w s (State.setCan t x1 x2) := by
  unfold State.setCan
  repeat' first
    | with_reducible assumption
    | ((with_reducible refine Within.sub hw ?_); exact rfl)
    | split
    | intro _
    | dsimp only
    | with_reducible refine Keeps.set_field ?_ ?_

theorem State.setNode_keeps {x1 : Nat} {x2 : Nat} {x3 : NodeSt} (hw : Within [.field] w) (h : Keeps w s t) :
    Keeps w s (State.setNode t x1 x2 x3) := by
  unfold State.setNode
  repeat' first
    | with_reducible assumption
    | ((with_reducible refine Within.sub hw ?_); exact rfl)
    | split
    | intro _
    | dsimp only
    | with_reducible refine Keeps.set_field ?_ ?_

theorem canQueue_keeps {x0 : Nat} {x1 : Nat} {x2 : List Byte} (hw : Within [.field] w) (h : Keeps w s t) :
    Keeps w s (canQueue x0 x1 x2 t) := by
  unfold canQueue
  repeat' first
    | with_reducible assumption
    | ((with_reducible refine Within.sub hw ?_); exact rfl)
    | with_reducible refine State.setCan_keeps ?_ ?_
    | split
    | intro _
    | dsimp only

theorem statePost_keeps {x0 : Reg} {x1 : Nat} {x2 : Nat} {x3 : Nat} (hw : Within [.collie, .block (blockOf x0.addr)] w) (h : Keeps w s t) :
    Keeps w s (statePost x0 x1 x2 x3 t) := by
  unfold statePost
  repeat' first
    | with_reducible assumption
    | ((with_reducible refine Within.sub hw ?_); exact rfl)
    | exact hw.sub (by simp [Within])
    | with_reducible refine hwPostCfg_keeps ?_ ?_
    | split
    | intro _
    | dsimp only

theorem setNodeState_keeps {x0 : Nat} {x1 : NodeCfg} {x2 : Nat} (hw : Within [.collie, .inputs, .quals, .block 18] w) (h : Keeps w s t) :
    Keeps w s (setNodeState x0 x1 x2 t) := by
  unfold setNodeState
  repeat' first
    | with_reducible assumption
    | ((with_reducible refine Within.sub hw ?_); exact rfl)
    | with_reducible refine Keeps.put ?_ ?_
    | with_reducible refine State.setQual_keeps ?_ ?_
    | with_reducible refine statePost_keeps ?_ ?_
    | with_reducible refine substitute_keeps ?_ ?_
    | (simp only [R.CAN_p_n_STATUS_block]; (with_reducible refine Within.sub hw ?_); exact rfl)
    | split
    | intro _
    | dsimp only

theorem nodeBoot_keeps {x0 : Nat} {x1 : NodeCfg} (hw : Within [.collie, .field, .inputs, .quals, .block 18] w) (h : Keeps w s t) :
    Keeps w s (nodeBoot x0 x1 t) := by
  unfold nodeBoot
  repeat' first
    | with_reducible assumption
    | ((with_reducible refine Within.sub hw ?_); exact rfl)
    | with_reducible refine State.setNode_keeps ?_ ?_
    | with_reducible refine canQueue_keeps ?_ ?_
    | with_reducible refine setNodeState_keeps ?_ ?_
    | split
    | intro _
    | dsimp only

theorem nodeLost_keeps {x0 : Nat} {x1 : NodeCfg} (hw : Within [.collie, .evlog, .field, .inputs, .quals, .block 0, .block 18] w) (h : Keeps w s t) :
    Keeps w s (nodeLost x0 x1 t) := by
  unfold nodeLost
  repeat' first
    | with_reducible assumption
    | ((with_reducible refine Within.sub hw ?_); exact rfl)
    | with_reducible refine Keeps.raise ?_ ?_
    | with_reducible refine State.setNode_keeps ?_ ?_
    | with_reducible refine setNodeState_keeps ?_ ?_
    | split
    | intro _
    | dsimp only

theorem nodeRefused_keeps {x0 : Nat} {x1 : NodeCfg} {x2 : Nat} (hw : Within [.collie, .evlog, .field, .inputs, .quals, .block 0, .block 18] w) (h : Keeps w s t) :
    Keeps w s (nodeRefused x0 x1 x2 t) := by
  unfold nodeRefused
  repeat' first
    | with_reducible assumption
    | ((with_reducible refine Within.sub hw ?_); exact rfl)
    | with_reducible refine Keeps.put ?_ ?_
    | with_reducible refine Keeps.raise ?_ ?_
    | with_reducible refine State.setNode_keeps ?_ ?_
    | with_reducible refine setNodeState_keeps ?_ ?_
    | (simp only [R.CAN_p_n_STATUS_block]; (with_reducible refine Within.sub hw ?_); exact rfl)
    | split
    | intro _
    | dsimp only

theorem nodeJudge_keeps {x0 : Nat} {x1 : NodeCfg} (hw : Within [.collie, .evlog, .field, .inputs, .quals, .block 0, .block 18] w) (h : Keeps w s t) :
    Keeps w s (nodeJudge x0 x1 t) := by
  unfold nodeJudge
  repeat' first
    | with_reducible assumption
    | ((with_reducible refine Within.sub hw ?_); exact rfl)
    | with_reducible refine Keeps.addFldSat ?_ ?_
    | with_reducible refine Keeps.put ?_ ?_
    | with_reducible refine State.setNode_keeps ?_ ?_
    | with_reducible refine nodeLost_keeps ?_ ?_
    | with_reducible refine setNodeState_keeps ?_ ?_
    | (simp only [R.CAN_p_CTRL_block, R.CAN_p_n_COUNTS_block, R.CAN_p_n_STATUS_block]; (with_reducible refine Within.sub hw ?_); exact rfl)
    | split
    | intro _
    | dsimp only

theorem canJudge_keeps {x0 : Nat} (hw : Within [.collie, .evlog, .field, .inputs, .quals, .block 0, .block 18] w) (h : Keeps w s t) :
    Keeps w s (canJudge x0 t) := by
  unfold canJudge
  repeat' first
    | with_reducible assumption
    | ((with_reducible refine Within.sub hw ?_); exact rfl)
    | with_reducible refine Keeps.forAll ?_ ?_
    | with_reducible refine nodeJudge_keeps ?_ ?_
    | (simp only [R.CAN_p_CTRL_block]; (with_reducible refine Within.sub hw ?_); exact rfl)
    | split
    | intro _
    | dsimp only

theorem canCycle_keeps {x0 : Nat} (hw : Within [.field, .raw, .resets] w) (h : Keeps w s t) :
    Keeps w s (canCycle x0 t) := by
  unfold canCycle
  repeat' first
    | with_reducible assumption
    | ((with_reducible refine Within.sub hw ?_); exact rfl)
    | with_reducible refine Keeps.advanceTo ?_ ?_
    | with_reducible refine State.setCan_keeps ?_ ?_
    | with_reducible refine portDone_keeps ?_ ?_
    | (simp only [R.CAN_p_CTRL_block]; (with_reducible refine Within.sub hw ?_); exact rfl)
    | split
    | intro _
    | dsimp only

theorem nodeBootNext_keeps {x0 : Nat} {x1 : NodeCfg} {x2 : BootStep} (hw : Within [.field] w) (h : Keeps w s t) :
    Keeps w s (nodeBootNext x0 x1 x2 t) := by
  unfold nodeBootNext
  repeat' first
    | with_reducible assumption
    | ((with_reducible refine Within.sub hw ?_); exact rfl)
    | with_reducible refine State.setNode_keeps ?_ ?_
    | with_reducible refine canQueue_keeps ?_ ?_
    | split
    | intro _
    | dsimp only

theorem bootSdoEnd_keeps {x0 : Nat} {x1 : NodeCfg} {x2 : SdoEnd} (hw : Within [.collie, .evlog, .field, .inputs, .quals, .block 0, .block 18] w) (h : Keeps w s t) :
    Keeps w s (bootSdoEnd x0 x1 x2 t) := by
  unfold bootSdoEnd
  repeat' first
    | with_reducible assumption
    | ((with_reducible refine Within.sub hw ?_); exact rfl)
    | with_reducible refine State.setNode_keeps ?_ ?_
    | with_reducible refine Keeps.setReg ?_ ?_
    | with_reducible refine nodeBootNext_keeps ?_ ?_
    | with_reducible refine nodeRefused_keeps ?_ ?_
    | (simp only [R.CAN_p_SDO_RESULT_block]; (with_reducible refine Within.sub hw ?_); exact rfl)
    | split
    | intro _
    | dsimp only

theorem canFrameRx_keeps {x0 : Nat} {x1 : Nat} {x2 : CanMsg} (hw : Within [.ages, .collie, .evlog, .field, .inputs, .quals, .block 0, .block 18] w) (h : Keeps w s t) :
    Keeps w s (canFrameRx x0 x1 x2 t) := by
  unfold canFrameRx
  repeat' first
    | with_reducible assumption
    | ((with_reducible refine Within.sub hw ?_); exact rfl)
    | with_reducible refine Keeps.addFldSat ?_ ?_
    | with_reducible refine Keeps.incSat ?_ ?_
    | with_reducible refine Keeps.raise ?_ ?_
    | with_reducible refine Keeps.setReg ?_ ?_
    | with_reducible refine State.putInputs_keeps ?_ ?_
    | with_reducible refine State.setAge_keeps ?_ ?_
    | with_reducible refine State.setNode_keeps ?_ ?_
    | with_reducible refine nodeBootNext_keeps ?_ ?_
    | with_reducible refine nodeLost_keeps ?_ ?_
    | with_reducible refine setNodeState_keeps ?_ ?_
    | (simp only [R.CAN_p_RX_DROP_CNT_block, R.CAN_p_n_COUNTS_block, R.CAN_p_n_EMCY_HI_block, R.CAN_p_n_EMCY_LO_block]; (with_reducible refine Within.sub hw ?_); exact rfl)
    | split
    | intro _
    | dsimp only

theorem nodeBootTimeout_keeps {x0 : Nat} {x1 : Nat} (hw : Within [.field] w) (h : Keeps w s t) :
    Keeps w s (nodeBootTimeout x0 x1 t) := by
  unfold nodeBootTimeout
  repeat' first
    | with_reducible assumption
    | ((with_reducible refine Within.sub hw ?_); exact rfl)
    | with_reducible refine State.setNode_keeps ?_ ?_
    | split
    | intro _
    | dsimp only

theorem nodeRetry_keeps {x0 : Nat} {x1 : Nat} (hw : Within [.collie, .field, .inputs, .quals, .block 18] w) (h : Keeps w s t) :
    Keeps w s (nodeRetry x0 x1 t) := by
  unfold nodeRetry
  repeat' first
    | with_reducible assumption
    | ((with_reducible refine Within.sub hw ?_); exact rfl)
    | with_reducible refine nodeBoot_keeps ?_ ?_
    | split
    | intro _
    | dsimp only

theorem heartbeatTimeout_keeps {x0 : Nat} {x1 : Nat} (hw : Within [.collie, .evlog, .field, .inputs, .quals, .block 0, .block 18] w) (h : Keeps w s t) :
    Keeps w s (heartbeatTimeout x0 x1 t) := by
  unfold heartbeatTimeout
  repeat' first
    | with_reducible assumption
    | ((with_reducible refine Within.sub hw ?_); exact rfl)
    | with_reducible refine nodeLost_keeps ?_ ?_
    | split
    | intro _
    | dsimp only

theorem busOff_keeps {x0 : Nat} (hw : Within [.evlog, .block 0, .block 18] w) (h : Keeps w s t) :
    Keeps w s (busOff x0 t) := by
  unfold busOff
  repeat' first
    | with_reducible assumption
    | ((with_reducible refine Within.sub hw ?_); exact rfl)
    | with_reducible refine Keeps.incSat ?_ ?_
    | with_reducible refine Keeps.put ?_ ?_
    | with_reducible refine Keeps.raise ?_ ?_
    | (simp only [R.CAN_p_BUSOFF_CNT_block, R.CAN_p_STATUS_block]; (with_reducible refine Within.sub hw ?_); exact rfl)
    | split
    | intro _
    | dsimp only

theorem busOffRecovered_keeps {x0 : Nat} (hw : Within [.block 18] w) (h : Keeps w s t) :
    Keeps w s (busOffRecovered x0 t) := by
  unfold busOffRecovered
  repeat' first
    | with_reducible assumption
    | ((with_reducible refine Within.sub hw ?_); exact rfl)
    | with_reducible refine Keeps.setReg ?_ ?_
    | (simp only [R.CAN_p_STATUS_block]; (with_reducible refine Within.sub hw ?_); exact rfl)
    | split
    | intro _
    | dsimp only

theorem setSdoBuf_keeps {x0 : Nat} {x1 : List Byte} (hw : Within [.block 18] w) (h : Keeps w s t) :
    Keeps w s (setSdoBuf x0 x1 t) := by
  unfold setSdoBuf
  repeat' first
    | with_reducible assumption
    | ((with_reducible refine Within.sub hw ?_); exact rfl)
    | with_reducible refine Keeps.forAll ?_ ?_
    | with_reducible refine Keeps.setReg ?_ ?_
    | (simp only [R.CAN_p_SDO_BUF_w_block]; (with_reducible refine Within.sub hw ?_); exact rfl)
    | split
    | intro _
    | dsimp only

theorem sdoCmdWrite_keeps {x0 : Nat} {x1 : Word} (hw : Within [.evlog, .field, .block 0, .block 18] w) (h : Keeps w s t) :
    Keeps w s (sdoCmdWrite x0 x1 t) := by
  unfold sdoCmdWrite
  repeat' first
    | with_reducible assumption
    | ((with_reducible refine Within.sub hw ?_); exact rfl)
    | with_reducible refine Keeps.raise ?_ ?_
    | with_reducible refine State.setCan_keeps ?_ ?_
    | with_reducible refine Keeps.setReg ?_ ?_
    | (simp only [R.CAN_p_SDO_ADDR_block, R.CAN_p_SDO_BUSY_block, R.CAN_p_SDO_LEN_block]; (with_reducible refine Within.sub hw ?_); exact rfl)
    | split
    | intro _
    | dsimp only

theorem sdoEnd_keeps {x0 : Nat} {x1 : SdoEnd} (hw : Within [.field, .block 18] w) (h : Keeps w s t) :
    Keeps w s (sdoEnd x0 x1 t) := by
  unfold sdoEnd
  repeat' first
    | with_reducible assumption
    | ((with_reducible refine Within.sub hw ?_); exact rfl)
    | with_reducible refine State.setCan_keeps ?_ ?_
    | with_reducible refine Keeps.setReg ?_ ?_
    | with_reducible refine setSdoBuf_keeps ?_ ?_
    | (simp only [R.CAN_p_SDO_BUSY_block, R.CAN_p_SDO_LEN_block, R.CAN_p_SDO_RESULT_block]; (with_reducible refine Within.sub hw ?_); exact rfl)
    | split
    | intro _
    | dsimp only

theorem sdoComplete_keeps {x0 : Nat} {x1 : Option (Fin 128)} {x2 : SdoEnd} (hw : Within [.collie, .evlog, .field, .inputs, .quals, .block 0, .block 18] w) (h : Keeps w s t) :
    Keeps w s (sdoComplete x0 x1 x2 t) := by
  unfold sdoComplete
  repeat' first
    | with_reducible assumption
    | ((with_reducible refine Within.sub hw ?_); exact rfl)
    | with_reducible refine bootSdoEnd_keeps ?_ ?_
    | with_reducible refine sdoEnd_keeps ?_ ?_
    | split
    | intro _
    | dsimp only

theorem canCtrlWrite_keeps {x0 : Nat} {x1 : Word} (hw : Within [.collie, .evlog, .field, .gens, .inputs, .quals, .block 0, .block 18] w) (h : Keeps w s t) :
    Keeps w s (canCtrlWrite x0 x1 t) := by
  unfold canCtrlWrite
  repeat' first
    | with_reducible assumption
    | ((with_reducible refine Within.sub hw ?_); exact rfl)
    | with_reducible refine Keeps.forAll ?_ ?_
    | with_reducible refine Keeps.raise ?_ ?_
    | with_reducible refine Keeps.setReg ?_ ?_
    | with_reducible refine genPortSet_keeps ?_ ?_
    | with_reducible refine nodeBoot_keeps ?_ ?_
    | (simp only [R.CAN_p_CTRL_block]; (with_reducible refine Within.sub hw ?_); exact rfl)
    | split
    | intro _
    | dsimp only

theorem State.setSer_keeps {x1 : Nat} {x2 : SerPort} (hw : Within [.field] w) (h : Keeps w s t) :
    Keeps w s (State.setSer t x1 x2) := by
  unfold State.setSer
  repeat' first
    | with_reducible assumption
    | ((with_reducible refine Within.sub hw ?_); exact rfl)
    | split
    | intro _
    | dsimp only
    | with_reducible refine Keeps.set_field ?_ ?_

theorem State.setSlave_keeps {x1 : Nat} {x2 : Nat} {x3 : SlaveSt} (hw : Within [.field] w) (h : Keeps w s t) :
    Keeps w s (State.setSlave t x1 x2 x3) := by
  unfold State.setSlave
  repeat' first
    | with_reducible assumption
    | ((with_reducible refine Within.sub hw ?_); exact rfl)
    | split
    | intro _
    | dsimp only
    | with_reducible refine Keeps.set_field ?_ ?_

theorem setSlaveState_keeps {x0 : Nat} {x1 : Nat} {x2 : Nat} (hw : Within [.collie, .inputs, .quals, .block 19] w) (h : Keeps w s t) :
    Keeps w s (setSlaveState x0 x1 x2 t) := by
  unfold setSlaveState
  repeat' first
    | with_reducible assumption
    | ((with_reducible refine Within.sub hw ?_); exact rfl)
    | with_reducible refine Keeps.put ?_ ?_
    | with_reducible refine State.setQual_keeps ?_ ?_
    | with_reducible refine statePost_keeps ?_ ?_
    | with_reducible refine substitute_keeps ?_ ?_
    | (simp only [R.SER_p_s_STATUS_block]; (with_reducible refine Within.sub hw ?_); exact rfl)
    | split
    | intro _
    | dsimp only

theorem serSend_keeps {x0 : Nat} {x1 : Nat} {x2 : Nat} (hw : Within [.field, .block 19] w) (h : Keeps w s t) :
    Keeps w s (serSend x0 x1 x2 t) := by
  unfold serSend
  repeat' first
    | with_reducible assumption
    | ((with_reducible refine Within.sub hw ?_); exact rfl)
    | with_reducible refine Keeps.put ?_ ?_
    | with_reducible refine State.setSer_keeps ?_ ?_
    | (simp only [R.SER_p_STATUS_block]; (with_reducible refine Within.sub hw ?_); exact rfl)
    | split
    | intro _
    | dsimp only

theorem scanStart_keeps {x0 : Nat} (hw : Within [.field, .block 19] w) (h : Keeps w s t) :
    Keeps w s (scanStart x0 t) := by
  unfold scanStart
  repeat' first
    | with_reducible assumption
    | ((with_reducible refine Within.sub hw ?_); exact rfl)
    | with_reducible refine Keeps.put ?_ ?_
    | with_reducible refine State.setSer_keeps ?_ ?_
    | with_reducible refine serSend_keeps ?_ ?_
    | (simp only [R.SER_p_STATUS_block]; (with_reducible refine Within.sub hw ?_); exact rfl)
    | split
    | intro _
    | dsimp only

theorem slaveJudge_keeps {x0 : Nat} {x1 : Nat} (hw : Within [.collie, .evlog, .field, .inputs, .quals, .block 0, .block 19] w) (h : Keeps w s t) :
    Keeps w s (slaveJudge x0 x1 t) := by
  unfold slaveJudge
  repeat' first
    | with_reducible assumption
    | ((with_reducible refine Within.sub hw ?_); exact rfl)
    | with_reducible refine Keeps.raise ?_ ?_
    | with_reducible refine State.setSlave_keeps ?_ ?_
    | with_reducible refine setSlaveState_keeps ?_ ?_
    | (simp only [R.SER_p_TIMING_block]; (with_reducible refine Within.sub hw ?_); exact rfl)
    | split
    | intro _
    | dsimp only

theorem scanEnd_keeps {x0 : Nat} (hw : Within [.collie, .evlog, .field, .inputs, .quals, .resets, .block 0, .block 19] w) (h : Keeps w s t) :
    Keeps w s (scanEnd x0 t) := by
  unfold scanEnd
  repeat' first
    | with_reducible assumption
    | ((with_reducible refine Within.sub hw ?_); exact rfl)
    | with_reducible refine Keeps.forAll ?_ ?_
    | with_reducible refine Keeps.put ?_ ?_
    | with_reducible refine Keeps.setReg ?_ ?_
    | with_reducible refine State.setSer_keeps ?_ ?_
    | with_reducible refine portDone_keeps ?_ ?_
    | with_reducible refine scanStart_keeps ?_ ?_
    | with_reducible refine slaveJudge_keeps ?_ ?_
    | (simp only [R.SER_p_SCAN_TIME_block, R.SER_p_STATUS_block]; (with_reducible refine Within.sub hw ?_); exact rfl)
    | split
    | intro _
    | dsimp only

theorem serNext_keeps {x0 : Nat} (hw : Within [.collie, .evlog, .field, .inputs, .quals, .resets, .block 0, .block 19] w) (h : Keeps w s t) :
    Keeps w s (serNext x0 t) := by
  unfold serNext
  repeat' first
    | with_reducible assumption
    | ((with_reducible refine Within.sub hw ?_); exact rfl)
    | with_reducible refine scanEnd_keeps ?_ ?_
    | with_reducible refine serSend_keeps ?_ ?_
    | split
    | intro _
    | dsimp only

theorem serialScan_keeps {x0 : Nat} (hw : Within [.evlog, .field, .raw, .block 0, .block 19] w) (h : Keeps w s t) :
    Keeps w s (serialScan x0 t) := by
  unfold serialScan
  repeat' first
    | with_reducible assumption
    | ((with_reducible refine Within.sub hw ?_); exact rfl)
    | with_reducible refine Keeps.advanceTo ?_ ?_
    | with_reducible refine Keeps.incSat ?_ ?_
    | with_reducible refine Keeps.raise ?_ ?_
    | with_reducible refine State.setSer_keeps ?_ ?_
    | with_reducible refine scanStart_keeps ?_ ?_
    | (simp only [R.SER_p_CTRL_block, R.SER_p_SCAN_OVR_block]; (with_reducible refine Within.sub hw ?_); exact rfl)
    | split
    | intro _
    | dsimp only

theorem pollData_keeps {x0 : Nat} {x1 : PollEntry} {x2 : List Byte} (hw : Within [.inputs] w) (h : Keeps w s t) :
    Keeps w s (pollData x0 x1 x2 t) := by
  unfold pollData
  repeat' first
    | with_reducible assumption
    | ((with_reducible refine Within.sub hw ?_); exact rfl)
    | with_reducible refine State.putInputs_keeps ?_ ?_
    | split
    | intro _
    | dsimp only

theorem entryOk_keeps {x0 : Nat} {x1 : PollEntry} {x2 : List Byte} (hw : Within [.ages, .collie, .evlog, .field, .inputs, .quals, .resets, .block 0, .block 19] w) (h : Keeps w s t) :
    Keeps w s (entryOk x0 x1 x2 t) := by
  unfold entryOk
  repeat' first
    | with_reducible assumption
    | ((with_reducible refine Within.sub hw ?_); exact rfl)
    | with_reducible refine Keeps.put ?_ ?_
    | with_reducible refine State.setAge_keeps ?_ ?_
    | with_reducible refine State.setSer_keeps ?_ ?_
    | with_reducible refine State.setSlave_keeps ?_ ?_
    | with_reducible refine pollData_keeps ?_ ?_
    | with_reducible refine serNext_keeps ?_ ?_
    | with_reducible refine setSlaveState_keeps ?_ ?_
    | (simp only [R.SER_p_s_STATUS_block]; (with_reducible refine Within.sub hw ?_); exact rfl)
    | split
    | intro _
    | dsimp only

theorem entryFail_keeps {x0 : Nat} {x1 : PollEntry} {x2 : Nat} (hw : Within [.collie, .evlog, .field, .inputs, .quals, .resets, .block 0, .block 19] w) (h : Keeps w s t) :
    Keeps w s (entryFail x0 x1 x2 t) := by
  unfold entryFail
  repeat' first
    | with_reducible assumption
    | ((with_reducible refine Within.sub hw ?_); exact rfl)
    | with_reducible refine Keeps.addFldSat ?_ ?_
    | with_reducible refine Keeps.put ?_ ?_
    | with_reducible refine serNext_keeps ?_ ?_
    | (simp only [R.SER_p_s_COUNTS_block, R.SER_p_s_STATUS_block]; (with_reducible refine Within.sub hw ?_); exact rfl)
    | split
    | intro _
    | dsimp only

theorem requestFail_keeps {x0 : Nat} {x1 : PollEntry} {x2 : Nat} (hw : Within [.collie, .evlog, .field, .inputs, .quals, .resets, .block 0, .block 19] w) (h : Keeps w s t) :
    Keeps w s (requestFail x0 x1 x2 t) := by
  unfold requestFail
  repeat' first
    | with_reducible assumption
    | ((with_reducible refine Within.sub hw ?_); exact rfl)
    | with_reducible refine entryFail_keeps ?_ ?_
    | with_reducible refine serSend_keeps ?_ ?_
    | (simp only [R.SER_p_TIMING_block]; (with_reducible refine Within.sub hw ?_); exact rfl)
    | split
    | intro _
    | dsimp only

theorem modbusResponse_keeps {x0 : Nat} {x1 : ModbusEnd} (hw : Within [.ages, .collie, .evlog, .field, .inputs, .quals, .resets, .block 0, .block 19] w) (h : Keeps w s t) :
    Keeps w s (modbusResponse x0 x1 t) := by
  unfold modbusResponse
  repeat' first
    | with_reducible assumption
    | ((with_reducible refine Within.sub hw ?_); exact rfl)
    | with_reducible refine Keeps.addFldSat ?_ ?_
    | with_reducible refine Keeps.put ?_ ?_
    | with_reducible refine entryOk_keeps ?_ ?_
    | with_reducible refine requestFail_keeps ?_ ?_
    | (simp only [R.SER_p_s_COUNTS_block, R.SER_p_s_STATUS_block]; (with_reducible refine Within.sub hw ?_); exact rfl)
    | split
    | intro _
    | dsimp only

theorem modbusTimeout_keeps {x0 : Nat} (hw : Within [.collie, .evlog, .field, .inputs, .quals, .resets, .block 0, .block 19] w) (h : Keeps w s t) :
    Keeps w s (modbusTimeout x0 t) := by
  unfold modbusTimeout
  repeat' first
    | with_reducible assumption
    | ((with_reducible refine Within.sub hw ?_); exact rfl)
    | with_reducible refine requestFail_keeps ?_ ?_
    | split
    | intro _
    | dsimp only

theorem broadcastTurnaround_keeps {x0 : Nat} (hw : Within [.collie, .evlog, .field, .inputs, .quals, .resets, .block 0, .block 19] w) (h : Keeps w s t) :
    Keeps w s (broadcastTurnaround x0 t) := by
  unfold broadcastTurnaround
  repeat' first
    | with_reducible assumption
    | ((with_reducible refine Within.sub hw ?_); exact rfl)
    | with_reducible refine State.setSer_keeps ?_ ?_
    | with_reducible refine serNext_keeps ?_ ?_
    | split
    | intro _
    | dsimp only

theorem serCtrlWrite_keeps {x0 : Nat} {x1 : Word} (hw : Within [.field, .block 19] w) (h : Keeps w s t) :
    Keeps w s (serCtrlWrite x0 x1 t) := by
  unfold serCtrlWrite
  repeat' first
    | with_reducible assumption
    | ((with_reducible refine Within.sub hw ?_); exact rfl)
    | with_reducible refine Keeps.put ?_ ?_
    | with_reducible refine Keeps.setReg ?_ ?_
    | with_reducible refine State.setSer_keeps ?_ ?_
    | (simp only [R.SER_p_CTRL_block, R.SER_p_STATUS_block]; (with_reducible refine Within.sub hw ?_); exact rfl)
    | split
    | intro _
    | dsimp only

theorem bootMsMissing_keeps {x0 : Bool} {x1 : Nat} (hw : Within [.evlog, .block 0, .block 18, .block 19] w) (h : Keeps w s t) :
    Keeps w s (bootMsMissing x0 x1 t) := by
  unfold bootMsMissing
  repeat' first
    | with_reducible assumption
    | ((with_reducible refine Within.sub hw ?_); exact rfl)
    | with_reducible refine Keeps.raiseIf ?_ ?_
    | split
    | intro _
    | dsimp only

theorem networkStart_keeps (hw : Within [.inputs, .quals, .block 18, .block 19] w) (h : Keeps w s t) :
    Keeps w s (networkStart t) := by
  unfold networkStart
  repeat' first
    | with_reducible assumption
    | ((with_reducible refine Within.sub hw ?_); exact rfl)
    | with_reducible refine Keeps.forAll ?_ ?_
    | with_reducible refine Keeps.put ?_ ?_
    | with_reducible refine State.setQual_keeps ?_ ?_
    | with_reducible refine substitute_keeps ?_ ?_
    | (simp only [R.CAN_p_n_STATUS_block, R.SER_p_s_STATUS_block]; (with_reducible refine Within.sub hw ?_); exact rfl)
    | split
    | intro _
    | dsimp only

theorem edgeChannel_keeps {x0 : Nat} {x1 : Bool} {x2 : Nat} (hw : Within [.collie] w) (h : Keeps w s t) :
    Keeps w s (edgeChannel x0 x1 x2 t) := by
  unfold edgeChannel
  repeat' first
    | with_reducible assumption
    | ((with_reducible refine Within.sub hw ?_); exact rfl)
    | (simp only [R.GPIO_e_EVT_block]; (with_reducible refine Within.sub hw ?_); exact rfl)
    | split
    | intro _
    | dsimp only
    | with_reducible refine Keeps.set_collie ?_ ?_

theorem gpioChange_keeps {x0 : Nat} {x1 : Bool} {x2 : Quad} (hw : Within [.collie, .field, .inputs, .pulses, .raw] w) (h : Keeps w s t) :
    Keeps w s (gpioChange x0 x1 x2 t) := by
  unfold gpioChange
  repeat' first
    | with_reducible assumption
    | ((with_reducible refine Within.sub hw ?_); exact rfl)
    | with_reducible refine Keeps.advanceTo ?_ ?_
    | with_reducible refine Keeps.forAll ?_ ?_
    | with_reducible refine edgeChannel_keeps ?_ ?_
    | split
    | intro _
    | dsimp only
    | with_reducible refine Keeps.set_inputs_field ?_ ?_
    | with_reducible refine Keeps.set_pulses ?_ ?_

theorem gpioEvtWrite_keeps {x0 : Nat} {x1 : Word} (hw : Within [.evlog, .block 0, .block 16] w) (h : Keeps w s t) :
    Keeps w s (gpioEvtWrite x0 x1 t) := by
  unfold gpioEvtWrite
  repeat' first
    | with_reducible assumption
    | ((with_reducible refine Within.sub hw ?_); exact rfl)
    | with_reducible refine Keeps.raise ?_ ?_
    | with_reducible refine Keeps.setReg ?_ ?_
    | (simp only [R.GPIO_e_EVT_block]; (with_reducible refine Within.sub hw ?_); exact rfl)
    | split
    | intro _
    | dsimp only

end Sys2Proof.Machine
end

