-- ==== Sys2Proof/Laws/Keeps/JoaBase.lean ====
section
/-! SUPPORT. What the operations of Sys2Proof/Machine/JoaBase.lean leave unchanged. -/

set_option linter.all false
set_option Elab.async false

namespace Sys2Proof.Machine

variable {w : List Piece} {s t : State}

theorem State.setSession_keeps {x1 : Nat} {x2 : JoaSession} (hw : Within [.joa] w) (h : Keeps w s t) :
    Keeps w s (State.setSession t x1 x2) := by
  unfold State.setSession
  repeat' first
    | with_reducible assumption
    | ((with_reducible refine Within.sub hw ?_); exact rfl)
    | split
    | intro _
    | dsimp only
    | with_reducible refine Keeps.set_joa ?_ ?_

theorem State.modSession_keeps {x1 : Nat} {x2 : JoaSession → JoaSession} (hw : Within [.joa] w) (h : Keeps w s t) :
    Keeps w s (State.modSession t x1 x2) := by
  unfold State.modSession
  repeat' first
    | with_reducible assumption
    | ((with_reducible refine Within.sub hw ?_); exact rfl)
    | with_reducible refine State.setSession_keeps ?_ ?_
    | split
    | intro _
    | dsimp only

theorem joaRespond_keeps {x0 : Nat} {x1 : Nat} {x2 : List Byte} (hw : Within [.joa] w) (h : Keeps w s t) :
    Keeps w s (joaRespond x0 x1 x2 t) := by
  unfold joaRespond
  repeat' first
    | with_reducible assumption
    | ((with_reducible refine Within.sub hw ?_); exact rfl)
    | with_reducible refine State.modSession_keeps ?_ ?_
    | split
    | intro _
    | dsimp only

theorem joaAnswer_keeps {x0 : Nat} {x1 : Nat} {x2 : Nat} {x3 : Nat} {x4 : List Byte} (hw : Within [.joa] w) (h : Keeps w s t) :
    Keeps w s (joaAnswer x0 x1 x2 x3 x4 t) := by
  unfold joaAnswer
  repeat' first
    | with_reducible assumption
    | ((with_reducible refine Within.sub hw ?_); exact rfl)
    | with_reducible refine joaRespond_keeps ?_ ?_
    | split
    | intro _
    | dsimp only

theorem joaRequest_keeps {x0 : Nat} {x1 : Nat} {x2 : Nat} {x3 : State → State} (hx3 : ∀ u, Keeps w s u → Keeps w s (x3 u)) (hw : Within [.joa] w) (h : Keeps w s t) :
    Keeps w s (joaRequest x0 x1 x2 x3 t) := by
  unfold joaRequest
  repeat' first
    | with_reducible assumption
    | ((with_reducible refine Within.sub hw ?_); exact rfl)
    | with_reducible refine State.setSession_keeps ?_ ?_
    | with_reducible refine hx3 _ ?_
    | split
    | intro _
    | dsimp only

theorem joaPend_keeps {x0 : Nat} {x1 : JoaPend} (hw : Within [.joa] w) (h : Keeps w s t) :
    Keeps w s (joaPend x0 x1 t) := by
  unfold joaPend
  repeat' first
    | with_reducible assumption
    | ((with_reducible refine Within.sub hw ?_); exact rfl)
    | with_reducible refine State.modSession_keeps ?_ ?_
    | split
    | intro _
    | dsimp only

theorem joaGroups_keeps (hw : Within [.joa] w) (h : Keeps w s t) :
    Keeps w s (joaGroups t) := by
  unfold joaGroups
  repeat' first
    | with_reducible assumption
    | ((with_reducible refine Within.sub hw ?_); exact rfl)
    | with_reducible refine Keeps.forAll ?_ ?_
    | with_reducible refine joaRespond_keeps ?_ ?_
    | split
    | intro _
    | dsimp only

theorem setImageResult_keeps {x0 : Nat} {x1 : Nat} (hw : Within [.block 27] w) (h : Keeps w s t) :
    Keeps w s (setImageResult x0 x1 t) := by
  unfold setImageResult
  repeat' first
    | with_reducible assumption
    | ((with_reducible refine Within.sub hw ?_); exact rfl)
    | with_reducible refine Keeps.setReg ?_ ?_
    | split
    | intro _
    | dsimp only

theorem xferAbort_keeps {x0 : Nat} (hw : Within [.evlog, .joa, .block 0, .block 22] w) (h : Keeps w s t) :
    Keeps w s (xferAbort x0 t) := by
  unfold xferAbort
  repeat' first
    | with_reducible assumption
    | ((with_reducible refine Within.sub hw ?_); exact rfl)
    | with_reducible refine Keeps.raise ?_ ?_
    | split
    | intro _
    | dsimp only
    | with_reducible refine Keeps.set_joa ?_ ?_

theorem endSession_keeps {x0 : Nat} {x1 : Nat} (hw : Within [.evlog, .free, .glean, .group, .joa, .latch, .stage, .txn, .block 0, .block 8, .block 22] w) (h : Keeps w s t) :
    Keeps w s (endSession x0 x1 t) := by
  unfold endSession
  repeat' first
    | with_reducible assumption
    | ((with_reducible refine Within.sub hw ?_); exact rfl)
    | with_reducible refine Keeps.forAll ?_ ?_
    | with_reducible refine Keeps.raise ?_ ?_
    | with_reducible refine Keeps.setReg ?_ ?_
    | with_reducible refine State.setSession_keeps ?_ ?_
    | with_reducible refine txDrop_keeps ?_ ?_
    | with_reducible refine xferAbort_keeps ?_ ?_
    | (simp only [R.JOA_s_INFO_block]; (with_reducible refine Within.sub hw ?_); exact rfl)
    | split
    | intro _
    | dsimp only
    | with_reducible refine Keeps.set_latch_group_stage_glean_joa ?_ ?_

theorem endSessions_keeps {x0 : Nat} (hw : Within [.evlog, .free, .glean, .group, .joa, .latch, .stage, .txn, .block 0, .block 8, .block 22] w) (h : Keeps w s t) :
    Keeps w s (endSessions x0 t) := by
  unfold endSessions
  repeat' first
    | with_reducible assumption
    | ((with_reducible refine Within.sub hw ?_); exact rfl)
    | with_reducible refine Keeps.forAll ?_ ?_
    | with_reducible refine endSession_keeps ?_ ?_
    | split
    | intro _
    | dsimp only

theorem joaCtrlWrite_keeps {x0 : Nat} {x1 : Word} (hw : Within [.evlog, .free, .glean, .group, .joa, .latch, .stage, .txn, .block 0, .block 8, .block 22] w) (h : Keeps w s t) :
    Keeps w s (joaCtrlWrite x0 x1 t) := by
  unfold joaCtrlWrite
  repeat' first
    | with_reducible assumption
    | ((with_reducible refine Within.sub hw ?_); exact rfl)
    | with_reducible refine endSession_keeps ?_ ?_
    | split
    | intro _
    | dsimp only

end Sys2Proof.Machine
end

