-- ==== Sys2Proof/Laws/Keeps/Motion.lean ====
section
/-! SUPPORT. What the operations of Sys2Proof/Machine/Motion.lean leave unchanged. -/

set_option linter.all false
set_option Elab.async false

namespace Sys2Proof.Machine

variable {w : List Piece} {s t : State}

theorem State.setAxis_keeps {x1 : Nat} {x2 : Axis} (hw : Within [.motion] w) (h : Keeps w s t) :
    Keeps w s (State.setAxis t x1 x2) := by
  unfold State.setAxis
  repeat' first
    | with_reducible assumption
    | ((with_reducible refine Within.sub hw ?_); exact rfl)
    | split
    | intro _
    | dsimp only
    | with_reducible refine Keeps.set_motion ?_ ?_

theorem setAxState_keeps {x0 : Nat} {x1 : Nat} (hw : Within [.block 14] w) (h : Keeps w s t) :
    Keeps w s (setAxState x0 x1 t) := by
  unfold setAxState
  repeat' first
    | with_reducible assumption
    | ((with_reducible refine Within.sub hw ?_); exact rfl)
    | with_reducible refine Keeps.put ?_ ?_
    | with_reducible refine Keeps.putFlag ?_ ?_
    | (simp only [R.AXIS_n_STATUS_block]; (with_reducible refine Within.sub hw ?_); exact rfl)
    | split
    | intro _
    | dsimp only

theorem State.setPos_keeps {x1 : Nat} {x2 : Int} (hw : Within [.free, .block 14] w) (h : Keeps w s t) :
    Keeps w s (State.setPos t x1 x2) := by
  unfold State.setPos
  repeat' first
    | with_reducible assumption
    | ((with_reducible refine Within.sub hw ?_); exact rfl)
    | with_reducible refine Keeps.setReg64 ?_ ?_
    | (simp only [R.AXIS_n_POS_HI_block, R.AXIS_n_POS_LO_block]; (with_reducible refine Within.sub hw ?_); exact rfl)
    | split
    | intro _
    | dsimp only
    | with_reducible refine Keeps.set_free ?_ ?_

theorem State.setTarget_keeps {x1 : Nat} {x2 : Int} (hw : Within [.block 14] w) (h : Keeps w s t) :
    Keeps w s (State.setTarget t x1 x2) := by
  unfold State.setTarget
  repeat' first
    | with_reducible assumption
    | ((with_reducible refine Within.sub hw ?_); exact rfl)
    | with_reducible refine Keeps.setReg64 ?_ ?_
    | (simp only [R.AXIS_n_TARGET_HI_block, R.AXIS_n_TARGET_LO_block]; (with_reducible refine Within.sub hw ?_); exact rfl)
    | split
    | intro _
    | dsimp only

theorem State.setVel_keeps {x1 : Nat} {x2 : Int} (hw : Within [.block 14] w) (h : Keeps w s t) :
    Keeps w s (State.setVel t x1 x2) := by
  unfold State.setVel
  repeat' first
    | with_reducible assumption
    | ((with_reducible refine Within.sub hw ?_); exact rfl)
    | with_reducible refine Keeps.putFlag ?_ ?_
    | with_reducible refine Keeps.setReg64 ?_ ?_
    | (simp only [R.AXIS_n_STATUS_block, R.AXIS_n_VEL_HI_block, R.AXIS_n_VEL_LO_block]; (with_reducible refine Within.sub hw ?_); exact rfl)
    | split
    | intro _
    | dsimp only

theorem State.putAx_keeps {x1 : Nat} {x2 : Fld} {x3 : Bool} (hw : Within [.block 14] w) (h : Keeps w s t) :
    Keeps w s (State.putAx t x1 x2 x3) := by
  unfold State.putAx
  repeat' first
    | with_reducible assumption
    | ((with_reducible refine Within.sub hw ?_); exact rfl)
    | with_reducible refine Keeps.putFlag ?_ ?_
    | (simp only [R.AXIS_n_STATUS_block]; (with_reducible refine Within.sub hw ?_); exact rfl)
    | split
    | intro _
    | dsimp only

theorem State.axEvent_keeps {x1 : Nat} {x2 : Fld} (hw : Within [.evlog, .block 0, .block 14] w) (h : Keeps w s t) :
    Keeps w s (State.axEvent t x1 x2) := by
  unfold State.axEvent
  repeat' first
    | with_reducible assumption
    | ((with_reducible refine Within.sub hw ?_); exact rfl)
    | with_reducible refine Keeps.raise ?_ ?_
    | (simp only [R.AXIS_n_EVENTS_block]; (with_reducible refine Within.sub hw ?_); exact rfl)
    | split
    | intro _
    | dsimp only

theorem refreshLimits_keeps {x0 : Nat} (hw : Within [.motion] w) (h : Keeps w s t) :
    Keeps w s (refreshLimits x0 t) := by
  unfold refreshLimits
  repeat' first
    | with_reducible assumption
    | ((with_reducible refine Within.sub hw ?_); exact rfl)
    | with_reducible refine State.setAxis_keeps ?_ ?_
    | split
    | intro _
    | dsimp only

theorem setRaw_keeps {x0 : Nat} {x1 : Int} {x2 : Nat} (hw : Within [.free, .motion, .block 14] w) (h : Keeps w s t) :
    Keeps w s (setRaw x0 x1 x2 t) := by
  unfold setRaw
  repeat' first
    | with_reducible assumption
    | ((with_reducible refine Within.sub hw ?_); exact rfl)
    | with_reducible refine State.setAxis_keeps ?_ ?_
    | with_reducible refine State.setPos_keeps ?_ ?_
    | split
    | intro _
    | dsimp only
    | with_reducible refine Keeps.set_motion ?_ ?_

theorem targetStop_keeps {x0 : Nat} {x1 : Nat} (hw : Within [.free, .motion, .block 14] w) (h : Keeps w s t) :
    Keeps w s (targetStop x0 x1 t) := by
  unfold targetStop
  repeat' first
    | with_reducible assumption
    | ((with_reducible refine Within.sub hw ?_); exact rfl)
    | with_reducible refine State.setAxis_keeps ?_ ?_
    | with_reducible refine State.setVel_keeps ?_ ?_
    | with_reducible refine setRaw_keeps ?_ ?_
    | split
    | intro _
    | dsimp only

theorem drillTo_keeps {x0 : Nat} {x1 : Nat} (hw : Within [.free, .motion, .block 14] w) (h : Keeps w s t) :
    Keeps w s (drillTo x0 x1 t) := by
  unfold drillTo
  repeat' first
    | with_reducible assumption
    | ((with_reducible refine Within.sub hw ?_); exact rfl)
    | with_reducible refine State.setAxis_keeps ?_ ?_
    | with_reducible refine setRaw_keeps ?_ ?_
    | with_reducible refine targetStop_keeps ?_ ?_
    | split
    | intro _
    | dsimp only

theorem drillNow_keeps {x0 : Nat} (hw : Within [.free, .motion, .block 14] w) (h : Keeps w s t) :
    Keeps w s (drillNow x0 t) := by
  unfold drillNow
  repeat' first
    | with_reducible assumption
    | ((with_reducible refine Within.sub hw ?_); exact rfl)
    | with_reducible refine drillTo_keeps ?_ ?_
    | split
    | intro _
    | dsimp only

theorem pulseStop_keeps {x0 : Nat} {x1 : Bool} (hw : Within [.evlog, .free, .motion, .block 0, .block 14] w) (h : Keeps w s t) :
    Keeps w s (pulseStop x0 x1 t) := by
  unfold pulseStop
  repeat' first
    | with_reducible assumption
    | ((with_reducible refine Within.sub hw ?_); exact rfl)
    | with_reducible refine Keeps.setReg64 ?_ ?_
    | with_reducible refine State.axEvent_keeps ?_ ?_
    | with_reducible refine State.putAx_keeps ?_ ?_
    | with_reducible refine State.setAxis_keeps ?_ ?_
    | with_reducible refine State.setTarget_keeps ?_ ?_
    | with_reducible refine State.setVel_keeps ?_ ?_
    | with_reducible refine drillNow_keeps ?_ ?_
    | (simp only [R.AXIS_n_STOP_POS_HI_block, R.AXIS_n_STOP_POS_LO_block]; (with_reducible refine Within.sub hw ?_); exact rfl)
    | split
    | intro _
    | dsimp only

theorem stopNow_keeps {x0 : Nat} (hw : Within [.evlog, .free, .motion, .txn, .block 0, .block 14] w) (h : Keeps w s t) :
    Keeps w s (stopNow x0 t) := by
  unfold stopNow
  repeat' first
    | with_reducible assumption
    | ((with_reducible refine Within.sub hw ?_); exact rfl)
    | with_reducible refine State.setAxis_keeps ?_ ?_
    | with_reducible refine pulseStop_keeps ?_ ?_
    | with_reducible refine txAxisFault_keeps ?_ ?_
    | split
    | intro _
    | dsimp only

theorem axisFault_keeps {x0 : Nat} {x1 : Nat} (hw : Within [.evlog, .free, .motion, .txn, .block 0, .block 14] w) (h : Keeps w s t) :
    Keeps w s (axisFault x0 x1 t) := by
  unfold axisFault
  repeat' first
    | with_reducible assumption
    | ((with_reducible refine Within.sub hw ?_); exact rfl)
    | with_reducible refine Keeps.put ?_ ?_
    | with_reducible refine State.axEvent_keeps ?_ ?_
    | with_reducible refine State.setAxis_keeps ?_ ?_
    | with_reducible refine pulseStop_keeps ?_ ?_
    | with_reducible refine setAxState_keeps ?_ ?_
    | with_reducible refine txAxisFault_keeps ?_ ?_
    | (simp only [R.AXIS_n_STATUS_block]; (with_reducible refine Within.sub hw ?_); exact rfl)
    | split
    | intro _
    | dsimp only

theorem axisDone_keeps {x0 : Nat} (hw : Within [.evlog, .motion, .block 0, .block 14] w) (h : Keeps w s t) :
    Keeps w s (axisDone x0 t) := by
  unfold axisDone
  repeat' first
    | with_reducible assumption
    | ((with_reducible refine Within.sub hw ?_); exact rfl)
    | with_reducible refine State.axEvent_keeps ?_ ?_
    | with_reducible refine State.putAx_keeps ?_ ?_
    | with_reducible refine State.setAxis_keeps ?_ ?_
    | with_reducible refine setAxState_keeps ?_ ?_
    | split
    | intro _
    | dsimp only

theorem axesStop_keeps (hw : Within [.evlog, .free, .motion, .txn, .block 0, .block 14] w) (h : Keeps w s t) :
    Keeps w s (axesStop t) := by
  unfold axesStop
  repeat' first
    | with_reducible assumption
    | ((with_reducible refine Within.sub hw ?_); exact rfl)
    | with_reducible refine Keeps.forAll ?_ ?_
    | with_reducible refine State.putAx_keeps ?_ ?_
    | with_reducible refine stopNow_keeps ?_ ?_
    | split
    | intro _
    | dsimp only

theorem axesRelease_keeps (hw : Within [.block 14] w) (h : Keeps w s t) :
    Keeps w s (axesRelease t) := by
  unfold axesRelease
  repeat' first
    | with_reducible assumption
    | ((with_reducible refine Within.sub hw ?_); exact rfl)
    | with_reducible refine Keeps.forAll ?_ ?_
    | with_reducible refine State.putAx_keeps ?_ ?_
    | split
    | intro _
    | dsimp only

theorem axisRefuse_keeps {x0 : Nat} {x1 : Nat} (hw : Within [.evlog, .block 0, .block 14] w) (h : Keeps w s t) :
    Keeps w s (axisRefuse x0 x1 t) := by
  unfold axisRefuse
  repeat' first
    | with_reducible assumption
    | ((with_reducible refine Within.sub hw ?_); exact rfl)
    | with_reducible refine State.axEvent_keeps ?_ ?_
    | with_reducible refine Keeps.incSat ?_ ?_
    | with_reducible refine Keeps.put ?_ ?_
    | (simp only [R.AXIS_n_REFUSED_CNT_block, R.AXIS_n_STATUS_block]; (with_reducible refine Within.sub hw ?_); exact rfl)
    | split
    | intro _
    | dsimp only

theorem clearMove_keeps {x0 : Nat} (hw : Within [.motion, .block 14] w) (h : Keeps w s t) :
    Keeps w s (clearMove x0 t) := by
  unfold clearMove
  repeat' first
    | with_reducible assumption
    | ((with_reducible refine Within.sub hw ?_); exact rfl)
    | with_reducible refine Keeps.setReg ?_ ?_
    | with_reducible refine State.putAx_keeps ?_ ?_
    | with_reducible refine State.setAxis_keeps ?_ ?_
    | (simp only [R.AXIS_n_STATUS_block]; (with_reducible refine Within.sub hw ?_); exact rfl)
    | split
    | intro _
    | dsimp only

theorem moveFromRest_keeps {x0 : Nat} (hw : Within [.evlog, .motion, .block 0, .block 14] w) (h : Keeps w s t) :
    Keeps w s (moveFromRest x0 t) := by
  unfold moveFromRest
  repeat' first
    | with_reducible assumption
    | ((with_reducible refine Within.sub hw ?_); exact rfl)
    | with_reducible refine State.setAxis_keeps ?_ ?_
    | with_reducible refine axisDone_keeps ?_ ?_
    | with_reducible refine setAxState_keeps ?_ ?_
    | split
    | intro _
    | dsimp only

theorem moveOn_keeps {x0 : Nat} (hw : Within [.motion, .block 14] w) (h : Keeps w s t) :
    Keeps w s (moveOn x0 t) := by
  unfold moveOn
  repeat' first
    | with_reducible assumption
    | ((with_reducible refine Within.sub hw ?_); exact rfl)
    | with_reducible refine State.setAxis_keeps ?_ ?_
    | with_reducible refine setAxState_keeps ?_ ?_
    | split
    | intro _
    | dsimp only

theorem moveTo_keeps {x0 : Nat} {x1 : Int} (hw : Within [.evlog, .motion, .block 0, .block 14] w) (h : Keeps w s t) :
    Keeps w s (moveTo x0 x1 t) := by
  unfold moveTo
  repeat' first
    | with_reducible assumption
    | ((with_reducible refine Within.sub hw ?_); exact rfl)
    | with_reducible refine State.setTarget_keeps ?_ ?_
    | with_reducible refine clearMove_keeps ?_ ?_
    | with_reducible refine moveFromRest_keeps ?_ ?_
    | with_reducible refine moveOn_keeps ?_ ?_
    | split
    | intro _
    | dsimp only

theorem brakeTo_keeps {x0 : Nat} {x1 : Nat} (hw : Within [.motion, .block 14] w) (h : Keeps w s t) :
    Keeps w s (brakeTo x0 x1 t) := by
  unfold brakeTo
  repeat' first
    | with_reducible assumption
    | ((with_reducible refine Within.sub hw ?_); exact rfl)
    | with_reducible refine State.setAxis_keeps ?_ ?_
    | with_reducible refine setAxState_keeps ?_ ?_
    | split
    | intro _
    | dsimp only

theorem cmdStopDecel_keeps {x0 : Nat} (hw : Within [.motion, .block 14] w) (h : Keeps w s t) :
    Keeps w s (cmdStopDecel x0 t) := by
  unfold cmdStopDecel
  repeat' first
    | with_reducible assumption
    | ((with_reducible refine Within.sub hw ?_); exact rfl)
    | with_reducible refine brakeTo_keeps ?_ ?_
    | split
    | intro _
    | dsimp only

theorem cmdVel_keeps {x0 : Nat} {x1 : Int} (hw : Within [.evlog, .motion, .block 0, .block 14] w) (h : Keeps w s t) :
    Keeps w s (cmdVel x0 x1 t) := by
  unfold cmdVel
  repeat' first
    | with_reducible assumption
    | ((with_reducible refine Within.sub hw ?_); exact rfl)
    | with_reducible refine State.axEvent_keeps ?_ ?_
    | with_reducible refine State.setAxis_keeps ?_ ?_
    | with_reducible refine clearMove_keeps ?_ ?_
    | with_reducible refine cmdStopDecel_keeps ?_ ?_
    | with_reducible refine setAxState_keeps ?_ ?_
    | split
    | intro _
    | dsimp only

theorem cmdSetPos_keeps {x0 : Nat} {x1 : Int} (hw : Within [.evlog, .free, .motion, .block 0, .block 14] w) (h : Keeps w s t) :
    Keeps w s (cmdSetPos x0 x1 t) := by
  unfold cmdSetPos
  repeat' first
    | with_reducible assumption
    | ((with_reducible refine Within.sub hw ?_); exact rfl)
    | with_reducible refine State.setAxis_keeps ?_ ?_
    | with_reducible refine State.setPos_keeps ?_ ?_
    | with_reducible refine State.setTarget_keeps ?_ ?_
    | (simp only [R.AXIS_n_ENC_CFG_block, R.ENC_m_COUNT_HI_block, R.ENC_m_COUNT_LO_block]; (with_reducible refine Within.sub hw ?_); exact rfl)
    | split
    | intro _
    | dsimp only

theorem homeDone_keeps {x0 : Nat} {x1 : Int} (hw : Within [.evlog, .free, .motion, .block 0, .block 14] w) (h : Keeps w s t) :
    Keeps w s (homeDone x0 x1 t) := by
  unfold homeDone
  repeat' first
    | with_reducible assumption
    | ((with_reducible refine Within.sub hw ?_); exact rfl)
    | with_reducible refine State.axEvent_keeps ?_ ?_
    | with_reducible refine State.putAx_keeps ?_ ?_
    | with_reducible refine State.setAxis_keeps ?_ ?_
    | with_reducible refine State.setPos_keeps ?_ ?_
    | with_reducible refine State.setTarget_keeps ?_ ?_
    | with_reducible refine axisDone_keeps ?_ ?_
    | (simp only [R.AXIS_n_ENC_CFG_block, R.ENC_m_COUNT_HI_block, R.ENC_m_COUNT_LO_block]; (with_reducible refine Within.sub hw ?_); exact rfl)
    | split
    | intro _
    | dsimp only

theorem cmdHome_keeps {x0 : Nat} {x1 : Nat} (hw : Within [.evlog, .free, .motion, .block 0, .block 14] w) (h : Keeps w s t) :
    Keeps w s (cmdHome x0 x1 t) := by
  unfold cmdHome
  repeat' first
    | with_reducible assumption
    | ((with_reducible refine Within.sub hw ?_); exact rfl)
    | with_reducible refine State.putAx_keeps ?_ ?_
    | with_reducible refine State.setAxis_keeps ?_ ?_
    | with_reducible refine clearMove_keeps ?_ ?_
    | with_reducible refine homeDone_keeps ?_ ?_
    | with_reducible refine setAxState_keeps ?_ ?_
    | split
    | intro _
    | dsimp only

theorem cmdEffect_keeps {x0 : Nat} {x1 : Nat} {x2 : Quad} (hw : Within [.evlog, .free, .motion, .txn, .block 0, .block 14] w) (h : Keeps w s t) :
    Keeps w s (cmdEffect x0 x1 x2 t) := by
  unfold cmdEffect
  repeat' first
    | with_reducible assumption
    | ((with_reducible refine Within.sub hw ?_); exact rfl)
    | with_reducible refine cmdHome_keeps ?_ ?_
    | with_reducible refine cmdSetPos_keeps ?_ ?_
    | with_reducible refine cmdStopDecel_keeps ?_ ?_
    | with_reducible refine cmdVel_keeps ?_ ?_
    | with_reducible refine moveTo_keeps ?_ ?_
    | with_reducible refine stopNow_keeps ?_ ?_
    | split
    | intro _
    | dsimp only

theorem cmdNote_keeps {x0 : Nat} {x1 : AxisCmd} (hw : Within [.block 14] w) (h : Keeps w s t) :
    Keeps w s (cmdNote x0 x1 t) := by
  unfold cmdNote
  repeat' first
    | with_reducible assumption
    | ((with_reducible refine Within.sub hw ?_); exact rfl)
    | with_reducible refine Keeps.setReg64 ?_ ?_
    | (simp only [R.AXIS_n_CMD_V_HI_block, R.AXIS_n_CMD_V_LO_block]; (with_reducible refine Within.sub hw ?_); exact rfl)
    | split
    | intro _
    | dsimp only

theorem cmdApply_keeps {x0 : Nat} {x1 : AxisCmd} (hw : Within [.evlog, .free, .motion, .txn, .block 0, .block 14] w) (h : Keeps w s t) :
    Keeps w s (cmdApply x0 x1 t) := by
  unfold cmdApply
  repeat' first
    | with_reducible assumption
    | ((with_reducible refine Within.sub hw ?_); exact rfl)
    | with_reducible refine State.axEvent_keeps ?_ ?_
    | with_reducible refine axisRefuse_keeps ?_ ?_
    | with_reducible refine cmdEffect_keeps ?_ ?_
    | with_reducible refine cmdNote_keeps ?_ ?_
    | split
    | intro _
    | dsimp only

theorem cmdTake_keeps {x0 : Nat} {x1 : Nat} (hw : Within [.evlog, .free, .motion, .raw, .txn, .block 0, .block 14] w) (h : Keeps w s t) :
    Keeps w s (cmdTake x0 x1 t) := by
  unfold cmdTake
  repeat' first
    | with_reducible assumption
    | ((with_reducible refine Within.sub hw ?_); exact rfl)
    | with_reducible refine Keeps.advanceTo ?_ ?_
    | with_reducible refine State.setAxis_keeps ?_ ?_
    | with_reducible refine cmdApply_keeps ?_ ?_
    | with_reducible refine drillTo_keeps ?_ ?_
    | with_reducible refine refreshLimits_keeps ?_ ?_
    | split
    | intro _
    | dsimp only

theorem stopNowTake_keeps {x0 : Nat} (hw : Within [.evlog, .free, .motion, .txn, .block 0, .block 14] w) (h : Keeps w s t) :
    Keeps w s (stopNowTake x0 t) := by
  unfold stopNowTake
  repeat' first
    | with_reducible assumption
    | ((with_reducible refine Within.sub hw ?_); exact rfl)
    | with_reducible refine State.setAxis_keeps ?_ ?_
    | with_reducible refine cmdApply_keeps ?_ ?_
    | split
    | intro _
    | dsimp only

theorem axisQueue_keeps {x0 : Nat} {x1 : AxisCmd} (hw : Within [.motion] w) (h : Keeps w s t) :
    Keeps w s (axisQueue x0 x1 t) := by
  unfold axisQueue
  repeat' first
    | with_reducible assumption
    | ((with_reducible refine Within.sub hw ?_); exact rfl)
    | with_reducible refine State.setAxis_keeps ?_ ?_
    | split
    | intro _
    | dsimp only

theorem axisCmdWrite_keeps {x0 : Nat} {x1 : Word} (hw : Within [.motion] w) (h : Keeps w s t) :
    Keeps w s (axisCmdWrite x0 x1 t) := by
  unfold axisCmdWrite
  repeat' first
    | with_reducible assumption
    | ((with_reducible refine Within.sub hw ?_); exact rfl)
    | with_reducible refine axisQueue_keeps ?_ ?_
    | (simp only [R.AXIS_n_ARG_HI_block, R.AXIS_n_ARG_LO_block]; (with_reducible refine Within.sub hw ?_); exact rfl)
    | split
    | intro _
    | dsimp only

theorem axisHeadland_keeps (hw : Within [.motion] w) (h : Keeps w s t) :
    Keeps w s (axisHeadland t) := by
  unfold axisHeadland
  repeat' first
    | with_reducible assumption
    | ((with_reducible refine Within.sub hw ?_); exact rfl)
    | with_reducible refine Keeps.forAll ?_ ?_
    | with_reducible refine axisQueue_keeps ?_ ?_
    | split
    | intro _
    | dsimp only
    | with_reducible refine Keeps.set_motion ?_ ?_

theorem planVel_keeps {x0 : Nat} {x1 : Int} (hw : Within [.motion, .block 14] w) (h : Keeps w s t) :
    Keeps w s (planVel x0 x1 t) := by
  unfold planVel
  repeat' first
    | with_reducible assumption
    | ((with_reducible refine Within.sub hw ?_); exact rfl)
    | with_reducible refine State.setAxis_keeps ?_ ?_
    | with_reducible refine State.setVel_keeps ?_ ?_
    | split
    | intro _
    | dsimp only

theorem softTurn_keeps {x0 : Nat} {x1 : Int} (hw : Within [.evlog, .motion, .block 0, .block 14] w) (h : Keeps w s t) :
    Keeps w s (softTurn x0 x1 t) := by
  unfold softTurn
  repeat' first
    | with_reducible assumption
    | ((with_reducible refine Within.sub hw ?_); exact rfl)
    | with_reducible refine State.setAxis_keeps ?_ ?_
    | with_reducible refine State.setTarget_keeps ?_ ?_
    | with_reducible refine moveFromRest_keeps ?_ ?_
    | with_reducible refine moveOn_keeps ?_ ?_
    | split
    | intro _
    | dsimp only

theorem planApproach_keeps {x0 : Nat} (hw : Within [.motion, .block 14] w) (h : Keeps w s t) :
    Keeps w s (planApproach x0 t) := by
  unfold planApproach
  repeat' first
    | with_reducible assumption
    | ((with_reducible refine Within.sub hw ?_); exact rfl)
    | with_reducible refine planVel_keeps ?_ ?_
    | split
    | intro _
    | dsimp only

theorem planMove_keeps {x0 : Nat} (hw : Within [.evlog, .motion, .block 0, .block 14] w) (h : Keeps w s t) :
    Keeps w s (planMove x0 t) := by
  unfold planMove
  repeat' first
    | with_reducible assumption
    | ((with_reducible refine Within.sub hw ?_); exact rfl)
    | with_reducible refine State.axEvent_keeps ?_ ?_
    | with_reducible refine State.putAx_keeps ?_ ?_
    | with_reducible refine State.setAxis_keeps ?_ ?_
    | with_reducible refine moveFromRest_keeps ?_ ?_
    | with_reducible refine planApproach_keeps ?_ ?_
    | with_reducible refine planVel_keeps ?_ ?_
    | split
    | intro _
    | dsimp only

theorem homeLatch_keeps {x0 : Nat} {x1 : Homing} {x2 : Int} (hw : Within [.motion] w) (h : Keeps w s t) :
    Keeps w s (homeLatch x0 x1 x2 t) := by
  unfold homeLatch
  repeat' first
    | with_reducible assumption
    | ((with_reducible refine Within.sub hw ?_); exact rfl)
    | with_reducible refine State.setAxis_keeps ?_ ?_
    | split
    | intro _
    | dsimp only

theorem homeRest_keeps {x0 : Nat} {x1 : Homing} (hw : Within [.evlog, .free, .motion, .block 0, .block 14] w) (h : Keeps w s t) :
    Keeps w s (homeRest x0 x1 t) := by
  unfold homeRest
  repeat' first
    | with_reducible assumption
    | ((with_reducible refine Within.sub hw ?_); exact rfl)
    | with_reducible refine State.setAxis_keeps ?_ ?_
    | with_reducible refine homeDone_keeps ?_ ?_
    | split
    | intro _
    | dsimp only

theorem planHome_keeps {x0 : Nat} {x1 : Homing} (hw : Within [.evlog, .free, .motion, .block 0, .block 14] w) (h : Keeps w s t) :
    Keeps w s (planHome x0 x1 t) := by
  unfold planHome
  repeat' first
    | with_reducible assumption
    | ((with_reducible refine Within.sub hw ?_); exact rfl)
    | with_reducible refine brakeTo_keeps ?_ ?_
    | with_reducible refine homeLatch_keeps ?_ ?_
    | with_reducible refine homeRest_keeps ?_ ?_
    | with_reducible refine planMove_keeps ?_ ?_
    | with_reducible refine planVel_keeps ?_ ?_
    | with_reducible refine softTurn_keeps ?_ ?_
    | split
    | intro _
    | dsimp only

theorem stopEnd_keeps {x0 : Nat} {x1 : Nat} (hw : Within [.evlog, .free, .motion, .txn, .block 0, .block 14] w) (h : Keeps w s t) :
    Keeps w s (stopEnd x0 x1 t) := by
  unfold stopEnd
  repeat' first
    | with_reducible assumption
    | ((with_reducible refine Within.sub hw ?_); exact rfl)
    | with_reducible refine State.setTarget_keeps ?_ ?_
    | with_reducible refine axisDone_keeps ?_ ?_
    | with_reducible refine axisFault_keeps ?_ ?_
    | split
    | intro _
    | dsimp only

theorem plan_keeps {x0 : Nat} (hw : Within [.evlog, .free, .motion, .txn, .block 0, .block 14] w) (h : Keeps w s t) :
    Keeps w s (plan x0 t) := by
  unfold plan
  repeat' first
    | with_reducible assumption
    | ((with_reducible refine Within.sub hw ?_); exact rfl)
    | with_reducible refine State.setTarget_keeps ?_ ?_
    | with_reducible refine axisDone_keeps ?_ ?_
    | with_reducible refine planHome_keeps ?_ ?_
    | with_reducible refine planMove_keeps ?_ ?_
    | with_reducible refine planVel_keeps ?_ ?_
    | with_reducible refine softTurn_keeps ?_ ?_
    | with_reducible refine stopEnd_keeps ?_ ?_
    | split
    | intro _
    | dsimp only

theorem confirm_keeps {x0 : Nat} {x1 : Int} (hw : Within [.evlog, .free, .motion, .block 0, .block 14] w) (h : Keeps w s t) :
    Keeps w s (confirm x0 x1 t) := by
  unfold confirm
  repeat' first
    | with_reducible assumption
    | ((with_reducible refine Within.sub hw ?_); exact rfl)
    | with_reducible refine State.axEvent_keeps ?_ ?_
    | with_reducible refine State.putAx_keeps ?_ ?_
    | with_reducible refine State.setAxis_keeps ?_ ?_
    | with_reducible refine State.setPos_keeps ?_ ?_
    | with_reducible refine State.setTarget_keeps ?_ ?_
    | (simp only [R.AXIS_n_ENC_CFG_block, R.AXIS_n_ENC_TOL_block]; (with_reducible refine Within.sub hw ?_); exact rfl)
    | split
    | intro _
    | dsimp only

theorem encoderCheck_keeps {x0 : Nat} (hw : Within [.evlog, .free, .motion, .txn, .block 0, .block 14] w) (h : Keeps w s t) :
    Keeps w s (encoderCheck x0 t) := by
  unfold encoderCheck
  repeat' first
    | with_reducible assumption
    | ((with_reducible refine Within.sub hw ?_); exact rfl)
    | with_reducible refine axisFault_keeps ?_ ?_
    | with_reducible refine confirm_keeps ?_ ?_
    | (simp only [R.AXIS_n_ENC_CFG_block, R.AXIS_n_ENC_TOL_block]; (with_reducible refine Within.sub hw ?_); exact rfl)
    | split
    | intro _
    | dsimp only

theorem dirFollow_keeps {x0 : Nat} (hw : Within [.motion] w) (h : Keeps w s t) :
    Keeps w s (dirFollow x0 t) := by
  unfold dirFollow
  repeat' first
    | with_reducible assumption
    | ((with_reducible refine Within.sub hw ?_); exact rfl)
    | with_reducible refine State.setAxis_keeps ?_ ?_
    | split
    | intro _
    | dsimp only

theorem profileTick_keeps {x0 : Nat} {x1 : Quad} (hw : Within [.evlog, .free, .motion, .raw, .txn, .block 0, .block 14] w) (h : Keeps w s t) :
    Keeps w s (profileTick x0 x1 t) := by
  unfold profileTick
  repeat' first
    | with_reducible assumption
    | ((with_reducible refine Within.sub hw ?_); exact rfl)
    | with_reducible refine Keeps.advanceTo ?_ ?_
    | with_reducible refine dirFollow_keeps ?_ ?_
    | with_reducible refine drillTo_keeps ?_ ?_
    | with_reducible refine encoderCheck_keeps ?_ ?_
    | with_reducible refine plan_keeps ?_ ?_
    | with_reducible refine refreshLimits_keeps ?_ ?_
    | split
    | intro _
    | dsimp only

theorem drillStep_keeps {x0 : Nat} {x1 : Quad} (hw : Within [.free, .motion, .raw, .block 14] w) (h : Keeps w s t) :
    Keeps w s (drillStep x0 x1 t) := by
  unfold drillStep
  repeat' first
    | with_reducible assumption
    | ((with_reducible refine Within.sub hw ?_); exact rfl)
    | with_reducible refine Keeps.advanceTo ?_ ?_
    | with_reducible refine drillNow_keeps ?_ ?_
    | split
    | intro _
    | dsimp only

theorem hardLimit_keeps {x0 : Nat} {x1 : Bool} (hw : Within [.evlog, .free, .motion, .txn, .block 0, .block 14] w) (h : Keeps w s t) :
    Keeps w s (hardLimit x0 x1 t) := by
  unfold hardLimit
  repeat' first
    | with_reducible assumption
    | ((with_reducible refine Within.sub hw ?_); exact rfl)
    | with_reducible refine axisFault_keeps ?_ ?_
    | with_reducible refine drillNow_keeps ?_ ?_
    | split
    | intro _
    | dsimp only

theorem homeInput_keeps {x0 : Nat} {x1 : Bool} (hw : Within [.free, .motion, .block 14] w) (h : Keeps w s t) :
    Keeps w s (homeInput x0 x1 t) := by
  unfold homeInput
  repeat' first
    | with_reducible assumption
    | ((with_reducible refine Within.sub hw ?_); exact rfl)
    | with_reducible refine drillNow_keeps ?_ ?_
    | with_reducible refine homeLatch_keeps ?_ ?_
    | split
    | intro _
    | dsimp only

theorem encMove_keeps {x0 : Nat} {x1 : Int} (hw : Within [.motion, .block 14] w) (h : Keeps w s t) :
    Keeps w s (encMove x0 x1 t) := by
  unfold encMove
  repeat' first
    | with_reducible assumption
    | ((with_reducible refine Within.sub hw ?_); exact rfl)
    | with_reducible refine Keeps.forAll ?_ ?_
    | with_reducible refine State.setAxis_keeps ?_ ?_
    | with_reducible refine Keeps.setReg64 ?_ ?_
    | (simp only [R.ENC_m_COUNT_HI_block, R.ENC_m_COUNT_LO_block]; (with_reducible refine Within.sub hw ?_); exact rfl)
    | split
    | intro _
    | dsimp only
    | with_reducible refine Keeps.set_motion ?_ ?_

theorem encoderTransition_keeps {x0 : Nat} (hw : Within [.evlog, .free, .motion, .txn, .block 0, .block 14] w) (h : Keeps w s t) :
    Keeps w s (encoderTransition x0 t) := by
  unfold encoderTransition
  repeat' first
    | with_reducible assumption
    | ((with_reducible refine Within.sub hw ?_); exact rfl)
    | with_reducible refine Keeps.forAll ?_ ?_
    | with_reducible refine Keeps.incSat ?_ ?_
    | with_reducible refine Keeps.putFlag ?_ ?_
    | with_reducible refine Keeps.raise ?_ ?_
    | with_reducible refine Keeps.setReg64 ?_ ?_
    | with_reducible refine axisFault_keeps ?_ ?_
    | with_reducible refine encMove_keeps ?_ ?_
    | (simp only [R.ENC_m_CFG_block, R.ENC_m_COUNT_HI_block, R.ENC_m_COUNT_LO_block, R.ENC_m_ERR_CNT_block, R.ENC_m_INDEX_HI_block, R.ENC_m_INDEX_LO_block, R.ENC_m_STATUS_block]; (with_reducible refine Within.sub hw ?_); exact rfl)
    | split
    | intro _
    | dsimp only

theorem clampVmax_keeps {x0 : Nat} (hw : Within [.evlog, .block 0, .block 14] w) (h : Keeps w s t) :
    Keeps w s (clampVmax x0 t) := by
  unfold clampVmax
  repeat' first
    | with_reducible assumption
    | ((with_reducible refine Within.sub hw ?_); exact rfl)
    | with_reducible refine State.axEvent_keeps ?_ ?_
    | with_reducible refine Keeps.setReg64 ?_ ?_
    | (simp only [R.AXIS_n_VMAX_HI_block, R.AXIS_n_VMAX_LO_block]; (with_reducible refine Within.sub hw ?_); exact rfl)
    | split
    | intro _
    | dsimp only

theorem limitWrite_keeps {x0 : Nat} {x1 : LimitReg} {x2 : Quad} (hw : Within [.evlog, .free, .motion, .block 0, .block 14] w) (h : Keeps w s t) :
    Keeps w s (limitWrite x0 x1 x2 t) := by
  unfold limitWrite
  cases x1 <;> dsimp only
  all_goals
    repeat' first
      | with_reducible assumption
      | ((with_reducible refine Within.sub hw ?_); exact rfl)
      | with_reducible refine Keeps.setReg ?_ ?_
      | with_reducible refine Keeps.setReg64 ?_ ?_
      | with_reducible refine State.axEvent_keeps ?_ ?_
      | with_reducible refine State.putAx_keeps ?_ ?_
      | with_reducible refine State.setAxis_keeps ?_ ?_
      | with_reducible refine clampVmax_keeps ?_ ?_
      | with_reducible refine drillNow_keeps ?_ ?_
      | (simp only [R.AXIS_n_ACCEL_block, R.AXIS_n_CTRL_block, R.AXIS_n_DECEL_block, R.AXIS_n_JERK_block, R.AXIS_n_VCREEP_block, R.AXIS_n_VMAX_HI_block, R.AXIS_n_VMAX_LO_block]; (with_reducible refine Within.sub hw ?_); exact rfl)
      | split
      | intro _
      | dsimp only

theorem stepCfgWrite_keeps {x0 : Nat} {x1 : Word} (hw : Within [.evlog, .block 0, .block 14] w) (h : Keeps w s t) :
    Keeps w s (stepCfgWrite x0 x1 t) := by
  unfold stepCfgWrite
  repeat' first
    | with_reducible assumption
    | ((with_reducible refine Within.sub hw ?_); exact rfl)
    | with_reducible refine Keeps.setReg ?_ ?_
    | with_reducible refine clampVmax_keeps ?_ ?_
    | (simp only [R.AXIS_n_STEP_CFG_block]; (with_reducible refine Within.sub hw ?_); exact rfl)
    | split
    | intro _
    | dsimp only

theorem State.setChop_keeps {x1 : Nat} {x2 : Chopper} (hw : Within [.motion] w) (h : Keeps w s t) :
    Keeps w s (State.setChop t x1 x2) := by
  unfold State.setChop
  repeat' first
    | with_reducible assumption
    | ((with_reducible refine Within.sub hw ?_); exact rfl)
    | split
    | intro _
    | dsimp only
    | with_reducible refine Keeps.set_motion ?_ ?_

theorem setPhase_keeps {x0 : Nat} {x1 : Bool} {x2 : Nat} (hw : Within [.motion, .block 15] w) (h : Keeps w s t) :
    Keeps w s (setPhase x0 x1 x2 t) := by
  unfold setPhase
  repeat' first
    | with_reducible assumption
    | ((with_reducible refine Within.sub hw ?_); exact rfl)
    | with_reducible refine Keeps.put ?_ ?_
    | with_reducible refine Keeps.putFlag ?_ ?_
    | with_reducible refine State.setChop_keeps ?_ ?_
    | (simp only [R.CHOP_c_STATUS_block]; (with_reducible refine Within.sub hw ?_); exact rfl)
    | split
    | intro _
    | dsimp only

theorem chopOff_keeps {x0 : Nat} (hw : Within [.motion, .block 15] w) (h : Keeps w s t) :
    Keeps w s (chopOff x0 t) := by
  unfold chopOff
  repeat' first
    | with_reducible assumption
    | ((with_reducible refine Within.sub hw ?_); exact rfl)
    | with_reducible refine setPhase_keeps ?_ ?_
    | split
    | intro _
    | dsimp only

theorem chopOn_keeps {x0 : Nat} (hw : Within [.motion, .block 15] w) (h : Keeps w s t) :
    Keeps w s (chopOn x0 t) := by
  unfold chopOn
  repeat' first
    | with_reducible assumption
    | ((with_reducible refine Within.sub hw ?_); exact rfl)
    | with_reducible refine State.setChop_keeps ?_ ?_
    | with_reducible refine setPhase_keeps ?_ ?_
    | split
    | intro _
    | dsimp only

theorem offBegin_keeps {x0 : Nat} {x1 : Bool} (hw : Within [.motion, .block 15] w) (h : Keeps w s t) :
    Keeps w s (offBegin x0 x1 t) := by
  unfold offBegin
  repeat' first
    | with_reducible assumption
    | ((with_reducible refine Within.sub hw ?_); exact rfl)
    | with_reducible refine State.setChop_keeps ?_ ?_
    | with_reducible refine setPhase_keeps ?_ ?_
    | (simp only [R.CHOP_c_TIMING_block]; (with_reducible refine Within.sub hw ?_); exact rfl)
    | split
    | intro _
    | dsimp only

theorem chopShort_keeps {x0 : Nat} {x1 : Bool} (hw : Within [.evlog, .free, .motion, .txn, .block 0, .block 14, .block 15] w) (h : Keeps w s t) :
    Keeps w s (chopShort x0 x1 t) := by
  unfold chopShort
  repeat' first
    | with_reducible assumption
    | ((with_reducible refine Within.sub hw ?_); exact rfl)
    | with_reducible refine Keeps.incSat ?_ ?_
    | with_reducible refine Keeps.raise ?_ ?_
    | with_reducible refine State.setChop_keeps ?_ ?_
    | with_reducible refine axisFault_keeps ?_ ?_
    | with_reducible refine chopOff_keeps ?_ ?_
    | (simp only [R.CHOP_c_EVENTS_block, R.CHOP_c_SHORT_CNT_block]; (with_reducible refine Within.sub hw ?_); exact rfl)
    | split
    | intro _
    | dsimp only

theorem chopTrip_keeps {x0 : Nat} {x1 : Bool} {x2 : Bool} (hw : Within [.evlog, .free, .motion, .txn, .block 0, .block 14, .block 15] w) (h : Keeps w s t) :
    Keeps w s (chopTrip x0 x1 x2 t) := by
  unfold chopTrip
  repeat' first
    | with_reducible assumption
    | ((with_reducible refine Within.sub hw ?_); exact rfl)
    | with_reducible refine State.setChop_keeps ?_ ?_
    | with_reducible refine chopShort_keeps ?_ ?_
    | with_reducible refine offBegin_keeps ?_ ?_
    | split
    | intro _
    | dsimp only

theorem chopBlankEnd_keeps {x0 : Nat} {x1 : Bool} (hw : Within [.motion, .raw, .block 15] w) (h : Keeps w s t) :
    Keeps w s (chopBlankEnd x0 x1 t) := by
  unfold chopBlankEnd
  repeat' first
    | with_reducible assumption
    | ((with_reducible refine Within.sub hw ?_); exact rfl)
    | with_reducible refine Keeps.advanceTo ?_ ?_
    | with_reducible refine setPhase_keeps ?_ ?_
    | split
    | intro _
    | dsimp only

theorem chopFastEnd_keeps {x0 : Nat} {x1 : Bool} (hw : Within [.motion, .raw, .block 15] w) (h : Keeps w s t) :
    Keeps w s (chopFastEnd x0 x1 t) := by
  unfold chopFastEnd
  repeat' first
    | with_reducible assumption
    | ((with_reducible refine Within.sub hw ?_); exact rfl)
    | with_reducible refine Keeps.advanceTo ?_ ?_
    | with_reducible refine State.setChop_keeps ?_ ?_
    | with_reducible refine setPhase_keeps ?_ ?_
    | split
    | intro _
    | dsimp only

theorem chopSlowEnd_keeps {x0 : Nat} {x1 : Bool} (hw : Within [.motion, .raw, .block 15] w) (h : Keeps w s t) :
    Keeps w s (chopSlowEnd x0 x1 t) := by
  unfold chopSlowEnd
  repeat' first
    | with_reducible assumption
    | ((with_reducible refine Within.sub hw ?_); exact rfl)
    | with_reducible refine Keeps.advanceTo ?_ ?_
    | with_reducible refine setPhase_keeps ?_ ?_
    | split
    | intro _
    | dsimp only

theorem chopOpen_keeps {x0 : Nat} {x1 : Bool} (hw : Within [.evlog, .block 0, .block 15] w) (h : Keeps w s t) :
    Keeps w s (chopOpen x0 x1 t) := by
  unfold chopOpen
  repeat' first
    | with_reducible assumption
    | ((with_reducible refine Within.sub hw ?_); exact rfl)
    | with_reducible refine Keeps.raise ?_ ?_
    | (simp only [R.CHOP_c_EVENTS_block, R.CHOP_c_OPEN_CFG_block]; (with_reducible refine Within.sub hw ?_); exact rfl)
    | split
    | intro _
    | dsimp only

theorem restRamp_keeps {x0 : Nat} (hw : Within [.motion, .raw] w) (h : Keeps w s t) :
    Keeps w s (restRamp x0 t) := by
  unfold restRamp
  repeat' first
    | with_reducible assumption
    | ((with_reducible refine Within.sub hw ?_); exact rfl)
    | with_reducible refine Keeps.advanceTo ?_ ?_
    | with_reducible refine State.setChop_keeps ?_ ?_
    | split
    | intro _
    | dsimp only

theorem chopCurrentWrite_keeps {x0 : Nat} {x1 : Word} (hw : Within [.motion, .block 15] w) (h : Keeps w s t) :
    Keeps w s (chopCurrentWrite x0 x1 t) := by
  unfold chopCurrentWrite
  repeat' first
    | with_reducible assumption
    | ((with_reducible refine Within.sub hw ?_); exact rfl)
    | with_reducible refine Keeps.setReg ?_ ?_
    | with_reducible refine State.setChop_keeps ?_ ?_
    | (simp only [R.CHOP_c_CURRENT_block]; (with_reducible refine Within.sub hw ?_); exact rfl)
    | split
    | intro _
    | dsimp only

theorem chopCtrlWrite_keeps {x0 : Nat} {x1 : Word} (hw : Within [.evlog, .free, .motion, .txn, .block 0, .block 14, .block 15] w) (h : Keeps w s t) :
    Keeps w s (chopCtrlWrite x0 x1 t) := by
  unfold chopCtrlWrite
  repeat' first
    | with_reducible assumption
    | ((with_reducible refine Within.sub hw ?_); exact rfl)
    | with_reducible refine Keeps.setReg ?_ ?_
    | with_reducible refine chopOff_keeps ?_ ?_
    | with_reducible refine chopOn_keeps ?_ ?_
    | with_reducible refine stopNow_keeps ?_ ?_
    | (simp only [R.CHOP_c_CTRL_block]; (with_reducible refine Within.sub hw ?_); exact rfl)
    | split
    | intro _
    | dsimp only

theorem chopRefused_keeps {x0 : Nat} (hw : Within [.evlog, .block 0, .block 15] w) (h : Keeps w s t) :
    Keeps w s (chopRefused x0 t) := by
  unfold chopRefused
  repeat' first
    | with_reducible assumption
    | ((with_reducible refine Within.sub hw ?_); exact rfl)
    | with_reducible refine Keeps.raise ?_ ?_
    | (simp only [R.CHOP_c_EVENTS_block]; (with_reducible refine Within.sub hw ?_); exact rfl)
    | split
    | intro _
    | dsimp only

theorem chopTimingWrite_keeps {x0 : Nat} {x1 : Word} (hw : Within [.evlog, .block 0, .block 15] w) (h : Keeps w s t) :
    Keeps w s (chopTimingWrite x0 x1 t) := by
  unfold chopTimingWrite
  repeat' first
    | with_reducible assumption
    | ((with_reducible refine Within.sub hw ?_); exact rfl)
    | with_reducible refine Keeps.setReg ?_ ?_
    | with_reducible refine chopRefused_keeps ?_ ?_
    | (simp only [R.CHOP_c_CTRL_block, R.CHOP_c_TIMING_block]; (with_reducible refine Within.sub hw ?_); exact rfl)
    | split
    | intro _
    | dsimp only

theorem chopMstepWrite_keeps {x0 : Nat} {x1 : Word} (hw : Within [.evlog, .block 0, .block 15] w) (h : Keeps w s t) :
    Keeps w s (chopMstepWrite x0 x1 t) := by
  unfold chopMstepWrite
  repeat' first
    | with_reducible assumption
    | ((with_reducible refine Within.sub hw ?_); exact rfl)
    | with_reducible refine Keeps.setReg ?_ ?_
    | with_reducible refine chopRefused_keeps ?_ ?_
    | (simp only [R.CHOP_c_MSTEP_block]; (with_reducible refine Within.sub hw ?_); exact rfl)
    | split
    | intro _
    | dsimp only

theorem chopSineWrite_keeps {x0 : Nat} {x1 : Word} (hw : Within [.evlog, .block 0, .block 15] w) (h : Keeps w s t) :
    Keeps w s (chopSineWrite x0 x1 t) := by
  unfold chopSineWrite
  repeat' first
    | with_reducible assumption
    | ((with_reducible refine Within.sub hw ?_); exact rfl)
    | with_reducible refine Keeps.raise ?_ ?_
    | with_reducible refine Keeps.setReg ?_ ?_
    | (simp only [R.CHOP_SINE_i_block, R.CHOP_c_CTRL_block]; (with_reducible refine Within.sub hw ?_); exact rfl)
    | split
    | intro _
    | dsimp only

theorem chopCfgWrite_keeps {x0 : Nat} {x1 : ChopReg} {x2 : Word} (hw : Within [.evlog, .motion, .block 0, .block 15] w) (h : Keeps w s t) :
    Keeps w s (chopCfgWrite x0 x1 x2 t) := by
  unfold chopCfgWrite
  repeat' first
    | with_reducible assumption
    | ((with_reducible refine Within.sub hw ?_); exact rfl)
    | with_reducible refine chopCurrentWrite_keeps ?_ ?_
    | with_reducible refine chopMstepWrite_keeps ?_ ?_
    | with_reducible refine chopSineWrite_keeps ?_ ?_
    | with_reducible refine chopTimingWrite_keeps ?_ ?_
    | split
    | intro _
    | dsimp only

theorem faultClear_keeps {x0 : Nat} (hw : Within [.motion, .block 14, .block 15] w) (h : Keeps w s t) :
    Keeps w s (faultClear x0 t) := by
  unfold faultClear
  repeat' first
    | with_reducible assumption
    | ((with_reducible refine Within.sub hw ?_); exact rfl)
    | with_reducible refine Keeps.put ?_ ?_
    | with_reducible refine State.setChop_keeps ?_ ?_
    | with_reducible refine chopOn_keeps ?_ ?_
    | with_reducible refine setAxState_keeps ?_ ?_
    | (simp only [R.AXIS_n_STATUS_block, R.CHOP_c_CTRL_block]; (with_reducible refine Within.sub hw ?_); exact rfl)
    | split
    | intro _
    | dsimp only

theorem axisCtrlWrite_keeps {x0 : Nat} {x1 : Word} (hw : Within [.evlog, .free, .motion, .txn, .block 0, .block 14, .block 15] w) (h : Keeps w s t) :
    Keeps w s (axisCtrlWrite x0 x1 t) := by
  unfold axisCtrlWrite
  repeat' first
    | with_reducible assumption
    | ((with_reducible refine Within.sub hw ?_); exact rfl)
    | with_reducible refine Keeps.setReg ?_ ?_
    | with_reducible refine State.setAxis_keeps ?_ ?_
    | with_reducible refine faultClear_keeps ?_ ?_
    | with_reducible refine pulseStop_keeps ?_ ?_
    | with_reducible refine setAxState_keeps ?_ ?_
    | with_reducible refine txAxisFault_keeps ?_ ?_
    | (simp only [R.AXIS_n_CTRL_block]; (with_reducible refine Within.sub hw ?_); exact rfl)
    | split
    | intro _
    | dsimp only

theorem axisPinsWrite_keeps {x0 : Nat} {x1 : Word} (hw : Within [.evlog, .block 0, .block 14, .block 16] w) (h : Keeps w s t) :
    Keeps w s (axisPinsWrite x0 x1 t) := by
  unfold axisPinsWrite
  repeat' first
    | with_reducible assumption
    | ((with_reducible refine Within.sub hw ?_); exact rfl)
    | with_reducible refine Keeps.forAll ?_ ?_
    | with_reducible refine Keeps.put ?_ ?_
    | with_reducible refine Keeps.raise ?_ ?_
    | with_reducible refine Keeps.setReg ?_ ?_
    | (simp only [R.AXIS_n_PINS_block, R.GPIO_i_CFG_block]; (with_reducible refine Within.sub hw ?_); exact rfl)
    | split
    | intro _
    | dsimp only

end Sys2Proof.Machine
end

