-- ==== Sys2Proof/Laws/Keeps/Txn.lean ====
section
/-! SUPPORT. What the operations of Sys2Proof/Machine/Txn.lean leave unchanged. -/

set_option linter.all false
set_option Elab.async false

namespace Sys2Proof.Machine

variable {w : List Piece} {s t : State}

theorem txResult_keeps {x0 : Nat} (hw : Within [.evlog, .block 0, .block 8] w) (h : Keeps w s t) :
    Keeps w s (txResult x0 t) := by
  unfold txResult
  repeat' first
    | with_reducible assumption
    | ((with_reducible refine Within.sub hw ?_); exact rfl)
    | with_reducible refine Keeps.put ?_ ?_
    | with_reducible refine Keeps.raiseIf ?_ ?_
    | split
    | intro _
    | dsimp only

theorem txHostOpen_keeps (hw : Within [.evlog, .txn, .block 0, .block 8] w) (h : Keeps w s t) :
    Keeps w s (txHostOpen t) := by
  unfold txHostOpen
  repeat' first
    | with_reducible assumption
    | ((with_reducible refine Within.sub hw ?_); exact rfl)
    | with_reducible refine Keeps.put ?_ ?_
    | with_reducible refine txResult_keeps ?_ ?_
    | with_reducible refine txTake_keeps ?_ ?_
    | with_reducible refine txTake_keeps_eq (by assumption) ?_ ?_
    | split
    | intro _
    | dsimp only

theorem txHostAdd_keeps (hw : Within [.evlog, .txn, .block 0, .block 8] w) (h : Keeps w s t) :
    Keeps w s (txHostAdd t) := by
  unfold txHostAdd
  repeat' first
    | with_reducible assumption
    | ((with_reducible refine Within.sub hw ?_); exact rfl)
    | with_reducible refine State.setTx_keeps ?_ ?_
    | with_reducible refine txAdd_keeps ?_ ?_
    | with_reducible refine txResult_keeps ?_ ?_
    | split
    | intro _
    | dsimp only

theorem txHostSeal_keeps (hw : Within [.evlog, .free, .txn, .block 0, .block 8] w) (h : Keeps w s t) :
    Keeps w s (txHostSeal t) := by
  unfold txHostSeal
  repeat' first
    | with_reducible assumption
    | ((with_reducible refine Within.sub hw ?_); exact rfl)
    | with_reducible refine txResult_keeps ?_ ?_
    | with_reducible refine txSeal_keeps ?_ ?_
    | split
    | intro _
    | dsimp only

theorem txHostDrop_keeps (hw : Within [.evlog, .free, .txn, .block 0, .block 8] w) (h : Keeps w s t) :
    Keeps w s (txHostDrop t) := by
  unfold txHostDrop
  repeat' first
    | with_reducible assumption
    | ((with_reducible refine Within.sub hw ?_); exact rfl)
    | with_reducible refine txDrop_keeps ?_ ?_
    | with_reducible refine txResult_keeps ?_ ?_
    | split
    | intro _
    | dsimp only

theorem txnCmdWrite_keeps {x0 : Word} (hw : Within [.evlog, .free, .txn, .block 0, .block 8] w) (h : Keeps w s t) :
    Keeps w s (txnCmdWrite x0 t) := by
  unfold txnCmdWrite
  repeat' first
    | with_reducible assumption
    | ((with_reducible refine Within.sub hw ?_); exact rfl)
    | with_reducible refine txHostAdd_keeps ?_ ?_
    | with_reducible refine txHostDrop_keeps ?_ ?_
    | with_reducible refine txHostOpen_keeps ?_ ?_
    | with_reducible refine txHostSeal_keeps ?_ ?_
    | split
    | intro _
    | dsimp only

theorem localStagingDone_keeps {x0 : Nat} (hw : Within [.raw, .txn] w) (h : Keeps w s t) :
    Keeps w s (localStagingDone x0 t) := by
  unfold localStagingDone
  repeat' first
    | with_reducible assumption
    | ((with_reducible refine Within.sub hw ?_); exact rfl)
    | with_reducible refine Keeps.advanceTo ?_ ?_
    | with_reducible refine Keeps.forAll ?_ ?_
    | with_reducible refine State.setTx_keeps ?_ ?_
    | with_reducible refine txVote_keeps ?_ ?_
    | split
    | intro _
    | dsimp only

theorem peerVote_keeps {x0 : Nat} {x1 : Nat} {x2 : Bool} {x3 : Nat} (hw : Within [.txn] w) (h : Keeps w s t) :
    Keeps w s (peerVote x0 x1 x2 x3 t) := by
  unfold peerVote
  repeat' first
    | with_reducible assumption
    | ((with_reducible refine Within.sub hw ?_); exact rfl)
    | with_reducible refine txVote_keeps ?_ ?_
    | split
    | intro _
    | dsimp only

theorem decide1_keeps {x0 : Nat} {x1 : Quad} (hw : Within [.evlog, .free, .txn, .block 0, .block 8] w) (h : Keeps w s t) :
    Keeps w s (decide1 x0 x1 t) := by
  unfold decide1
  repeat' first
    | with_reducible assumption
    | ((with_reducible refine Within.sub hw ?_); exact rfl)
    | with_reducible refine State.setTx_keeps ?_ ?_
    | with_reducible refine txAbort_keeps ?_ ?_
    | with_reducible refine txFreeIfDropped_keeps ?_ ?_
    | with_reducible refine txRepeat_keeps ?_ ?_
    | split
    | intro _
    | dsimp only
    | with_reducible refine Keeps.set_txn ?_ ?_

theorem txDecision_keeps (hw : Within [.evlog, .free, .joa, .raw, .txn, .block 0, .block 8] w) (h : Keeps w s t) :
    Keeps w s (txDecision t) := by
  unfold txDecision
  repeat' first
    | with_reducible assumption
    | ((with_reducible refine Within.sub hw ?_); exact rfl)
    | with_reducible refine Keeps.advanceToV ?_ ?_
    | with_reducible refine Keeps.forAll ?_ ?_
    | with_reducible refine decide1_keeps ?_ ?_
    | with_reducible refine joaGroups_keeps ?_ ?_
    | with_reducible refine txLost_keeps ?_ ?_
    | split
    | intro _
    | dsimp only

theorem txBroadcast_keeps (hw : Within [.field, .raw, .txn] w) (h : Keeps w s t) :
    Keeps w s (txBroadcast t) := by
  unfold txBroadcast
  repeat' first
    | with_reducible assumption
    | ((with_reducible refine Within.sub hw ?_); exact rfl)
    | with_reducible refine Keeps.advanceToV ?_ ?_
    | with_reducible refine Keeps.forAll ?_ ?_
    | with_reducible refine noteUnreached_keeps ?_ ?_
    | with_reducible refine sendDecision_keeps ?_ ?_
    | split
    | intro _
    | dsimp only
    | with_reducible refine Keeps.set_txn ?_ ?_

theorem txActionApply_keeps {x0 : TxAction} (hw : Within [.collie, .motion, .txn] w) (h : Keeps w s t) :
    Keeps w s (txActionApply x0 t) := by
  unfold txActionApply
  repeat' first
    | with_reducible assumption
    | ((with_reducible refine Within.sub hw ?_); exact rfl)
    | with_reducible refine State.varPoke_keeps ?_ ?_
    | with_reducible refine axisQueue_keeps ?_ ?_
    | split
    | intro _
    | dsimp only

theorem txApply1_keeps {x0 : Nat} {x1 : TxAction → Bool} (hw : Within [.collie, .motion, .txn, .block 8] w) (h : Keeps w s t) :
    Keeps w s (txApply1 x0 x1 t) := by
  unfold txApply1
  repeat' first
    | with_reducible assumption
    | ((with_reducible refine Within.sub hw ?_); exact rfl)
    | with_reducible refine Keeps.forAll ?_ ?_
    | with_reducible refine State.modTx_keeps ?_ ?_
    | with_reducible refine noteDoubt_keeps ?_ ?_
    | with_reducible refine txActionApply_keeps ?_ ?_
    | with_reducible refine txFinish_keeps ?_ ?_
    | split
    | intro _
    | dsimp only

theorem txApply_keeps {x0 : TxAction → Bool} (hw : Within [.collie, .motion, .txn, .block 8] w) (h : Keeps w s t) :
    Keeps w s (txApply x0 t) := by
  unfold txApply
  repeat' first
    | with_reducible assumption
    | ((with_reducible refine Within.sub hw ?_); exact rfl)
    | with_reducible refine Keeps.forAll ?_ ?_
    | with_reducible refine txApply1_keeps ?_ ?_
    | split
    | intro _
    | dsimp only

theorem deferredWrites_keeps (hw : Within [.collie, .txn] w) (h : Keeps w s t) :
    Keeps w s (deferredWrites t) := by
  unfold deferredWrites
  repeat' first
    | with_reducible assumption
    | ((with_reducible refine Within.sub hw ?_); exact rfl)
    | with_reducible refine Keeps.forAll ?_ ?_
    | with_reducible refine applyDeferred_keeps ?_ ?_
    | split
    | intro _
    | dsimp only

theorem doubtOver_keeps {x0 : Nat} {x1 : Nat} (hw : Within [.txn] w) (h : Keeps w s t) :
    Keeps w s (doubtOver x0 x1 t) := by
  unfold doubtOver
  repeat' first
    | with_reducible assumption
    | ((with_reducible refine Within.sub hw ?_); exact rfl)
    | split
    | intro _
    | dsimp only
    | with_reducible refine Keeps.set_txn ?_ ?_

theorem doubtAsked_keeps {x0 : Nat} {x1 : Nat} (hw : Within [.txn] w) (h : Keeps w s t) :
    Keeps w s (doubtAsked x0 x1 t) := by
  unfold doubtAsked
  repeat' first
    | with_reducible assumption
    | ((with_reducible refine Within.sub hw ?_); exact rfl)
    | split
    | intro _
    | dsimp only
    | with_reducible refine Keeps.set_txn ?_ ?_

theorem peerReceipt_keeps {x0 : Nat} {x1 : Nat} {x2 : PeerAnswer} (hw : Within [.evlog, .txn, .block 0, .block 8] w) (h : Keeps w s t) :
    Keeps w s (peerReceipt x0 x1 x2 t) := by
  unfold peerReceipt
  repeat' first
    | with_reducible assumption
    | ((with_reducible refine Within.sub hw ?_); exact rfl)
    | with_reducible refine doubtOver_keeps ?_ ?_
    | with_reducible refine modPart_keeps ?_ ?_
    | with_reducible refine partLate_keeps ?_ ?_
    | with_reducible refine partUnsettled_keeps ?_ ?_
    | with_reducible refine txFinish_keeps ?_ ?_
    | split
    | intro _
    | dsimp only

end Sys2Proof.Machine
end

