-- ==== Sys2Proof/Laws/Keeps/Control.lean ====
section
/-! SUPPORT. What the operations of Sys2Proof/Machine/Control.lean leave unchanged. -/

set_option linter.all false
set_option Elab.async false

namespace Sys2Proof.Machine

variable {w : List Piece} {s t : State}

theorem forceRefused_keeps (hw : Within [.evlog, .block 0, .block 7] w) (h : Keeps w s t) :
    Keeps w s (forceRefused t) := by
  unfold forceRefused
  repeat' first
    | with_reducible assumption
    | ((with_reducible refine Within.sub hw ?_); exact rfl)
    | with_reducible refine Keeps.raise ?_ ?_
    | split
    | intro _
    | dsimp only

theorem forceCtrlEntryWrite_keeps {x0 : Nat} {x1 : Word} (hw : Within [.evlog, .block 0, .block 7] w) (h : Keeps w s t) :
    Keeps w s (forceCtrlEntryWrite x0 x1 t) := by
  unfold forceCtrlEntryWrite
  repeat' first
    | with_reducible assumption
    | ((with_reducible refine Within.sub hw ?_); exact rfl)
    | with_reducible refine Keeps.setReg ?_ ?_
    | with_reducible refine forceRefused_keeps ?_ ?_
    | (simp only [R.FORCE_e_CTRL_block, R.FORCE_e_POINT_block]; (with_reducible refine Within.sub hw ?_); exact rfl)
    | split
    | intro _
    | dsimp only

theorem forcePointWrite_keeps {x0 : Nat} {x1 : Word} (hw : Within [.evlog, .block 0, .block 7] w) (h : Keeps w s t) :
    Keeps w s (forcePointWrite x0 x1 t) := by
  unfold forcePointWrite
  repeat' first
    | with_reducible assumption
    | ((with_reducible refine Within.sub hw ?_); exact rfl)
    | with_reducible refine Keeps.setReg ?_ ?_
    | with_reducible refine forceRefused_keeps ?_ ?_
    | (simp only [R.FORCE_e_CTRL_block, R.FORCE_e_POINT_block]; (with_reducible refine Within.sub hw ?_); exact rfl)
    | split
    | intro _
    | dsimp only

theorem forcesOff_keeps (hw : Within [.block 7] w) (h : Keeps w s t) :
    Keeps w s (forcesOff t) := by
  unfold forcesOff
  repeat' first
    | with_reducible assumption
    | ((with_reducible refine Within.sub hw ?_); exact rfl)
    | with_reducible refine Keeps.forAll ?_ ?_
    | with_reducible refine Keeps.put ?_ ?_
    | (simp only [R.FORCE_e_CTRL_block]; (with_reducible refine Within.sub hw ?_); exact rfl)
    | split
    | intro _
    | dsimp only

theorem forceCtrlWrite_keeps {x0 : Word} (hw : Within [.exec, .block 7] w) (h : Keeps w s t) :
    Keeps w s (forceCtrlWrite x0 t) := by
  unfold forceCtrlWrite
  repeat' first
    | with_reducible assumption
    | ((with_reducible refine Within.sub hw ?_); exact rfl)
    | with_reducible refine Keeps.setReg ?_ ?_
    | split
    | intro _
    | dsimp only
    | with_reducible refine Keeps.set_exec ?_ ?_

theorem forceHeadland_keeps (hw : Within [.exec, .block 7] w) (h : Keeps w s t) :
    Keeps w s (forceHeadland t) := by
  unfold forceHeadland
  repeat' first
    | with_reducible assumption
    | ((with_reducible refine Within.sub hw ?_); exact rfl)
    | with_reducible refine forcesOff_keeps ?_ ?_
    | split
    | intro _
    | dsimp only
    | with_reducible refine Keeps.set_exec ?_ ?_

theorem stageOne_keeps (hw : Within [.img] w) (h : Keeps w s t) :
    Keeps w s (stageOne t) := by
  unfold stageOne
  repeat' first
    | with_reducible assumption
    | ((with_reducible refine Within.sub hw ?_); exact rfl)
    | with_reducible refine Keeps.forAll ?_ ?_
    | split
    | intro _
    | dsimp only
    | with_reducible refine Keeps.set_img ?_ ?_

theorem formLive_keeps (hw : Within [.img] w) (h : Keeps w s t) :
    Keeps w s (formLive t) := by
  unfold formLive
  repeat' first
    | with_reducible assumption
    | ((with_reducible refine Within.sub hw ?_); exact rfl)
    | with_reducible refine stageOne_keeps ?_ ?_
    | split
    | intro _
    | dsimp only
    | with_reducible refine Keeps.set_img ?_ ?_

theorem shadowsLive_keeps (hw : Within [.img] w) (h : Keeps w s t) :
    Keeps w s (shadowsLive t) := by
  unfold shadowsLive
  repeat' first
    | with_reducible assumption
    | ((with_reducible refine Within.sub hw ?_); exact rfl)
    | with_reducible refine Keeps.foldl ?_ ?_
    | split
    | intro _
    | dsimp only
    | with_reducible refine Keeps.set_img ?_ ?_

theorem dacClamp_keeps (hw : Within [.evlog, .img, .block 0, .block 11] w) (h : Keeps w s t) :
    Keeps w s (dacClamp t) := by
  unfold dacClamp
  repeat' first
    | with_reducible assumption
    | ((with_reducible refine Within.sub hw ?_); exact rfl)
    | with_reducible refine Keeps.forAll ?_ ?_
    | with_reducible refine Keeps.incSat ?_ ?_
    | with_reducible refine Keeps.raise ?_ ?_
    | split
    | intro _
    | dsimp only
    | with_reducible refine Keeps.set_img ?_ ?_

theorem safeImage_keeps (hw : Within [.evlog, .head, .img, .block 0, .block 11] w) (h : Keeps w s t) :
    Keeps w s (safeImage t) := by
  unfold safeImage
  repeat' first
    | with_reducible assumption
    | ((with_reducible refine Within.sub hw ?_); exact rfl)
    | with_reducible refine Keeps.foldl ?_ ?_
    | with_reducible refine dacClamp_keeps ?_ ?_
    | split
    | intro _
    | dsimp only
    | with_reducible refine Keeps.set_head_img ?_ ?_

theorem controllerStop_keeps {x0 : Nat} (hw : Within [.collie, .evlog, .exec, .free, .head, .img, .motion, .txn, .block 0, .block 4, .block 5, .block 6, .block 7, .block 8, .block 11, .block 14, .block 23] w) (h : Keeps w s t) :
    Keeps w s (controllerStop x0 t) := by
  unfold controllerStop
  repeat' first
    | with_reducible assumption
    | ((with_reducible refine Within.sub hw ?_); exact rfl)
    | with_reducible refine Keeps.addSat ?_ ?_
    | with_reducible refine Keeps.put ?_ ?_
    | with_reducible refine Keeps.raiseNamed ?_ ?_
    | with_reducible refine axesStop_keeps ?_ ?_
    | with_reducible refine collieFlush_keeps ?_ ?_
    | with_reducible refine deferredWrites_keeps ?_ ?_
    | with_reducible refine forcesOff_keeps ?_ ?_
    | with_reducible refine haltRuns_keeps ?_ ?_
    | with_reducible refine safeImage_keeps ?_ ?_
    | with_reducible refine txStop_keeps ?_ ?_
    | split
    | intro _
    | dsimp only
    | with_reducible refine Keeps.set_exec ?_ ?_

theorem cmdRefused_keeps (hw : Within [.evlog, .block 0, .block 6] w) (h : Keeps w s t) :
    Keeps w s (cmdRefused t) := by
  unfold cmdRefused
  repeat' first
    | with_reducible assumption
    | ((with_reducible refine Within.sub hw ?_); exact rfl)
    | with_reducible refine Keeps.raise ?_ ?_
    | split
    | intro _
    | dsimp only

theorem pendCommand_keeps {x0 : Nat} (hw : Within [.exec, .block 6] w) (h : Keeps w s t) :
    Keeps w s (pendCommand x0 t) := by
  unfold pendCommand
  repeat' first
    | with_reducible assumption
    | ((with_reducible refine Within.sub hw ?_); exact rfl)
    | with_reducible refine Keeps.put ?_ ?_
    | split
    | intro _
    | dsimp only
    | with_reducible refine Keeps.set_exec ?_ ?_

theorem zeroRetained_keeps (hw : Within [.collie] w) (h : Keeps w s t) :
    Keeps w s (zeroRetained t) := by
  unfold zeroRetained
  repeat' first
    | with_reducible assumption
    | ((with_reducible refine Within.sub hw ?_); exact rfl)
    | split
    | intro _
    | dsimp only
    | with_reducible refine Keeps.set_collie ?_ ?_

theorem restorePersisted_keeps (hw : Within [.collie, .evlog, .gran, .txn, .block 0] w) (h : Keeps w s t) :
    Keeps w s (restorePersisted t) := by
  unfold restorePersisted
  repeat' first
    | with_reducible assumption
    | ((with_reducible refine Within.sub hw ?_); exact rfl)
    | with_reducible refine Keeps.forAll ?_ ?_
    | with_reducible refine Keeps.raise ?_ ?_
    | with_reducible refine State.varPoke_keeps ?_ ?_
    | with_reducible refine dropPersisted_keeps ?_ ?_
    | split
    | intro _
    | dsimp only

theorem runCommand_keeps {x0 : Nat} (hw : Within [.collie, .evlog, .exec, .gran, .txn, .block 0, .block 6] w) (h : Keeps w s t) :
    Keeps w s (runCommand x0 t) := by
  unfold runCommand
  repeat' first
    | with_reducible assumption
    | ((with_reducible refine Within.sub hw ?_); exact rfl)
    | with_reducible refine cmdRefused_keeps ?_ ?_
    | with_reducible refine pendCommand_keeps ?_ ?_
    | with_reducible refine restorePersisted_keeps ?_ ?_
    | with_reducible refine zeroRetained_keeps ?_ ?_
    | split
    | intro _
    | dsimp only

theorem stopCommand_keeps (hw : Within [.collie, .evlog, .exec, .free, .head, .img, .motion, .txn, .block 0, .block 4, .block 5, .block 6, .block 7, .block 8, .block 11, .block 14, .block 23] w) (h : Keeps w s t) :
    Keeps w s (stopCommand t) := by
  unfold stopCommand
  repeat' first
    | with_reducible assumption
    | ((with_reducible refine Within.sub hw ?_); exact rfl)
    | with_reducible refine cmdRefused_keeps ?_ ?_
    | with_reducible refine controllerStop_keeps ?_ ?_
    | split
    | intro _
    | dsimp only

theorem checkpointCommand_keeps (hw : Within [.evlog, .exec, .block 0, .block 6] w) (h : Keeps w s t) :
    Keeps w s (checkpointCommand t) := by
  unfold checkpointCommand
  repeat' first
    | with_reducible assumption
    | ((with_reducible refine Within.sub hw ?_); exact rfl)
    | with_reducible refine cmdRefused_keeps ?_ ?_
    | split
    | intro _
    | dsimp only
    | with_reducible refine Keeps.set_exec ?_ ?_

theorem setSysAll_keeps {x0 : Nat} (hw : Within [.collie] w) (h : Keeps w s t) :
    Keeps w s (setSysAll x0 t) := by
  unfold setSysAll
  repeat' first
    | with_reducible assumption
    | ((with_reducible refine Within.sub hw ?_); exact rfl)
    | with_reducible refine Keeps.forAll ?_ ?_
    | with_reducible refine State.setTask_keeps ?_ ?_
    | split
    | intro _
    | dsimp only

theorem commandTakesEffect_keeps (hw : Within [.collie, .exec, .img, .block 6, .block 14] w) (h : Keeps w s t) :
    Keeps w s (commandTakesEffect t) := by
  unfold commandTakesEffect
  repeat' first
    | with_reducible assumption
    | ((with_reducible refine Within.sub hw ?_); exact rfl)
    | with_reducible refine Keeps.put ?_ ?_
    | with_reducible refine axesRelease_keeps ?_ ?_
    | with_reducible refine setSysAll_keeps ?_ ?_
    | with_reducible refine shadowsLive_keeps ?_ ?_
    | split
    | intro _
    | dsimp only
    | with_reducible refine Keeps.set_exec ?_ ?_

theorem overrun_keeps {x0 : Nat} (hw : Within [.collie, .evlog, .exec, .free, .head, .img, .motion, .raw, .txn, .block 0, .block 4, .block 5, .block 6, .block 7, .block 8, .block 11, .block 14, .block 23] w) (h : Keeps w s t) :
    Keeps w s (overrun x0 t) := by
  unfold overrun
  repeat' first
    | with_reducible assumption
    | ((with_reducible refine Within.sub hw ?_); exact rfl)
    | with_reducible refine Keeps.advanceTo ?_ ?_
    | with_reducible refine Keeps.incSat ?_ ?_
    | with_reducible refine Keeps.put ?_ ?_
    | with_reducible refine Keeps.raise ?_ ?_
    | with_reducible refine Keeps.setReg ?_ ?_
    | with_reducible refine Keeps.setReg64 ?_ ?_
    | with_reducible refine controllerStop_keeps ?_ ?_
    | split
    | intro _
    | dsimp only

theorem taskCtrlWrite_keeps {x0 : Nat} {x1 : Word} (hw : Within [.block 6] w) (h : Keeps w s t) :
    Keeps w s (taskCtrlWrite x0 x1 t) := by
  unfold taskCtrlWrite
  repeat' first
    | with_reducible assumption
    | ((with_reducible refine Within.sub hw ?_); exact rfl)
    | with_reducible refine Keeps.put ?_ ?_
    | (simp only [R.EXEC_t_TASK_CTRL_block]; (with_reducible refine Within.sub hw ?_); exact rfl)
    | split
    | intro _
    | dsimp only

theorem taskFault_keeps {x0 : Nat} {x1 : Nat} (hw : Within [.collie, .evlog, .exec, .free, .head, .img, .motion, .txn, .block 0, .block 4, .block 5, .block 6, .block 7, .block 8, .block 11, .block 14, .block 23] w) (h : Keeps w s t) :
    Keeps w s (taskFault x0 x1 t).2 := by
  unfold taskFault
  repeat' first
    | with_reducible assumption
    | ((with_reducible refine Within.sub hw ?_); exact rfl)
    | with_reducible refine Keeps.incSat ?_ ?_
    | with_reducible refine Keeps.raise ?_ ?_
    | with_reducible refine Keeps.raiseNamed ?_ ?_
    | with_reducible refine Keeps.setReg ?_ ?_
    | with_reducible refine State.setRun_keeps ?_ ?_
    | with_reducible refine controllerStop_keeps ?_ ?_
    | with_reducible refine deferredWrites_keeps ?_ ?_
    | with_reducible refine stopTask_keeps ?_ ?_
    | (simp only [R.EXEC_t_FAULT_CNT_block, R.EXEC_t_TASK_CTRL_block]; (with_reducible refine Within.sub hw ?_); exact rfl)
    | split
    | intro _
    | dsimp only

theorem taskFault_keeps_eq {x0 : Nat} {x1 : Nat} {y0} {u : State} (e : taskFault x0 x1 t = (y0, u)) (hw : Within [.collie, .evlog, .exec, .free, .head, .img, .motion, .txn, .block 0, .block 4, .block 5, .block 6, .block 7, .block 8, .block 11, .block 14, .block 23] w) (h : Keeps w s t) : Keeps w s u := by
  have := taskFault_keeps hw h (x0 := x0) (x1 := x1)
  rw [e] at this; exact this

theorem ctrlCmdWrite_keeps {x0 : Nat → State → State} {x1 : Word} (hx0 : ∀ y0 u, Keeps w s u → Keeps w s (x0 y0 u)) (hw : Within [.collie, .evlog, .exec, .free, .gran, .head, .img, .motion, .txn, .block 0, .block 4, .block 5, .block 6, .block 7, .block 8, .block 11, .block 14, .block 23] w) (h : Keeps w s t) :
    Keeps w s (ctrlCmdWrite x0 x1 t) := by
  unfold ctrlCmdWrite
  repeat' first
    | with_reducible assumption
    | ((with_reducible refine Within.sub hw ?_); exact rfl)
    | with_reducible refine checkpointCommand_keeps ?_ ?_
    | with_reducible refine cmdRefused_keeps ?_ ?_
    | with_reducible refine runCommand_keeps ?_ ?_
    | with_reducible refine stopCommand_keeps ?_ ?_
    | with_reducible refine hx0 _ _ ?_
    | split
    | intro _
    | dsimp only

end Sys2Proof.Machine
end

