-- ==== Sys2Proof/Laws/Keeps/Mem.lean ====
section
/-! SUPPORT. What the operations of Sys2Proof/Machine/Mem.lean leave unchanged. -/

set_option linter.all false
set_option Elab.async false

namespace Sys2Proof.Machine

variable {w : List Piece} {s t : State}

theorem State.memWrite_keeps {x1 : Nat} {x2 : List Byte} (hw : Within [.mem] w) (h : Keeps w s t) :
    Keeps w s (State.memWrite t x1 x2) := by
  unfold State.memWrite
  repeat' first
    | with_reducible assumption
    | ((with_reducible refine Within.sub hw ?_); exact rfl)
    | split
    | intro _
    | dsimp only
    | with_reducible refine Keeps.set_mem ?_ ?_

theorem captWrite_keeps {x0 : Nat} {x1 : List Byte} (hw : Within [.evlog, .mem, .block 0, .block 24] w) (h : Keeps w s t) :
    Keeps w s (captWrite x0 x1 t) := by
  unfold captWrite
  repeat' first
    | with_reducible assumption
    | ((with_reducible refine Within.sub hw ?_); exact rfl)
    | with_reducible refine State.memWrite_keeps ?_ ?_
    | with_reducible refine violation_keeps ?_ ?_
    | (simp only [R.MEM_k_OWNER_block]; (with_reducible refine Within.sub hw ?_); exact rfl)
    | split
    | intro _
    | dsimp only

end Sys2Proof.Machine
end

