-- ==== Sys2Proof/Laws/Keeps/Capture.lean ====
section
/-! SUPPORT. What the operations of Sys2Proof/Machine/Capture.lean leave unchanged. -/

set_option linter.all false
set_option Elab.async false

namespace Sys2Proof.Machine

variable {w : List Piece} {s t : State}

theorem State.setCapt_keeps {x1 : Nat} {x2 : CaptChan} (hw : Within [.capture] w) (h : Keeps w s t) :
    Keeps w s (State.setCapt t x1 x2) := by
  unfold State.setCapt
  repeat' first
    | with_reducible assumption
    | ((with_reducible refine Within.sub hw ?_); exact rfl)
    | split
    | intro _
    | dsimp only
    | with_reducible refine Keeps.set_capture ?_ ?_

theorem State.modCapt_keeps {x1 : Nat} {x2 : CaptChan → CaptChan} (hw : Within [.capture] w) (h : Keeps w s t) :
    Keeps w s (State.modCapt t x1 x2) := by
  unfold State.modCapt
  repeat' first
    | with_reducible assumption
    | ((with_reducible refine Within.sub hw ?_); exact rfl)
    | with_reducible refine State.setCapt_keeps ?_ ?_
    | split
    | intro _
    | dsimp only

theorem setSegState_keeps {x0 : Nat} {x1 : Nat} (hw : Within [.block 12] w) (h : Keeps w s t) :
    Keeps w s (setSegState x0 x1 t) := by
  unfold setSegState
  repeat' first
    | with_reducible assumption
    | ((with_reducible refine Within.sub hw ?_); exact rfl)
    | with_reducible refine Keeps.put ?_ ?_
    | (simp only [R.CAPT_d_SEG_block]; (with_reducible refine Within.sub hw ?_); exact rfl)
    | split
    | intro _
    | dsimp only

theorem captRefused_keeps (hw : Within [.evlog, .block 0, .block 12] w) (h : Keeps w s t) :
    Keeps w s (captRefused t) := by
  unfold captRefused
  repeat' first
    | with_reducible assumption
    | ((with_reducible refine Within.sub hw ?_); exact rfl)
    | with_reducible refine Keeps.raise ?_ ?_
    | split
    | intro _
    | dsimp only

theorem ovfKick_keeps (hw : Within [.capture, .evlog, .block 0, .block 12] w) (h : Keeps w s t) :
    Keeps w s (ovfKick t) := by
  unfold ovfKick
  repeat' first
    | with_reducible assumption
    | ((with_reducible refine Within.sub hw ?_); exact rfl)
    | with_reducible refine Keeps.put ?_ ?_
    | with_reducible refine Keeps.raise ?_ ?_
    | with_reducible refine setSegState_keeps ?_ ?_
    | (simp only [R.CAPT_n_CTRL_block]; (with_reducible refine Within.sub hw ?_); exact rfl)
    | split
    | intro _
    | dsimp only
    | with_reducible refine Keeps.set_capture ?_ ?_

theorem ovfCopy_keeps {x0 : Bool} (hw : Within [.capture, .evlog, .mem, .block 0, .block 12] w) (h : Keeps w s t) :
    Keeps w s (ovfCopy x0 t) := by
  unfold ovfCopy
  repeat' first
    | with_reducible assumption
    | ((with_reducible refine Within.sub hw ?_); exact rfl)
    | with_reducible refine Keeps.incSat ?_ ?_
    | with_reducible refine State.memWrite_keeps ?_ ?_
    | with_reducible refine Keeps.put ?_ ?_
    | with_reducible refine Keeps.raise ?_ ?_
    | with_reducible refine Keeps.setReg ?_ ?_
    | with_reducible refine ovfKick_keeps ?_ ?_
    | with_reducible refine setSegState_keeps ?_ ?_
    | split
    | intro _
    | dsimp only
    | with_reducible refine Keeps.set_capture ?_ ?_

theorem ovfTailWrite_keeps {x0 : Word} (hw : Within [.capture, .evlog, .block 0, .block 12] w) (h : Keeps w s t) :
    Keeps w s (ovfTailWrite x0 t) := by
  unfold ovfTailWrite
  repeat' first
    | with_reducible assumption
    | ((with_reducible refine Within.sub hw ?_); exact rfl)
    | with_reducible refine Keeps.setReg ?_ ?_
    | with_reducible refine captRefused_keeps ?_ ?_
    | with_reducible refine ovfKick_keeps ?_ ?_
    | split
    | intro _
    | dsimp only

theorem captRelease_keeps {x0 : Nat} (hw : Within [.capture, .evlog, .block 0, .block 12] w) (h : Keeps w s t) :
    Keeps w s (captRelease x0 t) := by
  unfold captRelease
  repeat' first
    | with_reducible assumption
    | ((with_reducible refine Within.sub hw ?_); exact rfl)
    | with_reducible refine captRefused_keeps ?_ ?_
    | with_reducible refine ovfKick_keeps ?_ ?_
    | with_reducible refine setSegState_keeps ?_ ?_
    | split
    | intro _
    | dsimp only
    | with_reducible refine Keeps.set_capture ?_ ?_

theorem captPostEvt_keeps {x0 : Nat} {x1 : Fld} {x2 : Nat} (hw : Within [.collie] w) (h : Keeps w s t) :
    Keeps w s (captPostEvt x0 x1 x2 t) := by
  unfold captPostEvt
  repeat' first
    | with_reducible assumption
    | ((with_reducible refine Within.sub hw ?_); exact rfl)
    | with_reducible refine hwPost_keeps ?_ ?_
    | (simp only [R.CAPT_n_EVT_block, R.CAPT_n_SEQ_block]; (with_reducible refine Within.sub hw ?_); exact rfl)
    | split
    | intro _
    | dsimp only

theorem captIdle_keeps {x0 : Nat} (hw : Within [.capture] w) (h : Keeps w s t) :
    Keeps w s (captIdle x0 t) := by
  unfold captIdle
  repeat' first
    | with_reducible assumption
    | ((with_reducible refine Within.sub hw ?_); exact rfl)
    | with_reducible refine State.modCapt_keeps ?_ ?_
    | split
    | intro _
    | dsimp only

theorem segEnd_keeps {x0 : Nat} {x1 : Nat} (hw : Within [.capture, .collie, .evlog, .mem, .block 0, .block 12, .block 24] w) (h : Keeps w s t) :
    Keeps w s (segEnd x0 x1 t) := by
  unfold segEnd
  repeat' first
    | with_reducible assumption
    | ((with_reducible refine Within.sub hw ?_); exact rfl)
    | with_reducible refine Keeps.incWrap ?_ ?_
    | with_reducible refine Keeps.raise ?_ ?_
    | with_reducible refine Keeps.setReg ?_ ?_
    | with_reducible refine State.modCapt_keeps ?_ ?_
    | with_reducible refine captIdle_keeps ?_ ?_
    | with_reducible refine captPostEvt_keeps ?_ ?_
    | with_reducible refine captWrite_keeps ?_ ?_
    | with_reducible refine ovfKick_keeps ?_ ?_
    | with_reducible refine setSegState_keeps ?_ ?_
    | (simp only [R.CAPT_d_SEG_SEQ_block, R.CAPT_n_SEQ_block]; (with_reducible refine Within.sub hw ?_); exact rfl)
    | split
    | intro _
    | dsimp only
    | with_reducible refine Keeps.set_capture ?_ ?_

theorem recordAt_keeps {x0 : Nat} {x1 : Nat} {x2 : Quad} (hw : Within [.evlog, .mem, .block 0, .block 24] w) (h : Keeps w s t) :
    Keeps w s (recordAt x0 x1 x2 t) := by
  unfold recordAt
  repeat' first
    | with_reducible assumption
    | ((with_reducible refine Within.sub hw ?_); exact rfl)
    | with_reducible refine captWrite_keeps ?_ ?_
    | split
    | intro _
    | dsimp only

theorem preRecord_keeps {x0 : Nat} {x1 : Quad} (hw : Within [.capture, .evlog, .mem, .block 0, .block 24] w) (h : Keeps w s t) :
    Keeps w s (preRecord x0 x1 t) := by
  unfold preRecord
  repeat' first
    | with_reducible assumption
    | ((with_reducible refine Within.sub hw ?_); exact rfl)
    | with_reducible refine State.setCapt_keeps ?_ ?_
    | with_reducible refine recordAt_keeps ?_ ?_
    | split
    | intro _
    | dsimp only

theorem preUndo_keeps {x0 : Nat} (hw : Within [.capture, .evlog, .mem, .block 0, .block 24] w) (h : Keeps w s t) :
    Keeps w s (preUndo x0 t) := by
  unfold preUndo
  repeat' first
    | with_reducible assumption
    | ((with_reducible refine Within.sub hw ?_); exact rfl)
    | with_reducible refine State.setCapt_keeps ?_ ?_
    | with_reducible refine recordAt_keeps ?_ ?_
    | split
    | intro _
    | dsimp only

theorem postRecord_keeps {x0 : Nat} {x1 : Quad} (hw : Within [.capture, .collie, .evlog, .mem, .block 0, .block 12, .block 24] w) (h : Keeps w s t) :
    Keeps w s (postRecord x0 x1 t) := by
  unfold postRecord
  repeat' first
    | with_reducible assumption
    | ((with_reducible refine Within.sub hw ?_); exact rfl)
    | with_reducible refine State.setCapt_keeps ?_ ?_
    | with_reducible refine recordAt_keeps ?_ ?_
    | with_reducible refine segEnd_keeps ?_ ?_
    | split
    | intro _
    | dsimp only

theorem captMissed_keeps {x0 : Nat} {x1 : Quad} (hw : Within [.capture, .evlog, .block 0, .block 12] w) (h : Keeps w s t) :
    Keeps w s (captMissed x0 x1 t) := by
  unfold captMissed
  repeat' first
    | with_reducible assumption
    | ((with_reducible refine Within.sub hw ?_); exact rfl)
    | with_reducible refine Keeps.incSat ?_ ?_
    | with_reducible refine Keeps.raise ?_ ?_
    | with_reducible refine State.setCapt_keeps ?_ ?_
    | (simp only [R.CAPT_n_MISSED_block]; (with_reducible refine Within.sub hw ?_); exact rfl)
    | split
    | intro _
    | dsimp only

theorem captTrigger_keeps {x0 : Nat} {x1 : Nat} {x2 : Quad} {x3 : Quad} (hw : Within [.capture, .collie, .evlog, .mem, .block 0, .block 12, .block 24] w) (h : Keeps w s t) :
    Keeps w s (captTrigger x0 x1 x2 x3 t) := by
  unfold captTrigger
  repeat' first
    | with_reducible assumption
    | ((with_reducible refine Within.sub hw ?_); exact rfl)
    | with_reducible refine State.modCapt_keeps ?_ ?_
    | with_reducible refine captPostEvt_keeps ?_ ?_
    | with_reducible refine postRecord_keeps ?_ ?_
    | split
    | intro _
    | dsimp only

theorem condStep_keeps {x0 : Nat} {x1 : Nat} {x2 : Quad} (hw : Within [.capture, .block 12] w) (h : Keeps w s t) :
    Keeps w s (condStep x0 x1 x2 t).2 := by
  unfold condStep
  extract_lets c sense x
  split
  · exact h
  · split
    · split <;> exact h
    · split
      · exact h
      · exact State.setCapt_keeps (hw.sub rfl) h

theorem condStep_keeps_eq {x0 : Nat} {x1 : Nat} {x2 : Quad} {y : Bool} {u : State} (e : condStep x0 x1 x2 t = (y, u))
 (hw : Within [.capture, .block 12] w) (h : Keeps w s t) : Keeps w s u := by
  have := condStep_keeps hw h (x0 := x0) (x1 := x1) (x2 := x2)
  rw [e] at this; exact this

theorem condMap_keeps {x0 : Nat} {x1 : Quad} (hw : Within [.capture, .block 12] w) (h : Keeps w s t) :
    Keeps w s (condMap x0 x1 t).2 := by
  unfold condMap
  repeat' first
    | with_reducible assumption
    | ((with_reducible refine Within.sub hw ?_); exact rfl)
    | with_reducible refine condStep_keeps ?_ ?_
    | with_reducible refine condStep_keeps_eq (by assumption) ?_ ?_
    | with_reducible refine Keeps.foldl ?_ ?_
    | with_reducible refine Keeps.foldl_snd ?_ ?_
    | split
    | intro _
    | dsimp only

theorem condMap_keeps_eq {x0 : Nat} {x1 : Quad} {y} {u : State}  (e : condMap x0 x1 t = (y, u)) (hw : Within [.capture, .block 12] w) (h : Keeps w s t) : Keeps w s u := by
  have := condMap_keeps hw h (x0 := x0) (x1 := x1)
  rw [e] at this; exact this

theorem trigMapOf_keeps {x0 : Nat} {x1 : Quad} {x2 : Quad} (hw : Within [.capture, .block 12] w) (h : Keeps w s t) :
    Keeps w s (trigMapOf x0 x1 x2 t).2 := by
  unfold trigMapOf
  repeat' first
    | with_reducible assumption
    | ((with_reducible refine Within.sub hw ?_); exact rfl)
    | with_reducible refine Keeps.foldl ?_ ?_
    | with_reducible refine Keeps.foldl_snd ?_ ?_
    | with_reducible refine State.setCapt_keeps ?_ ?_
    | with_reducible refine condMap_keeps ?_ ?_
    | with_reducible refine condMap_keeps_eq (by assumption) ?_ ?_
    | split
    | intro _
    | dsimp only

theorem trigMapOf_keeps_eq {x0 : Nat} {x1 : Quad} {x2 : Quad} {y} {u : State} (e : trigMapOf x0 x1 x2 t = (y, u)) (hw : Within [.capture, .block 12] w) (h : Keeps w s t) : Keeps w s u := by
  have := trigMapOf_keeps hw h (x0 := x0) (x1 := x1) (x2 := x2)
  rw [e] at this; exact this

theorem enterArmed_keeps {x0 : Nat} (hw : Within [.capture] w) (h : Keeps w s t) :
    Keeps w s (enterArmed x0 t) := by
  unfold enterArmed
  repeat' first
    | with_reducible assumption
    | ((with_reducible refine Within.sub hw ?_); exact rfl)
    | with_reducible refine State.modCapt_keeps ?_ ?_
    | split
    | intro _
    | dsimp only

theorem takeSlot_keeps {x0 : Nat} (hw : Within [.block 12] w) (h : Keeps w s t) :
    Keeps w s (takeSlot x0 t).2 := by
  unfold takeSlot
  repeat' first
    | with_reducible assumption
    | ((with_reducible refine Within.sub hw ?_); exact rfl)
    | with_reducible refine setSegState_keeps ?_ ?_
    | split
    | intro _
    | dsimp only

theorem takeSlot_keeps_eq {x0 : Nat} {y} {u : State}  (e : takeSlot x0 t = (y, u)) (hw : Within [.block 12] w) (h : Keeps w s t) : Keeps w s u := by
  have := takeSlot_keeps hw h (x0 := x0)
  rw [e] at this; exact this

theorem firstSample_keeps {x0 : Nat} {x1 : Quad} (hw : Within [.capture] w) (h : Keeps w s t) :
    Keeps w s (firstSample x0 x1 t) := by
  unfold firstSample
  repeat' first
    | with_reducible assumption
    | ((with_reducible refine Within.sub hw ?_); exact rfl)
    | with_reducible refine State.modCapt_keeps ?_ ?_
    | split
    | intro _
    | dsimp only

theorem armedSample_keeps {x0 : Nat} {x1 : Nat} {x2 : Quad} {x3 : Quad} (hw : Within [.capture, .collie, .evlog, .mem, .block 0, .block 12, .block 24] w) (h : Keeps w s t) :
    Keeps w s (armedSample x0 x1 x2 x3 t) := by
  unfold armedSample
  repeat' first
    | with_reducible assumption
    | ((with_reducible refine Within.sub hw ?_); exact rfl)
    | with_reducible refine Keeps.incSat ?_ ?_
    | with_reducible refine Keeps.raise ?_ ?_
    | with_reducible refine captTrigger_keeps ?_ ?_
    | with_reducible refine firstSample_keeps ?_ ?_
    | with_reducible refine preRecord_keeps ?_ ?_
    | (simp only [R.CAPT_n_EARLY_block]; (with_reducible refine Within.sub hw ?_); exact rfl)
    | split
    | intro _
    | dsimp only

theorem sampleIn_keeps {x0 : Nat} {x1 : Nat} {x2 : Quad} {x3 : Quad} {x4 : Quad} (hw : Within [.capture, .collie, .evlog, .mem, .block 0, .block 12, .block 24] w) (h : Keeps w s t) :
    Keeps w s (sampleIn x0 x1 x2 x3 x4 t) := by
  unfold sampleIn
  repeat' first
    | with_reducible assumption
    | ((with_reducible refine Within.sub hw ?_); exact rfl)
    | with_reducible refine armedSample_keeps ?_ ?_
    | with_reducible refine captMissed_keeps ?_ ?_
    | with_reducible refine postRecord_keeps ?_ ?_
    | split
    | intro _
    | dsimp only

theorem lateTrigger_keeps {x0 : Nat} {x1 : Quad} {x2 : Quad} {x3 : Nat} (hw : Within [.capture, .collie, .evlog, .mem, .block 0, .block 12, .block 24] w) (h : Keeps w s t) :
    Keeps w s (lateTrigger x0 x1 x2 x3 t) := by
  unfold lateTrigger
  repeat' first
    | with_reducible assumption
    | ((with_reducible refine Within.sub hw ?_); exact rfl)
    | with_reducible refine State.modCapt_keeps ?_ ?_
    | with_reducible refine State.setCapt_keeps ?_ ?_
    | with_reducible refine armedSample_keeps ?_ ?_
    | with_reducible refine captMissed_keeps ?_ ?_
    | with_reducible refine preUndo_keeps ?_ ?_
    | split
    | intro _
    | dsimp only

theorem attribute__keeps {x0 : Nat} {x1 : Quad} {x2 : Nat} (hw : Within [.capture, .collie, .evlog, .mem, .block 0, .block 12, .block 24] w) (h : Keeps w s t) :
    Keeps w s (attribute_ x0 x1 x2 t) := by
  unfold attribute_
  repeat' first
    | with_reducible assumption
    | ((with_reducible refine Within.sub hw ?_); exact rfl)
    | with_reducible refine State.modCapt_keeps ?_ ?_
    | with_reducible refine lateTrigger_keeps ?_ ?_
    | split
    | intro _
    | dsimp only

theorem crossTrigger_keeps {x0 : Nat} {x1 : Nat} {x2 : Quad} (hw : Within [.capture, .collie, .evlog, .mem, .block 0, .block 12, .block 24] w) (h : Keeps w s t) :
    Keeps w s (crossTrigger x0 x1 x2 t) := by
  unfold crossTrigger
  repeat' first
    | with_reducible assumption
    | ((with_reducible refine Within.sub hw ?_); exact rfl)
    | with_reducible refine Keeps.forAll ?_ ?_
    | with_reducible refine attribute__keeps ?_ ?_
    | (simp only [R.CAPT_n_XTRIG_block]; (with_reducible refine Within.sub hw ?_); exact rfl)
    | split
    | intro _
    | dsimp only

theorem trigger__keeps {x0 : Nat} {x1 : Quad} {x2 : Nat} (hw : Within [.capture, .collie, .evlog, .mem, .block 0, .block 12, .block 24] w) (h : Keeps w s t) :
    Keeps w s (trigger_ x0 x1 x2 t) := by
  unfold trigger_
  repeat' first
    | with_reducible assumption
    | ((with_reducible refine Within.sub hw ?_); exact rfl)
    | with_reducible refine attribute__keeps ?_ ?_
    | with_reducible refine crossTrigger_keeps ?_ ?_
    | split
    | intro _
    | dsimp only

theorem sourceGap_keeps {x0 : Nat} (hw : Within [.capture, .collie, .evlog, .mem, .block 0, .block 12, .block 24] w) (h : Keeps w s t) :
    Keeps w s (sourceGap x0 t) := by
  unfold sourceGap
  repeat' first
    | with_reducible assumption
    | ((with_reducible refine Within.sub hw ?_); exact rfl)
    | with_reducible refine State.modCapt_keeps ?_ ?_
    | with_reducible refine segEnd_keeps ?_ ?_
    | split
    | intro _
    | dsimp only

theorem auStreamStops_keeps {x0 : Nat} (hw : Within [.capture, .collie, .evlog, .mem, .block 0, .block 12, .block 24] w) (h : Keeps w s t) :
    Keeps w s (auStreamStops x0 t) := by
  unfold auStreamStops
  repeat' first
    | with_reducible assumption
    | ((with_reducible refine Within.sub hw ?_); exact rfl)
    | with_reducible refine Keeps.forAll ?_ ?_
    | with_reducible refine State.modCapt_keeps ?_ ?_
    | with_reducible refine sourceGap_keeps ?_ ?_
    | split
    | intro _
    | dsimp only

theorem streamCheck_keeps {x0 : Nat} (hw : Within [.capture, .collie, .evlog, .mem, .block 0, .block 12, .block 24] w) (h : Keeps w s t) :
    Keeps w s (streamCheck x0 t) := by
  unfold streamCheck
  repeat' first
    | with_reducible assumption
    | ((with_reducible refine Within.sub hw ?_); exact rfl)
    | with_reducible refine State.modCapt_keeps ?_ ?_
    | with_reducible refine sourceGap_keeps ?_ ?_
    | split
    | intro _
    | dsimp only

theorem auStreamCheck_keeps {x0 : Nat} (hw : Within [.capture, .collie, .evlog, .mem, .block 0, .block 12, .block 24] w) (h : Keeps w s t) :
    Keeps w s (auStreamCheck x0 t) := by
  unfold auStreamCheck
  repeat' first
    | with_reducible assumption
    | ((with_reducible refine Within.sub hw ?_); exact rfl)
    | with_reducible refine Keeps.forAll ?_ ?_
    | with_reducible refine streamCheck_keeps ?_ ?_
    | split
    | intro _
    | dsimp only

theorem armAtSample_keeps {x0 : Nat} {x1 : Quad} (hw : Within [.capture, .block 12] w) (h : Keeps w s t) :
    Keeps w s (armAtSample x0 x1 t) := by
  unfold armAtSample
  repeat' first
    | with_reducible assumption
    | ((with_reducible refine Within.sub hw ?_); exact rfl)
    | with_reducible refine State.setCapt_keeps ?_ ?_
    | with_reducible refine enterArmed_keeps ?_ ?_
    | with_reducible refine takeSlot_keeps ?_ ?_
    | with_reducible refine takeSlot_keeps_eq (by assumption) ?_ ?_
    | split
    | intro _
    | dsimp only

theorem sampleTaken_keeps {x0 : Nat} {x1 : Quad} {x2 : Quad} (hw : Within [.capture, .collie, .evlog, .mem, .block 0, .block 12, .block 24] w) (h : Keeps w s t) :
    Keeps w s (sampleTaken x0 x1 x2 t) := by
  unfold sampleTaken
  repeat' first
    | with_reducible assumption
    | ((with_reducible refine Within.sub hw ?_); exact rfl)
    | with_reducible refine crossTrigger_keeps ?_ ?_
    | with_reducible refine sampleIn_keeps ?_ ?_
    | with_reducible refine streamCheck_keeps ?_ ?_
    | with_reducible refine trigMapOf_keeps ?_ ?_
    | with_reducible refine trigMapOf_keeps_eq (by assumption) ?_ ?_
    | split
    | intro _
    | dsimp only

theorem captureSample_keeps {x0 : Nat} (hw : Within [.capture, .collie, .evlog, .free, .mem, .raw, .block 0, .block 12, .block 24] w) (h : Keeps w s t) :
    Keeps w s (captureSample x0 t) := by
  unfold captureSample
  repeat' first
    | with_reducible assumption
    | ((with_reducible refine Within.sub hw ?_); exact rfl)
    | with_reducible refine Keeps.advanceTo ?_ ?_
    | with_reducible refine armAtSample_keeps ?_ ?_
    | with_reducible refine sampleTaken_keeps ?_ ?_
    | with_reducible refine sourceGap_keeps ?_ ?_
    | split
    | intro _
    | dsimp only
    | with_reducible refine Keeps.set_free ?_ ?_

theorem captRearm_keeps {x0 : Nat} (hw : Within [.capture, .evlog, .block 0, .block 12] w) (h : Keeps w s t) :
    Keeps w s (captRearm x0 t) := by
  unfold captRearm
  repeat' first
    | with_reducible assumption
    | ((with_reducible refine Within.sub hw ?_); exact rfl)
    | with_reducible refine State.modCapt_keeps ?_ ?_
    | with_reducible refine Keeps.raise ?_ ?_
    | with_reducible refine enterArmed_keeps ?_ ?_
    | with_reducible refine takeSlot_keeps ?_ ?_
    | with_reducible refine takeSlot_keeps_eq (by assumption) ?_ ?_
    | split
    | intro _
    | dsimp only

theorem captArm_keeps {x0 : Nat} (hw : Within [.capture, .evlog, .block 0, .block 12] w) (h : Keeps w s t) :
    Keeps w s (captArm x0 t) := by
  unfold captArm
  repeat' first
    | with_reducible assumption
    | ((with_reducible refine Within.sub hw ?_); exact rfl)
    | with_reducible refine Keeps.raise ?_ ?_
    | with_reducible refine State.modCapt_keeps ?_ ?_
    | with_reducible refine captRefused_keeps ?_ ?_
    | with_reducible refine takeSlot_keeps ?_ ?_
    | with_reducible refine takeSlot_keeps_eq (by assumption) ?_ ?_
    | split
    | intro _
    | dsimp only

theorem captDisarm_keeps {x0 : Nat} (hw : Within [.capture, .collie, .evlog, .mem, .block 0, .block 12, .block 24] w) (h : Keeps w s t) :
    Keeps w s (captDisarm x0 t) := by
  unfold captDisarm
  repeat' first
    | with_reducible assumption
    | ((with_reducible refine Within.sub hw ?_); exact rfl)
    | with_reducible refine captIdle_keeps ?_ ?_
    | with_reducible refine segEnd_keeps ?_ ?_
    | with_reducible refine setSegState_keeps ?_ ?_
    | split
    | intro _
    | dsimp only

theorem captSwTrig_keeps {x0 : Nat} (hw : Within [.capture, .collie, .evlog, .mem, .block 0, .block 12, .block 24] w) (h : Keeps w s t) :
    Keeps w s (captSwTrig x0 t) := by
  unfold captSwTrig
  repeat' first
    | with_reducible assumption
    | ((with_reducible refine Within.sub hw ?_); exact rfl)
    | with_reducible refine Keeps.forAll ?_ ?_
    | with_reducible refine trigger__keeps ?_ ?_
    | split
    | intro _
    | dsimp only

theorem captCtrlWrite_keeps {x0 : Nat} {x1 : Word} (hw : Within [.capture, .collie, .evlog, .mem, .block 0, .block 12, .block 24] w) (h : Keeps w s t) :
    Keeps w s (captCtrlWrite x0 x1 t) := by
  unfold captCtrlWrite
  repeat' first
    | with_reducible assumption
    | ((with_reducible refine Within.sub hw ?_); exact rfl)
    | with_reducible refine Keeps.setReg ?_ ?_
    | with_reducible refine captArm_keeps ?_ ?_
    | with_reducible refine captDisarm_keeps ?_ ?_
    | with_reducible refine captSwTrig_keeps ?_ ?_
    | with_reducible refine ovfKick_keeps ?_ ?_
    | (simp only [R.CAPT_n_CTRL_block]; (with_reducible refine Within.sub hw ?_); exact rfl)
    | split
    | intro _
    | dsimp only

theorem captCfgWrite_keeps {x0 : Nat} {x1 : State → State} (hx1 : ∀ u, Keeps w s u → Keeps w s (x1 u)) (hw : Within [.evlog, .block 0, .block 12] w) (h : Keeps w s t) :
    Keeps w s (captCfgWrite x0 x1 t) := by
  unfold captCfgWrite
  repeat' first
    | with_reducible assumption
    | ((with_reducible refine Within.sub hw ?_); exact rfl)
    | with_reducible refine captRefused_keeps ?_ ?_
    | with_reducible refine hx1 _ ?_
    | split
    | intro _
    | dsimp only

theorem triginCapture_keeps {x0 : Nat} {x1 : Quad} (hw : Within [.capture, .collie, .evlog, .mem, .block 0, .block 12, .block 24] w) (h : Keeps w s t) :
    Keeps w s (triginCapture x0 x1 t) := by
  unfold triginCapture
  repeat' first
    | with_reducible assumption
    | ((with_reducible refine Within.sub hw ?_); exact rfl)
    | with_reducible refine Keeps.forAll ?_ ?_
    | with_reducible refine Keeps.setReg64 ?_ ?_
    | with_reducible refine trigger__keeps ?_ ?_
    | (simp only [R.CAPT_TRIGIN_m_V_HI_block, R.CAPT_TRIGIN_m_V_LO_block, R.CAPT_n_XTRIG_block]; (with_reducible refine Within.sub hw ?_); exact rfl)
    | split
    | intro _
    | dsimp only

end Sys2Proof.Machine
end

