-- ==== Sys2Proof/Laws/Keeps/ECode.lean ====
section
/-! SUPPORT. What the operations of Sys2Proof/Machine/ECode.lean leave unchanged. -/

set_option linter.all false
set_option Elab.async false

namespace Sys2Proof.Machine

variable {w : List Piece} {s t : State}

theorem onFrame_keeps {x0 : Nat} {x1 : Nat} {x2 : Run →   Frame → List Frame → State → State} (hx2 : ∀ y0 y1 y2 u, Keeps w s u → Keeps w s (x2 y0 y1 y2 u)) (hw : Within [] w) (h : Keeps w s t) :
    Keeps w s (onFrame x0 x1 x2 t) := by
  unfold onFrame
  repeat' first
    | with_reducible assumption
    | ((with_reducible refine Within.sub hw ?_); exact rfl)
    | with_reducible refine hx2 _ _ _ _ ?_
    | split
    | intro _
    | dsimp only

theorem stackOp_keeps {x0 : Nat} {x1 : Nat} {x2 : Nat} {x3 : List Quad → List Quad} (hw : Within [.collie] w) (h : Keeps w s t) :
    Keeps w s (stackOp x0 x1 x2 x3 t) := by
  unfold stackOp
  repeat' first
    | with_reducible assumption
    | ((with_reducible refine Within.sub hw ?_); exact rfl)
    | with_reducible refine State.setRun_keeps ?_ ?_
    | with_reducible refine onFrame_keeps ?_ ?_ ?_
    | split
    | intro _
    | dsimp only

theorem pushOp_keeps {x0 : Nat} {x1 : Nat} {x2 : Quad} (hw : Within [.collie] w) (h : Keeps w s t) :
    Keeps w s (pushOp x0 x1 x2 t) := by
  unfold pushOp
  repeat' first
    | with_reducible assumption
    | ((with_reducible refine Within.sub hw ?_); exact rfl)
    | with_reducible refine stackOp_keeps ?_ ?_
    | split
    | intro _
    | dsimp only

theorem unaryOp_keeps {x0 : Nat} {x1 : Nat} {x2 : Quad → Quad} (hw : Within [.collie] w) (h : Keeps w s t) :
    Keeps w s (unaryOp x0 x1 x2 t) := by
  unfold unaryOp
  repeat' first
    | with_reducible assumption
    | ((with_reducible refine Within.sub hw ?_); exact rfl)
    | with_reducible refine stackOp_keeps ?_ ?_
    | split
    | intro _
    | dsimp only

theorem binaryOp_keeps {x0 : Nat} {x1 : Nat} {x2 : Quad → Quad → Quad} (hw : Within [.collie] w) (h : Keeps w s t) :
    Keeps w s (binaryOp x0 x1 x2 t) := by
  unfold binaryOp
  repeat' first
    | with_reducible assumption
    | ((with_reducible refine Within.sub hw ?_); exact rfl)
    | with_reducible refine stackOp_keeps ?_ ?_
    | split
    | intro _
    | dsimp only

theorem faultOp_keeps {x0 : Nat} {x1 : Nat} {x2 : State → State} (hx2 : ∀ u, Keeps w s u → Keeps w s (x2 u)) (hw : Within [.collie, .evlog, .exec, .free, .head, .img, .motion, .txn, .block 0, .block 4, .block 5, .block 6, .block 7, .block 8, .block 11, .block 14, .block 23] w) (h : Keeps w s t) :
    Keeps w s (faultOp x0 x1 x2 t) := by
  unfold faultOp
  repeat' first
    | with_reducible assumption
    | ((with_reducible refine Within.sub hw ?_); exact rfl)
    | with_reducible refine taskFault_keeps ?_ ?_
    | with_reducible refine taskFault_keeps_eq (by assumption) ?_ ?_
    | with_reducible refine hx2 _ ?_
    | split
    | intro _
    | dsimp only

theorem typed_keeps {x0 : Bool} {x1 : State → State} (hx1 : ∀ u, Keeps w s u → Keeps w s (x1 u)) (hw : Within [] w) (h : Keeps w s t) :
    Keeps w s (typed x0 x1 t) := by
  unfold typed
  repeat' first
    | with_reducible assumption
    | ((with_reducible refine Within.sub hw ?_); exact rfl)
    | with_reducible refine hx1 _ ?_
    | split
    | intro _
    | dsimp only

theorem code5_keeps {x0 : Nat} {x1 : State → State} (hx1 : ∀ u, Keeps w s u → Keeps w s (x1 u)) (h : Keeps w s t) :
    Keeps w s (code5 x0 x1 t) := by
  unfold code5
  repeat' first
    | with_reducible assumption
    | with_reducible refine hx1 _ ?_
    | split

theorem typedOn_keeps {x0 : Nat} {x1 : EType} {x2 : Bool} {x3 : State → State} (hx3 : ∀ u, Keeps w s u → Keeps w s (x3 u)) (hw : Within [] w) (h : Keeps w s t) :
    Keeps w s (typedOn x0 x1 x2 x3 t) := typed_keeps hx3 hw h

theorem divOp_keeps {x0 : Nat} {x1 : EType} {x2 : Quad → Quad → Quad} (hw : Within [.collie, .evlog, .exec, .free, .head, .img, .motion, .txn, .block 0, .block 4, .block 5, .block 6, .block 7, .block 8, .block 11, .block 14, .block 23] w) (h : Keeps w s t) :
    Keeps w s (divOp x0 x1 x2 t) := by
  unfold divOp
  repeat' first
    | with_reducible assumption
    | ((with_reducible refine Within.sub hw ?_); exact rfl)
    | with_reducible refine binaryOp_keeps ?_ ?_
    | with_reducible refine faultOp_keeps ?_ ?_ ?_
    | with_reducible refine onFrame_keeps ?_ ?_ ?_
    | split
    | intro _
    | dsimp only

theorem convOp_keeps {x0 : Nat} {x1 : BitVec 8} (hw : Within [.collie, .evlog, .exec, .free, .head, .img, .motion, .txn, .block 0, .block 4, .block 5, .block 6, .block 7, .block 8, .block 11, .block 14, .block 23] w) (h : Keeps w s t) :
    Keeps w s (convOp x0 x1 t) := by
  unfold convOp
  repeat' first
    | with_reducible assumption
    | ((with_reducible refine Within.sub hw ?_); exact rfl)
    | with_reducible refine faultOp_keeps ?_ ?_ ?_
    | with_reducible refine onFrame_keeps ?_ ?_ ?_
    | with_reducible refine unaryOp_keeps ?_ ?_
    | split
    | intro _
    | dsimp only

theorem setLocal_keeps {x0 : Nat} {x1 : Nat} {x2 : Nat} {x3 : Quad} {x4 : List Quad} (hw : Within [.collie] w) (h : Keeps w s t) :
    Keeps w s (setLocal x0 x1 x2 x3 x4 t) := by
  unfold setLocal
  repeat' first
    | with_reducible assumption
    | ((with_reducible refine Within.sub hw ?_); exact rfl)
    | with_reducible refine State.setRun_keeps ?_ ?_
    | with_reducible refine onFrame_keeps ?_ ?_ ?_
    | split
    | intro _
    | dsimp only

theorem ldl_keeps {x0 : Nat} {x1 : Nat} (hw : Within [.collie] w) (h : Keeps w s t) :
    Keeps w s (ldl x0 x1 t) := by
  unfold ldl
  repeat' first
    | with_reducible assumption
    | ((with_reducible refine Within.sub hw ?_); exact rfl)
    | with_reducible refine onFrame_keeps ?_ ?_ ?_
    | with_reducible refine pushOp_keeps ?_ ?_
    | split
    | intro _
    | dsimp only

theorem stl_keeps {x0 : Nat} {x1 : Nat} (hw : Within [.collie] w) (h : Keeps w s t) :
    Keeps w s (stl x0 x1 t) := by
  unfold stl
  repeat' first
    | with_reducible assumption
    | ((with_reducible refine Within.sub hw ?_); exact rfl)
    | with_reducible refine onFrame_keeps ?_ ?_ ?_
    | with_reducible refine setLocal_keeps ?_ ?_
    | split
    | intro _
    | dsimp only

theorem incl_keeps {x0 : Nat} {x1 : Nat} {x2 : BitVec 8} (hw : Within [.collie] w) (h : Keeps w s t) :
    Keeps w s (incl x0 x1 x2 t) := by
  unfold incl
  repeat' first
    | with_reducible assumption
    | ((with_reducible refine Within.sub hw ?_); exact rfl)
    | with_reducible refine onFrame_keeps ?_ ?_ ?_
    | with_reducible refine setLocal_keeps ?_ ?_
    | split
    | intro _
    | dsimp only

theorem branchOp_keeps {x0 : Nat} {x1 : Nat} {x2 : BrOff} {x3 : List Quad → Bool} (hw : Within [.collie] w) (h : Keeps w s t) :
    Keeps w s (branchOp x0 x1 x2 x3 t) := by
  unfold branchOp
  repeat' first
    | with_reducible assumption
    | ((with_reducible refine Within.sub hw ?_); exact rfl)
    | with_reducible refine State.setRun_keeps ?_ ?_
    | with_reducible refine onFrame_keeps ?_ ?_ ?_
    | split
    | intro _
    | dsimp only

theorem callOp_keeps {x0 : Nat} {x1 : Nat} (hw : Within [.collie] w) (h : Keeps w s t) :
    Keeps w s (callOp x0 x1 t) := by
  unfold callOp
  repeat' first
    | with_reducible assumption
    | ((with_reducible refine Within.sub hw ?_); exact rfl)
    | with_reducible refine State.setRun_keeps ?_ ?_
    | with_reducible refine onFrame_keeps ?_ ?_ ?_
    | split
    | intro _
    | dsimp only

theorem endOp_keeps {x0 : Nat} (hw : Within [.collie] w) (h : Keeps w s t) :
    Keeps w s (endOp x0 t) := by
  unfold endOp
  repeat' first
    | with_reducible assumption
    | ((with_reducible refine Within.sub hw ?_); exact rfl)
    | with_reducible refine State.setRun_keeps ?_ ?_
    | with_reducible refine onFrame_keeps ?_ ?_ ?_
    | split
    | intro _
    | dsimp only

theorem retOp_keeps {x0 : Nat} (hw : Within [.collie] w) (h : Keeps w s t) :
    Keeps w s (retOp x0 t) := by
  unfold retOp
  repeat' first
    | with_reducible assumption
    | ((with_reducible refine Within.sub hw ?_); exact rfl)
    | with_reducible refine State.setRun_keeps ?_ ?_
    | with_reducible refine endOp_keeps ?_ ?_
    | with_reducible refine onFrame_keeps ?_ ?_ ?_
    | split
    | intro _
    | dsimp only

theorem onVar_keeps {x0 : Nat} {x1 : Nat} {x2 : VarIdx} {x3 : List Nat} {x4 : Run →   Frame → VarDesc → State → State} (hx4 : ∀ y0 y1 y2 u, Keeps w s u → Keeps w s (x4 y0 y1 y2 u)) (hw : Within [] w) (h : Keeps w s t) :
    Keeps w s (onVar x0 x1 x2 x3 x4 t) := by
  unfold onVar
  repeat' first
    | with_reducible assumption
    | ((with_reducible refine Within.sub hw ?_); exact rfl)
    | with_reducible refine onFrame_keeps ?_ ?_ ?_
    | with_reducible refine hx4 _ _ _ _ ?_
    | split
    | intro _
    | dsimp only

theorem runPoke_keeps {x0 : Nat} {x1 : VarDesc} {x2 : Nat} {x3 : Quad} (hw : Within [.collie] w) (h : Keeps w s t) :
    Keeps w s (runPoke x0 x1 x2 x3 t) := by
  unfold runPoke
  repeat' first
    | with_reducible assumption
    | ((with_reducible refine Within.sub hw ?_); exact rfl)
    | with_reducible refine State.setGlobal_keeps ?_ ?_
    | with_reducible refine State.setRun_keeps ?_ ?_
    | split
    | intro _
    | dsimp only

theorem ldv_keeps {x0 : Nat} {x1 : VarIdx} (hw : Within [.collie] w) (h : Keeps w s t) :
    Keeps w s (ldv x0 x1 t) := by
  unfold ldv
  repeat' first
    | with_reducible assumption
    | ((with_reducible refine Within.sub hw ?_); exact rfl)
    | with_reducible refine onVar_keeps ?_ ?_ ?_
    | with_reducible refine pushOp_keeps ?_ ?_
    | split
    | intro _
    | dsimp only

theorem stv_keeps {x0 : Nat} {x1 : VarIdx} (hw : Within [.collie] w) (h : Keeps w s t) :
    Keeps w s (stv x0 x1 t) := by
  unfold stv
  repeat' first
    | with_reducible assumption
    | ((with_reducible refine Within.sub hw ?_); exact rfl)
    | with_reducible refine onVar_keeps ?_ ?_ ?_
    | with_reducible refine runPoke_keeps ?_ ?_
    | with_reducible refine stackOp_keeps ?_ ?_
    | split
    | intro _
    | dsimp only

theorem ldx_keeps {x0 : Nat} {x1 : VarIdx} (hw : Within [.collie, .evlog, .exec, .free, .head, .img, .motion, .txn, .block 0, .block 4, .block 5, .block 6, .block 7, .block 8, .block 11, .block 14, .block 23] w) (h : Keeps w s t) :
    Keeps w s (ldx x0 x1 t) := by
  unfold ldx
  repeat' first
    | with_reducible assumption
    | ((with_reducible refine Within.sub hw ?_); exact rfl)
    | with_reducible refine faultOp_keeps ?_ ?_ ?_
    | with_reducible refine onVar_keeps ?_ ?_ ?_
    | with_reducible refine unaryOp_keeps ?_ ?_
    | split
    | intro _
    | dsimp only

theorem stx_keeps {x0 : Nat} {x1 : VarIdx} (hw : Within [.collie, .evlog, .exec, .free, .head, .img, .motion, .txn, .block 0, .block 4, .block 5, .block 6, .block 7, .block 8, .block 11, .block 14, .block 23] w) (h : Keeps w s t) :
    Keeps w s (stx x0 x1 t) := by
  unfold stx
  repeat' first
    | with_reducible assumption
    | ((with_reducible refine Within.sub hw ?_); exact rfl)
    | with_reducible refine faultOp_keeps ?_ ?_ ?_
    | with_reducible refine onVar_keeps ?_ ?_ ?_
    | with_reducible refine runPoke_keeps ?_ ?_
    | with_reducible refine stackOp_keeps ?_ ?_
    | split
    | intro _
    | dsimp only

theorem fbOp_keeps {x0 : Nat} {x1 : VarIdx} (hw : Within [.collie] w) (h : Keeps w s t) :
    Keeps w s (fbOp x0 x1 t) := by
  unfold fbOp
  repeat' first
    | with_reducible assumption
    | ((with_reducible refine Within.sub hw ?_); exact rfl)
    | with_reducible refine State.setRun_keeps ?_ ?_
    | with_reducible refine onVar_keeps ?_ ?_ ?_
    | with_reducible refine stackOp_keeps ?_ ?_
    | split
    | intro _
    | dsimp only

theorem sto_keeps {x0 : Nat} {x1 : VarIdx} (hw : Within [.collie, .evlog, .exec, .free, .head, .img, .motion, .txn, .block 0, .block 4, .block 5, .block 6, .block 7, .block 8, .block 11, .block 14, .block 23] w) (h : Keeps w s t) :
    Keeps w s (sto x0 x1 t) := by
  unfold sto
  repeat' first
    | with_reducible assumption
    | ((with_reducible refine Within.sub hw ?_); exact rfl)
    | with_reducible refine State.setRun_keeps ?_ ?_
    | with_reducible refine faultOp_keeps ?_ ?_ ?_
    | with_reducible refine onVar_keeps ?_ ?_ ?_
    | with_reducible refine stackOp_keeps ?_ ?_
    | split
    | intro _
    | dsimp only

theorem readVar_keeps {x0 : Nat} {x1 : VarIdx} {x2 : List Nat} {x3 : State → Run → VarDesc → Quad} (hw : Within [.collie] w) (h : Keeps w s t) :
    Keeps w s (readVar x0 x1 x2 x3 t) := by
  unfold readVar
  repeat' first
    | with_reducible assumption
    | ((with_reducible refine Within.sub hw ?_); exact rfl)
    | with_reducible refine onVar_keeps ?_ ?_ ?_
    | with_reducible refine pushOp_keeps ?_ ?_
    | split
    | intro _
    | dsimp only

theorem stageOp_keeps {x0 : Nat} {x1 : Nat} {x2 : Nat} {x3 : Action} (hw : Within [.collie, .evlog, .exec, .free, .head, .img, .motion, .txn, .block 0, .block 4, .block 5, .block 6, .block 7, .block 8, .block 11, .block 14, .block 23] w) (h : Keeps w s t) :
    Keeps w s (stageOp x0 x1 x2 x3 t) := by
  unfold stageOp
  repeat' first
    | with_reducible assumption
    | ((with_reducible refine Within.sub hw ?_); exact rfl)
    | with_reducible refine State.setRun_keeps ?_ ?_
    | with_reducible refine faultOp_keeps ?_ ?_ ?_
    | with_reducible refine onFrame_keeps ?_ ?_ ?_
    | with_reducible refine stackOp_keeps ?_ ?_
    | split
    | intro _
    | dsimp only

theorem stageVar_keeps {x0 : Nat} {x1 : Nat} {x2 : Nat} {x3 : Nat} {x4 : VarIdx} (hw : Within [.collie, .evlog, .exec, .free, .head, .img, .motion, .txn, .block 0, .block 4, .block 5, .block 6, .block 7, .block 8, .block 11, .block 14, .block 23] w) (h : Keeps w s t) :
    Keeps w s (stageVar x0 x1 x2 x3 x4 t) := by
  unfold stageVar
  repeat' first
    | with_reducible assumption
    | ((with_reducible refine Within.sub hw ?_); exact rfl)
    | with_reducible refine onVar_keeps ?_ ?_ ?_
    | with_reducible refine stageOp_keeps ?_ ?_
    | split
    | intro _
    | dsimp only

theorem replyOp_keeps {x0 : Nat} (hw : Within [.collie, .evlog, .exec, .free, .head, .img, .motion, .txn, .block 0, .block 4, .block 5, .block 6, .block 7, .block 8, .block 11, .block 14, .block 23] w) (h : Keeps w s t) :
    Keeps w s (replyOp x0 t) := by
  unfold replyOp
  repeat' first
    | with_reducible assumption
    | ((with_reducible refine Within.sub hw ?_); exact rfl)
    | with_reducible refine onFrame_keeps ?_ ?_ ?_
    | with_reducible refine stageOp_keeps ?_ ?_
    | split
    | intro _
    | dsimp only

theorem delayOp_keeps {x0 : Nat} {x1 : VarIdx} (hw : Within [.collie, .evlog, .exec, .free, .head, .img, .motion, .txn, .block 0, .block 4, .block 5, .block 6, .block 7, .block 8, .block 11, .block 14, .block 23] w) (h : Keeps w s t) :
    Keeps w s (delayOp x0 x1 t) := by
  unfold delayOp
  repeat' first
    | with_reducible assumption
    | ((with_reducible refine Within.sub hw ?_); exact rfl)
    | with_reducible refine onVar_keeps ?_ ?_ ?_
    | with_reducible refine stageOp_keeps ?_ ?_
    | split
    | intro _
    | dsimp only

theorem waitOp_keeps {x0 : Nat} {x1 : VarIdx} (hw : Within [.collie] w) (h : Keeps w s t) :
    Keeps w s (waitOp x0 x1 t) := by
  unfold waitOp
  repeat' first
    | with_reducible assumption
    | ((with_reducible refine Within.sub hw ?_); exact rfl)
    | with_reducible refine State.setRun_keeps ?_ ?_
    | with_reducible refine onVar_keeps ?_ ?_ ?_
    | split
    | intro _
    | dsimp only

theorem txopenOp_keeps {x0 : Nat} (hw : Within [.collie, .evlog, .exec, .free, .head, .img, .motion, .txn, .block 0, .block 4, .block 5, .block 6, .block 7, .block 8, .block 11, .block 14, .block 23] w) (h : Keeps w s t) :
    Keeps w s (txopenOp x0 t) := by
  unfold txopenOp
  repeat' first
    | with_reducible assumption
    | ((with_reducible refine Within.sub hw ?_); exact rfl)
    | with_reducible refine State.setRun_keeps ?_ ?_
    | with_reducible refine faultOp_keeps ?_ ?_ ?_
    | with_reducible refine onFrame_keeps ?_ ?_ ?_
    | with_reducible refine pushOp_keeps ?_ ?_
    | with_reducible refine txTake_keeps ?_ ?_
    | with_reducible refine txTake_keeps_eq (by assumption) ?_ ?_
    | split
    | intro _
    | dsimp only

theorem stageTx_keeps {x0 : Nat} {x1 : Nat} {x2 : Nat} {x3 : Action} (hw : Within [.collie, .evlog, .exec, .free, .head, .img, .motion, .txn, .block 0, .block 4, .block 5, .block 6, .block 7, .block 8, .block 11, .block 14, .block 23] w) (h : Keeps w s t) :
    Keeps w s (stageTx x0 x1 x2 x3 t) := by
  unfold stageTx
  repeat' first
    | with_reducible assumption
    | ((with_reducible refine Within.sub hw ?_); exact rfl)
    | with_reducible refine faultOp_keeps ?_ ?_ ?_
    | with_reducible refine onFrame_keeps ?_ ?_ ?_
    | with_reducible refine stackOp_keeps ?_ ?_
    | with_reducible refine stageOp_keeps ?_ ?_
    | split
    | intro _
    | dsimp only

theorem txaddOp_keeps {x0 : Nat} {x1 : VarIdx} (hw : Within [.collie, .evlog, .exec, .free, .head, .img, .motion, .txn, .block 0, .block 4, .block 5, .block 6, .block 7, .block 8, .block 11, .block 14, .block 23] w) (h : Keeps w s t) :
    Keeps w s (txaddOp x0 x1 t) := by
  unfold txaddOp
  repeat' first
    | with_reducible assumption
    | ((with_reducible refine Within.sub hw ?_); exact rfl)
    | with_reducible refine onVar_keeps ?_ ?_ ?_
    | with_reducible refine stageTx_keeps ?_ ?_
    | split
    | intro _
    | dsimp only

theorem txsealOp_keeps {x0 : Nat} (hw : Within [.collie, .evlog, .exec, .free, .head, .img, .motion, .txn, .block 0, .block 4, .block 5, .block 6, .block 7, .block 8, .block 11, .block 14, .block 23] w) (h : Keeps w s t) :
    Keeps w s (txsealOp x0 t) := by
  unfold txsealOp
  repeat' first
    | with_reducible assumption
    | ((with_reducible refine Within.sub hw ?_); exact rfl)
    | with_reducible refine onFrame_keeps ?_ ?_ ?_
    | with_reducible refine stageTx_keeps ?_ ?_
    | split
    | intro _
    | dsimp only

theorem txdropOp_keeps {x0 : Nat} (hw : Within [.collie, .evlog, .exec, .free, .head, .img, .motion, .txn, .block 0, .block 4, .block 5, .block 6, .block 7, .block 8, .block 11, .block 14, .block 23] w) (h : Keeps w s t) :
    Keeps w s (txdropOp x0 t) := by
  unfold txdropOp
  repeat' first
    | with_reducible assumption
    | ((with_reducible refine Within.sub hw ?_); exact rfl)
    | with_reducible refine stageTx_keeps ?_ ?_
    | split
    | intro _
    | dsimp only

theorem txstatOp_keeps {x0 : Nat} (hw : Within [.collie, .evlog, .exec, .free, .head, .img, .motion, .txn, .block 0, .block 4, .block 5, .block 6, .block 7, .block 8, .block 11, .block 14, .block 23] w) (h : Keeps w s t) :
    Keeps w s (txstatOp x0 t) := by
  unfold txstatOp
  repeat' first
    | with_reducible assumption
    | ((with_reducible refine Within.sub hw ?_); exact rfl)
    | with_reducible refine faultOp_keeps ?_ ?_ ?_
    | with_reducible refine onFrame_keeps ?_ ?_ ?_
    | with_reducible refine unaryOp_keeps ?_ ?_
    | split
    | intro _
    | dsimp only

theorem axcmdOp_keeps {x0 : Nat} {x1 : VarIdx} {x2 : BitVec 8} (hw : Within [.collie, .evlog, .exec, .free, .head, .img, .motion, .txn, .block 0, .block 4, .block 5, .block 6, .block 7, .block 8, .block 11, .block 14, .block 23] w) (h : Keeps w s t) :
    Keeps w s (axcmdOp x0 x1 x2 t) := by
  unfold axcmdOp
  repeat' first
    | with_reducible assumption
    | ((with_reducible refine Within.sub hw ?_); exact rfl)
    | with_reducible refine onVar_keeps ?_ ?_ ?_
    | with_reducible refine stageOp_keeps ?_ ?_
    | split
    | intro _
    | dsimp only

end Sys2Proof.Machine
end

