-- ==== Sys2Proof/Laws/Keeps/Analog.lean ====
section
/-! SUPPORT. What the operations of Sys2Proof/Machine/Analog.lean leave unchanged. -/

set_option linter.all false
set_option Elab.async false

namespace Sys2Proof.Machine

variable {w : List Piece} {s t : State}

theorem State.setAu_keeps {x1 : Nat} {x2 : AUnit} (hw : Within [.analog] w) (h : Keeps w s t) :
    Keeps w s (State.setAu t x1 x2) := by
  unfold State.setAu
  repeat' first
    | with_reducible assumption
    | ((with_reducible refine Within.sub hw ?_); exact rfl)
    | split
    | intro _
    | dsimp only
    | with_reducible refine Keeps.set_analog ?_ ?_

theorem State.setChan_keeps {x1 : Nat} {x2 : Chan} (hw : Within [.analog] w) (h : Keeps w s t) :
    Keeps w s (State.setChan t x1 x2) := by
  unfold State.setChan
  repeat' first
    | with_reducible assumption
    | ((with_reducible refine Within.sub hw ?_); exact rfl)
    | split
    | intro _
    | dsimp only
    | with_reducible refine Keeps.set_analog ?_ ?_

theorem State.modChan_keeps {x1 : Nat} {x2 : Chan → Chan} (hw : Within [.analog] w) (h : Keeps w s t) :
    Keeps w s (State.modChan t x1 x2) := by
  unfold State.modChan
  repeat' first
    | with_reducible assumption
    | ((with_reducible refine Within.sub hw ?_); exact rfl)
    | with_reducible refine State.setChan_keeps ?_ ?_
    | split
    | intro _
    | dsimp only

theorem refStart_keeps {x0 : Nat} (hw : Within [.analog, .block 9] w) (h : Keeps w s t) :
    Keeps w s (refStart x0 t) := by
  unfold refStart
  repeat' first
    | with_reducible assumption
    | ((with_reducible refine Within.sub hw ?_); exact rfl)
    | with_reducible refine Keeps.put ?_ ?_
    | (simp only [R.ADC_p_REF_STATUS_block]; (with_reducible refine Within.sub hw ?_); exact rfl)
    | split
    | intro _
    | dsimp only
    | with_reducible refine Keeps.set_analog ?_ ?_

theorem refLost_keeps {x0 : Nat} (hw : Within [.analog, .block 9] w) (h : Keeps w s t) :
    Keeps w s (refLost x0 t) := by
  unfold refLost
  repeat' first
    | with_reducible assumption
    | ((with_reducible refine Within.sub hw ?_); exact rfl)
    | with_reducible refine Keeps.put ?_ ?_
    | with_reducible refine State.setAu_keeps ?_ ?_
    | (simp only [R.ADC_p_REF_STATUS_block]; (with_reducible refine Within.sub hw ?_); exact rfl)
    | with_reducible refine Keeps.foldl ?_ ?_
    | split
    | intro _
    | dsimp only
    | with_reducible refine Keeps.set_analog ?_ ?_

theorem refCtrlWrite_keeps {x0 : Nat} {x1 : Word} (hw : Within [.analog, .block 9] w) (h : Keeps w s t) :
    Keeps w s (refCtrlWrite x0 x1 t) := by
  unfold refCtrlWrite
  repeat' first
    | with_reducible assumption
    | ((with_reducible refine Within.sub hw ?_); exact rfl)
    | with_reducible refine Keeps.put ?_ ?_
    | with_reducible refine refLost_keeps ?_ ?_
    | with_reducible refine refStart_keeps ?_ ?_
    | (simp only [R.ADC_p_REF_CTRL_block, R.ADC_p_REF_STATUS_block]; (with_reducible refine Within.sub hw ?_); exact rfl)
    | split
    | intro _
    | dsimp only

theorem refSettled_keeps {x0 : Nat} (hw : Within [.analog, .evlog, .raw, .block 0, .block 9] w) (h : Keeps w s t) :
    Keeps w s (refSettled x0 t) := by
  unfold refSettled
  repeat' first
    | with_reducible assumption
    | ((with_reducible refine Within.sub hw ?_); exact rfl)
    | with_reducible refine Keeps.advanceTo ?_ ?_
    | with_reducible refine Keeps.put ?_ ?_
    | with_reducible refine Keeps.raise ?_ ?_
    | with_reducible refine Keeps.setReg64 ?_ ?_
    | (simp only [R.ADC_p_REF_SETTLED_V_HI_block, R.ADC_p_REF_SETTLED_V_LO_block, R.ADC_p_REF_STATUS_block]; (with_reducible refine Within.sub hw ?_); exact rfl)
    | split
    | intro _
    | dsimp only
    | with_reducible refine Keeps.set_analog ?_ ?_

theorem refFault_keeps {x0 : Nat} (hw : Within [.analog, .evlog, .block 0, .block 9] w) (h : Keeps w s t) :
    Keeps w s (refFault x0 t) := by
  unfold refFault
  repeat' first
    | with_reducible assumption
    | ((with_reducible refine Within.sub hw ?_); exact rfl)
    | with_reducible refine Keeps.put ?_ ?_
    | with_reducible refine Keeps.raise ?_ ?_
    | with_reducible refine refLost_keeps ?_ ?_
    | (simp only [R.ADC_p_REF_CTRL_block, R.ADC_p_REF_STATUS_block]; (with_reducible refine Within.sub hw ?_); exact rfl)
    | split
    | intro _
    | dsimp only

theorem refInRange_keeps {x0 : Nat} (hw : Within [.analog, .block 9] w) (h : Keeps w s t) :
    Keeps w s (refInRange x0 t) := by
  unfold refInRange
  repeat' first
    | with_reducible assumption
    | ((with_reducible refine Within.sub hw ?_); exact rfl)
    | with_reducible refine Keeps.put ?_ ?_
    | with_reducible refine refStart_keeps ?_ ?_
    | (simp only [R.ADC_p_REF_STATUS_block]; (with_reducible refine Within.sub hw ?_); exact rfl)
    | split
    | intro _
    | dsimp only

theorem chanSettle_keeps {x0 : Nat} {x1 : Quad} {x2 : Bool} (hw : Within [.analog, .block 32] w) (h : Keeps w s t) :
    Keeps w s (chanSettle x0 x1 x2 t) := by
  unfold chanSettle
  repeat' first
    | with_reducible assumption
    | ((with_reducible refine Within.sub hw ?_); exact rfl)
    | with_reducible refine Keeps.put ?_ ?_
    | with_reducible refine State.setChan_keeps ?_ ?_
    | (simp only [R.AU_n_i_CH_CFG_block]; (with_reducible refine Within.sub hw ?_); exact rfl)
    | split
    | intro _
    | dsimp only

theorem applyStaged_keeps {x0 : Nat} {x1 : Quad} (hw : Within [.analog, .block 32] w) (h : Keeps w s t) :
    Keeps w s (applyStaged x0 x1 t) := by
  unfold applyStaged
  repeat' first
    | with_reducible assumption
    | ((with_reducible refine Within.sub hw ?_); exact rfl)
    | with_reducible refine chanSettle_keeps ?_ ?_
    | split
    | intro _
    | dsimp only

theorem chCfgWrite_keeps {x0 : Nat} {x1 : Nat} {x2 : Word} (hw : Within [.analog, .evlog, .block 0, .block 32] w) (h : Keeps w s t) :
    Keeps w s (chCfgWrite x0 x1 x2 t) := by
  unfold chCfgWrite
  repeat' first
    | with_reducible assumption
    | ((with_reducible refine Within.sub hw ?_); exact rfl)
    | with_reducible refine Keeps.raise ?_ ?_
    | with_reducible refine Keeps.setReg ?_ ?_
    | with_reducible refine State.modChan_keeps ?_ ?_
    | (simp only [R.AU_n_EVENTS_block, R.AU_n_i_CH_CFG_block]; (with_reducible refine Within.sub hw ?_); exact rfl)
    | split
    | intro _
    | dsimp only

theorem accAdd_keeps {x0 : Nat} {x1 : Int} {x2 : Bool} {x3 : Bool} {x4 : Quad} (hw : Within [.analog, .evlog, .block 0, .block 10] w) (h : Keeps w s t) :
    Keeps w s (accAdd x0 x1 x2 x3 x4 t) := by
  unfold accAdd
  repeat' first
    | with_reducible assumption
    | ((with_reducible refine Within.sub hw ?_); exact rfl)
    | with_reducible refine State.modChan_keeps ?_ ?_
    | with_reducible refine Keeps.raiseIf ?_ ?_
    | split
    | intro _
    | dsimp only

theorem trkAdd_keeps {x0 : Nat} {x1 : Int} {x2 : Quad} (hw : Within [.analog, .block 10] w) (h : Keeps w s t) :
    Keeps w s (trkAdd x0 x1 x2 t) := by
  unfold trkAdd
  repeat' first
    | with_reducible assumption
    | ((with_reducible refine Within.sub hw ?_); exact rfl)
    | with_reducible refine State.modChan_keeps ?_ ?_
    | with_reducible refine Keeps.setReg ?_ ?_
    | with_reducible refine Keeps.setReg64 ?_ ?_
    | (simp only [R.ACC_c_TRK_MAX_block, R.ACC_c_TRK_MAX_T_HI_block, R.ACC_c_TRK_MAX_T_LO_block, R.ACC_c_TRK_MIN_block, R.ACC_c_TRK_MIN_T_HI_block, R.ACC_c_TRK_MIN_T_LO_block]; (with_reducible refine Within.sub hw ?_); exact rfl)
    | split
    | intro _
    | dsimp only

theorem trkClear_keeps {x0 : Nat} (hw : Within [.analog, .block 10] w) (h : Keeps w s t) :
    Keeps w s (trkClear x0 t) := by
  unfold trkClear
  repeat' first
    | with_reducible assumption
    | ((with_reducible refine Within.sub hw ?_); exact rfl)
    | with_reducible refine State.modChan_keeps ?_ ?_
    | with_reducible refine Keeps.setReg ?_ ?_
    | with_reducible refine Keeps.setReg64 ?_ ?_
    | (simp only [R.ACC_c_TRK_MAX_block, R.ACC_c_TRK_MAX_T_HI_block, R.ACC_c_TRK_MAX_T_LO_block, R.ACC_c_TRK_MIN_block, R.ACC_c_TRK_MIN_T_HI_block, R.ACC_c_TRK_MIN_T_LO_block]; (with_reducible refine Within.sub hw ?_); exact rfl)
    | split
    | intro _
    | dsimp only

theorem trkClrWrite_keeps {x0 : Word} (hw : Within [.analog, .block 10] w) (h : Keeps w s t) :
    Keeps w s (trkClrWrite x0 t) := by
  unfold trkClrWrite
  repeat' first
    | with_reducible assumption
    | ((with_reducible refine Within.sub hw ?_); exact rfl)
    | with_reducible refine Keeps.forAll ?_ ?_
    | with_reducible refine trkClear_keeps ?_ ?_
    | split
    | intro _
    | dsimp only

theorem wcmpAdd_keeps {x0 : Nat} {x1 : Int} {x2 : Quad} (hw : Within [.collie, .evlog, .block 0, .block 10] w) (h : Keeps w s t) :
    Keeps w s (wcmpAdd x0 x1 x2 t) := by
  unfold wcmpAdd
  repeat' first
    | with_reducible assumption
    | ((with_reducible refine Within.sub hw ?_); exact rfl)
    | with_reducible refine Keeps.put ?_ ?_
    | with_reducible refine Keeps.raise ?_ ?_
    | (simp only [R.ACC_c_WCMP_CFG_block, R.ACC_c_WCMP_HIGH_block, R.ACC_c_WCMP_LOW_block]; (with_reducible refine Within.sub hw ?_); exact rfl)
    | split
    | intro _
    | dsimp only
    | with_reducible refine Keeps.set_collie ?_ ?_

theorem wcmpCheck_keeps {x0 : Nat} (hw : Within [.evlog, .block 0, .block 10] w) (h : Keeps w s t) :
    Keeps w s (wcmpCheck x0 t) := by
  unfold wcmpCheck
  repeat' first
    | with_reducible assumption
    | ((with_reducible refine Within.sub hw ?_); exact rfl)
    | with_reducible refine Keeps.put ?_ ?_
    | with_reducible refine Keeps.raise ?_ ?_
    | (simp only [R.ACC_c_WCMP_CFG_block, R.ACC_c_WCMP_HIGH_block, R.ACC_c_WCMP_LOW_block]; (with_reducible refine Within.sub hw ?_); exact rfl)
    | split
    | intro _
    | dsimp only

theorem wcmpWrite_keeps {x0 : Nat} {x1 : Nat} {x2 : Word} (hw : Within [.evlog, .block 0, .block 10] w) (h : Keeps w s t) :
    Keeps w s (wcmpWrite x0 x1 x2 t) := by
  unfold wcmpWrite
  repeat' first
    | with_reducible assumption
    | ((with_reducible refine Within.sub hw ?_); exact rfl)
    | with_reducible refine Keeps.setReg ?_ ?_
    | with_reducible refine wcmpCheck_keeps ?_ ?_
    | (simp only [R.ACC_c_WCMP_CFG_block, R.ACC_c_WCMP_HIGH_block, R.ACC_c_WCMP_LOW_block]; (with_reducible refine Within.sub hw ?_); exact rfl)
    | split
    | intro _
    | dsimp only

theorem accCfgWrite_keeps {x0 : Nat} {x1 : Word} (hw : Within [.evlog, .block 0, .block 10] w) (h : Keeps w s t) :
    Keeps w s (accCfgWrite x0 x1 t) := by
  unfold accCfgWrite
  repeat' first
    | with_reducible assumption
    | ((with_reducible refine Within.sub hw ?_); exact rfl)
    | with_reducible refine Keeps.raise ?_ ?_
    | with_reducible refine Keeps.setReg ?_ ?_
    | (simp only [R.ACC_c_CFG_block]; (with_reducible refine Within.sub hw ?_); exact rfl)
    | split
    | intro _
    | dsimp only

theorem accHeadlandOf_keeps {x0 : Nat} (hw : Within [.analog, .block 32] w) (h : Keeps w s t) :
    Keeps w s (accHeadlandOf x0 t) := by
  unfold accHeadlandOf
  repeat' first
    | with_reducible assumption
    | ((with_reducible refine Within.sub hw ?_); exact rfl)
    | with_reducible refine State.setChan_keeps ?_ ?_
    | with_reducible refine chanSettle_keeps ?_ ?_
    | (simp only [R.AU_n_i_CH_CFG_block]; (with_reducible refine Within.sub hw ?_); exact rfl)
    | split
    | intro _
    | dsimp only

theorem accHeadland_keeps (hw : Within [.analog, .block 32] w) (h : Keeps w s t) :
    Keeps w s (accHeadland t) := by
  unfold accHeadland
  repeat' first
    | with_reducible assumption
    | ((with_reducible refine Within.sub hw ?_); exact rfl)
    | with_reducible refine Keeps.forAll ?_ ?_
    | with_reducible refine accHeadlandOf_keeps ?_ ?_
    | split
    | intro _
    | dsimp only

theorem latchWords_keeps {x0 : Master} {x1 : List (Reg × Word)} (hw : Within [.group] w) (h : Keeps w s t) :
    Keeps w s (latchWords x0 x1 t) := by
  unfold latchWords
  repeat' first
    | with_reducible assumption
    | ((with_reducible refine Within.sub hw ?_); exact rfl)
    | with_reducible refine Keeps.foldl ?_ ?_
    | split
    | intro _
    | dsimp only
    | with_reducible refine Keeps.set_group ?_ ?_

theorem accNRead_keeps {x0 : Master} {x1 : Nat} (hw : Within [.group, .readData, .regs] w) (h : Keeps w s t) :
    Keeps w s (accNRead x0 x1 t) := by
  unfold accNRead
  repeat' first
    | with_reducible assumption
    | ((with_reducible refine Within.sub hw ?_); exact rfl)
    | with_reducible refine Keeps.setReg_any ?_ ?_
    | with_reducible refine latchWords_keeps ?_ ?_
    | (simp only [R.ACC_c_CFG_block]; (with_reducible refine Within.sub hw ?_); exact rfl)
    | split
    | intro _
    | dsimp only
    | with_reducible refine Keeps.set_readData ?_ ?_

theorem trkMinRead_keeps {x0 : Master} {x1 : Nat} (hw : Within [.group, .readData, .block 10] w) (h : Keeps w s t) :
    Keeps w s (trkMinRead x0 x1 t) := by
  unfold trkMinRead
  repeat' first
    | with_reducible assumption
    | ((with_reducible refine Within.sub hw ?_); exact rfl)
    | with_reducible refine latchWords_keeps ?_ ?_
    | (simp only [R.ACC_c_TRK_MAX_block, R.ACC_c_TRK_MAX_T_HI_block, R.ACC_c_TRK_MAX_T_LO_block, R.ACC_c_TRK_MIN_block, R.ACC_c_TRK_MIN_T_HI_block, R.ACC_c_TRK_MIN_T_LO_block]; (with_reducible refine Within.sub hw ?_); exact rfl)
    | split
    | intro _
    | dsimp only
    | with_reducible refine Keeps.set_readData ?_ ?_

theorem deliver_keeps {x0 : Nat} {x1 : Nat} {x2 : Int} {x3 : Bool} {x4 : Bool} {x5 : Quad} (hw : Within [.analog, .collie, .evlog, .block 0, .block 10] w) (h : Keeps w s t) :
    Keeps w s (deliver x0 x1 x2 x3 x4 x5 t) := by
  unfold deliver
  repeat' first
    | with_reducible assumption
    | ((with_reducible refine Within.sub hw ?_); exact rfl)
    | with_reducible refine accAdd_keeps ?_ ?_
    | with_reducible refine trkAdd_keeps ?_ ?_
    | with_reducible refine wcmpAdd_keeps ?_ ?_
    | split
    | intro _
    | dsimp only

theorem legacyResult_keeps {x0 : Nat} {x1 : Nat} {x2 : Int} {x3 : Bool} {x4 : Bool} {x5 : Bool} (hw : Within [.collie, .evlog, .block 0, .block 32] w) (h : Keeps w s t) :
    Keeps w s (legacyResult x0 x1 x2 x3 x4 x5 t) := by
  unfold legacyResult
  repeat' first
    | with_reducible assumption
    | ((with_reducible refine Within.sub hw ?_); exact rfl)
    | with_reducible refine Keeps.raise ?_ ?_
    | with_reducible refine Keeps.setReg ?_ ?_
    | with_reducible refine hwPostCfg_keeps ?_ ?_
    | (simp only [R.AU_n_CTRL_block, R.AU_n_EVENTS_block, R.AU_n_LEG_CFG_block, R.AU_n_LEG_RES_e_block, R.AU_n_PASS_CNT_block]; (with_reducible refine Within.sub hw ?_); exact rfl)
    | split
    | intro _
    | dsimp only

theorem regularConv_keeps {x0 : Nat} {x1 : Nat} {x2 : Nat} {x3 : Quad} (hw : Within [.analog, .collie, .evlog, .block 0, .block 10, .block 32] w) (h : Keeps w s t) :
    Keeps w s (regularConv x0 x1 x2 x3 t) := by
  unfold regularConv
  repeat' first
    | with_reducible assumption
    | ((with_reducible refine Within.sub hw ?_); exact rfl)
    | with_reducible refine Keeps.incWrap ?_ ?_
    | with_reducible refine State.setAu_keeps ?_ ?_
    | with_reducible refine State.setChan_keeps ?_ ?_
    | with_reducible refine applyStaged_keeps ?_ ?_
    | with_reducible refine deliver_keeps ?_ ?_
    | with_reducible refine legacyResult_keeps ?_ ?_
    | (simp only [R.AU_n_PASS_CNT_block, R.AU_n_SEQ_e_block]; (with_reducible refine Within.sub hw ?_); exact rfl)
    | split
    | intro _
    | dsimp only

theorem injectedConv_keeps {x0 : Nat} {x1 : Nat} {x2 : Nat} {x3 : Quad} (hw : Within [.analog, .collie, .evlog, .block 0, .block 10, .block 32] w) (h : Keeps w s t) :
    Keeps w s (injectedConv x0 x1 x2 x3 t) := by
  unfold injectedConv
  repeat' first
    | with_reducible assumption
    | ((with_reducible refine Within.sub hw ?_); exact rfl)
    | with_reducible refine State.setAu_keeps ?_ ?_
    | with_reducible refine State.setChan_keeps ?_ ?_
    | with_reducible refine applyStaged_keeps ?_ ?_
    | with_reducible refine deliver_keeps ?_ ?_
    | (simp only [R.AU_n_INJ_CTRL_block, R.AU_n_INJ_e_block]; (with_reducible refine Within.sub hw ?_); exact rfl)
    | split
    | intro _
    | dsimp only

theorem restartFilters_keeps {x0 : Nat} (hw : Within [.analog] w) (h : Keeps w s t) :
    Keeps w s (restartFilters x0 t) := by
  unfold restartFilters
  repeat' first
    | with_reducible assumption
    | ((with_reducible refine Within.sub hw ?_); exact rfl)
    | with_reducible refine Keeps.forAll ?_ ?_
    | with_reducible refine State.modChan_keeps ?_ ?_
    | split
    | intro _
    | dsimp only

theorem auSettle_keeps {x0 : Nat} {x1 : Quad} (hw : Within [.analog] w) (h : Keeps w s t) :
    Keeps w s (auSettle x0 x1 t) := by
  unfold auSettle
  repeat' first
    | with_reducible assumption
    | ((with_reducible refine Within.sub hw ?_); exact rfl)
    | with_reducible refine State.setAu_keeps ?_ ?_
    | with_reducible refine restartFilters_keeps ?_ ?_
    | split
    | intro _
    | dsimp only

theorem conversion_keeps {x0 : Nat} {x1 : Nat} (hw : Within [.analog, .collie, .evlog, .raw, .block 0, .block 10, .block 32] w) (h : Keeps w s t) :
    Keeps w s (conversion x0 x1 t) := by
  unfold conversion
  repeat' first
    | with_reducible assumption
    | ((with_reducible refine Within.sub hw ?_); exact rfl)
    | with_reducible refine Keeps.advanceTo ?_ ?_
    | with_reducible refine auSettle_keeps ?_ ?_
    | with_reducible refine injectedConv_keeps ?_ ?_
    | with_reducible refine regularConv_keeps ?_ ?_
    | split
    | intro _
    | dsimp only

theorem markGap_keeps {x0 : Nat} (hw : Within [.analog] w) (h : Keeps w s t) :
    Keeps w s (markGap x0 t) := by
  unfold markGap
  repeat' first
    | with_reducible assumption
    | ((with_reducible refine Within.sub hw ?_); exact rfl)
    | with_reducible refine Keeps.forAll ?_ ?_
    | with_reducible refine State.modChan_keeps ?_ ?_
    | split
    | intro _
    | dsimp only

theorem auStart_keeps {x0 : Nat} (hw : Within [.analog, .capture, .collie, .evlog, .mem, .block 0, .block 12, .block 24] w) (h : Keeps w s t) :
    Keeps w s (auStart x0 t) := by
  unfold auStart
  repeat' first
    | with_reducible assumption
    | ((with_reducible refine Within.sub hw ?_); exact rfl)
    | with_reducible refine State.setAu_keeps ?_ ?_
    | with_reducible refine auStreamStops_keeps ?_ ?_
    | with_reducible refine markGap_keeps ?_ ?_
    | with_reducible refine restartFilters_keeps ?_ ?_
    | split
    | intro _
    | dsimp only

theorem auStop_keeps {x0 : Nat} (hw : Within [.analog, .capture, .collie, .evlog, .mem, .block 0, .block 12, .block 24] w) (h : Keeps w s t) :
    Keeps w s (auStop x0 t) := by
  unfold auStop
  repeat' first
    | with_reducible assumption
    | ((with_reducible refine Within.sub hw ?_); exact rfl)
    | with_reducible refine State.setAu_keeps ?_ ?_
    | with_reducible refine auStreamCheck_keeps ?_ ?_
    | split
    | intro _
    | dsimp only

theorem auCtrlWrite_keeps {x0 : Nat} {x1 : Word} (hw : Within [.analog, .capture, .collie, .evlog, .mem, .block 0, .block 12, .block 24, .block 32] w) (h : Keeps w s t) :
    Keeps w s (auCtrlWrite x0 x1 t) := by
  unfold auCtrlWrite
  repeat' first
    | with_reducible assumption
    | ((with_reducible refine Within.sub hw ?_); exact rfl)
    | with_reducible refine Keeps.raise ?_ ?_
    | with_reducible refine Keeps.setReg ?_ ?_
    | with_reducible refine auStart_keeps ?_ ?_
    | with_reducible refine auStop_keeps ?_ ?_
    | (simp only [R.ACC_c_CFG_block, R.AU_n_CTRL_block, R.AU_n_EVENTS_block]; (with_reducible refine Within.sub hw ?_); exact rfl)
    | split
    | intro _
    | dsimp only

theorem auEntryWrite_keeps {x0 : Nat} {x1 : Reg} {x2 : Word} (hw : Within [.evlog, .block 0, .block 32, .block (blockOf x1.addr)] w) (h : Keeps w s t) :
    Keeps w s (auEntryWrite x0 x1 x2 t) := by
  unfold auEntryWrite
  repeat' first
    | with_reducible assumption
    | ((with_reducible refine Within.sub hw ?_); exact rfl)
    | exact hw.sub (by simp [Within])
    | with_reducible refine Keeps.raise ?_ ?_
    | with_reducible refine Keeps.setReg ?_ ?_
    | (simp only [R.AU_n_EVENTS_block]; (with_reducible refine Within.sub hw ?_); exact rfl)
    | split
    | intro _
    | dsimp only

theorem injRequest_keeps {x0 : Nat} {x1 : Quad} (hw : Within [.analog, .evlog, .block 0, .block 32] w) (h : Keeps w s t) :
    Keeps w s (injRequest x0 x1 t) := by
  unfold injRequest
  repeat' first
    | with_reducible assumption
    | ((with_reducible refine Within.sub hw ?_); exact rfl)
    | with_reducible refine Keeps.incSat ?_ ?_
    | with_reducible refine Keeps.raise ?_ ?_
    | with_reducible refine State.setAu_keeps ?_ ?_
    | (simp only [R.AU_n_EVENTS_block, R.AU_n_INJ_DROP_CNT_block]; (with_reducible refine Within.sub hw ?_); exact rfl)
    | split
    | intro _
    | dsimp only

theorem injCtrlWrite_keeps {x0 : Nat} {x1 : Word} (hw : Within [.analog, .evlog, .block 0, .block 32] w) (h : Keeps w s t) :
    Keeps w s (injCtrlWrite x0 x1 t) := by
  unfold injCtrlWrite
  repeat' first
    | with_reducible assumption
    | ((with_reducible refine Within.sub hw ?_); exact rfl)
    | with_reducible refine Keeps.raise ?_ ?_
    | with_reducible refine Keeps.setReg ?_ ?_
    | with_reducible refine injRequest_keeps ?_ ?_
    | (simp only [R.AU_n_EVENTS_block, R.AU_n_INJ_CTRL_block]; (with_reducible refine Within.sub hw ?_); exact rfl)
    | split
    | intro _
    | dsimp only

theorem injSend_keeps {x0 : Nat} {x1 : Nat → Quad} {x2 : Nat → Bool} (hw : Within [.analog] w) (h : Keeps w s t) :
    Keeps w s (injSend x0 x1 x2 t) := by
  unfold injSend
  repeat' first
    | with_reducible assumption
    | ((with_reducible refine Within.sub hw ?_); exact rfl)
    | with_reducible refine Keeps.forAll ?_ ?_
    | (simp only [R.AU_n_INJ_CTRL_block]; (with_reducible refine Within.sub hw ?_); exact rfl)
    | split
    | intro _
    | dsimp only
    | with_reducible refine Keeps.set_analog ?_ ?_

theorem injHeadland_keeps (hw : Within [.analog] w) (h : Keeps w s t) :
    Keeps w s (injHeadland t) := by
  unfold injHeadland
  repeat' first
    | with_reducible assumption
    | ((with_reducible refine Within.sub hw ?_); exact rfl)
    | with_reducible refine injSend_keeps ?_ ?_
    | (simp only [R.AU_n_INJ_CTRL_block]; (with_reducible refine Within.sub hw ?_); exact rfl)
    | split
    | intro _
    | dsimp only

theorem injectedRequest_keeps {x0 : Nat} (hw : Within [.analog, .evlog, .raw, .block 0, .block 32] w) (h : Keeps w s t) :
    Keeps w s (injectedRequest x0 t) := by
  unfold injectedRequest
  repeat' first
    | with_reducible assumption
    | ((with_reducible refine Within.sub hw ?_); exact rfl)
    | with_reducible refine Keeps.advanceTo ?_ ?_
    | with_reducible refine injRequest_keeps ?_ ?_
    | split
    | intro _
    | dsimp only
    | with_reducible refine Keeps.set_analog ?_ ?_

theorem calAbandon_keeps {x0 : Nat} (hw : Within [.analog, .evlog, .block 0, .block 32] w) (h : Keeps w s t) :
    Keeps w s (calAbandon x0 t) := by
  unfold calAbandon
  repeat' first
    | with_reducible assumption
    | ((with_reducible refine Within.sub hw ?_); exact rfl)
    | with_reducible refine Keeps.incSat ?_ ?_
    | with_reducible refine Keeps.put ?_ ?_
    | with_reducible refine Keeps.raise ?_ ?_
    | with_reducible refine Keeps.raiseIf ?_ ?_
    | with_reducible refine State.setAu_keeps ?_ ?_
    | (simp only [R.AU_n_CAL_ABORT_CNT_block, R.AU_n_CAL_CTRL_block, R.AU_n_EVENTS_block]; (with_reducible refine Within.sub hw ?_); exact rfl)
    | split
    | intro _
    | dsimp only

theorem injBegin_keeps {x0 : Nat} {x1 : Quad} (hw : Within [.analog] w) (h : Keeps w s t) :
    Keeps w s (injBegin x0 x1 t) := by
  unfold injBegin
  repeat' first
    | with_reducible assumption
    | ((with_reducible refine Within.sub hw ?_); exact rfl)
    | with_reducible refine State.setAu_keeps ?_ ?_
    | split
    | intro _
    | dsimp only

theorem injectedStart_keeps {x0 : Nat} (hw : Within [.analog, .evlog, .raw, .block 0, .block 32] w) (h : Keeps w s t) :
    Keeps w s (injectedStart x0 t) := by
  unfold injectedStart
  repeat' first
    | with_reducible assumption
    | ((with_reducible refine Within.sub hw ?_); exact rfl)
    | with_reducible refine Keeps.advanceTo ?_ ?_
    | with_reducible refine calAbandon_keeps ?_ ?_
    | with_reducible refine injBegin_keeps ?_ ?_
    | split
    | intro _
    | dsimp only

theorem calCtrlWrite_keeps {x0 : Nat} {x1 : Word} (hw : Within [.analog, .evlog, .block 0, .block 32] w) (h : Keeps w s t) :
    Keeps w s (calCtrlWrite x0 x1 t) := by
  unfold calCtrlWrite
  repeat' first
    | with_reducible assumption
    | ((with_reducible refine Within.sub hw ?_); exact rfl)
    | with_reducible refine Keeps.put ?_ ?_
    | with_reducible refine Keeps.raise ?_ ?_
    | with_reducible refine State.setAu_keeps ?_ ?_
    | (simp only [R.AU_n_CAL_CTRL_block, R.AU_n_EVENTS_block]; (with_reducible refine Within.sub hw ?_); exact rfl)
    | split
    | intro _
    | dsimp only

theorem calBegin_keeps {x0 : Nat} (hw : Within [.analog, .capture, .collie, .evlog, .mem, .raw, .block 0, .block 12, .block 24] w) (h : Keeps w s t) :
    Keeps w s (calBegin x0 t) := by
  unfold calBegin
  repeat' first
    | with_reducible assumption
    | ((with_reducible refine Within.sub hw ?_); exact rfl)
    | with_reducible refine Keeps.advanceTo ?_ ?_
    | with_reducible refine State.setAu_keeps ?_ ?_
    | with_reducible refine auStreamStops_keeps ?_ ?_
    | with_reducible refine markGap_keeps ?_ ?_
    | split
    | intro _
    | dsimp only

theorem calResult_keeps {x0 : Nat} {x1 : Option (List (Nat × Nat))} (hw : Within [.evlog, .block 0, .block 32] w) (h : Keeps w s t) :
    Keeps w s (calResult x0 x1 t) := by
  unfold calResult
  repeat' first
    | with_reducible assumption
    | ((with_reducible refine Within.sub hw ?_); exact rfl)
    | with_reducible refine Keeps.forAll ?_ ?_
    | with_reducible refine Keeps.put ?_ ?_
    | with_reducible refine Keeps.raise ?_ ?_
    | with_reducible refine Keeps.setReg ?_ ?_
    | with_reducible refine Keeps.setReg64 ?_ ?_
    | (simp only [R.AU_n_CAL_CTRL_block, R.AU_n_CAL_GAIN_g_block, R.AU_n_CAL_LAST_V_HI_block, R.AU_n_CAL_LAST_V_LO_block, R.AU_n_CAL_OFS_g_block, R.AU_n_EVENTS_block]; (with_reducible refine Within.sub hw ?_); exact rfl)
    | split
    | intro _
    | dsimp only

theorem heldStart_keeps {x0 : Nat} {x1 : Quad} (hw : Within [.analog, .free, .block 32] w) (h : Keeps w s t) :
    Keeps w s (heldStart x0 x1 t) := by
  unfold heldStart
  repeat' first
    | with_reducible assumption
    | ((with_reducible refine Within.sub hw ?_); exact rfl)
    | with_reducible refine Keeps.maxFld ?_ ?_
    | with_reducible refine State.setAu_keeps ?_ ?_
    | with_reducible refine injBegin_keeps ?_ ?_
    | (simp only [R.AU_n_INJ_HOLD_MAX_block]; (with_reducible refine Within.sub hw ?_); exact rfl)
    | split
    | intro _
    | dsimp only
    | with_reducible refine Keeps.set_free ?_ ?_

theorem calEnd_keeps {x0 : Nat} {x1 : CalSums} (hw : Within [.analog, .evlog, .free, .raw, .block 0, .block 32] w) (h : Keeps w s t) :
    Keeps w s (calEnd x0 x1 t) := by
  unfold calEnd
  repeat' first
    | with_reducible assumption
    | ((with_reducible refine Within.sub hw ?_); exact rfl)
    | with_reducible refine Keeps.advanceTo ?_ ?_
    | with_reducible refine State.setAu_keeps ?_ ?_
    | with_reducible refine calResult_keeps ?_ ?_
    | with_reducible refine heldStart_keeps ?_ ?_
    | with_reducible refine restartFilters_keeps ?_ ?_
    | split
    | intro _
    | dsimp only

theorem dacLoad_keeps (hw : Within [.head, .raw, .block 11] w) (h : Keeps w s t) :
    Keeps w s (dacLoad t) := by
  unfold dacLoad
  repeat' first
    | with_reducible assumption
    | ((with_reducible refine Within.sub hw ?_); exact rfl)
    | with_reducible refine Keeps.advanceTo ?_ ?_
    | with_reducible refine Keeps.forAll ?_ ?_
    | with_reducible refine Keeps.setReg ?_ ?_
    | (simp only [R.DAC_n_CODE_block]; (with_reducible refine Within.sub hw ?_); exact rfl)
    | split
    | intro _
    | dsimp only
    | with_reducible refine Keeps.set_head ?_ ?_

theorem dacrefReady_keeps (hw : Within [.block 11] w) (h : Keeps w s t) :
    Keeps w s (dacrefReady t) := by
  unfold dacrefReady
  repeat' first
    | with_reducible assumption
    | ((with_reducible refine Within.sub hw ?_); exact rfl)
    | with_reducible refine Keeps.put ?_ ?_
    | split
    | intro _
    | dsimp only

theorem accOp_keeps {x0 : Nat} {x1 : VarIdx} {x2 : AccRec → Quad} (hw : Within [.collie] w) (h : Keeps w s t) :
    Keeps w s (accOp x0 x1 x2 t) := by
  unfold accOp
  repeat' first
    | with_reducible assumption
    | ((with_reducible refine Within.sub hw ?_); exact rfl)
    | with_reducible refine code5_keeps ?_ ?_
    | with_reducible refine readVar_keeps ?_ ?_
    | split
    | intro _
    | dsimp only

end Sys2Proof.Machine
end

