-- ==== Sys2Proof/Laws/Keeps/Glean.lean ====
section
/-! SUPPORT. What the operations of Sys2Proof/Machine/Glean.lean leave unchanged. -/

set_option linter.all false
set_option Elab.async false

namespace Sys2Proof.Machine

variable {w : List Piece} {s t : State}

theorem State.setSigState_keeps {x1 : Nat} {x2 : SigState} (hw : Within [.glean] w) (h : Keeps w s t) :
    Keeps w s (State.setSigState t x1 x2) := by
  unfold State.setSigState
  repeat' first
    | with_reducible assumption
    | ((with_reducible refine Within.sub hw ?_); exact rfl)
    | split
    | intro _
    | dsimp only
    | with_reducible refine Keeps.set_glean ?_ ?_

theorem State.setBlock_keeps {x1 : Nat} {x2 : Option Block} (hw : Within [.glean] w) (h : Keeps w s t) :
    Keeps w s (State.setBlock t x1 x2) := by
  unfold State.setBlock
  repeat' first
    | with_reducible assumption
    | ((with_reducible refine Within.sub hw ?_); exact rfl)
    | split
    | intro _
    | dsimp only
    | with_reducible refine Keeps.set_glean ?_ ?_

theorem State.setLoss_keeps {x1 : Nat} {x2 : Loss} (hw : Within [.glean] w) (h : Keeps w s t) :
    Keeps w s (State.setLoss t x1 x2) := by
  unfold State.setLoss
  repeat' first
    | with_reducible assumption
    | ((with_reducible refine Within.sub hw ?_); exact rfl)
    | split
    | intro _
    | dsimp only
    | with_reducible refine Keeps.set_glean ?_ ?_

theorem lossAdd_keeps {x0 : Nat} {x1 : Nat} {x2 : Nat} {x3 : Quad} {x4 : Quad} (hw : Within [.glean, .block 13] w) (h : Keeps w s t) :
    Keeps w s (lossAdd x0 x1 x2 x3 x4 t) := by
  unfold lossAdd
  repeat' first
    | with_reducible assumption
    | ((with_reducible refine Within.sub hw ?_); exact rfl)
    | with_reducible refine Keeps.addSat ?_ ?_
    | with_reducible refine State.setLoss_keeps ?_ ?_
    | (simp only [R.GLEAN_k_LOST_CNT_block]; (with_reducible refine Within.sub hw ?_); exact rfl)
    | split
    | intro _
    | dsimp only

theorem blockLost_keeps {x0 : Block} (hw : Within [.evlog, .glean, .block 0, .block 13] w) (h : Keeps w s t) :
    Keeps w s (blockLost x0 t) := by
  unfold blockLost
  repeat' first
    | with_reducible assumption
    | ((with_reducible refine Within.sub hw ?_); exact rfl)
    | with_reducible refine lossAdd_keeps ?_ ?_
    | split
    | intro _
    | dsimp only

theorem dropped_keeps {x0 : Nat} (hw : Within [.evlog, .block 0, .block 13] w) (h : Keeps w s t) :
    Keeps w s (dropped x0 t) := by
  unfold dropped
  repeat' first
    | with_reducible assumption
    | ((with_reducible refine Within.sub hw ?_); exact rfl)
    | with_reducible refine Keeps.put ?_ ?_
    | with_reducible refine Keeps.raise ?_ ?_
    | split
    | intro _
    | dsimp only

theorem discard_keeps {x0 : Block} (hw : Within [.evlog, .glean, .block 0, .block 13] w) (h : Keeps w s t) :
    Keeps w s (discard x0 t) := by
  unfold discard
  repeat' first
    | with_reducible assumption
    | ((with_reducible refine Within.sub hw ?_); exact rfl)
    | with_reducible refine blockLost_keeps ?_ ?_
    | with_reducible refine dropped_keeps ?_ ?_
    | split
    | intro _
    | dsimp only

theorem lossEnds_keeps {x0 : Nat} (hw : Within [.glean] w) (h : Keeps w s t) :
    Keeps w s (lossEnds x0 t) := by
  unfold lossEnds
  repeat' first
    | with_reducible assumption
    | ((with_reducible refine Within.sub hw ?_); exact rfl)
    | with_reducible refine State.setLoss_keeps ?_ ?_
    | split
    | intro _
    | dsimp only
    | with_reducible refine Keeps.set_glean ?_ ?_

theorem dropRule_keeps {x0 : Nat} {x1 : Nat} {x2 : Nat} (hw : Within [.glean, .block 13] w) (h : Keeps w s t) :
    Keeps w s (dropRule x0 x1 x2 t) := by
  unfold dropRule
  repeat' first
    | with_reducible assumption
    | ((with_reducible refine Within.sub hw ?_); exact rfl)
    | with_reducible refine Keeps.put ?_ ?_
    | with_reducible refine lossEnds_keeps ?_ ?_
    | split
    | intro _
    | dsimp only

theorem fillRules_keeps (hw : Within [.glean, .block 13] w) (h : Keeps w s t) :
    Keeps w s (fillRules t) := by
  unfold fillRules
  repeat' first
    | with_reducible assumption
    | ((with_reducible refine Within.sub hw ?_); exact rfl)
    | with_reducible refine Keeps.put ?_ ?_
    | with_reducible refine dropRule_keeps ?_ ?_
    | split
    | intro _
    | dsimp only

theorem gleanHalt_keeps (hw : Within [.evlog, .block 0, .block 13] w) (h : Keeps w s t) :
    Keeps w s (gleanHalt t) := by
  unfold gleanHalt
  repeat' first
    | with_reducible assumption
    | ((with_reducible refine Within.sub hw ?_); exact rfl)
    | with_reducible refine Keeps.put ?_ ?_
    | with_reducible refine Keeps.raise ?_ ?_
    | with_reducible refine Keeps.setReg64 ?_ ?_
    | split
    | intro _
    | dsimp only

theorem reclaim_keeps {x0 : Block} (hw : Within [.evlog, .glean, .block 0, .block 13] w) (h : Keeps w s t) :
    Keeps w s (reclaim x0 t) := by
  unfold reclaim
  repeat' first
    | with_reducible assumption
    | ((with_reducible refine Within.sub hw ?_); exact rfl)
    | with_reducible refine discard_keeps ?_ ?_
    | split
    | intro _
    | dsimp only
    | with_reducible refine Keeps.set_glean ?_ ?_

theorem keepBlock_keeps {x0 : Block} (hw : Within [.glean, .mem, .block 13] w) (h : Keeps w s t) :
    Keeps w s (keepBlock x0 t) := by
  unfold keepBlock
  repeat' first
    | with_reducible assumption
    | ((with_reducible refine Within.sub hw ?_); exact rfl)
    | with_reducible refine Keeps.incWrap ?_ ?_
    | with_reducible refine State.memWrite_keeps ?_ ?_
    | split
    | intro _
    | dsimp only
    | with_reducible refine Keeps.set_glean ?_ ?_

theorem closeBlock_keeps {x0 : Nat} {x1 : Bool} (hw : Within [.evlog, .glean, .mem, .block 0, .block 13] w) (h : Keeps w s t) :
    Keeps w s (closeBlock x0 x1 t) := by
  unfold closeBlock
  repeat' first
    | with_reducible assumption
    | ((with_reducible refine Within.sub hw ?_); exact rfl)
    | with_reducible refine State.setBlock_keeps ?_ ?_
    | with_reducible refine discard_keeps ?_ ?_
    | with_reducible refine fillRules_keeps ?_ ?_
    | with_reducible refine keepBlock_keeps ?_ ?_
    | split
    | intro _
    | dsimp only

theorem makeRoom_keeps {x0 : Nat} (hw : Within [.evlog, .glean, .block 0, .block 13] w) (h : Keeps w s t) :
    Keeps w s (makeRoom x0 t).1 := by
  unfold makeRoom
  repeat' first
    | with_reducible assumption
    | ((with_reducible refine Within.sub hw ?_); exact rfl)
    | with_reducible refine dropped_keeps ?_ ?_
    | with_reducible refine gleanHalt_keeps ?_ ?_
    | with_reducible refine reclaim_keeps ?_ ?_
    | split
    | intro _
    | dsimp only

theorem makeRoom_keeps_eq {x0 : Nat} {y0} {u : State} (e : makeRoom x0 t = (u, y0)) (hw : Within [.evlog, .glean, .block 0, .block 13] w) (h : Keeps w s t) : Keeps w s u := by
  have := makeRoom_keeps hw h (x0 := x0)
  rw [e] at this; exact this

theorem openBlock_keeps {x0 : Nat} (hw : Within [.evlog, .glean, .block 0, .block 13] w) (h : Keeps w s t) :
    Keeps w s (openBlock x0 t).1 := by
  unfold openBlock
  repeat' first
    | with_reducible assumption
    | ((with_reducible refine Within.sub hw ?_); exact rfl)
    | with_reducible refine lossEnds_keeps ?_ ?_
    | with_reducible refine makeRoom_keeps ?_ ?_
    | with_reducible refine makeRoom_keeps_eq (by assumption) ?_ ?_
    | split
    | intro _
    | dsimp only

theorem openBlock_keeps_eq {x0 : Nat} {y0} {u : State} (e : openBlock x0 t = (u, y0)) (hw : Within [.evlog, .glean, .block 0, .block 13] w) (h : Keeps w s t) : Keeps w s u := by
  have := openBlock_keeps hw h (x0 := x0)
  rw [e] at this; exact this

theorem putRecord_keeps {x0 : Nat} {x1 : Quad} {x2 : Quad → List Byte} (hw : Within [.evlog, .glean, .mem, .block 0, .block 13] w) (h : Keeps w s t) :
    Keeps w s (putRecord x0 x1 x2 t).1 := by
  unfold putRecord
  repeat' first
    | with_reducible assumption
    | ((with_reducible refine Within.sub hw ?_); exact rfl)
    | with_reducible refine Keeps.incSat ?_ ?_
    | with_reducible refine State.memWrite_keeps ?_ ?_
    | with_reducible refine State.setBlock_keeps ?_ ?_
    | with_reducible refine closeBlock_keeps ?_ ?_
    | with_reducible refine openBlock_keeps ?_ ?_
    | with_reducible refine openBlock_keeps_eq (by assumption) ?_ ?_
    | (simp only [R.GLEAN_k_REC_CNT_block]; (with_reducible refine Within.sub hw ?_); exact rfl)
    | split
    | intro _
    | dsimp only

theorem putRecord_keeps_eq {x0 : Nat} {x1 : Quad} {x2 : Quad → List Byte} {y0} {u : State} (e : putRecord x0 x1 x2 t = (u, y0)) (hw : Within [.evlog, .glean, .mem, .block 0, .block 13] w) (h : Keeps w s t) : Keeps w s u := by
  have := putRecord_keeps hw h (x0 := x0) (x1 := x1) (x2 := x2)
  rw [e] at this; exact this

theorem gleanRecord_keeps {x0 : Nat} {x1 : Quad} {x2 : Nat} {x3 : Quad} {x4 : Nat} (hw : Within [.evlog, .glean, .mem, .block 0, .block 13] w) (h : Keeps w s t) :
    Keeps w s (gleanRecord x0 x1 x2 x3 x4 t) := by
  unfold gleanRecord
  repeat' first
    | with_reducible assumption
    | ((with_reducible refine Within.sub hw ?_); exact rfl)
    | with_reducible refine State.setSigState_keeps ?_ ?_
    | with_reducible refine lossAdd_keeps ?_ ?_
    | with_reducible refine putRecord_keeps ?_ ?_
    | with_reducible refine putRecord_keeps_eq (by assumption) ?_ ?_
    | split
    | intro _
    | dsimp only

theorem gleanMark_keeps {x0 : Nat} {x1 : Quad} {x2 : Quad} (hw : Within [.evlog, .glean, .mem, .block 0, .block 13] w) (h : Keeps w s t) :
    Keeps w s (gleanMark x0 x1 x2 t) := by
  unfold gleanMark
  repeat' first
    | with_reducible assumption
    | ((with_reducible refine Within.sub hw ?_); exact rfl)
    | with_reducible refine gleanRecord_keeps ?_ ?_
    | split
    | intro _
    | dsimp only

theorem gleanValue_keeps {x0 : Nat} {x1 : Quad} {x2 : Nat} {x3 : Quad} {x4 : Bool} (hw : Within [.evlog, .glean, .mem, .block 0, .block 13] w) (h : Keeps w s t) :
    Keeps w s (gleanValue x0 x1 x2 x3 x4 t) := by
  unfold gleanValue
  repeat' first
    | with_reducible assumption
    | ((with_reducible refine Within.sub hw ?_); exact rfl)
    | with_reducible refine gleanRecord_keeps ?_ ?_
    | split
    | intro _
    | dsimp only

theorem gleanEdge_keeps {x0 : Nat} {x1 : Bool} {x2 : Nat} {x3 : Quad} (hw : Within [.evlog, .glean, .mem, .block 0, .block 13] w) (h : Keeps w s t) :
    Keeps w s (gleanEdge x0 x1 x2 x3 t) := by
  unfold gleanEdge
  repeat' first
    | with_reducible assumption
    | ((with_reducible refine Within.sub hw ?_); exact rfl)
    | with_reducible refine State.setSigState_keeps ?_ ?_
    | with_reducible refine gleanRecord_keeps ?_ ?_
    | split
    | intro _
    | dsimp only

theorem gleanHoldEnd_keeps {x0 : Nat} (hw : Within [.evlog, .glean, .mem, .raw, .block 0, .block 13] w) (h : Keeps w s t) :
    Keeps w s (gleanHoldEnd x0 t) := by
  unfold gleanHoldEnd
  repeat' first
    | with_reducible assumption
    | ((with_reducible refine Within.sub hw ?_); exact rfl)
    | with_reducible refine Keeps.advanceToV ?_ ?_
    | with_reducible refine State.setSigState_keeps ?_ ?_
    | with_reducible refine gleanRecord_keeps ?_ ?_
    | split
    | intro _
    | dsimp only

theorem blockTimeClose_keeps {x0 : Nat} (hw : Within [.evlog, .glean, .mem, .raw, .block 0, .block 13] w) (h : Keeps w s t) :
    Keeps w s (blockTimeClose x0 t) := by
  unfold blockTimeClose
  repeat' first
    | with_reducible assumption
    | ((with_reducible refine Within.sub hw ?_); exact rfl)
    | with_reducible refine Keeps.advanceToV ?_ ?_
    | with_reducible refine closeBlock_keeps ?_ ?_
    | split
    | intro _
    | dsimp only

theorem gapRecord_keeps {x0 : Nat} (hw : Within [.evlog, .glean, .mem, .block 0, .block 13] w) (h : Keeps w s t) :
    Keeps w s (gapRecord x0 t) := by
  unfold gapRecord
  repeat' first
    | with_reducible assumption
    | ((with_reducible refine Within.sub hw ?_); exact rfl)
    | with_reducible refine Keeps.put ?_ ?_
    | with_reducible refine State.setLoss_keeps ?_ ?_
    | with_reducible refine putRecord_keeps ?_ ?_
    | with_reducible refine putRecord_keeps_eq (by assumption) ?_ ?_
    | split
    | intro _
    | dsimp only

theorem gleanResume_keeps (hw : Within [.glean, .block 13] w) (h : Keeps w s t) :
    Keeps w s (gleanResume t) := by
  unfold gleanResume
  repeat' first
    | with_reducible assumption
    | ((with_reducible refine Within.sub hw ?_); exact rfl)
    | with_reducible refine Keeps.forAll ?_ ?_
    | with_reducible refine Keeps.put ?_ ?_
    | with_reducible refine State.setLoss_keeps ?_ ?_
    | with_reducible refine lossEnds_keeps ?_ ?_
    | split
    | intro _
    | dsimp only

theorem spoolFault_keeps {x0 : List Nat} (hw : Within [.evlog, .glean, .block 0, .block 13] w) (h : Keeps w s t) :
    Keeps w s (spoolFault x0 t) := by
  unfold spoolFault
  repeat' first
    | with_reducible assumption
    | ((with_reducible refine Within.sub hw ?_); exact rfl)
    | with_reducible refine Keeps.forAll ?_ ?_
    | with_reducible refine Keeps.put ?_ ?_
    | with_reducible refine Keeps.raise ?_ ?_
    | with_reducible refine blockLost_keeps ?_ ?_
    | with_reducible refine lossEnds_keeps ?_ ?_
    | split
    | intro _
    | dsimp only
    | with_reducible refine Keeps.set_glean ?_ ?_

theorem spoolCopy_keeps {x0 : SpoolEnd} (hw : Within [.evlog, .glean, .mem, .block 0, .block 13] w) (h : Keeps w s t) :
    Keeps w s (spoolCopy x0 t) := by
  unfold spoolCopy
  repeat' first
    | with_reducible assumption
    | ((with_reducible refine Within.sub hw ?_); exact rfl)
    | with_reducible refine State.memWrite_keeps ?_ ?_
    | with_reducible refine gleanResume_keeps ?_ ?_
    | with_reducible refine spoolFault_keeps ?_ ?_
    | split
    | intro _
    | dsimp only
    | with_reducible refine Keeps.set_glean ?_ ?_

theorem spoolAgain_keeps (hw : Within [.evlog, .glean, .block 0, .block 13] w) (h : Keeps w s t) :
    Keeps w s (spoolAgain t) := by
  unfold spoolAgain
  repeat' first
    | with_reducible assumption
    | ((with_reducible refine Within.sub hw ?_); exact rfl)
    | with_reducible refine Keeps.forAll ?_ ?_
    | with_reducible refine Keeps.put ?_ ?_
    | with_reducible refine blockLost_keeps ?_ ?_
    | with_reducible refine lossEnds_keeps ?_ ?_
    | split
    | intro _
    | dsimp only
    | with_reducible refine Keeps.set_glean ?_ ?_

theorem gleanAck_keeps {x0 : Nat} (hw : Within [.evlog, .glean, .block 0, .block 13] w) (h : Keeps w s t) :
    Keeps w s (gleanAck x0 t) := by
  unfold gleanAck
  repeat' first
    | with_reducible assumption
    | ((with_reducible refine Within.sub hw ?_); exact rfl)
    | with_reducible refine Keeps.raise ?_ ?_
    | with_reducible refine gleanResume_keeps ?_ ?_
    | split
    | intro _
    | dsimp only
    | with_reducible refine Keeps.set_glean ?_ ?_

theorem sigWrite_keeps {x0 : Nat} {x1 : Quad} (hw : Within [.evlog, .glean, .block 0, .block 13] w) (h : Keeps w s t) :
    Keeps w s (sigWrite x0 x1 t) := by
  unfold sigWrite
  repeat' first
    | with_reducible assumption
    | ((with_reducible refine Within.sub hw ?_); exact rfl)
    | with_reducible refine Keeps.raise ?_ ?_
    | split
    | intro _
    | dsimp only
    | with_reducible refine Keeps.set_glean ?_ ?_

theorem sigHeadland_keeps (hw : Within [.glean] w) (h : Keeps w s t) :
    Keeps w s (sigHeadland t) := by
  unfold sigHeadland
  repeat' first
    | with_reducible assumption
    | ((with_reducible refine Within.sub hw ?_); exact rfl)
    | with_reducible refine Keeps.foldl ?_ ?_
    | split
    | intro _
    | dsimp only
    | with_reducible refine Keeps.set_glean ?_ ?_

theorem gleanCtrlWrite_keeps {x0 : Word} (hw : Within [.glean, .block 13] w) (h : Keeps w s t) :
    Keeps w s (gleanCtrlWrite x0 t) := by
  unfold gleanCtrlWrite
  repeat' first
    | with_reducible assumption
    | ((with_reducible refine Within.sub hw ?_); exact rfl)
    | with_reducible refine Keeps.foldl ?_ ?_
    | with_reducible refine Keeps.putFlag ?_ ?_
    | with_reducible refine Keeps.setReg ?_ ?_
    | split
    | intro _
    | dsimp only
    | with_reducible refine Keeps.set_glean ?_ ?_

theorem triginEdge_keeps {x0 : Nat} {x1 : Quad} {x2 : Bool} (hw : Within [.analog, .capture, .collie, .evlog, .mem, .raw, .block 0, .block 12, .block 24] w) (h : Keeps w s t) :
    Keeps w s (triginEdge x0 x1 x2 t) := by
  unfold triginEdge
  repeat' first
    | with_reducible assumption
    | ((with_reducible refine Within.sub hw ?_); exact rfl)
    | with_reducible refine Keeps.advanceTo ?_ ?_
    | with_reducible refine injSend_keeps ?_ ?_
    | with_reducible refine triginCapture_keeps ?_ ?_
    | split
    | intro _
    | dsimp only

end Sys2Proof.Machine
end

