-- ==== Sys2Proof/Laws/Keeps/Release.lean ====
section
/-! SUPPORT. What the operations of Sys2Proof/Machine/Release.lean leave unchanged. -/

set_option linter.all false
set_option Elab.async false

namespace Sys2Proof.Machine

variable {w : List Piece} {s t : State}

theorem releaseTx_keeps {x0 : Action} (hw : Within [.evlog, .free, .txn, .block 0, .block 8] w) (h : Keeps w s t) :
    Keeps w s (releaseTx x0 t) := by
  unfold releaseTx
  repeat' first
    | with_reducible assumption
    | ((with_reducible refine Within.sub hw ?_); exact rfl)
    | with_reducible refine txAdd_keeps ?_ ?_
    | with_reducible refine txDrop_keeps ?_ ?_
    | with_reducible refine txSeal_keeps ?_ ?_
    | split
    | intro _
    | dsimp only

theorem releaseAxis_keeps {x0 : Release} {x1 : Action} (hw : Within [.motion] w) (h : Keeps w s t) :
    Keeps w s (releaseAxis x0 x1 t) := by
  unfold releaseAxis
  repeat' first
    | with_reducible assumption
    | ((with_reducible refine Within.sub hw ?_); exact rfl)
    | split
    | intro _
    | dsimp only
    | with_reducible refine Keeps.set_motion ?_ ?_

theorem releaseAction_keeps {x0 : Release} {x1 : Action} (hw : Within [.collie, .evlog, .free, .glean, .mem, .motion, .txn, .block 0, .block 4, .block 6, .block 8, .block 13] w) (h : Keeps w s t) :
    Keeps w s (releaseAction x0 x1 t) := by
  unfold releaseAction
  repeat' first
    | with_reducible assumption
    | ((with_reducible refine Within.sub hw ?_); exact rfl)
    | with_reducible refine cancelDesc_keeps ?_ ?_
    | with_reducible refine delayTo_keeps ?_ ?_
    | with_reducible refine flowSend_keeps ?_ ?_
    | with_reducible refine gleanMark_keeps ?_ ?_
    | with_reducible refine postTo_keeps ?_ ?_
    | with_reducible refine releaseAxis_keeps ?_ ?_
    | with_reducible refine releaseTx_keeps ?_ ?_
    | with_reducible refine replyTo_keeps ?_ ?_
    | with_reducible refine txOpenReserved_keeps ?_ ?_
    | split
    | intro _
    | dsimp only

theorem finishRelease_keeps {x0 : Nat} (hw : Within [.collie, .block 4] w) (h : Keeps w s t) :
    Keeps w s (finishRelease x0 t) := by
  unfold finishRelease
  repeat' first
    | with_reducible assumption
    | ((with_reducible refine Within.sub hw ?_); exact rfl)
    | with_reducible refine updateRelease_keeps ?_ ?_
    | split
    | intro _
    | dsimp only

theorem releaseActions_keeps {x0 : Nat} (hw : Within [.collie, .evlog, .free, .glean, .mem, .motion, .raw, .txn, .block 0, .block 4, .block 6, .block 8, .block 13] w) (h : Keeps w s t) :
    Keeps w s (releaseActions x0 t) := by
  unfold releaseActions
  repeat' first
    | with_reducible assumption
    | ((with_reducible refine Within.sub hw ?_); exact rfl)
    | with_reducible refine Keeps.advanceTo ?_ ?_
    | with_reducible refine Keeps.forAll ?_ ?_
    | with_reducible refine State.setReleases_keeps ?_ ?_
    | with_reducible refine finishRelease_keeps ?_ ?_
    | with_reducible refine releaseAction_keeps ?_ ?_
    | split
    | intro _
    | dsimp only

theorem gleanCompletion_keeps {x0 : Run} (hw : Within [.evlog, .glean, .mem, .block 0, .block 13] w) (h : Keeps w s t) :
    Keeps w s (gleanCompletion x0 t) := by
  unfold gleanCompletion
  repeat' first
    | with_reducible assumption
    | ((with_reducible refine Within.sub hw ?_); exact rfl)
    | with_reducible refine Keeps.forAll ?_ ?_
    | with_reducible refine gleanValue_keeps ?_ ?_
    | split
    | intro _
    | dsimp only

theorem withCompletion_keeps {x0 : Nat → State → State} {x1 : Nat} (hx0 : ∀ y0 u, Keeps w s u → Keeps w s (x0 y0 u)) (hw : Within [.evlog, .glean, .mem, .block 0, .block 13] w) (h : Keeps w s t) :
    Keeps w s (withCompletion x0 x1 t) := by
  unfold withCompletion
  repeat' first
    | with_reducible assumption
    | ((with_reducible refine Within.sub hw ?_); exact rfl)
    | with_reducible refine gleanCompletion_keeps ?_ ?_
    | with_reducible refine hx0 _ _ ?_
    | split
    | intro _
    | dsimp only

end Sys2Proof.Machine
end

