-- ==== Sys2Proof/Laws/Keeps/Granary.lean ====
section
/-! SUPPORT. What the operations of Sys2Proof/Machine/Granary.lean leave unchanged. -/

set_option linter.all false
set_option Elab.async false

namespace Sys2Proof.Machine

variable {w : List Piece} {s t : State}

theorem regionDone_keeps {x0 : Nat} (hw : Within [.gran] w) (h : Keeps w s t) :
    Keeps w s (regionDone x0 t) := by
  unfold regionDone
  repeat' first
    | with_reducible assumption
    | ((with_reducible refine Within.sub hw ?_); exact rfl)
    | split
    | intro _
    | dsimp only
    | with_reducible refine Keeps.set_gran ?_ ?_

theorem wearSegment_keeps {x0 : Nat} (hw : Within [.gran, .block 26] w) (h : Keeps w s t) :
    Keeps w s (wearSegment x0 t) := by
  unfold wearSegment
  repeat' first
    | with_reducible assumption
    | ((with_reducible refine Within.sub hw ?_); exact rfl)
    | with_reducible refine Keeps.maxFld ?_ ?_
    | with_reducible refine Keeps.foldl ?_ ?_
    | split
    | intro _
    | dsimp only
    | with_reducible refine Keeps.set_gran ?_ ?_

theorem enterSegment_keeps (hw : Within [.exec, .gran, .mem, .block 26] w) (h : Keeps w s t) :
    Keeps w s (enterSegment t) := by
  unfold enterSegment
  repeat' first
    | with_reducible assumption
    | ((with_reducible refine Within.sub hw ?_); exact rfl)
    | with_reducible refine Keeps.forAll ?_ ?_
    | with_reducible refine Keeps.incSat ?_ ?_
    | with_reducible refine State.memWrite_keeps ?_ ?_
    | with_reducible refine regionDone_keeps ?_ ?_
    | with_reducible refine wearSegment_keeps ?_ ?_
    | split
    | intro _
    | dsimp only
    | with_reducible refine Keeps.set_exec_mem_gran ?_ ?_

theorem ringPutN_keeps {x0 : Nat} {x1 : List Byte} (hw : Within [.exec, .gran, .mem, .block 26] w) (h : Keeps w s t) :
    Keeps w s (ringPutN x0 x1 t) := by
  induction x0 generalizing t x1 with
  | zero => exact h
  | succ n ih =>
  unfold ringPutN
  repeat' first
    | with_reducible refine ih ?_
    | with_reducible assumption
    | ((with_reducible refine Within.sub hw ?_); exact rfl)
    | with_reducible refine State.memWrite_keeps ?_ ?_
    | with_reducible refine enterSegment_keeps ?_ ?_
    | split
    | intro _
    | dsimp only
    | with_reducible refine Keeps.set_gran ?_ ?_

theorem ringPut_keeps {x0 : List Byte} (hw : Within [.exec, .gran, .mem, .block 26] w) (h : Keeps w s t) :
    Keeps w s (ringPut x0 t) := by
  unfold ringPut
  repeat' first
    | with_reducible assumption
    | ((with_reducible refine Within.sub hw ?_); exact rfl)
    | with_reducible refine Keeps.put ?_ ?_
    | with_reducible refine Keeps.setReg ?_ ?_
    | with_reducible refine ringPutN_keeps ?_ ?_
    | split
    | intro _
    | dsimp only

theorem granWait_keeps {x0 : GranWork} {x1 : Nat} (hw : Within [.gran] w) (h : Keeps w s t) :
    Keeps w s (granWait x0 x1 t) := by
  unfold granWait
  repeat' first
    | with_reducible assumption
    | ((with_reducible refine Within.sub hw ?_); exact rfl)
    | split
    | intro _
    | dsimp only
    | with_reducible refine Keeps.set_gran ?_ ?_

theorem creditTake_keeps {x0 : Nat} (hw : Within [.block 26] w) (h : Keeps w s t) :
    Keeps w s (creditTake x0 t) := by
  unfold creditTake
  repeat' first
    | with_reducible assumption
    | ((with_reducible refine Within.sub hw ?_); exact rfl)
    | with_reducible refine Keeps.setReg ?_ ?_
    | split
    | intro _
    | dsimp only

theorem creditRefill_keeps (hw : Within [.raw, .block 26] w) (h : Keeps w s t) :
    Keeps w s (creditRefill t) := by
  unfold creditRefill
  repeat' first
    | with_reducible assumption
    | ((with_reducible refine Within.sub hw ?_); exact rfl)
    | with_reducible refine Keeps.advanceTo ?_ ?_
    | with_reducible refine Keeps.setReg ?_ ?_
    | split
    | intro _
    | dsimp only

theorem persistSave_keeps {x0 : Nat} {x1 : Nat} {x2 : List Quad} (hw : Within [.gran] w) (h : Keeps w s t) :
    Keeps w s (persistSave x0 x1 x2 t) := by
  unfold persistSave
  repeat' first
    | with_reducible assumption
    | ((with_reducible refine Within.sub hw ?_); exact rfl)
    | with_reducible refine granWait_keeps ?_ ?_
    | split
    | intro _
    | dsimp only
    | with_reducible refine Keeps.set_gran ?_ ?_

theorem persistVar_keeps {x0 : Nat} {x1 : Module} {x2 : PubEntry} {x3 : VarDesc} (hw : Within [.gran] w) (h : Keeps w s t) :
    Keeps w s (persistVar x0 x1 x2 x3 t) := by
  unfold persistVar
  repeat' first
    | with_reducible assumption
    | ((with_reducible refine Within.sub hw ?_); exact rfl)
    | with_reducible refine persistSave_keeps ?_ ?_
    | split
    | intro _
    | dsimp only

theorem persistWritten_keeps {x0 : Nat} {x1 : Module} {x2 : PubEntry} {x3 : VarDesc} (hw : Within [.gran, .txn] w) (h : Keeps w s t) :
    Keeps w s (persistWritten x0 x1 x2 x3 t) := by
  unfold persistWritten
  repeat' first
    | with_reducible assumption
    | ((with_reducible refine Within.sub hw ?_); exact rfl)
    | with_reducible refine persistVar_keeps ?_ ?_
    | split
    | intro _
    | dsimp only
    | with_reducible refine Keeps.set_txn ?_ ?_

theorem savesDue_keeps (hw : Within [.gran, .txn] w) (h : Keeps w s t) :
    Keeps w s (savesDue t) := by
  unfold savesDue
  repeat' first
    | with_reducible assumption
    | ((with_reducible refine Within.sub hw ?_); exact rfl)
    | with_reducible refine Keeps.forAll ?_ ?_
    | with_reducible refine persistWritten_keeps ?_ ?_
    | split
    | intro _
    | dsimp only
    | with_reducible refine Keeps.set_txn ?_ ?_

theorem persistAll_keeps (hw : Within [.gran] w) (h : Keeps w s t) :
    Keeps w s (persistAll t) := by
  unfold persistAll
  repeat' first
    | with_reducible assumption
    | ((with_reducible refine Within.sub hw ?_); exact rfl)
    | with_reducible refine Keeps.forAll ?_ ?_
    | with_reducible refine persistVar_keeps ?_ ?_
    | split
    | intro _
    | dsimp only

theorem persistPut_keeps {x0 : Nat} (hw : Within [.exec, .gran, .mem, .block 26] w) (h : Keeps w s t) :
    Keeps w s (persistPut x0 t) := by
  unfold persistPut
  repeat' first
    | with_reducible assumption
    | ((with_reducible refine Within.sub hw ?_); exact rfl)
    | with_reducible refine ringPut_keeps ?_ ?_
    | split
    | intro _
    | dsimp only
    | with_reducible refine Keeps.set_gran ?_ ?_

theorem persistRewrite_keeps {x0 : Nat} (hw : Within [.gran] w) (h : Keeps w s t) :
    Keeps w s (persistRewrite x0 t) := by
  unfold persistRewrite
  repeat' first
    | with_reducible assumption
    | ((with_reducible refine Within.sub hw ?_); exact rfl)
    | with_reducible refine granWait_keeps ?_ ?_
    | split
    | intro _
    | dsimp only

theorem jobDone_keeps {x0 : GranWork} (hw : Within [.exec, .gran, .mem, .block 26] w) (h : Keeps w s t) :
    Keeps w s (jobDone x0 t) := by
  unfold jobDone
  repeat' first
    | with_reducible assumption
    | ((with_reducible refine Within.sub hw ?_); exact rfl)
    | with_reducible refine persistPut_keeps ?_ ?_
    | with_reducible refine regionDone_keeps ?_ ?_
    | split
    | intro _
    | dsimp only

theorem lineEnd_keeps {x0 : LineEnd} (hw : Within [.evlog, .block 0, .block 26] w) (h : Keeps w s t) :
    Keeps w s (lineEnd x0 t) := by
  unfold lineEnd
  repeat' first
    | with_reducible assumption
    | ((with_reducible refine Within.sub hw ?_); exact rfl)
    | with_reducible refine Keeps.incSat ?_ ?_
    | with_reducible refine Keeps.put ?_ ?_
    | with_reducible refine Keeps.raise ?_ ?_
    | with_reducible refine Keeps.setReg ?_ ?_
    | split
    | intro _
    | dsimp only

theorem wearSwap_keeps (hw : Within [.evlog, .gran, .block 0, .block 26] w) (h : Keeps w s t) :
    Keeps w s (wearSwap t) := by
  unfold wearSwap
  repeat' first
    | with_reducible assumption
    | ((with_reducible refine Within.sub hw ?_); exact rfl)
    | with_reducible refine Keeps.raise ?_ ?_
    | with_reducible refine Keeps.setReg ?_ ?_
    | split
    | intro _
    | dsimp only
    | with_reducible refine Keeps.set_gran ?_ ?_

theorem granLine_keeps {x0 : LineEnd} (hw : Within [.evlog, .exec, .gran, .mem, .block 0, .block 26] w) (h : Keeps w s t) :
    Keeps w s (granLine x0 t) := by
  unfold granLine
  repeat' first
    | with_reducible assumption
    | ((with_reducible refine Within.sub hw ?_); exact rfl)
    | with_reducible refine Keeps.maxFld ?_ ?_
    | with_reducible refine creditTake_keeps ?_ ?_
    | with_reducible refine jobDone_keeps ?_ ?_
    | with_reducible refine lineEnd_keeps ?_ ?_
    | with_reducible refine wearSwap_keeps ?_ ?_
    | split
    | intro _
    | dsimp only
    | with_reducible refine Keeps.set_gran ?_ ?_

theorem cutCommit_keeps {x0 : Cut} (hw : Within [.exec, .gran, .mem, .block 6, .block 26] w) (h : Keeps w s t) :
    Keeps w s (cutCommit x0 t) := by
  unfold cutCommit
  repeat' first
    | with_reducible assumption
    | ((with_reducible refine Within.sub hw ?_); exact rfl)
    | with_reducible refine Keeps.setReg ?_ ?_
    | with_reducible refine Keeps.setReg64 ?_ ?_
    | with_reducible refine ringPut_keeps ?_ ?_
    | split
    | intro _
    | dsimp only
    | with_reducible refine Keeps.set_exec_gran ?_ ?_

end Sys2Proof.Machine
end

