-- ==== Sys2Proof/Laws/Keeps/Ptp.lean ====
section
/-! SUPPORT. What the operations of Sys2Proof/Machine/Ptp.lean leave unchanged. -/

set_option linter.all false
set_option Elab.async false

namespace Sys2Proof.Machine

variable {w : List Piece} {s t : State}

theorem setServo_keeps {x0 : Nat} (hw : Within [.block 21] w) (h : Keeps w s t) :
    Keeps w s (setServo x0 t) := by
  unfold setServo
  repeat' first
    | with_reducible assumption
    | ((with_reducible refine Within.sub hw ?_); exact rfl)
    | with_reducible refine Keeps.put ?_ ?_
    | split
    | intro _
    | dsimp only

theorem State.setMeas_keeps {x1 : Nat} {x2 : UplinkMeas} (hw : Within [.ptp] w) (h : Keeps w s t) :
    Keeps w s (State.setMeas t x1 x2) := by
  unfold State.setMeas
  repeat' first
    | with_reducible assumption
    | ((with_reducible refine Within.sub hw ?_); exact rfl)
    | split
    | intro _
    | dsimp only
    | with_reducible refine Keeps.set_ptp ?_ ?_

theorem sampleDrop_keeps {x0 : Nat} (hw : Within [.block 21] w) (h : Keeps w s t) :
    Keeps w s (sampleDrop x0 t) := by
  unfold sampleDrop
  repeat' first
    | with_reducible assumption
    | ((with_reducible refine Within.sub hw ?_); exact rfl)
    | with_reducible refine Keeps.addSat ?_ ?_
    | split
    | intro _
    | dsimp only

theorem ptpSend_keeps {x0 : PtpOut} (hw : Within [.ptp, .block 20, .block 21] w) (h : Keeps w s t) :
    Keeps w s (ptpSend x0 t) := by
  unfold ptpSend
  repeat' first
    | with_reducible assumption
    | ((with_reducible refine Within.sub hw ?_); exact rfl)
    | with_reducible refine Keeps.incSat ?_ ?_
    | (simp only [R.PTP_q_TX_CNT_block, R.UPLINK_p_TX_CNT_block]; (with_reducible refine Within.sub hw ?_); exact rfl)
    | split
    | intro _
    | dsimp only
    | with_reducible refine Keeps.set_ptp ?_ ?_

theorem setFreq_keeps {x0 : Int} (hw : Within [.block 21] w) (h : Keeps w s t) :
    Keeps w s (setFreq x0 t) := by
  unfold setFreq
  repeat' first
    | with_reducible assumption
    | ((with_reducible refine Within.sub hw ?_); exact rfl)
    | with_reducible refine Keeps.setReg ?_ ?_
    | split
    | intro _
    | dsimp only

theorem mpdUpdate_keeps (hw : Within [.block 21] w) (h : Keeps w s t) :
    Keeps w s (mpdUpdate t) := by
  unfold mpdUpdate
  repeat' first
    | with_reducible assumption
    | ((with_reducible refine Within.sub hw ?_); exact rfl)
    | with_reducible refine Keeps.setReg ?_ ?_
    | split
    | intro _
    | dsimp only

theorem beginHold_keeps (hw : Within [.evlog, .ptp, .block 0, .block 2, .block 21] w) (h : Keeps w s t) :
    Keeps w s (beginHold t) := by
  unfold beginHold
  repeat' first
    | with_reducible assumption
    | ((with_reducible refine Within.sub hw ?_); exact rfl)
    | with_reducible refine Keeps.incSat ?_ ?_
    | with_reducible refine Keeps.put ?_ ?_
    | with_reducible refine Keeps.raise ?_ ?_
    | with_reducible refine rateAdjWrite_keeps ?_ ?_
    | with_reducible refine setServo_keeps ?_ ?_
    | split
    | intro _
    | dsimp only
    | with_reducible refine Keeps.set_ptp ?_ ?_

theorem pathChange_keeps {x0 : List Int} (hw : Within [.evlog, .ptp, .block 0, .block 2, .block 21] w) (h : Keeps w s t) :
    Keeps w s (pathChange x0 t) := by
  unfold pathChange
  repeat' first
    | with_reducible assumption
    | ((with_reducible refine Within.sub hw ?_); exact rfl)
    | with_reducible refine beginHold_keeps ?_ ?_
    | with_reducible refine mpdUpdate_keeps ?_ ?_
    | split
    | intro _
    | dsimp only
    | with_reducible refine Keeps.set_ptp ?_ ?_

theorem holdAside_keeps {x0 : List Int} {x1 : Int} {x2 : Bool} (hw : Within [.evlog, .ptp, .block 0, .block 2, .block 21] w) (h : Keeps w s t) :
    Keeps w s (holdAside x0 x1 x2 t) := by
  unfold holdAside
  repeat' first
    | with_reducible assumption
    | ((with_reducible refine Within.sub hw ?_); exact rfl)
    | with_reducible refine pathChange_keeps ?_ ?_
    | with_reducible refine sampleDrop_keeps ?_ ?_
    | split
    | intro _
    | dsimp only
    | with_reducible refine Keeps.set_ptp ?_ ?_

theorem ptpHoldEnd_keeps (hw : Within [.ptp, .raw, .block 21] w) (h : Keeps w s t) :
    Keeps w s (ptpHoldEnd t) := by
  unfold ptpHoldEnd
  repeat' first
    | with_reducible assumption
    | ((with_reducible refine Within.sub hw ?_); exact rfl)
    | with_reducible refine Keeps.advanceTo ?_ ?_
    | with_reducible refine mpdUpdate_keeps ?_ ?_
    | with_reducible refine setServo_keeps ?_ ?_
    | split
    | intro _
    | dsimp only
    | with_reducible refine Keeps.set_ptp ?_ ?_

theorem asymCheck_keeps {x0 : Int} (hw : Within [.evlog, .ptp, .block 0, .block 21] w) (h : Keeps w s t) :
    Keeps w s (asymCheck x0 t) := by
  unfold asymCheck
  repeat' first
    | with_reducible assumption
    | ((with_reducible refine Within.sub hw ?_); exact rfl)
    | with_reducible refine Keeps.put ?_ ?_
    | with_reducible refine Keeps.raise ?_ ?_
    | with_reducible refine Keeps.setReg ?_ ?_
    | split
    | intro _
    | dsimp only
    | with_reducible refine Keeps.set_ptp ?_ ?_

theorem stepClock_keeps {x0 : Int} (hw : Within [.evlog, .head, .ptp, .block 0, .block 2, .block 3] w) (h : Keeps w s t) :
    Keeps w s (stepClock x0 t) := by
  unfold stepClock
  repeat' first
    | with_reducible assumption
    | ((with_reducible refine Within.sub hw ?_); exact rfl)
    | with_reducible refine headRealign_keeps ?_ ?_
    | with_reducible refine offsetSet_keeps ?_ ?_
    | split
    | intro _
    | dsimp only

theorem seatAtLock_keeps {x0 : Int} (hw : Within [.evlog, .head, .ptp, .block 0, .block 2, .block 3, .block 21] w) (h : Keeps w s t) :
    Keeps w s (seatAtLock x0 t) := by
  unfold seatAtLock
  repeat' first
    | with_reducible assumption
    | ((with_reducible refine Within.sub hw ?_); exact rfl)
    | with_reducible refine Keeps.put ?_ ?_
    | with_reducible refine Keeps.raise ?_ ?_
    | with_reducible refine Keeps.setReg64 ?_ ?_
    | with_reducible refine seatClock_keeps ?_ ?_
    | with_reducible refine setServo_keeps ?_ ?_
    | with_reducible refine stepClock_keeps ?_ ?_
    | split
    | intro _
    | dsimp only
    | with_reducible refine Keeps.set_ptp ?_ ?_

theorem servoAcquire_keeps {x0 : Int} {x1 : Quad} (hw : Within [.evlog, .head, .ptp, .block 0, .block 2, .block 3, .block 21] w) (h : Keeps w s t) :
    Keeps w s (servoAcquire x0 x1 t) := by
  unfold servoAcquire
  repeat' first
    | with_reducible assumption
    | ((with_reducible refine Within.sub hw ?_); exact rfl)
    | with_reducible refine Keeps.raise ?_ ?_
    | with_reducible refine rateAdjWrite_keeps ?_ ?_
    | with_reducible refine seatAtLock_keeps ?_ ?_
    | with_reducible refine setFreq_keeps ?_ ?_
    | split
    | intro _
    | dsimp only
    | with_reducible refine Keeps.set_ptp ?_ ?_

theorem servoLock_keeps {x0 : Int} (hw : Within [.evlog, .ptp, .block 0, .block 21] w) (h : Keeps w s t) :
    Keeps w s (servoLock x0 t) := by
  unfold servoLock
  repeat' first
    | with_reducible assumption
    | ((with_reducible refine Within.sub hw ?_); exact rfl)
    | with_reducible refine Keeps.raise ?_ ?_
    | with_reducible refine setServo_keeps ?_ ?_
    | split
    | intro _
    | dsimp only
    | with_reducible refine Keeps.set_ptp ?_ ?_

theorem servoTrack_keeps {x0 : Int} {x1 : Quad} (hw : Within [.evlog, .ptp, .block 0, .block 2, .block 21] w) (h : Keeps w s t) :
    Keeps w s (servoTrack x0 x1 t) := by
  unfold servoTrack
  repeat' first
    | with_reducible assumption
    | ((with_reducible refine Within.sub hw ?_); exact rfl)
    | with_reducible refine rateAdjWrite_keeps ?_ ?_
    | with_reducible refine servoLock_keeps ?_ ?_
    | with_reducible refine setFreq_keeps ?_ ?_
    | split
    | intro _
    | dsimp only

theorem sampleAccept_keeps {x0 : Int} {x1 : Int} {x2 : Quad} (hw : Within [.evlog, .head, .ptp, .block 0, .block 2, .block 3, .block 21] w) (h : Keeps w s t) :
    Keeps w s (sampleAccept x0 x1 x2 t) := by
  unfold sampleAccept
  repeat' first
    | with_reducible assumption
    | ((with_reducible refine Within.sub hw ?_); exact rfl)
    | with_reducible refine Keeps.setReg64 ?_ ?_
    | with_reducible refine asymCheck_keeps ?_ ?_
    | with_reducible refine mpdUpdate_keeps ?_ ?_
    | with_reducible refine sampleDrop_keeps ?_ ?_
    | with_reducible refine servoAcquire_keeps ?_ ?_
    | with_reducible refine servoTrack_keeps ?_ ?_
    | with_reducible refine setServo_keeps ?_ ?_
    | split
    | intro _
    | dsimp only
    | with_reducible refine Keeps.set_ptp ?_ ?_

theorem sampleIn12_keeps {x0 : Int} {x1 : Int} {x2 : Quad} (hw : Within [.evlog, .head, .ptp, .block 0, .block 2, .block 3, .block 21] w) (h : Keeps w s t) :
    Keeps w s (sampleIn12 x0 x1 x2 t) := by
  unfold sampleIn12
  repeat' first
    | with_reducible assumption
    | ((with_reducible refine Within.sub hw ?_); exact rfl)
    | with_reducible refine holdAside_keeps ?_ ?_
    | with_reducible refine sampleAccept_keeps ?_ ?_
    | with_reducible refine sampleDrop_keeps ?_ ?_
    | split
    | intro _
    | dsimp only
    | with_reducible refine Keeps.set_ptp ?_ ?_

theorem trySample_keeps {x0 : Nat} (hw : Within [.evlog, .head, .ptp, .block 0, .block 2, .block 3, .block 21] w) (h : Keeps w s t) :
    Keeps w s (trySample x0 t) := by
  unfold trySample
  repeat' first
    | with_reducible assumption
    | ((with_reducible refine Within.sub hw ?_); exact rfl)
    | with_reducible refine State.setMeas_keeps ?_ ?_
    | with_reducible refine sampleIn12_keeps ?_ ?_
    | split
    | intro _
    | dsimp only

theorem parentRegs_keeps (hw : Within [.block 21] w) (h : Keeps w s t) :
    Keeps w s (parentRegs t) := by
  unfold parentRegs
  repeat' first
    | with_reducible assumption
    | ((with_reducible refine Within.sub hw ?_); exact rfl)
    | with_reducible refine Keeps.put ?_ ?_
    | with_reducible refine Keeps.setReg ?_ ?_
    | with_reducible refine Keeps.setReg64 ?_ ?_
    | split
    | intro _
    | dsimp only

theorem nextParent_keeps (hw : Within [.evlog, .ptp, .block 0, .block 2, .block 21] w) (h : Keeps w s t) :
    Keeps w s (nextParent t) := by
  unfold nextParent
  repeat' first
    | with_reducible assumption
    | ((with_reducible refine Within.sub hw ?_); exact rfl)
    | with_reducible refine Keeps.raise ?_ ?_
    | with_reducible refine beginHold_keeps ?_ ?_
    | with_reducible refine setServo_keeps ?_ ?_
    | split
    | intro _
    | dsimp only
    | with_reducible refine Keeps.set_ptp ?_ ?_

theorem selectParent_keeps (hw : Within [.evlog, .ptp, .block 0, .block 2, .block 21] w) (h : Keeps w s t) :
    Keeps w s (selectParent t) := by
  unfold selectParent
  repeat' first
    | with_reducible assumption
    | ((with_reducible refine Within.sub hw ?_); exact rfl)
    | with_reducible refine Keeps.raise ?_ ?_
    | with_reducible refine beginHold_keeps ?_ ?_
    | with_reducible refine nextParent_keeps ?_ ?_
    | with_reducible refine parentRegs_keeps ?_ ?_
    | with_reducible refine rateAdjWrite_keeps ?_ ?_
    | with_reducible refine setServo_keeps ?_ ?_
    | split
    | intro _
    | dsimp only
    | with_reducible refine Keeps.set_ptp ?_ ?_

theorem ptpRx_keeps {x0 : Nat} {x1 : Quad} {x2 : PtpMsg} {x3 : Option Bool} {x4 : State → State} (hx4 : ∀ u, Keeps w s u → Keeps w s (x4 u)) (hw : Within [.raw, .block 20, .block 21] w) (h : Keeps w s t) :
    Keeps w s (ptpRx x0 x1 x2 x3 x4 t) := by
  unfold ptpRx
  repeat' first
    | with_reducible assumption
    | ((with_reducible refine Within.sub hw ?_); exact rfl)
    | with_reducible refine Keeps.advanceTo ?_ ?_
    | with_reducible refine Keeps.incSat ?_ ?_
    | (simp only [R.PTP_q_RX_CNT_block, R.UPLINK_p_RX_CNT_block]; (with_reducible refine Within.sub hw ?_); exact rfl)
    | with_reducible refine hx4 _ ?_
    | split
    | intro _
    | dsimp only

theorem ptpSync_keeps {x0 : Nat} {x1 : Quad} {x2 : Nat} {x3 : PtpMsg} (hw : Within [.evlog, .head, .ptp, .raw, .block 0, .block 2, .block 3, .block 20, .block 21] w) (h : Keeps w s t) :
    Keeps w s (ptpSync x0 x1 x2 x3 t) := by
  unfold ptpSync
  repeat' first
    | with_reducible assumption
    | ((with_reducible refine Within.sub hw ?_); exact rfl)
    | with_reducible refine State.setMeas_keeps ?_ ?_
    | with_reducible refine ptpRx_keeps ?_ ?_ ?_
    | with_reducible refine sampleDrop_keeps ?_ ?_
    | with_reducible refine trySample_keeps ?_ ?_
    | split
    | intro _
    | dsimp only

theorem ptpFollowUp_keeps {x0 : Nat} {x1 : PtpMsg} (hw : Within [.evlog, .head, .ptp, .raw, .block 0, .block 2, .block 3, .block 20, .block 21] w) (h : Keeps w s t) :
    Keeps w s (ptpFollowUp x0 x1 t) := by
  unfold ptpFollowUp
  repeat' first
    | with_reducible assumption
    | ((with_reducible refine Within.sub hw ?_); exact rfl)
    | with_reducible refine State.setMeas_keeps ?_ ?_
    | with_reducible refine ptpRx_keeps ?_ ?_ ?_
    | with_reducible refine sampleDrop_keeps ?_ ?_
    | with_reducible refine trySample_keeps ?_ ?_
    | split
    | intro _
    | dsimp only

theorem ptpDelayResp_keeps {x0 : Nat} {x1 : Bool} {x2 : PtpMsg} (hw : Within [.evlog, .head, .ptp, .raw, .block 0, .block 2, .block 3, .block 20, .block 21] w) (h : Keeps w s t) :
    Keeps w s (ptpDelayResp x0 x1 x2 t) := by
  unfold ptpDelayResp
  repeat' first
    | with_reducible assumption
    | ((with_reducible refine Within.sub hw ?_); exact rfl)
    | with_reducible refine State.setMeas_keeps ?_ ?_
    | with_reducible refine ptpRx_keeps ?_ ?_ ?_
    | with_reducible refine sampleDrop_keeps ?_ ?_
    | with_reducible refine trySample_keeps ?_ ?_
    | split
    | intro _
    | dsimp only

theorem peerDelayDone_keeps {x0 : Nat} {x1 : Int} {x2 : Int} {x3 : Int} {x4 : Int} {x5 : Int} (hw : Within [.ptp] w) (h : Keeps w s t) :
    Keeps w s (peerDelayDone x0 x1 x2 x3 x4 x5 t) := by
  unfold peerDelayDone
  repeat' first
    | with_reducible assumption
    | ((with_reducible refine Within.sub hw ?_); exact rfl)
    | with_reducible refine State.setMeas_keeps ?_ ?_
    | split
    | intro _
    | dsimp only

theorem ptpPdelayResp_keeps {x0 : Nat} {x1 : Quad} {x2 : Nat} {x3 : PtpMsg} (hw : Within [.ptp, .raw, .block 20, .block 21] w) (h : Keeps w s t) :
    Keeps w s (ptpPdelayResp x0 x1 x2 x3 t) := by
  unfold ptpPdelayResp
  repeat' first
    | with_reducible assumption
    | ((with_reducible refine Within.sub hw ?_); exact rfl)
    | with_reducible refine State.setMeas_keeps ?_ ?_
    | with_reducible refine peerDelayDone_keeps ?_ ?_
    | with_reducible refine ptpRx_keeps ?_ ?_ ?_
    | with_reducible refine sampleDrop_keeps ?_ ?_
    | split
    | intro _
    | dsimp only

theorem ptpPdelayFollowUp_keeps {x0 : Nat} {x1 : PtpMsg} (hw : Within [.ptp, .raw, .block 20, .block 21] w) (h : Keeps w s t) :
    Keeps w s (ptpPdelayFollowUp x0 x1 t) := by
  unfold ptpPdelayFollowUp
  repeat' first
    | with_reducible assumption
    | ((with_reducible refine Within.sub hw ?_); exact rfl)
    | with_reducible refine peerDelayDone_keeps ?_ ?_
    | with_reducible refine ptpRx_keeps ?_ ?_ ?_
    | with_reducible refine sampleDrop_keeps ?_ ?_
    | split
    | intro _
    | dsimp only

theorem ptpAnnounce_keeps {x0 : Nat} {x1 : PtpMsg} {x2 : Announce} (hw : Within [.evlog, .ptp, .raw, .block 0, .block 2, .block 20, .block 21] w) (h : Keeps w s t) :
    Keeps w s (ptpAnnounce x0 x1 x2 t) := by
  unfold ptpAnnounce
  repeat' first
    | with_reducible assumption
    | ((with_reducible refine Within.sub hw ?_); exact rfl)
    | with_reducible refine ptpRx_keeps ?_ ?_ ?_
    | with_reducible refine selectParent_keeps ?_ ?_
    | split
    | intro _
    | dsimp only
    | with_reducible refine Keeps.set_ptp ?_ ?_

theorem ptpAnnounceTimeout_keeps {x0 : Nat} {x1 : Quad} {x2 : Nat} (hw : Within [.evlog, .ptp, .raw, .block 0, .block 2, .block 21] w) (h : Keeps w s t) :
    Keeps w s (ptpAnnounceTimeout x0 x1 x2 t) := by
  unfold ptpAnnounceTimeout
  repeat' first
    | with_reducible assumption
    | ((with_reducible refine Within.sub hw ?_); exact rfl)
    | with_reducible refine Keeps.advanceTo ?_ ?_
    | with_reducible refine selectParent_keeps ?_ ?_
    | split
    | intro _
    | dsimp only
    | with_reducible refine Keeps.set_ptp ?_ ?_

theorem ptpDelayReqSend_keeps {x0 : Nat} {x1 : Quad} {x2 : Nat} (hw : Within [.ptp, .raw, .block 20, .block 21] w) (h : Keeps w s t) :
    Keeps w s (ptpDelayReqSend x0 x1 x2 t) := by
  unfold ptpDelayReqSend
  repeat' first
    | with_reducible assumption
    | ((with_reducible refine Within.sub hw ?_); exact rfl)
    | with_reducible refine Keeps.advanceTo ?_ ?_
    | with_reducible refine State.setMeas_keeps ?_ ?_
    | with_reducible refine ptpSend_keeps ?_ ?_
    | split
    | intro _
    | dsimp only

theorem ptpPdelayReq_keeps {x0 : Nat} {x1 : Quad} {x2 : Nat} {x3 : Quad} {x4 : Nat} {x5 : PtpMsg} (hw : Within [.ptp, .raw, .block 20, .block 21] w) (h : Keeps w s t) :
    Keeps w s (ptpPdelayReq x0 x1 x2 x3 x4 x5 t) := by
  unfold ptpPdelayReq
  repeat' first
    | with_reducible assumption
    | ((with_reducible refine Within.sub hw ?_); exact rfl)
    | with_reducible refine Keeps.advanceTo ?_ ?_
    | with_reducible refine ptpRx_keeps ?_ ?_ ?_
    | with_reducible refine ptpSend_keeps ?_ ?_
    | (simp only [R.PTP_q_CFG_block]; (with_reducible refine Within.sub hw ?_); exact rfl)
    | split
    | intro _
    | dsimp only

theorem ptpDelayReq_keeps {x0 : Nat} {x1 : Quad} {x2 : Nat} {x3 : PtpMsg} (hw : Within [.ptp, .raw, .block 20, .block 21] w) (h : Keeps w s t) :
    Keeps w s (ptpDelayReq x0 x1 x2 x3 t) := by
  unfold ptpDelayReq
  repeat' first
    | with_reducible assumption
    | ((with_reducible refine Within.sub hw ?_); exact rfl)
    | with_reducible refine ptpRx_keeps ?_ ?_ ?_
    | with_reducible refine ptpSend_keeps ?_ ?_
    | (simp only [R.PTP_q_CFG_block]; (with_reducible refine Within.sub hw ?_); exact rfl)
    | split
    | intro _
    | dsimp only

theorem nextPtpSeq_keeps {x0 : Nat} (hw : Within [.ptp] w) (h : Keeps w s t) :
    Keeps w s (nextPtpSeq x0 t).2 := by
  unfold nextPtpSeq
  repeat' first
    | with_reducible assumption
    | ((with_reducible refine Within.sub hw ?_); exact rfl)
    | split
    | intro _
    | dsimp only
    | with_reducible refine Keeps.set_ptp ?_ ?_

theorem nextPtpSeq_keeps_eq {x0 : Nat} {y} {u : State}  (e : nextPtpSeq x0 t = (y, u)) (hw : Within [.ptp] w) (h : Keeps w s t) : Keeps w s u := by
  have := nextPtpSeq_keeps hw h (x0 := x0)
  rw [e] at this; exact this

theorem ptpSyncSend_keeps {x0 : Nat} {x1 : Quad} {x2 : Nat} (hw : Within [.ptp, .raw, .block 20, .block 21] w) (h : Keeps w s t) :
    Keeps w s (ptpSyncSend x0 x1 x2 t) := by
  unfold ptpSyncSend
  repeat' first
    | with_reducible assumption
    | ((with_reducible refine Within.sub hw ?_); exact rfl)
    | with_reducible refine Keeps.advanceTo ?_ ?_
    | with_reducible refine nextPtpSeq_keeps ?_ ?_
    | with_reducible refine nextPtpSeq_keeps_eq (by assumption) ?_ ?_
    | with_reducible refine ptpSend_keeps ?_ ?_
    | (simp only [R.PTP_q_CFG_block]; (with_reducible refine Within.sub hw ?_); exact rfl)
    | split
    | intro _
    | dsimp only

theorem ptpAnnounceSend_keeps {x0 : Nat} {x1 : Quad} (hw : Within [.ptp, .raw, .block 20, .block 21] w) (h : Keeps w s t) :
    Keeps w s (ptpAnnounceSend x0 x1 t) := by
  unfold ptpAnnounceSend
  repeat' first
    | with_reducible assumption
    | ((with_reducible refine Within.sub hw ?_); exact rfl)
    | with_reducible refine Keeps.advanceTo ?_ ?_
    | with_reducible refine nextPtpSeq_keeps ?_ ?_
    | with_reducible refine nextPtpSeq_keeps_eq (by assumption) ?_ ?_
    | with_reducible refine ptpSend_keeps ?_ ?_
    | (simp only [R.PTP_q_CFG_block]; (with_reducible refine Within.sub hw ?_); exact rfl)
    | split
    | intro _
    | dsimp only

theorem frameSent_keeps {x0 : Nat} {x1 : Nat} {x2 : Option (Quad × Nat)} {x3 : Bool} {x4 : Nat} (hw : Within [.mem, .raw, .block 20] w) (h : Keeps w s t) :
    Keeps w s (frameSent x0 x1 x2 x3 x4 t) := by
  unfold frameSent
  repeat' first
    | with_reducible assumption
    | ((with_reducible refine Within.sub hw ?_); exact rfl)
    | with_reducible refine Keeps.advanceTo ?_ ?_
    | with_reducible refine Keeps.incSat ?_ ?_
    | with_reducible refine State.memWrite_keeps ?_ ?_
    | (simp only [R.UPLINK_p_RX_ERR_CNT_block]; (with_reducible refine Within.sub hw ?_); exact rfl)
    | split
    | intro _
    | dsimp only

theorem ptpCtrlWrite_keeps {x0 : Word} (hw : Within [.evlog, .ptp, .block 0, .block 21] w) (h : Keeps w s t) :
    Keeps w s (ptpCtrlWrite x0 t) := by
  unfold ptpCtrlWrite
  repeat' first
    | with_reducible assumption
    | ((with_reducible refine Within.sub hw ?_); exact rfl)
    | with_reducible refine Keeps.raise ?_ ?_
    | with_reducible refine Keeps.setReg ?_ ?_
    | with_reducible refine parentRegs_keeps ?_ ?_
    | with_reducible refine setServo_keeps ?_ ?_
    | split
    | intro _
    | dsimp only
    | with_reducible refine Keeps.set_ptp ?_ ?_

theorem ptpServoCfgWrite_keeps {x0 : Word} (hw : Within [.block 21] w) (h : Keeps w s t) :
    Keeps w s (ptpServoCfgWrite x0 t) := by
  unfold ptpServoCfgWrite
  repeat' first
    | with_reducible assumption
    | ((with_reducible refine Within.sub hw ?_); exact rfl)
    | with_reducible refine Keeps.setReg ?_ ?_
    | split
    | intro _
    | dsimp only

theorem ptpNonzeroWrite_keeps {x0 : Reg} {x1 : Fld} {x2 : Fld} {x3 : Word} (hw : Within [.block (blockOf x0.addr)] w) (h : Keeps w s t) :
    Keeps w s (ptpNonzeroWrite x0 x1 x2 x3 t) := by
  unfold ptpNonzeroWrite
  repeat' first
    | with_reducible assumption
    | ((with_reducible refine Within.sub hw ?_); exact rfl)
    | exact hw.sub (by simp [Within])
    | with_reducible refine Keeps.setReg ?_ ?_
    | split
    | intro _
    | dsimp only

theorem ptpPortCfgWrite_keeps {x0 : Nat} {x1 : Word} (hw : Within [.evlog, .ptp, .block 0, .block 2, .block 21] w) (h : Keeps w s t) :
    Keeps w s (ptpPortCfgWrite x0 x1 t) := by
  unfold ptpPortCfgWrite
  repeat' first
    | with_reducible assumption
    | ((with_reducible refine Within.sub hw ?_); exact rfl)
    | with_reducible refine Keeps.setReg ?_ ?_
    | with_reducible refine selectParent_keeps ?_ ?_
    | (simp only [R.PTP_q_CFG_block]; (with_reducible refine Within.sub hw ?_); exact rfl)
    | split
    | intro _
    | dsimp only

theorem uplinkDown_keeps {x0 : Nat} (hw : Within [.block 20] w) (h : Keeps w s t) :
    Keeps w s (uplinkDown x0 t) := by
  unfold uplinkDown
  repeat' first
    | with_reducible assumption
    | ((with_reducible refine Within.sub hw ?_); exact rfl)
    | with_reducible refine Keeps.setReg ?_ ?_
    | (simp only [R.UPLINK_p_STATUS_block]; (with_reducible refine Within.sub hw ?_); exact rfl)
    | split
    | intro _
    | dsimp only

theorem uplinkCtrlWrite_keeps {x0 : Nat} {x1 : Word} (hw : Within [.evlog, .block 0, .block 20] w) (h : Keeps w s t) :
    Keeps w s (uplinkCtrlWrite x0 x1 t) := by
  unfold uplinkCtrlWrite
  repeat' first
    | with_reducible assumption
    | ((with_reducible refine Within.sub hw ?_); exact rfl)
    | with_reducible refine Keeps.raise ?_ ?_
    | with_reducible refine Keeps.setReg ?_ ?_
    | with_reducible refine uplinkDown_keeps ?_ ?_
    | (simp only [R.UPLINK_p_CTRL_block]; (with_reducible refine Within.sub hw ?_); exact rfl)
    | split
    | intro _
    | dsimp only

theorem uplinkAnswer_keeps {x0 : Nat} {x1 : Bool} (hw : Within [.block 20] w) (h : Keeps w s t) :
    Keeps w s (uplinkAnswer x0 x1 t) := by
  unfold uplinkAnswer
  repeat' first
    | with_reducible assumption
    | ((with_reducible refine Within.sub hw ?_); exact rfl)
    | with_reducible refine Keeps.incSat ?_ ?_
    | (simp only [R.UPLINK_p_DISCARD_CNT_block, R.UPLINK_p_RX_CNT_block, R.UPLINK_p_TX_CNT_block]; (with_reducible refine Within.sub hw ?_); exact rfl)
    | split
    | intro _
    | dsimp only

theorem uplinkLinkDown_keeps {x0 : Nat} (hw : Within [.evlog, .block 0, .block 20] w) (h : Keeps w s t) :
    Keeps w s (uplinkLinkDown x0 t) := by
  unfold uplinkLinkDown
  repeat' first
    | with_reducible assumption
    | ((with_reducible refine Within.sub hw ?_); exact rfl)
    | with_reducible refine Keeps.raise ?_ ?_
    | with_reducible refine uplinkDown_keeps ?_ ?_
    | (simp only [R.UPLINK_p_STATUS_block]; (with_reducible refine Within.sub hw ?_); exact rfl)
    | split
    | intro _
    | dsimp only

theorem uplinkLinkUp_keeps {x0 : Nat} {x1 : Bool} (hw : Within [.block 20] w) (h : Keeps w s t) :
    Keeps w s (uplinkLinkUp x0 x1 t) := by
  unfold uplinkLinkUp
  repeat' first
    | with_reducible assumption
    | ((with_reducible refine Within.sub hw ?_); exact rfl)
    | with_reducible refine Keeps.setReg ?_ ?_
    | (simp only [R.UPLINK_p_CTRL_block, R.UPLINK_p_STATUS_block]; (with_reducible refine Within.sub hw ?_); exact rfl)
    | split
    | intro _
    | dsimp only

end Sys2Proof.Machine
end

