-- ==== Sys2Proof/Laws/Keeps/Farm.lean ====
section
/-! SUPPORT. What the operations of Sys2Proof/Machine/Farm.lean leave unchanged. -/

set_option linter.all false
set_option Elab.async false

namespace Sys2Proof.Machine

variable {w : List Piece} {s t : State}

theorem farmHoldover_keeps (hw : Within [.evlog, .farm, .ptp, .block 0, .block 2, .block 28] w) (h : Keeps w s t) :
    Keeps w s (farmHoldover t) := by
  unfold farmHoldover
  repeat' first
    | with_reducible assumption
    | ((with_reducible refine Within.sub hw ?_); exact rfl)
    | with_reducible refine Keeps.put ?_ ?_
    | with_reducible refine rateAdjWrite_keeps ?_ ?_
    | split
    | intro _
    | dsimp only
    | with_reducible refine Keeps.set_farm ?_ ?_

theorem setTwin_keeps {x0 : Nat} (hw : Within [.block 28] w) (h : Keeps w s t) :
    Keeps w s (setTwin x0 t) := by
  unfold setTwin
  repeat' first
    | with_reducible assumption
    | ((with_reducible refine Within.sub hw ?_); exact rfl)
    | with_reducible refine Keeps.put ?_ ?_
    | split
    | intro _
    | dsimp only

theorem twinAlone_keeps (hw : Within [.evlog, .block 0, .block 28] w) (h : Keeps w s t) :
    Keeps w s (twinAlone t) := by
  unfold twinAlone
  repeat' first
    | with_reducible assumption
    | ((with_reducible refine Within.sub hw ?_); exact rfl)
    | with_reducible refine Keeps.raise ?_ ?_
    | with_reducible refine setTwin_keeps ?_ ?_
    | split
    | intro _
    | dsimp only

theorem deviceLost_keeps {x0 : Nat} (hw : Within [.evlog, .farm, .ptp, .txn, .block 0, .block 2, .block 8, .block 28] w) (h : Keeps w s t) :
    Keeps w s (deviceLost x0 t) := by
  unfold deviceLost
  repeat' first
    | with_reducible assumption
    | ((with_reducible refine Within.sub hw ?_); exact rfl)
    | with_reducible refine Keeps.incSat ?_ ?_
    | with_reducible refine Keeps.raise ?_ ?_
    | with_reducible refine Keeps.setReg ?_ ?_
    | with_reducible refine farmHoldover_keeps ?_ ?_
    | with_reducible refine twinAlone_keeps ?_ ?_
    | with_reducible refine txLost_keeps ?_ ?_
    | split
    | intro _
    | dsimp only
    | with_reducible refine Keeps.set_farm ?_ ?_

theorem deviceJoined_keeps {x0 : Nat} (hw : Within [.evlog, .farm, .block 0, .block 28] w) (h : Keeps w s t) :
    Keeps w s (deviceJoined x0 t) := by
  unfold deviceJoined
  repeat' first
    | with_reducible assumption
    | ((with_reducible refine Within.sub hw ?_); exact rfl)
    | with_reducible refine Keeps.put ?_ ?_
    | with_reducible refine Keeps.raise ?_ ?_
    | split
    | intro _
    | dsimp only
    | with_reducible refine Keeps.set_farm ?_ ?_

theorem reroute_keeps (hw : Within [.evlog, .farm, .ptp, .txn, .block 0, .block 2, .block 8, .block 28] w) (h : Keeps w s t) :
    Keeps w s (reroute t) := by
  unfold reroute
  repeat' first
    | with_reducible assumption
    | ((with_reducible refine Within.sub hw ?_); exact rfl)
    | with_reducible refine Keeps.forAll ?_ ?_
    | with_reducible refine Keeps.raiseIf ?_ ?_
    | with_reducible refine Keeps.setReg ?_ ?_
    | with_reducible refine deviceJoined_keeps ?_ ?_
    | with_reducible refine deviceLost_keeps ?_ ?_
    | with_reducible refine Keeps.foldl ?_ ?_
    | split
    | intro _
    | dsimp only

theorem portDown_keeps {x0 : Nat} (hw : Within [.evlog, .farm, .ptp, .txn, .block 0, .block 2, .block 8, .block 28] w) (h : Keeps w s t) :
    Keeps w s (portDown x0 t) := by
  unfold portDown
  repeat' first
    | with_reducible assumption
    | ((with_reducible refine Within.sub hw ?_); exact rfl)
    | with_reducible refine Keeps.put ?_ ?_
    | with_reducible refine Keeps.raise ?_ ?_
    | with_reducible refine reroute_keeps ?_ ?_
    | (simp only [R.DRUS_p_STATUS_block]; (with_reducible refine Within.sub hw ?_); exact rfl)
    | split
    | intro _
    | dsimp only
    | with_reducible refine Keeps.set_farm ?_ ?_

theorem linkDown_keeps {x0 : FarmLink} (hw : Within [.evlog, .farm, .ptp, .txn, .block 0, .block 2, .block 8, .block 28] w) (h : Keeps w s t) :
    Keeps w s (linkDown x0 t) := by
  unfold linkDown
  repeat' first
    | with_reducible assumption
    | ((with_reducible refine Within.sub hw ?_); exact rfl)
    | with_reducible refine portDown_keeps ?_ ?_
    | with_reducible refine reroute_keeps ?_ ?_
    | split
    | intro _
    | dsimp only
    | with_reducible refine Keeps.set_farm ?_ ?_

theorem portUp_keeps {x0 : Nat} {x1 : FarmHello} {x2 : Bool} (hw : Within [.evlog, .farm, .ptp, .txn, .block 0, .block 2, .block 8, .block 28] w) (h : Keeps w s t) :
    Keeps w s (portUp x0 x1 x2 t) := by
  unfold portUp
  repeat' first
    | with_reducible assumption
    | ((with_reducible refine Within.sub hw ?_); exact rfl)
    | with_reducible refine Keeps.put ?_ ?_
    | with_reducible refine Keeps.raise ?_ ?_
    | with_reducible refine reroute_keeps ?_ ?_
    | (simp only [R.DRUS_p_CTRL_block, R.DRUS_p_STATUS_block]; (with_reducible refine Within.sub hw ?_); exact rfl)
    | split
    | intro _
    | dsimp only
    | with_reducible refine Keeps.set_farm ?_ ?_

theorem linkUp_keeps {x0 : FarmLink} {x1 : FarmHello} {x2 : Bool} (hw : Within [.evlog, .farm, .ptp, .txn, .block 0, .block 2, .block 8, .block 28] w) (h : Keeps w s t) :
    Keeps w s (linkUp x0 x1 x2 t) := by
  unfold linkUp
  repeat' first
    | with_reducible assumption
    | ((with_reducible refine Within.sub hw ?_); exact rfl)
    | with_reducible refine portUp_keeps ?_ ?_
    | with_reducible refine reroute_keeps ?_ ?_
    | split
    | intro _
    | dsimp only
    | with_reducible refine Keeps.set_farm ?_ ?_

theorem flitReplay_keeps {x0 : Nat} {x1 : Bool} (hw : Within [.block 28] w) (h : Keeps w s t) :
    Keeps w s (flitReplay x0 x1 t) := by
  unfold flitReplay
  repeat' first
    | with_reducible assumption
    | ((with_reducible refine Within.sub hw ?_); exact rfl)
    | with_reducible refine Keeps.incSat ?_ ?_
    | (simp only [R.DRUS_p_CRC_CNT_block, R.DRUS_p_RETRY_CNT_block]; (with_reducible refine Within.sub hw ?_); exact rfl)
    | split
    | intro _
    | dsimp only

theorem drusCtrlWrite_keeps {x0 : Word} (hw : Within [.evlog, .farm, .ptp, .txn, .block 0, .block 2, .block 8, .block 28] w) (h : Keeps w s t) :
    Keeps w s (drusCtrlWrite x0 t) := by
  unfold drusCtrlWrite
  repeat' first
    | with_reducible assumption
    | ((with_reducible refine Within.sub hw ?_); exact rfl)
    | with_reducible refine Keeps.forAll ?_ ?_
    | with_reducible refine Keeps.setReg ?_ ?_
    | with_reducible refine portDown_keeps ?_ ?_
    | split
    | intro _
    | dsimp only

theorem drusTest_keeps {x0 : Nat} {x1 : Nat} (hw : Within [.block 28, .block 31] w) (h : Keeps w s t) :
    Keeps w s (drusTest x0 x1 t) := by
  unfold drusTest
  repeat' first
    | with_reducible assumption
    | ((with_reducible refine Within.sub hw ?_); exact rfl)
    | with_reducible refine Keeps.put ?_ ?_
    | with_reducible refine Keeps.setReg ?_ ?_
    | (simp only [R.DRUS_p_CTRL_block, R.LINKTEST_l_CTRL_block]; (with_reducible refine Within.sub hw ?_); exact rfl)
    | split
    | intro _
    | dsimp only

theorem drusPortWrite_keeps {x0 : Nat} {x1 : Word} (hw : Within [.evlog, .farm, .ptp, .txn, .block 0, .block 2, .block 8, .block 28, .block 31] w) (h : Keeps w s t) :
    Keeps w s (drusPortWrite x0 x1 t) := by
  unfold drusPortWrite
  repeat' first
    | with_reducible assumption
    | ((with_reducible refine Within.sub hw ?_); exact rfl)
    | with_reducible refine Keeps.put ?_ ?_
    | with_reducible refine Keeps.raise ?_ ?_
    | with_reducible refine drusTest_keeps ?_ ?_
    | with_reducible refine portDown_keeps ?_ ?_
    | (simp only [R.DRUS_p_CTRL_block]; (with_reducible refine Within.sub hw ?_); exact rfl)
    | split
    | intro _
    | dsimp only

theorem farmLock_keeps {x0 : Int} (hw : Within [.evlog, .farm, .block 0, .block 28] w) (h : Keeps w s t) :
    Keeps w s (farmLock x0 t) := by
  unfold farmLock
  repeat' first
    | with_reducible assumption
    | ((with_reducible refine Within.sub hw ?_); exact rfl)
    | with_reducible refine Keeps.put ?_ ?_
    | with_reducible refine Keeps.raise ?_ ?_
    | split
    | intro _
    | dsimp only
    | with_reducible refine Keeps.set_farm ?_ ?_

theorem farmSeat_keeps {x0 : Int} (hw : Within [.evlog, .farm, .head, .ptp, .block 0, .block 2, .block 3, .block 21] w) (h : Keeps w s t) :
    Keeps w s (farmSeat x0 t) := by
  unfold farmSeat
  repeat' first
    | with_reducible assumption
    | ((with_reducible refine Within.sub hw ?_); exact rfl)
    | with_reducible refine Keeps.put ?_ ?_
    | with_reducible refine seatAtLock_keeps ?_ ?_
    | split
    | intro _
    | dsimp only
    | with_reducible refine Keeps.set_farm ?_ ?_
    | with_reducible refine Keeps.set_ptp_farm ?_ ?_

theorem farmServo_keeps {x0 : Int} {x1 : Quad} (hw : Within [.evlog, .farm, .head, .ptp, .block 0, .block 2, .block 3, .block 21, .block 28] w) (h : Keeps w s t) :
    Keeps w s (farmServo x0 x1 t) := by
  unfold farmServo
  repeat' first
    | with_reducible assumption
    | ((with_reducible refine Within.sub hw ?_); exact rfl)
    | with_reducible refine Keeps.setReg ?_ ?_
    | with_reducible refine farmLock_keeps ?_ ?_
    | with_reducible refine farmSeat_keeps ?_ ?_
    | with_reducible refine rateAdjWrite_keeps ?_ ?_
    | split
    | intro _
    | dsimp only
    | with_reducible refine Keeps.set_farm ?_ ?_

theorem farmExchange_keeps {x0 : Nat} {x1 : Int} {x2 : Quad} {x3 : Nat} {x4 : Quad} {x5 : Nat} {x6 : Int} (hw : Within [.evlog, .farm, .head, .ptp, .raw, .block 0, .block 2, .block 3, .block 21, .block 28] w) (h : Keeps w s t) :
    Keeps w s (farmExchange x0 x1 x2 x3 x4 x5 x6 t) := by
  unfold farmExchange
  repeat' first
    | with_reducible assumption
    | ((with_reducible refine Within.sub hw ?_); exact rfl)
    | with_reducible refine Keeps.advanceTo ?_ ?_
    | with_reducible refine Keeps.setReg ?_ ?_
    | with_reducible refine farmServo_keeps ?_ ?_
    | (simp only [R.DRUS_p_DELAY_block, R.DRUS_p_STATUS_block]; (with_reducible refine Within.sub hw ?_); exact rfl)
    | split
    | intro _
    | dsimp only

theorem takeDelta_keeps {x0 : Int} (hw : Within [.head] w) (h : Keeps w s t) :
    Keeps w s (takeDelta x0 t) := by
  unfold takeDelta
  repeat' first
    | with_reducible assumption
    | ((with_reducible refine Within.sub hw ?_); exact rfl)
    | split
    | intro _
    | dsimp only
    | with_reducible refine Keeps.set_head ?_ ?_

theorem headlandMessage_keeps {x0 : Nat} {x1 : Int} {x2 : Int} {x3 : Bool} (hw : Within [.farm, .head, .block 3] w) (h : Keeps w s t) :
    Keeps w s (headlandMessage x0 x1 x2 x3 t) := by
  unfold headlandMessage
  repeat' first
    | with_reducible assumption
    | ((with_reducible refine Within.sub hw ?_); exact rfl)
    | with_reducible refine setTarget_keeps ?_ ?_
    | with_reducible refine takeDelta_keeps ?_ ?_
    | split
    | intro _
    | dsimp only
    | with_reducible refine Keeps.set_farm ?_ ?_
    | with_reducible refine Keeps.set_head ?_ ?_
    | with_reducible refine Keeps.set_head_farm ?_ ?_

theorem headlandMessageMissed_keeps (hw : Within [.evlog, .farm, .head, .raw, .block 0, .block 28] w) (h : Keeps w s t) :
    Keeps w s (headlandMessageMissed t) := by
  unfold headlandMessageMissed
  repeat' first
    | with_reducible assumption
    | ((with_reducible refine Within.sub hw ?_); exact rfl)
    | with_reducible refine Keeps.advanceToV ?_ ?_
    | with_reducible refine Keeps.raise ?_ ?_
    | with_reducible refine takeDelta_keeps ?_ ?_
    | split
    | intro _
    | dsimp only
    | with_reducible refine Keeps.set_farm ?_ ?_

theorem farmDelivery_keeps {x0 : Nat} {x1 : Nat} {x2 : Bool} {x3 : List (Nat × Quad)} (hw : Within [.ages, .farm, .inputs] w) (h : Keeps w s t) :
    Keeps w s (farmDelivery x0 x1 x2 x3 t) := by
  unfold farmDelivery
  repeat' first
    | with_reducible assumption
    | ((with_reducible refine Within.sub hw ?_); exact rfl)
    | with_reducible refine Keeps.forAll ?_ ?_
    | with_reducible refine State.putInputs_keeps ?_ ?_
    | with_reducible refine State.setAge_keeps ?_ ?_
    | split
    | intro _
    | dsimp only
    | with_reducible refine Keeps.set_farm ?_ ?_

theorem farmInputs_keeps (hw : Within [.inputs, .quals] w) (h : Keeps w s t) :
    Keeps w s (farmInputs t) := by
  unfold farmInputs
  repeat' first
    | with_reducible assumption
    | ((with_reducible refine Within.sub hw ?_); exact rfl)
    | with_reducible refine Keeps.forAll ?_ ?_
    | with_reducible refine State.setQual_keeps ?_ ?_
    | with_reducible refine substitute_keeps ?_ ?_
    | split
    | intro _
    | dsimp only

theorem farmAges_keeps (hw : Within [.farm] w) (h : Keeps w s t) :
    Keeps w s (farmAges t) := by
  unfold farmAges
  repeat' first
    | with_reducible assumption
    | ((with_reducible refine Within.sub hw ?_); exact rfl)
    | with_reducible refine Keeps.forAll ?_ ?_
    | split
    | intro _
    | dsimp only
    | with_reducible refine Keeps.set_farm ?_ ?_

theorem farmSend_keeps (hw : Within [.farm] w) (h : Keeps w s t) :
    Keeps w s (farmSend t) := by
  unfold farmSend
  repeat' first
    | with_reducible assumption
    | ((with_reducible refine Within.sub hw ?_); exact rfl)
    | split
    | intro _
    | dsimp only
    | with_reducible refine Keeps.set_farm ?_ ?_

theorem farmEvent_keeps {x0 : Nat} {x1 : Nat} {x2 : Nat} {x3 : Nat} {x4 : Nat} {x5 : Bool} (hw : Within [.collie, .block 28] w) (h : Keeps w s t) :
    Keeps w s (farmEvent x0 x1 x2 x3 x4 x5 t) := by
  unfold farmEvent
  repeat' first
    | with_reducible assumption
    | ((with_reducible refine Within.sub hw ?_); exact rfl)
    | with_reducible refine Keeps.setReg ?_ ?_
    | with_reducible refine hwPostCfg_keeps ?_ ?_
    | split
    | intro _
    | dsimp only

theorem pokeEntry_keeps {x0 : Nat} {x1 : Nat} {x2 : Quad} (hw : Within [.collie, .gran, .txn] w) (h : Keeps w s t) :
    Keeps w s (pokeEntry x0 x1 x2 t) := by
  unfold pokeEntry
  repeat' first
    | with_reducible assumption
    | ((with_reducible refine Within.sub hw ?_); exact rfl)
    | with_reducible refine State.varPoke_keeps ?_ ?_
    | with_reducible refine persistWritten_keeps ?_ ?_
    | split
    | intro _
    | dsimp only

theorem peerActions_keeps {x0 : Nat} {x1 : Nat} {x2 : Nat} {x3 : Nat} {x4 : List (Nat × EType × Quad)} (hw : Within [.txn] w) (h : Keeps w s t) :
    Keeps w s (peerActions x0 x1 x2 x3 x4 t) := by
  unfold peerActions
  repeat' first
    | with_reducible assumption
    | ((with_reducible refine Within.sub hw ?_); exact rfl)
    | split
    | intro _
    | dsimp only
    | with_reducible refine Keeps.set_txn ?_ ?_

theorem modPeer_keeps {x0 : Nat} {x1 : Nat} {x2 : PeerTxn → PeerTxn} (hw : Within [.txn] w) (h : Keeps w s t) :
    Keeps w s (modPeer x0 x1 x2 t) := by
  unfold modPeer
  repeat' first
    | with_reducible assumption
    | ((with_reducible refine Within.sub hw ?_); exact rfl)
    | split
    | intro _
    | dsimp only
    | with_reducible refine Keeps.set_txn ?_ ?_

theorem dropPeer_keeps {x0 : Nat} {x1 : Nat} (hw : Within [.txn] w) (h : Keeps w s t) :
    Keeps w s (dropPeer x0 x1 t) := by
  unfold dropPeer
  repeat' first
    | with_reducible assumption
    | ((with_reducible refine Within.sub hw ?_); exact rfl)
    | split
    | intro _
    | dsimp only
    | with_reducible refine Keeps.set_txn ?_ ?_

theorem peerDecision_keeps {x0 : Nat} {x1 : Nat} {x2 : Bool} (hw : Within [.txn] w) (h : Keeps w s t) :
    Keeps w s (peerDecision x0 x1 x2 t) := by
  unfold peerDecision
  repeat' first
    | with_reducible assumption
    | ((with_reducible refine Within.sub hw ?_); exact rfl)
    | with_reducible refine dropPeer_keeps ?_ ?_
    | with_reducible refine modPeer_keeps ?_ ?_
    | split
    | intro _
    | dsimp only

theorem peerHeadland_keeps (hw : Within [.collie, .gran, .txn] w) (h : Keeps w s t) :
    Keeps w s (peerHeadland t) := by
  unfold peerHeadland
  repeat' first
    | with_reducible assumption
    | ((with_reducible refine Within.sub hw ?_); exact rfl)
    | with_reducible refine Keeps.forAll ?_ ?_
    | with_reducible refine dropPeer_keeps ?_ ?_
    | with_reducible refine modPeer_keeps ?_ ?_
    | with_reducible refine pokeEntry_keeps ?_ ?_
    | split
    | intro _
    | dsimp only

theorem doubtQuery_keeps {x0 : Nat} {x1 : Nat} {x2 : Option Bool} (hw : Within [.evlog, .txn, .block 0, .block 28] w) (h : Keeps w s t) :
    Keeps w s (doubtQuery x0 x1 x2 t) := by
  unfold doubtQuery
  repeat' first
    | with_reducible assumption
    | ((with_reducible refine Within.sub hw ?_); exact rfl)
    | with_reducible refine Keeps.raise ?_ ?_
    | with_reducible refine dropPeer_keeps ?_ ?_
    | with_reducible refine peerDecision_keeps ?_ ?_
    | split
    | intro _
    | dsimp only

theorem doubtExpiry_keeps (hw : Within [.evlog, .txn, .block 0, .block 28] w) (h : Keeps w s t) :
    Keeps w s (doubtExpiry t) := by
  unfold doubtExpiry
  repeat' first
    | with_reducible assumption
    | ((with_reducible refine Within.sub hw ?_); exact rfl)
    | with_reducible refine Keeps.forAll ?_ ?_
    | with_reducible refine Keeps.raise ?_ ?_
    | with_reducible refine dropPeer_keeps ?_ ?_
    | split
    | intro _
    | dsimp only

theorem modTwin_keeps {x0 : Twin → Twin} (hw : Within [.farm] w) (h : Keeps w s t) :
    Keeps w s (modTwin x0 t) := by
  unfold modTwin
  repeat' first
    | with_reducible assumption
    | ((with_reducible refine Within.sub hw ?_); exact rfl)
    | split
    | intro _
    | dsimp only
    | with_reducible refine Keeps.set_farm ?_ ?_

theorem twinYield_keeps {x0 : Nat} (hw : Within [.block 28] w) (h : Keeps w s t) :
    Keeps w s (twinYield x0 t) := by
  unfold twinYield
  repeat' first
    | with_reducible assumption
    | ((with_reducible refine Within.sub hw ?_); exact rfl)
    | with_reducible refine Keeps.put ?_ ?_
    | with_reducible refine setTwin_keeps ?_ ?_
    | split
    | intro _
    | dsimp only

theorem twinHeartbeat_keeps {x0 : Bool} {x1 : Nat} {x2 : Nat} {x3 : Bool} (hw : Within [.evlog, .farm, .block 0, .block 28] w) (h : Keeps w s t) :
    Keeps w s (twinHeartbeat x0 x1 x2 x3 t) := by
  unfold twinHeartbeat
  repeat' first
    | with_reducible assumption
    | ((with_reducible refine Within.sub hw ?_); exact rfl)
    | with_reducible refine modTwin_keeps ?_ ?_
    | with_reducible refine setTwin_keeps ?_ ?_
    | with_reducible refine twinAlone_keeps ?_ ?_
    | with_reducible refine twinYield_keeps ?_ ?_
    | split
    | intro _
    | dsimp only

theorem twinFrame_keeps {x0 : Nat} (hw : Within [.farm, .block 28] w) (h : Keeps w s t) :
    Keeps w s (twinFrame x0 t) := by
  unfold twinFrame
  repeat' first
    | with_reducible assumption
    | ((with_reducible refine Within.sub hw ?_); exact rfl)
    | with_reducible refine modTwin_keeps ?_ ?_
    | with_reducible refine twinYield_keeps ?_ ?_
    | split
    | intro _
    | dsimp only

theorem twinMirror_keeps {x0 : TwinMirror} (hw : Within [.ages, .collie, .farm, .gran, .inputs, .quals, .txn, .block 4, .block 7, .block 17] w) (h : Keeps w s t) :
    Keeps w s (twinMirror x0 t) := by
  unfold twinMirror
  repeat' first
    | with_reducible assumption
    | ((with_reducible refine Within.sub hw ?_); exact rfl)
    | with_reducible refine Keeps.forAll ?_ ?_
    | with_reducible refine Keeps.put ?_ ?_
    | with_reducible refine Keeps.setReg ?_ ?_
    | with_reducible refine Keeps.setReg64 ?_ ?_
    | with_reducible refine modTwin_keeps ?_ ?_
    | with_reducible refine pokeEntry_keeps ?_ ?_
    | with_reducible refine sliceReady_keeps ?_ ?_
    | (simp only [R.FIELD_p_s_STATUS_block, R.FORCE_e_CTRL_block, R.FORCE_e_POINT_block, R.FORCE_e_VALUE_HI_block, R.FORCE_e_VALUE_LO_block]; (with_reducible refine Within.sub hw ?_); exact rfl)
    | with_reducible refine Keeps.foldl ?_ ?_
    | split
    | intro _
    | dsimp only
    | with_reducible refine Keeps.set_collie ?_ ?_
    | with_reducible refine Keeps.set_inputs_quals_ages ?_ ?_

theorem twinIncomplete_keeps (hw : Within [.raw, .block 28] w) (h : Keeps w s t) :
    Keeps w s (twinIncomplete t) := by
  unfold twinIncomplete
  repeat' first
    | with_reducible assumption
    | ((with_reducible refine Within.sub hw ?_); exact rfl)
    | with_reducible refine Keeps.advanceTo ?_ ?_
    | with_reducible refine setTwin_keeps ?_ ?_
    | split
    | intro _
    | dsimp only

theorem twinCutCopied_keeps {x0 : List (Nat × List Quad)} (hw : Within [.collie, .farm] w) (h : Keeps w s t) :
    Keeps w s (twinCutCopied x0 t) := by
  unfold twinCutCopied
  repeat' first
    | with_reducible assumption
    | ((with_reducible refine Within.sub hw ?_); exact rfl)
    | with_reducible refine Keeps.forAll ?_ ?_
    | with_reducible refine State.setRetained_keeps ?_ ?_
    | with_reducible refine modTwin_keeps ?_ ?_
    | with_reducible refine Keeps.foldl ?_ ?_
    | split
    | intro _
    | dsimp only

theorem twinTakeover_keeps (hw : Within [.evlog, .farm, .raw, .block 0, .block 28] w) (h : Keeps w s t) :
    Keeps w s (twinTakeover t) := by
  unfold twinTakeover
  repeat' first
    | with_reducible assumption
    | ((with_reducible refine Within.sub hw ?_); exact rfl)
    | with_reducible refine Keeps.advanceToV ?_ ?_
    | with_reducible refine Keeps.raise ?_ ?_
    | with_reducible refine modTwin_keeps ?_ ?_
    | split
    | intro _
    | dsimp only

theorem takePorts_keeps (hw : Within [.field, .txn, .block 17] w) (h : Keeps w s t) :
    Keeps w s (takePorts t) := by
  unfold takePorts
  repeat' first
    | with_reducible assumption
    | ((with_reducible refine Within.sub hw ?_); exact rfl)
    | with_reducible refine Keeps.forAll ?_ ?_
    | with_reducible refine State.setFport_keeps ?_ ?_
    | with_reducible refine Keeps.setReg ?_ ?_
    | (simp only [R.FIELD_p_CYCLE_NUM_block]; (with_reducible refine Within.sub hw ?_); exact rfl)
    | split
    | intro _
    | dsimp only
    | with_reducible refine Keeps.set_txn ?_ ?_

theorem twinHeadland_keeps (hw : Within [.evlog, .farm, .field, .txn, .block 0, .block 17, .block 28] w) (h : Keeps w s t) :
    Keeps w s (twinHeadland t) := by
  unfold twinHeadland
  repeat' first
    | with_reducible assumption
    | ((with_reducible refine Within.sub hw ?_); exact rfl)
    | with_reducible refine Keeps.put ?_ ?_
    | with_reducible refine Keeps.raise ?_ ?_
    | with_reducible refine modTwin_keeps ?_ ?_
    | with_reducible refine setTwin_keeps ?_ ?_
    | with_reducible refine takePorts_keeps ?_ ?_
    | split
    | intro _
    | dsimp only

end Sys2Proof.Machine
end

