-- ==== Sys2Proof/Laws/Keeps/JoaWrite.lean ====
section
/-! SUPPORT. What the operations of Sys2Proof/Machine/JoaWrite.lean leave unchanged. -/

set_option linter.all false
set_option Elab.async false

namespace Sys2Proof.Machine

variable {w : List Piece} {s t : State}

theorem pubWrite_keeps {x0 : Nat} {x1 : Module} {x2 : PubEntry} {x3 : VarDesc} {x4 : List Byte} (hw : Within [.collie, .gran, .txn] w) (h : Keeps w s t) :
    Keeps w s (pubWrite x0 x1 x2 x3 x4 t) := by
  unfold pubWrite
  repeat' first
    | with_reducible assumption
    | ((with_reducible refine Within.sub hw ?_); exact rfl)
    | with_reducible refine Keeps.forAll ?_ ?_
    | with_reducible refine State.varPoke_keeps ?_ ?_
    | with_reducible refine persistVar_keeps ?_ ?_
    | split
    | intro _
    | dsimp only

theorem modReq_keeps {x0 : Nat} {x1 : Nat} {x2 : JoaPend → JoaPend} (hw : Within [.joa] w) (h : Keeps w s t) :
    Keeps w s (modReq x0 x1 x2 t) := by
  unfold modReq
  repeat' first
    | with_reducible assumption
    | ((with_reducible refine Within.sub hw ?_); exact rfl)
    | with_reducible refine State.modSession_keeps ?_ ?_
    | split
    | intro _
    | dsimp only

theorem modItem_keeps {x0 : Nat} {x1 : Nat} {x2 : Nat} {x3 : JoaItem → JoaItem} (hw : Within [.joa] w) (h : Keeps w s t) :
    Keeps w s (modItem x0 x1 x2 x3 t) := by
  unfold modItem
  repeat' first
    | with_reducible assumption
    | ((with_reducible refine Within.sub hw ?_); exact rfl)
    | with_reducible refine modReq_keeps ?_ ?_
    | split
    | intro _
    | dsimp only

theorem itemWait_keeps {x0 : Nat} {x1 : Nat} {x2 : Nat} {x3 : JoaWait} (hw : Within [.joa] w) (h : Keeps w s t) :
    Keeps w s (itemWait x0 x1 x2 x3 t) := by
  unfold itemWait
  repeat' first
    | with_reducible assumption
    | ((with_reducible refine Within.sub hw ?_); exact rfl)
    | with_reducible refine modItem_keeps ?_ ?_
    | split
    | intro _
    | dsimp only

theorem itemEnd_keeps {x0 : Nat} {x1 : Nat} {x2 : Nat} {x3 : Nat} {x4 : Nat} (hw : Within [.joa] w) (h : Keeps w s t) :
    Keeps w s (itemEnd x0 x1 x2 x3 x4 t) := by
  unfold itemEnd
  repeat' first
    | with_reducible assumption
    | ((with_reducible refine Within.sub hw ?_); exact rfl)
    | with_reducible refine modReq_keeps ?_ ?_
    | split
    | intro _
    | dsimp only

theorem varItem_keeps {x0 : Nat} {x1 : Nat} {x2 : Nat} (hw : Within [.collie, .gran, .joa, .txn] w) (h : Keeps w s t) :
    Keeps w s (varItem x0 x1 x2 t) := by
  unfold varItem
  repeat' first
    | with_reducible assumption
    | ((with_reducible refine Within.sub hw ?_); exact rfl)
    | with_reducible refine Keeps.forAll ?_ ?_
    | with_reducible refine State.varPoke_keeps ?_ ?_
    | with_reducible refine itemEnd_keeps ?_ ?_
    | with_reducible refine itemWait_keeps ?_ ?_
    | with_reducible refine pubWrite_keeps ?_ ?_
    | split
    | intro _
    | dsimp only

theorem joaHeadland_keeps (hw : Within [.collie, .gran, .joa, .txn] w) (h : Keeps w s t) :
    Keeps w s (joaHeadland t) := by
  unfold joaHeadland
  repeat' first
    | with_reducible assumption
    | ((with_reducible refine Within.sub hw ?_); exact rfl)
    | with_reducible refine Keeps.forAll ?_ ?_
    | with_reducible refine varItem_keeps ?_ ?_
    | split
    | intro _
    | dsimp only

end Sys2Proof.Machine
end

