-- ==== Sys2Proof/Laws/Keeps/Cyclic.lean ====
section
/-! SUPPORT. What the operations of Sys2Proof/Machine/Cyclic.lean leave unchanged. -/

set_option linter.all false
set_option Elab.async false

namespace Sys2Proof.Machine

variable {w : List Piece} {s t : State}

theorem snapshotCut_keeps (hw : Within [.collie, .pulses] w) (h : Keeps w s t) :
    Keeps w s (snapshotCut t) := by
  unfold snapshotCut
  repeat' first
    | with_reducible assumption
    | ((with_reducible refine Within.sub hw ?_); exact rfl)
    | split
    | intro _
    | dsimp only
    | with_reducible refine Keeps.set_collie_pulses ?_ ?_

theorem ckptBusy_keeps (hw : Within [.block 6] w) (h : Keeps w s t) :
    Keeps w s (ckptBusy t) := by
  unfold ckptBusy
  repeat' first
    | with_reducible assumption
    | ((with_reducible refine Within.sub hw ?_); exact rfl)
    | with_reducible refine Keeps.putFlag ?_ ?_
    | split
    | intro _
    | dsimp only

theorem stageCut_keeps {x0 : Cut} (hw : Within [.exec, .block 6] w) (h : Keeps w s t) :
    Keeps w s (stageCut x0 t) := by
  unfold stageCut
  repeat' first
    | with_reducible assumption
    | ((with_reducible refine Within.sub hw ?_); exact rfl)
    | with_reducible refine Keeps.incSat ?_ ?_
    | split
    | intro _
    | dsimp only
    | with_reducible refine Keeps.set_exec ?_ ?_

theorem takeCut_keeps {x0 : Nat} (hw : Within [.exec, .gran, .block 6] w) (h : Keeps w s t) :
    Keeps w s (takeCut x0 t) := by
  unfold takeCut
  repeat' first
    | with_reducible assumption
    | ((with_reducible refine Within.sub hw ?_); exact rfl)
    | with_reducible refine ckptBusy_keeps ?_ ?_
    | with_reducible refine persistAll_keeps ?_ ?_
    | with_reducible refine stageCut_keeps ?_ ?_
    | split
    | intro _
    | dsimp only

theorem headlandCut_keeps {x0 : Bool} (hw : Within [.exec, .gran, .block 6] w) (h : Keeps w s t) :
    Keeps w s (headlandCut x0 t) := by
  unfold headlandCut
  repeat' first
    | with_reducible assumption
    | ((with_reducible refine Within.sub hw ?_); exact rfl)
    | with_reducible refine takeCut_keeps ?_ ?_
    | split
    | intro _
    | dsimp only
    | with_reducible refine Keeps.set_exec ?_ ?_

theorem cutWrite_keeps {x0 : Cut} (hw : Within [.exec, .gran] w) (h : Keeps w s t) :
    Keeps w s (cutWrite x0 t) := by
  unfold cutWrite
  repeat' first
    | with_reducible assumption
    | ((with_reducible refine Within.sub hw ?_); exact rfl)
    | with_reducible refine granWait_keeps ?_ ?_
    | split
    | intro _
    | dsimp only
    | with_reducible refine Keeps.set_exec ?_ ?_

theorem checkpointCapture_keeps {x0 : Bool} (hw : Within [.evlog, .exec, .gran, .block 0, .block 6] w) (h : Keeps w s t) :
    Keeps w s (checkpointCapture x0 t) := by
  unfold checkpointCapture
  repeat' first
    | with_reducible assumption
    | ((with_reducible refine Within.sub hw ?_); exact rfl)
    | with_reducible refine Keeps.raise ?_ ?_
    | with_reducible refine ckptBusy_keeps ?_ ?_
    | with_reducible refine cutWrite_keeps ?_ ?_
    | split
    | intro _
    | dsimp only
    | with_reducible refine Keeps.set_exec ?_ ?_

theorem checkpointWrite_keeps (hw : Within [.evlog, .exec, .gran, .mem, .block 0, .block 6, .block 26] w) (h : Keeps w s t) :
    Keeps w s (checkpointWrite t) := by
  unfold checkpointWrite
  repeat' first
    | with_reducible assumption
    | ((with_reducible refine Within.sub hw ?_); exact rfl)
    | with_reducible refine Keeps.raise ?_ ?_
    | with_reducible refine ckptBusy_keeps ?_ ?_
    | with_reducible refine cutCommit_keeps ?_ ?_
    | with_reducible refine cutWrite_keeps ?_ ?_
    | split
    | intro _
    | dsimp only
    | with_reducible refine Keeps.set_exec ?_ ?_
    | with_reducible refine Keeps.set_exec_gran ?_ ?_

theorem portsJudge_keeps (hw : Within [.collie, .evlog, .field, .inputs, .quals, .txn, .block 0, .block 8, .block 17, .block 18] w) (h : Keeps w s t) :
    Keeps w s (portsJudge t) := by
  unfold portsJudge
  repeat' first
    | with_reducible assumption
    | ((with_reducible refine Within.sub hw ?_); exact rfl)
    | with_reducible refine Keeps.forAll ?_ ?_
    | with_reducible refine canJudge_keeps ?_ ?_
    | with_reducible refine fieldJudge_keeps ?_ ?_
    | (simp only [R.CAN_p_CTRL_block]; (with_reducible refine Within.sub hw ?_); exact rfl)
    | split
    | intro _
    | dsimp only

theorem savePersisted_keeps {x0 : List TxAction} (hw : Within [.gran, .txn] w) (h : Keeps w s t) :
    Keeps w s (savePersisted x0 t) := by
  unfold savePersisted
  repeat' first
    | with_reducible assumption
    | ((with_reducible refine Within.sub hw ?_); exact rfl)
    | with_reducible refine Keeps.forAll ?_ ?_
    | with_reducible refine persistWritten_keeps ?_ ?_
    | split
    | intro _
    | dsimp only

theorem bridgeCounted_keeps (hw : Within [.exec] w) (h : Keeps w s t) :
    Keeps w s (bridgeCounted t) := by
  unfold bridgeCounted
  repeat' first
    | with_reducible assumption
    | ((with_reducible refine Within.sub hw ?_); exact rfl)
    | split
    | intro _
    | dsimp only
    | with_reducible refine Keeps.set_exec ?_ ?_

theorem olcSeen_keeps (hw : Within [.exec] w) (h : Keeps w s t) :
    Keeps w s (olcSeen t) := by
  unfold olcSeen
  repeat' first
    | with_reducible assumption
    | ((with_reducible refine Within.sub hw ?_); exact rfl)
    | split
    | intro _
    | dsimp only
    | with_reducible refine Keeps.set_exec ?_ ?_

theorem axesNow_keeps (hw : Within [.free, .motion, .block 14] w) (h : Keeps w s t) :
    Keeps w s (axesNow t) := by
  unfold axesNow
  repeat' first
    | with_reducible assumption
    | ((with_reducible refine Within.sub hw ?_); exact rfl)
    | with_reducible refine Keeps.forAll ?_ ?_
    | with_reducible refine drillNow_keeps ?_ ?_
    | split
    | intro _
    | dsimp only

theorem headlandBefore_keeps (hw : Within [.analog, .collie, .evlog, .exec, .farm, .field, .free, .glean, .head, .inputs, .motion, .quals, .raw, .txn, .block 0, .block 3, .block 7, .block 8, .block 14, .block 17, .block 18, .block 28, .block 32] w) (h : Keeps w s t) :
    Keeps w s (headlandBefore t) := by
  unfold headlandBefore
  repeat' first
    | with_reducible assumption
    | ((with_reducible refine Within.sub hw ?_); exact rfl)
    | with_reducible refine accHeadland_keeps ?_ ?_
    | with_reducible refine axesNow_keeps ?_ ?_
    | with_reducible refine farmAges_keeps ?_ ?_
    | with_reducible refine farmInputs_keeps ?_ ?_
    | with_reducible refine forceHeadland_keeps ?_ ?_
    | with_reducible refine headlandOccurs_keeps ?_ ?_
    | with_reducible refine olcSeen_keeps ?_ ?_
    | with_reducible refine portsJudge_keeps ?_ ?_
    | with_reducible refine sigHeadland_keeps ?_ ?_
    | with_reducible refine twinHeadland_keeps ?_ ?_
    | split
    | intro _
    | dsimp only

theorem headlandAfter_keeps (hw : Within [.analog, .collie, .evlog, .exec, .gran, .img, .joa, .motion, .txn, .block 0, .block 6, .block 8, .block 11] w) (h : Keeps w s t) :
    Keeps w s (headlandAfter t) := by
  unfold headlandAfter
  repeat' first
    | with_reducible assumption
    | ((with_reducible refine Within.sub hw ?_); exact rfl)
    | with_reducible refine axisHeadland_keeps ?_ ?_
    | with_reducible refine bridgeCounted_keeps ?_ ?_
    | with_reducible refine dacClamp_keeps ?_ ?_
    | with_reducible refine formLive_keeps ?_ ?_
    | with_reducible refine headlandCut_keeps ?_ ?_
    | with_reducible refine injHeadland_keeps ?_ ?_
    | with_reducible refine joaHeadland_keeps ?_ ?_
    | with_reducible refine peerHeadland_keeps ?_ ?_
    | with_reducible refine savePersisted_keeps ?_ ?_
    | with_reducible refine savesDue_keeps ?_ ?_
    | with_reducible refine txApply_keeps ?_ ?_
    | split
    | intro _
    | dsimp only

theorem startTimed_keeps (hw : Within [.resets, .block 1] w) (h : Keeps w s t) :
    Keeps w s (startTimed t) := by
  unfold startTimed
  repeat' first
    | with_reducible assumption
    | ((with_reducible refine Within.sub hw ?_); exact rfl)
    | with_reducible refine Keeps.setReg ?_ ?_
    | split
    | intro _
    | dsimp only
    | with_reducible refine Keeps.set_resets ?_ ?_

theorem shutHeadland_keeps (hw : Within [.collie, .evlog, .exec, .free, .head, .img, .motion, .txn, .block 0, .block 4, .block 5, .block 6, .block 7, .block 8, .block 11, .block 14, .block 23] w) (h : Keeps w s t) :
    Keeps w s (shutHeadland t) := by
  unfold shutHeadland
  repeat' first
    | with_reducible assumption
    | ((with_reducible refine Within.sub hw ?_); exact rfl)
    | with_reducible refine controllerStop_keeps ?_ ?_
    | split
    | intro _
    | dsimp only

theorem headland_keeps (hw : Within [.analog, .collie, .evlog, .exec, .farm, .field, .free, .glean, .gran, .head, .img, .inputs, .joa, .motion, .pulses, .quals, .raw, .resets, .txn, .block 0, .block 1, .block 3, .block 4, .block 5, .block 6, .block 7, .block 8, .block 11, .block 14, .block 17, .block 18, .block 23, .block 28, .block 32] w) (h : Keeps w s t) :
    Keeps w s (headland t) := by
  unfold headland
  repeat' first
    | with_reducible assumption
    | ((with_reducible refine Within.sub hw ?_); exact rfl)
    | with_reducible refine headlandAfter_keeps ?_ ?_
    | with_reducible refine headlandBefore_keeps ?_ ?_
    | with_reducible refine shutHeadland_keeps ?_ ?_
    | with_reducible refine snapshotCut_keeps ?_ ?_
    | with_reducible refine startTimed_keeps ?_ ?_
    | split
    | intro _
    | dsimp only

theorem sealAt_keeps {x0 : Quad} (hw : Within [.head, .img, .raw, .block 6] w) (h : Keeps w s t) :
    Keeps w s (sealAt x0 t) := by
  unfold sealAt
  repeat' first
    | with_reducible assumption
    | ((with_reducible refine Within.sub hw ?_); exact rfl)
    | with_reducible refine Keeps.advanceTo ?_ ?_
    | with_reducible refine Keeps.put ?_ ?_
    | split
    | intro _
    | dsimp only
    | with_reducible refine Keeps.set_head_img ?_ ?_

theorem liveImageSeal_keeps (hw : Within [.evlog, .farm, .field, .head, .img, .raw, .resets, .txn, .block 0, .block 6, .block 17] w) (h : Keeps w s t) :
    Keeps w s (liveImageSeal t) := by
  unfold liveImageSeal
  repeat' first
    | with_reducible assumption
    | ((with_reducible refine Within.sub hw ?_); exact rfl)
    | with_reducible refine farmSend_keeps ?_ ?_
    | with_reducible refine fieldSend_keeps ?_ ?_
    | with_reducible refine sealAt_keeps ?_ ?_
    | split
    | intro _
    | dsimp only

theorem outputSwitch_keeps (hw : Within [.head, .img, .raw] w) (h : Keeps w s t) :
    Keeps w s (outputSwitch t) := by
  unfold outputSwitch
  repeat' first
    | with_reducible assumption
    | ((with_reducible refine Within.sub hw ?_); exact rfl)
    | with_reducible refine Keeps.advanceTo ?_ ?_
    | with_reducible refine Keeps.foldl ?_ ?_
    | split
    | intro _
    | dsimp only
    | with_reducible refine Keeps.set_head_img ?_ ?_

end Sys2Proof.Machine
end

