-- ==== Sys2Proof/Laws/Keeps/Island.lean ====
section
/-! SUPPORT. What the operations of Sys2Proof/Machine/Island.lean leave unchanged. -/

set_option linter.all false
set_option Elab.async false

namespace Sys2Proof.Machine

variable {w : List Piece} {s t : State}

theorem State.modIsland_keeps {x1 : Island → Island} (hw : Within [.island] w) (h : Keeps w s t) :
    Keeps w s (State.modIsland t x1) := by
  unfold State.modIsland
  repeat' first
    | with_reducible assumption
    | ((with_reducible refine Within.sub hw ?_); exact rfl)
    | split
    | intro _
    | dsimp only
    | with_reducible refine Keeps.set_island ?_ ?_

theorem coreTick_keeps {x0 : IslandPins} (hw : Within [.island] w) (h : Keeps w s t) :
    Keeps w s (coreTick x0 t) := by
  unfold coreTick
  repeat' first
    | with_reducible assumption
    | ((with_reducible refine Within.sub hw ?_); exact rfl)
    | with_reducible refine State.modIsland_keeps ?_ ?_
    | split
    | intro _
    | dsimp only

theorem mastiffTick_keeps {x0 : IslandPins} {x1 : Option Nat} (hw : Within [.island] w) (h : Keeps w s t) :
    Keeps w s (mastiffTick x0 x1 t) := by
  unfold mastiffTick
  repeat' first
    | with_reducible assumption
    | ((with_reducible refine Within.sub hw ?_); exact rfl)
    | with_reducible refine State.modIsland_keeps ?_ ?_
    | split
    | intro _
    | dsimp only

theorem testPulse_keeps {x0 : Nat} {x1 : IslandPins} (hw : Within [.island] w) (h : Keeps w s t) :
    Keeps w s (testPulse x0 x1 t) := by
  unfold testPulse
  repeat' first
    | with_reducible assumption
    | ((with_reducible refine Within.sub hw ?_); exact rfl)
    | with_reducible refine State.modIsland_keeps ?_ ?_
    | with_reducible refine Keeps.foldl ?_ ?_
    | split
    | intro _
    | dsimp only

theorem darkTest_keeps {x0 : Bool} {x1 : Nat} {x2 : Bool} (hw : Within [.island] w) (h : Keeps w s t) :
    Keeps w s (darkTest x0 x1 x2 t) := by
  unfold darkTest
  repeat' first
    | with_reducible assumption
    | ((with_reducible refine Within.sub hw ?_); exact rfl)
    | with_reducible refine State.modIsland_keeps ?_ ?_
    | split
    | intro _
    | dsimp only

theorem resetRelease_keeps (hw : Within [.island] w) (h : Keeps w s t) :
    Keeps w s (resetRelease t) := by
  unfold resetRelease
  repeat' first
    | with_reducible assumption
    | ((with_reducible refine Within.sub hw ?_); exact rfl)
    | with_reducible refine State.modIsland_keeps ?_ ?_
    | split
    | intro _
    | dsimp only

theorem setPending_keeps {x0 : List Byte} (hw : Within [.evlog, .island, .block 0, .block 23] w) (h : Keeps w s t) :
    Keeps w s (setPending x0 t) := by
  unfold setPending
  repeat' first
    | with_reducible assumption
    | ((with_reducible refine Within.sub hw ?_); exact rfl)
    | with_reducible refine State.modIsland_keeps ?_ ?_
    | with_reducible refine Keeps.putFlag ?_ ?_
    | with_reducible refine Keeps.raise ?_ ?_
    | with_reducible refine Keeps.setReg ?_ ?_
    | split
    | intro _
    | dsimp only

theorem islandStart_keeps {x0 : Bool} (hw : Within [.island] w) (h : Keeps w s t) :
    Keeps w s (islandStart x0 t) := by
  unfold islandStart
  repeat' first
    | with_reducible assumption
    | ((with_reducible refine Within.sub hw ?_); exact rfl)
    | with_reducible refine State.modIsland_keeps ?_ ?_
    | split
    | intro _
    | dsimp only

theorem safemirCmdWrite_keeps {x0 : Word} (hw : Within [.evlog, .island, .block 0, .block 23] w) (h : Keeps w s t) :
    Keeps w s (safemirCmdWrite x0 t) := by
  unfold safemirCmdWrite
  repeat' first
    | with_reducible assumption
    | ((with_reducible refine Within.sub hw ?_); exact rfl)
    | with_reducible refine State.modIsland_keeps ?_ ?_
    | with_reducible refine Keeps.putFlag ?_ ?_
    | with_reducible refine Keeps.raise ?_ ?_
    | with_reducible refine Keeps.setReg ?_ ?_
    | with_reducible refine islandStart_keeps ?_ ?_
    | split
    | intro _
    | dsimp only

theorem mirrorInputs_keeps {x0 : Nat} {x1 : Bool} (hw : Within [.inputs, .quals] w) (h : Keeps w s t) :
    Keeps w s (mirrorInputs x0 x1 t) := by
  unfold mirrorInputs
  repeat' first
    | with_reducible assumption
    | ((with_reducible refine Within.sub hw ?_); exact rfl)
    | with_reducible refine Keeps.foldl ?_ ?_
    | split
    | intro _
    | dsimp only
    | with_reducible refine Keeps.set_inputs_quals ?_ ?_

theorem mirrorFrame_keeps (hw : Within [.evlog, .inputs, .island, .quals, .block 0, .block 23] w) (h : Keeps w s t) :
    Keeps w s (mirrorFrame t) := by
  unfold mirrorFrame
  repeat' first
    | with_reducible assumption
    | ((with_reducible refine Within.sub hw ?_); exact rfl)
    | with_reducible refine Keeps.addSat ?_ ?_
    | with_reducible refine Keeps.foldl ?_ ?_
    | with_reducible refine Keeps.raise ?_ ?_
    | with_reducible refine Keeps.setReg ?_ ?_
    | with_reducible refine Keeps.setReg64 ?_ ?_
    | with_reducible refine State.modIsland_keeps ?_ ?_
    | with_reducible refine mirrorInputs_keeps ?_ ?_
    | (simp only [R.SAFEMIR_BITS_w_block, R.SAFEMIR_i_IN_block, R.SAFEMIR_n_OUT_block]; (with_reducible refine Within.sub hw ?_); exact rfl)
    | split
    | intro _
    | dsimp only

theorem mirrorLost_keeps (hw : Within [.evlog, .inputs, .quals, .raw, .block 0, .block 23] w) (h : Keeps w s t) :
    Keeps w s (mirrorLost t) := by
  unfold mirrorLost
  repeat' first
    | with_reducible assumption
    | ((with_reducible refine Within.sub hw ?_); exact rfl)
    | with_reducible refine Keeps.advanceTo ?_ ?_
    | with_reducible refine Keeps.raise ?_ ?_
    | with_reducible refine Keeps.setReg ?_ ?_
    | with_reducible refine mirrorInputs_keeps ?_ ?_
    | (simp only [R.SAFEMIR_BITS_w_block]; (with_reducible refine Within.sub hw ?_); exact rfl)
    | with_reducible refine Keeps.foldl ?_ ?_
    | split
    | intro _
    | dsimp only

theorem safemirReqWrite_keeps {x0 : Word} (hw : Within [.block 23] w) (h : Keeps w s t) :
    Keeps w s (safemirReqWrite x0 t) := by
  unfold safemirReqWrite
  repeat' first
    | with_reducible assumption
    | ((with_reducible refine Within.sub hw ?_); exact rfl)
    | with_reducible refine Keeps.setReg ?_ ?_
    | split
    | intro _
    | dsimp only

end Sys2Proof.Machine
end

