-- ==== Sys2Proof/Laws/Keeps/MemTest.lean ====
section
/-! SUPPORT. What the operations of Sys2Proof/Machine/MemTest.lean leave unchanged. -/

set_option linter.all false
set_option Elab.async false

namespace Sys2Proof.Machine

variable {w : List Piece} {s t : State}

theorem addRepair_keeps {x0 : RepairRec} (hw : Within [.evlog, .gran, .block 0, .block 25] w) (h : Keeps w s t) :
    Keeps w s (addRepair x0 t) := by
  unfold addRepair
  repeat' first
    | with_reducible assumption
    | ((with_reducible refine Within.sub hw ?_); exact rfl)
    | with_reducible refine Keeps.put ?_ ?_
    | with_reducible refine Keeps.raise ?_ ?_
    | split
    | intro _
    | dsimp only
    | with_reducible refine Keeps.set_gran ?_ ?_

theorem correctable_keeps {x0 : Nat} (hw : Within [.evlog, .block 0, .block 24] w) (h : Keeps w s t) :
    Keeps w s (correctable x0 t) := by
  unfold correctable
  repeat' first
    | with_reducible assumption
    | ((with_reducible refine Within.sub hw ?_); exact rfl)
    | with_reducible refine Keeps.incSat ?_ ?_
    | with_reducible refine Keeps.raise ?_ ?_
    | (simp only [R.MEM_k_CE_CNT_block]; (with_reducible refine Within.sub hw ?_); exact rfl)
    | split
    | intro _
    | dsimp only

theorem lostWord_keeps {x0 : Nat} (hw : Within [.evlog, .block 0, .block 24] w) (h : Keeps w s t) :
    Keeps w s (lostWord x0 t) := by
  unfold lostWord
  repeat' first
    | with_reducible assumption
    | ((with_reducible refine Within.sub hw ?_); exact rfl)
    | with_reducible refine Keeps.incSat ?_ ?_
    | with_reducible refine Keeps.raise ?_ ?_
    | with_reducible refine Keeps.setReg ?_ ?_
    | split
    | intro _
    | dsimp only

theorem uncorrectable_keeps {x0 : Nat} (hw : Within [.evlog, .gran, .block 0, .block 24] w) (h : Keeps w s t) :
    Keeps w s (uncorrectable x0 t) := by
  unfold uncorrectable
  repeat' first
    | with_reducible assumption
    | ((with_reducible refine Within.sub hw ?_); exact rfl)
    | with_reducible refine lostWord_keeps ?_ ?_
    | split
    | intro _
    | dsimp only
    | with_reducible refine Keeps.set_gran ?_ ?_

theorem weakCell_keeps {x0 : Nat} {x1 : Nat} {x2 : Nat} (hw : Within [.evlog, .gran, .block 0, .block 24, .block 25] w) (h : Keeps w s t) :
    Keeps w s (weakCell x0 x1 x2 t) := by
  unfold weakCell
  repeat' first
    | with_reducible assumption
    | ((with_reducible refine Within.sub hw ?_); exact rfl)
    | with_reducible refine Keeps.raise ?_ ?_
    | with_reducible refine addRepair_keeps ?_ ?_
    | split
    | intro _
    | dsimp only

theorem harrowLine_keeps {x0 : WordEnd} (hw : Within [.evlog, .gran, .block 0, .block 24] w) (h : Keeps w s t) :
    Keeps w s (harrowLine x0 t) := by
  unfold harrowLine
  repeat' first
    | with_reducible assumption
    | ((with_reducible refine Within.sub hw ?_); exact rfl)
    | with_reducible refine Keeps.incSat ?_ ?_
    | with_reducible refine Keeps.raise ?_ ?_
    | with_reducible refine granWait_keeps ?_ ?_
    | with_reducible refine lostWord_keeps ?_ ?_
    | split
    | intro _
    | dsimp only
    | with_reducible refine Keeps.set_gran ?_ ?_

theorem harrowRead_keeps {x0 : Nat} {x1 : WordEnd} (hw : Within [.evlog, .gran, .block 0, .block 24, .block 25] w) (h : Keeps w s t) :
    Keeps w s (harrowRead x0 x1 t) := by
  unfold harrowRead
  repeat' first
    | with_reducible assumption
    | ((with_reducible refine Within.sub hw ?_); exact rfl)
    | with_reducible refine Keeps.incWrap ?_ ?_
    | with_reducible refine correctable_keeps ?_ ?_
    | with_reducible refine harrowLine_keeps ?_ ?_
    | with_reducible refine uncorrectable_keeps ?_ ?_
    | with_reducible refine weakCell_keeps ?_ ?_
    | split
    | intro _
    | dsimp only
    | with_reducible refine Keeps.set_gran ?_ ?_

theorem fallowWindow_keeps {x0 : Nat} {x1 : List Nat} (hw : Within [.evlog, .gran, .block 0, .block 24, .block 25] w) (h : Keeps w s t) :
    Keeps w s (fallowWindow x0 x1 t) := by
  unfold fallowWindow
  repeat' first
    | with_reducible assumption
    | ((with_reducible refine Within.sub hw ?_); exact rfl)
    | with_reducible refine Keeps.forAll ?_ ?_
    | with_reducible refine Keeps.incSat ?_ ?_
    | with_reducible refine Keeps.raise ?_ ?_
    | with_reducible refine addRepair_keeps ?_ ?_
    | split
    | intro _
    | dsimp only
    | with_reducible refine Keeps.set_gran ?_ ?_

theorem ownerWrite_keeps {x0 : Nat} {x1 : Word} (hw : Within [.gran, .block 24] w) (h : Keeps w s t) :
    Keeps w s (ownerWrite x0 x1 t) := by
  unfold ownerWrite
  repeat' first
    | with_reducible assumption
    | ((with_reducible refine Within.sub hw ?_); exact rfl)
    | with_reducible refine Keeps.put ?_ ?_
    | (simp only [R.MEM_k_OWNER_block]; (with_reducible refine Within.sub hw ?_); exact rfl)
    | split
    | intro _
    | dsimp only
    | with_reducible refine Keeps.set_gran ?_ ?_

theorem destroyUnit_keeps {x0 : Nat} (hw : Within [.free, .mem] w) (h : Keeps w s t) :
    Keeps w s (destroyUnit x0 t) := by
  unfold destroyUnit
  repeat' first
    | with_reducible assumption
    | ((with_reducible refine Within.sub hw ?_); exact rfl)
    | with_reducible refine State.memWrite_keeps ?_ ?_
    | split
    | intro _
    | dsimp only
    | with_reducible refine Keeps.set_free ?_ ?_

theorem bistSlice_keeps {x0 : List (Nat × Nat)} (hw : Within [.evlog, .free, .gran, .mem, .raw, .block 0, .block 25] w) (h : Keeps w s t) :
    Keeps w s (bistSlice x0 t) := by
  unfold bistSlice
  repeat' first
    | with_reducible assumption
    | ((with_reducible refine Within.sub hw ?_); exact rfl)
    | with_reducible refine Keeps.advanceTo ?_ ?_
    | with_reducible refine Keeps.forAll ?_ ?_
    | with_reducible refine Keeps.incSat ?_ ?_
    | with_reducible refine Keeps.incWrap ?_ ?_
    | with_reducible refine Keeps.put ?_ ?_
    | with_reducible refine Keeps.raise ?_ ?_
    | with_reducible refine Keeps.setReg ?_ ?_
    | with_reducible refine addRepair_keeps ?_ ?_
    | with_reducible refine destroyUnit_keeps ?_ ?_
    | split
    | intro _
    | dsimp only

theorem bistCtrlWrite_keeps {x0 : Word} (hw : Within [.block 25] w) (h : Keeps w s t) :
    Keeps w s (bistCtrlWrite x0 t) := by
  unfold bistCtrlWrite
  repeat' first
    | with_reducible assumption
    | ((with_reducible refine Within.sub hw ?_); exact rfl)
    | with_reducible refine Keeps.setReg ?_ ?_
    | split
    | intro _
    | dsimp only

end Sys2Proof.Machine
end

