-- ==== Sys2Proof/Laws/Keeps/Olc.lean ====
section
/-! SUPPORT. What the operations of Sys2Proof/Machine/Olc.lean leave unchanged. -/

set_option linter.all false
set_option Elab.async false

namespace Sys2Proof.Machine

variable {w : List Piece} {s t : State}

theorem olcRefused_keeps {x0 : Nat} (hw : Within [.evlog, .block 0, .block 6] w) (h : Keeps w s t) :
    Keeps w s (olcRefused x0 t) := by
  unfold olcRefused
  repeat' first
    | with_reducible assumption
    | ((with_reducible refine Within.sub hw ?_); exact rfl)
    | with_reducible refine Keeps.raise ?_ ?_
    | with_reducible refine Keeps.setReg ?_ ?_
    | split
    | intro _
    | dsimp only

theorem olcArm_keeps (hw : Within [.evlog, .exec, .newImage, .block 0, .block 6] w) (h : Keeps w s t) :
    Keeps w s (olcArm t) := by
  unfold olcArm
  repeat' first
    | with_reducible assumption
    | ((with_reducible refine Within.sub hw ?_); exact rfl)
    | with_reducible refine Keeps.put ?_ ?_
    | with_reducible refine cmdRefused_keeps ?_ ?_
    | with_reducible refine olcRefused_keeps ?_ ?_
    | split
    | intro _
    | dsimp only
    | with_reducible refine Keeps.set_exec ?_ ?_
    | with_reducible refine Keeps.set_newImage_exec ?_ ?_

theorem olcDisarm_keeps (hw : Within [.newImage, .block 6] w) (h : Keeps w s t) :
    Keeps w s (olcDisarm t) := by
  unfold olcDisarm
  repeat' first
    | with_reducible assumption
    | ((with_reducible refine Within.sub hw ?_); exact rfl)
    | with_reducible refine Keeps.put ?_ ?_
    | split
    | intro _
    | dsimp only
    | with_reducible refine Keeps.set_newImage ?_ ?_

theorem olcCancel_keeps (hw : Within [.evlog, .newImage, .block 0, .block 6] w) (h : Keeps w s t) :
    Keeps w s (olcCancel t) := by
  unfold olcCancel
  repeat' first
    | with_reducible assumption
    | ((with_reducible refine Within.sub hw ?_); exact rfl)
    | with_reducible refine cmdRefused_keeps ?_ ?_
    | with_reducible refine olcDisarm_keeps ?_ ?_
    | split
    | intro _
    | dsimp only

theorem olcReset_keeps (hw : Within [.evlog, .newImage, .block 0, .block 6] w) (h : Keeps w s t) :
    Keeps w s (olcReset t) := by
  unfold olcReset
  repeat' first
    | with_reducible assumption
    | ((with_reducible refine Within.sub hw ?_); exact rfl)
    | with_reducible refine olcDisarm_keeps ?_ ?_
    | with_reducible refine olcRefused_keeps ?_ ?_
    | split
    | intro _
    | dsimp only

theorem olcCommand_keeps {x0 : Nat} (hw : Within [.evlog, .exec, .newImage, .block 0, .block 6] w) (h : Keeps w s t) :
    Keeps w s (olcCommand x0 t) := by
  unfold olcCommand
  repeat' first
    | with_reducible assumption
    | ((with_reducible refine Within.sub hw ?_); exact rfl)
    | with_reducible refine olcArm_keeps ?_ ?_
    | with_reducible refine olcCancel_keeps ?_ ?_
    | split
    | intro _
    | dsimp only

theorem markOld_keeps {x0 : Nat} (hw : Within [.collie, .txn] w) (h : Keeps w s t) :
    Keeps w s (markOld x0 t) := by
  unfold markOld
  repeat' first
    | with_reducible assumption
    | ((with_reducible refine Within.sub hw ?_); exact rfl)
    | with_reducible refine Keeps.foldl ?_ ?_
    | with_reducible refine State.setRun_keeps ?_ ?_
    | split
    | intro _
    | dsimp only
    | with_reducible refine Keeps.set_collie_txn ?_ ?_

theorem settleOld_keeps {x0 : Nat} (hw : Within [.collie] w) (h : Keeps w s t) :
    Keeps w s (settleOld x0 t) := by
  unfold settleOld
  repeat' first
    | with_reducible assumption
    | ((with_reducible refine Within.sub hw ?_); exact rfl)
    | with_reducible refine State.setOldTask_keeps ?_ ?_
    | with_reducible refine State.setTask_keeps ?_ ?_
    | split
    | intro _
    | dsimp only

theorem changeTask_keeps {x0 : Nat} (hw : Within [.collie, .txn] w) (h : Keeps w s t) :
    Keeps w s (changeTask x0 t) := by
  unfold changeTask
  repeat' first
    | with_reducible assumption
    | ((with_reducible refine Within.sub hw ?_); exact rfl)
    | with_reducible refine State.setOldRetained_keeps ?_ ?_
    | with_reducible refine State.setOldTask_keeps ?_ ?_
    | with_reducible refine State.setRetained_keeps ?_ ?_
    | with_reducible refine State.setTask_keeps ?_ ?_
    | with_reducible refine markOld_keeps ?_ ?_
    | with_reducible refine settleOld_keeps ?_ ?_
    | split
    | intro _
    | dsimp only

theorem dropLacking_keeps {x0 : Image} {x1 : Nat} (hw : Within [.collie, .txn, .block 4, .block 6] w) (h : Keeps w s t) :
    Keeps w s (dropLacking x0 x1 t) := by
  unfold dropLacking
  repeat' first
    | with_reducible assumption
    | ((with_reducible refine Within.sub hw ?_); exact rfl)
    | with_reducible refine Keeps.addSat ?_ ?_
    | with_reducible refine State.setTask_keeps ?_ ?_
    | with_reducible refine discardReady_keeps ?_ ?_
    | with_reducible refine dropQueue_keeps ?_ ?_
    | with_reducible refine flowLost_keeps ?_ ?_
    | split
    | intro _
    | dsimp only

theorem relistReady_keeps (hw : Within [.collie] w) (h : Keeps w s t) :
    Keeps w s (relistReady t) := by
  unfold relistReady
  repeat' first
    | with_reducible assumption
    | ((with_reducible refine Within.sub hw ?_); exact rfl)
    | with_reducible refine Keeps.foldl ?_ ?_
    | split
    | intro _
    | dsimp only
    | with_reducible refine Keeps.set_collie ?_ ?_

theorem mapCopies_keeps {x0 : Image} {x1 : List MapEntry} {x2 : List Nat} (hw : Within [.collie] w) (h : Keeps w s t) :
    Keeps w s (mapCopies x0 x1 x2 t) := by
  unfold mapCopies
  repeat' first
    | with_reducible assumption
    | ((with_reducible refine Within.sub hw ?_); exact rfl)
    | with_reducible refine Keeps.foldl ?_ ?_
    | split
    | intro _
    | dsimp only
    | with_reducible refine Keeps.set_collie ?_ ?_

theorem forceChange_keeps {x0 : Image} {x1 : Image} {x2 : Nat} (hw : Within [.evlog, .block 0, .block 7] w) (h : Keeps w s t) :
    Keeps w s (forceChange x0 x1 x2 t) := by
  unfold forceChange
  repeat' first
    | with_reducible assumption
    | ((with_reducible refine Within.sub hw ?_); exact rfl)
    | with_reducible refine Keeps.put ?_ ?_
    | with_reducible refine Keeps.raise ?_ ?_
    | with_reducible refine Keeps.raiseNamed ?_ ?_
    | with_reducible refine Keeps.setReg ?_ ?_
    | (simp only [R.FORCE_e_CTRL_block, R.FORCE_e_POINT_block]; (with_reducible refine Within.sub hw ?_); exact rfl)
    | split
    | intro _
    | dsimp only

theorem loadTaskCtrl_keeps {x0 : List (Nat × TaskDesc)} (hw : Within [.block 6] w) (h : Keeps w s t) :
    Keeps w s (loadTaskCtrl x0 t) := by
  unfold loadTaskCtrl
  repeat' first
    | with_reducible assumption
    | ((with_reducible refine Within.sub hw ?_); exact rfl)
    | with_reducible refine Keeps.forAll ?_ ?_
    | with_reducible refine Keeps.setReg ?_ ?_
    | (simp only [R.EXEC_t_TASK_CTRL_block]; (with_reducible refine Within.sub hw ?_); exact rfl)
    | split
    | intro _
    | dsimp only

theorem loadSignals_keeps {x0 : Tbl SigCfg} (hw : Within [.glean] w) (h : Keeps w s t) :
    Keeps w s (loadSignals x0 t) := by
  unfold loadSignals
  repeat' first
    | with_reducible assumption
    | ((with_reducible refine Within.sub hw ?_); exact rfl)
    | split
    | intro _
    | dsimp only
    | with_reducible refine Keeps.set_glean ?_ ?_

theorem olcChange_keeps (hw : Within [.collie, .evlog, .exec, .glean, .image, .newImage, .oldImage, .txn, .block 0, .block 4, .block 6, .block 7] w) (h : Keeps w s t) :
    Keeps w s (olcChange t) := by
  unfold olcChange
  repeat' first
    | with_reducible assumption
    | ((with_reducible refine Within.sub hw ?_); exact rfl)
    | with_reducible refine Keeps.forAll ?_ ?_
    | with_reducible refine Keeps.put ?_ ?_
    | with_reducible refine State.setRetained_keeps ?_ ?_
    | with_reducible refine State.setTask_keeps ?_ ?_
    | with_reducible refine changeTask_keeps ?_ ?_
    | with_reducible refine dropLacking_keeps ?_ ?_
    | with_reducible refine forceChange_keeps ?_ ?_
    | with_reducible refine loadSignals_keeps ?_ ?_
    | with_reducible refine loadTaskCtrl_keeps ?_ ?_
    | with_reducible refine mapCopies_keeps ?_ ?_
    | with_reducible refine nextPost_keeps ?_ ?_
    | with_reducible refine relistReady_keeps ?_ ?_
    | split
    | intro _
    | dsimp only
    | with_reducible refine Keeps.set_image_oldImage_newImage_exec ?_ ?_

theorem newGleanCtrl_keeps (hw : Within [.exec, .glean, .block 13] w) (h : Keeps w s t) :
    Keeps w s (newGleanCtrl t) := by
  unfold newGleanCtrl
  repeat' first
    | with_reducible assumption
    | ((with_reducible refine Within.sub hw ?_); exact rfl)
    | with_reducible refine gleanCtrlWrite_keeps ?_ ?_
    | split
    | intro _
    | dsimp only
    | with_reducible refine Keeps.set_exec ?_ ?_

theorem newSafetySet_keeps (hw : Within [.evlog, .island, .block 0, .block 23] w) (h : Keeps w s t) :
    Keeps w s (newSafetySet t) := by
  unfold newSafetySet
  repeat' first
    | with_reducible assumption
    | ((with_reducible refine Within.sub hw ?_); exact rfl)
    | with_reducible refine setPending_keeps ?_ ?_
    | split
    | intro _
    | dsimp only

theorem olcComplete_keeps (hw : Within [.collie, .evlog, .exec, .glean, .island, .oldImage, .block 0, .block 6, .block 13, .block 23, .block 27] w) (h : Keeps w s t) :
    Keeps w s (olcComplete t) := by
  unfold olcComplete
  repeat' first
    | with_reducible assumption
    | ((with_reducible refine Within.sub hw ?_); exact rfl)
    | with_reducible refine Keeps.forAll ?_ ?_
    | with_reducible refine Keeps.put ?_ ?_
    | with_reducible refine Keeps.raise ?_ ?_
    | with_reducible refine Keeps.setReg ?_ ?_
    | with_reducible refine Keeps.setReg64 ?_ ?_
    | with_reducible refine buildRetained_keeps ?_ ?_
    | with_reducible refine newGleanCtrl_keeps ?_ ?_
    | with_reducible refine newSafetySet_keeps ?_ ?_
    | split
    | intro _
    | dsimp only
    | with_reducible refine Keeps.set_oldImage_collie_exec ?_ ?_

end Sys2Proof.Machine
end

