-- ==== Sys2Proof/Laws/Keeps/Security.lean ====
section
/-! SUPPORT. What the operations of Sys2Proof/Machine/Security.lean leave unchanged. -/

set_option linter.all false
set_option Elab.async false

namespace Sys2Proof.Machine

variable {w : List Piece} {s t : State}

theorem State.modSec_keeps {x1 : Security → Security} (hw : Within [.sec] w) (h : Keeps w s t) :
    Keeps w s (State.modSec t x1) := by
  unfold State.modSec
  repeat' first
    | with_reducible assumption
    | ((with_reducible refine Within.sub hw ?_); exact rfl)
    | split
    | intro _
    | dsimp only
    | with_reducible refine Keeps.set_sec ?_ ?_

theorem verifySlot_keeps {x0 : Nat} (hw : Within [.evlog, .block 0, .block 27] w) (h : Keeps w s t) :
    Keeps w s (verifySlot x0 t) := by
  unfold verifySlot
  repeat' first
    | with_reducible assumption
    | ((with_reducible refine Within.sub hw ?_); exact rfl)
    | with_reducible refine Keeps.raise ?_ ?_
    | with_reducible refine setImageResult_keeps ?_ ?_
    | split
    | intro _
    | dsimp only

theorem verifyAll_keeps (hw : Within [.evlog, .block 0, .block 27] w) (h : Keeps w s t) :
    Keeps w s (verifyAll t) := by
  unfold verifyAll
  repeat' first
    | with_reducible assumption
    | ((with_reducible refine Within.sub hw ?_); exact rfl)
    | with_reducible refine Keeps.forAll ?_ ?_
    | with_reducible refine verifySlot_keeps ?_ ?_
    | split
    | intro _
    | dsimp only

theorem imageVerify_keeps {x0 : Nat} {x1 : Option ImageFile} (hw : Within [.evlog, .slots, .block 0, .block 27] w) (h : Keeps w s t) :
    Keeps w s (imageVerify x0 x1 t) := by
  unfold imageVerify
  repeat' first
    | with_reducible assumption
    | ((with_reducible refine Within.sub hw ?_); exact rfl)
    | with_reducible refine verifySlot_keeps ?_ ?_
    | split
    | intro _
    | dsimp only
    | with_reducible refine Keeps.set_slots ?_ ?_

theorem wipeSecure_keeps (hw : Within [.evlog, .free, .glean, .group, .joa, .latch, .mem, .stage, .txn, .block 0, .block 8, .block 22] w) (h : Keeps w s t) :
    Keeps w s (wipeSecure t) := by
  unfold wipeSecure
  repeat' first
    | with_reducible assumption
    | ((with_reducible refine Within.sub hw ?_); exact rfl)
    | with_reducible refine endSessions_keeps ?_ ?_
    | split
    | intro _
    | dsimp only
    | with_reducible refine Keeps.set_mem ?_ ?_

theorem coldSoon_keeps (hw : Within [.resets] w) (h : Keeps w s t) :
    Keeps w s (coldSoon t) := by
  unfold coldSoon
  repeat' first
    | with_reducible assumption
    | ((with_reducible refine Within.sub hw ?_); exact rfl)
    | split
    | intro _
    | dsimp only
    | with_reducible refine Keeps.set_resets ?_ ?_

theorem lmsReserve_keeps (hw : Within [.gran, .sec] w) (h : Keeps w s t) :
    Keeps w s (lmsReserve t) := by
  unfold lmsReserve
  repeat' first
    | with_reducible assumption
    | ((with_reducible refine Within.sub hw ?_); exact rfl)
    | with_reducible refine State.modSec_keeps ?_ ?_
    | with_reducible refine granWait_keeps ?_ ?_
    | split
    | intro _
    | dsimp only

theorem lmsUse_keeps (hw : Within [.evlog, .gran, .sec, .block 0, .block 27] w) (h : Keeps w s t) :
    Keeps w s (lmsUse t).2 := by
  unfold lmsUse
  repeat' first
    | with_reducible assumption
    | ((with_reducible refine Within.sub hw ?_); exact rfl)
    | with_reducible refine Keeps.raise ?_ ?_
    | with_reducible refine State.modSec_keeps ?_ ?_
    | with_reducible refine lmsReserve_keeps ?_ ?_
    | split
    | intro _
    | dsimp only

theorem lmsUse_keeps_eq {y0} {u : State} (e : lmsUse t = (y0, u)) (hw : Within [.evlog, .gran, .sec, .block 0, .block 27] w) (h : Keeps w s t) : Keeps w s u := by
  have := lmsUse_keeps hw h
  rw [e] at this; exact this

theorem State.freeBytes_keeps {x1 : Nat} (hw : Within [.free] w) (h : Keeps w s t) :
    Keeps w s (State.freeBytes t x1).2 := by
  unfold State.freeBytes
  repeat' first
    | with_reducible assumption
    | ((with_reducible refine Within.sub hw ?_); exact rfl)
    | split
    | intro _
    | dsimp only
    | with_reducible refine Keeps.set_free ?_ ?_

theorem State.freeBytes_keeps_eq {x1 : Nat} {y} {u : State}  (e : State.freeBytes t x1 = (y, u)) (hw : Within [.free] w) (h : Keeps w s t) : Keeps w s u := by
  have := State.freeBytes_keeps hw h (x1 := x1)
  rw [e] at this; exact this

theorem secResult_keeps {x0 : Nat} {x1 : Nat} (hw : Within [.evlog, .block 0, .block 27] w) (h : Keeps w s t) :
    Keeps w s (secResult x0 x1 t) := by
  unfold secResult
  repeat' first
    | with_reducible assumption
    | ((with_reducible refine Within.sub hw ?_); exact rfl)
    | with_reducible refine Keeps.raiseIf ?_ ?_
    | with_reducible refine Keeps.setReg ?_ ?_
    | split
    | intro _
    | dsimp only

theorem transition_keeps {x0 : Nat} (hw : Within [.evlog, .sec, .block 0, .block 27] w) (h : Keeps w s t) :
    Keeps w s (transition x0 t) := by
  unfold transition
  repeat' first
    | with_reducible assumption
    | ((with_reducible refine Within.sub hw ?_); exact rfl)
    | with_reducible refine State.modSec_keeps ?_ ?_
    | with_reducible refine Keeps.raise ?_ ?_
    | split
    | intro _
    | dsimp only

theorem secProvision_keeps (hw : Within [.evlog, .free, .glean, .group, .joa, .latch, .mem, .sec, .stage, .txn, .block 0, .block 8, .block 22, .block 27] w) (h : Keeps w s t) :
    Keeps w s (secProvision t) := by
  unfold secProvision
  repeat' first
    | with_reducible assumption
    | ((with_reducible refine Within.sub hw ?_); exact rfl)
    | with_reducible refine State.modSec_keeps ?_ ?_
    | with_reducible refine secResult_keeps ?_ ?_
    | with_reducible refine wipeSecure_keeps ?_ ?_
    | split
    | intro _
    | dsimp only

theorem secOperate_keeps (hw : Within [.evlog, .free, .glean, .group, .joa, .latch, .mem, .resets, .sec, .stage, .txn, .block 0, .block 8, .block 22, .block 27] w) (h : Keeps w s t) :
    Keeps w s (secOperate t) := by
  unfold secOperate
  repeat' first
    | with_reducible assumption
    | ((with_reducible refine Within.sub hw ?_); exact rfl)
    | with_reducible refine coldSoon_keeps ?_ ?_
    | with_reducible refine secResult_keeps ?_ ?_
    | with_reducible refine transition_keeps ?_ ?_
    | with_reducible refine wipeSecure_keeps ?_ ?_
    | split
    | intro _
    | dsimp only

theorem secService_keeps (hw : Within [.evlog, .free, .glean, .group, .joa, .latch, .mem, .sec, .stage, .txn, .block 0, .block 8, .block 22, .block 27] w) (h : Keeps w s t) :
    Keeps w s (secService t) := by
  unfold secService
  repeat' first
    | with_reducible assumption
    | ((with_reducible refine Within.sub hw ?_); exact rfl)
    | with_reducible refine secResult_keeps ?_ ?_
    | with_reducible refine transition_keeps ?_ ?_
    | with_reducible refine wipeSecure_keeps ?_ ?_
    | split
    | intro _
    | dsimp only

theorem secLeave_keeps {x0 : Nat} (hw : Within [.evlog, .free, .glean, .group, .joa, .latch, .mem, .sec, .stage, .txn, .block 0, .block 8, .block 22, .block 27] w) (h : Keeps w s t) :
    Keeps w s (secLeave x0 t) := by
  unfold secLeave
  repeat' first
    | with_reducible assumption
    | ((with_reducible refine Within.sub hw ?_); exact rfl)
    | with_reducible refine State.modSec_keeps ?_ ?_
    | with_reducible refine secResult_keeps ?_ ?_
    | with_reducible refine wipeSecure_keeps ?_ ?_
    | split
    | intro _
    | dsimp only

theorem secRevoke_keeps {x0 : Bool} {x1 : Nat} (hw : Within [.evlog, .sec, .block 0, .block 27] w) (h : Keeps w s t) :
    Keeps w s (secRevoke x0 x1 t) := by
  unfold secRevoke
  repeat' first
    | with_reducible assumption
    | ((with_reducible refine Within.sub hw ?_); exact rfl)
    | with_reducible refine State.modSec_keeps ?_ ?_
    | with_reducible refine secResult_keeps ?_ ?_
    | with_reducible refine verifyAll_keeps ?_ ?_
    | split
    | intro _
    | dsimp only

theorem secAdvance_keeps (hw : Within [.evlog, .sec, .block 0, .block 27] w) (h : Keeps w s t) :
    Keeps w s (secAdvance t) := by
  unfold secAdvance
  repeat' first
    | with_reducible assumption
    | ((with_reducible refine Within.sub hw ?_); exact rfl)
    | with_reducible refine State.modSec_keeps ?_ ?_
    | with_reducible refine Keeps.raise ?_ ?_
    | with_reducible refine secResult_keeps ?_ ?_
    | with_reducible refine verifyAll_keeps ?_ ?_
    | split
    | intro _
    | dsimp only

theorem secCmdWrite_keeps {x0 : Word} (hw : Within [.evlog, .free, .glean, .group, .joa, .latch, .mem, .resets, .sec, .stage, .txn, .block 0, .block 8, .block 22, .block 27] w) (h : Keeps w s t) :
    Keeps w s (secCmdWrite x0 t) := by
  unfold secCmdWrite
  repeat' first
    | with_reducible assumption
    | ((with_reducible refine Within.sub hw ?_); exact rfl)
    | with_reducible refine secAdvance_keeps ?_ ?_
    | with_reducible refine secLeave_keeps ?_ ?_
    | with_reducible refine secOperate_keeps ?_ ?_
    | with_reducible refine secProvision_keeps ?_ ?_
    | with_reducible refine secResult_keeps ?_ ?_
    | with_reducible refine secRevoke_keeps ?_ ?_
    | with_reducible refine secService_keeps ?_ ?_
    | split
    | intro _
    | dsimp only

theorem transitionEnd_keeps (hw : Within [.evlog, .exec, .free, .gran, .joa, .mem, .resets, .sec, .slots, .block 0, .block 27] w) (h : Keeps w s t) :
    Keeps w s (transitionEnd t) := by
  unfold transitionEnd
  repeat' first
    | with_reducible assumption
    | ((with_reducible refine Within.sub hw ?_); exact rfl)
    | with_reducible refine State.freeBytes_keeps ?_ ?_
    | with_reducible refine State.freeBytes_keeps_eq (by assumption) ?_ ?_
    | with_reducible refine State.modSec_keeps ?_ ?_
    | with_reducible refine coldSoon_keeps ?_ ?_
    | with_reducible refine setImageResult_keeps ?_ ?_
    | with_reducible refine transition_keeps ?_ ?_
    | split
    | intro _
    | dsimp only
    | with_reducible refine Keeps.set_exec_mem_gran_slots_joa ?_ ?_

theorem fwActivate_keeps {x0 : Nat} (hw : Within [.gran, .resets, .sec] w) (h : Keeps w s t) :
    Keeps w s (fwActivate x0 t).2 := by
  unfold fwActivate
  repeat' first
    | with_reducible assumption
    | ((with_reducible refine Within.sub hw ?_); exact rfl)
    | with_reducible refine granWait_keeps ?_ ?_
    | split
    | intro _
    | dsimp only
    | with_reducible refine Keeps.set_resets_sec ?_ ?_

theorem fwActivate_keeps_eq {x0 : Nat} {y} {u : State}  (e : fwActivate x0 t = (y, u)) (hw : Within [.gran, .resets, .sec] w) (h : Keeps w s t) : Keeps w s u := by
  have := fwActivate_keeps hw h (x0 := x0)
  rw [e] at this; exact this

theorem debugUnlock_keeps {x0 : Nat} {x1 : Bool} (hw : Within [.evlog, .sec, .block 0, .block 27] w) (h : Keeps w s t) :
    Keeps w s (debugUnlock x0 x1 t) := by
  unfold debugUnlock
  repeat' first
    | with_reducible assumption
    | ((with_reducible refine Within.sub hw ?_); exact rfl)
    | with_reducible refine State.modSec_keeps ?_ ?_
    | with_reducible refine Keeps.raise ?_ ?_
    | split
    | intro _
    | dsimp only

theorem debugHalt_keeps {x0 : Nat} (hw : Within [.collie, .evlog, .txn, .block 0, .block 4, .block 5] w) (h : Keeps w s t) :
    Keeps w s (debugHalt x0 t) := by
  unfold debugHalt
  repeat' first
    | with_reducible assumption
    | ((with_reducible refine Within.sub hw ?_); exact rfl)
    | with_reducible refine fenceCore_keeps ?_ ?_
    | split
    | intro _
    | dsimp only

theorem tamperDetect_keeps {x0 : Nat} (hw : Within [.evlog, .free, .glean, .group, .joa, .latch, .mem, .sec, .stage, .txn, .block 0, .block 8, .block 22, .block 27] w) (h : Keeps w s t) :
    Keeps w s (tamperDetect x0 t) := by
  unfold tamperDetect
  repeat' first
    | with_reducible assumption
    | ((with_reducible refine Within.sub hw ?_); exact rfl)
    | with_reducible refine Keeps.raise ?_ ?_
    | with_reducible refine Keeps.setReg ?_ ?_
    | with_reducible refine State.modSec_keeps ?_ ?_
    | with_reducible refine wipeSecure_keeps ?_ ?_
    | split
    | intro _
    | dsimp only

theorem tamperWipeDone_keeps (hw : Within [.resets, .sec] w) (h : Keeps w s t) :
    Keeps w s (tamperWipeDone t) := by
  unfold tamperWipeDone
  repeat' first
    | with_reducible assumption
    | ((with_reducible refine Within.sub hw ?_); exact rfl)
    | with_reducible refine State.modSec_keeps ?_ ?_
    | with_reducible refine coldSoon_keeps ?_ ?_
    | split
    | intro _
    | dsimp only

end Sys2Proof.Machine
end

