-- ==== Sys2Proof/Laws/Keeps/Banks.lean ====
section
/-! SUPPORT. What the operations of Sys2Proof/Machine/Banks.lean leave unchanged. -/

set_option linter.all false
set_option Elab.async false

namespace Sys2Proof.Machine

variable {w : List Piece} {s t : State}

theorem setCodeWord_keeps {x0 : Module} {x1 : Nat} {x2 : Quad} (hw : Within [.collie] w) (h : Keeps w s t) :
    Keeps w s (setCodeWord x0 x1 x2 t) := by
  unfold setCodeWord
  repeat' first
    | with_reducible assumption
    | ((with_reducible refine Within.sub hw ?_); exact rfl)
    | split
    | intro _
    | dsimp only
    | with_reducible refine Keeps.set_collie ?_ ?_

theorem setPlotWord_keeps {x0 : Nat} {x1 : Quad} (hw : Within [.collie, .mem] w) (h : Keeps w s t) :
    Keeps w s (setPlotWord x0 x1 t) := by
  unfold setPlotWord
  repeat' first
    | with_reducible assumption
    | ((with_reducible refine Within.sub hw ?_); exact rfl)
    | with_reducible refine State.memWrite_keeps ?_ ?_
    | with_reducible refine State.setGlobal_keeps ?_ ?_
    | with_reducible refine setCodeWord_keeps ?_ ?_
    | split
    | intro _
    | dsimp only

theorem setBankWord_keeps {x0 : Nat} {x1 : Quad} (hw : Within [.collie, .mem] w) (h : Keeps w s t) :
    Keeps w s (setBankWord x0 x1 t) := by
  unfold setBankWord
  repeat' first
    | with_reducible assumption
    | ((with_reducible refine Within.sub hw ?_); exact rfl)
    | with_reducible refine State.memWrite_keeps ?_ ?_
    | with_reducible refine State.setRetained_keeps ?_ ?_
    | with_reducible refine setPlotWord_keeps ?_ ?_
    | split
    | intro _
    | dsimp only

theorem bankStore_keeps {x0 : Nat} {x1 : List Byte} (hw : Within [.collie, .gran, .mem] w) (h : Keeps w s t) :
    Keeps w s (bankStore x0 x1 t) := by
  unfold bankStore
  repeat' first
    | with_reducible assumption
    | ((with_reducible refine Within.sub hw ?_); exact rfl)
    | with_reducible refine setBankWord_keeps ?_ ?_
    | split
    | intro _
    | dsimp only
    | with_reducible refine Keeps.set_gran ?_ ?_

theorem bankDo_keeps {x0 : BankOp} {x1 : Nat} {x2 : List Byte} (hw : Within [.collie, .gran, .mem] w) (h : Keeps w s t) :
    Keeps w s (bankDo x0 x1 x2 t) := by
  unfold bankDo
  repeat' first
    | with_reducible assumption
    | ((with_reducible refine Within.sub hw ?_); exact rfl)
    | with_reducible refine bankStore_keeps ?_ ?_
    | with_reducible refine setBankWord_keeps ?_ ?_
    | split
    | intro _
    | dsimp only

theorem bankIssue_keeps {x0 : BankOp} {x1 : Nat} {x2 : Nat} {x3 : List Byte} (hw : Within [.collie, .evlog, .gran, .mem, .block 0, .block 24] w) (h : Keeps w s t) :
    Keeps w s (bankIssue x0 x1 x2 x3 t).2 := by
  unfold bankIssue
  repeat' first
    | with_reducible assumption
    | ((with_reducible refine Within.sub hw ?_); exact rfl)
    | with_reducible refine bankDo_keeps ?_ ?_
    | with_reducible refine violation_keeps ?_ ?_
    | (simp only [R.MEM_k_OWNER_block]; (with_reducible refine Within.sub hw ?_); exact rfl)
    | split
    | intro _
    | dsimp only
    | with_reducible refine Keeps.set_gran ?_ ?_

theorem bankIssue_keeps_eq {x0 : BankOp} {x1 : Nat} {x2 : Nat} {x3 : List Byte} {y0} {u : State} (e : bankIssue x0 x1 x2 x3 t = (y0, u)) (hw : Within [.collie, .evlog, .gran, .mem, .block 0, .block 24] w) (h : Keeps w s t) : Keeps w s u := by
  have := bankIssue_keeps hw h (x0 := x0) (x1 := x1) (x2 := x2) (x3 := x3)
  rw [e] at this; exact this

theorem bankWrite_keeps {x0 : Nat} {x1 : Nat} {x2 : List Byte} (hw : Within [.collie, .evlog, .gran, .mem, .block 0, .block 24] w) (h : Keeps w s t) :
    Keeps w s (bankWrite x0 x1 x2 t).2 := by
  unfold bankWrite
  repeat' first
    | with_reducible assumption
    | ((with_reducible refine Within.sub hw ?_); exact rfl)
    | with_reducible refine bankIssue_keeps ?_ ?_
    | with_reducible refine bankIssue_keeps_eq (by assumption) ?_ ?_
    | split
    | intro _
    | dsimp only

theorem bankWrite_keeps_eq {x0 : Nat} {x1 : Nat} {x2 : List Byte} {y0} {u : State} (e : bankWrite x0 x1 x2 t = (y0, u)) (hw : Within [.collie, .evlog, .gran, .mem, .block 0, .block 24] w) (h : Keeps w s t) : Keeps w s u := by
  have := bankWrite_keeps hw h (x0 := x0) (x1 := x1) (x2 := x2)
  rw [e] at this; exact this

theorem bankRead_keeps {x0 : Nat} {x1 : Nat} {x2 : Nat} (hw : Within [.evlog, .gran, .block 0, .block 24] w) (h : Keeps w s t) :
    Keeps w s (bankRead x0 x1 x2 t).2 := by
  unfold bankRead
  repeat' first
    | with_reducible assumption
    | ((with_reducible refine Within.sub hw ?_); exact rfl)
    | with_reducible refine uncorrectable_keeps ?_ ?_
    | with_reducible refine violation_keeps ?_ ?_
    | split
    | intro _
    | dsimp only

theorem bankRead_keeps_eq {x0 : Nat} {x1 : Nat} {x2 : Nat} {y} {u : State}  (e : bankRead x0 x1 x2 t = (y, u)) (hw : Within [.evlog, .gran, .block 0, .block 24] w) (h : Keeps w s t) : Keeps w s u := by
  have := bankRead_keeps hw h (x0 := x0) (x1 := x1) (x2 := x2)
  rw [e] at this; exact this

theorem collide_keeps {x0 : Nat} {x1 : Bool} {x : Bool × State} (hw : Within [.evlog, .block 0, .block 24] w) (h : Keeps w s x.2) :
    Keeps w s (collide x0 x1 x) := by
  unfold collide
  repeat' first
    | with_reducible assumption
    | ((with_reducible refine Within.sub hw ?_); exact rfl)
    | with_reducible refine Keeps.incSat ?_ ?_
    | with_reducible refine Keeps.raise ?_ ?_
    | split
    | intro _
    | dsimp only

theorem aliasWrite_keeps {x0 : Bool} {x1 : Nat} {x2 : Nat} {x3 : Nat} {x4 : Quad} (hw : Within [.collie, .evlog, .gran, .mem, .block 0, .block 24] w) (h : Keeps w s t) :
    Keeps w s (aliasWrite x0 x1 x2 x3 x4 t).2 := by
  unfold aliasWrite
  repeat' first
    | with_reducible assumption
    | ((with_reducible refine Within.sub hw ?_); exact rfl)
    | with_reducible refine bankIssue_keeps ?_ ?_
    | with_reducible refine bankIssue_keeps_eq (by assumption) ?_ ?_
    | with_reducible refine violation_keeps ?_ ?_
    | split
    | intro _
    | dsimp only

theorem aliasWrite_keeps_eq {x0 : Bool} {x1 : Nat} {x2 : Nat} {x3 : Nat} {x4 : Quad} {y0} {u : State} (e : aliasWrite x0 x1 x2 x3 x4 t = (y0, u)) (hw : Within [.collie, .evlog, .gran, .mem, .block 0, .block 24] w) (h : Keeps w s t) : Keeps w s u := by
  have := aliasWrite_keeps hw h (x0 := x0) (x1 := x1) (x2 := x2) (x3 := x3) (x4 := x4)
  rw [e] at this; exact this

theorem drainEnd_keeps {x0 : Nat} (hw : Within [.collie, .gran, .mem, .block 24] w) (h : Keeps w s t) :
    Keeps w s (drainEnd x0 t) := by
  unfold drainEnd
  repeat' first
    | with_reducible assumption
    | ((with_reducible refine Within.sub hw ?_); exact rfl)
    | with_reducible refine Keeps.forAll ?_ ?_
    | with_reducible refine Keeps.put ?_ ?_
    | with_reducible refine bankDo_keeps ?_ ?_
    | (simp only [R.MEM_k_OWNER_block]; (with_reducible refine Within.sub hw ?_); exact rfl)
    | split
    | intro _
    | dsimp only
    | with_reducible refine Keeps.set_gran ?_ ?_

end Sys2Proof.Machine
end

