-- ==== Sys2Proof/Laws/Keeps/Establish.lean ====
section
/-! SUPPORT. What the operations of Sys2Proof/Machine/Establish.lean leave unchanged. -/

set_option linter.all false
set_option Elab.async false

namespace Sys2Proof.Machine

variable {w : List Piece} {s t : State}

theorem clearAnswer_keeps {x0 : HostAddr} {x1 : Nat} {x2 : List Byte} (hw : Within [.joa, .block 20] w) (h : Keeps w s t) :
    Keeps w s (clearAnswer x0 x1 x2 t) := by
  unfold clearAnswer
  repeat' first
    | with_reducible assumption
    | ((with_reducible refine Within.sub hw ?_); exact rfl)
    | with_reducible refine Keeps.incSat ?_ ?_
    | (simp only [R.UPLINK_p_TX_CNT_block]; (with_reducible refine Within.sub hw ?_); exact rfl)
    | split
    | intro _
    | dsimp only
    | with_reducible refine Keeps.set_joa ?_ ?_

theorem joaHeard_keeps {x0 : HostAddr} {x1 : Nat} {x2 : State → State} (hx2 : ∀ u, Keeps w s u → Keeps w s (x2 u)) (hw : Within [.block 20] w) (h : Keeps w s t) :
    Keeps w s (joaHeard x0 x1 x2 t) := by
  unfold joaHeard
  repeat' first
    | with_reducible assumption
    | ((with_reducible refine Within.sub hw ?_); exact rfl)
    | with_reducible refine Keeps.incSat ?_ ?_
    | with_reducible refine hx2 _ ?_
    | (simp only [R.UPLINK_p_DISCARD_CNT_block, R.UPLINK_p_RX_CNT_block]; (with_reducible refine Within.sub hw ?_); exact rfl)
    | split

theorem helloSign_keeps {x0 : Bool} (hw : Within [.evlog, .free, .gran, .sec, .block 0, .block 27] w) (h : Keeps w s t) :
    Keeps w s (helloSign x0 t).2 := by
  unfold helloSign
  repeat' first
    | with_reducible assumption
    | ((with_reducible refine Within.sub hw ?_); exact rfl)
    | with_reducible refine State.freeBytes_keeps ?_ ?_
    | with_reducible refine State.freeBytes_keeps_eq (by assumption) ?_ ?_
    | with_reducible refine lmsUse_keeps ?_ ?_
    | with_reducible refine lmsUse_keeps_eq (by assumption) ?_ ?_
    | split
    | intro _
    | dsimp only

theorem helloSign_keeps_eq {x0 : Bool} {y} {u : State}  (e : helloSign x0 t = (y, u)) (hw : Within [.evlog, .free, .gran, .sec, .block 0, .block 27] w) (h : Keeps w s t) : Keeps w s u := by
  have := helloSign_keeps hw h (x0 := x0)
  rw [e] at this; exact this

theorem helloHeard_keeps {x0 : HostAddr} {x1 : Nat} {x2 : Nat} {x3 : Nat} {x4 : Nat} {x5 : List Byte} {x6 : List Byte} {x7 : Nat} (hw : Within [.evlog, .free, .gran, .joa, .sec, .block 0, .block 20, .block 22, .block 27] w) (h : Keeps w s t) :
    Keeps w s (helloHeard x0 x1 x2 x3 x4 x5 x6 x7 t) := by
  unfold helloHeard
  repeat' first
    | with_reducible assumption
    | ((with_reducible refine Within.sub hw ?_); exact rfl)
    | with_reducible refine Keeps.setReg ?_ ?_
    | with_reducible refine State.freeBytes_keeps ?_ ?_
    | with_reducible refine State.freeBytes_keeps_eq (by assumption) ?_ ?_
    | with_reducible refine State.setSession_keeps ?_ ?_
    | with_reducible refine clearAnswer_keeps ?_ ?_
    | with_reducible refine helloSign_keeps ?_ ?_
    | with_reducible refine helloSign_keeps_eq (by assumption) ?_ ?_
    | (simp only [R.JOA_s_INFO_block]; (with_reducible refine Within.sub hw ?_); exact rfl)
    | split
    | intro _
    | dsimp only
    | with_reducible refine Keeps.set_free ?_ ?_

theorem hello_keeps {x0 : HostAddr} {x1 : Nat} {x2 : Nat} {x3 : Nat} {x4 : Nat} {x5 : List Byte} {x6 : List Byte} {x7 : Nat} (hw : Within [.evlog, .free, .gran, .joa, .sec, .block 0, .block 20, .block 22, .block 27] w) (h : Keeps w s t) :
    Keeps w s (hello x0 x1 x2 x3 x4 x5 x6 x7 t) := by
  unfold hello
  repeat' first
    | with_reducible assumption
    | ((with_reducible refine Within.sub hw ?_); exact rfl)
    | with_reducible refine helloHeard_keeps ?_ ?_
    | with_reducible refine joaHeard_keeps ?_ ?_ ?_
    | split
    | intro _
    | dsimp only

theorem proofFailed_keeps {x0 : HostAddr} (hw : Within [.joa] w) (h : Keeps w s t) :
    Keeps w s (proofFailed x0 t) := by
  unfold proofFailed
  repeat' first
    | with_reducible assumption
    | ((with_reducible refine Within.sub hw ?_); exact rfl)
    | split
    | intro _
    | dsimp only
    | with_reducible refine Keeps.set_joa ?_ ?_

theorem proof_keeps {x0 : Nat} {x1 : Nat} {x2 : Bool} (hw : Within [.evlog, .free, .glean, .group, .joa, .latch, .stage, .txn, .block 0, .block 8, .block 20, .block 22] w) (h : Keeps w s t) :
    Keeps w s (proof x0 x1 x2 t) := by
  unfold proof
  repeat' first
    | with_reducible assumption
    | ((with_reducible refine Within.sub hw ?_); exact rfl)
    | with_reducible refine Keeps.incSat ?_ ?_
    | with_reducible refine Keeps.raise ?_ ?_
    | with_reducible refine State.freeBytes_keeps ?_ ?_
    | with_reducible refine State.freeBytes_keeps_eq (by assumption) ?_ ?_
    | with_reducible refine State.setSession_keeps ?_ ?_
    | with_reducible refine clearAnswer_keeps ?_ ?_
    | with_reducible refine endSession_keeps ?_ ?_
    | with_reducible refine proofFailed_keeps ?_ ?_
    | (simp only [R.UPLINK_p_RX_CNT_block]; (with_reducible refine Within.sub hw ?_); exact rfl)
    | split
    | intro _
    | dsimp only

theorem proofTimeout_keeps {x0 : Nat} (hw : Within [.evlog, .free, .glean, .group, .joa, .latch, .stage, .txn, .block 0, .block 8, .block 22] w) (h : Keeps w s t) :
    Keeps w s (proofTimeout x0 t) := by
  unfold proofTimeout
  repeat' first
    | with_reducible assumption
    | ((with_reducible refine Within.sub hw ?_); exact rfl)
    | with_reducible refine endSession_keeps ?_ ?_
    | split
    | intro _
    | dsimp only

theorem identityKeys_keeps (hw : Within [.free] w) (h : Keeps w s t) :
    Keeps w s (identityKeys t).2 := by
  unfold identityKeys
  repeat' first
    | with_reducible assumption
    | ((with_reducible refine Within.sub hw ?_); exact rfl)
    | with_reducible refine State.freeBytes_keeps ?_ ?_
    | with_reducible refine State.freeBytes_keeps_eq (by assumption) ?_ ?_
    | split
    | intro _
    | dsimp only

theorem identityKeys_keeps_eq  {y} {u : State}  (e : identityKeys t = (y, u)) (hw : Within [.free] w) (h : Keeps w s t) : Keeps w s u := by
  have := identityKeys_keeps hw h 
  rw [e] at this; exact this

theorem identityHeard_keeps {x0 : HostAddr} {x1 : Nat} {x2 : Nat} (hw : Within [.free, .joa, .block 20] w) (h : Keeps w s t) :
    Keeps w s (identityHeard x0 x1 x2 t) := by
  unfold identityHeard
  repeat' first
    | with_reducible assumption
    | ((with_reducible refine Within.sub hw ?_); exact rfl)
    | with_reducible refine clearAnswer_keeps ?_ ?_
    | with_reducible refine identityKeys_keeps ?_ ?_
    | with_reducible refine identityKeys_keeps_eq (by assumption) ?_ ?_
    | split
    | intro _
    | dsimp only

theorem identity_keeps {x0 : HostAddr} {x1 : Nat} {x2 : Nat} (hw : Within [.free, .joa, .block 20] w) (h : Keeps w s t) :
    Keeps w s (identity x0 x1 x2 t) := by
  unfold identity
  repeat' first
    | with_reducible assumption
    | ((with_reducible refine Within.sub hw ?_); exact rfl)
    | with_reducible refine identityHeard_keeps ?_ ?_
    | with_reducible refine joaHeard_keeps ?_ ?_ ?_
    | split
    | intro _
    | dsimp only

theorem sigPart_keeps {x0 : Nat} {x1 : Nat} {x2 : Nat} (hw : Within [.joa, .block 20] w) (h : Keeps w s t) :
    Keeps w s (sigPart x0 x1 x2 t) := by
  unfold sigPart
  repeat' first
    | with_reducible assumption
    | ((with_reducible refine Within.sub hw ?_); exact rfl)
    | with_reducible refine Keeps.incSat ?_ ?_
    | with_reducible refine clearAnswer_keeps ?_ ?_
    | (simp only [R.UPLINK_p_RX_CNT_block]; (with_reducible refine Within.sub hw ?_); exact rfl)
    | split
    | intro _
    | dsimp only

end Sys2Proof.Machine
end

