-- ==== Sys2Proof/Laws/Keeps/Clk.lean ====
section
/-! SUPPORT. What the operations of Sys2Proof/Machine/Clk.lean leave unchanged. -/

set_option linter.all false
set_option Elab.async false

namespace Sys2Proof.Machine

variable {w : List Piece} {s t : State}

theorem State.modResets_keeps {x1 : Resets → Resets} (hw : Within [.resets] w) (h : Keeps w s t) :
    Keeps w s (State.modResets t x1) := by
  unfold State.modResets
  repeat' first
    | with_reducible assumption
    | ((with_reducible refine Within.sub hw ?_); exact rfl)
    | split
    | intro _
    | dsimp only
    | with_reducible refine Keeps.set_resets ?_ ?_

theorem clkRefused_keeps (hw : Within [.evlog, .block 0, .block 1] w) (h : Keeps w s t) :
    Keeps w s (clkRefused t) := by
  unfold clkRefused
  repeat' first
    | with_reducible assumption
    | ((with_reducible refine Within.sub hw ?_); exact rfl)
    | with_reducible refine Keeps.raise ?_ ?_
    | split
    | intro _
    | dsimp only

theorem warmSoon_keeps {x0 : Nat} {x1 : Quad} {x2 : Option Nat} (hw : Within [.resets] w) (h : Keeps w s t) :
    Keeps w s (warmSoon x0 x1 x2 t) := by
  unfold warmSoon
  repeat' first
    | with_reducible assumption
    | ((with_reducible refine Within.sub hw ?_); exact rfl)
    | with_reducible refine State.modResets_keeps ?_ ?_
    | split
    | intro _
    | dsimp only

theorem sysResetWrite_keeps {x0 : Word} (hw : Within [.evlog, .resets, .block 0, .block 1] w) (h : Keeps w s t) :
    Keeps w s (sysResetWrite x0 t) := by
  unfold sysResetWrite
  repeat' first
    | with_reducible assumption
    | ((with_reducible refine Within.sub hw ?_); exact rfl)
    | with_reducible refine State.modResets_keeps ?_ ?_
    | with_reducible refine clkRefused_keeps ?_ ?_
    | with_reducible refine warmSoon_keeps ?_ ?_
    | split
    | intro _
    | dsimp only

theorem bootRecord_keeps (hw : Within [.gran] w) (h : Keeps w s t) :
    Keeps w s (bootRecord t) := by
  unfold bootRecord
  repeat' first
    | with_reducible assumption
    | ((with_reducible refine Within.sub hw ?_); exact rfl)
    | with_reducible refine granWait_keeps ?_ ?_
    | split
    | intro _
    | dsimp only

theorem fwConfirm_keeps (hw : Within [.evlog, .gran, .resets, .block 0, .block 1] w) (h : Keeps w s t) :
    Keeps w s (fwConfirm t) := by
  unfold fwConfirm
  repeat' first
    | with_reducible assumption
    | ((with_reducible refine Within.sub hw ?_); exact rfl)
    | with_reducible refine State.modResets_keeps ?_ ?_
    | with_reducible refine Keeps.put ?_ ?_
    | with_reducible refine Keeps.raise ?_ ?_
    | with_reducible refine bootRecord_keeps ?_ ?_
    | split
    | intro _
    | dsimp only

theorem fwTrialExpiry_keeps (hw : Within [.raw, .resets] w) (h : Keeps w s t) :
    Keeps w s (fwTrialExpiry t) := by
  unfold fwTrialExpiry
  repeat' first
    | with_reducible assumption
    | ((with_reducible refine Within.sub hw ?_); exact rfl)
    | with_reducible refine Keeps.advanceTo ?_ ?_
    | with_reducible refine State.modResets_keeps ?_ ?_
    | with_reducible refine warmSoon_keeps ?_ ?_
    | split
    | intro _
    | dsimp only

theorem wdogKick_keeps {x0 : Word} (hw : Within [.resets] w) (h : Keeps w s t) :
    Keeps w s (wdogKick x0 t) := by
  unfold wdogKick
  repeat' first
    | with_reducible assumption
    | ((with_reducible refine Within.sub hw ?_); exact rfl)
    | with_reducible refine State.modResets_keeps ?_ ?_
    | split
    | intro _
    | dsimp only

theorem wdogExpiry_keeps (hw : Within [.evlog, .raw, .resets, .block 0, .block 1] w) (h : Keeps w s t) :
    Keeps w s (wdogExpiry t) := by
  unfold wdogExpiry
  repeat' first
    | with_reducible assumption
    | ((with_reducible refine Within.sub hw ?_); exact rfl)
    | with_reducible refine Keeps.advanceTo ?_ ?_
    | with_reducible refine Keeps.incSat ?_ ?_
    | with_reducible refine State.modResets_keeps ?_ ?_
    | with_reducible refine Keeps.raise ?_ ?_
    | with_reducible refine warmSoon_keeps ?_ ?_
    | split
    | intro _
    | dsimp only

theorem svcPress_keeps (hw : Within [.resets, .block 1] w) (h : Keeps w s t) :
    Keeps w s (svcPress t) := by
  unfold svcPress
  repeat' first
    | with_reducible assumption
    | ((with_reducible refine Within.sub hw ?_); exact rfl)
    | with_reducible refine Keeps.incSat ?_ ?_
    | with_reducible refine Keeps.put ?_ ?_
    | with_reducible refine warmSoon_keeps ?_ ?_
    | split
    | intro _
    | dsimp only

theorem svcRelease_keeps (hw : Within [.block 1] w) (h : Keeps w s t) :
    Keeps w s (svcRelease t) := by
  unfold svcRelease
  repeat' first
    | with_reducible assumption
    | ((with_reducible refine Within.sub hw ?_); exact rfl)
    | with_reducible refine Keeps.put ?_ ?_
    | split
    | intro _
    | dsimp only

theorem svcStuck_keeps (hw : Within [.evlog, .block 0, .block 1] w) (h : Keeps w s t) :
    Keeps w s (svcStuck t) := by
  unfold svcStuck
  repeat' first
    | with_reducible assumption
    | ((with_reducible refine Within.sub hw ?_); exact rfl)
    | with_reducible refine Keeps.put ?_ ?_
    | with_reducible refine Keeps.raise ?_ ?_
    | split
    | intro _
    | dsimp only

theorem shutPfail_keeps (hw : Within [.resets, .block 1] w) (h : Keeps w s t) :
    Keeps w s (shutPfail t) := by
  unfold shutPfail
  repeat' first
    | with_reducible assumption
    | ((with_reducible refine Within.sub hw ?_); exact rfl)
    | with_reducible refine State.modResets_keeps ?_ ?_
    | with_reducible refine Keeps.put ?_ ?_
    | split
    | intro _
    | dsimp only

theorem pfailAssert_keeps (hw : Within [.evlog, .exec, .glean, .gran, .mem, .resets, .block 0, .block 1, .block 6, .block 13, .block 26] w) (h : Keeps w s t) :
    Keeps w s (pfailAssert t) := by
  unfold pfailAssert
  repeat' first
    | with_reducible assumption
    | ((with_reducible refine Within.sub hw ?_); exact rfl)
    | with_reducible refine Keeps.incSat ?_ ?_
    | with_reducible refine Keeps.put ?_ ?_
    | with_reducible refine Keeps.raise ?_ ?_
    | with_reducible refine ckptBusy_keeps ?_ ?_
    | with_reducible refine closeBlock_keeps ?_ ?_
    | with_reducible refine shutPfail_keeps ?_ ?_
    | split
    | intro _
    | dsimp only
    | with_reducible refine Keeps.set_exec_gran_resets ?_ ?_

theorem saveBlock_keeps {x0 : Block} (hw : Within [.exec, .gran, .mem, .block 26] w) (h : Keeps w s t) :
    Keeps w s (saveBlock x0 t) := by
  unfold saveBlock
  repeat' first
    | with_reducible assumption
    | ((with_reducible refine Within.sub hw ?_); exact rfl)
    | with_reducible refine ringPut_keeps ?_ ?_
    | split
    | intro _
    | dsimp only
    | with_reducible refine Keeps.set_gran ?_ ?_

theorem pfWrite_keeps {x0 : PfWork} (hw : Within [.exec, .gran, .mem, .block 6, .block 26] w) (h : Keeps w s t) :
    Keeps w s (pfWrite x0 t) := by
  unfold pfWrite
  repeat' first
    | with_reducible assumption
    | ((with_reducible refine Within.sub hw ?_); exact rfl)
    | with_reducible refine cutCommit_keeps ?_ ?_
    | with_reducible refine regionDone_keeps ?_ ?_
    | with_reducible refine saveBlock_keeps ?_ ?_
    | split
    | intro _
    | dsimp only
    | with_reducible refine Keeps.set_exec ?_ ?_

theorem pfWrites_keeps {x0 : List PfWork} {x1 : Nat} {x2 : Nat} (hw : Within [.exec, .gran, .mem, .block 6, .block 26] w) (h : Keeps w s t) :
    Keeps w s (pfWrites x0 x1 x2 t).2.2 := by
  induction x0 generalizing t x1 x2 with
  | nil => exact h
  | cons b l ih =>
  unfold pfWrites
  repeat' first
    | with_reducible refine ih ?_
    | with_reducible assumption
    | ((with_reducible refine Within.sub hw ?_); exact rfl)
    | with_reducible refine pfWrite_keeps ?_ ?_
    | split
    | intro _
    | dsimp only

theorem pfWrites_keeps_eq {x0 : List PfWork} {x1 : Nat} {x2 : Nat} {y} {u : State}  (e : pfWrites x0 x1 x2 t = (y, z, u)) (hw : Within [.exec, .gran, .mem, .block 6, .block 26] w) (h : Keeps w s t) : Keeps w s u := by
  have := pfWrites_keeps hw h (x0 := x0) (x1 := x1) (x2 := x2)
  rw [e] at this; exact this

theorem powerFailCut_keeps {x0 : Nat} (hw : Within [.collie, .exec, .gran, .mem, .raw, .resets, .txn, .block 4, .block 5, .block 6, .block 26] w) (h : Keeps w s t) :
    Keeps w s (powerFailCut x0 t) := by
  unfold powerFailCut
  split
  · exact h
  split
  · exact h
  extract_lets +lift busy s1 c0 c owed work gr
  have h1 : Keeps w s s1 := by
    refine persistAll_keeps (Within.sub hw rfl) ?_
    split
    · exact deferredWrites_keeps (Within.sub hw rfl) (flowsAdvance_keeps (Within.sub hw rfl) (haltRuns_keeps (Within.sub hw rfl)
        (Keeps.advanceTo (Within.sub hw rfl) h)))
    · exact h
  clear_value work gr s1
  split
  rename_i n short s2 e
  have h2 : Keeps w s s2 := pfWrites_keeps_eq e (Within.sub hw rfl) (Keeps.set_gran (Within.sub hw rfl) h1)
  clear e
  extract_lets +lift s3 s4 ex
  have h4 : Keeps w s s4 := State.modResets_keeps (Within.sub hw rfl) (Keeps.put (Within.sub hw rfl)
    (creditTake_keeps (Within.sub hw rfl) (Keeps.setReg (Within.sub hw rfl) h2)))
  clear_value ex s4
  split
  · exact Keeps.put (Within.sub hw rfl) (Keeps.set_exec (Within.sub hw rfl) h4)
  · exact h4

theorem pfailRelease_keeps (hw : Within [.evlog, .exec, .block 0, .block 1] w) (h : Keeps w s t) :
    Keeps w s (pfailRelease t) := by
  unfold pfailRelease
  repeat' first
    | with_reducible assumption
    | ((with_reducible refine Within.sub hw ?_); exact rfl)
    | with_reducible refine Keeps.put ?_ ?_
    | with_reducible refine Keeps.raise ?_ ?_
    | split
    | intro _
    | dsimp only
    | with_reducible refine Keeps.set_exec ?_ ?_

theorem shutEnter_keeps {x0 : Nat} (hw : Within [.resets, .block 1] w) (h : Keeps w s t) :
    Keeps w s (shutEnter x0 t) := by
  unfold shutEnter
  repeat' first
    | with_reducible assumption
    | ((with_reducible refine Within.sub hw ?_); exact rfl)
    | with_reducible refine Keeps.put ?_ ?_
    | with_reducible refine State.modResets_keeps ?_ ?_
    | split
    | intro _
    | dsimp only

theorem shutdownCmd_keeps (hw : Within [.evlog, .newImage, .resets, .block 0, .block 1, .block 6] w) (h : Keeps w s t) :
    Keeps w s (shutdownCmd t) := by
  unfold shutdownCmd
  repeat' first
    | with_reducible assumption
    | ((with_reducible refine Within.sub hw ?_); exact rfl)
    | with_reducible refine State.modResets_keeps ?_ ?_
    | with_reducible refine Keeps.setReg ?_ ?_
    | with_reducible refine clkRefused_keeps ?_ ?_
    | with_reducible refine olcReset_keeps ?_ ?_
    | with_reducible refine shutEnter_keeps ?_ ?_
    | split
    | intro _
    | dsimp only

theorem shutCancel_keeps (hw : Within [.collie, .evlog, .exec, .free, .head, .img, .motion, .resets, .txn, .block 0, .block 1, .block 4, .block 5, .block 6, .block 7, .block 8, .block 11, .block 14, .block 23] w) (h : Keeps w s t) :
    Keeps w s (shutCancel t) := by
  unfold shutCancel
  repeat' first
    | with_reducible assumption
    | ((with_reducible refine Within.sub hw ?_); exact rfl)
    | with_reducible refine Keeps.put ?_ ?_
    | with_reducible refine clkRefused_keeps ?_ ?_
    | with_reducible refine controllerStop_keeps ?_ ?_
    | with_reducible refine shutEnter_keeps ?_ ?_
    | split
    | intro _
    | dsimp only

theorem flushEnd_keeps (hw : Within [.exec, .gran, .mem, .raw, .block 1, .block 13, .block 26] w) (h : Keeps w s t) :
    Keeps w s (flushEnd t) := by
  unfold flushEnd
  repeat' first
    | with_reducible assumption
    | ((with_reducible refine Within.sub hw ?_); exact rfl)
    | with_reducible refine Keeps.advanceTo ?_ ?_
    | with_reducible refine Keeps.forAll ?_ ?_
    | with_reducible refine Keeps.put ?_ ?_
    | with_reducible refine saveBlock_keeps ?_ ?_
    | split
    | intro _
    | dsimp only

theorem finalCut_keeps (hw : Within [.exec, .gran, .mem, .block 6, .block 26] w) (h : Keeps w s t) :
    Keeps w s (finalCut t) := by
  unfold finalCut
  repeat' first
    | with_reducible assumption
    | ((with_reducible refine Within.sub hw ?_); exact rfl)
    | with_reducible refine Keeps.forAll ?_ ?_
    | with_reducible refine ckptBusy_keeps ?_ ?_
    | with_reducible refine creditTake_keeps ?_ ?_
    | with_reducible refine pfWrite_keeps ?_ ?_
    | split
    | intro _
    | dsimp only
    | with_reducible refine Keeps.set_exec_gran ?_ ?_

theorem shutStepDone_keeps (hw : Within [.evlog, .exec, .free, .glean, .gran, .group, .joa, .latch, .mem, .raw, .resets, .stage, .txn, .block 0, .block 1, .block 6, .block 8, .block 13, .block 22, .block 25, .block 26] w) (h : Keeps w s t) :
    Keeps w s (shutStepDone t) := by
  unfold shutStepDone
  repeat' first
    | with_reducible assumption
    | ((with_reducible refine Within.sub hw ?_); exact rfl)
    | with_reducible refine Keeps.forAll ?_ ?_
    | with_reducible refine Keeps.put ?_ ?_
    | with_reducible refine Keeps.raise ?_ ?_
    | with_reducible refine Keeps.setReg ?_ ?_
    | with_reducible refine closeBlock_keeps ?_ ?_
    | with_reducible refine endSessions_keeps ?_ ?_
    | with_reducible refine finalCut_keeps ?_ ?_
    | with_reducible refine flushEnd_keeps ?_ ?_
    | with_reducible refine shutEnter_keeps ?_ ?_
    | split
    | intro _
    | dsimp only
    | with_reducible refine Keeps.set_exec ?_ ?_

theorem cfgRestart_keeps {x0 : Nat} (hw : Within [.evlog, .resets, .block 0, .block 1] w) (h : Keeps w s t) :
    Keeps w s (cfgRestart x0 t) := by
  unfold cfgRestart
  repeat' first
    | with_reducible assumption
    | ((with_reducible refine Within.sub hw ?_); exact rfl)
    | with_reducible refine clkRefused_keeps ?_ ?_
    | with_reducible refine warmSoon_keeps ?_ ?_
    | split
    | intro _
    | dsimp only

theorem clkCmdWrite_keeps {x0 : Word} (hw : Within [.collie, .evlog, .exec, .free, .gran, .head, .img, .motion, .newImage, .resets, .txn, .block 0, .block 1, .block 4, .block 5, .block 6, .block 7, .block 8, .block 11, .block 14, .block 23] w) (h : Keeps w s t) :
    Keeps w s (clkCmdWrite x0 t) := by
  unfold clkCmdWrite
  repeat' first
    | with_reducible assumption
    | ((with_reducible refine Within.sub hw ?_); exact rfl)
    | with_reducible refine cfgRestart_keeps ?_ ?_
    | with_reducible refine clkRefused_keeps ?_ ?_
    | with_reducible refine fwConfirm_keeps ?_ ?_
    | with_reducible refine shutCancel_keeps ?_ ?_
    | with_reducible refine shutdownCmd_keeps ?_ ?_
    | split
    | intro _
    | dsimp only

end Sys2Proof.Machine
end

