-- ==== Sys2Proof/Laws/Keeps/RegRead.lean ====
section
/-! SUPPORT. What the operations of Sys2Proof/Machine/RegRead.lean leave unchanged. -/

set_option linter.all false
set_option Elab.async false

namespace Sys2Proof.Machine

variable {w : List Piece} {s t : State}

theorem unmapped_keeps {x0 : Nat} (hw : Within [.evlog, .block 0] w) (h : Keeps w s t) :
    Keeps w s (unmapped x0 t) := by
  unfold unmapped
  repeat' first
    | with_reducible assumption
    | ((with_reducible refine Within.sub hw ?_); exact rfl)
    | with_reducible refine Keeps.incSat ?_ ?_
    | with_reducible refine Keeps.raise ?_ ?_
    | with_reducible refine Keeps.setReg64 ?_ ?_
    | split
    | intro _
    | dsimp only

theorem loRead_keeps {x0 : Master} {x1 : RegDesc} {x2 : Nat} (hw : Within [.latch, .readData] w) (h : Keeps w s t) :
    Keeps w s (loRead x0 x1 x2 t) := by
  unfold loRead
  repeat' first
    | with_reducible assumption
    | ((with_reducible refine Within.sub hw ?_); exact rfl)
    | split
    | intro _
    | dsimp only
    | with_reducible refine Keeps.set_readData_latch ?_ ?_

theorem hiRead_keeps {x0 : Master} {x1 : RegDesc} {x2 : Nat} (hw : Within [.latch, .readData] w) (h : Keeps w s t) :
    Keeps w s (hiRead x0 x1 x2 t) := by
  unfold hiRead
  repeat' first
    | with_reducible assumption
    | ((with_reducible refine Within.sub hw ?_); exact rfl)
    | split
    | intro _
    | dsimp only
    | with_reducible refine Keeps.set_readData ?_ ?_
    | with_reducible refine Keeps.set_readData_latch ?_ ?_

theorem wordRead_keeps {x0 : Master} {x1 : RegDesc} {x2 : Nat} (hw : Within [.readData, .regs] w) (h : Keeps w s t) :
    Keeps w s (wordRead x0 x1 x2 t) := by
  unfold wordRead
  repeat' first
    | with_reducible assumption
    | ((with_reducible refine Within.sub hw ?_); exact rfl)
    | with_reducible refine Keeps.setReg_any ?_ ?_
    | with_reducible refine Keeps.setReg ?_ ?_
    | split
    | intro _
    | dsimp only
    | with_reducible refine Keeps.set_readData ?_ ?_

theorem groupRead_keeps {x0 : Master} {x1 : RegDesc} {x2 : Nat} (hw : Within [.latch, .readData, .regs] w) (h : Keeps w s t) :
    Keeps w s (groupRead x0 x1 x2 t) := by
  unfold groupRead
  repeat' first
    | with_reducible assumption
    | ((with_reducible refine Within.sub hw ?_); exact rfl)
    | with_reducible refine Keeps.setReg_any ?_ ?_
    | with_reducible refine hiRead_keeps ?_ ?_
    | with_reducible refine loRead_keeps ?_ ?_
    | with_reducible refine wordRead_keeps ?_ ?_
    | split
    | intro _
    | dsimp only
    | with_reducible refine Keeps.set_readData ?_ ?_

theorem regRead_keeps {x0 : Master} {x1 : Nat} (hw : Within [.evlog, .free, .group, .latch, .readData, .regs, .block 0, .block 10] w) (h : Keeps w s t) :
    Keeps w s (regRead x0 x1 t) := by
  unfold regRead
  repeat' first
    | with_reducible assumption
    | ((with_reducible refine Within.sub hw ?_); exact rfl)
    | with_reducible refine Keeps.setReg_any ?_ ?_
    | with_reducible refine accNRead_keeps ?_ ?_
    | with_reducible refine groupRead_keeps ?_ ?_
    | with_reducible refine trkMinRead_keeps ?_ ?_
    | with_reducible refine unmapped_keeps ?_ ?_
    | with_reducible refine vnowRead_keeps ?_ ?_
    | (simp only [R.ACC_c_N_block, R.ACC_c_TRK_MIN_block]; (with_reducible refine Within.sub hw ?_); exact rfl)
    | split
    | intro _
    | dsimp only
    | with_reducible refine Keeps.set_readData ?_ ?_
    | with_reducible refine Keeps.set_free ?_ ?_

end Sys2Proof.Machine
end

