-- ==== Sys2Proof/Laws/Keeps/RegWrite.lean ====
section
/-! SUPPORT. What the operations of Sys2Proof/Machine/RegWrite.lean leave unchanged. -/

set_option linter.all false
set_option Elab.async false

namespace Sys2Proof.Machine

variable {w : List Piece} {s t : State}

theorem to1_keeps {x0 : Reg} {x1 : Nat} {x2 : Unit → State} {u : State} (e : to1 x0 x1 x2 = some u) (hf : Keeps w s (x2 ())) :
    Keeps w s u := by
  unfold to1 at e
  split at e
  · injection e with e; subst e; exact hf
  · cases e

theorem toN_keeps {x0 : Nat → Reg} {x1 x2 : Nat} {x3 : Nat → State} {u : State} (e : toN x0 x1 x2 x3 = some u)
    (hf : ∀ i, Keeps w s (x3 i)) : Keeps w s u := by
  unfold toN at e
  obtain ⟨i, _, rfl⟩ := Option.map_eq_some_iff.mp e
  exact hf i

theorem toNM_keeps {x0 : Nat → Nat → Reg} {x1 x2 x3 : Nat} {x4 : Nat → Nat → State} {u : State} (e : toNM x0 x1 x2 x3 x4 = some u)
    (hf : ∀ i j, Keeps w s (x4 i j)) : Keeps w s u := by
  unfold toNM at e
  obtain ⟨i, _, rfl⟩ := Option.map_eq_some_iff.mp e
  exact hf i.1 i.2

theorem storeMask_keeps {x0 : Reg} {x1 : Nat} {x2 : Word} (hw : Within [.block (blockOf x0.addr)] w) (h : Keeps w s t) :
    Keeps w s (storeMask x0 x1 x2 t) := by
  unfold storeMask
  repeat' first
    | with_reducible assumption
    | ((with_reducible refine Within.sub hw ?_); exact rfl)
    | exact hw.sub (by simp [Within])
    | with_reducible refine Keeps.setReg ?_ ?_
    | with_reducible refine Keeps.getD ?_ ?_
    | with_reducible refine Keeps.orElse (by assumption) ?_ ?_
    | split
    | intro _
    | dsimp only

theorem writeTime_keeps {x0 : Master} {x1 : Nat} {x2 : Word} {u : State}  (e : writeTime x0 x1 x2 t = some u) (hw : Within [.analog, .collie, .evlog, .exec, .free, .gran, .head, .img, .motion, .newImage, .ptp, .resets, .stage, .txn, .block 0, .block 1, .block 2, .block 3, .block 4, .block 5, .block 6, .block 7, .block 8, .block 11, .block 14, .block 21, .block 23] w) (h : Keeps w s t) :
    Keeps w s u := by
  unfold writeTime at e
  try dsimp only at e
  repeat' split at e
  all_goals try cases e
  all_goals repeat' first
    | with_reducible assumption
    | ((with_reducible refine Within.sub hw ?_); exact rfl)
    | with_reducible refine Keeps.setReg ?_ ?_
    | with_reducible refine classCfgWrite_keeps ?_ ?_
    | with_reducible refine clkCmdWrite_keeps ?_ ?_
    | with_reducible refine headCtrlWrite_keeps ?_ ?_
    | with_reducible refine headPeriodWrite_keeps ?_ ?_
    | with_reducible refine headSyncCfgWrite_keeps ?_ ?_
    | with_reducible refine headSyncCompWrite_keeps ?_ ?_
    | with_reducible refine headSyncMissWrite_keeps ?_ ?_
    | with_reducible refine offsetWrite_keeps ?_ ?_
    | with_reducible refine rateAdjWrite_keeps ?_ ?_
    | with_reducible refine seatClock_keeps ?_ ?_
    | with_reducible refine storeMask_keeps ?_ ?_
    | with_reducible refine sysResetWrite_keeps ?_ ?_
    | refine to1_keeps (by assumption) ?_
    | refine toN_keeps (by assumption) ?_
    | with_reducible refine wdogKick_keeps ?_ ?_
    | (simp only [R.HEAD_n_CLASS_CFG_block]; (with_reducible refine Within.sub hw ?_); exact rfl)
    | with_reducible refine Keeps.getD ?_ ?_
    | with_reducible refine Keeps.orElse (by assumption) ?_ ?_
    | split
    | intro _
    | dsimp only
    | (rename_i e; split at e)
    | (rename_i e; injection e with e; subst e)
    | contradiction

theorem writeExec_keeps {x0 : Nat} {x1 : Word} {u : State}  (e : writeExec x0 x1 t = some u) (hw : Within [.collie, .evlog, .exec, .free, .gran, .group, .head, .img, .latch, .motion, .newImage, .stage, .txn, .block 0, .block 4, .block 5, .block 6, .block 7, .block 8, .block 11, .block 14, .block 23] w) (h : Keeps w s t) :
    Keeps w s u := by
  unfold writeExec at e
  try dsimp only at e
  repeat' split at e
  all_goals try cases e
  all_goals repeat' first
    | with_reducible assumption
    | ((with_reducible refine Within.sub hw ?_); exact rfl)
    | with_reducible refine Keeps.setReg ?_ ?_
    | with_reducible refine collieCmdWrite_keeps ?_ ?_
    | with_reducible refine coreCtrlWrite_keeps ?_ ?_
    | with_reducible refine ctrlCmdWrite_keeps ?_ ?_ ?_
    | with_reducible refine forceCtrlEntryWrite_keeps ?_ ?_
    | with_reducible refine forceCtrlWrite_keeps ?_ ?_
    | with_reducible refine forcePointWrite_keeps ?_ ?_
    | with_reducible refine olcCommand_keeps ?_ ?_
    | with_reducible refine taskCtrlWrite_keeps ?_ ?_
    | refine to1_keeps (by assumption) ?_
    | refine toN_keeps (by assumption) ?_
    | with_reducible refine txnCmdWrite_keeps ?_ ?_
    | (simp only [R.EXEC_n_BUDGET_block, R.EXEC_t_TASK_CTRL_block, R.FORCE_e_CTRL_block, R.FORCE_e_POINT_block, R.PLOT_k_CORE_CTRL_block]; (with_reducible refine Within.sub hw ?_); exact rfl)
    | with_reducible refine Keeps.getD ?_ ?_
    | with_reducible refine Keeps.orElse (by assumption) ?_ ?_
    | split
    | intro _
    | dsimp only
    | (rename_i e; split at e)
    | (rename_i e; injection e with e; subst e)
    | contradiction

theorem writeAnalog_keeps {x0 : Nat} {x1 : Word} {u : State}  (e : writeAnalog x0 x1 t = some u) (hw : Within [.analog, .capture, .collie, .evlog, .mem, .block 0, .block 9, .block 10, .block 12, .block 24, .block 32] w) (h : Keeps w s t) :
    Keeps w s u := by
  unfold writeAnalog at e
  try dsimp only at e
  repeat' split at e
  all_goals try cases e
  all_goals repeat' first
    | with_reducible assumption
    | ((with_reducible refine Within.sub hw ?_); exact rfl)
    | with_reducible refine accCfgWrite_keeps ?_ ?_
    | with_reducible refine auCtrlWrite_keeps ?_ ?_
    | with_reducible refine auEntryWrite_keeps ?_ ?_
    | with_reducible refine calCtrlWrite_keeps ?_ ?_
    | with_reducible refine chCfgWrite_keeps ?_ ?_
    | with_reducible refine injCtrlWrite_keeps ?_ ?_
    | with_reducible refine refCtrlWrite_keeps ?_ ?_
    | refine to1_keeps (by assumption) ?_
    | refine toN_keeps (by assumption) ?_
    | refine toNM_keeps (by assumption) ?_
    | with_reducible refine trkClrWrite_keeps ?_ ?_
    | with_reducible refine wcmpWrite_keeps ?_ ?_
    | (simp only [R.ACC_c_CFG_block, R.ACC_c_WCMP_CFG_block, R.ACC_c_WCMP_HIGH_block, R.ACC_c_WCMP_LOW_block, R.ADC_p_REF_CTRL_block, R.AU_n_CAL_CTRL_block, R.AU_n_CTRL_block, R.AU_n_INJ_CTRL_block, R.AU_n_INJ_e_block, R.AU_n_SEQ_e_block, R.AU_n_i_CH_CFG_block]; (with_reducible refine Within.sub hw ?_); exact rfl)
    | with_reducible refine Keeps.getD ?_ ?_
    | with_reducible refine Keeps.orElse (by assumption) ?_ ?_
    | split
    | intro _
    | dsimp only
    | (rename_i e; split at e)
    | (rename_i e; injection e with e; subst e)
    | contradiction

theorem captReg_keeps {x0 : Nat} {x1 : Reg} {x2 : Nat} {x3 : Word} (hw : Within [.evlog, .block 0, .block 12, .block (blockOf x1.addr)] w) (h : Keeps w s t) :
    Keeps w s (captReg x0 x1 x2 x3 t) := by
  unfold captReg
  repeat' first
    | with_reducible assumption
    | ((with_reducible refine Within.sub hw ?_); exact rfl)
    | exact hw.sub (by simp [Within])
    | with_reducible refine captCfgWrite_keeps ?_ ?_ ?_
    | with_reducible refine storeMask_keeps ?_ ?_
    | with_reducible refine Keeps.getD ?_ ?_
    | with_reducible refine Keeps.orElse (by assumption) ?_ ?_
    | split
    | intro _
    | dsimp only

theorem writeCapt_keeps {x0 : Nat} {x1 : Word} {u : State}  (e : writeCapt x0 x1 t = some u) (hw : Within [.capture, .collie, .evlog, .glean, .mem, .block 0, .block 12, .block 13, .block 24] w) (h : Keeps w s t) :
    Keeps w s u := by
  unfold writeCapt at e
  try dsimp only at e
  repeat' split at e
  all_goals try cases e
  all_goals repeat' first
    | with_reducible assumption
    | ((with_reducible refine Within.sub hw ?_); exact rfl)
    | with_reducible refine Keeps.setReg ?_ ?_
    | with_reducible refine captCtrlWrite_keeps ?_ ?_
    | with_reducible refine captReg_keeps ?_ ?_
    | with_reducible refine captRelease_keeps ?_ ?_
    | with_reducible refine captSwTrig_keeps ?_ ?_
    | with_reducible refine gleanCtrlWrite_keeps ?_ ?_
    | with_reducible refine ovfKick_keeps ?_ ?_
    | with_reducible refine ovfTailWrite_keeps ?_ ?_
    | with_reducible refine sigWrite_keeps ?_ ?_
    | with_reducible refine storeMask_keeps ?_ ?_
    | refine to1_keeps (by assumption) ?_
    | refine toN_keeps (by assumption) ?_
    | refine toNM_keeps (by assumption) ?_
    | (simp only [R.CAPT_n_BASE_block, R.CAPT_n_CTRL_block, R.CAPT_n_POST_block, R.CAPT_n_PRE_block, R.CAPT_n_SEG_CFG_block, R.CAPT_n_SRC_block, R.CAPT_n_k_COND_CFG_block, R.CAPT_n_k_HYST_block]; (with_reducible refine Within.sub hw ?_); exact rfl)
    | with_reducible refine Keeps.getD ?_ ?_
    | with_reducible refine Keeps.orElse (by assumption) ?_ ?_
    | split
    | intro _
    | dsimp only
    | (rename_i e; split at e)
    | (rename_i e; injection e with e; subst e)
    | contradiction

theorem writeMotion_keeps {x0 : Nat} {x1 : Word} {u : State}  (e : writeMotion x0 x1 t = some u) (hw : Within [.evlog, .free, .motion, .txn, .block 0, .block 14, .block 15, .block 16] w) (h : Keeps w s t) :
    Keeps w s u := by
  unfold writeMotion at e
  try dsimp only at e
  repeat' split at e
  all_goals try cases e
  all_goals repeat' first
    | with_reducible assumption
    | ((with_reducible refine Within.sub hw ?_); exact rfl)
    | with_reducible refine axisCmdWrite_keeps ?_ ?_
    | with_reducible refine axisCtrlWrite_keeps ?_ ?_
    | with_reducible refine axisPinsWrite_keeps ?_ ?_
    | with_reducible refine chopCfgWrite_keeps ?_ ?_
    | with_reducible refine chopCtrlWrite_keeps ?_ ?_
    | with_reducible refine chopSineWrite_keeps ?_ ?_
    | with_reducible refine limitWrite_keeps ?_ ?_
    | with_reducible refine stepCfgWrite_keeps ?_ ?_
    | refine toN_keeps (by assumption) ?_
    | (simp only [R.AXIS_n_ACCEL_block, R.AXIS_n_CMD_block, R.AXIS_n_CTRL_block, R.AXIS_n_DECEL_block, R.AXIS_n_JERK_block, R.AXIS_n_PINS_block, R.AXIS_n_STEP_CFG_block, R.AXIS_n_VCREEP_block, R.CHOP_SINE_i_block, R.CHOP_c_CTRL_block, R.CHOP_c_CURRENT_block, R.CHOP_c_MSTEP_block, R.CHOP_c_TIMING_block]; (with_reducible refine Within.sub hw ?_); exact rfl)
    | with_reducible refine Keeps.getD ?_ ?_
    | with_reducible refine Keeps.orElse (by assumption) ?_ ?_
    | split
    | intro _
    | dsimp only
    | (rename_i e; split at e)
    | (rename_i e; injection e with e; subst e)
    | contradiction

theorem writeField_keeps {x0 : Nat} {x1 : Word} {u : State}  (e : writeField x0 x1 t = some u) (hw : Within [.collie, .evlog, .field, .free, .gens, .inputs, .quals, .block 0, .block 16, .block 17, .block 18] w) (h : Keeps w s t) :
    Keeps w s u := by
  unfold writeField at e
  try dsimp only at e
  repeat' split at e
  all_goals try cases e
  all_goals repeat' first
    | with_reducible assumption
    | ((with_reducible refine Within.sub hw ?_); exact rfl)
    | with_reducible refine fieldCycleWrite_keeps ?_ ?_
    | with_reducible refine fieldCtrlWrite_keeps ?_ ?_
    | with_reducible refine fieldRefused_keeps ?_ ?_
    | with_reducible refine mdioWrite_keeps ?_ ?_
    | with_reducible refine stationServiceWrite_keeps ?_ ?_
    | with_reducible refine storeMask_keeps ?_ ?_
    | refine to1_keeps (by assumption) ?_
    | refine toN_keeps (by assumption) ?_
    | refine toNM_keeps (by assumption) ?_
    | (simp only [R.CAN_p_CTRL_block, R.CAN_p_DBIT_block, R.CAN_p_SDO_CMD_block, R.FIELD_p_CTRL_block, R.FIELD_p_CYCLE_block, R.FIELD_p_LIMITS_block, R.FIELD_p_MDIO_block, R.FIELD_p_s_CTRL_block, R.GPIO_e_EVT_block]; (with_reducible refine Within.sub hw ?_); exact rfl)
    | with_reducible refine Keeps.getD ?_ ?_
    | with_reducible refine Keeps.orElse (by assumption) ?_ ?_
    | split
    | intro _
    | dsimp only
    | with_reducible refine Keeps.set_free ?_ ?_
    | (rename_i e; split at e)
    | (rename_i e; injection e with e; subst e)
    | contradiction

theorem writeSerial_keeps {x0 : Nat} {x1 : Word} {u : State}  (e : writeSerial x0 x1 t = some u) (hw : Within [.collie, .evlog, .field, .free, .gens, .inputs, .quals, .block 0, .block 16, .block 17, .block 18, .block 19] w) (h : Keeps w s t) :
    Keeps w s u := by
  unfold writeSerial at e
  try dsimp only at e
  repeat' split at e
  all_goals try cases e
  all_goals repeat' first
    | with_reducible assumption
    | ((with_reducible refine Within.sub hw ?_); exact rfl)
    | with_reducible refine Keeps.raise ?_ ?_
    | with_reducible refine Keeps.setReg ?_ ?_
    | with_reducible refine serCtrlWrite_keeps ?_ ?_
    | with_reducible refine canCtrlWrite_keeps ?_ ?_
    | with_reducible refine gpioEvtWrite_keeps ?_ ?_
    | with_reducible refine sdoCmdWrite_keeps ?_ ?_
    | refine to1_keeps (by assumption) ?_
    | refine toN_keeps (by assumption) ?_
    | refine toNM_keeps (by assumption) ?_
    | (simp only [R.CAN_p_CTRL_block, R.CAN_p_DBIT_block, R.CAN_p_SDO_CMD_block, R.FIELD_p_CTRL_block, R.FIELD_p_CYCLE_block, R.FIELD_p_LIMITS_block, R.FIELD_p_MDIO_block, R.FIELD_p_s_CTRL_block, R.GPIO_e_EVT_block]; (with_reducible refine Within.sub hw ?_); exact rfl)
    | with_reducible refine Keeps.getD ?_ ?_
    | with_reducible refine Keeps.orElse (by assumption) ?_ ?_
    | split
    | intro _
    | dsimp only
    | (rename_i e; split at e)
    | (rename_i e; injection e with e; subst e)
    | contradiction

theorem joaPortWrite_keeps {x0 : Reg} {x1 : Word} (hw : Within [.evlog, .block 0, .block 22, .block (blockOf x0.addr)] w) (h : Keeps w s t) :
    Keeps w s (joaPortWrite x0 x1 t) := by
  unfold joaPortWrite
  repeat' first
    | with_reducible assumption
    | ((with_reducible refine Within.sub hw ?_); exact rfl)
    | exact hw.sub (by simp [Within])
    | with_reducible refine Keeps.raise ?_ ?_
    | with_reducible refine storeMask_keeps ?_ ?_
    | with_reducible refine Keeps.getD ?_ ?_
    | with_reducible refine Keeps.orElse (by assumption) ?_ ?_
    | split
    | intro _
    | dsimp only

theorem writeNet_keeps {x0 : Nat} {x1 : Word} {u : State}  (e : writeNet x0 x1 t = some u) (hw : Within [.evlog, .free, .glean, .group, .joa, .latch, .ptp, .stage, .txn, .block 0, .block 2, .block 8, .block 20, .block 21, .block 22] w) (h : Keeps w s t) :
    Keeps w s u := by
  unfold writeNet at e
  try dsimp only at e
  repeat' split at e
  all_goals try cases e
  all_goals repeat' first
    | with_reducible assumption
    | ((with_reducible refine Within.sub hw ?_); exact rfl)
    | with_reducible refine Keeps.setReg ?_ ?_
    | with_reducible refine joaCtrlWrite_keeps ?_ ?_
    | with_reducible refine joaPortWrite_keeps ?_ ?_
    | with_reducible refine ptpCtrlWrite_keeps ?_ ?_
    | with_reducible refine ptpNonzeroWrite_keeps ?_ ?_
    | with_reducible refine ptpPortCfgWrite_keeps ?_ ?_
    | with_reducible refine ptpServoCfgWrite_keeps ?_ ?_
    | refine to1_keeps (by assumption) ?_
    | refine toN_keeps (by assumption) ?_
    | with_reducible refine uplinkCtrlWrite_keeps ?_ ?_
    | (simp only [R.JOA_s_CTRL_block, R.PTP_q_CFG_block, R.UPLINK_p_CTRL_block]; (with_reducible refine Within.sub hw ?_); exact rfl)
    | with_reducible refine Keeps.getD ?_ ?_
    | with_reducible refine Keeps.orElse (by assumption) ?_ ?_
    | split
    | intro _
    | dsimp only
    | (rename_i e; split at e)
    | (rename_i e; injection e with e; subst e)
    | contradiction

theorem writeMem_keeps {x0 : Nat} {x1 : Word} {u : State}  (e : writeMem x0 x1 t = some u) (hw : Within [.evlog, .free, .glean, .gran, .group, .island, .joa, .latch, .mem, .resets, .sec, .stage, .txn, .block 0, .block 8, .block 22, .block 23, .block 24, .block 25, .block 26, .block 27] w) (h : Keeps w s t) :
    Keeps w s u := by
  unfold writeMem at e
  try dsimp only at e
  repeat' split at e
  all_goals try cases e
  all_goals repeat' first
    | with_reducible assumption
    | ((with_reducible refine Within.sub hw ?_); exact rfl)
    | with_reducible refine Keeps.setReg ?_ ?_
    | with_reducible refine bistCtrlWrite_keeps ?_ ?_
    | with_reducible refine ownerWrite_keeps ?_ ?_
    | with_reducible refine safemirCmdWrite_keeps ?_ ?_
    | with_reducible refine safemirReqWrite_keeps ?_ ?_
    | with_reducible refine secCmdWrite_keeps ?_ ?_
    | with_reducible refine storeMask_keeps ?_ ?_
    | refine to1_keeps (by assumption) ?_
    | refine toN_keeps (by assumption) ?_
    | (simp only [R.MEM_k_OWNER_block]; (with_reducible refine Within.sub hw ?_); exact rfl)
    | with_reducible refine Keeps.getD ?_ ?_
    | with_reducible refine Keeps.orElse (by assumption) ?_ ?_
    | split
    | intro _
    | dsimp only
    | (rename_i e; split at e)
    | (rename_i e; injection e with e; subst e)
    | contradiction

theorem writeLink_keeps {x0 : Nat} {x1 : Word} {u : State}  (e : writeLink x0 x1 t = some u) (hw : Within [.evlog, .farm, .gens, .injected, .mem, .ptp, .txn, .block 0, .block 2, .block 8, .block 28, .block 29, .block 31] w) (h : Keeps w s t) :
    Keeps w s u := by
  unfold writeLink at e
  try dsimp only at e
  repeat' split at e
  all_goals try cases e
  all_goals repeat' first
    | with_reducible assumption
    | ((with_reducible refine Within.sub hw ?_); exact rfl)
    | with_reducible refine Keeps.setReg ?_ ?_
    | with_reducible refine ddrCtrlWrite_keeps ?_ ?_
    | with_reducible refine ddrTestCtrlWrite_keeps ?_ ?_
    | with_reducible refine drusCtrlWrite_keeps ?_ ?_
    | with_reducible refine drusPortWrite_keeps ?_ ?_
    | with_reducible refine genCtrlWrite_keeps ?_ ?_
    | with_reducible refine linktestCtrlWrite_keeps ?_ ?_
    | refine to1_keeps (by assumption) ?_
    | refine toN_keeps (by assumption) ?_
    | (simp only [R.DRUS_p_CTRL_block, R.LINKTEST_f_FCTRL_block, R.LINKTEST_l_CTRL_block]; (with_reducible refine Within.sub hw ?_); exact rfl)
    | with_reducible refine Keeps.getD ?_ ?_
    | with_reducible refine Keeps.orElse (by assumption) ?_ ?_
    | split
    | intro _
    | dsimp only
    | (rename_i e; split at e)
    | (rename_i e; injection e with e; subst e)
    | contradiction

theorem ownedWrite_keeps {x0 : Master} {x1 : Nat} {x2 : Word} {u : State}  (e : ownedWrite x0 x1 x2 t = some u) (hw : Within [.analog, .capture, .collie, .evlog, .exec, .farm, .field, .free, .gens, .glean, .gran, .group, .head, .img, .injected, .inputs, .island, .joa, .latch, .mem, .motion, .newImage, .ptp, .quals, .resets, .sec, .stage, .txn, .block 0, .block 1, .block 2, .block 3, .block 4, .block 5, .block 6, .block 7, .block 8, .block 9, .block 10, .block 11, .block 12, .block 13, .block 14, .block 15, .block 16, .block 17, .block 18, .block 19, .block 20, .block 21, .block 22, .block 23, .block 24, .block 25, .block 26, .block 27, .block 28, .block 29, .block 31, .block 32] w) (h : Keeps w s t) :
    Keeps w s u := by
  unfold ownedWrite at e
  try dsimp only at e
  repeat' split at e
  all_goals try cases e
  all_goals repeat' first
    | with_reducible assumption
    | ((with_reducible refine Within.sub hw ?_); exact rfl)
    | with_reducible refine writeAnalog_keeps (by assumption) ?_ ?_
    | with_reducible refine writeCapt_keeps (by assumption) ?_ ?_
    | with_reducible refine writeExec_keeps (by assumption) ?_ ?_
    | with_reducible refine writeField_keeps (by assumption) ?_ ?_
    | with_reducible refine writeLink_keeps (by assumption) ?_ ?_
    | with_reducible refine writeSerial_keeps (by assumption) ?_ ?_
    | with_reducible refine writeMem_keeps (by assumption) ?_ ?_
    | with_reducible refine writeMotion_keeps (by assumption) ?_ ?_
    | with_reducible refine writeNet_keeps (by assumption) ?_ ?_
    | with_reducible refine writeTime_keeps (by assumption) ?_ ?_
    | with_reducible refine Keeps.getD ?_ ?_
    | with_reducible refine Keeps.orElse (by assumption) ?_ ?_
    | split
    | intro _
    | dsimp only
    | (rename_i e; split at e)
    | (rename_i e; injection e with e; subst e)
    | contradiction

theorem plainWrite_keeps {x0 : RegDesc} {x1 : Nat} {x2 : Word} (hw : Within [.regs] w) (h : Keeps w s t) :
    Keeps w s (plainWrite x0 x1 x2 t) := by
  unfold plainWrite
  repeat' first
    | with_reducible assumption
    | ((with_reducible refine Within.sub hw ?_); exact rfl)
    | with_reducible refine Keeps.setReg_any ?_ ?_
    | with_reducible refine Keeps.setReg ?_ ?_
    | with_reducible refine Keeps.getD ?_ ?_
    | with_reducible refine Keeps.orElse (by assumption) ?_ ?_
    | split
    | intro _
    | dsimp only

theorem afterClear_keeps {x0 : Nat} {x1 : Word} (hw : Within [.capture, .evlog, .glean, .block 0, .block 12, .block 13] w) (h : Keeps w s t) :
    Keeps w s (afterClear x0 x1 t) := by
  unfold afterClear
  repeat' first
    | with_reducible assumption
    | ((with_reducible refine Within.sub hw ?_); exact rfl)
    | with_reducible refine ovfKick_keeps ?_ ?_
    | with_reducible refine spoolAgain_keeps ?_ ?_
    | with_reducible refine Keeps.put ?_ ?_
    | with_reducible refine Keeps.getD ?_ ?_
    | with_reducible refine Keeps.orElse (by assumption) ?_ ?_
    | split
    | intro _
    | dsimp only

theorem loStage_keeps {x0 : Master} {x1 : RegDesc} {x2 : Nat} {x3 : Word} (hw : Within [.stage] w) (h : Keeps w s t) :
    Keeps w s (loStage x0 x1 x2 x3 t) := by
  unfold loStage
  repeat' first
    | with_reducible assumption
    | ((with_reducible refine Within.sub hw ?_); exact rfl)
    | with_reducible refine Keeps.getD ?_ ?_
    | with_reducible refine Keeps.orElse (by assumption) ?_ ?_
    | split
    | intro _
    | dsimp only
    | with_reducible refine Keeps.set_stage ?_ ?_

theorem pairWrite_keeps {x0 : RegDesc} {x1 : Nat} {x2 : Quad} (hw : Within [.evlog, .free, .glean, .motion, .regs, .block 0, .block 12, .block 13, .block 14] w) (h : Keeps w s t) :
    Keeps w s (pairWrite x0 x1 x2 t) := by
  unfold pairWrite
  repeat' first
    | with_reducible assumption
    | ((with_reducible refine Within.sub hw ?_); exact rfl)
    | with_reducible refine Keeps.setReg_any ?_ ?_
    | with_reducible refine Keeps.setReg ?_ ?_
    | with_reducible refine Keeps.setReg64 ?_ ?_
    | with_reducible refine captCfgWrite_keeps ?_ ?_ ?_
    | with_reducible refine limitWrite_keeps ?_ ?_
    | with_reducible refine sigWrite_keeps ?_ ?_
    | refine to1_keeps (by assumption) ?_
    | refine toN_keeps (by assumption) ?_
    | refine toNM_keeps (by assumption) ?_
    | (simp only [R.AXIS_n_VMAX_HI_block, R.CAPT_n_k_LEVEL_HI_block, R.CAPT_n_k_LEVEL_LO_block, R.AXIS_n_SOFT_MIN_LO_block, R.AXIS_n_SOFT_MIN_HI_block, R.AXIS_n_SOFT_MAX_LO_block, R.AXIS_n_SOFT_MAX_HI_block, R.AXIS_n_HOME_OFS_LO_block, R.AXIS_n_HOME_OFS_HI_block]; (with_reducible refine Within.sub hw ?_); exact rfl)
    | with_reducible refine Keeps.getD ?_ ?_
    | with_reducible refine Keeps.orElse (by assumption) ?_ ?_
    | split
    | intro _
    | dsimp only

theorem hiCommit_keeps {x0 : Master} {x1 : RegDesc} {x2 : Nat} {x3 : Word} (hw : Within [.evlog, .free, .glean, .head, .motion, .ptp, .regs, .stage, .block 0, .block 2, .block 3, .block 12, .block 13, .block 14] w) (h : Keeps w s t) :
    Keeps w s (hiCommit x0 x1 x2 x3 t) := by
  unfold hiCommit
  repeat' first
    | with_reducible assumption
    | ((with_reducible refine Within.sub hw ?_); exact rfl)
    | with_reducible refine Keeps.setReg_any ?_ ?_
    | with_reducible refine offsetWrite_keeps ?_ ?_
    | with_reducible refine pairWrite_keeps ?_ ?_
    | with_reducible refine Keeps.getD ?_ ?_
    | with_reducible refine Keeps.orElse (by assumption) ?_ ?_
    | split
    | intro _
    | dsimp only
    | with_reducible refine Keeps.set_stage ?_ ?_

theorem regWrite_keeps {x0 : Master} {x1 : Nat} {x2 : Word} (hw : Within [.analog, .capture, .collie, .evlog, .exec, .farm, .field, .free, .gens, .glean, .gran, .group, .head, .img, .injected, .inputs, .island, .joa, .latch, .mem, .motion, .newImage, .ptp, .quals, .regs, .resets, .sec, .stage, .txn, .block 0, .block 1, .block 2, .block 3, .block 4, .block 5, .block 6, .block 7, .block 8, .block 9, .block 10, .block 11, .block 12, .block 13, .block 14, .block 15, .block 16, .block 17, .block 18, .block 19, .block 20, .block 21, .block 22, .block 23, .block 24, .block 25, .block 26, .block 27, .block 28, .block 29, .block 31, .block 32] w) (h : Keeps w s t) :
    Keeps w s (regWrite x0 x1 x2 t) := by
  unfold regWrite
  repeat' first
    | with_reducible assumption
    | ((with_reducible refine Within.sub hw ?_); exact rfl)
    | with_reducible refine Keeps.setReg_any ?_ ?_
    | with_reducible refine afterClear_keeps ?_ ?_
    | with_reducible refine hiCommit_keeps ?_ ?_
    | with_reducible refine loStage_keeps ?_ ?_
    | with_reducible refine ownedWrite_keeps (by assumption) ?_ ?_
    | with_reducible refine plainWrite_keeps ?_ ?_
    | with_reducible refine unmapped_keeps ?_ ?_
    | with_reducible refine Keeps.getD ?_ ?_
    | with_reducible refine Keeps.orElse (by assumption) ?_ ?_
    | split
    | intro _
    | dsimp only

end Sys2Proof.Machine
end

