-- ==== Sys2Proof/Laws/Keeps/Bus.lean ====
section
/-! SUPPORT. What the operations of Sys2Proof/Machine/Bus.lean leave unchanged. -/

set_option linter.all false
set_option Elab.async false

namespace Sys2Proof.Machine

variable {w : List Piece} {s t : State}

theorem freeRead_keeps (hw : Within [.free, .readData] w) (h : Keeps w s t) :
    Keeps w s (freeRead t) := by
  unfold freeRead
  repeat' first
    | with_reducible assumption
    | ((with_reducible refine Within.sub hw ?_); exact rfl)
    | split
    | intro _
    | dsimp only
    | with_reducible refine Keeps.set_free_readData ?_ ?_

theorem granaryRead_keeps {x0 : Nat} (hw : Within [.free, .readData] w) (h : Keeps w s t) :
    Keeps w s (granaryRead x0 t) := by
  unfold granaryRead
  repeat' first
    | with_reducible assumption
    | ((with_reducible refine Within.sub hw ?_); exact rfl)
    | with_reducible refine freeRead_keeps ?_ ?_
    | split
    | intro _
    | dsimp only
    | with_reducible refine Keeps.set_readData ?_ ?_

theorem localRead_keeps {x0 : Master} {x1 : Nat} {x2 : Nat} (hw : Within [.evlog, .free, .gran, .group, .latch, .readData, .regs, .block 0, .block 10, .block 24] w) (h : Keeps w s t) :
    Keeps w s (localRead x0 x1 x2 t) := by
  unfold localRead
  repeat' first
    | with_reducible assumption
    | ((with_reducible refine Within.sub hw ?_); exact rfl)
    | with_reducible refine bankRead_keeps ?_ ?_
    | with_reducible refine bankRead_keeps_eq (by assumption) ?_ ?_
    | with_reducible refine freeRead_keeps ?_ ?_
    | with_reducible refine granaryRead_keeps ?_ ?_
    | with_reducible refine regRead_keeps ?_ ?_
    | split
    | intro _
    | dsimp only
    | with_reducible refine Keeps.set_readData ?_ ?_

theorem busRead_keeps {x0 : Master} {x1 : Nat} (hw : Within [.evlog, .free, .gran, .group, .latch, .readData, .regs, .block 0, .block 10, .block 24] w) (h : Keeps w s t) :
    Keeps w s (busRead x0 x1 t) := by
  unfold busRead
  repeat' first
    | with_reducible assumption
    | ((with_reducible refine Within.sub hw ?_); exact rfl)
    | with_reducible refine Keeps.setReg_any ?_ ?_
    | with_reducible refine freeRead_keeps ?_ ?_
    | with_reducible refine localRead_keeps ?_ ?_
    | split
    | intro _
    | dsimp only
    | with_reducible refine Keeps.set_readData ?_ ?_

theorem localWrite_keeps {x0 : Master} {x1 : Nat} {x2 : Nat} {x3 : Word} (hw : Within [.analog, .capture, .collie, .evlog, .exec, .farm, .field, .free, .gens, .glean, .gran, .group, .head, .img, .injected, .inputs, .island, .joa, .latch, .mem, .motion, .newImage, .ptp, .quals, .regs, .resets, .sec, .stage, .txn, .block 0, .block 1, .block 2, .block 3, .block 4, .block 5, .block 6, .block 7, .block 8, .block 9, .block 10, .block 11, .block 12, .block 13, .block 14, .block 15, .block 16, .block 17, .block 18, .block 19, .block 20, .block 21, .block 22, .block 23, .block 24, .block 25, .block 26, .block 27, .block 28, .block 29, .block 31, .block 32] w) (h : Keeps w s t) :
    Keeps w s (localWrite x0 x1 x2 x3 t).2 := by
  unfold localWrite
  repeat' first
    | with_reducible assumption
    | ((with_reducible refine Within.sub hw ?_); exact rfl)
    | with_reducible refine Keeps.setReg_any ?_ ?_
    | with_reducible refine State.memWrite_keeps ?_ ?_
    | with_reducible refine aliasWrite_keeps ?_ ?_
    | with_reducible refine aliasWrite_keeps_eq (by assumption) ?_ ?_
    | with_reducible refine bankWrite_keeps ?_ ?_
    | with_reducible refine bankWrite_keeps_eq (by assumption) ?_ ?_
    | with_reducible refine regWrite_keeps ?_ ?_
    | with_reducible refine violation_keeps ?_ ?_
    | split
    | intro _
    | dsimp only

theorem localWrite_keeps_eq {x0 : Master} {x1 : Nat} {x2 : Nat} {x3 : Word} {y} {u : State}  (e : localWrite x0 x1 x2 x3 t = (y, u)) (hw : Within [.analog, .capture, .collie, .evlog, .exec, .farm, .field, .free, .gens, .glean, .gran, .group, .head, .img, .injected, .inputs, .island, .joa, .latch, .mem, .motion, .newImage, .ptp, .quals, .regs, .resets, .sec, .stage, .txn, .block 0, .block 1, .block 2, .block 3, .block 4, .block 5, .block 6, .block 7, .block 8, .block 9, .block 10, .block 11, .block 12, .block 13, .block 14, .block 15, .block 16, .block 17, .block 18, .block 19, .block 20, .block 21, .block 22, .block 23, .block 24, .block 25, .block 26, .block 27, .block 28, .block 29, .block 31, .block 32] w) (h : Keeps w s t) : Keeps w s u := by
  have := localWrite_keeps hw h (x0 := x0) (x1 := x1) (x2 := x2) (x3 := x3)
  rw [e] at this; exact this

theorem busWrite_keeps {x0 : Master} {x1 : Nat} {x2 : Word} {x3 : Bool} (hw : Within [.analog, .capture, .collie, .evlog, .exec, .farm, .field, .free, .gens, .glean, .gran, .group, .head, .img, .injected, .inputs, .island, .joa, .latch, .mem, .motion, .newImage, .ptp, .quals, .regs, .resets, .sec, .stage, .txn, .block 0, .block 1, .block 2, .block 3, .block 4, .block 5, .block 6, .block 7, .block 8, .block 9, .block 10, .block 11, .block 12, .block 13, .block 14, .block 15, .block 16, .block 17, .block 18, .block 19, .block 20, .block 21, .block 22, .block 23, .block 24, .block 25, .block 26, .block 27, .block 28, .block 29, .block 31, .block 32] w) (h : Keeps w s t) :
    Keeps w s (busWrite x0 x1 x2 x3 t) := by
  unfold busWrite
  repeat' first
    | with_reducible assumption
    | ((with_reducible refine Within.sub hw ?_); exact rfl)
    | with_reducible refine collide_keeps ?_ ?_
    | with_reducible refine localWrite_keeps ?_ ?_
    | with_reducible refine localWrite_keeps_eq (by assumption) ?_ ?_
    | split
    | intro _
    | dsimp only

theorem busAlias_keeps {x0 : Bool} {x1 : Master} {x2 : Nat} {x3 : Nat} {x4 : Quad} {x5 : Bool} (hw : Within [.collie, .evlog, .gran, .mem, .block 0, .block 24] w) (h : Keeps w s t) :
    Keeps w s (busAlias x0 x1 x2 x3 x4 x5 t) := by
  unfold busAlias
  repeat' first
    | with_reducible assumption
    | ((with_reducible refine Within.sub hw ?_); exact rfl)
    | with_reducible refine aliasWrite_keeps ?_ ?_
    | with_reducible refine aliasWrite_keeps_eq (by assumption) ?_ ?_
    | with_reducible refine collide_keeps ?_ ?_
    | split
    | intro _
    | dsimp only

theorem remoteRefused_keeps (hw : Within [.evlog, .block 0, .block 28] w) (h : Keeps w s t) :
    Keeps w s (remoteRefused t) := by
  unfold remoteRefused
  repeat' first
    | with_reducible assumption
    | ((with_reducible refine Within.sub hw ?_); exact rfl)
    | with_reducible refine Keeps.incSat ?_ ?_
    | with_reducible refine Keeps.raise ?_ ?_
    | split
    | intro _
    | dsimp only

theorem remoteRead_keeps {x0 : Nat} {x1 : Nat} (hw : Within [.evlog, .free, .gran, .group, .latch, .readData, .regs, .block 0, .block 10, .block 24] w) (h : Keeps w s t) :
    Keeps w s (remoteRead x0 x1 t) := by
  unfold remoteRead
  repeat' first
    | with_reducible assumption
    | ((with_reducible refine Within.sub hw ?_); exact rfl)
    | with_reducible refine Keeps.setReg_any ?_ ?_
    | with_reducible refine localRead_keeps ?_ ?_
    | split
    | intro _
    | dsimp only
    | with_reducible refine Keeps.set_readData ?_ ?_

theorem remoteWrite_keeps {x0 : Nat} {x1 : Nat} {x2 : Word} (hw : Within [.analog, .capture, .collie, .evlog, .exec, .farm, .field, .free, .gens, .glean, .gran, .group, .head, .img, .injected, .inputs, .island, .joa, .latch, .mem, .motion, .newImage, .ptp, .quals, .regs, .resets, .sec, .stage, .txn, .block 0, .block 1, .block 2, .block 3, .block 4, .block 5, .block 6, .block 7, .block 8, .block 9, .block 10, .block 11, .block 12, .block 13, .block 14, .block 15, .block 16, .block 17, .block 18, .block 19, .block 20, .block 21, .block 22, .block 23, .block 24, .block 25, .block 26, .block 27, .block 28, .block 29, .block 31, .block 32] w) (h : Keeps w s t) :
    Keeps w s (remoteWrite x0 x1 x2 t) := by
  unfold remoteWrite
  repeat' first
    | with_reducible assumption
    | ((with_reducible refine Within.sub hw ?_); exact rfl)
    | with_reducible refine Keeps.setReg_any ?_ ?_
    | with_reducible refine localWrite_keeps ?_ ?_
    | with_reducible refine localWrite_keeps_eq (by assumption) ?_ ?_
    | with_reducible refine regWrite_keeps ?_ ?_
    | with_reducible refine remoteRefused_keeps ?_ ?_
    | split
    | intro _
    | dsimp only

theorem farmAccess_keeps {x0 : Nat} {x1 : Nat} {x2 : Option Word} (hw : Within [.analog, .capture, .collie, .evlog, .exec, .farm, .field, .free, .gens, .glean, .gran, .group, .head, .img, .injected, .inputs, .island, .joa, .latch, .mem, .motion, .newImage, .ptp, .quals, .readData, .regs, .resets, .sec, .stage, .txn, .block 0, .block 1, .block 2, .block 3, .block 4, .block 5, .block 6, .block 7, .block 8, .block 9, .block 10, .block 11, .block 12, .block 13, .block 14, .block 15, .block 16, .block 17, .block 18, .block 19, .block 20, .block 21, .block 22, .block 23, .block 24, .block 25, .block 26, .block 27, .block 28, .block 29, .block 31, .block 32] w) (h : Keeps w s t) :
    Keeps w s (farmAccess x0 x1 x2 t) := by
  unfold farmAccess
  repeat' first
    | with_reducible assumption
    | ((with_reducible refine Within.sub hw ?_); exact rfl)
    | with_reducible refine Keeps.setReg_any ?_ ?_
    | with_reducible refine remoteRead_keeps ?_ ?_
    | with_reducible refine remoteWrite_keeps ?_ ?_
    | split
    | intro _
    | dsimp only

end Sys2Proof.Machine
end

