-- ==== Sys2Proof/Laws/Keeps/Entries.lean ====
section
/-! SUPPORT. What the operations of Sys2Proof/Machine/Entries.lean leave unchanged. -/

set_option linter.all false
set_option Elab.async false

namespace Sys2Proof.Machine

variable {w : List Piece} {s t : State}

theorem attest_keeps {x0 : Nat} {x1 : Nat} (hw : Within [.evlog, .free, .gran, .joa, .sec, .block 0, .block 27] w) (h : Keeps w s t) :
    Keeps w s (attest x0 x1 t).2 := by
  unfold attest
  repeat' first
    | with_reducible assumption
    | ((with_reducible refine Within.sub hw ?_); exact rfl)
    | with_reducible refine State.freeBytes_keeps ?_ ?_
    | with_reducible refine State.freeBytes_keeps_eq (by assumption) ?_ ?_
    | with_reducible refine State.setSession_keeps ?_ ?_
    | with_reducible refine lmsUse_keeps ?_ ?_
    | with_reducible refine lmsUse_keeps_eq (by assumption) ?_ ?_
    | split
    | intro _
    | dsimp only

theorem attest_keeps_eq {x0 : Nat} {x1 : Nat} {y} {u : State}  (e : attest x0 x1 t = (y, u)) (hw : Within [.evlog, .free, .gran, .joa, .sec, .block 0, .block 27] w) (h : Keeps w s t) : Keeps w s u := by
  have := attest_keeps hw h (x0 := x0) (x1 := x1)
  rw [e] at this; exact this

theorem entryPart_keeps {x0 : Nat} {x1 : Entry} {x2 : Nat} {x3 : Nat} (hw : Within [.evlog, .free, .gran, .group, .joa, .latch, .readData, .regs, .sec, .block 0, .block 10, .block 27] w) (h : Keeps w s t) :
    Keeps w s (entryPart x0 x1 x2 x3 t).2 := by
  unfold entryPart
  repeat' first
    | with_reducible assumption
    | ((with_reducible refine Within.sub hw ?_); exact rfl)
    | with_reducible refine Keeps.setReg_any ?_ ?_
    | with_reducible refine State.freeBytes_keeps ?_ ?_
    | with_reducible refine State.freeBytes_keeps_eq (by assumption) ?_ ?_
    | with_reducible refine attest_keeps ?_ ?_
    | with_reducible refine attest_keeps_eq (by assumption) ?_ ?_
    | with_reducible refine regRead_keeps ?_ ?_
    | split
    | intro _
    | dsimp only

theorem entryPart_keeps_eq {x0 : Nat} {x1 : Entry} {x2 : Nat} {x3 : Nat} {y} {u : State}  (e : entryPart x0 x1 x2 x3 t = (y, u)) (hw : Within [.evlog, .free, .gran, .group, .joa, .latch, .readData, .regs, .sec, .block 0, .block 10, .block 27] w) (h : Keeps w s t) : Keeps w s u := by
  have := entryPart_keeps hw h (x0 := x0) (x1 := x1) (x2 := x2) (x3 := x3)
  rw [e] at this; exact this

theorem rootWrite_keeps {x0 : Bool} {x1 : Nat} {x2 : List Byte} (hw : Within [.sec] w) (h : Keeps w s t) :
    Keeps w s (rootWrite x0 x1 x2 t).2 := by
  unfold rootWrite
  repeat' first
    | with_reducible assumption
    | ((with_reducible refine Within.sub hw ?_); exact rfl)
    | with_reducible refine State.modSec_keeps ?_ ?_
    | split
    | intro _
    | dsimp only

theorem rootWrite_keeps_eq {x0 : Bool} {x1 : Nat} {x2 : List Byte} {y} {u : State}  (e : rootWrite x0 x1 x2 t = (y, u)) (hw : Within [.sec] w) (h : Keeps w s t) : Keeps w s u := by
  have := rootWrite_keeps hw h (x0 := x0) (x1 := x1) (x2 := x2)
  rw [e] at this; exact this

theorem hostKeyWrite_keeps {x0 : Nat} {x1 : List Byte} (hw : Within [.gran, .sec] w) (h : Keeps w s t) :
    Keeps w s (hostKeyWrite x0 x1 t) := by
  unfold hostKeyWrite
  repeat' first
    | with_reducible assumption
    | ((with_reducible refine Within.sub hw ?_); exact rfl)
    | with_reducible refine State.modSec_keeps ?_ ?_
    | with_reducible refine granWait_keeps ?_ ?_
    | split
    | intro _
    | dsimp only

theorem entryWrite_keeps {x0 : Nat} {x1 : Nat} {x2 : Entry} {x3 : List Byte} (hw : Within [.analog, .capture, .collie, .evlog, .exec, .farm, .field, .free, .gens, .glean, .gran, .group, .head, .img, .injected, .inputs, .island, .joa, .latch, .mem, .motion, .newImage, .ptp, .quals, .regs, .resets, .sec, .stage, .txn, .block 0, .block 1, .block 2, .block 3, .block 4, .block 5, .block 6, .block 7, .block 8, .block 9, .block 10, .block 11, .block 12, .block 13, .block 14, .block 15, .block 16, .block 17, .block 18, .block 19, .block 20, .block 21, .block 22, .block 23, .block 24, .block 25, .block 26, .block 27, .block 28, .block 29, .block 31, .block 32] w) (h : Keeps w s t) :
    Keeps w s (entryWrite x0 x1 x2 x3 t).2 := by
  unfold entryWrite
  repeat' first
    | with_reducible assumption
    | ((with_reducible refine Within.sub hw ?_); exact rfl)
    | with_reducible refine Keeps.setReg_any ?_ ?_
    | with_reducible refine State.modSession_keeps ?_ ?_
    | with_reducible refine fwActivate_keeps ?_ ?_
    | with_reducible refine fwActivate_keeps_eq (by assumption) ?_ ?_
    | with_reducible refine hostKeyWrite_keeps ?_ ?_
    | with_reducible refine pubWrite_keeps ?_ ?_
    | with_reducible refine regWrite_keeps ?_ ?_
    | with_reducible refine rootWrite_keeps ?_ ?_
    | with_reducible refine rootWrite_keeps_eq (by assumption) ?_ ?_
    | split
    | intro _
    | dsimp only

theorem entryWrite_keeps_eq {x0 : Nat} {x1 : Nat} {x2 : Entry} {x3 : List Byte} {y} {u : State}  (e : entryWrite x0 x1 x2 x3 t = (y, u)) (hw : Within [.analog, .capture, .collie, .evlog, .exec, .farm, .field, .free, .gens, .glean, .gran, .group, .head, .img, .injected, .inputs, .island, .joa, .latch, .mem, .motion, .newImage, .ptp, .quals, .regs, .resets, .sec, .stage, .txn, .block 0, .block 1, .block 2, .block 3, .block 4, .block 5, .block 6, .block 7, .block 8, .block 9, .block 10, .block 11, .block 12, .block 13, .block 14, .block 15, .block 16, .block 17, .block 18, .block 19, .block 20, .block 21, .block 22, .block 23, .block 24, .block 25, .block 26, .block 27, .block 28, .block 29, .block 31, .block 32] w) (h : Keeps w s t) : Keeps w s u := by
  have := entryWrite_keeps hw h (x0 := x0) (x1 := x1) (x2 := x2) (x3 := x3)
  rw [e] at this; exact this

end Sys2Proof.Machine
end

