-- ==== Sys2Proof/Laws/Keeps/JoaServe.lean ====
section
/-! SUPPORT. What the operations of Sys2Proof/Machine/JoaServe.lean leave unchanged. -/

set_option linter.all false
set_option Elab.async false

namespace Sys2Proof.Machine

variable {w : List Piece} {s t : State}

theorem itemValue_keeps {x0 : Nat} {x1 : Nat} {x2 : Nat} {x3 : Nat} {x4 : Nat} {x5 : Bool} {x6 : List Byte} (hw : Within [.joa] w) (h : Keeps w s t) :
    Keeps w s (itemValue x0 x1 x2 x3 x4 x5 x6 t) := by
  unfold itemValue
  repeat' first
    | with_reducible assumption
    | ((with_reducible refine Within.sub hw ?_); exact rfl)
    | with_reducible refine itemEnd_keeps ?_ ?_
    | with_reducible refine modItem_keeps ?_ ?_
    | split
    | intro _
    | dsimp only

theorem readOne_keeps {x0 : Nat} {x1 : Nat} {x2 : Nat} {x3 : JoaItem} {x4 : Entry} {x5 : EntryMeta} (hw : Within [.evlog, .free, .gran, .group, .joa, .latch, .readData, .regs, .sec, .block 0, .block 10, .block 27] w) (h : Keeps w s t) :
    Keeps w s (readOne x0 x1 x2 x3 x4 x5 t) := by
  unfold readOne
  repeat' first
    | with_reducible assumption
    | ((with_reducible refine Within.sub hw ?_); exact rfl)
    | with_reducible refine Keeps.setReg_any ?_ ?_
    | with_reducible refine entryPart_keeps ?_ ?_
    | with_reducible refine entryPart_keeps_eq (by assumption) ?_ ?_
    | with_reducible refine itemEnd_keeps ?_ ?_
    | with_reducible refine itemValue_keeps ?_ ?_
    | split
    | intro _
    | dsimp only

theorem readWhole_keeps {x0 : Nat} {x1 : Nat} {x2 : Nat} {x3 : JoaPend} {x4 : Entry} {x5 : EntryMeta} (hw : Within [.evlog, .free, .gran, .group, .joa, .latch, .readData, .regs, .sec, .block 0, .block 10, .block 27] w) (h : Keeps w s t) :
    Keeps w s (readWhole x0 x1 x2 x3 x4 x5 t) := by
  unfold readWhole
  repeat' first
    | with_reducible assumption
    | ((with_reducible refine Within.sub hw ?_); exact rfl)
    | with_reducible refine Keeps.setReg_any ?_ ?_
    | with_reducible refine entryPart_keeps ?_ ?_
    | with_reducible refine entryPart_keeps_eq (by assumption) ?_ ?_
    | with_reducible refine itemEnd_keeps ?_ ?_
    | with_reducible refine itemValue_keeps ?_ ?_
    | split
    | intro _
    | dsimp only

theorem proxyQueue_keeps {x0 : Nat} {x1 : Nat} {x2 : Nat} {x3 : Nat} {x4 : Nat} {x5 : Nat} {x6 : Nat} {x7 : Bool} {x8 : List Byte} (hw : Within [.joa] w) (h : Keeps w s t) :
    Keeps w s (proxyQueue x0 x1 x2 x3 x4 x5 x6 x7 x8 t) := by
  unfold proxyQueue
  repeat' first
    | with_reducible assumption
    | ((with_reducible refine Within.sub hw ?_); exact rfl)
    | with_reducible refine itemEnd_keeps ?_ ?_
    | with_reducible refine itemWait_keeps ?_ ?_
    | split
    | intro _
    | dsimp only
    | with_reducible refine Keeps.set_joa ?_ ?_

theorem proxyStart_keeps {x0 : Nat} (hw : Within [.field, .joa, .block 18] w) (h : Keeps w s t) :
    Keeps w s (proxyStart x0 t) := by
  unfold proxyStart
  repeat' first
    | with_reducible assumption
    | ((with_reducible refine Within.sub hw ?_); exact rfl)
    | with_reducible refine State.setCan_keeps ?_ ?_
    | with_reducible refine Keeps.setReg ?_ ?_
    | (simp only [R.CAN_p_SDO_BUSY_block]; (with_reducible refine Within.sub hw ?_); exact rfl)
    | split
    | intro _
    | dsimp only
    | with_reducible refine Keeps.set_joa ?_ ?_

theorem readItem_keeps {x0 : Nat} {x1 : Nat} {x2 : Nat} {x3 : JoaPend} {x4 : JoaItem} (hw : Within [.evlog, .free, .gran, .group, .joa, .latch, .readData, .regs, .sec, .block 0, .block 10, .block 27] w) (h : Keeps w s t) :
    Keeps w s (readItem x0 x1 x2 x3 x4 t) := by
  unfold readItem
  repeat' first
    | with_reducible assumption
    | ((with_reducible refine Within.sub hw ?_); exact rfl)
    | with_reducible refine Keeps.setReg_any ?_ ?_
    | with_reducible refine itemEnd_keeps ?_ ?_
    | with_reducible refine proxyQueue_keeps ?_ ?_
    | with_reducible refine readOne_keeps ?_ ?_
    | with_reducible refine readWhole_keeps ?_ ?_
    | split
    | intro _
    | dsimp only

theorem varWait_keeps {x0 : Nat} {x1 : Nat} {x2 : Nat} (hw : Within [.collie, .gran, .joa, .txn] w) (h : Keeps w s t) :
    Keeps w s (varWait x0 x1 x2 t) := by
  unfold varWait
  repeat' first
    | with_reducible assumption
    | ((with_reducible refine Within.sub hw ?_); exact rfl)
    | with_reducible refine itemEnd_keeps ?_ ?_
    | with_reducible refine itemWait_keeps ?_ ?_
    | with_reducible refine varItem_keeps ?_ ?_
    | split
    | intro _
    | dsimp only

theorem writeItem_keeps {x0 : Nat} {x1 : Nat} {x2 : Nat} {x3 : JoaItem} (hw : Within [.analog, .capture, .collie, .evlog, .exec, .farm, .field, .free, .gens, .glean, .gran, .group, .head, .img, .injected, .inputs, .island, .joa, .latch, .mem, .motion, .newImage, .ptp, .quals, .regs, .resets, .sec, .stage, .txn, .block 0, .block 1, .block 2, .block 3, .block 4, .block 5, .block 6, .block 7, .block 8, .block 9, .block 10, .block 11, .block 12, .block 13, .block 14, .block 15, .block 16, .block 17, .block 18, .block 19, .block 20, .block 21, .block 22, .block 23, .block 24, .block 25, .block 26, .block 27, .block 28, .block 29, .block 31, .block 32] w) (h : Keeps w s t) :
    Keeps w s (writeItem x0 x1 x2 x3 t) := by
  unfold writeItem
  repeat' first
    | with_reducible assumption
    | ((with_reducible refine Within.sub hw ?_); exact rfl)
    | with_reducible refine Keeps.setReg_any ?_ ?_
    | with_reducible refine entryWrite_keeps ?_ ?_
    | with_reducible refine entryWrite_keeps_eq (by assumption) ?_ ?_
    | with_reducible refine itemEnd_keeps ?_ ?_
    | with_reducible refine proxyQueue_keeps ?_ ?_
    | with_reducible refine pubWrite_keeps ?_ ?_
    | with_reducible refine varWait_keeps ?_ ?_
    | split
    | intro _
    | dsimp only

theorem infoItem_keeps {x0 : Nat} {x1 : Nat} {x2 : Nat} {x3 : JoaItem} (hw : Within [.joa] w) (h : Keeps w s t) :
    Keeps w s (infoItem x0 x1 x2 x3 t) := by
  unfold infoItem
  repeat' first
    | with_reducible assumption
    | ((with_reducible refine Within.sub hw ?_); exact rfl)
    | with_reducible refine itemEnd_keeps ?_ ?_
    | with_reducible refine modItem_keeps ?_ ?_
    | split
    | intro _
    | dsimp only

theorem subItem_keeps {x0 : Nat} {x1 : Nat} {x2 : Nat} {x3 : JoaItem} (hw : Within [.joa] w) (h : Keeps w s t) :
    Keeps w s (subItem x0 x1 x2 x3 t) := by
  unfold subItem
  repeat' first
    | with_reducible assumption
    | ((with_reducible refine Within.sub hw ?_); exact rfl)
    | with_reducible refine itemEnd_keeps ?_ ?_
    | split
    | intro _
    | dsimp only

theorem joaTry_keeps {x0 : Nat} {x1 : Nat} {x2 : Nat} (hw : Within [.analog, .capture, .collie, .evlog, .exec, .farm, .field, .free, .gens, .glean, .gran, .group, .head, .img, .injected, .inputs, .island, .joa, .latch, .mem, .motion, .newImage, .ptp, .quals, .readData, .regs, .resets, .sec, .stage, .txn, .block 0, .block 1, .block 2, .block 3, .block 4, .block 5, .block 6, .block 7, .block 8, .block 9, .block 10, .block 11, .block 12, .block 13, .block 14, .block 15, .block 16, .block 17, .block 18, .block 19, .block 20, .block 21, .block 22, .block 23, .block 24, .block 25, .block 26, .block 27, .block 28, .block 29, .block 31, .block 32] w) (h : Keeps w s t) :
    Keeps w s (joaTry x0 x1 x2 t) := by
  unfold joaTry
  repeat' first
    | with_reducible assumption
    | ((with_reducible refine Within.sub hw ?_); exact rfl)
    | with_reducible refine Keeps.setReg_any ?_ ?_
    | with_reducible refine infoItem_keeps ?_ ?_
    | with_reducible refine itemEnd_keeps ?_ ?_
    | with_reducible refine itemWait_keeps ?_ ?_
    | with_reducible refine readItem_keeps ?_ ?_
    | with_reducible refine subItem_keeps ?_ ?_
    | with_reducible refine writeItem_keeps ?_ ?_
    | split
    | intro _
    | dsimp only

theorem subFinish_keeps {x0 : Nat} {x1 : JoaPend} (hw : Within [.joa] w) (h : Keeps w s t) :
    Keeps w s (subFinish x0 x1 t) := by
  unfold subFinish
  repeat' first
    | with_reducible assumption
    | ((with_reducible refine Within.sub hw ?_); exact rfl)
    | with_reducible refine joaAnswer_keeps ?_ ?_
    | with_reducible refine joaRespond_keeps ?_ ?_
    | split
    | intro _
    | dsimp only
    | with_reducible refine Keeps.set_joa ?_ ?_

theorem joaFinish_keeps {x0 : Nat} {x1 : JoaPend} (hw : Within [.joa] w) (h : Keeps w s t) :
    Keeps w s (joaFinish x0 x1 t) := by
  unfold joaFinish
  repeat' first
    | with_reducible assumption
    | ((with_reducible refine Within.sub hw ?_); exact rfl)
    | with_reducible refine joaRespond_keeps ?_ ?_
    | with_reducible refine subFinish_keeps ?_ ?_
    | split
    | intro _
    | dsimp only

theorem segStored_keeps {x0 : Nat} {x1 : Nat} {x2 : Nat} (hw : Within [.joa] w) (h : Keeps w s t) :
    Keeps w s (segStored x0 x1 x2 t) := by
  unfold segStored
  repeat' first
    | with_reducible assumption
    | ((with_reducible refine Within.sub hw ?_); exact rfl)
    | with_reducible refine itemEnd_keeps ?_ ?_
    | split
    | intro _
    | dsimp only
    | with_reducible refine Keeps.set_joa ?_ ?_

theorem segServe_keeps (hw : Within [.joa, .block 30] w) (h : Keeps w s t) :
    Keeps w s (segServe t) := by
  unfold segServe
  repeat' first
    | with_reducible assumption
    | ((with_reducible refine Within.sub hw ?_); exact rfl)
    | with_reducible refine Keeps.forAll ?_ ?_
    | with_reducible refine Keeps.putFlag ?_ ?_
    | with_reducible refine segStored_keeps ?_ ?_
    | split
    | intro _
    | dsimp only

theorem runServe_keeps (hw : Within [.gran, .joa] w) (h : Keeps w s t) :
    Keeps w s (runServe t) := by
  unfold runServe
  repeat' first
    | with_reducible assumption
    | ((with_reducible refine Within.sub hw ?_); exact rfl)
    | with_reducible refine Keeps.forAll ?_ ?_
    | with_reducible refine itemEnd_keeps ?_ ?_
    | with_reducible refine persistVar_keeps ?_ ?_
    | split
    | intro _
    | dsimp only

theorem waitServe_keeps (hw : Within [.analog, .capture, .collie, .evlog, .exec, .farm, .field, .free, .gens, .glean, .gran, .group, .head, .img, .injected, .inputs, .island, .joa, .latch, .mem, .motion, .newImage, .ptp, .quals, .readData, .regs, .resets, .sec, .stage, .txn, .block 0, .block 1, .block 2, .block 3, .block 4, .block 5, .block 6, .block 7, .block 8, .block 9, .block 10, .block 11, .block 12, .block 13, .block 14, .block 15, .block 16, .block 17, .block 18, .block 19, .block 20, .block 21, .block 22, .block 23, .block 24, .block 25, .block 26, .block 27, .block 28, .block 29, .block 31, .block 32] w) (h : Keeps w s t) :
    Keeps w s (waitServe t) := by
  unfold waitServe
  repeat' first
    | with_reducible assumption
    | ((with_reducible refine Within.sub hw ?_); exact rfl)
    | with_reducible refine Keeps.setReg_any ?_ ?_
    | with_reducible refine Keeps.forAll ?_ ?_
    | with_reducible refine joaHeadland_keeps ?_ ?_
    | with_reducible refine joaTry_keeps ?_ ?_
    | split
    | intro _
    | dsimp only

theorem answerServe_keeps (hw : Within [.joa] w) (h : Keeps w s t) :
    Keeps w s (answerServe t) := by
  unfold answerServe
  repeat' first
    | with_reducible assumption
    | ((with_reducible refine Within.sub hw ?_); exact rfl)
    | with_reducible refine Keeps.forAll ?_ ?_
    | with_reducible refine joaFinish_keeps ?_ ?_
    | split
    | intro _
    | dsimp only

theorem joaServe_keeps (hw : Within [.analog, .capture, .collie, .evlog, .exec, .farm, .field, .free, .gens, .glean, .gran, .group, .head, .img, .injected, .inputs, .island, .joa, .latch, .mem, .motion, .newImage, .ptp, .quals, .readData, .regs, .resets, .sec, .stage, .txn, .block 0, .block 1, .block 2, .block 3, .block 4, .block 5, .block 6, .block 7, .block 8, .block 9, .block 10, .block 11, .block 12, .block 13, .block 14, .block 15, .block 16, .block 17, .block 18, .block 19, .block 20, .block 21, .block 22, .block 23, .block 24, .block 25, .block 26, .block 27, .block 28, .block 29, .block 30, .block 31, .block 32] w) (h : Keeps w s t) :
    Keeps w s (joaServe t) := by
  unfold joaServe
  repeat' first
    | with_reducible assumption
    | ((with_reducible refine Within.sub hw ?_); exact rfl)
    | with_reducible refine Keeps.setReg_any ?_ ?_
    | with_reducible refine Keeps.forAll ?_ ?_
    | with_reducible refine answerServe_keeps ?_ ?_
    | with_reducible refine joaGroups_keeps ?_ ?_
    | with_reducible refine proxyStart_keeps ?_ ?_
    | with_reducible refine runServe_keeps ?_ ?_
    | with_reducible refine segServe_keeps ?_ ?_
    | with_reducible refine waitServe_keeps ?_ ?_
    | split
    | intro _
    | dsimp only

theorem joaServed_keeps {x0 : Nat} {x1 : Nat} {x2 : Nat} {x3 : List JoaItem} {x4 : State → State} (hx4 : ∀ u, Keeps w s u → Keeps w s (x4 u)) (hw : Within [.analog, .capture, .collie, .evlog, .exec, .farm, .field, .free, .gens, .glean, .gran, .group, .head, .img, .injected, .inputs, .island, .joa, .latch, .mem, .motion, .newImage, .ptp, .quals, .readData, .regs, .resets, .sec, .stage, .txn, .block 0, .block 1, .block 2, .block 3, .block 4, .block 5, .block 6, .block 7, .block 8, .block 9, .block 10, .block 11, .block 12, .block 13, .block 14, .block 15, .block 16, .block 17, .block 18, .block 19, .block 20, .block 21, .block 22, .block 23, .block 24, .block 25, .block 26, .block 27, .block 28, .block 29, .block 30, .block 31, .block 32] w) (h : Keeps w s t) :
    Keeps w s (joaServed x0 x1 x2 x3 x4 t) := by
  unfold joaServed
  repeat' first
    | with_reducible assumption
    | ((with_reducible refine Within.sub hw ?_); exact rfl)
    | with_reducible refine Keeps.setReg_any ?_ ?_
    | with_reducible refine joaAnswer_keeps ?_ ?_
    | with_reducible refine joaRequest_keeps ?_ ?_ ?_
    | with_reducible refine joaServe_keeps ?_ ?_
    | with_reducible refine hx4 _ ?_
    | split
    | intro _
    | dsimp only

theorem joaItems_keeps {x0 : Nat} {x1 : Nat} {x2 : Nat} {x3 : Nat} {x4 : Nat} {x5 : Bool} {x6 : List JoaItem} (hw : Within [.analog, .capture, .collie, .evlog, .exec, .farm, .field, .free, .gens, .glean, .gran, .group, .head, .img, .injected, .inputs, .island, .joa, .latch, .mem, .motion, .newImage, .ptp, .quals, .readData, .regs, .resets, .sec, .stage, .txn, .block 0, .block 1, .block 2, .block 3, .block 4, .block 5, .block 6, .block 7, .block 8, .block 9, .block 10, .block 11, .block 12, .block 13, .block 14, .block 15, .block 16, .block 17, .block 18, .block 19, .block 20, .block 21, .block 22, .block 23, .block 24, .block 25, .block 26, .block 27, .block 28, .block 29, .block 30, .block 31, .block 32] w) (h : Keeps w s t) :
    Keeps w s (joaItems x0 x1 x2 x3 x4 x5 x6 t) := by
  unfold joaItems
  repeat' first
    | with_reducible assumption
    | ((with_reducible refine Within.sub hw ?_); exact rfl)
    | with_reducible refine Keeps.setReg_any ?_ ?_
    | with_reducible refine Keeps.forAll ?_ ?_
    | with_reducible refine joaAnswer_keeps ?_ ?_
    | with_reducible refine joaPend_keeps ?_ ?_
    | with_reducible refine joaServed_keeps ?_ ?_ ?_
    | with_reducible refine joaTry_keeps ?_ ?_
    | split
    | intro _
    | dsimp only
    | with_reducible refine Keeps.set_joa ?_ ?_

theorem groupAdd_keeps {x0 : Nat} {x1 : Nat} {x2 : WriteItem} (hw : Within [.txn] w) (h : Keeps w s t) :
    Keeps w s (groupAdd x0 x1 x2 t) := by
  unfold groupAdd
  repeat' first
    | with_reducible assumption
    | ((with_reducible refine Within.sub hw ?_); exact rfl)
    | with_reducible refine State.modTx_keeps ?_ ?_
    | with_reducible refine txAddWire_keeps ?_ ?_
    | split
    | intro _
    | dsimp only

theorem groupAdds_keeps {x0 : Nat} {x1 : Nat} {x2 : Nat} {x3 : List WriteItem} (hw : Within [.txn] w) (h : Keeps w s t) :
    Keeps w s (groupAdds x0 x1 x2 x3 t).2 := by
  induction x3 generalizing t x2 with
  | nil => exact h
  | cons b l ih =>
  unfold groupAdds
  repeat' first
    | with_reducible refine ih ?_
    | with_reducible assumption
    | ((with_reducible refine Within.sub hw ?_); exact rfl)
    | with_reducible refine groupAdd_keeps ?_ ?_
    | split
    | intro _
    | dsimp only

theorem groupAdds_keeps_eq {x0 : Nat} {x1 : Nat} {x2 : Nat} {x3 : List WriteItem} {y} {u : State}  (e : groupAdds x0 x1 x2 x3 t = (y, u)) (hw : Within [.txn] w) (h : Keeps w s t) : Keeps w s u := by
  have := groupAdds_keeps hw h (x0 := x0) (x1 := x1) (x2 := x2) (x3 := x3)
  rw [e] at this; exact this

theorem groupWrite_keeps {x0 : Nat} {x1 : Nat} {x2 : Nat} {x3 : List WriteItem} (hw : Within [.analog, .capture, .collie, .evlog, .exec, .farm, .field, .free, .gens, .glean, .gran, .group, .head, .img, .injected, .inputs, .island, .joa, .latch, .mem, .motion, .newImage, .ptp, .quals, .readData, .regs, .resets, .sec, .stage, .txn, .block 0, .block 1, .block 2, .block 3, .block 4, .block 5, .block 6, .block 7, .block 8, .block 9, .block 10, .block 11, .block 12, .block 13, .block 14, .block 15, .block 16, .block 17, .block 18, .block 19, .block 20, .block 21, .block 22, .block 23, .block 24, .block 25, .block 26, .block 27, .block 28, .block 29, .block 30, .block 31, .block 32] w) (h : Keeps w s t) :
    Keeps w s (groupWrite x0 x1 x2 x3 t) := by
  unfold groupWrite
  repeat' first
    | with_reducible assumption
    | ((with_reducible refine Within.sub hw ?_); exact rfl)
    | with_reducible refine Keeps.setReg_any ?_ ?_
    | with_reducible refine groupAdds_keeps ?_ ?_
    | with_reducible refine groupAdds_keeps_eq (by assumption) ?_ ?_
    | with_reducible refine joaAnswer_keeps ?_ ?_
    | with_reducible refine joaPend_keeps ?_ ?_
    | with_reducible refine joaServed_keeps ?_ ?_ ?_
    | with_reducible refine txSeal_keeps ?_ ?_
    | with_reducible refine txTake_keeps ?_ ?_
    | with_reducible refine txTake_keeps_eq (by assumption) ?_ ?_
    | split
    | intro _
    | dsimp only
    | with_reducible refine Keeps.set_joa ?_ ?_

theorem proxyValue_keeps {x0 : Nat} {x1 : Nat} {x2 : Nat} {x3 : Nat} {x4 : List Byte} (hw : Within [.joa] w) (h : Keeps w s t) :
    Keeps w s (proxyValue x0 x1 x2 x3 x4 t) := by
  unfold proxyValue
  repeat' first
    | with_reducible assumption
    | ((with_reducible refine Within.sub hw ?_); exact rfl)
    | with_reducible refine itemEnd_keeps ?_ ?_
    | with_reducible refine itemValue_keeps ?_ ?_
    | split
    | intro _
    | dsimp only

theorem proxyComplete_keeps {x0 : Nat} {x1 : ProxyEnd} (hw : Within [.analog, .capture, .collie, .evlog, .exec, .farm, .field, .free, .gens, .glean, .gran, .group, .head, .img, .injected, .inputs, .island, .joa, .latch, .mem, .motion, .newImage, .ptp, .quals, .readData, .regs, .resets, .sec, .stage, .txn, .block 0, .block 1, .block 2, .block 3, .block 4, .block 5, .block 6, .block 7, .block 8, .block 9, .block 10, .block 11, .block 12, .block 13, .block 14, .block 15, .block 16, .block 17, .block 18, .block 19, .block 20, .block 21, .block 22, .block 23, .block 24, .block 25, .block 26, .block 27, .block 28, .block 29, .block 30, .block 31, .block 32] w) (h : Keeps w s t) :
    Keeps w s (proxyComplete x0 x1 t) := by
  unfold proxyComplete
  repeat' first
    | with_reducible assumption
    | ((with_reducible refine Within.sub hw ?_); exact rfl)
    | with_reducible refine Keeps.setReg_any ?_ ?_
    | with_reducible refine State.setCan_keeps ?_ ?_
    | with_reducible refine Keeps.setReg ?_ ?_
    | with_reducible refine itemEnd_keeps ?_ ?_
    | with_reducible refine joaServe_keeps ?_ ?_
    | with_reducible refine proxyValue_keeps ?_ ?_
    | (simp only [R.CAN_p_SDO_BUSY_block]; (with_reducible refine Within.sub hw ?_); exact rfl)
    | split
    | intro _
    | dsimp only
    | with_reducible refine Keeps.set_joa ?_ ?_

theorem farmItem_keeps {x0 : Nat} {x1 : Nat} {x2 : Nat} {x3 : Nat} {x4 : Nat} {x5 : Nat} {x6 : Nat} {x7 : Bool} {x8 : List Byte} (hw : Within [.joa] w) (h : Keeps w s t) :
    Keeps w s (farmItem x0 x1 x2 x3 x4 x5 x6 x7 x8 t) := by
  unfold farmItem
  repeat' first
    | with_reducible assumption
    | ((with_reducible refine Within.sub hw ?_); exact rfl)
    | with_reducible refine itemEnd_keeps ?_ ?_
    | with_reducible refine itemValue_keeps ?_ ?_
    | with_reducible refine modItem_keeps ?_ ?_
    | split
    | intro _
    | dsimp only

theorem farmSample_keeps {x0 : Nat} {x1 : Nat} {x2 : Nat} {x3 : List Byte} (hw : Within [.joa] w) (h : Keeps w s t) :
    Keeps w s (farmSample x0 x1 x2 x3 t) := by
  unfold farmSample
  repeat' first
    | with_reducible assumption
    | ((with_reducible refine Within.sub hw ?_); exact rfl)
    | split
    | intro _
    | dsimp only
    | with_reducible refine Keeps.set_joa ?_ ?_

theorem farmAnswer_keeps {x0 : ForwardFor} {x1 : Nat} {x2 : Nat} {x3 : Nat} {x4 : Nat} {x5 : Bool} {x6 : List Byte} (hw : Within [.analog, .capture, .collie, .evlog, .exec, .farm, .field, .free, .gens, .glean, .gran, .group, .head, .img, .injected, .inputs, .island, .joa, .latch, .mem, .motion, .newImage, .ptp, .quals, .readData, .regs, .resets, .sec, .stage, .txn, .block 0, .block 1, .block 2, .block 3, .block 4, .block 5, .block 6, .block 7, .block 8, .block 9, .block 10, .block 11, .block 12, .block 13, .block 14, .block 15, .block 16, .block 17, .block 18, .block 19, .block 20, .block 21, .block 22, .block 23, .block 24, .block 25, .block 26, .block 27, .block 28, .block 29, .block 30, .block 31, .block 32] w) (h : Keeps w s t) :
    Keeps w s (farmAnswer x0 x1 x2 x3 x4 x5 x6 t) := by
  unfold farmAnswer
  repeat' first
    | with_reducible assumption
    | ((with_reducible refine Within.sub hw ?_); exact rfl)
    | with_reducible refine Keeps.setReg_any ?_ ?_
    | with_reducible refine farmItem_keeps ?_ ?_
    | with_reducible refine farmSample_keeps ?_ ?_
    | with_reducible refine joaServe_keeps ?_ ?_
    | split
    | intro _
    | dsimp only

end Sys2Proof.Machine
end

