-- ==== Sys2Proof/Laws/Keeps/JoaStream.lean ====
section
/-! SUPPORT. What the operations of Sys2Proof/Machine/JoaStream.lean leave unchanged. -/

set_option linter.all false
set_option Elab.async false

namespace Sys2Proof.Machine

variable {w : List Piece} {s t : State}

theorem segStart_keeps {x0 : Nat} {x1 : Nat} {x2 : Nat} {x3 : Nat} {x4 : Nat} (hw : Within [.analog, .capture, .collie, .evlog, .exec, .farm, .field, .free, .gens, .glean, .gran, .group, .head, .img, .injected, .inputs, .island, .joa, .latch, .mem, .motion, .newImage, .ptp, .quals, .readData, .regs, .resets, .sec, .slots, .stage, .txn, .block 0, .block 1, .block 2, .block 3, .block 4, .block 5, .block 6, .block 7, .block 8, .block 9, .block 10, .block 11, .block 12, .block 13, .block 14, .block 15, .block 16, .block 17, .block 18, .block 19, .block 20, .block 21, .block 22, .block 23, .block 24, .block 25, .block 26, .block 27, .block 28, .block 29, .block 30, .block 31, .block 32] w) (h : Keeps w s t) :
    Keeps w s (segStart x0 x1 x2 x3 x4 t) := by
  unfold segStart
  repeat' first
    | with_reducible assumption
    | ((with_reducible refine Within.sub hw ?_); exact rfl)
    | with_reducible refine Keeps.setReg_any ?_ ?_
    | with_reducible refine joaAnswer_keeps ?_ ?_
    | with_reducible refine joaServed_keeps ?_ ?_ ?_
    | with_reducible refine setImageResult_keeps ?_ ?_
    | split
    | intro _
    | dsimp only
    | with_reducible refine Keeps.set_slots_joa ?_ ?_

theorem segData_keeps {x0 : Nat} {x1 : Nat} {x2 : Nat} {x3 : Nat} {x4 : List Byte} (hw : Within [.analog, .capture, .collie, .evlog, .exec, .farm, .field, .free, .gens, .glean, .gran, .group, .head, .img, .injected, .inputs, .island, .joa, .latch, .mem, .motion, .newImage, .ptp, .quals, .readData, .regs, .resets, .sec, .stage, .txn, .block 0, .block 1, .block 2, .block 3, .block 4, .block 5, .block 6, .block 7, .block 8, .block 9, .block 10, .block 11, .block 12, .block 13, .block 14, .block 15, .block 16, .block 17, .block 18, .block 19, .block 20, .block 21, .block 22, .block 23, .block 24, .block 25, .block 26, .block 27, .block 28, .block 29, .block 30, .block 31, .block 32] w) (h : Keeps w s t) :
    Keeps w s (segData x0 x1 x2 x3 x4 t) := by
  unfold segData
  repeat' first
    | with_reducible assumption
    | ((with_reducible refine Within.sub hw ?_); exact rfl)
    | with_reducible refine Keeps.setReg_any ?_ ?_
    | with_reducible refine granWait_keeps ?_ ?_
    | with_reducible refine joaAnswer_keeps ?_ ?_
    | with_reducible refine joaPend_keeps ?_ ?_
    | with_reducible refine joaRespond_keeps ?_ ?_
    | with_reducible refine joaServed_keeps ?_ ?_ ?_
    | split
    | intro _
    | dsimp only
    | with_reducible refine Keeps.set_joa ?_ ?_

theorem xferEnd_keeps {x0 : Nat} {x1 : Nat} {x2 : Nat} (hw : Within [.analog, .capture, .collie, .evlog, .exec, .farm, .field, .free, .gens, .glean, .gran, .group, .head, .img, .injected, .inputs, .island, .joa, .latch, .mem, .motion, .newImage, .ptp, .quals, .readData, .regs, .resets, .sec, .stage, .txn, .block 0, .block 1, .block 2, .block 3, .block 4, .block 5, .block 6, .block 7, .block 8, .block 9, .block 10, .block 11, .block 12, .block 13, .block 14, .block 15, .block 16, .block 17, .block 18, .block 19, .block 20, .block 21, .block 22, .block 23, .block 24, .block 25, .block 26, .block 27, .block 28, .block 29, .block 30, .block 31, .block 32] w) (h : Keeps w s t) :
    Keeps w s (xferEnd x0 x1 x2 t) := by
  unfold xferEnd
  repeat' first
    | with_reducible assumption
    | ((with_reducible refine Within.sub hw ?_); exact rfl)
    | with_reducible refine Keeps.setReg_any ?_ ?_
    | with_reducible refine joaAnswer_keeps ?_ ?_
    | with_reducible refine joaServed_keeps ?_ ?_ ?_
    | split
    | intro _
    | dsimp only
    | with_reducible refine Keeps.set_joa ?_ ?_

theorem segAbort_keeps {x0 : Nat} {x1 : Nat} {x2 : Nat} (hw : Within [.analog, .capture, .collie, .evlog, .exec, .farm, .field, .free, .gens, .glean, .gran, .group, .head, .img, .injected, .inputs, .island, .joa, .latch, .mem, .motion, .newImage, .ptp, .quals, .readData, .regs, .resets, .sec, .stage, .txn, .block 0, .block 1, .block 2, .block 3, .block 4, .block 5, .block 6, .block 7, .block 8, .block 9, .block 10, .block 11, .block 12, .block 13, .block 14, .block 15, .block 16, .block 17, .block 18, .block 19, .block 20, .block 21, .block 22, .block 23, .block 24, .block 25, .block 26, .block 27, .block 28, .block 29, .block 30, .block 31, .block 32] w) (h : Keeps w s t) :
    Keeps w s (segAbort x0 x1 x2 t) := by
  unfold segAbort
  repeat' first
    | with_reducible assumption
    | ((with_reducible refine Within.sub hw ?_); exact rfl)
    | with_reducible refine Keeps.setReg_any ?_ ?_
    | with_reducible refine joaAnswer_keeps ?_ ?_
    | with_reducible refine joaServed_keeps ?_ ?_ ?_
    | with_reducible refine xferAbort_keeps ?_ ?_
    | split
    | intro _
    | dsimp only

theorem xferTimeout_keeps {x0 : Nat} (hw : Within [.analog, .capture, .collie, .evlog, .exec, .farm, .field, .free, .gens, .glean, .gran, .group, .head, .img, .injected, .inputs, .island, .joa, .latch, .mem, .motion, .newImage, .ptp, .quals, .raw, .readData, .regs, .resets, .sec, .stage, .txn, .block 0, .block 1, .block 2, .block 3, .block 4, .block 5, .block 6, .block 7, .block 8, .block 9, .block 10, .block 11, .block 12, .block 13, .block 14, .block 15, .block 16, .block 17, .block 18, .block 19, .block 20, .block 21, .block 22, .block 23, .block 24, .block 25, .block 26, .block 27, .block 28, .block 29, .block 30, .block 31, .block 32] w) (h : Keeps w s t) :
    Keeps w s (xferTimeout x0 t) := by
  unfold xferTimeout
  repeat' first
    | with_reducible assumption
    | ((with_reducible refine Within.sub hw ?_); exact rfl)
    | with_reducible refine Keeps.setReg_any ?_ ?_
    | with_reducible refine Keeps.advanceTo ?_ ?_
    | with_reducible refine joaServe_keeps ?_ ?_
    | with_reducible refine xferAbort_keeps ?_ ?_
    | split
    | intro _
    | dsimp only

theorem xspiDone_keeps {x0 : Bool} (hw : Within [.analog, .capture, .collie, .evlog, .exec, .farm, .field, .free, .gens, .glean, .gran, .group, .head, .img, .injected, .inputs, .island, .joa, .latch, .mem, .motion, .newImage, .ptp, .quals, .readData, .regs, .resets, .sec, .stage, .txn, .block 0, .block 1, .block 2, .block 3, .block 4, .block 5, .block 6, .block 7, .block 8, .block 9, .block 10, .block 11, .block 12, .block 13, .block 14, .block 15, .block 16, .block 17, .block 18, .block 19, .block 20, .block 21, .block 22, .block 23, .block 24, .block 25, .block 26, .block 27, .block 28, .block 29, .block 30, .block 31, .block 32] w) (h : Keeps w s t) :
    Keeps w s (xspiDone x0 t) := by
  unfold xspiDone
  repeat' first
    | with_reducible assumption
    | ((with_reducible refine Within.sub hw ?_); exact rfl)
    | with_reducible refine Keeps.setReg_any ?_ ?_
    | with_reducible refine Keeps.forAll ?_ ?_
    | with_reducible refine joaServe_keeps ?_ ?_
    | with_reducible refine segStored_keeps ?_ ?_
    | with_reducible refine xferAbort_keeps ?_ ?_
    | with_reducible refine xspiProgFail_keeps ?_ ?_
    | split
    | intro _
    | dsimp only

theorem modSub_keeps {x0 : Nat} {x1 : JoaSub → JoaSub} (hw : Within [.joa] w) (h : Keeps w s t) :
    Keeps w s (modSub x0 x1 t) := by
  unfold modSub
  repeat' first
    | with_reducible assumption
    | ((with_reducible refine Within.sub hw ?_); exact rfl)
    | split
    | intro _
    | dsimp only
    | with_reducible refine Keeps.set_joa ?_ ?_

theorem unsubscribe_keeps {x0 : Nat} {x1 : Nat} {x2 : Nat} (hw : Within [.analog, .capture, .collie, .evlog, .exec, .farm, .field, .free, .gens, .glean, .gran, .group, .head, .img, .injected, .inputs, .island, .joa, .latch, .mem, .motion, .newImage, .ptp, .quals, .readData, .regs, .resets, .sec, .stage, .txn, .block 0, .block 1, .block 2, .block 3, .block 4, .block 5, .block 6, .block 7, .block 8, .block 9, .block 10, .block 11, .block 12, .block 13, .block 14, .block 15, .block 16, .block 17, .block 18, .block 19, .block 20, .block 21, .block 22, .block 23, .block 24, .block 25, .block 26, .block 27, .block 28, .block 29, .block 30, .block 31, .block 32] w) (h : Keeps w s t) :
    Keeps w s (unsubscribe x0 x1 x2 t) := by
  unfold unsubscribe
  repeat' first
    | with_reducible assumption
    | ((with_reducible refine Within.sub hw ?_); exact rfl)
    | with_reducible refine Keeps.setReg_any ?_ ?_
    | with_reducible refine State.modSession_keeps ?_ ?_
    | with_reducible refine joaAnswer_keeps ?_ ?_
    | with_reducible refine joaServed_keeps ?_ ?_ ?_
    | split
    | intro _
    | dsimp only
    | with_reducible refine Keeps.set_joa ?_ ?_

theorem sampleItems_keeps {x0 : JoaSub} {x1 : List (Nat × Nat)} (hw : Within [.evlog, .free, .gran, .group, .joa, .latch, .readData, .regs, .sec, .block 0, .block 10, .block 27] w) (h : Keeps w s t) :
    Keeps w s (sampleItems x0 x1 t).2 := by
  induction x1 generalizing t with
  | nil => exact h
  | cons b l ih =>
  unfold sampleItems
  repeat' first
    | with_reducible refine ih ?_
    | with_reducible assumption
    | ((with_reducible refine Within.sub hw ?_); exact rfl)
    | with_reducible refine Keeps.setReg_any ?_ ?_
    | with_reducible refine entryPart_keeps ?_ ?_
    | with_reducible refine entryPart_keeps_eq (by assumption) ?_ ?_
    | split
    | intro _
    | dsimp only

theorem sampleItems_keeps_eq {x0 : JoaSub} {x1 : List (Nat × Nat)} {y} {u : State}  (e : sampleItems x0 x1 t = (y, u)) (hw : Within [.evlog, .free, .gran, .group, .joa, .latch, .readData, .regs, .sec, .block 0, .block 10, .block 27] w) (h : Keeps w s t) : Keeps w s u := by
  have := sampleItems_keeps hw h (x0 := x0) (x1 := x1)
  rw [e] at this; exact this

theorem sampleSub_keeps {x0 : Nat} (hw : Within [.evlog, .free, .gran, .group, .joa, .latch, .readData, .regs, .sec, .block 0, .block 10, .block 22, .block 27] w) (h : Keeps w s t) :
    Keeps w s (sampleSub x0 t) := by
  unfold sampleSub
  repeat' first
    | with_reducible assumption
    | ((with_reducible refine Within.sub hw ?_); exact rfl)
    | with_reducible refine Keeps.setReg_any ?_ ?_
    | with_reducible refine State.modSession_keeps ?_ ?_
    | with_reducible refine Keeps.raise ?_ ?_
    | with_reducible refine modSub_keeps ?_ ?_
    | with_reducible refine sampleItems_keeps ?_ ?_
    | with_reducible refine sampleItems_keeps_eq (by assumption) ?_ ?_
    | split
    | intro _
    | dsimp only

theorem subSample_keeps (hw : Within [.evlog, .free, .gran, .group, .joa, .latch, .raw, .readData, .regs, .sec, .block 0, .block 10, .block 22, .block 27] w) (h : Keeps w s t) :
    Keeps w s (subSample t) := by
  unfold subSample
  repeat' first
    | with_reducible assumption
    | ((with_reducible refine Within.sub hw ?_); exact rfl)
    | with_reducible refine Keeps.setReg_any ?_ ?_
    | with_reducible refine Keeps.advanceTo ?_ ?_
    | with_reducible refine Keeps.forAll ?_ ?_
    | with_reducible refine sampleSub_keeps ?_ ?_
    | split
    | intro _
    | dsimp only

theorem sendBody_keeps {x0 : Nat} {x1 : List Byte} (hw : Within [.joa, .block 20] w) (h : Keeps w s t) :
    Keeps w s (sendBody x0 x1 t) := by
  unfold sendBody
  repeat' first
    | with_reducible assumption
    | ((with_reducible refine Within.sub hw ?_); exact rfl)
    | with_reducible refine Keeps.incSat ?_ ?_
    | with_reducible refine State.modSession_keeps ?_ ?_
    | (simp only [R.UPLINK_p_TX_CNT_block]; (with_reducible refine Within.sub hw ?_); exact rfl)
    | split
    | intro _
    | dsimp only

theorem sendEvent_keeps {x0 : Nat} {x1 : JoaSub} (hw : Within [.joa, .block 20] w) (h : Keeps w s t) :
    Keeps w s (sendEvent x0 x1 t) := by
  unfold sendEvent
  repeat' first
    | with_reducible assumption
    | ((with_reducible refine Within.sub hw ?_); exact rfl)
    | with_reducible refine State.modSession_keeps ?_ ?_
    | with_reducible refine modSub_keeps ?_ ?_
    | with_reducible refine sendBody_keeps ?_ ?_
    | split
    | intro _
    | dsimp only

theorem sendLog_keeps {x0 : Nat} {x1 : JoaSub} (hw : Within [.joa, .block 20] w) (h : Keeps w s t) :
    Keeps w s (sendLog x0 x1 t) := by
  unfold sendLog
  repeat' first
    | with_reducible assumption
    | ((with_reducible refine Within.sub hw ?_); exact rfl)
    | with_reducible refine modSub_keeps ?_ ?_
    | with_reducible refine sendBody_keeps ?_ ?_
    | split
    | intro _
    | dsimp only

theorem logQueue_keeps (hw : Within [.joa] w) (h : Keeps w s t) :
    Keeps w s (logQueue t) := by
  unfold logQueue
  repeat' first
    | with_reducible assumption
    | ((with_reducible refine Within.sub hw ?_); exact rfl)
    | with_reducible refine Keeps.forAll ?_ ?_
    | with_reducible refine State.modSession_keeps ?_ ?_
    | with_reducible refine modSub_keeps ?_ ?_
    | split
    | intro _
    | dsimp only

theorem sendNext_keeps {x0 : Nat} (hw : Within [.joa, .block 20] w) (h : Keeps w s t) :
    Keeps w s (sendNext x0 t) := by
  unfold sendNext
  repeat' first
    | with_reducible assumption
    | ((with_reducible refine Within.sub hw ?_); exact rfl)
    | with_reducible refine State.modSession_keeps ?_ ?_
    | with_reducible refine sendBody_keeps ?_ ?_
    | with_reducible refine sendEvent_keeps ?_ ?_
    | with_reducible refine sendLog_keeps ?_ ?_
    | split
    | intro _
    | dsimp only

theorem joaTick_keeps (hw : Within [.analog, .capture, .collie, .evlog, .exec, .farm, .field, .free, .gens, .glean, .gran, .group, .head, .img, .injected, .inputs, .island, .joa, .latch, .mem, .motion, .newImage, .ptp, .quals, .readData, .regs, .resets, .sec, .stage, .txn, .block 0, .block 1, .block 2, .block 3, .block 4, .block 5, .block 6, .block 7, .block 8, .block 9, .block 10, .block 11, .block 12, .block 13, .block 14, .block 15, .block 16, .block 17, .block 18, .block 19, .block 20, .block 21, .block 22, .block 23, .block 24, .block 25, .block 26, .block 27, .block 28, .block 29, .block 30, .block 31, .block 32] w) (h : Keeps w s t) :
    Keeps w s (joaTick t) := by
  unfold joaTick
  repeat' first
    | with_reducible assumption
    | ((with_reducible refine Within.sub hw ?_); exact rfl)
    | with_reducible refine Keeps.setReg_any ?_ ?_
    | with_reducible refine Keeps.forAll ?_ ?_
    | with_reducible refine joaServe_keeps ?_ ?_
    | with_reducible refine logQueue_keeps ?_ ?_
    | with_reducible refine sendNext_keeps ?_ ?_
    | split
    | intro _
    | dsimp only

theorem streamOpen_keeps {x0 : Nat} {x1 : Nat} {x2 : Nat} (hw : Within [.analog, .capture, .collie, .evlog, .exec, .farm, .field, .free, .gens, .glean, .gran, .group, .head, .img, .injected, .inputs, .island, .joa, .latch, .mem, .motion, .newImage, .ptp, .quals, .readData, .regs, .resets, .sec, .stage, .txn, .block 0, .block 1, .block 2, .block 3, .block 4, .block 5, .block 6, .block 7, .block 8, .block 9, .block 10, .block 11, .block 12, .block 13, .block 14, .block 15, .block 16, .block 17, .block 18, .block 19, .block 20, .block 21, .block 22, .block 23, .block 24, .block 25, .block 26, .block 27, .block 28, .block 29, .block 30, .block 31, .block 32] w) (h : Keeps w s t) :
    Keeps w s (streamOpen x0 x1 x2 t) := by
  unfold streamOpen
  repeat' first
    | with_reducible assumption
    | ((with_reducible refine Within.sub hw ?_); exact rfl)
    | with_reducible refine Keeps.setReg_any ?_ ?_
    | with_reducible refine joaAnswer_keeps ?_ ?_
    | with_reducible refine joaServed_keeps ?_ ?_ ?_
    | split
    | intro _
    | dsimp only
    | with_reducible refine Keeps.set_glean ?_ ?_

theorem streamBlock_keeps (hw : Within [.glean, .joa] w) (h : Keeps w s t) :
    Keeps w s (streamBlock t) := by
  unfold streamBlock
  repeat' first
    | with_reducible assumption
    | ((with_reducible refine Within.sub hw ?_); exact rfl)
    | with_reducible refine State.modSession_keeps ?_ ?_
    | split
    | intro _
    | dsimp only
    | with_reducible refine Keeps.set_glean ?_ ?_

theorem streamAck_keeps {x0 : Nat} {x1 : Nat} {x2 : Nat} (hw : Within [.analog, .capture, .collie, .evlog, .exec, .farm, .field, .free, .gens, .glean, .gran, .group, .head, .img, .injected, .inputs, .island, .joa, .latch, .mem, .motion, .newImage, .ptp, .quals, .readData, .regs, .resets, .sec, .stage, .txn, .block 0, .block 1, .block 2, .block 3, .block 4, .block 5, .block 6, .block 7, .block 8, .block 9, .block 10, .block 11, .block 12, .block 13, .block 14, .block 15, .block 16, .block 17, .block 18, .block 19, .block 20, .block 21, .block 22, .block 23, .block 24, .block 25, .block 26, .block 27, .block 28, .block 29, .block 30, .block 31, .block 32] w) (h : Keeps w s t) :
    Keeps w s (streamAck x0 x1 x2 t) := by
  unfold streamAck
  repeat' first
    | with_reducible assumption
    | ((with_reducible refine Within.sub hw ?_); exact rfl)
    | with_reducible refine Keeps.setReg_any ?_ ?_
    | with_reducible refine gleanAck_keeps ?_ ?_
    | with_reducible refine joaAnswer_keeps ?_ ?_
    | with_reducible refine joaServed_keeps ?_ ?_ ?_
    | split
    | intro _
    | dsimp only

theorem streamClose_keeps {x0 : Nat} {x1 : Nat} (hw : Within [.analog, .capture, .collie, .evlog, .exec, .farm, .field, .free, .gens, .glean, .gran, .group, .head, .img, .injected, .inputs, .island, .joa, .latch, .mem, .motion, .newImage, .ptp, .quals, .readData, .regs, .resets, .sec, .stage, .txn, .block 0, .block 1, .block 2, .block 3, .block 4, .block 5, .block 6, .block 7, .block 8, .block 9, .block 10, .block 11, .block 12, .block 13, .block 14, .block 15, .block 16, .block 17, .block 18, .block 19, .block 20, .block 21, .block 22, .block 23, .block 24, .block 25, .block 26, .block 27, .block 28, .block 29, .block 30, .block 31, .block 32] w) (h : Keeps w s t) :
    Keeps w s (streamClose x0 x1 t) := by
  unfold streamClose
  repeat' first
    | with_reducible assumption
    | ((with_reducible refine Within.sub hw ?_); exact rfl)
    | with_reducible refine Keeps.setReg_any ?_ ?_
    | with_reducible refine joaAnswer_keeps ?_ ?_
    | with_reducible refine joaServed_keeps ?_ ?_ ?_
    | split
    | intro _
    | dsimp only
    | with_reducible refine Keeps.set_glean ?_ ?_

theorem streamResend_keeps (hw : Within [.evlog, .glean, .raw, .block 0, .block 22] w) (h : Keeps w s t) :
    Keeps w s (streamResend t) := by
  unfold streamResend
  repeat' first
    | with_reducible assumption
    | ((with_reducible refine Within.sub hw ?_); exact rfl)
    | with_reducible refine Keeps.advanceTo ?_ ?_
    | with_reducible refine Keeps.raise ?_ ?_
    | split
    | intro _
    | dsimp only
    | with_reducible refine Keeps.set_glean ?_ ?_

theorem joaMalformed_keeps (hw : Within [.block 22] w) (h : Keeps w s t) :
    Keeps w s (joaMalformed t) := by
  unfold joaMalformed
  repeat' first
    | with_reducible assumption
    | ((with_reducible refine Within.sub hw ?_); exact rfl)
    | with_reducible refine Keeps.incSat ?_ ?_
    | split
    | intro _
    | dsimp only

theorem joaAccept_keeps {x0 : Nat} {x1 : Nat} {x2 : Nat} (hw : Within [.joa, .block 22] w) (h : Keeps w s t) :
    Keeps w s (joaAccept x0 x1 x2 t) := by
  unfold joaAccept
  repeat' first
    | with_reducible assumption
    | ((with_reducible refine Within.sub hw ?_); exact rfl)
    | with_reducible refine Keeps.incSat ?_ ?_
    | with_reducible refine State.modSession_keeps ?_ ?_
    | (simp only [R.JOA_s_RX_CNT_block]; (with_reducible refine Within.sub hw ?_); exact rfl)
    | split
    | intro _
    | dsimp only

theorem joaSealed_keeps {x0 : HostAddr} {x1 : Nat} {x2 : Nat} {x3 : Nat} {x4 : Bool} {x5 : Nat} {x6 : Nat} (hw : Within [.evlog, .joa, .block 0, .block 22] w) (h : Keeps w s t) :
    Keeps w s (joaSealed x0 x1 x2 x3 x4 x5 x6 t) := by
  unfold joaSealed
  repeat' first
    | with_reducible assumption
    | ((with_reducible refine Within.sub hw ?_); exact rfl)
    | with_reducible refine Keeps.incSat ?_ ?_
    | with_reducible refine Keeps.raise ?_ ?_
    | with_reducible refine joaAccept_keeps ?_ ?_
    | with_reducible refine joaAnswer_keeps ?_ ?_
    | with_reducible refine joaMalformed_keeps ?_ ?_
    | with_reducible refine joaRequest_keeps ?_ ?_ ?_
    | split
    | intro _
    | dsimp only

theorem joaMessage_keeps {x0 : HostAddr} {x1 : Nat} {x2 : Bool} {x3 : Bool} {x4 : Nat} {x5 : Nat} {x6 : Bool} {x7 : Nat} {x8 : Nat} (hw : Within [.evlog, .joa, .block 0, .block 20, .block 22] w) (h : Keeps w s t) :
    Keeps w s (joaMessage x0 x1 x2 x3 x4 x5 x6 x7 x8 t) := by
  unfold joaMessage
  repeat' first
    | with_reducible assumption
    | ((with_reducible refine Within.sub hw ?_); exact rfl)
    | with_reducible refine clearAnswer_keeps ?_ ?_
    | with_reducible refine joaHeard_keeps ?_ ?_ ?_
    | with_reducible refine joaMalformed_keeps ?_ ?_
    | with_reducible refine joaSealed_keeps ?_ ?_
    | split
    | intro _
    | dsimp only

theorem ping_keeps {x0 : Nat} {x1 : Nat} (hw : Within [.analog, .capture, .collie, .evlog, .exec, .farm, .field, .free, .gens, .glean, .gran, .group, .head, .img, .injected, .inputs, .island, .joa, .latch, .mem, .motion, .newImage, .ptp, .quals, .readData, .regs, .resets, .sec, .stage, .txn, .block 0, .block 1, .block 2, .block 3, .block 4, .block 5, .block 6, .block 7, .block 8, .block 9, .block 10, .block 11, .block 12, .block 13, .block 14, .block 15, .block 16, .block 17, .block 18, .block 19, .block 20, .block 21, .block 22, .block 23, .block 24, .block 25, .block 26, .block 27, .block 28, .block 29, .block 30, .block 31, .block 32] w) (h : Keeps w s t) :
    Keeps w s (ping x0 x1 t) := by
  unfold ping
  repeat' first
    | with_reducible assumption
    | ((with_reducible refine Within.sub hw ?_); exact rfl)
    | with_reducible refine Keeps.setReg_any ?_ ?_
    | with_reducible refine State.modSession_keeps ?_ ?_
    | with_reducible refine joaAnswer_keeps ?_ ?_
    | with_reducible refine joaServed_keeps ?_ ?_ ?_
    | split
    | intro _
    | dsimp only

theorem closeSession_keeps {x0 : Nat} {x1 : Nat} (hw : Within [.analog, .capture, .collie, .evlog, .exec, .farm, .field, .free, .gens, .glean, .gran, .group, .head, .img, .injected, .inputs, .island, .joa, .latch, .mem, .motion, .newImage, .ptp, .quals, .readData, .regs, .resets, .sec, .stage, .txn, .block 0, .block 1, .block 2, .block 3, .block 4, .block 5, .block 6, .block 7, .block 8, .block 9, .block 10, .block 11, .block 12, .block 13, .block 14, .block 15, .block 16, .block 17, .block 18, .block 19, .block 20, .block 21, .block 22, .block 23, .block 24, .block 25, .block 26, .block 27, .block 28, .block 29, .block 30, .block 31, .block 32] w) (h : Keeps w s t) :
    Keeps w s (closeSession x0 x1 t) := by
  unfold closeSession
  repeat' first
    | with_reducible assumption
    | ((with_reducible refine Within.sub hw ?_); exact rfl)
    | with_reducible refine State.modSession_keeps ?_ ?_
    | with_reducible refine endSession_keeps ?_ ?_
    | with_reducible refine joaServed_keeps ?_ ?_ ?_
    | with_reducible refine sendBody_keeps ?_ ?_
    | split
    | intro _
    | dsimp only

theorem sessionIdle_keeps {x0 : Nat} (hw : Within [.analog, .capture, .collie, .evlog, .exec, .farm, .field, .free, .gens, .glean, .gran, .group, .head, .img, .injected, .inputs, .island, .joa, .latch, .mem, .motion, .newImage, .ptp, .quals, .raw, .readData, .regs, .resets, .sec, .stage, .txn, .block 0, .block 1, .block 2, .block 3, .block 4, .block 5, .block 6, .block 7, .block 8, .block 9, .block 10, .block 11, .block 12, .block 13, .block 14, .block 15, .block 16, .block 17, .block 18, .block 19, .block 20, .block 21, .block 22, .block 23, .block 24, .block 25, .block 26, .block 27, .block 28, .block 29, .block 30, .block 31, .block 32] w) (h : Keeps w s t) :
    Keeps w s (sessionIdle x0 t) := by
  unfold sessionIdle
  repeat' first
    | with_reducible assumption
    | ((with_reducible refine Within.sub hw ?_); exact rfl)
    | with_reducible refine Keeps.setReg_any ?_ ?_
    | with_reducible refine Keeps.advanceTo ?_ ?_
    | with_reducible refine endSession_keeps ?_ ?_
    | with_reducible refine joaServe_keeps ?_ ?_
    | split
    | intro _
    | dsimp only

theorem gleanSignal_keeps {x0 : Nat} (hw : Within [.evlog, .glean, .mem, .block 0, .block 13] w) (h : Keeps w s t) :
    Keeps w s (gleanSignal x0 t) := by
  unfold gleanSignal
  repeat' first
    | with_reducible assumption
    | ((with_reducible refine Within.sub hw ?_); exact rfl)
    | with_reducible refine gleanRecord_keeps ?_ ?_
    | with_reducible refine gleanValue_keeps ?_ ?_
    | split
    | intro _
    | dsimp only

theorem gleanSample_keeps (hw : Within [.evlog, .glean, .head, .mem, .raw, .block 0, .block 13] w) (h : Keeps w s t) :
    Keeps w s (gleanSample t) := by
  unfold gleanSample
  repeat' first
    | with_reducible assumption
    | ((with_reducible refine Within.sub hw ?_); exact rfl)
    | with_reducible refine Keeps.advanceTo ?_ ?_
    | with_reducible refine Keeps.forAll ?_ ?_
    | with_reducible refine gleanSignal_keeps ?_ ?_
    | split
    | intro _
    | dsimp only
    | with_reducible refine Keeps.set_head ?_ ?_

end Sys2Proof.Machine
end

