-- ==== Sys2Proof/Laws/Keeps/Reset.lean ====
section
/-! SUPPORT. What the operations of Sys2Proof/Machine/Reset.lean leave unchanged. -/

set_option linter.all false
set_option Elab.async false

namespace Sys2Proof.Machine

variable {w : List Piece} {s t : State}

theorem sessionsReset_keeps {r : State} (hw : Within [.block 22] w) (h : Keeps w s t) :
    Keeps w s (sessionsReset r t) := by
  unfold sessionsReset
  repeat' first
    | with_reducible assumption
    | ((with_reducible refine Within.sub hw ?_); exact rfl)
    | with_reducible refine Keeps.forAll ?_ ?_
    | with_reducible refine Keeps.setReg ?_ ?_
    | (simp only [R.JOA_s_INFO_block]; (with_reducible refine Within.sub hw ?_); exact rfl)
    | split
    | intro _
    | dsimp only

theorem coldState_keeps {x0 : Nat × Nat} (hw : Within [.ages, .analog, .capture, .collie, .evlog, .exec, .farm, .field, .gens, .glean, .gran, .group, .head, .image, .img, .injected, .inputs, .island, .joa, .latch, .mem, .motion, .newImage, .oldImage, .ptp, .pulses, .quals, .raw, .readData, .resets, .sec, .stage, .txn, .regs, .block 1, .block 23, .block 26, .block 27] w)
    (h : Keeps w s t) : Keeps w s (coldState x0 t) := by
  have hr : Piece.regs ∈ w := hw.mem (by simp)
  have key : ∀ u : State, u.pending = t.pending → u.free = t.free → u.slots = t.slots → Keeps w s u := fun u h1 h2 h3 =>
    { pending := fun n => h1.trans (h.pending n), free := fun n => h2.trans (h.free n), slots := fun n => h3.trans (h.slots n)
      regs := fun _ n => absurd hr n
      raw := fun n => absurd (hw.mem (by simp)) n
      head := fun n => absurd (hw.mem (by simp)) n
      evlog := fun n => absurd (hw.mem (by simp)) n
      readData := fun n => absurd (hw.mem (by simp)) n
      latch := fun n => absurd (hw.mem (by simp)) n
      group := fun n => absurd (hw.mem (by simp)) n
      stage := fun n => absurd (hw.mem (by simp)) n
      gens := fun n => absurd (hw.mem (by simp)) n
      injected := fun n => absurd (hw.mem (by simp)) n
      image := fun n => absurd (hw.mem (by simp)) n
      oldImage := fun n => absurd (hw.mem (by simp)) n
      newImage := fun n => absurd (hw.mem (by simp)) n
      collie := fun n => absurd (hw.mem (by simp)) n
      txn := fun n => absurd (hw.mem (by simp)) n
      exec := fun n => absurd (hw.mem (by simp)) n
      img := fun n => absurd (hw.mem (by simp)) n
      inputs := fun n => absurd (hw.mem (by simp)) n
      quals := fun n => absurd (hw.mem (by simp)) n
      ages := fun n => absurd (hw.mem (by simp)) n
      pulses := fun n => absurd (hw.mem (by simp)) n
      field := fun n => absurd (hw.mem (by simp)) n
      motion := fun n => absurd (hw.mem (by simp)) n
      analog := fun n => absurd (hw.mem (by simp)) n
      mem := fun n => absurd (hw.mem (by simp)) n
      capture := fun n => absurd (hw.mem (by simp)) n
      glean := fun n => absurd (hw.mem (by simp)) n
      gran := fun n => absurd (hw.mem (by simp)) n
      ptp := fun n => absurd (hw.mem (by simp)) n
      farm := fun n => absurd (hw.mem (by simp)) n
      island := fun n => absurd (hw.mem (by simp)) n
      resets := fun n => absurd (hw.mem (by simp)) n
      joa := fun n => absurd (hw.mem (by simp)) n
      sec := fun n => absurd (hw.mem (by simp)) n }
  unfold coldState
  apply key <;> (dsimp only; split <;> rfl)

theorem powerOn_keeps {x0 : Bool} {x1 : Nat} {x2 : Bool} (hw : Within [.ages, .analog, .capture, .collie, .evlog, .exec, .farm, .field, .gens, .glean, .gran, .group, .head, .image, .img, .injected, .inputs, .island, .joa, .latch, .mem, .motion, .newImage, .oldImage, .ptp, .pulses, .quals, .raw, .readData, .regs, .resets, .sec, .stage, .txn, .block 0, .block 1, .block 23, .block 26, .block 27] w) (h : Keeps w s t) :
    Keeps w s (powerOn x0 x1 x2 t) := by
  unfold powerOn
  repeat' first
    | with_reducible assumption
    | ((with_reducible refine Within.sub hw ?_); exact rfl)
    | with_reducible refine Keeps.putFlag ?_ ?_
    | with_reducible refine Keeps.setReg ?_ ?_
    | with_reducible refine coldState_keeps ?_ ?_
    | split
    | intro _
    | dsimp only

theorem porstAssert_keeps (hw : Within [.ages, .analog, .capture, .collie, .evlog, .exec, .farm, .field, .gens, .glean, .gran, .group, .head, .image, .img, .injected, .inputs, .island, .joa, .latch, .mem, .motion, .newImage, .oldImage, .ptp, .pulses, .quals, .raw, .readData, .regs, .resets, .sec, .stage, .txn, .block 1, .block 23, .block 26, .block 27] w) (h : Keeps w s t) :
    Keeps w s (porstAssert t) := by
  unfold porstAssert
  repeat' first
    | with_reducible assumption
    | ((with_reducible refine Within.sub hw ?_); exact rfl)
    | with_reducible refine State.modResets_keeps ?_ ?_
    | with_reducible refine coldState_keeps ?_ ?_
    | split
    | intro _
    | dsimp only

theorem fwStart_keeps {x0 : Quad} (hw : Within [.evlog, .gran, .island, .resets, .block 0, .block 1, .block 27] w) (h : Keeps w s t) :
    Keeps w s (fwStart x0 t) := by
  unfold fwStart
  repeat' first
    | with_reducible assumption
    | ((with_reducible refine Within.sub hw ?_); exact rfl)
    | with_reducible refine State.modIsland_keeps ?_ ?_
    | with_reducible refine State.modResets_keeps ?_ ?_
    | with_reducible refine Keeps.put ?_ ?_
    | with_reducible refine Keeps.putFlag ?_ ?_
    | with_reducible refine Keeps.raiseIf ?_ ?_
    | with_reducible refine Keeps.setReg ?_ ?_
    | with_reducible refine bootRecord_keeps ?_ ?_
    | split
    | intro _
    | dsimp only

theorem secWinSetting_keeps {x0 : Nat} {x1 : Word} (hw : Within [.block 24] w) (h : Keeps w s t) :
    Keeps w s (secWinSetting x0 x1 t) := by
  unfold secWinSetting
  repeat' first
    | with_reducible assumption
    | ((with_reducible refine Within.sub hw ?_); exact rfl)
    | with_reducible refine Keeps.put ?_ ?_
    | (simp only [R.MEM_k_CFG_block]; (with_reducible refine Within.sub hw ?_); exact rfl)
    | split
    | intro _
    | dsimp only

theorem imageSetting_keeps {x0 : Nat × Word} (hw : Within [.analog, .capture, .collie, .evlog, .exec, .farm, .field, .free, .gens, .glean, .gran, .group, .head, .img, .injected, .inputs, .island, .joa, .latch, .mem, .motion, .newImage, .ptp, .quals, .regs, .resets, .sec, .stage, .txn, .block 0, .block 1, .block 2, .block 3, .block 4, .block 5, .block 6, .block 7, .block 8, .block 9, .block 10, .block 11, .block 12, .block 13, .block 14, .block 15, .block 16, .block 17, .block 18, .block 19, .block 20, .block 21, .block 22, .block 23, .block 24, .block 25, .block 26, .block 27, .block 28, .block 29, .block 31, .block 32] w) (h : Keeps w s t) :
    Keeps w s (imageSetting x0 t) := by
  unfold imageSetting
  repeat' first
    | with_reducible assumption
    | ((with_reducible refine Within.sub hw ?_); exact rfl)
    | with_reducible refine Keeps.setReg_any ?_ ?_
    | with_reducible refine Keeps.setReg ?_ ?_
    | with_reducible refine regWrite_keeps ?_ ?_
    | with_reducible refine secWinSetting_keeps ?_ ?_
    | (simp only [R.MEM_k_CFG_block]; (with_reducible refine Within.sub hw ?_); exact rfl)
    | split
    | intro _
    | dsimp only

theorem imagePorts_keeps (hw : Within [.block 16, .block 17] w) (h : Keeps w s t) :
    Keeps w s (imagePorts t) := by
  unfold imagePorts
  repeat' first
    | with_reducible assumption
    | ((with_reducible refine Within.sub hw ?_); exact rfl)
    | with_reducible refine Keeps.forAll ?_ ?_
    | with_reducible refine Keeps.setReg ?_ ?_
    | (simp only [R.FIELD_p_MAC_HI_block, R.FIELD_p_MAC_LO_block, R.GPIO_i_CFG_block]; (with_reducible refine Within.sub hw ?_); exact rfl)
    | split
    | intro _
    | dsimp only

theorem imageFarm_keeps (hw : Within [.block 28] w) (h : Keeps w s t) :
    Keeps w s (imageFarm t) := by
  unfold imageFarm
  repeat' first
    | with_reducible assumption
    | ((with_reducible refine Within.sub hw ?_); exact rfl)
    | with_reducible refine Keeps.setReg ?_ ?_
    | split
    | intro _
    | dsimp only

theorem imageTwin_keeps (hw : Within [.evlog, .block 0, .block 28] w) (h : Keeps w s t) :
    Keeps w s (imageTwin t) := by
  unfold imageTwin
  repeat' first
    | with_reducible assumption
    | ((with_reducible refine Within.sub hw ?_); exact rfl)
    | with_reducible refine Keeps.raise ?_ ?_
    | with_reducible refine Keeps.setReg ?_ ?_
    | with_reducible refine setTwin_keeps ?_ ?_
    | (simp only [R.AXIS_n_CTRL_block]; (with_reducible refine Within.sub hw ?_); exact rfl)
    | split
    | intro _
    | dsimp only

theorem seedOutputs_keeps (hw : Within [.evlog, .img, .block 0, .block 11] w) (h : Keeps w s t) :
    Keeps w s (seedOutputs t) := by
  unfold seedOutputs
  repeat' first
    | with_reducible assumption
    | ((with_reducible refine Within.sub hw ?_); exact rfl)
    | with_reducible refine Keeps.foldl ?_ ?_
    | with_reducible refine Keeps.forAll ?_ ?_
    | with_reducible refine Keeps.setReg ?_ ?_
    | with_reducible refine dacClamp_keeps ?_ ?_
    | (simp only [R.DAC_n_CODE_block]; (with_reducible refine Within.sub hw ?_); exact rfl)
    | split
    | intro _
    | dsimp only
    | with_reducible refine Keeps.set_img ?_ ?_

theorem configCheck_keeps {x0 : Nat} {x1 : ConfigBody} {u : State} (e : configCheck x0 x1 t = .inr u)
 (hw : Within [.analog, .capture, .collie, .evlog, .exec, .farm, .field, .free, .gens, .glean, .gran, .group, .head, .image, .img, .injected, .inputs, .island, .joa, .latch, .mem, .motion, .newImage, .ptp, .quals, .regs, .resets, .sec, .stage, .txn, .block 0, .block 1, .block 2, .block 3, .block 4, .block 5, .block 6, .block 7, .block 8, .block 9, .block 10, .block 11, .block 12, .block 13, .block 14, .block 15, .block 16, .block 17, .block 18, .block 19, .block 20, .block 21, .block 22, .block 23, .block 24, .block 25, .block 26, .block 27, .block 28, .block 29, .block 31, .block 32] w) (h : Keeps w s t) : Keeps w s u := by
  unfold configCheck at e
  extract_lets s1 at e
  have h1 : Keeps w s s1 := h.forAll fun _ _ hu => imageSetting_keeps (hw.sub rfl) hu
  clear_value s1
  split at e
  · cases e
  · extract_lets im farm at e
    split at e
    · cases e
    · split at e
      · cases e
      · split at e
        · cases e
          exact (h1.set_image (hw.sub rfl)).setReg_any (hw.sub rfl)
        · cases e

theorem configTry_keeps {x0 : Nat} {u : State}  (e : configTry x0 t = .inr u) (hw : Within [.analog, .capture, .collie, .evlog, .exec, .farm, .field, .free, .gens, .glean, .gran, .group, .head, .image, .img, .injected, .inputs, .island, .joa, .latch, .mem, .motion, .newImage, .ptp, .quals, .regs, .resets, .sec, .stage, .txn, .block 0, .block 1, .block 2, .block 3, .block 4, .block 5, .block 6, .block 7, .block 8, .block 9, .block 10, .block 11, .block 12, .block 13, .block 14, .block 15, .block 16, .block 17, .block 18, .block 19, .block 20, .block 21, .block 22, .block 23, .block 24, .block 25, .block 26, .block 27, .block 28, .block 29, .block 31, .block 32] w) (h : Keeps w s t) :
    Keeps w s u := by
  unfold configTry at e
  try dsimp only at e
  repeat' split at e
  all_goals try cases e
  all_goals repeat' first
    | with_reducible assumption
    | ((with_reducible refine Within.sub hw ?_); exact rfl)
    | with_reducible refine Keeps.setReg_any ?_ ?_
    | with_reducible refine State.modResets_keeps ?_ ?_
    | with_reducible refine configCheck_keeps (by assumption) ?_ ?_
    | with_reducible refine headCtrlWrite_keeps ?_ ?_
    | with_reducible refine imageFarm_keeps ?_ ?_
    | with_reducible refine imagePorts_keeps ?_ ?_
    | with_reducible refine imageTwin_keeps ?_ ?_
    | with_reducible refine loadSignals_keeps ?_ ?_
    | with_reducible refine loadTaskCtrl_keeps ?_ ?_
    | with_reducible refine networkStart_keeps ?_ ?_
    | with_reducible refine setPending_keeps ?_ ?_
    | split
    | intro _
    | dsimp only
    | with_reducible refine Keeps.set_image ?_ ?_
    | (rename_i e; split at e)
    | (rename_i e; injection e with e; subst e)
    | contradiction

theorem noteRefusal_keeps {x0 : Option LoadRefusal} (hw : Within [.evlog, .exec, .block 0, .block 17] w) (h : Keeps w s t) :
    Keeps w s (noteRefusal x0 t) := by
  unfold noteRefusal
  repeat' first
    | with_reducible assumption
    | ((with_reducible refine Within.sub hw ?_); exact rfl)
    | with_reducible refine Keeps.raiseIf ?_ ?_
    | split
    | intro _
    | dsimp only
    | with_reducible refine Keeps.set_exec ?_ ?_

theorem configLoad_keeps (hw : Within [.analog, .capture, .collie, .evlog, .exec, .farm, .field, .free, .gens, .glean, .gran, .group, .head, .image, .img, .injected, .inputs, .island, .joa, .latch, .mem, .motion, .newImage, .ptp, .quals, .regs, .resets, .sec, .stage, .txn, .block 0, .block 1, .block 2, .block 3, .block 4, .block 5, .block 6, .block 7, .block 8, .block 9, .block 10, .block 11, .block 12, .block 13, .block 14, .block 15, .block 16, .block 17, .block 18, .block 19, .block 20, .block 21, .block 22, .block 23, .block 24, .block 25, .block 26, .block 27, .block 28, .block 29, .block 31, .block 32] w) (h : Keeps w s t) :
    Keeps w s (configLoad t) := by
  unfold configLoad
  repeat' first
    | with_reducible assumption
    | ((with_reducible refine Within.sub hw ?_); exact rfl)
    | with_reducible refine Keeps.setReg_any ?_ ?_
    | with_reducible refine State.modResets_keeps ?_ ?_
    | with_reducible refine configTry_keeps (by assumption) ?_ ?_
    | with_reducible refine noteRefusal_keeps ?_ ?_
    | split
    | intro _
    | dsimp only
    | with_reducible refine Keeps.set_image ?_ ?_

theorem startRestore_keeps (hw : Within [.collie, .block 6] w) (h : Keeps w s t) :
    Keeps w s (startRestore t) := by
  unfold startRestore
  repeat' first
    | with_reducible assumption
    | ((with_reducible refine Within.sub hw ?_); exact rfl)
    | with_reducible refine Keeps.foldl ?_ ?_
    | with_reducible refine Keeps.forAll ?_ ?_
    | with_reducible refine Keeps.put ?_ ?_
    | with_reducible refine Keeps.putFlag ?_ ?_
    | (simp only [R.EXEC_t_TASK_CTRL_block]; (with_reducible refine Within.sub hw ?_); exact rfl)
    | split
    | intro _
    | dsimp only
    | with_reducible refine Keeps.set_collie ?_ ?_

theorem granRecover_keeps (hw : Within [.evlog, .free, .resets, .block 0, .block 6, .block 26] w) (h : Keeps w s t) :
    Keeps w s (granRecover t) := by
  unfold granRecover
  repeat' first
    | with_reducible assumption
    | ((with_reducible refine Within.sub hw ?_); exact rfl)
    | with_reducible refine Keeps.put ?_ ?_
    | with_reducible refine Keeps.raise ?_ ?_
    | with_reducible refine Keeps.raiseIf ?_ ?_
    | with_reducible refine Keeps.setReg ?_ ?_
    | with_reducible refine Keeps.setReg64 ?_ ?_
    | with_reducible refine State.modResets_keeps ?_ ?_
    | split
    | intro _
    | dsimp only
    | with_reducible refine Keeps.set_free ?_ ?_

theorem gleanRecover_keeps (hw : Within [.evlog, .glean, .gran, .block 0, .block 13] w) (h : Keeps w s t) :
    Keeps w s (gleanRecover t) := by
  unfold gleanRecover
  repeat' first
    | with_reducible assumption
    | ((with_reducible refine Within.sub hw ?_); exact rfl)
    | with_reducible refine Keeps.raise ?_ ?_
    | with_reducible refine Keeps.setReg ?_ ?_
    | split
    | intro _
    | dsimp only
    | with_reducible refine Keeps.set_glean_gran ?_ ?_

theorem flashStart_keeps {x0 : Nat} {x1 : Nat} {x2 : Nat} (hw : Within [.evlog, .block 0, .block 30] w) (h : Keeps w s t) :
    Keeps w s (flashStart x0 x1 x2 t) := by
  unfold flashStart
  repeat' first
    | with_reducible assumption
    | ((with_reducible refine Within.sub hw ?_); exact rfl)
    | with_reducible refine Keeps.put ?_ ?_
    | with_reducible refine Keeps.putFlag ?_ ?_
    | with_reducible refine Keeps.raiseIf ?_ ?_
    | with_reducible refine Keeps.setReg ?_ ?_
    | split
    | intro _
    | dsimp only

theorem secStart_keeps (hw : Within [.evlog, .gran, .sec, .block 0, .block 27] w) (h : Keeps w s t) :
    Keeps w s (secStart t) := by
  unfold secStart
  repeat' first
    | with_reducible assumption
    | ((with_reducible refine Within.sub hw ?_); exact rfl)
    | with_reducible refine Keeps.raiseIf ?_ ?_
    | with_reducible refine State.modSec_keeps ?_ ?_
    | with_reducible refine lmsReserve_keeps ?_ ?_
    | split
    | intro _
    | dsimp only

theorem otpLoad_keeps (hw : Within [.block 20, .block 21, .block 32] w) (h : Keeps w s t) :
    Keeps w s (otpLoad t) := by
  unfold otpLoad
  repeat' first
    | with_reducible assumption
    | ((with_reducible refine Within.sub hw ?_); exact rfl)
    | with_reducible refine Keeps.forAll ?_ ?_
    | with_reducible refine Keeps.setReg ?_ ?_
    | with_reducible refine Keeps.setReg64 ?_ ?_
    | (simp only [R.AU_n_CAL_GAIN_g_block, R.AU_n_CAL_OFS_g_block, R.UPLINK_p_MAC_HI_block, R.UPLINK_p_MAC_LO_block]; (with_reducible refine Within.sub hw ?_); exact rfl)
    | split
    | intro _
    | dsimp only

theorem repairLoad_keeps (hw : Within [.evlog, .gran, .block 0, .block 25] w) (h : Keeps w s t) :
    Keeps w s (repairLoad t) := by
  unfold repairLoad
  repeat' first
    | with_reducible assumption
    | ((with_reducible refine Within.sub hw ?_); exact rfl)
    | with_reducible refine Keeps.raiseIf ?_ ?_
    | split
    | intro _
    | dsimp only
    | with_reducible refine Keeps.set_gran ?_ ?_

theorem syncIgnored_keeps (hw : Within [.block 3] w) (h : Keeps w s t) :
    Keeps w s (syncIgnored t) := by
  unfold syncIgnored
  repeat' first
    | with_reducible assumption
    | ((with_reducible refine Within.sub hw ?_); exact rfl)
    | with_reducible refine Keeps.put ?_ ?_
    | split
    | intro _
    | dsimp only

theorem farmId_keeps (hw : Within [.block 28] w) (h : Keeps w s t) :
    Keeps w s (farmId t) := by
  unfold farmId
  repeat' first
    | with_reducible assumption
    | ((with_reducible refine Within.sub hw ?_); exact rfl)
    | with_reducible refine Keeps.put ?_ ?_
    | with_reducible refine Keeps.putFlag ?_ ?_
    | split
    | intro _
    | dsimp only

theorem lockStart_keeps {x0 : ColdFinds} (hw : Within [.evlog, .raw, .resets, .block 0, .block 1, .block 3, .block 6, .block 28] w) (h : Keeps w s t) :
    Keeps w s (lockStart x0 t) := by
  unfold lockStart
  repeat' first
    | with_reducible assumption
    | ((with_reducible refine Within.sub hw ?_); exact rfl)
    | with_reducible refine Keeps.put ?_ ?_
    | with_reducible refine Keeps.raiseIf ?_ ?_
    | with_reducible refine Keeps.setReg ?_ ?_
    | with_reducible refine State.modResets_keeps ?_ ?_
    | with_reducible refine farmId_keeps ?_ ?_
    | with_reducible refine syncIgnored_keeps ?_ ?_
    | split
    | intro _
    | dsimp only
    | with_reducible refine Keeps.set_raw ?_ ?_

theorem coldRun_keeps {x0 : ColdFinds} (hw : Within [.analog, .capture, .collie, .evlog, .exec, .farm, .field, .free, .gens, .glean, .gran, .group, .head, .image, .img, .injected, .inputs, .island, .joa, .latch, .mem, .motion, .newImage, .ptp, .quals, .raw, .regs, .resets, .sec, .stage, .txn, .block 0, .block 1, .block 2, .block 3, .block 4, .block 5, .block 6, .block 7, .block 8, .block 9, .block 10, .block 11, .block 12, .block 13, .block 14, .block 15, .block 16, .block 17, .block 18, .block 19, .block 20, .block 21, .block 22, .block 23, .block 24, .block 25, .block 26, .block 27, .block 28, .block 29, .block 30, .block 31, .block 32] w) (h : Keeps w s t) :
    Keeps w s (coldRun x0 t) := by
  unfold coldRun
  repeat' first
    | with_reducible assumption
    | ((with_reducible refine Within.sub hw ?_); exact rfl)
    | with_reducible refine State.modResets_keeps ?_ ?_
    | with_reducible refine configLoad_keeps ?_ ?_
    | with_reducible refine flashStart_keeps ?_ ?_
    | with_reducible refine fwStart_keeps ?_ ?_
    | with_reducible refine gleanRecover_keeps ?_ ?_
    | with_reducible refine granRecover_keeps ?_ ?_
    | with_reducible refine lockStart_keeps ?_ ?_
    | with_reducible refine otpLoad_keeps ?_ ?_
    | with_reducible refine repairLoad_keeps ?_ ?_
    | with_reducible refine secStart_keeps ?_ ?_
    | with_reducible refine seedOutputs_keeps ?_ ?_
    | with_reducible refine startRestore_keeps ?_ ?_
    | with_reducible refine verifyAll_keeps ?_ ?_
    | split
    | intro _
    | dsimp only
    | with_reducible refine Keeps.set_latch_group_stage ?_ ?_

theorem coldStart_keeps {x0 : ColdFinds} (hw : Within [.ages, .analog, .capture, .collie, .evlog, .exec, .farm, .field, .free, .gens, .glean, .gran, .group, .head, .image, .img, .injected, .inputs, .island, .joa, .latch, .mem, .motion, .newImage, .oldImage, .ptp, .pulses, .quals, .raw, .readData, .regs, .resets, .sec, .stage, .txn, .block 0, .block 1, .block 2, .block 3, .block 4, .block 5, .block 6, .block 7, .block 8, .block 9, .block 10, .block 11, .block 12, .block 13, .block 14, .block 15, .block 16, .block 17, .block 18, .block 19, .block 20, .block 21, .block 22, .block 23, .block 24, .block 25, .block 26, .block 27, .block 28, .block 29, .block 30, .block 31, .block 32] w) (h : Keeps w s t) :
    Keeps w s (coldStart x0 t) := by
  unfold coldStart
  repeat' first
    | with_reducible assumption
    | ((with_reducible refine Within.sub hw ?_); exact rfl)
    | with_reducible refine coldRun_keeps ?_ ?_
    | with_reducible refine coldState_keeps ?_ ?_
    | with_reducible refine sessionsReset_keeps ?_ ?_
    | split
    | intro _
    | dsimp only

theorem reloadModules_keeps (hw : Within [.collie] w) (h : Keeps w s t) :
    Keeps w s (reloadModules t) := by
  unfold reloadModules
  repeat' first
    | with_reducible assumption
    | ((with_reducible refine Within.sub hw ?_); exact rfl)
    | split
    | intro _
    | dsimp only
    | with_reducible refine Keeps.set_collie ?_ ?_

theorem warmCollie_keeps (hw : Within [.collie, .group, .latch, .motion, .stage, .txn, .block 4, .block 5] w) (h : Keeps w s t) :
    Keeps w s (warmCollie t) := by
  unfold warmCollie
  repeat' first
    | with_reducible assumption
    | ((with_reducible refine Within.sub hw ?_); exact rfl)
    | with_reducible refine Keeps.addSat ?_ ?_
    | with_reducible refine collieEmpty_keeps ?_ ?_
    | with_reducible refine deferredWrites_keeps ?_ ?_
    | with_reducible refine haltRuns_keeps ?_ ?_
    | with_reducible refine reloadModules_keeps ?_ ?_
    | split
    | intro _
    | dsimp only
    | with_reducible refine Keeps.set_latch_group_stage_collie_motion ?_ ?_

theorem warmControl_keeps {x0 : Quad} (hw : Within [.exec, .block 6] w) (h : Keeps w s t) :
    Keeps w s (warmControl x0 t) := by
  unfold warmControl
  repeat' first
    | with_reducible assumption
    | ((with_reducible refine Within.sub hw ?_); exact rfl)
    | with_reducible refine Keeps.put ?_ ?_
    | split
    | intro _
    | dsimp only
    | with_reducible refine Keeps.set_exec ?_ ?_

theorem warmConfig_keeps {x0 : Nat} (hw : Within [.analog, .capture, .collie, .evlog, .exec, .farm, .field, .free, .gens, .glean, .gran, .group, .head, .image, .img, .injected, .inputs, .island, .joa, .latch, .mem, .motion, .newImage, .ptp, .quals, .regs, .resets, .sec, .stage, .txn, .block 0, .block 1, .block 2, .block 3, .block 4, .block 5, .block 6, .block 7, .block 8, .block 9, .block 10, .block 11, .block 12, .block 13, .block 14, .block 15, .block 16, .block 17, .block 18, .block 19, .block 20, .block 21, .block 22, .block 23, .block 24, .block 25, .block 26, .block 27, .block 28, .block 29, .block 31, .block 32] w) (h : Keeps w s t) :
    Keeps w s (warmConfig x0 t) := by
  unfold warmConfig
  repeat' first
    | with_reducible assumption
    | ((with_reducible refine Within.sub hw ?_); exact rfl)
    | with_reducible refine Keeps.setReg_any ?_ ?_
    | with_reducible refine Keeps.put ?_ ?_
    | with_reducible refine Keeps.setReg ?_ ?_
    | with_reducible refine configLoad_keeps ?_ ?_
    | with_reducible refine zeroRetained_keeps ?_ ?_
    | split
    | intro _
    | dsimp only
    | with_reducible refine Keeps.set_collie ?_ ?_
    | with_reducible refine Keeps.set_latch_group_stage ?_ ?_

theorem warmShut_keeps (hw : Within [.resets, .block 1] w) (h : Keeps w s t) :
    Keeps w s (warmShut t) := by
  unfold warmShut
  repeat' first
    | with_reducible assumption
    | ((with_reducible refine Within.sub hw ?_); exact rfl)
    | with_reducible refine shutEnter_keeps ?_ ?_
    | split
    | intro _
    | dsimp only

theorem warmRun_keeps {x0 : WarmReq} (hw : Within [.analog, .capture, .collie, .evlog, .exec, .farm, .field, .free, .gens, .glean, .gran, .group, .head, .image, .img, .injected, .inputs, .island, .joa, .latch, .mem, .motion, .newImage, .ptp, .quals, .regs, .resets, .sec, .stage, .txn, .block 0, .block 1, .block 2, .block 3, .block 4, .block 5, .block 6, .block 7, .block 8, .block 9, .block 10, .block 11, .block 12, .block 13, .block 14, .block 15, .block 16, .block 17, .block 18, .block 19, .block 20, .block 21, .block 22, .block 23, .block 24, .block 25, .block 26, .block 27, .block 28, .block 29, .block 31, .block 32] w) (h : Keeps w s t) :
    Keeps w s (warmRun x0 t) := by
  unfold warmRun
  repeat' first
    | with_reducible assumption
    | ((with_reducible refine Within.sub hw ?_); exact rfl)
    | with_reducible refine Keeps.setReg_any ?_ ?_
    | with_reducible refine Keeps.incSat ?_ ?_
    | with_reducible refine State.modResets_keeps ?_ ?_
    | with_reducible refine State.modSec_keeps ?_ ?_
    | with_reducible refine Keeps.setReg ?_ ?_
    | with_reducible refine fwStart_keeps ?_ ?_
    | with_reducible refine olcReset_keeps ?_ ?_
    | with_reducible refine txWarm_keeps ?_ ?_
    | with_reducible refine verifySlot_keeps ?_ ?_
    | with_reducible refine warmCollie_keeps ?_ ?_
    | with_reducible refine warmConfig_keeps ?_ ?_
    | with_reducible refine warmControl_keeps ?_ ?_
    | with_reducible refine warmShut_keeps ?_ ?_
    | split
    | intro _
    | dsimp only
    | with_reducible refine Keeps.set_glean ?_ ?_

theorem warmReset_keeps (hw : Within [.analog, .capture, .collie, .evlog, .exec, .farm, .field, .free, .gens, .glean, .gran, .group, .head, .image, .img, .injected, .inputs, .island, .joa, .latch, .mem, .motion, .newImage, .ptp, .quals, .raw, .regs, .resets, .sec, .stage, .txn, .block 0, .block 1, .block 2, .block 3, .block 4, .block 5, .block 6, .block 7, .block 8, .block 9, .block 10, .block 11, .block 12, .block 13, .block 14, .block 15, .block 16, .block 17, .block 18, .block 19, .block 20, .block 21, .block 22, .block 23, .block 24, .block 25, .block 26, .block 27, .block 28, .block 29, .block 31, .block 32] w) (h : Keeps w s t) :
    Keeps w s (warmReset t) := by
  unfold warmReset
  repeat' first
    | with_reducible assumption
    | ((with_reducible refine Within.sub hw ?_); exact rfl)
    | with_reducible refine Keeps.setReg_any ?_ ?_
    | with_reducible refine Keeps.advanceTo ?_ ?_
    | with_reducible refine State.modResets_keeps ?_ ?_
    | with_reducible refine warmRun_keeps ?_ ?_
    | split
    | intro _
    | dsimp only

theorem bridgeImages_keeps {x0 : Cut} (hw : Within [.collie] w) (h : Keeps w s t) :
    Keeps w s (bridgeImages x0 t) := by
  unfold bridgeImages
  repeat' first
    | with_reducible assumption
    | ((with_reducible refine Within.sub hw ?_); exact rfl)
    | with_reducible refine Keeps.foldl ?_ ?_
    | split
    | intro _
    | dsimp only
    | with_reducible refine Keeps.set_collie ?_ ?_

theorem bridgeRestore_keeps {x0 : Nat} (hw : Within [.collie, .evlog, .exec, .block 0, .block 6] w) (h : Keeps w s t) :
    Keeps w s (bridgeRestore x0 t) := by
  unfold bridgeRestore
  repeat' first
    | with_reducible assumption
    | ((with_reducible refine Within.sub hw ?_); exact rfl)
    | with_reducible refine Keeps.raiseIf ?_ ?_
    | with_reducible refine bridgeImages_keeps ?_ ?_
    | split
    | intro _
    | dsimp only
    | with_reducible refine Keeps.set_exec ?_ ?_

theorem bridgeEnd_keeps (hw : Within [.exec] w) (h : Keeps w s t) :
    Keeps w s (bridgeEnd t) := by
  unfold bridgeEnd
  repeat' first
    | with_reducible assumption
    | ((with_reducible refine Within.sub hw ?_); exact rfl)
    | split
    | intro _
    | dsimp only
    | with_reducible refine Keeps.set_exec ?_ ?_

theorem rejoin_keeps (hw : Within [.collie, .evlog, .exec, .img, .block 0, .block 6, .block 14] w) (h : Keeps w s t) :
    Keeps w s (rejoin t) := by
  unfold rejoin
  repeat' first
    | with_reducible assumption
    | ((with_reducible refine Within.sub hw ?_); exact rfl)
    | with_reducible refine Keeps.put ?_ ?_
    | with_reducible refine Keeps.raiseNamed ?_ ?_
    | with_reducible refine Keeps.setReg ?_ ?_
    | with_reducible refine axesRelease_keeps ?_ ?_
    | with_reducible refine bridgeEnd_keeps ?_ ?_
    | with_reducible refine setSysAll_keeps ?_ ?_
    | with_reducible refine shadowsLive_keeps ?_ ?_
    | split
    | intro _
    | dsimp only

theorem bridgeExpiry_keeps (hw : Within [.collie, .evlog, .exec, .free, .head, .img, .motion, .raw, .txn, .block 0, .block 4, .block 5, .block 6, .block 7, .block 8, .block 11, .block 14, .block 23] w) (h : Keeps w s t) :
    Keeps w s (bridgeExpiry t) := by
  unfold bridgeExpiry
  repeat' first
    | with_reducible assumption
    | ((with_reducible refine Within.sub hw ?_); exact rfl)
    | with_reducible refine Keeps.advanceTo ?_ ?_
    | with_reducible refine Keeps.raise ?_ ?_
    | with_reducible refine bridgeEnd_keeps ?_ ?_
    | with_reducible refine controllerStop_keeps ?_ ?_
    | split
    | intro _
    | dsimp only

end Sys2Proof.Machine
end

