-- ==== Sys2Proof/Laws/Memory.lean ====
section
/-! SUPPORT. Memory: every operation that writes or erases bytes keeps the canonical form, and reads give what was written. -/

namespace Sys2Proof.Machine

/-- Writing bytes keeps the canonical form. -/
theorem imgPut_wf : ∀ (l : List Byte) (m : Tbl Byte) (a : Nat), Memory.wf m = true → Memory.wf (imgPut m a l) = true
  | [], _, _, h => h
  | _ :: t, _, a, h => imgPut_wf t _ (a + 1) (twf_tset a _ h)

/-- Erasing bytes keeps the canonical form. -/
theorem memErase_wf {m : Tbl Byte} (p : Nat × Byte → Bool) (h : Memory.wf m = true) : Memory.wf (m.filter p) = true :=
  twf_filter p h

/-- A write to memory keeps the canonical form. -/
theorem State.memWrite_wf {s : State} (a : Nat) (l : List Byte) (h : Memory.wf s.mem = true) :
    Memory.wf (s.memWrite a l).mem = true := imgPut_wf l s.mem a h

/-- The memory after reset is canonical. -/
theorem State.reset_mem_wf : Memory.wf State.reset.mem = true := rfl

/-- A byte below the bytes written is as it was. -/
theorem tget_imgPut_lt {b : Nat} : ∀ (l : List Byte) (m : Tbl Byte) (a : Nat), b < a → tget 0 (imgPut m a l) b = tget 0 m b
  | [], _, _, _ => rfl
  | _ :: t, m, a, h => by
    rw [imgPut, tget_imgPut_lt t _ (a + 1) (by omega), tget_tset_ne _ (by omega)]

/-- A byte above the bytes written is as it was. -/
theorem tget_imgPut_ge {b : Nat} :
    ∀ (l : List Byte) (m : Tbl Byte) (a : Nat), a + l.length ≤ b → tget 0 (imgPut m a l) b = tget 0 m b
  | [], _, _, _ => rfl
  | _ :: t, m, a, h => by
    simp only [List.length_cons] at h
    rw [imgPut, tget_imgPut_ge t _ (a + 1) (by omega), tget_tset_ne _ (by omega)]

/-- The byte at place i of the bytes written. -/
theorem tget_imgPut {d : Byte} :
    ∀ (l : List Byte) (m : Tbl Byte) (a i : Nat), i < l.length → tget 0 (imgPut m a l) (a + i) = l.getD i d
  | [], _, _, _, h => absurd h (Nat.not_lt_zero _)
  | x :: t, m, a, 0, _ => by
    show tget 0 (imgPut (tset 0 m a x) (a + 1) t) a = x
    rw [tget_imgPut_lt t _ (a + 1) (Nat.lt_succ_self a), tget_tset_self]
  | x :: t, m, a, i + 1, h => by
    rw [imgPut, show a + (i + 1) = a + 1 + i by omega, tget_imgPut (d := d) t _ (a + 1) i (by simpa using h)]; simp

/-- A write to memory changes nothing but memory. -/
@[simp] theorem State.memWrite_regs (s : State) (a : Nat) (l : List Byte) : (s.memWrite a l).regs = s.regs := rfl
@[simp] theorem State.memWrite_pending (s : State) (a : Nat) (l : List Byte) : (s.memWrite a l).pending = s.pending := rfl

end Sys2Proof.Machine
end

