-- ==== Sys2Proof/Laws/Updates.lean ====
section
/-! SUPPORT. Every field of the state after each of the named updates that leave it alone. -/

namespace Sys2Proof.Machine

section
variable (s : State) (r : Reg) (v : Word)
@[simp] theorem State.setReg_pending : (s.setReg r v).pending = s.pending := rfl
@[simp] theorem State.setReg_raw : (s.setReg r v).raw = s.raw := rfl
@[simp] theorem State.setReg_head : (s.setReg r v).head = s.head := rfl
@[simp] theorem State.setReg_evlog : (s.setReg r v).evlog = s.evlog := rfl
@[simp] theorem State.setReg_free : (s.setReg r v).free = s.free := rfl
@[simp] theorem State.setReg_readData : (s.setReg r v).readData = s.readData := rfl
@[simp] theorem State.setReg_latch : (s.setReg r v).latch = s.latch := rfl
@[simp] theorem State.setReg_group : (s.setReg r v).group = s.group := rfl
@[simp] theorem State.setReg_stage : (s.setReg r v).stage = s.stage := rfl
@[simp] theorem State.setReg_gens : (s.setReg r v).gens = s.gens := rfl
@[simp] theorem State.setReg_injected : (s.setReg r v).injected = s.injected := rfl
@[simp] theorem State.setReg_image : (s.setReg r v).image = s.image := rfl
@[simp] theorem State.setReg_oldImage : (s.setReg r v).oldImage = s.oldImage := rfl
@[simp] theorem State.setReg_newImage : (s.setReg r v).newImage = s.newImage := rfl
@[simp] theorem State.setReg_collie : (s.setReg r v).collie = s.collie := rfl
@[simp] theorem State.setReg_txn : (s.setReg r v).txn = s.txn := rfl
@[simp] theorem State.setReg_exec : (s.setReg r v).exec = s.exec := rfl
@[simp] theorem State.setReg_img : (s.setReg r v).img = s.img := rfl
@[simp] theorem State.setReg_inputs : (s.setReg r v).inputs = s.inputs := rfl
@[simp] theorem State.setReg_quals : (s.setReg r v).quals = s.quals := rfl
@[simp] theorem State.setReg_ages : (s.setReg r v).ages = s.ages := rfl
@[simp] theorem State.setReg_pulses : (s.setReg r v).pulses = s.pulses := rfl
@[simp] theorem State.setReg_field : (s.setReg r v).field = s.field := rfl
@[simp] theorem State.setReg_motion : (s.setReg r v).motion = s.motion := rfl
@[simp] theorem State.setReg_analog : (s.setReg r v).analog = s.analog := rfl
@[simp] theorem State.setReg_mem : (s.setReg r v).mem = s.mem := rfl
@[simp] theorem State.setReg_capture : (s.setReg r v).capture = s.capture := rfl
@[simp] theorem State.setReg_glean : (s.setReg r v).glean = s.glean := rfl
@[simp] theorem State.setReg_gran : (s.setReg r v).gran = s.gran := rfl
@[simp] theorem State.setReg_slots : (s.setReg r v).slots = s.slots := rfl
@[simp] theorem State.setReg_ptp : (s.setReg r v).ptp = s.ptp := rfl
@[simp] theorem State.setReg_farm : (s.setReg r v).farm = s.farm := rfl
@[simp] theorem State.setReg_island : (s.setReg r v).island = s.island := rfl
@[simp] theorem State.setReg_resets : (s.setReg r v).resets = s.resets := rfl
@[simp] theorem State.setReg_joa : (s.setReg r v).joa = s.joa := rfl
@[simp] theorem State.setReg_sec : (s.setReg r v).sec = s.sec := rfl
end

section
variable (s : State) (r : Reg) (f : Fld) (v : Nat)
@[simp] theorem State.put_pending : (s.put r f v).pending = s.pending := rfl
@[simp] theorem State.put_raw : (s.put r f v).raw = s.raw := rfl
@[simp] theorem State.put_head : (s.put r f v).head = s.head := rfl
@[simp] theorem State.put_evlog : (s.put r f v).evlog = s.evlog := rfl
@[simp] theorem State.put_free : (s.put r f v).free = s.free := rfl
@[simp] theorem State.put_readData : (s.put r f v).readData = s.readData := rfl
@[simp] theorem State.put_latch : (s.put r f v).latch = s.latch := rfl
@[simp] theorem State.put_group : (s.put r f v).group = s.group := rfl
@[simp] theorem State.put_stage : (s.put r f v).stage = s.stage := rfl
@[simp] theorem State.put_gens : (s.put r f v).gens = s.gens := rfl
@[simp] theorem State.put_injected : (s.put r f v).injected = s.injected := rfl
@[simp] theorem State.put_image : (s.put r f v).image = s.image := rfl
@[simp] theorem State.put_oldImage : (s.put r f v).oldImage = s.oldImage := rfl
@[simp] theorem State.put_newImage : (s.put r f v).newImage = s.newImage := rfl
@[simp] theorem State.put_collie : (s.put r f v).collie = s.collie := rfl
@[simp] theorem State.put_txn : (s.put r f v).txn = s.txn := rfl
@[simp] theorem State.put_exec : (s.put r f v).exec = s.exec := rfl
@[simp] theorem State.put_img : (s.put r f v).img = s.img := rfl
@[simp] theorem State.put_inputs : (s.put r f v).inputs = s.inputs := rfl
@[simp] theorem State.put_quals : (s.put r f v).quals = s.quals := rfl
@[simp] theorem State.put_ages : (s.put r f v).ages = s.ages := rfl
@[simp] theorem State.put_pulses : (s.put r f v).pulses = s.pulses := rfl
@[simp] theorem State.put_field : (s.put r f v).field = s.field := rfl
@[simp] theorem State.put_motion : (s.put r f v).motion = s.motion := rfl
@[simp] theorem State.put_analog : (s.put r f v).analog = s.analog := rfl
@[simp] theorem State.put_mem : (s.put r f v).mem = s.mem := rfl
@[simp] theorem State.put_capture : (s.put r f v).capture = s.capture := rfl
@[simp] theorem State.put_glean : (s.put r f v).glean = s.glean := rfl
@[simp] theorem State.put_gran : (s.put r f v).gran = s.gran := rfl
@[simp] theorem State.put_slots : (s.put r f v).slots = s.slots := rfl
@[simp] theorem State.put_ptp : (s.put r f v).ptp = s.ptp := rfl
@[simp] theorem State.put_farm : (s.put r f v).farm = s.farm := rfl
@[simp] theorem State.put_island : (s.put r f v).island = s.island := rfl
@[simp] theorem State.put_resets : (s.put r f v).resets = s.resets := rfl
@[simp] theorem State.put_joa : (s.put r f v).joa = s.joa := rfl
@[simp] theorem State.put_sec : (s.put r f v).sec = s.sec := rfl
end

section
variable (s : State) (r : Reg) (f : Fld) (b : Bool)
@[simp] theorem State.putFlag_pending : (s.putFlag r f b).pending = s.pending := rfl
@[simp] theorem State.putFlag_raw : (s.putFlag r f b).raw = s.raw := rfl
@[simp] theorem State.putFlag_head : (s.putFlag r f b).head = s.head := rfl
@[simp] theorem State.putFlag_evlog : (s.putFlag r f b).evlog = s.evlog := rfl
@[simp] theorem State.putFlag_free : (s.putFlag r f b).free = s.free := rfl
@[simp] theorem State.putFlag_readData : (s.putFlag r f b).readData = s.readData := rfl
@[simp] theorem State.putFlag_latch : (s.putFlag r f b).latch = s.latch := rfl
@[simp] theorem State.putFlag_group : (s.putFlag r f b).group = s.group := rfl
@[simp] theorem State.putFlag_stage : (s.putFlag r f b).stage = s.stage := rfl
@[simp] theorem State.putFlag_gens : (s.putFlag r f b).gens = s.gens := rfl
@[simp] theorem State.putFlag_injected : (s.putFlag r f b).injected = s.injected := rfl
@[simp] theorem State.putFlag_image : (s.putFlag r f b).image = s.image := rfl
@[simp] theorem State.putFlag_oldImage : (s.putFlag r f b).oldImage = s.oldImage := rfl
@[simp] theorem State.putFlag_newImage : (s.putFlag r f b).newImage = s.newImage := rfl
@[simp] theorem State.putFlag_collie : (s.putFlag r f b).collie = s.collie := rfl
@[simp] theorem State.putFlag_txn : (s.putFlag r f b).txn = s.txn := rfl
@[simp] theorem State.putFlag_exec : (s.putFlag r f b).exec = s.exec := rfl
@[simp] theorem State.putFlag_img : (s.putFlag r f b).img = s.img := rfl
@[simp] theorem State.putFlag_inputs : (s.putFlag r f b).inputs = s.inputs := rfl
@[simp] theorem State.putFlag_quals : (s.putFlag r f b).quals = s.quals := rfl
@[simp] theorem State.putFlag_ages : (s.putFlag r f b).ages = s.ages := rfl
@[simp] theorem State.putFlag_pulses : (s.putFlag r f b).pulses = s.pulses := rfl
@[simp] theorem State.putFlag_field : (s.putFlag r f b).field = s.field := rfl
@[simp] theorem State.putFlag_motion : (s.putFlag r f b).motion = s.motion := rfl
@[simp] theorem State.putFlag_analog : (s.putFlag r f b).analog = s.analog := rfl
@[simp] theorem State.putFlag_mem : (s.putFlag r f b).mem = s.mem := rfl
@[simp] theorem State.putFlag_capture : (s.putFlag r f b).capture = s.capture := rfl
@[simp] theorem State.putFlag_glean : (s.putFlag r f b).glean = s.glean := rfl
@[simp] theorem State.putFlag_gran : (s.putFlag r f b).gran = s.gran := rfl
@[simp] theorem State.putFlag_slots : (s.putFlag r f b).slots = s.slots := rfl
@[simp] theorem State.putFlag_ptp : (s.putFlag r f b).ptp = s.ptp := rfl
@[simp] theorem State.putFlag_farm : (s.putFlag r f b).farm = s.farm := rfl
@[simp] theorem State.putFlag_island : (s.putFlag r f b).island = s.island := rfl
@[simp] theorem State.putFlag_resets : (s.putFlag r f b).resets = s.resets := rfl
@[simp] theorem State.putFlag_joa : (s.putFlag r f b).joa = s.joa := rfl
@[simp] theorem State.putFlag_sec : (s.putFlag r f b).sec = s.sec := rfl
end

section
variable (s : State) (lo hi : Reg) (v : Quad)
@[simp] theorem State.setReg64_pending : (s.setReg64 lo hi v).pending = s.pending := rfl
@[simp] theorem State.setReg64_raw : (s.setReg64 lo hi v).raw = s.raw := rfl
@[simp] theorem State.setReg64_head : (s.setReg64 lo hi v).head = s.head := rfl
@[simp] theorem State.setReg64_evlog : (s.setReg64 lo hi v).evlog = s.evlog := rfl
@[simp] theorem State.setReg64_free : (s.setReg64 lo hi v).free = s.free := rfl
@[simp] theorem State.setReg64_readData : (s.setReg64 lo hi v).readData = s.readData := rfl
@[simp] theorem State.setReg64_latch : (s.setReg64 lo hi v).latch = s.latch := rfl
@[simp] theorem State.setReg64_group : (s.setReg64 lo hi v).group = s.group := rfl
@[simp] theorem State.setReg64_stage : (s.setReg64 lo hi v).stage = s.stage := rfl
@[simp] theorem State.setReg64_gens : (s.setReg64 lo hi v).gens = s.gens := rfl
@[simp] theorem State.setReg64_injected : (s.setReg64 lo hi v).injected = s.injected := rfl
@[simp] theorem State.setReg64_image : (s.setReg64 lo hi v).image = s.image := rfl
@[simp] theorem State.setReg64_oldImage : (s.setReg64 lo hi v).oldImage = s.oldImage := rfl
@[simp] theorem State.setReg64_newImage : (s.setReg64 lo hi v).newImage = s.newImage := rfl
@[simp] theorem State.setReg64_collie : (s.setReg64 lo hi v).collie = s.collie := rfl
@[simp] theorem State.setReg64_txn : (s.setReg64 lo hi v).txn = s.txn := rfl
@[simp] theorem State.setReg64_exec : (s.setReg64 lo hi v).exec = s.exec := rfl
@[simp] theorem State.setReg64_img : (s.setReg64 lo hi v).img = s.img := rfl
@[simp] theorem State.setReg64_inputs : (s.setReg64 lo hi v).inputs = s.inputs := rfl
@[simp] theorem State.setReg64_quals : (s.setReg64 lo hi v).quals = s.quals := rfl
@[simp] theorem State.setReg64_ages : (s.setReg64 lo hi v).ages = s.ages := rfl
@[simp] theorem State.setReg64_pulses : (s.setReg64 lo hi v).pulses = s.pulses := rfl
@[simp] theorem State.setReg64_field : (s.setReg64 lo hi v).field = s.field := rfl
@[simp] theorem State.setReg64_motion : (s.setReg64 lo hi v).motion = s.motion := rfl
@[simp] theorem State.setReg64_analog : (s.setReg64 lo hi v).analog = s.analog := rfl
@[simp] theorem State.setReg64_mem : (s.setReg64 lo hi v).mem = s.mem := rfl
@[simp] theorem State.setReg64_capture : (s.setReg64 lo hi v).capture = s.capture := rfl
@[simp] theorem State.setReg64_glean : (s.setReg64 lo hi v).glean = s.glean := rfl
@[simp] theorem State.setReg64_gran : (s.setReg64 lo hi v).gran = s.gran := rfl
@[simp] theorem State.setReg64_slots : (s.setReg64 lo hi v).slots = s.slots := rfl
@[simp] theorem State.setReg64_ptp : (s.setReg64 lo hi v).ptp = s.ptp := rfl
@[simp] theorem State.setReg64_farm : (s.setReg64 lo hi v).farm = s.farm := rfl
@[simp] theorem State.setReg64_island : (s.setReg64 lo hi v).island = s.island := rfl
@[simp] theorem State.setReg64_resets : (s.setReg64 lo hi v).resets = s.resets := rfl
@[simp] theorem State.setReg64_joa : (s.setReg64 lo hi v).joa = s.joa := rfl
@[simp] theorem State.setReg64_sec : (s.setReg64 lo hi v).sec = s.sec := rfl
end

section
variable (s : State) (a : Nat) (l : List Byte)
@[simp] theorem State.memWrite_raw : (s.memWrite a l).raw = s.raw := rfl
@[simp] theorem State.memWrite_head : (s.memWrite a l).head = s.head := rfl
@[simp] theorem State.memWrite_evlog : (s.memWrite a l).evlog = s.evlog := rfl
@[simp] theorem State.memWrite_free : (s.memWrite a l).free = s.free := rfl
@[simp] theorem State.memWrite_readData : (s.memWrite a l).readData = s.readData := rfl
@[simp] theorem State.memWrite_latch : (s.memWrite a l).latch = s.latch := rfl
@[simp] theorem State.memWrite_group : (s.memWrite a l).group = s.group := rfl
@[simp] theorem State.memWrite_stage : (s.memWrite a l).stage = s.stage := rfl
@[simp] theorem State.memWrite_gens : (s.memWrite a l).gens = s.gens := rfl
@[simp] theorem State.memWrite_injected : (s.memWrite a l).injected = s.injected := rfl
@[simp] theorem State.memWrite_image : (s.memWrite a l).image = s.image := rfl
@[simp] theorem State.memWrite_oldImage : (s.memWrite a l).oldImage = s.oldImage := rfl
@[simp] theorem State.memWrite_newImage : (s.memWrite a l).newImage = s.newImage := rfl
@[simp] theorem State.memWrite_collie : (s.memWrite a l).collie = s.collie := rfl
@[simp] theorem State.memWrite_txn : (s.memWrite a l).txn = s.txn := rfl
@[simp] theorem State.memWrite_exec : (s.memWrite a l).exec = s.exec := rfl
@[simp] theorem State.memWrite_img : (s.memWrite a l).img = s.img := rfl
@[simp] theorem State.memWrite_inputs : (s.memWrite a l).inputs = s.inputs := rfl
@[simp] theorem State.memWrite_quals : (s.memWrite a l).quals = s.quals := rfl
@[simp] theorem State.memWrite_ages : (s.memWrite a l).ages = s.ages := rfl
@[simp] theorem State.memWrite_pulses : (s.memWrite a l).pulses = s.pulses := rfl
@[simp] theorem State.memWrite_field : (s.memWrite a l).field = s.field := rfl
@[simp] theorem State.memWrite_motion : (s.memWrite a l).motion = s.motion := rfl
@[simp] theorem State.memWrite_analog : (s.memWrite a l).analog = s.analog := rfl
@[simp] theorem State.memWrite_capture : (s.memWrite a l).capture = s.capture := rfl
@[simp] theorem State.memWrite_glean : (s.memWrite a l).glean = s.glean := rfl
@[simp] theorem State.memWrite_gran : (s.memWrite a l).gran = s.gran := rfl
@[simp] theorem State.memWrite_slots : (s.memWrite a l).slots = s.slots := rfl
@[simp] theorem State.memWrite_ptp : (s.memWrite a l).ptp = s.ptp := rfl
@[simp] theorem State.memWrite_farm : (s.memWrite a l).farm = s.farm := rfl
@[simp] theorem State.memWrite_island : (s.memWrite a l).island = s.island := rfl
@[simp] theorem State.memWrite_resets : (s.memWrite a l).resets = s.resets := rfl
@[simp] theorem State.memWrite_joa : (s.memWrite a l).joa = s.joa := rfl
@[simp] theorem State.memWrite_sec : (s.memWrite a l).sec = s.sec := rfl
end

section
variable (s : State) (k : Nat) (r : Option Run)
@[simp] theorem State.setRun_pending : (s.setRun k r).pending = s.pending := rfl
@[simp] theorem State.setRun_regs : (s.setRun k r).regs = s.regs := rfl
@[simp] theorem State.setRun_raw : (s.setRun k r).raw = s.raw := rfl
@[simp] theorem State.setRun_head : (s.setRun k r).head = s.head := rfl
@[simp] theorem State.setRun_evlog : (s.setRun k r).evlog = s.evlog := rfl
@[simp] theorem State.setRun_free : (s.setRun k r).free = s.free := rfl
@[simp] theorem State.setRun_readData : (s.setRun k r).readData = s.readData := rfl
@[simp] theorem State.setRun_latch : (s.setRun k r).latch = s.latch := rfl
@[simp] theorem State.setRun_group : (s.setRun k r).group = s.group := rfl
@[simp] theorem State.setRun_stage : (s.setRun k r).stage = s.stage := rfl
@[simp] theorem State.setRun_gens : (s.setRun k r).gens = s.gens := rfl
@[simp] theorem State.setRun_injected : (s.setRun k r).injected = s.injected := rfl
@[simp] theorem State.setRun_image : (s.setRun k r).image = s.image := rfl
@[simp] theorem State.setRun_oldImage : (s.setRun k r).oldImage = s.oldImage := rfl
@[simp] theorem State.setRun_newImage : (s.setRun k r).newImage = s.newImage := rfl
@[simp] theorem State.setRun_txn : (s.setRun k r).txn = s.txn := rfl
@[simp] theorem State.setRun_exec : (s.setRun k r).exec = s.exec := rfl
@[simp] theorem State.setRun_img : (s.setRun k r).img = s.img := rfl
@[simp] theorem State.setRun_inputs : (s.setRun k r).inputs = s.inputs := rfl
@[simp] theorem State.setRun_quals : (s.setRun k r).quals = s.quals := rfl
@[simp] theorem State.setRun_ages : (s.setRun k r).ages = s.ages := rfl
@[simp] theorem State.setRun_pulses : (s.setRun k r).pulses = s.pulses := rfl
@[simp] theorem State.setRun_field : (s.setRun k r).field = s.field := rfl
@[simp] theorem State.setRun_motion : (s.setRun k r).motion = s.motion := rfl
@[simp] theorem State.setRun_analog : (s.setRun k r).analog = s.analog := rfl
@[simp] theorem State.setRun_mem : (s.setRun k r).mem = s.mem := rfl
@[simp] theorem State.setRun_capture : (s.setRun k r).capture = s.capture := rfl
@[simp] theorem State.setRun_glean : (s.setRun k r).glean = s.glean := rfl
@[simp] theorem State.setRun_gran : (s.setRun k r).gran = s.gran := rfl
@[simp] theorem State.setRun_slots : (s.setRun k r).slots = s.slots := rfl
@[simp] theorem State.setRun_ptp : (s.setRun k r).ptp = s.ptp := rfl
@[simp] theorem State.setRun_farm : (s.setRun k r).farm = s.farm := rfl
@[simp] theorem State.setRun_island : (s.setRun k r).island = s.island := rfl
@[simp] theorem State.setRun_resets : (s.setRun k r).resets = s.resets := rfl
@[simp] theorem State.setRun_joa : (s.setRun k r).joa = s.joa := rfl
@[simp] theorem State.setRun_sec : (s.setRun k r).sec = s.sec := rfl
end

section
variable (s : State) (k : Nat) (c : Core)
@[simp] theorem State.setCore_pending : (s.setCore k c).pending = s.pending := rfl
@[simp] theorem State.setCore_regs : (s.setCore k c).regs = s.regs := rfl
@[simp] theorem State.setCore_raw : (s.setCore k c).raw = s.raw := rfl
@[simp] theorem State.setCore_head : (s.setCore k c).head = s.head := rfl
@[simp] theorem State.setCore_evlog : (s.setCore k c).evlog = s.evlog := rfl
@[simp] theorem State.setCore_free : (s.setCore k c).free = s.free := rfl
@[simp] theorem State.setCore_readData : (s.setCore k c).readData = s.readData := rfl
@[simp] theorem State.setCore_latch : (s.setCore k c).latch = s.latch := rfl
@[simp] theorem State.setCore_group : (s.setCore k c).group = s.group := rfl
@[simp] theorem State.setCore_stage : (s.setCore k c).stage = s.stage := rfl
@[simp] theorem State.setCore_gens : (s.setCore k c).gens = s.gens := rfl
@[simp] theorem State.setCore_injected : (s.setCore k c).injected = s.injected := rfl
@[simp] theorem State.setCore_image : (s.setCore k c).image = s.image := rfl
@[simp] theorem State.setCore_oldImage : (s.setCore k c).oldImage = s.oldImage := rfl
@[simp] theorem State.setCore_newImage : (s.setCore k c).newImage = s.newImage := rfl
@[simp] theorem State.setCore_txn : (s.setCore k c).txn = s.txn := rfl
@[simp] theorem State.setCore_exec : (s.setCore k c).exec = s.exec := rfl
@[simp] theorem State.setCore_img : (s.setCore k c).img = s.img := rfl
@[simp] theorem State.setCore_inputs : (s.setCore k c).inputs = s.inputs := rfl
@[simp] theorem State.setCore_quals : (s.setCore k c).quals = s.quals := rfl
@[simp] theorem State.setCore_ages : (s.setCore k c).ages = s.ages := rfl
@[simp] theorem State.setCore_pulses : (s.setCore k c).pulses = s.pulses := rfl
@[simp] theorem State.setCore_field : (s.setCore k c).field = s.field := rfl
@[simp] theorem State.setCore_motion : (s.setCore k c).motion = s.motion := rfl
@[simp] theorem State.setCore_analog : (s.setCore k c).analog = s.analog := rfl
@[simp] theorem State.setCore_mem : (s.setCore k c).mem = s.mem := rfl
@[simp] theorem State.setCore_capture : (s.setCore k c).capture = s.capture := rfl
@[simp] theorem State.setCore_glean : (s.setCore k c).glean = s.glean := rfl
@[simp] theorem State.setCore_gran : (s.setCore k c).gran = s.gran := rfl
@[simp] theorem State.setCore_slots : (s.setCore k c).slots = s.slots := rfl
@[simp] theorem State.setCore_ptp : (s.setCore k c).ptp = s.ptp := rfl
@[simp] theorem State.setCore_farm : (s.setCore k c).farm = s.farm := rfl
@[simp] theorem State.setCore_island : (s.setCore k c).island = s.island := rfl
@[simp] theorem State.setCore_resets : (s.setCore k c).resets = s.resets := rfl
@[simp] theorem State.setCore_joa : (s.setCore k c).joa = s.joa := rfl
@[simp] theorem State.setCore_sec : (s.setCore k c).sec = s.sec := rfl
end

section
variable (s : State) (t : Nat) (x : TaskState)
@[simp] theorem State.setTask_pending : (s.setTask t x).pending = s.pending := rfl
@[simp] theorem State.setTask_regs : (s.setTask t x).regs = s.regs := rfl
@[simp] theorem State.setTask_raw : (s.setTask t x).raw = s.raw := rfl
@[simp] theorem State.setTask_head : (s.setTask t x).head = s.head := rfl
@[simp] theorem State.setTask_evlog : (s.setTask t x).evlog = s.evlog := rfl
@[simp] theorem State.setTask_free : (s.setTask t x).free = s.free := rfl
@[simp] theorem State.setTask_readData : (s.setTask t x).readData = s.readData := rfl
@[simp] theorem State.setTask_latch : (s.setTask t x).latch = s.latch := rfl
@[simp] theorem State.setTask_group : (s.setTask t x).group = s.group := rfl
@[simp] theorem State.setTask_stage : (s.setTask t x).stage = s.stage := rfl
@[simp] theorem State.setTask_gens : (s.setTask t x).gens = s.gens := rfl
@[simp] theorem State.setTask_injected : (s.setTask t x).injected = s.injected := rfl
@[simp] theorem State.setTask_image : (s.setTask t x).image = s.image := rfl
@[simp] theorem State.setTask_oldImage : (s.setTask t x).oldImage = s.oldImage := rfl
@[simp] theorem State.setTask_newImage : (s.setTask t x).newImage = s.newImage := rfl
@[simp] theorem State.setTask_txn : (s.setTask t x).txn = s.txn := rfl
@[simp] theorem State.setTask_exec : (s.setTask t x).exec = s.exec := rfl
@[simp] theorem State.setTask_img : (s.setTask t x).img = s.img := rfl
@[simp] theorem State.setTask_inputs : (s.setTask t x).inputs = s.inputs := rfl
@[simp] theorem State.setTask_quals : (s.setTask t x).quals = s.quals := rfl
@[simp] theorem State.setTask_ages : (s.setTask t x).ages = s.ages := rfl
@[simp] theorem State.setTask_pulses : (s.setTask t x).pulses = s.pulses := rfl
@[simp] theorem State.setTask_field : (s.setTask t x).field = s.field := rfl
@[simp] theorem State.setTask_motion : (s.setTask t x).motion = s.motion := rfl
@[simp] theorem State.setTask_analog : (s.setTask t x).analog = s.analog := rfl
@[simp] theorem State.setTask_mem : (s.setTask t x).mem = s.mem := rfl
@[simp] theorem State.setTask_capture : (s.setTask t x).capture = s.capture := rfl
@[simp] theorem State.setTask_glean : (s.setTask t x).glean = s.glean := rfl
@[simp] theorem State.setTask_gran : (s.setTask t x).gran = s.gran := rfl
@[simp] theorem State.setTask_slots : (s.setTask t x).slots = s.slots := rfl
@[simp] theorem State.setTask_ptp : (s.setTask t x).ptp = s.ptp := rfl
@[simp] theorem State.setTask_farm : (s.setTask t x).farm = s.farm := rfl
@[simp] theorem State.setTask_island : (s.setTask t x).island = s.island := rfl
@[simp] theorem State.setTask_resets : (s.setTask t x).resets = s.resets := rfl
@[simp] theorem State.setTask_joa : (s.setTask t x).joa = s.joa := rfl
@[simp] theorem State.setTask_sec : (s.setTask t x).sec = s.sec := rfl
end

section
variable (s : State) (f : Nat) (x : Flow)
@[simp] theorem State.setFlow_pending : (s.setFlow f x).pending = s.pending := rfl
@[simp] theorem State.setFlow_regs : (s.setFlow f x).regs = s.regs := rfl
@[simp] theorem State.setFlow_raw : (s.setFlow f x).raw = s.raw := rfl
@[simp] theorem State.setFlow_head : (s.setFlow f x).head = s.head := rfl
@[simp] theorem State.setFlow_evlog : (s.setFlow f x).evlog = s.evlog := rfl
@[simp] theorem State.setFlow_free : (s.setFlow f x).free = s.free := rfl
@[simp] theorem State.setFlow_readData : (s.setFlow f x).readData = s.readData := rfl
@[simp] theorem State.setFlow_latch : (s.setFlow f x).latch = s.latch := rfl
@[simp] theorem State.setFlow_group : (s.setFlow f x).group = s.group := rfl
@[simp] theorem State.setFlow_stage : (s.setFlow f x).stage = s.stage := rfl
@[simp] theorem State.setFlow_gens : (s.setFlow f x).gens = s.gens := rfl
@[simp] theorem State.setFlow_injected : (s.setFlow f x).injected = s.injected := rfl
@[simp] theorem State.setFlow_image : (s.setFlow f x).image = s.image := rfl
@[simp] theorem State.setFlow_oldImage : (s.setFlow f x).oldImage = s.oldImage := rfl
@[simp] theorem State.setFlow_newImage : (s.setFlow f x).newImage = s.newImage := rfl
@[simp] theorem State.setFlow_txn : (s.setFlow f x).txn = s.txn := rfl
@[simp] theorem State.setFlow_exec : (s.setFlow f x).exec = s.exec := rfl
@[simp] theorem State.setFlow_img : (s.setFlow f x).img = s.img := rfl
@[simp] theorem State.setFlow_inputs : (s.setFlow f x).inputs = s.inputs := rfl
@[simp] theorem State.setFlow_quals : (s.setFlow f x).quals = s.quals := rfl
@[simp] theorem State.setFlow_ages : (s.setFlow f x).ages = s.ages := rfl
@[simp] theorem State.setFlow_pulses : (s.setFlow f x).pulses = s.pulses := rfl
@[simp] theorem State.setFlow_field : (s.setFlow f x).field = s.field := rfl
@[simp] theorem State.setFlow_motion : (s.setFlow f x).motion = s.motion := rfl
@[simp] theorem State.setFlow_analog : (s.setFlow f x).analog = s.analog := rfl
@[simp] theorem State.setFlow_mem : (s.setFlow f x).mem = s.mem := rfl
@[simp] theorem State.setFlow_capture : (s.setFlow f x).capture = s.capture := rfl
@[simp] theorem State.setFlow_glean : (s.setFlow f x).glean = s.glean := rfl
@[simp] theorem State.setFlow_gran : (s.setFlow f x).gran = s.gran := rfl
@[simp] theorem State.setFlow_slots : (s.setFlow f x).slots = s.slots := rfl
@[simp] theorem State.setFlow_ptp : (s.setFlow f x).ptp = s.ptp := rfl
@[simp] theorem State.setFlow_farm : (s.setFlow f x).farm = s.farm := rfl
@[simp] theorem State.setFlow_island : (s.setFlow f x).island = s.island := rfl
@[simp] theorem State.setFlow_resets : (s.setFlow f x).resets = s.resets := rfl
@[simp] theorem State.setFlow_joa : (s.setFlow f x).joa = s.joa := rfl
@[simp] theorem State.setFlow_sec : (s.setFlow f x).sec = s.sec := rfl
end

section
variable (s : State) (i : Nat) (x : Txn)
@[simp] theorem State.setTx_pending : (s.setTx i x).pending = s.pending := rfl
@[simp] theorem State.setTx_regs : (s.setTx i x).regs = s.regs := rfl
@[simp] theorem State.setTx_raw : (s.setTx i x).raw = s.raw := rfl
@[simp] theorem State.setTx_head : (s.setTx i x).head = s.head := rfl
@[simp] theorem State.setTx_evlog : (s.setTx i x).evlog = s.evlog := rfl
@[simp] theorem State.setTx_free : (s.setTx i x).free = s.free := rfl
@[simp] theorem State.setTx_readData : (s.setTx i x).readData = s.readData := rfl
@[simp] theorem State.setTx_latch : (s.setTx i x).latch = s.latch := rfl
@[simp] theorem State.setTx_group : (s.setTx i x).group = s.group := rfl
@[simp] theorem State.setTx_stage : (s.setTx i x).stage = s.stage := rfl
@[simp] theorem State.setTx_gens : (s.setTx i x).gens = s.gens := rfl
@[simp] theorem State.setTx_injected : (s.setTx i x).injected = s.injected := rfl
@[simp] theorem State.setTx_image : (s.setTx i x).image = s.image := rfl
@[simp] theorem State.setTx_oldImage : (s.setTx i x).oldImage = s.oldImage := rfl
@[simp] theorem State.setTx_newImage : (s.setTx i x).newImage = s.newImage := rfl
@[simp] theorem State.setTx_collie : (s.setTx i x).collie = s.collie := rfl
@[simp] theorem State.setTx_exec : (s.setTx i x).exec = s.exec := rfl
@[simp] theorem State.setTx_img : (s.setTx i x).img = s.img := rfl
@[simp] theorem State.setTx_inputs : (s.setTx i x).inputs = s.inputs := rfl
@[simp] theorem State.setTx_quals : (s.setTx i x).quals = s.quals := rfl
@[simp] theorem State.setTx_ages : (s.setTx i x).ages = s.ages := rfl
@[simp] theorem State.setTx_pulses : (s.setTx i x).pulses = s.pulses := rfl
@[simp] theorem State.setTx_field : (s.setTx i x).field = s.field := rfl
@[simp] theorem State.setTx_motion : (s.setTx i x).motion = s.motion := rfl
@[simp] theorem State.setTx_analog : (s.setTx i x).analog = s.analog := rfl
@[simp] theorem State.setTx_mem : (s.setTx i x).mem = s.mem := rfl
@[simp] theorem State.setTx_capture : (s.setTx i x).capture = s.capture := rfl
@[simp] theorem State.setTx_glean : (s.setTx i x).glean = s.glean := rfl
@[simp] theorem State.setTx_gran : (s.setTx i x).gran = s.gran := rfl
@[simp] theorem State.setTx_slots : (s.setTx i x).slots = s.slots := rfl
@[simp] theorem State.setTx_ptp : (s.setTx i x).ptp = s.ptp := rfl
@[simp] theorem State.setTx_farm : (s.setTx i x).farm = s.farm := rfl
@[simp] theorem State.setTx_island : (s.setTx i x).island = s.island := rfl
@[simp] theorem State.setTx_resets : (s.setTx i x).resets = s.resets := rfl
@[simp] theorem State.setTx_joa : (s.setTx i x).joa = s.joa := rfl
@[simp] theorem State.setTx_sec : (s.setTx i x).sec = s.sec := rfl
end

section
variable (s : State) (k : Nat) (x : JoaSession)
@[simp] theorem State.setSession_pending : (s.setSession k x).pending = s.pending := rfl
@[simp] theorem State.setSession_regs : (s.setSession k x).regs = s.regs := rfl
@[simp] theorem State.setSession_raw : (s.setSession k x).raw = s.raw := rfl
@[simp] theorem State.setSession_head : (s.setSession k x).head = s.head := rfl
@[simp] theorem State.setSession_evlog : (s.setSession k x).evlog = s.evlog := rfl
@[simp] theorem State.setSession_free : (s.setSession k x).free = s.free := rfl
@[simp] theorem State.setSession_readData : (s.setSession k x).readData = s.readData := rfl
@[simp] theorem State.setSession_latch : (s.setSession k x).latch = s.latch := rfl
@[simp] theorem State.setSession_group : (s.setSession k x).group = s.group := rfl
@[simp] theorem State.setSession_stage : (s.setSession k x).stage = s.stage := rfl
@[simp] theorem State.setSession_gens : (s.setSession k x).gens = s.gens := rfl
@[simp] theorem State.setSession_injected : (s.setSession k x).injected = s.injected := rfl
@[simp] theorem State.setSession_image : (s.setSession k x).image = s.image := rfl
@[simp] theorem State.setSession_oldImage : (s.setSession k x).oldImage = s.oldImage := rfl
@[simp] theorem State.setSession_newImage : (s.setSession k x).newImage = s.newImage := rfl
@[simp] theorem State.setSession_collie : (s.setSession k x).collie = s.collie := rfl
@[simp] theorem State.setSession_txn : (s.setSession k x).txn = s.txn := rfl
@[simp] theorem State.setSession_exec : (s.setSession k x).exec = s.exec := rfl
@[simp] theorem State.setSession_img : (s.setSession k x).img = s.img := rfl
@[simp] theorem State.setSession_inputs : (s.setSession k x).inputs = s.inputs := rfl
@[simp] theorem State.setSession_quals : (s.setSession k x).quals = s.quals := rfl
@[simp] theorem State.setSession_ages : (s.setSession k x).ages = s.ages := rfl
@[simp] theorem State.setSession_pulses : (s.setSession k x).pulses = s.pulses := rfl
@[simp] theorem State.setSession_field : (s.setSession k x).field = s.field := rfl
@[simp] theorem State.setSession_motion : (s.setSession k x).motion = s.motion := rfl
@[simp] theorem State.setSession_analog : (s.setSession k x).analog = s.analog := rfl
@[simp] theorem State.setSession_mem : (s.setSession k x).mem = s.mem := rfl
@[simp] theorem State.setSession_capture : (s.setSession k x).capture = s.capture := rfl
@[simp] theorem State.setSession_glean : (s.setSession k x).glean = s.glean := rfl
@[simp] theorem State.setSession_gran : (s.setSession k x).gran = s.gran := rfl
@[simp] theorem State.setSession_slots : (s.setSession k x).slots = s.slots := rfl
@[simp] theorem State.setSession_ptp : (s.setSession k x).ptp = s.ptp := rfl
@[simp] theorem State.setSession_farm : (s.setSession k x).farm = s.farm := rfl
@[simp] theorem State.setSession_island : (s.setSession k x).island = s.island := rfl
@[simp] theorem State.setSession_resets : (s.setSession k x).resets = s.resets := rfl
@[simp] theorem State.setSession_sec : (s.setSession k x).sec = s.sec := rfl
end

section
variable (s : State) (n : Nat) (a : Axis)
@[simp] theorem State.setAxis_pending : (s.setAxis n a).pending = s.pending := rfl
@[simp] theorem State.setAxis_regs : (s.setAxis n a).regs = s.regs := rfl
@[simp] theorem State.setAxis_raw : (s.setAxis n a).raw = s.raw := rfl
@[simp] theorem State.setAxis_head : (s.setAxis n a).head = s.head := rfl
@[simp] theorem State.setAxis_evlog : (s.setAxis n a).evlog = s.evlog := rfl
@[simp] theorem State.setAxis_free : (s.setAxis n a).free = s.free := rfl
@[simp] theorem State.setAxis_readData : (s.setAxis n a).readData = s.readData := rfl
@[simp] theorem State.setAxis_latch : (s.setAxis n a).latch = s.latch := rfl
@[simp] theorem State.setAxis_group : (s.setAxis n a).group = s.group := rfl
@[simp] theorem State.setAxis_stage : (s.setAxis n a).stage = s.stage := rfl
@[simp] theorem State.setAxis_gens : (s.setAxis n a).gens = s.gens := rfl
@[simp] theorem State.setAxis_injected : (s.setAxis n a).injected = s.injected := rfl
@[simp] theorem State.setAxis_image : (s.setAxis n a).image = s.image := rfl
@[simp] theorem State.setAxis_oldImage : (s.setAxis n a).oldImage = s.oldImage := rfl
@[simp] theorem State.setAxis_newImage : (s.setAxis n a).newImage = s.newImage := rfl
@[simp] theorem State.setAxis_collie : (s.setAxis n a).collie = s.collie := rfl
@[simp] theorem State.setAxis_txn : (s.setAxis n a).txn = s.txn := rfl
@[simp] theorem State.setAxis_exec : (s.setAxis n a).exec = s.exec := rfl
@[simp] theorem State.setAxis_img : (s.setAxis n a).img = s.img := rfl
@[simp] theorem State.setAxis_inputs : (s.setAxis n a).inputs = s.inputs := rfl
@[simp] theorem State.setAxis_quals : (s.setAxis n a).quals = s.quals := rfl
@[simp] theorem State.setAxis_ages : (s.setAxis n a).ages = s.ages := rfl
@[simp] theorem State.setAxis_pulses : (s.setAxis n a).pulses = s.pulses := rfl
@[simp] theorem State.setAxis_field : (s.setAxis n a).field = s.field := rfl
@[simp] theorem State.setAxis_analog : (s.setAxis n a).analog = s.analog := rfl
@[simp] theorem State.setAxis_mem : (s.setAxis n a).mem = s.mem := rfl
@[simp] theorem State.setAxis_capture : (s.setAxis n a).capture = s.capture := rfl
@[simp] theorem State.setAxis_glean : (s.setAxis n a).glean = s.glean := rfl
@[simp] theorem State.setAxis_gran : (s.setAxis n a).gran = s.gran := rfl
@[simp] theorem State.setAxis_slots : (s.setAxis n a).slots = s.slots := rfl
@[simp] theorem State.setAxis_ptp : (s.setAxis n a).ptp = s.ptp := rfl
@[simp] theorem State.setAxis_farm : (s.setAxis n a).farm = s.farm := rfl
@[simp] theorem State.setAxis_island : (s.setAxis n a).island = s.island := rfl
@[simp] theorem State.setAxis_resets : (s.setAxis n a).resets = s.resets := rfl
@[simp] theorem State.setAxis_joa : (s.setAxis n a).joa = s.joa := rfl
@[simp] theorem State.setAxis_sec : (s.setAxis n a).sec = s.sec := rfl
end

section
variable (s : State) (c : Nat) (x : Chopper)
@[simp] theorem State.setChop_pending : (s.setChop c x).pending = s.pending := rfl
@[simp] theorem State.setChop_regs : (s.setChop c x).regs = s.regs := rfl
@[simp] theorem State.setChop_raw : (s.setChop c x).raw = s.raw := rfl
@[simp] theorem State.setChop_head : (s.setChop c x).head = s.head := rfl
@[simp] theorem State.setChop_evlog : (s.setChop c x).evlog = s.evlog := rfl
@[simp] theorem State.setChop_free : (s.setChop c x).free = s.free := rfl
@[simp] theorem State.setChop_readData : (s.setChop c x).readData = s.readData := rfl
@[simp] theorem State.setChop_latch : (s.setChop c x).latch = s.latch := rfl
@[simp] theorem State.setChop_group : (s.setChop c x).group = s.group := rfl
@[simp] theorem State.setChop_stage : (s.setChop c x).stage = s.stage := rfl
@[simp] theorem State.setChop_gens : (s.setChop c x).gens = s.gens := rfl
@[simp] theorem State.setChop_injected : (s.setChop c x).injected = s.injected := rfl
@[simp] theorem State.setChop_image : (s.setChop c x).image = s.image := rfl
@[simp] theorem State.setChop_oldImage : (s.setChop c x).oldImage = s.oldImage := rfl
@[simp] theorem State.setChop_newImage : (s.setChop c x).newImage = s.newImage := rfl
@[simp] theorem State.setChop_collie : (s.setChop c x).collie = s.collie := rfl
@[simp] theorem State.setChop_txn : (s.setChop c x).txn = s.txn := rfl
@[simp] theorem State.setChop_exec : (s.setChop c x).exec = s.exec := rfl
@[simp] theorem State.setChop_img : (s.setChop c x).img = s.img := rfl
@[simp] theorem State.setChop_inputs : (s.setChop c x).inputs = s.inputs := rfl
@[simp] theorem State.setChop_quals : (s.setChop c x).quals = s.quals := rfl
@[simp] theorem State.setChop_ages : (s.setChop c x).ages = s.ages := rfl
@[simp] theorem State.setChop_pulses : (s.setChop c x).pulses = s.pulses := rfl
@[simp] theorem State.setChop_field : (s.setChop c x).field = s.field := rfl
@[simp] theorem State.setChop_analog : (s.setChop c x).analog = s.analog := rfl
@[simp] theorem State.setChop_mem : (s.setChop c x).mem = s.mem := rfl
@[simp] theorem State.setChop_capture : (s.setChop c x).capture = s.capture := rfl
@[simp] theorem State.setChop_glean : (s.setChop c x).glean = s.glean := rfl
@[simp] theorem State.setChop_gran : (s.setChop c x).gran = s.gran := rfl
@[simp] theorem State.setChop_slots : (s.setChop c x).slots = s.slots := rfl
@[simp] theorem State.setChop_ptp : (s.setChop c x).ptp = s.ptp := rfl
@[simp] theorem State.setChop_farm : (s.setChop c x).farm = s.farm := rfl
@[simp] theorem State.setChop_island : (s.setChop c x).island = s.island := rfl
@[simp] theorem State.setChop_resets : (s.setChop c x).resets = s.resets := rfl
@[simp] theorem State.setChop_joa : (s.setChop c x).joa = s.joa := rfl
@[simp] theorem State.setChop_sec : (s.setChop c x).sec = s.sec := rfl
end

section
variable (s : State) (u : Nat) (x : AUnit)
@[simp] theorem State.setAu_pending : (s.setAu u x).pending = s.pending := rfl
@[simp] theorem State.setAu_regs : (s.setAu u x).regs = s.regs := rfl
@[simp] theorem State.setAu_raw : (s.setAu u x).raw = s.raw := rfl
@[simp] theorem State.setAu_head : (s.setAu u x).head = s.head := rfl
@[simp] theorem State.setAu_evlog : (s.setAu u x).evlog = s.evlog := rfl
@[simp] theorem State.setAu_free : (s.setAu u x).free = s.free := rfl
@[simp] theorem State.setAu_readData : (s.setAu u x).readData = s.readData := rfl
@[simp] theorem State.setAu_latch : (s.setAu u x).latch = s.latch := rfl
@[simp] theorem State.setAu_group : (s.setAu u x).group = s.group := rfl
@[simp] theorem State.setAu_stage : (s.setAu u x).stage = s.stage := rfl
@[simp] theorem State.setAu_gens : (s.setAu u x).gens = s.gens := rfl
@[simp] theorem State.setAu_injected : (s.setAu u x).injected = s.injected := rfl
@[simp] theorem State.setAu_image : (s.setAu u x).image = s.image := rfl
@[simp] theorem State.setAu_oldImage : (s.setAu u x).oldImage = s.oldImage := rfl
@[simp] theorem State.setAu_newImage : (s.setAu u x).newImage = s.newImage := rfl
@[simp] theorem State.setAu_collie : (s.setAu u x).collie = s.collie := rfl
@[simp] theorem State.setAu_txn : (s.setAu u x).txn = s.txn := rfl
@[simp] theorem State.setAu_exec : (s.setAu u x).exec = s.exec := rfl
@[simp] theorem State.setAu_img : (s.setAu u x).img = s.img := rfl
@[simp] theorem State.setAu_inputs : (s.setAu u x).inputs = s.inputs := rfl
@[simp] theorem State.setAu_quals : (s.setAu u x).quals = s.quals := rfl
@[simp] theorem State.setAu_ages : (s.setAu u x).ages = s.ages := rfl
@[simp] theorem State.setAu_pulses : (s.setAu u x).pulses = s.pulses := rfl
@[simp] theorem State.setAu_field : (s.setAu u x).field = s.field := rfl
@[simp] theorem State.setAu_motion : (s.setAu u x).motion = s.motion := rfl
@[simp] theorem State.setAu_mem : (s.setAu u x).mem = s.mem := rfl
@[simp] theorem State.setAu_capture : (s.setAu u x).capture = s.capture := rfl
@[simp] theorem State.setAu_glean : (s.setAu u x).glean = s.glean := rfl
@[simp] theorem State.setAu_gran : (s.setAu u x).gran = s.gran := rfl
@[simp] theorem State.setAu_slots : (s.setAu u x).slots = s.slots := rfl
@[simp] theorem State.setAu_ptp : (s.setAu u x).ptp = s.ptp := rfl
@[simp] theorem State.setAu_farm : (s.setAu u x).farm = s.farm := rfl
@[simp] theorem State.setAu_island : (s.setAu u x).island = s.island := rfl
@[simp] theorem State.setAu_resets : (s.setAu u x).resets = s.resets := rfl
@[simp] theorem State.setAu_joa : (s.setAu u x).joa = s.joa := rfl
@[simp] theorem State.setAu_sec : (s.setAu u x).sec = s.sec := rfl
end

section
variable (s : State) (c : Nat) (x : Chan)
@[simp] theorem State.setChan_pending : (s.setChan c x).pending = s.pending := rfl
@[simp] theorem State.setChan_regs : (s.setChan c x).regs = s.regs := rfl
@[simp] theorem State.setChan_raw : (s.setChan c x).raw = s.raw := rfl
@[simp] theorem State.setChan_head : (s.setChan c x).head = s.head := rfl
@[simp] theorem State.setChan_evlog : (s.setChan c x).evlog = s.evlog := rfl
@[simp] theorem State.setChan_free : (s.setChan c x).free = s.free := rfl
@[simp] theorem State.setChan_readData : (s.setChan c x).readData = s.readData := rfl
@[simp] theorem State.setChan_latch : (s.setChan c x).latch = s.latch := rfl
@[simp] theorem State.setChan_group : (s.setChan c x).group = s.group := rfl
@[simp] theorem State.setChan_stage : (s.setChan c x).stage = s.stage := rfl
@[simp] theorem State.setChan_gens : (s.setChan c x).gens = s.gens := rfl
@[simp] theorem State.setChan_injected : (s.setChan c x).injected = s.injected := rfl
@[simp] theorem State.setChan_image : (s.setChan c x).image = s.image := rfl
@[simp] theorem State.setChan_oldImage : (s.setChan c x).oldImage = s.oldImage := rfl
@[simp] theorem State.setChan_newImage : (s.setChan c x).newImage = s.newImage := rfl
@[simp] theorem State.setChan_collie : (s.setChan c x).collie = s.collie := rfl
@[simp] theorem State.setChan_txn : (s.setChan c x).txn = s.txn := rfl
@[simp] theorem State.setChan_exec : (s.setChan c x).exec = s.exec := rfl
@[simp] theorem State.setChan_img : (s.setChan c x).img = s.img := rfl
@[simp] theorem State.setChan_inputs : (s.setChan c x).inputs = s.inputs := rfl
@[simp] theorem State.setChan_quals : (s.setChan c x).quals = s.quals := rfl
@[simp] theorem State.setChan_ages : (s.setChan c x).ages = s.ages := rfl
@[simp] theorem State.setChan_pulses : (s.setChan c x).pulses = s.pulses := rfl
@[simp] theorem State.setChan_field : (s.setChan c x).field = s.field := rfl
@[simp] theorem State.setChan_motion : (s.setChan c x).motion = s.motion := rfl
@[simp] theorem State.setChan_mem : (s.setChan c x).mem = s.mem := rfl
@[simp] theorem State.setChan_capture : (s.setChan c x).capture = s.capture := rfl
@[simp] theorem State.setChan_glean : (s.setChan c x).glean = s.glean := rfl
@[simp] theorem State.setChan_gran : (s.setChan c x).gran = s.gran := rfl
@[simp] theorem State.setChan_slots : (s.setChan c x).slots = s.slots := rfl
@[simp] theorem State.setChan_ptp : (s.setChan c x).ptp = s.ptp := rfl
@[simp] theorem State.setChan_farm : (s.setChan c x).farm = s.farm := rfl
@[simp] theorem State.setChan_island : (s.setChan c x).island = s.island := rfl
@[simp] theorem State.setChan_resets : (s.setChan c x).resets = s.resets := rfl
@[simp] theorem State.setChan_joa : (s.setChan c x).joa = s.joa := rfl
@[simp] theorem State.setChan_sec : (s.setChan c x).sec = s.sec := rfl
end

section
variable (s : State) (n : Nat) (x : CaptChan)
@[simp] theorem State.setCapt_pending : (s.setCapt n x).pending = s.pending := rfl
@[simp] theorem State.setCapt_regs : (s.setCapt n x).regs = s.regs := rfl
@[simp] theorem State.setCapt_raw : (s.setCapt n x).raw = s.raw := rfl
@[simp] theorem State.setCapt_head : (s.setCapt n x).head = s.head := rfl
@[simp] theorem State.setCapt_evlog : (s.setCapt n x).evlog = s.evlog := rfl
@[simp] theorem State.setCapt_free : (s.setCapt n x).free = s.free := rfl
@[simp] theorem State.setCapt_readData : (s.setCapt n x).readData = s.readData := rfl
@[simp] theorem State.setCapt_latch : (s.setCapt n x).latch = s.latch := rfl
@[simp] theorem State.setCapt_group : (s.setCapt n x).group = s.group := rfl
@[simp] theorem State.setCapt_stage : (s.setCapt n x).stage = s.stage := rfl
@[simp] theorem State.setCapt_gens : (s.setCapt n x).gens = s.gens := rfl
@[simp] theorem State.setCapt_injected : (s.setCapt n x).injected = s.injected := rfl
@[simp] theorem State.setCapt_image : (s.setCapt n x).image = s.image := rfl
@[simp] theorem State.setCapt_oldImage : (s.setCapt n x).oldImage = s.oldImage := rfl
@[simp] theorem State.setCapt_newImage : (s.setCapt n x).newImage = s.newImage := rfl
@[simp] theorem State.setCapt_collie : (s.setCapt n x).collie = s.collie := rfl
@[simp] theorem State.setCapt_txn : (s.setCapt n x).txn = s.txn := rfl
@[simp] theorem State.setCapt_exec : (s.setCapt n x).exec = s.exec := rfl
@[simp] theorem State.setCapt_img : (s.setCapt n x).img = s.img := rfl
@[simp] theorem State.setCapt_inputs : (s.setCapt n x).inputs = s.inputs := rfl
@[simp] theorem State.setCapt_quals : (s.setCapt n x).quals = s.quals := rfl
@[simp] theorem State.setCapt_ages : (s.setCapt n x).ages = s.ages := rfl
@[simp] theorem State.setCapt_pulses : (s.setCapt n x).pulses = s.pulses := rfl
@[simp] theorem State.setCapt_field : (s.setCapt n x).field = s.field := rfl
@[simp] theorem State.setCapt_motion : (s.setCapt n x).motion = s.motion := rfl
@[simp] theorem State.setCapt_analog : (s.setCapt n x).analog = s.analog := rfl
@[simp] theorem State.setCapt_mem : (s.setCapt n x).mem = s.mem := rfl
@[simp] theorem State.setCapt_glean : (s.setCapt n x).glean = s.glean := rfl
@[simp] theorem State.setCapt_gran : (s.setCapt n x).gran = s.gran := rfl
@[simp] theorem State.setCapt_slots : (s.setCapt n x).slots = s.slots := rfl
@[simp] theorem State.setCapt_ptp : (s.setCapt n x).ptp = s.ptp := rfl
@[simp] theorem State.setCapt_farm : (s.setCapt n x).farm = s.farm := rfl
@[simp] theorem State.setCapt_island : (s.setCapt n x).island = s.island := rfl
@[simp] theorem State.setCapt_resets : (s.setCapt n x).resets = s.resets := rfl
@[simp] theorem State.setCapt_joa : (s.setCapt n x).joa = s.joa := rfl
@[simp] theorem State.setCapt_sec : (s.setCapt n x).sec = s.sec := rfl
end

section
variable (s : State) (p : Nat) (x : FieldPort)
@[simp] theorem State.setFport_pending : (s.setFport p x).pending = s.pending := rfl
@[simp] theorem State.setFport_regs : (s.setFport p x).regs = s.regs := rfl
@[simp] theorem State.setFport_raw : (s.setFport p x).raw = s.raw := rfl
@[simp] theorem State.setFport_head : (s.setFport p x).head = s.head := rfl
@[simp] theorem State.setFport_evlog : (s.setFport p x).evlog = s.evlog := rfl
@[simp] theorem State.setFport_free : (s.setFport p x).free = s.free := rfl
@[simp] theorem State.setFport_readData : (s.setFport p x).readData = s.readData := rfl
@[simp] theorem State.setFport_latch : (s.setFport p x).latch = s.latch := rfl
@[simp] theorem State.setFport_group : (s.setFport p x).group = s.group := rfl
@[simp] theorem State.setFport_stage : (s.setFport p x).stage = s.stage := rfl
@[simp] theorem State.setFport_gens : (s.setFport p x).gens = s.gens := rfl
@[simp] theorem State.setFport_injected : (s.setFport p x).injected = s.injected := rfl
@[simp] theorem State.setFport_image : (s.setFport p x).image = s.image := rfl
@[simp] theorem State.setFport_oldImage : (s.setFport p x).oldImage = s.oldImage := rfl
@[simp] theorem State.setFport_newImage : (s.setFport p x).newImage = s.newImage := rfl
@[simp] theorem State.setFport_collie : (s.setFport p x).collie = s.collie := rfl
@[simp] theorem State.setFport_txn : (s.setFport p x).txn = s.txn := rfl
@[simp] theorem State.setFport_exec : (s.setFport p x).exec = s.exec := rfl
@[simp] theorem State.setFport_img : (s.setFport p x).img = s.img := rfl
@[simp] theorem State.setFport_inputs : (s.setFport p x).inputs = s.inputs := rfl
@[simp] theorem State.setFport_quals : (s.setFport p x).quals = s.quals := rfl
@[simp] theorem State.setFport_ages : (s.setFport p x).ages = s.ages := rfl
@[simp] theorem State.setFport_pulses : (s.setFport p x).pulses = s.pulses := rfl
@[simp] theorem State.setFport_motion : (s.setFport p x).motion = s.motion := rfl
@[simp] theorem State.setFport_analog : (s.setFport p x).analog = s.analog := rfl
@[simp] theorem State.setFport_mem : (s.setFport p x).mem = s.mem := rfl
@[simp] theorem State.setFport_capture : (s.setFport p x).capture = s.capture := rfl
@[simp] theorem State.setFport_glean : (s.setFport p x).glean = s.glean := rfl
@[simp] theorem State.setFport_gran : (s.setFport p x).gran = s.gran := rfl
@[simp] theorem State.setFport_slots : (s.setFport p x).slots = s.slots := rfl
@[simp] theorem State.setFport_ptp : (s.setFport p x).ptp = s.ptp := rfl
@[simp] theorem State.setFport_farm : (s.setFport p x).farm = s.farm := rfl
@[simp] theorem State.setFport_island : (s.setFport p x).island = s.island := rfl
@[simp] theorem State.setFport_resets : (s.setFport p x).resets = s.resets := rfl
@[simp] theorem State.setFport_joa : (s.setFport p x).joa = s.joa := rfl
@[simp] theorem State.setFport_sec : (s.setFport p x).sec = s.sec := rfl
end

section
variable (s : State) (p n : Nat) (x : StationSt)
@[simp] theorem State.setStn_pending : (s.setStn p n x).pending = s.pending := rfl
@[simp] theorem State.setStn_regs : (s.setStn p n x).regs = s.regs := rfl
@[simp] theorem State.setStn_raw : (s.setStn p n x).raw = s.raw := rfl
@[simp] theorem State.setStn_head : (s.setStn p n x).head = s.head := rfl
@[simp] theorem State.setStn_evlog : (s.setStn p n x).evlog = s.evlog := rfl
@[simp] theorem State.setStn_free : (s.setStn p n x).free = s.free := rfl
@[simp] theorem State.setStn_readData : (s.setStn p n x).readData = s.readData := rfl
@[simp] theorem State.setStn_latch : (s.setStn p n x).latch = s.latch := rfl
@[simp] theorem State.setStn_group : (s.setStn p n x).group = s.group := rfl
@[simp] theorem State.setStn_stage : (s.setStn p n x).stage = s.stage := rfl
@[simp] theorem State.setStn_gens : (s.setStn p n x).gens = s.gens := rfl
@[simp] theorem State.setStn_injected : (s.setStn p n x).injected = s.injected := rfl
@[simp] theorem State.setStn_image : (s.setStn p n x).image = s.image := rfl
@[simp] theorem State.setStn_oldImage : (s.setStn p n x).oldImage = s.oldImage := rfl
@[simp] theorem State.setStn_newImage : (s.setStn p n x).newImage = s.newImage := rfl
@[simp] theorem State.setStn_collie : (s.setStn p n x).collie = s.collie := rfl
@[simp] theorem State.setStn_txn : (s.setStn p n x).txn = s.txn := rfl
@[simp] theorem State.setStn_exec : (s.setStn p n x).exec = s.exec := rfl
@[simp] theorem State.setStn_img : (s.setStn p n x).img = s.img := rfl
@[simp] theorem State.setStn_inputs : (s.setStn p n x).inputs = s.inputs := rfl
@[simp] theorem State.setStn_quals : (s.setStn p n x).quals = s.quals := rfl
@[simp] theorem State.setStn_ages : (s.setStn p n x).ages = s.ages := rfl
@[simp] theorem State.setStn_pulses : (s.setStn p n x).pulses = s.pulses := rfl
@[simp] theorem State.setStn_motion : (s.setStn p n x).motion = s.motion := rfl
@[simp] theorem State.setStn_analog : (s.setStn p n x).analog = s.analog := rfl
@[simp] theorem State.setStn_mem : (s.setStn p n x).mem = s.mem := rfl
@[simp] theorem State.setStn_capture : (s.setStn p n x).capture = s.capture := rfl
@[simp] theorem State.setStn_glean : (s.setStn p n x).glean = s.glean := rfl
@[simp] theorem State.setStn_gran : (s.setStn p n x).gran = s.gran := rfl
@[simp] theorem State.setStn_slots : (s.setStn p n x).slots = s.slots := rfl
@[simp] theorem State.setStn_ptp : (s.setStn p n x).ptp = s.ptp := rfl
@[simp] theorem State.setStn_farm : (s.setStn p n x).farm = s.farm := rfl
@[simp] theorem State.setStn_island : (s.setStn p n x).island = s.island := rfl
@[simp] theorem State.setStn_resets : (s.setStn p n x).resets = s.resets := rfl
@[simp] theorem State.setStn_joa : (s.setStn p n x).joa = s.joa := rfl
@[simp] theorem State.setStn_sec : (s.setStn p n x).sec = s.sec := rfl
end

section
variable (s : State) (p : Nat) (x : CanPort)
@[simp] theorem State.setCan_pending : (s.setCan p x).pending = s.pending := rfl
@[simp] theorem State.setCan_regs : (s.setCan p x).regs = s.regs := rfl
@[simp] theorem State.setCan_raw : (s.setCan p x).raw = s.raw := rfl
@[simp] theorem State.setCan_head : (s.setCan p x).head = s.head := rfl
@[simp] theorem State.setCan_evlog : (s.setCan p x).evlog = s.evlog := rfl
@[simp] theorem State.setCan_free : (s.setCan p x).free = s.free := rfl
@[simp] theorem State.setCan_readData : (s.setCan p x).readData = s.readData := rfl
@[simp] theorem State.setCan_latch : (s.setCan p x).latch = s.latch := rfl
@[simp] theorem State.setCan_group : (s.setCan p x).group = s.group := rfl
@[simp] theorem State.setCan_stage : (s.setCan p x).stage = s.stage := rfl
@[simp] theorem State.setCan_gens : (s.setCan p x).gens = s.gens := rfl
@[simp] theorem State.setCan_injected : (s.setCan p x).injected = s.injected := rfl
@[simp] theorem State.setCan_image : (s.setCan p x).image = s.image := rfl
@[simp] theorem State.setCan_oldImage : (s.setCan p x).oldImage = s.oldImage := rfl
@[simp] theorem State.setCan_newImage : (s.setCan p x).newImage = s.newImage := rfl
@[simp] theorem State.setCan_collie : (s.setCan p x).collie = s.collie := rfl
@[simp] theorem State.setCan_txn : (s.setCan p x).txn = s.txn := rfl
@[simp] theorem State.setCan_exec : (s.setCan p x).exec = s.exec := rfl
@[simp] theorem State.setCan_img : (s.setCan p x).img = s.img := rfl
@[simp] theorem State.setCan_inputs : (s.setCan p x).inputs = s.inputs := rfl
@[simp] theorem State.setCan_quals : (s.setCan p x).quals = s.quals := rfl
@[simp] theorem State.setCan_ages : (s.setCan p x).ages = s.ages := rfl
@[simp] theorem State.setCan_pulses : (s.setCan p x).pulses = s.pulses := rfl
@[simp] theorem State.setCan_motion : (s.setCan p x).motion = s.motion := rfl
@[simp] theorem State.setCan_analog : (s.setCan p x).analog = s.analog := rfl
@[simp] theorem State.setCan_mem : (s.setCan p x).mem = s.mem := rfl
@[simp] theorem State.setCan_capture : (s.setCan p x).capture = s.capture := rfl
@[simp] theorem State.setCan_glean : (s.setCan p x).glean = s.glean := rfl
@[simp] theorem State.setCan_gran : (s.setCan p x).gran = s.gran := rfl
@[simp] theorem State.setCan_slots : (s.setCan p x).slots = s.slots := rfl
@[simp] theorem State.setCan_ptp : (s.setCan p x).ptp = s.ptp := rfl
@[simp] theorem State.setCan_farm : (s.setCan p x).farm = s.farm := rfl
@[simp] theorem State.setCan_island : (s.setCan p x).island = s.island := rfl
@[simp] theorem State.setCan_resets : (s.setCan p x).resets = s.resets := rfl
@[simp] theorem State.setCan_joa : (s.setCan p x).joa = s.joa := rfl
@[simp] theorem State.setCan_sec : (s.setCan p x).sec = s.sec := rfl
end

section
variable (s : State) (p n : Nat) (x : NodeSt)
@[simp] theorem State.setNode_pending : (s.setNode p n x).pending = s.pending := rfl
@[simp] theorem State.setNode_regs : (s.setNode p n x).regs = s.regs := rfl
@[simp] theorem State.setNode_raw : (s.setNode p n x).raw = s.raw := rfl
@[simp] theorem State.setNode_head : (s.setNode p n x).head = s.head := rfl
@[simp] theorem State.setNode_evlog : (s.setNode p n x).evlog = s.evlog := rfl
@[simp] theorem State.setNode_free : (s.setNode p n x).free = s.free := rfl
@[simp] theorem State.setNode_readData : (s.setNode p n x).readData = s.readData := rfl
@[simp] theorem State.setNode_latch : (s.setNode p n x).latch = s.latch := rfl
@[simp] theorem State.setNode_group : (s.setNode p n x).group = s.group := rfl
@[simp] theorem State.setNode_stage : (s.setNode p n x).stage = s.stage := rfl
@[simp] theorem State.setNode_gens : (s.setNode p n x).gens = s.gens := rfl
@[simp] theorem State.setNode_injected : (s.setNode p n x).injected = s.injected := rfl
@[simp] theorem State.setNode_image : (s.setNode p n x).image = s.image := rfl
@[simp] theorem State.setNode_oldImage : (s.setNode p n x).oldImage = s.oldImage := rfl
@[simp] theorem State.setNode_newImage : (s.setNode p n x).newImage = s.newImage := rfl
@[simp] theorem State.setNode_collie : (s.setNode p n x).collie = s.collie := rfl
@[simp] theorem State.setNode_txn : (s.setNode p n x).txn = s.txn := rfl
@[simp] theorem State.setNode_exec : (s.setNode p n x).exec = s.exec := rfl
@[simp] theorem State.setNode_img : (s.setNode p n x).img = s.img := rfl
@[simp] theorem State.setNode_inputs : (s.setNode p n x).inputs = s.inputs := rfl
@[simp] theorem State.setNode_quals : (s.setNode p n x).quals = s.quals := rfl
@[simp] theorem State.setNode_ages : (s.setNode p n x).ages = s.ages := rfl
@[simp] theorem State.setNode_pulses : (s.setNode p n x).pulses = s.pulses := rfl
@[simp] theorem State.setNode_motion : (s.setNode p n x).motion = s.motion := rfl
@[simp] theorem State.setNode_analog : (s.setNode p n x).analog = s.analog := rfl
@[simp] theorem State.setNode_mem : (s.setNode p n x).mem = s.mem := rfl
@[simp] theorem State.setNode_capture : (s.setNode p n x).capture = s.capture := rfl
@[simp] theorem State.setNode_glean : (s.setNode p n x).glean = s.glean := rfl
@[simp] theorem State.setNode_gran : (s.setNode p n x).gran = s.gran := rfl
@[simp] theorem State.setNode_slots : (s.setNode p n x).slots = s.slots := rfl
@[simp] theorem State.setNode_ptp : (s.setNode p n x).ptp = s.ptp := rfl
@[simp] theorem State.setNode_farm : (s.setNode p n x).farm = s.farm := rfl
@[simp] theorem State.setNode_island : (s.setNode p n x).island = s.island := rfl
@[simp] theorem State.setNode_resets : (s.setNode p n x).resets = s.resets := rfl
@[simp] theorem State.setNode_joa : (s.setNode p n x).joa = s.joa := rfl
@[simp] theorem State.setNode_sec : (s.setNode p n x).sec = s.sec := rfl
end

section
variable (s : State) (p : Nat) (x : SerPort)
@[simp] theorem State.setSer_pending : (s.setSer p x).pending = s.pending := rfl
@[simp] theorem State.setSer_regs : (s.setSer p x).regs = s.regs := rfl
@[simp] theorem State.setSer_raw : (s.setSer p x).raw = s.raw := rfl
@[simp] theorem State.setSer_head : (s.setSer p x).head = s.head := rfl
@[simp] theorem State.setSer_evlog : (s.setSer p x).evlog = s.evlog := rfl
@[simp] theorem State.setSer_free : (s.setSer p x).free = s.free := rfl
@[simp] theorem State.setSer_readData : (s.setSer p x).readData = s.readData := rfl
@[simp] theorem State.setSer_latch : (s.setSer p x).latch = s.latch := rfl
@[simp] theorem State.setSer_group : (s.setSer p x).group = s.group := rfl
@[simp] theorem State.setSer_stage : (s.setSer p x).stage = s.stage := rfl
@[simp] theorem State.setSer_gens : (s.setSer p x).gens = s.gens := rfl
@[simp] theorem State.setSer_injected : (s.setSer p x).injected = s.injected := rfl
@[simp] theorem State.setSer_image : (s.setSer p x).image = s.image := rfl
@[simp] theorem State.setSer_oldImage : (s.setSer p x).oldImage = s.oldImage := rfl
@[simp] theorem State.setSer_newImage : (s.setSer p x).newImage = s.newImage := rfl
@[simp] theorem State.setSer_collie : (s.setSer p x).collie = s.collie := rfl
@[simp] theorem State.setSer_txn : (s.setSer p x).txn = s.txn := rfl
@[simp] theorem State.setSer_exec : (s.setSer p x).exec = s.exec := rfl
@[simp] theorem State.setSer_img : (s.setSer p x).img = s.img := rfl
@[simp] theorem State.setSer_inputs : (s.setSer p x).inputs = s.inputs := rfl
@[simp] theorem State.setSer_quals : (s.setSer p x).quals = s.quals := rfl
@[simp] theorem State.setSer_ages : (s.setSer p x).ages = s.ages := rfl
@[simp] theorem State.setSer_pulses : (s.setSer p x).pulses = s.pulses := rfl
@[simp] theorem State.setSer_motion : (s.setSer p x).motion = s.motion := rfl
@[simp] theorem State.setSer_analog : (s.setSer p x).analog = s.analog := rfl
@[simp] theorem State.setSer_mem : (s.setSer p x).mem = s.mem := rfl
@[simp] theorem State.setSer_capture : (s.setSer p x).capture = s.capture := rfl
@[simp] theorem State.setSer_glean : (s.setSer p x).glean = s.glean := rfl
@[simp] theorem State.setSer_gran : (s.setSer p x).gran = s.gran := rfl
@[simp] theorem State.setSer_slots : (s.setSer p x).slots = s.slots := rfl
@[simp] theorem State.setSer_ptp : (s.setSer p x).ptp = s.ptp := rfl
@[simp] theorem State.setSer_farm : (s.setSer p x).farm = s.farm := rfl
@[simp] theorem State.setSer_island : (s.setSer p x).island = s.island := rfl
@[simp] theorem State.setSer_resets : (s.setSer p x).resets = s.resets := rfl
@[simp] theorem State.setSer_joa : (s.setSer p x).joa = s.joa := rfl
@[simp] theorem State.setSer_sec : (s.setSer p x).sec = s.sec := rfl
end

section
variable (s : State) (p n : Nat) (x : SlaveSt)
@[simp] theorem State.setSlave_pending : (s.setSlave p n x).pending = s.pending := rfl
@[simp] theorem State.setSlave_regs : (s.setSlave p n x).regs = s.regs := rfl
@[simp] theorem State.setSlave_raw : (s.setSlave p n x).raw = s.raw := rfl
@[simp] theorem State.setSlave_head : (s.setSlave p n x).head = s.head := rfl
@[simp] theorem State.setSlave_evlog : (s.setSlave p n x).evlog = s.evlog := rfl
@[simp] theorem State.setSlave_free : (s.setSlave p n x).free = s.free := rfl
@[simp] theorem State.setSlave_readData : (s.setSlave p n x).readData = s.readData := rfl
@[simp] theorem State.setSlave_latch : (s.setSlave p n x).latch = s.latch := rfl
@[simp] theorem State.setSlave_group : (s.setSlave p n x).group = s.group := rfl
@[simp] theorem State.setSlave_stage : (s.setSlave p n x).stage = s.stage := rfl
@[simp] theorem State.setSlave_gens : (s.setSlave p n x).gens = s.gens := rfl
@[simp] theorem State.setSlave_injected : (s.setSlave p n x).injected = s.injected := rfl
@[simp] theorem State.setSlave_image : (s.setSlave p n x).image = s.image := rfl
@[simp] theorem State.setSlave_oldImage : (s.setSlave p n x).oldImage = s.oldImage := rfl
@[simp] theorem State.setSlave_newImage : (s.setSlave p n x).newImage = s.newImage := rfl
@[simp] theorem State.setSlave_collie : (s.setSlave p n x).collie = s.collie := rfl
@[simp] theorem State.setSlave_txn : (s.setSlave p n x).txn = s.txn := rfl
@[simp] theorem State.setSlave_exec : (s.setSlave p n x).exec = s.exec := rfl
@[simp] theorem State.setSlave_img : (s.setSlave p n x).img = s.img := rfl
@[simp] theorem State.setSlave_inputs : (s.setSlave p n x).inputs = s.inputs := rfl
@[simp] theorem State.setSlave_quals : (s.setSlave p n x).quals = s.quals := rfl
@[simp] theorem State.setSlave_ages : (s.setSlave p n x).ages = s.ages := rfl
@[simp] theorem State.setSlave_pulses : (s.setSlave p n x).pulses = s.pulses := rfl
@[simp] theorem State.setSlave_motion : (s.setSlave p n x).motion = s.motion := rfl
@[simp] theorem State.setSlave_analog : (s.setSlave p n x).analog = s.analog := rfl
@[simp] theorem State.setSlave_mem : (s.setSlave p n x).mem = s.mem := rfl
@[simp] theorem State.setSlave_capture : (s.setSlave p n x).capture = s.capture := rfl
@[simp] theorem State.setSlave_glean : (s.setSlave p n x).glean = s.glean := rfl
@[simp] theorem State.setSlave_gran : (s.setSlave p n x).gran = s.gran := rfl
@[simp] theorem State.setSlave_slots : (s.setSlave p n x).slots = s.slots := rfl
@[simp] theorem State.setSlave_ptp : (s.setSlave p n x).ptp = s.ptp := rfl
@[simp] theorem State.setSlave_farm : (s.setSlave p n x).farm = s.farm := rfl
@[simp] theorem State.setSlave_island : (s.setSlave p n x).island = s.island := rfl
@[simp] theorem State.setSlave_resets : (s.setSlave p n x).resets = s.resets := rfl
@[simp] theorem State.setSlave_joa : (s.setSlave p n x).joa = s.joa := rfl
@[simp] theorem State.setSlave_sec : (s.setSlave p n x).sec = s.sec := rfl
end

section
variable (s : State) (f : Nat) (g : FrameGen)
@[simp] theorem State.setGen_pending : (s.setGen f g).pending = s.pending := rfl
@[simp] theorem State.setGen_regs : (s.setGen f g).regs = s.regs := rfl
@[simp] theorem State.setGen_raw : (s.setGen f g).raw = s.raw := rfl
@[simp] theorem State.setGen_head : (s.setGen f g).head = s.head := rfl
@[simp] theorem State.setGen_evlog : (s.setGen f g).evlog = s.evlog := rfl
@[simp] theorem State.setGen_free : (s.setGen f g).free = s.free := rfl
@[simp] theorem State.setGen_readData : (s.setGen f g).readData = s.readData := rfl
@[simp] theorem State.setGen_latch : (s.setGen f g).latch = s.latch := rfl
@[simp] theorem State.setGen_group : (s.setGen f g).group = s.group := rfl
@[simp] theorem State.setGen_stage : (s.setGen f g).stage = s.stage := rfl
@[simp] theorem State.setGen_injected : (s.setGen f g).injected = s.injected := rfl
@[simp] theorem State.setGen_image : (s.setGen f g).image = s.image := rfl
@[simp] theorem State.setGen_oldImage : (s.setGen f g).oldImage = s.oldImage := rfl
@[simp] theorem State.setGen_newImage : (s.setGen f g).newImage = s.newImage := rfl
@[simp] theorem State.setGen_collie : (s.setGen f g).collie = s.collie := rfl
@[simp] theorem State.setGen_txn : (s.setGen f g).txn = s.txn := rfl
@[simp] theorem State.setGen_exec : (s.setGen f g).exec = s.exec := rfl
@[simp] theorem State.setGen_img : (s.setGen f g).img = s.img := rfl
@[simp] theorem State.setGen_inputs : (s.setGen f g).inputs = s.inputs := rfl
@[simp] theorem State.setGen_quals : (s.setGen f g).quals = s.quals := rfl
@[simp] theorem State.setGen_ages : (s.setGen f g).ages = s.ages := rfl
@[simp] theorem State.setGen_pulses : (s.setGen f g).pulses = s.pulses := rfl
@[simp] theorem State.setGen_field : (s.setGen f g).field = s.field := rfl
@[simp] theorem State.setGen_motion : (s.setGen f g).motion = s.motion := rfl
@[simp] theorem State.setGen_analog : (s.setGen f g).analog = s.analog := rfl
@[simp] theorem State.setGen_mem : (s.setGen f g).mem = s.mem := rfl
@[simp] theorem State.setGen_capture : (s.setGen f g).capture = s.capture := rfl
@[simp] theorem State.setGen_glean : (s.setGen f g).glean = s.glean := rfl
@[simp] theorem State.setGen_gran : (s.setGen f g).gran = s.gran := rfl
@[simp] theorem State.setGen_slots : (s.setGen f g).slots = s.slots := rfl
@[simp] theorem State.setGen_ptp : (s.setGen f g).ptp = s.ptp := rfl
@[simp] theorem State.setGen_farm : (s.setGen f g).farm = s.farm := rfl
@[simp] theorem State.setGen_island : (s.setGen f g).island = s.island := rfl
@[simp] theorem State.setGen_resets : (s.setGen f g).resets = s.resets := rfl
@[simp] theorem State.setGen_joa : (s.setGen f g).joa = s.joa := rfl
@[simp] theorem State.setGen_sec : (s.setGen f g).sec = s.sec := rfl
end

section
variable (s : State) (src q : Nat)
@[simp] theorem State.setQual_pending : (s.setQual src q).pending = s.pending := rfl
@[simp] theorem State.setQual_regs : (s.setQual src q).regs = s.regs := rfl
@[simp] theorem State.setQual_raw : (s.setQual src q).raw = s.raw := rfl
@[simp] theorem State.setQual_head : (s.setQual src q).head = s.head := rfl
@[simp] theorem State.setQual_evlog : (s.setQual src q).evlog = s.evlog := rfl
@[simp] theorem State.setQual_free : (s.setQual src q).free = s.free := rfl
@[simp] theorem State.setQual_readData : (s.setQual src q).readData = s.readData := rfl
@[simp] theorem State.setQual_latch : (s.setQual src q).latch = s.latch := rfl
@[simp] theorem State.setQual_group : (s.setQual src q).group = s.group := rfl
@[simp] theorem State.setQual_stage : (s.setQual src q).stage = s.stage := rfl
@[simp] theorem State.setQual_gens : (s.setQual src q).gens = s.gens := rfl
@[simp] theorem State.setQual_injected : (s.setQual src q).injected = s.injected := rfl
@[simp] theorem State.setQual_image : (s.setQual src q).image = s.image := rfl
@[simp] theorem State.setQual_oldImage : (s.setQual src q).oldImage = s.oldImage := rfl
@[simp] theorem State.setQual_newImage : (s.setQual src q).newImage = s.newImage := rfl
@[simp] theorem State.setQual_collie : (s.setQual src q).collie = s.collie := rfl
@[simp] theorem State.setQual_txn : (s.setQual src q).txn = s.txn := rfl
@[simp] theorem State.setQual_exec : (s.setQual src q).exec = s.exec := rfl
@[simp] theorem State.setQual_img : (s.setQual src q).img = s.img := rfl
@[simp] theorem State.setQual_inputs : (s.setQual src q).inputs = s.inputs := rfl
@[simp] theorem State.setQual_ages : (s.setQual src q).ages = s.ages := rfl
@[simp] theorem State.setQual_pulses : (s.setQual src q).pulses = s.pulses := rfl
@[simp] theorem State.setQual_field : (s.setQual src q).field = s.field := rfl
@[simp] theorem State.setQual_motion : (s.setQual src q).motion = s.motion := rfl
@[simp] theorem State.setQual_analog : (s.setQual src q).analog = s.analog := rfl
@[simp] theorem State.setQual_mem : (s.setQual src q).mem = s.mem := rfl
@[simp] theorem State.setQual_capture : (s.setQual src q).capture = s.capture := rfl
@[simp] theorem State.setQual_glean : (s.setQual src q).glean = s.glean := rfl
@[simp] theorem State.setQual_gran : (s.setQual src q).gran = s.gran := rfl
@[simp] theorem State.setQual_slots : (s.setQual src q).slots = s.slots := rfl
@[simp] theorem State.setQual_ptp : (s.setQual src q).ptp = s.ptp := rfl
@[simp] theorem State.setQual_farm : (s.setQual src q).farm = s.farm := rfl
@[simp] theorem State.setQual_island : (s.setQual src q).island = s.island := rfl
@[simp] theorem State.setQual_resets : (s.setQual src q).resets = s.resets := rfl
@[simp] theorem State.setQual_joa : (s.setQual src q).joa = s.joa := rfl
@[simp] theorem State.setQual_sec : (s.setQual src q).sec = s.sec := rfl
end

section
variable (s : State) (src b : Nat)
@[simp] theorem State.setAge_pending : (s.setAge src b).pending = s.pending := rfl
@[simp] theorem State.setAge_regs : (s.setAge src b).regs = s.regs := rfl
@[simp] theorem State.setAge_raw : (s.setAge src b).raw = s.raw := rfl
@[simp] theorem State.setAge_head : (s.setAge src b).head = s.head := rfl
@[simp] theorem State.setAge_evlog : (s.setAge src b).evlog = s.evlog := rfl
@[simp] theorem State.setAge_free : (s.setAge src b).free = s.free := rfl
@[simp] theorem State.setAge_readData : (s.setAge src b).readData = s.readData := rfl
@[simp] theorem State.setAge_latch : (s.setAge src b).latch = s.latch := rfl
@[simp] theorem State.setAge_group : (s.setAge src b).group = s.group := rfl
@[simp] theorem State.setAge_stage : (s.setAge src b).stage = s.stage := rfl
@[simp] theorem State.setAge_gens : (s.setAge src b).gens = s.gens := rfl
@[simp] theorem State.setAge_injected : (s.setAge src b).injected = s.injected := rfl
@[simp] theorem State.setAge_image : (s.setAge src b).image = s.image := rfl
@[simp] theorem State.setAge_oldImage : (s.setAge src b).oldImage = s.oldImage := rfl
@[simp] theorem State.setAge_newImage : (s.setAge src b).newImage = s.newImage := rfl
@[simp] theorem State.setAge_collie : (s.setAge src b).collie = s.collie := rfl
@[simp] theorem State.setAge_txn : (s.setAge src b).txn = s.txn := rfl
@[simp] theorem State.setAge_exec : (s.setAge src b).exec = s.exec := rfl
@[simp] theorem State.setAge_img : (s.setAge src b).img = s.img := rfl
@[simp] theorem State.setAge_inputs : (s.setAge src b).inputs = s.inputs := rfl
@[simp] theorem State.setAge_quals : (s.setAge src b).quals = s.quals := rfl
@[simp] theorem State.setAge_pulses : (s.setAge src b).pulses = s.pulses := rfl
@[simp] theorem State.setAge_field : (s.setAge src b).field = s.field := rfl
@[simp] theorem State.setAge_motion : (s.setAge src b).motion = s.motion := rfl
@[simp] theorem State.setAge_analog : (s.setAge src b).analog = s.analog := rfl
@[simp] theorem State.setAge_mem : (s.setAge src b).mem = s.mem := rfl
@[simp] theorem State.setAge_capture : (s.setAge src b).capture = s.capture := rfl
@[simp] theorem State.setAge_glean : (s.setAge src b).glean = s.glean := rfl
@[simp] theorem State.setAge_gran : (s.setAge src b).gran = s.gran := rfl
@[simp] theorem State.setAge_slots : (s.setAge src b).slots = s.slots := rfl
@[simp] theorem State.setAge_ptp : (s.setAge src b).ptp = s.ptp := rfl
@[simp] theorem State.setAge_farm : (s.setAge src b).farm = s.farm := rfl
@[simp] theorem State.setAge_island : (s.setAge src b).island = s.island := rfl
@[simp] theorem State.setAge_resets : (s.setAge src b).resets = s.resets := rfl
@[simp] theorem State.setAge_joa : (s.setAge src b).joa = s.joa := rfl
@[simp] theorem State.setAge_sec : (s.setAge src b).sec = s.sec := rfl
end

section
variable (s : State) (u : Nat) (x : UplinkMeas)
@[simp] theorem State.setMeas_pending : (s.setMeas u x).pending = s.pending := rfl
@[simp] theorem State.setMeas_regs : (s.setMeas u x).regs = s.regs := rfl
@[simp] theorem State.setMeas_raw : (s.setMeas u x).raw = s.raw := rfl
@[simp] theorem State.setMeas_head : (s.setMeas u x).head = s.head := rfl
@[simp] theorem State.setMeas_evlog : (s.setMeas u x).evlog = s.evlog := rfl
@[simp] theorem State.setMeas_free : (s.setMeas u x).free = s.free := rfl
@[simp] theorem State.setMeas_readData : (s.setMeas u x).readData = s.readData := rfl
@[simp] theorem State.setMeas_latch : (s.setMeas u x).latch = s.latch := rfl
@[simp] theorem State.setMeas_group : (s.setMeas u x).group = s.group := rfl
@[simp] theorem State.setMeas_stage : (s.setMeas u x).stage = s.stage := rfl
@[simp] theorem State.setMeas_gens : (s.setMeas u x).gens = s.gens := rfl
@[simp] theorem State.setMeas_injected : (s.setMeas u x).injected = s.injected := rfl
@[simp] theorem State.setMeas_image : (s.setMeas u x).image = s.image := rfl
@[simp] theorem State.setMeas_oldImage : (s.setMeas u x).oldImage = s.oldImage := rfl
@[simp] theorem State.setMeas_newImage : (s.setMeas u x).newImage = s.newImage := rfl
@[simp] theorem State.setMeas_collie : (s.setMeas u x).collie = s.collie := rfl
@[simp] theorem State.setMeas_txn : (s.setMeas u x).txn = s.txn := rfl
@[simp] theorem State.setMeas_exec : (s.setMeas u x).exec = s.exec := rfl
@[simp] theorem State.setMeas_img : (s.setMeas u x).img = s.img := rfl
@[simp] theorem State.setMeas_inputs : (s.setMeas u x).inputs = s.inputs := rfl
@[simp] theorem State.setMeas_quals : (s.setMeas u x).quals = s.quals := rfl
@[simp] theorem State.setMeas_ages : (s.setMeas u x).ages = s.ages := rfl
@[simp] theorem State.setMeas_pulses : (s.setMeas u x).pulses = s.pulses := rfl
@[simp] theorem State.setMeas_field : (s.setMeas u x).field = s.field := rfl
@[simp] theorem State.setMeas_motion : (s.setMeas u x).motion = s.motion := rfl
@[simp] theorem State.setMeas_analog : (s.setMeas u x).analog = s.analog := rfl
@[simp] theorem State.setMeas_mem : (s.setMeas u x).mem = s.mem := rfl
@[simp] theorem State.setMeas_capture : (s.setMeas u x).capture = s.capture := rfl
@[simp] theorem State.setMeas_glean : (s.setMeas u x).glean = s.glean := rfl
@[simp] theorem State.setMeas_gran : (s.setMeas u x).gran = s.gran := rfl
@[simp] theorem State.setMeas_slots : (s.setMeas u x).slots = s.slots := rfl
@[simp] theorem State.setMeas_farm : (s.setMeas u x).farm = s.farm := rfl
@[simp] theorem State.setMeas_island : (s.setMeas u x).island = s.island := rfl
@[simp] theorem State.setMeas_resets : (s.setMeas u x).resets = s.resets := rfl
@[simp] theorem State.setMeas_joa : (s.setMeas u x).joa = s.joa := rfl
@[simp] theorem State.setMeas_sec : (s.setMeas u x).sec = s.sec := rfl
end

section
variable (s : State) (f : Security → Security)
@[simp] theorem State.modSec_pending : (s.modSec f).pending = s.pending := rfl
@[simp] theorem State.modSec_regs : (s.modSec f).regs = s.regs := rfl
@[simp] theorem State.modSec_raw : (s.modSec f).raw = s.raw := rfl
@[simp] theorem State.modSec_head : (s.modSec f).head = s.head := rfl
@[simp] theorem State.modSec_evlog : (s.modSec f).evlog = s.evlog := rfl
@[simp] theorem State.modSec_free : (s.modSec f).free = s.free := rfl
@[simp] theorem State.modSec_readData : (s.modSec f).readData = s.readData := rfl
@[simp] theorem State.modSec_latch : (s.modSec f).latch = s.latch := rfl
@[simp] theorem State.modSec_group : (s.modSec f).group = s.group := rfl
@[simp] theorem State.modSec_stage : (s.modSec f).stage = s.stage := rfl
@[simp] theorem State.modSec_gens : (s.modSec f).gens = s.gens := rfl
@[simp] theorem State.modSec_injected : (s.modSec f).injected = s.injected := rfl
@[simp] theorem State.modSec_image : (s.modSec f).image = s.image := rfl
@[simp] theorem State.modSec_oldImage : (s.modSec f).oldImage = s.oldImage := rfl
@[simp] theorem State.modSec_newImage : (s.modSec f).newImage = s.newImage := rfl
@[simp] theorem State.modSec_collie : (s.modSec f).collie = s.collie := rfl
@[simp] theorem State.modSec_txn : (s.modSec f).txn = s.txn := rfl
@[simp] theorem State.modSec_exec : (s.modSec f).exec = s.exec := rfl
@[simp] theorem State.modSec_img : (s.modSec f).img = s.img := rfl
@[simp] theorem State.modSec_inputs : (s.modSec f).inputs = s.inputs := rfl
@[simp] theorem State.modSec_quals : (s.modSec f).quals = s.quals := rfl
@[simp] theorem State.modSec_ages : (s.modSec f).ages = s.ages := rfl
@[simp] theorem State.modSec_pulses : (s.modSec f).pulses = s.pulses := rfl
@[simp] theorem State.modSec_field : (s.modSec f).field = s.field := rfl
@[simp] theorem State.modSec_motion : (s.modSec f).motion = s.motion := rfl
@[simp] theorem State.modSec_analog : (s.modSec f).analog = s.analog := rfl
@[simp] theorem State.modSec_mem : (s.modSec f).mem = s.mem := rfl
@[simp] theorem State.modSec_capture : (s.modSec f).capture = s.capture := rfl
@[simp] theorem State.modSec_glean : (s.modSec f).glean = s.glean := rfl
@[simp] theorem State.modSec_gran : (s.modSec f).gran = s.gran := rfl
@[simp] theorem State.modSec_slots : (s.modSec f).slots = s.slots := rfl
@[simp] theorem State.modSec_ptp : (s.modSec f).ptp = s.ptp := rfl
@[simp] theorem State.modSec_farm : (s.modSec f).farm = s.farm := rfl
@[simp] theorem State.modSec_island : (s.modSec f).island = s.island := rfl
@[simp] theorem State.modSec_resets : (s.modSec f).resets = s.resets := rfl
@[simp] theorem State.modSec_joa : (s.modSec f).joa = s.joa := rfl
end

section
variable (s : State) (f : Island → Island)
@[simp] theorem State.modIsland_pending : (s.modIsland f).pending = s.pending := rfl
@[simp] theorem State.modIsland_regs : (s.modIsland f).regs = s.regs := rfl
@[simp] theorem State.modIsland_raw : (s.modIsland f).raw = s.raw := rfl
@[simp] theorem State.modIsland_head : (s.modIsland f).head = s.head := rfl
@[simp] theorem State.modIsland_evlog : (s.modIsland f).evlog = s.evlog := rfl
@[simp] theorem State.modIsland_free : (s.modIsland f).free = s.free := rfl
@[simp] theorem State.modIsland_readData : (s.modIsland f).readData = s.readData := rfl
@[simp] theorem State.modIsland_latch : (s.modIsland f).latch = s.latch := rfl
@[simp] theorem State.modIsland_group : (s.modIsland f).group = s.group := rfl
@[simp] theorem State.modIsland_stage : (s.modIsland f).stage = s.stage := rfl
@[simp] theorem State.modIsland_gens : (s.modIsland f).gens = s.gens := rfl
@[simp] theorem State.modIsland_injected : (s.modIsland f).injected = s.injected := rfl
@[simp] theorem State.modIsland_image : (s.modIsland f).image = s.image := rfl
@[simp] theorem State.modIsland_oldImage : (s.modIsland f).oldImage = s.oldImage := rfl
@[simp] theorem State.modIsland_newImage : (s.modIsland f).newImage = s.newImage := rfl
@[simp] theorem State.modIsland_collie : (s.modIsland f).collie = s.collie := rfl
@[simp] theorem State.modIsland_txn : (s.modIsland f).txn = s.txn := rfl
@[simp] theorem State.modIsland_exec : (s.modIsland f).exec = s.exec := rfl
@[simp] theorem State.modIsland_img : (s.modIsland f).img = s.img := rfl
@[simp] theorem State.modIsland_inputs : (s.modIsland f).inputs = s.inputs := rfl
@[simp] theorem State.modIsland_quals : (s.modIsland f).quals = s.quals := rfl
@[simp] theorem State.modIsland_ages : (s.modIsland f).ages = s.ages := rfl
@[simp] theorem State.modIsland_pulses : (s.modIsland f).pulses = s.pulses := rfl
@[simp] theorem State.modIsland_field : (s.modIsland f).field = s.field := rfl
@[simp] theorem State.modIsland_motion : (s.modIsland f).motion = s.motion := rfl
@[simp] theorem State.modIsland_analog : (s.modIsland f).analog = s.analog := rfl
@[simp] theorem State.modIsland_mem : (s.modIsland f).mem = s.mem := rfl
@[simp] theorem State.modIsland_capture : (s.modIsland f).capture = s.capture := rfl
@[simp] theorem State.modIsland_glean : (s.modIsland f).glean = s.glean := rfl
@[simp] theorem State.modIsland_gran : (s.modIsland f).gran = s.gran := rfl
@[simp] theorem State.modIsland_slots : (s.modIsland f).slots = s.slots := rfl
@[simp] theorem State.modIsland_ptp : (s.modIsland f).ptp = s.ptp := rfl
@[simp] theorem State.modIsland_farm : (s.modIsland f).farm = s.farm := rfl
@[simp] theorem State.modIsland_resets : (s.modIsland f).resets = s.resets := rfl
@[simp] theorem State.modIsland_joa : (s.modIsland f).joa = s.joa := rfl
@[simp] theorem State.modIsland_sec : (s.modIsland f).sec = s.sec := rfl
end

section
variable (s : State) (f : Resets → Resets)
@[simp] theorem State.modResets_pending : (s.modResets f).pending = s.pending := rfl
@[simp] theorem State.modResets_regs : (s.modResets f).regs = s.regs := rfl
@[simp] theorem State.modResets_raw : (s.modResets f).raw = s.raw := rfl
@[simp] theorem State.modResets_head : (s.modResets f).head = s.head := rfl
@[simp] theorem State.modResets_evlog : (s.modResets f).evlog = s.evlog := rfl
@[simp] theorem State.modResets_free : (s.modResets f).free = s.free := rfl
@[simp] theorem State.modResets_readData : (s.modResets f).readData = s.readData := rfl
@[simp] theorem State.modResets_latch : (s.modResets f).latch = s.latch := rfl
@[simp] theorem State.modResets_group : (s.modResets f).group = s.group := rfl
@[simp] theorem State.modResets_stage : (s.modResets f).stage = s.stage := rfl
@[simp] theorem State.modResets_gens : (s.modResets f).gens = s.gens := rfl
@[simp] theorem State.modResets_injected : (s.modResets f).injected = s.injected := rfl
@[simp] theorem State.modResets_image : (s.modResets f).image = s.image := rfl
@[simp] theorem State.modResets_oldImage : (s.modResets f).oldImage = s.oldImage := rfl
@[simp] theorem State.modResets_newImage : (s.modResets f).newImage = s.newImage := rfl
@[simp] theorem State.modResets_collie : (s.modResets f).collie = s.collie := rfl
@[simp] theorem State.modResets_txn : (s.modResets f).txn = s.txn := rfl
@[simp] theorem State.modResets_exec : (s.modResets f).exec = s.exec := rfl
@[simp] theorem State.modResets_img : (s.modResets f).img = s.img := rfl
@[simp] theorem State.modResets_inputs : (s.modResets f).inputs = s.inputs := rfl
@[simp] theorem State.modResets_quals : (s.modResets f).quals = s.quals := rfl
@[simp] theorem State.modResets_ages : (s.modResets f).ages = s.ages := rfl
@[simp] theorem State.modResets_pulses : (s.modResets f).pulses = s.pulses := rfl
@[simp] theorem State.modResets_field : (s.modResets f).field = s.field := rfl
@[simp] theorem State.modResets_motion : (s.modResets f).motion = s.motion := rfl
@[simp] theorem State.modResets_analog : (s.modResets f).analog = s.analog := rfl
@[simp] theorem State.modResets_mem : (s.modResets f).mem = s.mem := rfl
@[simp] theorem State.modResets_capture : (s.modResets f).capture = s.capture := rfl
@[simp] theorem State.modResets_glean : (s.modResets f).glean = s.glean := rfl
@[simp] theorem State.modResets_gran : (s.modResets f).gran = s.gran := rfl
@[simp] theorem State.modResets_slots : (s.modResets f).slots = s.slots := rfl
@[simp] theorem State.modResets_ptp : (s.modResets f).ptp = s.ptp := rfl
@[simp] theorem State.modResets_farm : (s.modResets f).farm = s.farm := rfl
@[simp] theorem State.modResets_island : (s.modResets f).island = s.island := rfl
@[simp] theorem State.modResets_joa : (s.modResets f).joa = s.joa := rfl
@[simp] theorem State.modResets_sec : (s.modResets f).sec = s.sec := rfl
end

/-! What is read where it was set. -/

@[simp] theorem State.session_setSession (s : State) (k : Nat) (x : JoaSession) : (s.setSession k x).session k = x := by
  simp [State.setSession, State.session]
@[simp] theorem State.run_setRun (s : State) (k : Nat) (x : Option Run) : (s.setRun k x).run k = x := by
  simp [State.setRun, State.run, State.core, State.setCore]
@[simp] theorem State.core_setCore (s : State) (k : Nat) (x : Core) : (s.setCore k x).core k = x := by
  simp [State.setCore, State.core]
@[simp] theorem State.task_setTask (s : State) (k : Nat) (x : TaskState) : (s.setTask k x).task k = x := by
  simp [State.setTask, State.task]
@[simp] theorem State.flow_setFlow (s : State) (k : Nat) (x : Flow) : (s.setFlow k x).flow k = x := by
  simp [State.setFlow, State.flow]
@[simp] theorem State.tx_setTx (s : State) (k : Nat) (x : Txn) : (s.setTx k x).tx k = x := by
  simp [State.setTx, State.tx]
@[simp] theorem State.axis_setAxis (s : State) (k : Nat) (x : Axis) : (s.setAxis k x).axis k = x := by
  simp [State.setAxis, State.axis]
@[simp] theorem State.chop_setChop (s : State) (k : Nat) (x : Chopper) : (s.setChop k x).chop k = x := by
  simp [State.setChop, State.chop]
@[simp] theorem State.au_setAu (s : State) (k : Nat) (x : AUnit) : (s.setAu k x).au k = x := by
  simp [State.setAu, State.au]
@[simp] theorem State.chan_setChan (s : State) (k : Nat) (x : Chan) : (s.setChan k x).chan k = x := by
  simp [State.setChan, State.chan]
@[simp] theorem State.capt_setCapt (s : State) (k : Nat) (x : CaptChan) : (s.setCapt k x).capt k = x := by
  simp [State.setCapt, State.capt]
@[simp] theorem State.fport_setFport (s : State) (k : Nat) (x : FieldPort) : (s.setFport k x).fport k = x := by
  simp [State.setFport, State.fport]
@[simp] theorem State.stn_setStn (s : State) (p k : Nat) (x : StationSt) : (s.setStn p k x).stn p k = x := by
  simp [State.setStn, State.stn]
@[simp] theorem State.can_setCan (s : State) (k : Nat) (x : CanPort) : (s.setCan k x).can k = x := by
  simp [State.setCan, State.can]
@[simp] theorem State.node_setNode (s : State) (p k : Nat) (x : NodeSt) : (s.setNode p k x).node p k = x := by
  simp [State.setNode, State.node]
@[simp] theorem State.ser_setSer (s : State) (k : Nat) (x : SerPort) : (s.setSer k x).ser k = x := by
  simp [State.setSer, State.ser]
@[simp] theorem State.slave_setSlave (s : State) (p k : Nat) (x : SlaveSt) : (s.setSlave p k x).slave p k = x := by
  simp [State.setSlave, State.slave]
@[simp] theorem State.gen_setGen (s : State) (k : Nat) (x : FrameGen) : (s.setGen k x).gen k = x := by
  simp [State.setGen, State.gen]

end Sys2Proof.Machine
end

