-- ==== Sys2Proof/Tests/Slice0.lean ====
section
/-! SUPPORT. Tests: ill-formed commands are refused; values that the spec works out by hand; and, for each statement with hypotheses, a
state and operands that meet them. -/

open Sys2Proof Sys2Proof.Machine

namespace Sys2Proof.Tests
set_option Elab.async false
set_option linter.all false

/-- A state with register fields set. -/
def puts (l : List (Reg × Fld × Nat)) (s : State) : State := l.foldl (fun t x => t.put x.1 x.2.1 x.2.2) s

/-- A state with registers set. -/
def regs (l : List (Reg × Word)) (s : State) : State := l.foldl (fun t x => t.setReg x.1 x.2) s

/-! ### Ill-formed commands -/

theorem test_wf_core : (Instr.vnowRead (.core 36)).wf = false := by decide
theorem test_wf_core_last : (Instr.vnowRead (.core 35)).wf = true := by decide
theorem test_wf_dma : (Instr.vnowRead (.dma 24)).wf = false := by decide
theorem test_wf_session : (Instr.vnowRead (.joa 32)).wf = false := by decide
theorem test_wf_alias : (Instr.aliasSetWrite (.core 0) 0x18000000 0 1 false).wf = false := by decide
theorem test_wf_arith : (Instr.add 0 .b).wf = false := by decide
theorem test_wf_ints : (Instr.rem 0 .f32).wf = false := by decide
theorem test_wf_signed : (Instr.neg 0 .u32).wf = false := by decide
theorem test_wf_bits : (Instr.shl 0 .t64).wf = false := by decide
theorem test_wf_conv_bit7 : (Instr.conv 0 0x81).wf = false := by decide
theorem test_wf_conv_type7 : (Instr.conv 0 0x0F).wf = false := by decide
theorem test_wf_axcmd : (Instr.axcmd 0 (.d16 0) 7).wf = false := by decide
theorem test_wf_fence : (Instr.coreFenced 0 0).wf = false := by decide
theorem test_wf_udp4 : (Instr.identity ⟨0, 2 ^ 32, 1⟩ 0 0).wf = false := by decide
theorem test_wf_udp6 : (Instr.identity ⟨1, 2 ^ 128, 1⟩ 0 0).wf = false := by decide
theorem test_wf_mac : (Instr.identity ⟨2, 1, 1⟩ 0 0).wf = false := by decide
theorem test_wf_body : (Instr.segData 0 0 0 0 (List.replicate 8173 0)).wf = false := by decide +kernel
theorem test_wf_body_last : (Instr.segData 0 0 0 0 (List.replicate 8172 0)).wf = true := by decide +kernel
theorem test_wf_nonce : (Instr.hello ⟨0, 0, 0⟩ 0 0 0 0 [] (List.replicate 97 0) 0).wf = false := by decide
theorem test_wf_solicitation : (Instr.neighbourSolicitation 0 true []).wf = false := by decide

/-! ### Chapter 3: a run on core 0 -/

/-- Variables 0 to 10 of the kinds of their numbers, 11 a system point, 12 a station's point. -/
def vars : List VarDesc :=
  [⟨0, .i32, 2, 16, 0⟩, ⟨1, .i64, 2, 8, 0⟩, ⟨2, .b, 1, 5, 0⟩, ⟨3, .b, 1, 7, 0⟩, ⟨4, .b, 1, 3, 0⟩, ⟨5, .b, 1, 2, 0⟩, ⟨6, .i64, 4, 0, 3⟩,
   ⟨7, .b, 1, 1, 0⟩, ⟨8, .b, 1, 1, 0⟩, ⟨9, .b, 1, 1, 0⟩, ⟨10, .i64, 1, 4, 0⟩, ⟨2, .b, 1, 0x80000001, 0⟩, ⟨2, .b, 1, 0x20000000, 0⟩]

/-- A module of one function with two arguments and one result. -/
def aModule : Module :=
  { uid := 1, slot := 0, home := 0, id := 7, crc := 0, legacy := false, consts := [11], funcs := [⟨0, 2, 1, 4, 0, 8, 0⟩], vars := vars, pubs := [],
    recs := [], globalSize := 64, code := List.replicate 16 0, bytes := [], codeOff := 64, varOff := 0, pubOff := 0, recOff := 0 }

/-- The frame of a run with a stack. -/
def aFrame (stack : List Quad) : Frame := ⟨0, 4, [], stack⟩

/-- A run of task 9 with a stack. -/
def aRun (stack : List Quad) : Run :=
  { entry := ⟨9, 0, 0, 0xFFFF, none, none, 0, false, false, false, false, false⟩, mod := aModule, func := 0, old := false
    frames := [aFrame stack], work := [], journal := [], actions := [], snap := Snapshot.empty, cls := 0, now := 50, interval := 10, sys := 2
    phase := .executing, faulted := false, cancelled := false, stallWait := none, since := 0 }

/-- The state in which core 0 executes a run. -/
def running (r : Run) : State := State.reset.setRun 0 (some r)

theorem executes_aRun (l : List Quad) : Executes (running (aRun l)) 0 (aRun l) (aFrame l) [] := ⟨rfl, rfl, rfl⟩

theorem has_aRun (l : List Quad) (t : EType) : (aRun l).has t := nofun

/-- A run in compatibility decode. -/
def aLegacyRun : Run := { aRun [] with mod := { aModule with legacy := true } }

theorem test_legacy_types : aLegacyRun.has .i32 ∧ ¬aLegacyRun.has .i64 := by unfold Run.has; decide

theorem witness_StackRowsMoveCells :
    Executes (running (aRun [3, 2, 1])) 0 (aRun [3, 2, 1]) (aFrame [3, 2, 1]) [] ∧
      (aFrame [3, 2, 1]).stack = 3 :: 2 :: 1 :: [] ∧ (aFrame [3, 2, 1]).stack[(2 : BitVec 8).toNat]? = some 1 :=
  ⟨executes_aRun _, by decide⟩

theorem witness_PushRowsPushTheirOperand :
    Executes (running (aRun [])) 0 (aRun []) (aFrame []) [] ∧ (aRun []).mod.consts[(0 : BitVec 16).toNat]? = some 11 :=
  ⟨executes_aRun _, by decide⟩

theorem witness_LocalAndVariableRowsMoveCells :
    Executes (running (aRun [1, 1])) 0 (aRun [1, 1]) (aFrame [1, 1]) [] ∧ (aFrame [1, 1]).stack = 1 :: 1 :: [] ∧
      (∃ v : VarDesc, (aRun [1, 1]).mod.vars[(VarIdx.d16 0).idx]? = some v ∧ v.kind = 0 ∧ v.owner = (aRun [1, 1]).func ∧ (1 : Quad).toNat < v.elems) ∧
      (∃ v : VarDesc, (aRun [1, 1]).mod.vars[(VarIdx.d24 1).idx]? = some v ∧ v.kind = 1) :=
  ⟨executes_aRun _, rfl, ⟨⟨0, .i32, 2, 16, 0⟩, by decide⟩, ⟨⟨1, .i64, 2, 8, 0⟩, by decide⟩⟩

theorem witness_ArithmeticRowsGiveTheResult :
    Executes (running (aRun [2, 1])) 0 (aRun [2, 1]) (aFrame [2, 1]) [] ∧ (aFrame [2, 1]).stack = 2 :: 1 :: [] ∧
      (aRun [2, 1]).has .t64 :=
  ⟨executes_aRun _, rfl, has_aRun _ _⟩

theorem witness_DivideRowsTruncate :
    Executes (running (aRun [1, 7])) 0 (aRun [1, 7]) (aFrame [1, 7]) [] ∧ (aRun [1, 7]).has .i32 ∧ rdInt .i32 1 ≠ 0 ∧ rdInt .i32 0x100000000 = 0 ∧
      Executes (running (aRun [0, 7])) 0 (aRun [0, 7]) (aFrame [0, 7]) [] ∧ (taskFault 0 1 (running (aRun [0, 7]))).1 = true ∧
      (taskFault 0 1 (puts [(R.EXEC_t_TASK_CTRL 9, F.EXEC_t_TASK_CTRL.POLICY, 1)] (running (aRun [0, 7])))).1 = false :=
  ⟨executes_aRun _, has_aRun _ _, by decide, by decide, executes_aRun _, by decide +kernel, by decide +kernel⟩

theorem witness_CompareAndSelectRowsGiveTheResult :
    Executes (running (aRun [3, 2, 1])) 0 (aRun [3, 2, 1]) (aFrame [3, 2, 1]) [] ∧ (aFrame [3, 2, 1]).stack = 3 :: 2 :: 1 :: [] ∧
      (aRun [3, 2, 1]).has .i64 ∧ (aRun [0, 0x7FC00000]).has .f64 ∧ Executes (running (aRun [0, 0x7FC00000])) 0 (aRun [0, 0x7FC00000]) (aFrame [0, 0x7FC00000]) [] ∧
      fisNan (fmtOf .f32) (rdFlt .f32 0x7FC00000) = true ∧ fisNan (fmtOf .f64) (rdFlt .f64 0x7FF0000000000001) = true :=
  ⟨executes_aRun _, rfl, has_aRun _ _, has_aRun _ _, executes_aRun _, by decide, by decide⟩

theorem witness_BitRowsGiveTheResult :
    Executes (running (aRun [31, 1])) 0 (aRun [31, 1]) (aFrame [31, 1]) [] ∧ (aRun [31, 1]).has .i64 ∧
      (31 : Quad).toNat % 2 ^ bitWidth .i32 < bitWidth .i32 ∧ bitWidth .i32 ≤ (32 : Quad).toNat % 2 ^ bitWidth .i32 ∧
      (63 : Quad).toNat % 2 ^ bitWidth .i64 < bitWidth .i64 ∧ bitWidth .i64 ≤ (64 : Quad).toNat % 2 ^ bitWidth .i64 :=
  ⟨executes_aRun _, has_aRun _ _, by decide⟩

theorem witness_ConvRowConvertsTheCell :
    Executes (running (aRun [1])) 0 (aRun [1]) (aFrame [1]) [] ∧ (aFrame [1]).stack = 1 :: [] ∧
      (isFlt .i64 = false ∧ isFlt .i32 = false ∧ EType.i32 ≠ .b) ∧ isFlt .f32 = true ∧
      (∃ x, ftoI (fmtOf .f64) (rdFlt .f64 0x41DFFFFFFFC00000) = some x ∧ tyMin .i32 ≤ x ∧ x ≤ tyMax .i32) ∧
      fisNan (fmtOf .f32) (rdFlt .f32 0x7FC00000) = true ∧
      (ftoI (fmtOf .f64) (rdFlt .f64 0x41E0000000000000) = some 2147483648 ∧ tyMax .i32 < 2147483648) ∧
      (taskFault 0 2 (running (aRun [1]))).1 = true ∧
      (taskFault 0 2 (puts [(R.EXEC_t_TASK_CTRL 9, F.EXEC_t_TASK_CTRL.POLICY, 1)] (running (aRun [1])))).1 = false :=
  ⟨executes_aRun _, rfl, by decide, rfl, ⟨2147483647, by decide +kernel⟩, by decide, by decide +kernel, by decide +kernel,
    by decide +kernel⟩

theorem witness_BranchAndCallRowsMoveThePlace :
    Executes (running (aRun [1, 0])) 0 (aRun [1, 0]) (aFrame [1, 0]) [] ∧ (1 : Quad) ≠ 0 ∧
      (∃ d, (aRun [1, 0]).mod.funcs[(0 : BitVec 16).toNat]? = some d ∧ d.args ≤ (aFrame [1, 0]).stack.length) ∧
      Executes (running { aRun [1] with frames := [aFrame [1], aFrame []] }) 0 { aRun [1] with frames := [aFrame [1], aFrame []] } (aFrame [1])
        [aFrame []] :=
  ⟨executes_aRun _, by decide, ⟨⟨0, 2, 1, 4, 0, 8, 0⟩, by decide⟩, ⟨rfl, rfl, rfl⟩⟩

/-- A run whose snapshot holds an age of station 0 and a closed record, and whose journal holds a point. -/
def aReader : Run :=
  { aRun [1] with
    snap := { Snapshot.empty with
      ages := [(2 * 2 ^ 32, 1)], accs := [(3, { AccRec.empty with n := 1 })] },
    journal := [⟨7, .b, 1⟩] }

theorem witness_ProcessImageRowsReadAndJournal :
    Executes (running aReader) 0 aReader (aFrame [1]) [] ∧
      aReader.mod.legacy = false ∧ (∃ v : VarDesc, aReader.mod.vars[2]? = some v ∧ v.kind = 2 ∧ refKind v.loc = 0 ∧ refKind v.loc ≠ 8) ∧
      (∃ v : VarDesc, aReader.mod.vars[11]? = some v ∧ v.kind = 2 ∧ refKind v.loc = 8) ∧
      (∃ v : VarDesc, aReader.mod.vars[12]? = some v ∧ v.kind = 2 ∧ refKind v.loc = 2 ∧ tget 0 aReader.snap.ages (refSource v.loc) = 0 + 1) ∧
      (∃ v : VarDesc, aReader.mod.vars[3]? = some v ∧ v.kind = 3 ∧ aReader.journal.find? (fun e => e.point = v.loc) = some ⟨7, .b, 1⟩) ∧
      (∃ v : VarDesc, (aRun [1]).mod.vars[3]? = some v ∧ v.kind = 3 ∧ (∀ e ∈ (aRun [1]).journal, e.point ≠ v.loc) ∧ (aRun [1]).journal.length < 512) ∧
      (∃ v : VarDesc, aReader.mod.vars[5]? = some v ∧ v.kind = 5) ∧
      (∃ v : VarDesc, aReader.mod.vars[4]? = some v ∧ v.kind = 4 ∧ (tget AccRec.empty aReader.snap.accs v.loc).n ≠ 0) ∧
      (tget AccRec.empty (aRun [1]).snap.accs 3).n = 0 :=
  ⟨⟨rfl, rfl, rfl⟩, rfl, ⟨⟨2, .b, 1, 5, 0⟩, by decide⟩, ⟨⟨2, .b, 1, 0x80000001, 0⟩, by decide⟩, ⟨⟨2, .b, 1, 0x20000000, 0⟩, by decide⟩,
    ⟨⟨3, .b, 1, 7, 0⟩, by decide⟩, ⟨⟨3, .b, 1, 7, 0⟩, by decide⟩, ⟨⟨5, .b, 1, 2, 0⟩, by decide⟩, ⟨⟨4, .b, 1, 3, 0⟩, by decide⟩, by decide⟩

theorem witness_TimeAndBlockRowsGiveTheResult :
    Executes (running (aRun [4, 3])) 0 (aRun [4, 3]) (aFrame [4, 3]) [] ∧
      ∃ v : VarDesc, (aRun [4, 3]).mod.vars[(VarIdx.d16 6).idx]? = some v ∧ v.kind = 6 ∧ v.owner = (aRun [4, 3]).func ∧
        fbInputs (v.aux % 256) = some 2 ∧ 2 ≤ (aFrame [4, 3]).stack.length :=
  ⟨executes_aRun _, ⟨⟨6, .i64, 4, 0, 3⟩, by decide⟩⟩

/-- A run with all but one of the 512 places for actions taken. -/
def aStager (n : Nat) : Run := { aRun [1, 2] with actions := List.replicate n ⟨3, .i64, 7, 0, 0, 0, 0⟩ }

theorem witness_ActionRowsStageAnAction :
    Executes (running (aStager 511)) 0 (aStager 511) (aFrame [1, 2]) [] ∧ (aStager 511).mod.legacy = false ∧
      actionSize ((aStager 511).actions ++ [⟨3, .i64, 7, 0, 0xFFFF, 1, 0⟩]) ≤ 512 ∧
      (∃ v : VarDesc, (aStager 511).mod.vars[7]? = some v ∧ v.kind = 7) ∧ (∃ v : VarDesc, (aStager 511).mod.vars[8]? = some v ∧ v.kind = 8) ∧
      (∃ v : VarDesc, (aStager 511).mod.vars[9]? = some v ∧ v.kind = 9) ∧ ∃ v : VarDesc, (aStager 511).mod.vars[5]? = some v ∧ v.kind = 5 :=
  ⟨⟨rfl, rfl, rfl⟩, rfl, by decide +kernel, ⟨⟨7, .b, 1, 1, 0⟩, by decide⟩, ⟨⟨8, .b, 1, 1, 0⟩, by decide⟩, ⟨⟨9, .b, 1, 1, 0⟩, by decide⟩,
    ⟨⟨5, .b, 1, 2, 0⟩, by decide⟩⟩

/-- Task 9 has transaction 2, of generation 1, open. -/
def owning (r : Run) : State := (running r).setTx 2 { Txn.free with gen := 1, ownerKind := 1, ownerId := 9, state := 1 }

/-- Every transaction slot is taken. -/
def allOpen (s : State) : State :=
  { s with txn := { s.txn with slots := (List.range 64).map fun i => (i, { Txn.free with gen := 1, state := 1 }) } }

theorem witness_TransactionRowsStageAnAction :
    Executes (owning (aRun [5, 66])) 0 (aRun [5, 66]) (aFrame [5, 66]) [] ∧ (aRun [5, 66]).mod.legacy = false ∧ (owning (aRun [5, 66])).txFreeSlot = some 0 ∧
      actionSize (aRun [5, 66]).actions + 1 ≤ 512 ∧ (owning (aRun [5, 66])).txSlot (66 : Quad).toNat = some 2 ∧
      ((owning (aRun [5, 66])).tx 2).ownerKind = 1 ∧ ((owning (aRun [5, 66])).tx 2).ownerId = (aRun [5, 66]).entry.desc ∧
      (∃ v : VarDesc, (aRun [5, 66]).mod.vars[3]? = some v ∧ v.kind = 3) ∧ (∃ v : VarDesc, (aRun [5, 66]).mod.vars[5]? = some v ∧ v.kind = 5) ∧
      (running (aRun [5])).txSlot (66 : Quad).toNat = none ∧
      (taskFault 0 4 (puts [(R.EXEC_t_TASK_CTRL 9, F.EXEC_t_TASK_CTRL.POLICY, 1)] (running (aRun [66])))).1 = false :=
  ⟨⟨rfl, rfl, rfl⟩, rfl, by decide +kernel, by decide, by decide, by decide, by decide, ⟨⟨3, .b, 1, 7, 0⟩, by decide⟩,
    ⟨⟨5, .b, 1, 2, 0⟩, by decide⟩, by decide, by decide +kernel⟩

/-- A run whose journal is full. -/
def aScribe : Run := { aRun [1] with journal := (List.range 512).map fun i => ⟨i + 100, .b, 0⟩ }

theorem witness_RowsRaiseTheTaskFaults :
    (Executes (running (aRun [2, 2])) 0 (aRun [2, 2]) (aFrame [2, 2]) [] ∧
      ∃ v : VarDesc, (aRun [2, 2]).mod.vars[0]? = some v ∧ v.kind = 0 ∧ v.elems ≤ (2 : Quad).toNat) ∧
      (Executes (running (aRun [5, 66])) 0 (aRun [5, 66]) (aFrame [5, 66]) [] ∧ (running (aRun [5, 66])).txSlot (66 : Quad).toNat = none) ∧
      (Executes (allOpen (running (aRun []))) 0 (aRun []) (aFrame []) [] ∧ (allOpen (running (aRun []))).txFreeSlot = none ∧
        actionSize (aRun []).actions + 1 ≤ 512) ∧
      (Executes (running (aStager 512)) 0 (aStager 512) (aFrame [1, 2]) [] ∧ 512 < actionSize (aStager 512).actions + 1) ∧
      (Executes (running aScribe) 0 aScribe (aFrame [1]) [] ∧ aScribe.journal.length = 512 ∧
        ∃ v : VarDesc, aScribe.mod.vars[3]? = some v ∧ v.kind = 3 ∧ ∀ e ∈ aScribe.journal, e.point ≠ v.loc) :=
  ⟨⟨executes_aRun _, ⟨⟨0, .i32, 2, 16, 0⟩, by decide⟩⟩, ⟨executes_aRun _, by decide⟩, ⟨⟨rfl, rfl, rfl⟩, by decide +kernel, by decide⟩,
    ⟨⟨rfl, rfl, rfl⟩, by decide +kernel⟩, ⟨⟨rfl, rfl, rfl⟩, by decide +kernel, ⟨⟨3, .b, 1, 7, 0⟩, by decide +kernel⟩⟩⟩

theorem witness_TaskFaultsCountAndActByPolicy :
    (running (aRun [])).run 0 = some (aRun []) ∧ (aRun []).entry.desc < 4096 ∧ (aRun []).faulted = false ∧
      (running (aRun [])).flag R.EXEC_EVENTS F.EXEC_EVENTS.TASK_FAULT = false ∧
      (running (aRun [])).get (R.EXEC_t_TASK_CTRL 9) F.EXEC_t_TASK_CTRL.POLICY = 0 ∧
      (puts [(R.EXEC_t_TASK_CTRL 9, F.EXEC_t_TASK_CTRL.POLICY, 2)] (running (aRun []))).get (R.EXEC_t_TASK_CTRL 9)
        F.EXEC_t_TASK_CTRL.POLICY = 2 := by
  refine ⟨rfl, ?_⟩; decide +kernel

/-! ### Chapters 0 and 14: accesses -/

/-- The row of the register map at an offset. -/
def rowAt (o : Nat) : RegDesc := (regLookup o).getD ⟨0, 0, 0, 0, 0, 0, 0, 0, 0, 0, 0, 0, 0⟩

theorem witness_RegisterAccessesActByAccessCode :
    let o := (R.HEAD_SYNC_DEADBAND).addr
    BitVec.toNat (BitVec.ofNat 40 (0x20000000 + o)) / 4 * 4 = 0x20000000 + o ∧ o < 0x10000000 ∧ regLookup o = some (rowAt o) ∧
        (rowAt o).half = 0 ∧ ownedWrite (.core 35) o 0 State.reset = none ∧ o ≠ (R.CAPT_EVENTS).addr ∧ o ≠ (R.GLEAN_EVENTS).addr ∧
        o ≠ (R.TIME_VNOW_LO).addr ∧ regIdx R.ACC_c_N 256 o = none ∧ regIdx R.ACC_c_TRK_MIN 256 o = none ∧
        tget none State.reset.group (masterKey (.core 35) o) = none := by
  decide +kernel

theorem witness_PairsAreReadAndWrittenWhole :
    let o := 0x40048
    BitVec.toNat (0x20040048 : BitVec 40) = 0x20000000 + o ∧ o % 4 = 0 ∧ o < 0x0FFFFFF0 ∧ regLookup o = some (rowAt o) ∧
      regLookup (o + 4) = some (rowAt (o + 4)) ∧ (rowAt o).half = 1 ∧ (rowAt (o + 4)).half = 2 ∧
      (o ≠ (R.TIME_VNOW_LO).addr ∧ regIdx R.ACC_c_N 256 o = none ∧ regIdx R.ACC_c_TRK_MIN 256 o = none) ∧
      (o + 4 ≠ (R.TIME_VNOW_LO).addr ∧ regIdx R.ACC_c_N 256 (o + 4) = none ∧ regIdx R.ACC_c_TRK_MIN 256 (o + 4) = none) ∧
      tget none State.reset.group (masterKey (.joa 31) o) = none ∧ tget none State.reset.latch (masterKey (.joa 31) o) = none ∧
      (o + 4 ≠ (R.TIME_OFFSET_HI).addr ∧ o + 4 ≠ (R.GLEAN_SIG_DEADBAND_HI).addr ∧ regIdx R.AXIS_n_VMAX_HI 64 (o + 4) = none ∧
        regIdx2 R.CAPT_n_k_LEVEL_HI 16 4 (o + 4) = none) ∧
      (rowAt o).rw ≠ 0 ∧ (rowAt (o + 4)).rw ≠ 0 ∧ tget none State.reset.stage (masterKey (.joa 31) o) = none ∧
      liveRead State.reset o = none ∧ (rowAt o).wo = 0 := by
  decide +kernel

/-- Bank 4 is owned by plot 0. -/
def banked : State := puts [(R.MEM_k_CFG 4, F.MEM_k_CFG.OWNED, 1), (R.MEM_k_OWNER 4, F.MEM_k_OWNER.OWNER, 1)] State.reset

theorem witness_AliasWritesSetAndClearBits :
    (BitVec.toNat (0x11000000 : BitVec 40) % 8 = 0 ∧ bankFault banked (ownerOf (.core 0) banked) 0x11000000 true = 0 ∧
      0x11000000 / 8 * 8 ∉ banked.gran.poison ∧ bankOf 0x11000000 = some 4 ∧
      banked.flag (R.MEM_k_OWNER 4) F.MEM_k_OWNER.DRAINING = false) ∧
      (bankFault State.reset (ownerOf (.core 35) State.reset) 0x10C00004 true = 0 ∧
        retainedAt State.reset (0x10C00000 / 0x400000 % 4) (0x10C00000 % 0x400000) = none) ∧
      BitVec.toNat (0x11000002 : BitVec 40) % 4 ≠ 0 ∧ bankFault banked (ownerOf (.core 9) banked) 0x11000000 true ≠ 0 := by
  decide +kernel

theorem witness_BankWritesObeyOwnersAndWindows :
    (bankFault State.reset (ownerOf (.core 0) State.reset) 0x13FFFFFC true = 4 ∧ bankOf 0x13FFFFFC = none) ∧
      (bankOf 0x13800000 = some 8 ∧ State.reset.inSecure 0x13800000 = true) ∧
      (bankOf 0x11000000 = some 4 ∧ banked.inSecure 0x11000000 = false ∧ banked.flag (R.MEM_k_CFG 4) F.MEM_k_CFG.OWNED = true ∧
        banked.get (R.MEM_k_OWNER 4) F.MEM_k_OWNER.OWNER ≠ ownerOf (.core 9) banked) ∧
      (bankFault banked (ownerOf (.core 0) banked) 0x11000000 true = 0 ∧ banked.flag (R.MEM_k_OWNER 4) F.MEM_k_OWNER.DRAINING = false ∧
        0x11000000 ∉ banked.gran.poison) ∧
      ({ banked with gran := { banked.gran with poison := [0x11000000] } }.gran.poison = [0x11000000]) ∧
      (0x10000000 / 8 * 8 ∉ State.reset.gran.poison ∧ retainedAt State.reset (0x10000000 / 0x400000 % 4) (0x10000000 % 0x400000) = none ∧
        bankOf 0x10000000 = some 0 ∧ bankFault State.reset (ownerOf (.core 0) State.reset) 0x10000000 true = 0) ∧
      bankOf 0x13400000 = some 7 := by
  decide +kernel

theorem witness_ViolationsAreCountedAndRecorded : 5 < 8 ∧ 0x18000000 < 2 ^ 40 := by decide

theorem witness_UnmappedAccessesAreRecorded :
    0x20000000 ≤ BitVec.toNat (0x2FFFFFFC : BitVec 40) ∧ BitVec.toNat (0x2FFFFFFC : BitVec 40) < 0x30000000 ∧
      regLookup (BitVec.toNat (0x2FFFFFFC : BitVec 40) / 4 * 4 - 0x20000000) = none := by
  decide +kernel

theorem witness_EventsAreSetAndNoted :
    F.MEM_EVENTS.VIOLATION.width = 1 ∧ F.MEM_EVENTS.VIOLATION.lo < 32 ∧ State.reset.evlog.length ≤ 1024 ∧
      (R.MEM_EVENTS).addr ≠ (R.SYS_EVENTS).addr ∧ (R.MEM_EVENTS).addr ≠ (R.SYS_EVLOG_HEAD).addr ∧
      (R.MEM_EVENTS).addr ≠ (R.SYS_EVLOG_LOST).addr := by
  decide

/-! ### Chapter 2 -/

/-- The generator runs, tracks HEADSYNC, and has a window at base index 4. -/
def tracking : State :=
  let s := puts [(R.HEAD_CTRL, F.HEAD_CTRL.RUN, 1), (R.HEAD_CTRL, F.HEAD_CTRL.SYNC_EN, 1), (R.HEAD_STATUS, F.HEAD_STATUS.SYNC_STATE, 1)] State.reset
  { s with head := { s.head with armed := true, nextB := 4, nextActual := 4194304, firstEdge := false, windows := [⟨4, 4194304, 0, false⟩] } }

theorem witness_RateAdjIsClampedAndKeepsTheTerm :
    (-549755813 ≤ BitVec.toInt (549755813 : Word) ∧ BitVec.toInt (549755813 : Word) ≤ 549755813) ∧
      549755813 < BitVec.toInt (549755814 : Word) ∧ BitVec.toInt (BitVec.ofInt 32 (-549755814)) < -549755813 := by
  decide

theorem witness_TheClockIsSetSeatedAndRead :
    (State.reset.flag R.TIME_STATUS F.TIME_STATUS.SEATED = false ∧ State.reset.ctrlStopped = true ∧ State.reset.headRun = false) ∧
      (tracking.headRun = true ∧ tracking.ctrlStopped = true ∧ tracking.flag R.TIME_STATUS F.TIME_STATUS.SEATED = false) ∧
      (puts [(R.TIME_STATUS, F.TIME_STATUS.SEATED, 1)] State.reset).flag R.TIME_STATUS F.TIME_STATUS.SEATED = true ∧
      (puts [(R.EXEC_STATUS, F.EXEC_STATUS.STATE, 1)] State.reset).ctrlStopped = false ∧
      (puts [(R.EXEC_STATUS, F.EXEC_STATUS.STATE, 1)] State.reset).ctrlRunning = true ∧
      { State.reset with ptp := { State.reset.ptp with waitSeat := true } }.ptp.waitSeat = true := by
  decide +kernel

theorem witness_GeneratorSettingsAreChecked :
    (State.reset.headRun = false ∧ 64 ≤ BitVec.toNat (64 : Word) ∧ BitVec.toNat (16384 : Word) ≤ 16384 ∧ farmPeriodOk 64 State.reset = true) ∧
      (tracking.headRun = true ∧ BitVec.toNat (63 : Word) < 64 ∧ 16384 < BitVec.toNat (16385 : Word)) ∧
      (fldOf F.HEAD_n_CLASS_CFG.PHASE 0x00010001 < fldOf F.HEAD_n_CLASS_CFG.K_M1 0x00010001 + 1 ∧ farmClassOk 3 0x00010001 State.reset = true) ∧
      fldOf F.HEAD_n_CLASS_CFG.K_M1 0x00010000 + 1 ≤ fldOf F.HEAD_n_CLASS_CFG.PHASE 0x00010000 ∧
      fldOf F.HEAD_SYNC_CFG.SYNC_PHASE 0x00010001 < fldOf F.HEAD_SYNC_CFG.DIV_M1 0x00010001 + 1 ∧
      fldOf F.HEAD_SYNC_CFG.DIV_M1 0x00010000 + 1 ≤ fldOf F.HEAD_SYNC_CFG.SYNC_PHASE 0x00010000 := by
  decide +kernel

theorem witness_RunStartsAndStopsTheGenerator :
    (State.reset.leadFollowed = true ∧ State.reset.headRun = false ∧ State.reset.resets.loaded = false ∧ 0 < State.reset.pg) ∧
      ({ State.reset with resets := { State.reset.resets with loaded := true } }.resets.loaded = true ∧ 0 ≤ State.reset.vNow) ∧
      (tracking.headRun = true ∧ tracking.ctrlStopped = true ∧ tracking.leadFollowed = true) ∧
      ((State.reset.setReg R.SYS_FARM 1).leadFollowed = false ∧ (State.reset.setReg R.SYS_FARM 1).headRun = false) ∧ (puts [(R.EXEC_STATUS, F.EXEC_STATUS.STATE, 1)] tracking).ctrlStopped = false := by
  decide +kernel

theorem witness_SyncEnableDisableAndRearm :
    (fldOf F.HEAD_CTRL.RUN 0 = 1 ↔ State.reset.headRun = true) ∧ State.reset.flag R.HEAD_CTRL F.HEAD_CTRL.SYNC_EN = false ∧
      (fldOf F.HEAD_CTRL.RUN 3 = 1 ↔ tracking.headRun = true) ∧ fldOf F.HEAD_CTRL.SYNC_EN 3 = 1 ∧ fldOf F.HEAD_CTRL.SYNC_EN 1 = 0 ∧
      tracking.flag R.HEAD_CTRL F.HEAD_CTRL.SYNC_EN = true := by
  decide +kernel

/-- The first edge accepted may be anywhere in the window. -/
def atFirst : State := { tracking with head := { tracking.head with firstEdge := true } }

theorem witness_HeadsyncEdgesMoveTheTargetOrLoseSync :
    (tracking.get R.HEAD_STATUS F.HEAD_STATUS.SYNC_STATE = 1 ∧ tracking.isFollower = false ∧
      windowOf tracking.pg (tracking.vAt (4194304 + (tracking.reg R.HEAD_SYNC_COMP).signExtend 64)) tracking.head.windows =
        some ⟨4, 4194304, 0, false⟩) ∧
      ((tracking.syncDiv : Int) * tracking.pSlew < 100000 ∧
        windowOf tracking.pg (tracking.vAt (4294304 + (tracking.reg R.HEAD_SYNC_COMP).signExtend 64)) tracking.head.windows =
          some ⟨4, 4194304, 0, false⟩) ∧
      (atFirst.head.firstEdge = true ∧ 256 * (atFirst.reg R.HEAD_PERIOD).toNat < 300000 ∧
        windowOf atFirst.pg (atFirst.vAt (4494304 + (atFirst.reg R.HEAD_SYNC_COMP).signExtend 64)) atFirst.head.windows =
          some ⟨4, 4194304, 0, false⟩) ∧
      (tracking.edgeEarly 4194304 = false ∧ tracking.edgeEarly (tracking.vAt 4800000) = true) ∧
      windowOf tracking.pg (tracking.vAt 0) tracking.head.windows = none := by
  decide +kernel

theorem witness_HeadsyncWindowsCloseAsMisses :
    tracking.head.windows = ⟨4, 4194304, 0, false⟩ :: [] ∧ tracking.isFollower = false ∧
      tracking.get R.HEAD_STATUS F.HEAD_STATUS.SYNC_STATE = 1 ∧
      (let u := puts [(R.HEAD_SYNC_MISS, F.HEAD_SYNC_MISS.MISS_LIMIT, 2)] tracking
       min 15 (u.get R.HEAD_SYNC_MISS F.HEAD_SYNC_MISS.MISS_COUNT + 1) < u.get R.HEAD_SYNC_MISS F.HEAD_SYNC_MISS.MISS_LIMIT) ∧
      (let u := puts [(R.HEAD_SYNC_MISS, F.HEAD_SYNC_MISS.MISS_LIMIT, 1)] tracking
       u.get R.HEAD_SYNC_MISS F.HEAD_SYNC_MISS.MISS_LIMIT ≤ min 15 (u.get R.HEAD_SYNC_MISS F.HEAD_SYNC_MISS.MISS_COUNT + 1)) ∧
      State.reset.get R.HEAD_STATUS F.HEAD_STATUS.SYNC_STATE ≠ 1 := by
  decide +kernel

/-- All events of a headland are still to come. -/
def atHeadland : State :=
  { tracking with head := { tracking.head with sealDue := true, tasksDue := true, switchDue := true, dacDue := true, classDue := 15 } }

theorem witness_HeadlandsAreRecordedAndOpenTheNextInterval :
    State.reset.head.armed = false ∧ tracking.head.armed = true ∧ tracking.shutStep ≠ 1 ∧ tracking.classAt 0 tracking.head.nextB = true ∧
      (puts [(R.HEAD_n_CLASS_CFG 3, F.HEAD_n_CLASS_CFG.K_M1, 2)] tracking).classAt 3 4 = false := by
  decide +kernel

theorem witness_SnapshotsHoldTheInputImage : State.reset.forces true = [] := by decide +kernel

/-- Task 5 of class C0, enabled, while the controller runs. -/
def withTask : State :=
  let s := puts [(R.EXEC_STATUS, F.EXEC_STATUS.STATE, 1), (R.EXEC_t_TASK_CTRL 5, F.EXEC_t_TASK_CTRL.ENABLE, 1)] atHeadland
  { s with
    head := { s.head with sealDue := false }
    image := { s.image with tasks := [(5, { TaskDesc.unused with kind := 1, prio := 2, cls := 0, home := 3 })] } }

theorem witness_SealedImagesReachPinsAndDacs :
    (nextDue atHeadland.head.sealDue atHeadland.headRaw atHeadland.head.safeSeal = some atHeadland.headRaw) ∧
      (let u : State := { State.reset with head := { State.reset.head with safeSeal := some 9, safeSwitch := some 9, safeDac := some 9 } }
       nextDue u.head.sealDue u.headRaw u.head.safeSeal = some 9 ∧ u.head.safeSeal.isSome = true) ∧
      (let u : State := { atHeadland with head := { atHeadland.head with sealDue := false, tasksDue := false, safeSwitch := some 9, safeDac := some 9 } }
       nextDue (u.head.switchDue && u.headlandServed) u.headRaw (if u.head.safeSeal.isNone then u.head.safeSwitch else none) = some 0 ∧
        nextDue (u.head.dacDue && !u.head.sealDue) u.headRaw (if u.head.safeSeal.isNone then u.head.safeDac else none) = some 0) ∧
      State.reset.head.sealDue = false ∧ State.reset.head.safeSeal = none ∧ State.reset.head.switchDue = false ∧
      State.reset.head.safeSwitch = none ∧ State.reset.head.dacDue = false ∧ State.reset.head.safeDac = none := by
  decide +kernel

theorem witness_TasksBecomeReadyAfterTheSeal :
    atHeadland.head.sealDue = true ∧ State.reset.head.tasksDue = false ∧ atHeadland.ctrlRunning = false ∧
      (withTask.head.tasksDue = true ∧ withTask.head.sealDue = false ∧ withTask.ctrlRunning = true ∧ withTask.standby = false ∧
        (5, withTask.desc 5) ∈ withTask.image.tasks ∧ (withTask.desc 5).kind = 1 ∧ (withTask.desc 5).cls < 4 ∧ (withTask.desc 5).home < 4 ∧
        natBit withTask.head.classDue (withTask.desc 5).cls = true ∧ withTask.taskEnabled 5 = true ∧ (withTask.task 5).st = 0 ∧ 5 ∉ withTask.collie.cancels.2) := by
  decide +kernel

/-! ### Chapter 5 -/

/-- Descriptors 1 to 4: a cyclic task, an event task that may spill, the handler of flow 6, and a waitpoint of task 2. -/
def yardImage : Image :=
  { Image.none_ with
    modules := [aModule]
    tasks := [(1, { TaskDesc.unused with kind := 1, prio := 1, cls := 0, depth := 1 }),
      (2, { TaskDesc.unused with kind := 2, prio := 2, spill := true, depth := 1, link := 0xFFFF }),
      (3, { TaskDesc.unused with kind := 3, prio := 3, link := 6 }), (4, { TaskDesc.unused with kind := 4, link := 2, depth := 1 })]
    flows := [(6, ⟨3, 8, true⟩)] }

/-- The controller runs with the four descriptors enabled; cores 0 and 9 wait at heel. -/
def yard : State :=
  let s := puts ([(R.EXEC_STATUS, F.EXEC_STATUS.STATE, 1), (R.COLLIE_CTRL, F.COLLIE_CTRL.SPILL_EN, 1)] ++
    ([1, 2, 3, 4].map fun n => (R.EXEC_t_TASK_CTRL n, F.EXEC_t_TASK_CTRL.ENABLE, 1))) State.reset
  ((({ s with image := yardImage, raw := 1000 }).setCore 0 ⟨none, true, 0⟩).setCore 9 ⟨none, true, 0⟩)

/-- A ready entry of a descriptor. -/
def entry (n : Nat) : ReadyEntry := ⟨n, 5, 7, 0xFFFF, none, none, 0, false, false, false, false, false⟩

/-- Task 2 is ready in plot 0. -/
def yardReady : State := (yard.setReady 0 2 [entry 2]).setTask 2 { TaskState.idle with st := 1 }

/-- Task 2 is ready in plot 0, and no core of the plot is at heel. -/
def yardBusy : State := yardReady.setCore 0 Core.idle

theorem witness_DispatchHandsTheFirstEntryToACoreAtHeel :
    (yard.run 0 = none ∧ yard.role 0 = 0) ∧ ((running (aRun [])).run 0 ≠ none) ∧
      (yardReady.ctrlRunning = true ∧ yardReady.exec.pfail = none ∧
        readyInOrder yardReady 0 = [] ++ (2, 0, entry 2) :: [] ∧ moduleOf yardReady.image (yardReady.descOf false 2) = some aModule ∧
        dispatchable yardReady (entry 2) = true ∧ (coresOf 0).find? (mayRun yardReady (entry 2)) = some 0) ∧
      (readyInOrder yardBusy 0 = [] ++ (2, 0, entry 2) :: [] ∧ yardBusy.flag R.COLLIE_CTRL F.COLLIE_CTRL.SPILL_EN = true ∧
        maySpill yardBusy 0 (entry 2) = true ∧ spillCore yardBusy 0 = some 9 ∧ yardBusy.ctrlRunning = true ∧ yardBusy.exec.pfail = none) ∧
      State.reset.ctrlRunning = false := by
  decide +kernel

/-- A run of a descriptor that has ended, with a journal entry. -/
def ended (n : Nat) : Run :=
  { aRun [] with entry := entry n, phase := .ended, journal := [⟨7, .b, 1⟩], work := [(0, 3)] }

/-- Core 0 executes a run of a task. -/
def yardRun (r : Run) : State := (yard.setRun 0 (some r)).setTask r.entry.desc { TaskState.idle with st := 2, core := some 0 }

/-- The release area of plot 0 has no room. -/
def fullArea (s : State) : State := { s with image := { s.image with releaseBytes := [(0, 0)] } }

theorem witness_CompletionHandsOverTheRun :
    ((yardRun (ended 1)).run 0 = some (ended 1) ∧ (yardRun (ended 1)).role 0 = 0 ∧ (ended 1).phase = .ended ∧
      releaseFits (yardRun (ended 1)) 0 (releaseOf (yardRun (ended 1)) 0 (ended 1) none).bytes = true) ∧
      ({ ended 2 with phase := .waiting 4 }.phase = .waiting 4 ∧ (entry 2).seq = none ∧ 4 ≠ (entry 2).desc) ∧
      ({ ended 1 with phase := .stalled }.phase = .stalled) ∧
      releaseFits (fullArea (yardRun (ended 1))) 0 (releaseOf (fullArea (yardRun (ended 1))) 0 (ended 1) none).bytes = false ∧
      { ended 3 with entry := { entry 3 with seq := some 0 } }.entry.seq.isSome = true ∧
      (((ended 1).mod.funcs[((yardRun (ended 1)).descOf false 1).func]?).map fun f => f.retain) = some 0 ∧
      (let u := puts [(R.MEM_k_OWNER 0, F.MEM_k_OWNER.OWNER, 5)] (yardRun (ended 1))
       plotOwned u (u.descOf false 1).home = false) := by
  decide +kernel

/-- The release of a run of task 1. -/
def aRelease : Release := ⟨1, 0, 0, true, none, false, 0xFFFF, 0xFFFF, 7, [⟨7, .b, 1⟩], [], false, false⟩

theorem witness_ReleasesFoldJournalsAndRunActions :
    firstRelease (yard.setReleases 0 [aRelease]) 0 (fun x => !x.folded) = some (0, aRelease) ∧
      firstRelease yard 0 (fun x => !x.folded) = none ∧ firstRelease yard 0 (fun x => !x.released) = none ∧
      firstRelease (yard.setReleases 0 [{ aRelease with folded := true }]) 0 (fun x => !x.released) =
        some (0, { aRelease with folded := true }) ∧
      (aRelease.actions = [] ∧ aRelease.flow = none ∧ ∀ x ∈ [{ aRelease with folded := true }], (x.folded && x.released) = false) ∧
      (let u := (yard.setFlow 6 ⟨0, [⟨0, 1, 2, 0xFFFF, .ready, none⟩]⟩).setReleases 0
        [{ aRelease with flow := some (6, 0), released := true }]
       (firstRelease u 0 (fun x => !x.folded)).isSome = true) := by
  decide +kernel

theorem witness_PostsReachTheirDescriptor :
    (oldWaiter yard 2 = none ∧ yard.collie.poolUsed < 8192 ∧ (yard.desc 2).kind = 2 ∧ yard.ctrlStopped = false ∧ yard.taskEnabled 2 = true ∧
      (yard.task 2).st = 0 ∧ yard.cancelledIn 2 yard.raw = false) ∧
      { yard with collie := { yard.collie with cancels := (collieCycle yard.raw, [2]) } }.cancelledIn 2 yard.raw = true ∧
      ((yardReady.task 2).st ≠ 0 ∧ (yardReady.task 2).queue.length < (yardReady.desc 2).depth) ∧
      (let u := yardReady.setTask 2 { TaskState.idle with st := 1, queue := [⟨0, 0, 0⟩] }
       (u.task 2).st ≠ 0 ∧ (u.desc 2).depth ≤ (u.task 2).queue.length) ∧
      (let u := yard.setTask 2 { TaskState.idle with st := 3, save := some (4, []) }
       (u.desc 4).kind = 4 ∧ u.taskEnabled (u.desc 4).link = true ∧ (u.task (u.desc 4).link).st = 3 ∧
        (u.task (u.desc 4).link).save = some (4, []) ∧ waitingItem u (u.desc (u.desc 4).link).link 4 = none ∧ oldWaiter u 4 = none ∧
        u.cancelledIn (u.desc 4).link u.raw = false) ∧
      ((yard.task (yard.desc 4).link).st ≠ 3 ∧ waitingItem yard (yard.desc (yard.desc 4).link).link 4 = none ∧
        (yard.task 4).queue.length < (yard.desc 4).depth) ∧
      (let u : State := { yard with collie := { yard.collie with hwPosts := [⟨2, 5, none⟩, ⟨2, 6, some (9, 9)⟩] } }
       u.collie.hwPosts = ⟨2, 5, none⟩ :: [⟨2, 6, some (9, 9)⟩] ∧ (u.desc 2).kind = 2) ∧
      { yard with collie := { yard.collie with poolUsed := 8192 } }.collie.poolUsed = 8192 ∧
      (puts [(R.EXEC_t_TASK_CTRL 2, F.EXEC_t_TASK_CTRL.ENABLE, 0)] yard).taskEnabled 2 = false ∧
      (puts [(R.EXEC_STATUS, F.EXEC_STATUS.STATE, 0)] yard).ctrlStopped = true ∧ (yard.desc 1).kind = 1 ∧
      State.reset.collie.hwPosts = [] := by
  decide +kernel

/-- A delay of task 2 that expires at 3,072. -/
def aDelay : DelayEntry := ⟨3000, 3072, 2, 5, 0xFFFF⟩

/-- The state in which it waits. -/
def delayed : State := { yard with collie := { yard.collie with delays := [(2, [aDelay])] } }

theorem witness_DelaysExpireIntoPosts :
    nextExpiry State.reset = none ∧ nextExpiry delayed = some 3072 ∧ (allDelays delayed).filter (fun y => y.expiry = 3072) = [aDelay] := by
  decide +kernel

/-- Flow 6 holds an item in waiting. -/
def flowing : State := yard.setFlow 6 ⟨0, [⟨0, 1, 2, 0xFFFF, .queued, none⟩]⟩

theorem witness_CancelsTakePendingWorkAway :
    ((yard.desc 2).kind = 2 ∧ (yardReady.task 2).st = 1 ∧ ∀ i ∈ readyKeys, ∀ e ∈ tget [] yardReady.collie.ready i, e.desc = 2 → e.here yardReady = true) ∧
      (yard.desc 4).kind = 4 ∧ ((flowing.desc 3).kind = 3 ∧ ((flowing.flow 6).items.map (·.seq)).Nodup) ∧
      (∃ it ∈ (flowing.flow 6).items, it.seq = (flowing.reg R.COLLIE_CMD_SEQ).toNat) ∧ (yard.flow 6).items = [] := by
  decide +kernel

/-- Core 0 is fenced, once. -/
def fencedOnce : State :=
  puts [(R.PLOT_k_CORE_STATUS 0, F.PLOT_k_CORE_STATUS.ROLE, 2), (R.PLOT_k_CORE_STATUS 0, F.PLOT_k_CORE_STATUS.FENCE_COUNT, 1)] yard

theorem witness_FencesRepeatTheRunOnAnotherCore :
    (yard.role 0 ≠ 2 ∧ (yardRun (aRun [])).run 0 = some (aRun [])) ∧
      ((coresOf 0).find? (fun i => (yard.setCore 8 ⟨none, true, 0⟩).role i = 1 ∧ ((yard.setCore 8 ⟨none, true, 0⟩).core i).heel) = some 8) ∧
      (∀ i ∈ coresOf 0, ¬(yard.role i = 1 ∧ (yard.core i).heel = true)) ∧
      (fencedOnce.role 0 = 2 ∧ fencedOnce.get (R.PLOT_k_CORE_STATUS 0) F.PLOT_k_CORE_STATUS.FENCE_COUNT = 1) ∧
      (let u := puts [(R.PLOT_k_CORE_STATUS 0, F.PLOT_k_CORE_STATUS.ROLE, 3)] fencedOnce
       u.role 0 = 3 ∧ u.run 0 = none ∧ ((List.range 8).find? fun i => (u.slotCore 0 i).isNone) = some 0) := by
  decide +kernel

/-! ### Chapter 4 -/

/-- The generator runs and the controller is in a state. -/
def ctrl (n : Nat) : State :=
  let s := puts [(R.HEAD_CTRL, F.HEAD_CTRL.RUN, 1), (R.EXEC_STATUS, F.EXEC_STATUS.STATE, n)] State.reset
  { s with head := { s.head with armed := true, nextB := 4, nextActual := 4194304 } }

/-- A command waits for a headland. -/
def pending (b : Nat) : State := { ctrl 0 with exec := { (ctrl 0).exec with pendCmd := some (1, b) } }

theorem witness_ControllerCommandsActInTheirStates :
    ((ctrl 0).ctrl = 0 ∧ (ctrl 0).headRun = true ∧ (ctrl 0).shutStep = 0 ∧ (ctrl 0).exec.pendCmd = none ∧ (ctrl 0).sec.running = none ∧
        (ctrl 0).persisted = []) ∧
      ((ctrl 2).mayResume = true ∧ (ctrl 2).shutStep = 0 ∧ (ctrl 2).exec.pendCmd = none) ∧ State.reset.headRun = false ∧
      (ctrl 0).mayResume = false ∧ (ctrl 1).ctrl = 1 ∧ (ctrl 0).ctrl ≠ 1 ∧
      ((pending 1).exec.pendCmd = some (1, 1) ∧ (pending 1).headIndex < 1) ∧ (pending 0).exec.pendCmd = some (1, 0) := by
  decide +kernel

theorem witness_AControllerStopLeavesTheSafeState :
    3 < 16 ∧ (puts [(R.FORCE_CTRL, F.FORCE_CTRL.ENABLE, 0)] (ctrl 1)).flag R.FORCE_CTRL F.FORCE_CTRL.ENABLE = false ∧
      (puts [(R.SAFEMIR_REQ, F.SAFEMIR_REQ.DROP_ON_STOP, 1)] (ctrl 1)).flag R.SAFEMIR_REQ F.SAFEMIR_REQ.DROP_ON_STOP = true := by
  decide +kernel

/-- Task 1 of class C0 has not completed. -/
def late (n : Nat) : State :=
  ({ ctrl n with image := { Image.none_ with tasks := [(1, { TaskDesc.unused with kind := 1 })] } }).setTask 1
    { TaskState.idle with due := some (3, 100) }

theorem witness_OverrunsAreRecordedAndTasksControlled :
    State.reset.lateTasks 0 = [] ∧ (late 1).lateTasks 0 = (1, 3, 100) :: [] ∧ (late 1).ctrl = 1 := by
  decide +kernel

theorem witness_ForceEntriesAreCheckedWhenEnabled :
    fldOf F.FORCE_e_CTRL.EN 0 ≠ 1 ∧ (fldOf F.FORCE_e_CTRL.EN 3 = 1 ∧
      forceOk State.reset 1023 (State.reset.reg (R.FORCE_e_POINT 1023)).toNat (fldOf F.FORCE_e_CTRL.TYPE 3)
        (fldOf F.FORCE_e_CTRL.INPUT 3 = 1) = true) ∧
      forceOk State.reset 0 0 (fldOf F.FORCE_e_CTRL.TYPE 0x71) false = false ∧
      (puts [(R.FORCE_e_CTRL 0, F.FORCE_e_CTRL.EN, 1)] State.reset).flag (R.FORCE_e_CTRL 0) F.FORCE_e_CTRL.EN = true ∧
      forceOk State.reset 0 (0xFFFFFFFF : Word).toNat 0 false = false ∧ fldOf F.FORCE_CTRL.CLEAR_ALL 1 = 0 := by
  decide +kernel

/-- An online change has gone a number of steps, with a change headland at base index 0. -/
def changing (c : Nat) : State :=
  let s := puts [(R.EXEC_STATUS, F.EXEC_STATUS.OLC_STATE, c)] (ctrl 1)
  { s with newImage := some ⟨Image.none_, [], [], [], false, []⟩ }

/-- The active configuration slot holds an empty image, and so does the other, verified. -/
def withNext : State :=
  let f : ImageFile := ⟨true, true, 1, 1, 0, 0, 0, 15, 0, [], [], [], true, true, true, some ⟨Image.none_, [], [], [], false, []⟩⟩
  (({ ctrl 1 with slots := [(3, some f)] }).setReg R.SEC_IMAGE_STATUS 0x1000).setReg R.EXEC_OLC_AT_LO 2

theorem witness_OnlineChangesAreArmedMadeAndCompleted :
    ((changing 1).olcState ≠ 0 ∧ (ctrl 0).olcState = 0 ∧ (ctrl 0).ctrl ≠ 1 ∧ (ctrl 1).ctrl = 1) ∧
      ((ctrl 1).reg64 R.EXEC_OLC_AT_LO R.EXEC_OLC_AT_HI).toNat < (ctrl 1).headIndex + 2 ∧
      (let u := (ctrl 1).setReg R.EXEC_OLC_AT_LO 2
       u.headIndex + 2 ≤ (u.reg64 R.EXEC_OLC_AT_LO R.EXEC_OLC_AT_HI).toNat ∧ olcCheck u = .inl (4, none)) ∧
      (∃ b, olcCheck withNext = .inr b) ∧ ((changing 1).ctrl = 1 ∧ (changing 1).olcState = 1) ∧
      ((changing 1).newImage = some ⟨Image.none_, [], [], [], false, []⟩ ∧ (changing 1).headIndex = (changing 1).exec.olcAt) ∧
      ((changing 2).olcState = 2 ∧ olcFinished { changing 2 with exec := { (changing 2).exec with olcSeen := 15 } } = true) := by
  repeat' apply And.intro
  all_goals first
    | decide +kernel
    | exact ⟨_, rfl⟩

/-- A cut of an index. -/
def aCut (i : Nat) : Cut := ⟨7, 1, i, 100, 0, 1, 0, [], [], [], [], 0, []⟩

/-- A cut is in capture, one is being written, and its line is written. -/
def capturing (wr : Option Cut) (failed : Bool) : State :=
  { ctrl 1 with
    exec := { (ctrl 1).exec with capture := [aCut 3], writing := wr },
    gran := { (ctrl 1).gran with jobs := [⟨.cut, 0, failed, 0⟩] } }

theorem witness_CheckpointsAreCapturedAndWritten :
    State.reset.exec.capture = [] ∧ (capturing none false).exec.capture = aCut 3 :: [] ∧ (capturing none false).exec.writing = none ∧
      (capturing (some (aCut 2)) false).exec.writing.isSome = true ∧
      (let u : State := { capturing (some (aCut 2)) true with exec := { (ctrl 1).exec with writing := some (aCut 2) } }
       u.exec.writing = some (aCut 2) ∧ (u.gran.jobs.find? fun j => decide (j.work = .cut ∧ j.lines = 0)) = some ⟨.cut, 0, true, 0⟩ ∧
        u.exec.waiting = none ∧ u.exec.capture = []) := by
  decide +kernel

/-- Power fails while the controller is in a state. -/
def failing (n : Nat) : State :=
  let s := puts [(R.CLK_STATUS, F.CLK_STATUS.PFAIL, 1)] (ctrl n)
  { s with exec := { s.exec with pfail := some 10 } }

theorem witness_PowerFailureTakesACutAndBridges :
    State.reset.pfailOn = false ∧ ((failing 1).pfailOn = true ∧ (failing 1).exec.pfail = some 10 ∧ (failing 1).resets.pfDone = false ∧
      (failing 1).ctrl = 1) ∧ (failing 2).ctrl ≠ 1 ∧ ((failing 3).ctrl = 3 ∧
      { failing 3 with resets := { (failing 3).resets with pfDone := true } }.resets.pfDone = true) := by
  decide +kernel

/-- The controller bridges from grain 10 with two cuts in the granary. -/
def bridging : State :=
  { ctrl 3 with exec := { (ctrl 3).exec with bridgeW := some 10, bridgeCut := true, stored := [aCut 1, aCut 2] } }

theorem witness_BridgesRestoreRejoinOrExpire :
    (bridging.ctrl = 3 ∧ bridging.exec.bridgeCut = true ∧ bridging.exec.restored = none ∧ bridging.pfailOn = false ∧
      (bridgeCuts bridging).drop 0 = aCut 2 :: [aCut 1] ∧ olderCut bridging (aCut 2) = false ∧
      olderCut { bridging with exec := { bridging.exec with bridgeW := some 200 } } (aCut 2) = true) ∧
      bridging.exec.bridgeW = some 10 ∧
      (let u : State := { bridging with exec := { bridging.exec with restored := some 2, rejoinAt := 0 } }
       u.exec.restored = some 2 ∧ u.exec.rejoinAt ≤ u.headIndex) := by
  decide +kernel

/-! ### Chapter 6 -/

/-- A participant of a kind. -/
def aPart (kind id vote : Nat) : Part := ⟨kind, id, vote, 0, 0, false, false⟩

/-- Slot 2 holds the host's transaction, of generation 1, while the controller runs and the generator will reach base index 4. -/
def txn (x : Txn) : State :=
  let s := puts [(R.TXN_CMD_HANDLE, ⟨0, 16⟩, 66)] (ctrl 1)
  s.setTx 2 { x with gen := 1, ownerKind := 3 }

/-- An open transaction, a sealed one, one committed and one aborted. -/
def opened : State := txn { Txn.free with state := 1 }
def sealed : State := txn { Txn.free with state := 2, at_ := 4, parts := [aPart 5 1 0, aPart 0 0 1, aPart 2 3 0] }
def voted : State := txn { Txn.free with state := 2, at_ := 4, parts := [aPart 5 1 1] }
def committed : State := txn { Txn.free with state := 3, at_ := 4, decided := true, commit := true, parts := [aPart 5 1 1, aPart 4 259 1] }
def casting : State := { sealed with txn := { sealed.txn with casts := [⟨4, 66, true, 0, [1], [2], [2]⟩] } }
def aborted : State := txn { Txn.free with state := 7, at_ := 4, decided := true, parts := [aPart 5 1 2] }

theorem witness_HostTransactionsAreOpenedFilledAndSealed :
    State.reset.txFreeSlot = some 0 ∧ (allOpen State.reset).txFreeSlot = none ∧ State.reset.hostSlot = none ∧ opened.hostSlot = some 2 ∧
      (let u := puts [(R.TXN_CMD_KIND, F.TXN_CMD_KIND.TARGET_KIND, 5), (R.TXN_CMD_KIND, F.TXN_CMD_KIND.TYPE, 3)] opened
       (u.tx 2).state = 1 ∧ etypeOf (fldOf F.TXN_CMD_KIND.TYPE (u.reg R.TXN_CMD_KIND)) = some .i64 ∧
        txTarget u (fldOf F.TXN_CMD_KIND.TARGET_KIND (u.reg R.TXN_CMD_KIND)) (u.reg R.TXN_CMD_TARGET).toNat .i64
          (wireType .i64) (fldOf F.TXN_CMD_KIND.AXIS_CMD (u.reg R.TXN_CMD_KIND)) 2 = some (2, 0)) ∧
      txTarget opened (fldOf F.TXN_CMD_KIND.TARGET_KIND (opened.reg R.TXN_CMD_KIND)) (opened.reg R.TXN_CMD_TARGET).toNat .b
        (wireType .b) (fldOf F.TXN_CMD_KIND.AXIS_CMD (opened.reg R.TXN_CMD_KIND)) 2 = none ∧
      (sealed.hostSlot = some 2 ∧ (sealed.tx 2).state ≠ 1) ∧ sealCause opened 2 40 = 0 ∧ sealCause opened 2 0 = 3 ∧
      (opened.tx 2).dropped = false ∧
      (let u := txn { Txn.free with state := 1, parts := [aPart 5 1 0] }
       sealCause u 2 40 = 0 ∧ (u.tx 2).parts[0]? = some (aPart 5 1 0) ∧ lostNow u (aPart 5 1 0) = true) := by
  decide +kernel

theorem witness_ParticipantsVoteOnASealedTransaction :
    ((sealed.tx 2).state = 2 ∧ (sealed.tx 2).decided = false ∧ (sealed.tx 2).localDone = false ∧ (sealed.tx 2).parts[1]? = some (aPart 0 0 1)) ∧
      (State.reset.tx 2).state ≠ 2 ∧ (sealed.txSlot 66 = some 2 ∧ sealed.partOf 2 5 1 = some 0) ∧ State.reset.txSlot 66 = none := by
  decide +kernel

theorem witness_TransactionsAreDecidedAndBroadcast :
    (voted.head.armed = true ∧ (voted.tx 2).at_ = voted.head.nextB ∧ (voted.tx 2).state = 2 ∧ voted.farm.outOfStep = false ∧
      decisionCause (voted.tx 2) = 0) ∧ decisionCause (sealed.tx 2) ≠ 0 ∧
      (∃ c ∈ casting.txn.casts, c.at_ = casting.head.nextB ∧ 1 ∈ c.ports ∧ 2 ∈ c.peers) ∧
      (∀ j, j < 64 → ¬((committed.tx j).state = 2 ∧ (committed.tx j).at_ = committed.head.nextB)) ∧
      ∀ c ∈ sealed.txn.casts, c.at_ ≠ sealed.head.nextB := by
  decide +kernel

/-- A write to variable cell 4 of task 9 waits. -/
def deferring (r : Run) : State :=
  let s := (running r).setTask 9 { TaskState.idle with st := 2, core := some 0 }
  { s with txn := { s.txn with deferred := [⟨9, 4, 5, false⟩] } }

theorem witness_TransactionsExpireAndSettle :
    (let u := puts [(R.TXN_CFG, F.TXN_CFG.OPEN_LIMIT, 1), (R.HEAD_INDEX_LO, ⟨0, 32⟩, 9)] opened
     u.get R.TXN_CFG F.TXN_CFG.OPEN_LIMIT ≠ 0 ∧ (u.tx 2).state = 1 ∧ (u.tx 2).openIndex + 1 < u.headIndex ∧ (u.tx 2).dropped = false) ∧
      (committed.txSlot 66 = some 2 ∧ committed.partOf 2 5 1 = some 0 ∧ (committed.tx 2).parts[0]? = some (aPart 5 1 1) ∧
        (aPart 5 1 1).outcome = 0 ∧ (committed.tx 2).state = 3 ∧ (committed.tx 2).applied = false) ∧ (aborted.tx 2).state = 7 ∧
      ((deferring (aRun [])).txn.deferred = [⟨9, 4, 5, false⟩] ∧ (deferring (aRun [])).taskRuns 9 = true) ∧
      { State.reset with txn := { State.reset.txn with deferred := [⟨9, 4, 5, false⟩] } }.taskRuns 9 = false := by
  decide +kernel

/-! ### Chapter 7 -/

/-- Reference 0 is enabled, settles at grain 5,242,880, and is out of range; reference 1 is settled. -/
def refs : State :=
  let s := puts [(R.ADC_p_REF_CTRL 0, F.ADC_p_REF_CTRL.EN, 1), (R.ADC_p_REF_STATUS 0, F.ADC_p_REF_STATUS.FAULT, 1),
    (R.ADC_p_REF_STATUS 1, F.ADC_p_REF_STATUS.SETTLED, 1)] State.reset
  { s with analog := { s.analog with settleAt := [(0, some 5242880)] } }

theorem witness_ReferenceBuffersSettleAndFault :
    fldOf F.ADC_p_REF_CTRL.EN 1 = 1 ∧ State.reset.flag (R.ADC_p_REF_CTRL 3) F.ADC_p_REF_CTRL.EN = false ∧
      refs.flag (R.ADC_p_REF_CTRL 0) F.ADC_p_REF_CTRL.EN = true ∧ fldOf F.ADC_p_REF_CTRL.EN 0 = 0 ∧
      tget none refs.analog.settleAt 0 = some 5242880 ∧ tget none State.reset.analog.settleAt 0 = none ∧
      refs.flag (R.ADC_p_REF_STATUS 0) F.ADC_p_REF_STATUS.FAULT = true ∧
      State.reset.flag (R.ADC_p_REF_STATUS 0) F.ADC_p_REF_STATUS.FAULT = false := by
  decide +kernel

/-- A unit that runs. -/
def aUnit : AUnit := { AUnit.stopped with running := true, slot := 512 }

/-- Unit 4 of the settled reference runs, in a state. -/
def converting (x : AUnit) : State := (puts [(R.AU_n_CTRL 4, F.AU_n_CTRL.RUN, 1)] refs).setAu 4 x

/-- Unit 4 at its next slot. -/
def slotUnit (x : AUnit) : AUnit := let s := converting x; (s.au 4).at (nextSlot s 4)

theorem witness_ConversionsGiveTheirWord :
    (auConverts (converting aUnit) 4 = true ∧ (slotUnit aUnit).inj ≠ .running ∧ (slotUnit aUnit).suspended = false ∧
      (slotUnit aUnit).cal ≠ .running) ∧
      (auConverts (converting { aUnit with inj := .running }) 4 = true ∧ (slotUnit { aUnit with inj := .running }).inj = .running) ∧
      (auConverts (converting { aUnit with cal := .running }) 4 = true ∧ (slotUnit { aUnit with cal := .running }).cal = .running) ∧
      State.reset.refOk 4 = false ∧ (converting aUnit).refOk 4 = true := by
  decide +kernel

theorem witness_ConverterUnitsRunTheirSequences :
    ((converting aUnit).auRun 4 = true ∧ (2 ^^^ (converting aUnit).reg (R.AU_n_CTRL 4)) &&& 0x1F2 ≠ 0) ∧
      (State.reset.auRun 4 = false ∧ fldOf F.AU_n_CTRL.RUN 1 = 1 ∧
        ∀ i, i < 16 → accFits State.reset 4 i (State.reset.get (R.ACC_c_CFG (64 + i)) F.ACC_c_CFG.WIN_M_M1 + 1) 1 = true) ∧
      (fldOf F.AU_n_CTRL.LEGACY 0x103 = 1 ∨ fldOf F.AU_n_CTRL.LEGACY 3 = 1) ∧
      fldOf F.AU_n_INJ_CTRL.INJ_LEN_M1 0x10 ≠ fldOf F.AU_n_INJ_CTRL.INJ_LEN_M1 0xFFFF ∧
      (let s := converting aUnit
       let u : State := { s with analog := { s.analog with reqs := [(4, 9)] } }
       u.analog.reqs = (4, 9) :: [] ∧ u.auRun 4 = true ∧ ((u.au 4).at 9).inj = .none) ∧
      (∀ r ∈ State.reset.analog.reqs, r.1 ≠ 4) ∧
      (let y := ({ aUnit with inj := .waiting }).at 512
       y.inj = .waiting ∧ y.running = true ∧ y.cal ≠ .running) ∧
      (({ aUnit with inj := .waiting, cal := .running }).at 512).cal = .running ∧
      (calPreempt (puts [(R.AU_n_CAL_CTRL 4, F.AU_n_CAL_CTRL.INJ_PREEMPT_CAL, 1), (R.AU_n_CAL_CTRL 4, F.AU_n_CAL_CTRL.ABORTS, 7)]
        (converting { aUnit with inj := .waiting, cal := .running })) 4 = true ∨
        calPreempt (puts [(R.AU_n_CAL_CTRL 4, F.AU_n_CAL_CTRL.INJ_PREEMPT_CAL, 1)]
          (converting { aUnit with inj := .waiting, cal := .running })) 4 = true) ∧
      calPreempt (converting { aUnit with inj := .waiting, cal := .running }) 4 = false := by
  decide +kernel

theorem witness_ChannelSettingsAndCalibrations :
    (0x64 % 128 / 4 % 4 = 1 ∧ 5 < 0x64 % 128 / 16 % 8) ∧ State.reset.headRun = false ∧ tracking.headRun = true ∧
      (converting aUnit).auRun 4 = true ∧ (converting aUnit).refOk 4 = true ∧ (aUnit.at 0).cal = .none ∧
      (let y := ({ aUnit with cal := .waiting }).at 512
       y.cal = .waiting ∧ y.inj = .none ∧ y.running = true) ∧
      (({ aUnit with cal := .running, calOk := true }).at 2097152).cal = .running ∧ (aUnit.at 2097152).cal ≠ .running ∧
      (calPairs ⟨(0, 0, 0, 0), (113770496, 113770496, 113770496, 113770496)⟩).isSome = true ∧
      calPairs ⟨(0, 0, 0, 0), (0, 0, 0, 0)⟩ = none := by
  decide +kernel

theorem witness_AccumulatorsTrackersAndComparators :
    (fldOf F.ACC_c_CFG.WIN_PHASE 0 < fldOf F.ACC_c_CFG.WIN_M_M1 0 + 1 ∧ accFits State.reset 15 15 1 (State.reset.seqLen 15) = true) ∧
      ¬(fldOf F.ACC_c_CFG.WIN_PHASE 0xFF00 < fldOf F.ACC_c_CFG.WIN_M_M1 0xFF00 + 1) ∧ (Master.core 0 ≠ .core 1) ∧
      fldOf F.ACC_TRK_CLR.ALL 5 = 0 ∧ 4 ≠ BitVec.toNat (5 : Word) % 256 ∧ fldOf F.ACC_c_WCMP_CFG.EN 0x10000 = 1 := by
  decide +kernel

/-! ### Chapter 8 -/

/-- Channel 15 takes the samples of unit 4 into two slots of descriptors 0 and 1, with two records before the trigger and three from it on. -/
def capt (x : CaptChan) : State :=
  let s := regs [(R.CAPT_n_PRE 15, 2), (R.CAPT_n_POST 15, 3)]
    (puts [(R.CAPT_n_SEG_CFG 15, F.CAPT_n_SEG_CFG.DESC_COUNT, 2), (R.CAPT_n_SRC 15, F.CAPT_n_SRC.INDEX, 4)] State.reset)
  (s.setAu 4 { AUnit.stopped with word := 0x01000123, sampled := 608 }).setCapt 15 x

/-- An armed channel, one whose ARM waits for its sample, one after its trigger, one between segments, and one that waits for a slot. -/
def armed : CaptChan := { CaptChan.idle with st := 1 }
def arming : CaptChan := { CaptChan.idle with armAt := some 608 }
def after : CaptChan := { CaptChan.idle with st := 2, post := 1 }
def between : CaptChan := { CaptChan.idle with st := 3 }
def waits : CaptChan := { CaptChan.idle with st := 4 }

/-- A state in which a descriptor is in a state. -/
def segment (d st : Nat) (s : State) : State := puts [(R.CAPT_d_SEG d, F.CAPT_d_SEG.STATE, st)] s

theorem witness_CaptureChannelsAreArmedAndDisarmed :
    (fldOf F.CAPT_n_CTRL.DISARM 0 = 0 ∧ fldOf F.CAPT_n_CTRL.SW_TRIG 0 = 0 ∧ fldOf F.CAPT_n_CTRL.ARM 0 = 0) ∧
      (CaptChan.idle.busy = false ∧ armOk (capt CaptChan.idle) 15 = true ∧ (capt CaptChan.idle).segState 0 = 0 ∧
        armOk State.reset 15 = false ∧ (segment 0 2 (capt CaptChan.idle)).segState 0 ≠ 0) ∧
      (armed.busy = true ∧ armed.st = 1 ∧ arming.armAt.isSome = true ∧ after.st = 2 ∧ after.armAt = none) ∧
      (between.st = 3 ∧ (capt between).segState ((capt between).slotDesc 15 0) = 0 ∧ (segment 0 2 (capt between)).segState 0 ≠ 0) ∧
      (waits.st = 4 ∧ (segment 0 2 (capt waits)).segState 0 ≠ 0) ∧ BitVec.getLsbD (0x8000 : Word) 15 = true ∧
      (∀ m, m < 16 → ((capt armed).capt m).last = none) ∧ (0x8000 : Word) = BitVec.ofNat 32 (2 ^ 15) ∧
      (let x := { after with last := some 9, lastMap := 1, trigRaw := 9 }
       x.busy = true ∧ x.last = some 9 ∧ (capt x).raw.toNat ≤ (9 : Quad).toNat ∧ x.lastMap ≠ 0 ∧ x.st = 2 ∧ x.trigRaw = 9) ∧
      (State.reset.get (R.MEM_k_OWNER 5) F.MEM_k_OWNER.OWNER = 5 ∧
        (puts [(R.MEM_k_OWNER 5, F.MEM_k_OWNER.OWNER, 1)] State.reset).get (R.MEM_k_OWNER 5) F.MEM_k_OWNER.OWNER ≠ 5) := by
  decide +kernel

theorem witness_CaptureSamplesAreRecorded :
    (captSource (capt armed) 15 = (608, 0x01000123) ∧ armed.busy = true ∧ armed.last ≠ some 608 ∧ gapBefore (capt armed) 15 608 = false) ∧
      ({ armed with last := some 608 }.last = some 608 ∧ gapBefore (capt { armed with last := some 50 }) 15 608 = true) ∧
      ((capt armed).captKind 15 = 0 ∧ (capt armed).captIndex 15 = 4 ∧ ((tget AUnit.stopped (capt armed).analog.units 4).at 1024).running = false ∧
        ((tget AUnit.stopped (converting aUnit).analog.units 4).at 1024).running = true) ∧
      (arming.st = 0 ∧ arming.armAt = some 608 ∧ (608 : Quad).toNat ≤ (608 : Quad).toNat ∧ (608 : Quad).toNat < (700 : Quad).toNat) ∧
      (0 < (capt armed).captPre 15 ∧ ((capt armed).setReg (R.CAPT_n_PRE 15) 0).captPre 15 = 0) ∧
      (let s := capt { armed with trigs := [(6, 0)] }
       (trigMapOf 15 608 0x01000123 (s.advanceTo 608)).1.1 ≠ 0 ∧ tooEarly s 15 = false ∧
        tooEarly (puts [(R.CAPT_n_CTRL 15, F.CAPT_n_CTRL.REQUIRE_FULL_PRE, 1)] s) 15 = true ∧ 1 < s.captPost 15) ∧
      (after.post + 1 < (capt after).captPost 15 ∧ (capt after).captPost 15 ≤ 2 + 1) ∧
      (trigMapOf 15 608 0x01000123 ((capt armed).advanceTo 608)).1.1 = 0 := by
  decide +kernel

/-- Descriptor 0 is copied to an overflow ring of 1,024 units. -/
def copying : State :=
  let s := regs [(R.CAPT_OVF_SIZE, 1)] (puts [(R.DDR_STATUS, F.DDR_STATUS.READY, 1)] (segment 0 3 (capt armed)))
  { s with capture := { s.capture with copying := some 0 } }

theorem witness_SegmentsAreReleasedAndCopied :
    (State.reset.reg R.CAPT_TRIGIN_CFG).toNat / 4 ^ 3 % 4 % 2 ≠ 1 ∧
      ((State.reset.setReg R.CAPT_TRIGIN_CFG 0xFF).reg R.CAPT_TRIGIN_CFG).toNat / 4 ^ 3 % 4 % 2 = 1 ∧
      2 ≤ ((State.reset.setReg R.CAPT_TRIGIN_CFG 0xFF).reg R.CAPT_TRIGIN_CFG).toNat / 4 ^ 3 % 4 ∧
      (segment 4095 2 State.reset).segState 4095 = 2 ∧ State.reset.segState 0 ≠ 2 ∧ State.reset.capture.ready = [] ∧
      State.reset.flag R.CAPT_CTRL F.CAPT_CTRL.OVF_EN = false ∧
      (let s := regs [(R.CAPT_OVF_SIZE, 1), (R.CAPT_OVF_HEAD, 5), (R.CAPT_OVF_TAIL, 2)] State.reset
       5 < s.ovfSize ∧ (5 + s.ovfSize - (s.reg R.CAPT_OVF_TAIL).toNat) % s.ovfSize ≤ s.ovfUsed ∧
        ¬((6 + s.ovfSize - (s.reg R.CAPT_OVF_TAIL).toNat) % s.ovfSize ≤ s.ovfUsed)) ∧
      State.reset.capture.copying = none ∧
      (copying.capture.copying = some 0 ∧ 0 ∉ copying.capture.ready ∧ copying.flag R.DDR_STATUS F.DDR_STATUS.READY = true ∧
        (copying.reg R.CAPT_OVF_HEAD).toNat + copying.segSize 15 / 64 ≤ copying.ovfSize) ∧
      (let s := copying.setReg R.CAPT_OVF_HEAD 1023
       s.ovfSize < (s.reg R.CAPT_OVF_HEAD).toNat + s.segSize 15 / 64 ∧ (s.reg R.CAPT_OVF_HEAD).toNat < s.ovfSize) := by
  decide +kernel

/-- An open block of a class. -/
def aBlock (c : Nat) : Block := ⟨9, 1000, c, false, false, 1, [1, 2, 3], 5, 6, 7⟩

/-- The gleaner is on; signal 3 is a pin in edge mode whose records lie ten ticks apart at least, and signal 7 counts other records. -/
def gleaning : State :=
  let s := puts [(R.GLEAN_CTRL, F.GLEAN_CTRL.EN, 1)] State.reset
  { s with glean := { s.glean with sigs := [(3, ⟨1, 5, .b, 0, true, 1, 0, 0, 10⟩), (7, ⟨6, 0, .b, 0, false, 1, 0, 0, 0⟩)] } }

/-- Signal 3 has a record of 0 at time 0, and a held edge. -/
def held (v : Quad) : State := gleaning.setSigState 3 ⟨some (0, 1), 0, 0, 0, 1, some (v, 50)⟩

theorem witness_GleanerSignalsAreRecorded :
    ((gleaning.sig 3).edge = true ∧ (gleaning.sig 3).kind = 1 ∧ gleaning.gleanOn = true ∧ tooSoon gleaning 3 50 = false ∧
      gleaning.gleanFlag F.GLEAN_STATUS.HALTED = false) ∧ tooSoon (held 1) 3 50 = true ∧ tooSoon (held 1) 3 10240 = false ∧
      (State.reset.sig 16383).edge = false ∧ (gleaning.sigState 3).heldEdge = none ∧
      ((held 1).sigState 3).heldEdge = some (1, 50) ∧ ((held 1).sigState 3).last = some (0, 1) ∧
      State.reset.head.gleanDue = false ∧ { State.reset.head with gleanDue := true }.gleanDue = true ∧ State.reset.gleanOn = false ∧
      (let c : SigCfg := ⟨2, 5, .b, 0, false, 1, 0, 0, 0⟩
       let s : State := ({ gleaning with glean := { gleaning.glean with sigs := [(3, c)] } }).setBlock 0 (some (aBlock 0))
       s.glean.sigs = [(3, c)] ∧ s.headIndex % c.div = 0 ∧ signalRead s c = some (0, 1) ∧ (s.sigState 3).last = none ∧
        s.block c.cls = some (aBlock 0) ∧ (aBlock 0).bytes.length + 24 ≤ 4064) ∧
      (gleaning.block 0 = none ∧ gleaning.placeFree 0 = true) ∧
      ((gleaning.setReg R.GLEAN_SIG_SEL 3).sigWritten ((gleaning.setReg R.GLEAN_SIG_SEL 3).reg R.GLEAN_SIG_SEL).toNat).kind = 1 ∧
      ((gleaning.setReg R.GLEAN_SIG_SEL 7).sigWritten 7).kind = 6 := by
  decide +kernel

/-- Every place of the recorder bank holds a block of class 0. -/
def recorderFull (s : State) : State := { s with glean := { s.glean with waiting := List.replicate 2048 (aBlock 0) } }

theorem witness_GleanerBlocksCloseAndSpool :
    State.reset.block 3 = none ∧ (gleaning.setBlock 3 (some (aBlock 3))).block 3 = some (aBlock 3) ∧
      (let u := fillRules ((gleaning.advanceToV ((aBlock 3).baseV.toInt + 15728640)).setBlock 3 none)
       u.gleanFlag F.GLEAN_STATUS.DROP3 = false ∧ u.placeFree 3 = true) ∧
      (let u := fillRules (((recorderFull gleaning).advanceToV ((aBlock 0).baseV.toInt + 15728640)).setBlock 0 none)
       u.placeFree 0 = false ∧ reclaimable u = none ∧ u.gleanFlag F.GLEAN_STATUS.DROP3 = true) ∧
      gapDue State.reset 3 = false ∧ gapDue (gleaning.setLoss 2 ⟨3, 1, 4, 5, true, true, 0⟩) 2 = true ∧
      (gleaning.gleanFlag F.GLEAN_STATUS.HALTED = false ∧ gleaning.block 0 = none ∧ gleaning.placeFree 0 = true ∧
        (recorderFull gleaning).placeFree 0 = false ∧ reclaimable (recorderFull gleaning) = none) ∧ State.reset.spoolOn = false ∧
      (let s := (puts [(R.GLEAN_CTRL, F.GLEAN_CTRL.SPOOL_EN, 1)] gleaning).setReg R.GLEAN_SPOOL_SIZE 4
       s.spoolOn = true ∧ s.glean.spool.length < s.spoolSize ∧
        { s.glean with waiting := [aBlock 0, aBlock 1] }.waiting = aBlock 0 :: [aBlock 1]) := by
  decide +kernel

/-! ### Chapter 9 -/

/-- Axis 3 in a state of `AXIS_n_STATUS.STATE`, at a velocity, towards 100,000 steps, with a part of the drill's own state. -/
def axisAt (st : Nat) (v : Int) (x : Axis) : State :=
  let s := puts [(R.AXIS_n_STATUS 3, F.AXIS_n_STATUS.STATE, st)] State.reset
  { (((s.setVel 3 v).setTarget 3 100000).setAxis 3 { x with edges := 12500 }) with raw := 100000 }

/-- Axis 3 with one command in its queue. -/
def commanded (st : Nat) (v : Int) (src : CmdSource) (k : Nat) (arg : Quad) : State :=
  axisAt st v { Axis.idle with queue := [⟨src, k, arg, 100352⟩], goal := if st = 2 then .travel else .none_ }

/-- Axis 3 after the drill has run to the tick of its command. -/
def drilled (s : State) : State := let d := s.advanceTo 100352; drillTo 3 (d.raw.toNat / 8) (d.setAxis 3 { s.axis 3 with queue := [] })

theorem witness_AxisCommandsTakeEffect :
    ((commanded 1 0 .host 0 7).axis 3).queue = ⟨.host, 0, 7, 100352⟩ :: [] ∧ (State.reset.axis 3).queue = [] ∧
      ((commanded 1 0 .task 0 7).putAx 3 F.AXIS_n_STATUS.STOP_HOLD true).axFlag 3 F.AXIS_n_STATUS.STOP_HOLD = true ∧
      (commanded 5 0 .txn 0 7).axState 3 = 5 ∧ (commanded 0 0 .host 0 7).axState 3 = 0 ∧
      ((commanded 1 0 .host 0 7).txnPending 3 = none ∧ (commanded 1 0 .host 0 7).axState 3 = 1 ∧
        (-posMax ≤ 7 ∧ 7 ≤ posMax ∧ (commanded 1 0 .host 0 7).softMin 3 ≤ 7 ∧ 7 ≤ (commanded 1 0 .host 0 7).softMax 3) ∧
        towardsLimit (drilled (commanded 1 0 .host 0 7)) 3 (7 * 2 ^ 40 - (drilled (commanded 1 0 .host 0 7)).xPos 3) = false ∧
        (drilled (commanded 1 0 .host 0 7)).vel 3 = 0 ∧ (drilled (commanded 1 0 .host 0 7)).pos 3 ≠ 7 ∧
        (drilled (commanded 1 0 .host 0 0)).pos 3 = 0 ∧ (drilled (commanded 2 1 .host 0 7)).vel 3 ≠ 0) ∧
      posMax < BitVec.toInt (0x800000000000 : Quad) ∧ BitVec.toInt (-0x800000000000 : Quad) < -posMax ∧
      (clampInt (-((drilled (commanded 1 0 .host 2 1)).limits 3).vmax) ((drilled (commanded 1 0 .host 2 1)).limits 3).vmax (BitVec.toInt (5 : Quad)) =
        5 ∧ towardsLimit (drilled (commanded 1 0 .host 2 1)) 3 5 = false) ∧
      (BitVec.toNat (2 : Quad) % 2 ^ 32 < 3 ∧ towardsLimit (drilled (commanded 1 0 .host 5 2)) 3 1 = false) ∧
      (BitVec.toInt (0x7FFFFFFFFFFF : Quad) ≤ posMax) ∧ (commanded 4 1 .host 3 0).axState 3 = 4 ∧ (commanded 1 0 .host 3 0).axState 3 ≠ 2 ∧
      (∃ (front : List AxisCmd) (x : AxisCmd) (rest : List AxisCmd), ((axisAt 2 1 { Axis.idle with queue := [⟨.host, 0, 7, 100352⟩, ⟨.host, 4, 0, 100352⟩] }).axis 3).queue = front ++ x :: rest ∧
        (∀ y ∈ front, y.cmd ≠ 4) ∧ x.cmd = 4 ∧ x.src = .host) ∧
      (drillNow 3 (axisAt 2 1 Axis.idle)).vel 3 ≠ 0 := by
  repeat' apply And.intro
  all_goals first
    | decide +kernel
    | exact ⟨[⟨.host, 0, 7, 100352⟩], ⟨.host, 4, 0, 100352⟩, [], by decide +kernel⟩

/-- Axis 3 with a limit switch of each side that is active, and its home switch likewise. -/
def switched (s : State) : State :=
  puts [(R.AXIS_n_LIMIT_CFG 3, F.AXIS_n_LIMIT_CFG.LIM_POS_PIN, 7), (R.AXIS_n_LIMIT_CFG 3, F.AXIS_n_LIMIT_CFG.LIM_NEG_PIN, 7),
    (R.AXIS_n_LIMIT_CFG 3, F.AXIS_n_LIMIT_CFG.LIM_POL, 1), (R.AXIS_n_LIMIT_CFG 3, F.AXIS_n_LIMIT_CFG.HOME_PIN, 7),
    (R.AXIS_n_LIMIT_CFG 3, F.AXIS_n_LIMIT_CFG.HOME_POL, 1)] s

/-- Axis 3 in a phase of a HOME. -/
def homing (m : Nat) (p : HomePhase) : State :=
  axisAt 4 (2 ^ 33) { Axis.idle with goal := .travel, homing := some ⟨m, false, p, 0, 0⟩ }

/-- Encoder 3 takes its three inputs from pins, with the levels it saw last. -/
def encoder (a b i : Nat) (s : State) : State :=
  puts [(R.ENC_m_CFG 3, F.ENC_m_CFG.EN, 1), (R.ENC_m_STATUS 3, F.ENC_m_STATUS.LEVEL_A, a), (R.ENC_m_STATUS 3, F.ENC_m_STATUS.LEVEL_B, b),
    (R.ENC_m_STATUS 3, F.ENC_m_STATUS.LEVEL_INDEX, i)] s

theorem witness_AxesStepPlanAndCount :
    (let s := axisAt 2 65536 { Axis.idle with goal := .travel }
     (s.advanceTo 100000).raw.toNat / 8 + 1 = (s.axis 3).edges + 1 ∧ s.armed 3 = false ∧ -posMax ≤ (s.xRaw 3 + s.vel 3) / 2 ^ 40 ∧ (s.xRaw 3 + s.vel 3) / 2 ^ 40 ≤ posMax) ∧
      ((s : State) → s = (axisAt 2 65536 { Axis.idle with goal := .approach, f := 2 ^ 40 - 65536 }).setTarget 3 1 →
        s.armed 3 = true ∧ 0 < s.vel 3 ∧ s.target 3 ≤ (s.xRaw 3 + s.vel 3) / 2 ^ 40) ∧
      (let s := axisAt 2 (2 ^ 33) { Axis.idle with goal := .velocity (2 ^ 34) }
       let u := drillTo 3 ((tickFrom 100000).toNat / 8) (s.advanceTo (tickFrom 100000))
       (u.axis 3).homing = none ∧ (u.axis 3).ref = none ∧ (u.axis 3).goal = .velocity (2 ^ 34) ∧ (u.axis 3).held = 0 ∧
        softNear u 3 (2 ^ 34) = false ∧ (s.regLimits 3).jerk = 0 ∧ u.vel 3 ≠ 0 ∧ Int.sign (2 ^ 34) = (u.vel 3).sign ∧
        (u.vel 3).natAbs < 2 ^ 34 ∧ (s.regLimits 3).vmax < 2 ^ 62 ∧ 0 ≤ (s.regLimits 3).vmax) ∧
      ((switched (axisAt 2 1 Axis.idle)).limitActive 3 true = true ∧ 0 < (drillNow 3 (switched (axisAt 2 1 Axis.idle))).vel 3) ∧
      ((switched (axisAt 2 (-1) Axis.idle)).limitActive 3 false = true ∧ (drillNow 3 (switched (axisAt 2 (-1) Axis.idle))).vel 3 < 0) ∧
      ((drillNow 3 State.reset).axis 3).homing = none ∧
      (((drillNow 3 (homing 2 .search)).axis 3).homing = some ⟨2, false, .search, 0, 0⟩ ∧
        ((drillNow 3 (homing 1 .index)).axis 3).homing = some ⟨1, false, .index, 0, 0⟩) ∧
      (((drillNow 3 (switched (homing 0 .search))).axis 3).homing = some ⟨0, false, .search, 0, 0⟩ ∧
        (switched (homing 0 .search)).homeActive 3 = true ∧ (homing 0 .back).homeActive 3 = false) ∧
      (let s := encoder 1 0 0 State.reset
       s.flag (R.ENC_m_CFG 3) F.ENC_m_CFG.EN = true ∧ s.flag (R.ENC_m_STATUS 3) F.ENC_m_STATUS.LEVEL_A = true ∧
        s.flag (R.ENC_m_STATUS 3) F.ENC_m_STATUS.LEVEL_B = false ∧
        (encoder 1 1 1 State.reset).flag (R.ENC_m_STATUS 3) F.ENC_m_STATUS.LEVEL_B = true) := by
  repeat' apply And.intro
  all_goals first
    | decide +kernel
    | intro s h; subst h; decide +kernel

theorem witness_AxesAreEnabledLimitedAndPinned :
    (fldOf F.AXIS_n_CTRL.EN 1 = 1 ∧ State.reset.axState 3 = 0 ∧ (axisAt 5 0 Axis.idle).axState 3 = 5 ∧ (axisAt 2 1 Axis.idle).axState 3 = 2) ∧
      (fldOf F.AXIS_n_CTRL.MODE 0 ≠ 3 ∧ State.reset.axState 3 ≤ 1) ∧
      (((drillNow 3 (axisAt 2 65536 { Axis.idle with goal := .approach })).axis 3).goal = .approach ∧
        (axisAt 2 65536 { Axis.idle with goal := .approach }).flag (R.AXIS_n_CTRL 3) F.AXIS_n_CTRL.APPLY_NOW = false) ∧
      (let p := fldOf F.AXIS_n_PINS.STEP_PIN 0x00FFFFC0
       p ≠ 255 ∧ 191 < p) ∧
      (let s := puts [(R.AXIS_n_PINS 0, F.AXIS_n_PINS.STEP_PIN, 5)] State.reset
       fldOf F.AXIS_n_PINS.STEP_PIN 0x00FFFF05 = 5 ∧ pinTaken s 3 5 = true ∧ pinTaken State.reset 3 191 = false ∧ pinTaken State.reset 3 0 = false) := by
  decide +kernel

/-- Chopper 3 with both phases in a state, at the end of the sine table's first quarter. -/
def chopperAt (st : Nat) (x : Chopper) : State :=
  puts [(R.CHOP_c_STATUS 3, F.CHOP_c_STATUS.STATE_A, st), (R.CHOP_c_STATUS 3, F.CHOP_c_STATUS.STATE_B, st),
    (R.CHOP_c_CURRENT 3, F.CHOP_c_CURRENT.I_MOVE, 255)] (State.reset.setChop 3 x)

theorem witness_ChoppersFollowTheirStates :
    ((chopperAt 2 Chopper.start).phase 3 true = 2 ∧ ((chopperAt 2 Chopper.start).chop 3).b.early < 4) ∧
      (let s := chopperAt 2 { Chopper.start with a := ⟨0, 8, 1, 4, 3, none, none⟩, b := ⟨0, 8, 1, 4, 3, none, none⟩, scale := some 255 }
       (∃ b : Bool, 64 ≤ s.chopCode 3 b ∧ 16 ≤ s.chopCode 3 b ∧ 4 ≤ ((s.chop 3).ph b).early + 1)) ∧
      ((chopperAt 1 Chopper.start).phase 3 false = 1 ∧ (chopperAt 3 Chopper.start).phase 3 false = 3 ∧ (chopperAt 4 Chopper.start).phase 3 false = 4 ∧
        (chopperAt 0 Chopper.start).phase 3 false ≠ 1) ∧
      (puts [(R.CHOP_c_OPEN_CFG 3, F.CHOP_c_OPEN_CFG.OPEN_TICKS, 3)] State.reset).get (R.CHOP_c_OPEN_CFG 3) F.CHOP_c_OPEN_CFG.OPEN_TICKS ≠ 0 ∧
      (fldOf F.CHOP_c_CURRENT.REST_DELAY (State.reset.chopCurrent 3) ≠ 0 ∧ (State.reset.chop 3).ramped = none ∧
        fldOf F.CHOP_c_CURRENT.REST_DELAY ((puts [(R.CHOP_c_CURRENT 3, F.CHOP_c_CURRENT.REST_DELAY, 0)] State.reset).chopCurrent 3) = 0) ∧
      State.reset.raw.toNat < (tickFrom (State.reset.raw + 1)).toNat ∧
      (State.reset.flag (R.CHOP_c_CTRL 3) F.CHOP_c_CTRL.EN = false ∧ (State.reset.chop 3).shorted = false ∧
        (puts [(R.CHOP_c_CTRL 3, F.CHOP_c_CTRL.EN, 1)] State.reset).flag (R.CHOP_c_CTRL 3) F.CHOP_c_CTRL.EN = true) ∧
      (fldOf F.CHOP_c_TIMING.OFF_TICKS 0 = 0 ∧ fldOf F.CHOP_c_TIMING.DEAD_M 1 ≤ 12 ∧ fldOf F.CHOP_c_TIMING.OFF_TICKS 1 ≠ 0) ∧
      fldOf F.CHOP_c_MSTEP.USTEP 9 = 9 ∧ ∀ k : Fin 24, State.reset.flag (R.CHOP_c_CTRL k) F.CHOP_c_CTRL.EN = false := by
  repeat' apply And.intro
  all_goals first
    | decide +kernel
    | exact ⟨true, by decide +kernel⟩
/-! ### Chapter 10 -/

/-- Port 0 of each kind serves station 5, node 5 and slave 5. -/
def aStation : StationCfg := ⟨5, 0, 4, 4, 8192, 131072, 1, 7, 8, 9, 0, []⟩
def aNode : NodeCfg := ⟨5, true, 7, 8, 9, [4], [2], [0], [(0x2000, 1, [1, 2])], 100, 500, 500, 0, []⟩
def aPoll : PollEntry := ⟨5, 3, 0, 2, 0, 0, 0, 0⟩

def fieldImage : Image :=
  { Image.none_ with stations := [(0, [aStation])], nodes := [(0, [aNode])], slaves := [(0, [⟨5, 0, [], 500⟩])], polls := [(0, [aPoll, { aPoll with slave := 0, func := 6 }])] }

/-- The generator runs and port 0 of each kind is on. -/
def serving : State :=
  let s := puts [(R.FIELD_p_CTRL 0, F.FIELD_p_CTRL.EN, 1), (R.CAN_p_CTRL 0, F.CAN_p_CTRL.EN, 1), (R.SER_p_CTRL 0, F.SER_p_CTRL.EN, 1),
    (R.FIELD_p_CYCLE 0, F.FIELD_p_CYCLE.FC_K, 3)] tracking
  { s with image := fieldImage }

/-- Station 5 in a state. -/
def station (st : Nat) : State :=
  let s := puts [(R.FIELD_p_s_STATUS 0 5, F.FIELD_p_s_STATUS.STATE, st)] serving
  s.setFport 0 { s.fport 0 with running := true, headland := 3 }

/-- Node 5 in a state and at a step of its boot. -/
def node (st : Nat) (b : BootStep) : State := puts [(R.CAN_p_n_STATUS 0 5, ⟨0, 3⟩, st)] (serving.setNode 0 5 { NodeSt.fresh with boot := b })

/-- Port 0 scans, at an entry, after some tries. -/
def scanning (i tries : Nat) (turn : Bool) : State := serving.setSer 0 { SerPort.idle with scanning := true, entry := i, tries := tries, turn := turn }

theorem witness_FieldPortsAreEnabledAndServed :
    (let v : Word := 1
     let w := (if (0 : Fin 4).val % 2 = 1 then setFldOf F.FIELD_p_CTRL.PAIR 0 v else v) &&& 0xFF
     fldOf F.FIELD_p_CTRL.MODE v ≠ 3 ∧ fldOf F.FIELD_p_CTRL.SPEED v ≠ 3 ∧ State.reset.flag (R.FIELD_p_CTRL 0) F.FIELD_p_CTRL.EN = false ∧
      fldOf F.FIELD_p_CTRL.EN v = 1 ∧ tableOk serving (serving.tablePort 0) w = true ∧ pairOk serving 0 w (serving.reg (R.FIELD_p_CYCLE 0)) = true ∧ pairOn State.reset 0 = false ∧
      serving.flag (R.FIELD_p_CTRL 0) F.FIELD_p_CTRL.EN = true) ∧
      (fldOf F.FIELD_p_CTRL.MODE 6 = 3 ∧ fldOf F.FIELD_p_CTRL.EN 6 = 0) ∧
      (let s := puts [(R.FIELD_p_CTRL 0, F.FIELD_p_CTRL.POLL, 1), (R.FIELD_p_STATUS 0, F.FIELD_p_STATUS.LINK, 1)] State.reset
       State.reset.flag (R.FIELD_p_CTRL 0) F.FIELD_p_CTRL.POLL = false ∧ s.flag (R.FIELD_p_CTRL 0) F.FIELD_p_CTRL.POLL = true ∧
        s.flag (R.FIELD_p_STATUS 0) F.FIELD_p_STATUS.LINK = true) := by
  decide +kernel

/-- A well-formed reply of station 5. -/
def aReply : Reply := ⟨true, true, true, 77, 5, 0, 0, 0, [1, 2, 3, 4], []⟩

theorem witness_StationRepliesAreTaken :
    { aReply with fcs := false }.fcs = false ∧ (aReply.fcs = true ∧ aReply.addressed = true ∧ aReply.formed = true) ∧
      State.reset.station? (State.reset.tablePort 0) 5 = none ∧
      ((station 3).station? ((station 3).tablePort 0) 5 = some aStation ∧ aStation.num < 256) ∧ (station 0).stnState 0 5 = 0 ∧
      ((station 3).stnState 0 5 = 3 ∧ (station 2).stnState 0 5 = 2 ∧ aStation.mac = 0) ∧ { aReply with cycle := 1 }.cycle ≠
        ((station 3).reg (R.FIELD_p_CYCLE_NUM 0)).toNat ∧
      (aReply.cycle = ((station 3).reg (R.FIELD_p_CYCLE_NUM 0)).toNat ∧ frameOver (station 3) 0 = false ∧ ((station 3).fport 0).running = true ∧
        aReply.inputs.length = aStation.inLen) ∧
      (natBit { aReply with status := 1, inputs := [] }.status 0 = true ∧ { aReply with status := 1, inputs := [] }.inputs = []) ∧
      (((station 3).setStn 0 5 { StationSt.fresh with good := some ([], 0) }).stn 0 5).good.isSome = true ∧
      ((station 3).stn 0 5).good = none ∧ natBit aReply.status 0 = false := by
  decide +kernel

theorem witness_CanPortsManageTheirNodes :
    ((node 2 .idle).flag (R.CAN_p_CTRL 0) F.CAN_p_CTRL.EN = true ∧ (node 2 .idle).headRun = true ∧
        (node 2 .idle).isCanHeadland 0 (node 2 .idle).headIndex = true ∧ (node 2 .idle).portsSilent = false) ∧
      State.reset.headRun = false ∧ State.reset.node? 0 5 = none ∧
      ((node 1 .wait).nodeState 0 5 = 1 ∧ ((node 1 .wait).node 0 5).boot = .wait ∧ (node 1 .wait).node? 0 5 = some aNode ∧ aNode.node = 5) ∧
      ((node 2 .idle).nodeState 0 5 = 2 ∧ (node 3 .idle).nodeState 0 5 = 3 ∧ aNode.hbMs ≠ 0 ∧ (4 : Nat) ≠ 5) ∧
      (aNode.tpdos.length ≤ 1 ∧ 0 < aNode.tpdos.length ∧ ((node 1 .start).node 0 5).boot = .start ∧ aNode.resetComm = true) ∧
      (((node 4 .retry).node 0 5).boot = .retry ∧ ((node 1 (.ident 1)).node 0 5).boot = .ident 1 ∧ ((node 1 (.sdo 0)).node 0 5).boot = .sdo 0 ∧
        aNode.sdos.length ≤ 1 ∧ 1 < { aNode with sdos := [(1, 1, []), (2, 1, [])] }.sdos.length ∧ SdoEnd.success [] ≠ .timeout ∧
        ∀ code, SdoEnd.success [] ≠ .abort code) ∧
      (((node 1 (.ident 3)).node 0 5).boot = .ident 3 ∧ nodeIdent aNode ([7, 8] ++ [leNat [9, 0, 0, 0]]) = 0 ∧
        nodeIdent aNode ([7, 8] ++ [leNat [8, 0, 0, 0]]) ≠ 0 ∧ 0 < aNode.sdos.length) ∧
      ((serving.can 0).sdo = none ∧
        ((serving.setCan 0 { CanPort.idle with sdo := some ⟨0, 5, 1, 2, false, []⟩ }).can 0).sdo = some ⟨0, 5, 1, 2, false, []⟩) ∧
      (∃ t, exec (.sdoComplete 0 none (.success [7])) (serving.setCan 0 { CanPort.idle with sdo := some ⟨0, 5, 1, 2, false, []⟩ }) = .next t) ∧
      ((∃ c ∈ serving.nodeTable 0, serving.nodeState 0 c.node ≠ 2 ∧ serving.nodeState 0 c.node ≠ 3) ∧
        (∀ c ∈ (node 2 .idle).nodeTable 0, (node 2 .idle).nodeState 0 c.node = 2 ∨ (node 2 .idle).nodeState 0 c.node = 3)) ∧
      ((∃ c ∈ tget [] serving.image.slaves 0, (serving.slave 0 c.slave).everOk = false) ∧
        (∀ c ∈ tget [] State.reset.image.slaves 0, (State.reset.slave 0 c.slave).everOk = true)) := by
  repeat' apply And.intro
  all_goals first
    | decide +kernel
    | exact ⟨_, rfl⟩
    | nofun

theorem witness_SerialPortsScanAndPinsChange :
    (serving.flag (R.SER_p_CTRL 0) F.SER_p_CTRL.EN = true ∧ serving.headRun = true ∧ serving.isSerHeadland 0 serving.headIndex = true ∧
        serving.portsSilent = false ∧ (serving.ser 0).scanning = false ∧ serving.polls 0 = aPoll :: [{ aPoll with slave := 0, func := 6 }]) ∧
      ((scanning 0 0 false).ser 0).scanning = true ∧ State.reset.headRun = false ∧ { serving with image := Image.none_ }.polls 0 = [] ∧
      (let s := scanning 0 0 false
       let x := s.ser 0
       (s.polls 0)[x.entry]? = some aPoll ∧ x.scanning = true ∧ x.turn = false ∧ 0 < aPoll.slave ∧ aPoll.slave < 248 ∧
        x.tries < (puts [(R.SER_p_TIMING 0, F.SER_p_TIMING.RETRIES, 1)] s).get (R.SER_p_TIMING 0) F.SER_p_TIMING.RETRIES ∧
        (puts [(R.SER_p_TIMING 0, F.SER_p_TIMING.RETRIES, 0)] s).get (R.SER_p_TIMING 0) F.SER_p_TIMING.RETRIES ≤ x.tries ∧
        x.entry + 1 < (s.polls 0).length ∧ aPoll.func = 3) ∧
      (((scanning 1 0 true).ser 0).scanning = true ∧ ((scanning 1 0 true).ser 0).turn = true) ∧
      (State.reset.level 191 = false ∧
        (let s := puts [(R.GPIO_e_EVT 0, F.GPIO_e_EVT.PIN, 5), (R.GPIO_e_EVT 0, F.GPIO_e_EVT.EDGE, 3)] State.reset
         fldOf F.GPIO_e_EVT.PIN (s.reg (R.GPIO_e_EVT 0)) = 5 ∧ fldOf F.GPIO_e_EVT.EDGE (s.reg (R.GPIO_e_EVT 0)) = 3)) := by
  decide +kernel
/-! ### Chapters 11 and 15: JOA -/

/-- Session 3 with a host on raw Ethernet, in the role of an administrator. -/
def host : HostAddr := ⟨2, 0x1234, 0⟩

def aSession : JoaSession :=
  { JoaSession.free with st := 2, role := 4, host := host, maxPayload := 8192, token := 77, high := 100, seen := [100, 90], last := 5 }

/-- Session 3 is open; a module publishes a variable in AGRIC memory and an output. -/
def joaOpen : State :=
  let s := (puts [(R.JOA_CTRL, ⟨0, 3⟩, 7), (R.UPLINK_p_CTRL 0, F.UPLINK_p_CTRL.EN, 1), (R.UPLINK_p_CTRL 0, F.UPLINK_p_CTRL.JUMBO, 1)] tracking).setSession 3 aSession
  { s with
    raw := 2000000
    image := { Image.none_ with modules := [{ aModule with pubs := [⟨1, 1, 0xA000, 31, 0⟩, ⟨3, 2, 0xA000, 31, 0⟩, ⟨0, 0, 0xA001, 31, 0⟩, ⟨10, 0, 0xA002, 0, 0⟩] }] } }

/-- Session 3 with a request in progress. -/
def joaBusy (p : JoaPend) : State := joaOpen.setSession 3 { aSession with pend := [p] }

/-- A WRITE of session 3 in progress, whose item waits. -/
def aPend (op : Nat) (w : JoaWait) : JoaPend := ⟨5, 0, op, [{ JoaItem.at 0xA00001 with wait := w, data := [1, 2] }], 0, 9, 0⟩

theorem witness_RequestsAreAnsweredOnce :
    (8, Instr.ping 3 5) ∈ [(8, Instr.ping 3 5)] ∧ (State.reset.session 3).st ≠ 2 ∧ (joaOpen.session 3).st = 2 ∧
      (∃ p ∈ ((joaBusy (aPend 0x11 .headland)).session 3).pend, p.req = (5 : BitVec 16).toNat) ∧
      ({ aSession with kept := [(5, [1, 2, 3])] }.kept.find? (fun r => decide (r.1 = (5 : BitVec 16).toNat)) = some (5, [1, 2, 3])) ∧
      (∀ r ∈ aSession.kept, r.1 ≠ (5 : BitVec 16).toNat) ∧ 16 ≤ (List.replicate 16 { aPend 0x11 .headland with req := 6 }).length := by
  decide +kernel

/-- The requests' entries: an index and sub-index of this device. -/
def at_ (key : Nat) : Word := BitVec.ofNat 32 key

/-- A subscription of session 3 by its number. -/
def aSub (id : Nat) : JoaSub := ⟨id, 3, 1, 1, [(0, 0xA00001)], [], 0, 0, [], 0, 0, false, 0, none, []⟩

/-- Session 3 with transfer 9 into a configuration slot (2, 3) or a firmware slot (0, 1). -/
def transferring (slot : Nat) (b : List Byte) : State := { joaOpen with joa := { joaOpen.joa with xfers := [⟨9, 3, slot, 8, 0, b, 5⟩] } }

theorem witness_RequestsTakeEffectAndAreAnswered :
    ((joaOpen.session 3).st = 2 ∧ joaOpen.joa.proxies = [] ∧ (∀ j, j < 32 → (joaOpen.session j).pend = []) ∧
        (∀ r ∈ (joaOpen.session 3).kept, r.1 ≠ (5 : BitVec 16).toNat) ∧ joaOpen.resets.recovery = false) ∧
      ((at_ 0xA00001).toNat / 2 ^ 24 = joaOpen.ownDev ∧ (at_ 0x1000000).toNat / 2 ^ 24 ≠ joaOpen.ownDev ∧
        natBit (joaOpen.reg R.DRUS_REACH).toNat ((at_ 0x1000000).toNat / 2 ^ 24) = false) ∧
      (readStatus joaOpen 4 0xA00001 = 0 ∧ (findEntry joaOpen 0xA00001).isSome = true ∧ readStatus joaOpen 4 0xA0FF00 ≠ 0 ∧
        findEntry joaOpen 0x9F1000 = some .nonce ∧ entryTotal joaOpen 3 .report = none ∧ findEntry joaOpen 0xA0FF00 = none ∧
        (∀ p n i j, Entry.nonce ≠ .proxy p n i j) ∧ ∀ m p v, Entry.nonce ≠ .pub m p v) ∧
      (readSpan joaOpen 3 (JoaItem.read 0xA00100 0 0) (entryMeta joaOpen 0x9F1000 .nonce) ≠ none ∧
        entryTotal joaOpen 3 .nonce = some 0 ∧ 0 ≤ readRoom joaOpen 3 ∧
        (∀ m : EntryMeta, m.ty = 4 → readSpan joaOpen 3 (JoaItem.read 0xC00003 8 0) m = none)) ∧
      (writeStatus joaOpen 4 0x9F1000 (entryMeta joaOpen 0x9F1000 .nonce).ty (List.replicate 32 1) = 0 ∧
        writeStatus joaOpen 4 0xA0FF00 1 [1] ≠ 0 ∧ 64 < (List.replicate 65 (⟨0, 1, [1]⟩ : WriteItem)).length ∧
        256 < (List.replicate 257 (0 : Word)).length ∧ 4096 < (List.replicate 4097 (⟨0, 1, [1]⟩ : WriteItem)).length) ∧
      ((entryWrite 3 0x9F1000 .nonce (List.replicate 32 1) joaOpen).1 = 0 ∧ joaOpen.ctrlBridging = false ∧
        (puts [(R.EXEC_STATUS, F.EXEC_STATUS.STATE, 3)] joaOpen).ctrlBridging = true ∧ joaOpen.headRun = true) ∧
      (∃ m p v, findEntry joaOpen 0xA00100 = some (.pub m p v) ∧ v.kind ≠ 1) ∧ (∃ m p v, findEntry joaOpen 0xA00001 = some (.pub m p v) ∧ v.kind = 1) ∧
      joaOpen.txFreeSlot = some 0 ∧
      ((1 : Byte).toNat ≤ 2 ∧ 1 ≤ (1 : BitVec 16).toNat ∧ [at_ 0xA00001].length ≤ 64 ∧ ([at_ 0xA00001] = [] ↔ (1 : Byte).toNat = 2) ∧
        2 < (3 : Byte).toNat ∧ (joaOpen.joa.subs.length < 256 ∧
          (joaOpen.joa.subs.filter fun y => decide (y.session = (3 : Fin 32).val)).length < 32 ∧
          (joaOpen.joa.subs.map fun y => y.items.length).sum + [at_ 0xA00001].length ≤ 4096) ∧ readStatus joaOpen 4 0xA00001 = 0 ∧
        ((findEntry joaOpen 0xA00001).map fun e => e.unsubscribable) = some false) ∧
      (let s : State := { joaOpen with joa := { joaOpen.joa with subs := (List.range 256).map aSub } }
       ¬s.joa.subs.length < 256 ∧ ∃ y : JoaSub, y ∈ s.joa.subs ∧ y.id = (5 : BitVec 16).toNat ∧ y.session = (3 : Fin 32).val) ∧
      ((let s := joaOpen.setSession 3 { aSession with role := 3 }; segStatus s (s.session 3).role 0x3F0000 2097152 = 0) ∧ findEntry joaOpen 0x3F0000 = some .configSlot ∧ segStatus joaOpen 4 0xA00001 8 ≠ 0) ∧
      (joaOpen.xferOf 3 9 = none ∧ (transferring 2 []).xferOf 3 9 = some ⟨9, 3, 2, 8, 0, [], 5⟩ ∧
        (transferring 0 [1, 2, 3, 4]).xferOf 3 9 = some ⟨9, 3, 0, 8, 0, [1, 2, 3, 4], 5⟩ ∧
        [(1 : Byte), 2, 3, 4].length ≤ aSession.maxPayload - 20 ∧ (4 : Quad).toNat + [(1 : Byte), 2, 3, 4].length ≤ 8 ∧
        (0 : Quad).toNat + [(1 : Byte), 2, 3, 4].length ≤ [(1 : Byte), 2, 3, 4].length ∧
        ([(1 : Byte), 2, 3, 4].length < (5 : Quad).toNat + [(1 : Byte), 2, 3].length ∧ (5 : Quad).toNat ≠ [(1 : Byte), 2, 3, 4].length)) ∧
      (joaOpen.glean.stream = none ∧ 4108 ≤ aSession.maxPayload ∧ { aSession with maxPayload := 1464 }.maxPayload < 4108 ∧ 1 ≤ (64 : Byte).toNat ∧ (64 : Byte).toNat ≤ 64 ∧ 64 < (65 : Byte).toNat ∧
        { joaOpen.glean with stream := some 3 }.stream = some (3 : Fin 32).val) := by
  repeat' apply And.intro
  all_goals first
    | decide +kernel
    | exact ⟨_, _, _, rfl, by decide +kernel⟩
    | (intro m h; simp [readSpan, h, scalarType, JoaItem.read]; done)
    | nofun

theorem witness_SessionsAreEstablishedUsedAndEnded :
    carrierOn (puts [(R.JOA_CTRL, ⟨0, 3⟩, 0)] State.reset) host 0 = false ∧ carrierOn joaOpen host 0 = true ∧
      ((joaOpen.session 3).st = 2 ∧ (joaOpen.session 3).token = (at_ (77 * 32 + 3)).toNat / 32 ∧ (joaOpen.session 3).host = host ∧
        (at_ (77 * 32 + 3)).toNat % 32 = 3) ∧
      (seqFresh aSession 101 = true ∧ seqFresh aSession 36 = true ∧ seqFresh aSession 35 = false ∧ seqFresh aSession 90 = false) ∧
      hostOpcode 8 = true ∧ joaOpen.lifecycle ≠ 4 ∧
      (let s := { joaOpen with sec := { joaOpen.sec with hosts := [(2, some ⟨[], 31⟩)], keys := some [] } }
       helloStatus s host 4 2 = 0 ∧ helloStatus s host 4 3 ≠ 0 ∧
        ((List.range 32).find? fun k => decide ((s.session k).st = 0)) = some 0 ∧ s.sec.keys = some []) ∧
      ((joaOpen.session 3).shake = none ∧ (joaOpen.session 4).st ≠ 1 ∧ { aSession with st := 1 }.st = 1 ∧
        { aSession with shake := some ⟨[], [], [], [], [], [1]⟩ }.shake = some ⟨[], [], [], [], [], [1]⟩) ∧
      (joaOpen.joa.proxies = [] ∧ (∀ j, j < 32 → (joaOpen.session j).pend = []) ∧ (joaOpen.session 4).st = 0) := by
  decide +kernel

theorem witness_TheJoaEngineServesWhatWaits :
    (let s := joaBusy (aPend 0x11 .proxy)
     let r : ProxyReq := ⟨3, 5, 0, 2, 5, 0x2000, 1, true, [1], true⟩
     { s with joa := { s.joa with proxies := [r] } }.joa.proxies = [r] ∧ r.port = (2 : Fin 8).val ∧ r.started = true ∧
      (s.session 3).st = 2 ∧ (s.session 3).pend = [aPend 0x11 .proxy] ∧ (aPend 0x11 .proxy).req = r.req ∧ r.item = 0 ∧ r.write = true ∧
      (aPend 0x11 .proxy).items = [{ JoaItem.at 0xA00001 with wait := .proxy, data := [1, 2] }] ∧ (∀ j, j < 32 → j ≠ 3 → (s.session j).pend = [])) ∧
      (((joaBusy (aPend 0x11 .farm)).session 3).pend = [aPend 0x11 .farm] ∧ (aPend 0x11 .farm).req = (5 : BitVec 16).toNat) ∧
      (([aSub 7].filter fun x => decide (x.mode ≤ 1 ∧ joaOpen.headIndex % x.period = 0 ∧ x.sampled ≠ some joaOpen.headIndex)) ≠ [] ∧
        joaOpen.headRun = true ∧ ([aSub 7].map (·.id)).Nodup) ∧
      (let s := { joaOpen with glean := { joaOpen.glean with stream := some 3, window := 2, spool := [{ aBlock 0 with seq := 0 }, { aBlock 0 with seq := 1 }], nextSend := 1 } }
       s.unacked.find? (fun y : Block => seqLe s.glean.nextSend y.seq) = some { aBlock 0 with seq := 1 } ∧
        (s.unacked.filter fun y => !seqLe s.glean.nextSend y.seq).length < s.glean.window ∧ (s.session 3).queue.length < 64 ∧
        ¬((s.unacked.filter fun y => !seqLe s.glean.nextSend y.seq).length < 1) ∧ s.glean.nextSend ≠ s.ackSeq) ∧
      (joaOpen.glean.stream = none ∧ (transferring 0 []).xfer (9 : BitVec 16).toNat = some ⟨9, 3, 0, 8, 0, [], 5⟩ ∧ joaOpen.xfer 9 = none) ∧
      (((joaBusy (aPend 0x19 .flash)).session 3).pend = [aPend 0x19 .flash] ∧ (aPend 0x19 .flash).slot = 9) := by
  decide +kernel
/-! ### Chapter 12 -/

/-- A two-step message of the parent, and its Announce. -/
def aMsg : PtpMsg := ⟨0, 0, true, true, 0xAA, 1, 7, true, 0, ⟨0, 0, 0⟩⟩
def anAnnounce : Announce := ⟨128, 6, 0x21, 0, 128, 0xBB, 0, 0x20, 0⟩

/-- The engine follows a parent on uplink 0, with measurements and a state of the servo. -/
def ptpRuns (servo : Nat) (x : UplinkMeas) : State :=
  let s := puts [(R.PTP_CTRL, F.PTP_CTRL.EN, 1), (R.UPLINK_p_CTRL 0, F.UPLINK_p_CTRL.EN, 1), (R.PTP_STATUS, F.PTP_STATUS.SERVO, servo),
    (R.PTP_q_CFG 3, F.PTP_q_CFG.EN, 1)] State.reset
  let t := s.setMeas 0 x
  { t with raw := 5000, ptp := { t.ptp with parent := some ⟨0, 0xAA, 1, anAnnounce, 4000⟩, sources := [⟨0, 0xAA, 1, anAnnounce, 4000⟩] } }

/-- A Sync whose t1 is known, with t2 sixteenths of a grain after it, and the Delay_Req of sequenceId 7. -/
def measured (t2 : Int) : UplinkMeas := { UplinkMeas.none_ with sync := some ⟨6, some 0, t2, 4900, 0⟩, req := some (7, 0) }

theorem witness_PtpMessagesAreTakenAndSent :
    (State.reset.ptpOn = false ∧ (ptpRuns 1 UplinkMeas.none_).ptpOn = true ∧ (ptpRuns 1 UplinkMeas.none_).uplinkOn 0 = true ∧
        ptpBad (ptpRuns 1 UplinkMeas.none_) 0 { aMsg with domain := 9 } none = true ∧ ptpBad (ptpRuns 1 UplinkMeas.none_) 0 aMsg none = false) ∧
      (fromParent (ptpRuns 1 UplinkMeas.none_) 0 { aMsg with clock := 1 } = false ∧ fromParent (ptpRuns 1 UplinkMeas.none_) 0 aMsg = true ∧
        aMsg.twoStep = true) ∧
      (let x : UplinkMeas := { UplinkMeas.none_ with sync := some ⟨7, none, 100, 4900, 0⟩ }
       ((ptpRuns 1 x).meas 0).sync = some ⟨7, none, 100, 4900, 0⟩ ∧ { aMsg with seq := 8 }.seq ≠ 7 ∧ aMsg.seq = 7 ∧
        (ptpRuns 1 x).flag R.PTP_CTRL F.PTP_CTRL.P2P = false ∧ ((ptpRuns 1 x).meas 0).resp = none) ∧
      (ptpBad (ptpRuns 1 UplinkMeas.none_) 0 aMsg (some false) = false ∧ ((ptpRuns 1 UplinkMeas.none_).meas 0).req = none ∧
        ((ptpRuns 1 { UplinkMeas.none_ with req := some (7, 50) }).meas 0).req = some (7, 50)) ∧
      (let s (x : UplinkMeas) := puts [(R.PTP_CTRL, F.PTP_CTRL.P2P, 1)] (ptpRuns 1 x)
       ptpBad (s UplinkMeas.none_) 0 aMsg (some true) = false ∧ ((s UplinkMeas.none_).meas 0).pd = none ∧
        ((s { UplinkMeas.none_ with pd := some ⟨7, 50, some (1, 2, 3)⟩ }).meas 0).pd = some ⟨7, 50, some (1, 2, 3)⟩ ∧
        (s UplinkMeas.none_).flag R.PTP_CTRL F.PTP_CTRL.P2P = true ∧ { aMsg with twoStep := false }.twoStep = false) ∧
      ((2 ≤ (3 : Fin 6).val ∧ (ptpRuns 1 UplinkMeas.none_).flag (R.PTP_q_CFG 3) F.PTP_q_CFG.EN = true ∧
          ptpBad (puts [(R.PTP_q_CFG 3, F.PTP_q_CFG.P2P, 1)] (ptpRuns 1 UplinkMeas.none_)) 3 aMsg (some true) = false) ∧
        (puts [(R.PTP_CTRL, F.PTP_CTRL.ONE_STEP, 1)] State.reset).flag R.PTP_CTRL F.PTP_CTRL.ONE_STEP = true) ∧
      (let s := ptpRuns 4 UplinkMeas.none_
       ptpGapOk (s.advanceTo 5100) 1 5100 64 = true ∧ ptpBad s 3 aMsg (some false) = false ∧
        ptpGapOk ({ s with head := { s.head with armed := true, nextB := 1, nextActual := 6000 } }.advanceTo 5100) 1 5100 64 = false ∧
        ptpGapOk (s.advanceTo 5100) 1 5100 72 = true ∧
        ptpGapOk ({ s with head := { s.head with armed := true, nextB := 1, nextActual := 6000 } }.advanceTo 5100) 1 5100 72 = false ∧
        s.servo = 4 ∧ s.ptp.parent.isSome = true ∧ State.reset.ptp.parent = none) := by
  decide +kernel

/-- Uplink 0 with a sample whose D is 10,000 sixteenths, beside the values accepted before. -/
def sampleAt (servo : Nat) (t2 : Int) (f : Ptp → Ptp) : State := let s := ptpRuns servo (measured t2); { s with ptp := f s.ptp }

/-- The last accepted sample. -/
def accepted (th : Int) (n : Nat) (p : Ptp) : Ptp := { p with prev := some (th, 4000), run := n }

theorem witness_TheServoFollowsTheParent :
    ((sampleAt 1 20000 id).ptpOn = true ∧ (sampleAt 1 20000 id).uplinkOn 0 = true ∧ ptpBad (sampleAt 1 20000 id) 0 aMsg (some false) = false ∧
        fromParent (sampleAt 1 20000 id) 0 aMsg = true ∧ (sampleAt 1 20000 id).flag R.PTP_CTRL F.PTP_CTRL.P2P = false ∧
        ((sampleAt 1 20000 id).meas 0).sync = some ⟨6, some 0, 20000, 4900, 0⟩ ∧ ((sampleAt 1 20000 id).meas 0).req = some (aMsg.seq, 0)) ∧
      ((-500 : Int) - 0 - corrSixteenths 0 + (ofPtp aMsg.time - 0 - corrSixteenths aMsg.corr) < 0 ∧
        0 ≤ (20000 : Int) - 0 - corrSixteenths 0 + (ofPtp aMsg.time - 0 - corrSixteenths aMsg.corr)) ∧
      ((sampleAt 5 20000 id).servo = 5 ∧ pathJump (sampleAt 5 20000 id) (sampleAt 5 20000 id).ptp.gather 20000 = false) ∧
      (pathJump (sampleAt 3 20000000000 fun p => { p with ds := [100] }) [100] 20000000000 = true) ∧
      ((sampleAt 1 20000 id).servo = 1 ∧ (sampleAt 1 20000 id).ptp.prev = none ∧ (sampleAt 1 20000 id).ptp.thetaB = none ∧
        pathJump (sampleAt 1 20000 id) (sampleAt 1 20000 id).ptp.ds 20000 = false ∧
        (sampleAt 1 20000 id).flag R.PTP_STATUS F.PTP_STATUS.SYNT_ONLY = false) ∧
      (let s := sampleAt 2 20000 (accepted 10000 0)
       s.servo = 2 ∧ s.ptp.prev = some (10000, 4000) ∧ (4900 : Quad) ≠ 4000 ∧ (((10000 : Int) - 10000).natAbs : Int) ≤ s.lockThr.toNat ∧
        s.ptp.run + 1 < s.lockCount ∧ s.lockCount ≤ (sampleAt 2 20000 (accepted 10000 100)).ptp.run + 1 ∧ s.ptp.waitSeat = false ∧
        s.flag R.TIME_STATUS F.TIME_STATUS.SEATED = false ∧ s.ctrlStopped = true ∧
        (puts [(R.PTP_CTRL, F.PTP_CTRL.AUTO_SEAT, 1)] s).flag R.PTP_CTRL F.PTP_CTRL.AUTO_SEAT = true ∧
        16 * msGrains ((puts [(R.PTP_SEAT_MAX, F.PTP_SEAT_MAX.SEAT_MAX, 0)] s).get R.PTP_SEAT_MAX F.PTP_SEAT_MAX.SEAT_MAX) < 10000) ∧
      ((sampleAt 3 20000 (accepted 10000 100)).servo = 3 ∧ (sampleAt 4 20000 (accepted 10000 5)).servo = 4 ∧
        (sampleAt 4 20000 id).lockThr.toNat < 2000000000 ∧ 4 * (sampleAt 4 20000 id).lockThr.toNat < 2000000000) ∧
      ((ptpRuns 4 UplinkMeas.none_).ptp.sources.find? (fun x => x.uplink = 0 ∧ x.clock = 0xAA ∧ x.port = 1) =
        some ⟨0, 0xAA, 1, anAnnounce, 4000⟩ ∧ 3 ≤ (ptpRuns 4 UplinkMeas.none_).servo ∧ State.reset.ptp.sources = []) ∧
      ((ptpRuns 5 UplinkMeas.none_).servo = 5 ∧ State.reset.servo ≠ 5) := by
  decide +kernel

theorem witness_FramesAndUplinksAreServed :
    ((some (6000, 3) : Option (Quad × Fin 16)) = some ((6000 : Quad), (3 : Fin 16))) ∧ State.reset.uplinkOn 0 = false ∧
      (ptpRuns 1 UplinkMeas.none_).uplinkOn 0 = true ∧ State.reset.flag (R.UPLINK_p_STATUS 1) F.UPLINK_p_STATUS.LINK = false ∧
      (puts [(R.UPLINK_p_STATUS 0, F.UPLINK_p_STATUS.LINK, 1)] State.reset).flag (R.UPLINK_p_STATUS 0) F.UPLINK_p_STATUS.LINK = true := by
  decide +kernel
/-! ### Chapter 13 -/

/-- A set: input 0 is tested by pulses 1 and 2, output 0 needs it and is dark-tested. Its last four bytes are its checksum. -/
def setBody : List Byte :=
  [0x53, 0x46, 0x53, 0x31, 1, 0, 212, 0, 5, 0, 0, 0, 100, 0, 0xE8, 3, 1, 1, 2, 0, 10, 0, 0, 0] ++
    (List.replicate 15 [0, 0, 0, 0, 10, 0, 0, 0]).flatten ++ [1, 0, 9, 0, 4, 0, 0, 0] ++ (List.replicate 7 [0, 0, 0, 0, 1, 0, 0, 0]).flatten

def aSet : List Byte := setBody ++ [187, 99, 90, 238]

/-- The checksum's state after some bytes. -/
def stage (c : Word) (l : List Byte) : Word := l.foldl (fun c b => crc32Bits 8 (c ^^^ b.setWidth 32)) c

/-- A piece of the set. -/
def part (i : Nat) : List Byte := (setBody.drop (26 * i)).take 26

theorem setBody_parts : setBody = part 0 ++ (part 1 ++ (part 2 ++ (part 3 ++ (part 4 ++ (part 5 ++ (part 6 ++ part 7)))))) := by decide +kernel

theorem crc32_aSet : crc32 (aSet.take 208) = 0xEE5A63BB := by
  have h0 : stage 4294967295 (part 0) = 3750414003 := by decide +kernel
  have h1 : stage 3750414003 (part 1) = 2838441408 := by decide +kernel
  have h2 : stage 2838441408 (part 2) = 1683951900 := by decide +kernel
  have h3 : stage 1683951900 (part 3) = 1195230523 := by decide +kernel
  have h4 : stage 1195230523 (part 4) = 3868691024 := by decide +kernel
  have h5 : stage 3868691024 (part 5) = 2165011282 := by decide +kernel
  have h6 : stage 2165011282 (part 6) = 4183372807 := by decide +kernel
  have h7 : stage 4183372807 (part 7) = 296066116 := by decide +kernel
  rw [show aSet.take 208 = setBody by decide +kernel, setBody_parts]
  unfold stage at h0 h1 h2 h3 h4 h5 h6 h7
  simp only [crc32, List.foldl_append, h0, h1, h2, h3, h4, h5, h6, h7]
  decide

theorem setOk_aSet : setOk aSet = true := by
  unfold setOk
  rw [crc32_aSet]
  decide +kernel

/-- The island runs the set, with a state of its two sides. -/
def islandRuns (c m : SafeSide) : State :=
  { State.reset with island := { Island.off with st := 3, running := aSet, active := aSet, pending := some aSet, core := c, mastiff := m } }

/-- A mirror frame of the running island. -/
def aFrameOf (bits : Nat) : MirrorFrame := ⟨77, bits, 3, [1, 2], [3], 5, 1, 2, 1, 6, 7⟩

/-- A side whose output 0 is ON, one with a press of 500 samples, and one that is held. -/
def sideOn : SafeSide := { SafeSide.reset with out := [(0, 2)], cmd := 1, permit := 1, a := 1, b := 1, begun := true }
def sidePressed : SafeSide :=
  { SafeSide.reset with press := 500, inLatch := [(0, 1)], clear := [(0, (3, 5))], outLatch := [(0, 1)], out := [(0, 3), (1, 1)] }
def sideStuck : SafeSide := { SafeSide.reset with stuck := true }

theorem witness_SafetyTicksSampleJudgeAndDrive :
    { Island.off with st := 2 }.st = 2 ∧ { Island.off with st := 4 }.st = 4 ∧
      State.reset.island.st ≠ 3 ∧ (islandRuns sideOn sideOn).island.st = 3 ∧ setOut aSet 0 0 = true ∧ natBit (setMask aSet 0) 0 = true ∧
      setInEn aSet 0 = true ∧ setStpA aSet 0 = 1 ∧ setDisc aSet 0 = 80 ∧ setOut aSet 0 2 = false ∧ natBit sideOn.cmd 0 = true ∧
      (∃ n, n < 8 ∧ 32 ≤ tget 0 { sideOn with cross := [(7, 32)] }.cross n) ∧ (∀ n, n < 8 → tget 0 sideOn.cross n = 0) := by
  repeat' apply And.intro
  all_goals first
    | decide +kernel
    | exact ⟨7, by decide +kernel⟩

theorem witness_TheIslandTestsResetsAndStarts :
    State.reset.island.st ≠ 3 ∧ (islandRuns sideOn sideOn).island.st = 3 ∧
      (setOut aSet 0 3 = true ∧ tget 0 sideOn.out 0 = 2 ∧ setOut aSet 7 3 = false) ∧
      (SafeSide.reset.press = 0 ∧ sideStuck.stuck = true ∧ sidePressed.stuck = false ∧ 400 ≤ sidePressed.press ∧ sidePressed.press ≤ 16000 ∧
        376 ≤ sidePressed.press ∧ sidePressed.press ≤ 17024 ∧ { sidePressed with press := 399 }.press < 400) ∧
      ((tget (0, 0) sidePressed.clear 0).1 = 3 ∧ (tget (0, 0) sidePressed.clear 1).1 ≠ 3 ∧ natBit sidePressed.cmd 0 = false ∧
        natBit sidePressed.sfb 0 = false ∧ tget 0 sidePressed.out 1 = 1) ∧
      setOk aSet = true ∧ setOk [] = false ∧ State.reset.islandQuiet = true ∧ (islandRuns sideOn sideOn).islandQuiet = false ∧
      (islandRuns SafeSide.reset SafeSide.reset).island.pending = some aSet ∧ State.reset.island.pending = none := by
  repeat' apply And.intro
  all_goals first
    | with_reducible exact setOk_aSet
    | decide +kernel

theorem witness_TheMirrorFollowsTheIsland :
    State.reset.island.frames = [] ∧
      (let s := islandRuns sideOn sideOn
       { s.island with frames := [aFrameOf (2 ^ 96 + 2 ^ 63 + 2 ^ 87)] }.frames = aFrameOf (2 ^ 96 + 2 ^ 63 + 2 ^ 87) :: [] ∧ s.island.seen = none) ∧
      (aFrameOf 0).island < 8 ∧
      (natBit (aFrameOf (2 ^ 96 + 2 ^ 63 + 2 ^ 87)).bits (48 + 15) = true ∧ natBit (aFrameOf (2 ^ 96 + 2 ^ 63 + 2 ^ 87)).bits (80 + 7) = true ∧
        natBit (aFrameOf (2 ^ 96 + 2 ^ 63 + 2 ^ 87)).bits (96 + 0) = true ∧ natBit 0 63 = false) ∧
      ((aFrameOf 0).ins[1]? = some 2 ∧ (aFrameOf 0).outs[0]? = some 3 ∧ 0 < (aFrameOf 0).presses) ∧
      State.reset.flag R.SAFEMIR_STATUS F.SAFEMIR_STATUS.MIRROR_VALID = false ∧
      (puts [(R.SAFEMIR_STATUS, F.SAFEMIR_STATUS.MIRROR_VALID, 1)] State.reset).flag R.SAFEMIR_STATUS F.SAFEMIR_STATUS.MIRROR_VALID = true := by
  decide +kernel
/-! ### Chapter 14 -/

/-- The harrow and the fallow test are on. -/
def harrowing : State := puts [(R.MEM_HARROW_CFG, F.MEM_HARROW_CFG.EN, 1), (R.MEM_FALLOW_CFG, F.MEM_FALLOW_CFG.EN, 1)] State.reset

/-- The granary has credit, a persisted entry, and waiting writes. -/
def aPersist : PersistVal := ⟨9, [5], 2, 1, 0, 0, (2, 9, [5])⟩
def granaryWaits (jobs : List GranJob) : State :=
  let s := puts [(R.GRAN_CREDIT, ⟨0, 32⟩, 4096)] State.reset
  { s with raw := 9000000000000, gran := { s.gran with persist := [(0xA00001, some aPersist)], jobs := jobs } }

/-- A block of the ring has been written n times. -/
def worn (n : Nat) : State :=
  let s := granaryWaits [⟨.secure, 2, false, 0⟩]
  { s with gran := { s.gran with wear := [(1090, n)] } }

/-- Step 5 of a shutdown, with a unit next in the self-test. -/
def selfTest (u : Nat) : State :=
  let s := puts [(R.BIST_CTRL, F.BIST_CTRL.EN, 1), (R.BIST_CTRL, F.BIST_CTRL.BUDGET_MS, 100), (R.BIST_PTR, ⟨0, 8⟩, u), (R.CLK_SHUT_STATUS, F.CLK_SHUT_STATUS.STEP, 5)] State.reset
  { s with raw := 500, resets := { s.resets with stepAt := 400 } }

theorem witness_TheBanksAreTestedAndHandedOver :
    (State.reset.flag R.MEM_HARROW_CFG F.MEM_HARROW_CFG.EN = true ∧ State.reset.portsSilent = false) ∧
      (puts [(R.MEM_HARROW_CFG, F.MEM_HARROW_CFG.EN, 0)] State.reset).flag R.MEM_HARROW_CFG F.MEM_HARROW_CFG.EN = false ∧
      (harrowing.flag R.MEM_HARROW_CFG F.MEM_HARROW_CFG.EN = true ∧ harrowing.flag R.MEM_FALLOW_CFG F.MEM_FALLOW_CFG.EN = true) ∧
      (let s := { harrowing with gran := { harrowing.gran with weak := [(0x2000000, 2)], harrow := [(4, 0x100000 - 1)], fallow := [(0, 0x4000 - 1)] } }
       tget 0 s.gran.weak ((bankPlace 0).1 / 8) + 1 = 3 ∧ tget 0 harrowing.gran.weak 0x2000000 + 1 < 3 ∧ s.gran.repairs.length < 2043 ∧
        (bankPlace 4).2 / 8 ≤ tget 0 s.gran.harrow 4 + 1 ∧ (bankPlace 0).2 / 256 ≤ tget 0 s.gran.fallow 0 + 1) ∧
      (∃ n, spareRow harrowing.gran.repairs 0 0 = some n) ∧ (0x4A580001 : Word).toNat / 65536 = 0x4A58 ∧ (0x4A580001 : Word).toNat % 8 = 1 ∧
      (0x4A580007 : Word).toNat % 8 = 7 ∧ State.reset.flag (R.MEM_k_OWNER 8) F.MEM_k_OWNER.DRAINING = false ∧
      (let s := puts [(R.MEM_k_OWNER 5, F.MEM_k_OWNER.DRAINING, 1)] State.reset
       s.flag (R.MEM_k_OWNER 5) F.MEM_k_OWNER.DRAINING = true ∧ s.gran.held.filter (fun x => x.bank = 5) = [] ∧
        ([⟨5, 0x12000005, .setBits, [7]⟩] : List HeldWrite).filter (fun x => x.bank = 5) = [⟨(5 : Fin 9).val, 0x12000005, .setBits, [7]⟩] ∧
        0x12000005 / 8 * 8 ∉ s.gran.poison) ∧
      harrowing.portsSilent = false ∧ harrowing.gran.repairs.length + ([71] : List (Fin 72)).length ≤ 2043 ∧
      spareRow ((List.range 8).map fun i => ⟨0, 0, 1, 0, 0, i, 5, i, 1, 0⟩) 0 0 = none :=
  by
    repeat' apply And.intro
    all_goals first
      | decide +kernel
      | exact ⟨_, rfl⟩

theorem witness_TheGranaryWritesLineByLine :
    nextJob State.reset = none ∧
      (let s := granaryWaits [⟨.region 0xA00001, 1, false, 0⟩]
       nextJob s = some (0, ⟨.region 0xA00001, 1, false, 0⟩) ∧ 64 ≤ s.credit ∧ tget none s.gran.persist 0xA00001 = some aPersist) ∧
      nextJob (granaryWaits [⟨.cut, 1, false, 0⟩]) = some (0, ⟨.cut, 1, false, 0⟩) ∧
      nextJob (granaryWaits [⟨.secure, 2, false, 0⟩]) = some (0, ⟨.secure, 2, false, 0⟩) ∧
      (regionOwed (granaryWaits []) aPersist = true ∧ tget none (granaryWaits []).gran.persist 0xA00001 = some aPersist ∧
        (granaryWaits []).gran.jobs = [] ∧ tget none State.reset.gran.persist 0 = none) ∧
      (wornBlock State.reset = none ∧ wornBlock (worn 90000000) = some 1090 ∧
        nextJob (worn 90000000) = some (0, ⟨.secure, 2, false, 0⟩) ∧ 64 ≤ (worn 90000000).credit ∧
        ((worn 90000000).reg R.GRAN_SPARES_FREE).toNat % 128 ≠ 0) := by
  decide +kernel

/-- R541: a worn block is exchanged for one of the 108 spares of R535; a block below the limit is not. -/
theorem test_wear_swap :
    ((wearSwap (worn 90000000)).reg R.GRAN_SPARES_FREE = 107 ∧ (wearSwap (worn 90000000)).gran.wear = [] ∧
      (wearSwap (worn 90000000)).flag R.GRAN_EVENTS F.GRAN_EVENTS.WEAR_SWAP = true) ∧
      wearSwap (worn 89999999) = worn 89999999 := by
  decide +kernel

theorem witness_TheSelfTestTakesUnitsInTurn :
    sliceFits State.reset 0 = false ∧ sliceFits (selfTest 0) 0 = true ∧ sliceFits (selfTest 158) 158 = true ∧
      ((selfTest 158).reg R.BIST_PTR).toNat % 256 = 158 ∧ ((selfTest 123).reg R.BIST_PTR).toNat % 256 = 123 ∧ sliceFits (selfTest 123) 123 = true ∧
      (selfTest 0).gran.repairs.length + 1 ≤ 2043 := by
  decide +kernel
/-! ### Chapter 15 -/

/-- A device in a state of its lifecycle, with the first root of each scheme and a host key. -/
def aDevice (life : Nat) : State :=
  { State.reset with
    sec := { Security.blank with life := life, keys := if life = 0 then none else some [], rootE := [(0, ⟨some [1], false⟩)], rootL := [(0, ⟨some [2], false⟩)], hosts := [(2, some ⟨[], 31⟩)] } }

/-- An image that the roots sign, of a rollback number. -/
def anImage (rollback : Nat) : ImageFile := ⟨true, true, 40, 1, rollback, 0, 0, 31, 0, [1], [2], [], true, true, true, none⟩

/-- A device with two such firmware images. -/
def bootable (life : Nat) : State := { aDevice life with slots := [(0, some (anImage 3)), (1, some (anImage 4)), (2, some (anImage 4))] }

theorem witness_SecurityCommandsMoveTheLifecycle :
    ((bootable 2).sec.running = none ∧ (bootable 2).pfailOn = false ∧ { (bootable 2).sec with running := some 1 }.running.isSome = true ∧
        (puts [(R.CLK_STATUS, F.CLK_STATUS.PFAIL, 1)] (bootable 2)).pfailOn = true) ∧
      ((bootable 0).lifecycle = 0 ∧ (bootable 0).sec.usable false ≠ 0 ∧ (bootable 0).sec.usable true ≠ 0 ∧ State.reset.lifecycle = 0 ∧
        State.reset.sec.usable false = 0) ∧
      ((bootable 1).lifecycle = 1 ∧ (∃ x ∈ (bootable 1).sec.hosts, x.2.isSome = true) ∧ (∀ x ∈ { (bootable 1).sec with hosts := [(2, none)] }.hosts, x.2 = none)) ∧
      ((bootable 3).lifecycle = 3 ∧ (bootable 3).ctrlStopped = true ∧ (puts [(R.EXEC_STATUS, F.EXEC_STATUS.STATE, 1)] (bootable 3)).ctrlStopped = false) ∧
      ((bootable 2).lifecycle = 2 ∧ { (bootable 2).sec with retired := true }.lifecycle = 4) ∧
      (((bootable 2).sec.root false 0).usable = true ∧ ((bootable 2).sec.setRoot false 0 ⟨some [1], true⟩).usable false = 0 ∧
        ¬(((bootable 2).sec.root false 3).usable = true) ∧ (bootable 2).imageFile 0 = some (anImage 3) ∧
        imageResultOf ((bootable 2).sec.setRoot false 3 ⟨none, true⟩) (anImage 3) = 1) ∧
      ((((bootable 2).imageFile (bootable 2).fwSlot).map (·.rollback)).getD 0 = 3 ∧ (bootable 2).sec.rollback < 3 ∧
        (bootable 2).imageFile (bootable 2).activeSlot = some (anImage 4) ∧ ¬((anImage 4).rollback < 3) ∧
        (let s : State := { bootable 2 with slots := [(0, some (anImage 5)), (2, some (anImage 4))], image := { Image.none_ with id := (anImage 4).id } }
         ((s.imageFile s.fwSlot).map (·.rollback)).getD 0 = 5 ∧ s.sec.rollback < 5 ∧ s.imageFile s.activeSlot = some (anImage 4) ∧
          s.image.id = (anImage 4).id ∧ (anImage 4).rollback < 5)) := by
  decide +kernel

theorem witness_ImagesDebugAndTamperAct :
    ((∀ x ∈ (bootable 2).joa.xfers, x.slot ≠ 1) ∧ (∃ x ∈ [(⟨1, 3, 1, 8, 0, [], 0⟩ : JoaXfer)], x.slot = (1 : Fin 4).val) ∧
        imageResultOf (bootable 2).sec (anImage 4) = 1 ∧ imageResultOf (bootable 2).sec { anImage 4 with ecdsaOk := false } ≠ 1 ∧
        (bootable 2).imageFile 3 = none) ∧
      (let s := (bootable 2).setReg R.SEC_IMAGE_STATUS 0x11
       s.pfailOn = false ∧ s.shutStep = 0 ∧ (1 : Byte).toNat ≠ s.fwSlot ∧ s.imageResult 1 = 1) ∧
      ((bootable 3).lifecycle = 3 ∧ ((bootable 3).sec.root false 0).usable = true ∧ ((bootable 3).sec.root false 1).usable = false) ∧
      (let s := puts [(R.EXEC_STATUS, F.EXEC_STATUS.STATE, 1)] (bootable 3)
       s.sec.unlocked = false ∧ { s with sec := { s.sec with unlocked := true } }.sec.unlocked = true ∧ s.ctrlRunning = true ∧ s.role 0 ≠ 2) ∧
      ((1 : BitVec 5).toNat &&& (State.reset.reg R.SEC_TAMPER_CFG).toNat % 32 ≠ 0 ∧ State.reset.sec.wiping = false ∧
        (0 : BitVec 5).toNat &&& (State.reset.reg R.SEC_TAMPER_CFG).toNat % 32 = 0 ∧ State.reset.inSecure 0x103FFFFF = true) ∧
      (State.reset.sec.running = none ∧ { (bootable 1).sec with running := some 5 }.running = some 5) := by
  decide +kernel
/-! ### Chapter 16 -/

/-- Three devices in a row: this one, device 1 at its port 0, and device 2 behind it. -/
def aTable : FarmTable := ⟨[0, 1, 2], [(0, 0, 1, 0), (1, 1, 2, 0)], 1024, [0, 0x10003, 0x20007, 0x3000F]⟩

/-- The farm of which this is device `own`, with the period and classes of its table in force. -/
def farm (own : Nat) : State :=
  let s := regs [(R.SYS_FARM, BitVec.ofNat 32 own), (R.HEAD_PERIOD, 1024), (R.HEAD_n_CLASS_CFG 0, 0), (R.HEAD_n_CLASS_CFG 1, 0x10003),
    (R.HEAD_n_CLASS_CFG 2, 0x20007), (R.HEAD_n_CLASS_CFG 3, 0x3000F)]
    (puts [(R.DRUS_CTRL, F.DRUS_CTRL.EN, 1), (R.DRUS_p_CTRL 0, F.DRUS_p_CTRL.EN, 1), (R.HEAD_CTRL, F.HEAD_CTRL.RUN, 1)] State.reset)
  { s with raw := 2000000, image := { s.image with farm := some aTable } }

/-- What device 1 tells at link-up. -/
def aHello : FarmHello := ⟨1, 0, some aTable, 1024, [0, 0x10003, 0x20007, 0x3000F], [1]⟩

/-- The link to device 1 is up, and all devices are reached; a follower likewise, with a sample before. -/
def linked (own : Nat) : State :=
  let s := puts [(R.DRUS_p_STATUS 0, F.DRUS_p_STATUS.UP, 1), (R.DRUS_REACH, ⟨0, 8⟩, 6)] (farm own)
  { s with farm := { s.farm with up := [0, 1], prev := some (10, 1990000), run := 7 } }

/-- A follower at a headland whose lead's message it awaits. -/
def awaiting : State :=
  let s := puts [(R.HEAD_STATUS, F.HEAD_STATUS.RUNNING, 1)] (linked 1)
  { s with head := { s.head with armed := true, nextB := 5, awaitLead := true } }

theorem witness_LinksOpenAndRoutesFollow :
    ((farm 0).flag R.DRUS_CTRL F.DRUS_CTRL.EN = true ∧ (farm 0).flag (R.DRUS_p_CTRL 0) F.DRUS_p_CTRL.EN = true ∧
        (puts [(R.DRUS_CTRL, F.DRUS_CTRL.EN, 0)] State.reset).flag R.DRUS_CTRL F.DRUS_CTRL.EN = false) ∧
      (linkRefuse (farm 0) 0 { aHello with dev := 0 } = 1 ∧ linkRefuse (farm 0) 0 { aHello with table := none } = 2 ∧
        linkRefuse (farm 0) 0 { aHello with period := 5 } = 4 ∧ linkRefuse (farm 0) 0 aHello = 0 ∧ aHello.dev < 8) ∧
      ((linked 0).flag (R.DRUS_p_STATUS 0) F.DRUS_p_STATUS.UP = true ∧ (farm 0).flag (R.DRUS_p_STATUS 0) F.DRUS_p_STATUS.UP = false ∧
        (linked 0).ownLink 0 = some 0) ∧
      (1 ∈ (linked 0).farm.up ∧ 1 ∉ (farm 0).farm.up) ∧ (2 ∈ (linked 0).farmTable.devs ∧ 2 ≠ (linked 0).ownDev ∧ (linked 0).reaches 2 = true) ∧
      (farm 0).reaches 2 = false := by
  decide +kernel

theorem witness_AFollowerKeepsFarmTime :
    (let s := linked 1
     s.flag (R.DRUS_p_STATUS 0) F.DRUS_p_STATUS.UP = true ∧ s.isFollower = true ∧ s.leadPort = some (0 : Fin 3).val ∧
      s.flag R.DRUS_STATUS F.DRUS_STATUS.HOLDOVER = false ∧ s.flag R.PTP_STATUS F.PTP_STATUS.SYNT_ONLY = false ∧ s.farm.tracking = false ∧
      s.farm.waitSeat = false ∧ s.farm.prev = some (10, 1990000) ∧ (drusStamp s 0 false 2000500 3).2 ≠ 1990000 ∧ 7 ≤ s.farm.run) ∧
      (farm 1).flag (R.DRUS_p_STATUS 0) F.DRUS_p_STATUS.UP = false ∧ { (linked 1).farm with tracking := true }.tracking = true ∧
      { (linked 1).farm with run := 6 }.run < 7 ∧ (linked 0).isFollower = false ∧
      (puts [(R.DRUS_STATUS, F.DRUS_STATUS.FARM_LOCKED, 1)] (linked 1)).flag R.DRUS_STATUS F.DRUS_STATUS.FARM_LOCKED = true ∧
      (awaiting.isFollower = true ∧ awaiting.headRun = true ∧ awaiting.head.armed = true ∧
        awaiting.flag R.HEAD_STATUS F.HEAD_STATUS.RUNNING = true ∧ 4 + 1 = awaiting.head.nextB ∧ awaiting.head.awaitLead = true) ∧
      (let s := { awaiting with raw := 0 }
       s.vNow < s.headMsgLimit) ∧ (awaiting.reg R.HEAD_SHIFT).toInt = 0 := by
  decide +kernel

/-- A transaction of device 1, in which this device is in doubt from base index 0 on. -/
def aPeer : PeerTxn := ⟨1, 5, 7, [], none, false, some 0⟩

theorem witness_FarmAccessesValuesAndPeers :
    ((0x20000008 : BitVec 35).toNat / 4 * 4 = 0x20000008 ∧ (regLookup 8).isSome = true ∧
        tget none State.reset.group (masterKey (remoteMaster 1) 8) = none ∧ ownedWrite (remoteMaster 1) 8 0 State.reset = none ∧
        8 ≠ (R.CAPT_EVENTS).addr ∧ 8 ≠ (R.GLEAN_EVENTS).addr ∧
        (8 ≠ (R.TIME_VNOW_LO).addr ∧ regIdx R.ACC_c_N 256 8 = none ∧ regIdx R.ACC_c_TRK_MIN 256 8 = none) ∧
        (spaceOf State.reset 0x14440000 = .granary ∧ spaceOf State.reset 0x14400000 = .granary ∧ spaceOf State.reset 0x14401000 = .granary) ∧
        State.reset.flag R.DRUS_CTRL F.DRUS_CTRL.REMOTE_WR = false ∧
        (puts [(R.DRUS_CTRL, F.DRUS_CTRL.REMOTE_WR, 1)] State.reset).flag R.DRUS_CTRL F.DRUS_CTRL.REMOTE_WR = true) ∧
      (spaceOf State.reset 0x14FFFFFC = .granary ∧ spaceOf State.reset 0x15000000 = .none_ ∧ spaceOf State.reset 0x13FFFFFC = .bank ∧
        bankFault State.reset 7 0x13FFFFFC true ≠ 0 ∧
        spaceOf (puts [(R.DDR_STATUS, F.DDR_STATUS.READY, 1), (R.DDR_SIZE, ⟨0, 32⟩, 16)] State.reset) 0x100FFFFFC = .ddr) ∧
      ((farm 0).reaches 1 = false ∧ (linked 0).reaches 1 = true ∧ (([(0, 7), (65535, 9)] : List (Nat × Quad)).map fun x => x.1 % 65536).Nodup) ∧
      (natBit (State.reset.reg R.DRUS_EVT_DESC).toNat 12 = false ∧ natBit 0x1007 12 = true) ∧
      ([aPeer].find? (fun x => x.coord = 1 ∧ x.handle = (5 : BitVec 16).toNat) = some aPeer ∧ aPeer.doubtSince.isSome = true ∧
        State.reset.txn.peers = [] ∧ { aPeer with doubtSince := none }.doubtSince = none ∧ (linked 0).reaches 1 = true ∧
        State.reset.farm.outOfStep = false ∧ { State.reset.farm with outOfStep := true }.outOfStep = true ∧
        64 ≤ ((List.range 64).map fun i => { aPeer with handle := i }).length ∧ ([].all (peerActionOk State.reset 0)) = true ∧
        [((0xA00001, EType.i32, 1) : Nat × EType × Quad)].all (peerActionOk State.reset 0) = false) ∧
      (∃ b, aPeer.doubtSince = some b ∧ b + ((regs [(R.DRUS_DOUBT_LIMIT, 0)] State.reset).reg R.DRUS_DOUBT_LIMIT).toNat % 65536 ≤ State.reset.headIndex) := by
  repeat' apply And.intro
  all_goals first
    | decide +kernel
    | exact ⟨0, by decide +kernel⟩

/-- A twin in a state, with the heartbeat of an index. -/
def twin (st : Nat) (beat : Option Nat) : State :=
  let s := puts [(R.DRUS_TWIN_STATUS, F.DRUS_TWIN_STATUS.TWIN_STATE, st), (R.DRUS_TWIN_STATUS, F.DRUS_TWIN_STATUS.EPOCH, 5)] (farm 0)
  { s with farm := { s.farm with twin := { s.farm.twin with beat := beat, mirrorAt := 7 } } }

/-- A complete mirror of base index 0, with one forced entry. -/
def aMirror : TwinMirror := ⟨0, [(5, 7)], [], [], [], [], [], [(1023, 5, 7, 9)], [], true⟩

theorem witness_TwinsMirrorAndTakeOver :
    (State.reset.twinState = 0 ∧ (twin 1 none).twinState = 1 ∧ (twin 2 none).twinState = 2 ∧ (twin 3 none).twinState = 3 ∧
        (twin 4 none).twinState = 4) ∧
      (aMirror.complete = true ∧ aMirror.index = (twin 2 none).headIndex ∧ aMirror.forces = [(1023, 5, 7, 9)] ∧ (1023 : Nat) < 1024 ∧
        { aMirror with complete := false }.complete = false) ∧
      ((twin 2 none).farm.twin.mirrorAt ≠ (twin 2 none).headIndex ∧ State.reset.farm.twin.mirrorAt = State.reset.headIndex) ∧
      (((6 : Fin 65536).val ≠ 5 ∧ ((6 : Fin 65536).val + 65536 - 5) % 65536 < 32768) ∧ (twin 1 none).get R.DRUS_TWIN_STATUS F.DRUS_TWIN_STATUS.EPOCH = 5 ∧
        ¬(((4 : Fin 65536).val + 65536 - 5) % 65536 < 32768)) ∧
      ((twin 2 none).farm.twin.beat ≠ some (twin 2 none).headIndex ∧ (twin 2 none).farm.twin.frameSeen = false ∧
        (twin 2 (some 0)).farm.twin.beat = some (twin 2 none).headIndex) ∧
      (([(5, [7, 8]), (0, [9])] : List (Nat × List Quad)).map (·.1)).Nodup ∧ (5, [7, 8]) ∈ ([(5, [7, 8]), (0, [9])] : List (Nat × List Quad)) ∧
      ([7, 8] : List Quad)[1]? = some 8 := by
  decide +kernel
/-! ### Chapter 17 -/

/-- A step of the shutdown, with a state of the controller. -/
def shutting (n ctrl : Nat) : State := { (puts [(R.CLK_SHUT_STATUS, F.CLK_SHUT_STATUS.STEP, n), (R.EXEC_STATUS, F.EXEC_STATUS.STATE, ctrl)] State.reset) with raw := 5000 }

/-- Warm resets that wait, with a state of the controller. -/
def warmDue (l : List WarmReq) (ctrl : Nat) : State := let s := shutting 0 ctrl; { s with resets := { s.resets with warm := l } }

/-- A cold reset that waits, or a start that is due. -/
def coldDue (x : Option (Nat × Quad)) (porst await : Bool) : State :=
  { State.reset with resets := { State.reset.resets with cold := x, porst := porst, await := await } }

/-- A power failure is qualified. -/
def pfail : State := puts [(R.CLK_STATUS, F.CLK_STATUS.PFAIL, 1)] State.reset

theorem witness_ResetsRebuildTheBlock :
    ((coldDue none true true).resets.porst = true ∧ (coldDue none false false).resets.cold = none ∧ (coldDue none false false).resets.await = false) ∧
      ((coldDue (some (3, 7)) false false).resets.cold = some (3, 7) ∧ (3 : Nat) < 16 ∧ (0 : Fin 3).val = 0 ∧ (7 : Byte).toNat < 8 ∧
        (coldDue none false true).resets.porst = false) ∧
      (∃ t, exec (.coldStart 5 false 0 0 0) (coldDue none false true) = .next t) ∧
      (let l := (List.range 9).map fun i => (⟨4, 0, 0, 3, 0, i, 0, 255, 1, 0⟩ : RepairRec)
       ∃ x ∈ l.zip (applyRepairs l), x.1.state ≠ 3 ∧ x.2.state = 3) ∧
      (pfail.pfailOn = true ∧ State.reset.pfailOn = false) ∧
      (inGranary 0x14000005 = true ∧ inGranary 0x10000000 = false ∧ (R.BIST_PTR).addr ∈ keptRegs ∧ (R.HEAD_PERIOD).addr ∉ keptRegs) ∧
      ((puts [(R.CLK_STATUS, F.CLK_STATUS.SVC_STATE, 1)] State.reset).get R.CLK_STATUS F.CLK_STATUS.SVC_STATE = 1 ∧
        (puts [(R.CLK_STATUS, F.CLK_STATUS.SVC_STATE, 2)] State.reset).get R.CLK_STATUS F.CLK_STATUS.SVC_STATE = 2) := by
  repeat' apply And.intro
  all_goals first
    | decide +kernel
    | exact ⟨_, rfl⟩

theorem witness_AWarmResetBridgesARunningController :
    State.reset.resets.warm = [] ∧
      (firstWarm (warmDue [⟨4, 9000, none⟩, ⟨3, 6000, none⟩] 1).resets.warm = some (⟨3, 6000, none⟩, [⟨4, 9000, none⟩]) ∧
        (warmDue [⟨3, 6000, none⟩] 1).resets.cold = none ∧ (warmDue [⟨3, 6000, none⟩] 1).shutStep < 5 ∧ (warmDue [⟨3, 6000, none⟩] 1).ctrl = 1 ∧
        (warmDue [⟨3, 6000, none⟩] 3).ctrl = 3 ∧ (warmDue [⟨3, 6000, none⟩] 2).ctrl = 2) ∧
      ((6000 : Quad).toNat ≤ (6000 : Quad).toNat ∧ ¬((6001 : Quad).toNat ≤ (6000 : Quad).toNat) ∧ 5 ≤ (shutting 5 2).shutStep) := by
  decide +kernel

theorem witness_ShutdownTrialAndWatchdogRunTheirCourse :
    (pfail.pfailOn = true ∧ State.reset.pfailOn = false ∧ State.reset.shutStep = 0 ∧ (shutting 0 1).ctrl ≠ 3 ∧ (shutting 0 3).ctrl = 3) ∧
      ((shutting 1 2).shutStep = 1 ∧ (shutting 1 2).ctrl = 2 ∧ (shutting 1 2).head.safeSeal = none ∧ (shutting 1 1).ctrl ≠ 2) ∧
      ((shutting 2 2).shutStep = 2 ∧ safeSent (shutting 2 2) = true ∧ txSettled (shutting 2 2) = true ∧
        safeSent (puts [(R.CAN_p_CTRL 0, F.CAN_p_CTRL.EN, 1)] (shutting 2 2)) = false ∧
        txSettled ((shutting 2 2).setTx 2 { Txn.free with gen := 1, state := 1 }) = false) ∧
      ((shutting 3 2).shutStep = 3 ∧ (shutting 3 2).unacked = []) ∧ ((shutting 4 2).shutStep = 4 ∧ (shutting 4 2).exec.cutAsked = 0 ∧
        { (shutting 4 2).exec with cutAsked := 2 }.cutAsked ≠ 0) ∧
      ((shutting 5 2).shutStep = 5 ∧ sliceFits (shutting 5 2) 0 = true ∧
        sliceFits (puts [(R.BIST_CTRL, F.BIST_CTRL.EN, 0)] (shutting 5 2)) 0 = false) ∧ (shutting 6 2).shutStep = 6 ∧ (shutting 7 2).shutStep = 7 ∧
      (let s := regs [(R.SEC_IMAGE_STATUS, 0x1111)] State.reset
       s.ctrlStopped = true ∧ s.imageResult (2 + (0 : Fin 2).val) = 1 ∧ (∀ x ∈ s.joa.xfers, x.slot < 2) ∧ s.olcState ≠ 1 ∧ s.shutStep = 0 ∧
        State.reset.imageResult 2 ≠ 1) ∧
      ((puts [(R.CLK_STATUS, F.CLK_STATUS.FW_TRIAL, 1)] State.reset).flag R.CLK_STATUS F.CLK_STATUS.FW_TRIAL = true ∧
        State.reset.flag R.CLK_STATUS F.CLK_STATUS.FW_TRIAL = false ∧ State.reset.resets.trialW = none ∧
        { State.reset.resets with trialW := some 50 }.trialW = some 50) ∧
      ((0x4A580000 : Word).toNat / 65536 = 0x4A58 ∧ (0 : Word).toNat / 65536 ≠ 0x4A58 ∧ State.reset.resets.recovery = false ∧
        State.reset.resets.toggle = none ∧ { State.reset.resets with toggle := some 0 }.toggle = some 0 ∧ ¬(msGrains 64 ≤ (5 - 0 : Quad).toNat)) := by
  decide +kernel

/-- R250, R550: the start reads the OTP and applies the repair records; the ninth row of a sub-array finds no spare. -/
theorem test_start_loads :
    (let s := { State.reset with sec := { Security.blank with otp := ⟨[(5, (0xFFFFFFF0, 0x100200))], [(1, 0x112233445566)], 7⟩ } }
     (otpLoad s).reg (R.AU_n_CAL_OFS_g 1 1) = 0xFFFFFFF0 ∧ (otpLoad s).reg (R.AU_n_CAL_GAIN_g 1 1) = 0x100200 ∧
       (otpLoad s).reg (R.AU_n_CAL_GAIN_g 0 0) = 0x100000 ∧ (otpLoad s).reg (R.UPLINK_p_MAC_HI 1) = 0x1122 ∧
       (otpLoad s).reg R.PTP_CLOCK_ID_LO = 7) ∧
      (let s := { State.reset with gran := { Granary.fresh with
          repairs := (List.range 9).map fun i => (⟨4, 0, 0, 3, 0, i, 0, 255, 1, 0⟩ : RepairRec) } }
       (repairLoad s).flag R.BIST_EVENTS F.BIST_EVENTS.NO_SPARE = true ∧
         (repairLoad State.reset).flag R.BIST_EVENTS F.BIST_EVENTS.NO_SPARE = false) := by
  decide +kernel
/-! ### Chapter 18 -/

/-- The memory is enabled, and trains or is ready. -/
def ddr (f : Fld) : State := puts [(R.DDR_CTRL, F.DDR_CTRL.EN, 1), (R.DDR_STATUS, f, 1)] State.reset

/-- Lane 0 checks PRBS and is locked. -/
def prbs : State := puts [(R.LINKTEST_l_CTRL 0, F.LINKTEST_l_CTRL.PRBS, 1), (R.LINKTEST_l_STATUS 0, F.LINKTEST_l_STATUS.LOCK, 1)] State.reset

/-- Generator 0 runs with one frame left, and checks. -/
def generating : State :=
  (puts [(R.LINKTEST_f_FCTRL 0, F.LINKTEST_f_FCTRL.CHECK, 1)] State.reset).setGen 0 ⟨true, some 1, 4294967295, 5000, some 7⟩

theorem witness_DdrTrainsAndIsTested :
    (State.reset.ddrCfgOk 1 = true ∧ fldOf F.DDR_CTRL.RETRAIN 1 = 0 ∧ fldOf F.DDR_CTRL.EN 1 = 1 ∧ State.reset.flag R.DDR_CTRL F.DDR_CTRL.EN = false ∧
        fldOf F.DDR_CTRL.EN 0 = 0 ∧ (ddr F.DDR_STATUS.READY).flag R.DDR_CTRL F.DDR_CTRL.EN = true ∧ State.reset.ddrCfgOk 0xFF = false ∧
        (ddr F.DDR_STATUS.READY).ddrCfgOk 1 = true) ∧
      ((ddr F.DDR_STATUS.TRAINING).flag R.DDR_STATUS F.DDR_STATUS.TRAINING = true ∧ State.reset.flag R.DDR_STATUS F.DDR_STATUS.TRAINING = false) ∧
      ((ddr F.DDR_STATUS.READY).ddrIdle = true ∧ (ddr F.DDR_STATUS.READY).ddrRegionOk = true ∧ State.reset.ddrIdle = false) ∧
      ((ddr F.DDR_STATUS.TESTING).flag R.DDR_STATUS F.DDR_STATUS.TESTING = true ∧ State.reset.flag R.DDR_STATUS F.DDR_STATUS.TESTING = false) := by
  decide +kernel

theorem witness_LinkTestsFollowTheirWrites :
    ((puts [(R.UPLINK_p_CTRL 0, F.UPLINK_p_CTRL.EN, 1)] State.reset).flag (R.UPLINK_p_CTRL 0) F.UPLINK_p_CTRL.EN = true ∧
        State.reset.flag (R.UPLINK_p_CTRL 1) F.UPLINK_p_CTRL.EN = false ∧ fldOf F.LINKTEST_l_CTRL.CLR 0 = 0) ∧
      (State.reset.flag (R.LINKTEST_l_CTRL 0) F.LINKTEST_l_CTRL.PRBS = false ∧ prbs.flag (R.LINKTEST_l_CTRL 0) F.LINKTEST_l_CTRL.PRBS = true ∧
        prbs.flag (R.LINKTEST_l_STATUS 0) F.LINKTEST_l_STATUS.LOCK = true ∧ State.reset.flag (R.LINKTEST_l_STATUS 7) F.LINKTEST_l_STATUS.LOCK = false) ∧
      (State.reset.genPortEn 0 = false ∧ State.reset.genLenOk 0 46 = true ∧ State.reset.genLenOk 0 45 = false ∧ State.reset.genLenOk 0 1500 = true ∧
        State.reset.genLenOk 7 8 = true ∧ State.reset.genLenOk 7 9 = false) ∧
      (generating.gen 0 = ⟨true, some 1, 4294967295, 5000, some 7⟩ ∧ State.reset.gen 0 = FrameGen.off ∧ FrameGen.off.running = false) ∧
      (generating.flag (R.LINKTEST_f_FCTRL 0) F.LINKTEST_f_FCTRL.CHECK = true ∧
        State.reset.flag (R.LINKTEST_f_FCTRL 0) F.LINKTEST_f_FCTRL.CHECK = false) ∧ seqGap 0 (some 7) 9 ≠ 0 := by
  decide +kernel
/-! ### Where the commands complete -/

/-- All that a headland brings is due, and nothing of a stop is. -/
theorem witness_CycleCommandsComplete :
    (atHeadland.head.armed = true ∧ atHeadland.head.sealDue = true ∧ atHeadland.head.safeSeal = none ∧ atHeadland.head.safeSwitch = none ∧
        atHeadland.head.safeDac = none ∧ atHeadland.head.switchDue = true ∧ atHeadland.head.dacDue = true) ∧
      (let u : State := { atHeadland with head := { atHeadland.head with sealDue := false, tasksDue := false } }
       u.headlandServed = true ∧ u.head.switchDue = true ∧ u.head.dacDue = true ∧ u.head.sealDue = false) ∧
      (withTask.head.tasksDue = true ∧ withTask.head.sealDue = false ∧ withTask.ctrlRunning = true ∧ withTask.standby = false ∧
        (5, withTask.desc 5) ∈ withTask.image.tasks ∧ (withTask.desc 5).kind = 1 ∧ (withTask.desc 5).cls < 4 ∧ (withTask.desc 5).home < 4 ∧
        natBit withTask.head.classDue (withTask.desc 5).cls = true ∧ withTask.taskEnabled 5 = true ∧ (withTask.task 5).st = 0 ∧
        5 ∉ withTask.collie.cancels.2) ∧
      firstRelease (yard.setReleases 0 [aRelease]) 0 (fun x => !x.folded) = some (0, aRelease) ∧
      (let r : Release := { aRelease with folded := true }
       firstRelease (yard.setReleases 0 [r]) 0 (fun x => !x.released) = some (0, r) ∧ r.actions = [] ∧ r.flow = none ∧ r.folded = true ∧
        ∀ x ∈ (yard.setReleases 0 [r]).releases 0, (x.folded && x.released) = false) := by
  decide +kernel

theorem witness_CollieCommandsComplete :
    nextExpiry delayed = some 3072 ∧
      (oldWaiter yard 2 = none ∧ (yard.desc 2).kind = 2 ∧ yard.ctrlStopped = false ∧ yard.taskEnabled 2 = true ∧ yard.collie.poolUsed < 8192 ∧
        (yard.task 2).st = 0 ∧ yard.cancelledIn 2 yard.raw = false) ∧
      ({ yard.collie with hwPosts := [⟨2, 5, none⟩] }.hwPosts = [⟨2, 5, none⟩] ∧ (yard.desc 1).kind = 1) ∧
      ((∃ it ∈ (flowing.flow 6).items, it.seq = (flowing.reg R.COLLIE_CMD_SEQ).toNat) ∧ ((flowing.flow 6).items.map fun it => it.seq).Nodup) ∧
      (fencedOnce.role 0 = 2 ∧ fencedOnce.get (R.PLOT_k_CORE_STATUS 0) F.PLOT_k_CORE_STATUS.FENCE_COUNT = 1 ∧
        (let u := puts [(R.PLOT_k_CORE_STATUS 0, F.PLOT_k_CORE_STATUS.ROLE, 3)] fencedOnce
         u.role 0 = 3 ∧ u.run 0 = none)) ∧
      (yard.role 0 ≠ 2 ∧ (7 : Nat) < 8 ∧ (3 : Fin 5) ≠ 4) := by
  decide +kernel

theorem witness_GleanerCommandsComplete :
    (gleaning.gleanOn = true ∧ gleaning.gleanFlag F.GLEAN_STATUS.HALTED = false) ∧
      (let c : SigCfg := ⟨2, 5, .b, 0, false, 1, 0, 0, 0⟩
       let s : State := ({ gleaning with
          head := { gleaning.head with gleanDue := true }
          glean := { gleaning.glean with sigs := [(3, c)] } }).setBlock 0 (some (aBlock 0))
       s.gleanOn = true ∧ s.gleanFlag F.GLEAN_STATUS.HALTED = false ∧ s.head.gleanDue = true ∧ s.glean.sigs = [(3, c)] ∧ 0 < c.kind ∧ c.kind < 5 ∧
        c.edge = false ∧ s.headIndex % c.div = 0 ∧ signalRead s c = some (0, 1) ∧ (s.sigState 3).last = none ∧
        s.block c.cls = some (aBlock 0) ∧ (aBlock 0).bytes.length + 32 ≤ 4064) ∧
      (let s := gleaning.setBlock 0 (some (aBlock 0))
       (s.sig 3).edge = true ∧ (s.sig 3).kind = 1 ∧ tooSoon s 3 50 = false ∧ s.block (s.sig 3).cls = some (aBlock 0)) ∧
      (let s := (held 1).setBlock 0 (some (aBlock 0))
       (s.sigState 3).heldEdge = some (1, 50) ∧ (s.sigState 3).last = some (0, 1) ∧ (1 : Quad) ≠ 0 ∧ s.block (s.sig 3).cls = some (aBlock 0)) ∧
      gapDue (gleaning.setLoss 2 ⟨3, 1, 4, 5, true, true, 0⟩) 2 = true ∧
      (let s := (puts [(R.GLEAN_CTRL, F.GLEAN_CTRL.SPOOL_EN, 1)] gleaning).setReg R.GLEAN_SPOOL_SIZE 4
       s.spoolOn = true ∧ s.glean.spool.length < s.spoolSize ∧ { s.glean with waiting := [aBlock 0] }.waiting = [aBlock 0]) ∧
      (let s := gleaning.setReg R.GLEAN_SIG_SEL 3
       (s.sigWritten ((s.reg R.GLEAN_SIG_SEL).toNat % 16384)).kind = 1) := by
  decide +kernel

theorem witness_MotionCommandsComplete :
    (fldOf F.AXIS_n_CTRL.EN 1 = 1 ∧ State.reset.axState 3 = 0 ∧ (axisAt 5 0 Axis.idle).axState 3 = 5) ∧ (0xFFFFFF : Word) &&& 0xFFFFFF = 0xFFFFFF ∧
      ((switched (axisAt 2 1 Axis.idle)).limitActive 3 true = true ∧ 0 < (drillNow 3 (switched (axisAt 2 1 Axis.idle))).vel 3) ∧
      ((drillNow 3 (homing 1 .index)).axis 3).homing = some ⟨1, false, .index, 0, 0⟩ ∧
      ((chopperAt 1 Chopper.start).phase 3 false = 1 ∧ (chopperAt 2 Chopper.start).phase 3 false = 2 ∧ (chopperAt 3 Chopper.start).phase 3 false = 3 ∧
        (chopperAt 4 Chopper.start).phase 3 false = 4) ∧
      (let s := puts [(R.CHOP_c_OPEN_CFG 3, F.CHOP_c_OPEN_CFG.OPEN_TICKS, 3)]
         (chopperAt 2 { Chopper.start with a := ⟨0, 8, 1, 4, 3, none, none⟩, b := ⟨0, 8, 1, 4, 3, none, none⟩, scale := some 255 })
       s.phase 3 true = 2 ∧ 16 ≤ s.chopCode 3 true ∧ s.get (R.CHOP_c_OPEN_CFG 3) F.CHOP_c_OPEN_CFG.OPEN_TICKS ≠ 0) ∧
      fldOf F.CHOP_c_CURRENT.REST_DELAY (State.reset.chopCurrent 3) ≠ 0 ∧ (State.reset.chop 3).ramped = none := by
  decide +kernel
/-! ### Whole machine -/

theorem witness_EveryStepKeepsMemoryCanonical :
    Memory.wf State.reset.mem = true ∧ Memory.wf [(5, 7), (9, 1)] = true ∧ Memory.wf [(9, 1), (5, 7)] = false ∧ Memory.wf [(5, 0)] = false ∧
      ∃ t, step { State.reset with pending := [.creditRefill] } = .next t :=
  ⟨by decide, by decide, by decide, by decide, _, rfl⟩

theorem witness_EveryStepKeepsTheFuses :
    ({ State.reset with sec := { State.reset.sec with rootE := [(3, ⟨some [1], true⟩)], retired := true } }.rootHolds false 3 [1]) ∧
      ({ State.reset with sec := { State.reset.sec with rootE := [(3, ⟨some [1], true⟩)], retired := true } }.rootRevoked false 3) ∧
      ∃ t, step { State.reset with pending := [.revoke false 3] } = .next t :=
  ⟨rfl, rfl, _, rfl⟩

theorem witness_AnEmptyQueueLetsAGrainPass :
    State.reset.pending = [] ∧ State.reset.joa.proxies = [] ∧ (∀ k, k < 32 → (State.reset.session k).queue = [] ∧ (State.reset.session k).pend = []) ∧
      State.reset.joa.subs = [] := by decide +kernel
/-! ### Values that the spec works out -/

/-- R40 (chapter 2, example): a new rate adds the whole grains of the old term to OFFSET, and moves RAW_REF to the present grain. -/
theorem test_rate_write_keeps_the_term :
    let s := { (((regs [(R.TIME_RATE_ADJ, 1099512)] State.reset).setReg64 R.TIME_RAW_REF_LO R.TIME_RAW_REF_HI 0x200000000)) with raw := 0x240000000 }
    let t := rateAdjWrite 5 s
    t.reg64 R.TIME_OFFSET_LO R.TIME_OFFSET_HI = 1073 ∧ t.reg64 R.TIME_RAW_REF_LO R.TIME_RAW_REF_HI = 0x240000000 ∧ t.vNow = s.vNow := by
  decide +kernel

/-- Chapter 2, example: the first edge, 80,000 grains after its headland, makes the target 80,000. -/
theorem test_headsync_first_edge :
    ∃ t, exec (.headsyncEdge 4274304 false) atFirst = .next t ∧ t.reg R.HEAD_TARGET = 80000 :=
  ⟨_, rfl, by decide +kernel⟩

/-- R8, R470 (chapter 12, example): the stamp 2,621,540 with fraction 5 becomes 2,500,095 ns and 43,611 / 65,536, and back. -/
theorem test_ptp_time : stampX State.reset (2621540, 5) = 41944645 ∧ toPtp 41944645 = ⟨0, 2500095, 43611⟩ ∧ ofPtp ⟨0, 2500095, 43611⟩ = 41944645 := by
  decide +kernel

/-- R475, R477 (chapter 12, example): D is 262,144 sixteenths and θ 33,554,432; the first sample leaves STATE at 2. -/
theorem test_ptp_exchange :
    let s := ptpRuns 1 { UplinkMeas.none_ with sync := some ⟨6, some (ofPtp ⟨0, 100000000, 0⟩), ofPtp ⟨0, 102015625, 0⟩, 4900, 0⟩, req := some (7, ofPtp ⟨0, 150000000, 0⟩) }
    ∃ t, exec (.delayResp 0 true { aMsg with time := ⟨0, 148015625, 0⟩ }) s = .next t ∧ t.ptp.ds = [524288] ∧
      t.reg64 R.PTP_OFFSET_LO R.PTP_OFFSET_HI = 33554432 ∧ t.servo = 2 :=
  ⟨_, rfl, by decide +kernel⟩

/-- Chapter 10, example: the reply of station 12 takes 1,057 grains at 1,000 Mb/s; the output frame has 586 bytes and takes 4,983 grains. -/
theorem test_field_frame :
    let l : List StationCfg := [⟨12, 0, 8, 8, 20000, 2000, 2, 0, 0, 0, 0, []⟩, ⟨20, 0, 16, 24, 38000, 2000, 2, 0, 0, 0, 0, []⟩]
    byteGrains 2 (16 + 8 + 64 + 38) = 1057 ∧ frameLen l 512 = 586 ∧ byteGrains 2 (8 + 586) = 4983 := by
  decide +kernel

/-- Chapter 8, example: a segment of 256 and 768 records has 4,160 bytes. -/
theorem test_segment_size : (regs [(R.CAPT_n_PRE 3, 256), (R.CAPT_n_POST 3, 768)] State.reset).segSize 3 = 4160 := by decide +kernel

/-- Chapter 8, example: the bytes of the record of signal 1,200. -/
theorem test_record_bytes :
    recordBytes 0x1234000000 0x1234300000 5 1200 1 [0, 0, 0, 0, 0, 0, 4, 0x40] =
      [0, 0, 0x30, 5, 0xB0, 4, 1, 0, 0, 0, 0, 0, 0, 0, 4, 0x40] := by decide +kernel

/-- Chapter 14, example: 180,016 bytes take 2,813 lines. -/
theorem test_lines : linesOf 180016 = 2813 ∧ linesOf 40 = 1 := by decide

/-- Chapter 9, example: at its boundary the command takes effect, and the first update makes v −2^20. -/
theorem test_move_abs :
    let s := (regs [(R.AXIS_n_ACCEL 18, 1048576), (R.AXIS_n_DECEL 18, 1048576), (R.AXIS_n_VCREEP 18, 8388608)]
      (puts [(R.AXIS_n_STATUS 18, F.AXIS_n_STATUS.STATE, 1)] (State.reset.setReg64 (R.AXIS_n_VMAX_LO 18) (R.AXIS_n_VMAX_HI 18) 2147483648))).setAxis 18
        { Axis.idle with queue := [⟨.host, 0, -12800, 1024⟩] }
    ∃ t u, exec (.moveAbs 18) s = .next t ∧ exec (.profileTick 18 1024) t = .next u ∧ u.vel 18 = -1048576 ∧ u.axState 18 = 2 :=
  ⟨_, _, rfl, rfl, by decide +kernel⟩

/-- Chapter 11, example: the READ_MULTI item of TIME_RATE_ADJ. -/
theorem test_read_multi :
    let s := regs [(R.TIME_RATE_ADJ, 0x10C6F8)] joaOpen
    ∃ t, exec (.readMulti 3 7 [0x00C08010]) s = .next t ∧ (t.session 3).queue = [.body
      ([0x12, 0, 7, 0, 1, 0, 0, 0] ++ leBytes 8 s.vT64.toNat ++ [0, 4, 4, 0, 0xF8, 0xC6, 0x10, 0])] :=
  ⟨_, rfl, by decide +kernel⟩

/-- Chapter 15, example: over raw Ethernet without jumbo frames a SIG_PART from OFFSET 2,664 carries the last 620 bytes of HSS_SIG. -/
theorem test_sig_part :
    carrierMax State.reset host 0 = 1464 ∧ (((List.replicate 3284 (0 : Byte)).drop 2664).take (1464 - 12)).length = 620 ∧
      (((List.replicate 3284 (0 : Byte)).drop 1212).take (1464 - 12)).length = 1452 := by
  refine ⟨by decide +kernel, ?_, ?_⟩ <;> simp only [List.length_take, List.length_drop, List.length_replicate] <;> decide

/-- Chapter 0, example: the T64 value of 2.5 ms and 100 grains. -/
theorem test_t64 : msGrains 2 + 524288 + 100 = 0x280064 ∧ msGrains 1 = 1048576 := by decide

end Sys2Proof.Tests
end

section
/-! SUPPORT. Registers and fields: what a read gives after each shared operation on the registers, and what the operation leaves
unchanged, register by register. -/

namespace Sys2Proof.Machine

variable {w : List Piece} {s t : State}

/-! ### Fields and halves of words -/

theorem fldOf_testBit (f : Fld) (x : Word) (i : Nat) :
    (fldOf f x).testBit i = (decide (i < f.width) && x.getLsbD (f.lo + i)) := by
  simp [fldOf, Nat.testBit_mod_two_pow, Nat.testBit_div_two_pow, BitVec.testBit_toNat, Nat.add_comm]

theorem setFldOf_getLsbD (f : Fld) (v : Nat) (x : Word) {i : Nat} (hi : i < f.width) (h : f.lo + i < 32) :
    (setFldOf f v x).getLsbD (f.lo + i) = v.testBit i := by
  simp only [setFldOf, Fld.mask, BitVec.getLsbD_or, BitVec.getLsbD_and, BitVec.getLsbD_not, BitVec.getLsbD_ofNat,
    Nat.testBit_mul_two_pow, Nat.testBit_two_pow_sub_one, Nat.testBit_mod_two_pow, Nat.add_sub_cancel_left]
  simp [hi, h]

/-- A field that lies in the word reads as what was put there, reduced to its width. -/
theorem fldOf_setFldOf_self (f : Fld) (v : Nat) (x : Word) (h : f.lo + f.width ≤ 32) :
    fldOf f (setFldOf f v x) = v % 2 ^ f.width := by
  refine Nat.eq_of_testBit_eq fun i => ?_
  rw [fldOf_testBit, Nat.testBit_mod_two_pow]
  by_cases hi : i < f.width
  · rw [setFldOf_getLsbD f v x hi (by omega)]
  · simp [hi]

@[simp] theorem pair_lo32_hi32 (q : Quad) : pair (lo32 q) (hi32 q) = q := BitVec.extractLsb'_append_extractLsb'

theorem clampInt_eq_max_min {lo hi : Int} (h : lo ≤ hi) (x : Int) : clampInt lo hi x = max lo (min hi x) := by
  unfold clampInt
  split
  · omega
  · split <;> omega

/-! ### Registers -/

/-- A pair of two registers reads as the 64-bit value it was set to. -/
theorem State.reg64_setReg64_self (s : State) {lo hi : Reg} (v : Quad) (h : lo.addr ≠ hi.addr) :
    (s.setReg64 lo hi v).reg64 lo hi = v := by
  simp [State.reg64, State.setReg64, State.reg_setReg_ne _ _ h]

theorem State.flag_congr {r : Reg} (f : Fld) (h : t.reg r = s.reg r) : t.flag r f = s.flag r f := by
  rw [State.flag, State.flag, State.get, State.get, h]

theorem State.flag_put_one (s : State) (r : Reg) {f : Fld} (hw : f.width = 1) (hl : f.lo < 32) :
    (s.put r f 1).flag r f = true := by
  simp [State.flag, State.get, State.put, fldOf_setFldOf_self f 1 _ (by omega), hw]

@[simp] theorem State.reg_incSat_self (s : State) (r : Reg) : (s.incSat r).reg r = satSucc (s.reg r) := by
  unfold State.incSat satSucc
  split
  · rfl
  · exact s.reg_setReg_self r _

theorem State.reg_incSat_ne (s : State) {r q : Reg} (h : q.addr ≠ r.addr) : (s.incSat r).reg q = s.reg q := by
  unfold State.incSat
  split
  · rfl
  · exact s.reg_setReg_ne _ h

/-! ### What is kept, register by register -/

/-- The list holds a register neither by itself nor with its block. -/
abbrev Reg.apart (r : Reg) (w : List Piece) : Prop := Piece.regs ∉ w ∧ Piece.block (blockOf r.addr) ∉ w ∧ r.piece ∉ w

theorem Keeps.reg {r : Reg} (h : Keeps w s t) (hr : r.apart w) : t.reg r = s.reg r := by
  obtain ⟨hregs, hblock, hpiece⟩ := hr
  exact congrArg (· ^^^ r.reset) (h.regs r.addr hregs hblock hpiece)

theorem Keeps.reg64 {lo hi : Reg} (h : Keeps w s t) (hl : lo.apart w) (hh : hi.apart w) : t.reg64 lo hi = s.reg64 lo hi := by
  rw [State.reg64, State.reg64, h.reg hl, h.reg hh]

/-- A write of a register that the list holds by itself. -/
theorem Keeps.setReg_piece {r : Reg} {v : Word} (hr : r.piece ∈ w) (h : Keeps w s t) : Keeps w s (t.setReg r v) :=
  { h with
    regs := fun a hn hb ha => by
      have hne : a ≠ r.addr := fun e => ha (e ▸ hr)
      simpa [State.setReg, tget_tset_ne _ hne] using h.regs a hn hb ha }

theorem Keeps.setReg64_piece {lo hi : Reg} {v : Quad} (hl : lo.piece ∈ w) (hh : hi.piece ∈ w) (h : Keeps w s t) :
    Keeps w s (t.setReg64 lo hi v) := (h.setReg_piece hl).setReg_piece hh

theorem Keeps.incSat_piece {r : Reg} (hr : r.piece ∈ w) (h : Keeps w s t) : Keeps w s (t.incSat r) := by
  unfold State.incSat
  split
  · exact h
  · exact h.setReg_piece hr

theorem Keeps.raise_piece {r : Reg} {f : Fld} (hr : r.piece ∈ w) (hw : Within noted w) (h : Keeps w s t) :
    Keeps w s (t.raise r f) := Keeps.evNote hw (h.setReg_piece hr)

/-! ### Events -/

/-- Noting an event writes no register outside block SYS. -/
theorem State.reg_evNote_of_block_ne (s : State) (r : Reg) (n : Nat) {q : Reg} (h : blockOf q.addr ≠ 0) :
    (s.evNote r n).reg q = s.reg q :=
  (Keeps.evNote (w := noted) (by exact rfl) (Keeps.refl _ s)).reg (by simpa [Reg.apart, noted, Reg.piece] using h)

theorem State.flag_raise_self (s : State) {r : Reg} {f : Fld} (hb : blockOf r.addr ≠ 0) (hw : f.width = 1) (hl : f.lo < 32) :
    (s.raise r f).flag r f = true :=
  (State.flag_congr f ((s.put r f 1).reg_evNote_of_block_ne r f.lo hb)).trans (s.flag_put_one r hw hl)

theorem State.reg_raise_ne (s : State) {r q : Reg} (f : Fld) (hb : blockOf q.addr ≠ 0) (h : q.addr ≠ r.addr) :
    (s.raise r f).reg q = s.reg q :=
  ((s.put r f 1).reg_evNote_of_block_ne r f.lo hb).trans (s.reg_setReg_ne _ h)

end Sys2Proof.Machine
end

section
/-! A write of TIME_RATE_ADJ (R38, R39): the three steps that every write takes, and the report of a value beyond the limit. -/

namespace Sys2Proof.Machine

/-- R39: the rate that a written value leaves. -/
def rateHeld (v : Word) : Int := clampInt (-rateLimit) rateLimit v.toInt

/-- The clock with its parameters kept for older timestamps (R469) and the accumulated term in OFFSET: step 1 of R38. -/
def rateTermTaken (s : State) : State :=
  (keepClock s).setReg64 R.TIME_OFFSET_LO R.TIME_OFFSET_HI
    (BitVec.ofInt 64 ((s.reg64 R.TIME_OFFSET_LO R.TIME_OFFSET_HI).toInt + s.rateTerm s.raw))

/-- The three steps of R38, for the rate c that the limit has left. -/
def rateTaken (c : Int) (s : State) : State :=
  ((rateTermTaken s).setReg64 R.TIME_RAW_REF_LO R.TIME_RAW_REF_HI s.raw).setReg R.TIME_RATE_ADJ (BitVec.ofInt 32 c)

/-- R39: what tells that a rate was held to the limit. -/
def rateClampNoted (s : State) : State :=
  (s.raise R.TIME_STATUS F.TIME_STATUS.RATE_CLAMPED).incSat R.TIME_RATE_CLAMP_CNT

/-! ### The model's write, in these two parts -/

theorem exec_rateAdjWrite (v : Word) (s : State) : exec (.rateAdjWrite v) s = .next (rateAdjWrite v s) := rfl

theorem rateAdjWrite_eq (v : Word) (s : State) :
    rateAdjWrite v s = if rateHeld v = v.toInt then rateTaken (rateHeld v) s else rateClampNoted (rateTaken (rateHeld v) s) := rfl

theorem rateHeld_eq (v : Word) : rateHeld v = max (-549755813) (min 549755813 v.toInt) := clampInt_eq_max_min (by decide) _

theorem rateAdjWrite_of_within {v : Word} (hl : -549755813 ≤ v.toInt) (hh : v.toInt ≤ 549755813) (s : State) :
    rateAdjWrite v s = rateTaken (rateHeld v) s := by
  rw [rateAdjWrite_eq, if_pos (by rw [rateHeld_eq]; omega)]

theorem rateAdjWrite_of_beyond {v : Word} (h : v.toInt < -549755813 ∨ 549755813 < v.toInt) (s : State) :
    rateAdjWrite v s = rateClampNoted (rateTaken (rateHeld v) s) := by
  rw [rateAdjWrite_eq, if_neg (by rw [rateHeld_eq]; omega)]

/-! ### The three steps -/

section
variable (c : Int) (s : State)

/-- What the three steps of a rate write may write. -/
def rateTakenPieces : List Piece :=
  [R.TIME_OFFSET_LO.piece, R.TIME_OFFSET_HI.piece, R.TIME_RAW_REF_LO.piece, R.TIME_RAW_REF_HI.piece, R.TIME_RATE_ADJ.piece, .ptp]

theorem rateTaken_keeps : Keeps rateTakenPieces s (rateTaken c s) :=
  (((keepClock_keeps (by exact rfl) (Keeps.refl _ s)).setReg64_piece (by decide) (by decide)).setReg64_piece
    (by decide) (by decide)).setReg_piece (by decide)

/-- Only the record of earlier clock parameters changes in the PTP part (R469). -/
theorem rateTaken_ptp : (rateTaken c s).ptp = { s.ptp with past := (rateTaken c s).ptp.past } := rfl

theorem rateTaken_offset : (rateTaken c s).reg64 R.TIME_OFFSET_LO R.TIME_OFFSET_HI =
    BitVec.ofInt 64 ((s.reg64 R.TIME_OFFSET_LO R.TIME_OFFSET_HI).toInt + s.rateTerm s.raw) := by
  have hkept : Keeps [R.TIME_RAW_REF_LO.piece, R.TIME_RAW_REF_HI.piece, R.TIME_RATE_ADJ.piece] (rateTermTaken s) (rateTaken c s) :=
    ((Keeps.refl _ _).setReg64_piece (by decide) (by decide)).setReg_piece (by decide)
  rw [hkept.reg64 (by decide) (by decide)]
  exact State.reg64_setReg64_self _ _ (by decide)

theorem rateTaken_rawRef : (rateTaken c s).reg64 R.TIME_RAW_REF_LO R.TIME_RAW_REF_HI = s.raw := by
  have hkept : Keeps [R.TIME_RATE_ADJ.piece] ((rateTermTaken s).setReg64 R.TIME_RAW_REF_LO R.TIME_RAW_REF_HI s.raw) (rateTaken c s) :=
    (Keeps.refl _ _).setReg_piece (by decide)
  rw [hkept.reg64 (by decide) (by decide)]
  exact State.reg64_setReg64_self _ _ (by decide)

theorem rateTaken_rate : (rateTaken c s).reg R.TIME_RATE_ADJ = BitVec.ofInt 32 c := State.reg_setReg_self _ _ _

end

/-- The rate held to the limit fits the register. -/
theorem rateTaken_rateHeld (v : Word) (s : State) :
    ((rateTaken (rateHeld v) s).reg R.TIME_RATE_ADJ).toInt = max (-549755813) (min 549755813 v.toInt) := by
  rw [rateTaken_rate, rateHeld_eq, BitVec.toInt_ofInt_eq_self (by decide)] <;> omega

/-! ### The report -/

/-- What the report of a rate beyond the limit may write. -/
def rateClampPieces : List Piece := [R.TIME_STATUS.piece, R.TIME_RATE_CLAMP_CNT.piece] ++ noted

theorem rateClampNoted_keeps (s : State) : Keeps rateClampPieces s (rateClampNoted s) :=
  ((Keeps.refl _ s).raise_piece (by decide) (by exact rfl)).incSat_piece (by decide)

theorem rateClampNoted_status (s : State) : (rateClampNoted s).flag R.TIME_STATUS F.TIME_STATUS.RATE_CLAMPED = true :=
  (State.flag_congr _ (State.reg_incSat_ne _ (by decide))).trans (s.flag_raise_self (by decide) rfl (by decide))

theorem rateClampNoted_count (s : State) :
    (rateClampNoted s).reg R.TIME_RATE_CLAMP_CNT = satSucc (s.reg R.TIME_RATE_CLAMP_CNT) := by
  rw [rateClampNoted, State.reg_incSat_self, State.reg_raise_ne _ _ (by decide) (by decide)]

/-- Reported or not, a write leaves what the three steps set. -/
theorem rateAdjWrite_keeps_rateTaken (v : Word) (s : State) :
    Keeps rateClampPieces (rateTaken (rateHeld v) s) (rateAdjWrite v s) := by
  rw [rateAdjWrite_eq]
  split
  · exact Keeps.refl _ _
  · exact rateClampNoted_keeps _

end Sys2Proof.Machine

open Sys2Proof Sys2Proof.Machine

/-- Settles O14: a write takes the three steps of R38 and, only beyond the limit, reports it; the report writes none of what the steps set. -/
theorem rateAdjIsClampedAndKeepsTheTerm : Obligations.RateAdjIsClampedAndKeepsTheTerm := by
  unfold Obligations.RateAdjIsClampedAndKeepsTheTerm
  intro v s
  have htaken := rateTaken_keeps (rateHeld v) s
  have hreport := rateAdjWrite_keeps_rateTaken v s
  refine ⟨rateAdjWrite v s, exec_rateAdjWrite v s, ⟨?ptp, ?rawRef, ?offset, ?rate, ?beyond, ?within⟩,
    (htaken.mono (by exact rfl)).trans (hreport.mono (by exact rfl))⟩
  case ptp => rw [hreport.ptp (by decide)]; exact rateTaken_ptp _ s
  case rawRef => rw [hreport.reg64 (by decide) (by decide), rateTaken_rawRef]
  case offset => rw [hreport.reg64 (by decide) (by decide), rateTaken_offset]
  case rate => rw [hreport.reg (by decide), rateTaken_rateHeld]
  case beyond =>
    intro hv
    rw [rateAdjWrite_of_beyond hv, rateClampNoted_count, htaken.reg (by decide)]
    exact ⟨rateClampNoted_status _, rfl⟩
  case within =>
    intro hl hh
    rw [rateAdjWrite_of_within hl hh]
    exact ⟨htaken.reg (by decide), htaken.reg (by decide), htaken.evlog (by decide)⟩
end

section
/-! Chapter 3 on a core that executes a run: the shapes that the rows of E-code share, what a task fault under continue and report
leaves of the run (R103, R104), and the divide rows (R75). -/

namespace Sys2Proof.Machine

variable {s u : State} {w : List Piece} {k : Nat} {r : Run} {fr : Frame} {rest : List Frame} {t : EType} {a b : Quad} {l : List Quad}

/-! ### The shapes of a row -/

theorem Executes.onFrame_eq (h : Executes s k r fr rest) {n : Nat} (hn : n ≤ fr.stack.length)
    (f : Run → Frame → List Frame → State → State) : onFrame k n f s = f r fr rest s := by
  simp [onFrame, h.run, h.frames, h.phase, hn]

theorem Executes.stackOp_eq (h : Executes s k r fr rest) {n : Nat} (hn : n ≤ fr.stack.length) (size : Nat)
    (f : List Quad → List Quad) :
    stackOp k size n f s = s.past k r fr rest size (f (fr.stack.take n) ++ fr.stack.drop n) :=
  h.onFrame_eq hn _

theorem Executes.binaryOp_eq (h : Executes s k r fr rest) (hs : fr.stack = b :: a :: l) (size : Nat) (f : Quad → Quad → Quad) :
    binaryOp k size f s = s.past k r fr rest size (f a b :: l) := by
  have hop := h.stackOp_eq (n := 2) (by simp [hs]) size fun c => [f (nth c 1) (nth c 0)]
  simpa [binaryOp, hs, nth] using hop

theorem Executes.legacyRun_eq (h : Executes s k r fr rest) : s.legacyRun k = r.mod.legacy := by
  simp [State.legacyRun, h.run]

/-- A typed row of a type that it is defined for and that the run's module has. -/
theorem Executes.typedOn_eq (h : Executes s k r fr rest) (ht : r.has t) {good : Bool} (hg : good = true) (f : State → State) :
    typedOn k t good f s = f s := by
  cases hl : r.mod.legacy with
  | false => simp [typedOn, typed, h.legacyRun_eq, hl, hg]
  | true =>
    obtain ⟨hi64, hf64, ht64⟩ := ht hl
    simp [typedOn, typed, hg, hi64, hf64, ht64]

/-! ### Task faults -/

theorem Keeps.run_eq (h : Keeps w s u) (hw : Piece.collie ∉ w) (k : Nat) : u.run k = s.run k := by
  rw [State.run, State.run, State.core, State.core, h.collie hw]

@[simp] theorem State.run_incSat (s : State) (q : Reg) (k : Nat) : (s.incSat q).run k = s.run k :=
  (Keeps.incSat_piece (w := [q.piece]) (by simp) (Keeps.refl _ s)).run_eq (by simp [Reg.piece]) k

@[simp] theorem State.run_raise (s : State) (q : Reg) (f : Fld) (k : Nat) : (s.raise q f).run k = s.run k :=
  (Keeps.raise_piece (w := q.piece :: noted) (by simp) (by simp [Within, noted]) (Keeps.refl _ s)).run_eq
    (by simp [Reg.piece, noted]) k

/-- R104: a task that runs on after a fault keeps its run, marked as faulted. -/
theorem taskFault_run {code : Nat} (hr : s.run k = some r) (hon : (taskFault k code s).1 = true) :
    (taskFault k code s).2.run k = some { r with faulted := true } := by
  unfold taskFault at hon ⊢
  simp only [hr] at hon ⊢
  split at hon
  · cases hon
  · cases hon
  · by_cases hf : r.faulted = true
    · have hmark : { r with faulted := true } = r := by rw [← hf]
      simp [hf, hr, hmark]
    · simp [hf]

/-- R103: after the fault the run stands where it stood, so that the row gives its result there. -/
theorem Executes.after_taskFault (h : Executes s k r fr rest) {code : Nat} (hon : (taskFault k code s).1 = true) :
    Executes (taskFault k code s).2 k { r with faulted := true } fr rest :=
  ⟨taskFault_run h.run hon, h.phase, h.frames⟩

theorem faultOp_of_stopped {code : Nat} (hoff : (taskFault k code s).1 = false) (g : State → State) :
    faultOp k code g s = (taskFault k code s).2 := by
  simp [faultOp, hoff]

theorem faultOp_of_runsOn {code : Nat} (hon : (taskFault k code s).1 = true) (g : State → State) :
    faultOp k code g s = g (taskFault k code s).2 := by
  simp [faultOp, hon]

/-! ### DIV and REM -/

theorem EType.ints_iff : t.ints = true ↔ t = .i32 ∨ t = .u32 ∨ t = .i64 ∨ t = .t64 := by simp [EType.ints]

theorem isFlt_of_ints (h : t.ints = true) : isFlt t = false := by
  rcases EType.ints_iff.mp h with rfl | rfl | rfl | rfl <;> rfl

theorem EType.arith_of_ints (h : t.ints = true) : t.arith = true := by
  rcases EType.ints_iff.mp h with rfl | rfl | rfl | rfl <;> rfl

theorem cellDiv_of_ne_zero (ht : t.ints = true) (hb : rdInt t b ≠ 0) :
    cellDiv t a b = wrInt t ((rdInt t a).tdiv (rdInt t b)) := by
  simp [cellDiv, isFlt_of_ints ht, hb]

theorem cellRem_of_ne_zero (hb : rdInt t b ≠ 0) : cellRem t a b = wrInt t ((rdInt t a).tmod (rdInt t b)) := by
  simp [cellRem, hb]

theorem cellDiv_of_zero (ht : t.ints = true) (hb : rdInt t b = 0) : cellDiv t a b = 0 := by simp [cellDiv, isFlt_of_ints ht, hb]

theorem cellRem_of_zero (hb : rdInt t b = 0) : cellRem t a b = 0 := by simp [cellRem, hb]

section
variable (h : Executes s k r fr rest) (hs : fr.stack = b :: a :: l) (f : Quad → Quad → Quad)
include h hs

theorem Executes.divOp_of_ne_zero (hb : rdInt t b ≠ 0) : divOp k t f s = s.past k r fr rest 1 (f a b :: l) := by
  have hop : divOp k t f s = binaryOp k 1 f s := by
    simp [divOp, h.onFrame_eq, hs, nth, hb]
  rw [hop, h.binaryOp_eq hs]

theorem Executes.divOp_of_zero (ht : t.ints = true) (hb : rdInt t b = 0) : divOp k t f s = faultOp k 1 (binaryOp k 1 f) s := by
  simp [divOp, h.onFrame_eq, hs, nth, hb, isFlt_of_ints ht]

/-- R75, R103: a divisor of 0 takes the fault DIV_ZERO; where the task runs on, the row gives f of its operands in the state after
the fault. -/
theorem Executes.divOp_faults (ht : t.ints = true) (hb : rdInt t b = 0) :
    ((taskFault k 1 s).1 = false → divOp k t f s = (taskFault k 1 s).2) ∧
    ((taskFault k 1 s).1 = true → ∃ r', (taskFault k 1 s).2.run k = some r' ∧
      divOp k t f s = (taskFault k 1 s).2.past k r' fr rest 1 (f a b :: l)) := by
  rw [h.divOp_of_zero hs f ht hb]
  refine ⟨fun hoff => faultOp_of_stopped hoff _, fun hon => ?_⟩
  have hafter := h.after_taskFault hon
  exact ⟨_, hafter.run, (faultOp_of_runsOn hon _).trans (hafter.binaryOp_eq hs 1 f)⟩

end

theorem Executes.exec_div {k : Fin 36} (h : Executes s k r fr rest) (hr : r.has t) (ht : t.ints = true) :
    exec (.div k t) s = .next (divOp k t (cellDiv t) s) :=
  congrArg Host.Outcome.next (h.typedOn_eq hr (EType.arith_of_ints ht) _)

theorem Executes.exec_rem {k : Fin 36} (h : Executes s k r fr rest) (hr : r.has t) (ht : t.ints = true) :
    exec (.rem k t) s = .next (divOp k t (cellRem t) s) :=
  congrArg Host.Outcome.next (h.typedOn_eq hr ht _)

end Sys2Proof.Machine

open Sys2Proof Sys2Proof.Machine

/-- Settles O5: both rows are one shape, `divOp`, which gives the row's cell function where the divisor is not 0 and else takes the
fault first; a cell function gives 0 there. -/
theorem divideRowsTruncate : Obligations.DivideRowsTruncate := by
  unfold Obligations.DivideRowsTruncate
  intro k s r fr rest h t a b l hty hr hs
  have ht : t.ints = true := EType.ints_iff.mpr hty
  have hdiv := h.exec_div hr ht
  have hrem := h.exec_rem hr ht
  constructor
  · intro hb
    rw [hdiv, hrem, h.divOp_of_ne_zero hs _ hb, h.divOp_of_ne_zero hs _ hb, cellDiv_of_ne_zero ht hb, cellRem_of_ne_zero hb]
    exact ⟨rfl, rfl⟩
  · intro hb
    have hdiv0 := h.divOp_faults hs (cellDiv t) ht hb
    have hrem0 := h.divOp_faults hs (cellRem t) ht hb
    rw [cellDiv_of_zero ht hb] at hdiv0
    rw [cellRem_of_zero hb] at hrem0
    simpa [hdiv, hrem] using And.intro hdiv0 hrem0
end

section
/-! Accesses to an address of the register space that holds no register (R455): what noting an event leaves of block SYS register by
register (R452), the record of such an access, and the bus accesses that make one. -/

namespace Sys2Proof.Machine

variable {w : List Piece} {s t : State}

/-! ### Fields -/

theorem setFldOf_getLsbD_outside (f : Fld) (v : Nat) (x : Word) {i : Nat} (h : i < f.lo ∨ f.lo + f.width ≤ i) :
    (setFldOf f v x).getLsbD i = x.getLsbD i := by
  have hout : ¬ (f.lo ≤ i ∧ i - f.lo < f.width) := by omega
  simp only [setFldOf, Fld.mask, BitVec.getLsbD_or, BitVec.getLsbD_and, BitVec.getLsbD_not, BitVec.getLsbD_ofNat,
    Nat.testBit_mul_two_pow, Nat.testBit_two_pow_sub_one, Nat.testBit_mod_two_pow]
  have hx : x.getLsbD i = true → i < 32 := BitVec.lt_of_getLsbD
  grind

/-- A field that shares no bit with another keeps its value when the other is set. -/
theorem fldOf_setFldOf_apart (f g : Fld) (v : Nat) (x : Word) (h : g.lo + g.width ≤ f.lo ∨ f.lo + f.width ≤ g.lo) :
    fldOf g (setFldOf f v x) = fldOf g x := by
  refine Nat.eq_of_testBit_eq fun i => ?_
  rw [fldOf_testBit, fldOf_testBit]
  by_cases hi : i < g.width
  · rw [setFldOf_getLsbD_outside f v x (by omega)]
  · simp [hi]

/-! ### Noting an event, register by register -/

/-- What an entry of the event log writes: the log and its two counts (R452). -/
def logged : List Piece := [.evlog, R.SYS_EVLOG_HEAD.piece, R.SYS_EVLOG_LOST.piece]

theorem Keeps.incWrap_piece {r : Reg} (hr : r.piece ∈ w) (h : Keeps w s t) : Keeps w s (t.incWrap r) := h.setReg_piece hr

theorem Keeps.evAppend_logged {e : EvEntry} (hw : Within logged w) (h : Keeps w s t) : Keeps w s (t.evAppend e) := by
  have hcounted := (h.set_evlog (hw.sub (by exact rfl)) (x0 := (t.evlog ++ [e]).drop (t.evlog.length - 1023))).incWrap_piece
    (r := R.SYS_EVLOG_HEAD) (hw.mem (by decide))
  unfold State.evAppend
  dsimp only
  split
  · exact hcounted.incSat_piece (hw.mem (by decide))
  · exact hcounted

/-- R452: noting an event writes the log, and where entries were lost it then sets EVLOG_OVF and logs that too. -/
theorem State.evNote_cases (s : State) (r : Reg) (n : Nat) :
    ∃ u, Keeps logged s u ∧
      (s.evNote r n = u ∨ ∃ e, s.evNote r n = (u.put R.SYS_EVENTS F.SYS_EVENTS.EVLOG_OVF 1).evAppend e) := by
  unfold State.evNote
  extract_lets _ _ u
  refine ⟨u, ?_, ?_⟩
  · unfold u
    split
    · exact (Keeps.refl _ s).set_evlog (by exact rfl)
    · exact (Keeps.refl _ s).evAppend_logged (by exact rfl)
  · split
    · exact .inl rfl
    · exact .inr ⟨_, rfl⟩

/-- Noting an event writes SYS_EVENTS and the log, and no other register. -/
theorem State.evNote_keeps_logged (s : State) (r : Reg) (n : Nat) : Keeps (R.SYS_EVENTS.piece :: logged) s (s.evNote r n) := by
  obtain ⟨u, hu, hnote⟩ := s.evNote_cases r n
  have hlog : Keeps (R.SYS_EVENTS.piece :: logged) s u := hu.mono (by exact rfl)
  rcases hnote with h | ⟨e, h⟩ <;> rw [h]
  · exact hlog
  · exact (hlog.setReg_piece (by decide)).evAppend_logged (by exact rfl)

/-- Of SYS_EVENTS, noting an event writes EVLOG_OVF alone. -/
theorem State.get_evNote_sysEvents (s : State) (r : Reg) (n : Nat) {g : Fld} (hg : g.lo + g.width ≤ 1 ∨ 2 ≤ g.lo) :
    (s.evNote r n).get R.SYS_EVENTS g = s.get R.SYS_EVENTS g := by
  obtain ⟨u, hu, hnote⟩ := s.evNote_cases r n
  have hlog : u.get R.SYS_EVENTS g = s.get R.SYS_EVENTS g := congrArg (fldOf g) (hu.reg (by decide))
  rcases hnote with h | ⟨e, h⟩ <;> rw [h]
  · exact hlog
  · have hentry : Keeps logged (u.put R.SYS_EVENTS F.SYS_EVENTS.EVLOG_OVF 1) _ := (Keeps.refl _ _).evAppend_logged (e := e) (by exact rfl)
    rw [State.get, hentry.reg (by decide), State.put, State.reg_setReg_self, fldOf_setFldOf_apart _ _ _ _ hg]
    exact hlog

theorem State.raise_keeps_logged (s : State) (r : Reg) (f : Fld) :
    Keeps (r.piece :: R.SYS_EVENTS.piece :: logged) s (s.raise r f) :=
  ((Keeps.refl _ s).setReg_piece (by simp)).trans
    (((s.put r f 1).evNote_keeps_logged r f.lo).mono (by simp [Within, logged]))

/-- A raised bit of SYS_EVENTS stands, whether or not its entry made the log overflow. -/
theorem State.flag_raise_sysEvents (s : State) {f : Fld} (hw : f.width = 1) (hl : f.lo < 32) (hne : f.lo ≠ 1) :
    (s.raise R.SYS_EVENTS f).flag R.SYS_EVENTS f = true := by
  have hbit := s.flag_put_one R.SYS_EVENTS hw hl
  rwa [State.flag, ← (s.put R.SYS_EVENTS f 1).get_evNote_sysEvents R.SYS_EVENTS f.lo (by omega)] at hbit

/-! ### The record of an unmapped access -/

/-- The address and the count of an unmapped access, before its event is raised. -/
def unmappedCounted (a : Nat) (s : State) : State :=
  (s.setReg64 R.SYS_UNMAPPED_ADDR_LO R.SYS_UNMAPPED_ADDR_HI (BitVec.ofNat 64 (0x20000000 + a))).incSat R.SYS_UNMAPPED_CNT

/-- The event writes neither the address nor the count. -/
theorem unmapped_keeps_counted (a : Nat) (s : State) :
    Keeps (R.SYS_EVENTS.piece :: logged) (unmappedCounted a s) (unmapped a s) :=
  ((unmappedCounted a s).raise_keeps_logged R.SYS_EVENTS F.SYS_EVENTS.UNMAPPED).mono (by exact rfl)

theorem unmapped_addr (a : Nat) (s : State) :
    (unmapped a s).reg64 R.SYS_UNMAPPED_ADDR_LO R.SYS_UNMAPPED_ADDR_HI = BitVec.ofNat 64 (0x20000000 + a) := by
  have hcount : Keeps [R.SYS_UNMAPPED_CNT.piece]
      (s.setReg64 R.SYS_UNMAPPED_ADDR_LO R.SYS_UNMAPPED_ADDR_HI (BitVec.ofNat 64 (0x20000000 + a))) (unmappedCounted a s) :=
    (Keeps.refl _ _).incSat_piece (by decide)
  rw [(unmapped_keeps_counted a s).reg64 (by decide) (by decide), hcount.reg64 (by decide) (by decide)]
  exact s.reg64_setReg64_self _ (by decide)

theorem unmapped_count (a : Nat) (s : State) :
    (unmapped a s).reg R.SYS_UNMAPPED_CNT = satSucc (s.reg R.SYS_UNMAPPED_CNT) := by
  have haddr : Keeps [R.SYS_UNMAPPED_ADDR_LO.piece, R.SYS_UNMAPPED_ADDR_HI.piece] s
      (s.setReg64 R.SYS_UNMAPPED_ADDR_LO R.SYS_UNMAPPED_ADDR_HI (BitVec.ofNat 64 (0x20000000 + a))) :=
    (Keeps.refl _ s).setReg64_piece (by decide) (by decide)
  rw [(unmapped_keeps_counted a s).reg (by decide), unmappedCounted, State.reg_incSat_self, haddr.reg (by decide)]

theorem unmapped_event (a : Nat) (s : State) : (unmapped a s).flag R.SYS_EVENTS F.SYS_EVENTS.UNMAPPED = true :=
  (unmappedCounted a s).flag_raise_sysEvents (f := F.SYS_EVENTS.UNMAPPED) rfl (by decide) (by decide)

/-! ### The accesses -/

theorem regRead_of_noRegister {a : Nat} (h : regLookup a = none) (m : Master) (s : State) :
    regRead m a s = unmapped a { s with readData := 0 } := by
  simp [regRead, h]

theorem regWrite_of_noRegister {a : Nat} (h : regLookup a = none) (m : Master) (v : Word) (s : State) :
    regWrite m a v s = unmapped a s := by
  simp [regWrite, h]

/-- R454: an address of the register space is that of a register by its offset. -/
theorem spaceOf_registers {a : Nat} (hlo : 0x20000000 ≤ a) (hhi : a < 0x30000000) (s : State) :
    spaceOf s a = .regs (a - 0x20000000) := by
  rw [spaceOf, if_neg (by omega), if_neg (by omega), if_pos ⟨hlo, hhi⟩]

theorem busRead_registers {a : Nat} (hlo : 0x20000000 ≤ a) (hhi : a < 0x30000000) (m : Master) (s : State) :
    busRead m a s = regRead m (a / 4 * 4 - 0x20000000) s := by
  simp [busRead, localRead, spaceOf_registers (a := a / 4 * 4) (by omega) (by omega)]

theorem busWrite_registers {a : Nat} (hlo : 0x20000000 ≤ a) (hhi : a < 0x30000000) (m : Master) (v : Word) (s : State) :
    busWrite m a v false s = regWrite m (a / 4 * 4 - 0x20000000) v s := by
  simp [busWrite, localWrite, collide, spaceOf_registers (a := a / 4 * 4) (by omega) (by omega)]

/-- The data read after an unmapped access: a read gives 0, and a write leaves it (R455). -/
def unmappedData (w : Option Word) (s : State) : Word := if w = none then 0 else s.readData

theorem exec_unmappedAccess (m : Master) {a : BitVec 40} (w : Option Word) (s : State) (hlo : 0x20000000 ≤ a.toNat)
    (hhi : a.toNat < 0x30000000) (hnone : regLookup (a.toNat / 4 * 4 - 0x20000000) = none) :
    exec (.unmappedAccess m a w) s =
      .next (unmapped (a.toNat / 4 * 4 - 0x20000000) { s with readData := unmappedData w s }) := by
  refine congrArg Host.Outcome.next ?_
  cases w with
  | none => exact (busRead_registers hlo hhi m s).trans (regRead_of_noRegister hnone m s)
  | some v => exact (busWrite_registers hlo hhi m v s).trans (regWrite_of_noRegister hnone m v s)

end Sys2Proof.Machine

open Sys2Proof Sys2Proof.Machine

/-- Settles O12: a read and a write both come down to `unmapped` with the data read set; its event may make the log overflow, which
writes no more of block SYS than the log's counts and EVLOG_OVF. -/
theorem unmappedAccessesAreRecorded : Obligations.UnmappedAccessesAreRecorded := by
  unfold Obligations.UnmappedAccessesAreRecorded
  intro m a w s hlo hhi hnone
  have hword : 0x20000000 + (a.toNat / 4 * 4 - 0x20000000) = a.toNat / 4 * 4 := by omega
  have hdata : ∀ o, (unmapped o { s with readData := unmappedData w s }).readData = unmappedData w s := fun o =>
    (unmapped_keeps (w := noted) (by exact rfl) (Keeps.refl _ _)).readData (by decide)
  refine ⟨_, exec_unmappedAccess m w s hlo hhi hnone, ⟨?read, ?write, ?addr, ?count, unmapped_event _ _⟩, ?keeps⟩
  case read => intro hw; rw [hdata, unmappedData, if_pos hw]
  case write => intro hw; rw [hdata, unmappedData, if_neg hw]
  case addr => rw [unmapped_addr, hword]
  case count => exact unmapped_count _ _
  case keeps => exact unmapped_keeps (by exact rfl) ((Keeps.refl _ s).set_readData (by exact rfl))
end
